-- ==== Sys2Proof/Word.lean ====
section
/-! DEFINITION. The word types of the ZW6440 model, the numbers of its units, and the operand types of its commands. -/
namespace Sys2Proof

/-- One byte of a value, of the buffer or of a transfer. -/
abbrev Byte := BitVec 8
/-- A ring time: an unsigned 64-bit count of 62.5 ps ticks (Scope and Conventions, R5). -/
abbrev Time := BitVec 64
/-- An encoder position: Q40.8 counts in two's complement (POS48). -/
abbrev Pos := BitVec 48

/-- Heads 0 to 3 (R10). -/
abbrev HeadId := Fin 4
/-- The 16 segments, and so the 16 video inputs, of one head. -/
abbrev SegId := Fin 16
/-- Motion axes 0 and 1. -/
abbrev AxisId := Fin 2
/-- Span ports 0 and 1. -/
abbrev SpanId := Fin 2
/-- Auxiliary channels 0 to 15. -/
abbrev AuxId := Fin 16
/-- Echo outputs 0 to 3 (R331). -/
abbrev EchoId := Fin 4
/-- Timer and counter units 0 to 15 (R372). -/
abbrev TimerId := Fin 16
/-- Fabric sources (R363). -/
abbrev SourceId := Fin 1024
/-- Fabric task inputs (R363). -/
abbrev TaskId := Fin 512
/-- DMA channels (R381). -/
abbrev ChanId := Fin 32
/-- Delivery queues of the host port (R448). -/
abbrev QueueId := Fin 16
/-- Mailbox slots of the host port (R444). -/
abbrev SlotId := Fin 8
/-- Pier numbers 0 to 63. -/
abbrev PierId := Fin 64

/-- The route by which a dictionary request reaches the arbiter (R53): a CAN FD client, a slot of the PCIe
mailbox, the ring tunnel from the abutment named, or the SMBus. -/
inductive Route where
  | can (client : Fin 128)
  | mailbox (slot : SlotId)
  | tunnel (abutment : PierId)
  | smbus
  deriving DecidableEq, Repr

/-- Where an action that a write and a task can both ask for comes from: a dictionary write by a route, or a
task with the ring time stamped at its catch latch (R359). -/
inductive Via where
  | write (r : Route)
  | task (stamp : Time)
  deriving DecidableEq, Repr

/-- How a command reaches a register that the dictionary, BAR0 and a task share: a dictionary write, a BAR0 write, a task. -/
inductive Port where
  | write (r : Route)
  | bar0
  | task
  deriving DecidableEq, Repr

/-- What else reaches a head in the HD cycle of a trigger (R90): nothing, a second trigger, a stop. -/
inductive Meet where
  | alone | trigger | stop
  deriving DecidableEq, Repr

/-- What else reaches the capture buffer in the MEM cycle of a burst trigger (R217): nothing, a disarm, a second burst trigger
with its B, the completion of a burst. -/
inductive BurstMeet where
  | alone | disarm | second (b : Time) | complete
  deriving DecidableEq, Repr

/-- What else falls in the MOT cycle of a crossing (R256, R283): nothing, a pause cause, the end of the page, a motion fault. -/
inductive CrossMeet where
  | alone | pause | ending | fault
  deriving DecidableEq, Repr

/-- What else reaches a head in the CTL cycle of its start (R27, R96, R586): nothing, a stop by command or by task, a second
start, an isolation. -/
inductive StartMeet where
  | alone | stop (byTask : Bool) | start (other : Via) | isolate (other : Via)
  deriving DecidableEq, Repr

/-- What else reaches the block of a command in its cycle (R256, R285): nothing, the other request of the pair that the command's rule
names, or a second request of the same kind. -/
inductive PairMeet where
  | alone | other | twin
  deriving DecidableEq, Repr

/-- How a request of a CAN FD client stands to a transfer (R31, R53): whole in one message; the first message of a segmented or block
transfer; or a further one, with whether it ends the transfer (of a write) and whether it arrives in the CTL cycle in which the transfer
would time out. A message of a read carries at most `n` bytes of the object. -/
inductive Portion where
  | whole
  | first (n : Nat)
  | next (n : Nat) (last late : Bool)
  deriving DecidableEq, Repr

/-- What one video input presents for one pixel of a readout window: the input voltages at the CDS reference sample
and at the signal sample in nanovolts, and how far the converter's code departs from the nominal transfer of R99 (or,
in a calibration slot, from the nominal source code of R106), in codes. -/
structure Sample where
  vRef : Int
  vSig : Int
  dev : Int
  deriving DecidableEq, Repr

/-- What the sixteen inputs present during one readout window: the samples of each segment in readout order, taken at the instants of
R73 and R105; the inputs (bit s) whose input protection clamp conducted outside the calibration slots (R117); and those whose overrange
detector tripped inside a slot (R109). Whether the PGA output passed the converter's span is computed from the samples. -/
structure Video where
  samples : List (List Sample)
  clamped : BitVec 16
  slotTrip : BitVec 16
  deriving DecidableEq, Repr

/-- What a head measures on its lamps during one line's pulse: the lamps whose sink stayed below 90 % of its current for the
whole pulse (R306), the lowest sink headroom in mV at pulse centre (R300), the highest column voltage in mV on a lit lamp
(R297), and the voltage on LEDn_BST_FB in mV (R300). -/
structure LampReport where
  weak : List Nat
  headroom : Option Int
  column : Option Nat
  output : Nat
  deriving DecidableEq, Repr

end Sys2Proof
end

