-- ==== Sys2Proof/Machine/Parts/Common.lean ====
section
/-! DEFINITION. Types shared by every block: abort codes, results of a dictionary request, object types and access
codes, the rows of the object tables, and the maps that hold sparse data. -/
namespace Sys2Proof.Machine

/-- Sparse data by number: pairs with strictly rising keys. -/
abbrev Map (α : Type) := List (Nat × α)

/-- A fraction num ÷ den, with den above 0. -/
structure Frac where
  num : Int
  den : Nat
  deriving DecidableEq, Repr

/-- The abort codes of R58, in its order. -/
inductive AbortCode where
  | toggle | timedOut | specifier | blockSize | blockSequence | blockCrc | outOfMemory
  | route | readOfWo | writeOfRo | noObject | incompatible | hardware | length | noSub
  | range | tooHigh | tooLow | unavailable | notStored | deviceState
  | conflict | eventLoop | minority | countersign | notStopped | level | feature
  | misaligned | thermalVeto | isolated
  deriving DecidableEq, Repr

/-- The outcome of a dictionary request: success, the bytes read, or one abort code (R59). -/
inductive Result where
  | ok
  | data (bytes : List Byte)
  | abort (code : AbortCode)
  deriving DecidableEq, Repr

/-- The object types of Scope and Conventions. -/
inductive Ty where
  | bool | u8 | u16 | u32 | u64 | i8 | i16 | i32 | i64 | time64 | pos48 | octets | vstring | table
  deriving DecidableEq, Repr

/-- The access codes of R3. -/
inductive Acc where
  | const | ro | rw | wo | rwx | rws | rwc
  deriving DecidableEq, Repr

/-- One sub-index of the dictionary that holds a number: its place, its type and its default (as raw bits). -/
structure Obj where
  index : Nat
  sub : Nat
  ty : Ty
  dflt : Nat
  deriving DecidableEq, Repr

/-- The range that an object's table states, with the abort code that a value outside it brings (R58): `range` and
`oneOf` answer 0x0609_0030, `hiLo` answers 0x0609_0031 above and 0x0609_0032 below, `hi` 0x0609_0031, `lo` 0x0609_0032;
`mult` is a range in steps, `pow2` the powers of two in a range (0 too where the flag says), `mask` the bits that are not
reserved, `pdoType` the transmission types of R467. -/
inductive Chk where
  | any
  | range (lo hi : Int)
  | hiLo (lo hi : Int)
  | hi (hi : Int)
  | lo (lo : Int)
  | oneOf (vs : List Int)
  | mult (lo hi step : Int)
  | pow2 (lo hi : Int) (zeroOk : Bool)
  | mask (m : Nat)
  | pdoType
  deriving DecidableEq, Repr

/-- What one paced head puts on the way to its abutment (R236): the bytes of its slot, the abutment, the span. -/
structure HeadLoad where
  slot : Nat
  abutment : Nat
  span : Nat
  deriving DecidableEq, Repr

/-- What a pier publishes every 8 µs (R234): its drain level, the lowest last sequence of its paced heads (nothing without one), and what the
owner forms F_c and the pacing ceiling from (R236, R237): the longest effective minimum period of its paced heads in fine units, and their
loads. -/
structure LevelInfo where
  level : Nat
  last : Option Nat
  period : Nat
  loads : List HeadLoad
  deriving DecidableEq, Repr

/-- What a pier tells of its paced heads beside its drain level (R234, R236, R237), as in `LevelInfo`. -/
structure PacedInfo where
  last : Option Nat
  period : Nat
  loads : List HeadLoad
  deriving DecidableEq, Repr

/-- An access to BAR0 (R443): its byte offset, its size in bytes, and whether it writes. -/
structure BarAccess where
  off : BitVec 20
  size : Nat
  write : Bool
  deriving DecidableEq, Repr

/-- An edge at a trigger pin of a head (R79): its direction, and the length in ticks of the pulse that it begins. -/
structure PinEdge where
  head : HeadId
  falling : Bool
  width : Nat
  deriving DecidableEq, Repr

/-- What an axis finds at its power stage when it is enabled (R284): V_M in mV, and whether MOTa_FLT_N is low. -/
structure StageLevels where
  vmMv : BitVec 16
  fltLow : Bool
  deriving DecidableEq, Repr

/-- What surrounds an encoder crossing (R283): for the page what falls in its MOT cycle, for the head that it fires what reaches it in its HD
cycle. -/
structure CrossingMeets where
  page : CrossMeet
  head : Meet
  deriving DecidableEq, Repr

/-- An encoder error of an axis (R264): cause 0 for A and B changed in one sample, 1 for a differential pair at one level, 2 for the count
rate. -/
structure EncoderFault where
  axis : AxisId
  cause : Fin 3
  deriving DecidableEq, Repr

/-- A lead of an auxiliary channel that the wire-break comparators watch (R324): the sense lead, or the signal lead. -/
structure Lead where
  channel : AuxId
  sense : Bool
  deriving DecidableEq, Repr

/-- What a USDO request asks for (R465): the data of a write, none for a read, and whether it is whole or a part of a transfer (R31). -/
structure UsdoBody where
  write : Option (List Byte)
  part : Portion
  deriving DecidableEq, Repr

/-- What surrounds a dictionary write and is not in the pier's state: `same` says that the other request of the kind that its rule names
reaches its block in the same cycle (an abort beside a start, a second arming, a window that ends), `meet` and `start` what reaches the
head in the cycle of a software trigger or of a start, `burst` what reaches the capture buffer in that of a burst trigger; `banks` are the voltages in mV that the heads measure on HDn_VIOPAT, `vm` those
of the axes on V_M; `crossing` is the pier whose claim crosses this one's; `othersAgree` that the grids of the epoch's paced heads agree, or, for
`device.features.control`, that every other member of the epoch has confirmed feature bit 4;
`othersRun` that a head of another member runs; `startFail` the first head of another member that fails the check of a ring-wide start,
and `epoch` that the epoch changes during it; `twin` that a second request of the same kind reaches its block in the same cycle; `again` are the keys of counters, the bits of alert causes, the interrupt
causes or the clamped channels that their blocks raise in the cycle of a clear; `flt` the axes whose MOTa_FLT_N is low; `errors` the bit errors that the loopback ending now has counted; `merged` that a later event merged into the task (R360). -/
structure Env where
  same : Bool
  meet : Meet
  start : StartMeet
  burst : BurstMeet
  banks : List Nat
  vm : List Nat
  crossing : Option PierId
  othersAgree : Bool
  othersRun : Bool
  startFail : Option (PierId × HeadId × AbortCode)
  epoch : Bool
  again : List Nat
  errors : Nat
  twin : Bool
  flt : Nat
  merged : Bool
  deriving DecidableEq, Repr

/-- One row of an object table: `count` indices from `i0` in steps of `stride`, sub-indices `s0` to `s1`. `p` is
the P mark of R3, `ctr` says that `diag.clear` clears it (R583). -/
structure Row where
  i0 : Nat
  stride : Nat
  count : Nat
  s0 : Nat
  s1 : Nat
  ty : Ty
  acc : Acc
  p : Bool
  dflt : Nat
  chk : Chk
  ctr : Bool
  deriving DecidableEq, Repr

end Sys2Proof.Machine
end

