-- ==== Sys2Proof/Machine/Parts/Ring.lean ====
section
/-! DEFINITION. State of the span ring, ring time and the membership epoch (R404 to R435), and the messages and frames of the link. -/
namespace Sys2Proof.Machine

/-- The ring-wide objects that a member can write (R429): `ring.configured`, the claim of an axis, the pacing ceiling of an axis. -/
inductive RingWide where
  | configured
  | claim (a : AxisId)
  | ceiling (a : AxisId)
  deriving DecidableEq, Repr

/-- Messages that a pier sends on the ring. -/
inductive RingMsg where
  /-- A crossing of a trigger position: its index k, its time C, and flags that the line carries (R86, R87, R251, R256). -/
  | crossing (k : Nat) (c : Time) (flags : Nat)
  /-- An idle instant with its idle mark (R242); for an approach line, the index of its position (R247). -/
  | idle (c : Time) (line : Option Int)
  /-- The owner's position latched at a common T_E (R89). -/
  | latch (tE : Time) (position : Int)
  /-- The position source's position, speed and validity, every 8 µs (R282). -/
  | position (position speed : Int) (valid : Bool)
  /-- A drain-level report (R234). -/
  | level (info : LevelInfo)
  /-- The state of the page's controller, when it changes (R233, R239). -/
  | page (state : Nat)
  /-- A span-fault event of the epoch (R251, R419). -/
  | spanFault
  /-- `device.mode` of the leader (R16). -/
  | mode (n : Nat)
  /-- The origin offers itself as an abutment, or withdraws its offer (R414). -/
  | offer (on : Bool)
  /-- Whether feature bit 4 is confirmed on every member (R414). -/
  | failover (on : Bool)
  /-- A write to a ring-wide object goes to the leader (R429). -/
  | ask (o : RingWide) (v : Nat)
  /-- The leader orders a ring-wide write of a member, and every member applies it (R429). -/
  | wide (o : RingWide) (v : Nat) (writer : PierId)
  /-- A stepped cap and the instant at which it left (R19). -/
  | cap (lines : Nat) (left : Time)
  /-- A burst trigger and its B (R214). -/
  | burst (b : Time)
  /-- The claim of the position source (R281); `held` false gives it up. -/
  | claim (held : Bool)
  /-- The pacing ceiling that the owner publishes (R236). -/
  | ceiling (lines : Nat)
  /-- A sync of ring time (R422). -/
  | sync
  /-- `ring.configured` as the root derived it (R413). -/
  | configured (n : Nat)
  /-- The topology: the pier whose span 1 is down, or a closed ring (R417). -/
  | topology (wrapAfter : Option Nat)
  /-- The rejoin offset, the join time and the previous epoch (R431). -/
  | rejoin (offset : Int) (at_ : Time) (epoch : Nat)
  /-- The start of the heads that take part, at an instant (R426). -/
  | start (s : Time)
  /-- The heads of the origin that take part run, or the one named failed to lock (R426). -/
  | started (failed : Option HeadId)
  /-- A pier leaves for deep sleep (R532). -/
  | leave
  deriving DecidableEq, Repr

/-- What a ring-DMA frame asks for (R381, R382): an access to the memory of the abutment's host or to the buffer of the destination, its
address, and for a request to read how many bytes. -/
structure RingDma where
  host : Bool
  address : Nat
  read : Option Nat
  deriving DecidableEq, Repr

/-- A message as a span receives it (R408): the pier that sent it, and the bank supplies in mV that the heads of a ring-wide start measure. -/
structure Arrival where
  origin : PierId
  message : RingMsg
  banks : List Nat
  deriving DecidableEq, Repr

/-- A ring-DMA frame from another pier (R382): that pier, and what its channel asks for. -/
structure DmaFrame where
  src : PierId
  access : RingDma
  deriving DecidableEq, Repr

/-- A sync message as a span receives it (R422), with the estimated offset in ps. -/
structure SyncInfo where
  span : SpanId
  offset : Int
  deriving DecidableEq, Repr

/-- A data frame (R406): class, destination, origin, its bytes, what a ring-DMA frame asks for, and for a tunnel frame that answers one of
this pier's mailbox slots the slot and the answer. -/
structure Frame where
  cls : Nat
  dest : Nat
  src : Nat
  bytes : List Byte
  dma : Option RingDma
  answer : Option (SlotId × Result)
  deriving DecidableEq, Repr

/-- One pier that numbering finds (R412): `ring.root`, the serial number, and how many hops this pier lies from it through the span-1 and the
span-0 direction, where it can be reached that way. -/
structure RootInfo where
  root : Bool
  serial : Nat
  up : Option Nat
  down : Option Nat
  deriving DecidableEq, Repr

/-- The ring-wide state of an epoch (R429), and its page and time source (R233, R420): `ring.configured`, the pacing ceiling if one was
published, the pier that holds the position-source claim (0xFF none), the stepped caps by pier, the state of the page, the time source. -/
structure WideState where
  configured : Nat
  ceiling : Option Nat
  claim : Nat
  caps : List (Nat × Nat)
  page : Nat
  source : Nat
  deriving DecidableEq, Repr

/-- What the piers find when an epoch forms (R412, R427 to R431): the other reachable piers for the numbering of one that has no number,
the members by pier number, the highest generation that a member held (in a join, one of this pier's epoch), the piers that offer
themselves as abutment (R414), whether feature bit 4 is confirmed on every member, each member's time priority, the leader's mode, and
where the ring is open (nothing: closed), and the ring-wide state that a pier finds in it, or in the epoch that it joins. -/
structure EpochInfo where
  reach : List RootInfo
  members : BitVec 64
  generation : Nat
  offers : BitVec 64
  failover : Bool
  priorities : List (Nat × Nat)
  leaderMode : Nat
  wrapAfter : Option Nat
  wide : WideState
  deriving DecidableEq, Repr

/-- One span. `spare` is the lane held as spare and `changing` the failed lane that it is about to replace (R410); the sequences are
those of the next frame sent and expected, `replayed` the frame last replayed and how often in a row (R406, R411); `sent` are the last
frames sent with their sequences, oldest first, 256 KiB at most, and `waiting` those that a changeover holds (R406, R410); `hopDelay` is
in ps (R422). -/
structure Span where
  spare : Option Nat
  changing : Option Nat
  txSeq : Nat
  rxSeq : Nat
  replayed : Option (Nat × Nat)
  sent : List (Nat × Frame)
  waiting : List Frame
  hopDelay : Int
  deriving DecidableEq, Repr

/-- A ring-wide start in progress (R426): what asked for it (nothing: another member did), the heads of this pier that have still to lock,
the first of them that failed, the other members whose heads have still to run, whether a head failed. -/
structure RingStart where
  via : Option Via
  heads : List Nat
  failedHead : Option HeadId
  waits : List Nat
  failed : Bool
  deriving DecidableEq, Repr

/-- The ring. `minority` says that the epoch lacks authority (R430) and `foreign` that its time source is not the authority's;
`leaderMode` is the mode of the leader of the epoch, nothing while this pier leads (R16); `ceiling` is the pacing ceiling last
published, if one was (R236), and `page` the state of the page of the epoch's owner (R233); `closedOnce` says that the ring has closed
since the reset (R413); `wrapAfter` is where the ring is open; `lastSync` is the last valid sync, `lockSince` since when the offset has
been within ±1 ns, `slew` the offset in ticks still to be slewed (R425); `latches` are the common instants at which
this pier as the position source will latch its position (R89), and `source` is what the position source last sent: position, speed,
validity (R282); `asked` are the writes of this pier to ring-wide objects that the leader has still to order (R429);
`lossAt`, `downAt` and `electedAt` are when an abutment was last lost, a span last went down and a time source was last elected (R432). -/
structure Ring where
  minority : Bool
  ceiling : Option Nat
  page : Nat
  closedOnce : Bool
  members : List Nat
  foreign : Bool
  leaderMode : Option Nat
  generation : Nat
  offers : List Nat
  failover : Bool
  wrapAfter : Option Nat
  spans : Vector Span 2
  lastSync : Option Time
  lockSince : Option Time
  everLocked : Bool
  slew : Int
  start : Option RingStart
  latches : List Time
  source : Option (Int × Int × Bool)
  asked : List (RingWide × Nat × Via)
  lossAt : Option Time
  downAt : Option Time
  electedAt : Option Time
  deriving DecidableEq, Repr

end Sys2Proof.Machine
end

