-- ==== Sys2Proof/Machine/Parts/System.lean ====
section
/-! DEFINITION. State of the whole pier: power states, reset and restart, the thermal governor, boundary scan, memory test and
repair, and the nonvolatile store of saved sets (R32 to R38, R516 to R549, R568 to R589). -/
namespace Sys2Proof.Machine

/-- Where the pier stands between reset and deep sleep (R527 to R535): held in reset, serving its dictionary, its control cores
restarting, in deep sleep. The steps into deep sleep and out of it are one command each. -/
inductive Phase where
  | held | served | restarting | asleep
  deriving DecidableEq, Repr

/-- Power and reset. `causes` are the cause bits of the reset in progress and `restart` those of the restart in progress;
`violation` is the first rail out of order in the last power-up that broke R517; `armed` is when an armed deep-sleep request expires;
`resetAt` is when the reset in progress, or the last one, began;
`shown` is the power state last told by SMBus alert 3; `crystal` and `pcieRef` say that the crystal runs and that the PCIe reference is
present (R523). -/
structure Power where
  phase : Phase
  causes : Nat
  restart : Nat
  violation : Option Nat
  armed : Option Time
  shown : Nat
  crystal : Bool
  pcieRef : Bool
  resetAt : Time
  deriving DecidableEq, Repr

/-- The governor. `caps` are the stepped caps in force, by the pier that made each; `changes` the caps that wait for the first line
boundary at or after an instant: that instant, the pier, the cap (R19); `own` is the stepped cap last told; `above95` and `above110` are the milliseconds of the second that is being
counted (R549). -/
structure Thermal where
  caps : Map Nat
  changes : List (Time × Nat × Nat)
  own : Nat
  above95 : Nat
  above110 : Nat
  deriving DecidableEq, Repr

/-- Instructions of the test access port (R569). -/
inductive TapInstr where
  | extest | idcode | samplePreload | clamp | highz | extestPulse | extestTrain | bypass
  deriving DecidableEq, Repr

/-- Test access port and memory self-test. `taken` says that an instruction has taken the balls since the last reset (R571);
`boundary` is the boundary register, cell n its bit n; `range` is the range of the self-test that runs. -/
structure Test where
  instr : TapInstr
  taken : Bool
  boundary : BitVec 360
  range : Option (Nat × Nat)
  deriving DecidableEq, Repr

/-- A row of a die: die, bank group of one of its channels (0 to 7), row address. -/
structure MemRow where
  die : Nat
  bank : Nat
  row : Nat
  deriving DecidableEq, Repr

/-- Memory repair (R587 to R589): rows that wait for a repair, soft and hard repairs in force. -/
structure Repair where
  candidates : List MemRow
  soft : List MemRow
  hard : List MemRow
  deriving DecidableEq, Repr

/-- A generation of a saved set: the values of its objects and tables (R34, R35). -/
structure SavedSet where
  regs : Map Nat
  tables : Map (List Byte)
  deriving DecidableEq, Repr

/-- The nonvolatile store of saved sets: the loaded generation of groups 02 to 04, whether a restore has marked it for deletion
(R36), and whether its absence was requested. -/
structure SavedGroup where
  set : Option SavedSet
  delete : Bool
  requested : Bool
  deriving DecidableEq, Repr

end Sys2Proof.Machine
end

