-- ==== Sys2Proof/Syntax.lean ====
section
/-! DEFINITION. The commands of the block: one constructor for each row of spec/opcode_table.json. Each carries first the ring time at
which it reaches the block. `r` is the route of a dictionary write; where it is an option, none stands for the other way that the row names
(the task, or BAR0). `same` says that the other request of the pair that the row's rule names reaches the block in the same cycle, a
`with...` operand that the event it names falls in the same cycle, and `e` is what else surrounds a dictionary request (`Env`). -/
namespace Sys2Proof
open Machine

inductive Instr where
  /-- DICTIONARY_WRITE (R3): A write to an object that has no row of its own is checked against its access code, type length and range and
  takes force or is refused with one abort code. -/
  | dictionaryWrite (t : Time) (r : Route) (index : BitVec 16) (sub : BitVec 8) (data : List Byte) (e : Env)
  /-- BAR0_WRITE (R29): A BAR0 write to a hardware-near register obeys the dictionary access rules, and a write that would be refused is
  dropped and counted. `off` is the byte offset in BAR0, `size` 4 or 8 bytes, `v` the value; `table` is not read by a numeric register. -/
  | bar0Write (t : Time) (off : BitVec 20) (size : Nat) (v : BitVec 64) (table : List Byte) (e : Env)
  /-- BAR0_UNSUPPORTED_ACCESS (R443): A misaligned or wrongly sized BAR0 access completes as an unsupported request, and a write of that
  kind is dropped and counted. A read that BAR0 takes comes this way too, as no row is its own. -/
  | bar0UnsupportedAccess (t : Time) (access : BarAccess)
  /-- LEVEL_WRITE (R45): A write to a function's level changes its level in force at once, and with it the access to rw-x objects; any
  derivation waits for the next start. -/
  | levelWrite (t : Time) (r : Route) (index : BitVec 16) (level : BitVec 8) (e : Env)
  /-- SAVE (R33): Writing the save signature to 0x1010 records the P-marked objects of a group in the nonvolatile store; a wrong value is
  refused. -/
  | save (t : Time) (r : Route) (group : Fin 4) (signature : BitVec 32)
  /-- SAVE_COMPLETE (R34): Once the saved set is written and verified, it becomes the loaded generation and the response is sent. -/
  | saveComplete (t : Time)
  /-- RESTORE (R36): Writing the load signature to 0x1011 marks a group's saved set for deletion, so that defaults take force at the next
  reset. -/
  | restore (t : Time) (r : Route) (group : Fin 4) (signature : BitVec 32)
  /-- TABLE_DOWNLOAD_SEGMENT (R30): A segment or block of a TABLE download is taken; after the final block passes its checks, the new
  contents take force all at once. `start` marks the request that opens the transfer, `size` the size that it announces, `last` the final
  block; `crcOk` is the verdict on the transfer CRC, `fault` a protocol fault of the segment, `late` that it comes more than 1 s after the
  one before. -/
  | tableDownloadSegment (t : Time) (r : Route) (index : BitVec 16) (start : Bool) (size : Option Nat) (bytes : List Byte) (last : Bool) (crcOk : Bool) (fault : Option AbortCode) (late : Bool)
  /-- TRANSFER_TIMEOUT (R31): When more than 1 s passes between two segments, the segmented or block transfer is aborted with 0x0504_0000.
  -/
  | transferTimeout (t : Time) (r : Route) (index : BitVec 16)
  /-- FEATURES_CONFIRM (R49): Writing 1 to 0x2013:00 puts the accepted feature set in force while all heads are stopped, or records the
  refusal as 3. `othersConfirm`: every other member of the epoch has confirmed feature bit 4. -/
  | featuresConfirm (t : Time) (r : Route) (othersConfirm : Bool)
  /-- FEATURES_BASE (R50): Writing 2 to 0x2013:00 returns the pier to the base profile under the heads-stopped condition. `othersConfirm`:
  every other member of the epoch has confirmed feature bit 4. -/
  | featuresBase (t : Time) (r : Route) (othersConfirm : Bool)
  /-- HEAD_START (R95): The start command or start task of a head makes all unmeasured checks, measures the bank, and begins PLL lock and
  the lamp pin tests. `bankMv` is what the supply of the bank measures, in mV. -/
  | headStart (t : Time) (r : Option Route) (h : HeadId) (meet : StartMeet) (bankMv : BitVec 16)
  /-- HEAD_PLL_LOCKED (R95): When the head PLL locks and the lamp pin tests and chain count are done, outputs go idle, the head enters state
  2 and the start is answered. `shorts` are the lamp pins that the pin test finds shorted, `chain` the length of the select chain that it
  counts. -/
  | headPllLocked (t : Time) (h : HeadId) (shorts : BitVec 20) (chain : Nat)
  /-- HEAD_LOCK_TIMEOUT (R95): When the head PLL has not locked within its lock time, the start fails with abort 0x0606_0000 and the head
  returns to state 0. -/
  | headLockTimeout (t : Time) (h : HeadId)
  /-- HEAD_STOP (R96): The stop command or stop task makes the head accept no further trigger and finish the lines already accepted, in
  state 3. -/
  | headStop (t : Time) (r : Option Route) (h : HeadId) (same : Bool)
  /-- HEAD_LOCK_LOST (R65): A running head that loses PLL lock enters state 4, discards the lines in flight and idles its pattern outputs.
  -/
  | headLockLost (t : Time) (h : HeadId)
  /-- TIME_TRIGGER (R80): The local period expires, and a source-0 head accepts a line trigger at the next exposure start. -/
  | timeTrigger (t : Time) (h : HeadId) (meet : Meet)
  /-- SCHEDULED_TRIGGER (R80): A ring-time instant of source 1 or of the schedule list becomes due and fires line k, or is dropped under the
  rate cap. -/
  | scheduledTrigger (t : Time) (h : HeadId) (meet : Meet)
  /-- PIN_TRIGGER (R79): A filtered edge on HDn_TRIG0 or HDn_TRIG1 is stamped and starts an exposure a fixed delay later.
  `pin` is the number of the pin. -/
  | pinTrigger (t : Time) (edge : PinEdge) (pin : Fin 2) (meet : Meet)
  /-- TRIGGER_TASK (R97): The line-trigger task of a head fires a line for source 7. -/
  | triggerTask (t : Time) (h : HeadId) (meet : Meet)
  /-- TRIGGER_FIRE (R80): Writing 1 to trigger.fire fires one software trigger when software triggers are enabled. -/
  | triggerFire (t : Time) (r : Route) (h : HeadId) (meet : Meet)
  /-- EXPOSURE_END (R73): At T_X the section-1 pattern entries begin and the readout window is timed from it. -/
  | exposureEnd (t : Time) (h : HeadId)
  /-- WINDOW_CLOSE (R94): When the readout window closes, the black-clamped line enters the head-to-PIX queue, and a stopping head may enter
  state 0. `video` is what the inputs presented in the window, `lamps` what the lamps measured. -/
  | windowClose (t : Time) (h : HeadId) (video : Video) (lamps : LampReport)
  /-- TRIGGER_TIMEOUT (R91): When no trigger is accepted for trigger.timeout µs, the head raises its trigger-timeout event once per gap. -/
  | triggerTimeout (t : Time) (h : HeadId) (withTrigger : Bool)
  /-- TRIGGER_COUNT_REACHED (R84): After trigger.count accepted triggers the head raises its count event and stops itself. -/
  | triggerCountReached (t : Time) (h : HeadId)
  /-- SYNC_PULSE_TASK (R97): The sync task pulses HDn_SYNC when sync.mode is 3. -/
  | syncPulseTask (t : Time) (h : HeadId)
  /-- LINE_LEAVES_QUEUE (R133): A line leaves the head-to-PIX queue; T is latched, and the line is linearised, Patina-corrected, binned,
  stitched, packed and written as a record. -/
  | lineLeavesQueue (t : Time) (h : HeadId)
  /-- RANGE_COMMIT (R120): A write to range_commit or the commit task latches the staged gain codes with set n and arms the change, or
  applies it at once when the head is stopped. -/
  | rangeCommit (t : Time) (r : Option Route) (h : HeadId) (set : BitVec 16) (same : Bool)
  /-- PEDESTAL_LOOP_UPDATE (R103): After every 256 lines the head compares each input's optical-black mean with the pedestal and steps the
  offset DAC. -/
  | pedestalLoopUpdate (t : Time) (h : HeadId)
  /-- ILV_WINDOW_COMPLETE (R107): When 2^m lines of each calibration kind have contributed, the head forms the error estimates and adapts
  the interleave coefficients and status. -/
  | ilvWindowComplete (t : Time) (h : HeadId)
  /-- ILV_FREEZE (R114): Writing 1 to ilv.freeze or the freeze task stops interleave adaptation from the next window start. -/
  | ilvFreeze (t : Time) (r : Option Route) (h : HeadId) (same : Bool)
  /-- ILV_UNFREEZE (R114): Writing 0 to ilv.freeze or the unfreeze task resumes interleave adaptation from the next window start. -/
  | ilvUnfreeze (t : Time) (r : Option Route) (h : HeadId) (same : Bool)
  /-- ILV_CONVERGENCE_TIMEOUT (R116): When the head has not converged within ilv.timeout lines, it raises the convergence-timeout event
  once. -/
  | ilvConvergenceTimeout (t : Time) (h : HeadId) (withConvergence : Bool)
  /-- TEMP_HOLD_EXPIRY (R134): When 1 s passes since the last valid bar temperature, the head enters state 2 and linearisation falls back to
  the table. -/
  | tempHoldExpiry (t : Time) (h : HeadId)
  /-- SHADOW_READY_WRITE (R147): Writing n to corr.shadow_ready at the expert level marks the shadow correction set ready when its number
  matches. -/
  | shadowReadyWrite (t : Time) (r : Route) (h : HeadId) (set : BitVec 16)
  /-- CORR_SWAP (R150): Writing n to corr.swap or the swap task arms a swap to a ready shadow set at unchanged gains. -/
  | corrSwap (t : Time) (r : Option Route) (h : HeadId) (set : BitVec 16) (same : Bool)
  /-- CORR_PREPARE (R153): Writing n to corr.prepare starts building shadow set n from the active set for the staged gain codes. -/
  | corrPrepare (t : Time) (r : Route) (h : HeadId) (set : BitVec 16)
  /-- PREPARE_COMPLETE (R153): The prepared shadow set becomes ready, the prepare-complete event is raised and the write is answered. -/
  | prepareComplete (t : Time) (h : HeadId)
  /-- CAL_START (R154): Writing 1 to cal.command, the calibrate task or cal.auto starts a reference-strip calibration of a running head. -/
  | calStart (t : Time) (r : Option Route) (h : HeadId) (same : Bool)
  /-- CAL_ABORT (R154): Writing 2 to cal.command or the abort task ends the calibration with status 9. -/
  | calAbort (t : Time) (r : Option Route) (h : HeadId) (same : Bool)
  /-- CAL_PHASE_END (R155): When a phase has its contributing line count, the calibration moves to the next phase and blanks or releases the
  lamps. -/
  | calPhaseEnd (t : Time) (h : HeadId)
  /-- CAL_DERIVE_COMPLETE (R163): When derivation ends, the new shadow set is ready, a calibration swap is armed and status reads 5. -/
  | calDeriveComplete (t : Time) (h : HeadId) (same : Bool)
  /-- STITCH_SHADOW_READY (R173): Writing n to stitch.shadow_ready marks the shadow geometry ready when it passes the coverage check. -/
  | stitchShadowReady (t : Time) (r : Route) (h : HeadId) (set : BitVec 16)
  /-- STITCH_SWAP (R185): Writing n to stitch.swap or the swap task arms a geometry swap to a ready shadow. -/
  | stitchSwap (t : Time) (r : Option Route) (h : HeadId) (set : BitVec 16) (same : Bool)
  /-- STITCH_CAL_START (R189): Writing 1 to stitch.cal.command or the calibrate task starts a fiducial calibration of a running head. -/
  | stitchCalStart (t : Time) (r : Option Route) (h : HeadId) (same : Bool)
  /-- STITCH_CAL_ABORT (R189): Writing 2 to stitch.cal.command or the abort task ends the stitching calibration with status 9. -/
  | stitchCalAbort (t : Time) (r : Option Route) (h : HeadId) (same : Bool)
  /-- STITCH_CAL_PHASE_END (R190): When the marks phase has its lines or every segment has crossed the edge, the calibration moves to its
  next phase. -/
  | stitchCalPhaseEnd (t : Time) (h : HeadId)
  /-- STITCH_DERIVE_COMPLETE (R195): The derived geometry is written to the shadow, and a swap is armed when it passes coverage. -/
  | stitchDeriveComplete (t : Time) (h : HeadId) (same : Bool)
  /-- CAPTURE_TRIGGER_FIRE (R214): Writing 1 to capture.trigger.fire gives a software burst trigger stamped at arbiter acceptance. -/
  | captureTriggerFire (t : Time) (r : Route) (meet : BurstMeet)
  /-- BURST_TRIGGER_TASK (R214): The burst-trigger task gives a burst trigger stamped at the task latch. -/
  | burstTriggerTask (t : Time) (meet : BurstMeet)
  /-- BURST_TRIGGER_PIN (R214): An edge on HDh_TRIG1 of the capture trigger head gives a burst trigger stamped at the ball. -/
  | burstTriggerPin (t : Time) (edge : PinEdge) (meet : BurstMeet)
  /-- CAPTURE_TRIGGER_DUE (R214): The scheduled capture.trigger.at instant becomes due and gives a burst trigger. -/
  | captureTriggerDue (t : Time) (meet : BurstMeet)
  /-- BURST_BROADCAST_RECEIVED (R214): A burst trigger broadcast from another pier is accepted by an armed source-4 pier or ignored and
  counted. -/
  | burstBroadcastReceived (t : Time) (burst : Time) (meet : BurstMeet)
  /-- CAPTURE_ARM (R216): Writing 1 to capture.arm or the arm task clears bursts_done and moves state 4 to state 2. -/
  | captureArm (t : Time) (r : Option Route) (same : Bool)
  /-- CAPTURE_DISARM (R216): Writing 0 to capture.arm or the disarm task moves state 2 to state 4. -/
  | captureDisarm (t : Time) (r : Option Route) (same : Bool)
  /-- CAPTURE_DISCARD (R228): Writing 1 to capture.discard releases every record of a stopped head's partition. -/
  | captureDiscard (t : Time) (r : Route) (h : HeadId)
  /-- RING_RECORD_ARRIVES (R222): A record frame arriving at an abutment is written to the readout region, or waits when the region is full.
  `slot` is the record slot that pier `pier` wrote. -/
  | ringRecordArrives (t : Time) (span : SpanId) (pier : PierId) (slot : List Byte)
  /-- DRAIN_LEVEL_PUBLISH (R234): Every 8 µs a scan-mode pier computes its drain level and publishes it with its lowest last sequence. -/
  | drainLevelPublish (t : Time)
  /-- LEVEL_REPORT_RECEIVED (R235): The active controller takes a drain-level report, forms L_max and sets the speed command or pauses the
  page. `level` and `paced` are what the pier publishes (R234). -/
  | levelReportReceived (t : Time) (pier : PierId) (level : Nat) (paced : PacedInfo) (withTimeout : Bool)
  /-- LEVEL_TIMEOUT (R235): A pier whose latest report is older than level_timeout counts as full, which pauses the page. -/
  | levelTimeout (t : Time)
  /-- PAGE_START (R257): Command 1 or the start-page task checks the grid and limits and sends the carriage to the park position.
  `othersAgree`: the grid that the other members hold is the same. -/
  | pageStart (t : Time) (r : Option Route) (a : AxisId) (othersAgree : Bool) (meet : PairMeet)
  /-- PAGE_END (R257): Command 2 or the end-page task enters state 7 and ends the page when the axis is at rest. -/
  | pageEnd (t : Time) (r : Option Route) (a : AxisId) (meet : PairMeet)
  /-- FORCED_PAUSE (R251): Command 3 or the forced-pause task pauses the page with reason 3. -/
  | forcedPause (t : Time) (r : Option Route) (a : AxisId) (meet : PairMeet)
  /-- PAGE_RELEASE (R251): Command 4 or the release task lifts a forced pause, so that R246 can resume the page. -/
  | pageRelease (t : Time) (r : Option Route) (a : AxisId) (meet : PairMeet)
  /-- PAGE_AXIS_AT_REST (R239): The axis coming to rest moves the page from stopping to parking, or from ending to idle. -/
  | pageAxisAtRest (t : Time)
  /-- PARK_REACHED (R239): Reaching the park position moves the page from approaching to run-up, or from parking to parked. -/
  | parkReached (t : Time)
  /-- RESUME_CONDITIONS_MET (R246): In the first MOT cycle in which the resume conditions hold, a parked page begins its run-up. -/
  | resumeConditionsMet (t : Time) (withPause : Bool)
  /-- IDLE_LINE_TIMER (R242): Every t_i during a pause, the owner broadcasts an idle instant that the paced heads fire as an idle line. -/
  | idleLineTimer (t : Time)
  /-- IDLE_MARK_RECEIVED (R242): A pier fires an idle line at the instant plus broadcast_delay, or skips it when it arrives late. `line` is
  set for an approach line: the index of its trigger position (R244, R247). -/
  | idleMarkReceived (t : Time) (instant : Time) (line : Option Int)
  /-- AXIS_ENABLE (R284): Command 1 or the enable task checks V_M and the fault input, derives gains and enters state 2. -/
  | axisEnable (t : Time) (r : Option Route) (a : AxisId) (stage : StageLevels) (meet : StartMeet)
  /-- AXIS_DISABLE (R284): Command 2 or the disable task brings the carriage to rest, lowers the outputs and enters state 3. -/
  | axisDisable (t : Time) (r : Option Route) (a : AxisId) (meet : StartMeet)
  /-- AXIS_DISABLE_COMPLETE (R284): Once the carriage is at rest and the outputs are low, the axis enters state 0. -/
  | axisDisableComplete (t : Time) (a : AxisId)
  /-- MOVE_TO (R268): A write to axis.move_to or the move task plans a trapezoidal move to the target. -/
  | moveTo (t : Time) (r : Option Route) (a : AxisId) (target : Pos) (meet : PairMeet)
  /-- JOG (R268): A write to axis.jog enters velocity mode at the signed speed. -/
  | jog (t : Time) (r : Route) (a : AxisId) (speed : BitVec 32) (meet : PairMeet)
  /-- HOME (R267): Action 1 or the home task runs the homing method at home.speed. -/
  | home (t : Time) (r : Option Route) (a : AxisId) (meet : PairMeet)
  /-- HOMING_REFERENCE_FOUND (R267): At the reference, the position is set to home.position and the carriage comes to rest. -/
  | homingReferenceFound (t : Time) (a : AxisId)
  /-- HOMING_FAILED (R267): A limit met in the home direction or 2^40 counts without a reference end homing with its failed event. -/
  | homingFailed (t : Time) (a : AxisId)
  /-- HALT (R269): Action 2 or the halt task brings the carriage to rest at accel. -/
  | halt (t : Time) (r : Option Route) (a : AxisId) (meet : PairMeet)
  /-- QUICK_STOP (R269): Action 3 or the quick-stop task brings the carriage to rest at stop_decel. -/
  | quickStop (t : Time) (r : Option Route) (a : AxisId) (meet : PairMeet)
  /-- CLEAR_MOTION_FAULT (R280): Action 4 or the clear task clears motion faults 1 and 3 when their cause has gone.
  `twin`: a second clear reaches the axis in the same MOT cycle. -/
  | clearMotionFault (t : Time) (r : Option Route) (a : AxisId) (twin : Bool := false)
  /-- PROFILE_UPDATE (R268): Every 1 µs the profile generator replans within its limits and enforces the virtual limits. -/
  | profileUpdate (t : Time) (a : AxisId)
  /-- PWM_PERIOD (R273): Each 40 kHz period the drive samples current and V_M, forms m in quiet or strong mode and may change mode.
  `shuntA`, `shuntB` are the shunt voltages of the two windings and `vmUv` the voltage of the V_M pin, in µV. -/
  | pwmPeriod (t : Time) (a : AxisId) (shuntA : Int) (shuntB : Int) (vmUv : BitVec 32)
  /-- HOLD_CURRENT_DELAY (R276): After the profile has been at rest for hold_delay, the current falls to i_hold. -/
  | holdCurrentDelay (t : Time) (a : AxisId)
  /-- ENCODER_EDGE (R265): A counted quadrature edge is stamped with ring time and updates the position. `up` is the direction of the count.
  -/
  | encoderEdge (t : Time) (a : AxisId) (up : Bool)
  /-- ENCODER_CROSSING (R283): An edge that reaches a trigger position fires a local trigger or broadcasts the crossing time through the
  gate. -/
  | encoderCrossing (t : Time) (a : AxisId) (meets : CrossingMeets)
  /-- ENCODER_ERROR (R279): An encoder error sets motion fault 2, clears position validity and stops the carriage. -/
  | encoderError (t : Time) (fault : EncoderFault)
  /-- DEVIATION_TRIP (R278): A deviation beyond the window for dev.time trips the axis, invalidates the position and stops P_cmd.
  `returned`: the deviation is back within the window in the cycle in which dev.time ends. -/
  | deviationTrip (t : Time) (a : AxisId) (returned : Bool)
  /-- DEVIATION_REALIGN (R278): After 1 ms with less than 1 count of motion, P_cmd is realigned and the position becomes valid again. -/
  | deviationRealign (t : Time) (a : AxisId)
  /-- LIMIT_SWITCH_ACTIVE (R272): An active limit switch stops motion toward it and sets motion fault 3. `up` tells the positive from the
  negative switch. -/
  | limitSwitchActive (t : Time) (a : AxisId) (up : Bool)
  /-- LIMIT_SWITCH_RELEASE (R272): The release of the limit switch clears motion fault 3. `up` tells the positive from the negative switch.
  -/
  | limitSwitchRelease (t : Time) (a : AxisId) (up : Bool)
  /-- POWER_STAGE_FAULT (R277): A fault input, a shunt overrange or a V_M out of range drives the outputs low and faults the axis. `code` is
  0 for motion fault 4, 1 for 5, 2 for 6. -/
  | powerStageFault (t : Time) (a : AxisId) (code : Fin 3)
  /-- BROADCAST_CLAIM (R281): Writing 1 to axis.broadcast circulates a claim to be the epoch's position source. `on` tells the claim (1)
  from the withdrawal (0); `crossing` is another pier whose claim circulates at the same time. -/
  | broadcastClaim (t : Time) (r : Route) (a : AxisId) (on : Bool) (crossing : Option PierId)
  /-- POSITION_BROADCAST (R282): Every 8 µs the position source sends position, speed and validity on the ring. -/
  | positionBroadcast (t : Time)
  /-- CROSSING_RECEIVED (R87): A broadcast crossing schedules the line at C plus broadcast_delay, or is dropped late with flag 13. `k` is
  the line, `instant` the crossing time C, `flags` those of the header that the owner gives it. -/
  | crossingReceived (t : Time) (k : BitVec 48) (instant : Time) (flags : BitVec 16)
  /-- BROADCAST_TRIGGER_DUE (R87): The instant C plus broadcast_delay is reached and a source-4 head fires the line. -/
  | broadcastTriggerDue (t : Time) (h : HeadId) (meet : Meet)
  /-- POSITION_LATCH_RECEIVED (R89): The owner's position at the common T_E arrives, and the waiting packer writes the header. -/
  | positionLatchReceived (t : Time) (exposure : Time) (position : Pos)
  /-- SEQ_RESTART (R294): Writing 1 to illum.seq_restart or the restart task returns the waveband sequence to entry 0 at the second line
  boundary. -/
  | seqRestart (t : Time) (r : Option Route) (h : HeadId) (same : Bool)
  /-- ILLUM_BLANK (R298): The blank task blanks the head's lamps from the next line boundary. -/
  | illumBlank (t : Time) (h : HeadId) (same : Bool)
  /-- ILLUM_UNBLANK (R298): The unblank task releases a blank set by the blank task. -/
  | illumUnblank (t : Time) (h : HeadId) (same : Bool)
  /-- BOOST_ADAPT (R300): After every 256 pulses the head adjusts boost v_set and the pre-charge voltages from the measured headroom. -/
  | boostAdapt (t : Time) (h : HeadId)
  /-- BOOST_OVERVOLTAGE (R301): A boost output above v_max plus 2 V turns the boost off and darkens the lamps until the head stops. -/
  | boostOvervoltage (t : Time) (h : HeadId)
  /-- SELECT_FRAME_COMPLETE (R304): A select frame finishing after its line boundary is latched on completion, and that line carries flag
  10. -/
  | selectFrameComplete (t : Time) (h : HeadId)
  /-- EXCITATION_OFF (R315): The excitation-off task turns off every channel's excitation at the next AUX cycle. -/
  | excitationOff (t : Time) (same : Bool)
  /-- EXCITATION_ON (R315): The excitation-on task restores the excitation. -/
  | excitationOn (t : Time) (same : Bool)
  /-- EXCITATION_OVERLOAD (R316): An excitation current above 25 mA is limited and sets status bit 5 and the lead-fault event. -/
  | excitationOverload (t : Time) (n : AuxId)
  /-- EXCITATION_OVERLOAD_CLEAR (R316): After the current has stayed below 24 mA for wb.clear, bit 5 clears. -/
  | excitationOverloadClear (t : Time) (n : AuxId)
  /-- CLAMP_ENGAGE (R321): An input pin passing −0.4 V or 5.4 V engages the clamp, sets clamp_flag and forces full-scale results. `high`
  tells the 5.4 V side from the -0.4 V side. -/
  | clampEngage (t : Time) (n : AuxId) (high : Bool)
  /-- CLAMP_RELEASE (R321): The input returns within range and the clamp releases, starting the 20 µs recovery. -/
  | clampRelease (t : Time) (n : AuxId)
  /-- CLAMP_RECOVERY_END (R349): 20 µs after release, samples are admitted to the filter again. -/
  | clampRecoveryEnd (t : Time) (n : AuxId)
  /-- CLAMP_CLEAR (R322): Writing 0 to clamp_flag or the clamp-clear task clears the flag while the clamp is released. `engaging` are the
  channels whose clamp engages in the same cycle. -/
  | clampClear (t : Time) (r : Option Route) (n : AuxId) (engaging : List Nat)
  /-- WIRE_BREAK_TRIP (R324): A comparator trip sets status bit 2, raises the lead-fault event and invalidates the channel's results.
  `sense` tells the comparators of the sense pins from those of the excitation pins. -/
  | wireBreakTrip (t : Time) (lead : Lead)
  /-- WIRE_BREAK_CLEAR (R324): After the comparators read normal for wb.clear with a passing test pulse, bit 2 clears and the filter resets.
  -/
  | wireBreakClear (t : Time) (n : AuxId)
  /-- ECHO_PERIOD (R331): At each echo period start or rising edge, the output takes the latest mapped value or the fault value. -/
  | echoPeriod (t : Time) (o : EchoId)
  /-- SEQ_START (R346): Command 1 or the start task checks the sequencer table and starts the lanes once the reference is ready. -/
  | seqStart (t : Time) (r : Option Route) (meet : StartMeet)
  /-- SEQ_STOP (R346): Command 2 or the stop task lets each lane finish its execution and then stops the sequencer. -/
  | seqStop (t : Time) (r : Option Route) (meet : StartMeet)
  /-- SEQ_STOP_COMPLETE (R346): When each lane has finished its execution, excitation turns off and the sequencer enters state 0. -/
  | seqStopComplete (t : Time)
  /-- REF_BUFFER_ON (R346): The reference-on task turns the reference buffer on ahead of a start. -/
  | refBufferOn (t : Time)
  /-- REF_BUFFER_READY (R346): The reference buffer settles, and a waiting sequencer begins to run. -/
  | refBufferReady (t : Time)
  /-- PASS_START (R344): A lane's pass starts at its period or when the previous pass ends, and a late pass is counted. -/
  | passStart (t : Time) (lane : Fin 2)
  /-- ENTRY_EXECUTION (R342): An execution of a sequencer entry settles, discards, takes its samples and waits DELAY. -/
  | entryExecution (t : Time) (lane : Fin 2)
  /-- CONVERSION_COMPLETE (R337): A 1 µs conversion ends, and its code goes to the filter or is discarded. -/
  | conversionComplete (t : Time) (sar : Fin 2) (code : BitVec 16)
  /-- CHOP_REVERSAL (R343): Every 25 µs the amplifiers reverse, and conversions starting within 2 µs are discarded and replaced. -/
  | chopReversal (t : Time)
  /-- CONTINUOUS_TEST_PULSE (R339): Every 1 ms a continuous channel runs its sense test pulse. `moved`: the pair moved more than 1.2 V. -/
  | continuousTestPulse (t : Time) (moved : Bool)
  /-- FILTER_WINDOW_BOUNDARY (R347): At each window boundary the filter forms a result, which is linearised and published. -/
  | filterWindowBoundary (t : Time) (n : AuxId)
  /-- FIFO_READ (R352): A read of aux.fifo.data removes the oldest word, or is refused when the FIFO is empty. -/
  | fifoRead (t : Time) (r : Route)
  /-- FIFO_BAR0_READ (R446): A BAR0 read at 0x1_3000 removes one word, or returns 0xFF bytes when the FIFO is empty. -/
  | fifoBar0Read (t : Time)
  /-- FIFO_FLUSH (R352): Writing 1 to aux.fifo.flush or the flush task empties the FIFO. -/
  | fifoFlush (t : Time) (r : Option Route)
  /-- TASK_SELECT_WRITE (R367): A write of a task select is checked for feature bit 8, reserved sources and relay loops, and takes force
  between events. -/
  | taskSelectWrite (t : Time) (r : Route) (task : TaskId) (source : BitVec 16)
  /-- TASK_LATCH_SAMPLED (R359): The owning block samples a set catch latch, performs the task once and clears it, merging coincident
  events. `railMv` are the rail readings that task 2 latches. -/
  | taskLatchSampled (t : Time) (task : TaskId) (railMv : List Nat) (e : Env)
  /-- RELAY_INPUT (R366): An event on a relay input raises one event on the relay output. -/
  | relayInput (t : Time) (relay : Fin 8) (in0 : Bool) (in1 : Bool)
  /-- STORM_WINDOW_CLOSE (R368): 1,000 ns after it opens, a source's storm window closes. -/
  | stormWindowClose (t : Time) (source : SourceId)
  /-- STORM_REARM (R369): Writing a source number to fabric.storm_rearm re-enables a tripped source. -/
  | stormRearm (t : Time) (r : Route) (source : BitVec 16)
  /-- FABRIC_FIRE (R371): Writing a source number to fabric.fire raises one event on that source. -/
  | fabricFire (t : Time) (r : Route) (source : BitVec 16)
  /-- TIMER_A_TASK (R372): The A task starts, restarts, counts or arms a timer unit according to its mode. -/
  | timerATask (t : Time) (unit : TimerId) (withB : Bool)
  /-- TIMER_B_TASK (R372): The B task stops, zeroes or disarms a timer unit according to its mode. -/
  | timerBTask (t : Time) (unit : TimerId) (withA : Bool)
  /-- TIMER_PERIOD_END (R373): A one-shot or periodic unit reaches the end of its period and raises its source. -/
  | timerPeriodEnd (t : Time) (unit : TimerId) (withB : Bool)
  /-- ALARM_DUE (R372): An armed alarm unit's instant becomes due and raises its source. -/
  | alarmDue (t : Time) (unit : TimerId) (withB : Bool)
  /-- DMA_SHADOW_LOAD (R387): Writing CTRL of a channel's shadow runs the checker and marks the shadow loaded. -/
  | dmaShadowLoad (t : Time) (r : Option Route) (c : ChanId) (ctrl : BitVec 32)
  /-- DMA_GO (R388): Command 1 or a go task copies a loaded shadow into an empty or ended active set. -/
  | dmaGo (t : Time) (p : Port) (c : ChanId) (same : Bool)
  /-- DMA_STOP (R389): Command 2 stops the channel at its next descriptor boundary. -/
  | dmaStop (t : Time) (r : Option Route) (c : ChanId) (same : Bool)
  /-- DMA_FENCE (R398): Command 3 requests proof that every earlier write of the channel has arrived. -/
  | dmaFence (t : Time) (r : Option Route) (c : ChanId)
  /-- DMA_EMPTY_SHADOW (R387): Command 4 empties a loaded shadow. -/
  | dmaEmptyShadow (t : Time) (r : Option Route) (c : ChanId)
  /-- DMA_ABANDON_SLOT (R396): Command 5, used by Armature only, abandons a stream channel's slot without acknowledgement. -/
  | dmaAbandonSlot (t : Time) (c : ChanId)
  /-- DMA_REQUEST (R394): Task 416+c admits one descriptor or run of a PACE 2 or 3 channel, or counts it as pending. -/
  | dmaRequest (t : Time) (c : ChanId) (same : Bool)
  /-- DMA_FENCE_TASK (R398): Task 416 fences every channel in dma.fence_mask. -/
  | dmaFenceTask (t : Time)
  /-- DMA_STOP_TASK (R400): Task 417 stops every channel in dma.stop_mask. -/
  | dmaStopTask (t : Time) (same : Bool)
  /-- DMA_BEAT (R393): Each MEM cycle the datapath issues one beat for the chosen channel, and may end its descriptor. `blocked` are the
  channels whose destination cannot take a beat, `fill0` and `fill1` the fills of the span queues, `data` what a read outside the buffer
  gives. -/
  | dmaBeat (t : Time) (blocked : BitVec 32) (fill0 : Nat) (fill1 : Nat) (data : List Byte)
  /-- DMA_LINK_FETCH_DONE (R388): A linked descriptor fetched in the background is checked and loaded into the shadow. -/
  | dmaLinkFetchDone (t : Time) (c : ChanId)
  /-- DMA_BUS_ERROR (R399): A beat that fails with an error kind ends its descriptor bad and logs a fault. `kind` is the error kind of R399,
  `row` the memory row of an uncorrectable error with its block of the capture region. -/
  | dmaBusError (t : Time) (c : ChanId) (kind : Nat) (address : BitVec 64) (withStop : Bool) (row : Option (MemRow × Option Nat))
  /-- DMA_RING_ACK_TIMEOUT (R385): A ring target that gives no acknowledgement within 400 µs ends the descriptor bad with kind 4. -/
  | dmaRingAckTimeout (t : Time) (c : ChanId) (address : BitVec 64) (withStop : Bool)
  /-- FENCE_PROVEN (R398): When arrival is proven, the channel raises its arrival event and updates arrived. -/
  | fenceProven (t : Time) (c : ChanId)
  /-- SOFT_REPAIR (R587): The pier copies a candidate row out, programs a spare, writes the row back and logs the repair. `block` is the 2
  MiB block of the capture region in which the row lies, none outside that region. -/
  | softRepair (t : Time) (row : MemRow) (block : Option Nat)
  /-- SPAN_TRAINING (R409): A span trains at reset, on the retrain task or every 10 ms while down, testing and bringing up its lanes. -/
  | spanTraining (t : Time) (span : SpanId)
  /-- SPAN_RETRAIN (R409): The retrain task of a span starts its training. -/
  | spanRetrain (t : Time) (span : SpanId) (withDown : Bool)
  /-- TRAINING_COMPLETE (R409): Training ends with the span up, possibly on spare, or down; numbering and epochs follow. `lanes` are the
  lanes that trained, `neighbour` the number that the neighbour tells where it has one, `crossed` tells a pair that reads crossed, `closes` that the span closes the ring. -/
  | trainingComplete (t : Time) (span : SpanId) (lanes : BitVec 5) (neighbour : Option PierId) (crossed : Bool) (closes : Bool)
  /-- LANE_FAILURE (R410): A lane losing block lock or exceeding its error limit is replaced by the spare. -/
  | laneFailure (t : Time) (span : SpanId) (lane : Fin 5) (withSpare : Bool)
  /-- SPARE_IN_SERVICE (R410): The spare lane takes over, replay recovers cut units and the lane-spared event is raised. -/
  | spareInService (t : Time) (span : SpanId)
  /-- SPAN_DOWN (R411): A span goes down in both directions; the ring wraps and routes are derived again. -/
  | spanDown (t : Time) (span : SpanId)
  /-- DATA_FRAME_RECEIVED (R406): A data frame is received, checked by CRC and sequence, and delivered or forwarded. `seq` is its link
  sequence, `crcOk` the verdict on its CRC. -/
  | dataFrameReceived (t : Time) (span : SpanId) (frame : Frame) (seq : Nat) (crcOk : Bool)
  /-- REPLAY_REQUEST (R406): On a CRC error or a sequence gap the receiver requests a replay, and the sender resends. `seq` is the first
  link sequence to send again. -/
  | replayRequest (t : Time) (span : SpanId) (seq : Nat)
  /-- MESSAGE_FORWARD (R408): A pier forwards a message from receive to transmit within 60 ns. `span` receives it. -/
  | messageForward (t : Time) (span : SpanId) (arrival : Arrival)
  /-- TUNNEL_REQUEST_RECEIVED (R55): A tunnelled dictionary request is executed at the target pier as a ring-tunnel request. `abutment` is
  the pier that sends it; `opcode` to `data` are the fields of the mailbox slot (R444) and `table` the table that an opcode 3 request
  carries. -/
  | tunnelRequestReceived (t : Time) (abutment : PierId) (opcode : BitVec 8) (index : BitVec 16) (sub : BitVec 8) (length : BitVec 32) (address : BitVec 64) (data : List Byte) (table : List Byte) (e : Env)
  /-- RING_DMA_FRAME (R382): An abutment issues the PCIe writes or reads that ring-DMA frames from another pier carry. `bytes` is
  what the frame carries or a host read returns. -/
  | ringDmaFrame (t : Time) (frame : DmaFrame) (bytes : List Byte)
  /-- ACK_FRAME_RECEIVED (R450): An acknowledgement frame releases a delivered record from its partition at the pier of origin. `marker`
  tells a marker from a line record. -/
  | ackFrameReceived (t : Time) (h : HeadId) (seq : BitVec 48) (marker : Bool)
  /-- PATH_HOLD_END (R416): When every frame on the old path is acknowledged or lost, a head's stream sends on its new path. -/
  | pathHoldEnd (t : Time) (h : HeadId)
  /-- TIME_SYNC_SEND (R422): Every 1 µs the time source sends a sync message on both spans. -/
  | timeSyncSend (t : Time)
  /-- TIME_SYNC_RECEIVED (R422): A follower disciplines its counter from a sync message and locks after 1 ms within ±1 ns. -/
  | timeSyncReceived (t : Time) (sync : SyncInfo) (withTimeout : Bool)
  /-- HOP_DELAY_EXCHANGE (R422): Every 1 ms a follower measures each hop's delay by a two-way exchange. `mean` is half of the round trip
  that the exchange measured. -/
  | hopDelayExchange (t : Time) (span : SpanId) (mean : Int)
  /-- HOLDOVER_TIMEOUT (R424): A follower without a valid sync for 8 µs enters holdover, and its lines carry flag 6. -/
  | holdoverTimeout (t : Time)
  /-- TIME_SOURCE_REGAINED (R425): A follower in holdover regains a source and slews or steps to it. `offset` is the measured offset in
  ticks of ring time. -/
  | timeSourceRegained (t : Time) (offset : Int)
  /-- TIME_LATCH (R433): Task 386 latches ring time into ring.time.latched. -/
  | timeLatch (t : Time)
  /-- EPOCH_CHANGE (R427): A pier joins or leaves, a new epoch number takes force and authority is decided. -/
  | epochChange (t : Time) (info : EpochInfo) (withStart : Bool)
  /-- EPOCH_JOIN (R431): A span joining two epochs forms one epoch, takes the ring-wide state and publishes rejoin offsets. `other` are the
  members of the other epoch, `generation` the highest that one of them held, and `authority` whether it held authority; `offset` is this pier's ring time less that of the other's source;
  `both`: both spans came up at once. -/
  | epochJoin (t : Time) (info : EpochInfo) (other : BitVec 64) (generation : Nat) (authority : Bool) (offset : Int) (both : Bool)
  /-- RING_WIDE_WRITE (R429): A write to a ring-wide object goes to the epoch leader and is applied on every member before the answer. -/
  | ringWideWrite (t : Time) (r : Route) (o : RingWide) (v : BitVec 32) (e : Env)
  /-- GOVERNOR_CAP_MESSAGE (R19): A broadcast stepped cap is taken, and every pier applies the lowest cap from the first line boundary 10 µs
  later. `sent` is the ring time at which the cap was sent. -/
  | governorCapMessage (t : Time) (pier : PierId) (cap : BitVec 32) (sent : Time)
  /-- RING_START (R426): Writing an instant to ring.start.at checks every taking-part head and then starts them all at that instant. `banks`
  are the bank supplies that the four heads measure, in mV; `failing` is the first head of another member that fails its check. -/
  | ringStart (t : Time) (r : Route) (instant : Time) (banks : List Nat) (failing : Option (PierId × HeadId × AbortCode)) (epochChanges : Bool)
  /-- PCIE_RESET_RELEASE (R438): The rise of PCIE_PERST_N brings up the endpoint, which answers configuration requests within 20 ms. -/
  | pcieResetRelease (t : Time)
  /-- LINK_UP (R439): The link comes up, and a link below 32 GT/s ×8 raises the degraded event. `speed` counts the link generations from 0.
  -/
  | linkUp (t : Time) (speed : Fin 6) (width : Nat)
  /-- LINK_DOWN (R440): A link-down withdraws the abutment offer and discards pending mailbox responses. -/
  | linkDown (t : Time)
  /-- BUS_MASTER_SET (R414): Bus Master Enable set with the link up and a readout region makes the pier offer itself as abutment. -/
  | busMasterSet (t : Time)
  /-- BUS_MASTER_CLEAR (R440): Clearing Bus Master Enable withdraws the abutment offer. -/
  | busMasterClear (t : Time)
  /-- FUNCTION_LEVEL_RESET (R440): An FLR resets configuration space and the BAR0 registers, withdraws the offer and keeps the feature set.
  -/
  | functionLevelReset (t : Time)
  /-- D3HOT_ENTRY (R440): Entry to D3hot withdraws the abutment offer. -/
  | d3hotEntry (t : Time)
  /-- FATAL_ERROR (R440): A fatal error reported through AER withdraws the abutment offer. -/
  | fatalError (t : Time)
  /-- MAILBOX_READ (R445): A mailbox request of opcode 1 reads one sub-index from this pier or by tunnel. `slot` is the mailbox slot,
  `target` its target pier field, `length` its length field, `tag` the tag that its response repeats. -/
  | mailboxRead (t : Time) (slot : SlotId) (target : BitVec 8) (index : BitVec 16) (sub : BitVec 8) (length : BitVec 32) (tag : BitVec 32) (e : Env)
  /-- MAILBOX_WRITE (R445): A mailbox request of opcode 2 writes one sub-index. `slot` is the mailbox slot, `target` its target pier field,
  `tag` the tag that its response repeats. -/
  | mailboxWrite (t : Time) (slot : SlotId) (target : BitVec 8) (index : BitVec 16) (sub : BitVec 8) (tag : BitVec 32) (data : List Byte) (e : Env)
  /-- MAILBOX_TABLE_DOWNLOAD (R445): A mailbox request of opcode 3 moves a table from host memory by a privileged channel. `address` is the
  host address of the table and `table` what the privileged channel reads there. -/
  | mailboxTableDownload (t : Time) (slot : SlotId) (target : BitVec 8) (index : BitVec 16) (tag : BitVec 32) (address : BitVec 64) (table : List Byte) (e : Env)
  /-- MAILBOX_TABLE_UPLOAD (R445): A mailbox request of opcode 4 writes a table to host memory and answers after the last byte. `length` and
  `address` are the host buffer that takes the table. -/
  | mailboxTableUpload (t : Time) (slot : SlotId) (target : BitVec 8) (index : BitVec 16) (length : BitVec 32) (tag : BitVec 32) (address : BitVec 64) (e : Env)
  /-- MAILBOX_COMPLETE (R444): A response enters the slot, the slot enters state 2 and its interrupt cause fires. -/
  | mailboxComplete (t : Time) (slot : SlotId)
  /-- TUNNEL_TARGET_TIMEOUT (R445): A tunnelled target silent for 100 ms is answered with abort 0x0606_0000. -/
  | tunnelTargetTimeout (t : Time) (slot : SlotId)
  /-- QUEUE_ENABLE (R451): Enabling a delivery queue sets W and A to 0 and starts delivery from the oldest unacknowledged record. -/
  | queueEnable (t : Time) (r : Option Route) (queue : QueueId) (same : Bool)
  /-- QUEUE_DISABLE (R451): Disabling a queue stops its stream channel at the next slot boundary. -/
  | queueDisable (t : Time) (r : Option Route) (queue : QueueId) (same : Bool)
  /-- QUEUE_ERROR_CLEAR (R451): Writing 1 to the error bit restarts the stream from the failed slot. -/
  | queueErrorClear (t : Time) (queue : QueueId)
  /-- ACK_POSITION_WRITE (R450): A write of A releases every slot that ends at or before it, or is dropped when out of range. -/
  | ackPositionWrite (t : Time) (r : Option Route) (queue : QueueId) (position : BitVec 64)
  /-- COALESCE_TIMER (R449): The coalesce time after the first unsignalled slot fires the progress interrupt. -/
  | coalesceTimer (t : Time) (queue : QueueId)
  /-- HOST_STALL_TIMER (R452): A queue whose A has not moved for its stall time raises the host-stall event once. `withMove`: A moves in the
  same cycle. -/
  | hostStallTimer (t : Time) (queue : QueueId) (withMove : Bool)
  /-- INTERRUPT_CAUSE_CLEAR (R455): Writing 1 to a bit of the cause register clears it. `high` tells the causes 32 to 63 from 0 to 31;
  `firing` are the causes that fire in the same cycle. -/
  | interruptCauseClear (t : Time) (high : Bool) (mask : BitVec 32) (firing : List Nat)
  /-- INTERRUPT_TASK (R459): A host-port task fires interrupt cause 24+k. -/
  | interruptTask (t : Time) (k : Fin 16)
  /-- NMT_START_REMOTE_NODE (R462): The NMT command moves the pier to operational. -/
  | nmtStartRemoteNode (t : Time) (node : Fin 128)
  /-- NMT_STOP_REMOTE_NODE (R462): The NMT command moves the pier to stopped. -/
  | nmtStopRemoteNode (t : Time) (node : Fin 128)
  /-- NMT_ENTER_PRE_OPERATIONAL (R462): The NMT command moves the pier to pre-operational. -/
  | nmtEnterPreOperational (t : Time) (node : Fin 128)
  /-- NMT_RESET_COMMUNICATION (R462): The NMT command re-reads the node-ID and bit timing and sends the boot-up message. -/
  | nmtResetCommunication (t : Time) (node : Fin 128)
  /-- NMT_RESET_NODE (R462): The NMT command restarts the control cores when can.nmt_reset is 1, and otherwise resets communication. -/
  | nmtResetNode (t : Time) (node : Fin 128)
  /-- USDO_REQUEST (R465): A USDO request of a client session enters the arbiter as a CAN FD request. -/
  | usdoRequest (t : Time) (client : Fin 128) (index : BitVec 16) (sub : BitVec 8) (body : UsdoBody) (e : Env)
  /-- CAN_SYNC_RECEIVED (R467): A SYNC sends each TPDO of types 1 to 240 that is due. -/
  | canSyncReceived (t : Time)
  /-- TPDO_TASK (R467): A TPDO task sends a type-0 TPDO. -/
  | tpdoTask (t : Time) (n : Fin 8) (withSync : Bool)
  /-- TPDO_CHANGE_CHECK (R467): Every 1 ms, TPDOs of types 254 and 255 are sent when a mapped value has changed. -/
  | tpdoChangeCheck (t : Time)
  /-- TPDO_EVENT_TIMER (R467): A TPDO's event timer expires and sends it. -/
  | tpdoEventTimer (t : Time) (n : Fin 8)
  /-- RPDO_RECEIVED (R468): An RPDO is executed as one CAN FD write per mapped object. -/
  | rpdoReceived (t : Time) (n : Fin 8) (data : List Byte) (e : Env)
  /-- EMCY_INHIBIT_EXPIRY (R470): The inhibit time ends and the oldest queued EMCY is sent. -/
  | emcyInhibitExpiry (t : Time)
  /-- CAN_ERROR_PASSIVE (R469): The controller becomes error passive and sends EMCY 0x8120. `tec` and `rec_` are the error counters of the
  controller. -/
  | canErrorPassive (t : Time) (tec : BitVec 8) (rec_ : BitVec 8)
  /-- CAN_BUS_OFF (R471): The controller goes bus-off. -/
  | canBusOff (t : Time)
  /-- BUS_OFF_RECOVERY (R471): After 128 occurrences of 11 recessive bits the controller rejoins the bus and sends EMCY 0x8140. -/
  | busOffRecovery (t : Time)
  /-- HEARTBEAT_TIMER (R485): The producer heartbeat time expires and a heartbeat is sent. -/
  | heartbeatTimer (t : Time)
  /-- SMB_REQUEST (R476): A REQUEST block write is accepted and its read or write enters the arbiter, or is not acknowledged. `op` to `data`
  are the fields of the block (R476) and `pecOk` the verdict on its PEC. -/
  | smbRequest (t : Time) (op : BitVec 8) (index : BitVec 16) (sub : BitVec 8) (offset : BitVec 16) (len : BitVec 8) (data : List Byte) (pecOk : Bool) (e : Env)
  /-- SMB_RESPONSE (R476): A RESPONSE block read returns the result of the last request. -/
  | smbResponse (t : Time)
  /-- SMB_STATUS (R474): The STATUS read byte returns the target's status bits. -/
  | smbStatus (t : Time)
  /-- SMB_ALERT_CAUSE_READ (R474): The ALERT_CAUSE read returns smb.alert_cause. -/
  | smbAlertCauseRead (t : Time)
  /-- SMB_ALERT_CAUSE_WRITE (R474): The ALERT_CAUSE write clears the cause bits written as 1. `again` are the causes that arise in the same
  cycle. -/
  | smbAlertCauseWrite (t : Time) (mask : BitVec 32) (again : BitVec 32) (pecOk : Bool)
  /-- SMB_TEMPERATURE (R474): The TEMPERATURE read word returns the governor's case reading. -/
  | smbTemperature (t : Time)
  /-- SMB_POWER_REQUEST (R474): The POWER_REQUEST write byte requests deep sleep or wake. -/
  | smbPowerRequest (t : Time) (value : BitVec 8) (pecOk : Bool)
  /-- SMB_ALERT_RESPONSE (R480): A read of address 0x0C is answered by an owing class under wired-AND arbitration. `lost`: another target
  wins the arbitration; `again`: the class that answered arises again in the same cycle. -/
  | smbAlertResponse (t : Time) (lost : Bool) (again : Bool)
  /-- SMB_ALERT_TASK (R484): The alert task sets cause bit 31. -/
  | smbAlertTask (t : Time)
  /-- SMB_SCL_TIMEOUT (R482): SMB_SCL low for 30 ms makes the target release SDA and abandon the transaction. -/
  | smbSclTimeout (t : Time) (withStop : Bool)
  /-- SMB_RESPONSE_HOLD_EXPIRY (R476): After response_hold the response no longer counts as unread. -/
  | smbResponseHoldExpiry (t : Time)
  /-- SMB_SLEEP_START (R478): The first transaction in deep sleep is not acknowledged while the receivers wake to full power. -/
  | smbSleepStart (t : Time)
  /-- SMB_SLEEP_IDLE_EXPIRY (R478): After sleep_idle without a START, the receivers return to low power. -/
  | smbSleepIdleExpiry (t : Time)
  /-- CUSTODY_ENROL (R489): An enrol record sets an unset custodian key when its signature verifies. `board` tells the board's custodian
  from the host's. -/
  | custodyEnrol (t : Time) (r : Route) (board : Bool) (record : List Byte)
  /-- CUSTODY_PROPOSE (R493): A complete proposal record is checked and becomes the pending ordinary or recovery proposal. `board` tells the
  board's custodian from the host's; `othersRun`: a head of another member runs. -/
  | custodyPropose (t : Time) (r : Route) (board : Bool) (offset : BitVec 16) (data : List Byte) (othersRun : Bool)
  /-- PROPOSAL_INCOMPLETE_TIMEOUT (R492): A proposal record not completed within 1 s of its first write is discarded. -/
  | proposalIncompleteTimeout (t : Time) (board : Bool)
  /-- CUSTODY_VERDICT (R495): A verdict record from the other custodian agrees, which starts the commit, or declines the proposal.
  `withExpiry`: the window ends in the same cycle; `othersRun`: a head of another member runs. -/
  | custodyVerdict (t : Time) (r : Route) (board : Bool) (record : List Byte) (withExpiry : Bool) (othersRun : Bool)
  /-- PROPOSAL_WINDOW_EXPIRY (R496): A proposal still pending after 60 s expires, and the nonce renews. -/
  | proposalWindowExpiry (t : Time)
  /-- COMMIT_COMPLETE (R497): After the journal is written, all changes take force together, the generation increments and the response is
  sent. -/
  | commitComplete (t : Time)
  /-- RECOVERY_DELAY_EXPIRY (R501): A recovery proposal not declined within recovery_delay commits. `withDecline`: a decline reaches the
  pier in the same cycle. -/
  | recoveryDelayExpiry (t : Time) (withDecline : Bool)
  /-- RECOVERY_PROGRESS_SAVE (R502): Every 60 s the recovery delay progress is saved to the nonvolatile store. -/
  | recoveryProgressSave (t : Time)
  /-- RECOVERY_REMINDER (R502): Every 24 h of a pending recovery an EMCY 0xFF02 is sent. -/
  | recoveryReminder (t : Time)
  /-- STAGE_CHECK_COMPLETE (R506): The staged Elzia image has been checked, and stage_status reads the result. -/
  | stageCheckComplete (t : Time)
  /-- FW_WRITE_SLOT (R506): Command 1 writes the staged image to the slot that is not running and checks it. -/
  | fwWriteSlot (t : Time) (r : Route)
  /-- SLOT_WRITE_COMPLETE (R505): The slot write completes and verifies, and its state becomes valid or invalid. `verified`: the read-back
  of the slot gives what was written. -/
  | slotWriteComplete (t : Time) (verified : Bool)
  /-- FW_ACTIVATE (R507): Command 2 sets the other slot to trial and restarts the control cores after the response. -/
  | fwActivate (t : Time) (r : Route) (othersRun : Bool)
  /-- FW_CONFIRM (R507): Command 3 confirms the running trial and may raise the security floor. `withExpiry`: the trial time ends in the
  same cycle. -/
  | fwConfirm (t : Time) (r : Route) (withExpiry : Bool)
  /-- TRIAL_EXPIRY (R507): An unconfirmed trial time ends and the boot ROM returns to the confirmed slot. -/
  | trialExpiry (t : Time)
  /-- ATTEST_NONCE (R511): Writing a nonce to attest.nonce forms and signs an attestation report, using up one LMS leaf. -/
  | attestNonce (t : Time) (r : Route) (nonce : List Byte)
  /-- POWER_ON (R526): VDD_AON becoming good starts a power-on pier reset. -/
  | powerOn (t : Time)
  /-- RESET_PIN (R526): SYS_RESET_N low for at least 1 µs resets the pier. -/
  | resetPin (t : Time)
  /-- SUPPLY_FAULT (R520): A rail in fault for more than 1 µs resets the pier. -/
  | supplyFault (t : Time)
  /-- RAIL_LOW (R520): A rail between its fault and good levels for more than 10 µs sets its status bit and logs a fault. `mv` is the
  reading of the rail. -/
  | railLow (t : Time) (rail : Fin 11) (mv : BitVec 16)
  /-- RAILS_GOOD_AGAIN (R520): When every rail is good again, source 10 is raised. -/
  | railsGoodAgain (t : Time)
  /-- SEQUENCE_VIOLATION (R518): A broken power-up order holds the pier in reset and records the first rail out of order. -/
  | sequenceViolation (t : Time) (rail : Fin 11)
  /-- REF_LOST (R523): REF stopped for more than 4 µs resets the pier. -/
  | refLost (t : Time)
  /-- PCIE_REF_LOST (R523): The PCIe reference stopped for more than 4 µs takes the link down. -/
  | pcieRefLost (t : Time)
  /-- PCIE_REF_RESTORED (R523): The PCIe reference returns and source 12 is raised. -/
  | pcieRefRestored (t : Time)
  /-- CRYSTAL_FAIL (R523): A failed crystal makes Plinth run from the RC oscillator. -/
  | crystalFail (t : Time)
  /-- THERMAL_TRIP (R526): A die above 135 °C for 10 µs resets the pier. -/
  | thermalTrip (t : Time)
  /-- PIER_RESET_RELEASE (R527): Release from reset locks the PLLs, trains memory, boots Armature and loads the saved sets until the
  dictionary is served. `bootFail` is the failing address where the boot ROM finds the SRAM or the nonvolatile store bad (R575). -/
  | pierResetRelease (t : Time) (bootFail : Option (BitVec 64) := none)
  /-- DICTIONARY_RESET (R530): Writing "rset" to power.reset resets the pier after the response. -/
  | dictionaryReset (t : Time) (r : Route)
  /-- CORE_RESTART_REQUEST (R530): Writing "core" to power.reset restarts the control cores after the response. -/
  | coreRestartRequest (t : Time) (r : Route)
  /-- CORE_WATCHDOG_EXPIRY (R528): A watchdog not serviced for 100 ms restarts the control cores. -/
  | coreWatchdogExpiry (t : Time)
  /-- CORES_RUNNING (R528): Armature serves the dictionary again after a restart and source 15 is raised. -/
  | coresRunning (t : Time)
  /-- DEEP_SLEEP_REQUEST (R531): Writing 1 to power.request or task 0 arms a deep-sleep request, or refuses it. -/
  | deepSleepRequest (t : Time) (r : Option Route)
  /-- WAKE_REQUEST (R530): Writing 2 to power.request requests wake from deep sleep. -/
  | wakeRequest (t : Time) (r : Route)
  /-- SLEEP_CONDITION_MET (R532): Once the link is down or in D3hot, the armed pier enters deep sleep in its numbered steps. `early` are the
  wake sources that arise before the pier is asleep; `withExpiry`: sleep_wait ends in the same cycle. -/
  | sleepConditionMet (t : Time) (early : BitVec 6) (withExpiry : Bool)
  /-- SLEEP_WAIT_EXPIRY (R531): An armed request whose condition is not met within sleep_wait expires. -/
  | sleepWaitExpiry (t : Time)
  /-- WAKE_SOURCE (R534): An unmasked wake source wakes the pier, which restores its state and serves the dictionary again. `source` is the
  bit of power.wake_cause that it sets. -/
  | wakeSource (t : Time) (source : Fin 6) (same : Bool)
  /-- RAIL_LATCH (R536): Task 2 latches the rail readings into 0x2203. -/
  | railLatch (t : Time) (railMv : List Nat)
  /-- THERMAL_READING (R544): Every 1 ms the case and die readings update, which may change refresh or enter or leave thermal hold. `case_`
  and `die` are in 1/16 degree; `withEvaluation`: an evaluation falls in the same cycle. -/
  | thermalReading (t : Time) (case_ : Int) (die : Int) (withEvaluation : Bool)
  /-- GOVERNOR_EVALUATION (R545): Every 20 ms above 110 °C case the governor steps n and recomputes the local cap. -/
  | governorEvaluation (t : Time)
  /-- TAP_RESET (R568): TRST_N low, five TMS-high clocks or a pier reset put the TAP in Test-Logic-Reset. -/
  | tapReset (t : Time)
  /-- EXTEST (R571): The EXTEST instruction drives the balls from the boundary register and faults every function. -/
  | extest (t : Time) (scan : Option (BitVec 360 × BitVec 360))
  /-- IDCODE (R570): The IDCODE instruction selects the 32-bit identification register. -/
  | idcode (t : Time) (scan : Option (BitVec 360 × BitVec 360))
  /-- SAMPLE_PRELOAD (R569): The SAMPLE/PRELOAD instruction captures and preloads the boundary register without taking the balls. -/
  | samplePreload (t : Time) (scan : Option (BitVec 360 × BitVec 360))
  /-- CLAMP (R571): The CLAMP instruction holds the boundary outputs and selects bypass. -/
  | clamp (t : Time) (scan : Option (BitVec 360 × BitVec 360))
  /-- HIGHZ (R571): The HIGHZ instruction places the boundary outputs at high impedance. -/
  | highz (t : Time) (scan : Option (BitVec 360 × BitVec 360))
  /-- EXTEST_PULSE (R574): The EXTEST_PULSE instruction sends the 1149.6 AC test signal on the transmit pairs. -/
  | extestPulse (t : Time) (scan : Option (BitVec 360 × BitVec 360))
  /-- EXTEST_TRAIN (R574): The EXTEST_TRAIN instruction toggles the 1149.6 transmitters in Run-Test/Idle. -/
  | extestTrain (t : Time) (scan : Option (BitVec 360 × BitVec 360))
  /-- BYPASS (R569): The BYPASS instruction, and every unlisted code, selects the 1-bit bypass register. `scan` as for the other
  instructions: what the cells capture and what is shifted in. -/
  | bypass (t : Time) (code : BitVec 8) (scan : Option (BitVec 360 × BitVec 360))
  /-- MBIST_START (R575): Writing 1 to test.mbist.command tests a buffer range with the chosen algorithm. -/
  | mbistStart (t : Time) (r : Route) (same : Bool)
  /-- MBIST_ABORT (R575): Writing 2 to test.mbist.command aborts the test. -/
  | mbistAbort (t : Time) (r : Route) (same : Bool)
  /-- MBIST_COMPLETE (R575): The memory self-test ends with pass or fail, error count and first failing address. `first` is the first
  failing address, `rows` the failing rows, each with its block of the capture region. -/
  | mbistComplete (t : Time) (errors : Nat) (first : BitVec 64) (rows : List (MemRow × Option Nat))
  /-- SPAN_LOOPBACK (R576): A write to test.span.loopback takes the span out of the ring into a loopback mode, or starts training with 0.
  `errors` are the bit errors that the loopback ending with this write has counted. -/
  | spanLoopback (t : Time) (r : Route) (span : SpanId) (mode : BitVec 8) (errors : Nat)
  /-- FAULT_LOG_SELECT (R582): Writing an entry number to fault.log_select makes log_entry read that entry. -/
  | faultLogSelect (t : Time) (r : Route) (number : BitVec 32)
  /-- FAULT_LOG_CLEAR (R582): Writing 0 to fault.log_clear empties the log and keeps the numbering. -/
  | faultLogClear (t : Time) (r : Route)
  /-- DIAG_CLEAR (R583): Writing 0 to diag.clear sets every diagnostic counter of the pier to 0. `again` are the counters, by index and
  sub-index, that their blocks count in the same cycle. -/
  | diagClear (t : Time) (r : Route) (again : List Nat)
  /-- HEAD_ISOLATE (R584): Writing 1 to service.isolate stops the head, powers it down and enters state 5. -/
  | headIsolate (t : Time) (r : Route) (h : HeadId) (same : Bool)
  /-- HEAD_RELEASE (R586): Writing 0 to service.isolate powers the head up again to state 0. -/
  | headRelease (t : Time) (r : Route) (h : HeadId)
  /-- PPR_HARDEN (R588): Writing 1 to mem.ppr.command converts every soft repair to a hard repair. -/
  | pprHarden (t : Time) (r : Route)
  /-- INDEX_PULSE (R286): A pulse on the encoder index input MOTa_ENCI latches axis.index_position and raises the axis index-pulse event. -/
  | indexPulse (t : Time) (a : AxisId)
  /-- AER_CORRECTABLE_ERROR (R453): An AER correctable error on the PCIe link fires interrupt cause 40 (host-port error), which sets its
  cause bit and sends the message of its vector. -/
  | aerCorrectableError (t : Time)
  /-- PCIE_LOOPBACK_ENTRY (R576): When the host's port directs it, the PCIe endpoint enters loopback as follower. -/
  | pcieLoopbackEntry (t : Time)
  deriving DecidableEq, Repr

end Sys2Proof
end

