-- ==== Sys2Proof/Decode.lean ====
section
/-! DEFINITION. The block has no encodings: spec/opcode_table.json gives no row any bits, so no word spells a command. -/
namespace Sys2Proof

/-- The command that a word of `nbits` bits spells: none, since no row of the table has bits. -/
def decodeTableWord (_nbits _w : Nat) : Option Instr := none

end Sys2Proof
end

