-- ==== Sys2Proof/Config.lean ====
section
/-! DEFINITION. What the spec leaves open: constants without a body, so that nothing can be proved of their values. -/
namespace Sys2Proof.Config

/-- The n-th value that the spec does not fix, as a number (a value that an operation leaves undefined, an unstated
result, a choice that the spec leaves to the part). -/
opaque freeNat : Nat → Nat

/-- The n-th choice between two behaviours that the spec allows. -/
opaque freeBool : Nat → Bool

/-- The n-th byte string that the spec does not fix (a random draw, a signature). -/
opaque freeBytes : Nat → List Byte

/-- What the reserved bits of a place read as at an instant (R2). -/
opaque reservedBits : (at_ place : Nat) → Nat

/-- Whether an event of a task's old source that arrives within 2 ns of a change of its select is delivered (R365). -/
opaque selectRace : (at_ task source : Nat) → Bool

/-- By how much a storm window in deep sleep differs from its shortest (R370), in ticks. -/
opaque sleepWindow : (opened source : Nat) → Nat

/-- The fixed delay from a trigger edge at the ball to T_E, in ticks; R79 bounds it to 180 ns. -/
opaque pinDelay : Nat

/-- SHA-384 of a byte string (custody and firmware; the spec names the function by its standard). -/
opaque sha384 : List Byte → List Byte

/-- Whether a signature by the key verifies over the message (ECDSA P-384 with SHA-384; key, message, signature). -/
opaque ecdsaVerifies : List Byte → List Byte → List Byte → Bool

/-- Whether an LMS signature verifies over the message (public key, message, signature). -/
opaque lmsVerifies : List Byte → List Byte → List Byte → Bool

/-- The image that the running slot holds since manufacture. -/
opaque factoryImage : List Byte

/-- The Koavatha P-384 image key and LMS image key, fixed in the boot ROM (R503). -/
opaque imageKey : List Byte
opaque imageLmsKey : List Byte

/-- `attest.cert` and `attest.lms_public`, fixed per part (R514). -/
opaque attestCert : List Byte
opaque attestLmsPublic : List Byte

end Sys2Proof.Config
end

