-- ==== Sys2Proof/Machine/Arith.lean ====
section
/-! DEFINITION. Whole-number arithmetic of the data paths, byte order, checksums, and the binary floating-point roundings
that the spec's formulas ask for. -/
namespace Sys2Proof.Machine

/-! ## Shifts, rounding and limits -/

/-- Arithmetic shift right by n bits: floor division by 2^n. -/
def sra (v : Int) (n : Nat) : Int := v / (2 ^ n : Int)

/-- rnd(v, n) of the correction and stitching chapters: round half up by n bits. For n = 0 it is v. -/
def rnd (v : Int) (n : Nat) : Int := if n = 0 then v else sra (v + (2 ^ (n - 1) : Int)) n

/-- clip(v, lo, hi). -/
def clip (v lo hi : Int) : Int := max lo (min hi v)

/-- v ÷ d rounded to nearest, halves up (d > 0). -/
def divHalfUp (v d : Int) : Int := (2 * v + d) / (2 * d)

/-- v ÷ d rounded to nearest, halves away from zero (d > 0; 0 for d = 0). -/
def divHalfAway (v d : Int) : Int :=
  if d = 0 then 0
  else
    let s : Int := if (v < 0) = (d < 0) then 1 else -1
    s * ((2 * (v.natAbs : Int) + d.natAbs) / (2 * d.natAbs))

/-- Saturating increment of a counter that holds at most m. -/
def satAdd (v n m : Nat) : Nat := if v + n ≤ m then v + n else m

/-- 2^32 − 1, where most counters saturate. -/
def max32 : Nat := 0xFFFFFFFF

/-- Bit n of a mask. -/
def bit (m n : Nat) : Bool := m.testBit n

/-- Mask with bit n set. -/
def setBit (m n : Nat) : Nat := m ||| (1 <<< n)

/-- Mask with bit n clear. -/
def clearBit (m n : Nat) : Nat := if m.testBit n then m - (1 <<< n) else m

/-- Mask with the bits of k cleared. -/
def clearBits (m k : Nat) : Nat := m - (m &&& k)

/-- Number of bits set among the first n. -/
def popCount (m n : Nat) : Nat := ((List.range n).filter (fun i => m.testBit i)).length

/-! ## Byte order (little-endian throughout, Scope and Conventions) -/

/-- The unsigned number that bytes hold, least significant first. -/
def leNat : List Byte → Nat
  | [] => 0
  | x :: xs => x.toNat + 256 * leNat xs

/-- The 16-bit numbers that bytes hold, two by two. -/
def words16 : List Byte → List Nat
  | x :: y :: rest => (x.toNat + 256 * y.toNat) :: words16 rest
  | _ => []

/-- The n bytes of a number, least significant first. -/
def leBytes : Nat → Nat → List Byte
  | 0, _ => []
  | n + 1, v => BitVec.ofNat 8 v :: leBytes n (v / 256)

/-- A w-bit unsigned number read as two's complement. -/
def toSigned (w v : Nat) : Int := if v < 2 ^ (w - 1) then (v : Int) else (v : Int) - (2 ^ w : Int)

/-- A number as w-bit two's complement. -/
def ofSigned (w : Nat) (v : Int) : Nat := (v % (2 ^ w : Int)).toNat

/-- n bytes of a table from a byte offset. -/
def slice (l : List Byte) (off n : Nat) : List Byte := (l.drop off).take n

/-- The unsigned field of n bytes at an offset of a table. -/
def fieldU (l : List Byte) (off n : Nat) : Nat := leNat (slice l off n)

/-- The two's-complement field of n bytes at an offset of a table. -/
def fieldI (l : List Byte) (off n : Nat) : Int := toSigned (8 * n) (fieldU l off n)

/-- Whether the n bytes at an offset are all 0. -/
def zeroAt (l : List Byte) (off n : Nat) : Bool := (slice l off n).all (· == 0)

/-- The first n bytes of a list, with zeros for those it lacks. -/
def padTo (n : Nat) (l : List Byte) : List Byte := (l ++ List.replicate n 0).take n

/-! ## Checksums -/

/-- One bit step of a reflected CRC register. -/
def crcStep (poly : Nat) (r : Nat) : Nat := if r.testBit 0 then (r / 2) ^^^ poly else r / 2

/-- One byte into a reflected CRC register. -/
def crcByte (poly : Nat) (r : Nat) (x : Byte) : Nat :=
  (List.range 8).foldl (fun a _ => crcStep poly a) (r ^^^ x.toNat)

/-- CRC-32C (R206). -/
def crc32c (l : List Byte) : Nat := (l.foldl (crcByte 0x82F63B78) 0xFFFFFFFF) ^^^ 0xFFFFFFFF

/-- One byte into the PEC register of SMBus: CRC-8, x^8 + x^2 + x + 1, initial value 0 (R475). -/
def pecByte (r : Nat) (x : Byte) : Nat :=
  (List.range 8).foldl (fun a _ => if a.testBit 7 then ((2 * a) % 256) ^^^ 7 else 2 * a) (r ^^^ x.toNat)

/-- The PEC of a transaction's bytes (R475). -/
def pec (l : List Byte) : Nat := l.foldl pecByte 0

/-! ## Roots -/

/-- The largest r with r^k ≤ n, found bit by bit from bit `bits`. -/
def rootBits (k n : Nat) : Nat → Nat → Nat
  | 0, r => r
  | bits + 1, r =>
    let c := r + 2 ^ bits
    rootBits k n bits (if c ^ k ≤ n then c else r)

/-- floor of the k-th root of n, for n below 2^(k·64). -/
def kthRoot (k n : Nat) : Nat := rootBits k n 64 0

/-- floor of the square root. -/
def isqrt (n : Nat) : Nat := rootBits 2 n 160 0

/-- 2^(e ÷ 21) in 2^−48, rounded down, for a gain difference e in codes (R102, R153). -/
def gainFactor (e : Int) : Nat :=
  let q := e / 21
  let r := (e % 21).toNat
  let m := kthRoot 21 (2 ^ (21 * 48 + r))
  if q ≥ 0 then m * 2 ^ q.toNat else m / 2 ^ q.natAbs

/-! ## Exact fractions -/

/-- A whole number as a fraction. -/
def Frac.ofInt (v : Int) : Frac := ⟨v, 1⟩
/-- Lowest terms, which keeps the numbers small. -/
def Frac.norm (f : Frac) : Frac :=
  let g := Nat.gcd f.num.natAbs f.den
  if g = 0 then f else ⟨f.num / (g : Int), f.den / g⟩
/-- Sum. -/
def Frac.add (a b : Frac) : Frac := Frac.norm ⟨a.num * b.den + b.num * a.den, a.den * b.den⟩
/-- Difference. -/
def Frac.sub (a b : Frac) : Frac := Frac.norm ⟨a.num * b.den - b.num * a.den, a.den * b.den⟩
/-- Product. -/
def Frac.mul (a b : Frac) : Frac := Frac.norm ⟨a.num * b.num, a.den * b.den⟩
/-- Quotient; 0 when the divisor is 0 (callers test it first). -/
def Frac.div (a b : Frac) : Frac :=
  if b.num = 0 then ⟨0, 1⟩
  else Frac.norm ⟨(if b.num < 0 then -1 else 1) * a.num * b.den, a.den * b.num.natAbs⟩
/-- Rounded to the nearest whole number, halves away from zero. -/
def Frac.round (a : Frac) : Int := divHalfAway a.num a.den
/-- Rounded down. -/
def Frac.floor (a : Frac) : Int := a.num / (a.den : Int)
/-- Order. -/
def Frac.le (a b : Frac) : Bool := decide (a.num * b.den ≤ b.num * a.den)
/-- Magnitude. -/
def Frac.abs (a : Frac) : Frac := ⟨a.num.natAbs, a.den⟩

/-! ## Binary floating point (IEEE 754, round to nearest, ties to even) -/

/-- floor of log2 of a fraction num ÷ den above 0, found from the sizes of its parts. -/
def log2Frac (num den : Nat) : Int :=
  let e : Int := (Nat.log2 num : Int) - Nat.log2 den
  let below := if e ≥ 0 then decide (num < den * 2 ^ e.toNat) else decide (num * 2 ^ e.natAbs < den)
  if below then e - 1 else e

/-- Whole quotient rounded to nearest, ties to even. -/
def divHalfEven (n d : Nat) : Nat :=
  let q := n / d
  let r := n % d
  if 2 * r < d then q else if 2 * r > d then q + 1 else if q % 2 = 0 then q else q + 1

/-- A fraction rounded to p significant bits with exponents no lower than emin: the value of a binary32 (p = 24, emin =
−149) or binary64 (p = 53, emin = −1074) result as an exact fraction. Overflow does not arise for the quantities used. -/
def roundFloat (p : Nat) (emin : Int) (a : Frac) : Frac :=
  let n := a.num.natAbs
  if n = 0 then ⟨0, 1⟩
  else
    let e := max (log2Frac n a.den - (p - 1 : Nat)) emin
    let m := if e ≥ 0 then divHalfEven n (a.den * 2 ^ e.toNat) else divHalfEven (n * 2 ^ e.natAbs) a.den
    let s : Int := if a.num < 0 then -1 else 1
    if e ≥ 0 then ⟨s * m * (2 ^ e.toNat : Nat), 1⟩ else Frac.norm ⟨s * m, 2 ^ e.natAbs⟩

/-- Rounded to binary64. -/
def f64 (a : Frac) : Frac := roundFloat 53 (-1074) a
/-- Rounded to binary32. -/
def f32 (a : Frac) : Frac := roundFloat 24 (-149) a

/-- The value of binary32 bits, or nothing for an infinity or a NaN. -/
def f32Value (w : Nat) : Option Frac :=
  let e : Nat := w / 2 ^ 23 % 256
  let m : Nat := w % 2 ^ 23
  let s : Int := if w.testBit 31 then -1 else 1
  if e = 255 then none
  else if e = 0 then some (Frac.norm ⟨s * (m : Int), 2 ^ 149⟩)
  else
    let k : Int := (e : Int) - 150
    let v : Int := s * ((m + 2 ^ 23 : Nat) : Int)
    some (if k ≥ 0 then ⟨v * (2 ^ k.toNat : Nat), 1⟩ else Frac.norm ⟨v, 2 ^ k.natAbs⟩)

/-! ## Order statistics -/

/-- Insertion into a rising list. -/
def insertSorted (v : Int) : List Int → List Int
  | [] => [v]
  | x :: xs => if v ≤ x then v :: x :: xs else x :: insertSorted v xs

/-- Rising order. -/
def sortInts (l : List Int) : List Int := l.foldr insertSorted []

/-- The median: the middle value of an odd number of values, the mean of the two middle ones rounded half up for an even
number (the spec names the median and not this case), 0 of none. -/
def median (l : List Int) : Int :=
  let s := sortInts l
  let n := s.length
  if n = 0 then 0
  else if n % 2 = 1 then s.getD (n / 2) 0
  else divHalfUp (s.getD (n / 2 - 1) 0 + s.getD (n / 2) 0) 2

/-- The sum of a list. -/
def sumInts (l : List Int) : Int := l.foldl (· + ·) 0

end Sys2Proof.Machine
end

