-- ==== Sys2Proof/Machine/Objects.lean ====
section
/-! DEFINITION. The object dictionary: one constant for each object that the tables of the spec list (its place, type and
default), and the rows of those tables with access code, persistence and range. -/
namespace Sys2Proof.Machine

/-- The key of a sub-index in the register map. -/
def Obj.key (o : Obj) : Nat := o.index * 256 + o.sub


/-! R24 -/

/-- `device.mode` -/
def Obj.deviceMode : Obj := ⟨0x2001, 0, .u8, 0⟩
/-- `device.column_base` -/
def Obj.deviceColumnBase : Obj := ⟨0x2002, 0, .u32, 0⟩
/-- `device.line_rate_cap` -/
def Obj.deviceLineRateCap : Obj := ⟨0x2003, 0, .u32, 1000000⟩
/-- `device.head_drops` -/
def Obj.deviceHeadDrops (k : Nat) : Obj := ⟨0x2004, 1 + k, .u32, 0⟩
/-- `device.early_triggers` -/
def Obj.deviceEarlyTriggers (k : Nat) : Obj := ⟨0x2004, 5 + k, .u32, 0⟩

/-! R61 -/

/-- `comm.device_type` -/
def Obj.commDeviceType : Obj := ⟨0x1000, 0, .u32, 0⟩
/-- `comm.save` -/
def Obj.commSave (k : Nat) : Obj := ⟨0x1010, 1 + k, .u32, 1⟩
/-- `comm.restore` -/
def Obj.commRestore (k : Nat) : Obj := ⟨0x1011, 1 + k, .u32, 1⟩
/-- `comm.identity.vendor` -/
def Obj.commIdentityVendor : Obj := ⟨0x1018, 1, .u32, 1447⟩
/-- `comm.identity.product` -/
def Obj.commIdentityProduct : Obj := ⟨0x1018, 2, .u32, 25664⟩
/-- `comm.identity.revision` -/
def Obj.commIdentityRevision : Obj := ⟨0x1018, 3, .u32, 0⟩
/-- `comm.identity.serial` -/
def Obj.commIdentitySerial : Obj := ⟨0x1018, 4, .u32, 0⟩
/-- `device.command_coincidences` -/
def Obj.deviceCommandCoincidences : Obj := ⟨0x2005, 0, .u32, 0⟩
/-- `device.dictionary_near_misses` -/
def Obj.deviceDictionaryNearMisses : Obj := ⟨0x2006, 0, .u32, 0⟩
/-- `device.features.offered_lo` -/
def Obj.deviceFeaturesOfferedLo : Obj := ⟨0x2010, 1, .u64, 1023⟩
/-- `device.features.offered_hi` -/
def Obj.deviceFeaturesOfferedHi : Obj := ⟨0x2010, 2, .u64, 0⟩
/-- `device.features.accepted_lo` -/
def Obj.deviceFeaturesAcceptedLo : Obj := ⟨0x2011, 1, .u64, 0⟩
/-- `device.features.accepted_hi` -/
def Obj.deviceFeaturesAcceptedHi : Obj := ⟨0x2011, 2, .u64, 0⟩
/-- `device.features.confirmed_lo` -/
def Obj.deviceFeaturesConfirmedLo : Obj := ⟨0x2012, 1, .u64, 0⟩
/-- `device.features.confirmed_hi` -/
def Obj.deviceFeaturesConfirmedHi : Obj := ⟨0x2012, 2, .u64, 0⟩
/-- `device.features.control` -/
def Obj.deviceFeaturesControl : Obj := ⟨0x2013, 0, .u8, 0⟩

/-! R39 -/

/-- `power.level` -/
def Obj.powerLevel : Obj := ⟨0x2200, 1, .u8, 0⟩
/-- `power.level_in_force` -/
def Obj.powerLevelInForce : Obj := ⟨0x2200, 2, .u8, 0⟩
/-- `power.state` -/
def Obj.powerState : Obj := ⟨0x2200, 3, .u8, 0⟩
/-- `fabric.level` -/
def Obj.fabricLevel : Obj := ⟨0x2300, 1, .u8, 0⟩
/-- `fabric.level_in_force` -/
def Obj.fabricLevelInForce : Obj := ⟨0x2300, 2, .u8, 0⟩
/-- `fabric.state` -/
def Obj.fabricState : Obj := ⟨0x2300, 3, .u8, 0⟩
/-- `dma.level` -/
def Obj.dmaLevel : Obj := ⟨0x2400, 1, .u8, 0⟩
/-- `dma.level_in_force` -/
def Obj.dmaLevelInForce : Obj := ⟨0x2400, 2, .u8, 0⟩
/-- `dma.state` -/
def Obj.dmaState : Obj := ⟨0x2400, 3, .u8, 0⟩
/-- `capture.level` -/
def Obj.captureLevel : Obj := ⟨0x2500, 1, .u8, 0⟩
/-- `capture.level_in_force` -/
def Obj.captureLevelInForce : Obj := ⟨0x2500, 2, .u8, 0⟩
/-- `capture.state` -/
def Obj.captureState : Obj := ⟨0x2500, 3, .u8, 0⟩
/-- `ring.level` -/
def Obj.ringLevel : Obj := ⟨0x2600, 1, .u8, 0⟩
/-- `ring.level_in_force` -/
def Obj.ringLevelInForce : Obj := ⟨0x2600, 2, .u8, 0⟩
/-- `ring.state` -/
def Obj.ringState : Obj := ⟨0x2600, 3, .u8, 0⟩
/-- `mgmt.level` -/
def Obj.mgmtLevel : Obj := ⟨0x2700, 1, .u8, 0⟩
/-- `mgmt.level_in_force` -/
def Obj.mgmtLevelInForce : Obj := ⟨0x2700, 2, .u8, 0⟩
/-- `mgmt.state` -/
def Obj.mgmtState : Obj := ⟨0x2700, 3, .u8, 0⟩
/-- `aux.level` -/
def Obj.auxLevel : Obj := ⟨0x4000, 1, .u8, 0⟩
/-- `aux.level_in_force` -/
def Obj.auxLevelInForce : Obj := ⟨0x4000, 2, .u8, 0⟩
/-- `aux.state` -/
def Obj.auxState : Obj := ⟨0x4000, 3, .u8, 0⟩
/-- `aux.command` -/
def Obj.auxCommand : Obj := ⟨0x4000, 4, .u8, 0⟩
/-- `headPattern.level` -/
def Obj.headPatternLevel (h : Nat) : Obj := ⟨0x3000 + 0x400 * h, 1, .u8, 0⟩
/-- `headPattern.level_in_force` -/
def Obj.headPatternLevelInForce (h : Nat) : Obj := ⟨0x3000 + 0x400 * h, 2, .u8, 0⟩
/-- `headPattern.state` -/
def Obj.headPatternState (h : Nat) : Obj := ⟨0x3000 + 0x400 * h, 3, .u8, 0⟩
/-- `headPattern.command` -/
def Obj.headPatternCommand (h : Nat) : Obj := ⟨0x3000 + 0x400 * h, 4, .u8, 0⟩
/-- `headVideo.level` -/
def Obj.headVideoLevel (h : Nat) : Obj := ⟨0x3080 + 0x400 * h, 1, .u8, 0⟩
/-- `headVideo.level_in_force` -/
def Obj.headVideoLevelInForce (h : Nat) : Obj := ⟨0x3080 + 0x400 * h, 2, .u8, 0⟩
/-- `headVideo.state` -/
def Obj.headVideoState (h : Nat) : Obj := ⟨0x3080 + 0x400 * h, 3, .u8, 0⟩
/-- `headCorr.level` -/
def Obj.headCorrLevel (h : Nat) : Obj := ⟨0x3100 + 0x400 * h, 1, .u8, 0⟩
/-- `headCorr.level_in_force` -/
def Obj.headCorrLevelInForce (h : Nat) : Obj := ⟨0x3100 + 0x400 * h, 2, .u8, 0⟩
/-- `headCorr.state` -/
def Obj.headCorrState (h : Nat) : Obj := ⟨0x3100 + 0x400 * h, 3, .u8, 0⟩
/-- `headStitch.level` -/
def Obj.headStitchLevel (h : Nat) : Obj := ⟨0x3180 + 0x400 * h, 1, .u8, 0⟩
/-- `headStitch.level_in_force` -/
def Obj.headStitchLevelInForce (h : Nat) : Obj := ⟨0x3180 + 0x400 * h, 2, .u8, 0⟩
/-- `headStitch.state` -/
def Obj.headStitchState (h : Nat) : Obj := ⟨0x3180 + 0x400 * h, 3, .u8, 0⟩
/-- `headIllum.level` -/
def Obj.headIllumLevel (h : Nat) : Obj := ⟨0x3200 + 0x400 * h, 1, .u8, 0⟩
/-- `headIllum.level_in_force` -/
def Obj.headIllumLevelInForce (h : Nat) : Obj := ⟨0x3200 + 0x400 * h, 2, .u8, 0⟩
/-- `headIllum.state` -/
def Obj.headIllumState (h : Nat) : Obj := ⟨0x3200 + 0x400 * h, 3, .u8, 0⟩
/-- `headOutput.level` -/
def Obj.headOutputLevel (h : Nat) : Obj := ⟨0x3280 + 0x400 * h, 1, .u8, 0⟩
/-- `headOutput.level_in_force` -/
def Obj.headOutputLevelInForce (h : Nat) : Obj := ⟨0x3280 + 0x400 * h, 2, .u8, 0⟩
/-- `headOutput.state` -/
def Obj.headOutputState (h : Nat) : Obj := ⟨0x3280 + 0x400 * h, 3, .u8, 0⟩
/-- `axis.level` -/
def Obj.axisLevel (a : Nat) : Obj := ⟨0x4100 + 0x80 * a, 1, .u8, 0⟩
/-- `axis.level_in_force` -/
def Obj.axisLevelInForce (a : Nat) : Obj := ⟨0x4100 + 0x80 * a, 2, .u8, 0⟩
/-- `axis.state` -/
def Obj.axisState (a : Nat) : Obj := ⟨0x4100 + 0x80 * a, 3, .u8, 0⟩
/-- `axis.command` -/
def Obj.axisCommand (a : Nat) : Obj := ⟨0x4100 + 0x80 * a, 4, .u8, 0⟩

/-! R98 -/

/-- `head<h>.segments` -/
def Obj.headSegments (h : Nat) : Obj := ⟨0x3001 + 0x400 * h, 0, .u16, 65535⟩
/-- `head<h>.layout.lead` -/
def Obj.headLayoutLead (h : Nat) : Obj := ⟨0x3002 + 0x400 * h, 1, .u8, 32⟩
/-- `head<h>.layout.active` -/
def Obj.headLayoutActive (h : Nat) : Obj := ⟨0x3002 + 0x400 * h, 2, .u16, 512⟩
/-- `head<h>.layout.trail` -/
def Obj.headLayoutTrail (h : Nat) : Obj := ⟨0x3002 + 0x400 * h, 3, .u8, 16⟩
/-- `head<h>.layout.ob_first` -/
def Obj.headLayoutObFirst (h : Nat) : Obj := ⟨0x3002 + 0x400 * h, 4, .u8, 8⟩
/-- `head<h>.layout.ob_count` -/
def Obj.headLayoutObCount (h : Nat) : Obj := ⟨0x3002 + 0x400 * h, 5, .u8, 24⟩
/-- `head<h>.pattern.pixel_rate` -/
def Obj.headPatternPixelRate (h : Nat) : Obj := ⟨0x3003 + 0x400 * h, 0, .u8, 0⟩
/-- `head<h>.pattern.pixclk_phase` -/
def Obj.headPatternPixclkPhase (h : Nat) : Obj := ⟨0x3004 + 0x400 * h, 1, .u8, 0⟩
/-- `head<h>.pattern.sample_delay` -/
def Obj.headPatternSampleDelay (h : Nat) : Obj := ⟨0x3004 + 0x400 * h, 2, .u8, 40⟩
/-- `head<h>.pattern.cds_ref_delay` -/
def Obj.headPatternCdsRefDelay (h : Nat) : Obj := ⟨0x3004 + 0x400 * h, 3, .u8, 8⟩
/-- `head<h>.pattern.readout_offset` -/
def Obj.headPatternReadoutOffset (h : Nat) : Obj := ⟨0x3005 + 0x400 * h, 0, .u32, 64⟩
/-- `head<h>.exposure` -/
def Obj.headExposure (h : Nat) : Obj := ⟨0x3006 + 0x400 * h, 0, .u32, 10000⟩
/-- `head<h>.exposure_in_force` -/
def Obj.headExposureInForce (h : Nat) : Obj := ⟨0x3007 + 0x400 * h, 0, .u32, 10000⟩
/-- `head<h>.pattern.bank` -/
def Obj.headPatternBank (h : Nat) : Obj := ⟨0x3008 + 0x400 * h, 1, .u8, 0⟩
/-- `head<h>.pattern.drive` -/
def Obj.headPatternDrive (h : Nat) : Obj := ⟨0x3008 + 0x400 * h, 2, .u8, 1⟩
/-- `head<h>.pattern.slew` -/
def Obj.headPatternSlew (h : Nat) : Obj := ⟨0x3008 + 0x400 * h, 3, .u8, 1⟩
/-- `head<h>.pattern.pair_mode` -/
def Obj.headPatternPairMode (h : Nat) : Obj := ⟨0x3008 + 0x400 * h, 4, .u8, 0⟩
/-- `head<h>.pattern.out_mode` -/
def Obj.headPatternOutMode (h : Nat) : Obj := ⟨0x3008 + 0x400 * h, 5, .u32, 0⟩
/-- `head<h>.pattern.idle_level` -/
def Obj.headPatternIdleLevel (h : Nat) : Obj := ⟨0x3008 + 0x400 * h, 6, .u16, 0⟩
/-- `head<h>.pattern.bank_measured` -/
def Obj.headPatternBankMeasured (h : Nat) : Obj := ⟨0x3008 + 0x400 * h, 7, .u16, 0⟩
/-- `head<h>.clock.source` -/
def Obj.headClockSource (h : Nat) : Obj := ⟨0x3009 + 0x400 * h, 1, .u8, 0⟩
/-- `head<h>.clock.sensor_hz` -/
def Obj.headClockSensorHz (h : Nat) : Obj := ⟨0x3009 + 0x400 * h, 2, .u32, 40000000⟩
/-- `head<h>.clock.locked` -/
def Obj.headClockLocked (h : Nat) : Obj := ⟨0x3009 + 0x400 * h, 3, .bool, 0⟩
/-- `head<h>.trigger.source` -/
def Obj.headTriggerSource (h : Nat) : Obj := ⟨0x300a + 0x400 * h, 1, .u8, 0⟩
/-- `head<h>.trigger.period` -/
def Obj.headTriggerPeriod (h : Nat) : Obj := ⟨0x300a + 0x400 * h, 2, .u64, 1600000⟩
/-- `head<h>.trigger.start_at` -/
def Obj.headTriggerStartAt (h : Nat) : Obj := ⟨0x300a + 0x400 * h, 3, .time64, 0⟩
/-- `head<h>.trigger.sw_enable` -/
def Obj.headTriggerSwEnable (h : Nat) : Obj := ⟨0x300a + 0x400 * h, 4, .bool, 0⟩
/-- `head<h>.trigger.fire` -/
def Obj.headTriggerFire (h : Nat) : Obj := ⟨0x300a + 0x400 * h, 5, .u8, 0⟩
/-- `head<h>.trigger.timeout` -/
def Obj.headTriggerTimeout (h : Nat) : Obj := ⟨0x300a + 0x400 * h, 6, .u32, 0⟩
/-- `head<h>.trigger.axis` -/
def Obj.headTriggerAxis (h : Nat) : Obj := ⟨0x300a + 0x400 * h, 7, .u8, 0⟩
/-- `head<h>.trigger.pitch` -/
def Obj.headTriggerPitch (h : Nat) : Obj := ⟨0x300a + 0x400 * h, 8, .pos48, 256⟩
/-- `head<h>.trigger.origin` -/
def Obj.headTriggerOrigin (h : Nat) : Obj := ⟨0x300a + 0x400 * h, 9, .pos48, 0⟩
/-- `head<h>.trigger.direction` -/
def Obj.headTriggerDirection (h : Nat) : Obj := ⟨0x300a + 0x400 * h, 10, .i8, 1⟩
/-- `head<h>.trigger.broadcast_delay` -/
def Obj.headTriggerBroadcastDelay (h : Nat) : Obj := ⟨0x300a + 0x400 * h, 11, .u32, 0⟩
/-- `head<h>.trigger.pin_edge` -/
def Obj.headTriggerPinEdge (h : Nat) : Obj := ⟨0x300a + 0x400 * h, 12, .u8, 0⟩
/-- `head<h>.trigger.pin_filter` -/
def Obj.headTriggerPinFilter (h : Nat) : Obj := ⟨0x300a + 0x400 * h, 13, .u8, 0⟩
/-- `head<h>.trigger.count` -/
def Obj.headTriggerCount (h : Nat) : Obj := ⟨0x300a + 0x400 * h, 14, .u32, 0⟩
/-- `head<h>.sync.mode` -/
def Obj.headSyncMode (h : Nat) : Obj := ⟨0x300b + 0x400 * h, 1, .u8, 1⟩
/-- `head<h>.sync.width` -/
def Obj.headSyncWidth (h : Nat) : Obj := ⟨0x300b + 0x400 * h, 2, .u16, 32⟩
/-- `head<h>.trigger.accepted` -/
def Obj.headTriggerAccepted (h : Nat) : Obj := ⟨0x300c + 0x400 * h, 1, .u64, 0⟩
/-- `head<h>.trigger.coincidences` -/
def Obj.headTriggerCoincidences (h : Nat) : Obj := ⟨0x300c + 0x400 * h, 2, .u32, 0⟩
/-- `head<h>.trigger.near_misses` -/
def Obj.headTriggerNearMisses (h : Nat) : Obj := ⟨0x300c + 0x400 * h, 3, .u32, 0⟩
/-- `head<h>.pattern.collisions` -/
def Obj.headPatternCollisions (h : Nat) : Obj := ⟨0x300c + 0x400 * h, 4, .u32, 0⟩
/-- `head<h>.trigger.late_broadcasts` -/
def Obj.headTriggerLateBroadcasts (h : Nat) : Obj := ⟨0x300c + 0x400 * h, 5, .u32, 0⟩
/-- `head<h>.pattern.window_delays` -/
def Obj.headPatternWindowDelays (h : Nat) : Obj := ⟨0x300c + 0x400 * h, 6, .u32, 0⟩
/-- `head<h>.output.format` -/
def Obj.headOutputFormat (h : Nat) : Obj := ⟨0x3281 + 0x400 * h, 0, .u8, 4⟩
/-- `head<h>.output.records` -/
def Obj.headOutputRecords (h : Nat) : Obj := ⟨0x3282 + 0x400 * h, 0, .u64, 0⟩
/-- `head<h>.output.last_sequence` -/
def Obj.headOutputLastSequence (h : Nat) : Obj := ⟨0x3283 + 0x400 * h, 0, .u64, 0⟩

/-! R125 -/

/-- `head<h>.video.gain` -/
def Obj.headVideoGain (h k : Nat) : Obj := ⟨0x3081 + 0x400 * h, 1 + k, .u8, 0⟩
/-- `head<h>.video.range_commit` -/
def Obj.headVideoRangeCommit (h : Nat) : Obj := ⟨0x3082 + 0x400 * h, 1, .u16, 0⟩
/-- `head<h>.video.range_task_set` -/
def Obj.headVideoRangeTaskSet (h : Nat) : Obj := ⟨0x3082 + 0x400 * h, 2, .u16, 0⟩
/-- `head<h>.video.gain_in_force` -/
def Obj.headVideoGainInForce (h k : Nat) : Obj := ⟨0x3083 + 0x400 * h, 1 + k, .u8, 0⟩
/-- `head<h>.video.coupling` -/
def Obj.headVideoCoupling (h : Nat) : Obj := ⟨0x3084 + 0x400 * h, 1, .u16, 0⟩
/-- `head<h>.video.clamp_first` -/
def Obj.headVideoClampFirst (h : Nat) : Obj := ⟨0x3084 + 0x400 * h, 2, .u8, 0⟩
/-- `head<h>.video.clamp_count` -/
def Obj.headVideoClampCount (h : Nat) : Obj := ⟨0x3084 + 0x400 * h, 3, .u8, 0⟩
/-- `head<h>.video.polarity` -/
def Obj.headVideoPolarity (h : Nat) : Obj := ⟨0x3084 + 0x400 * h, 4, .u16, 0⟩
/-- `head<h>.video.termination` -/
def Obj.headVideoTermination (h : Nat) : Obj := ⟨0x3084 + 0x400 * h, 5, .u16, 65535⟩
/-- `head<h>.video.offset_dac` -/
def Obj.headVideoOffsetDac (h k : Nat) : Obj := ⟨0x3085 + 0x400 * h, 1 + k, .i8, 0⟩
/-- `head<h>.video.pedestal` -/
def Obj.headVideoPedestal (h : Nat) : Obj := ⟨0x3086 + 0x400 * h, 0, .u16, 512⟩
/-- `head<h>.video.ilv.freeze` -/
def Obj.headVideoIlvFreeze (h : Nat) : Obj := ⟨0x3087 + 0x400 * h, 1, .bool, 0⟩
/-- `head<h>.video.ilv.window_log2` -/
def Obj.headVideoIlvWindowLog2 (h : Nat) : Obj := ⟨0x3087 + 0x400 * h, 2, .u8, 8⟩
/-- `head<h>.video.ilv.step_shift` -/
def Obj.headVideoIlvStepShift (h : Nat) : Obj := ⟨0x3087 + 0x400 * h, 3, .u8, 2⟩
/-- `head<h>.video.ilv.timeout` -/
def Obj.headVideoIlvTimeout (h : Nat) : Obj := ⟨0x3087 + 0x400 * h, 4, .u32, 0⟩
/-- `head<h>.video.ilv.status` -/
def Obj.headVideoIlvStatus (h k : Nat) : Obj := ⟨0x3088 + 0x400 * h, 1 + k, .u8, 0⟩
/-- `head<h>.video.ilv.offset_b` (R125, R128). DESIGN CHOICE: the factory-measured default, which the spec gives no number for, is 0. -/
def Obj.headVideoIlvOffsetB (h k : Nat) : Obj := ⟨0x3089 + 0x400 * h, 1 + k, .i16, 0⟩
/-- `head<h>.video.ilv.gain_b` (R125, R128). DESIGN CHOICE: the factory-measured default, which the spec gives no number for, is 0. -/
def Obj.headVideoIlvGainB (h k : Nat) : Obj := ⟨0x308a + 0x400 * h, 1 + k, .i16, 0⟩
/-- `head<h>.video.ilv.skew_b` (R125, R128). DESIGN CHOICE: the factory-measured default, which the spec gives no number for, is 0. -/
def Obj.headVideoIlvSkewB (h k : Nat) : Obj := ⟨0x308b + 0x400 * h, 1 + k, .i16, 0⟩
/-- `head<h>.video.saturated_lines` -/
def Obj.headVideoSaturatedLines (h : Nat) : Obj := ⟨0x308c + 0x400 * h, 1, .u32, 0⟩
/-- `head<h>.video.overrange_lines` -/
def Obj.headVideoOverrangeLines (h : Nat) : Obj := ⟨0x308c + 0x400 * h, 2, .u32, 0⟩
/-- `head<h>.video.range_changes` -/
def Obj.headVideoRangeChanges (h : Nat) : Obj := ⟨0x308c + 0x400 * h, 3, .u32, 0⟩
/-- `head<h>.video.ilv.excluded` -/
def Obj.headVideoIlvExcluded (h : Nat) : Obj := ⟨0x308c + 0x400 * h, 4, .u32, 0⟩
/-- `head<h>.video.range_refusals` -/
def Obj.headVideoRangeRefusals (h : Nat) : Obj := ⟨0x308c + 0x400 * h, 5, .u32, 0⟩
/-- `head<h>.video.ilv.coincidences` -/
def Obj.headVideoIlvCoincidences (h : Nat) : Obj := ⟨0x308c + 0x400 * h, 6, .u32, 0⟩
/-- `head<h>.video.ilv.near_misses` -/
def Obj.headVideoIlvNearMisses (h : Nat) : Obj := ⟨0x308c + 0x400 * h, 7, .u32, 0⟩

/-! R166 -/

/-- `head<h>.corr.bar_channel` -/
def Obj.headCorrBarChannel (h : Nat) : Obj := ⟨0x3101 + 0x400 * h, 1, .u8, 255⟩
/-- `head<h>.corr.temp_fixed` -/
def Obj.headCorrTempFixed (h : Nat) : Obj := ⟨0x3101 + 0x400 * h, 2, .i16, 400⟩
/-- `head<h>.corr.bar_temp` -/
def Obj.headCorrBarTemp (h : Nat) : Obj := ⟨0x3101 + 0x400 * h, 3, .i16, 400⟩
/-- `head<h>.corr.temp_state` -/
def Obj.headCorrTempState (h : Nat) : Obj := ⟨0x3101 + 0x400 * h, 4, .u8, 3⟩
/-- `head<h>.clamp.mode` -/
def Obj.headClampMode (h : Nat) : Obj := ⟨0x3102 + 0x400 * h, 1, .u8, 1⟩
/-- `head<h>.clamp.smoothing` -/
def Obj.headClampSmoothing (h : Nat) : Obj := ⟨0x3102 + 0x400 * h, 2, .u8, 0⟩
/-- `head<h>.clamp.fixed` -/
def Obj.headClampFixed (h : Nat) : Obj := ⟨0x3102 + 0x400 * h, 3, .u16, 512⟩
/-- `head<h>.clamp.value` -/
def Obj.headClampValue (h k : Nat) : Obj := ⟨0x3103 + 0x400 * h, 1 + k, .u32, 0⟩
/-- `head<h>.lin.mode` -/
def Obj.headLinMode (h : Nat) : Obj := ⟨0x3104 + 0x400 * h, 0, .u8, 0⟩
/-- `head<h>.patina.enable` -/
def Obj.headPatinaEnable (h : Nat) : Obj := ⟨0x3105 + 0x400 * h, 1, .bool, 1⟩
/-- `head<h>.patina.white_target` -/
def Obj.headPatinaWhiteTarget (h : Nat) : Obj := ⟨0x3105 + 0x400 * h, 2, .u16, 48000⟩
/-- `head<h>.patina.out_offset` -/
def Obj.headPatinaOutOffset (h : Nat) : Obj := ⟨0x3105 + 0x400 * h, 3, .u16, 0⟩
/-- `head<h>.bin.factor` -/
def Obj.headBinFactor (h : Nat) : Obj := ⟨0x3106 + 0x400 * h, 0, .u8, 1⟩
/-- `head<h>.corr.set_in_force` -/
def Obj.headCorrSetInForce (h : Nat) : Obj := ⟨0x3107 + 0x400 * h, 1, .u16, 0⟩
/-- `head<h>.corr.shadow_ready` -/
def Obj.headCorrShadowReady (h : Nat) : Obj := ⟨0x3107 + 0x400 * h, 2, .u16, 65535⟩
/-- `head<h>.corr.swap` -/
def Obj.headCorrSwap (h : Nat) : Obj := ⟨0x3107 + 0x400 * h, 3, .u16, 0⟩
/-- `head<h>.corr.prepare` -/
def Obj.headCorrPrepare (h : Nat) : Obj := ⟨0x3107 + 0x400 * h, 4, .u16, 0⟩
/-- `head<h>.cal.command` -/
def Obj.headCalCommand (h : Nat) : Obj := ⟨0x3108 + 0x400 * h, 1, .u8, 0⟩
/-- `head<h>.cal.status` -/
def Obj.headCalStatus (h : Nat) : Obj := ⟨0x3108 + 0x400 * h, 2, .u8, 0⟩
/-- `head<h>.cal.dark_lines` -/
def Obj.headCalDarkLines (h : Nat) : Obj := ⟨0x3108 + 0x400 * h, 3, .u16, 256⟩
/-- `head<h>.cal.white_lines` -/
def Obj.headCalWhiteLines (h : Nat) : Obj := ⟨0x3108 + 0x400 * h, 4, .u16, 256⟩
/-- `head<h>.cal.grey_lines` -/
def Obj.headCalGreyLines (h : Nat) : Obj := ⟨0x3108 + 0x400 * h, 5, .u16, 0⟩
/-- `head<h>.cal.grey_ratio` -/
def Obj.headCalGreyRatio (h : Nat) : Obj := ⟨0x3108 + 0x400 * h, 6, .u16, 16384⟩
/-- `head<h>.cal.settle_lines` -/
def Obj.headCalSettleLines (h : Nat) : Obj := ⟨0x3108 + 0x400 * h, 7, .u16, 16⟩
/-- `head<h>.cal.auto` -/
def Obj.headCalAuto (h : Nat) : Obj := ⟨0x3108 + 0x400 * h, 8, .bool, 0⟩
/-- `head<h>.corr.fallback_lines` -/
def Obj.headCorrFallbackLines (h : Nat) : Obj := ⟨0x3109 + 0x400 * h, 1, .u32, 0⟩
/-- `head<h>.corr.defective` -/
def Obj.headCorrDefective (h : Nat) : Obj := ⟨0x3109 + 0x400 * h, 2, .u16, 0⟩
/-- `head<h>.corr.temp_near_misses` -/
def Obj.headCorrTempNearMisses (h : Nat) : Obj := ⟨0x3109 + 0x400 * h, 3, .u32, 0⟩
/-- `head<h>.corr.swaps` -/
def Obj.headCorrSwaps (h : Nat) : Obj := ⟨0x3109 + 0x400 * h, 4, .u32, 0⟩
/-- `head<h>.corr.coincidences` -/
def Obj.headCorrCoincidences (h : Nat) : Obj := ⟨0x3109 + 0x400 * h, 5, .u32, 0⟩
/-- `head<h>.corr.task_refusals` -/
def Obj.headCorrTaskRefusals (h : Nat) : Obj := ⟨0x3109 + 0x400 * h, 6, .u32, 0⟩
/-- `head<h>.clamp.empty_lines` -/
def Obj.headClampEmptyLines (h : Nat) : Obj := ⟨0x3109 + 0x400 * h, 7, .u32, 0⟩

/-! R198 -/

/-- `head<h>.stitch.mode` -/
def Obj.headStitchMode (h : Nat) : Obj := ⟨0x3181 + 0x400 * h, 0, .u8, 1⟩
/-- `head<h>.stitch.width` -/
def Obj.headStitchWidth (h : Nat) : Obj := ⟨0x3182 + 0x400 * h, 1, .u16, 0⟩
/-- `head<h>.stitch.first_column` -/
def Obj.headStitchFirstColumn (h : Nat) : Obj := ⟨0x3182 + 0x400 * h, 2, .u32, 0⟩
/-- `head<h>.stitch.gap_mode` -/
def Obj.headStitchGapMode (h : Nat) : Obj := ⟨0x3182 + 0x400 * h, 3, .u8, 1⟩
/-- `head<h>.stitch.fill` -/
def Obj.headStitchFill (h : Nat) : Obj := ⟨0x3182 + 0x400 * h, 4, .u16, 0⟩
/-- `head<h>.stitch.blend` -/
def Obj.headStitchBlend (h : Nat) : Obj := ⟨0x3182 + 0x400 * h, 5, .u8, 0⟩
/-- `head<h>.stitch.midpoint` -/
def Obj.headStitchMidpoint (h : Nat) : Obj := ⟨0x3182 + 0x400 * h, 6, .bool, 1⟩
/-- `head<h>.stitch.streak_delay` -/
def Obj.headStitchStreakDelay (h k : Nat) : Obj := ⟨0x3183 + 0x400 * h, 1 + k, .u16, 0⟩
/-- `head<h>.stitch.set_in_force` -/
def Obj.headStitchSetInForce (h : Nat) : Obj := ⟨0x3184 + 0x400 * h, 1, .u16, 0⟩
/-- `head<h>.stitch.shadow_ready` -/
def Obj.headStitchShadowReady (h : Nat) : Obj := ⟨0x3184 + 0x400 * h, 2, .u16, 65535⟩
/-- `head<h>.stitch.swap` -/
def Obj.headStitchSwap (h : Nat) : Obj := ⟨0x3184 + 0x400 * h, 3, .u16, 0⟩
/-- `head<h>.stitch.cal.command` -/
def Obj.headStitchCalCommand (h : Nat) : Obj := ⟨0x3185 + 0x400 * h, 1, .u8, 0⟩
/-- `head<h>.stitch.cal.status` -/
def Obj.headStitchCalStatus (h : Nat) : Obj := ⟨0x3185 + 0x400 * h, 2, .u8, 0⟩
/-- `head<h>.stitch.cal.lines` -/
def Obj.headStitchCalLines (h : Nat) : Obj := ⟨0x3185 + 0x400 * h, 3, .u16, 64⟩
/-- `head<h>.stitch.cal.mark_pitch` -/
def Obj.headStitchCalMarkPitch (h : Nat) : Obj := ⟨0x3185 + 0x400 * h, 4, .u32, 16384⟩
/-- `head<h>.stitch.cal.first_mark` -/
def Obj.headStitchCalFirstMark (h : Nat) : Obj := ⟨0x3185 + 0x400 * h, 5, .u32, 8192⟩
/-- `head<h>.stitch.cal.edge` -/
def Obj.headStitchCalEdge (h : Nat) : Obj := ⟨0x3185 + 0x400 * h, 6, .bool, 0⟩
/-- `head<h>.stitch.cal.edge_lines` -/
def Obj.headStitchCalEdgeLines (h : Nat) : Obj := ⟨0x3185 + 0x400 * h, 7, .u16, 2048⟩
/-- `head<h>.stitch.fallback_lines` -/
def Obj.headStitchFallbackLines (h : Nat) : Obj := ⟨0x3186 + 0x400 * h, 1, .u32, 0⟩
/-- `head<h>.stitch.history_misses` -/
def Obj.headStitchHistoryMisses (h : Nat) : Obj := ⟨0x3186 + 0x400 * h, 2, .u32, 0⟩
/-- `head<h>.stitch.position_fallbacks` -/
def Obj.headStitchPositionFallbacks (h : Nat) : Obj := ⟨0x3186 + 0x400 * h, 3, .u32, 0⟩
/-- `head<h>.stitch.swaps` -/
def Obj.headStitchSwaps (h : Nat) : Obj := ⟨0x3186 + 0x400 * h, 4, .u32, 0⟩
/-- `head<h>.stitch.coincidences` -/
def Obj.headStitchCoincidences (h : Nat) : Obj := ⟨0x3186 + 0x400 * h, 5, .u32, 0⟩
/-- `head<h>.stitch.task_refusals` -/
def Obj.headStitchTaskRefusals (h : Nat) : Obj := ⟨0x3186 + 0x400 * h, 6, .u32, 0⟩
/-- `head<h>.stitch.cal.residual` -/
def Obj.headStitchCalResidual (h k : Nat) : Obj := ⟨0x3187 + 0x400 * h, 1 + k, .u16, 0⟩

/-! R228 -/

/-- `capture.window_mode` -/
def Obj.captureWindowMode : Obj := ⟨0x2501, 1, .u8, 0⟩
/-- `capture.pre_lines` -/
def Obj.capturePreLines : Obj := ⟨0x2501, 2, .u32, 500⟩
/-- `capture.post_lines` -/
def Obj.capturePostLines : Obj := ⟨0x2501, 3, .u32, 20000⟩
/-- `capture.bursts` -/
def Obj.captureBursts : Obj := ⟨0x2501, 4, .u32, 1⟩
/-- `capture.policy` -/
def Obj.capturePolicy : Obj := ⟨0x2501, 5, .u8, 0⟩
/-- `capture.arm` -/
def Obj.captureArm : Obj := ⟨0x2501, 6, .u8, 0⟩
/-- `capture.trigger.source` -/
def Obj.captureTriggerSource : Obj := ⟨0x2502, 1, .u8, 0⟩
/-- `capture.trigger.head` -/
def Obj.captureTriggerHead : Obj := ⟨0x2502, 2, .u8, 0⟩
/-- `capture.trigger.at` -/
def Obj.captureTriggerAt : Obj := ⟨0x2502, 3, .time64, 0⟩
/-- `capture.trigger.broadcast` -/
def Obj.captureTriggerBroadcast : Obj := ⟨0x2502, 4, .bool, 0⟩
/-- `capture.trigger.fire` -/
def Obj.captureTriggerFire : Obj := ⟨0x2502, 5, .u8, 0⟩
/-- `capture.trigger.last` -/
def Obj.captureTriggerLast : Obj := ⟨0x2502, 6, .time64, 0⟩
/-- `capture.bursts_done` -/
def Obj.captureBurstsDone : Obj := ⟨0x2503, 2, .u32, 0⟩
/-- `capture.head_share` -/
def Obj.captureHeadShare (k : Nat) : Obj := ⟨0x2504, 1 + k, .u8, 64⟩
/-- `buffer.readout_size` -/
def Obj.bufferReadoutSize : Obj := ⟨0x2504, 5, .u32, 1024⟩
/-- `capture.fill` -/
def Obj.captureFill (k : Nat) : Obj := ⟨0x2505, 1 + k, .u32, 0⟩
/-- `capture.readout_fill` -/
def Obj.captureReadoutFill : Obj := ⟨0x2505, 5, .u32, 0⟩
/-- `buffer.demand` -/
def Obj.bufferDemand : Obj := ⟨0x2506, 1, .u32, 0⟩
/-- `buffer.usable` -/
def Obj.bufferUsable : Obj := ⟨0x2506, 2, .u32, 216000⟩
/-- `buffer.refresh_state` -/
def Obj.bufferRefreshState : Obj := ⟨0x2506, 3, .u8, 0⟩
/-- `buffer.budget_enforce` -/
def Obj.bufferBudgetEnforce : Obj := ⟨0x2506, 4, .bool, 1⟩
/-- `capture.dropped` -/
def Obj.captureDropped (k : Nat) : Obj := ⟨0x2507, 1 + k, .u32, 0⟩
/-- `capture.overwritten` -/
def Obj.captureOverwritten (k : Nat) : Obj := ⟨0x2507, 5 + k, .u32, 0⟩
/-- `capture.blk_fallbacks` -/
def Obj.captureBlkFallbacks (k : Nat) : Obj := ⟨0x2507, 9 + k, .u32, 0⟩
/-- `capture.trigger_ignored` -/
def Obj.captureTriggerIgnored : Obj := ⟨0x2507, 13, .u32, 0⟩
/-- `capture.coincidences` -/
def Obj.captureCoincidences : Obj := ⟨0x2507, 14, .u32, 0⟩
/-- `capture.overwrite_blocked` -/
def Obj.captureOverwriteBlocked : Obj := ⟨0x2507, 15, .u32, 0⟩
/-- `capture.discard` -/
def Obj.captureDiscard (k : Nat) : Obj := ⟨0x2508, 1 + k, .u8, 0⟩

/-! R259 -/

/-- `axis<a>.keystone.enable` -/
def Obj.axisKeystoneEnable (a : Nat) : Obj := ⟨0x4160 + 0x80 * a, 1, .bool, 0⟩
/-- `axis<a>.keystone.command` -/
def Obj.axisKeystoneCommand (a : Nat) : Obj := ⟨0x4160 + 0x80 * a, 2, .u8, 0⟩
/-- `axis<a>.keystone.state` -/
def Obj.axisKeystoneState (a : Nat) : Obj := ⟨0x4160 + 0x80 * a, 3, .u8, 0⟩
/-- `axis<a>.keystone.page_lines` -/
def Obj.axisKeystonePageLines (a : Nat) : Obj := ⟨0x4160 + 0x80 * a, 4, .u32, 0⟩
/-- `axis<a>.keystone.pause_reason` -/
def Obj.axisKeystonePauseReason (a : Nat) : Obj := ⟨0x4160 + 0x80 * a, 5, .u8, 0⟩
/-- `axis<a>.keystone.pace_mark` -/
def Obj.axisKeystonePaceMark (a : Nat) : Obj := ⟨0x4161 + 0x80 * a, 1, .u16, 8192⟩
/-- `axis<a>.keystone.high_mark` -/
def Obj.axisKeystoneHighMark (a : Nat) : Obj := ⟨0x4161 + 0x80 * a, 2, .u16, 32768⟩
/-- `axis<a>.keystone.resume_mark` -/
def Obj.axisKeystoneResumeMark (a : Nat) : Obj := ⟨0x4161 + 0x80 * a, 3, .u16, 4096⟩
/-- `axis<a>.keystone.resume_hold` -/
def Obj.axisKeystoneResumeHold (a : Nat) : Obj := ⟨0x4161 + 0x80 * a, 4, .u32, 100⟩
/-- `axis<a>.keystone.level_timeout` -/
def Obj.axisKeystoneLevelTimeout (a : Nat) : Obj := ⟨0x4161 + 0x80 * a, 5, .u32, 500⟩
/-- `axis<a>.keystone.approach_lines` -/
def Obj.axisKeystoneApproachLines (a : Nat) : Obj := ⟨0x4161 + 0x80 * a, 6, .u8, 16⟩
/-- `axis<a>.keystone.fault_resume` -/
def Obj.axisKeystoneFaultResume (a : Nat) : Obj := ⟨0x4161 + 0x80 * a, 7, .bool, 0⟩
/-- `axis<a>.keystone.ceiling` -/
def Obj.axisKeystoneCeiling (a : Nat) : Obj := ⟨0x4162 + 0x80 * a, 1, .u32, 0⟩
/-- `axis<a>.keystone.ceiling_in_force` -/
def Obj.axisKeystoneCeilingInForce (a : Nat) : Obj := ⟨0x4162 + 0x80 * a, 2, .u32, 1000000⟩
/-- `axis<a>.keystone.level_max` -/
def Obj.axisKeystoneLevelMax (a : Nat) : Obj := ⟨0x4162 + 0x80 * a, 3, .u16, 0⟩
/-- `axis<a>.keystone.level_pier` -/
def Obj.axisKeystoneLevelPier (a : Nat) : Obj := ⟨0x4162 + 0x80 * a, 4, .u8, 0⟩
/-- `axis<a>.keystone.level_local` -/
def Obj.axisKeystoneLevelLocal (a : Nat) : Obj := ⟨0x4162 + 0x80 * a, 5, .u16, 0⟩
/-- `axis<a>.keystone.last_kept` -/
def Obj.axisKeystoneLastKept (a : Nat) : Obj := ⟨0x4163 + 0x80 * a, 1, .u64, 0⟩
/-- `axis<a>.keystone.park_position` -/
def Obj.axisKeystoneParkPosition (a : Nat) : Obj := ⟨0x4163 + 0x80 * a, 2, .pos48, 0⟩
/-- `axis<a>.keystone.seam_error` -/
def Obj.axisKeystoneSeamError (a : Nat) : Obj := ⟨0x4163 + 0x80 * a, 3, .i32, 0⟩
/-- `axis<a>.keystone.rejoin_speed` -/
def Obj.axisKeystoneRejoinSpeed (a : Nat) : Obj := ⟨0x4163 + 0x80 * a, 4, .u32, 0⟩
/-- `axis<a>.keystone.pauses` -/
def Obj.axisKeystonePauses (a : Nat) : Obj := ⟨0x4164 + 0x80 * a, 1, .u32, 0⟩
/-- `axis<a>.keystone.rejoins` -/
def Obj.axisKeystoneRejoins (a : Nat) : Obj := ⟨0x4164 + 0x80 * a, 2, .u32, 0⟩
/-- `axis<a>.keystone.aborted_runups` -/
def Obj.axisKeystoneAbortedRunups (a : Nat) : Obj := ⟨0x4164 + 0x80 * a, 3, .u32, 0⟩
/-- `axis<a>.keystone.slow_rejoins` -/
def Obj.axisKeystoneSlowRejoins (a : Nat) : Obj := ⟨0x4164 + 0x80 * a, 4, .u32, 0⟩
/-- `axis<a>.keystone.coincidences` -/
def Obj.axisKeystoneCoincidences (a : Nat) : Obj := ⟨0x4164 + 0x80 * a, 5, .u32, 0⟩
/-- `axis<a>.keystone.near_misses` -/
def Obj.axisKeystoneNearMisses (a : Nat) : Obj := ⟨0x4164 + 0x80 * a, 6, .u32, 0⟩
/-- `axis<a>.keystone.pause_time` -/
def Obj.axisKeystonePauseTime (a : Nat) : Obj := ⟨0x4164 + 0x80 * a, 7, .u64, 0⟩

/-! R287 -/

/-- `axis<a>.drive.mode` -/
def Obj.axisDriveMode (a : Nat) : Obj := ⟨0x4101 + 0x80 * a, 1, .u8, 0⟩
/-- `axis<a>.drive.strong_speed` -/
def Obj.axisDriveStrongSpeed (a : Nat) : Obj := ⟨0x4101 + 0x80 * a, 2, .u32, 200000⟩
/-- `axis<a>.drive.mode_hyst` -/
def Obj.axisDriveModeHyst (a : Nat) : Obj := ⟨0x4101 + 0x80 * a, 3, .u32, 20000⟩
/-- `axis<a>.drive.i_run` -/
def Obj.axisDriveIRun (a : Nat) : Obj := ⟨0x4101 + 0x80 * a, 4, .u16, 1000⟩
/-- `axis<a>.drive.i_hold` -/
def Obj.axisDriveIHold (a : Nat) : Obj := ⟨0x4101 + 0x80 * a, 5, .u16, 500⟩
/-- `axis<a>.drive.hold_delay` -/
def Obj.axisDriveHoldDelay (a : Nat) : Obj := ⟨0x4101 + 0x80 * a, 6, .u16, 200⟩
/-- `axis<a>.drive.coil_mohm` -/
def Obj.axisDriveCoilMohm (a : Nat) : Obj := ⟨0x4101 + 0x80 * a, 7, .u16, 1000⟩
/-- `axis<a>.drive.coil_uh` -/
def Obj.axisDriveCoilUh (a : Nat) : Obj := ⟨0x4101 + 0x80 * a, 8, .u32, 2000⟩
/-- `axis<a>.drive.bemf` -/
def Obj.axisDriveBemf (a : Nat) : Obj := ⟨0x4101 + 0x80 * a, 9, .u16, 0⟩
/-- `axis<a>.drive.shunt_mohm` -/
def Obj.axisDriveShuntMohm (a : Nat) : Obj := ⟨0x4101 + 0x80 * a, 10, .u16, 50⟩
/-- `axis<a>.drive.deadtime` -/
def Obj.axisDriveDeadtime (a : Nat) : Obj := ⟨0x4101 + 0x80 * a, 11, .u16, 100⟩
/-- `axis<a>.drive.vm_ratio` -/
def Obj.axisDriveVmRatio (a : Nat) : Obj := ⟨0x4101 + 0x80 * a, 12, .u16, 2400⟩
/-- `axis<a>.drive.ustep_ratio` -/
def Obj.axisDriveUstepRatio (a : Nat) : Obj := ⟨0x4101 + 0x80 * a, 13, .u32, 65536⟩
/-- `axis<a>.drive.invert` -/
def Obj.axisDriveInvert (a : Nat) : Obj := ⟨0x4101 + 0x80 * a, 14, .bool, 0⟩
/-- `axis<a>.drive.kp` -/
def Obj.axisDriveKp (a : Nat) : Obj := ⟨0x4102 + 0x80 * a, 1, .u32, 0⟩
/-- `axis<a>.drive.ki` -/
def Obj.axisDriveKi (a : Nat) : Obj := ⟨0x4102 + 0x80 * a, 2, .u32, 0⟩
/-- `axis<a>.profile.max_speed` -/
def Obj.axisProfileMaxSpeed (a : Nat) : Obj := ⟨0x4103 + 0x80 * a, 1, .u32, 1000000⟩
/-- `axis<a>.profile.accel` -/
def Obj.axisProfileAccel (a : Nat) : Obj := ⟨0x4103 + 0x80 * a, 2, .u32, 1000000⟩
/-- `axis<a>.profile.stop_decel` -/
def Obj.axisProfileStopDecel (a : Nat) : Obj := ⟨0x4103 + 0x80 * a, 3, .u32, 4000000⟩
/-- `axis<a>.profile.limit_low` -/
def Obj.axisProfileLimitLow (a : Nat) : Obj := ⟨0x4103 + 0x80 * a, 4, .pos48, 140737488355328⟩
/-- `axis<a>.profile.limit_high` -/
def Obj.axisProfileLimitHigh (a : Nat) : Obj := ⟨0x4103 + 0x80 * a, 5, .pos48, 140737488355327⟩
/-- `axis<a>.profile.limits_enable` -/
def Obj.axisProfileLimitsEnable (a : Nat) : Obj := ⟨0x4103 + 0x80 * a, 6, .bool, 1⟩
/-- `axis<a>.move_to` -/
def Obj.axisMoveTo (a : Nat) : Obj := ⟨0x4104 + 0x80 * a, 1, .pos48, 0⟩
/-- `axis<a>.jog` -/
def Obj.axisJog (a : Nat) : Obj := ⟨0x4104 + 0x80 * a, 2, .i32, 0⟩
/-- `axis<a>.action` -/
def Obj.axisAction (a : Nat) : Obj := ⟨0x4104 + 0x80 * a, 3, .u8, 0⟩
/-- `axis<a>.task_target` -/
def Obj.axisTaskTarget (a : Nat) : Obj := ⟨0x4104 + 0x80 * a, 4, .pos48, 0⟩
/-- `axis<a>.home.method` -/
def Obj.axisHomeMethod (a : Nat) : Obj := ⟨0x4105 + 0x80 * a, 1, .u8, 0⟩
/-- `axis<a>.home.speed` -/
def Obj.axisHomeSpeed (a : Nat) : Obj := ⟨0x4105 + 0x80 * a, 2, .u32, 10000⟩
/-- `axis<a>.home.direction` -/
def Obj.axisHomeDirection (a : Nat) : Obj := ⟨0x4105 + 0x80 * a, 3, .i8, 255⟩
/-- `axis<a>.home.position` -/
def Obj.axisHomePosition (a : Nat) : Obj := ⟨0x4105 + 0x80 * a, 4, .pos48, 0⟩
/-- `axis<a>.encoder.enable` -/
def Obj.axisEncoderEnable (a : Nat) : Obj := ⟨0x4106 + 0x80 * a, 1, .bool, 1⟩
/-- `axis<a>.encoder.filter` -/
def Obj.axisEncoderFilter (a : Nat) : Obj := ⟨0x4106 + 0x80 * a, 2, .u8, 0⟩
/-- `axis<a>.encoder.invert` -/
def Obj.axisEncoderInvert (a : Nat) : Obj := ⟨0x4106 + 0x80 * a, 3, .bool, 0⟩
/-- `axis<a>.encoder.mode` -/
def Obj.axisEncoderMode (a : Nat) : Obj := ⟨0x4106 + 0x80 * a, 4, .u8, 0⟩
/-- `axis<a>.dev.window` -/
def Obj.axisDevWindow (a : Nat) : Obj := ⟨0x4107 + 0x80 * a, 1, .u32, 2560⟩
/-- `axis<a>.dev.time` -/
def Obj.axisDevTime (a : Nat) : Obj := ⟨0x4107 + 0x80 * a, 2, .u32, 1000⟩
/-- `axis<a>.broadcast` -/
def Obj.axisBroadcast (a : Nat) : Obj := ⟨0x4108 + 0x80 * a, 0, .bool, 0⟩
/-- `axis<a>.position` -/
def Obj.axisPosition (a : Nat) : Obj := ⟨0x4109 + 0x80 * a, 1, .pos48, 0⟩
/-- `axis<a>.position_cmd` -/
def Obj.axisPositionCmd (a : Nat) : Obj := ⟨0x4109 + 0x80 * a, 2, .pos48, 0⟩
/-- `axis<a>.speed` -/
def Obj.axisSpeed (a : Nat) : Obj := ⟨0x4109 + 0x80 * a, 3, .i32, 0⟩
/-- `axis<a>.deviation` -/
def Obj.axisDeviation (a : Nat) : Obj := ⟨0x4109 + 0x80 * a, 4, .i32, 0⟩
/-- `axis<a>.position_valid` -/
def Obj.axisPositionValid (a : Nat) : Obj := ⟨0x4109 + 0x80 * a, 5, .bool, 0⟩
/-- `axis<a>.drive_in_force` -/
def Obj.axisDriveInForce (a : Nat) : Obj := ⟨0x4109 + 0x80 * a, 6, .u8, 0⟩
/-- `axis<a>.motion_fault` -/
def Obj.axisMotionFault (a : Nat) : Obj := ⟨0x4109 + 0x80 * a, 7, .u8, 0⟩
/-- `axis<a>.vm` -/
def Obj.axisVm (a : Nat) : Obj := ⟨0x4109 + 0x80 * a, 8, .u16, 0⟩
/-- `axis<a>.profile_state` -/
def Obj.axisProfileState (a : Nat) : Obj := ⟨0x4109 + 0x80 * a, 9, .u8, 0⟩
/-- `axis<a>.source_pier` -/
def Obj.axisSourcePier (a : Nat) : Obj := ⟨0x4109 + 0x80 * a, 10, .u8, 255⟩
/-- `axis<a>.index_position` -/
def Obj.axisIndexPosition (a : Nat) : Obj := ⟨0x4109 + 0x80 * a, 11, .pos48, 0⟩
/-- `axis<a>.dev_trips` -/
def Obj.axisDevTrips (a : Nat) : Obj := ⟨0x410a + 0x80 * a, 1, .u32, 0⟩
/-- `axis<a>.encoder_errors` -/
def Obj.axisEncoderErrors (a : Nat) : Obj := ⟨0x410a + 0x80 * a, 2, .u32, 0⟩
/-- `axis<a>.soft_limit_stops` -/
def Obj.axisSoftLimitStops (a : Nat) : Obj := ⟨0x410a + 0x80 * a, 3, .u32, 0⟩
/-- `axis<a>.mode_switches` -/
def Obj.axisModeSwitches (a : Nat) : Obj := ⟨0x410a + 0x80 * a, 4, .u32, 0⟩
/-- `axis<a>.coincidences` -/
def Obj.axisCoincidences (a : Nat) : Obj := ⟨0x410a + 0x80 * a, 5, .u32, 0⟩
/-- `axis<a>.near_misses` -/
def Obj.axisNearMisses (a : Nat) : Obj := ⟨0x410a + 0x80 * a, 6, .u32, 0⟩
/-- `axis<a>.vsat_periods` -/
def Obj.axisVsatPeriods (a : Nat) : Obj := ⟨0x410a + 0x80 * a, 7, .u32, 0⟩

/-! R312 -/

/-- `head<h>.illum.seq_length` -/
def Obj.headIllumSeqLength (h : Nat) : Obj := ⟨0x3201 + 0x400 * h, 1, .u8, 1⟩
/-- `head<h>.illum.seq` -/
def Obj.headIllumSeq (h k : Nat) : Obj := ⟨0x3201 + 0x400 * h, 2 + k, .u8, 0⟩
/-- `head<h>.illum.seq_restart` -/
def Obj.headIllumSeqRestart (h : Nat) : Obj := ⟨0x3201 + 0x400 * h, 18, .u8, 0⟩
/-- `head<h>.illum.row_ma` -/
def Obj.headIllumRowMa (h k : Nat) : Obj := ⟨0x3202 + 0x400 * h, 1 + k, .u16, 0⟩
/-- `head<h>.illum.row_nominal` -/
def Obj.headIllumRowNominal (h k : Nat) : Obj := ⟨0x3203 + 0x400 * h, 1 + k, .u16, 1600⟩
/-- `head<h>.illum.pulse_delay` -/
def Obj.headIllumPulseDelay (h : Nat) : Obj := ⟨0x3204 + 0x400 * h, 1, .u32, 32⟩
/-- `head<h>.illum.pulse_width` -/
def Obj.headIllumPulseWidth (h : Nat) : Obj := ⟨0x3204 + 0x400 * h, 2, .u32, 384⟩
/-- `head<h>.illum.precharge` -/
def Obj.headIllumPrecharge (h : Nat) : Obj := ⟨0x3204 + 0x400 * h, 3, .u16, 24⟩
/-- `head<h>.illum.tail` -/
def Obj.headIllumTail (h : Nat) : Obj := ⟨0x3204 + 0x400 * h, 4, .u8, 8⟩
/-- `head<h>.illum.precharge_mv` -/
def Obj.headIllumPrechargeMv (h k : Nat) : Obj := ⟨0x3205 + 0x400 * h, 1 + k, .u16, 0⟩
/-- `head<h>.illum.boost.v_max` -/
def Obj.headIllumBoostVMax (h : Nat) : Obj := ⟨0x3206 + 0x400 * h, 1, .u16, 48000⟩
/-- `head<h>.illum.boost.headroom` -/
def Obj.headIllumBoostHeadroom (h : Nat) : Obj := ⟨0x3206 + 0x400 * h, 2, .u16, 600⟩
/-- `head<h>.illum.boost.fb_ratio` -/
def Obj.headIllumBoostFbRatio (h : Nat) : Obj := ⟨0x3206 + 0x400 * h, 3, .u16, 2000⟩
/-- `head<h>.illum.boost.v_set` -/
def Obj.headIllumBoostVSet (h : Nat) : Obj := ⟨0x3206 + 0x400 * h, 4, .u16, 0⟩
/-- `head<h>.illum.boost.v_out` -/
def Obj.headIllumBoostVOut (h : Nat) : Obj := ⟨0x3206 + 0x400 * h, 5, .u16, 0⟩
/-- `head<h>.illum.ext.drivers` -/
def Obj.headIllumExtDrivers (h : Nat) : Obj := ⟨0x3207 + 0x400 * h, 1, .u8, 0⟩
/-- `head<h>.illum.ext.clk` -/
def Obj.headIllumExtClk (h : Nat) : Obj := ⟨0x3207 + 0x400 * h, 2, .u8, 0⟩
/-- `head<h>.illum.ext.level` -/
def Obj.headIllumExtLevel (h k : Nat) : Obj := ⟨0x3207 + 0x400 * h, 3 + k, .u16, 2048⟩
/-- `head<h>.illum.board_channel` -/
def Obj.headIllumBoardChannel (h : Nat) : Obj := ⟨0x3208 + 0x400 * h, 1, .u8, 255⟩
/-- `head<h>.illum.blank` -/
def Obj.headIllumBlank (h : Nat) : Obj := ⟨0x3208 + 0x400 * h, 2, .bool, 0⟩
/-- `head<h>.illum.derate_start` -/
def Obj.headIllumDerateStart (h : Nat) : Obj := ⟨0x3209 + 0x400 * h, 1, .i16, 960⟩
/-- `head<h>.illum.derate_end` -/
def Obj.headIllumDerateEnd (h : Nat) : Obj := ⟨0x3209 + 0x400 * h, 2, .i16, 1440⟩
/-- `head<h>.illum.derate_floor` -/
def Obj.headIllumDerateFloor (h : Nat) : Obj := ⟨0x3209 + 0x400 * h, 3, .u16, 16384⟩
/-- `head<h>.illum.od.budget` -/
def Obj.headIllumOdBudget (h : Nat) : Obj := ⟨0x3209 + 0x400 * h, 4, .u32, 4000⟩
/-- `head<h>.illum.od.full_temp` -/
def Obj.headIllumOdFullTemp (h : Nat) : Obj := ⟨0x3209 + 0x400 * h, 5, .i16, 640⟩
/-- `head<h>.illum.od.zero_temp` -/
def Obj.headIllumOdZeroTemp (h : Nat) : Obj := ⟨0x3209 + 0x400 * h, 6, .i16, 960⟩
/-- `head<h>.illum.board_temp`. DESIGN CHOICE: it reads 0 before the first reading; the table gives no default. -/
def Obj.headIllumBoardTemp (h : Nat) : Obj := ⟨0x320a + 0x400 * h, 1, .i16, 0⟩
/-- `head<h>.illum.derate` -/
def Obj.headIllumDerate (h : Nat) : Obj := ⟨0x320a + 0x400 * h, 2, .u32, 65536⟩
/-- `head<h>.illum.shorts` -/
def Obj.headIllumShorts (h : Nat) : Obj := ⟨0x320a + 0x400 * h, 3, .u32, 0⟩
/-- `head<h>.illum.od_permitted` -/
def Obj.headIllumOdPermitted (h : Nat) : Obj := ⟨0x320a + 0x400 * h, 4, .u8, 0⟩
/-- `head<h>.illum.od_accum` -/
def Obj.headIllumOdAccum (h k : Nat) : Obj := ⟨0x320a + 0x400 * h, 5 + k, .u32, 0⟩
/-- `head<h>.illum.derated_lines` -/
def Obj.headIllumDeratedLines (h : Nat) : Obj := ⟨0x320b + 0x400 * h, 1, .u32, 0⟩
/-- `head<h>.illum.ext_late` -/
def Obj.headIllumExtLate (h : Nat) : Obj := ⟨0x320b + 0x400 * h, 2, .u32, 0⟩
/-- `head<h>.illum.blank_short` -/
def Obj.headIllumBlankShort (h : Nat) : Obj := ⟨0x320b + 0x400 * h, 3, .u32, 0⟩
/-- `head<h>.illum.open_lamps` -/
def Obj.headIllumOpenLamps (h : Nat) : Obj := ⟨0x320b + 0x400 * h, 4, .u32, 0⟩
/-- `head<h>.illum.coincidences` -/
def Obj.headIllumCoincidences (h : Nat) : Obj := ⟨0x320b + 0x400 * h, 5, .u32, 0⟩

/-! R335 -/

/-- `aux<n>.mode` -/
def Obj.auxMode (k : Nat) : Obj := ⟨0x4010, 1 + k, .u8, 0⟩
/-- `aux<n>.exc.level` -/
def Obj.auxExcLevel (k : Nat) : Obj := ⟨0x4011, 1 + k, .u8, 0⟩
/-- `aux<n>.exc.current` -/
def Obj.auxExcCurrent (k : Nat) : Obj := ⟨0x4012, 1 + k, .u8, 1⟩
/-- `aux.exc.switched` -/
def Obj.auxExcSwitched : Obj := ⟨0x4013, 0, .u16, 0⟩
/-- `aux<n>.exc.i250_cal` -/
def Obj.auxExcI250Cal (k : Nat) : Obj := ⟨0x4014, 1 + k, .u32, 0⟩
/-- `aux<n>.exc.i1m_cal` -/
def Obj.auxExcI1mCal (k : Nat) : Obj := ⟨0x4015, 1 + k, .u32, 0⟩
/-- `aux<n>.amp.gain` -/
def Obj.auxAmpGain (k : Nat) : Obj := ⟨0x4016, 1 + k, .u8, 0⟩
/-- `aux<n>.amp.chop` -/
def Obj.auxAmpChop (k : Nat) : Obj := ⟨0x4017, 1 + k, .bool, 1⟩
/-- `aux<n>.swap` -/
def Obj.auxSwap (k : Nat) : Obj := ⟨0x4018, 1 + k, .bool, 1⟩
/-- `aux<n>.wb.test` -/
def Obj.auxWbTest (k : Nat) : Obj := ⟨0x4019, 1 + k, .bool, 1⟩
/-- `aux<n>.wb.clear` -/
def Obj.auxWbClear (k : Nat) : Obj := ⟨0x401a, 1 + k, .u16, 1000⟩
/-- `aux<n>.lin.mode` -/
def Obj.auxLinMode (k : Nat) : Obj := ⟨0x401b, 1 + k, .u8, 0⟩
/-- `aux<n>.lin.cjc_channel` -/
def Obj.auxLinCjcChannel (k : Nat) : Obj := ⟨0x401c, 1 + k, .u8, 255⟩
/-- `aux<n>.result` -/
def Obj.auxResult (k : Nat) : Obj := ⟨0x401d, 1 + k, .i32, 0⟩
/-- `aux<n>.scaled` -/
def Obj.auxScaled (k : Nat) : Obj := ⟨0x401e, 1 + k, .i32, 0⟩
/-- `aux<n>.status` -/
def Obj.auxStatus (k : Nat) : Obj := ⟨0x401f, 1 + k, .u8, 1⟩
/-- `aux<n>.clamp_flag` -/
def Obj.auxClampFlag (k : Nat) : Obj := ⟨0x4020, 1 + k, .bool, 0⟩
/-- `aux<n>.wire_breaks` -/
def Obj.auxWireBreaks (k : Nat) : Obj := ⟨0x4021, 1 + k, .u32, 0⟩
/-- `aux<n>.clamp_events` -/
def Obj.auxClampEvents (k : Nat) : Obj := ⟨0x4022, 1 + k, .u32, 0⟩
/-- `aux.coincidences` -/
def Obj.auxCoincidences : Obj := ⟨0x4023, 0, .u32, 0⟩
/-- `echo<e>.source` -/
def Obj.echoSource (k : Nat) : Obj := ⟨0x4030, 1 + k, .u8, 0⟩
/-- `echo<e>.mode` -/
def Obj.echoMode (k : Nat) : Obj := ⟨0x4031, 1 + k, .u8, 0⟩
/-- `echo<e>.value_lo` -/
def Obj.echoValueLo (k : Nat) : Obj := ⟨0x4032, 1 + k, .i32, 0⟩
/-- `echo<e>.value_hi` -/
def Obj.echoValueHi (k : Nat) : Obj := ⟨0x4033, 1 + k, .i32, 1600⟩
/-- `echo<e>.out_lo` -/
def Obj.echoOutLo (k : Nat) : Obj := ⟨0x4034, 1 + k, .u32, 1000000⟩
/-- `echo<e>.out_hi` -/
def Obj.echoOutHi (k : Nat) : Obj := ⟨0x4035, 1 + k, .u32, 10000000⟩
/-- `echo<e>.period` -/
def Obj.echoPeriod (k : Nat) : Obj := ⟨0x4036, 1 + k, .u32, 1000⟩
/-- `echo<e>.fault` -/
def Obj.echoFault (k : Nat) : Obj := ⟨0x4037, 1 + k, .u32, 500000⟩
/-- `echo.drive` -/
def Obj.echoDrive : Obj := ⟨0x4038, 0, .u8, 0⟩

/-! R354 -/

/-- `aux.adc.mode` -/
def Obj.auxAdcMode : Obj := ⟨0x4040, 1, .u8, 0⟩
/-- `aux.adc.cont_channel` -/
def Obj.auxAdcContChannel : Obj := ⟨0x4040, 2, .u8, 0⟩
/-- `aux.seq.period` -/
def Obj.auxSeqPeriod (k : Nat) : Obj := ⟨0x4041, 1 + k, .u32, 0⟩
/-- `aux.seq.passes` -/
def Obj.auxSeqPasses : Obj := ⟨0x4041, 3, .u32, 0⟩
/-- `aux.seq.passes_done` -/
def Obj.auxSeqPassesDone (k : Nat) : Obj := ⟨0x4041, 4 + k, .u32, 0⟩
/-- `aux.seq.late_passes` -/
def Obj.auxSeqLatePasses : Obj := ⟨0x4041, 6, .u32, 0⟩
/-- `aux.chop_repeats` -/
def Obj.auxChopRepeats : Obj := ⟨0x4041, 7, .u32, 0⟩
/-- `aux.ref.early` -/
def Obj.auxRefEarly : Obj := ⟨0x4042, 1, .bool, 0⟩
/-- `aux.ref.ready` -/
def Obj.auxRefReady : Obj := ⟨0x4042, 2, .bool, 0⟩
/-- `aux<n>.filt.order` -/
def Obj.auxFiltOrder (k : Nat) : Obj := ⟨0x4043, 1 + k, .u8, 3⟩
/-- `aux<n>.filt.notch` -/
def Obj.auxFiltNotch (k : Nat) : Obj := ⟨0x4044, 1 + k, .u32, 50000⟩
/-- `aux<n>.filt.notch_in_force` -/
def Obj.auxFiltNotchInForce (k : Nat) : Obj := ⟨0x4045, 1 + k, .u32, 50000⟩
/-- `aux<n>.gain_in_force` -/
def Obj.auxGainInForce (k : Nat) : Obj := ⟨0x4046, 1 + k, .u8, 0⟩
/-- `aux<n>.empty_windows` -/
def Obj.auxEmptyWindows (k : Nat) : Obj := ⟨0x4047, 1 + k, .u32, 0⟩
/-- `aux.fifo.channels` -/
def Obj.auxFifoChannels : Obj := ⟨0x4048, 1, .u16, 0⟩
/-- `aux.fifo.dma_mark` -/
def Obj.auxFifoDmaMark : Obj := ⟨0x4048, 2, .u16, 64⟩
/-- `aux.fifo.fill` -/
def Obj.auxFifoFill : Obj := ⟨0x4048, 4, .u16, 0⟩
/-- `aux.fifo.overruns` -/
def Obj.auxFifoOverruns : Obj := ⟨0x4048, 5, .u32, 0⟩
/-- `aux.fifo.flush` -/
def Obj.auxFifoFlush : Obj := ⟨0x4048, 6, .u8, 0⟩

/-! R379 -/

/-- `fabric.fire` -/
def Obj.fabricFire : Obj := ⟨0x2301, 1, .u16, 0⟩
/-- `fabric.storm_rearm` -/
def Obj.fabricStormRearm : Obj := ⟨0x2301, 2, .u16, 0⟩
/-- `fabric.storm_trips` -/
def Obj.fabricStormTrips : Obj := ⟨0x2301, 3, .u32, 0⟩
/-- `fabric.storm_last` -/
def Obj.fabricStormLast : Obj := ⟨0x2301, 4, .u16, 65535⟩
/-- `fabric.loop_refusals` -/
def Obj.fabricLoopRefusals : Obj := ⟨0x2301, 5, .u32, 0⟩
/-- `fabric.near_misses` -/
def Obj.fabricNearMisses : Obj := ⟨0x2301, 6, .u32, 0⟩
/-- `fabric.task_select` -/
def Obj.fabricTaskSelect (t : Nat) : Obj := ⟨0x2310 + t / 128, t % 128 + 1, .u16, 65535⟩
/-- `fabric.task_coincidences` -/
def Obj.fabricTaskCoincidences (t : Nat) : Obj := ⟨0x2318 + t / 128, t % 128 + 1, .u32, 0⟩
/-- `timer<u>.mode` -/
def Obj.timerMode (k : Nat) : Obj := ⟨0x2340, 1 + k, .u8, 0⟩
/-- `timer<u>.clock` -/
def Obj.timerClock (k : Nat) : Obj := ⟨0x2341, 1 + k, .u8, 0⟩
/-- `timer<u>.period` -/
def Obj.timerPeriod (k : Nat) : Obj := ⟨0x2342, 1 + k, .u32, 1000⟩
/-- `timer<u>.limit` -/
def Obj.timerLimit (k : Nat) : Obj := ⟨0x2343, 1 + k, .u32, 1⟩
/-- `timer<u>.alarm` -/
def Obj.timerAlarm (k : Nat) : Obj := ⟨0x2344, 1 + k, .time64, 0⟩
/-- `timer<u>.count` -/
def Obj.timerCount (k : Nat) : Obj := ⟨0x2345, 1 + k, .u32, 0⟩
/-- `timer<u>.state` -/
def Obj.timerState (k : Nat) : Obj := ⟨0x2346, 1 + k, .u8, 0⟩

/-! R402 -/

/-- `dma.fence_mask` -/
def Obj.dmaFenceMask : Obj := ⟨0x2401, 1, .u32, 0⟩
/-- `dma.stop_mask` -/
def Obj.dmaStopMask : Obj := ⟨0x2401, 2, .u32, 0⟩
/-- `dma.checker_refusals` -/
def Obj.dmaCheckerRefusals : Obj := ⟨0x2401, 3, .u32, 0⟩
/-- `dma<c>.command` -/
def Obj.dmaCommand (k : Nat) : Obj := ⟨0x2402, 1 + k, .u8, 0⟩
/-- `dma<c>.pace.line` -/
def Obj.dmaPaceLine (k : Nat) : Obj := ⟨0x2404, 1 + k, .u8, 0⟩
/-- `dma<c>.pace.high` -/
def Obj.dmaPaceHigh (k : Nat) : Obj := ⟨0x2405, 1 + k, .u16, 49152⟩
/-- `dma<c>.pace.low` -/
def Obj.dmaPaceLow (k : Nat) : Obj := ⟨0x2406, 1 + k, .u16, 16384⟩
/-- `dma<c>.pending` -/
def Obj.dmaPending (k : Nat) : Obj := ⟨0x2407, 1 + k, .u16, 0⟩
/-- `dma<c>.ended` -/
def Obj.dmaEnded (k : Nat) : Obj := ⟨0x2408, 1 + k, .u32, 0⟩
/-- `dma<c>.bad` -/
def Obj.dmaBad (k : Nat) : Obj := ⟨0x2409, 1 + k, .u32, 0⟩
/-- `dma<c>.bad_address` -/
def Obj.dmaBadAddress (k : Nat) : Obj := ⟨0x240a, 1 + k, .u64, 0⟩
/-- `dma<c>.coincidences` -/
def Obj.dmaCoincidences (k : Nat) : Obj := ⟨0x240b, 1 + k, .u32, 0⟩
/-- `dma<c>.arrived` -/
def Obj.dmaArrived (k : Nat) : Obj := ⟨0x240c, 1 + k, .u32, 0⟩
/-- `dma<c>.shadow.src` -/
def Obj.dmaShadowSrc (n : Nat) : Obj := ⟨0x2440 + n, 1, .u64, 0⟩
/-- `dma<c>.shadow.dst` -/
def Obj.dmaShadowDst (n : Nat) : Obj := ⟨0x2440 + n, 2, .u64, 0⟩
/-- `dma<c>.shadow.n0` -/
def Obj.dmaShadowN0 (n : Nat) : Obj := ⟨0x2440 + n, 3, .u32, 0⟩
/-- `dma<c>.shadow.n1` -/
def Obj.dmaShadowN1 (n : Nat) : Obj := ⟨0x2440 + n, 4, .u16, 0⟩
/-- `dma<c>.shadow.n2` -/
def Obj.dmaShadowN2 (n : Nat) : Obj := ⟨0x2440 + n, 5, .u16, 0⟩
/-- `dma<c>.shadow.sstep1` -/
def Obj.dmaShadowSstep1 (n : Nat) : Obj := ⟨0x2440 + n, 6, .i32, 0⟩
/-- `dma<c>.shadow.dstep1` -/
def Obj.dmaShadowDstep1 (n : Nat) : Obj := ⟨0x2440 + n, 7, .i32, 0⟩
/-- `dma<c>.shadow.sstep2` -/
def Obj.dmaShadowSstep2 (n : Nat) : Obj := ⟨0x2440 + n, 8, .i32, 0⟩
/-- `dma<c>.shadow.dstep2` -/
def Obj.dmaShadowDstep2 (n : Nat) : Obj := ⟨0x2440 + n, 9, .i32, 0⟩
/-- `dma<c>.shadow.ctrl` -/
def Obj.dmaShadowCtrl (n : Nat) : Obj := ⟨0x2440 + n, 10, .u32, 0⟩
/-- `dma<c>.shadow.status` -/
def Obj.dmaShadowStatus (n : Nat) : Obj := ⟨0x2440 + n, 11, .u32, 0⟩
/-- `dma<c>.shadow.link` -/
def Obj.dmaShadowLink (n : Nat) : Obj := ⟨0x2440 + n, 12, .u64, 0⟩
/-- `dma<c>.shadow.tag` -/
def Obj.dmaShadowTag (n : Nat) : Obj := ⟨0x2440 + n, 13, .u32, 0⟩
/-- `dma<c>.active.src` -/
def Obj.dmaActiveSrc (n : Nat) : Obj := ⟨0x2460 + n, 1, .u64, 0⟩
/-- `dma<c>.active.dst` -/
def Obj.dmaActiveDst (n : Nat) : Obj := ⟨0x2460 + n, 2, .u64, 0⟩
/-- `dma<c>.active.n0` -/
def Obj.dmaActiveN0 (n : Nat) : Obj := ⟨0x2460 + n, 3, .u32, 0⟩
/-- `dma<c>.active.n1` -/
def Obj.dmaActiveN1 (n : Nat) : Obj := ⟨0x2460 + n, 4, .u16, 0⟩
/-- `dma<c>.active.n2` -/
def Obj.dmaActiveN2 (n : Nat) : Obj := ⟨0x2460 + n, 5, .u16, 0⟩
/-- `dma<c>.active.sstep1` -/
def Obj.dmaActiveSstep1 (n : Nat) : Obj := ⟨0x2460 + n, 6, .i32, 0⟩
/-- `dma<c>.active.dstep1` -/
def Obj.dmaActiveDstep1 (n : Nat) : Obj := ⟨0x2460 + n, 7, .i32, 0⟩
/-- `dma<c>.active.sstep2` -/
def Obj.dmaActiveSstep2 (n : Nat) : Obj := ⟨0x2460 + n, 8, .i32, 0⟩
/-- `dma<c>.active.dstep2` -/
def Obj.dmaActiveDstep2 (n : Nat) : Obj := ⟨0x2460 + n, 9, .i32, 0⟩
/-- `dma<c>.active.ctrl` -/
def Obj.dmaActiveCtrl (n : Nat) : Obj := ⟨0x2460 + n, 10, .u32, 0⟩
/-- `dma<c>.active.status` -/
def Obj.dmaActiveStatus (n : Nat) : Obj := ⟨0x2460 + n, 11, .u32, 0⟩
/-- `dma<c>.active.link` -/
def Obj.dmaActiveLink (n : Nat) : Obj := ⟨0x2460 + n, 12, .u64, 0⟩
/-- `dma<c>.active.tag` -/
def Obj.dmaActiveTag (n : Nat) : Obj := ⟨0x2460 + n, 13, .u32, 0⟩

/-! R434 -/

/-- `ring.pier_number` -/
def Obj.ringPierNumber : Obj := ⟨0x2601, 1, .u8, 255⟩
/-- `ring.root` -/
def Obj.ringRoot : Obj := ⟨0x2601, 2, .bool, 0⟩
/-- `ring.configured` -/
def Obj.ringConfigured : Obj := ⟨0x2601, 3, .u8, 0⟩
/-- `ring.members` -/
def Obj.ringMembers : Obj := ⟨0x2601, 4, .u8, 1⟩
/-- `ring.topology` -/
def Obj.ringTopology : Obj := ⟨0x2601, 5, .u8, 0⟩
/-- `ring.epoch` -/
def Obj.ringEpoch : Obj := ⟨0x2603, 1, .u32, 0⟩
/-- `ring.leader` -/
def Obj.ringLeader : Obj := ⟨0x2603, 2, .u8, 255⟩
/-- `ring.abutment_a` -/
def Obj.ringAbutmentA : Obj := ⟨0x2604, 1, .u8, 255⟩
/-- `ring.abutment_b` -/
def Obj.ringAbutmentB : Obj := ⟨0x2604, 2, .u8, 255⟩
/-- `ring.route.abutment` -/
def Obj.ringRouteAbutment (k : Nat) : Obj := ⟨0x2605, 1 + k, .u8, 0⟩
/-- `ring.route.span` -/
def Obj.ringRouteSpan (k : Nat) : Obj := ⟨0x2605, 5 + k, .u8, 0⟩
/-- `ring.route.abutment_in_force` -/
def Obj.ringRouteAbutmentInForce (k : Nat) : Obj := ⟨0x2605, 9 + k, .u8, 255⟩
/-- `ring.route.span_in_force` -/
def Obj.ringRouteSpanInForce (k : Nat) : Obj := ⟨0x2605, 13 + k, .u8, 0⟩
/-- `span.state` -/
def Obj.spanState (k : Nat) : Obj := ⟨0x2606, 1 + k, .u8, 0⟩
/-- `span.lane_map` -/
def Obj.spanLaneMap (k : Nat) : Obj := ⟨0x2606, 3 + k, .u8, 0⟩
/-- `span.lane_err_limit` -/
def Obj.spanLaneErrLimit (k : Nat) : Obj := ⟨0x2606, 5 + k, .u16, 16⟩
/-- `span.time.asym` -/
def Obj.spanTimeAsym (k : Nat) : Obj := ⟨0x2606, 7 + k, .i16, 0⟩
/-- `span.neighbour` -/
def Obj.spanNeighbour (k : Nat) : Obj := ⟨0x2606, 9 + k, .u8, 255⟩
/-- `span.spares` -/
def Obj.spanSpares (k : Nat) : Obj := ⟨0x2607, 1 + k, .u32, 0⟩
/-- `span.downs` -/
def Obj.spanDowns (k : Nat) : Obj := ⟨0x2607, 3 + k, .u32, 0⟩
/-- `span.replays` -/
def Obj.spanReplays (k : Nat) : Obj := ⟨0x2607, 5 + k, .u32, 0⟩
/-- `ring.near_misses` -/
def Obj.ringNearMisses : Obj := ⟨0x2607, 7, .u32, 0⟩
/-- `ring.coincidences` -/
def Obj.ringCoincidences : Obj := ⟨0x2607, 8, .u32, 0⟩
/-- `ring.epoch_changes` -/
def Obj.ringEpochChanges : Obj := ⟨0x2607, 9, .u32, 0⟩
/-- `ring.time.now` -/
def Obj.ringTimeNow : Obj := ⟨0x2608, 1, .time64, 0⟩
/-- `ring.time.state` -/
def Obj.ringTimeState : Obj := ⟨0x2608, 2, .u8, 0⟩
/-- `ring.time.priority` -/
def Obj.ringTimePriority : Obj := ⟨0x2608, 3, .u8, 128⟩
/-- `ring.time.source` -/
def Obj.ringTimeSource : Obj := ⟨0x2608, 4, .u8, 255⟩
/-- `ring.time.offset` -/
def Obj.ringTimeOffset : Obj := ⟨0x2608, 5, .i32, 0⟩
/-- `ring.time.slew_max` -/
def Obj.ringTimeSlewMax : Obj := ⟨0x2608, 6, .u32, 20000⟩
/-- `ring.time.steps` -/
def Obj.ringTimeSteps : Obj := ⟨0x2608, 7, .u32, 0⟩
/-- `ring.time.latched` -/
def Obj.ringTimeLatched : Obj := ⟨0x2608, 8, .time64, 0⟩
/-- `ring.time.rejoin_offset` -/
def Obj.ringTimeRejoinOffset : Obj := ⟨0x2609, 1, .i64, 0⟩
/-- `ring.time.split` -/
def Obj.ringTimeSplit : Obj := ⟨0x2609, 2, .time64, 0⟩
/-- `ring.time.rejoin_at` -/
def Obj.ringTimeRejoinAt : Obj := ⟨0x2609, 3, .time64, 0⟩
/-- `ring.time.rejoin_epoch` -/
def Obj.ringTimeRejoinEpoch : Obj := ⟨0x2609, 4, .u32, 0⟩
/-- `ring.start.at` -/
def Obj.ringStartAt : Obj := ⟨0x260a, 1, .time64, 0⟩
/-- `ring.start.heads` -/
def Obj.ringStartHeads : Obj := ⟨0x260a, 2, .u8, 15⟩
/-- `ring.start.fail` -/
def Obj.ringStartFail : Obj := ⟨0x260a, 3, .u16, 65535⟩

/-! R460 -/

/-- `host.link_speed` -/
def Obj.hostLinkSpeed : Obj := ⟨0x2640, 1, .u8, 0⟩
/-- `host.link_width` -/
def Obj.hostLinkWidth : Obj := ⟨0x2640, 2, .u8, 0⟩
/-- `host.bus_master` -/
def Obj.hostBusMaster : Obj := ⟨0x2640, 3, .bool, 0⟩
/-- `host.stream_queue` -/
def Obj.hostStreamQueue (k : Nat) : Obj := ⟨0x2641, 1 + k, .u8, k⟩
/-- `host.vector` -/
def Obj.hostVector (k : Nat) : Obj := ⟨0x2642, 1 + k, .u8, 0⟩
/-- `host.mailbox_busy` -/
def Obj.hostMailboxBusy : Obj := ⟨0x2643, 1, .u32, 0⟩
/-- `host.ack_rejected` -/
def Obj.hostAckRejected : Obj := ⟨0x2643, 2, .u32, 0⟩
/-- `host.coincidences` -/
def Obj.hostCoincidences : Obj := ⟨0x2643, 3, .u32, 0⟩
/-- `host.near_misses` -/
def Obj.hostNearMisses : Obj := ⟨0x2643, 4, .u32, 0⟩
/-- `host.stalls` -/
def Obj.hostStalls : Obj := ⟨0x2643, 5, .u32, 0⟩
/-- `host.queue.base` -/
def Obj.hostQueueBase (k : Nat) : Obj := ⟨0x2650, 1 + k, .u64, 0⟩
/-- `host.queue.size_log2` -/
def Obj.hostQueueSizeLog2 (k : Nat) : Obj := ⟨0x2651, 1 + k, .u8, 20⟩
/-- `host.queue.enable` -/
def Obj.hostQueueEnable (k : Nat) : Obj := ⟨0x2652, 1 + k, .bool, 0⟩
/-- `host.queue.write_pos` -/
def Obj.hostQueueWritePos (k : Nat) : Obj := ⟨0x2653, 1 + k, .u64, 0⟩
/-- `host.queue.ack_pos` -/
def Obj.hostQueueAckPos (k : Nat) : Obj := ⟨0x2654, 1 + k, .u64, 0⟩
/-- `host.queue.shadow` -/
def Obj.hostQueueShadow (k : Nat) : Obj := ⟨0x2655, 1 + k, .u64, 0⟩
/-- `host.queue.coalesce_bytes` -/
def Obj.hostQueueCoalesceBytes (k : Nat) : Obj := ⟨0x2656, 1 + k, .u32, 0⟩
/-- `host.queue.coalesce_us` -/
def Obj.hostQueueCoalesceUs (k : Nat) : Obj := ⟨0x2657, 1 + k, .u32, 0⟩
/-- `host.queue.stall_us` -/
def Obj.hostQueueStallUs (k : Nat) : Obj := ⟨0x2658, 1 + k, .u32, 100000⟩

/-! R485 -/

/-- `comm.error_register` -/
def Obj.commErrorRegister : Obj := ⟨0x1001, 0, .u8, 0⟩
/-- `comm.sync_cob_id` -/
def Obj.commSyncCobId : Obj := ⟨0x1005, 0, .u32, 128⟩
/-- `comm.emcy.cob_id` -/
def Obj.commEmcyCobId : Obj := ⟨0x1014, 0, .u32, 0⟩
/-- `comm.emcy.inhibit` -/
def Obj.commEmcyInhibit : Obj := ⟨0x1015, 0, .u16, 0⟩
/-- `comm.heartbeat` -/
def Obj.commHeartbeat : Obj := ⟨0x1017, 0, .u16, 0⟩
/-- `rpdo<n>.cob_id` -/
def Obj.rpdoCobId (n : Nat) : Obj := ⟨0x1400 + n, 1, .u32, 0⟩
/-- `rpdo<n>.type` -/
def Obj.rpdoType (n : Nat) : Obj := ⟨0x1400 + n, 2, .u8, 255⟩
/-- `rpdo<n>.map_count` -/
def Obj.rpdoMapCount (n : Nat) : Obj := ⟨0x1600 + n, 0, .u8, 0⟩
/-- `rpdo<n>.map` -/
def Obj.rpdoMap (n k : Nat) : Obj := ⟨0x1600 + n, 1 + k, .u32, 0⟩
/-- `tpdo<n>.cob_id` -/
def Obj.tpdoCobId (n : Nat) : Obj := ⟨0x1800 + n, 1, .u32, 0⟩
/-- `tpdo<n>.type` -/
def Obj.tpdoType (n : Nat) : Obj := ⟨0x1800 + n, 2, .u8, 255⟩
/-- `tpdo<n>.inhibit` -/
def Obj.tpdoInhibit (n : Nat) : Obj := ⟨0x1800 + n, 3, .u16, 0⟩
/-- `tpdo<n>.event_timer` -/
def Obj.tpdoEventTimer (n : Nat) : Obj := ⟨0x1800 + n, 5, .u16, 0⟩
/-- `tpdo<n>.map_count` -/
def Obj.tpdoMapCount (n : Nat) : Obj := ⟨0x1a00 + n, 0, .u8, 0⟩
/-- `tpdo<n>.map` -/
def Obj.tpdoMap (n k : Nat) : Obj := ⟨0x1a00 + n, 1 + k, .u32, 0⟩
/-- `can.node_id` -/
def Obj.canNodeId : Obj := ⟨0x2701, 1, .u8, 0⟩
/-- `can.nominal_rate` -/
def Obj.canNominalRate : Obj := ⟨0x2701, 2, .u8, 3⟩
/-- `can.data_rate` -/
def Obj.canDataRate : Obj := ⟨0x2701, 3, .u8, 4⟩
/-- `can.nominal_sp` -/
def Obj.canNominalSp : Obj := ⟨0x2701, 4, .u16, 800⟩
/-- `can.data_sp` -/
def Obj.canDataSp : Obj := ⟨0x2701, 5, .u16, 750⟩
/-- `can.auto_recover` -/
def Obj.canAutoRecover : Obj := ⟨0x2701, 6, .bool, 1⟩
/-- `can.nmt_reset` -/
def Obj.canNmtReset : Obj := ⟨0x2701, 7, .bool, 0⟩
/-- `can.nmt_state` -/
def Obj.canNmtState : Obj := ⟨0x2701, 8, .u8, 0⟩
/-- `can.node_id_in_force` -/
def Obj.canNodeIdInForce : Obj := ⟨0x2701, 9, .u8, 127⟩
/-- `can.tec` -/
def Obj.canTec : Obj := ⟨0x2702, 1, .u8, 0⟩
/-- `can.rec` -/
def Obj.canRec : Obj := ⟨0x2702, 2, .u8, 0⟩
/-- `can.bus_offs` -/
def Obj.canBusOffs : Obj := ⟨0x2702, 3, .u32, 0⟩
/-- `can.rpdo_refusals` -/
def Obj.canRpdoRefusals : Obj := ⟨0x2702, 4, .u32, 0⟩
/-- `can.emcy_dropped` -/
def Obj.canEmcyDropped : Obj := ⟨0x2702, 5, .u32, 0⟩
/-- `can.coincidences` -/
def Obj.canCoincidences : Obj := ⟨0x2702, 6, .u32, 0⟩
/-- `smb.address` -/
def Obj.smbAddress : Obj := ⟨0x2710, 1, .u8, 0⟩
/-- `smb.address_mask` -/
def Obj.smbAddressMask : Obj := ⟨0x2710, 2, .u8, 0⟩
/-- `smb.filter` -/
def Obj.smbFilter : Obj := ⟨0x2710, 3, .u8, 0⟩
/-- `smb.response_hold` -/
def Obj.smbResponseHold : Obj := ⟨0x2710, 4, .u16, 100⟩
/-- `smb.sleep_idle` -/
def Obj.smbSleepIdle : Obj := ⟨0x2710, 5, .u16, 100⟩
/-- `smb.strap` -/
def Obj.smbStrap : Obj := ⟨0x2710, 6, .u8, 0⟩
/-- `smb.alert_cause` -/
def Obj.smbAlertCause : Obj := ⟨0x2711, 1, .u32, 0⟩
/-- `smb.alert_mask` -/
def Obj.smbAlertMask : Obj := ⟨0x2711, 2, .u32, 2147483711⟩
/-- `smb.alert_urgent` -/
def Obj.smbAlertUrgent : Obj := ⟨0x2711, 3, .u32, 6⟩
/-- `smb.pec_errors` -/
def Obj.smbPecErrors : Obj := ⟨0x2712, 1, .u32, 0⟩
/-- `smb.busy_nacks` -/
def Obj.smbBusyNacks : Obj := ⟨0x2712, 2, .u32, 0⟩
/-- `smb.sleep_nacks` -/
def Obj.smbSleepNacks : Obj := ⟨0x2712, 3, .u32, 0⟩
/-- `smb.ara_losses` -/
def Obj.smbAraLosses : Obj := ⟨0x2712, 4, .u32, 0⟩
/-- `smb.timeouts` -/
def Obj.smbTimeouts : Obj := ⟨0x2712, 5, .u32, 0⟩
/-- `smb.near_misses` -/
def Obj.smbNearMisses : Obj := ⟨0x2712, 6, .u32, 0⟩
/-- `smb.coincidences` -/
def Obj.smbCoincidences : Obj := ⟨0x2712, 7, .u32, 0⟩

/-! R514 -/

/-- `custody.recovery_delay` -/
def Obj.custodyRecoveryDelay : Obj := ⟨0x2122, 0, .u32, 259200⟩
/-- `custody.fw_lock` -/
def Obj.custodyFwLock : Obj := ⟨0x2123, 0, .bool, 0⟩
/-- `fw.running_slot` -/
def Obj.fwRunningSlot : Obj := ⟨0x2140, 1, .u8, 0⟩
/-- `fw.command` -/
def Obj.fwCommand : Obj := ⟨0x2140, 2, .u8, 0⟩
/-- `fw.stage_status` -/
def Obj.fwStageStatus : Obj := ⟨0x2140, 3, .u8, 0⟩
/-- `fw.trial_time` -/
def Obj.fwTrialTime : Obj := ⟨0x2140, 4, .u32, 600⟩
/-- `fw.trial_remaining` -/
def Obj.fwTrialRemaining : Obj := ⟨0x2140, 5, .u32, 0⟩
/-- `fw.slot_state` -/
def Obj.fwSlotState (k : Nat) : Obj := ⟨0x2141, 1 + k, .u8, 0⟩
/-- `fw.slot_version` -/
def Obj.fwSlotVersion (k : Nat) : Obj := ⟨0x2141, 3 + k, .u32, 0⟩
/-- `fw.slot_security` -/
def Obj.fwSlotSecurity (k : Nat) : Obj := ⟨0x2141, 5 + k, .u32, 0⟩
/-- `fw.security_floor` -/
def Obj.fwSecurityFloor : Obj := ⟨0x2142, 0, .u32, 0⟩
/-- `fw.activate_slot` -/
def Obj.fwActivateSlot : Obj := ⟨0x2143, 0, .u8, 255⟩
/-- `attest.lms_remaining` -/
def Obj.attestLmsRemaining : Obj := ⟨0x2164, 0, .u32, 1048576⟩
/-- `custody.generation` -/
def Obj.custodyGeneration : Obj := ⟨0x5080, 2, .u32, 0⟩
/-- `custody.state` -/
def Obj.custodyState : Obj := ⟨0x5080, 3, .u8, 0⟩
/-- `custody.pending_remaining` -/
def Obj.custodyPendingRemaining : Obj := ⟨0x5080, 5, .u32, 0⟩
/-- `custody.recovery_remaining` -/
def Obj.custodyRecoveryRemaining : Obj := ⟨0x5080, 7, .u32, 0⟩
/-- `custody.bad_signatures` -/
def Obj.custodyBadSignatures : Obj := ⟨0x5080, 8, .u32, 0⟩
/-- `custody.expiries` -/
def Obj.custodyExpiries : Obj := ⟨0x5080, 9, .u32, 0⟩
/-- `custody.declines` -/
def Obj.custodyDeclines : Obj := ⟨0x5080, 10, .u32, 0⟩
/-- `custody.near_misses` -/
def Obj.custodyNearMisses : Obj := ⟨0x5080, 11, .u32, 0⟩

/-! R537 -/

/-- `power.request` -/
def Obj.powerRequest : Obj := ⟨0x2201, 2, .u8, 0⟩
/-- `power.request_result` -/
def Obj.powerRequestResult : Obj := ⟨0x2201, 3, .u8, 0⟩
/-- `power.sleep_wait` -/
def Obj.powerSleepWait : Obj := ⟨0x2201, 4, .u32, 10000⟩
/-- `power.wake_mask` -/
def Obj.powerWakeMask : Obj := ⟨0x2201, 5, .u8, 15⟩
/-- `power.wake_cause` -/
def Obj.powerWakeCause : Obj := ⟨0x2201, 6, .u8, 0⟩
/-- `power.reset_cause` -/
def Obj.powerResetCause : Obj := ⟨0x2202, 1, .u8, 0⟩
/-- `power.restart_cause` -/
def Obj.powerRestartCause : Obj := ⟨0x2202, 2, .u8, 0⟩
/-- `power.resets` -/
def Obj.powerResets : Obj := ⟨0x2202, 3, .u32, 0⟩
/-- `power.core_restarts` -/
def Obj.powerCoreRestarts : Obj := ⟨0x2202, 4, .u32, 0⟩
/-- `power.sequence_faults` -/
def Obj.powerSequenceFaults : Obj := ⟨0x2202, 5, .u32, 0⟩
/-- `power.reset` -/
def Obj.powerReset : Obj := ⟨0x2202, 6, .u32, 0⟩
/-- `power.rail_mv` -/
def Obj.powerRailMv (k : Nat) : Obj := ⟨0x2203, 1 + k, .u16, 0⟩
/-- `power.rail_status` -/
def Obj.powerRailStatus : Obj := ⟨0x2203, 12, .u16, 0⟩
/-- `clock.status` -/
def Obj.clockStatus : Obj := ⟨0x2204, 0, .u16, 0⟩
/-- `power.near_misses` -/
def Obj.powerNearMisses : Obj := ⟨0x2205, 1, .u32, 0⟩
/-- `power.coincidences` -/
def Obj.powerCoincidences : Obj := ⟨0x2205, 2, .u32, 0⟩

/-! R549 -/

/-- `thermal.case` -/
def Obj.thermalCase : Obj := ⟨0x2230, 1, .i16, 0⟩
/-- `thermal.die` -/
def Obj.thermalDie : Obj := ⟨0x2230, 2, .i16, 0⟩
/-- `thermal.die_peak` -/
def Obj.thermalDiePeak : Obj := ⟨0x2230, 3, .i16, 0⟩
/-- `thermal.state` -/
def Obj.thermalState : Obj := ⟨0x2230, 4, .u8, 0⟩
/-- `thermal.step` -/
def Obj.thermalStep : Obj := ⟨0x2230, 5, .u8, 0⟩
/-- `thermal.local_cap` -/
def Obj.thermalLocalCap : Obj := ⟨0x2230, 6, .u32, 1000000⟩
/-- `thermal.time_above_95` -/
def Obj.thermalTimeAbove95 : Obj := ⟨0x2231, 1, .u32, 0⟩
/-- `thermal.time_above_110` -/
def Obj.thermalTimeAbove110 : Obj := ⟨0x2231, 2, .u32, 0⟩
/-- `thermal.holds` -/
def Obj.thermalHolds : Obj := ⟨0x2231, 3, .u32, 0⟩
/-- `thermal.vetoes` -/
def Obj.thermalVetoes : Obj := ⟨0x2231, 4, .u32, 0⟩
/-- `thermal.near_misses` -/
def Obj.thermalNearMisses : Obj := ⟨0x2231, 5, .u32, 0⟩

/-! R566 -/

/-- `device.echo_sync` -/
def Obj.deviceEchoSync : Obj := ⟨0x2020, 0, .u8, 0⟩
/-- `device.pin_owner` -/
def Obj.devicePinOwner (k : Nat) : Obj := ⟨0x2021, 1 + k, .u8, 0⟩

/-! R577 -/

/-- `test.mbist.start_addr` -/
def Obj.testMbistStartAddr : Obj := ⟨0x5100, 1, .u64, 0⟩
/-- `test.mbist.length` -/
def Obj.testMbistLength : Obj := ⟨0x5100, 2, .u64, 0⟩
/-- `test.mbist.algorithm` -/
def Obj.testMbistAlgorithm : Obj := ⟨0x5100, 3, .u8, 0⟩
/-- `test.mbist.command` -/
def Obj.testMbistCommand : Obj := ⟨0x5100, 4, .u8, 0⟩
/-- `test.mbist.status` -/
def Obj.testMbistStatus : Obj := ⟨0x5100, 5, .u8, 0⟩
/-- `test.mbist.errors` -/
def Obj.testMbistErrors : Obj := ⟨0x5100, 6, .u32, 0⟩
/-- `test.mbist.first_fail` -/
def Obj.testMbistFirstFail : Obj := ⟨0x5100, 7, .u64, 0⟩
/-- `test.span.loopback` -/
def Obj.testSpanLoopback (k : Nat) : Obj := ⟨0x5101, 1 + k, .u8, 0⟩
/-- `test.span.prbs_errors` -/
def Obj.testSpanPrbsErrors (k : Nat) : Obj := ⟨0x5101, 3 + k, .u32, 0⟩

/-! R591 -/

/-- `head<h>.service.isolate` -/
def Obj.headServiceIsolate (h : Nat) : Obj := ⟨0x3301 + 0x400 * h, 0, .bool, 0⟩
/-- `head<h>.service.isolations` -/
def Obj.headServiceIsolations (h : Nat) : Obj := ⟨0x3302 + 0x400 * h, 1, .u32, 0⟩
/-- `head<h>.service.coincidences` -/
def Obj.headServiceCoincidences (h : Nat) : Obj := ⟨0x3302 + 0x400 * h, 2, .u32, 0⟩
/-- `diag.clear` -/
def Obj.diagClear : Obj := ⟨0x5000, 0, .u8, 0⟩
/-- `fault.log_last` -/
def Obj.faultLogLast : Obj := ⟨0x5001, 1, .u32, 0⟩
/-- `fault.log_oldest` -/
def Obj.faultLogOldest : Obj := ⟨0x5001, 2, .u32, 1⟩
/-- `fault.log_select` -/
def Obj.faultLogSelect : Obj := ⟨0x5001, 3, .u32, 0⟩
/-- `fault.log_clear` -/
def Obj.faultLogClear : Obj := ⟨0x5001, 5, .u8, 0⟩
/-- `fault.log_suppressed` -/
def Obj.faultLogSuppressed : Obj := ⟨0x5001, 6, .u32, 0⟩
/-- `mem.ppr.auto` -/
def Obj.memPprAuto : Obj := ⟨0x5010, 1, .bool, 1⟩
/-- `mem.ppr.command` -/
def Obj.memPprCommand : Obj := ⟨0x5010, 2, .u8, 0⟩
/-- `mem.ppr.spares` -/
def Obj.memPprSpares : Obj := ⟨0x5010, 3, .u8, 32⟩
/-- `mem.ppr.soft` -/
def Obj.memPprSoft : Obj := ⟨0x5010, 4, .u8, 0⟩
/-- `mem.ppr.hard` -/
def Obj.memPprHard : Obj := ⟨0x5010, 5, .u8, 0⟩
/-- `mem.retired_blocks` -/
def Obj.memRetiredBlocks : Obj := ⟨0x5010, 6, .u16, 0⟩

/-- Rows of the object table of 01_system_architecture.md (R24). -/
def rows01a : List Row := [
  ⟨0x2001, 0, 1, 0, 0, .u8, .rws, true, 0, .range 0 1, false⟩,
  ⟨0x2002, 0, 1, 0, 0, .u32, .rwx, true, 0, .any, false⟩,
  ⟨0x2003, 0, 1, 0, 0, .u32, .ro, false, 1000000, .any, false⟩,
  ⟨0x2004, 0, 1, 1, 4, .u32, .ro, false, 0, .any, true⟩,
  ⟨0x2004, 0, 1, 5, 8, .u32, .ro, false, 0, .any, true⟩]

/-- Rows of the object table of 02_control_model.md (R61). DESIGN CHOICE: 0x2011 takes and holds the reserved
feature bits 10 to 127 (R47) too: R49 refuses their confirmation, where R2 by itself would refuse the write. -/
def rows02a : List Row := [
  ⟨0x1000, 0, 1, 0, 0, .u32, .const, false, 0, .any, false⟩,
  ⟨0x1008, 0, 1, 0, 0, .vstring, .const, false, 0, .any, false⟩,
  ⟨0x1009, 0, 1, 0, 0, .vstring, .const, false, 0, .any, false⟩,
  ⟨0x100a, 0, 1, 0, 0, .vstring, .ro, false, 0, .any, false⟩,
  ⟨0x1010, 0, 1, 1, 4, .u32, .rw, false, 1, .any, false⟩,
  ⟨0x1011, 0, 1, 1, 4, .u32, .rw, false, 1, .any, false⟩,
  ⟨0x1018, 0, 1, 1, 1, .u32, .const, false, 1447, .any, false⟩,
  ⟨0x1018, 0, 1, 2, 2, .u32, .const, false, 25664, .any, false⟩,
  ⟨0x1018, 0, 1, 3, 3, .u32, .ro, false, 0, .any, false⟩,
  ⟨0x1018, 0, 1, 4, 4, .u32, .const, false, 0, .any, false⟩,
  ⟨0x2005, 0, 1, 0, 0, .u32, .ro, false, 0, .any, true⟩,
  ⟨0x2006, 0, 1, 0, 0, .u32, .ro, false, 0, .any, true⟩,
  ⟨0x2010, 0, 1, 1, 1, .u64, .const, false, 1023, .any, false⟩,
  ⟨0x2010, 0, 1, 2, 2, .u64, .const, false, 0, .any, false⟩,
  ⟨0x2011, 0, 1, 1, 1, .u64, .rw, false, 0, .any, false⟩,
  ⟨0x2011, 0, 1, 2, 2, .u64, .rw, false, 0, .any, false⟩,
  ⟨0x2012, 0, 1, 1, 1, .u64, .ro, false, 0, .any, false⟩,
  ⟨0x2012, 0, 1, 2, 2, .u64, .ro, false, 0, .any, false⟩,
  ⟨0x2013, 0, 1, 0, 0, .u8, .rw, false, 0, .any, false⟩,
  ⟨0x2200, 0, 1, 1, 1, .u8, .rws, true, 0, .range 0 1, false⟩,
  ⟨0x2200, 0, 1, 2, 2, .u8, .ro, false, 0, .any, false⟩,
  ⟨0x2200, 0, 1, 3, 3, .u8, .ro, false, 0, .any, false⟩,
  ⟨0x2300, 0, 1, 1, 1, .u8, .rws, true, 0, .range 0 1, false⟩,
  ⟨0x2300, 0, 1, 2, 2, .u8, .ro, false, 0, .any, false⟩]

/-- Rows of the object table of 02_control_model.md (R61). -/
def rows02b : List Row := [
  ⟨0x2300, 0, 1, 3, 3, .u8, .ro, false, 0, .any, false⟩,
  ⟨0x2400, 0, 1, 1, 1, .u8, .rws, true, 0, .range 0 1, false⟩,
  ⟨0x2400, 0, 1, 2, 2, .u8, .ro, false, 0, .any, false⟩,
  ⟨0x2400, 0, 1, 3, 3, .u8, .ro, false, 0, .any, false⟩,
  ⟨0x2500, 0, 1, 1, 1, .u8, .rws, true, 0, .range 0 1, false⟩,
  ⟨0x2500, 0, 1, 2, 2, .u8, .ro, false, 0, .any, false⟩,
  ⟨0x2500, 0, 1, 3, 3, .u8, .ro, false, 0, .any, false⟩,
  ⟨0x2600, 0, 1, 1, 1, .u8, .rws, true, 0, .range 0 1, false⟩,
  ⟨0x2600, 0, 1, 2, 2, .u8, .ro, false, 0, .any, false⟩,
  ⟨0x2600, 0, 1, 3, 3, .u8, .ro, false, 0, .any, false⟩,
  ⟨0x2700, 0, 1, 1, 1, .u8, .rws, true, 0, .range 0 1, false⟩,
  ⟨0x2700, 0, 1, 2, 2, .u8, .ro, false, 0, .any, false⟩,
  ⟨0x2700, 0, 1, 3, 3, .u8, .ro, false, 0, .any, false⟩,
  ⟨0x4000, 0, 1, 1, 1, .u8, .rws, true, 0, .range 0 1, false⟩,
  ⟨0x4000, 0, 1, 2, 2, .u8, .ro, false, 0, .any, false⟩,
  ⟨0x4000, 0, 1, 3, 3, .u8, .ro, false, 0, .any, false⟩,
  ⟨0x4000, 0, 1, 4, 4, .u8, .wo, false, 0, .oneOf [1, 2], false⟩,
  ⟨0x3000, 1024, 4, 1, 1, .u8, .rws, true, 0, .range 0 1, false⟩,
  ⟨0x3000, 1024, 4, 2, 2, .u8, .ro, false, 0, .any, false⟩,
  ⟨0x3000, 1024, 4, 3, 3, .u8, .ro, false, 0, .any, false⟩,
  ⟨0x3000, 1024, 4, 4, 4, .u8, .wo, false, 0, .oneOf [1, 2], false⟩,
  ⟨0x3080, 1024, 4, 1, 1, .u8, .rws, true, 0, .range 0 1, false⟩,
  ⟨0x3080, 1024, 4, 2, 2, .u8, .ro, false, 0, .any, false⟩,
  ⟨0x3080, 1024, 4, 3, 3, .u8, .ro, false, 0, .any, false⟩]

/-- Rows of the object table of 02_control_model.md (R61). -/
def rows02c : List Row := [
  ⟨0x3100, 1024, 4, 1, 1, .u8, .rws, true, 0, .range 0 1, false⟩,
  ⟨0x3100, 1024, 4, 2, 2, .u8, .ro, false, 0, .any, false⟩,
  ⟨0x3100, 1024, 4, 3, 3, .u8, .ro, false, 0, .any, false⟩,
  ⟨0x3180, 1024, 4, 1, 1, .u8, .rws, true, 0, .range 0 1, false⟩,
  ⟨0x3180, 1024, 4, 2, 2, .u8, .ro, false, 0, .any, false⟩,
  ⟨0x3180, 1024, 4, 3, 3, .u8, .ro, false, 0, .any, false⟩,
  ⟨0x3200, 1024, 4, 1, 1, .u8, .rws, true, 0, .range 0 1, false⟩,
  ⟨0x3200, 1024, 4, 2, 2, .u8, .ro, false, 0, .any, false⟩,
  ⟨0x3200, 1024, 4, 3, 3, .u8, .ro, false, 0, .any, false⟩,
  ⟨0x3280, 1024, 4, 1, 1, .u8, .rws, true, 0, .range 0 1, false⟩,
  ⟨0x3280, 1024, 4, 2, 2, .u8, .ro, false, 0, .any, false⟩,
  ⟨0x3280, 1024, 4, 3, 3, .u8, .ro, false, 0, .any, false⟩,
  ⟨0x4100, 128, 2, 1, 1, .u8, .rws, true, 0, .range 0 1, false⟩,
  ⟨0x4100, 128, 2, 2, 2, .u8, .ro, false, 0, .any, false⟩,
  ⟨0x4100, 128, 2, 3, 3, .u8, .ro, false, 0, .any, false⟩,
  ⟨0x4100, 128, 2, 4, 4, .u8, .wo, false, 0, .oneOf [1, 2], false⟩]

/-- Rows of the object table of 03_head_ports_and_line_timing.md (R98). DESIGN CHOICE: `pattern.bank_measured`, whose default the table gives
as a dash, reads 0 until a bank has been measured. -/
def rows03a : List Row := [
  ⟨0x3001, 1024, 4, 0, 0, .u16, .rws, true, 65535, .any, false⟩,
  ⟨0x3002, 1024, 4, 1, 1, .u8, .rws, true, 32, .any, false⟩,
  ⟨0x3002, 1024, 4, 2, 2, .u16, .rws, true, 512, .any, false⟩,
  ⟨0x3002, 1024, 4, 3, 3, .u8, .rws, true, 16, .any, false⟩,
  ⟨0x3002, 1024, 4, 4, 4, .u8, .rws, true, 8, .any, false⟩,
  ⟨0x3002, 1024, 4, 5, 5, .u8, .rws, true, 24, .range 0 48, false⟩,
  ⟨0x3003, 1024, 4, 0, 0, .u8, .rws, true, 0, .range 0 3, false⟩,
  ⟨0x3004, 1024, 4, 1, 1, .u8, .rws, true, 0, .range 0 63, false⟩,
  ⟨0x3004, 1024, 4, 2, 2, .u8, .rws, true, 40, .range 0 63, false⟩,
  ⟨0x3004, 1024, 4, 3, 3, .u8, .rws, true, 8, .range 0 63, false⟩,
  ⟨0x3005, 1024, 4, 0, 0, .u32, .rws, true, 64, .range 0 16777215, false⟩,
  ⟨0x3006, 1024, 4, 0, 0, .u32, .rw, true, 10000, .hiLo 500 1000000000, false⟩,
  ⟨0x3007, 1024, 4, 0, 0, .u32, .ro, false, 10000, .any, false⟩,
  ⟨0x3008, 1024, 4, 1, 1, .u8, .rws, true, 0, .range 0 1, false⟩,
  ⟨0x3008, 1024, 4, 2, 2, .u8, .rws, true, 1, .range 0 3, false⟩,
  ⟨0x3008, 1024, 4, 3, 3, .u8, .rws, true, 1, .range 0 1, false⟩,
  ⟨0x3008, 1024, 4, 4, 4, .u8, .rws, true, 0, .any, false⟩,
  ⟨0x3008, 1024, 4, 5, 5, .u32, .rws, true, 0, .any, false⟩,
  ⟨0x3008, 1024, 4, 6, 6, .u16, .rws, true, 0, .any, false⟩,
  ⟨0x3008, 1024, 4, 7, 7, .u16, .ro, false, 0, .any, false⟩,
  ⟨0x3009, 1024, 4, 1, 1, .u8, .rws, true, 0, .range 0 2, false⟩,
  ⟨0x3009, 1024, 4, 2, 2, .u32, .rws, true, 40000000, .range 10000000 125000000, false⟩,
  ⟨0x3009, 1024, 4, 3, 3, .bool, .ro, false, 0, .any, false⟩,
  ⟨0x300a, 1024, 4, 1, 1, .u8, .rws, true, 0, .range 0 8, false⟩]

/-- Rows of the object table of 03_head_ports_and_line_timing.md (R98). -/
def rows03b : List Row := [
  ⟨0x300a, 1024, 4, 2, 2, .u64, .rw, true, 1600000, .any, false⟩,
  ⟨0x300a, 1024, 4, 3, 3, .time64, .rws, false, 0, .any, false⟩,
  ⟨0x300a, 1024, 4, 4, 4, .bool, .rws, true, 0, .any, false⟩,
  ⟨0x300a, 1024, 4, 5, 5, .u8, .wo, false, 0, .any, false⟩,
  ⟨0x300a, 1024, 4, 6, 6, .u32, .rw, true, 0, .any, false⟩,
  ⟨0x300a, 1024, 4, 7, 7, .u8, .rws, true, 0, .range 0 1, false⟩,
  ⟨0x300a, 1024, 4, 8, 8, .pos48, .rws, true, 256, .lo 256, false⟩,
  ⟨0x300a, 1024, 4, 9, 9, .pos48, .rws, true, 0, .any, false⟩,
  ⟨0x300a, 1024, 4, 10, 10, .i8, .rws, true, 1, .oneOf [1, -1], false⟩,
  ⟨0x300a, 1024, 4, 11, 11, .u32, .rwx, true, 0, .any, false⟩,
  ⟨0x300a, 1024, 4, 12, 12, .u8, .rws, true, 0, .range 0 1, false⟩,
  ⟨0x300a, 1024, 4, 13, 13, .u8, .rws, true, 0, .range 0 3, false⟩,
  ⟨0x300a, 1024, 4, 14, 14, .u32, .rws, true, 0, .any, false⟩,
  ⟨0x300b, 1024, 4, 1, 1, .u8, .rws, true, 1, .range 0 3, false⟩,
  ⟨0x300b, 1024, 4, 2, 2, .u16, .rws, true, 32, .any, false⟩,
  ⟨0x300c, 1024, 4, 1, 1, .u64, .ro, false, 0, .any, true⟩,
  ⟨0x300c, 1024, 4, 2, 2, .u32, .ro, false, 0, .any, true⟩,
  ⟨0x300c, 1024, 4, 3, 3, .u32, .ro, false, 0, .any, true⟩,
  ⟨0x300c, 1024, 4, 4, 4, .u32, .ro, false, 0, .any, true⟩,
  ⟨0x300c, 1024, 4, 5, 5, .u32, .ro, false, 0, .any, true⟩,
  ⟨0x300c, 1024, 4, 6, 6, .u32, .ro, false, 0, .any, true⟩,
  ⟨0x3281, 1024, 4, 0, 0, .u8, .rws, true, 4, .oneOf [1, 2, 3, 4, 16], false⟩,
  ⟨0x3282, 1024, 4, 0, 0, .u64, .ro, false, 0, .any, true⟩,
  ⟨0x3283, 1024, 4, 0, 0, .u64, .ro, false, 0, .any, false⟩]

/-- Rows of the object table of 03_head_ports_and_line_timing.md (R98). -/
def rows03c : List Row := [
  ⟨0x6010, 1, 4, 0, 0, .table, .rws, true, 0, .any, false⟩,
  ⟨0x6014, 1, 4, 0, 0, .table, .rws, true, 0, .any, false⟩]

/-- Rows of the object table of 04_video_conversion.md (R125). -/
def rows04a : List Row := [
  ⟨0x3081, 1024, 4, 1, 16, .u8, .rw, true, 0, .hi 63, false⟩,
  ⟨0x3082, 1024, 4, 1, 1, .u16, .wo, false, 0, .any, false⟩,
  ⟨0x3082, 1024, 4, 2, 2, .u16, .rw, true, 0, .any, false⟩,
  ⟨0x3083, 1024, 4, 1, 16, .u8, .ro, false, 0, .any, false⟩,
  ⟨0x3084, 1024, 4, 1, 1, .u16, .rws, true, 0, .any, false⟩,
  ⟨0x3084, 1024, 4, 2, 2, .u8, .rws, true, 0, .any, false⟩,
  ⟨0x3084, 1024, 4, 3, 3, .u8, .rws, true, 0, .range 0 48, false⟩,
  ⟨0x3084, 1024, 4, 4, 4, .u16, .rws, true, 0, .any, false⟩,
  ⟨0x3084, 1024, 4, 5, 5, .u16, .rws, true, 65535, .any, false⟩,
  ⟨0x3085, 1024, 4, 1, 16, .i8, .rwx, true, 0, .hiLo (-128) 127, false⟩,
  ⟨0x3086, 1024, 4, 0, 0, .u16, .rws, true, 512, .range 256 4096, false⟩,
  ⟨0x3087, 1024, 4, 1, 1, .bool, .rw, false, 0, .any, false⟩,
  ⟨0x3087, 1024, 4, 2, 2, .u8, .rws, true, 8, .range 6 12, false⟩,
  ⟨0x3087, 1024, 4, 3, 3, .u8, .rws, true, 2, .range 1 4, false⟩,
  ⟨0x3087, 1024, 4, 4, 4, .u32, .rw, true, 0, .any, false⟩,
  ⟨0x3088, 1024, 4, 1, 16, .u8, .ro, false, 0, .any, false⟩,
  ⟨0x3089, 1024, 4, 1, 16, .i16, .rwx, true, 0, .hiLo (-512) 511, false⟩,
  ⟨0x308a, 1024, 4, 1, 16, .i16, .rwx, true, 0, .hiLo (-1311) 1311, false⟩,
  ⟨0x308b, 1024, 4, 1, 16, .i16, .rwx, true, 0, .hiLo (-160) 160, false⟩,
  ⟨0x308c, 1024, 4, 1, 1, .u32, .ro, false, 0, .any, true⟩,
  ⟨0x308c, 1024, 4, 2, 2, .u32, .ro, false, 0, .any, true⟩,
  ⟨0x308c, 1024, 4, 3, 3, .u32, .ro, false, 0, .any, true⟩,
  ⟨0x308c, 1024, 4, 4, 4, .u32, .ro, false, 0, .any, true⟩,
  ⟨0x308c, 1024, 4, 5, 5, .u32, .ro, false, 0, .any, true⟩]

/-- Rows of the object table of 04_video_conversion.md (R125). -/
def rows04b : List Row := [
  ⟨0x308c, 1024, 4, 6, 6, .u32, .ro, false, 0, .any, true⟩,
  ⟨0x308c, 1024, 4, 7, 7, .u32, .ro, false, 0, .any, true⟩]

/-- Rows of the object table of 05_pixel_correction.md (R166). DESIGN CHOICE: `clamp.value`, which has no default, reads 0 until a line has set
it. -/
def rows05a : List Row := [
  ⟨0x3101, 1024, 4, 1, 1, .u8, .rws, true, 255, .oneOf [0, 1, 2, 3, 4, 5, 6, 7, 8, 9, 10, 11, 12, 13, 14, 15, 255], false⟩,
  ⟨0x3101, 1024, 4, 2, 2, .i16, .rws, true, 400, .any, false⟩,
  ⟨0x3101, 1024, 4, 3, 3, .i16, .ro, false, 400, .any, false⟩,
  ⟨0x3101, 1024, 4, 4, 4, .u8, .ro, false, 3, .any, false⟩,
  ⟨0x3102, 1024, 4, 1, 1, .u8, .rws, true, 1, .range 0 1, false⟩,
  ⟨0x3102, 1024, 4, 2, 2, .u8, .rws, true, 0, .range 0 6, false⟩,
  ⟨0x3102, 1024, 4, 3, 3, .u16, .rws, true, 512, .range 0 16383, false⟩,
  ⟨0x3103, 1024, 4, 1, 16, .u32, .ro, false, 0, .any, false⟩,
  ⟨0x3104, 1024, 4, 0, 0, .u8, .rws, true, 0, .range 0 2, false⟩,
  ⟨0x3105, 1024, 4, 1, 1, .bool, .rws, true, 1, .any, false⟩,
  ⟨0x3105, 1024, 4, 2, 2, .u16, .rws, true, 48000, .range 4096 65000, false⟩,
  ⟨0x3105, 1024, 4, 3, 3, .u16, .rws, true, 0, .range 0 4095, false⟩,
  ⟨0x3106, 1024, 4, 0, 0, .u8, .rws, true, 1, .oneOf [1, 2, 3, 4, 8], false⟩,
  ⟨0x3107, 1024, 4, 1, 1, .u16, .ro, false, 0, .any, false⟩,
  ⟨0x3107, 1024, 4, 2, 2, .u16, .rwx, false, 65535, .any, false⟩,
  ⟨0x3107, 1024, 4, 3, 3, .u16, .wo, false, 0, .any, false⟩,
  ⟨0x3107, 1024, 4, 4, 4, .u16, .wo, false, 0, .any, false⟩,
  ⟨0x3108, 1024, 4, 1, 1, .u8, .wo, false, 0, .any, false⟩,
  ⟨0x3108, 1024, 4, 2, 2, .u8, .ro, false, 0, .any, false⟩,
  ⟨0x3108, 1024, 4, 3, 3, .u16, .rw, true, 256, .pow2 16 4096 false, false⟩,
  ⟨0x3108, 1024, 4, 4, 4, .u16, .rw, true, 256, .pow2 16 4096 false, false⟩,
  ⟨0x3108, 1024, 4, 5, 5, .u16, .rw, true, 0, .pow2 16 4096 true, false⟩,
  ⟨0x3108, 1024, 4, 6, 6, .u16, .rw, true, 16384, .range 1024 49152, false⟩,
  ⟨0x3108, 1024, 4, 7, 7, .u16, .rw, true, 16, .range 0 4096, false⟩]

/-- Rows of the object table of 05_pixel_correction.md (R166). -/
def rows05b : List Row := [
  ⟨0x3108, 1024, 4, 8, 8, .bool, .rws, true, 0, .any, false⟩,
  ⟨0x3109, 1024, 4, 1, 1, .u32, .ro, false, 0, .any, true⟩,
  ⟨0x3109, 1024, 4, 2, 2, .u16, .ro, false, 0, .any, false⟩,
  ⟨0x3109, 1024, 4, 3, 3, .u32, .ro, false, 0, .any, true⟩,
  ⟨0x3109, 1024, 4, 4, 4, .u32, .ro, false, 0, .any, true⟩,
  ⟨0x3109, 1024, 4, 5, 5, .u32, .ro, false, 0, .any, true⟩,
  ⟨0x3109, 1024, 4, 6, 6, .u32, .ro, false, 0, .any, true⟩,
  ⟨0x3109, 1024, 4, 7, 7, .u32, .ro, false, 0, .any, true⟩,
  ⟨0x6018, 1, 4, 0, 0, .table, .rwx, true, 0, .any, false⟩,
  ⟨0x601c, 1, 4, 0, 0, .table, .rwx, true, 0, .any, false⟩,
  ⟨0x6020, 1, 4, 0, 0, .table, .ro, false, 0, .any, false⟩,
  ⟨0x6024, 1, 4, 0, 0, .table, .ro, false, 0, .any, false⟩]

/-- Rows of the object table of 06_segment_stitching.md (R198). -/
def rows06a : List Row := [
  ⟨0x3181, 1024, 4, 0, 0, .u8, .rws, true, 1, .range 0 1, false⟩,
  ⟨0x3182, 1024, 4, 1, 1, .u16, .rwx, true, 0, .any, false⟩,
  ⟨0x3182, 1024, 4, 2, 2, .u32, .rwx, true, 0, .any, false⟩,
  ⟨0x3182, 1024, 4, 3, 3, .u8, .rws, true, 1, .range 0 1, false⟩,
  ⟨0x3182, 1024, 4, 4, 4, .u16, .rws, true, 0, .any, false⟩,
  ⟨0x3182, 1024, 4, 5, 5, .u8, .rws, true, 0, .range 0 1, false⟩,
  ⟨0x3182, 1024, 4, 6, 6, .bool, .rws, true, 1, .any, false⟩,
  ⟨0x3183, 1024, 4, 1, 16, .u16, .rws, true, 0, .range 0 65280, false⟩,
  ⟨0x3184, 1024, 4, 1, 1, .u16, .ro, false, 0, .any, false⟩,
  ⟨0x3184, 1024, 4, 2, 2, .u16, .rwx, false, 65535, .any, false⟩,
  ⟨0x3184, 1024, 4, 3, 3, .u16, .wo, false, 0, .any, false⟩,
  ⟨0x3185, 1024, 4, 1, 1, .u8, .wo, false, 0, .any, false⟩,
  ⟨0x3185, 1024, 4, 2, 2, .u8, .ro, false, 0, .any, false⟩,
  ⟨0x3185, 1024, 4, 3, 3, .u16, .rw, true, 64, .pow2 16 4096 false, false⟩,
  ⟨0x3185, 1024, 4, 4, 4, .u32, .rw, true, 16384, .range 4096 65536, false⟩,
  ⟨0x3185, 1024, 4, 5, 5, .u32, .rw, true, 8192, .any, false⟩,
  ⟨0x3185, 1024, 4, 6, 6, .bool, .rw, true, 0, .any, false⟩,
  ⟨0x3185, 1024, 4, 7, 7, .u16, .rw, true, 2048, .range 16 65535, false⟩,
  ⟨0x3186, 1024, 4, 1, 1, .u32, .ro, false, 0, .any, true⟩,
  ⟨0x3186, 1024, 4, 2, 2, .u32, .ro, false, 0, .any, true⟩,
  ⟨0x3186, 1024, 4, 3, 3, .u32, .ro, false, 0, .any, true⟩,
  ⟨0x3186, 1024, 4, 4, 4, .u32, .ro, false, 0, .any, true⟩,
  ⟨0x3186, 1024, 4, 5, 5, .u32, .ro, false, 0, .any, true⟩,
  ⟨0x3186, 1024, 4, 6, 6, .u32, .ro, false, 0, .any, true⟩]

/-- Rows of the object table of 06_segment_stitching.md (R198). -/
def rows06b : List Row := [
  ⟨0x3187, 1024, 4, 1, 16, .u16, .ro, false, 0, .any, false⟩,
  ⟨0x6028, 1, 4, 0, 0, .table, .rwx, true, 0, .any, false⟩,
  ⟨0x602c, 1, 4, 0, 0, .table, .ro, false, 0, .any, false⟩,
  ⟨0x6030, 1, 4, 0, 0, .table, .rwx, true, 0, .any, false⟩]

/-- Rows of the object table of 07_capture_buffer_and_line_records.md (R228). -/
def rows07a : List Row := [
  ⟨0x2501, 0, 1, 1, 1, .u8, .rws, true, 0, .range 0 1, false⟩,
  ⟨0x2501, 0, 1, 2, 2, .u32, .rws, true, 500, .range 0 16777215, false⟩,
  ⟨0x2501, 0, 1, 3, 3, .u32, .rws, true, 20000, .range 1 16777215, false⟩,
  ⟨0x2501, 0, 1, 4, 4, .u32, .rws, true, 1, .any, false⟩,
  ⟨0x2501, 0, 1, 5, 5, .u8, .rws, true, 0, .range 0 1, false⟩,
  ⟨0x2501, 0, 1, 6, 6, .u8, .wo, false, 0, .any, false⟩,
  ⟨0x2502, 0, 1, 1, 1, .u8, .rws, true, 0, .range 0 4, false⟩,
  ⟨0x2502, 0, 1, 2, 2, .u8, .rws, true, 0, .range 0 3, false⟩,
  ⟨0x2502, 0, 1, 3, 3, .time64, .rws, false, 0, .any, false⟩,
  ⟨0x2502, 0, 1, 4, 4, .bool, .rws, true, 0, .any, false⟩,
  ⟨0x2502, 0, 1, 5, 5, .u8, .wo, false, 0, .any, false⟩,
  ⟨0x2502, 0, 1, 6, 6, .time64, .ro, false, 0, .any, false⟩,
  ⟨0x2503, 0, 1, 1, 1, .u8, .ro, false, 0, .any, false⟩,
  ⟨0x2503, 0, 1, 2, 2, .u32, .ro, false, 0, .any, false⟩,
  ⟨0x2504, 0, 1, 1, 4, .u8, .rws, true, 64, .any, false⟩,
  ⟨0x2504, 0, 1, 5, 5, .u32, .rws, true, 1024, .mult 0 4096 64, false⟩,
  ⟨0x2505, 0, 1, 1, 4, .u32, .ro, false, 0, .any, false⟩,
  ⟨0x2505, 0, 1, 5, 5, .u32, .ro, false, 0, .any, false⟩,
  ⟨0x2506, 0, 1, 1, 1, .u32, .ro, false, 0, .any, false⟩,
  ⟨0x2506, 0, 1, 2, 2, .u32, .ro, false, 216000, .any, false⟩,
  ⟨0x2506, 0, 1, 3, 3, .u8, .ro, false, 0, .any, false⟩,
  ⟨0x2506, 0, 1, 4, 4, .bool, .rwx, true, 1, .any, false⟩,
  ⟨0x2507, 0, 1, 1, 4, .u32, .ro, false, 0, .any, true⟩,
  ⟨0x2507, 0, 1, 5, 8, .u32, .ro, false, 0, .any, true⟩]

/-- Rows of the object table of 07_capture_buffer_and_line_records.md (R228). -/
def rows07b : List Row := [
  ⟨0x2507, 0, 1, 9, 12, .u32, .ro, false, 0, .any, true⟩,
  ⟨0x2507, 0, 1, 13, 13, .u32, .ro, false, 0, .any, true⟩,
  ⟨0x2507, 0, 1, 14, 14, .u32, .ro, false, 0, .any, true⟩,
  ⟨0x2507, 0, 1, 15, 15, .u32, .ro, false, 0, .any, true⟩,
  ⟨0x2508, 0, 1, 1, 4, .u8, .wo, false, 0, .any, false⟩]

/-- Rows of the object table of 08_keystone_pacing.md (R259). -/
def rows08a : List Row := [
  ⟨0x4160, 128, 2, 1, 1, .bool, .rws, true, 0, .any, false⟩,
  ⟨0x4160, 128, 2, 2, 2, .u8, .wo, false, 0, .any, false⟩,
  ⟨0x4160, 128, 2, 3, 3, .u8, .ro, false, 0, .any, false⟩,
  ⟨0x4160, 128, 2, 4, 4, .u32, .rws, true, 0, .any, false⟩,
  ⟨0x4160, 128, 2, 5, 5, .u8, .ro, false, 0, .any, false⟩,
  ⟨0x4161, 128, 2, 1, 1, .u16, .rw, true, 8192, .any, false⟩,
  ⟨0x4161, 128, 2, 2, 2, .u16, .rw, true, 32768, .any, false⟩,
  ⟨0x4161, 128, 2, 3, 3, .u16, .rw, true, 4096, .any, false⟩,
  ⟨0x4161, 128, 2, 4, 4, .u32, .rw, true, 100, .range 0 1000000, false⟩,
  ⟨0x4161, 128, 2, 5, 5, .u32, .rw, true, 500, .range 16 1000000, false⟩,
  ⟨0x4161, 128, 2, 6, 6, .u8, .rws, true, 16, .range 2 64, false⟩,
  ⟨0x4161, 128, 2, 7, 7, .bool, .rw, true, 0, .any, false⟩,
  ⟨0x4162, 128, 2, 1, 1, .u32, .rwx, true, 0, .range 1 1000000, false⟩,
  ⟨0x4162, 128, 2, 2, 2, .u32, .ro, false, 1000000, .any, false⟩,
  ⟨0x4162, 128, 2, 3, 3, .u16, .ro, false, 0, .any, false⟩,
  ⟨0x4162, 128, 2, 4, 4, .u8, .ro, false, 0, .any, false⟩,
  ⟨0x4162, 128, 2, 5, 5, .u16, .ro, false, 0, .any, false⟩,
  ⟨0x4163, 128, 2, 1, 1, .u64, .ro, false, 0, .any, false⟩,
  ⟨0x4163, 128, 2, 2, 2, .pos48, .ro, false, 0, .any, false⟩,
  ⟨0x4163, 128, 2, 3, 3, .i32, .ro, false, 0, .any, false⟩,
  ⟨0x4163, 128, 2, 4, 4, .u32, .ro, false, 0, .any, false⟩,
  ⟨0x4164, 128, 2, 1, 1, .u32, .ro, false, 0, .any, true⟩,
  ⟨0x4164, 128, 2, 2, 2, .u32, .ro, false, 0, .any, true⟩,
  ⟨0x4164, 128, 2, 3, 3, .u32, .ro, false, 0, .any, true⟩]

/-- Rows of the object table of 08_keystone_pacing.md (R259). -/
def rows08b : List Row := [
  ⟨0x4164, 128, 2, 4, 4, .u32, .ro, false, 0, .any, true⟩,
  ⟨0x4164, 128, 2, 5, 5, .u32, .ro, false, 0, .any, true⟩,
  ⟨0x4164, 128, 2, 6, 6, .u32, .ro, false, 0, .any, true⟩,
  ⟨0x4164, 128, 2, 7, 7, .u64, .ro, false, 0, .any, true⟩]

/-- Rows of the object table of 09_motion_axes.md (R287). -/
def rows09a : List Row := [
  ⟨0x4101, 128, 2, 1, 1, .u8, .rws, true, 0, .range 0 2, false⟩,
  ⟨0x4101, 128, 2, 2, 2, .u32, .rws, true, 200000, .any, false⟩,
  ⟨0x4101, 128, 2, 3, 3, .u32, .rws, true, 20000, .any, false⟩,
  ⟨0x4101, 128, 2, 4, 4, .u16, .rw, true, 1000, .any, false⟩,
  ⟨0x4101, 128, 2, 5, 5, .u16, .rw, true, 500, .any, false⟩,
  ⟨0x4101, 128, 2, 6, 6, .u16, .rw, true, 200, .any, false⟩,
  ⟨0x4101, 128, 2, 7, 7, .u16, .rws, true, 1000, .range 100 50000, false⟩,
  ⟨0x4101, 128, 2, 8, 8, .u32, .rws, true, 2000, .range 100 100000, false⟩,
  ⟨0x4101, 128, 2, 9, 9, .u16, .rws, true, 0, .any, false⟩,
  ⟨0x4101, 128, 2, 10, 10, .u16, .rws, true, 50, .range 5 1000, false⟩,
  ⟨0x4101, 128, 2, 11, 11, .u16, .rws, true, 100, .mult 20 1000 5, false⟩,
  ⟨0x4101, 128, 2, 12, 12, .u16, .rws, true, 2400, .any, false⟩,
  ⟨0x4101, 128, 2, 13, 13, .u32, .rws, true, 65536, .any, false⟩,
  ⟨0x4101, 128, 2, 14, 14, .bool, .rws, true, 0, .any, false⟩,
  ⟨0x4102, 128, 2, 1, 1, .u32, .rwx, true, 0, .any, false⟩,
  ⟨0x4102, 128, 2, 2, 2, .u32, .rwx, true, 0, .any, false⟩,
  ⟨0x4103, 128, 2, 1, 1, .u32, .rw, true, 1000000, .range 1 40000000, false⟩,
  ⟨0x4103, 128, 2, 2, 2, .u32, .rw, true, 1000000, .range 1 2147483647, false⟩,
  ⟨0x4103, 128, 2, 3, 3, .u32, .rw, true, 4000000, .any, false⟩,
  ⟨0x4103, 128, 2, 4, 4, .pos48, .rw, true, 140737488355328, .any, false⟩,
  ⟨0x4103, 128, 2, 5, 5, .pos48, .rw, true, 140737488355327, .any, false⟩,
  ⟨0x4103, 128, 2, 6, 6, .bool, .rw, true, 1, .any, false⟩,
  ⟨0x4104, 128, 2, 1, 1, .pos48, .wo, false, 0, .any, false⟩,
  ⟨0x4104, 128, 2, 2, 2, .i32, .wo, false, 0, .any, false⟩]

/-- Rows of the object table of 09_motion_axes.md (R287). -/
def rows09b : List Row := [
  ⟨0x4104, 128, 2, 3, 3, .u8, .wo, false, 0, .any, false⟩,
  ⟨0x4104, 128, 2, 4, 4, .pos48, .rw, true, 0, .any, false⟩,
  ⟨0x4105, 128, 2, 1, 1, .u8, .rws, true, 0, .range 0 3, false⟩,
  ⟨0x4105, 128, 2, 2, 2, .u32, .rw, true, 10000, .any, false⟩,
  ⟨0x4105, 128, 2, 3, 3, .i8, .rw, true, 255, .oneOf [1, -1], false⟩,
  ⟨0x4105, 128, 2, 4, 4, .pos48, .rw, true, 0, .any, false⟩,
  ⟨0x4106, 128, 2, 1, 1, .bool, .rws, true, 1, .any, false⟩,
  ⟨0x4106, 128, 2, 2, 2, .u8, .rws, true, 0, .range 0 3, false⟩,
  ⟨0x4106, 128, 2, 3, 3, .bool, .rws, true, 0, .any, false⟩,
  ⟨0x4106, 128, 2, 4, 4, .u8, .rws, true, 0, .range 0 1, false⟩,
  ⟨0x4107, 128, 2, 1, 1, .u32, .rw, true, 2560, .any, false⟩,
  ⟨0x4107, 128, 2, 2, 2, .u32, .rw, true, 1000, .range 1 1000000, false⟩,
  ⟨0x4108, 128, 2, 0, 0, .bool, .rws, true, 0, .any, false⟩,
  ⟨0x4109, 128, 2, 1, 1, .pos48, .ro, false, 0, .any, false⟩,
  ⟨0x4109, 128, 2, 2, 2, .pos48, .ro, false, 0, .any, false⟩,
  ⟨0x4109, 128, 2, 3, 3, .i32, .ro, false, 0, .any, false⟩,
  ⟨0x4109, 128, 2, 4, 4, .i32, .ro, false, 0, .any, false⟩,
  ⟨0x4109, 128, 2, 5, 5, .bool, .ro, false, 0, .any, false⟩,
  ⟨0x4109, 128, 2, 6, 6, .u8, .ro, false, 0, .any, false⟩,
  ⟨0x4109, 128, 2, 7, 7, .u8, .ro, false, 0, .any, false⟩,
  ⟨0x4109, 128, 2, 8, 8, .u16, .ro, false, 0, .any, false⟩,
  ⟨0x4109, 128, 2, 9, 9, .u8, .ro, false, 0, .any, false⟩,
  ⟨0x4109, 128, 2, 10, 10, .u8, .ro, false, 255, .any, false⟩,
  ⟨0x4109, 128, 2, 11, 11, .pos48, .ro, false, 0, .any, false⟩]

/-- Rows of the object table of 09_motion_axes.md (R287). -/
def rows09c : List Row := [
  ⟨0x410a, 128, 2, 1, 1, .u32, .ro, false, 0, .any, true⟩,
  ⟨0x410a, 128, 2, 2, 2, .u32, .ro, false, 0, .any, true⟩,
  ⟨0x410a, 128, 2, 3, 3, .u32, .ro, false, 0, .any, true⟩,
  ⟨0x410a, 128, 2, 4, 4, .u32, .ro, false, 0, .any, true⟩,
  ⟨0x410a, 128, 2, 5, 5, .u32, .ro, false, 0, .any, true⟩,
  ⟨0x410a, 128, 2, 6, 6, .u32, .ro, false, 0, .any, true⟩,
  ⟨0x410a, 128, 2, 7, 7, .u32, .ro, false, 0, .any, true⟩]

/-- Rows of the object table of 10_illumination.md (R312). -/
def rows10a : List Row := [
  ⟨0x3201, 1024, 4, 1, 1, .u8, .rws, true, 1, .range 1 16, false⟩,
  ⟨0x3201, 1024, 4, 2, 17, .u8, .rws, true, 0, .oneOf [0, 1, 2, 3, 15], false⟩,
  ⟨0x3201, 1024, 4, 18, 18, .u8, .wo, false, 0, .any, false⟩,
  ⟨0x3202, 1024, 4, 1, 4, .u16, .rw, true, 0, .any, false⟩,
  ⟨0x3203, 1024, 4, 1, 4, .u16, .rws, true, 1600, .range 16 3200, false⟩,
  ⟨0x3204, 1024, 4, 1, 1, .u32, .rws, true, 32, .any, false⟩,
  ⟨0x3204, 1024, 4, 2, 2, .u32, .rws, true, 384, .range 1 16777215, false⟩,
  ⟨0x3204, 1024, 4, 3, 3, .u16, .rws, true, 24, .range 0 255, false⟩,
  ⟨0x3204, 1024, 4, 4, 4, .u8, .rws, true, 8, .range 0 255, false⟩,
  ⟨0x3205, 1024, 4, 1, 4, .u16, .rwx, true, 0, .range 0 48000, false⟩,
  ⟨0x3206, 1024, 4, 1, 1, .u16, .rws, true, 48000, .range 5000 48000, false⟩,
  ⟨0x3206, 1024, 4, 2, 2, .u16, .rws, true, 600, .range 300 3000, false⟩,
  ⟨0x3206, 1024, 4, 3, 3, .u16, .rws, true, 2000, .any, false⟩,
  ⟨0x3206, 1024, 4, 4, 4, .u16, .rwx, true, 0, .any, false⟩,
  ⟨0x3206, 1024, 4, 5, 5, .u16, .ro, false, 0, .any, false⟩,
  ⟨0x3207, 1024, 4, 1, 1, .u8, .rws, true, 0, .range 0 32, false⟩,
  ⟨0x3207, 1024, 4, 2, 2, .u8, .rws, true, 0, .range 0 3, false⟩,
  ⟨0x3207, 1024, 4, 3, 6, .u16, .rws, true, 2048, .range 0 4095, false⟩,
  ⟨0x3208, 1024, 4, 1, 1, .u8, .rws, true, 255, .oneOf [0, 1, 2, 3, 4, 5, 6, 7, 8, 9, 10, 11, 12, 13, 14, 15, 255], false⟩,
  ⟨0x3208, 1024, 4, 2, 2, .bool, .rw, false, 0, .any, false⟩,
  ⟨0x3209, 1024, 4, 1, 1, .i16, .rwc, false, 960, .any, false⟩,
  ⟨0x3209, 1024, 4, 2, 2, .i16, .rwc, false, 1440, .any, false⟩,
  ⟨0x3209, 1024, 4, 3, 3, .u16, .rwc, false, 16384, .any, false⟩,
  ⟨0x3209, 1024, 4, 4, 4, .u32, .rwc, false, 4000, .range 0 100000, false⟩]

/-- Rows of the object table of 10_illumination.md (R312). -/
def rows10b : List Row := [
  ⟨0x3209, 1024, 4, 5, 5, .i16, .rwc, false, 640, .any, false⟩,
  ⟨0x3209, 1024, 4, 6, 6, .i16, .rwc, false, 960, .any, false⟩,
  ⟨0x320a, 1024, 4, 1, 1, .i16, .ro, false, 0, .any, false⟩,
  ⟨0x320a, 1024, 4, 2, 2, .u32, .ro, false, 65536, .any, false⟩,
  ⟨0x320a, 1024, 4, 3, 3, .u32, .ro, false, 0, .any, false⟩,
  ⟨0x320a, 1024, 4, 4, 4, .u8, .ro, false, 0, .any, false⟩,
  ⟨0x320a, 1024, 4, 5, 8, .u32, .ro, false, 0, .any, false⟩,
  ⟨0x320b, 1024, 4, 1, 1, .u32, .ro, false, 0, .any, true⟩,
  ⟨0x320b, 1024, 4, 2, 2, .u32, .ro, false, 0, .any, true⟩,
  ⟨0x320b, 1024, 4, 3, 3, .u32, .ro, false, 0, .any, true⟩,
  ⟨0x320b, 1024, 4, 4, 4, .u32, .ro, false, 0, .any, true⟩,
  ⟨0x320b, 1024, 4, 5, 5, .u32, .ro, false, 0, .any, true⟩,
  ⟨0x6034, 1, 4, 0, 0, .table, .rws, true, 0, .any, false⟩]

/-- Rows of the object table of 11_auxiliary_front_end.md (R335). -/
def rows11a : List Row := [
  ⟨0x4010, 0, 1, 1, 16, .u8, .rws, true, 0, .range 0 4, false⟩,
  ⟨0x4011, 0, 1, 1, 16, .u8, .rws, true, 0, .range 0 1, false⟩,
  ⟨0x4012, 0, 1, 1, 16, .u8, .rws, true, 1, .range 0 1, false⟩,
  ⟨0x4013, 0, 1, 0, 0, .u16, .rws, true, 0, .any, false⟩,
  ⟨0x4014, 0, 1, 1, 32, .u32, .const, false, 0, .any, false⟩,
  ⟨0x4015, 0, 1, 1, 32, .u32, .const, false, 0, .any, false⟩,
  ⟨0x4016, 0, 1, 1, 16, .u8, .rw, true, 0, .range 0 7, false⟩,
  ⟨0x4017, 0, 1, 1, 16, .bool, .rws, true, 1, .any, false⟩,
  ⟨0x4018, 0, 1, 1, 16, .bool, .rws, true, 1, .any, false⟩,
  ⟨0x4019, 0, 1, 1, 16, .bool, .rws, true, 1, .any, false⟩,
  ⟨0x401a, 0, 1, 1, 16, .u16, .rw, true, 1000, .range 10 60000, false⟩,
  ⟨0x401b, 0, 1, 1, 16, .u8, .rws, true, 0, .range 0 2, false⟩,
  ⟨0x401c, 0, 1, 1, 16, .u8, .rws, true, 255, .oneOf [0, 1, 2, 3, 4, 5, 6, 7, 8, 9, 10, 11, 12, 13, 14, 15, 255], false⟩,
  ⟨0x401d, 0, 1, 1, 16, .i32, .ro, false, 0, .any, false⟩,
  ⟨0x401e, 0, 1, 1, 16, .i32, .ro, false, 0, .any, false⟩,
  ⟨0x401f, 0, 1, 1, 16, .u8, .ro, false, 1, .any, false⟩,
  ⟨0x4020, 0, 1, 1, 16, .bool, .rw, false, 0, .any, false⟩,
  ⟨0x4021, 0, 1, 1, 16, .u32, .ro, false, 0, .any, true⟩,
  ⟨0x4022, 0, 1, 1, 16, .u32, .ro, false, 0, .any, true⟩,
  ⟨0x4023, 0, 1, 0, 0, .u32, .ro, false, 0, .any, true⟩,
  ⟨0x4030, 0, 1, 1, 4, .u8, .rw, true, 0, .range 0 15, false⟩,
  ⟨0x4031, 0, 1, 1, 4, .u8, .rw, true, 0, .range 0 2, false⟩,
  ⟨0x4032, 0, 1, 1, 4, .i32, .rw, true, 0, .any, false⟩,
  ⟨0x4033, 0, 1, 1, 4, .i32, .rw, true, 1600, .any, false⟩]

/-- Rows of the object table of 11_auxiliary_front_end.md (R335). -/
def rows11b : List Row := [
  ⟨0x4034, 0, 1, 1, 4, .u32, .rw, true, 1000000, .any, false⟩,
  ⟨0x4035, 0, 1, 1, 4, .u32, .rw, true, 10000000, .any, false⟩,
  ⟨0x4036, 0, 1, 1, 4, .u32, .rw, true, 1000, .range 100 1000000, false⟩,
  ⟨0x4037, 0, 1, 1, 4, .u32, .rw, true, 500000, .any, false⟩,
  ⟨0x4038, 0, 1, 0, 0, .u8, .rws, true, 0, .mask 15, false⟩,
  ⟨0x6040, 1, 16, 0, 0, .table, .rws, true, 0, .any, false⟩]

/-- Rows of the object table of 12_auxiliary_conversion.md (R354). -/
def rows12a : List Row := [
  ⟨0x4040, 0, 1, 1, 1, .u8, .rws, true, 0, .range 0 2, false⟩,
  ⟨0x4040, 0, 1, 2, 2, .u8, .rws, true, 0, .range 0 15, false⟩,
  ⟨0x4041, 0, 1, 1, 2, .u32, .rws, true, 0, .any, false⟩,
  ⟨0x4041, 0, 1, 3, 3, .u32, .rws, true, 0, .any, false⟩,
  ⟨0x4041, 0, 1, 4, 5, .u32, .ro, false, 0, .any, false⟩,
  ⟨0x4041, 0, 1, 6, 6, .u32, .ro, false, 0, .any, true⟩,
  ⟨0x4041, 0, 1, 7, 7, .u32, .ro, false, 0, .any, true⟩,
  ⟨0x4042, 0, 1, 1, 1, .bool, .rw, true, 0, .any, false⟩,
  ⟨0x4042, 0, 1, 2, 2, .bool, .ro, false, 0, .any, false⟩,
  ⟨0x4043, 0, 1, 1, 16, .u8, .rws, true, 3, .range 0 5, false⟩,
  ⟨0x4044, 0, 1, 1, 16, .u32, .rws, true, 50000, .range 10000 25000000, false⟩,
  ⟨0x4045, 0, 1, 1, 16, .u32, .ro, false, 50000, .any, false⟩,
  ⟨0x4046, 0, 1, 1, 16, .u8, .ro, false, 0, .any, false⟩,
  ⟨0x4047, 0, 1, 1, 16, .u32, .ro, false, 0, .any, true⟩,
  ⟨0x4048, 0, 1, 1, 1, .u16, .rw, true, 0, .any, false⟩,
  ⟨0x4048, 0, 1, 2, 2, .u16, .rw, true, 64, .range 1 256, false⟩,
  ⟨0x4048, 0, 1, 3, 3, .octets, .ro, false, 0, .any, false⟩,
  ⟨0x4048, 0, 1, 4, 4, .u16, .ro, false, 0, .any, false⟩,
  ⟨0x4048, 0, 1, 5, 5, .u32, .ro, false, 0, .any, true⟩,
  ⟨0x4048, 0, 1, 6, 6, .u8, .wo, false, 0, .any, false⟩,
  ⟨0x6050, 0, 1, 0, 0, .table, .rws, true, 0, .any, false⟩]

/-- Rows of the object table of 13_event_fabric.md (R379). -/
def rows13a : List Row := [
  ⟨0x2301, 0, 1, 1, 1, .u16, .wo, false, 0, .any, false⟩,
  ⟨0x2301, 0, 1, 2, 2, .u16, .wo, false, 0, .any, false⟩,
  ⟨0x2301, 0, 1, 3, 3, .u32, .ro, false, 0, .any, true⟩,
  ⟨0x2301, 0, 1, 4, 4, .u16, .ro, false, 65535, .any, false⟩,
  ⟨0x2301, 0, 1, 5, 5, .u32, .ro, false, 0, .any, true⟩,
  ⟨0x2301, 0, 1, 6, 6, .u32, .ro, false, 0, .any, true⟩,
  ⟨0x2302, 0, 1, 0, 0, .octets, .ro, false, 0, .any, false⟩,
  ⟨0x2310, 1, 4, 1, 128, .u16, .rws, true, 65535, .any, false⟩,
  ⟨0x2318, 1, 4, 1, 128, .u32, .ro, false, 0, .any, true⟩,
  ⟨0x2340, 0, 1, 1, 16, .u8, .rws, true, 0, .range 0 4, false⟩,
  ⟨0x2341, 0, 1, 1, 16, .u8, .rws, true, 0, .range 0 1, false⟩,
  ⟨0x2342, 0, 1, 1, 16, .u32, .rw, true, 1000, .range 1 4294967295, false⟩,
  ⟨0x2343, 0, 1, 1, 16, .u32, .rw, true, 1, .range 1 4294967295, false⟩,
  ⟨0x2344, 0, 1, 1, 16, .time64, .rw, false, 0, .any, false⟩,
  ⟨0x2345, 0, 1, 1, 16, .u32, .ro, false, 0, .any, false⟩,
  ⟨0x2346, 0, 1, 1, 16, .u8, .ro, false, 0, .any, false⟩]

/-- Rows of the object table of 14_dma_engine.md (R402). -/
def rows14a : List Row := [
  ⟨0x2401, 0, 1, 1, 1, .u32, .rw, true, 0, .any, false⟩,
  ⟨0x2401, 0, 1, 2, 2, .u32, .rw, true, 0, .any, false⟩,
  ⟨0x2401, 0, 1, 3, 3, .u32, .ro, false, 0, .any, true⟩,
  ⟨0x2402, 0, 1, 1, 32, .u8, .wo, false, 0, .any, false⟩,
  ⟨0x2403, 0, 1, 1, 32, .u8, .ro, false, 0, .any, false⟩,
  ⟨0x2404, 0, 1, 1, 32, .u8, .rw, true, 0, .oneOf [0, 1, 2, 16, 17, 18, 19, 20, 21, 22, 23, 24, 25, 26, 27, 28, 29, 30, 31], false⟩,
  ⟨0x2405, 0, 1, 1, 32, .u16, .rw, true, 49152, .any, false⟩,
  ⟨0x2406, 0, 1, 1, 32, .u16, .rw, true, 16384, .any, false⟩,
  ⟨0x2407, 0, 1, 1, 32, .u16, .ro, false, 0, .any, false⟩,
  ⟨0x2408, 0, 1, 1, 32, .u32, .ro, false, 0, .any, true⟩,
  ⟨0x2409, 0, 1, 1, 32, .u32, .ro, false, 0, .any, true⟩,
  ⟨0x240a, 0, 1, 1, 32, .u64, .ro, false, 0, .any, false⟩,
  ⟨0x240b, 0, 1, 1, 32, .u32, .ro, false, 0, .any, true⟩,
  ⟨0x240c, 0, 1, 1, 32, .u32, .ro, false, 0, .any, false⟩,
  ⟨0x2440, 1, 32, 1, 1, .u64, .rw, false, 0, .any, false⟩,
  ⟨0x2440, 1, 32, 2, 2, .u64, .rw, false, 0, .any, false⟩,
  ⟨0x2440, 1, 32, 3, 3, .u32, .rw, false, 0, .any, false⟩,
  ⟨0x2440, 1, 32, 4, 4, .u16, .rw, false, 0, .any, false⟩,
  ⟨0x2440, 1, 32, 5, 5, .u16, .rw, false, 0, .any, false⟩,
  ⟨0x2440, 1, 32, 6, 6, .i32, .rw, false, 0, .any, false⟩,
  ⟨0x2440, 1, 32, 7, 7, .i32, .rw, false, 0, .any, false⟩,
  ⟨0x2440, 1, 32, 8, 8, .i32, .rw, false, 0, .any, false⟩,
  ⟨0x2440, 1, 32, 9, 9, .i32, .rw, false, 0, .any, false⟩,
  ⟨0x2440, 1, 32, 10, 10, .u32, .rw, false, 0, .any, false⟩]

/-- Rows of the object table of 14_dma_engine.md (R402). -/
def rows14b : List Row := [
  ⟨0x2440, 1, 32, 11, 11, .u32, .ro, false, 0, .any, false⟩,
  ⟨0x2440, 1, 32, 12, 12, .u64, .rw, false, 0, .any, false⟩,
  ⟨0x2440, 1, 32, 13, 13, .u32, .rw, false, 0, .any, false⟩,
  ⟨0x2460, 1, 32, 1, 1, .u64, .ro, false, 0, .any, false⟩,
  ⟨0x2460, 1, 32, 2, 2, .u64, .ro, false, 0, .any, false⟩,
  ⟨0x2460, 1, 32, 3, 3, .u32, .ro, false, 0, .any, false⟩,
  ⟨0x2460, 1, 32, 4, 4, .u16, .ro, false, 0, .any, false⟩,
  ⟨0x2460, 1, 32, 5, 5, .u16, .ro, false, 0, .any, false⟩,
  ⟨0x2460, 1, 32, 6, 6, .i32, .ro, false, 0, .any, false⟩,
  ⟨0x2460, 1, 32, 7, 7, .i32, .ro, false, 0, .any, false⟩,
  ⟨0x2460, 1, 32, 8, 8, .i32, .ro, false, 0, .any, false⟩,
  ⟨0x2460, 1, 32, 9, 9, .i32, .ro, false, 0, .any, false⟩,
  ⟨0x2460, 1, 32, 10, 10, .u32, .ro, false, 0, .any, false⟩,
  ⟨0x2460, 1, 32, 11, 11, .u32, .ro, false, 0, .any, false⟩,
  ⟨0x2460, 1, 32, 12, 12, .u64, .ro, false, 0, .any, false⟩,
  ⟨0x2460, 1, 32, 13, 13, .u32, .ro, false, 0, .any, false⟩]

/-- Rows of the object table of 15_span_ring_and_time.md (R434). -/
def rows15a : List Row := [
  ⟨0x2601, 0, 1, 1, 1, .u8, .ro, false, 255, .any, false⟩,
  ⟨0x2601, 0, 1, 2, 2, .bool, .rws, true, 0, .any, false⟩,
  ⟨0x2601, 0, 1, 3, 3, .u8, .rwx, true, 0, .range 1 64, false⟩,
  ⟨0x2601, 0, 1, 4, 4, .u8, .ro, false, 1, .any, false⟩,
  ⟨0x2601, 0, 1, 5, 5, .u8, .ro, false, 0, .any, false⟩,
  ⟨0x2602, 0, 1, 0, 0, .octets, .ro, false, 0, .any, false⟩,
  ⟨0x2603, 0, 1, 1, 1, .u32, .ro, false, 0, .any, false⟩,
  ⟨0x2603, 0, 1, 2, 2, .u8, .ro, false, 255, .any, false⟩,
  ⟨0x2604, 0, 1, 1, 1, .u8, .ro, false, 255, .any, false⟩,
  ⟨0x2604, 0, 1, 2, 2, .u8, .ro, false, 255, .any, false⟩,
  ⟨0x2605, 0, 1, 1, 4, .u8, .rwx, true, 0, .range 0 63, false⟩,
  ⟨0x2605, 0, 1, 5, 8, .u8, .rwx, true, 0, .range 0 1, false⟩,
  ⟨0x2605, 0, 1, 9, 12, .u8, .ro, false, 255, .any, false⟩,
  ⟨0x2605, 0, 1, 13, 16, .u8, .ro, false, 0, .any, false⟩,
  ⟨0x2606, 0, 1, 1, 2, .u8, .ro, false, 0, .any, false⟩,
  ⟨0x2606, 0, 1, 3, 4, .u8, .ro, false, 0, .any, false⟩,
  ⟨0x2606, 0, 1, 5, 6, .u16, .rw, true, 16, .range 1 65535, false⟩,
  ⟨0x2606, 0, 1, 7, 8, .i16, .rw, true, 0, .range (-10000) 10000, false⟩,
  ⟨0x2606, 0, 1, 9, 10, .u8, .ro, false, 255, .any, false⟩,
  ⟨0x2607, 0, 1, 1, 2, .u32, .ro, false, 0, .any, true⟩,
  ⟨0x2607, 0, 1, 3, 4, .u32, .ro, false, 0, .any, true⟩,
  ⟨0x2607, 0, 1, 5, 6, .u32, .ro, false, 0, .any, true⟩,
  ⟨0x2607, 0, 1, 7, 7, .u32, .ro, false, 0, .any, true⟩,
  ⟨0x2607, 0, 1, 8, 8, .u32, .ro, false, 0, .any, true⟩]

/-- Rows of the object table of 15_span_ring_and_time.md (R434). -/
def rows15b : List Row := [
  ⟨0x2607, 0, 1, 9, 9, .u32, .ro, false, 0, .any, true⟩,
  ⟨0x2608, 0, 1, 1, 1, .time64, .ro, false, 0, .any, false⟩,
  ⟨0x2608, 0, 1, 2, 2, .u8, .ro, false, 0, .any, false⟩,
  ⟨0x2608, 0, 1, 3, 3, .u8, .rw, true, 128, .any, false⟩,
  ⟨0x2608, 0, 1, 4, 4, .u8, .ro, false, 255, .any, false⟩,
  ⟨0x2608, 0, 1, 5, 5, .i32, .ro, false, 0, .any, false⟩,
  ⟨0x2608, 0, 1, 6, 6, .u32, .rw, true, 20000, .range 0 1000000, false⟩,
  ⟨0x2608, 0, 1, 7, 7, .u32, .ro, false, 0, .any, true⟩,
  ⟨0x2608, 0, 1, 8, 8, .time64, .ro, false, 0, .any, false⟩,
  ⟨0x2609, 0, 1, 1, 1, .i64, .ro, false, 0, .any, false⟩,
  ⟨0x2609, 0, 1, 2, 2, .time64, .ro, false, 0, .any, false⟩,
  ⟨0x2609, 0, 1, 3, 3, .time64, .ro, false, 0, .any, false⟩,
  ⟨0x2609, 0, 1, 4, 4, .u32, .ro, false, 0, .any, false⟩,
  ⟨0x260a, 0, 1, 1, 1, .time64, .wo, false, 0, .any, false⟩,
  ⟨0x260a, 0, 1, 2, 2, .u8, .rw, true, 15, .mask 15, false⟩,
  ⟨0x260a, 0, 1, 3, 3, .u16, .ro, false, 65535, .any, false⟩]

/-- Rows of the object table of 16_host_port.md (R460). -/
def rows16a : List Row := [
  ⟨0x2640, 0, 1, 1, 1, .u8, .ro, false, 0, .any, false⟩,
  ⟨0x2640, 0, 1, 2, 2, .u8, .ro, false, 0, .any, false⟩,
  ⟨0x2640, 0, 1, 3, 3, .bool, .ro, false, 0, .any, false⟩,
  ⟨0x2641, 0, 1, 1, 1, .u8, .rws, true, 0, .range 0 15, false⟩,
  ⟨0x2641, 0, 1, 2, 2, .u8, .rws, true, 1, .range 0 15, false⟩,
  ⟨0x2641, 0, 1, 3, 3, .u8, .rws, true, 2, .range 0 15, false⟩,
  ⟨0x2641, 0, 1, 4, 4, .u8, .rws, true, 3, .range 0 15, false⟩,
  ⟨0x2641, 0, 1, 5, 5, .u8, .rws, true, 4, .range 0 15, false⟩,
  ⟨0x2641, 0, 1, 6, 6, .u8, .rws, true, 5, .range 0 15, false⟩,
  ⟨0x2642, 0, 1, 1, 41, .u8, .rw, true, 0, .range 0 63, false⟩,
  ⟨0x2643, 0, 1, 1, 1, .u32, .ro, false, 0, .any, true⟩,
  ⟨0x2643, 0, 1, 2, 2, .u32, .ro, false, 0, .any, true⟩,
  ⟨0x2643, 0, 1, 3, 3, .u32, .ro, false, 0, .any, true⟩,
  ⟨0x2643, 0, 1, 4, 4, .u32, .ro, false, 0, .any, true⟩,
  ⟨0x2643, 0, 1, 5, 5, .u32, .ro, false, 0, .any, true⟩,
  ⟨0x2650, 0, 1, 1, 16, .u64, .rw, false, 0, .any, false⟩,
  ⟨0x2651, 0, 1, 1, 16, .u8, .rw, false, 20, .range 20 32, false⟩,
  ⟨0x2652, 0, 1, 1, 16, .bool, .rw, false, 0, .any, false⟩,
  ⟨0x2653, 0, 1, 1, 16, .u64, .ro, false, 0, .any, false⟩,
  ⟨0x2654, 0, 1, 1, 16, .u64, .rw, false, 0, .any, false⟩,
  ⟨0x2655, 0, 1, 1, 16, .u64, .rw, false, 0, .any, false⟩,
  ⟨0x2656, 0, 1, 1, 16, .u32, .rw, false, 0, .any, false⟩,
  ⟨0x2657, 0, 1, 1, 16, .u32, .rw, false, 0, .any, false⟩,
  ⟨0x2658, 0, 1, 1, 16, .u32, .rw, false, 100000, .any, false⟩]

/-- Rows of the object table of 17_management_buses.md (R485). -/
def rows17a : List Row := [
  ⟨0x1001, 0, 1, 0, 0, .u8, .ro, false, 0, .any, false⟩,
  ⟨0x1005, 0, 1, 0, 0, .u32, .rw, true, 128, .any, false⟩,
  ⟨0x1014, 0, 1, 0, 0, .u32, .rw, true, 0, .any, false⟩,
  ⟨0x1015, 0, 1, 0, 0, .u16, .rw, true, 0, .any, false⟩,
  ⟨0x1017, 0, 1, 0, 0, .u16, .rw, true, 0, .any, false⟩,
  ⟨0x1400, 1, 8, 1, 1, .u32, .rw, true, 0, .any, false⟩,
  ⟨0x1400, 1, 8, 2, 2, .u8, .rw, true, 255, .pdoType, false⟩,
  ⟨0x1600, 1, 8, 0, 0, .u8, .rw, true, 0, .range 0 64, false⟩,
  ⟨0x1600, 1, 8, 1, 64, .u32, .rw, true, 0, .any, false⟩,
  ⟨0x1800, 1, 8, 1, 1, .u32, .rw, true, 0, .any, false⟩,
  ⟨0x1800, 1, 8, 2, 2, .u8, .rw, true, 255, .pdoType, false⟩,
  ⟨0x1800, 1, 8, 3, 3, .u16, .rw, true, 0, .any, false⟩,
  ⟨0x1800, 1, 8, 5, 5, .u16, .rw, true, 0, .any, false⟩,
  ⟨0x1a00, 1, 8, 0, 0, .u8, .rw, true, 0, .range 0 64, false⟩,
  ⟨0x1a00, 1, 8, 1, 64, .u32, .rw, true, 0, .any, false⟩,
  ⟨0x2701, 0, 1, 1, 1, .u8, .rwx, true, 0, .range 1 127, false⟩,
  ⟨0x2701, 0, 1, 2, 2, .u8, .rw, true, 3, .range 0 3, false⟩,
  ⟨0x2701, 0, 1, 3, 3, .u8, .rw, true, 4, .range 0 5, false⟩,
  ⟨0x2701, 0, 1, 4, 4, .u16, .rw, true, 800, .range 500 900, false⟩,
  ⟨0x2701, 0, 1, 5, 5, .u16, .rw, true, 750, .range 500 900, false⟩,
  ⟨0x2701, 0, 1, 6, 6, .bool, .rw, true, 1, .any, false⟩,
  ⟨0x2701, 0, 1, 7, 7, .bool, .rw, true, 0, .any, false⟩,
  ⟨0x2701, 0, 1, 8, 8, .u8, .ro, false, 0, .any, false⟩,
  ⟨0x2701, 0, 1, 9, 9, .u8, .ro, false, 127, .any, false⟩]

/-- Rows of the object table of 17_management_buses.md (R485). -/
def rows17b : List Row := [
  ⟨0x2702, 0, 1, 1, 1, .u8, .ro, false, 0, .any, false⟩,
  ⟨0x2702, 0, 1, 2, 2, .u8, .ro, false, 0, .any, false⟩,
  ⟨0x2702, 0, 1, 3, 3, .u32, .ro, false, 0, .any, true⟩,
  ⟨0x2702, 0, 1, 4, 4, .u32, .ro, false, 0, .any, true⟩,
  ⟨0x2702, 0, 1, 5, 5, .u32, .ro, false, 0, .any, true⟩,
  ⟨0x2702, 0, 1, 6, 6, .u32, .ro, false, 0, .any, true⟩,
  ⟨0x2710, 0, 1, 1, 1, .u8, .rw, true, 0, .any, false⟩,
  ⟨0x2710, 0, 1, 2, 2, .u8, .rw, true, 0, .any, false⟩,
  ⟨0x2710, 0, 1, 3, 3, .u8, .rw, true, 0, .range 0 1, false⟩,
  ⟨0x2710, 0, 1, 4, 4, .u16, .rw, true, 100, .range 1 10000, false⟩,
  ⟨0x2710, 0, 1, 5, 5, .u16, .rw, true, 100, .range 1 60000, false⟩,
  ⟨0x2710, 0, 1, 6, 6, .u8, .ro, false, 0, .any, false⟩,
  ⟨0x2711, 0, 1, 1, 1, .u32, .rw, false, 0, .mask 0x8000003F, false⟩,
  ⟨0x2711, 0, 1, 2, 2, .u32, .rw, true, 2147483711, .mask 0x8000003F, false⟩,
  ⟨0x2711, 0, 1, 3, 3, .u32, .rw, true, 6, .mask 0x8000003F, false⟩,
  ⟨0x2712, 0, 1, 1, 1, .u32, .ro, false, 0, .any, true⟩,
  ⟨0x2712, 0, 1, 2, 2, .u32, .ro, false, 0, .any, true⟩,
  ⟨0x2712, 0, 1, 3, 3, .u32, .ro, false, 0, .any, true⟩,
  ⟨0x2712, 0, 1, 4, 4, .u32, .ro, false, 0, .any, true⟩,
  ⟨0x2712, 0, 1, 5, 5, .u32, .ro, false, 0, .any, true⟩,
  ⟨0x2712, 0, 1, 6, 6, .u32, .ro, false, 0, .any, true⟩,
  ⟨0x2712, 0, 1, 7, 7, .u32, .ro, false, 0, .any, true⟩]

/-- Rows of the object table of 18_custody_and_firmware.md (R514). -/
def rows18a : List Row := [
  ⟨0x2110, 0, 1, 1, 1, .octets, .wo, false, 0, .any, false⟩,
  ⟨0x2110, 0, 1, 2, 2, .octets, .wo, false, 0, .any, false⟩,
  ⟨0x2110, 0, 1, 3, 3, .octets, .wo, false, 0, .any, false⟩,
  ⟨0x2118, 0, 1, 1, 1, .octets, .wo, false, 0, .any, false⟩,
  ⟨0x2118, 0, 1, 2, 2, .octets, .wo, false, 0, .any, false⟩,
  ⟨0x2118, 0, 1, 3, 3, .octets, .wo, false, 0, .any, false⟩,
  ⟨0x2120, 0, 1, 0, 0, .octets, .rwc, false, 0, .any, false⟩,
  ⟨0x2121, 0, 1, 0, 0, .octets, .rwc, false, 0, .any, false⟩,
  ⟨0x2122, 0, 1, 0, 0, .u32, .rwc, false, 259200, .range 3600 2592000, false⟩,
  ⟨0x2123, 0, 1, 0, 0, .bool, .rwc, false, 0, .any, false⟩,
  ⟨0x2140, 0, 1, 1, 1, .u8, .ro, false, 0, .any, false⟩,
  ⟨0x2140, 0, 1, 2, 2, .u8, .wo, false, 0, .any, false⟩,
  ⟨0x2140, 0, 1, 3, 3, .u8, .ro, false, 0, .any, false⟩,
  ⟨0x2140, 0, 1, 4, 4, .u32, .rw, true, 600, .range 10 86400, false⟩,
  ⟨0x2140, 0, 1, 5, 5, .u32, .ro, false, 0, .any, false⟩,
  ⟨0x2141, 0, 1, 1, 2, .u8, .ro, false, 0, .any, false⟩,
  ⟨0x2141, 0, 1, 3, 4, .u32, .ro, false, 0, .any, false⟩,
  ⟨0x2141, 0, 1, 5, 6, .u32, .ro, false, 0, .any, false⟩,
  ⟨0x2142, 0, 1, 0, 0, .u32, .rwc, false, 0, .any, false⟩,
  ⟨0x2143, 0, 1, 0, 0, .u8, .rwc, false, 255, .range 0 1, false⟩,
  ⟨0x2160, 0, 1, 0, 0, .octets, .wo, false, 0, .any, false⟩,
  ⟨0x2161, 0, 1, 0, 0, .octets, .ro, false, 0, .any, false⟩,
  ⟨0x2162, 0, 1, 0, 0, .octets, .const, false, 0, .any, false⟩,
  ⟨0x2163, 0, 1, 0, 0, .octets, .const, false, 0, .any, false⟩]

/-- Rows of the object table of 18_custody_and_firmware.md (R514). -/
def rows18b : List Row := [
  ⟨0x2164, 0, 1, 0, 0, .u32, .ro, false, 1048576, .any, false⟩,
  ⟨0x5080, 0, 1, 1, 1, .octets, .ro, false, 0, .any, false⟩,
  ⟨0x5080, 0, 1, 2, 2, .u32, .ro, false, 0, .any, false⟩,
  ⟨0x5080, 0, 1, 3, 3, .u8, .ro, false, 0, .any, false⟩,
  ⟨0x5080, 0, 1, 4, 4, .octets, .ro, false, 0, .any, false⟩,
  ⟨0x5080, 0, 1, 5, 5, .u32, .ro, false, 0, .any, false⟩,
  ⟨0x5080, 0, 1, 6, 6, .octets, .ro, false, 0, .any, false⟩,
  ⟨0x5080, 0, 1, 7, 7, .u32, .ro, false, 0, .any, false⟩,
  ⟨0x5080, 0, 1, 8, 8, .u32, .ro, false, 0, .any, true⟩,
  ⟨0x5080, 0, 1, 9, 9, .u32, .ro, false, 0, .any, true⟩,
  ⟨0x5080, 0, 1, 10, 10, .u32, .ro, false, 0, .any, true⟩,
  ⟨0x5080, 0, 1, 11, 11, .u32, .ro, false, 0, .any, true⟩,
  ⟨0x6060, 0, 1, 0, 0, .table, .wo, false, 0, .any, false⟩]

/-- Rows of the object table of 19_power_clocks_reset.md (R537). -/
def rows19a : List Row := [
  ⟨0x2201, 0, 1, 1, 1, .u8, .ro, false, 1, .any, false⟩,
  ⟨0x2201, 0, 1, 2, 2, .u8, .wo, false, 0, .any, false⟩,
  ⟨0x2201, 0, 1, 3, 3, .u8, .ro, false, 0, .any, false⟩,
  ⟨0x2201, 0, 1, 4, 4, .u32, .rw, true, 10000, .range 100 600000, false⟩,
  ⟨0x2201, 0, 1, 5, 5, .u8, .rw, true, 15, .mask 15, false⟩,
  ⟨0x2201, 0, 1, 6, 6, .u8, .ro, false, 0, .any, false⟩,
  ⟨0x2202, 0, 1, 1, 1, .u8, .ro, false, 0, .any, false⟩,
  ⟨0x2202, 0, 1, 2, 2, .u8, .ro, false, 0, .any, false⟩,
  ⟨0x2202, 0, 1, 3, 3, .u32, .ro, false, 0, .any, true⟩,
  ⟨0x2202, 0, 1, 4, 4, .u32, .ro, false, 0, .any, true⟩,
  ⟨0x2202, 0, 1, 5, 5, .u32, .ro, false, 0, .any, true⟩,
  ⟨0x2202, 0, 1, 6, 6, .u32, .wo, false, 0, .any, false⟩,
  ⟨0x2203, 0, 1, 1, 11, .u16, .ro, false, 0, .any, false⟩,
  ⟨0x2203, 0, 1, 12, 12, .u16, .ro, false, 0, .any, false⟩,
  ⟨0x2204, 0, 1, 0, 0, .u16, .ro, false, 0, .any, false⟩,
  ⟨0x2205, 0, 1, 1, 1, .u32, .ro, false, 0, .any, true⟩,
  ⟨0x2205, 0, 1, 2, 2, .u32, .ro, false, 0, .any, true⟩]

/-- Rows of the object table of 20_electrical_and_thermal.md (R549). -/
def rows20a : List Row := [
  ⟨0x2230, 0, 1, 1, 1, .i16, .ro, false, 0, .any, false⟩,
  ⟨0x2230, 0, 1, 2, 2, .i16, .ro, false, 0, .any, false⟩,
  ⟨0x2230, 0, 1, 3, 3, .i16, .ro, false, 0, .any, false⟩,
  ⟨0x2230, 0, 1, 4, 4, .u8, .ro, false, 0, .any, false⟩,
  ⟨0x2230, 0, 1, 5, 5, .u8, .ro, false, 0, .any, false⟩,
  ⟨0x2230, 0, 1, 6, 6, .u32, .ro, false, 1000000, .any, false⟩,
  ⟨0x2231, 0, 1, 1, 1, .u32, .ro, false, 0, .any, true⟩,
  ⟨0x2231, 0, 1, 2, 2, .u32, .ro, false, 0, .any, true⟩,
  ⟨0x2231, 0, 1, 3, 3, .u32, .ro, false, 0, .any, true⟩,
  ⟨0x2231, 0, 1, 4, 4, .u32, .ro, false, 0, .any, true⟩,
  ⟨0x2231, 0, 1, 5, 5, .u32, .ro, false, 0, .any, true⟩]

/-- Rows of the object table of 21_package_and_balls.md (R566). -/
def rows21a : List Row := [
  ⟨0x2020, 0, 1, 0, 0, .u8, .rw, true, 0, .mask 15, false⟩,
  ⟨0x2021, 0, 1, 1, 4, .u8, .ro, false, 0, .any, false⟩,
  ⟨0x2021, 0, 1, 5, 8, .u8, .ro, false, 0, .any, false⟩,
  ⟨0x2021, 0, 1, 9, 12, .u8, .ro, false, 1, .any, false⟩,
  ⟨0x2021, 0, 1, 13, 16, .u8, .ro, false, 0, .any, false⟩]

/-- Rows of the object table of 22_boundary_scan_and_test.md (R577). -/
def rows22a : List Row := [
  ⟨0x5100, 0, 1, 1, 1, .u64, .rw, false, 0, .mult 0 17179869184 2097152, false⟩,
  ⟨0x5100, 0, 1, 2, 2, .u64, .rw, false, 0, .mult 2097152 17179869184 2097152, false⟩,
  ⟨0x5100, 0, 1, 3, 3, .u8, .rw, false, 0, .range 0 2, false⟩,
  ⟨0x5100, 0, 1, 4, 4, .u8, .wo, false, 0, .any, false⟩,
  ⟨0x5100, 0, 1, 5, 5, .u8, .ro, false, 0, .any, false⟩,
  ⟨0x5100, 0, 1, 6, 6, .u32, .ro, false, 0, .any, false⟩,
  ⟨0x5100, 0, 1, 7, 7, .u64, .ro, false, 0, .any, false⟩,
  ⟨0x5101, 0, 1, 1, 2, .u8, .rw, false, 0, .range 0 3, false⟩,
  ⟨0x5101, 0, 1, 3, 4, .u32, .ro, false, 0, .any, false⟩]

/-- Rows of the object table of 23_faults_and_service.md (R591). -/
def rows23a : List Row := [
  ⟨0x3301, 1024, 4, 0, 0, .bool, .rw, false, 0, .any, false⟩,
  ⟨0x3302, 1024, 4, 1, 1, .u32, .ro, false, 0, .any, true⟩,
  ⟨0x3302, 1024, 4, 2, 2, .u32, .ro, false, 0, .any, true⟩,
  ⟨0x5000, 0, 1, 0, 0, .u8, .wo, false, 0, .any, false⟩,
  ⟨0x5001, 0, 1, 1, 1, .u32, .ro, false, 0, .any, false⟩,
  ⟨0x5001, 0, 1, 2, 2, .u32, .ro, false, 1, .any, false⟩,
  ⟨0x5001, 0, 1, 3, 3, .u32, .rw, false, 0, .any, false⟩,
  ⟨0x5001, 0, 1, 4, 4, .octets, .ro, false, 0, .any, false⟩,
  ⟨0x5001, 0, 1, 5, 5, .u8, .wo, false, 0, .any, false⟩,
  ⟨0x5001, 0, 1, 6, 6, .u32, .ro, false, 0, .any, true⟩,
  ⟨0x5010, 0, 1, 1, 1, .bool, .rw, true, 1, .any, false⟩,
  ⟨0x5010, 0, 1, 2, 2, .u8, .wo, false, 0, .any, false⟩,
  ⟨0x5010, 0, 1, 3, 3, .u8, .ro, false, 32, .any, false⟩,
  ⟨0x5010, 0, 1, 4, 4, .u8, .ro, false, 0, .any, false⟩,
  ⟨0x5010, 0, 1, 5, 5, .u8, .ro, false, 0, .any, false⟩,
  ⟨0x5010, 0, 1, 6, 6, .u16, .ro, false, 0, .any, false⟩]

/-- The rows by thousand of the index, so that a look-up reads few of them. -/
def objectRows : List Row :=
  rows01a ++ rows02a ++ rows02b ++ rows02c ++ rows03a ++ rows03b ++ rows03c ++ rows04a ++ rows04b ++ rows05a ++ rows05b ++ rows06a ++ rows06b ++ rows07a ++ rows07b ++ rows08a ++ rows08b ++ rows09a ++ rows09b ++ rows09c ++ rows10a ++ rows10b ++ rows11a ++ rows11b ++ rows12a ++ rows13a ++ rows14a ++ rows14b ++ rows15a ++ rows15b ++ rows16a ++ rows17a ++ rows17b ++ rows18a ++ rows18b ++ rows19a ++ rows20a ++ rows21a ++ rows22a ++ rows23a

end Sys2Proof.Machine
end

