-- ==== Sys2Proof/Machine/Parts/Head.lean ====
section
/-! DEFINITION. State of one head: pattern and triggers, video front end, correction lane, stitching engine and
illumination. Instants inside a line are kept in fine units of 1/1,232 tick, in which the tick, the 488.28125 ps fine
phase, the pixel period of every rate and the bounds of R13 are whole numbers. -/
namespace Sys2Proof.Machine

/-- The states of a function (R39); `isolated` is for heads only. -/
inductive FnState where
  | stopped | starting | running | stopping | faulted | isolated
  deriving DecidableEq, Repr

/-- The mark that a pixel carries from the converter onwards (R141). -/
inductive Mark where
  | none | high | low
  deriving DecidableEq, Repr

/-- A value of the lane with its mark. -/
structure Px where
  v : Int
  mark : Mark
  deriving DecidableEq, Repr

/-- A correction set: its pixel table and its segment table (R144). -/
structure CorrSet where
  pixels : List Byte
  segments : List Byte
  deriving DecidableEq, Repr

/-- One accepted line, with what was in force at its line boundary (R76): sequence, T_E, whether it is an idle line,
its flags so far, the applied exposure, T_X and its window in fine units, the position at T_E and
whether its packer still waits for it (R89), the epoch, the waveband (255: none), whether it is blanked, its gain codes,
the offset DAC and converter-B coefficients (offset, gain, skew) that its window opened with (R103, R105), whether it is the range-change line, the correction set and geometry bound to it, and its scan offsets.
`no` numbers the lines of the head in the order of their boundaries, and `approach` tells an approach line (R247); `common` is the instant that every pier gives a line of source 4 (R87,
R89); `owedIn` are the flags that the line carries for lines before it (R11, R119). -/
structure Line where
  no : Nat
  seq : Nat
  tE : Time
  common : Option Time
  owedIn : Nat
  idle : Bool
  approach : Bool
  flags : Nat
  exposure : Nat
  tX : Nat
  wOpen : Nat
  wEnd : Nat
  exposed : Bool
  position : Int
  waitsPosition : Bool
  epoch : Nat
  waveband : Nat
  blanked : Bool
  gains : List Nat
  coeffs : Option (List (Int × Int × Int × Int))
  rangeChange : Bool
  calKind : Nat
  set : CorrSet
  geometry : List Byte
  offsets : List Int
  deriving DecidableEq, Repr

/-- A black-clamped line in the head-to-PIX queue: its active pixels by segment (R10). -/
structure QueuedLine where
  line : Line
  segments : List (List Px)
  deriving DecidableEq, Repr

/-- A broadcast crossing or idle instant that a head has still to fire (R87, R242): the index k (none: an idle line), the
instant, flags that the line carries, and for an approach line the index whose position it is taken at (R247). -/
structure Owed where
  k : Option Nat
  at_ : Time
  flags : Nat
  line : Option Int
  deriving DecidableEq, Repr

/-- One edge of the pattern outputs that a line has timed: the number of the line, its instant in fine units, the outputs it drives and
their levels (R68, R71). -/
structure Edge where
  line : Nat
  at_ : Nat
  mask : Nat
  level : Nat
  deriving DecidableEq, Repr

/-- Pattern generator and triggers of a head. `startVia` are the requesters that a start in progress answers; `edges` are the table-driven
edges timed and not yet past, and `levels` the levels of the outputs before them (nothing: high impedance, R66); `lastTrigger` is when the
last accepted trigger arrived (R14, R90); `nextIndex` is the index after that of the last line made, `crossIndex` that after the last
crossing seen (R85, R252); `steps` and `period` are the exposure, in fine steps, and the trigger period in force (R76); `recent` are the
values, by key, that settings had before the writes of the HD cycle of `recentAt`; `lineCount` numbers the lines; `late` is the lowest
index of a broadcast that arrived late and has not been made again (R87, R252). -/
structure Head where
  state : FnState
  everRun : Bool
  startVia : List Via
  startDeadline : Time
  stateSince : Time
  lines : List Line
  edges : List Edge
  queue : List QueuedLine
  lastTrigger : Option Time
  nextDue : Option Time
  nextIndex : Nat
  crossIndex : Nat
  nextSeq : Nat
  lineCount : Nat
  late : Option Nat
  steps : Nat
  period : Nat
  recent : Map Nat
  recentAt : Option Time
  levels : Option Nat
  acceptedRun : Nat
  firstDone : Bool
  gapRaised : Bool
  owedFlags : Nat
  owed : List Owed
  lastWindowEnd : Option Nat
  syncUntil : Time
  outputsIdle : Bool
  isolateVia : List Via
  lockedOnce : Bool
  afterIdle : Bool
  held : Bool
  deriving DecidableEq, Repr

/-- The estimates that one input gathers in a calibration window (R107): lines that contributed by kind, and the sums
of the corrected codes over the contributing slots. -/
structure IlvSums where
  lines0 : Nat
  lines1 : Nat
  linesR : Nat
  n0 : Nat
  a0 : Int
  b0 : Int
  n1 : Nat
  a1 : Int
  b1 : Int
  nR : Nat
  dR : Int
  deriving DecidableEq, Repr

/-- Interleave correction and pedestal loop of one input: the accumulators with 8 fractional bits (R108), the status
(R111), the counts of consecutive windows inside and outside the thresholds (R112), the sums of the present window, the
optical-black sum of the pedestal loop (R103), and the raw codes of the last three pixels read, the last one first (R109). -/
structure VideoInput where
  gain : Nat
  offsetAcc : Int
  gainAcc : Int
  skewAcc : Int
  status : Nat
  inside : Nat
  outside : Nat
  sums : IlvSums
  obSum : Int
  obCount : Nat
  dacPending : Int
  tail : List Nat
  deriving DecidableEq, Repr

/-- Video front end of a head. `freezeNext` is a freeze or unfreeze that takes force at the next window start (R114); `tailEnd` is when the
last window read ended, in fine units. -/
structure VideoState where
  inputs : Vector VideoInput 16
  tailEnd : Option Nat
  frozen : Bool
  freezeNext : Option Bool
  kind : Nat
  pedestalLines : Nat
  linesSince : Nat
  converged : Bool
  timeoutRaised : Bool
  deriving DecidableEq, Repr

/-- What waits in the correction slot of a head (R151). -/
inductive Armed where
  | range (codes : List Nat) (set : Nat)
  | swap
  deriving DecidableEq, Repr

/-- A reference-strip calibration in progress (R155): its phase (0 none, 1 dark settle, 2 dark, 3 white settle, 4 white,
5 grey settle, 6 grey, 7 deriving), the line counts latched, the lines done in the phase, the per-pixel sums and sample
counts of the three means, and the sum and range of T. -/
structure Calibration where
  phase : Nat
  settle : Nat
  dark : Nat
  white : Nat
  grey : Nat
  done : Nat
  darkSum : List (Int × Nat)
  whiteSum : List (Int × Nat)
  greySum : List (Int × Nat)
  tSum : Int
  tMin : Int
  tMax : Int
  tSeen : Bool
  deriving DecidableEq, Repr

/-- The black clamp of one segment (R129, R130): the clamp state C in 1/256 code once it has been set, and whether the next
line with usable optical-black pixels sets it anew. -/
structure ClampState where
  c : Option Int
  fresh : Bool
  deriving DecidableEq, Repr

/-- Correction lane of a head: `lastTemp` is the last valid bar temperature and its arrival, `stoppedTemp` when the last one arrived while
the head was stopped, `fellBack` says that the fallback has been told and not its end (R134); `armedRank`, `armedAt` and `armedCounted`
serve the preference of R151 among armings of one HD cycle, and `armedOld` is what the slot held before those (R76). -/
structure Corr where
  clamp : Vector ClampState 16
  lastTemp : Option (Int × Time)
  stoppedTemp : Option Time
  fellBack : Bool
  armed : Option Armed
  armedRank : Nat
  armedAt : Option Time
  armedOld : Option Armed
  armedCounted : Bool
  cal : Calibration
  autoOwed : Bool
  prepare : Option (Nat × List Nat × Via)
  deriving DecidableEq, Repr

/-- One history line of a delayed segment (R176, R177): its coordinate, its flags, its place among the 256 of the segment in the delay
region, which holds the values of its bins, and their marks. -/
structure HistoryLine where
  z : Int
  flags : Nat
  slot : Nat
  marks : List Mark
  deriving DecidableEq, Repr

/-- What the midpoint term needs of a line that came before another (R177, R249): its number, its position and T_E, and whether the
position of the common instant is still awaited (R89). -/
structure PrevLine where
  no : Nat
  position : Int
  tE : Time
  common : Option Time
  waits : Bool
  deriving DecidableEq, Repr

/-- A stitching calibration in progress (R190): its phase (0 none, 1 marks, 2 edge, 3 deriving), the lines done, the bin
sums by segment, and the segment means by line of the edge phase with their coordinates. -/
structure StitchCal where
  phase : Nat
  lines : Nat
  done : Nat
  sums : List (List Int)
  edge : List (Int × List Int)
  deriving DecidableEq, Repr

/-- Stitching engine of a head: `history` holds the history lines by segment, the newest last; `armedRank`, `armedAt` and `armedCounted`
serve the preference of R186, `armedOld` says whether one was armed before those of that HD cycle (R76); `prevs` are the lines that a line still to come may follow (R177). -/
structure Stitch where
  offsets : List Int
  history : List (List HistoryLine)
  armed : Bool
  armedRank : Nat
  armedAt : Option Time
  armedOld : Bool
  armedCounted : Bool
  prevs : List PrevLine
  cal : StitchCal
  cleanSeen : Bool
  deriving DecidableEq, Repr

/-- Illumination of a head (R289 to R312): the next entry of the waveband sequence, `lit` the entries of the last 128 kept lines by line
index, newest first (R244), a restart owed in boundaries, the blank set by task, the boost's state and measurements, D and B (in µs) in force and staged, the
validity of the lamp-board temperature, overdrive by row with its accumulators E (in µs) and their instant, lamps found
open, pins found shorted, and the external select mask latched and in flight, with whether it missed
its boundary. -/
structure Illum where
  index : Nat
  lit : List (Int × Nat)
  restartIn : Option Nat
  blankByTask : Bool
  boostOff : Bool
  pulses : Nat
  headroom : Option Int
  columnMax : Vector (Option Nat) 4
  rowPulses : Vector Nat 4
  rowMeasured : Vector Bool 4
  derateNext : Nat
  budget : Frac
  budgetNext : Frac
  boardValid : Bool
  heard : Bool
  withdrawn : Vector Bool 4
  accum : Vector Frac 4
  accumAt : Time
  openLamps : List Nat
  latchedMask : Nat
  frameMask : Nat
  frameDue : Option Time
  frameLate : Bool
  deriving DecidableEq, Repr

end Sys2Proof.Machine
end

