-- ==== Sys2Proof/Machine/Parts/Auxiliary.lean ====
section
/-! DEFINITION. State of the auxiliary channels, the sequencer, the filters, the data FIFO and the echo outputs (R314 to R357). -/
namespace Sys2Proof.Machine

/-- The clamp of a channel (R321): released, engaged, or recovering for 20 µs; the code it forces is 0x7FFF when true. -/
inductive ClampPhase where
  | released
  | engaged (high : Bool)
  | recovering (high : Bool)
  deriving DecidableEq, Repr

/-- One channel. `overload` and `broken` are status bits 5 and 2 in force; `gainWaits` says that a gain write has not taken force, and
`gainAt` when the last one did on a continuous channel; `t0` and `windows` are the filter's t_0 and the boundaries passed; `samples`
its admitted samples with their instants; `fresh` says that a result has been published since the sequencer started. -/
structure AuxChannel where
  overload : Bool
  broken : Bool
  clamp : ClampPhase
  gainWaits : Bool
  gainAt : Option Time
  t0 : Time
  windows : Nat
  samples : List (Time × Int)
  fresh : Bool
  deriving DecidableEq, Repr

/-- A lane of the sequencer (R340 to R344). `entry` is the entry in its list and `repeats` the executions of it still to begin; `active`
says that an execution is in progress, with the conversions still to discard, the samples still to take, and phase a of a pair;
`inPass` that a pass is in progress; `readyAt` is when the next execution, or the next pass without a period, may begin; `nextPass` is
the next multiple of the period; `late` that this start already waits; `passes` the passes done. -/
structure Lane where
  entry : Nat
  repeats : Nat
  active : Bool
  discard : Nat
  samples : Nat
  pairA : Option (Int × Time)
  inPass : Bool
  readyAt : Time
  nextPass : Time
  late : Bool
  passes : Nat
  deriving DecidableEq, Repr

/-- One echo output: the 8 fractional bits carried by its half periods (R331), and when the period that it drives ends (R564). -/
structure Echo where
  fraction : Nat
  busyUntil : Option Time
  deriving DecidableEq, Repr

/-- The auxiliary block. `startVia` are the requesters of a start in progress; `excOff` says that the excitation-off task holds the
excitation off; `refOn` that the reference buffer is on, `refReady` that it has settled; `reversed` is the chop phase, `chopAt` its
last reversal and `pulseAt` the last continuous test pulse; the FIFO holds words of 16 bytes, and `lost` says that words were lost
since the last one written (R351). -/
structure Aux where
  state : FnState
  startVia : List Via
  excOff : Bool
  refOn : Bool
  refReady : Bool
  reversed : Bool
  chopAt : Option Time
  pulseAt : Option Time
  channels : Vector AuxChannel 16
  lanes : Vector Lane 2
  fifo : List (List Byte)
  lost : Bool
  echoes : Vector Echo 4
  deriving DecidableEq, Repr

end Sys2Proof.Machine
end

