-- ==== Sys2Proof/Machine/Parts/Capture.lean ====
section
/-! DEFINITION. State of the capture buffer (R200 to R229). -/
namespace Sys2Proof.Machine

/-- A line record in a partition: its sequence, T_E, where its slot (R204) lies in the buffer, piece by piece, whether it is kept or only a
candidate (R213), whether its delivery has begun, and the flags that it carries for lines before it (R11, R119). An acknowledged record has
left. -/
structure Record where
  seq : Nat
  tE : Time
  place : List (Nat × Nat)
  kept : Bool
  begun : Bool
  owedIn : Nat
  deriving DecidableEq, Repr

/-- A marker that has still to be delivered (R212): kind, count, first and last sequence, time, and whether its delivery has
begun. -/
structure Marker where
  kind : Nat
  count : Nat
  first : Nat
  last : Nat
  time : Time
  begun : Bool
  deriving DecidableEq, Repr

/-- What a stream delivers next: a record or a marker. -/
inductive Item where
  | record (r : Record)
  | marker (m : Marker)
  deriving DecidableEq, Repr

/-- A head's partition: its size in bytes, its records and markers in order, the flags that its next kept record carries (R119, R207, R219),
and the burst window of the head: its trigger line L, the lines kept, whether it is settled, the first sequence a
pre-window may reach (R216; nothing before the first line after head start), where the next slot begins, and the retired blocks it skips
since its head started (R589). `seen` are sequence and T_E of the lines since the head's start in windowed capture, the newest first (R215), and
`late` the lines dropped under R11 behind lines that still wait in the queue: number, sequence, T_E. -/
structure Partition where
  size : Nat
  items : List Item
  owes : Nat
  trigger : Option Nat
  windowKept : Nat
  windowDone : Bool
  floor : Option Nat
  next : Nat
  skip : List Nat
  seen : List (Nat × Time)
  late : List (Nat × Nat × Time)
  deriving DecidableEq, Repr

/-- A slot of the readout region: the span it came on, the pier of origin, where it lies in the buffer. -/
structure RingSlot where
  span : Nat
  pier : Nat
  place : List (Nat × Nat)
  deriving DecidableEq, Repr

/-- A slot that found the readout region full: it waits, unacknowledged, in the partition of the pier that made it (R222). -/
structure RingWait where
  span : Nat
  pier : Nat
  bytes : List Byte
  deriving DecidableEq, Repr

/-- The capture buffer. `state` is `capture.state`; `burstB` is B of the burst in progress; `readout` holds the slots of the
readout region with the pier that sent each, oldest first, and `waiting` those that found it full (R222); `retired` are the
2 MiB blocks taken out of the capture region (R589). -/
structure Capture where
  state : Nat
  burstB : Time
  partitions : Vector Partition 4
  readout : List RingSlot
  waiting : List RingWait
  readoutFull : Bool
  retired : List Nat
  deriving DecidableEq, Repr

/-- The in-package buffer by byte address as the DMA engine sees it (R200): the bytes that differ from what an unlisted address reads as,
addresses strictly rising, and the ranges whose contents a self-test has destroyed (R575), newest first: start, length, and the place
of their open bytes. -/
structure Buffer where
  cells : Map Byte
  wiped : List (Nat × Nat × Nat)
  deriving DecidableEq, Repr

end Sys2Proof.Machine
end

