-- ==== Sys2Proof/Machine/Parts/Control.lean ====
section
/-! DEFINITION. State of the dictionary's longer operations: TABLE downloads and saves in progress (R30, R31, R34). -/
namespace Sys2Proof.Machine

/-- What a transfer moves: the new contents of a TABLE (R30), the value of a write, the value that a read found. -/
inductive TransferKind where
  | table | write | read
  deriving DecidableEq, Repr

/-- A segmented or block transfer in progress (R30, R31): its route, the sub-index of the object, what it moves, the size that it stated,
the bytes so far (of a read: those still to be sent), the pieces of the table region that hold a TABLE's so far (R200), when its last segment
came. -/
structure Transfer where
  route : Route
  index : Nat
  sub : Nat
  kind : TransferKind
  size : Option Nat
  bytes : List Byte
  place : List (Nat × Nat)
  lastAt : Time
  deriving DecidableEq, Repr

/-- A save in progress (R34): its route, and by group of 02 to 04 the values in force when its signature was accepted. -/
structure SaveRun where
  route : Route
  sets : Vector (Option SavedSet) 3
  deriving DecidableEq, Repr

/-- A write that the arbiter has executed: its instant, the place of its requester in the order of R26 (BAR0 stands before them all, R29),
the key of the sub-index, and what an earlier place of that order reads. -/
structure ArbWrite where
  at_ : Time
  place : Nat
  key : Nat
  old : Nat
  deriving DecidableEq, Repr

/-- Transfers and the save in progress, and the writes that the arbiter has executed in the present CTL cycle (R26). -/
structure Control where
  transfers : List Transfer
  save : Option SaveRun
  writes : List ArbWrite
  deriving DecidableEq, Repr

end Sys2Proof.Machine
end

