-- ==== Sys2Proof/Machine/Parts/Custody.lean ====
section
/-! DEFINITION. State of custody, firmware and attestation (R487 to R515). -/
namespace Sys2Proof.Machine

/-- A record that is being written to a propose object (R492): its bytes by offset, when the write at offset 0 came, the route of
the write that waits for its answer (nothing over SMBus, where each part is answered). -/
structure Draft where
  bytes : Map Byte
  startedAt : Time
  route : Option Route
  deriving DecidableEq, Repr

/-- A pending ordinary proposal (R494): the record, whether the board proposed it, when its window ends. -/
structure Proposal where
  record : List Byte
  board : Bool
  ends : Time
  deriving DecidableEq, Repr

/-- A pending recovery (R501, R502): the record, whether the board proposed it, the ticks of the delay that were left at an instant, and
those last saved to the nonvolatile store. -/
structure Recovery where
  record : List Byte
  board : Bool
  left : Nat
  since : Time
  saved : Nat
  deriving DecidableEq, Repr

/-- A commit between its steps 2 and 4 (R497): the record whose journal entry is written, whether it is a recovery, and the route of the
verdict (nothing for a recovery whose delay has passed). -/
structure Commit where
  record : List Byte
  recovery : Bool
  route : Option Route
  deriving DecidableEq, Repr

/-- Custody. A key that is not set reads 97 zero bytes. -/
structure Custody where
  hostKey : List Byte
  boardKey : List Byte
  nonce : List Byte
  generation : Nat
  hostDraft : Option Draft
  boardDraft : Option Draft
  pending : Option Proposal
  recovery : Option Recovery
  commit : Option Commit
  deriving DecidableEq, Repr

/-- A firmware slot (R505): its image, its state, and whether its contents pass R504 but for the security floor: an image that was written and
verified, or that of manufacture. -/
structure FwSlot where
  image : List Byte
  state : Nat
  genuine : Bool
  deriving DecidableEq, Repr

/-- Firmware (R503 to R510). `stage` are the pieces of the table region that hold the staged image, and `status` what `fw.stage_status` reads; `writing` says that the staged image is
being written to the other slot; `trialEnds` is when the trial of the running slot ends; `recovery` says that the pier is in recovery
mode (R508). -/
structure Firmware where
  slots : Vector FwSlot 2
  running : Fin 2
  stage : List (Nat × Nat)
  status : Nat
  writing : Bool
  trialEnds : Option Time
  recovery : Bool
  deriving DecidableEq, Repr

/-- Attestation (R511, R512): the report last signed and the number of the next LMS leaf. -/
structure Attest where
  report : List Byte
  leaf : Nat
  deriving DecidableEq, Repr

end Sys2Proof.Machine
end

