-- ==== Sys2Proof/Machine/Parts/Dma.lean ====
section
/-! DEFINITION. State of the DMA engine beside the register sets, which are dictionary objects (R381 to R403). -/
namespace Sys2Proof.Machine

/-- One channel. `i2`, `i1` and `off` are the loops of R386 at the next unissued beat; `stopped` says that no shadow is taken until the
next go (R389); `admitted` that a unit is admitted at PACE 2 or 3 (R394); `open_` is the hysteresis of PACE 1 (R395); `fetching`
says that a linked descriptor is on its way (R388); `fence` that a proof is asked for, with the tag it covers, `ending` that the end of
the descriptor waits for it (R398); `passed` that a channel of higher rank took the datapath in its descriptor (R393); `host` is the abutment whose host the descriptor
addresses (R382, R384); `lastTag` is the tag of the last descriptor that wrote. A stream channel (R396) is claimed, has
`sent` slots delivered and not released, `issued` bytes of the next one, and holds while its path changes (R416). -/
structure DmaChannel where
  i2 : Nat
  i1 : Nat
  off : Nat
  begun : Bool
  stopped : Bool
  admitted : Bool
  open_ : Bool
  fetching : Bool
  fence : Bool
  fenceTag : Nat
  ending : Bool
  lastTag : Nat
  stream : Bool
  sent : Nat
  issued : Nat
  hold : Bool
  passed : Bool
  host : Option Nat
  deriving DecidableEq, Repr

/-- The engine: its channels, and by PRIO the channel that last finished (R393). -/
structure Dma where
  channels : Vector DmaChannel 32
  lastDone : Vector Nat 4
  deriving DecidableEq, Repr

end Sys2Proof.Machine
end

