-- ==== Sys2Proof/Machine/Parts/Fabric.lean ====
section
/-! DEFINITION. State of the event fabric and of the fault log. -/
namespace Sys2Proof.Machine

/-- An open storm window of a source: when it opened and how many events it has seen (R368). -/
structure StormWin where
  opened : Time
  count : Nat
  deriving DecidableEq, Repr

/-- A set catch latch: the stamp of the event that set it, and whether a later event merged into it (R359, R360). -/
structure Latch where
  stamp : Time
  merged : Bool
  deriving DecidableEq, Repr

/-- A timer and counter unit (R372, R373): whether it runs or is armed, the instant at which it fires, and the
values of period, limit and alarm that its last A task took. -/
structure TimerUnit where
  running : Bool
  endAt : Time
  period : Nat
  limit : Nat
  alarm : Time
  count : Nat
  deriving DecidableEq, Repr

/-- The event fabric (R358 to R380). `queue` holds the events raised in the present command that have not yet been
routed, oldest first; it is empty between commands. `changes` holds, by task, when its select was last written and the source it then
left (R365). -/
structure Fabric where
  queue : List Nat
  windows : Map StormWin
  tripped : Map Time
  latches : Map Latch
  coincidences : Map Nat
  relayIn : Map Time
  stormTrips : Nat
  stormLast : Nat
  loopRefusals : Nat
  nearMisses : Nat
  timers : Vector TimerUnit 16
  changes : Map (Time × Nat)
  deriving DecidableEq, Repr

/-- One fault-log entry (R580). -/
structure FaultEntry where
  number : Nat
  code : Nat
  unit : Nat
  severity : Nat
  time : Time
  source : Nat
  epoch : Nat
  detail : Nat
  deriving DecidableEq, Repr

/-- The fault log (R579 to R582): the newest 1,024 entries, oldest first, and its numbering; `raised` are the entries that have arisen in
the command in progress, which are not numbered yet. -/
structure FaultLog where
  entries : List FaultEntry
  last : Nat
  oldest : Nat
  select : Nat
  suppressed : Nat
  raised : List FaultEntry
  deriving DecidableEq, Repr

end Sys2Proof.Machine
end

