-- ==== Sys2Proof/Machine/Parts/Host.lean ====
section
/-! DEFINITION. State of the PCIe host port: link, mailbox, delivery queues and interrupts (R436 to R461). -/
namespace Sys2Proof.Machine

/-- A mailbox slot (R444): request and response areas, state, completions, and the answer that waits to enter the slot. -/
structure MailSlot where
  request : List Byte
  response : List Byte
  state : Nat
  completions : Nat
  answer : Option Result
  deriving DecidableEq, Repr

/-- A delivery queue beside its registers, which are dictionary objects (R447 to R452): the error bit, the slots in the ring by end
position and stream channel, W when progress was last signalled, since when a slot waits for its interrupt, whether the stall has been
raised, when A last moved, and whether the queue takes slots (R395). -/
structure Queue where
  error : Bool
  slots : List (Nat × Nat)
  signalled : Nat
  unsignalled : Option Time
  stalled : Bool
  movedAt : Time
  open_ : Bool
  deriving DecidableEq, Repr

/-- An entry of the MSI-X table: address, data, whether it is masked, and the PCI cycle in which its vector last sent a message (R454). -/
structure MsixEntry where
  address : Nat
  data : Nat
  masked : Bool
  sentIn : Option Nat
  deriving DecidableEq, Repr

/-- The host port. `released` is the level of PCIE_PERST_N (true: high); `loopback` says that the endpoint is in loopback (R576); `ready` the ready bit (R438); `dropped` counts BAR0 writes
dropped (R442); `pending` are the MSI-X pending bits. -/
structure HostPort where
  released : Bool
  linkUp : Bool
  loopback : Bool
  d3hot : Bool
  ready : Bool
  dropped : Nat
  causes : Nat
  causeMask : Nat
  msix : Vector MsixEntry 64
  pending : Nat
  slots : Vector MailSlot 8
  queues : Vector Queue 16
  deriving DecidableEq, Repr

end Sys2Proof.Machine
end

