-- ==== Sys2Proof/Machine/Parts/Mgmt.lean ====
section
/-! DEFINITION. State of the management buses: CAN FD and SMBus (R462 to R486). -/
namespace Sys2Proof.Machine

/-- NMT states (R462), as `can.nmt_state` numbers them. -/
inductive Nmt where
  | initialisation | preOperational | operational | stopped
  deriving DecidableEq, Repr

/-- An emergency message (R469): error code, error register, fault-log entry number and event source. -/
structure Emcy where
  code : Nat
  register : Nat
  entry : Nat
  source : Nat
  deriving DecidableEq, Repr

/-- One TPDO: SYNCs since it was last sent, the bytes last sent, when it was last sent, and when its event timer started. -/
structure TpdoState where
  syncs : Nat
  lastData : Option (List Byte)
  lastSent : Option Time
  deriving DecidableEq, Repr

/-- The CAN FD controller. Rates, sample points and node-ID in force are those taken at the last Reset Communication; `sessions` are the
clients whose request, or transfer, is not yet answered (R465). -/
structure Can where
  nmt : Nmt
  nodeId : Nat
  nominalRate : Nat
  dataRate : Nat
  nominalSp : Nat
  dataSp : Nat
  busOff : Bool
  errorPassive : Bool
  standby : Bool
  sessions : List Nat
  errorRegister : Nat
  emcyQueue : List Emcy
  emcyDropped : Nat
  inhibitUntil : Option Time
  tpdos : Vector TpdoState 8
  heartbeatSent : Option Time
  deriving DecidableEq, Repr

/-- The response of the SMBus target: the answer, when they became ready, and whether they have been read (R476). -/
structure SmbResponse where
  result : Result
  readyAt : Time
  read : Bool
  deriving DecidableEq, Repr

/-- The SMBus target. `address` and `mask` are those in force since the last STOP (R472); `owesUrgent` and `owesNormal` are the answers that
the two classes owe (R479); `staged` holds by sub-index the part of a board custodian's verdict or enrol record that has arrived (R474). -/
structure Smb where
  address : Nat
  mask : Nat
  executing : Bool
  response : Option SmbResponse
  cause : Nat
  owesUrgent : Bool
  owesNormal : Bool
  lowPower : Bool
  lastStart : Time
  wakingUntil : Option Time
  staged : Map (List Byte)
  deriving DecidableEq, Repr

end Sys2Proof.Machine
end

