-- ==== Sys2Proof/Machine/Parts/Motion.lean ====
section
/-! DEFINITION. State of the motion axes and of the Keystone controller (R230 to R288). Positions of the profile are in units of
5 × 10^−13 count and its speeds in 10^−6 count/s, in which the motion of 1 µs at a constant acceleration is a whole
number. -/
namespace Sys2Proof.Machine

/-- What the profile generator is doing (R267 to R269, R278): at rest or coming to rest at `accel` or `stop_decel`, moving to a
target in 1/256 count at no more than a speed in counts/s, in velocity mode, in page mode, homing: back from the switch into which
method 2 has driven, or not, with the travel so far in profile units. -/
inductive Profile where
  | rest
  | brake (hard : Bool)
  | toTarget (target cap : Int)
  | velocity (speed : Int)
  | page (speed : Int)
  | homing (back : Bool) (travel : Nat)
  deriving DecidableEq, Repr

/-- A counted edge (R265): its stamp, the count after it in 1/256 count, its direction. -/
structure CountedEdge where
  at_ : Time
  count : Int
  dir : Int
  deriving DecidableEq, Repr

/-- One axis. `count` is the encoder count in 1/256 count and `edges` are the last edges, newest first; `pos` and `vel` are P_cmd and its
speed at the end of the microsecond that the profile update at `updatedAt` planned, and `from_` is P_cmd at that update; `faults` are the
motion faults in force, newest first; `holding` says that the hold current is in force; `outsideSince` is when the deviation left the
window; `validBefore` is the validity that a deviation trip took away; `alignFrom` are the microsteps by which a realignment began off the
angle of P_cmd and `alignLeft` how many of its 256 are left; `driven` says that the switch-control outputs switch (else all eight are low);
`integralA` and `integralB` are the PI integrals and `mA`, `mB` the last m of each coil, in 2^−24. -/
structure Axis where
  state : FnState
  count : Int
  edges : List CountedEdge
  profile : Profile
  pos : Int
  vel : Int
  from_ : Int
  updatedAt : Time
  restSince : Time
  holding : Bool
  limP : Bool
  limN : Bool
  faults : List Nat
  outsideSince : Option Time
  validBefore : Bool
  alignFrom : Int
  alignLeft : Nat
  driven : Bool
  strong : Bool
  integralA : Int
  integralB : Int
  mA : Int
  mB : Int
  deriving DecidableEq, Repr

/-- The trigger grid of a page (R232). -/
structure Grid where
  origin : Int
  pitch : Int
  dir : Int
  deriving DecidableEq, Repr

/-- One pier's latest report and its arrival (R234, R235). -/
structure LevelReport where
  info : LevelInfo
  at_ : Time
  deriving DecidableEq, Repr

/-- A line of the owner's lowest-numbered paced head, for the seam (R250): its index, its position at T_E, T_E, its exposure in ns. -/
structure SeamLine where
  index : Int
  position : Int
  tE : Time
  exposure : Nat
  deriving DecidableEq, Repr

/-- The Keystone controller (R230 to R260). `state` is `keystone.state`; `lastKept` is K, −1 before the first kept line; `crossings` are the
kept lines up to K with their crossing times, newest first; `idleBase` is the instant from which the next time-idle line falls t_i later
(R242): T_K, the page start, or that of the idle line before it; `approach` says that the time-idle lines of a run-up have ended; `vk` and
`vr` are V_K and V_r; `lowSince` is since when L_max has been at or below the resume mark; `members` are the epoch's piers at the page
start; `owedFlags` are flags for the rejoin line; `pauseSince` is from when the pause in progress is still to be added to the pause time;
`seam` are the last kept lines of the owner's lowest-numbered paced head, newest first, and `lastApproach` its last approach line (R250);
`capSeen` is the line-rate cap that the page was last planned under (R254). -/
structure Keystone where
  state : Nat
  grid : Grid
  lastKept : Int
  crossings : List (Int × Time)
  idleBase : Option Time
  approach : Bool
  vk : Nat
  vr : Nat
  park : Int
  forced : Bool
  reason : Nat
  lowSince : Option Time
  levels : Map LevelReport
  members : List Nat
  owedFlags : Nat
  pauseSince : Option Time
  seam : List SeamLine
  lastApproach : Option SeamLine
  capSeen : Nat
  deriving DecidableEq, Repr

end Sys2Proof.Machine
end

