-- ==== Sys2Proof/Machine/State.lean ====
section
/-! DEFINITION. The state of a pier as plain data, the ways a step can stop, and the state after reset. -/
namespace Sys2Proof.Machine

/-- Why a step stops with a fault. No command of this hardware faults: every irregularity the spec describes is counted,
logged or answered with an abort code. -/
inductive Fault where
  /-- Raised by no meaning; kept so that the type has a value to name. Safe. -/
  | none
  deriving DecidableEq, Repr

/-- Why a command is refused by the model. -/
inductive Refusal where
  /-- Raised by an arm of `exec` whose command has no meaning yet. Safe: the machine stops. -/
  | notModelled (mnemonic : String)
  deriving DecidableEq, Repr

/-- What leaves the pier, or what an observer inside it sees, during one command. -/
inductive Out where
  /-- A source fires at the fabric (R358). -/
  | event (source : Nat)
  /-- A dictionary request is answered (R28). -/
  | answer (r : Route) (res : Result)
  /-- An emergency message leaves on CAN (R469). -/
  | emcy (m : Emcy)
  /-- A lamp pulse of a head (R295): its row, when it starts after T_E and how long it lasts in coarse ticks, whether it is
  a blanked pulse after T_X (R299), the current of each on-chip lamp in 1/16 mA, and how long LEDn_XEN is high. -/
  | lamp (head row start width : Nat) (blanked : Bool) (currents : List (Nat × Nat)) (xen : Nat)
  /-- Edges timed on a head's pattern outputs (R68); what a later `outputs` drives stands in their place. -/
  | pattern (head : Nat) (edges : List Edge)
  /-- From an instant in fine units a head's pattern outputs stand at these levels, and the outputs of the mask carry the continuous pixel
  clock (R65, R66, R95, R96). -/
  | outputs (head from_ levels clocks : Nat)
  /-- The readout window of a line (R73, R74, R105), in fine units: where it opens, the pixel period, the pixels, the first rising edge of
  the pixel clock and the outputs that carry it, the CDS reference and signal samples of pixel 0, and by how many eighths of a ps converter
  B of each input samples late. -/
  | readout (head window pixel count clock outputs reference signal : Nat) (skews : List Int)
  /-- A frame shifted into a head's external sink chain (R302): the level frame, or a select frame; its words, the first sent first. -/
  | chain (head : Nat) (level : Bool) (words : List Nat)
  /-- The level of a head's HDn_SYNC output from an instant in fine units, for a length in fine units (R98). -/
  | sync (head start length : Nat)
  /-- The pulse of HDn_SYNC on AUX_ECHOn (R564), which drives its pin or opens its drain. -/
  | syncRepeat (output : Nat) (drain : Bool) (start length : Nat)
  /-- A head's pattern and sync outputs go to high impedance (R584). -/
  | outputsOff (head : Nat)
  /-- The boundary register has the balls, in the test instruction of a code: each output cell drives its level while its control cell is 1;
  in HIGHZ none drives (R569, R572). -/
  | balls (code : Nat) (cells : BitVec 360)
  /-- `power.state` reads 2 (entering deep sleep) or 4 (waking) before this command ends (R529). -/
  | power (state : Nat)
  /-- The function at a control index reads state 1, and derives, before this command ends (R41). -/
  | starting (f : Nat)
  /-- A message on the ring. -/
  | ring (m : RingMsg)
  /-- The PWM duties of an axis in the next period: leg 1 of coil A and of coil B in 1/2,500; the outputs of a half-bridge are never high
  together, and each turn-on follows the other's turn-off by the dead time in ns (R261, R273). -/
  | pwm (axis dutyA dutyB deadtime : Nat)
  /-- All eight switch-control outputs of an axis go low (R261, R277). -/
  | switchesLow (axis : Nat)
  /-- One period of an echo output, which drives its pin or opens its drain: AUX cycles high and low, both 0 for the output at rest (R331). -/
  | echo (output : Nat) (drain : Bool) (high low : Nat)
  /-- The excitation of the auxiliary channels from now on (R314 to R317): each channel excited, its mode, and its level or current code. -/
  | excitation (channels : List (Nat × Nat × Nat))
  /-- A memory write request to the host of an abutment (R381, R382). -/
  | hostWrite (abutment address : Nat) (bytes : List Byte)
  /-- Memory read requests to the host of an abutment (R381, R382). -/
  | hostRead (abutment address length : Nat)
  /-- A write of the nonvolatile store's staging window (R381). -/
  | storeWrite (address : Nat) (bytes : List Byte)
  /-- A data frame leaves on a span, with its frame sequence (R406). -/
  | frame (span seq : Nat) (f : Frame)
  /-- A replay is asked for from a frame sequence on (R406). -/
  | replay (span seq : Nat)
  /-- A message of another pier is forwarded on a span (R408). -/
  | forward (span origin : Nat) (m : RingMsg)
  /-- An MSI-X message (R454). -/
  | msix (vector : Nat)
  /-- A dictionary request goes to another pier by tunnel (R55): its mailbox slot, the pier, the request bytes. -/
  | tunnel (slot pier : Nat) (request : List Byte)
  /-- A BAR0 access completes as an unsupported request (R443). -/
  | unsupported
  /-- The boot-up message of the CAN controller (R462): its node-ID. -/
  | bootUp (node : Nat)
  /-- A heartbeat (R485): node-ID and NMT state. -/
  | heartbeat (node state : Nat)
  /-- TPDO n leaves with its mapped values (R466, R467). -/
  | tpdo (n : Nat) (bytes : List Byte)
  /-- Bytes that the SMBus target sends in a read transaction, the PEC last (R474, R475). -/
  | smb (bytes : List Byte)
  /-- Bits that a scan shifts out on JTAG_TDO, the first bit lowest (R569, R570, R572). -/
  | tdo (bits value : Nat)
  /-- Bytes that a BAR0 read returns. -/
  | bar0 (bytes : List Byte)
  deriving DecidableEq, Repr

/-- What differs from part to part, fixed at manufacture or by the board: the ordering code (true: ZW6440-16), the serial
number, and the address straps of the SMBus. -/
structure Part where
  big : Bool
  serial : Nat
  strap : Nat
  deriving DecidableEq, Repr

/-- The pier without its queue of waiting commands. `mem` is the in-package buffer (R200). -/
structure Block where
  now : Time
  part : Part
  regs : Map Nat
  tables : Map (List Byte)
  outs : List Out
  free : Nat
  fabric : Fabric
  faults : FaultLog
  can : Can
  smb : Smb
  heads : Vector Head 4
  video : Vector VideoState 4
  corr : Vector Corr 4
  stitch : Vector Stitch 4
  illum : Vector Illum 4
  capture : Capture
  axes : Vector Axis 2
  keystone : Keystone
  aux : Aux
  ring : Ring
  dma : Dma
  mem : Buffer
  host : HostPort
  power : Power
  thermal : Thermal
  test : Test
  repair : Repair
  saved : Vector SavedGroup 3
  control : Control
  custody : Custody
  firmware : Firmware
  attest : Attest
  deriving DecidableEq, Repr

/-- The machine: the pier, and the commands that wait, first in first out. -/
structure State where
  b : Block
  pending : List Instr
  deriving DecidableEq, Repr

/-- Whether the pier is in deep sleep (R529). -/
def Block.asleep (b : Block) : Bool := b.power.phase == .asleep

/-! ## After a pier reset -/

/-- The defaults that differ from part to part or that the object tables give in words: the COB-IDs with node-ID 127 (R485, R463), the
serial number, the SMBus address with its straps (R472), the lowest number as the highest die reading so far (DESIGN CHOICE), and the nominal values of the factory-measured currents of the auxiliary
channels (R335; DESIGN CHOICE); and the cause and the number of the pier resets (R526, R527). Keys are index × 256 + sub-index. -/
def freshRegs (p : Part) (causes resets : Nat) : Map Nat :=
  [(0x101400, 0xFF), (0x101804, p.serial % 2 ^ 32)] ++
  (List.range 8).map (fun n => ((0x1400 + n) * 256 + 1, if n < 4 then 0x80000200 + 0x100 * n + 127 else 0x80000000)) ++
  (List.range 8).map (fun n => ((0x1800 + n) * 256 + 1, if n < 4 then 0x80000180 + 0x100 * n + 127 else 0x80000000)) ++
  [(0x220201, causes), (0x220203, resets), (0x223003, 0x8000), (0x270101, 127), (0x271001, 0x58 + p.strap % 4), (0x271006, p.strap % 4)] ++
  (List.range 32).map (fun k => (0x401401 + k, 250000000)) ++
  (List.range 32).map (fun k => (0x401501 + k, 1000000000))

def freshCan : Can where
  nmt := .initialisation
  nodeId := 127
  nominalRate := 3
  dataRate := 4
  nominalSp := 800
  dataSp := 750
  busOff := false
  errorPassive := false
  standby := true
  sessions := []
  errorRegister := 0
  emcyQueue := []
  emcyDropped := 0
  inhibitUntil := none
  tpdos := Vector.replicate 8 ⟨0, none, none⟩
  heartbeatSent := none

def freshSmb (p : Part) : Smb := ⟨0x58 + p.strap % 4, 0, false, none, 0, false, false, false, 0, none, []⟩

def freshHead : Head where
  state := .stopped
  everRun := false
  startVia := []
  startDeadline := 0
  stateSince := 0
  lines := []
  edges := []
  queue := []
  lastTrigger := none
  nextDue := none
  nextIndex := 0
  crossIndex := 0
  nextSeq := 0
  lineCount := 0
  late := none
  steps := 20480
  period := 1600000
  recent := []
  recentAt := none
  levels := none
  acceptedRun := 0
  firstDone := false
  gapRaised := false
  owedFlags := 0
  owed := []
  lastWindowEnd := none
  syncUntil := 0
  outputsIdle := false
  isolateVia := []
  lockedOnce := false
  afterIdle := false
  held := false

def freshVideo : VideoState where
  inputs := Vector.replicate 16 ⟨0, 0, 0, 0, 0, 0, 0, ⟨0, 0, 0, 0, 0, 0, 0, 0, 0, 0, 0⟩, 0, 0, 0, []⟩
  tailEnd := none
  frozen := false
  freezeNext := none
  kind := 0
  pedestalLines := 0
  linesSince := 0
  converged := false
  timeoutRaised := false

def freshCorr : Corr where
  clamp := Vector.replicate 16 ⟨none, true⟩
  lastTemp := none
  stoppedTemp := none
  fellBack := false
  armed := none
  armedRank := 0
  armedAt := none
  armedOld := none
  armedCounted := false
  cal := ⟨0, 0, 0, 0, 0, 0, [], [], [], 0, 0, 0, false⟩
  autoOwed := false
  prepare := none

def freshStitch : Stitch where
  offsets := []
  history := []
  armed := false
  armedRank := 0
  armedAt := none
  armedOld := false
  armedCounted := false
  prevs := []
  cal := ⟨0, 0, 0, [], []⟩
  cleanSeen := false

def freshIllum : Illum where
  index := 0
  lit := []
  restartIn := none
  blankByTask := false
  boostOff := false
  pulses := 0
  headroom := none
  columnMax := Vector.replicate 4 none
  rowPulses := Vector.replicate 4 0
  rowMeasured := Vector.replicate 4 false
  derateNext := 65536
  budget := ⟨4000, 1⟩
  budgetNext := ⟨4000, 1⟩
  boardValid := false
  heard := false
  withdrawn := Vector.replicate 4 false
  accum := Vector.replicate 4 ⟨0, 1⟩
  accumAt := 0
  openLamps := []
  latchedMask := 0
  frameMask := 0
  frameDue := none
  frameLate := false

def freshCapture (retired : List Nat) : Capture :=
  ⟨0, 0, Vector.replicate 4 ⟨0, [], 0, none, 0, false, none, 0, [], [], []⟩, [], [], false, retired⟩

def freshAxis : Axis where
  state := .stopped
  count := 0
  edges := []
  profile := .rest
  pos := 0
  vel := 0
  from_ := 0
  updatedAt := 0
  restSince := 0
  holding := false
  limP := false
  limN := false
  faults := []
  outsideSince := none
  validBefore := false
  alignFrom := 0
  alignLeft := 0
  driven := false
  strong := false
  integralA := 0
  integralB := 0
  mA := 0
  mB := 0

def freshKeystone : Keystone where
  state := 0
  grid := ⟨0, 0, 1⟩
  lastKept := -1
  crossings := []
  idleBase := none
  approach := false
  vk := 0
  vr := 0
  park := 0
  forced := false
  reason := 0
  lowSince := none
  levels := []
  members := []
  owedFlags := 0
  pauseSince := none
  seam := []
  lastApproach := none
  capSeen := 1000000

def freshAux : Aux where
  state := .stopped
  startVia := []
  excOff := false
  refOn := false
  refReady := false
  reversed := false
  chopAt := none
  pulseAt := none
  channels := Vector.replicate 16 ⟨false, false, .released, false, none, 0, 0, [], false⟩
  lanes := Vector.replicate 2 ⟨0, 0, false, 0, 0, none, false, 0, 0, false, 0⟩
  fifo := []
  lost := false
  echoes := Vector.replicate 4 ⟨0, none⟩

def freshRing : Ring where
  minority := false
  ceiling := none
  page := 0
  closedOnce := false
  members := []
  foreign := false
  leaderMode := none
  generation := 0
  offers := []
  failover := false
  wrapAfter := none
  spans := Vector.replicate 2 ⟨none, none, 0, 0, none, [], [], 0⟩
  lastSync := none
  lockSince := none
  everLocked := false
  slew := 0
  start := none
  latches := []
  source := none
  asked := []
  lossAt := none
  downAt := none
  electedAt := none

def freshDma : Dma where
  channels := Vector.replicate 32
    { i2 := 0, i1 := 0, off := 0, begun := false, stopped := false, admitted := false, open_ := true, fetching := false, fence := false,
      fenceTag := 0, ending := false, lastTag := 0, stream := false, sent := 0, issued := 0, hold := false, passed := false, host := none }
  lastDone := Vector.replicate 4 0

def freshHost : HostPort where
  released := false
  linkUp := false
  loopback := false
  d3hot := false
  ready := false
  dropped := 0
  causes := 0
  causeMask := 0
  msix := Vector.replicate 64 ⟨0, 0, true, none⟩
  pending := 0
  slots := Vector.replicate 8 ⟨[], [], 0, 0, none⟩
  queues := Vector.replicate 16 ⟨false, [], 0, none, false, 0, true⟩

def freshFabric : Fabric := ⟨[], [], [], [], [], [], 0, 0xFFFF, 0, 0, Vector.replicate 16 ⟨false, 0, 0, 0, 0, 0⟩, []⟩

/-- A part from manufacture right after a pier reset with the cause bits given, held in reset until its release (R526, R527). Slot A holds
the firmware of manufacture, confirmed; DESIGN CHOICE: that image passes its checks. -/
def Block.fresh (p : Part) (causes resets : Nat) : Block where
  now := 0
  part := p
  regs := freshRegs p causes resets
  tables := []
  outs := []
  free := 0
  fabric := freshFabric
  faults := ⟨[], 0, 1, 0, 0, []⟩
  can := freshCan
  smb := freshSmb p
  heads := Vector.replicate 4 freshHead
  video := Vector.replicate 4 freshVideo
  corr := Vector.replicate 4 freshCorr
  stitch := Vector.replicate 4 freshStitch
  illum := Vector.replicate 4 freshIllum
  capture := freshCapture []
  axes := Vector.replicate 2 freshAxis
  keystone := freshKeystone
  aux := freshAux
  ring := freshRing
  dma := freshDma
  mem := ⟨[], []⟩
  host := freshHost
  power := ⟨.held, causes, 0, none, none, 1, true, true, 0⟩
  thermal := ⟨[], [], 1000000, 0, 0⟩
  test := ⟨.idcode, false, 0, none⟩
  repair := ⟨[], [], []⟩
  saved := Vector.replicate 3 ⟨none, false, false⟩
  control := ⟨[], none, []⟩
  custody := ⟨List.replicate 97 0, List.replicate 97 0, List.replicate 32 0, 0, none, none, none, none, none⟩
  firmware := ⟨#v[⟨Config.factoryImage, 3, true⟩, ⟨[], 0, false⟩], 0, [], 0, false, none, false⟩
  attest := ⟨[], 0⟩

/-- The machine right after its first power-on reset: cause bit 0, one reset counted (R526, R527), nothing waiting. DESIGN CHOICE: a
ZW6440-16 with serial number 1 and both straps low. -/
def State.reset : State where
  b := Block.fresh ⟨true, 1, 0⟩ 1 1
  pending := []

end Sys2Proof.Machine
end

