-- ==== Sys2Proof/Machine/Ops.lean ====
section
/-! DEFINITION. Named operations that every block uses: the register map and the tables, values the spec leaves open,
events, answers, the fault log, SMBus alerts and emergency messages. -/
namespace Sys2Proof.Machine

/-! ## Sparse maps -/

/-- The value at a key. -/
def Map.get? {α : Type} (m : Map α) (k : Nat) : Option α :=
  match m with
  | [] => none
  | (j, v) :: rest => if k = j then some v else Map.get? rest k

/-- The map with a value at a key, keys rising. -/
def Map.insert {α : Type} (m : Map α) (k : Nat) (v : α) : Map α :=
  match m with
  | [] => [(k, v)]
  | (j, w) :: rest =>
    if k < j then (k, v) :: (j, w) :: rest
    else if k = j then (k, v) :: rest
    else (j, w) :: Map.insert rest k v

/-- The map without a key. -/
def Map.erase {α : Type} (m : Map α) (k : Nat) : Map α :=
  match m with
  | [] => []
  | (j, w) :: rest => if k = j then Map.erase rest k else (j, w) :: Map.erase rest k

/-- Canonical form: keys strictly rising. -/
def Map.wf {α : Type} : Map α → Bool
  | [] => true
  | [_] => true
  | (j, _) :: (k, w) :: rest => decide (j < k) && Map.wf ((k, w) :: rest)

/-! ## The buffer (R200) -/

/-- What an address of the buffer that is not listed reads as. The spec leaves the contents after reset undefined (R527). DESIGN
CHOICE: 0; and an open byte where a later reset or a self-test has destroyed the contents (R527, R575). -/
def memDefault (wiped : List (Nat × Nat × Nat)) (a : Nat) : Byte :=
  match wiped with
  | [] => 0
  | (start, n, k) :: rest =>
    if start ≤ a ∧ a < start + n then BitVec.ofNat 8 (Config.freeNat (k + (a - start))) else memDefault rest a

/-- Whether the contents at an address are those that a reset or a self-test left. -/
def memWiped (wiped : List (Nat × Nat × Nat)) (a : Nat) : Bool := wiped.any fun w => decide (w.1 ≤ a) && decide (a < w.1 + w.2.1)

/-- The byte at an address. -/
def memGet (m : Buffer) (a : Nat) : Byte := (m.cells.get? a).getD (memDefault m.wiped a)

/-- The cells that a run of bytes from an address lists. -/
def runCells (wiped : List (Nat × Nat × Nat)) (a : Nat) : List Byte → Map Byte
  | [] => []
  | v :: rest => if v = 0 ∧ memWiped wiped a = false then runCells wiped (a + 1) rest else (a, v) :: runCells wiped (a + 1) rest

/-- The buffer with a run of bytes from an address, in its canonical form: a byte that reads the same unlisted is not listed, except over
contents that were destroyed, whose value is open. -/
def memPutRun (m : Buffer) (a : Nat) (bytes : List Byte) : Buffer :=
  { m with cells := m.cells.filter (fun c => decide (c.1 < a)) ++ runCells m.wiped a bytes ++
                    m.cells.filter (fun c => decide (a + bytes.length ≤ c.1)) }

/-- The contents of a range are lost (R527, R575); k is the place of the open bytes. -/
def memWipe (m : Buffer) (start n k : Nat) : Buffer :=
  ⟨m.cells.filter fun c => decide (c.1 < start) || decide (start + n ≤ c.1), (start, n, k) :: m.wiped⟩

/-- Canonical form of the buffer: addresses strictly rising, and no 0 listed outside a destroyed range. -/
def memWf (m : Buffer) : Bool := m.cells.wf && m.cells.all fun c => c.2 != 0 || memWiped m.wiped c.1

/-! ## Places in the buffer (R200) -/

/-- A list of pieces (address, length) without what lies in one piece. -/
def cutPiece (p : Nat × Nat) : List (Nat × Nat) → List (Nat × Nat)
  | [] => []
  | (a, n) :: rest =>
    let lo := max a p.1
    let hi := min (a + n) (p.1 + p.2)
    if hi ≤ lo then (a, n) :: cutPiece p rest
    else (if a < lo then [(a, lo - a)] else []) ++ (if hi < a + n then [(hi, a + n - hi)] else []) ++ cutPiece p rest

/-- What an area has free beside the pieces held. -/
def freeSpace (area held : List (Nat × Nat)) : List (Nat × Nat) := held.foldl (fun l p => cutPiece p l) area

/-- The table region (R200). -/
def tableArea : List (Nat × Nat) := [(0, 0x04000000)]

/-- Pieces in the order in which space is given out: from an address on, then from the start. -/
def fromPoint (at_ : Nat) (l : List (Nat × Nat)) : List (Nat × Nat) :=
  cutPiece (0, at_) l ++ l.filterMap fun p => if p.1 < at_ then some (p.1, min p.2 (at_ - p.1)) else none

/-- The first n bytes of a list of pieces. -/
def takeSpace : Nat → List (Nat × Nat) → List (Nat × Nat)
  | _, [] => []
  | n, (a, k) :: rest => if n = 0 then [] else if n ≤ k then [(a, n)] else (a, k) :: takeSpace (n - k) rest

/-- Bytes in a list of pieces. -/
def placeSize (l : List (Nat × Nat)) : Nat := l.foldl (fun n p => n + p.2) 0

/-- The address after the last piece. -/
def placeEnd (l : List (Nat × Nat)) : Nat := match l.getLast? with | some p => p.1 + p.2 | none => 0

/-! ## Objects held as registers -/

/-- Width of a type in bits (R594); 0 for those of variable size. -/
def Ty.bits : Ty → Nat
  | .bool | .u8 | .i8 => 8
  | .u16 | .i16 => 16
  | .u32 | .i32 => 32
  | .u64 | .i64 | .time64 => 64
  | .pos48 => 48
  | .octets | .vstring | .table => 0

/-- Whether a type is two's complement. -/
def Ty.signed : Ty → Bool
  | .i8 | .i16 | .i32 | .i64 | .pos48 => true
  | _ => false

namespace Block

/-- The raw value of an object: the register map's, or its default (R32). -/
def reg (o : Obj) (b : Block) : Nat := (b.regs.get? o.key).getD o.dflt

/-- The value of an object read as its type. -/
def regI (o : Obj) (b : Block) : Int :=
  if o.ty.signed then toSigned o.ty.bits (b.reg o) else (b.reg o : Int)

/-- The block with an object set to a raw value of its width. -/
def setReg (o : Obj) (v : Nat) (b : Block) : Block :=
  { b with regs := b.regs.insert o.key (v % 2 ^ o.ty.bits) }

/-- The block with an object set to a number, in two's complement. -/
def setRegI (o : Obj) (v : Int) (b : Block) : Block := b.setReg o (ofSigned o.ty.bits v)

/-- A counter raised by n, saturating at the top of its type. -/
def count (o : Obj) (n : Nat) (b : Block) : Block :=
  b.setReg o (satAdd (b.reg o) n (2 ^ o.ty.bits - 1))

/-- A counter raised by one. -/
def bump (o : Obj) (b : Block) : Block := b.count o 1

/-- Whether an object reads other than 0. -/
def isSet (o : Obj) (b : Block) : Bool := b.reg o != 0

/-! ## Time -/

/-- The block at the instant of a command, with nothing yet seen to leave it. -/
def at_ (t : Time) (b : Block) : Block := { b with now := t, outs := [] }

/-! ## Values that the spec leaves open -/

/-- An open number from 0 to n. -/
def freeUpTo (n : Nat) (b : Block) : Nat := Config.freeNat b.free % (n + 1)

/-- An open choice. -/
def freeChoice (b : Block) : Bool := Config.freeBool b.free

/-- A number of w bits as it reads where only the bits of a mask carry a meaning: the reserved bits read undefined (R2), so they are open. -/
def withOpen (w mask v place : Nat) (b : Block) : Nat :=
  (v &&& mask) ||| clearBits (Config.reservedBits b.now.toNat place % 2 ^ w) mask

/-- The block after an open value has been taken. -/
def used (b : Block) : Block := { b with free := b.free + 1 }

/-! ## Outputs, events and answers -/

/-- Something leaves the pier. -/
def emit (o : Out) (b : Block) : Block := { b with outs := b.outs ++ [o] }

/-- A block raises a source (R358); the fabric routes it when the command's own work is done. -/
def raise (s : Nat) (b : Block) : Block :=
  { b with outs := b.outs ++ [.event s], fabric := { b.fabric with queue := b.fabric.queue ++ [s] } }

/-- The bytes in the buffer from an address. -/
def memRead (a n : Nat) (b : Block) : List Byte :=
  let near : Buffer := { b.mem with cells := b.mem.cells.filter fun c => decide (a ≤ c.1) && decide (c.1 < a + n) }
  (List.range n).map fun i => memGet near (a + i)

/-- Bytes written to the buffer from an address. -/
def memWrite (a : Nat) (bytes : List Byte) (b : Block) : Block := { b with mem := memPutRun b.mem a bytes }

/-- Bytes written to a place of the buffer, and read from it. -/
def placeWrite : List (Nat × Nat) → List Byte → Block → Block
  | [], _, b => b
  | (a, n) :: rest, bytes, b => placeWrite rest (bytes.drop n) (b.memWrite a (bytes.take n))
def placeRead (l : List (Nat × Nat)) (b : Block) : List Byte := l.flatMap fun p => b.memRead p.1 p.2

/-- An answer waits in its mailbox slot until it enters it (R444). -/
def answerSlot (s : SlotId) (res : Result) (b : Block) : Block :=
  { b with host := { b.host with slots := b.host.slots.set s { b.host.slots[s] with answer := some res } } }

/-- The answer of a request over SMBus becomes its response (R476). -/
def answerSmb (res : Result) (b : Block) : Block :=
  { b with smb := { b.smb with executing := false, response := some ⟨res, b.now, false⟩ } }

/-- The pier answers a dictionary request on its route. -/
def reply (r : Route) (res : Result) (b : Block) : Block :=
  let b := b.emit (.answer r res)
  match r with
  | .mailbox s => b.answerSlot s res
  | .smbus => b.answerSmb res
  | .can c => { b with can := { b.can with sessions := b.can.sessions.filter (· != c.val) } }
  | .tunnel _ => b

/-- The pier answers what asked for an action: a write gets the result; a task gets nothing. -/
def replyVia (v : Via) (res : Result) (b : Block) : Block :=
  match v with | .write r => b.reply r res | .task _ => b

/-- A message leaves on the ring. -/
def sendRing (m : RingMsg) (b : Block) : Block := b.emit (.ring m)

/-- A block raises a source when a condition holds. -/
def raiseIf (c : Bool) (s : Nat) (b : Block) : Block := if c then b.raise s else b

end Block

/-- Signed difference of two ring times, a − b (R5). -/
def timeDiff (a b : Time) : Int := (a - b).toInt

/-- Whether an instant is due at a time: their difference is negative or zero (R5). -/
def due (instant now : Time) : Bool := decide (timeDiff instant now ≤ 0)

/-- A time n ticks later. -/
def later (t : Time) (n : Nat) : Time := t + BitVec.ofNat 64 n

/-- Whether at least n ticks have passed since t. -/
def passed (t : Time) (n : Nat) (now : Time) : Bool := decide ((n : Int) ≤ timeDiff now t)

/-- Ticks in 1 ns, 1 µs, 1 ms and 1 s (Scope and Conventions). -/
def tNs : Nat := 16
def tUs : Nat := 16000
def tMs : Nat := 16000000
def tSec : Nat := 16000000000

/-- The CTL cycle of an instant: the domain runs at 800 MHz. -/
def ctlCycle (t : Time) : Nat := t.toNat / 20

/-! ## SMBus alerts (R479) -/

namespace Block

/-- An alert cause bit is set; when it rises with its mask bit set, its class owes an answer, and the pin's assertion
is an event (source 947). -/
def alert (i : Nat) (b : Block) : Block :=
  if b.smb.cause.testBit i then b
  else
    let s := { b.smb with cause := setBit b.smb.cause i }
    if (b.reg Obj.smbAlertMask).testBit i then
      let urgent := (b.reg Obj.smbAlertUrgent).testBit i
      let low := b.smb.owesUrgent || b.smb.owesNormal
      let b' := { b with smb := { s with owesUrgent := s.owesUrgent || urgent, owesNormal := s.owesNormal || !urgent } }
      b'.raiseIf (!low) 947
    else { b with smb := s }

/-! ## Emergency messages (R469, R470) -/

/-- Whether the CAN controller can send: pre-operational or operational, on the bus and not in standby. -/
def canSends (b : Block) : Bool :=
  (b.can.nmt == .preOperational || b.can.nmt == .operational) && !b.can.busOff && !b.can.standby

/-- An emergency message leaves, and the inhibit time starts. -/
def emcyNow (m : Emcy) (b : Block) : Block :=
  let inhibit := b.reg Obj.commEmcyInhibit
  (({ b with can := { b.can with
        inhibitUntil := if inhibit = 0 then none else some (later b.now (inhibit * 100 * tUs)) } }).emit (.emcy m)).raise 933

/-- An emergency message is sent, waits out the inhibit time among at most 8, or is dropped and counted. -/
def emcy (m : Emcy) (b : Block) : Block :=
  if !b.canSends then b
  else match b.can.inhibitUntil with
    | none => b.emcyNow m
    | some u =>
      if due u b.now && b.can.emcyQueue.isEmpty then b.emcyNow m
      else if b.can.emcyQueue.length < 8 then
        { b with can := { b.can with emcyQueue := b.can.emcyQueue ++ [m] } }
      else { b with can := { b.can with emcyDropped := satAdd b.can.emcyDropped 1 max32 } }

/-- A cause of R469: its bit and bit 0 of the error register set, and one message with its code, the fault-log entry
(0 for none) and the source (0xFFFF for none). -/
def emcyCause (code bitNo entry source : Nat) (b : Block) : Block :=
  let r := setBit (setBit b.can.errorRegister bitNo) 0
  ({ b with can := { b.can with errorRegister := r } }).emcy ⟨code, r, entry, source⟩

/-- A bit of the error register clears; when no other remains, bit 0 clears with it and code 0x0000 is sent (R469). The
code of a message for a clear that leaves other bits set is not given, so it is a free value. -/
def emcyClear (bitNo : Nat) (b : Block) : Block :=
  if b.can.errorRegister.testBit bitNo then
    let r := clearBit b.can.errorRegister bitNo
    let r := if r = 1 then 0 else r
    let b' := { b with can := { b.can with errorRegister := r } }
    if r = 0 then b'.emcy ⟨0, 0, 0, 0xFFFF⟩ else b'.used.emcy ⟨b'.freeUpTo 0xFFFF, r, 0, 0xFFFF⟩
  else b

end Block

/-! ## Which abort code is answered (R59) -/

/-- Place of a code in the order of R59; the protocol codes end a transfer as soon as they arise. -/
def AbortCode.rank : AbortCode → Nat
  | .toggle | .timedOut | .specifier | .blockSize | .blockSequence | .blockCrc | .outOfMemory => 0
  | .noObject => 1 | .noSub => 2
  | .route => 3 | .readOfWo => 4 | .writeOfRo => 5
  | .feature => 6
  | .minority => 7
  | .countersign => 8 | .level => 9 | .notStopped => 10
  | .isolated => 11
  | .length => 12
  | .range => 13 | .tooHigh => 14 | .tooLow => 15 | .incompatible => 16
  | .conflict => 17 | .eventLoop => 18 | .misaligned => 19
  | .thermalVeto => 20
  | .unavailable => 21 | .deviceState => 22 | .notStored => 23
  | .hardware => 24

/-- The number of an abort code (R58). -/
def AbortCode.value : AbortCode → Nat
  | .toggle => 0x05030000 | .timedOut => 0x05040000 | .specifier => 0x05040001 | .blockSize => 0x05040002
  | .blockSequence => 0x05040003 | .blockCrc => 0x05040004 | .outOfMemory => 0x05040005 | .route => 0x06010000
  | .readOfWo => 0x06010001 | .writeOfRo => 0x06010002 | .noObject => 0x06020000 | .incompatible => 0x06040043
  | .hardware => 0x06060000 | .length => 0x06070010 | .noSub => 0x06090011 | .range => 0x06090030
  | .tooHigh => 0x06090031 | .tooLow => 0x06090032 | .unavailable => 0x060A0023 | .notStored => 0x08000020
  | .deviceState => 0x08000022 | .conflict => 0x0E5A0001 | .eventLoop => 0x0E5A0002 | .minority => 0x0E5A0003
  | .countersign => 0x0E5A0004 | .notStopped => 0x0E5A0005 | .level => 0x0E5A0006 | .feature => 0x0E5A0007
  | .misaligned => 0x0E5A0008 | .thermalVeto => 0x0E5A0009 | .isolated => 0x0E5A000A

/-- The code that R59 ranks first. -/
def firstCode : List AbortCode → Option AbortCode
  | [] => none
  | c :: cs =>
    match firstCode cs with
    | none => some c
    | some d => if d.rank < c.rank then some d else some c

/-- A code when a condition holds. -/
def codeIf (bad : Bool) (c : AbortCode) : List AbortCode := if bad then [c] else []

/-- Severity of a fault code, with the unit's detail where it decides (R581). -/
def faultSeverity (code detail : Nat) : Nat :=
  if code = 0x0006 then (if detail = 1 then 2 else 1)
  else if code ∈ [0x0002, 0x0004, 0x0005] then 3
  else if code ∈ [0x0010, 0x0060, 0x0070, 0x00A0] then 2
  else if code ∈ [0x0014, 0x0031, 0x0032] then 0
  else 1

/-- Emergency code and error-register bit of a fault-log entry (R469). -/
def faultEmcy (code : Nat) : Nat × Nat :=
  if code ∈ [0x0013, 0x0060] then (0x2300, 1)
  else if code ∈ [0x0002, 0x0003] then (0x3100, 2)
  else if code ∈ [0x0041, 0x0042] then (0xFF00, 4)
  else (0xFF02, 7)

namespace Block

/-- Whether an entry of this code and unit was written less than 10 ms earlier (R581). -/
def faultRecent (code unit : Nat) (b : Block) : Bool :=
  (b.faults.entries ++ b.faults.raised).any fun e => e.code == code && e.unit == unit && !passed e.time (10 * tMs) b.now

/-- An entry among those that have arisen with it, in order of code. -/
def insertFault (e : FaultEntry) : List FaultEntry → List FaultEntry
  | [] => [e]
  | x :: xs => if e.code < x.code then e :: x :: xs else x :: insertFault e xs

/-- A fault arises (R579 to R581): its entry waits for the end of the command, or is suppressed and counted. -/
def logFault (code unit detail source : Nat) (b : Block) : Block :=
  if b.faultRecent code unit then
    { b with faults := { b.faults with suppressed := satAdd b.faults.suppressed 1 max32 } }
  else
    let e : FaultEntry := ⟨0, code, unit, faultSeverity code detail, b.now, source, b.reg Obj.ringEpoch, detail⟩
    { b with faults := { b.faults with raised := insertFault e b.faults.raised } }

/-- An entry takes its number (R579); it sets alert cause 0 and sends an emergency message. -/
def writeFault (e : FaultEntry) (b : Block) : Block :=
  let n := b.faults.last + 1
  let all := b.faults.entries ++ [{ e with number := n }]
  let kept := all.drop (all.length - 1024)
  let f := { b.faults with entries := kept, last := n,
                           oldest := match kept with | [] => n | x :: _ => x.number }
  (({ b with faults := f }).alert 0).emcyCause (faultEmcy e.code).1 (faultEmcy e.code).2 n e.source

/-- The entries that have arisen in one command are written in ascending order of code (R579). -/
def writeFaults (b : Block) : Block :=
  b.faults.raised.foldl (fun b e => b.writeFault e) { b with faults := { b.faults with raised := [] } }

/-- Numbers 0xFF and 0xFFFF of an entry that has no unit or no source. -/
def noUnit : Nat := 0xFF
def noSource : Nat := 0xFFFF

end Block

/-! ## Units held in vectors -/

namespace Block

def modHead (h : HeadId) (f : Head → Head) (b : Block) : Block := { b with heads := b.heads.set h (f b.heads[h]) }
def modVideo (h : HeadId) (f : VideoState → VideoState) (b : Block) : Block := { b with video := b.video.set h (f b.video[h]) }
def modCorr (h : HeadId) (f : Corr → Corr) (b : Block) : Block := { b with corr := b.corr.set h (f b.corr[h]) }
def modStitch (h : HeadId) (f : Stitch → Stitch) (b : Block) : Block := { b with stitch := b.stitch.set h (f b.stitch[h]) }
def modAxis (a : AxisId) (f : Axis → Axis) (b : Block) : Block := { b with axes := b.axes.set a (f b.axes[a]) }
def modKey (f : Keystone → Keystone) (b : Block) : Block := { b with keystone := f b.keystone }
def modIllum (h : HeadId) (f : Illum → Illum) (b : Block) : Block := { b with illum := b.illum.set h (f b.illum[h]) }

/-- Whether a head is stopped in the sense of R593: state 0 or 5. -/
def headStopped (h : HeadId) (b : Block) : Bool :=
  b.heads[h].state == .stopped || b.heads[h].state == .isolated

/-- Whether all four heads are stopped (R593). -/
def allStopped (b : Block) : Bool := b.headStopped 0 && b.headStopped 1 && b.headStopped 2 && b.headStopped 3

/-- The confirmed feature set (R47, R48). -/
def feature (i : Nat) (b : Block) : Bool := (b.reg Obj.deviceFeaturesConfirmedLo).testBit i

/-- Level in force of a function by its level object (R45). -/
def levelInForce (o : Obj) (b : Block) : Nat := if b.feature 0 then b.reg o else 0

/-- Whether the pier runs in scan mode (R15). -/
def scan (b : Block) : Bool := b.reg Obj.deviceMode == 1

end Block

/-- The number of a function state (R39). -/
def FnState.code : FnState → Nat
  | .stopped => 0 | .starting => 1 | .running => 2 | .stopping => 3 | .faulted => 4 | .isolated => 5

/-- Whether an instruction of the test access port takes the balls (R569). -/
def TapInstr.takes : TapInstr → Bool
  | .extest | .clamp | .highz | .extestPulse | .extestTrain => true
  | .idcode | .samplePreload | .bypass => false

/-- Whether an instruction that takes the balls is in force. -/
def Block.ballsTaken (b : Block) : Bool := b.test.instr.takes

/-- Source of a head's event k (R97, R124, R164, R197, R311). -/
def headSource (h : HeadId) (k : Nat) : Nat := 64 + 128 * h.val + k

end Sys2Proof.Machine
end

