-- ==== Sys2Proof/Machine/Mgmt.lean ====
section
/-! DEFINITION. CAN FD and SMBus without the dictionary: NMT, emergency messages, bus errors, the SMBus codes that need no dictionary
request, alerts and the low-power receivers (R462 to R486). -/
namespace Sys2Proof.Machine

/-- The number of an NMT state (R485). -/
def Nmt.code : Nmt → Nat
  | .initialisation => 0 | .preOperational => 1 | .operational => 2 | .stopped => 3

namespace Block

def modCan (f : Can → Can) (b : Block) : Block := { b with can := f b.can }
def modSmb (f : Smb → Smb) (b : Block) : Block := { b with smb := f b.smb }

/-- Whether the pier serves requests (R595): after step 5 of R527, before deep sleep, outside a restart. -/
def served (b : Block) : Bool := b.power.phase == .served

/-! ## NMT (R462 to R464) -/

def setNmt (n : Nmt) (b : Block) : Block := (b.modCan fun x => { x with nmt := n }).raiseIf (b.can.nmt != n) 928

/-- The derived node-ID (R463). -/
def derivedNode (b : Block) : Nat := if b.reg Obj.ringPierNumber = 0xFF then 127 else 1 + b.reg Obj.ringPierNumber

/-- Time quanta of a bit at a nominal-rate and a data-rate code, of 80 MHz; data-rate code 0 takes the nominal ones (R464). -/
def nominalQuanta (code : Nat) : Nat := match code with | 0 => 640 | 1 => 320 | 2 => 160 | _ => 80
def dataQuanta (nominal code : Nat) : Nat := match code with | 0 => nominalQuanta nominal | 1 => 80 | 2 => 40 | 3 => 20 | 4 => 16 | _ => 10

/-- The quantum of the sample point, halves rounded up, and the synchronisation jump width, which is phase segment 2 (R464). -/
def samplePoint (quanta sp : Nat) : Nat := (2 * quanta * sp + 1000) / 2000
def jumpWidth (quanta sp : Nat) : Nat := quanta - samplePoint quanta sp

/-- The bit timing in force: quanta, sample point and jump width of the nominal and of the data rate (R464). -/
def canTiming (b : Block) : (Nat × Nat × Nat) × (Nat × Nat × Nat) :=
  let n := nominalQuanta b.can.nominalRate
  let d := dataQuanta b.can.nominalRate b.can.dataRate
  let sp := if b.can.dataRate = 0 then b.can.nominalSp else b.can.dataSp
  ((n, samplePoint n b.can.nominalSp, jumpWidth n b.can.nominalSp), (d, samplePoint d sp, jumpWidth d sp))

/-- The COB-IDs whose default holds the node-ID (R485), as they stand for a node. -/
def nodeCobIds (node : Nat) : List (Obj × Nat) :=
  (Obj.commEmcyCobId, 0x80 + node) ::
    (List.range 4).flatMap fun n => [(Obj.rpdoCobId n, 0x80000200 + 0x100 * n + node), (Obj.tpdoCobId n, 0x80000180 + 0x100 * n + node)]

/-- A node-ID comes in force (R463). DEDUCED: a COB-ID that reads its default follows it. -/
def nodeChange (node : Nat) (b : Block) : Block :=
  let old := nodeCobIds b.can.nodeId
  let b := ((nodeCobIds node).zip old).foldl (fun b p => if b.reg p.1.1 = p.2.2 then b.setReg p.1.1 p.1.2 else b) b
  b.modCan fun x => { x with nodeId := node }

/-- Reset Communication (R462 to R464, R471): node-ID and bit timing are read again, and the boot-up message is sent on entering
pre-operational. -/
def resetComm (b : Block) : Block :=
  let b := if b.levelInForce Obj.mgmtLevel = 1 then b else b.setReg Obj.canNodeId b.derivedNode
  let b := b.nodeChange (b.reg Obj.canNodeId)
  let b := b.modCan fun x =>
    { x with nominalRate := b.reg Obj.canNominalRate, dataRate := b.reg Obj.canDataRate,
             nominalSp := b.reg Obj.canNominalSp, dataSp := b.reg Obj.canDataSp, busOff := false, errorPassive := false, standby := false,
             sessions := [], emcyQueue := [], inhibitUntil := none, tpdos := Vector.replicate 8 ⟨0, none, none⟩, heartbeatSent := some b.now }
  let b := (((b.setReg Obj.canTec 0).setReg Obj.canRec 0).setNmt .initialisation).setNmt .preOperational
  b.emit (.bootUp b.can.nodeId)

/-- Whether the controller takes part in the bus. -/
def canOn (b : Block) : Bool := b.served && !b.can.standby && !b.can.busOff

/-- An NMT command reaches the pier: a change of state. -/
def nmtTo (n : Nmt) (b : Block) : Block := if b.canOn && b.can.nmt != .initialisation then b.setNmt n else b

/-! ## Emergency messages and bus errors (R469 to R471) -/

/-- The inhibit time of 0x1015 ends (R470): the oldest waiting message is sent. -/
def emcyInhibitEnd (b : Block) : Block :=
  match b.can.inhibitUntil with
  | none => b
  | some u =>
    if !due u b.now then b
    else
      match b.can.emcyQueue with
      | [] => b.modCan fun x => { x with inhibitUntil := none }
      | m :: rest => if b.canSends then (b.modCan fun x => { x with emcyQueue := rest }).emcyNow m else b

/-- The controller becomes error passive at the counters given (R469). -/
def errorPassive (tec rec_ : Nat) (b : Block) : Block :=
  if !b.canOn then b
  else
    let b := ((b.setReg Obj.canTec (min tec 255)).setReg Obj.canRec (min rec_ 255)).modCan fun x => { x with errorPassive := true }
    (b.raise 929).emcyCause 0x8120 4 0 929

/-- Bus-off (R471). -/
def busOff (b : Block) : Block :=
  if !b.canOn then b
  else (((b.modCan fun x => { x with busOff := true, sessions := [] }).bump Obj.canBusOffs).setReg Obj.canTec 255).raise 930

/-- 128 occurrences of 11 recessive bits after bus-off (R471). -/
def busRecover (b : Block) : Block :=
  if !b.can.busOff || !b.served || !b.isSet Obj.canAutoRecover then b
  else
    let b := b.modCan fun x => { x with busOff := false, errorPassive := false }
    (((b.setReg Obj.canTec 0).setReg Obj.canRec 0).raise 931).emcyCause 0x8140 4 0 931

/-- The producer heartbeat time expires (R485). -/
def heartbeat (b : Block) : Block :=
  let ms := b.reg Obj.commHeartbeat
  if ms = 0 ∨ !b.canOn ∨ b.can.nmt = .initialisation then b
  else
    match b.can.heartbeatSent with
    | some t => if passed t (ms * tMs) b.now then (b.emit (.heartbeat b.can.nodeId b.can.nmt.code)).modCan fun x => { x with heartbeatSent := some b.now } else b
    | none => (b.emit (.heartbeat b.can.nodeId b.can.nmt.code)).modCan fun x => { x with heartbeatSent := some b.now }

/-! ## SMBus (R472 to R483) -/

/-- The addresses of the set: A with (A XOR address) AND NOT mask = 0 (R472). -/
def smbSet (address mask : Nat) : List Nat := (List.range 128).filter fun a => clearBits (a ^^^ address) mask == 0

/-- Whether an address set is permitted (R472). -/
def smbSetOk (address mask : Nat) : Bool :=
  decide (popCount mask 8 ≤ 3) &&
  (smbSet address mask).all fun a => !(decide (a ≤ 8) || [0x0C, 0x28, 0x37, 0x61].contains a || decide (0x78 ≤ a))

/-- A new address set takes force at a STOP (R472). -/
def smbStop (b : Block) : Block := b.modSmb fun x => { x with address := b.reg Obj.smbAddress, mask := b.reg Obj.smbAddressMask }

/-- A START that addresses the pier (R478): whether its address byte is acknowledged. In reset it is not; in low power
it is not, and the receivers wake. The STOP of a transaction that is not acknowledged follows at once (R472). -/
def smbStart (b : Block) : Bool × Block :=
  if b.power.phase = .held then (false, b)
  else if !b.asleep then (true, b.modSmb fun x => { x with lastStart := b.now })
  else if b.smb.lowPower then
    (false, (((b.smbStop.modSmb fun x => { x with lowPower := false, wakingUntil := some (later b.now (50 * tUs)), lastStart := b.now }).bump
      Obj.smbSleepNacks).raise 949))
  else
    let b' := b.modSmb fun x => { x with lastStart := b.now }
    match b.smb.wakingUntil with
    | some u => if due u b.now then (true, b'.modSmb fun x => { x with wakingUntil := none }) else (false, b'.smbStop)
    | none => (true, b')

/-- Whether a response counts as unread (R476). -/
def smbUnread (b : Block) : Bool :=
  match b.smb.response with
  | some r => !r.read && !passed r.readyAt (b.reg Obj.smbResponseHold * tMs) b.now
  | none => false

/-- Whether SMB_ALERT_N is asserted (R479). -/
def alertAsserted (b : Block) : Bool := b.smb.owesUrgent || b.smb.owesNormal

/-- A transaction that reads from the target: its command byte, then the bytes and the PEC (R474, R475). -/
def smbAnswer (code : Nat) (bytes : List Byte) (b : Block) : Block :=
  let a := BitVec.ofNat 8 (2 * b.smb.address)
  b.emit (.smb (bytes ++ [BitVec.ofNat 8 (pec ([a, BitVec.ofNat 8 code, a + 1] ++ bytes))]))

/-- STATUS (R474). -/
def smbStatus (b : Block) : Block :=
  let (ok, b) := b.smbStart
  if !ok then b
  else
    let f (c : Bool) (k : Nat) : Nat := if c then 2 ^ k else 0
    let v := f b.smb.executing 7 + f b.smbUnread 6 + f b.alertAsserted 5 + f b.asleep 4 + f b.ring.minority 3
    (b.smbAnswer 3 [BitVec.ofNat 8 (b.withOpen 8 0xF8 v 3)]).smbStop

/-- ALERT_CAUSE, read (R474). -/
def smbCauseRead (b : Block) : Block :=
  let (ok, b) := b.smbStart
  if !ok then b else (b.smbAnswer 4 (leBytes 4 (b.withOpen 32 0x8000003F b.smb.cause 4))).smbStop

/-- Cause bits are cleared, except those that set again in the same Plinth cycle, each of which is counted (R481). A reserved bit is never
set, so a 1 in it clears nothing; bit 2 stays while a recovery is pending (R502). -/
def causeClear (mask again : Nat) (b : Block) : Block :=
  let both := b.smb.cause &&& mask &&& again
  let mask := if b.custody.recovery.isSome then clearBit mask 2 else mask
  (b.modSmb fun x => { x with cause := clearBits x.cause (clearBits mask again) }).count Obj.smbCoincidences (popCount both 32)

/-- ALERT_CAUSE, write (R474, R475). -/
def smbCauseWrite (mask again : Nat) (pecOk : Bool) (b : Block) : Block :=
  let (ok, b) := b.smbStart
  if !ok then b
  else if !pecOk then ((b.bump Obj.smbPecErrors).raise 945).smbStop
  else (b.causeClear mask again).smbStop

/-- TEMPERATURE (R474). -/
def smbTemperature (b : Block) : Block :=
  let (ok, b) := b.smbStart
  if !ok then b else (b.smbAnswer 5 (leBytes 2 (b.reg Obj.thermalCase))).smbStop

/-- RESPONSE (R474, R476): not acknowledged while the request executes. -/
def smbResponse (b : Block) : Block :=
  let (ok, b) := b.smbStart
  if !ok then b
  else if b.smb.executing then b.smbStop
  else
    match b.smb.response with
    | none => b.smbStop
    | some r =>
      let body : List Byte := match r.result with
        | .ok => [0]
        | .data d => 0 :: d
        | .abort c => 1 :: leBytes 4 c.value
      let b := b.smbAnswer 2 (BitVec.ofNat 8 (body.length) :: body)
      (b.modSmb fun x => { x with response := some { r with read := true } }).smbStop

/-- The hold of a response ends (R476). -/
def smbHoldEnd (b : Block) : Block :=
  match b.smb.response with
  | some r =>
    if passed r.readyAt (b.reg Obj.smbResponseHold * tMs) b.now then b.modSmb fun x => { x with response := some { r with read := true } } else b
  | none => b

/-- A read from the alert response address (R480, R481). `lost`: another device wins the arbitration; `again`: a cause bit of the answering
class rises while its answer is on the bus. -/
def alertResponse (lost again : Bool) (b : Block) : Block :=
  let urgent := b.smb.owesUrgent
  if !b.alertAsserted then b
  else
  let (ok, b) := b.smbStart
  if !ok then b
  else if lost then (b.bump Obj.smbAraLosses).smbStop
  else
    let set := smbSet b.smb.address b.smb.mask
    let a := if urgent then (set.head?).getD b.smb.address else (set.getLast?).getD b.smb.address
    let byte := BitVec.ofNat 8 (2 * a)
    let b := b.emit (.smb [byte, BitVec.ofNat 8 (pec [BitVec.ofNat 8 (2 * 0x0C + 1), byte])])
    let b := b.modSmb fun x => if urgent then { x with owesUrgent := again } else { x with owesNormal := again }
    let b := if again then b.bump Obj.smbCoincidences else b
    (b.raise 948).smbStop

/-- The alert task (R484). -/
def alertTask (b : Block) : Block := b.alert 31

/-- SMB_SCL low for 30 ms (R482); with a STOP in the same Plinth cycle the transaction ends normally. -/
def sclTimeout (withStop : Bool) (b : Block) : Block :=
  if b.power.phase = .held then b
  else if withStop then (b.bump Obj.smbNearMisses).smbStop
  else (b.bump Obj.smbTimeouts).raise 946

/-- A START that addresses the pier: the first one in deep sleep is not acknowledged (R478). -/
def sleepStart (b : Block) : Block := b.smbStart.2

/-- No START for `smb.sleep_idle` (R478). -/
def sleepIdleEnd (b : Block) : Block :=
  if b.asleep && !b.smb.lowPower && passed b.smb.lastStart (b.reg Obj.smbSleepIdle * tMs) b.now then
    b.modSmb fun x => { x with lowPower := true, wakingUntil := none }
  else b

end Block
end Sys2Proof.Machine
end

