-- ==== Sys2Proof/Machine/Lookup.lean ====
section
/-! DEFINITION. Looking an object up in the tables of the dictionary, and checking a value against its type and range (R2, R58, R59,
R594). -/
namespace Sys2Proof.Machine

/-- Whether a row places an object at an index. -/
def Row.hasIndex (r : Row) (index : Nat) : Bool :=
  if r.stride = 0 then index == r.i0
  else decide (r.i0 ≤ index) && (index - r.i0) % r.stride == 0 && decide ((index - r.i0) / r.stride < r.count)

/-- Whether a row holds a sub-index. -/
def Row.hasSub (r : Row) (sub : Nat) : Bool := decide (r.s0 ≤ sub) && decide (sub ≤ r.s1)

/-- The row of a sub-index. -/
def findRow (index sub : Nat) : Option Row := objectRows.find? fun r => r.hasSub sub && r.hasIndex index

/-- Whether an index is implemented at all (R60). -/
def indexExists (index : Nat) : Bool := objectRows.any fun r => r.hasIndex index

/-- The object of a sub-index of a row. -/
def Row.obj (r : Row) (index sub : Nat) : Obj := ⟨index, sub, r.ty, r.dflt⟩

/-- Whether n is a power of two. -/
def isPow2 (n : Nat) : Bool := n != 0 && 2 ^ n.log2 == n

/-- The codes that a number brings under a range (R58, R594). -/
def Chk.codes (c : Chk) (v : Int) : List AbortCode :=
  match c with
  | .any => []
  | .range x y => codeIf (decide (v < x) || decide (y < v)) .range
  | .oneOf vs => codeIf (!vs.contains v) .range
  | .hiLo x y => codeIf (decide (y < v)) .tooHigh ++ codeIf (decide (v < x)) .tooLow
  | .hi y => codeIf (decide (y < v)) .tooHigh
  | .lo x => codeIf (decide (v < x)) .tooLow
  | .mult x y step => codeIf (decide (v < x) || decide (y < v) || v % step != 0) .range
  | .pow2 x y z => codeIf (!(z && v == 0 || decide (x ≤ v) && decide (v ≤ y) && isPow2 v.toNat)) .range
  | .mask m => codeIf (clearBits v.toNat m != 0) .range
  | .pdoType => codeIf (!(decide (v ≤ 240) || v == 254 || v == 255)) .range

/-- A raw value of a row read as its type. -/
def Row.value (r : Row) (raw : Nat) : Int := if r.ty.signed then toSigned r.ty.bits raw else (raw : Int)

/-- The codes that the data of a write bring by length and range (R594); a BOOL is 0 or 1. Types of variable size are checked by their
objects. -/
def Row.dataCodes (r : Row) (data : List Byte) : List AbortCode :=
  if r.ty.bits = 0 then []
  else if data.length * 8 ≠ r.ty.bits then [.length]
  else codeIf (r.ty == .bool && decide (1 < leNat data)) .range ++ r.chk.codes (r.value (leNat data))

/-! ## Requests of one cycle (R26, R29) -/

/-- The place of a route in the order of R26. -/
def routePlace : Route → Nat
  | .smbus => 1 | .can _ => 2 | .mailbox _ => 3 | .tunnel _ => 4

/-- The cycle in which an instant falls, for two requests at an object: that of the dictionary's arbiter, or where one comes by BAR0 that
of the object's own domain (MEM, PCI). DESIGN CHOICE: the cycles of each domain begin with ring time 0; the spec relates no two domains. -/
def cycleOf (bar0 : Bool) (key : Nat) (t : Time) : Nat :=
  if bar0 && decide (0x240000 ≤ key) && decide (key < 0x250000) then t.toNat * 9 / 128
  else if bar0 && decide (0x260000 ≤ key) && decide (key < 0x270000) then t.toNat / 16
  else ctlCycle t

namespace Block

/-- The writes of one cycle to a sub-index that stand later in the order of R26 than a request at a place. -/
def laterWrites (place key : Nat) (b : Block) : List ArbWrite :=
  b.control.writes.filter fun w => w.key == key && decide (place < w.place) && cycleOf (place == 0) key w.at_ == cycleOf (place == 0) key b.now

/-- The nearest of them: what a request at a place reads or overwrites stands before it. -/
def nextWrite (place key : Nat) (b : Block) : Option ArbWrite :=
  (b.laterWrites place key).foldl (fun m w =>
    match m with
    | none => some w
    | some x => if w.place < x.place then some w else some x) none

/-- A write of a sub-index is noted for the rest of its cycle; none lasts longer than the CTL domain's, 20 ticks. -/
def noteWrite (place : Nat) (o : Obj) (b : Block) : Block :=
  let near := b.control.writes.filter fun w => !passed w.at_ 20 b.now
  { b with control := { b.control with writes := near ++ [⟨b.now, place, o.key, b.reg o⟩] } }

/-- A write that another of its cycle overtakes: its value is what the requests between the two read. -/
def writeUnder (w : ArbWrite) (v : Nat) (b : Block) : Block :=
  { b with control := { b.control with writes := b.control.writes.map fun x => if x == w then { x with old := v } else x } }

/-- A value is written by BAR0 (R29): a dictionary write of the same cycle is applied second and stays in force. -/
def setByBar (o : Obj) (v : Nat) (b : Block) : Block :=
  match b.nextWrite 0 o.key with
  | some w => b.writeUnder w v
  | none => b.setReg o v

end Block
end Sys2Proof.Machine
end

