-- ==== Sys2Proof/Machine/Custody.lean ====
section
/-! DEFINITION. Custody records and Elzia images: fields, signatures, the nonce, expiry, the check of an image and the boot ROM's choice of a
slot (R487 to R510). -/
namespace Sys2Proof.Machine

/-- A string of bytes brought to a length. -/
def exactly (n : Nat) (l : List Byte) : List Byte := (padTo n l).take n

/-- A key that is not set (R489). -/
def keyUnset (k : List Byte) : Bool := k.all (· == 0)

/-- Whether a signature by a key verifies over a message (R487). -/
def signedBy (key message signature : List Byte) : Bool := Config.ecdsaVerifies key message signature

/-- One change of a proposal (R491); `clean` says that its reserved fields are 0. -/
structure Change where
  index : Nat
  sub : Nat
  value : List Byte
  clean : Bool
  deriving DecidableEq, Repr

/-- The change entries of a record from an offset (R491): each value is zero-padded to a multiple of 4. Nothing when they do not fill
their room exactly or a padding byte is not 0. -/
def changesFrom (l : List Byte) : Nat → Option (List Change)
  | 0 => if l.isEmpty then some [] else none
  | n + 1 =>
    let len := fieldU l 4 2
    let room := (len + 3) / 4 * 4
    if l.length < 8 + room ∨ !zeroAt l (8 + len) (room - len) then none
    else (changesFrom (l.drop (8 + room)) n).map fun cs => ⟨fieldU l 0 2, fieldU l 2 1, slice l 8 len, fieldU l 3 1 == 0 && fieldU l 6 2 == 0⟩ :: cs

/-- Fields of a proposal record (R491). -/
def recLength (l : List Byte) : Nat := fieldU l 4 2
def recKind (l : List Byte) : Nat := fieldU l 2 1
def recChanges (l : List Byte) : Option (List Change) :=
  let n := fieldU l 3 1
  if n = 0 ∨ 8 < n then none else changesFrom (slice l 0x30 (recLength l - 0x30 - 96)) n

/-- Whether the fixed fields of a proposal record are as R491 states. -/
def recForm (l : List Byte) : Bool :=
  fieldU l 0 1 == 1 && decide (fieldU l 2 1 ≤ 1) && decide (0x30 + 96 ≤ recLength l) && recLength l == l.length && (recChanges l).isSome

/-- Whether a proposal record sets a reserved field (R2). -/
def recReserved (l : List Byte) : Bool := fieldU l 6 2 != 0 || ((recChanges l).getD []).any fun c => !c.clean

/-! ## Elzia images (R503, R504) -/

def imageVersion (l : List Byte) : Nat := fieldU l 0x00C 4
def imageSecurity (l : List Byte) : Nat := fieldU l 0x010 4
def imageRaises (l : List Byte) : Bool := (fieldU l 0x014 4).testBit 0
def imageHeader (l : List Byte) : List Byte := slice l 0 0x200

/-- The version string, up to its first zero byte. -/
def imageString (l : List Byte) : List Byte := (slice l 0x100 256).takeWhile (· != 0)

/-- The check of an image under R504, as `fw.stage_status` reads it: 2 valid, 3 header, 4 product, 5 digest, 6 ECDSA, 7 LMS, 8 below the
floor. -/
def imageCheck (l : List Byte) (floor : Nat) : Nat :=
  let n := fieldU l 0x018 4
  if l.length < 4096 ∨ fieldU l 0 4 ≠ 0x415A4C45 ∨ fieldU l 4 2 ≠ 1 ∨ fieldU l 6 2 ≠ 512 ∨ 1 < fieldU l 0x014 4 ∨ n % 4 ≠ 0 ∨ n < 4 ∨
     4190208 < n ∨ l.length ≠ 4096 + n ∨ !zeroAt l 0x01C 4 ∨ !zeroAt l 0x050 176 ∨ !zeroAt l 0x8AC 1876 then 3
  else if fieldU l 8 4 ≠ 0x6440 then 4
  else if Config.sha384 (l.drop 4096) ≠ slice l 0x020 48 then 5
  else if !Config.ecdsaVerifies Config.imageKey (imageHeader l) (slice l 0x200 96) then 6
  else if !Config.lmsVerifies Config.imageLmsKey (imageHeader l) (slice l 0x260 1612) then 7
  else if imageSecurity l < floor then 8
  else 2

/-- Whether a slot passes R504: what it holds does not change after it was written, so of a check repeated at a start only the floor can
have changed. -/
def slotPasses (x : FwSlot) (floor : Nat) : Bool := x.genuine && decide (floor ≤ imageSecurity x.image)

namespace Block

def modCustody (f : Custody → Custody) (b : Block) : Block := { b with custody := f b.custody }
def modFirmware (f : Firmware → Firmware) (b : Block) : Block := { b with firmware := f b.firmware }
def modSlotFw (s : Fin 2) (f : FwSlot → FwSlot) (b : Block) : Block :=
  b.modFirmware fun x => { x with slots := x.slots.set s (f x.slots[s]) }

/-- The key of a custodian: the board's, or the host's. -/
def custodianKey (board : Bool) (b : Block) : List Byte := if board then b.custody.boardKey else b.custody.hostKey

/-- Whether both custodians have keys (R489). -/
def provisioned (b : Block) : Bool := !keyUnset b.custody.hostKey && !keyUnset b.custody.boardKey

/-- `custody.state` (R514). -/
def custodyState (b : Block) : Nat :=
  if !b.provisioned then 0 else if b.custody.commit.isSome then 3 else if b.custody.pending.isSome then 2 else 1

/-- A new nonce is drawn (R490): its bytes are not fixed by the spec. -/
def renewNonce (b : Block) : Block := (b.modCustody fun x => { x with nonce := exactly 32 (Config.freeBytes b.free) }).used

/-- The pending ordinary proposal ends as an expiry (R496). -/
def proposalExpires (b : Block) : Block :=
  match b.custody.pending with
  | none => b
  | some _ => (((b.modCustody fun x => { x with pending := none }).bump Obj.custodyExpiries).raise 962).renewNonce

/-- Ticks of the recovery delay that are left (R502). -/
def recoveryLeft (r : Recovery) (b : Block) : Nat := r.left - (timeDiff b.now r.since).toNat

/-- Changes take force together (R497): the keys, and every other object as a register. A change to `fw.activate_slot` activates
after the response. -/
def applyChanges (cs : List Change) (b : Block) : Block :=
  cs.foldl (fun b c =>
    if c.index = 0x2120 then b.modCustody fun x => { x with hostKey := c.value }
    else if c.index = 0x2121 then b.modCustody fun x => { x with boardKey := c.value }
    else match findRow c.index c.sub with
      | some r => b.setReg (r.obj c.index c.sub) (leNat c.value)
      | none => b) b

/-- A journal entry is applied (R497, R498): the changes, generation + 1, a new nonce. An ordinary commit cancels a pending recovery (R502). -/
def journalApply (c : Commit) (b : Block) : Block :=
  let b := b.applyChanges ((recChanges c.record).getD [])
  let cancel := !c.recovery && b.custody.recovery.isSome
  let b := b.modCustody fun x =>
    { x with generation := x.generation + 1, commit := none, pending := if c.recovery then x.pending else none, recovery := none }
  (b.raiseIf cancel 967).renewNonce

/-- A reset or a restart ends a pending proposal and decides a commit in progress by its journal (R496, R498): whether the entry was complete
is open. -/
def custodyCut (b : Block) : Block :=
  let b := match b.custody.commit with
    | none => b
    | some c => if b.freeChoice then b.used.journalApply c else b.used.modCustody fun x => { x with commit := none }
  let b := b.proposalExpires
  (b.modCustody fun x => { x with hostDraft := none, boardDraft := none }).renewNonce

/-! ## The boot ROM (R505, R507, R508) -/

/-- Recovery mode: neither slot passes (R508). -/
def recoveryMode (s : Fin 2) (b : Block) : Block :=
  ((b.modFirmware fun x => { x with recovery := true, trialEnds := none }).logFault 0x0006 s.val 1 976).raise 976

/-- The boot ROM runs a slot that has passed: a slot in trial is run once (R507). -/
def bootRun (s : Fin 2) (b : Block) : Block :=
  let trial := b.firmware.slots[s].state == 2
  let b := b.modFirmware fun x =>
    { x with running := s, recovery := false,
             trialEnds := if trial then some (later b.now (b.reg Obj.fwTrialTime * tSec)) else none }
  b.raiseIf trial 972

/-- The slot that the boot ROM selects: one activated and not yet run, else the confirmed one (R507). A trial that was running returns to
state 1. -/
def bootSelect (b : Block) : Fin 2 × Block :=
  let r := b.firmware.running
  let o : Fin 2 := 1 - r
  if b.firmware.slots[o].state = 2 then (o, b)
  else
    let ended := b.firmware.slots[r].state == 2
    let b := if ended then ((b.modSlotFw r fun x => { x with state := 1 }).raise 974) else b
    if b.firmware.slots[r].state = 3 then (r, b) else if b.firmware.slots[o].state = 3 then (o, b) else (r, b)

/-- Every start of the control cores checks the selected slot, then the other one (R508). -/
def boot (b : Block) : Block :=
  let floor := b.reg Obj.fwSecurityFloor
  let (s, b) := b.bootSelect
  let o : Fin 2 := 1 - s
  if slotPasses b.firmware.slots[s] floor then b.bootRun s
  else
    let b := b.modSlotFw s fun x => { x with state := 4 }
    let st := b.firmware.slots[o].state
    if (st = 1 ∨ st = 3) ∧ slotPasses b.firmware.slots[o] floor then
      ((b.bootRun o).logFault 0x0006 o.val 0 975).raise 975
    else
      let b := if st = 1 ∨ st = 3 then b.modSlotFw o fun x => { x with state := 4 } else b
      b.recoveryMode s

end Block
end Sys2Proof.Machine
end

