-- ==== Sys2Proof/Machine/Fabric.lean ====
section
/-! DEFINITION. The event fabric: routing of raised events through the storm guard, the relays and the catch latches, the
timer and counter units, and the select check (R358 to R380). -/
namespace Sys2Proof.Machine

/-- Window of the storm guard, 1,000 ns (R368). -/
def stormWindow : Nat := 1000 * tNs

/-- Sources that no table assigns (R377): they never fire and cannot be selected or fired. -/
def reservedSource (s : Nat) : Bool :=
  if s < 32 then decide (25 ≤ s)
  else if s < 64 then decide (51 ≤ s) && decide (s ≤ 55)
  else if s < 576 then (let k := (s - 64) % 128; decide (37 ≤ k) && decide (k ≤ 39) || decide (51 ≤ k))
  else if s < 640 then decide (632 ≤ s)
  else if s < 704 then (let k := (s - 640) % 32; decide (17 ≤ k) && decide (k ≤ 23))
  else if s < 768 then decide (713 ≤ s)
  else if s < 832 then decide (790 ≤ s)
  else if s < 864 then decide (844 ≤ s)
  else if s < 928 then false
  else if s < 960 then (let k := s - 928; decide (6 ≤ k) && decide (k ≤ 15) || decide (22 ≤ k))
  else if s < 992 then decide (980 ≤ s)
  else false

namespace Block

/-- The source that a task input selects (R363). -/
def select (t : Nat) (b : Block) : Nat := b.reg (Obj.fabricTaskSelect t)

/-- Whether a task input takes an event of a source (R363, R365): within 2 ns of a change of its select none of the new source is delivered,
and one of the old source is or is not. -/
def selects (t s : Nat) (b : Block) : Bool :=
  match b.fabric.changes.get? t with
  | some (at_, old) =>
    if passed at_ (2 * tNs) b.now then b.select t == s
    else s == old && (s == b.select t || Config.selectRace b.now.toNat t s)
  | none => b.select t == s

/-- A select is written (R365). -/
def selectWrite (t v : Nat) (b : Block) : Block :=
  let old := b.select t
  ({ b with fabric := { b.fabric with changes := b.fabric.changes.insert t (b.now, old) } }).setReg (Obj.fabricTaskSelect t) v

/-- Whether a task input can be reached: its block is neither isolated (R362, R585) nor, in deep sleep, outside those of
R376: task 1, which wakes the pier, and the units on clock 1. -/
def taskAlive (t : Nat) (b : Block) : Bool :=
  if b.asleep then
    t == 1 || (decide (480 ≤ t) && b.reg (Obj.timerClock ((t - 480) / 2 % 16)) == 1)
  else if 32 ≤ t ∧ t < 288 then
    (match b.heads[((t - 32) / 64 % 4)]? with | some h => h.state != .isolated | none => false)
  else true

/-- An event sets the catch latch of one task, or merges into it and is counted (R359, R360). Stamps have 1 ns
resolution. -/
def latchTask (t : Nat) (b : Block) : Block :=
  let f := b.fabric
  match f.latches.get? t with
  | some l =>
    { b with fabric := { f with latches := f.latches.insert t { l with merged := true },
                                coincidences := f.coincidences.insert t (satAdd ((f.coincidences.get? t).getD 0) 1 max32) } }
  | none =>
    { b with fabric := { f with latches := f.latches.insert t ⟨BitVec.ofNat 64 (b.now.toNat / 16 * 16), false⟩ } }

/-- The tasks, other than relay inputs, that an event of a source reaches (R358). -/
def tasksOf (s : Nat) (b : Block) : List Nat :=
  (List.range 512).filter fun t => (decide (t < 16) || decide (32 ≤ t)) && b.selects t s && b.taskAlive t

/-- An event reaches an input of relay r; the relay raises its output unless its other input had an event less than
2 ns ago, or both inputs have this one (R366). -/
def relayInput (r : Nat) (in0 in1 : Bool) (b : Block) : Block :=
  let f := b.fabric
  let recent (t : Nat) : Bool :=
    match f.relayIn.get? t with | some x => !passed x (2 * tNs) b.now | none => false
  let merged := (in0 && !in1 && recent (17 + 2 * r)) || (in1 && !in0 && recent (16 + 2 * r))
  let m := if in0 then f.relayIn.insert (16 + 2 * r) b.now else f.relayIn
  let m := if in1 then m.insert (17 + 2 * r) b.now else m
  ({ b with fabric := { f with relayIn := m } }).raiseIf (!merged) (56 + r)

/-- An event of a source is delivered: relays first, then the catch latches of every task that selects it. -/
def deliver (s : Nat) (b : Block) : Block :=
  let b := (List.range 8).foldl (fun b r =>
    let i0 := b.selects (16 + 2 * r) s
    let i1 := b.selects (17 + 2 * r) s
    if i0 || i1 then b.relayInput r i0 i1 else b) b
  (b.tasksOf s).foldl (fun b t => b.latchTask t) b

/-- The guard trips on a source: it is disabled, counted and logged, and source 48 is raised (R368). -/
def stormTrip (s : Nat) (b : Block) : Block :=
  let f := b.fabric
  let f := { f with windows := f.windows.erase s, tripped := f.tripped.insert s b.now,
                    stormTrips := satAdd f.stormTrips 1 max32, stormLast := s }
  ((({ b with fabric := f }).logFault 0x0020 noUnit s 48).writeFaults).raise 48

/-- The length of a source's window: the guard measures it to within ±250 ns in deep sleep (R370). -/
def windowLength (s : Nat) (w : StormWin) (b : Block) : Nat :=
  if b.asleep then 750 * tNs + Config.sleepWindow w.opened.toNat s % (500 * tNs + 1) else stormWindow

/-- The sources that the fabric routes in deep sleep (R376, R536): the Plinth sources, the relays, the units on clock 1, those of the SMBus, the
software channels. -/
def sleepSource (s : Nat) (b : Block) : Bool :=
  [1, 2, 5, 6, 7, 8, 13].contains s || (decide (56 ≤ s) && decide (s < 64)) ||
  (decide (32 ≤ s) && decide (s < 48) && b.reg (Obj.timerClock (s - 32)) == 1) ||
  (decide (944 ≤ s) && decide (s < 960)) || decide (992 ≤ s)

/-- One event passes the storm guard and is delivered, trips the guard, or is dropped (R368, R369). The 65th event of a
window, and those within 20 ns after it, may each be delivered or not. -/
def routeEvent (s : Nat) (b : Block) : Block :=
  if b.asleep && !b.sleepSource s then b
  else match b.fabric.tripped.get? s with
  | some tr =>
    if passed tr (20 * tNs + 1) b.now then b
    else if b.freeChoice then b.used.deliver s else b.used
  | none =>
    match b.fabric.windows.get? s with
    | some w =>
      if passed w.opened (b.windowLength s w) b.now then
        ({ b with fabric := { b.fabric with windows := b.fabric.windows.insert s ⟨b.now, 1⟩ } }).deliver s
      else if w.count ≥ 64 then
        let b := b.stormTrip s
        if b.freeChoice then b.used.deliver s else b.used
      else
        ({ b with fabric := { b.fabric with windows := b.fabric.windows.insert s { w with count := w.count + 1 } } }).deliver s
    | none =>
      ({ b with fabric := { b.fabric with windows := b.fabric.windows.insert s ⟨b.now, 1⟩ } }).deliver s

/-- Events raised and not yet routed are routed, oldest first, with those that routing itself raises. -/
def route : Nat → Block → Block
  | 0, b => b
  | n + 1, b =>
    match b.fabric.queue with
    | [] => b
    | s :: rest => route n (routeEvent s { b with fabric := { b.fabric with queue := rest } })

/-- What ends every command: the events it raised pass the fabric. 4,096 covers every cascade: an event makes at most
eight relay events, one trip and the events of one fault-log entry. -/
def settle (b : Block) : Block := route 4096 b

/-! ## Storm guard and software firing -/

/-- 1,000 ns after it opened, a source's window closes (R368). -/
def stormClose (s : Nat) (b : Block) : Block :=
  match b.fabric.windows.get? s with
  | some w =>
    if passed w.opened (b.windowLength s w) b.now then { b with fabric := { b.fabric with windows := b.fabric.windows.erase s } }
    else b
  | none => b

/-- A tripped source is enabled again; no window opens (R369). -/
def stormRearm (s : Nat) (b : Block) : Block :=
  { b with fabric := { b.fabric with tripped := b.fabric.tripped.erase s } }

/-! ## Selects (R363 to R367) -/

/-- Sources reachable from one through relays alone, with a select taken as given (R367). -/
def relayReach (sel : Nat → Nat) : Nat → List Nat → List Nat
  | 0, l => l
  | n + 1, l =>
    let more := ((List.range 8).filter fun r => l.contains (sel (16 + 2 * r)) || l.contains (sel (17 + 2 * r))).map (56 + ·)
    relayReach sel n (l ++ more.filter fun s => !l.contains s)

/-- Whether selecting source s for task t would close a loop of relays (R367). -/
def loopsBack (t s : Nat) (b : Block) : Bool :=
  if 16 ≤ t ∧ t < 32 then
    let sel := fun u => if u = t then s else b.select u
    (relayReach sel 8 [56 + (t - 16) / 2]).contains s
  else false

/-! ## Timer and counter units (R372 to R375) -/

def modTimer (u : TimerId) (f : TimerUnit → TimerUnit) (b : Block) : Block :=
  { b with fabric := { b.fabric with timers := b.fabric.timers.set u (f b.fabric.timers[u]) } }

/-- Ticks of a unit's period: nanoseconds of ring time on clock 0, cycles of the 32.768 kHz crystal on clock 1 (R373). -/
def periodTicks (clock period : Nat) : Nat := if clock = 0 then period * tNs else period * 48828125 / 100

/-- A unit's A task (R372): start or restart, count, or arm. `withB`: its B task is sampled in the same cycle, which then
wins (R361, R374). -/
def timerA (u : TimerId) (withB : Bool) (b : Block) : Block :=
  let mode := b.reg (Obj.timerMode u)
  let clock := b.reg (Obj.timerClock u)
  let x := b.fabric.timers[u]
  let x := { x with period := b.reg (Obj.timerPeriod u), limit := b.reg (Obj.timerLimit u),
                    alarm := BitVec.ofNat 64 (b.reg (Obj.timerAlarm u)) }
  if withB then
    let t := 480 + 2 * u.val
    let f := b.fabric
    ({ b with fabric := { f with coincidences := f.coincidences.insert t (satAdd ((f.coincidences.get? t).getD 0) 1 max32) } }).modTimer u
      fun _ => if mode = 3 then { x with count := 0 } else { x with running := false }
  else
    match mode with
    | 1 | 2 => b.modTimer u fun _ => { x with running := true, endAt := later b.now (periodTicks clock x.period) }
    | 3 =>
      if x.limit ≤ x.count + 1 then (b.modTimer u fun _ => { x with count := 0 }).raise (32 + u.val)
      else b.modTimer u fun _ => { x with count := x.count + 1 }
    | 4 =>
      if clock = 1 then b.raise 50
      else if due x.alarm b.now then (b.modTimer u fun _ => { x with running := false }).raise (32 + u.val)
      else b.modTimer u fun _ => { x with running := true, endAt := x.alarm }
    | _ => b

/-- A unit's B task (R372): stop without firing, zero, or disarm. -/
def timerB (u : TimerId) (b : Block) : Block :=
  match b.reg (Obj.timerMode u) with
  | 1 | 2 | 4 => b.modTimer u fun x => { x with running := false }
  | 3 => b.modTimer u fun x => { x with count := 0 }
  | _ => b

/-- A running unit reaches the end of its period, or an armed one its instant (R372 to R374). With a B task in the same
cycle the B task is performed, nothing fires and the near miss is counted. -/
def timerEnd (u : TimerId) (modes : List Nat) (withB : Bool) (b : Block) : Block :=
  let x := b.fabric.timers[u]
  let mode := b.reg (Obj.timerMode u)
  if x.running && modes.contains mode && due x.endAt b.now then
    if withB then
      ({ b with fabric := { b.fabric with nearMisses := satAdd b.fabric.nearMisses 1 max32 } }).timerB u
    else if mode = 2 then
      (b.modTimer u fun x => { x with endAt := later x.endAt (periodTicks (b.reg (Obj.timerClock u)) x.period) }).raise (32 + u.val)
    else (b.modTimer u fun x => { x with running := false }).raise (32 + u.val)
  else b

end Block
end Sys2Proof.Machine
end

