-- ==== Sys2Proof/Machine/Tables.lean ====
section
/-! DEFINITION. The large tables of the dictionary: what each holds by default, and the checks of a download. -/
namespace Sys2Proof.Machine

/-! ## Defaults -/

/-- Rows 0 to 15 of the default filter: the four-lobe Lanczos kernel of R182, evaluated from its definition. -/
def lanczosA : List (List Int) :=
  [[0, 0, 0, 16384, 0, 0, 0, 0],
   [-25, 80, -226, 16377, 235, -83, 26, 0],
   [-49, 158, -443, 16356, 478, -168, 53, -1],
   [-71, 232, -651, 16319, 730, -255, 82, -2],
   [-93, 304, -850, 16271, 990, -345, 111, -4],
   [-113, 373, -1040, 16207, 1257, -436, 142, -6],
   [-132, 438, -1220, 16130, 1533, -529, 173, -9],
   [-149, 501, -1390, 16038, 1815, -623, 205, -13],
   [-165, 560, -1551, 15933, 2105, -719, 238, -17],
   [-180, 615, -1703, 15817, 2401, -816, 271, -21],
   [-193, 668, -1845, 15685, 2703, -913, 305, -26],
   [-205, 717, -1977, 15540, 3012, -1011, 339, -31],
   [-216, 762, -2100, 15385, 3326, -1110, 374, -37],
   [-226, 804, -2213, 15216, 3646, -1208, 409, -44],
   [-234, 842, -2316, 15034, 3970, -1307, 445, -50],
   [-241, 877, -2410, 14841, 4299, -1405, 480, -57]]
/-- Rows 16 to 31 (R182). -/
def lanczosB : List (List Int) :=
  [[-247, 908, -2495, 14638, 4631, -1502, 516, -65],
   [-251, 936, -2571, 14422, 4968, -1598, 551, -73],
   [-255, 961, -2638, 14196, 5308, -1693, 586, -81],
   [-257, 982, -2695, 13960, 5650, -1786, 620, -90],
   [-258, 1000, -2744, 13711, 5995, -1877, 655, -98],
   [-258, 1014, -2785, 13458, 6341, -1967, 688, -107],
   [-258, 1025, -2816, 13193, 6689, -2053, 721, -117],
   [-256, 1034, -2840, 12919, 7038, -2138, 753, -126],
   [-253, 1039, -2856, 12635, 7388, -2218, 784, -135],
   [-250, 1041, -2863, 12347, 7737, -2296, 813, -145],
   [-246, 1040, -2864, 12050, 8086, -2370, 842, -154],
   [-241, 1036, -2857, 11746, 8434, -2440, 869, -163],
   [-235, 1030, -2842, 11435, 8780, -2506, 894, -172],
   [-229, 1021, -2821, 11119, 9124, -2567, 918, -181],
   [-222, 1009, -2794, 10797, 9466, -2623, 941, -190],
   [-215, 995, -2760, 10472, 9804, -2674, 961, -199]]
/-- Rows 32 to 47 (R182). -/
def lanczosC : List (List Int) :=
  [[-207, 979, -2720, 10140, 10140, -2720, 979, -207],
   [-199, 961, -2674, 9804, 10472, -2760, 995, -215],
   [-190, 941, -2623, 9466, 10797, -2794, 1009, -222],
   [-181, 918, -2567, 9124, 11119, -2821, 1021, -229],
   [-172, 894, -2506, 8780, 11435, -2842, 1030, -235],
   [-163, 869, -2440, 8434, 11746, -2857, 1036, -241],
   [-154, 842, -2370, 8086, 12050, -2864, 1040, -246],
   [-145, 813, -2296, 7737, 12347, -2863, 1041, -250],
   [-135, 784, -2218, 7388, 12635, -2856, 1039, -253],
   [-126, 753, -2138, 7038, 12919, -2840, 1034, -256],
   [-117, 721, -2053, 6689, 13193, -2816, 1025, -258],
   [-107, 688, -1967, 6341, 13458, -2785, 1014, -258],
   [-98, 655, -1877, 5995, 13711, -2744, 1000, -258],
   [-90, 620, -1786, 5650, 13960, -2695, 982, -257],
   [-81, 586, -1693, 5308, 14196, -2638, 961, -255],
   [-73, 551, -1598, 4968, 14422, -2571, 936, -251]]
/-- Rows 48 to 63 (R182). -/
def lanczosD : List (List Int) :=
  [[-65, 516, -1502, 4631, 14638, -2495, 908, -247],
   [-57, 480, -1405, 4299, 14841, -2410, 877, -241],
   [-50, 445, -1307, 3970, 15034, -2316, 842, -234],
   [-44, 409, -1208, 3646, 15216, -2213, 804, -226],
   [-37, 374, -1110, 3326, 15385, -2100, 762, -216],
   [-31, 339, -1011, 3012, 15540, -1977, 717, -205],
   [-26, 305, -913, 2703, 15685, -1845, 668, -193],
   [-21, 271, -816, 2401, 15817, -1703, 615, -180],
   [-17, 238, -719, 2105, 15933, -1551, 560, -165],
   [-13, 205, -623, 1815, 16038, -1390, 501, -149],
   [-9, 173, -529, 1533, 16130, -1220, 438, -132],
   [-6, 142, -436, 1257, 16207, -1040, 373, -113],
   [-4, 111, -345, 990, 16271, -850, 304, -93],
   [-2, 82, -255, 730, 16319, -651, 232, -71],
   [-1, 53, -168, 478, 16356, -443, 158, -49],
   [0, 26, -83, 235, 16377, -226, 80, -25]]

/-- The default filter table of 1,024 bytes (R182). -/
def defaultFilter : List Byte :=
  (lanczosA ++ lanczosB ++ lanczosC ++ lanczosD).flatMap fun r => r.flatMap fun c => leBytes 2 (ofSigned 16 c)

/-- The identity pixel table: GAIN 8,192, all else 0, in every entry (R146). -/
def identityPixels : List Byte := (List.replicate 16384 (leBytes 4 (8192 * 2 ^ 18))).flatten

/-- The identity segment table (R146): number 0, gains 0, t_cal and t_ref 400, no polynomial, P[j] = 8,192 × j. -/
def identitySegments : List Byte :=
  leBytes 2 0 ++ leBytes 2 0 ++ leBytes 2 400 ++ leBytes 2 400 ++ List.replicate 56 0 ++
  (List.replicate 16 (List.replicate 28 (0 : Byte) ++ (List.range 33).flatMap fun j => leBytes 4 (8192 * j))).flatten

/-- The default geometry for nb bins a segment: edge to edge, no delay (R172). -/
def defaultGeometry (nb : Nat) : List Byte :=
  List.replicate 16 0 ++ (List.range 16).flatMap fun s => leBytes 4 (s * nb * 65536) ++ List.replicate 12 0

/-- The default trim table (R290). -/
def defaultTrims : List Byte :=
  ((List.range 64).flatMap fun i => leBytes 4 (32768 * 65536 + (i / 16) * 16384)) ++ List.replicate 2048 0

/-- The default linearisation table of an auxiliary channel (R330): two points, c1 = 1 (binary32 0x3F80_0000). -/
def defaultLin : List Byte :=
  leBytes 4 2 ++ leBytes 4 0 ++ leBytes 4 0x3F800000 ++ List.replicate 36 0 ++
  leBytes 4 0x80000000 ++ leBytes 4 0x80000000 ++ leBytes 4 0x7FFFFFFF ++ leBytes 4 0x7FFFFFFF ++ List.replicate 496 0

namespace Block

/-- Bins of a segment, nb = floor(active ÷ bin.factor) (R142, R172). -/
def bins (h : HeadId) (b : Block) : Nat := b.reg (Obj.headLayoutActive h) / b.reg (Obj.headBinFactor h)

/-- What a table holds until it is written or restored: the defaults of the owning chapters. The default geometry follows
the layout and binning in force. -/
def tableDefault (index : Nat) (b : Block) : List Byte :=
  if 0x6010 ≤ index ∧ index < 0x6014 then List.replicate 8192 0
  else if 0x6014 ≤ index ∧ index < 0x6018 then List.replicate 8 0
  else if 0x6018 ≤ index ∧ index < 0x601C then identityPixels
  else if 0x601C ≤ index ∧ index < 0x6020 then identitySegments
  else if 0x6020 ≤ index ∧ index < 0x6024 then identityPixels
  else if 0x6024 ≤ index ∧ index < 0x6028 then identitySegments
  else if 0x6028 ≤ index ∧ index < 0x602C then defaultGeometry (b.bins (Fin.ofNat 4 (index - 0x6028)))
  else if 0x602C ≤ index ∧ index < 0x6030 then defaultGeometry (b.bins (Fin.ofNat 4 (index - 0x602C)))
  else if 0x6030 ≤ index ∧ index < 0x6034 then defaultFilter
  else if 0x6034 ≤ index ∧ index < 0x6038 then defaultTrims
  else if 0x6040 ≤ index ∧ index < 0x6050 then defaultLin
  else if index = 0x6050 then List.replicate 1024 0
  else []

/-- The contents in force of a TABLE object (R30). -/
def table (index : Nat) (b : Block) : List Byte := (b.tables.get? index).getD (b.tableDefault index)

/-- The block with new contents of a TABLE object. -/
def setTable (index : Nat) (data : List Byte) (b : Block) : Block := { b with tables := b.tables.insert index data }

end Block

/-- Sizes that a download of a TABLE may have (R30): exactly its own, or those its chapter states. -/
def tableSizeOk (index : Nat) (n : Nat) : Bool :=
  if 0x6010 ≤ index ∧ index < 0x6014 then n = 8192
  else if 0x6014 ≤ index ∧ index < 0x6018 then n % 8 = 0 ∧ 8 ≤ n
  else if 0x6018 ≤ index ∧ index < 0x601C then n = 65536
  else if 0x601C ≤ index ∧ index < 0x6020 then n = 2624
  else if 0x6028 ≤ index ∧ index < 0x602C then n = 272
  else if 0x6030 ≤ index ∧ index < 0x6034 then n = 1024
  else if 0x6034 ≤ index ∧ index < 0x6038 then n = 2304
  else if 0x6040 ≤ index ∧ index < 0x6050 then n = 560
  else if index = 0x6050 then n = 1024
  else if index = 0x6060 then n % 4 = 0 ∧ 4100 ≤ n ∧ n ≤ 4194304
  else false

/-! ## The pattern table (R68, R69) -/

/-- One entry of the pattern table, as its fields. -/
structure PatternEntry where
  last : Bool
  section_ : Nat
  reserved : Nat
  fine : Nat
  coarse : Nat
  mask : Nat
  level : Nat
  deriving DecidableEq, Repr

/-- Entry i of a pattern table (R68). -/
def patternEntry (t : List Byte) (i : Nat) : PatternEntry :=
  let w := fieldU t (8 * i) 8
  ⟨w.testBit 63, w / 2 ^ 61 % 4, w / 2 ^ 58 % 8, w / 2 ^ 56 % 4, w / 2 ^ 32 % 2 ^ 24, w / 2 ^ 16 % 2 ^ 16, w % 2 ^ 16⟩

/-- Fire time of an entry after its anchor, in 488.28125 ps steps (R68). -/
def PatternEntry.time (e : PatternEntry) : Nat := 4 * e.coarse + e.fine

/-- The entries from i up to the first with END set, at most n. -/
def sectionFrom (t : List Byte) : Nat → Nat → List PatternEntry
  | 0, _ => []
  | n + 1, i => let e := patternEntry t i; if e.last then [e] else e :: sectionFrom t n (i + 1)

/-- Section 0 of a pattern table. -/
def section0 (t : List Byte) : List PatternEntry := sectionFrom t 1024 0
/-- Section 1 of a pattern table. -/
def section1 (t : List Byte) : List PatternEntry := sectionFrom t (1024 - (section0 t).length) (section0 t).length

/-- Whether entries stand in order, and none shares fire time and an output with an earlier one (R69). -/
def sectionOrdered : List PatternEntry → Bool
  | [] => true
  | e :: rest =>
    (match rest with | [] => true | f :: _ => decide (e.time ≤ f.time)) &&
    rest.all (fun f => f.time != e.time || (f.mask &&& e.mask) == 0) && sectionOrdered rest

/-- The conditions of R69. -/
def patternTableOk (t : List Byte) : Bool :=
  let s0 := section0 t
  let s1 := section1 t
  let n := s0.length + s1.length
  (s0.getLast?.any (·.last)) && (s1.getLast?.any (·.last)) &&
  s0.all (fun e => e.section_ == 0 && e.reserved == 0) && s1.all (fun e => e.section_ == 1 && e.reserved == 0) &&
  sectionOrdered s0 && sectionOrdered s1 && zeroAt t (8 * n) (8192 - 8 * n)

/-! ## Other tables -/

/-- Count of a schedule list, and its entry k (R83). -/
def scheduleCount (t : List Byte) : Nat := fieldU t 0 8
def scheduleEntry (t : List Byte) (k : Nat) : Time := BitVec.ofNat 64 (fieldU t (8 + 8 * k) 8)

/-- The spacings between successive entries of a schedule (R5). -/
def scheduleGaps (t : List Byte) : List Nat :=
  (List.range (scheduleCount t - 1)).map fun k => (timeDiff (scheduleEntry t (k + 1)) (scheduleEntry t k)).toNat

/-- Whether successive entries rise (R83). -/
def scheduleRising (t : List Byte) : Bool :=
  (List.range (scheduleCount t - 1)).all fun k => decide (0 < timeDiff (scheduleEntry t (k + 1)) (scheduleEntry t k))

/-- The conditions of R145 on a segment table. -/
def segmentTableOk (t : List Byte) : Bool :=
  fieldU t 0 2 != 0xFFFF && zeroAt t 2 2 && (slice t 8 16).all (fun g => decide (g.toNat ≤ 63)) && zeroAt t 0x18 40 &&
  (List.range 16).all fun s =>
    let o := 0x40 + 160 * s
    decide (fieldU t (o + 0x18) 1 ≤ 7) && decide (fieldU t (o + 0x19) 1 ≤ 7) && zeroAt t (o + 0x1A) 2

/-- The conditions of R171 on a geometry. -/
def geometryOk (t : List Byte) : Bool :=
  fieldU t 0 2 != 0xFFFF && zeroAt t 2 14 && (List.range 16).all fun s =>
    let o := 0x10 + 16 * s
    let e := fieldI t (o + 8) 2
    decide (-4096 ≤ e) && decide (e ≤ 4096) && zeroAt t (o + 10) 6

/-- Each row of a filter sums to 16,384 (R182). -/
def filterOk (t : List Byte) : Bool :=
  (List.range 64).all fun p => sumInts ((List.range 8).map fun i => fieldI t (16 * p + 2 * i) 2) == 16384

/-- The conditions of R290 on a trim table. -/
def trimsOk (t : List Byte) : Bool :=
  (List.range 576).all fun i =>
    let w := fieldU t (4 * i) 4
    w % 2 ^ 14 == 0 && (decide (64 ≤ i) || w / 2 ^ 14 % 4 == i / 16)

/-- The conditions of R330 on a linearisation table. -/
def linTableOk (t : List Byte) : Bool :=
  let n := fieldU t 0 1
  decide (2 ≤ n) && decide (n ≤ 64) && zeroAt t 1 3 && zeroAt t 0x2C 4 && zeroAt t (0x30 + 8 * n) (512 - 8 * n) &&
  (List.range 10).all (fun k => (f32Value (fieldU t (4 + 4 * k) 4)).isSome) &&
  (List.range (n - 1)).all fun j => decide (fieldI t (0x30 + 8 * j) 4 < fieldI t (0x38 + 8 * j) 4)

/-- One entry of the sequencer table (R340): END, channel, DISCARD, CONV, REPEAT and DELAY. -/
structure SeqEntry where
  last : Bool
  reserved : Nat
  ch : Nat
  discard : Nat
  conv : Nat
  repeat_ : Nat
  delay : Nat
  deriving DecidableEq, Repr

/-- Entry i of the sequencer table (R340). -/
def seqEntry (t : List Byte) (i : Nat) : SeqEntry :=
  let w := fieldU t (8 * i) 8
  ⟨w.testBit 63, w / 2 ^ 60 % 8, w / 2 ^ 56 % 16, w / 2 ^ 52 % 16, w / 2 ^ 40 % 2 ^ 12, w / 2 ^ 24 % 2 ^ 16, w % 2 ^ 24⟩

/-- The entries of a list from i up to the first with END set, at most n. -/
def seqFrom (t : List Byte) : Nat → Nat → List SeqEntry
  | 0, _ => []
  | n + 1, i => let e := seqEntry t i; if e.last then [e] else e :: seqFrom t n (i + 1)

/-- The list of a lane, 0 for A and 1 for B; empty when its first entry is all zero (R340). -/
def seqList (t : List Byte) (lane : Nat) : List SeqEntry :=
  if zeroAt t (512 * lane) 8 then [] else seqFrom t 64 (64 * lane)

/-- The conditions of R341 on one lane's list. -/
def seqListOk (t : List Byte) (lane : Nat) : Bool :=
  let l := seqList t lane
  (l.isEmpty || l.getLast?.any (·.last)) &&
  l.all (fun e => e.reserved == 0 && decide (1 ≤ e.conv) && decide (1 ≤ e.repeat_)) &&
  zeroAt t (512 * lane + 8 * l.length) (512 - 8 * l.length)

end Sys2Proof.Machine
end

