-- ==== Sys2Proof/Machine/HeadTiming.lean ====
section
/-! DEFINITION. Layout and timing of a head's line: readout length, exposure steps, the bounds of R13 and the effective
minimum period, all in fine units of 1/1,232 tick. -/
namespace Sys2Proof.Machine

/-- Fine units in one tick of 62.5 ps; in a 488.28125 ps fine phase; in a coarse tick of 1.953125 ns; in 1 µs. -/
def uTick : Nat := 1232
def uFine : Nat := 9625
def uCoarse : Nat := 38500
def uMicro : Nat := 19712000

/-- A ring time in fine units. -/
def fineOf (t : Time) : Nat := t.toNat * uTick

/-- The fine units of the 2^64 ticks after which ring time wraps. -/
def fineSpan : Nat := 2 ^ 64 * uTick

/-- An instant in fine units n units later. -/
def fineLater (a n : Nat) : Nat := (a + n) % fineSpan

/-- Signed difference of two instants in fine units, a − b, read as R5 reads that of two ring times. -/
def fineDiff (a b : Nat) : Int :=
  let d := (a % fineSpan + (fineSpan - b % fineSpan)) % fineSpan
  if 2 * d < fineSpan then d else (d : Int) - fineSpan

/-- The HD cycle, one coarse tick of the 512 MHz pattern clock, in which an instant falls. DESIGN CHOICE: the cycles begin with ring
time 0. -/
def hdCycle (t : Time) : Nat := fineOf t / uCoarse

/-- Whether something last happened in the HD cycle of an instant. -/
def sameHd (last : Option Time) (t : Time) : Bool := match last with | some u => hdCycle u == hdCycle t | none => false

/-- The next coarse tick after an instant, in fine units. -/
def nextCoarse (t : Time) : Nat := (hdCycle t + 1) * uCoarse % fineSpan

/-- A time on the grid of 488.28125 ps, as its edge stamps are (R79, R265). -/
def onGrid (t : Time) : Time := BitVec.ofNat 64 (fineOf t / uFine * uFine / uTick)

/-- Applied exposure of a time in ns: the nearest number of 488.28125 ps steps, halves up (R75). -/
def exposureSteps (ns : Nat) : Nat := (ns * 4096 + 1000) / 2000

/-- A length in fine units in whole nanoseconds, to the nearest (R75). -/
def unitsNs (units : Nat) : Nat := (2 * units + 16 * uTick) / (32 * uTick)

namespace Block

/-- N: the pixels a segment reads (R73). -/
def readout (h : HeadId) (b : Block) : Nat :=
  b.reg (Obj.headLayoutLead h) + b.reg (Obj.headLayoutActive h) + b.reg (Obj.headLayoutTrail h)

/-- The pixel period in fine units: 1 ÷ 560 MHz, doubled with each rate code (R72). -/
def pixelUnits (h : HeadId) (b : Block) : Nat := 35200 * 2 ^ b.reg (Obj.headPatternPixelRate h)

/-- Length of the readout window, N × t_px (R73). -/
def windowUnits (h : HeadId) (b : Block) : Nat := b.readout h * b.pixelUnits h

/-- P of R13: the head's active pixels, or the stitched width when that is larger. -/
def pipelinePixels (h : HeadId) (b : Block) : Nat :=
  max (b.reg (Obj.headLayoutActive h) * popCount (b.reg (Obj.headSegments h)) 16)
    (if b.reg (Obj.headStitchMode h) = 1 then b.reg (Obj.headStitchWidth h) else 0)

/-- Reciprocal of the rate bound of R13 under R72: converter bound, pipeline bound, 1 µs. -/
def boundPeriod (h : HeadId) (b : Block) : Nat :=
  max (b.windowUnits h) (max (b.pipelinePixels h * 2240) uMicro)

/-- The effective minimum period (R93), for an exposure in steps. -/
def effMinWith (h : HeadId) (steps : Nat) (b : Block) : Nat :=
  max (b.boundPeriod h) (max (steps * uFine) (b.windowUnits h))

/-! ## Shadowed settings (R76) -/

/-- Whether lines can be accepted or in exposure, so that a line boundary stands between a write and its force. -/
def clocked (h : HeadId) (b : Block) : Bool := b.heads[h].state == .running || b.heads[h].state == .stopping

/-- The applied exposure in force, in fine steps (R76, R93). DEDUCED: while no line can be accepted the written exposure is in force; no
line of the next run has an earlier one. -/
def stepsNow (h : HeadId) (b : Block) : Nat := if b.clocked h then b.heads[h].steps else exposureSteps (b.reg (Obj.headExposure h))

/-- `trigger.period` in force, in ticks. -/
def periodNow (h : HeadId) (b : Block) : Nat := if b.clocked h then b.heads[h].period else b.reg (Obj.headTriggerPeriod h)

/-- The values that settings had before the writes of the present HD cycle. -/
def recentNow (h : HeadId) (b : Block) : Map Nat :=
  match b.heads[h].recentAt with
  | some t => if hdCycle t = hdCycle b.now then b.heads[h].recent else []
  | none => []

/-- Settings that do not take force at a line boundary: the coefficients, which take force at a window start (R103, R105), and the numbers of
the shadow sets, which name what a swap takes (R151, R185). -/
def unshadowed (i : Nat) : Bool := i == 0x3085 || i == 0x3089 || i == 0x308A || i == 0x308B || i == 0x3107 || i == 0x3184

/-- A setting of a head is about to be written: the value that it has is kept for the rest of the HD cycle (R76). -/
def noteSetting (h : HeadId) (i : Nat) (o : Obj) (b : Block) : Block :=
  let old := b.recentNow h
  if unshadowed i || old.any (fun e => e.1 == o.key) then b
  else { b with heads := b.heads.set h { b.heads[h] with recent := old ++ [(o.key, b.reg o)], recentAt := some b.now } }

/-- The registers with values put in by key. -/
def recalled (l : Map Nat) (b : Block) : Block := { b with regs := l.foldl (fun m e => m.insert e.1 e.2) b.regs }

/-- What the registers hold at the keys of a list. -/
def present (l : Map Nat) (b : Block) : Map Nat := l.filterMap fun e => (b.regs.get? e.1).map fun v => (e.1, v)

/-- The effective minimum period in force of a head (R93). -/
def effMin (h : HeadId) (b : Block) : Nat := b.effMinWith h (b.stepsNow h)

/-- The effective minimum period with the exposure as written. -/
def effMinSet (h : HeadId) (b : Block) : Nat := b.effMinWith h (exposureSteps (b.reg (Obj.headExposure h)))

/-- The lowest stepped cap in force in the epoch (R19). -/
def lowestCap (b : Block) : Nat :=
  b.thermal.caps.foldl (fun m c => if b.ring.members.contains c.1 || c.1 == b.reg Obj.ringPierNumber then min m c.2 else m) 1000000

/-- Caps whose instant has come take force at a line boundary, the newest last (R19). -/
def capTake (b : Block) : Block :=
  let (now, wait) := b.thermal.changes.partition fun c => due c.1 b.now
  if now.isEmpty then b
  else
    let caps := now.foldl (fun (m : Map Nat) c => m.insert c.2.1 c.2.2) b.thermal.caps
    let b := { b with thermal := { b.thermal with caps := caps, changes := wait } }
    b.setReg Obj.deviceLineRateCap b.lowestCap

/-! ## Levels of the pattern outputs (R66, R67) -/

/-- The output whose mode and table entries an output follows: the even member of its pair, or itself (R67). -/
def leadOutput (h : HeadId) (k : Nat) (b : Block) : Nat := if (b.reg (Obj.headPatternPairMode h)).testBit (k / 2) then k / 2 * 2 else k

/-- The mode of an output: 0 pattern table, 1 pixel clock in the window, 2 pixel clock continuous. -/
def outMode (h : HeadId) (k : Nat) (b : Block) : Nat := b.reg (Obj.headPatternOutMode h) / 4 ^ b.leadOutput h k % 4

/-- The outputs of a mode, as a mask. -/
def outputsOf (h : HeadId) (mode : Nat) (b : Block) : Nat :=
  ((List.range 16).filter fun k => b.outMode h k == mode).foldl setBit 0

/-- The levels at rest: table-driven outputs at their idle levels, clocks low, the odd member of a pair against its even one. -/
def idleLevels (h : HeadId) (b : Block) : Nat :=
  ((List.range 16).filter fun k =>
    (b.outMode h k == 0 && (b.reg (Obj.headPatternIdleLevel h)).testBit (b.leadOutput h k)) != (b.leadOutput h k != k)).foldl setBit 0

/-- Whether an interval in fine units is at least one capped period, 1 ÷ `device.line_rate_cap` (R18). A cap of 0 admits
no interval. -/
def capAdmits (units : Nat) (b : Block) : Bool :=
  let cap := b.reg Obj.deviceLineRateCap
  cap != 0 && decide (uMicro * 1000000 ≤ units * cap)

/-- Whether an interval after the previous accepted trigger is long enough for the next (R14, R18, R90, R93). -/
def intervalOk (h : HeadId) (units : Nat) (b : Block) : Bool := decide (b.effMin h ≤ units) && b.capAdmits units

/-- Overhead pixels: those outside the active range (R63). -/
def isActive (h : HeadId) (k : Nat) (b : Block) : Bool :=
  let lead := b.reg (Obj.headLayoutLead h)
  decide (lead ≤ k) && decide (k < lead + b.reg (Obj.headLayoutActive h))

/-- Optical-black pixels (R63). -/
def isBlack (h : HeadId) (k : Nat) (b : Block) : Bool :=
  let f := b.reg (Obj.headLayoutObFirst h)
  decide (f ≤ k) && decide (k < f + b.reg (Obj.headLayoutObCount h))

/-- Pixels of the clamp window (R100). -/
def isClampWindow (h : HeadId) (k : Nat) (b : Block) : Bool :=
  let f := b.reg (Obj.headVideoClampFirst h)
  decide (f ≤ k) && decide (k < f + b.reg (Obj.headVideoClampCount h))

/-- Dummy pixels: overhead outside the optical-black range (R63). -/
def isDummy (h : HeadId) (k : Nat) (b : Block) : Bool := decide (k < b.readout h) && !b.isActive h k && !b.isBlack h k

/-- Whether indices 2j and 2j + 1 form a calibration slot (R106). -/
def isSlot (h : HeadId) (j : Nat) (b : Block) : Bool :=
  b.isDummy h (2 * j) && b.isDummy h (2 * j + 1) && !b.isClampWindow h (2 * j) && !b.isClampWindow h (2 * j + 1)

/-- The slots of a line (R106). -/
def slots (h : HeadId) (b : Block) : List Nat := (List.range (b.readout h / 2)).filter fun j => b.isSlot h j

/-- Segments enabled in `head<h>.segments` (R62). -/
def segmentOn (h : HeadId) (s : Nat) (b : Block) : Bool := (b.reg (Obj.headSegments h)).testBit s

end Block

/-- The conditions of R63 on a layout. -/
def layoutOk (lead active trail obFirst obCount : Nat) : Bool :=
  decide (8 ≤ active) && decide (active ≤ 1024) && active % 8 == 0 && decide (lead + trail ≤ 48) &&
  (obCount == 0 || decide (obFirst + obCount ≤ lead) ||
    (decide (lead + active ≤ obFirst) && decide (obFirst + obCount ≤ lead + active + trail)))

end Sys2Proof.Machine
end

