-- ==== Sys2Proof/Machine/Video.lean ====
section
/-! DEFINITION. Video front end: converter codes, interleave correction and its background calibration, the pedestal loop,
range changes and their readiness (R99 to R128). -/
namespace Sys2Proof.Machine

/-- 2^(g ÷ 21), the PGA gain of a code, in 2^−48 (R102). -/
def pgaGain (g : Nat) : Nat := gainFactor g

/-- The nominal converter code of a CDS difference in nanovolts, rounded to nearest with halves up, not yet limited (R99). -/
def nominalCode (dac : Int) (gain : Nat) (vd : Int) : Int :=
  512 + 8 * dac + divHalfUp (16384 * (pgaGain gain : Int) * vd) (1000000000 * 2 ^ 48)

/-- The converter limits its codes to 0x0000 to 0x3FFF (R99). -/
def clipCode (v : Int) : Nat := (clip v 0 16383).toNat

/-- The raw code of an ordinary pixel (R99): polarity, offset DAC, gain, and the converter's departure from nominal. -/
def rawCode (polarity : Bool) (dac : Int) (gain : Nat) (s : Sample) : Nat :=
  clipCode (nominalCode dac gain (if polarity then s.vSig - s.vRef else s.vRef - s.vSig) + s.dev)

/-- Whether the overrange detector sees the PGA output past either end of the converter span by more than 5 % of the span (R117). -/
def overTrip (polarity : Bool) (dac : Int) (gain : Nat) (s : Sample) : Bool :=
  let c := nominalCode dac gain (if polarity then s.vSig - s.vRef else s.vRef - s.vSig)
  decide (20 * c < -16384) || decide (16384 < 20 * (c - 16383))

/-- How far the Ramp stands from its nominal code at pixel k: converter B, which takes the odd pixels, samples `skew_b` × 0.125 ps late on
4 codes per ps (R74, R105, R106). -/
def rampShift (kind k : Nat) (skew : Int) : Int := if kind = 2 ∧ k % 2 = 1 then divHalfUp skew 2 else 0

/-- Nominal code that the calibration source gives on a line of kind 0 (L0), 1 (L1) or 2 (Ramp) (R106). -/
def sourceCode (kind pedestal : Nat) : Int := if kind = 0 then pedestal + 1024 else if kind = 1 then 12288 else 8192

/-- Interleave correction of converter B's code (R104); 0x0000 and 0x3FFF pass unchanged. -/
def correctB (offsetB gainB : Int) (x : Nat) : Nat :=
  if x = 0 ∨ x = 0x3FFF then x
  else
    let t := (8 * (x : Int) - offsetB) * (65536 + gainB)
    (clip (sra (t + 262144) 19) 0 16383).toNat

/-- The code after interleave correction: converter A (even pixels) passes unchanged (R74, R104). -/
def correctPixel (k : Nat) (offsetB gainB : Int) (x : Nat) : Nat := if k % 2 = 0 then x else correctB offsetB gainB x

/-- Rounded to the nearest 1/256, halves away from zero, of a fraction (R108). -/
def round256 (num : Int) (den : Int) : Int := divHalfAway (256 * num) den

/-- An accumulator with 8 fractional bits read as its object: nearest whole number, halves away, limited (R108). -/
def accRead (acc lo hi : Int) : Int := clip (divHalfAway acc 256) lo hi

/-- Empty sums of a calibration window. -/
def IlvSums.empty : IlvSums := ⟨0, 0, 0, 0, 0, 0, 0, 0, 0, 0, 0⟩

/-- Whether adaptation is allowed in a status (R111). -/
def adapts (status : Nat) : Bool := status == 0 || status == 1 || status == 5

/-- Whether a status makes the head not converged (R112, R113). -/
def unconverged (status : Nat) : Bool := status == 0 || status == 3 || status == 5 || status == 7

namespace Block

/-- Level in force of the head's video block. -/
def videoLevel (h : HeadId) (b : Block) : Nat := b.levelInForce (Obj.headVideoLevel h)

/-- Whether the head is converged: no enabled input in status 0, 3, 5 or 7 (R112). -/
def allConverged (h : HeadId) (b : Block) : Bool :=
  (List.finRange 16).all fun s => !b.segmentOn h s || !unconverged b.video[h].inputs[s].status

/-- Sets the status of one input, in its object and in the loop. -/
def setIlvStatus (h : HeadId) (s : SegId) (st : Nat) (b : Block) : Block :=
  (b.setReg (Obj.headVideoIlvStatus h s) st).modVideo h fun v => { v with inputs := v.inputs.set s { v.inputs[s] with status := st } }

/-- The converged and convergence-lost events, when the head enters or leaves that condition (R112, R124). -/
def convergedCheck (h : HeadId) (b : Block) : Block :=
  let now := b.allConverged h
  if now && !b.video[h].converged then (b.modVideo h fun v => { v with converged := true }).raise (headSource h 18)
  else if !now && b.video[h].converged then
    (b.modVideo h fun v => { v with converged := false, linesSince := 0, timeoutRaised := false }).raise (headSource h 19)
  else b

/-- Partial windows and fractional bits of every input cleared (R110); `keep` keeps the fractional bits. -/
def restartWindows (h : HeadId) (keep : Bool) (b : Block) : Block :=
  b.modVideo h fun v =>
    { v with kind := 0, inputs := v.inputs.map fun x =>
        { x with sums := IlvSums.empty,
                 offsetAcc := if keep then x.offsetAcc else 256 * divHalfAway x.offsetAcc 256,
                 gainAcc := if keep then x.gainAcc else 256 * divHalfAway x.gainAcc 256,
                 skewAcc := if keep then x.skewAcc else 256 * divHalfAway x.skewAcc 256 } }

/-- The status each input starts in at head start (R112): disabled, no slots, override, or adapting. -/
def startStatus (h : HeadId) (s : SegId) (b : Block) : Nat :=
  if !b.segmentOn h s then 6
  else if (b.slots h).length < 2 then 7
  else if b.videoLevel h = 1 then 4 else 0

/-- The video side of a head start (R110, R112, R116): adaptation begins from the coefficients in force, and the head's condition is judged
anew. A freeze kept across stop and start (R114) takes force again at the first window start, unless an unfreeze has been asked for. -/
def videoStart (h : HeadId) (b : Block) : Block :=
  let b := (List.finRange 16).foldl (fun (b : Block) (s : SegId) =>
    (b.setIlvStatus h s (b.startStatus h s)).modVideo h fun v =>
      { v with inputs := v.inputs.set s { v.inputs[s] with
          offsetAcc := 256 * b.regI (Obj.headVideoIlvOffsetB h s), gainAcc := 256 * b.regI (Obj.headVideoIlvGainB h s),
          skewAcc := 256 * b.regI (Obj.headVideoIlvSkewB h s), inside := 0, outside := 0, sums := IlvSums.empty,
          obSum := 0, obCount := 0 } }) b
  (b.modVideo h fun v => { v with kind := 0, pedestalLines := 0, linesSince := 0, timeoutRaised := false, tailEnd := none,
                                  freezeNext := v.freezeNext.orElse fun _ => if v.frozen then some true else none }).convergedCheck h

/-- A pending freeze or unfreeze takes force (R114): adapting inputs freeze, frozen ones adapt again. DESIGN CHOICE: until then 0x3087:01 reads
its old value; the spec says when the adaptation freezes and not what the object reads before. -/
def ilvApply (h : HeadId) (b : Block) : Block :=
  match b.video[h].freezeNext with
  | none => b
  | some fr =>
    let b := (b.modVideo h fun v => { v with freezeNext := none, frozen := fr }).setReg (Obj.headVideoIlvFreeze h) (if fr then 1 else 0)
    let b := (List.finRange 16).foldl (fun (b : Block) (s : SegId) =>
      let st : Nat := b.video[h].inputs[s].status
      let st' : Nat :=
        if fr then (if st = 1 then 2 else if st = 0 then 3 else if st = 5 then 3 else st)
        else if st = 2 then 1 else if st = 3 then 0 else st
      b.setIlvStatus h s st') b
    b.convergedCheck h

/-- Whether any enabled input of the head sets flag 8 (R113). -/
def flag8 (h : HeadId) (b : Block) : Bool :=
  (List.finRange 16).any fun s => b.segmentOn h s && unconverged b.video[h].inputs[s].status

/-- A line whose window opens takes the coefficients and the calibration state of that moment (R103, R105, R113). -/
def openWindow (h : HeadId) (i : Nat) (b : Block) : Block :=
  let b := b.ilvApply h
  let cs := (List.finRange 16).map fun s : SegId =>
    (b.regI (Obj.headVideoOffsetDac h s), b.regI (Obj.headVideoIlvOffsetB h s), b.regI (Obj.headVideoIlvGainB h s),
     b.regI (Obj.headVideoIlvSkewB h s))
  let f := b.flag8 h
  let w := ((b.heads[h].lines[i]?).map (·.wOpen)).getD 0
  let px := b.pixelUnits h
  let at_ (o : Obj) : Nat := fineLater w (b.reg o * px / 64)
  let b := b.emit (.readout h.val w px (b.readout h) (at_ (Obj.headPatternPixclkPhase h)) (b.outputsOf h 1)
    (at_ (Obj.headPatternCdsRefDelay h)) (at_ (Obj.headPatternSampleDelay h)) (cs.map fun c => c.2.2.2))
  b.modHead h fun x => { x with lines := x.lines.modify i fun l =>
    { l with coeffs := some cs, flags := if f then setBit l.flags 8 else l.flags } }

/-- Every line of a head whose window has opened by now and has not taken its coefficients takes them. Each operation that
changes a coefficient, a status or the freeze does this first, so a window never sees a change made after it opened. -/
def openWindows (h : HeadId) (b : Block) : Block :=
  (List.range b.heads[h].lines.length).foldl (fun b i =>
    match b.heads[h].lines[i]? with
    | some l => if l.coeffs.isNone && l.exposed && decide (fineDiff l.wOpen (fineOf b.now) ≤ 0) then b.openWindow h i else b
    | none => b) b

/-- Freeze or unfreeze asked for by write or task; it takes force at the next readout window start, not in a window that is open (R114). -/
def ilvAsk (h : HeadId) (freeze : Bool) (b : Block) : Block := (b.openWindows h).modVideo h fun v => { v with freezeNext := some freeze }

/-- A freeze and an unfreeze in one cycle: frozen, and counted (R114). -/
def ilvBoth (h : HeadId) (b : Block) : Block := (b.ilvAsk h true).bump (Obj.headVideoIlvCoincidences h)

/-- A gain code enters force on one input. -/
def gainTo (h : HeadId) (s : SegId) (code : Nat) (b : Block) : Block :=
  (b.setReg (Obj.headVideoGainInForce h s) code).modVideo h fun v => { v with inputs := v.inputs.set s { v.inputs[s] with gain := code } }

/-- A range change takes force: gains, count and event (R122). -/
def rangeInForce (h : HeadId) (codes : List Nat) (b : Block) : Block :=
  let b := (List.finRange 16).foldl (fun (b : Block) (s : SegId) => b.gainTo h s (codes.getD s.val 0)) b
  (b.bump (Obj.headVideoRangeChanges h)).raise (headSource h 21)

/-- The staged gain codes of a head (R120). -/
def stagedGains (h : HeadId) (b : Block) : List Nat := (List.range 16).map fun s => b.reg (Obj.headVideoGain h s)

/-- The gain codes in force of a head. -/
def gainsInForce (h : HeadId) (b : Block) : List Nat := (List.range 16).map fun s => b.reg (Obj.headVideoGainInForce h s)

/-! ## The pedestal loop (R103) -/

/-- One update of the pedestal loop of one input: mean of the optical-black codes of 256 lines against the pedestal. DESIGN CHOICE: halves
in round(d ÷ 8) go away from zero, as R108 rounds; R103 does not say. -/
def pedestalStep (h : HeadId) (s : SegId) (b : Block) : Block :=
  let x := b.video[h].inputs[s]
  let b' := b.modVideo h fun v => { v with inputs := v.inputs.set s { v.inputs[s] with obSum := 0, obCount := 0 } }
  if x.obCount = 0 ∨ !b.segmentOn h s then b'
  else
    let d8 := divHalfAway (x.obSum - b.reg (Obj.headVideoPedestal h) * x.obCount) (8 * x.obCount)
    let big := decide ((x.obSum - b.reg (Obj.headVideoPedestal h) * x.obCount).natAbs > 32 * x.obCount)
    if big then
      let cur := b.regI (Obj.headVideoOffsetDac h s)
      let want := cur + clip (-d8) (-4) 4
      (b'.setRegI (Obj.headVideoOffsetDac h s) (clip want (-128) 127)).raiseIf (decide (want < -128 ∨ 127 < want)) (headSource h 23)
    else b'

/-- After every 256 lines at the basic level, each input with optical-black pixels is compared with the pedestal (R103). -/
def pedestalUpdate (h : HeadId) (b : Block) : Block :=
  if b.video[h].pedestalLines < 256 then b
  else
    let b := (b.openWindows h).modVideo h fun v => { v with pedestalLines := 0 }
    if b.videoLevel h = 1 ∨ b.reg (Obj.headLayoutObCount h) = 0 then
      b.modVideo h fun v => { v with inputs := v.inputs.map fun x => { x with obSum := 0, obCount := 0 } }
    else (List.finRange 16).foldl (fun (b : Block) (s : SegId) => b.pedestalStep h s) b

/-! ## Interleave calibration (R106 to R116) -/

/-- The three error estimates of an input's window (R107), as numerator and denominator: offset in codes, gain as a
fraction, skew in ps. The gain's denominator is 0 when converter A saw no difference; the estimate is then not formed. -/
def ilvErrors (x : IlvSums) : (Int × Int) × (Int × Int) × (Int × Int) :=
  let eo := (x.b0 - x.a0, (x.n0 : Int))
  let dB := x.b1 * x.n0 - x.b0 * x.n1
  let dA := x.a1 * x.n0 - x.a0 * x.n1
  let eg := (dB - dA, dA)
  let es := (x.dR, 4 * (x.nR : Int))
  (eo, eg, es)

/-- |num ÷ den| ≤ bound num ÷ den, for a denominator that is not 0. -/
def within (e : Int × Int) (bn bd : Nat) : Bool := e.2 != 0 && decide (e.1.natAbs * bd ≤ bn * e.2.natAbs)

/-- The end of one input's window: coefficients, thresholds and status (R107, R108, R112). -/
def ilvInputWindow (h : HeadId) (s : SegId) (b : Block) : Block :=
  let x := b.video[h].inputs[s]
  let st := x.status
  let (eo, eg, es) := ilvErrors x.sums
  let sh : Int := 2 ^ b.reg (Obj.headVideoIlvStepShift h)
  let skewMove := round256 (8 * es.1) (es.2 * sh)
  let adapt := adapts st
  let skewNew := x.skewAcc - skewMove
  let offNew := x.offsetAcc + round256 (8 * eo.1) (eo.2 * sh)
  let gainNew := x.gainAcc - round256 (65536 * eg.1) (eg.2 * sh)
  let x' : VideoInput :=
    if adapt then { x with offsetAcc := offNew, gainAcc := gainNew, skewAcc := skewNew } else x
  let inThr := within eo 1 2 && within eg 8 65536 && within es 1 8
  let outThr := !(within eo 2 1 && within eg 32 65536 && within es 1 2)
  let inside := if inThr then x.inside + 1 else 0
  let outside := if outThr then x.outside + 1 else 0
  let offLimit := decide ((divHalfAway skewNew 256).natAbs < 160)
  let atLimit := adapt && !offLimit && decide (skewMove * skewNew < 0)
  let st' :=
    if atLimit then 5
    else if st = 5 then (if offLimit then 0 else 5)
    else if st = 0 ∧ 4 ≤ inside then 1
    else if st = 1 ∧ 2 ≤ outside then 0
    else if st = 2 ∧ 2 ≤ outside then 3
    else st
  let b := b.modVideo h fun v => { v with inputs := v.inputs.set s { x' with inside := inside, outside := outside, sums := IlvSums.empty } }
  let b := if adapt then
      ((b.setRegI (Obj.headVideoIlvOffsetB h s) (accRead offNew (-512) 511)).setRegI (Obj.headVideoIlvGainB h s)
        (accRead gainNew (-1311) 1311)).setRegI (Obj.headVideoIlvSkewB h s) (accRead skewNew (-160) 160)
    else b
  let b := b.setIlvStatus h s st'
  if st' = 5 ∧ st ≠ 5 then (b.raise (headSource h 20)).logFault 0x0011 h.val s.val (headSource h 20) else b

/-- Whether the window of an input is complete: 2^m lines of each kind (R107). -/
def ilvComplete (h : HeadId) (s : SegId) (b : Block) : Bool :=
  let x := b.video[h].inputs[s].sums
  let m := 2 ^ b.reg (Obj.headVideoIlvWindowLog2 h)
  decide (m ≤ x.lines0) && decide (m ≤ x.lines1) && decide (m ≤ x.linesR)

/-- Every input whose window is complete closes it; the cycle of sources restarts with L0, and the head's condition is
judged once (R106, R107, R112). -/
def ilvWindows (h : HeadId) (b : Block) : Block :=
  let ready : List SegId := (List.finRange 16).filter fun s =>
    b.segmentOn h s && b.video[h].inputs[s].status != 4 && b.video[h].inputs[s].status != 7 && b.ilvComplete h s
  if ready.isEmpty then b
  else ((ready.foldl (fun b s => b.ilvInputWindow h s) (b.openWindows h)).modVideo h fun v => { v with kind := 0 }).convergedCheck h

/-- The convergence timeout (R116): once, when the lines since start or loss exceed it; convergence in the same cycle
wins and is a near miss. -/
def ilvTimeout (h : HeadId) (withConvergence : Bool) (b : Block) : Block :=
  let limit := b.reg (Obj.headVideoIlvTimeout h)
  if limit = 0 ∨ b.video[h].timeoutRaised ∨ b.video[h].linesSince < limit ∨ b.video[h].converged then b
  else if withConvergence then b.bump (Obj.headVideoIlvNearMisses h)
  else (b.modVideo h fun v => { v with timeoutRaised := true }).raise (headSource h 22)

end Block
end Sys2Proof.Machine
end

