-- ==== Sys2Proof/Machine/Correction.lean ====
section
/-! DEFINITION. The correction lane: black clamp, bar temperature, linearisation, Patina, binning, the correction sets and
how they come into force, preparing a set, and reference-strip calibration (R129 to R167). -/
namespace Sys2Proof.Machine

/-! ## Fields of a set (R138, R144) -/

def CorrSet.number (c : CorrSet) : Nat := fieldU c.segments 0 2
def CorrSet.tCal (c : CorrSet) : Int := fieldI c.segments 4 2
def CorrSet.tRef (c : CorrSet) : Int := fieldI c.segments 6 2
def CorrSet.gains (c : CorrSet) : List Nat := (slice c.segments 8 16).map (·.toNat)
/-- Coefficient i of segment s: a1, b1, a2, b2, a3, b3. -/
def CorrSet.coef (c : CorrSet) (s i : Nat) : Int := fieldI c.segments (0x40 + 160 * s + 4 * i) 4
def CorrSet.es (c : CorrSet) (s : Nat) : Nat := fieldU c.segments (0x40 + 160 * s + 0x18) 1
def CorrSet.eq (c : CorrSet) (s : Nat) : Nat := fieldU c.segments (0x40 + 160 * s + 0x19) 1
/-- Point P[j] of segment s (R136). -/
def CorrSet.point (c : CorrSet) (s j : Nat) : Int := fieldI c.segments (0x40 + 160 * s + 0x1C + 4 * j) 4

/-- One entry of a pixel table (R138). -/
structure PixelEntry where
  gain : Nat
  dark : Int
  slope : Int
  quad : Int
  deriving DecidableEq, Repr

/-- Entry of active pixel p of segment s (R138). -/
def CorrSet.pixel (c : CorrSet) (s p : Nat) : PixelEntry :=
  let w := fieldU c.pixels (4 * (1024 * s + p)) 4
  ⟨w / 2 ^ 18, toSigned 10 (w / 2 ^ 8 % 2 ^ 10), toSigned 5 (w / 8 % 32), toSigned 3 (w % 8)⟩

/-- The word of a pixel entry (R138). -/
def PixelEntry.word (e : PixelEntry) : Nat :=
  e.gain * 2 ^ 18 + ofSigned 10 e.dark * 2 ^ 8 + ofSigned 5 e.slope * 8 + ofSigned 3 e.quad

/-! ## The arithmetic of the lane -/

/-- The clamp state C after a line with B in 1/16 code (R129): set anew, or moved by the smoothing shift. -/
def clampNext (c : Option Int) (fresh : Bool) (k : Nat) (bMean : Int) : Int :=
  match c, fresh with
  | some c, false => c + sra (16 * bMean - c) k
  | _, _ => 16 * bMean

/-- The polynomial of R135 for segment s at temperature T. -/
def linPoly (c : CorrSet) (s : Nat) (t x : Int) : Int :=
  let dL := clip (t - c.tRef) (-2048) 2047
  let k1 := c.coef s 0 + rnd (c.coef s 1 * dL) 4
  let k2 := c.coef s 2 + rnd (c.coef s 3 * dL) 4
  let k3 := c.coef s 4 + rnd (c.coef s 5 * dL) 4
  let w := rnd (x * x) 18
  let m := 2 ^ 29 + k1 + rnd (k2 * x) 18 + rnd (k3 * w) 18
  clip (rnd (x * m) 29) (-(2 ^ 21)) (2 ^ 21 - 1)

/-- The piecewise-linear table of R136 for segment s. -/
def linTable (c : CorrSet) (s : Nat) (x : Int) : Int :=
  let j := (clip (sra x 13) 0 31).toNat
  let f := x - (j : Int) * 8192
  clip (c.point s j + rnd ((c.point s (j + 1) - c.point s j) * f) 13) (-(2 ^ 21)) (2 ^ 21 - 1)

/-- Patina for one pixel (R139). -/
def patina (e : PixelEntry) (eS eQ : Nat) (dP : Int) (outOffset : Nat) (y : Int) : Int :=
  let d := y - 4 * e.dark - rnd (e.slope * 2 ^ eS * dP) 10
  let v := d + rnd ((e.quad * 2 ^ eQ) * d * d) 26
  clip (rnd (v * e.gain) 15 + outOffset) 0 65535

/-- The value that a mark forces (R141). -/
def Mark.force (m : Mark) (v : Int) : Int := match m with | .high => 65535 | .low => 0 | .none => v

/-- A defective pixel's output: the mean of its neighbours that exist and are not defective, rounded half up; 0 without
any (R140). `good` is the final outputs, nothing where the entry is defective and unmarked. -/
def defectValue (good : List (Option Int)) (p : Nat) : Int :=
  let left := if p = 0 then none else (good.getD (p - 1) none)
  let right := good.getD (p + 1) none
  match left, right with
  | some a, some c => (a + c + 1) / 2
  | some a, none => a
  | none, some c => c
  | none, none => 0

/-- The average of a bin (R142). -/
def binValue (factor : Nat) (sum : Int) : Int :=
  match factor with
  | 2 => (sum + 1) / 2
  | 3 => sra (sum * 1398101 + 2 ^ 21) 22
  | 4 => (sum + 2) / 4
  | 8 => (sum + 4) / 8
  | _ => sum

/-- The mark of a bin (R143). -/
def binMark (px : List Px) : Mark :=
  if px.any (·.mark == .high) then .high else if px.any (·.mark == .low) then .low else .none

/-- Bins of one segment's output (R142, R143). -/
def binSegment (factor : Nat) (out : List Px) : List Px :=
  (List.range (out.length / factor)).map fun i =>
    let px := (out.drop (i * factor)).take factor
    let m := binMark px
    ⟨m.force (binValue factor (sumInts (px.map (·.v)))), m⟩

namespace Block

/-! ## Sets -/

def activeSet (h : HeadId) (b : Block) : CorrSet := ⟨b.table (0x6020 + h.val), b.table (0x6024 + h.val)⟩
def shadowSet (h : HeadId) (b : Block) : CorrSet := ⟨b.table (0x6018 + h.val), b.table (0x601C + h.val)⟩
def setActive (h : HeadId) (c : CorrSet) (b : Block) : Block :=
  (b.setTable (0x6020 + h.val) c.pixels).setTable (0x6024 + h.val) c.segments
def setShadow (h : HeadId) (c : CorrSet) (b : Block) : Block :=
  (b.setTable (0x6018 + h.val) c.pixels).setTable (0x601C + h.val) c.segments

/-- The number of the ready shadow, 0xFFFF when it is not ready (R147). -/
def shadowReady (h : HeadId) (b : Block) : Nat := b.reg (Obj.headCorrShadowReady h)

def corrLevel (h : HeadId) (b : Block) : Nat := b.levelInForce (Obj.headCorrLevel h)

/-- Entries with GAIN 0 among the active pixels of enabled segments (R162). -/
def countDefective (h : HeadId) (b : Block) : Nat :=
  let c := b.activeSet h
  ((List.range 16).filter fun s => b.segmentOn h s).foldl (fun n s =>
    n + ((List.range (b.reg (Obj.headLayoutActive h))).filter fun p => (c.pixel s p).gain == 0).length) 0

/-- `corr.defective` follows the set in force (R162). -/
def updateDefective (h : HeadId) (b : Block) : Block := b.setReg (Obj.headCorrDefective h) (b.countDefective h)

/-! ## Calibration: ending without a result (R156) -/

/-- No calibration in progress. -/
def noCal : Calibration := ⟨0, 0, 0, 0, 0, 0, [], [], [], 0, 0, 0, false⟩

/-- A calibration in progress ends with a failure status and its event; without one nothing happens (R156). -/
def calFail (h : HeadId) (status : Nat) (b : Block) : Block :=
  if b.corr[h].cal.phase = 0 then b
  else ((b.modCorr h fun c => { c with cal := noCal }).setReg (Obj.headCalStatus h) status).raise (headSource h 29)

/-! ## Bringing a set into force (R149 to R152) -/

/-- Whether the active set is n and fits the gain codes, so that a range change swaps nothing (R149). -/
def activeFits (h : HeadId) (n : Nat) (codes : List Nat) (b : Block) : Bool :=
  (b.activeSet h).number == n && (b.activeSet h).gains == codes

/-- Whether the shadow is ready with number n and fits the gain codes (R149, R150). -/
def shadowFits (h : HeadId) (n : Nat) (codes : List Nat) (b : Block) : Bool :=
  b.shadowReady h != 0xFFFF && b.shadowReady h == n && (b.shadowSet h).gains == codes

/-- Whether set n is ready for a range change to the staged codes (R149). -/
def rangeReady (h : HeadId) (n : Nat) (b : Block) : Bool :=
  b.activeFits h n (b.stagedGains h) || b.shadowFits h n (b.stagedGains h)

/-- Active and shadow exchange places, the old active set ready under its own number (R152). -/
def swapSets (h : HeadId) (b : Block) : Block :=
  let old := b.activeSet h
  let new := b.shadowSet h
  let b := (b.setActive h new).setShadow h old
  let b := (b.setReg (Obj.headCorrSetInForce h) new.number).setReg (Obj.headCorrShadowReady h) old.number
  ((b.updateDefective h).bump (Obj.headCorrSwaps h)).raise (headSource h 27)

/-- What is armed in the correction slot takes force (R120, R150, R152): a calibration in progress fails (R156). -/
def corrTake (h : HeadId) (a : Armed) (b : Block) : Block :=
  let b := b.calFail h 9
  match a with
  | .swap => b.swapSets h
  | .range codes n => (if b.activeFits h n codes then b else b.swapSets h).rangeInForce h codes

/-- An arming in states 1 to 4 waits in the correction slot, where it replaces what is armed; while the head is stopped it takes force at
once (R120, R150, R151). -/
def corrPut (h : HeadId) (a : Armed) (b : Block) : Block :=
  if b.headStopped h then b.corrTake h a else b.modCorr h fun c => { c with armed := some a }

/-- What a line of this instant finds armed: nothing that was armed in its own HD cycle (R76). -/
def armedBefore (h : HeadId) (b : Block) : Option Armed :=
  if sameHd b.corr[h].armedAt b.now then b.corr[h].armedOld else b.corr[h].armed

/-- An arming reaches the correction slot (R121, R151): of several in one HD cycle the lowest rank counts (0 commit by write, 1 commit by
task, 2 swap by write, 3 swap by task, 4 calibration), and the cycle is counted once. DESIGN CHOICE: on a stopped head, where the first of
them has taken force, one of lower rank after it takes force in its turn; the sender gives them in the order of R151. -/
def corrArmOrTake (h : HeadId) (a : Armed) (rank : Nat) (sameCycle : Bool) (b : Block) : Block :=
  let c := b.corr[h]
  if sameCycle && sameHd c.armedAt b.now then
    let b := if c.armedCounted then b else b.bump (Obj.headCorrCoincidences h)
    let b := if rank ≤ 1 ∧ c.armedRank ≤ 1 ∧ rank ≠ c.armedRank then b.bump (Obj.headVideoIlvCoincidences h) else b
    let b := b.modCorr h fun c => { c with armedRank := min rank c.armedRank, armedCounted := true }
    if rank < c.armedRank ∨ (c.armed.isNone ∧ b.headStopped h = false) then b.corrPut h a else b
  else (b.modCorr h fun c => { c with armedRank := rank, armedAt := some b.now, armedOld := b.armedBefore h, armedCounted := false }).corrPut h a

/-- What a line finds armed takes force; what was armed in its HD cycle waits for the following one (R76). DESIGN CHOICE:
the same change armed before and in that cycle is one. -/
def corrTakeBefore (h : HeadId) (b : Block) : Block :=
  match b.armedBefore h with
  | none => b
  | some a =>
    (b.modCorr h fun c => { c with armed := if sameHd c.armedAt b.now ∧ c.armed ≠ some a then c.armed else none, armedOld := none }).corrTake h a

/-- What is armed takes force, and the slot is empty. -/
def corrTakeArmed (h : HeadId) (b : Block) : Block :=
  match b.corr[h].armed with
  | none => b
  | some a => (b.modCorr h fun c => { c with armed := none, armedOld := none }).corrTake h a

/-! ## Bar temperature (R132 to R134) -/

/-- The temperature state changes, with its events: hold started; fallback entered or left with `lin.mode` 0, the latter only after the
former (R134). -/
def setTempState (h : HeadId) (st : Nat) (b : Block) : Block :=
  let old := b.reg (Obj.headCorrTempState h)
  if st = old then b
  else
    let auto := b.reg (Obj.headLinMode h) == 0
    let b := b.setReg (Obj.headCorrTempState h) st
    let b := b.raiseIf (decide (st = 1)) (headSource h 24)
    let enters := auto && decide (2 ≤ st) && decide (old < 2)
    let leaves := auto && decide (st = 0) && decide (2 ≤ old) && b.corr[h].fellBack
    let b := b.modCorr h fun c => { c with fellBack := enters || (c.fellBack && decide (st ≠ 0)) }
    (b.raiseIf enters (headSource h 25)).raiseIf leaves (headSource h 26)

/-- Whether the last valid result is more than 1 s old (R133). -/
def tempStale (h : HeadId) (b : Block) : Bool :=
  match b.corr[h].lastTemp with | some (_, t) => decide (timeDiff b.now t > tSec) | none => true

/-- The hold ends: 1 s after the last valid result a head in state 0 or 1 enters state 2 (R134). -/
def tempExpire (h : HeadId) (b : Block) : Block :=
  if b.reg (Obj.headCorrBarChannel h) = 0xFF then b
  else if b.reg (Obj.headCorrTempState h) < 2 && (b.tempStale h || (match b.corr[h].lastTemp with
      | some (_, t) => decide (timeDiff b.now t = tSec) | none => true)) then b.setTempState h 2
  else b

/-- A result of the bar channel reaches the lane (R132 to R134). A valid one in the PIX cycle (15 ticks) in which the 1 s
expires wins and is a near miss. -/
def barResult (h : HeadId) (valid : Bool) (t : Int) (b : Block) : Block :=
  if valid then
    let near := match b.corr[h].lastTemp with
      | some (_, u) => decide ((tSec : Int) ≤ timeDiff b.now u) && decide (timeDiff b.now u < tSec + 15) | none => false
    let b := if near && decide (b.reg (Obj.headCorrTempState h) < 2) then b.bump (Obj.headCorrTempNearMisses h) else b
    (b.modCorr h fun c => { c with lastTemp := some (t, b.now),
                                   stoppedTemp := if b.headStopped h then some b.now else c.stoppedTemp }).setTempState h 0
  else
    if b.reg (Obj.headCorrTempState h) = 0 then b.setTempState h 1 else b

/-- The state a head starts in (R134): 0 without a channel, or when a valid result has arrived while the head was stopped and less than 1 s
ago; otherwise 3, with its fallback-entered event. -/
def tempStart (h : HeadId) (b : Block) : Block :=
  let recent : Bool := match b.corr[h].stoppedTemp with | some t => decide (timeDiff b.now t < tSec) | none => false
  if b.reg (Obj.headCorrBarChannel h) == 0xFF || recent then b.setTempState h 0
  else
    let auto := b.reg (Obj.headLinMode h) == 0
    ((b.setReg (Obj.headCorrTempState h) 3).modCorr h fun c => { c with fellBack := auto }).raiseIf auto (headSource h 25)

/-- T for linearisation and T_P for Patina under the state in force (R133). -/
def lineTemp (h : HeadId) (c : CorrSet) (b : Block) : Int × Int :=
  if b.reg (Obj.headCorrBarChannel h) = 0xFF then
    let t := b.regI (Obj.headCorrTempFixed h); (t, t)
  else
    let last := match b.corr[h].lastTemp with | some (t, _) => t | none => c.tCal
    if b.reg (Obj.headCorrTempState h) = 3 then (c.tCal, c.tCal) else (last, last)

/-! ## One line through the lane -/

/-- Linearisation of a segment: the y values, and whether the table was used (R135 to R137). -/
def linearise (h : HeadId) (c : CorrSet) (s : Nat) (t : Int) (xs : List Px) (b : Block) : List Px :=
  let mode := b.reg (Obj.headLinMode h)
  let st := b.reg (Obj.headCorrTempState h)
  if mode = 2 then xs
  else if mode = 1 ∨ 2 ≤ st then xs.map fun x => { x with v := linTable c s x.v }
  else xs.map fun x => { x with v := linPoly c s t x.v }

/-- Whether a line is linearised by the table, and so carries flag 7 (R136). -/
def tableUsed (h : HeadId) (b : Block) : Bool :=
  let mode := b.reg (Obj.headLinMode h)
  mode == 1 || (mode == 0 && decide (2 ≤ b.reg (Obj.headCorrTempState h)))

/-- Patina, defective pixels and marks of a segment (R139 to R141). -/
def patinaSegment (h : HeadId) (c : CorrSet) (s : Nat) (tP : Int) (ys : List Px) (b : Block) : List Px :=
  if b.reg (Obj.headPatinaEnable h) = 0 then ys.map fun y => { y with v := y.mark.force (clip (rnd y.v 2) 0 65535) }
  else
    let dP := clip (tP - c.tCal) (-2048) 2047
    let out0 : List (Px × Bool × Int) := ys.zipIdx.map fun (y, p) =>
      let e := c.pixel s p
      (y, e.gain == 0 && y.mark == Mark.none, y.mark.force (patina e (c.es s) (c.eq s) dP (b.reg (Obj.headPatinaOutOffset h)) y.v))
    let good := out0.map fun (_, bad, v) => if bad then none else some v
    out0.zipIdx.map fun ((y, bad, v), p) => { y with v := if bad then defectValue good p else v }

/-! ## Preparing a set (R153, R160, R161) -/

/-- The smallest exponent from 0 to 7 at which every value, scaled and rounded half away, fits the range; 7 when none does
(R160). `vals` are the field values at exponent 0. -/
def pickExponent (vals : List Frac) (lo hi : Int) : Nat :=
  ((List.range 8).find? fun e => vals.all fun v =>
    let r := (v.div ⟨2 ^ e, 1⟩).round; decide (lo ≤ r) && decide (r ≤ hi)).getD 7

/-- A value rounded at an exponent and limited to its field (R160). -/
def quantise (v : Frac) (e : Nat) (lo hi : Int) : Int := clip (v.div ⟨2 ^ e, 1⟩).round lo hi

/-- The bytes of a segment record (R144), with P rebuilt from the polynomial at t_cal (R161). -/
def segmentRecord (coefs : List Int) (eS eQ : Nat) (tCal tRef : Int) : List Byte :=
  let head := coefs.flatMap (fun v => leBytes 4 (ofSigned 32 v)) ++ [BitVec.ofNat 8 eS, BitVec.ofNat 8 eQ, 0, 0]
  let probe : CorrSet := ⟨[], leBytes 4 0 ++ leBytes 2 (ofSigned 16 tCal) ++ leBytes 2 (ofSigned 16 tRef) ++ List.replicate 56 0 ++ head⟩
  head ++ (List.range 33).flatMap fun j => leBytes 4 (ofSigned 32 (linPoly probe 0 tCal (8192 * (j : Int))))

/-- The head of a segment table (R144). -/
def segmentHeader (number : Nat) (tCal tRef : Int) (gains : List Nat) : List Byte :=
  leBytes 2 number ++ leBytes 2 0 ++ leBytes 2 (ofSigned 16 tCal) ++ leBytes 2 (ofSigned 16 tRef) ++
  (List.range 16).map (fun i => BitVec.ofNat 8 (gains.getD i 0)) ++ List.replicate 40 0

/-- The 1,024 pixel words of a segment as bytes, the entries not given left 0. -/
def pixelBytes (entries : List PixelEntry) : List Byte := padTo 4096 (entries.flatMap fun e => leBytes 4 e.word)

/-- A defective pixel's entry (R162). -/
def deadEntry : PixelEntry := ⟨0, 0, 0, 0⟩

/-- Segment s of a prepared set (R153): gain, dark, slope and quadratic scaled by r in binary32. The exponents are those that the pixels in
use need, without those that become defective (R138, R160). -/
def prepareSegment (c : CorrSet) (s active : Nat) (r : Frac) : List PixelEntry × List Int × Nat × Nat :=
  let es := (List.range 1024).map fun p => c.pixel s p
  let gains := es.map fun e => (f32 ((Frac.ofInt e.gain).div r)).round
  let used {α : Type} (l : List α) : List α :=
    (l.zipIdx.filter fun x => decide (x.2 < active) && decide (gains.getD x.2 0 ≤ 16383)).map (·.1)
  let r2 := f32 (r.mul r)
  let slopes := es.map fun e => f32 ((Frac.ofInt (e.slope * 2 ^ c.es s)).mul r)
  let quads := es.map fun e => f32 ((Frac.ofInt (e.quad * 2 ^ c.eq s)).div r)
  let eS := pickExponent (used slopes) (-16) 15
  let eQ := pickExponent (used quads) (-4) 3
  let out := es.zipIdx.map fun (e, p) =>
    let g := gains.getD p 0
    if 16383 < g then deadEntry
    else ⟨g.toNat, clip (f32 ((Frac.ofInt e.dark).mul r)).round (-512) 511,
          quantise (slopes.getD p ⟨0, 1⟩) eS (-16) 15, quantise (quads.getD p ⟨0, 1⟩) eQ (-4) 3⟩
  let lim (v : Int) := clip v (-(2 ^ 31)) (2 ^ 31 - 1)
  let coefs := [c.coef s 0, c.coef s 1,
    lim (f32 ((Frac.ofInt (c.coef s 2)).div r)).round, lim (f32 ((Frac.ofInt (c.coef s 3)).div r)).round,
    lim (f32 ((Frac.ofInt (c.coef s 4)).div r2)).round, lim (f32 ((Frac.ofInt (c.coef s 5)).div r2)).round]
  (out, coefs, eS, eQ)

/-- The set prepared from c, in force at `inForce`, for the staged codes (R153). -/
def prepareSet (c : CorrSet) (n active : Nat) (staged inForce : List Nat) : CorrSet :=
  let segs := (List.range 16).map fun s =>
    prepareSegment c s active (f32 ⟨gainFactor ((staged.getD s 0 : Int) - inForce.getD s 0), 2 ^ 48⟩)
  ⟨segs.flatMap fun x => pixelBytes x.1,
   segmentHeader n c.tCal c.tRef staged ++ segs.flatMap fun x => segmentRecord x.2.1 x.2.2.1 x.2.2.2 c.tCal c.tRef⟩

/-! ## Reference-strip calibration (R154 to R163) -/

/-- Lines that the phase in progress still needs. -/
def calTarget (c : Calibration) : Nat :=
  match c.phase with
  | 1 | 3 | 5 => c.settle
  | 2 => c.dark
  | 4 => c.white
  | 6 => c.grey
  | _ => 0

/-- `cal.status` of a phase (R155). -/
def calStatusOf (phase : Nat) : Nat :=
  match phase with | 1 | 2 => 1 | 3 | 4 => 2 | 5 | 6 => 3 | 7 => 4 | _ => 0

/-- Whether the head's lamps are blanked by its calibration (R155, R298). -/
def calBlanks (h : HeadId) (b : Block) : Bool := b.corr[h].cal.phase == 1 || b.corr[h].cal.phase == 2

/-- A calibration begins: counts latched, status 1 (R154, R155). -/
def calBegin (h : HeadId) (b : Block) : Block :=
  let c : Calibration := ⟨1, b.reg (Obj.headCalSettleLines h), b.reg (Obj.headCalDarkLines h), b.reg (Obj.headCalWhiteLines h),
    b.reg (Obj.headCalGreyLines h), 0, [], [], [], 0, 0, 0, false⟩
  (b.modCorr h fun x => { x with cal := c, autoOwed := false }).setReg (Obj.headCalStatus h) 1

/-- Sums and sample counts with one more line of y values; a marked pixel does not contribute (R155). -/
def addLine (acc : List (Int × Nat)) (ys : List Px) : List (Int × Nat) :=
  ys.zipIdx.map fun (y, i) =>
    let (s, n) := acc.getD i (0, 0)
    if y.mark == .none then (s + y.v, n + 1) else (s, n)

/-- A contributing line passes the calibration (R155, R156): sums in the accumulating phases, and failure 7 when T is not
in state 0 with `lin.mode` 0 or spans more than 2 °C. -/
def calLine (h : HeadId) (t : Int) (ys : List Px) (b : Block) : Block :=
  let c := b.corr[h].cal
  if c.phase = 0 ∨ c.phase = 7 ∨ calTarget c ≤ c.done then b
  else if b.reg (Obj.headLinMode h) = 0 ∧ b.reg (Obj.headCorrTempState h) ≠ 0 then b.calFail h 7
  else
    let tMin := if c.tSeen then min c.tMin t else t
    let tMax := if c.tSeen then max c.tMax t else t
    if 32 < tMax - tMin then b.calFail h 7
    else
      let c := { c with done := c.done + 1, tMin := tMin, tMax := tMax, tSeen := true }
      let c := match c.phase with
        | 2 => { c with darkSum := addLine c.darkSum ys, tSum := c.tSum + t }
        | 4 => { c with whiteSum := addLine c.whiteSum ys }
        | 6 => { c with greySum := addLine c.greySum ys }
        | _ => c
      b.modCorr h fun x => { x with cal := c }

/-- Whether more than a quarter of all pixels lack half their samples in a phase (R156). -/
def lackMany (acc : List (Int × Nat)) (lines pixels : Nat) : Bool :=
  decide (pixels < 4 * (acc.filter fun (_, n) => decide (2 * n < lines)).length)

/-- Pixels of the head that calibrate: active pixels of enabled segments. -/
def calPixels (h : HeadId) (b : Block) : Nat :=
  b.reg (Obj.headLayoutActive h) * popCount (b.reg (Obj.headSegments h)) 16

/-- A phase that has its lines ends: the next phase with its status, skipping an empty settle and, without grey lines, the
grey phases (R155). -/
def calPhaseEnd (h : HeadId) (b : Block) : Block :=
  let c := b.corr[h].cal
  if c.phase = 0 ∨ c.phase = 7 ∨ c.done < calTarget c then b
  else
    let sums := match c.phase with | 2 => some (c.darkSum, c.dark) | 4 => some (c.whiteSum, c.white) | 6 => some (c.greySum, c.grey) | _ => none
    let bad := match sums with | some (acc, n) => lackMany acc n (b.calPixels h) | none => false
    if bad then b.calFail h 6
    else
      let next := if c.phase = 4 ∧ c.grey = 0 then 7 else c.phase + 1
      (b.modCorr h fun x => { x with cal := { c with phase := next, done := 0 } }).setReg (Obj.headCalStatus h) (calStatusOf next)

/-- The mean of a pixel's samples: the sum plus half the line count, shifted by its logarithm (R155). -/
def calMean (acc : List (Int × Nat)) (i lines : Nat) : Int := sra ((acc.getD i (0, 0)).1 + (lines / 2 : Nat)) (Nat.log2 lines)

/-- What the derivation keeps of one pixel: dark mean, d_w, q (in 1/16 code, nothing without a result), the slope in 2^−10
code per °C when it is measured anew, and whether it is defective so far. -/
structure CalPixel where
  dark : Int
  dw : Int
  q : Option Frac
  slope : Option Frac
  bad : Bool
  deriving DecidableEq, Repr

/-- One segment of a derived set (R157 to R162); the exponents are those that the pixels which do not become defective need (R160). `open_` is the free QUAD of pixels whose q the spec's quotient leaves
without a value. -/
def deriveSegment (act : CorrSet) (s : Nat) (px : List CalPixel) (grey newSlope : Bool) (open_ : Int) (target outOffset : Nat)
    (tCal tRef : Int) : List PixelEntry × List Byte :=
  let qs := px.map fun x => match x.q with | some q => q.mul ⟨2 ^ 26, 1⟩ | none => ⟨0, 1⟩
  let slopes := px.map fun x => match x.slope with | some v => v.mul ⟨1024, 1⟩ | none => ⟨0, 1⟩
  let quadAt (eQ p : Nat) (x : CalPixel) : Int :=
    if !grey then 0 else match x.q with | some _ => quantise (qs.getD p ⟨0, 1⟩) eQ (-4) 3 | none => open_
  let gainAt (eQ p : Nat) (x : CalPixel) : Frac × Int :=
    let q : Frac := ⟨quadAt eQ p x * 2 ^ eQ, 2 ^ 26⟩
    let ew := (Frac.ofInt x.dw).add (q.mul (Frac.ofInt (x.dw * x.dw)))
    (ew, ((Frac.ofInt (((target : Int) - outOffset) * 32768)).div ew).round)
  let dead (eQ p : Nat) (x : CalPixel) : Bool :=
    let dark := rnd x.dark 2
    let (ew, gain) := gainAt eQ p x
    x.bad || decide (ew.num ≤ 0) || decide (dark < -512) || decide (511 < dark) || decide (16383 < gain)
  let live (eQ : Nat) (l : List Frac) : List Frac := (px.zip l).zipIdx.filterMap fun (x, p) => if dead eQ p x.1 then none else some x.2
  let fits (e : Nat) (v : Frac) : Bool := let r := (v.div ⟨2 ^ e, 1⟩).round; decide (-4 ≤ r) && decide (r ≤ 3)
  let eQ := if grey then ((List.range 8).find? fun e => (live e qs).all (fits e)).getD 7 else 0
  let eS := if newSlope then pickExponent (live eQ slopes) (-16) 15 else act.es s
  let entries := px.zipIdx.map fun (x, p) =>
    if dead eQ p x then deadEntry
    else ⟨(gainAt eQ p x).2.toNat, rnd x.dark 2, if newSlope then quantise (slopes.getD p ⟨0, 1⟩) eS (-16) 15 else (act.pixel s p).slope,
          quadAt eQ p x⟩
  let coefs := (List.range 6).map fun i => act.coef s i
  (entries, segmentRecord coefs eS eQ tCal tRef)

/-- The derived set of a calibration whose phases are complete, or failure 8 (R156 to R162). -/
def calDerive (h : HeadId) (b : Block) : Option CorrSet :=
  let c := b.corr[h].cal
  let act := b.activeSet h
  let active := b.reg (Obj.headLayoutActive h)
  let on := (List.range 16).filter fun s => b.segmentOn h s
  let total := on.length * active
  let tCal := divHalfUp c.tSum (max 1 c.dark)
  let dws := (List.range total).map fun i => calMean c.whiteSum i c.white - calMean c.darkSum i c.dark
  let med := median dws
  if med < 16384 then none
  else
    let grey := c.grey != 0
    let gains := b.gainsInForce h
    let newSlope := act.gains == gains && decide (64 ≤ (tCal - act.tCal).natAbs)
    let rho : Frac := ⟨b.reg (Obj.headCalGreyRatio h), 65536⟩
    let pixelsOf (k s : Nat) : List CalPixel := (List.range active).map fun p =>
      let i := k * active + p
      let dk := calMean c.darkSum i c.dark
      let dw := dws.getD i 0
      let dg := calMean c.greySum i c.grey - dk
      let den := (rho.mul (Frac.ofInt (dw * dw))).sub (Frac.ofInt (dg * dg))
      let q := if den.num = 0 then none else some (((Frac.ofInt dg).sub (rho.mul (Frac.ofInt dw))).div den)
      let lacks (acc : List (Int × Nat)) (n : Nat) : Bool := decide (2 * (acc.getD i (0, 0)).2 < n)
      let bad := lacks c.darkSum c.dark || lacks c.whiteSum c.white || (grey && lacks c.greySum c.grey) || decide (8 * dw < med)
      ⟨dk, dw, q, some ((Frac.ofInt (dk - 4 * (act.pixel s p).dark)).div (Frac.ofInt (tCal - act.tCal))), bad⟩
    let n := if act.number = 0xFFFE then 0 else act.number + 1
    let segs := (List.range 16).map fun s =>
      match on.idxOf? s with
      | some k => deriveSegment act s (pixelsOf k s) grey newSlope ((b.freeUpTo 7 : Int) - 4)
          (b.reg (Obj.headPatinaWhiteTarget h)) (b.reg (Obj.headPatinaOutOffset h)) tCal act.tRef
      | none => ((List.range 1024).map fun p => act.pixel s p, slice act.segments (0x40 + 160 * s) 160)
    some ⟨segs.flatMap fun x => pixelBytes x.1, segmentHeader n tCal act.tRef gains ++ segs.flatMap (·.2)⟩

/-- The derivation ends: the shadow is ready with its number, a calibration swap is armed, status 5, and the event; or the
calibration fails with 8 (R156, R163). -/
def calDone (h : HeadId) (sameCycle : Bool) (b : Block) : Block :=
  if b.corr[h].cal.phase ≠ 7 then b
  else match b.calDerive h with
    | none => b.calFail h 8
    | some c =>
      let b := ((b.used.setShadow h c).setReg (Obj.headCorrShadowReady h) c.number).modCorr h fun x => { x with cal := noCal }
      ((b.setReg (Obj.headCalStatus h) 5).raise (headSource h 28)).corrArmOrTake h .swap 4 sameCycle

end Block
end Sys2Proof.Machine
end

