-- ==== Sys2Proof/Machine/Position.lean ====
section
/-! DEFINITION. The position of an axis at an instant (R263, R265), and which axis is the position source (R281). -/
namespace Sys2Proof.Machine

/-- Profile units in one count. -/
def uCount : Nat := 2000000000000

/-- A stamp of 488.28125 ps resolution, in fine units (R265). -/
def stampFine (t : Time) : Nat := fineOf t / uFine * uFine

/-- The edges at or before an instant, newest first. -/
def Axis.edgesTo (x : Axis) (t : Time) : List CountedEdge := x.edges.dropWhile fun e => decide (timeDiff t e.at_ < 0)

/-- The fraction f of R265 in 1/256 count at t, with the sign of the counting direction, after a list of edges. -/
def edgeFraction (es : List CountedEdge) (t : Time) : Int :=
  match es with
  | e :: f :: _ =>
    if e.dir ≠ f.dir ∨ (10 * tMs : Int) < timeDiff t e.at_ then 0
    else
      let d := fineDiff (stampFine e.at_) (stampFine f.at_)
      if d ≤ 0 then 0 else e.dir * min 255 (fineDiff (fineOf t) (stampFine e.at_) * 256 / d)
  | _ => 0

/-- The encoder's position at t in 1/256 count (R265). DESIGN CHOICE: before the oldest edge held it is the count before that edge. -/
def Axis.encoderAt (x : Axis) (t : Time) : Int :=
  match x.edgesTo t with
  | e :: es => e.count + edgeFraction (e :: es) t
  | [] => match x.edges.getLast? with | some e => e.count - 256 * e.dir | none => x.count

/-- The count before the last edge. -/
def Axis.prevCount (x : Axis) : Int := match x.edges with | e :: _ => e.count - 256 * e.dir | [] => x.count

/-- P_cmd in profile units at t (R268): between updates it is interpolated in MOT cycles of 5 ns. -/
def Axis.cmdUnits (x : Axis) (t : Time) : Int :=
  x.from_ + (x.pos - x.from_) * (min 200 ((timeDiff t x.updatedAt).toNat / 80) : Nat) / 200

/-- P_cmd in 1/256 count at t. -/
def Axis.command (x : Axis) (t : Time) : Int := x.cmdUnits t * 256 / (uCount : Int)

namespace Block

/-- The position of an axis at t in 1/256 count (R263). -/
def positionAt (a : AxisId) (t : Time) (b : Block) : Int :=
  if b.isSet (Obj.axisEncoderEnable a) then b.axes[a].encoderAt t else b.axes[a].command t

/-- The axis of this pier that holds the claim of the position source, if one does (R281). -/
def ownAxis (b : Block) : Option AxisId :=
  if b.reg (Obj.axisSourcePier 0) ≠ b.reg Obj.ringPierNumber then none
  else (List.finRange 2).find? fun a => b.isSet (Obj.axisBroadcast a)

/-- The axis that a head's trigger settings name. -/
def headAxis (h : HeadId) (b : Block) : AxisId := Fin.ofNat 2 (b.reg (Obj.headTriggerAxis h))

/-- The axis that carries the page (R230). -/
def pageAxis (b : Block) : Option AxisId := (List.finRange 2).find? fun a => b.isSet (Obj.axisKeystoneEnable a)

end Block
end Sys2Proof.Machine
end

