-- ==== Sys2Proof/Machine/Stitching.lean ====
section
/-! DEFINITION. Voussoir: geometry, scan offsets, the history and its fallbacks, horizontal placement, blending and gaps,
geometry swaps and fiducial calibration (R168 to R199). -/
namespace Sys2Proof.Machine

/-! ## Geometry (R171) -/

def geoNumber (g : List Byte) : Nat := fieldU g 0 2
/-- h_s, position of bin 0 in 2^−16 column. -/
def geoH (g : List Byte) (s : Nat) : Int := fieldI g (0x10 + 16 * s) 4
/-- a_s, along-scan coordinate in 1/256 count. -/
def geoA (g : List Byte) (s : Nat) : Int := fieldI g (0x14 + 16 * s) 4
/-- e_s, scale term in 2^−20. -/
def geoE (g : List Byte) (s : Nat) : Int := fieldI g (0x18 + 16 * s) 2

/-- Position of column c in segment s: the bin index n, the phase p and u of R181. -/
def placeColumn (g : List Byte) (s c : Nat) : Int × Nat × Int :=
  let d := 65536 * (c : Int) - geoH g s
  let u := d + rnd (d * geoE g s) 20
  let n := sra u 16
  let p := (rnd (u % 65536) 10).toNat
  if p = 64 then (n + 1, 0, u) else (n, p, u)

/-- Whether segment s of nb bins covers column c (R181). -/
def covers (g : List Byte) (nb s c : Nat) : Bool :=
  let (_, _, u) := placeColumn g s c
  decide (0 ≤ u) && decide (u ≤ 65536 * ((nb : Int) - 1))

/-- Insertion of a segment by h_s, lower number first among equals (R173). -/
def insertByH (g : List Byte) (s : Nat) : List Nat → List Nat
  | [] => [s]
  | x :: xs => if geoH g s < geoH g x ∨ (geoH g s = geoH g x ∧ s < x) then s :: x :: xs else x :: insertByH g s xs

/-- Segments in the order of neighbours (R173). -/
def segmentOrder (g : List Byte) (on : List Nat) : List Nat := on.foldr (insertByH g) []

/-- The coverage check of R173: no column covered by more than two segments, or by two that are not neighbours. -/
def coverageOk (g : List Byte) (on : List Nat) (nb width : Nat) : Bool :=
  let order := segmentOrder g on
  (List.range width).all fun c =>
    let hits := order.zipIdx.filter fun (s, _) => covers g nb s c
    match hits with
    | [] => true
    | [_] => true
    | [(_, i), (_, j)] => j == i + 1
    | _ => false

namespace Block

def stitchLevel (h : HeadId) (b : Block) : Nat := b.levelInForce (Obj.headStitchLevel h)
def activeGeometry (h : HeadId) (b : Block) : List Byte := b.table (0x602C + h.val)
def shadowGeometry (h : HeadId) (b : Block) : List Byte := b.table (0x6028 + h.val)
def filterTable (h : HeadId) (b : Block) : List Byte := b.table (0x6030 + h.val)
def enabledSegments (h : HeadId) (b : Block) : List Nat := (List.range 16).filter fun s => b.segmentOn h s
def geometryCovers (h : HeadId) (g : List Byte) (b : Block) : Bool :=
  coverageOk g (b.enabledSegments h) (b.bins h) (b.reg (Obj.headStitchWidth h))

/-- `trigger.direction` as +1 or −1. -/
def direction (h : HeadId) (b : Block) : Int := b.regI (Obj.headTriggerDirection h)

/-- The scan offsets of a geometry (R170): from a_s in scan mode, from `streak_delay` in streak mode. -/
def offsetsOf (h : HeadId) (g : List Byte) (b : Block) : List Int :=
  if b.scan then
    let d := b.direction h
    let on := b.enabledSegments h
    let lo := (on.map fun s => d * geoA g s).foldl min (match on with | [] => 0 | s :: _ => d * geoA g s)
    (List.range 16).map fun s => if b.segmentOn h s then d * geoA g s - lo else 0
  else (List.range 16).map fun s => if b.segmentOn h s then (b.reg (Obj.headStitchStreakDelay h s) : Int) else 0

/-- The width that a head's stitching has for the first column of the heads above it (R175). -/
def widthOf (h : HeadId) (b : Block) : Nat :=
  if b.stitchLevel h = 1 then b.reg (Obj.headStitchWidth h) else 16 * b.bins h

/-- Width and first column derived at a start at the basic level (R175). -/
def deriveColumns (h : HeadId) (b : Block) : Block :=
  if b.stitchLevel h = 1 then b
  else
    let first := ((List.finRange 4).filter fun g => decide (g.val < h.val)).foldl (fun n g => n + b.widthOf g) 0
    (b.setReg (Obj.headStitchWidth h) (16 * b.bins h)).setReg (Obj.headStitchFirstColumn h) first

/-! ## Coordinates and targets (R177) -/

/-- The line that a line followed: of those that Voussoir has seen and the last approach lines (R249), the one of the highest lower
number. -/
def prevOf (h : HeadId) (l : Line) (b : Block) : Option PrevLine :=
  (b.stitch[h].prevs.filter fun p => decide (p.no < l.no)).foldl (fun m p =>
    match m with | some q => if q.no < p.no then some p else m | none => some p) none

/-- A line as the midpoint term of later lines needs it. -/
def prevLine (l : Line) : PrevLine := ⟨l.no, l.position, l.tE, l.common, l.waitsPosition⟩

/-- The coordinate z of a line (R177). -/
def lineZ (h : HeadId) (l : Line) (b : Block) : Int :=
  if !b.scan then 256 * (l.seq : Int)
  else if b.reg (Obj.headStitchMidpoint h) = 0 then l.position
  else match b.prevOf h l with
    | none => l.position
    | some p =>
      let dt := timeDiff l.tE p.tE
      if dt ≤ 0 then l.position
      else l.position + divHalfUp ((l.position - p.position) * (unitsNs l.exposure * 16 : Nat)) (2 * dt)

/-- Voussoir has seen a line: lines before it are no longer needed (R177). -/
def stitchSeen (h : HeadId) (l : Line) (b : Block) : Block :=
  b.modStitch h fun s => { s with prevs := s.prevs.filter (fun p => decide (l.no < p.no)) ++ [prevLine l] }

/-- An idle line ends in the head: an approach line stands for line K in the midpoint term of the line that follows it (R249). Lines that
wait in the queue still follow the lines before them. -/
def stitchIdle (h : HeadId) (l : Line) (b : Block) : Block :=
  if !l.approach then b
  else
    let queued := b.heads[h].queue
    b.modStitch h fun s => { s with prevs := s.prevs.filter (fun p => queued.any fun q => decide (p.no < q.line.no)) ++ [prevLine l] }

/-- The owner's position at a common instant reaches the lines that await it (R89, R249). -/
def stitchLatched (h : HeadId) (tE : Time) (p : Int) (b : Block) : Block :=
  b.modStitch h fun s => { s with prevs := s.prevs.map fun x =>
    if x.waits && x.common == some tE then { x with position := p, waits := false } else x }

/-- The position of the line before a line has not arrived in time: it is open (R89). -/
def stitchSettle (h : HeadId) (l : Line) (b : Block) : Block :=
  match b.prevOf h l with
  | some q =>
    if !q.waits then b
    else
      let open_ := toSigned 48 (b.freeUpTo (2 ^ 48 - 1))
      b.used.modStitch h fun s => { s with prevs := s.prevs.map fun x => if x.no = q.no then { x with position := open_, waits := false } else x }
  | none => b

/-! ## The history in the delay region (R176, R200) -/

/-- Where a history line of segment s lies in the delay area of a head, 2 bytes a bin (R176, R200). DESIGN CHOICE: the spec gives the area of
a head and not the places in it. -/
def delayPlace (h s slot : Nat) : Nat := 0x04000000 + h * 0x01000000 + (s * 256 + slot) * 2048

/-- The history lines of segment s, oldest first (R176). -/
def historyOf (h : HeadId) (s : Nat) (b : Block) : List HistoryLine := b.stitch[h].history.getD s []

/-- The bins of segment s of a line enter its history, of which the last 256 lines stay (R168, R176). -/
def storeHistory (h : HeadId) (s : Nat) (z : Int) (flags : Nat) (px : List Px) (b : Block) : Block :=
  let old := b.historyOf h s
  let slot := match old.getLast? with | some x => (x.slot + 1) % 256 | none => 0
  let new := (old ++ [HistoryLine.mk z flags slot (px.map (·.mark))]).drop (old.length + 1 - 256)
  (b.memWrite (delayPlace h.val s slot) (px.flatMap fun p => leBytes 2 p.v.toNat)).modStitch h fun x =>
    { x with history := (List.range 16).map fun k => if k = s then new else x.history.getD k [] }

/-- The bins of a history line of segment s, read from the delay region (R178). -/
def fetchHistory (h : HeadId) (s : Nat) (x : HistoryLine) (b : Block) : List Px :=
  (x.marks.zip (words16 (b.memRead (delayPlace h.val s x.slot) (2 * x.marks.length)))).map fun (m, v) => ⟨v, m⟩

end Block

/-- What a segment's vector is taken from (R178, R179): two history lines and φ, one line alone, or a miss. -/
inductive Bracket where
  | two (lo hi : HistoryLine) (phi : Nat)
  | one (l : HistoryLine)
  | miss
  deriving DecidableEq, Repr

/-- φ of R178 for a target Q between two coordinates. -/
def phiOf (q lo hi : Int) : Nat :=
  let d := (hi - lo).natAbs
  if d = 0 then 0 else min 256 ((512 * (q - lo).natAbs + d) / (2 * d))

/-- The bracket of target q in direction d: the newest line not later than q, and the one that follows it (R177, R178). -/
def bracketAt (d q : Int) : List HistoryLine → Bracket
  | [] => .miss
  | x :: rest =>
    match bracketAt d q rest with
    | .miss =>
      if d * x.z ≤ d * q then
        match rest with
        | [] => .one x
        | y :: _ => if q = x.z then .one x else .two x y (phiOf q x.z y.z)
      else .miss
    | r => r

/-- Two marks in one value: high wins over low (R178, R181). -/
def Mark.join (a b : Mark) : Mark :=
  match a, b with
  | .high, _ => .high | _, .high => .high
  | .low, _ => .low | _, .low => .low
  | .none, .none => .none

/-- One bin of a segment vector from two history bins (R178). -/
def blendBin (lo hi : Px) (phi : Nat) : Px :=
  let m := Mark.join (if phi < 256 then lo.mark else .none) (if 0 < phi then hi.mark else .none)
  ⟨m.force (rnd (lo.v * ((256 - phi : Nat) : Int) + hi.v * (phi : Int)) 8), m⟩

/-- A segment vector and the flags of the history lines that contributed (R178, R180); `fetch` reads a history line's bins. -/
def segmentVector (fetch : HistoryLine → List Px) : Bracket → List Px × Nat
  | .two lo hi phi =>
    let c := fetch hi
    ((fetch lo).zipIdx.map fun (x, i) => blendBin x (c.getD i x) phi,
     (if phi < 256 then lo.flags else 0) ||| (if 0 < phi then hi.flags else 0))
  | .one l => (fetch l, l.flags)
  | .miss => ([], 0)

/-- The value of column c from a segment vector (R181): eight taps of the filter row of its phase. -/
def columnValue (filter : List Byte) (g : List Byte) (s c : Nat) (v : List Px) : Px :=
  let (n, p, _) := placeColumn g s c
  let taps := (List.range 8).map fun (i : Nat) =>
    let j := (clip (n - 3 + (i : Int)) 0 ((v.length : Int) - 1)).toNat
    (fieldI filter (16 * p + 2 * i) 2, v.getD j ⟨0, .none⟩)
  let m := taps.foldl (fun m t => if t.1 = 0 then m else Mark.join m t.2.mark) .none
  ⟨m.force (clip (rnd (sumInts (taps.map fun t => t.1 * t.2.v)) 14) 0 65535), m⟩

/-- A column that two neighbours cover, column i of n (from 0), in blend 0 or 1 (R183). -/
def blendColumn (blend n i : Nat) (a c : Px) : Px :=
  if blend = 1 then (if i ≤ (n - 1) / 2 then a else c)
  else
    let w := 256 * (i + 1) / (n + 1)
    let m := Mark.join (if w < 256 then a.mark else .none) (if 0 < w then c.mark else .none)
    ⟨m.force (rnd (a.v * ((256 - w : Nat) : Int) + c.v * (w : Int)) 8), m⟩

/-- Gap columns filled (R184): by `fill`, or interpolated between the nearest covered columns, copied at an end. -/
def fillGaps (mode fill : Nat) (cols : List (Option Px)) : List Px :=
  cols.zipIdx.map fun (x, c) =>
    match x with
    | some p => p
    | none =>
      if mode = 0 then ⟨fill, .none⟩
      else
        let left := (List.range c).reverse.find? fun i => (cols.getD i none).isSome
        let right := (List.range (cols.length - c)).find? fun i => (cols.getD (c + i) none).isSome
        let val (i : Nat) : Int := match cols.getD i none with | some p => p.v | none => 0
        match left, right with
        | some l, some r => ⟨divHalfUp (val l * (r : Int) + val (c + r) * ((c - l : Nat) : Int)) ((c + r - l : Nat) : Int), .none⟩
        | some l, none => ⟨val l, .none⟩
        | none, some r => ⟨val (c + r), .none⟩
        | none, none => ⟨fill, .none⟩

/-- Columns 0 to width − 1 of a head from its segment vectors (R181 to R184). A vector of a missed segment is empty, and its
columns take `fill` (R179). -/
def placeLine (filter g : List Byte) (on : List Nat) (nb width blend gapMode fill : Nat) (vs : List (List Px)) : List Px :=
  let order := segmentOrder g on
  let value (s c : Nat) : Px :=
    let v := vs.getD s []
    if v.isEmpty then ⟨fill, .none⟩ else columnValue filter g s c v
  let both (s t : Nat) : List Nat := (List.range width).filter fun c => covers g nb s c && covers g nb t c
  let cols := (List.range width).map fun c =>
    match order.filter fun s => covers g nb s c with
    | [] => (none : Option Px)
    | [s] => some (value s c)
    | s :: t :: _ =>
      let run := both s t
      some (blendColumn blend run.length (c - run.headD c) (value s c) (value t c))
  fillGaps gapMode fill cols

namespace Block

/-- Whether the axis that positions this head reports its position invalid: the axis of `trigger.axis`, or with source 4 the position
source, on a pier that is not the owner as its messages tell it (R179, R282). Before any has come, none is valid. -/
def positionInvalid (h : HeadId) (b : Block) : Bool :=
  b.scan &&
    if b.reg (Obj.headTriggerSource h) = 4 then
      match b.ownAxis with
      | some a => !b.isSet (Obj.axisPositionValid a)
      | none => match b.ring.source with | some (_, _, v) => !v | none => true
    else !b.isSet (Obj.axisPositionValid (b.headAxis h))

/-- The bracket of one segment for line k, with the counter of the fallback taken: 0 none, 1 history miss, 2 position
fallback (R179). -/
def segmentBracket (h : HeadId) (l : Line) (z : Int) (s : Nat) (b : Block) : Bracket × Nat :=
  let hist := b.historyOf h s
  let o := l.offsets.getD s 0
  let d := if b.scan then b.direction h else 1
  let q := z - d * o
  let br := bracketAt d q hist
  let bad (x : HistoryLine) : Bool := x.flags.testBit 12
  let posBad := b.scan && (l.flags.testBit 12 || b.positionInvalid h ||
    (match br with | .two lo hi _ => bad lo || bad hi | .one x => bad x | .miss => false))
  if posBad then
    let back := (divHalfUp o (max 1 (b.regI (Obj.headTriggerPitch h)))).toNat
    match hist.reverse[back]? with
    | some x => (.one x, 2)
    | none => (.miss, 1)
  else match br with
    | .miss => (.miss, 1)
    | r => (r, 0)

/-- The first line after a start without a history miss (R197). -/
def noteClean (h : HeadId) (misses : Nat) (b : Block) : Block :=
  if misses = 0 ∧ b.stitch[h].cleanSeen = false then (b.modStitch h fun s => { s with cleanSeen := true }).raise (headSource h 36) else b

/-- Voussoir on one line (R168, R169): the columns, the flags gathered, and the engine's new state. -/
def voussoir (h : HeadId) (l : Line) (bins : List (List Px)) (b : Block) : List Px × Nat × Block :=
  let width := b.reg (Obj.headStitchWidth h)
  let gap := b.reg (Obj.headStitchGapMode h)
  let fill := b.reg (Obj.headStitchFill h)
  let on := b.enabledSegments h
  let z := b.lineZ h l
  let b := b.stitchSeen h l
  if b.reg (Obj.headStitchMode h) = 0 then
    let all := on.flatMap fun s => bins.getD s []
    (fillGaps gap fill ((List.range width).map fun c => all[c]?), l.flags, b.noteClean h 0)
  else
    let delayed (s : Nat) : Bool := decide (l.offsets.getD s 0 ≠ 0)
    let b := (on.filter delayed).foldl (fun b s => b.storeHistory h s z l.flags (bins.getD s [])) b
    let picks := (List.range 16).map fun s => if on.contains s && delayed s then b.segmentBracket h l z s else (.miss, 0)
    let vs := picks.zipIdx.map fun ((br, _), s) =>
      if on.contains s && !delayed s then (bins.getD s [], l.flags) else segmentVector (fun x => b.fetchHistory h s x) br
    let misses := (picks.filter fun x => x.2 == 1).length
    let falls := (picks.filter fun x => x.2 == 2).length
    let shared := (setBit (setBit (setBit (setBit (setBit 0 0) 1) 7) 8) 10)
    let gathered := vs.foldl (fun f v => f ||| (v.2 &&& shared)) 0
    let flags := l.flags ||| gathered
    let flags := if misses + falls = 0 then flags else setBit flags 9
    let b := (b.count (Obj.headStitchHistoryMisses h) misses).count (Obj.headStitchPositionFallbacks h) falls
    let b := if misses + falls = 0 then b else (b.bump (Obj.headStitchFallbackLines h)).raise (headSource h 32)
    let b := b.noteClean h misses
    (placeLine (b.filterTable h) l.geometry on (b.bins h) width (b.reg (Obj.headStitchBlend h)) gap fill (vs.map (·.1)), flags, b)

/-! ## Geometry swaps (R185, R186) -/

/-- No stitching calibration in progress. -/
def noStitchCal : StitchCal := ⟨0, 0, 0, [], []⟩

/-- A stitching calibration in progress ends without a result (R194). -/
def stitchCalFail (h : HeadId) (status : Nat) (b : Block) : Block :=
  if b.stitch[h].cal.phase = 0 then b
  else ((b.modStitch h fun s => { s with cal := noStitchCal }).setReg (Obj.headStitchCalStatus h) status).raise (headSource h 35)

/-- A geometry swap takes force: the previous active set becomes the ready shadow, the offsets are formed anew (R185). -/
def geometryTake (h : HeadId) (b : Block) : Block :=
  let b := b.stitchCalFail h 9
  let old := b.activeGeometry h
  let new := b.shadowGeometry h
  let b := (b.setTable (0x602C + h.val) new).setTable (0x6028 + h.val) old
  let b := (b.setReg (Obj.headStitchSetInForce h) (geoNumber new)).setReg (Obj.headStitchShadowReady h) (geoNumber old)
  let b := b.modStitch h fun s => { s with offsets := b.offsetsOf h new }
  (b.bump (Obj.headStitchSwaps h)).raise (headSource h 33)

/-- A geometry swap is armed (R186), of several in one HD cycle the lowest rank (0 write, 1 task, 2 calibration), counted
once; while the head is stopped the first of them takes force at once, and the others are the same swap (R185). -/
def geometryArm (h : HeadId) (rank : Nat) (sameCycle : Bool) (b : Block) : Block :=
  let s := b.stitch[h]
  if sameCycle && sameHd s.armedAt b.now then
    let b := if s.armedCounted then b else b.bump (Obj.headStitchCoincidences h)
    b.modStitch h fun s => { s with armed := s.armed || !b.headStopped h, armedRank := min rank s.armedRank, armedCounted := true }
  else
    let b := b.modStitch h fun s => { s with armedRank := rank, armedAt := some b.now, armedOld := if sameHd s.armedAt b.now then s.armedOld else s.armed, armedCounted := false }
    if b.headStopped h then b.geometryTake h else b.modStitch h fun s => { s with armed := true }

/-- The swap that a line finds armed takes force; one armed in its HD cycle alone waits for the following line (R76). -/
def geometryTakeBefore (h : HeadId) (b : Block) : Block :=
  let s := b.stitch[h]
  if !sameHd s.armedAt b.now then (if s.armed then (b.modStitch h fun s => { s with armed := false }).geometryTake h else b)
  else if s.armedOld then (b.modStitch h fun s => { s with armed := false, armedOld := false }).geometryTake h
  else b

/-- What is armed takes force, and the slot is empty. -/
def geometryTakeArmed (h : HeadId) (b : Block) : Block :=
  if b.stitch[h].armed then (b.modStitch h fun s => { s with armed := false, armedOld := false }).geometryTake h else b

/-! ## Fiducial calibration (R188 to R195) -/

/-- A stitching calibration begins in the marks phase (R189, R190). -/
def stitchCalBegin (h : HeadId) (b : Block) : Block :=
  (b.modStitch h fun s => { s with cal := ⟨1, b.reg (Obj.headStitchCalLines h), 0, [], []⟩ }).setReg (Obj.headStitchCalStatus h) 1

/-- A contributing line passes the stitching calibration (R190): bin sums in the marks phase, segment sums with z in the edge
phase. -/
def stitchCalLine (h : HeadId) (z : Int) (bins : List (List Px)) (b : Block) : Block :=
  let c := b.stitch[h].cal
  let sums := bins.map fun l => l.map (·.v)
  if c.phase = 1 ∧ c.done < c.lines then
    let acc := if c.done = 0 then sums else c.sums.zipIdx.map fun (l, s) => l.zipIdx.map fun (v, i) => v + (sums.getD s []).getD i 0
    b.modStitch h fun s => { s with cal := { c with sums := acc, done := c.done + 1 } }
  else if c.phase = 2 ∧ c.done < b.reg (Obj.headStitchCalEdgeLines h) then
    b.modStitch h fun s => { s with cal := { c with edge := c.edge ++ [(z, sums.map sumInts)], done := c.done + 1 } }
  else b

/-- The crossing of segment s in the edge phase (R193): where its mean passes halfway between the means of the first and the
last 16 lines, which overlap when the phase has fewer than 32, interpolated between the two lines that straddle that level. Sums stand for means, as every line has the
same bins. -/
def edgeCrossing (edge : List (Int × List Int)) (s : Nat) : Option Frac :=
  let ms := edge.map fun (z, l) => (z, l.getD s 0)
  if ms.length < 16 then none
  else
    let first := sumInts ((ms.take 16).map (·.2))
    let last := sumInts ((ms.drop (ms.length - 16)).map (·.2))
    if first = last then none
    else
      -- 32 × mean against the sum of the two sixteens: level = (first + last) ÷ 32
      let off (m : Int) : Int := 32 * m - (first + last)
      let up := decide (first < last)
      let hit := (ms.zip (ms.drop 1)).find? fun (x, y) =>
        if up then decide (off x.2 < 0) && decide (0 ≤ off y.2) else decide (0 < off x.2) && decide (off y.2 ≤ 0)
      match hit with
      | none => none
      | some (x, y) =>
        let num := -(off x.2)
        let den := off y.2 - off x.2
        some ((Frac.ofInt x.1).add ((Frac.ofInt ((y.1 - x.1) * num)).div (Frac.ofInt den)))

/-- Whether every enabled segment has crossed the edge (R190). -/
def allCrossed (h : HeadId) (b : Block) : Bool :=
  (b.enabledSegments h).all fun s => (edgeCrossing b.stitch[h].cal.edge s).isSome

/-- The marks phase has its lines, or the edge phase has seen every crossing or its last line: the next phase, or failure 8
(R190, R194). -/
def stitchCalPhaseEnd (h : HeadId) (b : Block) : Block :=
  let c := b.stitch[h].cal
  if c.phase = 1 ∧ c.lines ≤ c.done then
    if b.reg (Obj.headStitchCalEdge h) = 1 then
      (b.modStitch h fun s => { s with cal := { c with phase := 2, done := 0 } }).setReg (Obj.headStitchCalStatus h) 2
    else (b.modStitch h fun s => { s with cal := { c with phase := 3 } }).setReg (Obj.headStitchCalStatus h) 4
  else if c.phase = 2 then
    if b.allCrossed h then (b.modStitch h fun s => { s with cal := { c with phase := 3 } }).setReg (Obj.headStitchCalStatus h) 4
    else if b.reg (Obj.headStitchCalEdgeLines h) ≤ c.done then b.stitchCalFail h 8
    else b
  else b

/-- The marks of a profile (R191): runs of 1 to 12 bins below half the median that touch neither end, each as its
centroid. -/
def findMarks (profile : List Int) : List Frac :=
  let w := median profile
  let n := profile.length
  let dark (i : Nat) : Bool := decide (2 * profile.getD i w < w)
  let starts := (List.range n).filter fun i => dark i && (i == 0 || !dark (i - 1))
  starts.filterMap fun i =>
    let len := ((List.range (n - i)).find? fun k => !dark (i + k)).getD (n - i)
    if i = 0 ∨ n ≤ i + len ∨ 12 < len then none
    else
      let idx := (List.range (len + 2)).map (i - 1 + ·)
      let terms := idx.filterMap fun j => let t := w - profile.getD j w; if 0 < t then some ((j : Int) * t, t) else none
      some ((Frac.ofInt (sumInts (terms.map (·.1)))).div (Frac.ofInt (sumInts (terms.map (·.2)))))

/-- The least-squares line X = H + g × u of the mark pairs: H, g and the mean square of the residuals (R192). -/
def fitLine (pts : List (Frac × Frac)) : Frac × Frac × Frac :=
  let n : Frac := ⟨pts.length, 1⟩
  let su := pts.foldl (fun (a : Frac) (p : Frac × Frac) => a.add p.1) ⟨0, 1⟩
  let sx := pts.foldl (fun (a : Frac) (p : Frac × Frac) => a.add p.2) ⟨0, 1⟩
  let suu := pts.foldl (fun (a : Frac) (p : Frac × Frac) => a.add (p.1.mul p.1)) ⟨0, 1⟩
  let sux := pts.foldl (fun (a : Frac) (p : Frac × Frac) => a.add (p.1.mul p.2)) ⟨0, 1⟩
  let g := ((n.mul sux).sub (su.mul sx)).div ((n.mul suu).sub (su.mul su))
  let hh := (sx.sub (g.mul su)).div n
  let ss := pts.foldl (fun (a : Frac) (p : Frac × Frac) => let r := p.2.sub (hh.add (g.mul p.1)); a.add (r.mul r)) ⟨0, 1⟩
  (hh, g, ss.div n)

/-- The outcome of one segment's marks: h_s, e_s and the residual in 1/256 column, or a failure status (R191 to R194). -/
def fitSegment (g : List Byte) (s : Nat) (profile : List Int) (firstMark pitch : Nat) : Except Nat (Int × Int × Nat) :=
  let marks := findMarks profile
  let scale : Frac := ⟨2 ^ 20 + geoE g s, 2 ^ 20⟩
  let pairs := marks.map fun u =>
    let x := (⟨geoH g s, 65536⟩ : Frac).add (u.div scale)
    let j := (((x.mul ⟨256, 1⟩).sub ⟨firstMark, 1⟩).div ⟨pitch, 1⟩).round
    (j, u, (⟨(firstMark : Int) + j * pitch, 256⟩ : Frac))
  if marks.length < 3 ∨ ¬ (pairs.map (·.1)).Nodup then .error 6
  else
    let (hh, gg, ms) := fitLine (pairs.map fun x => (x.2.1, x.2.2))
    let e := (((Frac.ofInt 1).div gg).sub ⟨1, 1⟩).mul ⟨2 ^ 20, 1⟩ |>.round
    let r2 := ms.mul ⟨65536, 1⟩
    let res := (isqrt ((4 * r2.num.toNat) / r2.den) + 1) / 2
    if ¬ r2.le ⟨1024, 1⟩ ∨ e < -4096 ∨ 4096 < e then .error 7 else .ok ((hh.mul ⟨65536, 1⟩).round, e, res)

/-- The geometry that a calibration derives, with the residuals, or its failure status (R191 to R195). -/
def stitchDerive (h : HeadId) (b : Block) : Except Nat (List Byte × List Nat) :=
  let c := b.stitch[h].cal
  let g := b.activeGeometry h
  let on := b.enabledSegments h
  let fits := (List.range 16).map fun s =>
    if on.contains s then
      some (fitSegment g s ((c.sums.getD s []).map fun v => divHalfUp v (max 1 c.lines))
        (b.reg (Obj.headStitchCalFirstMark h)) (b.reg (Obj.headStitchCalMarkPitch h)))
    else none
  match fits.filterMap (fun f => match f with | some (.error e) => some e | _ => none) with
  | e :: es => .error (es.foldl min e)
  | [] =>
    let cross := if c.edge.isEmpty then [] else (List.range 16).map fun s => if on.contains s then edgeCrossing c.edge s else none
    let top := cross.foldl (fun m x => match x, m with
      | some v, some w => some (if Frac.le w v then v else w) | some v, none => some v | none, m => m) (none : Option Frac)
    let along (s : Nat) : Int := match cross.getD s none, top with
      | some v, some w => (w.sub v).round | _, _ => geoA g s
    let n := if geoNumber g = 0xFFFE then 0 else geoNumber g + 1
    let recs := fits.zipIdx.flatMap fun (f, s) =>
      let (hs, es) := match f with | some (.ok (x, e, _)) => (x, e) | _ => (geoH g s, geoE g s)
      leBytes 4 (ofSigned 32 hs) ++ leBytes 4 (ofSigned 32 (along s)) ++ leBytes 2 (ofSigned 16 es) ++ List.replicate 6 0
    .ok (leBytes 2 n ++ List.replicate 14 0 ++ recs, fits.map fun f => match f with | some (.ok (_, _, r)) => r | _ => 0)

/-- The derivation ends: the set goes to the shadow, and with coverage passed it is ready and a swap is armed, status 5; without,
status 7 (R195). -/
def stitchCalDone (h : HeadId) (sameCycle : Bool) (b : Block) : Block :=
  if b.stitch[h].cal.phase ≠ 3 then b
  else match b.stitchDerive h with
    | .error e => b.stitchCalFail h e
    | .ok (g, res) =>
      let b := (List.range 16).foldl (fun b s => b.setReg (Obj.headStitchCalResidual h s) (res.getD s 0)) b
      let b := b.setTable (0x6028 + h.val) g
      if b.geometryCovers h g then
        let b := (b.modStitch h fun s => { s with cal := noStitchCal }).setReg (Obj.headStitchShadowReady h) (geoNumber g)
        ((b.setReg (Obj.headStitchCalStatus h) 5).raise (headSource h 34)).geometryArm h 2 sameCycle
      else (b.setReg (Obj.headStitchShadowReady h) 0xFFFF).stitchCalFail h 7

end Block
end Sys2Proof.Machine
end

