-- ==== Sys2Proof/Machine/Illumination.lean ====
section
/-! DEFINITION. Illumination drive: currents and trims, the waveband sequence, blanking, the boost, the external sink chain,
derating and overdrive (R289 to R313). -/
namespace Sys2Proof.Machine

/-- TRIM of lamp i (R290). -/
def trimOf (t : List Byte) (i : Nat) : Nat := fieldU t (4 * i + 2) 2
/-- Waveband row of lamp i (R290). -/
def trimRow (t : List Byte) (i : Nat) : Nat := fieldU t (4 * i) 2 / 2 ^ 14 % 4

/-- Current of an on-chip lamp in 1/16 mA (R291); D in 1/65,536. -/
def lampCurrent (cmd cap d trim : Nat) : Nat := min 3200 ((divHalfUp ((min cmd cap * d * trim : Nat) : Int) (65536 * 32768)).toNat)

namespace Block

def trims (h : HeadId) (b : Block) : List Byte := b.table (0x6034 + h.val)
def illumLevel (h : HeadId) (b : Block) : Nat := b.levelInForce (Obj.headIllumLevel h)

/-- The sequence entry n: a row, or 0x0F dark (R293). -/
def seqEntryOf (h : HeadId) (n : Nat) (b : Block) : Nat := b.reg (Obj.headIllumSeq h (n % 16))

/-- Select mask of a sequence entry: bit i for external lamp 64 + i of that row with TRIM not 0, over the drivers of the chain
(R302); 0 for a dark entry. -/
def extMask (h : HeadId) (row : Nat) (b : Block) : Nat :=
  if 4 ≤ row then 0
  else (List.range (16 * b.reg (Obj.headIllumExtDrivers h))).foldl (fun m i =>
    if trimRow (b.trims h) (64 + i) = row ∧ trimOf (b.trims h) (64 + i) ≠ 0 then setBit m i else m) 0

/-- XCLK periods of a select frame with its latch margin, in ticks (R302, R303): 128 MHz is 125 ticks, halved with each code. -/
def frameTicks (h : HeadId) (b : Block) : Nat :=
  (16 * b.reg (Obj.headIllumExtDrivers h) + 8) * 125 * 2 ^ b.reg (Obj.headIllumExtClk h)

/-- Whether the select masks of the sequence are all equal (R303). -/
def masksEqual (h : HeadId) (b : Block) : Bool :=
  (List.range (b.reg (Obj.headIllumSeqLength h))).all fun n => b.extMask h (b.seqEntryOf h n) == b.extMask h (b.seqEntryOf h 0)

/-- Whether a pin of a row or column is disabled after the pin test (R305). -/
def colDead (h : HeadId) (c : Nat) (b : Block) : Bool := (b.reg (Obj.headIllumShorts h)).testBit c
def rowDead (h : HeadId) (r : Nat) (b : Block) : Bool := (b.reg (Obj.headIllumShorts h)).testBit (16 + r)

/-- On-chip lamps that a line of row r lights (R294, R305, R306). -/
def litLamps (h : HeadId) (r : Nat) (b : Block) : List Nat :=
  if 4 ≤ r ∨ b.rowDead h r then []
  else ((List.range 16).map (16 * r + ·)).filter fun i =>
    trimOf (b.trims h) i != 0 && !b.colDead h (i % 16) && !b.illum[h].openLamps.contains i

/-! ## Derating and overdrive (R307 to R309) -/

/-- D for a lamp-board temperature, in 1/65,536 rounded down (R307). -/
def derateFor (h : HeadId) (t : Int) (b : Block) : Nat :=
  let s := b.regI (Obj.headIllumDerateStart h)
  let e := b.regI (Obj.headIllumDerateEnd h)
  let f := b.reg (Obj.headIllumDerateFloor h)
  if t ≤ s then 65536
  else if e < t then 0
  else f + (((65536 - f : Nat) : Int) * (e - t) / (e - s)).toNat

/-- The overdrive budget B for a lamp-board temperature, in µs (R307). -/
def budgetFor (h : HeadId) (t : Int) (b : Block) : Frac :=
  let full := b.regI (Obj.headIllumOdFullTemp h)
  let zero := b.regI (Obj.headIllumOdZeroTemp h)
  let m := b.reg (Obj.headIllumOdBudget h)
  if t ≤ full then ⟨m, 1⟩
  else if zero ≤ t then ⟨0, 1⟩
  else (Frac.ofInt ((m : Int) * (zero - t))).div (Frac.ofInt (zero - full))

/-- A result of the lamp-board channel reaches the head (R307, R309). -/
def boardResult (h : HeadId) (valid : Bool) (t : Int) (b : Block) : Block :=
  if valid then
    (b.setRegI (Obj.headIllumBoardTemp h) t).modIllum h fun x =>
      { x with boardValid := true, heard := true, derateNext := b.derateFor h t, budgetNext := b.budgetFor h t }
  else
    (b.modIllum h fun x =>
      { x with boardValid := false, derateNext := if x.heard then x.derateNext else b.reg (Obj.headIllumDerateFloor h) }).raiseIf b.illum[h].boardValid (headSource h 44)

/-- Whether T_b is valid; without a channel D is 1 and overdrive is never permitted (R309). -/
def boardKnown (h : HeadId) (b : Block) : Bool := b.reg (Obj.headIllumBoardChannel h) == 0xFF || b.illum[h].boardValid

/-- D and B staged take force at a line boundary, with the event when D changes (R307, R311). -/
def derateInForce (h : HeadId) (b : Block) : Block :=
  let d := if b.reg (Obj.headIllumBoardChannel h) = 0xFF then 65536 else b.illum[h].derateNext
  let changed := b.reg (Obj.headIllumDerate h) != d
  ((b.setReg (Obj.headIllumDerate h) d).modIllum h fun x => { x with budget := x.budgetNext }).raiseIf changed (headSource h 43)

/-- E of every row after the ring time passed since it was last formed: 0.125 µs fewer for each µs, not below 0 (R308). -/
def leak (h : HeadId) (b : Block) : Block :=
  let dt := (timeDiff b.now b.illum[h].accumAt).toNat
  let fall : Frac := ⟨dt, 128000⟩
  b.modIllum h fun x => { x with accumAt := b.now, accum := x.accum.map fun e => if e.le fall then ⟨0, 1⟩ else e.sub fall }

/-- What a pulse of row r at overdrive, `ticks` coarse ticks long, would add to E, in µs (R308). -/
def odAddition (h : HeadId) (r ticks : Nat) (b : Block) : Frac :=
  let nom := b.reg (Obj.headIllumRowNominal h r)
  let i := min (b.reg (Obj.headIllumRowMa h r)) (3 * nom)
  if i ≤ nom then ⟨0, 1⟩
  else ((Frac.ofInt ((i * i : Nat) - (nom * nom : Nat) : Int)).div (Frac.ofInt ((nom * nom : Nat) : Int))).mul
    ⟨ticks * uCoarse, uMicro⟩

/-- The conditions of R308 other than the budget. -/
def odBase (h : HeadId) (b : Block) : Bool :=
  b.feature 6 && b.reg (Obj.headIllumDerate h) == 65536 && b.reg (Obj.headIllumBoardChannel h) != 0xFF && b.illum[h].boardValid

/-- Overdrive for the rows at a line boundary whose line is of row r (4 for none), with a pulse of so many coarse ticks: withdrawn by the budget, permitted again
at half of it, with the events and `od_permitted` (R308). -/
def overdrive (h : HeadId) (r ticks : Nat) (b : Block) : Block :=
  let b := b.leak h
  let x := b.illum[h]
  let half : Frac := ⟨x.budget.num, 2 * x.budget.den⟩
  let w' := Vector.ofFn fun (k : Fin 4) =>
    if x.withdrawn[k] then !(x.accum[k].le half)
    else if k.val = r then !((x.accum[k].add (b.odAddition h r ticks)).le x.budget) else false
  let mask := (List.finRange 4).foldl (fun m (k : Fin 4) => if b.odBase h && !w'[k] then setBit m k.val else m) 0
  let old := b.reg (Obj.headIllumOdPermitted h)
  let b := (b.modIllum h fun x => { x with withdrawn := w' }).setReg (Obj.headIllumOdPermitted h) mask
  (b.raiseIf (clearBits old mask != 0) (headSource h 41)).raiseIf (clearBits mask old != 0) (headSource h 42)

/-- The objects of E, in whole µs (R308). -/
def showAccum (h : HeadId) (b : Block) : Block :=
  (List.finRange 4).foldl (fun (b : Block) (k : Fin 4) => b.setReg (Obj.headIllumOdAccum h k) (b.illum[h].accum[k].floor.toNat)) b

/-! ## The sequence and the pulse (R293 to R299) -/

/-- The sequence entry that line j lit, or would have lit by the entry of the nearest line known (R244). -/
def entryOf (h : HeadId) (j : Int) (b : Block) : Option Nat :=
  let len : Int := max 1 (b.reg (Obj.headIllumSeqLength h))
  let near (p q : Int × Nat) : Int × Nat := if (q.1 - j).natAbs < (p.1 - j).natAbs then q else p
  match b.illum[h].lit with
  | [] => none
  | x :: xs => let n := xs.foldl near x; some (((n.2 : Int) + (j - n.1)) % len).toNat

/-- Entry of the sequence for the next boundary; `line` is the index of the place of an approach line (R244). A restart owed reaches entry 0
at its second boundary (R294). DESIGN CHOICE: before the first line of a page, where no line has lit a waveband, the sequence goes on by one. -/
def nextEntry (h : HeadId) (line : Option Int) (b : Block) : Nat :=
  match line.bind fun j => b.entryOf h j with
  | some e => e
  | none => if b.illum[h].restartIn = some 1 then 0 else b.illum[h].index % max 1 (b.reg (Obj.headIllumSeqLength h))

/-- The words of a select frame, that of the last driver first (R302). -/
def selectWords (h : HeadId) (mask : Nat) (b : Block) : List Nat :=
  (List.range (b.reg (Obj.headIllumExtDrivers h))).reverse.map fun d => mask / 2 ^ (16 * d) % 65536

/-- The words of the level frame, channel 15 of the last driver first (R302). -/
def levelWords (h : HeadId) (b : Block) : List Nat :=
  (List.range (16 * b.reg (Obj.headIllumExtDrivers h))).reverse.map fun i =>
    let t := b.trims h
    min 4095 (divHalfUp ((b.reg (Obj.headIllumExtLevel h (trimRow t (64 + i))) * trimOf t (64 + i) : Nat) : Int) 32768).toNat

/-- The frame for the next line begins when its mask differs from the mask latched (R302). -/
def startFrame (h : HeadId) (b : Block) : Block :=
  let m := b.extMask h (b.seqEntryOf h (b.nextEntry h none))
  if b.reg (Obj.headIllumExtDrivers h) = 0 ∨ m = b.illum[h].latchedMask then b
  else (b.modIllum h fun x => { x with frameMask := m, frameDue := some (later b.now (b.frameTicks h)) }).emit
    (.chain h.val false (b.selectWords h m))

/-- The sequence is set for the approach line at P_j (R244, R302): a frame on its way for another entry gives way to that of its entry. -/
def illumAhead (h : HeadId) (j : Int) (b : Block) : Block :=
  match b.entryOf h j with
  | none => b
  | some e =>
    let b := b.modIllum h fun x => { x with index := e }
    let m := b.extMask h (b.seqEntryOf h e)
    if b.illum[h].frameDue.isSome && (b.illum[h].frameMask == m || b.illum[h].frameLate) then b
    else (b.modIllum h fun x => { x with frameDue := none }).startFrame h

/-- Whether a line is blanked (R298). -/
def isBlanked (h : HeadId) (b : Block) : Bool :=
  b.isSet (Obj.headIllumBlank h) || b.illum[h].blankByTask || b.calBlanks h

/-- Length of a blanked pulse in coarse ticks: the shorter of `pulse_width` and the time left after T_X (R299). -/
def blankedWidth (h : HeadId) (steps : Nat) (b : Block) : Nat :=
  let left := (b.effMinWith h steps : Int) - steps * uFine -
    ((b.reg (Obj.headIllumPrecharge h) + b.reg (Obj.headIllumTail h) + 8) * uCoarse : Nat)
  min (b.reg (Obj.headIllumPulseWidth h)) (left / (uCoarse : Int)).toNat

/-- What the line boundary does to illumination (R293 to R299, R304, R308, R310): answers the waveband of the line, whether
it is blanked, whether it carries flag 10, and the new state. `line` is for approach lines; `kept` the index of a line that is not
idle. The boost off darkens all lamps (R301), as does thermal hold (R546, `dark`). -/
def illumBoundary (h : HeadId) (line kept : Option Int) (dark : Bool) (steps : Nat) (b : Block) : Nat × Bool × Bool × Block :=
  let b := b.derateInForce h
  let len := max 1 (b.reg (Obj.headIllumSeqLength h))
  let e := b.nextEntry h line
  let row := b.seqEntryOf h e
  let restarted := line.isNone && b.illum[h].restartIn == some 1
  let b := b.modIllum h fun x =>
    { x with index := (e + 1) % len, lit := match kept with | some k => ((k, e) :: x.lit).take 128 | none => x.lit,
             restartIn := match x.restartIn with | some 2 => some 1 | some 1 => if line.isSome then some 1 else none | r => r }
  let b := b.raiseIf restarted (headSource h 50)
  let blanked := b.isBlanked h
  let width := b.reg (Obj.headIllumPulseWidth h)
  let wb := b.blankedWidth h steps
  let long := if blanked then wb else width
  let b := b.overdrive h row long
  -- the external frame: latched at the boundary, or late
  let flying := b.illum[h].frameDue
  let late := match flying with | some t => !due t b.now | none => false
  let b := if flying.isSome && !late then
      b.modIllum h fun x => { x with latchedMask := x.frameMask, frameDue := none, frameLate := false } else b
  let b := if late then ((b.modIllum h fun x => { x with frameLate := true }).bump (Obj.headIllumExtLate h)).raise (headSource h 49)
    else b.startFrame h
  let lit := b.litLamps h row
  let d := b.reg (Obj.headIllumDerate h)
  let cmd := b.reg (Obj.headIllumRowMa h row)
  let nom := b.reg (Obj.headIllumRowNominal h row)
  let od := (b.reg (Obj.headIllumOdPermitted h)).testBit row
  let cap := if od then 3 * nom else nom
  let off := b.illum[h].boostOff || dark
  let currents := if off then [] else lit.map fun i => (i, lampCurrent cmd cap d (trimOf (b.trims h) i))
  let below := !blanked && decide (row < 4) && lit.any fun i =>
    decide ((if off then 0 else lampCurrent cmd cap d (trimOf (b.trims h) i)) < lampCurrent cmd cmd 65536 (trimOf (b.trims h) i))
  let flag := below || late || (b.reg (Obj.headIllumBoardChannel h) != 0xFF && !b.illum[h].boardValid)
  let b := if flag then (b.bump (Obj.headIllumDeratedLines h)).raise (headSource h 40) else b
  let b := if blanked ∧ row < 4 ∧ wb < width then b.bump (Obj.headIllumBlankShort h) else b
  let fires := decide (row < 4) && !off && !(b.rowDead h row) && !(blanked && wb == 0)
  let xen := if late then 0 else if d < 65536 then min long (divHalfUp ((width * d : Nat) : Int) 65536).toNat else long
  let b :=
    if fires then
      let b := b.emit (.lamp h.val row
        (if blanked then (steps * uFine / uCoarse) + b.reg (Obj.headIllumPrecharge h) else b.reg (Obj.headIllumPulseDelay h))
        long blanked currents xen)
      b.modIllum h fun x =>
        { x with pulses := x.pulses + 1,
                 rowPulses := Vector.ofFn fun (k : Fin 4) => if k.val = row then x.rowPulses[k] + 1 else x.rowPulses[k],
                 accum := Vector.ofFn fun (k : Fin 4) => if k.val = row && od then x.accum[k].add (b.odAddition h row long) else x.accum[k] }
    else b
  let wave := if blanked ∨ 4 ≤ row ∨ b.rowDead h row then 255 else row
  (wave, blanked, flag, b.showAccum h)

/-! ## Measurements, boost and frames -/

/-- `precharge_mv` of every row at the basic level: the highest column voltage of each 256 pulses of the row plus 300 mV, half of
`v_set` before its first 256 (R297). -/
def prechargeStep (h : HeadId) (b : Block) : Block :=
  if b.illumLevel h = 1 then b
  else (List.finRange 4).foldl (fun (b : Block) (k : Fin 4) =>
    let x := b.illum[h]
    if 256 ≤ x.rowPulses[k] then
      match x.columnMax[k] with
      | some v => (b.setReg (Obj.headIllumPrechargeMv h k) (min 48000 (v + 300))).modIllum h fun x =>
          { x with rowPulses := x.rowPulses.set k 0, columnMax := x.columnMax.set k none, rowMeasured := x.rowMeasured.set k true }
      | none => b
    else if x.rowMeasured[k] then b
    else b.setReg (Obj.headIllumPrechargeMv h k) (b.reg (Obj.headIllumBoostVSet h) / 2)) b

/-- What the head measured during a line's pulse (R297, R300, R306): lamps found open with the boost at `v_max`. -/
def lampMeasure (h : HeadId) (row : Nat) (m : LampReport) (b : Block) : Block :=
  let atMax := b.reg (Obj.headIllumBoostVSet h) == b.reg (Obj.headIllumBoostVMax h)
  let fresh := if atMax then m.weak.filter fun i => (b.litLamps h row).contains i else []
  let b := (b.setReg (Obj.headIllumBoostVOut h) (min 65535 (m.output * b.reg (Obj.headIllumBoostFbRatio h) / 100))).modIllum h fun x =>
    { x with openLamps := x.openLamps ++ fresh,
             headroom := match m.headroom, x.headroom with | some v, some w => some (min v w) | some v, none => some v | none, w => w,
             columnMax := Vector.ofFn fun (k : Fin 4) =>
               if k.val = row then (match m.column, x.columnMax[k] with | some v, some w => some (max v w) | some v, none => some v | none, w => w)
               else x.columnMax[k] }
  let b := b.prechargeStep h
  if fresh.isEmpty then b else (b.count (Obj.headIllumOpenLamps h) fresh.length).raise (headSource h 46)

/-- After every 256 pulses, `v_set` follows the lowest headroom at the basic level (R300, R301). -/
def boostStep (h : HeadId) (b : Block) : Block :=
  match b.illum[h].headroom with
  | none => b
  | some m =>
    let want : Int := b.reg (Obj.headIllumBoostHeadroom h)
    let v := b.reg (Obj.headIllumBoostVSet h)
    let top := b.reg (Obj.headIllumBoostVMax h)
    let v' := if m < want - 100 then v + 250 else if want + 300 < m then v - 100 else v
    let short := decide (m < want - 100) && v == top
    (if b.illumLevel h = 1 then b else b.setReg (Obj.headIllumBoostVSet h) (min top (max 5000 v'))).raiseIf short (headSource h 48)

/-- The adaptation after 256 pulses (R297, R300). -/
def boostAdapt (h : HeadId) (b : Block) : Block :=
  if b.illum[h].pulses < 256 then b
  else ((b.boostStep h).prechargeStep h).modIllum h fun x => { x with pulses := 0, headroom := none }

/-- A boost output above `v_max` + 2 V: the boost is off and the lamps dark until the head stops (R301). -/
def boostOver (h : HeadId) (b : Block) : Block :=
  if b.illum[h].boostOff then b else (b.modIllum h fun x => { x with boostOff := true }).raise (headSource h 47)

/-- A select frame that ends after its boundary is latched on completion; the frame for the next line follows (R304). -/
def frameComplete (h : HeadId) (b : Block) : Block :=
  match b.illum[h].frameDue with
  | none => b
  | some t =>
    if b.illum[h].frameLate && due t b.now then
      (b.modIllum h fun x => { x with latchedMask := x.frameMask, frameDue := none, frameLate := false }).startFrame h
    else b

/-- The illumination side of a head start (R293, R300, R302, R305, R306, R309). DESIGN CHOICE: the select frame of entry 0 follows the level
frame. -/
def illumStart (h : HeadId) (b : Block) : Block :=
  let d := if b.reg (Obj.headIllumBoardChannel h) = 0xFF then 65536
    else if b.illum[h].boardValid then b.illum[h].derateNext else b.reg (Obj.headIllumDerateFloor h)
  let b := if b.illumLevel h = 1 then b else b.setReg (Obj.headIllumBoostVSet h) (b.reg (Obj.headIllumBoostVMax h))
  let b := b.modIllum h fun x =>
    { x with index := 0, lit := [], restartIn := none, boostOff := false, pulses := 0, headroom := none,
             columnMax := Vector.replicate 4 none, rowPulses := Vector.replicate 4 0, rowMeasured := Vector.replicate 4 false,
             derateNext := d, heard := false, openLamps := [], frameDue := none, frameLate := false, frameMask := 0,
             latchedMask := b.extMask h (b.seqEntryOf h 0) }
  let b := (b.setReg (Obj.headIllumDerate h) d).setReg (Obj.headIllumShorts h) 0
  let b := b.setReg (Obj.headIllumOdPermitted h) (if b.odBase h then
    (List.finRange 4).foldl (fun m (k : Fin 4) => if b.illum[h].withdrawn[k] then m else setBit m k.val) 0 else 0)
  let b := if b.reg (Obj.headIllumExtDrivers h) = 0 then b
    else (b.emit (.chain h.val true (b.levelWords h))).emit (.chain h.val false (b.selectWords h b.illum[h].latchedMask))
  b.prechargeStep h

end Block
end Sys2Proof.Machine
end

