-- ==== Sys2Proof/Machine/Capture.lean ====
section
/-! DEFINITION. The capture buffer: payload formats, records and markers, partitions and their policy, bursts (R200 to R229). -/
namespace Sys2Proof.Machine

/-! ## Payload formats (R208 to R210) -/

/-- Columns of n bits each, column 0 in the lowest bits, as one number. -/
def packNat (n : Nat) : List Nat → Nat
  | [] => 0
  | q :: rest => q % 2 ^ n + 2 ^ n * packNat n rest

/-- Bytes padded with zeros to a multiple of 4. -/
def pad4 (l : List Byte) : List Byte := l ++ List.replicate ((4 - l.length % 4) % 4) 0

/-- A column in PXn (R208). -/
def quantised (n v : Nat) : Nat := min ((v + 2 ^ (15 - n)) >>> (16 - n)) (2 ^ n - 1)

/-- The payload of PX16. -/
def px16 (cols : List Nat) : List Byte := pad4 (cols.flatMap fun v => leBytes 2 v)

/-- The payload of PX8, PX10P or PX12P. -/
def pxn (n : Nat) (cols : List Nat) : List Byte :=
  pad4 (leBytes ((n * cols.length + 7) / 8) (packNat n (cols.map (quantised n))))

/-- One BLK16 block of 32 columns (R209). -/
def blkBlock (vs : List Nat) : List Byte :=
  let base := vs.foldl min (vs.headD 0)
  let rs := vs.map fun v => v - base
  let top := rs.foldl max 0
  let w := if top = 0 then 0 else Nat.log2 top + 1
  if w ≤ 15 then leBytes 2 base ++ [BitVec.ofNat 8 w] ++ leBytes (4 * w) (packNat w rs)
  else leBytes 2 0 ++ [0x1F] ++ vs.flatMap fun v => leBytes 2 v

/-- The payload of BLK16: blocks of 32, the last column repeated in a short final block (R209). -/
def blk16 (cols : List Nat) : List Byte :=
  pad4 ((List.range ((cols.length + 31) / 32)).flatMap fun i =>
    let blk := (cols.drop (32 * i)).take 32
    blkBlock (blk ++ List.replicate (32 - blk.length) (blk.getLastD 0)))

/-- The payload of a line in a format, with the format written and whether BLK16 fell back (R210). -/
def payload (format : Nat) (cols : List Nat) : List Byte × Nat × Bool :=
  match format with
  | 1 => (pxn 8 cols, 1, false)
  | 2 => (pxn 10 cols, 2, false)
  | 3 => (pxn 12 cols, 3, false)
  | 0x10 =>
    let p := blk16 cols
    if 2 * cols.length < p.length then (px16 cols, 4, true) else (p, 0x10, false)
  | _ => (px16 cols, 4, false)

/-! ## Records and markers (R204, R205, R212) -/

/-- The slot of a record of P payload bytes (R204). -/
def slotBytes (p : Nat) : Nat := 64 * ((68 + p + 63) / 64)

/-- The slot of a record: header, payload, payload CRC, zeros (R204). -/
def slotOf (header payload : List Byte) : List Byte :=
  padTo (slotBytes payload.length) (header ++ payload ++ leBytes 4 (crc32c payload))

/-- The 64 bytes of a header from its first 60 (R205). -/
def withCrc (h : List Byte) : List Byte := h ++ leBytes 4 (crc32c h)

/-- The header of a line record (R205). -/
def lineHeader (pier head format : Nat) (l : Line) (width first flags bin p : Nat) : List Byte :=
  withCrc (leBytes 4 0x2A574C4E ++ leBytes 1 1 ++ leBytes 1 pier ++ leBytes 1 head ++ leBytes 1 format ++
    leBytes 8 l.seq ++ leBytes 8 l.tE.toNat ++ leBytes 8 (ofSigned 64 l.position) ++ leBytes 4 (unitsNs l.exposure) ++
    leBytes 2 width ++ leBytes 2 first ++ leBytes 4 flags ++ leBytes 2 l.set.number ++ leBytes 1 l.waveband ++
    leBytes 1 bin ++ leBytes 4 p ++ leBytes 4 l.epoch ++ leBytes 4 0)

/-- The slot of a marker record (R212). -/
def markerSlot (pier head epoch : Nat) (m : Marker) : List Byte :=
  slotOf (withCrc (leBytes 4 0x2A574C4E ++ leBytes 1 1 ++ leBytes 1 pier ++ leBytes 1 head ++ leBytes 1 0xF0 ++ leBytes 8 m.first ++
      List.replicate 32 0 ++ leBytes 4 32 ++ leBytes 4 epoch ++ leBytes 4 0))
    (leBytes 2 m.kind ++ leBytes 2 0 ++ leBytes 4 m.count ++ leBytes 8 m.first ++ leBytes 8 m.last ++ leBytes 8 m.time.toNat)

/-! ## Partitions (R202, R218 to R221) -/

/-- Bytes that an item occupies in the capture region; markers occupy none (R212). -/
def Item.space : Item → Nat
  | .record r => placeSize r.place
  | .marker _ => 0

/-- Where an item lies in the buffer. -/
def Item.place : Item → List (Nat × Nat)
  | .record r => r.place
  | .marker _ => []

/-- Flags for lines before it that a candidate carries. -/
def Item.owed : Item → Nat
  | .record r => if r.kept then 0 else r.owedIn
  | .marker _ => 0

def Item.isKept : Item → Bool
  | .record r => r.kept
  | .marker _ => true

def Item.isLoss : Item → Bool
  | .marker m => m.kind == 3 || m.kind == 4
  | .record _ => false

/-- Bytes used in a partition, and those of kept records (R228, `capture.fill`). -/
def Partition.used (p : Partition) : Nat := p.items.foldl (fun n i => n + i.space) 0
def Partition.keptBytes (p : Partition) : Nat := p.items.foldl (fun n i => if i.isKept then n + i.space else n) 0

/-- Two loss descriptors as one (R221): the span of both, the exact number of lines. -/
def mergeLoss (a c : Marker) : Marker := { c with count := a.count + c.count, first := a.first, time := a.time }

/-- With more than 64 loss descriptors pending, the two newest merge (R221). -/
def mergeNewest (items : List Item) : List Item :=
  if (items.filter Item.isLoss).length ≤ 64 then items
  else
    match (items.zipIdx.filter fun x => x.1.isLoss).reverse with
    | (.marker c, j) :: (.marker a, i) :: _ => (items.set j (.marker (mergeLoss a c))).eraseIdx i
    | _ => items

/-- A dropped line joins the gap marker at the end, or begins one (R219). -/
def Partition.gap (p : Partition) (seq : Nat) (now : Time) : Partition :=
  match p.items.getLast? with
  | some (.marker m) =>
    if m.kind = 3 && !m.begun then { p with owes := setBit p.owes 13, items := p.items.dropLast ++ [.marker { m with count := m.count + 1, last := seq }] }
    else { p with owes := setBit p.owes 13, items := mergeNewest (p.items ++ [.marker ⟨3, 1, seq, seq, now, false⟩]) }
  | _ => { p with owes := setBit p.owes 13, items := mergeNewest (p.items ++ [.marker ⟨3, 1, seq, seq, now, false⟩]) }

/-- The oldest candidates go first, until n bytes fit (R213); answers the items that stay and the flags that the others carried for lines
before them. -/
def dropCandidates (need size : Nat) : List Item → List Item × Nat
  | [] => ([], 0)
  | i :: rest =>
    if need + (i :: rest).foldl (fun n x => n + x.space) 0 ≤ size then (i :: rest, 0)
    else if i.isKept then
      let (l, o) := dropCandidates (need + i.space) size rest
      (i :: l, o)
    else
      let (l, o) := dropCandidates need size rest
      (l, o ||| i.owed)

/-- The oldest record is overwritten, its place taken by an overwrite marker (R219); nothing when its delivery has begun
(R220). -/
def overwriteOldest (now : Time) : List Item → Option (List Item)
  | [] => none
  | .marker m :: .record r :: rest =>
    if r.begun then none
    else if m.kind = 4 && !m.begun then some (.marker { m with count := m.count + 1, last := r.seq } :: rest)
    else some (.marker m :: .marker ⟨4, 1, r.seq, r.seq, now, false⟩ :: rest)
  | .marker m :: rest => (overwriteOldest now rest).map (Item.marker m :: ·)
  | .record r :: rest => if r.begun then none else some (.marker ⟨4, 1, r.seq, r.seq, now, false⟩ :: rest)

/-- Overwrite-oldest until n bytes fit, at most `fuel` records; answers the items, the records lost, and whether it was
blocked. -/
def overwriteUntil (now : Time) (need size : Nat) : Nat → Nat → List Item → List Item × Nat × Bool
  | 0, lost, l => (l, lost, true)
  | fuel + 1, lost, l =>
    if need + l.foldl (fun n x => n + x.space) 0 ≤ size then (l, lost, false)
    else match overwriteOldest now l with
      | some l' => overwriteUntil now need size fuel (lost + 1) (mergeNewest l')
      | none => (l, lost, true)

/-- A candidate record whose sequence is in a range. -/
def candidateIn (first last : Nat) (i : Item) : Bool :=
  match i with | .record r => !r.kept && decide (first ≤ r.seq) && decide (r.seq ≤ last) | .marker _ => false

/-- The item kept. -/
def Item.keep : Item → Item
  | .record r => .record { r with kept := true }
  | .marker m => .marker m

/-- The item without the flags that it carried for lines before it. -/
def Item.paid : Item → Item
  | .record r => .record { r with owedIn := 0 }
  | .marker m => .marker m

/-- A header with more flags (R205, R207). -/
def withFlags (header : List Byte) (flags : Nat) : List Byte :=
  withCrc (header.take 0x28 ++ leBytes 4 (fieldU header 0x28 4 ||| flags) ++ slice header 0x2C 0x10)

namespace Block

def modCapture (f : Capture → Capture) (b : Block) : Block := { b with capture := f b.capture }
def modPart (h : HeadId) (f : Partition → Partition) (b : Block) : Block :=
  b.modCapture fun c => { c with partitions := c.partitions.set h (f c.partitions[h]) }

/-- Bytes of the capture region (R200). -/
def captureBytes (b : Block) : Nat :=
  ((if b.part.big then 16384 else 8192) - 128 - b.reg Obj.bufferReadoutSize) * 1048576

/-- First byte of partition h in the capture region, and its size, retired blocks still counted (R202). -/
def shareBytes (h : Nat) (b : Block) : Nat := b.reg (Obj.captureHeadShare h) * b.captureBytes / 256 / 2097152 * 2097152
def partitionStart (h : Nat) (b : Block) : Nat := (List.range h).foldl (fun n k => n + b.shareBytes k) 0

/-- Byte address of the capture region (R200). -/
def captureBase (b : Block) : Nat := 0x08000000 + b.reg Obj.bufferReadoutSize * 1048576

/-- The area of partition h in the buffer, without the 2 MiB blocks given, which are numbered from the start of the capture region (R202,
R589). -/
def partitionArea (h : HeadId) (skip : List Nat) (b : Block) : List (Nat × Nat) :=
  freeSpace [(b.captureBase + b.partitionStart h, b.shareBytes h)] (skip.map fun k => (b.captureBase + k * 2097152, 2097152))

/-- The size of a partition without the retired blocks in it (R589). -/
def partitionSize (h : HeadId) (b : Block) : Nat := placeSize (b.partitionArea h b.capture.retired)

/-- Whether records are held that are not acknowledged (R202). -/
def recordsHeld (b : Block) : Bool :=
  (List.finRange 4).any (fun h => decide (b.capture.partitions[h].items.any Item.isKept)) || !b.capture.readout.isEmpty

/-- Whether only records inside burst windows are kept (R213). -/
def windowed (b : Block) : Bool := !b.scan && b.reg Obj.captureWindowMode == 1

/-- Whether overwrite-oldest applies (R213, R219). -/
def overwrites (b : Block) : Bool := !b.scan && b.reg Obj.capturePolicy == 1

/-! ## Bursts (R213 to R217) -/

/-- The candidates of a range of sequences are kept. The first of them carries the flags that wait for the next delivered line, those of
candidates before it among them (R119, R207, R219). -/
def keepRange (h : HeadId) (first last : Nat) (b : Block) : Block :=
  let p := b.capture.partitions[h]
  match p.items.findIdx? (candidateIn first last) with
  | none => b
  | some i =>
    let before := p.items.take i
    let owed := before.foldl (fun m x => m ||| x.owed) p.owes
    let place := match p.items[i]? with | some x => x.place | none => []
    let b := if owed = 0 then b
      else
        let slot := b.placeRead place
        b.placeWrite place (withFlags (slot.take 64) owed ++ slot.drop 64)
    b.modPart h fun p =>
      { p with owes := 0, items := before.map Item.paid ++ (p.items.drop i).map fun x => if candidateIn first last x then x.keep else x }

/-- The window of a head begins at its trigger line L (R215): the burst-start marker, and the candidates of the pre-window
kept. -/
def windowStart (h : HeadId) (l : Nat) (b : Block) : Block :=
  let p := b.capture.partitions[h]
  let first := max (l - b.reg Obj.capturePreLines) (p.floor.getD l)
  let pre := (p.items.filter fun i => decide (first < l) && candidateIn first (l - 1) i).length
  let at_ := (p.items.findIdx? (candidateIn first (2 ^ 48))).getD p.items.length
  let b := b.modPart h fun p => { p with items := p.items.take at_ ++ [.marker ⟨1, pre, first, l, b.capture.burstB, false⟩] ++ p.items.drop at_,
                                         trigger := some l, windowKept := pre, windowDone := false }
  if first < l then b.keepRange h first (l - 1) else b

/-- How many items stand up to the last one kept. -/
def keptLength (items : List Item) : Nat :=
  items.length - ((items.reverse.findIdx? Item.isKept).getD items.length)

/-- The window of a head ends (R215, R216): the burst-end marker behind its last record, and the floor of the next pre-window. -/
def windowEnd (h : HeadId) (last : Nat) (b : Block) : Block :=
  b.modPart h fun p =>
    let n := keptLength p.items
    { p with items := p.items.take n ++ [.marker ⟨2, p.windowKept, p.trigger.getD 0, last, b.capture.burstB, false⟩] ++ p.items.drop n,
             windowDone := true, floor := some (last + 1) }

/-- Whether a head still owes lines to the burst in progress: it runs or stops, or its queue holds lines. -/
def owesBurst (h : HeadId) (b : Block) : Bool :=
  (b.heads[h].state == .running || b.heads[h].state == .stopping || !b.heads[h].queue.isEmpty) &&
  !b.capture.partitions[h].windowDone

/-- The burst completes when no running head owes it a line (R216). -/
def burstCheck (b : Block) : Block :=
  if b.capture.state ≠ 3 ∨ (List.finRange 4).any (fun h => b.owesBurst h) then b
  else
    let b := (List.finRange 4).foldl (fun (b : Block) h => b.modPart h fun p => { p with trigger := none, windowDone := false, windowKept := 0 }) b
    let b := b.setReg Obj.captureBurstsDone (satAdd (b.reg Obj.captureBurstsDone) 1 max32)
    let all := b.reg Obj.captureBursts != 0 && b.reg Obj.captureBursts == b.reg Obj.captureBurstsDone
    ((b.modCapture fun c => { c with state := if all then 4 else 2 }).raise 705).raiseIf all 706

/-- A line of a head, written or dropped, is held against the burst in progress (R215, R216). -/
def windowTest (h : HeadId) (seq : Nat) (tE : Time) (b : Block) : Block :=
  if b.capture.state ≠ 3 ∨ b.capture.partitions[h].windowDone then b
  else
    let b := if b.capture.partitions[h].trigger.isNone && decide (0 ≤ timeDiff tE b.capture.burstB) then b.windowStart h seq else b
    match b.capture.partitions[h].trigger with
    | none => b
    | some l =>
      let last := l + b.reg Obj.capturePostLines - 1
      let b := if seq ≤ last && b.capture.partitions[h].items.any (candidateIn seq seq) then
          (b.keepRange h seq seq).modPart h fun p => { p with windowKept := p.windowKept + 1 }
        else b
      if last ≤ seq then (b.windowEnd h last).burstCheck else b

/-- A line of a head has been written or dropped: it is noted in windowed capture, the first one after the head's start as the floor of
pre-windows (R216), and held against the burst. -/
def windowLine (h : HeadId) (seq : Nat) (tE : Time) (b : Block) : Block :=
  let b := b.modPart h fun p => { p with floor := some (p.floor.getD seq), seen := if b.windowed then (seq, tE) :: p.seen else p.seen }
  b.windowTest h seq tE

/-- Lines dropped under R11 reach the buffer's account once every line before them has left the queue. -/
def lateLines (h : HeadId) (b : Block) : Block :=
  let waits (n : Nat) : Bool := b.heads[h].queue.any fun q => decide (q.line.no < n)
  let (wait, now) := b.capture.partitions[h].late.partition fun x => waits x.1
  now.foldl (fun b x => b.windowLine h x.2.1 x.2.2) (b.modPart h fun p => { p with late := wait })

/-- A head that no longer runs and has no line left ends its window with the lines written so far (R217). -/
def windowStop (h : HeadId) (b : Block) : Block :=
  if b.capture.state ≠ 3 ∨ b.capture.partitions[h].windowDone ∨ b.heads[h].state = .running ∨ b.heads[h].state = .stopping ∨
      !b.heads[h].queue.isEmpty then b
  else match b.capture.partitions[h].trigger with
    | some _ => (b.windowEnd h (b.reg (Obj.headOutputLastSequence h))).burstCheck
    | none => b.burstCheck

/-- A burst trigger is accepted in state 2 (R214, R216), and ignored and counted otherwise. It applies to every running head: the lines that
each has produced so far take part (R215), and L is the first of them at or after B even when its candidate is gone. -/
def burstTrigger (bTime : Time) (b : Block) : Block :=
  if b.capture.state = 2 then
    let b := (b.modCapture fun c => { c with state := 3, burstB := bTime }).setReg Obj.captureTriggerLast bTime.toNat
    let b := b.raise 704
    let b := if b.isSet Obj.captureTriggerBroadcast then b.sendRing (.burst bTime) else b
    let b := (List.finRange 4).foldl (fun (b : Block) h =>
      b.modPart h fun p => { p with trigger := none, windowKept := 0, windowDone := b.heads[h].state != .running }) b
    ((List.finRange 4).foldl (fun (b : Block) (h : HeadId) =>
      (b.capture.partitions[h].seen.reverse).foldl (fun (b : Block) x => b.windowTest h x.1 x.2) b) b).burstCheck
  else (b.bump Obj.captureTriggerIgnored).raise 709

/-- A burst trigger with what reaches the buffer in the same MEM cycle (R217). -/
def burstMeet (m : BurstMeet) (bTime : Time) (b : Block) : Block :=
  match m with
  | .alone => b.burstTrigger bTime
  | .second c => (b.bump Obj.captureCoincidences).burstTrigger (if timeDiff c bTime < 0 then c else bTime)
  | .disarm =>
    let b := b.bump Obj.captureCoincidences
    if b.capture.state = 2 then b.modCapture fun c => { c with state := 4 } else b
  | .complete => ((b.bump Obj.captureCoincidences).bump Obj.captureTriggerIgnored).raise 709

/-- Disarm (R216). -/
def captureDisarm (b : Block) : Block := if b.capture.state = 2 then b.modCapture fun c => { c with state := 4 } else b

/-- Arm (R216): `bursts_done` clears, state 4 becomes 2. With a disarm in the same cycle the disarm wins (R217). -/
def captureArm (withDisarm : Bool) (b : Block) : Block :=
  if withDisarm then (b.bump Obj.captureCoincidences).captureDisarm
  else
    let b := b.setReg Obj.captureBurstsDone 0
    if b.capture.state = 4 then b.modCapture fun c => { c with state := 2 } else b

/-- What a head start does to the buffer (R202, R216, R589): the partition takes its size, candidates of the run before are gone, and
windowed capture arms. DESIGN CHOICE: a burst in progress goes on, and the starting head takes no part in it. -/
def captureStart (h : HeadId) (b : Block) : Block :=
  let size := b.partitionSize h
  let b := b.modPart h fun p =>
    { p with size := size, skip := b.capture.retired, items := p.items.filter Item.isKept, owes := p.items.foldl (fun m x => m ||| x.owed) p.owes,
             floor := none, trigger := none, windowDone := b.capture.state == 3, windowKept := 0, seen := [], late := [] }
  b.modCapture fun c => { c with state := if !b.windowed then 1 else if c.state = 3 then 3 else 2 }

/-- The buffer stops when every head has, and no line waits (R40, R228). -/
def captureStop (b : Block) : Block :=
  if b.allStopped && (List.finRange 4).all fun (h : HeadId) => b.heads[h].queue.isEmpty then b.modCapture fun c => { c with state := 0 } else b

/-! ## Writing (R204, R219 to R221) -/

/-- Where a slot of n bytes goes in partition h: into space that no record holds, from the end of the last slot on. DESIGN CHOICE: the spec
does not place slots in a partition; the model wraps at its end, and goes on in the next free piece where candidates have left holes. -/
def slotPlace (h : HeadId) (n : Nat) (b : Block) : List (Nat × Nat) :=
  let p := b.capture.partitions[h]
  takeSpace n (fromPoint p.next (freeSpace (b.partitionArea h p.skip) (p.items.flatMap Item.place)))

/-- A line is lost in a partition (R219, R220): the flags that it carried for lines before it pass on to the next record. -/
def loseLine (h : HeadId) (l : Line) (b : Block) : Block :=
  ((b.modPart h fun p => Partition.gap { p with owes := p.owes ||| l.owedIn } l.seq b.now).bump (Obj.captureDropped h)).raise 707

/-- A record enters its partition. -/
def putRecord (h : HeadId) (l : Line) (slot : List Byte) (kept : Bool) (b : Block) : Block :=
  let place := b.slotPlace h slot.length
  (b.placeWrite place slot).modPart h fun p =>
    { p with items := p.items ++ [.record ⟨l.seq, l.tE, place, kept, false, l.owedIn⟩], owes := if kept then 0 else p.owes, next := placeEnd place }

/-- A record is written to its partition, or lost under the policy; answers whether it was written. `build` makes the slot with the flags
that wait for the next delivered line, which a candidate takes when it is kept. -/
def writeRecord (h : HeadId) (l : Line) (build : Nat → List Byte) (b : Block) : Bool × Block :=
  let p := b.capture.partitions[h]
  let kept := !b.windowed
  let slot := build (if kept then p.owes else 0)
  let need := slot.length
  let (items, owed) := dropCandidates need p.size p.items
  let b := b.modPart h fun p => { p with items := items, owes := p.owes ||| owed }
  let (written, b) :=
    if need + items.foldl (fun n x => n + x.space) 0 ≤ p.size then (true, b.putRecord h l slot kept)
    else if !b.overwrites then (false, b.loseLine h l)
    else
      let (items', lost, blocked) := overwriteUntil b.now need p.size (items.length + 1) 0 items
      let b := if lost = 0 then b else ((b.modPart h fun p => { p with items := items' }).count (Obj.captureOverwritten h) lost).raise 708
      if blocked then (false, (b.bump Obj.captureOverwriteBlocked).loseLine h l) else (true, b.putRecord h l slot kept)
  (written, b.windowLine h l.seq l.tE)

/-- Every record of a stopped head's partition is released (R228), and its stream begins anew. DESIGN CHOICE: the markers that wait there go
with them. -/
def captureDiscard (h : HeadId) (b : Block) : Block :=
  let c : ChanId := ⟨4 + h.val, by omega⟩
  let b := b.modPart h fun p => { p with items := [], owes := p.items.foldl (fun m x => m ||| x.owed) p.owes }
  { b with dma := { b.dma with channels := b.dma.channels.set c { b.dma.channels[c] with sent := 0, issued := 0 } } }

/-! ## Records from the ring at an abutment (R222) -/

def readoutBytes (b : Block) : Nat := b.capture.readout.foldl (fun n x => n + placeSize x.place) 0

/-- Bytes of the readout region (R201). -/
def readoutSize (b : Block) : Nat := b.reg Obj.bufferReadoutSize * 1048576

/-- A slot enters the readout region (R200, R222), where no other slot lies. -/
def readoutPut (span fromPier : Nat) (slot : List Byte) (b : Block) : Block :=
  let held := b.capture.readout.flatMap (·.place)
  let at_ := match b.capture.readout.getLast? with | some x => placeEnd x.place | none => 0x08000000
  let place := takeSpace slot.length (fromPoint at_ (freeSpace [(0x08000000, b.readoutSize)] held))
  (b.placeWrite place slot).modCapture fun c => { c with readout := c.readout ++ [⟨span, fromPier, place⟩] }

/-- A record frame arrives at an abutment: it enters the readout region, or waits outside it, unacknowledged. -/
def ringRecord (span fromPier : Nat) (slot : List Byte) (b : Block) : Block :=
  if b.capture.waiting.isEmpty && decide (b.readoutBytes + slot.length ≤ b.readoutSize) then
    (b.readoutPut span fromPier slot).modCapture fun c => { c with readoutFull := false }
  else
    (b.modCapture fun c => { c with waiting := c.waiting ++ [⟨span, fromPier, slot⟩], readoutFull := true }).raiseIf (!b.capture.readoutFull) 712

/-! ## Refresh (R226) -/

/-- The refresh rate follows the case reading in 1/16 °C. -/
def refreshFollow (case_ : Int) (b : Block) : Block :=
  if b.reg Obj.bufferRefreshState = 0 ∧ 1520 < case_ then
    ((b.setReg Obj.bufferRefreshState 1).setReg Obj.bufferUsable 207360).raise 710
  else if b.reg Obj.bufferRefreshState = 1 ∧ case_ < 1504 then
    ((b.setReg Obj.bufferRefreshState 0).setReg Obj.bufferUsable 216000).raise 711
  else b

end Block
end Sys2Proof.Machine
end

