-- ==== Sys2Proof/Machine/Head.lean ====
section
/-! DEFINITION. Pattern generator, triggers and lines of a head: the line boundary, exposure and readout, idle lines, sync, stop
and loss of lock (R62 to R98, R242 to R244). -/
namespace Sys2Proof.Machine

/-- Flag n when a condition holds. -/
def flagIf (c : Bool) (n : Nat) : Nat := if c then setBit 0 n else 0

namespace Block

/-! ## Flags owed to later lines (R11, R14, R119) -/

/-- Whether a range change waits in the correction slot. -/
def rangeArmed (h : HeadId) (b : Block) : Bool := match b.armedBefore h with | some (.range _ _) => true | _ => false

/-- Flags for the next line that the head accepts. -/
def owe (h : HeadId) (f : Nat) (b : Block) : Block := b.modHead h fun x => { x with owedFlags := x.owedFlags ||| f }

/-- Flags for the next line that the head delivers: the oldest kept line in flight, or the next accepted. -/
def oweDelivered (h : HeadId) (f : Nat) (b : Block) : Block :=
  match b.heads[h].lines.findIdx? fun l => !l.idle with
  | some i => b.modHead h fun x =>
      { x with lines := x.lines.modify i fun l => { l with flags := l.flags ||| f, owedIn := l.owedIn ||| f } }
  | none => b.owe h f

/-- Flags 5 and 6 of a line whose T_E falls now (R424, R430, R421). -/
def ringFlags (b : Block) : Nat :=
  let st := b.reg Obj.ringTimeState
  let f := if b.ring.minority then setBit 0 5 else 0
  if (st ≠ 2 ∧ st ≠ 4) ∨ (b.ring.minority ∧ b.ring.foreign) then setBit f 6 else f

/-! ## Pattern outputs (R66 to R71) -/

/-- Edges of a section from its anchor in fine units, timed by a line. -/
def sectionEdges (line anchor : Nat) (es : List PatternEntry) : List Edge :=
  (es.filter fun e => e.mask != 0).map fun e => ⟨line, fineLater anchor (e.time * uFine), e.mask, e.level⟩

/-- An edge with the odd members of pairs following their even ones, HDn_PAT[2k] true (R66, R67). -/
def pairEdge (pairs : Nat) (e : Edge) : Edge :=
  (List.range 8).foldl (fun (e : Edge) k =>
    if !pairs.testBit k then e
    else
      let drives := e.mask.testBit (2 * k)
      let odd := drives && !e.level.testBit (2 * k)
      let mask := clearBit e.mask (2 * k + 1)
      let level := clearBit e.level (2 * k + 1)
      { e with mask := if drives then setBit mask (2 * k + 1) else mask, level := if odd then setBit level (2 * k + 1) else level }) e

/-- Insertion of an edge into a list in order of time. -/
def insertEdge (e : Edge) : List Edge → List Edge
  | [] => [e]
  | x :: xs => if fineDiff e.at_ x.at_ < 0 then e :: x :: xs else x :: insertEdge e xs

/-- Levels after an edge. -/
def afterEdge (levels : Nat) (e : Edge) : Nat := clearBits levels e.mask ||| (e.level &&& e.mask)

/-- The edges that have passed become the levels of the outputs. -/
def passEdges (h : HeadId) (b : Block) : Block :=
  let (past, live) := b.heads[h].edges.partition fun e => decide (fineDiff e.at_ (fineOf b.now) < 0)
  let past := past.foldl (fun l e => insertEdge e l) []
  b.modHead h fun x => { x with edges := live, levels := x.levels.map fun l => past.foldl afterEdge l }

/-- Whether entries of two lines drive the same output at the same fine step (R71). DESIGN CHOICE: two entries of one line that meet are no
collision; the one of section 1 is applied. -/
def edgesMeet (e o : Edge) : Bool := e.at_ / uFine == o.at_ / uFine && (o.mask &&& e.mask) != 0 && o.line != e.line

/-- An edge without the outputs that entries of later lines drive at its fine step (R71). -/
def yieldTo (es : List Edge) (o : Edge) : Edge :=
  { o with mask := es.foldl (fun m e => if edgesMeet e o && decide (o.line < e.line) then clearBits m e.mask else m) o.mask }

/-- Edges are timed on the outputs that the pattern table drives: the entry of the later line is applied, and each collision counted
(R66, R67, R71). -/
def timeEdges (h : HeadId) (es : List Edge) (b : Block) : Block :=
  let b := b.passEdges h
  let es := es.map (pairEdge (b.reg (Obj.headPatternPairMode h)))
  let live := b.heads[h].edges
  let hits := (es.flatMap fun e => live.filter (edgesMeet e)).length
  let new := (es.map (yieldTo live)).filter fun e => e.mask != 0
  let b := b.modHead h fun x => { x with edges := (live.map (yieldTo es)).filter (fun e => e.mask != 0) ++ new }
  let b := if new.isEmpty then b else b.emit (.pattern h.val new)
  if hits = 0 then b else (b.count (Obj.headPatternCollisions h) hits).raise (headSource h 8)

/-- The outputs go to their idle levels at the next coarse tick, with the continuous clocks of a mask running; outputs that are still high
impedance stay so (R65, R66, R95, R96). -/
def outputsRest (h : HeadId) (clocks : Nat) (b : Block) : Block :=
  if !b.heads[h].everRun then b
  else
    (b.modHead h fun x => { x with edges := [], levels := some (b.idleLevels h), outputsIdle := clocks == 0 }).emit
      (.outputs h.val (nextCoarse b.now) (b.idleLevels h) clocks)

/-- HDn_SYNC pulses from an instant for a length in fine units (R98); while `device.echo_sync` says so, AUX_ECHOn repeats it at most 12 ns
later, from the end of a period that the echo still drives (R564). -/
def syncOut (h : HeadId) (start length : Nat) (b : Block) : Block :=
  let b := b.emit (.sync h.val start length)
  if !(b.reg Obj.deviceEchoSync).testBit h.val ∨ b.heads[h].state ≠ .running then b
  else
    let lag := b.freeUpTo (12 * tNs * uTick)
    let late := match b.aux.echoes[h].busyUntil with
      | some u => min length (fineDiff (fineOf u) start).toNat
      | none => 0
    if late = length then b.used
    else b.used.emit (.syncRepeat h.val ((b.reg Obj.echoDrive).testBit h.val) (fineLater start (lag + late)) (length - late))

/-! ## The line boundary (R76) -/

/-- Position at T_E (R89, R205): of the axis a scan-mode source counts, or of `trigger.axis` with its encoder enabled; with source 4 the
owner's at the common instant, still awaited on a pier that is not the owner. -/
def linePosition (h : HeadId) (tE : Time) (common : Option Time) (b : Block) : Int × Bool :=
  if b.reg (Obj.headTriggerSource h) = 4 then
    match b.ownAxis with
    | some a => (b.positionAt a (common.getD tE), false)
    | none => (0, true)
  else if b.isSet (Obj.axisEncoderEnable (b.headAxis h)) then (b.positionAt (b.headAxis h) tE, false)
  else (0, false)

/-- What a line boundary does (R76): what was armed before its HD cycle takes force, the lamps take their entry, and the line is bound to everything in
force. -/
def lineBind (h : HeadId) (tE : Time) (common : Option Time) (idle : Bool) (seq extra : Nat) (line : Option Int) (b : Block) : Block :=
  let b := b.capTake
  let ranged := b.rangeArmed h
  let b := ((b.openWindows h).corrTakeBefore h).geometryTakeBefore h
  let b := if !idle && b.corr[h].autoOwed then b.calBegin h else b
  let steps := exposureSteps (b.reg (Obj.headExposure h))
  let (wave, blanked, f10, b) := b.illumBoundary h line (if idle then none else some seq) (b.reg Obj.thermalState == 3) steps
  let (pos, waits) := b.linePosition h tE common
  let owed := if idle then 0 else b.heads[h].owedFlags
  let rejoin := flagIf (!idle && b.heads[h].afterIdle && b.scan) 3
  let flags := extra ||| owed ||| rejoin ||| b.ringFlags ||| flagIf ranged 2 ||| flagIf f10 10
  let no := b.heads[h].lineCount
  let l : Line := { no := no, seq := seq, tE := tE, common := common, owedIn := owed, idle := idle,
                    approach := line.isSome, flags := flags, exposure := steps * uFine,
                    tX := fineLater (fineOf tE) (steps * uFine), wOpen := 0, wEnd := 0, exposed := false, position := pos, waitsPosition := waits,
                    epoch := b.reg Obj.ringEpoch, waveband := wave, blanked := blanked, gains := b.gainsInForce h, coeffs := none,
                    rangeChange := ranged, calKind := 0, set := b.activeSet h, geometry := b.activeGeometry h,
                    offsets := b.stitch[h].offsets }
  let b := b.modHead h fun x => { x with lines := x.lines ++ [l], owedFlags := if idle then x.owedFlags else 0, lineCount := no + 1,
                                         afterIdle := idle, steps := steps, period := b.reg (Obj.headTriggerPeriod h) }
  let b := b.setReg (Obj.headExposureInForce h) (unitsNs l.exposure)
  let b := b.timeEdges h (sectionEdges no (fineOf tE) (section0 (b.table (0x6010 + h.val))))
  let b := if b.reg (Obj.headSyncMode h) = 1 then b.syncOut h (fineOf tE) (b.reg (Obj.headSyncWidth h) * uCoarse) else b
  b.raise (headSource h 1)

/-- The line boundary of a line with exposure start T_E (R76). Settings written in the same HD cycle take force at the following one: the
line is bound to the values before them. `line` is for approach lines (R244). -/
def lineBoundary (h : HeadId) (tE : Time) (common : Option Time) (idle : Bool) (seq extra : Nat) (line : Option Int) (b : Block) : Block :=
  let old := b.recentNow h
  ((b.recalled old).lineBind h tE common idle seq extra line).recalled (b.present old)

/-! ## Accepting a trigger (R14, R18, R82, R90) -/

/-- Whether the run has its `trigger.count` lines (R84). -/
def countReached (h : HeadId) (b : Block) : Bool :=
  b.reg (Obj.headTriggerCount h) != 0 && decide (b.reg (Obj.headTriggerCount h) ≤ b.heads[h].acceptedRun)

/-- A trigger that arrived at an instant is accepted: it is counted, takes its sequence, and is the line boundary (R76, R82). DESIGN CHOICE:
a software trigger beside an indexed source takes its sequence from the counter of accepted triggers without an index; R82 gives it no
index. -/
def acceptLine (h : HeadId) (index : Option Nat) (extra : Nat) (arrival tE : Time) (common : Option Time) (b : Block) : Block :=
  let seq := index.getD b.heads[h].nextSeq
  let b := b.modHead h fun x => { x with nextSeq := if index.isSome then x.nextSeq else x.nextSeq + 1,
                                         acceptedRun := x.acceptedRun + 1, lastTrigger := some arrival, gapRaised := false }
  ((b.bump (Obj.headTriggerAccepted h)).raise (headSource h 0)).lineBoundary h tE common false (seq % 2 ^ 48) extra none

/-- Fine units since the last accepted trigger arrived. -/
def sinceLast (h : HeadId) (arrival : Time) (b : Block) : Option Nat :=
  b.heads[h].lastTrigger.map fun t => (timeDiff arrival t).toNat * uTick

/-- A trigger reaches a running head at an instant, for an exposure start T_E: early ones are ignored and counted (R14, R18, R93), scheduled
ones inside a capped period are dropped (R18); both give the next delivered line flag 13. The gap is that between arrivals: what jitter
T_E has does not enter it. -/
def trigger (h : HeadId) (index : Option Nat) (scheduled : Bool) (extra : Nat) (arrival tE : Time) (common : Option Time) (b : Block) : Block :=
  if b.heads[h].state ≠ .running ∨ b.countReached h then b
  else match b.sinceLast h arrival with
    | none => b.acceptLine h index extra arrival tE common
    | some units =>
      if scheduled && !b.capAdmits units then b.owe h (setBit 0 13)
      else if !b.intervalOk h units then ((b.bump (Obj.deviceEarlyTriggers h)).raise (headSource h 4)).owe h (setBit 0 13)
      else b.acceptLine h index extra arrival tE common

/-- A trigger with what reaches the head in the same HD cycle (R90). -/
def triggerMeet (h : HeadId) (m : Meet) (index : Option Nat) (scheduled : Bool) (extra : Nat) (arrival tE : Time) (common : Option Time)
    (b : Block) : Block :=
  match m with
  | .alone => b.trigger h index scheduled extra arrival tE common
  | .trigger =>
    ((b.bump (Obj.headTriggerCoincidences h)).raise (headSource h 12)).trigger h index scheduled (extra ||| setBit 0 11) arrival tE common
  | .stop => (b.bump (Obj.headTriggerCoincidences h)).raise (headSource h 12)

/-- An idle line (R243): read out as a kept line, without sequence, not counted. -/
def idleLine (h : HeadId) (line : Option Int) (tE : Time) (common : Option Time) (b : Block) : Block :=
  if b.heads[h].state ≠ .running then b else b.lineBoundary h tE common true 0 0 line

/-! ## Time and scheduled triggers (R80, R81) -/

/-- Ticks of one capped period, rounded up (R18). -/
def capTicks (b : Block) : Nat :=
  let cap := b.reg Obj.deviceLineRateCap
  if cap = 0 then 0 else (tSec + cap - 1) / cap

/-- The first index from k on whose instant start + index × period is not yet due (R81). -/
def firstDue (start : Time) (period k : Nat) (now : Time) : Nat :=
  let d := timeDiff now start
  if d < 0 ∨ period = 0 then k else max k (d.toNat / period + 1)

/-- The next instant of a head of source 1 or 2, from index k on, skipping due ones (R80, R81). -/
def nextInstant (h : HeadId) (k : Nat) (b : Block) : Option (Nat × Time) :=
  if b.reg (Obj.headTriggerSource h) = 1 then
    let start := BitVec.ofNat 64 (b.reg (Obj.headTriggerStartAt h))
    let p := b.periodNow h
    let i := firstDue start p k b.now
    some (i, later start (i * p))
  else
    let t := b.table (0x6014 + h.val)
    ((List.range (scheduleCount t)).find? fun i => decide (k ≤ i) && !due (scheduleEntry t i) b.now).map fun i => (i, scheduleEntry t i)

/-- A head of source 1 or 2 waits for its next instant; skipped instants give flag 13 (R81). -/
def armScheduled (h : HeadId) (k : Nat) (b : Block) : Block :=
  match b.nextInstant h k with
  | some (i, t) =>
    let b := b.modHead h fun x => { x with nextIndex := i, nextDue := some t }
    if i = k then b else b.owe h (setBit 0 13)
  | none => b.modHead h fun x => { x with nextDue := none }

/-- The first instant of a head when it enters state 2 (R80, R81). -/
def armFirst (h : HeadId) (b : Block) : Block :=
  match b.reg (Obj.headTriggerSource h) with
  | 0 =>
    let s := b.reg (Obj.headTriggerStartAt h)
    if s = 0 then b.modHead h fun x => { x with nextDue := some (later b.now tUs) }
    else
      let start := BitVec.ofNat 64 s
      let p := b.reg (Obj.headTriggerPeriod h)
      let i := firstDue start p 0 b.now
      let b := b.modHead h fun x => { x with nextDue := some (later start (i * p)) }
      if i = 0 then b else b.owe h (setBit 0 13)
  | 1 | 2 => b.armScheduled h 0
  | _ => b.modHead h fun x => { x with nextDue := none }

/-- How far T_E may stand from a ring-time instant, in ticks: ±2 ns on clock source 1, ±6 ns on others (R79). -/
def scheduleSlack (h : HeadId) (b : Block) : Nat := if b.reg (Obj.headClockSource h) = 1 then 2 * tNs else 6 * tNs

/-- An open T_E within ±n ticks of an instant. -/
def freeAround (n : Nat) (t : Time) (b : Block) : Time := later t (b.freeUpTo (2 * n)) - BitVec.ofNat 64 n

/-- Whether an instant falls inside a capped period after the last accepted trigger (R18). -/
def insideCap (h : HeadId) (d : Time) (b : Block) : Bool :=
  match b.heads[h].lastTrigger with
  | some t => !b.capAdmits ((timeDiff d t).toNat * uTick)
  | none => false

/-- The period of source 0 expires (R80). T_E stands on the 488 ps grid, and the instants go on by whole periods (R79). Inside a capped
period the line waits for its end (R18). -/
def timeTrigger (h : HeadId) (m : Meet) (b : Block) : Block :=
  match b.heads[h].nextDue with
  | none => b
  | some d =>
    if b.reg (Obj.headTriggerSource h) ≠ 0 ∨ b.heads[h].state ≠ .running ∨ !due d b.now then b
    else
      if b.insideCap h d then
        b.modHead h fun x => { x with nextDue := x.lastTrigger.map fun t => later t b.capTicks }
      else
        let b := b.triggerMeet h m none false 0 d (onGrid d) none
        b.modHead h fun x => { x with nextDue := some (later d (b.periodNow h)) }

/-! ## Stop (R96) -/

/-- A stopped head goes out of service (R584): state 5, counted, logged, and the write answered. -/
def isolateDone (h : HeadId) (b : Block) : Block :=
  let vs := b.heads[h].isolateVia
  if vs.isEmpty then b
  else
    let b := (b.modHead h fun x => { x with state := .isolated, isolateVia := [], everRun := false, levels := none }).bump (Obj.headServiceIsolations h)
    let b := b.emit (.outputsOff h.val)
    vs.foldl (fun b v => b.replyVia v .ok) (b.logFault 0x0014 h.val 1 noSource)

/-- A head enters state 0: what is armed takes force, calibrations end, fractional parts clear, outputs idle (R96, R110, R120,
R156, R194), and a head that waits to be isolated is (R584). -/
def enterStopped (h : HeadId) (b : Block) : Block :=
  let b := b.modHead h fun x => { x with state := .stopped, lines := [], edges := [], nextDue := none, owed := [], startVia := [],
                                         stateSince := b.now }
  let b := (b.outputsRest h 0).setReg (Obj.headClockLocked h) 0
  let b := ((b.calFail h 9).stitchCalFail h 9).restartWindows h false
  (((((b.corrTakeArmed h).geometryTakeArmed h).raise (headSource h 11)).windowStop h).captureStop).isolateDone h

/-- A stopping head whose lines are all read out enters state 0 (R96). -/
def stopIfDone (h : HeadId) (b : Block) : Block :=
  if b.heads[h].state == .stopping && b.heads[h].lines.isEmpty then b.enterStopped h else b

/-- A start in progress is answered (R95). -/
def answerStart (h : HeadId) (res : Result) (b : Block) : Block :=
  (b.heads[h].startVia.foldl (fun b v => b.replyVia v res) b).modHead h fun x => { x with startVia := [] }

/-- The head stops (R96): no further trigger, calibrations end (R156, R194), state 3 until its lines are read out. A starting head has none and its
start is refused; a faulted one returns to state 0 (R65). -/
def headStop (h : HeadId) (b : Block) : Block :=
  match b.heads[h].state with
  | .running =>
    ((((b.modHead h fun x => { x with state := .stopping, nextDue := none, owed := [], stateSince := b.now }).calFail h 9).stitchCalFail h 9)
      ).stopIfDone h
  | .starting => (b.answerStart h (.abort .deviceState)).enterStopped h
  | .faulted => b.enterStopped h
  | _ => b

/-- The head stops itself after its last line, with its event (R83, R84). -/
def runEnd (h : HeadId) (b : Block) : Block := (b.raise (headSource h 15)).headStop h

/-- The end of a list, also of one that was wholly due when the head entered state 2 (R81, R83). -/
def listEnd (h : HeadId) (b : Block) : Block :=
  if b.reg (Obj.headTriggerSource h) = 2 ∧ b.heads[h].state = .running ∧ b.heads[h].nextDue = none then b.runEnd h else b

/-- A scheduled instant becomes due (R80): line k fires, or is dropped; the last entry of a list stops the head (R83). -/
def scheduledTrigger (h : HeadId) (m : Meet) (b : Block) : Block :=
  match b.heads[h].nextDue with
  | none => b
  | some d =>
    let src := b.reg (Obj.headTriggerSource h)
    if (src ≠ 1 ∧ src ≠ 2) ∨ b.heads[h].state ≠ .running ∨ !due d b.now then b
    else
      let k := b.heads[h].nextIndex
      let tE := b.freeAround (b.scheduleSlack h) d
      ((b.used.triggerMeet h m (some k) true 0 d tE none).armScheduled h (k + 1)).listEnd h

/-- After `trigger.count` lines the head raises its event and stops itself (R84). -/
def triggerCountEnd (h : HeadId) (b : Block) : Block :=
  if b.heads[h].state == .running && b.countReached h then b.runEnd h else b

/-! ## Other sources -/

/-- Width of a glitch filter code in ticks (R79). -/
def pinFilterTicks (code : Nat) : Nat := if code = 0 then 0 else if code = 1 then 16 * tNs else if code = 2 then 64 * tNs else 256 * tNs

/-- Whether a head sees a pin pulse of some ticks: one shorter than 8 ns or than the filter it does not (R79). -/
def pinSeen (h : HeadId) (width : Nat) (b : Block) : Bool :=
  decide (8 * tNs ≤ width) && decide (pinFilterTicks (b.reg (Obj.headTriggerPinFilter h)) ≤ width)

/-- An edge on HDn_TRIG0 or HDn_TRIG1 that begins a pulse of some ticks (R79, R92).
The edge is an event, and where it is that of `trigger.pin_edge` and the head's source is that pin, the exposure starts a fixed delay of at
most 180 ns and the filter's width after its stamp on the 488 ps grid. -/
def pinTrigger (h : HeadId) (pin : Fin 2) (falling : Bool) (width : Nat) (m : Meet) (b : Block) : Block :=
  let filter := pinFilterTicks (b.reg (Obj.headTriggerPinFilter h))
  if !b.pinSeen h width then b
  else
    let b := b.raise (headSource h (13 + pin.val))
    if b.reg (Obj.headTriggerSource h) = 5 + pin.val ∧ b.isSet (Obj.headTriggerPinEdge h) = falling then
      b.triggerMeet h m none false 0 b.now (later (onGrid b.now) (Config.pinDelay % (180 * tNs + 1) + filter)) none
    else b

/-- The line-trigger task fires a line for source 7, at most 40 ns later (R79, R97); where a later event merged into the task the line carries
flag 11 (R360). -/
def taskTrigger (h : HeadId) (m : Meet) (merged : Bool) (b : Block) : Block :=
  if b.reg (Obj.headTriggerSource h) = 7 then b.used.triggerMeet h m none false (flagIf merged 11) b.now (later b.now (b.freeUpTo (40 * tNs))) none else b

/-- A software trigger, at most 2 µs after arbiter acceptance (R79, R80). DESIGN CHOICE: without `trigger.sw_enable` and with another source
selected the write is answered with success and fires nothing; R78 says when the head accepts software triggers, and no rule refuses the
write. -/
def softTrigger (h : HeadId) (m : Meet) (b : Block) : Block :=
  if b.isSet (Obj.headTriggerSwEnable h) ∨ b.reg (Obj.headTriggerSource h) = 8 then
    b.used.triggerMeet h m none false 0 b.now (later b.now (b.freeUpTo (2 * tUs))) none
  else b

/-- What a kept line of index k does to a late broadcast not made again (R87, R252): a line beyond it carries flag 13 for it, and the line
itself or one beyond it settles it. -/
def lateFlag (h : HeadId) (k : Nat) (b : Block) : Nat := match b.heads[h].late with | some m => flagIf (decide (m < k)) 13 | none => 0
def lateSettled (h : HeadId) (k : Nat) (b : Block) : Block :=
  b.modHead h fun x => { x with late := match x.late with | some m => if m ≤ k then none else some m | none => none }

/-- A late broadcast that no page will make again owes its flag 13 (R87). -/
def lateOwed (h : HeadId) (b : Block) : Block :=
  if b.heads[h].late.isSome then (b.modHead h fun x => { x with late := none }).owe h (setBit 0 13) else b

/-- A kept line of index k fires (R85, R87). -/
def indexedTrigger (h : HeadId) (m : Meet) (k flags : Nat) (arrival tE : Time) (common : Option Time) (b : Block) : Block :=
  ((b.triggerMeet h m (some k) false (flags ||| b.lateFlag h k) arrival tE common).lateSettled h k).modHead h fun x => { x with nextIndex := k + 1 }

/-- A local crossing of P_k fires a line of a head of source 3, at most 150 ns after the edge (R79, R85); a held head (R233), and a head that
has already made the line (R252), fires it as an idle line. -/
def encoderTrigger (h : HeadId) (m : Meet) (k flags : Nat) (b : Block) : Block :=
  let tE := later b.now (b.freeUpTo (150 * tNs))
  if b.heads[h].held || decide (k < b.heads[h].nextIndex) then b.used.idleLine h none tE none
  else (b.used.indexedTrigger h m k flags b.now tE none).modHead h fun x => { x with crossIndex := k + 1 }

/-- A broadcast crossing of P_k reaches a running head of source 4 (R87): scheduled at C + `broadcast_delay`, or late: the line is lost, and the
next carries flag 13 unless a page makes the line again (R252). -/
def headCrossing (k : Nat) (c : Time) (flags : Nat) (h : HeadId) (b : Block) : Block :=
  if b.reg (Obj.headTriggerSource h) ≠ 4 ∨ b.heads[h].state ≠ .running then b
  else
    let b := b.modHead h fun x => { x with crossIndex := max x.crossIndex (k + 1) }
    let at_ := later c (b.reg (Obj.headTriggerBroadcastDelay h))
    if !due at_ b.now then b.modHead h fun x => { x with owed := x.owed ++ [⟨some k, at_, flags, none⟩] }
    else
      let b := (b.bump (Obj.headTriggerLateBroadcasts h)).raise (headSource h 9)
      if k < b.heads[h].nextIndex then b
      else b.modHead h fun x => { x with late := match x.late with | some m => some (min m k) | none => some k }

/-- A broadcast crossing reaches the pier (R87). -/
def receiveCrossing (k : Nat) (c : Time) (flags : Nat) (b : Block) : Block :=
  (List.finRange 4).foldl (fun b h => b.headCrossing k c flags h) b

/-- An idle instant reaches a head that a page may pace (R242): scheduled, or skipped without a trace when late. A head of source 3 is paced
on the owner alone. The instant of an approach line sets the sequence for it (R244). -/
def headIdle (c : Time) (line : Option Int) (h : HeadId) (b : Block) : Block :=
  let src := b.reg (Obj.headTriggerSource h)
  if (src ≠ 4 ∧ ¬ (src = 3 ∧ b.pageAxis = some (b.headAxis h) ∧ b.ownAxis = some (b.headAxis h))) ∨ b.heads[h].state ≠ .running then b
  else
    let at_ := later c (b.reg (Obj.headTriggerBroadcastDelay h))
    if due at_ b.now then b
    else
      let b := match line with
        | some j => if b.heads[h].owed.isEmpty then b.illumAhead h j else b
        | none => b
      b.modHead h fun x => { x with owed := x.owed ++ [⟨none, at_, 0, line⟩] }

/-- An idle instant reaches the pier (R242). -/
def receiveIdle (c : Time) (line : Option Int) (b : Block) : Block :=
  (List.finRange 4).foldl (fun b h => b.headIdle c line h) b

/-- The delay that the owner gives its broadcasts: that of its lowest-numbered head of source 4, or of head 0 (R88 derives one value for
all). -/
def ownDelay (b : Block) : Nat :=
  let h : HeadId := ((List.finRange 4).find? fun (g : HeadId) => b.reg (Obj.headTriggerSource g) == 4).getD 0
  b.reg (Obj.headTriggerBroadcastDelay h)

/-- The owner broadcasts a crossing or an idle instant, and will latch its position at the common instant (R87, R89). -/
def broadcast (m : RingMsg) (c : Time) (b : Block) : Block :=
  { (b.sendRing m) with ring := { b.ring with latches := b.ring.latches ++ [later c b.ownDelay] } }

/-- The owner latches its position at the common instants that have come and broadcasts it (R89). -/
def latchDue (b : Block) : Block :=
  let (now, wait) := b.ring.latches.partition fun t => due t b.now
  let b := { b with ring := { b.ring with latches := wait } }
  match b.ownAxis with
  | none => b
  | some a => now.foldl (fun b t => b.sendRing (.latch t (b.positionAt a t))) b

/-- The instant of the oldest broadcast is reached (R87, R89, R242, R252): the owner latches its position; the line fires; a line that the head
has already produced, and every line of a held head (R233), fires as an idle line. -/
def broadcastDue (h : HeadId) (m : Meet) (b : Block) : Block :=
  let b := b.latchDue
  match b.heads[h].owed with
  | [] => b
  | o :: rest =>
    if !due o.at_ b.now then b
    else
      let tE := b.freeAround (b.scheduleSlack h) o.at_
      let b := b.used.modHead h fun x => { x with owed := rest }
      match o.k with
      | none => b.idleLine h o.line tE (some o.at_)
      | some k =>
        if b.heads[h].held || decide (k < b.heads[h].nextIndex) then b.idleLine h none tE (some o.at_)
        else b.indexedTrigger h m k o.flags o.at_ tE (some o.at_)

/-- No trigger for `trigger.timeout` µs (R91). -/
def triggerTimeout (h : HeadId) (withTrigger : Bool) (b : Block) : Block :=
  let limit := b.reg (Obj.headTriggerTimeout h)
  let since := b.heads[h].lastTrigger.getD b.heads[h].stateSince
  if limit = 0 ∨ b.heads[h].state ≠ .running ∨ b.heads[h].gapRaised ∨ !passed since (limit * tUs) b.now then b
  else if withTrigger then b.bump (Obj.headTriggerNearMisses h)
  else (b.modHead h fun x => { x with gapRaised := true }).raise (headSource h 5)

/-- HDn_SYNC pulses on its task in mode 3 (R97); before the head has run it is high impedance (R559). -/
def syncPulse (h : HeadId) (b : Block) : Block :=
  if b.reg (Obj.headSyncMode h) = 3 ∧ b.heads[h].everRun then b.syncOut h (fineOf b.now) (b.reg (Obj.headSyncWidth h) * uCoarse) else b

/-! ## Exposure end and readout (R73, R77, R94) -/

/-- T_X of the oldest line in exposure: its window, never before the end of the previous one (R77), and section 1. -/
def exposureEnd (h : HeadId) (b : Block) : Block :=
  match b.heads[h].lines.findIdx? fun l => !l.exposed with
  | none => b
  | some i =>
    match b.heads[h].lines[i]? with
    | none => b
    | some l =>
      let open0 := fineLater l.tX (b.reg (Obj.headPatternReadoutOffset h) * uCoarse)
      let delay := match b.heads[h].lastWindowEnd with | some e => (fineDiff e open0).toNat | none => 0
      let w := fineLater open0 delay
      let l' := { l with exposed := true, exposure := l.exposure + delay, tX := fineLater l.tX delay, wOpen := w,
                         wEnd := fineLater w (b.windowUnits h) }
      let b := b.modHead h fun x => { x with lines := x.lines.set i l', lastWindowEnd := some l'.wEnd }
      let b := if delay = 0 then b else b.bump (Obj.headPatternWindowDelays h)
      let b := if i + 1 = b.heads[h].lines.length then b.setReg (Obj.headExposureInForce h) (unitsNs l'.exposure) else b
      let b := b.timeEdges h (sectionEdges l'.no l'.tX (section1 (b.table (0x6010 + h.val))))
      let b := if b.reg (Obj.headSyncMode h) = 2 then b.syncOut h (fineOf l.tE) (fineDiff l'.tX (fineOf l.tE)).toNat else b
      (b.raise (headSource h 2)).openWindows h

end Block

/-! ## From samples to codes (R99, R104, R106) -/

/-- A pixel of the clamp window of an AC-coupled input: both pair members stand at 0.9 V (R100). -/
def clampedSample (on : Bool) (s : Sample) : Sample := if on then { s with vRef := 0, vSig := 0 } else s

/-- The raw and the corrected codes of one input over the readout window: `slot` and `switch` tell the calibration slots and the pixels
in which the clamp switch is closed. -/
def inputCodes (polarity : Bool) (dac gainCode : Nat → Int) (off gainB skew : Int) (kind pedestal : Nat) (slot switch : Nat → Bool)
    (ss : List Sample) : List (Nat × Nat) :=
  ss.zipIdx.map fun (s, k) =>
    let raw := if slot (k / 2) then clipCode (sourceCode kind pedestal + rampShift kind k skew + s.dev)
      else rawCode polarity (dac k) (gainCode k).toNat (clampedSample (switch k) s)
    (raw, correctPixel k off gainB raw)

/-- A code that passes uncorrected and marks its pixel (R104, R117). -/
def saturated (code : Nat) : Bool := code == 0 || code == 0x3FFF

/-- The mark that a code gives its pixel (R141). -/
def codeMark (code : Nat) : Mark := if code = 0x3FFF then .high else if code = 0 then .low else .none

namespace Block

/-- Whether the clamp switch of input s is closed at pixel k (R100). -/
def switchClosed (h : HeadId) (s k : Nat) (b : Block) : Bool := (b.reg (Obj.headVideoCoupling h)).testBit s && b.isClampWindow h k

/-- The samples of input s over the window. -/
def inputSamples (h : HeadId) (v : Video) (s : Nat) (b : Block) : List Sample :=
  ((v.samples.getD s []) ++ List.replicate (b.readout h) (Sample.mk 0 0 0)).take (b.readout h)

/-- The codes of input s for a line (R99 to R106). -/
def lineCodes (h : HeadId) (l : Line) (kind : Nat) (v : Video) (s : Nat) (b : Block) : List (Nat × Nat) :=
  let (dac, off, gainB, skew) := (l.coeffs.getD []).getD s (0, 0, 0, 0)
  inputCodes ((b.reg (Obj.headVideoPolarity h)).testBit s) (fun _ => dac) (fun _ => (l.gains.getD s 0 : Int)) off gainB skew kind
    (b.reg (Obj.headVideoPedestal h)) (fun j => b.isSlot h j) (fun k => b.switchClosed h s k) (b.inputSamples h v s)

/-- Whether the overrange detector of input s trips on a pixel outside the calibration slots (R117). -/
def lineTrips (h : HeadId) (l : Line) (v : Video) (s : Nat) (b : Block) : Bool :=
  let dac := ((l.coeffs.getD []).getD s (0, 0, 0, 0)).1
  v.clamped.getLsbD s || (b.inputSamples h v s).zipIdx.any fun (x, k) =>
    !b.isSlot h (k / 2) && overTrip ((b.reg (Obj.headVideoPolarity h)).testBit s) dac (l.gains.getD s 0) (clampedSample (b.switchClosed h s k) x)

/-- Settling pixels of the range-change line (R122). -/
def settling (l : Line) (k : Nat) : Bool := l.rangeChange && decide (k < 6)

/-- Whether slot j of an input is excluded from the estimates (R109). `tail` are the last codes of the window before, the last one first,
and `gap` the fine units between the two windows, whose pixels are `px` units long. -/
def slotExcluded (l : Line) (over_ : Bool) (codes : List (Nat × Nat)) (tail : List Nat) (gap px j : Nat) : Bool :=
  over_ || settling l (2 * j) || settling l (2 * j + 1) ||
  ((List.range 4).any fun d => decide (1 ≤ d) && decide (d ≤ 2 * j) && saturated (codes.getD (2 * j - d) (1, 1)).1) ||
  tail.zipIdx.any fun (x, i) => saturated x && decide (gap + (2 * j + 1 + i) * px < 4 * px)

/-- The sums of one input with a line of a kind added (R107, R109). -/
def addSlots (kind : Nat) (codes : List (Nat × Nat)) (good : List Nat) (x : IlvSums) : IlvSums :=
  if good.isEmpty then x
  else
    let a := sumInts (good.map fun j => ((codes.getD (2 * j) (0, 0)).2 : Int))
    let c := sumInts (good.map fun j => ((codes.getD (2 * j + 1) (0, 0)).2 : Int))
    match kind with
    | 0 => { x with lines0 := x.lines0 + 1, n0 := x.n0 + good.length, a0 := x.a0 + a, b0 := x.b0 + c }
    | 1 => { x with lines1 := x.lines1 + 1, n1 := x.n1 + good.length, a1 := x.a1 + a, b1 := x.b1 + c }
    | _ => { x with linesR := x.linesR + 1, nR := x.nR + good.length, dR := x.dR + (c - a) }

/-- Whether an input's lines enter the estimates: it is enabled, has slots and no override (R111). -/
def estimates (h : HeadId) (s : SegId) (b : Block) : Bool :=
  let st := b.video[h].inputs[s].status
  b.segmentOn h s && st != 4 && st != 6 && st != 7

/-- The interleave calibration takes one line of one input (R106 to R109). -/
def ilvLine (h : HeadId) (l : Line) (kind : Nat) (trips : Bool) (s : SegId) (codes : List (Nat × Nat)) (b : Block) : Block :=
  let tail := b.video[h].inputs[s].tail
  let b := if !b.estimates h s then b
    else
      let gap := match b.video[h].tailEnd with | some e => (fineDiff l.wOpen e).toNat | none => 4 * b.pixelUnits h
      let all := b.slots h
      let bad := all.filter fun j => slotExcluded l trips codes tail gap (b.pixelUnits h) j
      let good := all.filter fun j => !bad.contains j
      let b := if bad.isEmpty then b else b.bump (Obj.headVideoIlvExcluded h)
      b.modVideo h fun x => { x with inputs := x.inputs.set s { x.inputs[s] with sums := addSlots kind codes good x.inputs[s].sums } }
  b.modVideo h fun x => { x with inputs := x.inputs.set s { x.inputs[s] with tail := ((codes.map (·.1)).reverse.take 3) } }

/-- Usable optical-black codes of an input on a line (R129). -/
def blackCodes (h : HeadId) (l : Line) (codes : List (Nat × Nat)) (b : Block) : List Nat :=
  ((List.range (b.readout h)).filter fun k => b.isBlack h k && !settling l k && !saturated (codes.getD k (1, 1)).2).map
    fun k => (codes.getD k (0, 0)).2

/-- The black clamp on one segment of a line (R129 to R131): the active pixels as 1/16 codes with their marks. -/
def clampSegment (h : HeadId) (l : Line) (s : SegId) (codes : List (Nat × Nat)) (b : Block) : List Px × Bool × Block :=
  let ob := b.blackCodes h l codes
  let st := b.corr[h].clamp[s]
  let fresh := st.fresh || l.rangeChange
  let n := ob.length
  let next : ClampState :=
    if n = 0 then { st with fresh := fresh }
    else
      let mean := divHalfUp (16 * sumInts (ob.map fun (x : Nat) => (x : Int))) n
      ⟨some (clampNext st.c fresh (b.reg (Obj.headClampSmoothing h)) mean), false⟩
  let fixed : Int := b.reg (Obj.headClampFixed h)
  let c := if b.reg (Obj.headClampMode h) = 0 then 16 * fixed else rnd (next.c.getD (256 * fixed)) 4
  let px := ((List.range (b.readout h)).filter fun k => b.isActive h k).map fun k =>
    let x := (codes.getD k (0, 0)).2
    Px.mk (16 * (x : Int) - c) (codeMark x)
  let b := (b.modCorr h fun y => { y with clamp := y.clamp.set s next }).setRegI (Obj.headClampValue h s) c
  (px, n == 0, b)

/-- Optical-black codes gathered for the pedestal loop of one input (R103). -/
def addBlack (h : HeadId) (s : SegId) (obs : List Int) (b : Block) : Block :=
  b.modVideo h fun x => { x with inputs := x.inputs.set s { x.inputs[s] with
    obSum := x.inputs[s].obSum + sumInts obs, obCount := x.inputs[s].obCount + obs.length } }

/-- The whole readout of a line: codes, calibration, pedestal sums and clamp, input by input (R99 to R131). Answers the
clamped segments, flags 0 and 1, and whether a segment had no usable optical black. -/
def readLine (h : HeadId) (l : Line) (v : Video) (b : Block) : List (List Px) × Nat × Bool × Block :=
  let kind := b.video[h].kind
  (List.finRange 16).foldl (fun (acc : List (List Px) × Nat × Bool × Block) (s : SegId) =>
    let (segs, flags, empty, b) := acc
    if !b.segmentOn h s then (segs ++ [[]], flags, empty, b)
    else
      let codes := b.lineCodes h l kind v s.val
      let trips := b.lineTrips h l v s.val
      let b := b.ilvLine h l kind (trips || v.slotTrip.getLsbD s.val) s codes
      let obs := ((List.range (b.readout h)).filter fun k => b.isBlack h k).map fun k => ((codes.getD k (0, 0)).2 : Int)
      let b := b.addBlack h s obs
      let (px, e, b) := b.clampSegment h l s codes
      (segs ++ [px], flags ||| flagIf (px.any fun p => p.mark != .none) 0 ||| flagIf trips 1, empty || e, b)) ([], 0, false, b)

/-- A head drops a line at a full queue (R11): the next delivered line carries flag 13, the flags of R119, and what the line itself carried
for lines before it. The buffer's account has it once the lines before it have left the queue (R215). -/
def dropLine (h : HeadId) (l : Line) (flags : Nat) (b : Block) : Block :=
  ((b.bump (Obj.deviceHeadDrops h)).oweDelivered h (setBit ((flags &&& 7) ||| l.owedIn ||| (flags &&& (2 ^ 3 ||| 2 ^ 12))) 13)).modPart h fun p =>
    { p with late := p.late ++ [(l.no, l.seq, l.tE)] }

/-- A readout window closes (R94): the line's samples become codes, feed the calibration and the clamp, and enter the queue;
an idle line ends here (R243), a full queue drops (R11). DESIGN CHOICE: an idle or dropped line with flag 0 or 1 is itself counted and told
by events 16 and 17, and the line that carries its flag (R119) is not counted for it. -/
def windowClose (h : HeadId) (v : Video) (lamps : LampReport) (b : Block) : Block :=
  let b := b.openWindows h
  match b.heads[h].lines with
  | [] => b
  | l :: rest =>
    if !l.exposed then b
    else
      let b := if l.rangeChange then b.restartWindows h true else b
      let (segs, seen, empty, b) := b.readLine h l v
      let flags := l.flags ||| seen
      let b := (b.modHead h fun x => { x with lines := rest }).modVideo h fun x =>
        { x with kind := (x.kind + 1) % 3, pedestalLines := x.pedestalLines + 1, linesSince := satAdd x.linesSince 1 max32, tailEnd := some l.wEnd }
      let b := if seen.testBit 0 then (b.bump (Obj.headVideoSaturatedLines h)).raise (headSource h 16) else b
      let b := if seen.testBit 1 then (b.bump (Obj.headVideoOverrangeLines h)).raise (headSource h 17) else b
      let b := if empty then (b.bump (Obj.headClampEmptyLines h)).raise (headSource h 31) else b
      let b := b.lampMeasure h (if l.blanked then 4 else l.waveband) lamps
      let b := b.raise (headSource h 3)
      let l := { l with flags := flags }
      let b :=
        if l.idle then (b.oweDelivered h (flags &&& 7)).stitchIdle h l
        else if 8 ≤ b.heads[h].queue.length then b.dropLine h l flags
        else b.modHead h fun x => { x with queue := x.queue ++ [⟨l, segs⟩] }
      b.stopIfDone h

/-- The lines in flight are discarded (R65): each counts as excluded for every input that estimates (R109), and the flags that it carried for
lines before it pass on (R11, R119). -/
def discardLines (h : HeadId) (b : Block) : Block :=
  let ls := b.heads[h].lines
  let inputs := (List.finRange 16).filter fun s : SegId => b.estimates h s && !(b.slots h).isEmpty
  let n := ls.length * inputs.length
  let b := if n = 0 then b else b.count (Obj.headVideoIlvExcluded h) n
  b.modHead h fun x => { x with lines := [], owedFlags := ls.foldl (fun m l => m ||| l.owedIn) x.owedFlags }

/-- A running head loses lock (R65): faulted, the lines in flight discarded, outputs at their idle levels. DESIGN CHOICE: so does a head in
state 3, whose lines still need its clock; R65 speaks of a running head. -/
def lockLost (h : HeadId) (b : Block) : Block :=
  if b.heads[h].state ≠ .running ∧ b.heads[h].state ≠ .stopping then b
  else
    let b := (b.discardLines h).modHead h fun x => { x with state := .faulted, nextDue := none, owed := [], stateSince := b.now }
    (((b.outputsRest h 0).setReg (Obj.headClockLocked h) 0).raise (headSource h 6)).windowStop h

/-- The owner's position at a common T_E arrives (R89). -/
def positionLatched (tE : Time) (p : Int) (b : Block) : Block :=
  let fix (l : Line) : Line := if l.waitsPosition && l.common == some tE then { l with position := p, waitsPosition := false } else l
  (List.finRange 4).foldl (fun (b : Block) (h : HeadId) => (b.modHead h fun x =>
    { x with lines := x.lines.map fix, queue := x.queue.map (fun q => { q with line := fix q.line }) }).stitchLatched h tE p) b

end Block
end Sys2Proof.Machine
end

