-- ==== Sys2Proof/Machine/Pipeline.lean ====
section
/-! DEFINITION. A line leaves the head-to-PIX queue: temperature, linearisation, Patina, binning, Voussoir, the packer and the
record (R9, R133, R168, R204). -/
namespace Sys2Proof.Machine

namespace Block

/-- Steps 5 to 7 of R9 on one line: the y values and the bins by segment, the temperature latched and flag 7. -/
def correctLine (h : HeadId) (q : QueuedLine) (b : Block) : List (List Px) × List (List Px) × Int × Bool :=
  let c := q.line.set
  let (t, tP) := b.lineTemp h c
  let ys := q.segments.zipIdx.map fun (xs, s) => b.linearise h c s t xs
  let bins := ys.zipIdx.map fun (y, s) => binSegment (b.reg (Obj.headBinFactor h)) (b.patinaSegment h c s tP y)
  (ys, bins, t, b.tableUsed h)

/-- The record of a line (R204, R205), with the flags that wait for the next delivered line. -/
def recordOf (h : HeadId) (l : Line) (cols : List Px) (flags owed : Nat) (b : Block) : List Byte × Bool :=
  let (p, format, fell) := payload (b.reg (Obj.headOutputFormat h)) (cols.map fun (x : Px) => x.v.toNat)
  let flags := if fell then setBit flags 14 else flags
  (slotOf (lineHeader (b.reg Obj.ringPierNumber) h.val format l (b.reg (Obj.headStitchWidth h)) (b.reg (Obj.headStitchFirstColumn h))
    (flags ||| owed) (b.reg (Obj.headBinFactor h)) p.length) p, fell)

/-- A line passes the calibrations when its record was written without flag 13 (R155), and the stitching calibration when it has no flag 12
either (R190). -/
def calibrate (h : HeadId) (flags : Nat) (t z : Int) (ys bins : List (List Px)) (b : Block) : Block :=
  if flags.testBit 13 then b
  else
    let b := b.calLine h t ys.flatten
    if flags.testBit 12 then b else b.stitchCalLine h z bins

/-- The oldest line of the queue passes the PIX side (R133 to R228). A packer that still awaits the owner's position holds it
for at most `broadcast_delay` (R89); after that the position is open. -/
def lineLeaves (h : HeadId) (b : Block) : Block :=
  match b.heads[h].queue with
  | [] => b
  | q :: rest =>
    if q.line.waitsPosition && !passed q.line.tE (b.reg (Obj.headTriggerBroadcastDelay h)) b.now then b
    else
      let b := b.modHead h fun x => { x with queue := rest }
      let late := q.line.waitsPosition
      let l := if late then { q.line with position := toSigned 48 (b.freeUpTo (2 ^ 48 - 1)), waitsPosition := false } else q.line
      let b := (if late then b.used else b).stitchSettle h l
      let (ys, bins, t, table) := b.correctLine h q
      let b := b.setRegI (Obj.headCorrBarTemp h) t
      let b := if table then b.bump (Obj.headCorrFallbackLines h) else b
      let l := if table then { l with flags := setBit l.flags 7 } else l
      let z := b.lineZ h l
      let (cols, flags, b) := b.voussoir h l bins
      let (_, fell) := b.recordOf h l cols flags 0
      let b := if fell then b.bump (Obj.captureBlkFallbacks h) else b
      let b := (b.bump (Obj.headOutputRecords h)).setReg (Obj.headOutputLastSequence h) l.seq
      let owed := if b.windowed then 0 else b.capture.partitions[h].owes
      let (written, b) := b.writeRecord h l fun owed => (b.recordOf h l cols flags owed).1
      let b := if written then b.calibrate h (l.flags ||| owed) t z ys bins else b
      ((b.lateLines h).windowStop h).captureStop

end Block
end Sys2Proof.Machine
end

