-- ==== Sys2Proof/Machine/Motion.lean ====
section
/-! DEFINITION. Motion axes: profile generator, limits, drive, encoder, deviation window, homing, enable and disable, and the
position source (R261 to R288). -/
namespace Sys2Proof.Machine

/-! ## Sine of a microstep angle -/

/-- π in 2^−40. -/
def pi40 : Int := 3454217652358

/-- sin x for x in 2^−40 rad from 0 to π ÷ 2, in 2^−40: the series to the 17th power. -/
def sin40 (x : Int) : Int :=
  let x2 := x * x / 2 ^ 40
  let term (t : Int) (n : Int) : Int := -(t * x2 / 2 ^ 40) / (2 * n * (2 * n + 1))
  let t1 := term x 1; let t2 := term t1 2; let t3 := term t2 3; let t4 := term t3 4
  let t5 := term t4 5; let t6 := term t5 6; let t7 := term t6 7; let t8 := term t7 8
  x + t1 + t2 + t3 + t4 + t5 + t6 + t7 + t8

/-- sin(2π × k ÷ 1,024) in 2^−40. -/
def sinStep (k : Nat) : Int :=
  let i := k % 1024
  let q := i % 256
  match i / 256 with
  | 0 => sin40 (2 * pi40 * q / 1024)
  | 1 => sin40 (2 * pi40 * (256 - q) / 1024)
  | 2 => -sin40 (2 * pi40 * q / 1024)
  | _ => -sin40 (2 * pi40 * (256 - q) / 1024)

/-! ## The profile (R268, R269, R271) -/

/-- Stopping distance at a speed in counts/s: ceil(v² ÷ (2a)) counts (R269). -/
def stopCounts (v a : Nat) : Nat := if a = 0 then 0 else (v * v + 2 * a - 1) / (2 * a)

/-- A position in 1/256 count in profile units. -/
def toUnits (p : Int) : Int := p * (uCount : Int) / 256

/-- Distance in profile units in which a speed in 10^−6 count/s comes to rest. -/
def brakeUnits (v : Int) (a : Nat) : Int := if a = 0 then 0 else v * v / (a : Int)

/-- The highest speed from which the axis comes to rest within a distance. -/
def speedFor (d : Int) (a : Nat) : Int := isqrt (a * d.toNat)

namespace Block

/-- The speed a profile asks for, with the rate at which it may change, before switches and virtual limits (R267 to R269). -/
def wanted (a : AxisId) (b : Block) : Int × Nat :=
  let x := b.axes[a]
  let acc := b.reg (Obj.axisProfileAccel a)
  let top : Int := (b.reg (Obj.axisProfileMaxSpeed a) : Int) * 1000000
  let home : Int := (b.reg (Obj.axisHomeSpeed a) : Int) * 1000000
  match x.profile with
  | .rest => (0, acc)
  | .brake hard => (0, if hard then b.reg (Obj.axisProfileStopDecel a) else acc)
  | .toTarget t cap =>
    let r := toUnits t - x.pos
    let v := min (min top (cap * 1000000)) (speedFor (Int.natAbs r) acc)
    (if 0 ≤ r then v else -v, acc)
  | .velocity v =>
    let cap := if b.isSet (Obj.axisPositionValid a) then top else min top home
    (clip (v * 1000000) (-cap) cap, acc)
  | .page v => (clip (v * 1000000) (-top) top, acc)
  | .homing back _ => (clip ((if back then -1 else 1) * b.regI (Obj.axisHomeDirection a) * home) (-top) top, acc)

/-- What an active limit switch makes of a wanted speed (R272): a carriage that moves toward it comes to rest at `stop_decel`, and none
sets out toward it. Answers whether the switch stands in the way. -/
def underSwitches (a : AxisId) (v : Int) (rate : Nat) (b : Block) : Int × Nat × Bool :=
  let x := b.axes[a]
  let up := x.limP && (decide (0 < v) || decide (0 < x.vel))
  let down := x.limN && (decide (v < 0) || decide (x.vel < 0))
  let stop := decide (0 < x.vel) && x.limP || decide (x.vel < 0) && x.limN
  (clip v (if down then 0 else min v 0) (if up then 0 else max v 0), if stop then b.reg (Obj.axisProfileStopDecel a) else rate, up || down)

/-- Whether the virtual limits bind (R266, R271). -/
def limitsBind (a : AxisId) (b : Block) : Bool := b.isSet (Obj.axisProfileLimitsEnable a) && b.isSet (Obj.axisPositionValid a)

/-- The virtual limits in profile units. -/
def limitUnits (a : AxisId) (b : Block) : Int × Int :=
  (toUnits (b.regI (Obj.axisProfileLimitLow a)), toUnits (b.regI (Obj.axisProfileLimitHigh a)))

/-- The virtual limits on a wanted speed (R271): the speed from which the carriage comes to rest at the limit, at `stop_decel` where the
limit lies closer than the stopping distance; and whether the limit is reached. -/
def underLimits (a : AxisId) (v : Int) (rate : Nat) (b : Block) : Int × Nat × Bool :=
  let x := b.axes[a]
  let hard := max rate (b.reg (Obj.axisProfileStopDecel a))
  let toward : Int := if 0 < x.vel ∨ (x.vel = 0 ∧ 0 < v) then 1 else if x.vel < 0 ∨ v < 0 then -1 else 0
  if !b.limitsBind a ∨ toward = 0 then (v, rate, false)
  else
    let (lo, hi) := b.limitUnits a
    let dist := if toward = 1 then hi - x.pos else x.pos - lo
    let cap := speedFor dist rate
    (if toward = 1 then min v cap else max v (-cap), if dist < brakeUnits x.vel rate then hard else rate, decide (dist ≤ 0))

/-- P_cmd is kept between the virtual limits (R271): where a step would leave them it ends at the limit, and one already outside goes no
further. -/
def heldInside (a : AxisId) (pos vel : Int) (b : Block) : Int × Int × Bool :=
  let x := b.axes[a]
  let (lo, hi) := b.limitUnits a
  if !b.limitsBind a then (pos, vel, false)
  else if hi < pos ∧ x.pos < pos then (max hi x.pos, 0, true)
  else if pos < lo ∧ pos < x.pos then (min lo x.pos, 0, true)
  else (pos, vel, false)

/-- The number of the profile state (`axis.profile_state`). -/
def profileState (x y : Axis) : Nat :=
  if y.vel = 0 ∧ y.profile = .rest then 0
  else if x.vel.natAbs < y.vel.natAbs then 1 else if x.vel.natAbs = y.vel.natAbs then 2 else 3

/-- The deviation of R278 in 1/256 count. -/
def deviation (a : AxisId) (b : Block) : Int := b.positionAt a b.now - b.axes[a].command b.now

/-- Whether the deviation stands outside the window (R278). -/
def outsideWindow (a : AxisId) (b : Block) : Bool :=
  b.isSet (Obj.axisEncoderEnable a) && decide (b.reg (Obj.axisDevWindow a) < (b.deviation a).natAbs)

/-- The deviation is looked at (R278): since when it has stood outside the window. -/
def watchDeviation (a : AxisId) (b : Block) : Block :=
  let out := b.outsideWindow a
  b.modAxis a fun x => { x with outsideSince := if out then (match x.outsideSince with | some t => some t | none => some b.now) else none }

/-- 2^40 counts in profile units: the travel after which homing fails (R267). -/
def homeTravel : Nat := 2 ^ 40 * uCount

/-- A profile after a step: whether it has ended, at rest. `stuck`: a switch or a limit stands in its way. -/
def profileEnded (p : Profile) (vel : Int) (arrive stuck : Bool) : Bool :=
  match p with
  | .rest => false
  | .toTarget _ _ => arrive || (stuck && decide (vel = 0))
  | .brake _ => decide (vel = 0)
  | .velocity w => decide (vel = 0) && (decide (w = 0) || stuck)
  | .page _ | .homing _ _ => stuck && decide (vel = 0)

/-- The events of a step (R267, R271, R286): the profile at rest, a virtual limit that stopped it, a homing that ended without its
reference. -/
def stepEvents (a : AxisId) (x : Axis) (ended atLimit far : Bool) (b : Block) : Block :=
  let b := b.raiseIf ended (640 + 32 * a.val + 2)
  let failed := match x.profile with | .homing _ _ => far || (ended && atLimit) | _ => false
  let b := b.raiseIf failed (640 + 32 * a.val + 4)
  if atLimit && ended then (b.bump (Obj.axisSoftLimitStops a)).raise (640 + 32 * a.val + 5) else b

/-- One update of the profile generator (R268): answers whether a virtual limit stopped the carriage (R271). -/
def profileStep (a : AxisId) (b : Block) : Bool × Block :=
  let x := b.axes[a]
  if x.state ≠ .running ∧ x.state ≠ .stopping then (false, b)
  else
    let (v0, rate0) := b.wanted a
    let (v1, rate1, blocked) := b.underSwitches a v0 rate0
    let (v, rate, near) := b.underLimits a v1 rate1
    let vel := clip v (x.vel - rate) (x.vel + rate)
    let (pos, vel, held) := b.heldInside a (x.pos + x.vel + vel) vel
    let atLimit := near || held
    let arrive := match x.profile with
      | .toTarget t _ => decide ((toUnits t - pos).natAbs ≤ 4 * rate) && decide (vel.natAbs ≤ 2 * rate)
      | _ => false
    let pos := match x.profile with | .toTarget t _ => if arrive then toUnits t else pos | _ => pos
    let vel : Int := if arrive then (0 : Int) else vel
    let ended := profileEnded x.profile vel arrive (blocked || atLimit)
    let travel := match x.profile with | .homing _ n => n + (pos - x.pos).natAbs | _ => 0
    let far := decide (homeTravel ≤ travel)
    let profile := if ended then .rest else match x.profile with
      | .homing back _ => if far then .brake false else .homing back travel
      | p => p
    let y := { x with pos := pos, vel := vel, from_ := x.cmdUnits b.now, updatedAt := b.now, profile := profile,
                      holding := x.holding && decide (vel = 0), restSince := if ended then b.now else x.restSince }
    let b := (b.modAxis a fun _ => y).setReg (Obj.axisProfileState a) (profileState x y)
    (atLimit && ended, (b.stepEvents a x ended atLimit far).watchDeviation a)

/-! ## Position validity and motion faults (R266, R278 to R280) -/

/-- The position becomes invalid or valid, with its event (R266, R286). Encoder-triggered heads of the axis owe flag 12 for the
first line after it returns (R17). -/
def setValid (a : AxisId) (v : Bool) (b : Block) : Block :=
  if b.isSet (Obj.axisPositionValid a) = v then b
  else
    let b := (b.setReg (Obj.axisPositionValid a) (if v then 1 else 0)).raise (640 + 32 * a.val + (if v then 9 else 10))
    if v then b
    else (List.finRange 4).foldl (fun (b : Block) (h : HeadId) =>
      let src := b.reg (Obj.headTriggerSource h)
      if b.scan && ((src == 3 && b.headAxis h == a) || (src == 4 && b.ownAxis == some a)) then b.owe h (setBit 0 12) else b) b

/-- A motion fault is in force, newest first; and it clears (R280). -/
def addFault (a : AxisId) (code : Nat) (b : Block) : Block :=
  b.modAxis a fun x => { x with faults := code :: x.faults.filter (· != code) }
def dropFault (a : AxisId) (code : Nat) (b : Block) : Block :=
  b.modAxis a fun x => { x with faults := x.faults.filter (· != code) }

/-- The carriage comes to rest: at `stop_decel` when hard, at `accel` otherwise (R269). -/
def brakeAxis (a : AxisId) (hard : Bool) (b : Block) : Block :=
  if b.axes[a].profile = .rest then b else b.modAxis a fun x => { x with profile := .brake hard }

/-- The microstep position (R262), with what a realignment in progress has left (R278). DESIGN CHOICE: one of its 256 steps in each PWM
period. -/
def microstep (a : AxisId) (b : Block) : Int :=
  let x := b.axes[a]
  divHalfAway (x.cmdUnits b.now * b.reg (Obj.axisDriveUstepRatio a)) ((uCount : Int) * 65536) + x.alignFrom * x.alignLeft / 256

/-- The end of a deviation trip (R266, R278): fault 1 clears, and the validity that the trip took away returns. -/
def tripEnd (a : AxisId) (b : Block) : Block :=
  let v := b.axes[a].validBefore
  ((b.dropFault a 1).modAxis a fun x => { x with validBefore := false, outsideSince := none }).setValid a (v || b.isSet (Obj.axisPositionValid a))

/-- The deviation has stood outside the window for `dev.time` (R278): the axis trips; one that returned in the same MOT cycle is
a near miss. DESIGN CHOICE: an axis whose coils are not driven does not trip. -/
def deviationTrip (a : AxisId) (returned : Bool) (b : Block) : Block :=
  let x := b.axes[a]
  let over_ := match x.outsideSince with | some t => passed t (b.reg (Obj.axisDevTime a) * tUs) b.now | none => false
  if !x.driven ∨ !b.isSet (Obj.axisEncoderEnable a) ∨ !over_ ∨ x.faults.contains 1 then b
  else if returned then (b.modAxis a fun x => { x with outsideSince := none }).bump (Obj.axisNearMisses a)
  else if !b.outsideWindow a then b
  else
    let b := b.modAxis a fun x => { x with validBefore := b.isSet (Obj.axisPositionValid a) }
    ((((b.addFault a 1).setValid a false).raise (640 + 32 * a.val + 7)).bump (Obj.axisDevTrips a)).brakeAxis a true

/-- Less than 1 count of motion in 1 ms after a trip (R278): P_cmd takes the position, the microstep angle is realigned to it over 256
microsteps, fault 1 clears, and the position is valid again. -/
def deviationRealign (a : AxisId) (b : Block) : Block :=
  let x := b.axes[a]
  let still := match x.edges with | e :: _ => passed e.at_ tMs b.now | [] => true
  if !x.faults.contains 1 ∨ !still then b
  else
    let old := b.microstep a
    let p := toUnits (b.positionAt a b.now)
    let b := b.modAxis a fun x => { x with pos := p, from_ := p, vel := 0, profile := .rest, restSince := b.now, alignLeft := 0 }
    let off := (old - b.microstep a + 512) % 1024 - 512
    (b.modAxis a fun x => { x with alignFrom := off, alignLeft := 256 }).tripEnd a

/-- An encoder error (R264, R279): only homing makes the position valid again. -/
def encoderError (a : AxisId) (b : Block) : Block :=
  if !b.isSet (Obj.axisEncoderEnable a) then b
  else
    let b := b.modAxis a fun x => { x with validBefore := false }
    ((((b.addFault a 2).setValid a false).raise (640 + 32 * a.val + 8)).bump (Obj.axisEncoderErrors a)).brakeAxis a true

/-- ENCODER_ERROR by its cause (R264): 0, A and B changed in one sample; 1, a differential pair at one level, which tells an error with
`encoder.mode` 0 alone; 2, the count rate. -/
def encoderErrorBy (a : AxisId) (cause : Nat) (b : Block) : Block :=
  if cause = 1 ∧ b.reg (Obj.axisEncoderMode a) ≠ 0 then b else b.encoderError a

/-- The coils are no longer driven: all switch-control outputs low (R261). -/
def switchOff (a : AxisId) (b : Block) : Block :=
  ((b.modAxis a fun x => { x with driven := false, mA := 0, mB := 0, holding := false, alignLeft := 0 }).setReg (Obj.axisDriveInForce a) 0).emit
    (.switchesLow a.val)

/-- P_cmd stands where it is now, without speed. -/
def freezeCommand (a : AxisId) (b : Block) : Block :=
  b.modAxis a fun x => { x with pos := x.cmdUnits b.now, from_ := x.cmdUnits b.now, vel := 0, profile := .rest, restSince := b.now }

/-- The power stage fails (R277): motion fault 4, 5 or 6, outputs low, state 4. -/
def stageFault (a : AxisId) (code : Nat) (b : Block) : Block :=
  if b.axes[a].state = .stopped ∨ b.axes[a].state = .faulted then b
  else
    let b := (((b.addFault a code).freezeCommand a).modAxis a fun x => { x with state := .faulted }).switchOff a
    ((b.setReg (Obj.axisProfileState a) 0).raise (640 + 32 * a.val + 11)).logFault 0x0060 a.val code (640 + 32 * a.val + 11)

/-- Motion faults 1 and 3 clear when their cause has gone (R280). -/
def clearFaults (a : AxisId) (b : Block) : Block :=
  let b := if b.axes[a].limP || b.axes[a].limN then b else b.dropFault a 3
  if b.axes[a].faults.contains 1 && !b.outsideWindow a then b.tripEnd a else b

/-! ## Commands of the axis (R266 to R272) -/

/-- Whether a page holds the axis (R257, R270). -/
def pageHolds (a : AxisId) (b : Block) : Bool := b.keystone.state != 0 && b.pageAxis == some a

/-- Whether a direction leads toward an active limit switch (R272). -/
def towardSwitch (a : AxisId) (up : Bool) (b : Block) : Bool := if up then b.axes[a].limP else b.axes[a].limN

/-- Why a move to a target is refused. -/
def moveViolations (a : AxisId) (t : Int) (b : Block) : List AbortCode :=
  (if b.pageHolds a then [.conflict] else []) ++
  (if b.axes[a].state ≠ .running then [.deviceState] else []) ++
  (if !b.isSet (Obj.axisPositionValid a) then [.deviceState] else []) ++
  (if b.limitsBind a ∧ b.regI (Obj.axisProfileLimitHigh a) < t then [.tooHigh] else []) ++
  (if b.limitsBind a ∧ t < b.regI (Obj.axisProfileLimitLow a) then [.tooLow] else []) ++
  (if b.towardSwitch a (decide (b.axes[a].command b.now < t)) && decide (t ≠ b.axes[a].command b.now) then [.deviceState] else [])

/-- Why a jog is refused. -/
def jogViolations (a : AxisId) (v : Int) (b : Block) : List AbortCode :=
  (if b.pageHolds a then [.conflict] else []) ++
  (if b.axes[a].state ≠ .running then [.deviceState] else []) ++
  (if v ≠ 0 ∧ b.towardSwitch a (decide (0 < v)) then [.deviceState] else [])

/-- Why a home is refused. -/
def homeViolations (a : AxisId) (b : Block) : List AbortCode :=
  (if b.pageHolds a then [.conflict] else []) ++ (if b.axes[a].state ≠ .running then [.deviceState] else []) ++
  (if b.towardSwitch a (decide (0 < b.regI (Obj.axisHomeDirection a))) then [.deviceState] else [])

/-- Why a halt or quick stop is refused. -/
def haltViolations (a : AxisId) (b : Block) : List AbortCode := if b.pageHolds a then [.conflict] else []

def moveTo (a : AxisId) (t : Int) (b : Block) : Block := b.modAxis a fun x => { x with profile := .toTarget t (b.reg (Obj.axisProfileMaxSpeed a)) }
def jog (a : AxisId) (v : Int) (b : Block) : Block := b.modAxis a fun x => { x with profile := .velocity v }
def home (a : AxisId) (b : Block) : Block := b.modAxis a fun x => { x with profile := .homing false 0 }

/-- Whether a request came by task. -/
def isTask (v : Via) : Bool := match v with | .task _ => true | .write _ => false

/-- A start or a stop of a function meets another in its cycle (R27): the block counts it, and the pier does when both came by command. -/
def startMeets (m : StartMeet) (via : Via) (o : Obj) (b : Block) : Block :=
  let tasks := isTask via || (match m with | .stop byTask => byTask | .start v => isTask v | .isolate v => isTask v | .alone => false)
  if m = .alone then b else if tasks then b.bump o else (b.bump o).bump Obj.deviceCommandCoincidences

/-- A command that a task gave and that is refused is ignored; a page's hold is counted (R270). -/
def taskOr (a : AxisId) (why : List AbortCode) (f : Block → Block) (b : Block) : Block :=
  if why.isEmpty then f b else if why.contains .conflict then b.bump (Obj.axisCoincidences a) else b

/-- Whether the axis is homing: back from the switch of method 2, or not (R267). -/
def homing (a : AxisId) (b : Block) : Option Bool := match b.axes[a].profile with | .homing back _ => some back | _ => none

/-- The homing reference is found (R267), with method 2 on the way back: the position is set there, the carriage comes to rest, the position
is valid. -/
def homingFound (a : AxisId) (b : Block) : Block :=
  if b.homing a ≠ some (b.reg (Obj.axisHomeMethod a) == 2) then b
  else
    let p := b.regI (Obj.axisHomePosition a)
    let shift := p - b.positionAt a b.now
    let b := b.modAxis a fun x => { x with count := x.count + shift, edges := x.edges.map fun e => { e with count := e.count + shift },
                                           pos := x.pos + toUnits shift, from_ := x.from_ + toUnits shift,
                                           profile := .brake false, faults := x.faults.filter (· != 2) }
    (b.raise (640 + 32 * a.val + 3)).setValid a true

/-- Homing ends without a reference (R267). -/
def homingFailed (a : AxisId) (b : Block) : Block :=
  if b.homing a = none then b
  else (b.modAxis a fun x => { x with profile := .brake false }).raise (640 + 32 * a.val + 4)

/-- A limit switch becomes active (R272, R267): motion fault 3; a carriage moving toward it comes to rest at `stop_decel`. Homing in its
direction fails, but for method 2, which reverses. DESIGN CHOICE: homing fails also where method 2 meets the other switch on its way back. -/
def limitActive (a : AxisId) (up : Bool) (b : Block) : Block :=
  let b := b.modAxis a fun x => if up then { x with limP := true } else { x with limN := true }
  let b := (b.addFault a 3).raise (640 + 32 * a.val + 6)
  let ahead := decide (0 < b.regI (Obj.axisHomeDirection a)) == up
  let toward := if up then decide (0 < b.axes[a].vel) else decide (b.axes[a].vel < 0)
  match b.axes[a].profile with
  | .homing back n =>
    if ahead && !back && b.reg (Obj.axisHomeMethod a) == 2 then b.modAxis a fun x => { x with profile := .homing true n }
    else if ahead != back then (b.homingFailed a).brakeAxis a true
    else b
  | _ => if toward then b.brakeAxis a true else b

/-- A limit switch releases (R272): motion fault 3 clears. For homing method 2 this is the reference (R267). -/
def limitRelease (a : AxisId) (up : Bool) (b : Block) : Block :=
  let b := b.modAxis a fun x => if up then { x with limP := false } else { x with limN := false }
  let b := if b.axes[a].limP || b.axes[a].limN then b else b.dropFault a 3
  if b.homing a = some true ∧ (decide (0 < b.regI (Obj.axisHomeDirection a)) == up) = true then b.homingFound a else b

/-- An index pulse (R286): latched with its event. -/
def indexPulse (a : AxisId) (b : Block) : Block :=
  (b.setRegI (Obj.axisIndexPosition a) (b.positionAt a b.now)).raise (640 + 32 * a.val + 15)

/-- The shortest time in ns between counted edges that the encoder filter in force admits (R264). -/
def edgeMin (a : AxisId) (b : Block) : Nat :=
  25 + 2 * (match b.reg (Obj.axisEncoderFilter a) with | 0 => 0 | 1 => 5 | 2 => 10 | _ => 20)

/-- How many counted edges are held. DESIGN CHOICE. -/
def edgesHeld : Nat := 16

/-- A counted edge (R264, R265): one count in its direction, stamped. One that comes faster than the filter admits is an encoder error, and
the count stays. In deep sleep the receivers are off (R559). -/
def encoderEdge (a : AxisId) (up : Bool) (b : Block) : Block :=
  if !b.isSet (Obj.axisEncoderEnable a) || b.asleep then b
  else
    let x := b.axes[a]
    let fast := match x.edges with | e :: _ => !passed e.at_ (b.edgeMin a * tNs) b.now | [] => false
    if fast then b.encoderError a
    else
      let d : Int := if up != b.isSet (Obj.axisEncoderInvert a) then 1 else -1
      let gap := match x.edges with | e :: _ => fineDiff (stampFine b.now) (stampFine e.at_) | [] => 0
      let b := b.modAxis a fun x =>
        { x with count := x.count + 256 * d, edges := (⟨b.now, x.count + 256 * d, d⟩ :: x.edges).take edgesHeld }
      (b.setRegI (Obj.axisSpeed a) (if gap ≤ 0 then 0 else d * (((tSec * uTick : Nat) : Int) / gap))).watchDeviation a

/-! ## Drive (R262, R273 to R276) -/

/-- m of a coil in quiet mode, in 2^−24 (R273): `s` is the sine in 2^−40, `vm` V_M in mV. -/
def quietM (a : AxisId) (i : Nat) (s : Int) (vm : Nat) (b : Block) : Int :=
  let mv : Frac := (Frac.add ⟨i * b.reg (Obj.axisDriveCoilMohm a), 1000⟩
    ⟨b.reg (Obj.axisDriveBemf a) * b.axes[a].vel.natAbs * b.reg (Obj.axisDriveUstepRatio a), 16777216 * 1000000 * 1000⟩)
  if vm = 0 then 0 else divHalfAway (mv.num * s) (2 ^ 16 * (mv.den : Int) * vm)

/-- Coil current in mA from a shunt voltage in µV (R274). -/
def coilCurrent (a : AxisId) (uv : Int) (b : Block) : Int := divHalfAway uv (max 1 (b.reg (Obj.axisDriveShuntMohm a)))

/-- The mode in force for the next period (R275). -/
def wantStrong (a : AxisId) (b : Block) : Bool :=
  let v := b.axes[a].vel.natAbs
  match b.reg (Obj.axisDriveMode a) with
  | 1 => false
  | 2 => true
  | _ =>
    let up := b.reg (Obj.axisDriveStrongSpeed a)
    if b.axes[a].strong then decide ((up - b.reg (Obj.axisDriveModeHyst a)) * 1000000 ≤ v) else decide (up * 1000000 < v)

/-- 0.98 and 1 in 2^−24. -/
def m98 : Int := 16441672
def mOne : Int := 16777216

/-- A duty of leg 1 in 1/2,500 of the period. -/
def dutyOf (m : Int) : Nat := (clip (1250 + divHalfAway (1250 * m) mOne) 0 2500).toNat

/-- m of a coil in the next period and its integral (R273 to R275): `i` the current, `s` the sine, `uv` the shunt voltage, `last` and `sum` the
coil's m and integral now. The first m of a new mode is the last of the old. -/
def nextM (a : AxisId) (strong changed : Bool) (i : Nat) (s uv : Int) (vm : Nat) (last sum : Int) (b : Block) : Int × Int :=
  let kp : Int := b.reg (Obj.axisDriveKp a)
  let e := divHalfAway ((i : Int) * s) (2 ^ 40) - b.coilCurrent a uv
  if !strong then (if changed then last else clip (b.quietM a i s vm) (-m98) m98, 0)
  else if changed then (last, last - kp * e)
  else
    let n := clip (sum + b.reg (Obj.axisDriveKi a) * e) (-mOne) mOne
    (clip (kp * e + n) (-mOne) mOne, n)

/-- The drive's part of a PWM period (R273 to R276): the mode may change, without a bump, and the next duties follow. -/
def drivePeriod (a : AxisId) (isa isb : Int) (vm : Nat) (b : Block) : Block :=
  let x := b.axes[a]
  let strong := b.wantStrong a
  let changed := strong != x.strong
  let b := if changed then (b.bump (Obj.axisModeSwitches a)).raise (640 + 32 * a.val + (if strong then 12 else 13)) else b
  let i := if x.holding && x.alignLeft == 0 then b.reg (Obj.axisDriveIHold a) else b.reg (Obj.axisDriveIRun a)
  let k := ((b.microstep a) % 1024).toNat
  let sA := sinStep k
  let sB := sinStep (k + 256)
  let (mA, nA) := b.nextM a strong changed i sA isa vm x.mA x.integralA
  let (mB, nB) := b.nextM a strong changed i sB isb vm x.mB x.integralB
  let sat := !strong && !changed && (decide (m98 < (b.quietM a i sA vm).natAbs) || decide (m98 < (b.quietM a i sB vm).natAbs))
  let b := if sat then (b.bump (Obj.axisVsatPeriods a)).raise (640 + 32 * a.val + 14) else b
  let b := b.modAxis a fun x => { x with strong := strong, mA := mA, mB := mB, integralA := nA, integralB := nB, alignLeft := x.alignLeft - 1 }
  (b.setReg (Obj.axisDriveInForce a) (if strong then 2 else 1)).emit
    (.pwm a.val (dutyOf mA) (dutyOf (if b.isSet (Obj.axisDriveInvert a) then -mB else mB)) (b.reg (Obj.axisDriveDeadtime a)))

/-- One PWM period: shunt voltages in µV and the pin voltage of V_M in µV are sampled. A shunt sample past ±98 mV, or V_M outside 8 V to
60 V, is a power-stage fault (R277). -/
def pwmPeriod (a : AxisId) (isa isb : Int) (vmPin : Nat) (b : Block) : Block :=
  let vm := vmPin * b.reg (Obj.axisDriveVmRatio a) / 100000
  let b := b.setReg (Obj.axisVm a) (min vm 65535)
  if !b.axes[a].driven then b
  else if 98000 < isa.natAbs ∨ 98000 < isb.natAbs then b.stageFault a 5
  else if vm < 8000 ∨ 60000 < vm then b.stageFault a 6
  else b.drivePeriod a isa isb vm

/-- The profile has been at rest for `hold_delay` ms (R276). -/
def holdCurrent (a : AxisId) (b : Block) : Block :=
  let x := b.axes[a]
  if x.state == .running && x.profile == .rest && decide (x.vel = 0) && !x.holding &&
      passed x.restSince (b.reg (Obj.axisDriveHoldDelay a) * tMs) b.now then
    (b.modAxis a fun x => { x with holding := true }).raise (640 + 32 * a.val + 16)
  else b

/-! ## Enable and disable (R284) -/

/-- 2π × 2,000 × 2^24 in 10^−6. -/
def loopGain : Nat := 210828714133156521

/-- The gains at the basic level for V_M in mV (R274). -/
def deriveGains (a : AxisId) (vm : Nat) (b : Block) : Block :=
  if b.levelInForce (Obj.axisLevel a) = 1 ∨ vm = 0 then b
  else
    let kp := divHalfAway ((loopGain * b.reg (Obj.axisDriveCoilUh a) : Nat) : Int) ((10 ^ 12 * vm : Nat) : Int)
    let ki := divHalfAway ((loopGain * b.reg (Obj.axisDriveCoilMohm a) * 25 : Nat) : Int) ((10 ^ 15 * vm : Nat) : Int)
    (b.setReg (Obj.axisDriveKp a) kp.toNat).setReg (Obj.axisDriveKi a) ki.toNat

/-- Why an enable is refused: a value in force without its feature (R51, R230), a state from which only a disable leads, V_M or
the fault input (R284): `low` says that MOTa_FLT_N is low. -/
def enableViolations (a : AxisId) (vm : Nat) (low : Bool) (b : Block) : List AbortCode :=
  (if b.isSet (Obj.axisKeystoneEnable a) && !b.feature 1 then [.feature] else []) ++
  (if b.test.taken then [.deviceState] else []) ++
  (if b.axes[a].state = .faulted ∨ b.axes[a].state = .stopping then [.deviceState] else []) ++
  (if vm < 8000 ∨ 60000 < vm ∨ low then [.hardware] else [])

/-- The axis is enabled (R284): it reads state 1 until the checks and derivations are done, and then state 2. -/
def axisOn (a : AxisId) (vm : Nat) (b : Block) : Block :=
  if b.axes[a].state = .running then b
  else
    let b := (b.emit (.starting (0x4100 + 0x80 * a.val))).deriveGains a vm
    let p := toUnits (b.positionAt a b.now)
    let strong := b.reg (Obj.axisDriveMode a) == 2
    let b := b.modAxis a fun x => { x with state := .running, pos := p, from_ := p, updatedAt := b.now, vel := 0, profile := .rest, holding := true,
                                           restSince := b.now, outsideSince := none, driven := true, strong := strong, integralA := 0,
                                           integralB := 0, mA := 0, mB := 0, alignLeft := 0,
                                           faults := x.faults.filter fun c => decide (c < 4) }
    ((b.setReg (Obj.axisDriveInForce a) (if strong then 2 else 1)).setReg (Obj.axisVm a) (min vm 65535)).raise (640 + 32 * a.val)

/-- The axis is disabled (R284): it comes to rest in state 3; a faulted axis returns to state 0 (R277). -/
def axisOff (a : AxisId) (b : Block) : Block :=
  match b.axes[a].state with
  | .running => (b.modAxis a fun x => { x with state := .stopping }).brakeAxis a true
  | .faulted =>
    (b.modAxis a fun x => { x with state := .stopped, faults := x.faults.filter fun c => decide (c < 4) }).raise (640 + 32 * a.val + 1)
  | _ => b

/-- The carriage is at rest and the outputs are low (R284): state 0. -/
def axisOffDone (a : AxisId) (b : Block) : Block :=
  if b.axes[a].state == .stopping && decide (b.axes[a].vel = 0) then
    (((b.freezeCommand a).modAxis a fun x => { x with state := .stopped }).switchOff a).raise (640 + 32 * a.val + 1)
  else b

/-! ## The position source (R281, R282) -/

/-- `axis.source_pier` of both axes. -/
def setSourcePier (p : Nat) (b : Block) : Block := (b.setReg (Obj.axisSourcePier 0) p).setReg (Obj.axisSourcePier 1) p

/-- Why a claim is refused: an encoder that is disabled, or a claim that stands; `crossing` is a pier whose claim crossed this
one on the ring (R263, R281). -/
def claimViolations (a : AxisId) (crossing : Option PierId) (b : Block) : List AbortCode :=
  let me := b.reg Obj.ringPierNumber
  (if !b.isSet (Obj.axisEncoderEnable a) then [.incompatible] else []) ++
  (if b.reg (Obj.axisSourcePier 0) ≠ 0xFF ∧ ¬ (b.ownAxis = some a) then [.conflict] else []) ++
  (match crossing with | some p => if p.val < me then [.conflict] else [] | none => [])

/-- The claim stands, or is given up. -/
def claim (a : AxisId) (on : Bool) (b : Block) : Block :=
  let b := b.setReg (Obj.axisBroadcast a) (if on then 1 else 0)
  if on then (b.setSourcePier (b.reg Obj.ringPierNumber)).sendRing (.claim true)
  else if b.reg (Obj.axisSourcePier 0) = b.reg Obj.ringPierNumber then (b.setSourcePier 0xFF).sendRing (.claim false)
  else b

/-- Every 8 µs the position source sends position, speed and validity (R282). -/
def positionBroadcast (b : Block) : Block :=
  match b.ownAxis with
  | some a => b.sendRing (.position (b.positionAt a b.now) (b.regI (Obj.axisSpeed a)) (b.isSet (Obj.axisPositionValid a)))
  | none => b

end Block
end Sys2Proof.Machine
end

