-- ==== Sys2Proof/Machine/Keystone.lean ====
section
/-! DEFINITION. Keystone: drain levels, pacing, pauses, idle and approach lines, rejoin and seam, and encoder crossings (R230 to
R260, R283). -/
namespace Sys2Proof.Machine

/-- How many trigger positions of a grid lie at or behind a position in the grid's direction, less one: the index of the last
(R85). Positions in 1/256 count. -/
def Grid.reach (g : Grid) (p : Int) : Int := if g.pitch = 0 then 0 else (g.dir * (p - g.origin)) / g.pitch

/-- Position of index k of a grid (R85, R232). -/
def Grid.at_ (g : Grid) (k : Int) : Int := g.origin + g.dir * k * g.pitch

namespace Block

/-- Whether this pier's controller is active: its page axis is the position source (R20, R230). -/
def activeAxis (b : Block) : Option AxisId :=
  match b.pageAxis with
  | some a => if b.ownAxis = some a then some a else none
  | none => none

/-- Whether a page paces a head once it runs (R231). -/
def wouldPace (h : HeadId) (b : Block) : Bool :=
  b.reg (Obj.headTriggerSource h) == 4 ||
  (b.reg (Obj.headTriggerSource h) == 3 && b.activeAxis.isSome && b.activeAxis == some (b.headAxis h))

/-- The heads of this pier that the page paces (R231). -/
def paced (h : HeadId) (b : Block) : Bool := b.heads[h].state == .running && b.wouldPace h

def pacedHeads (b : Block) : List HeadId := (List.finRange 4).filter fun h => b.paced h

/-- The state of the page of the epoch, on this pier or told by its owner (R239). -/
def pageState (b : Block) : Nat := if b.activeAxis.isSome then b.keystone.state else b.ring.page

/-- Whether a head that becomes paced now is held until the page ends (R233). -/
def pageHeld (h : HeadId) (b : Block) : Bool := b.wouldPace h && decide (1 ≤ b.pageState) && decide (b.pageState ≤ 7)

/-- The trigger grid that a head's objects spell (R85). -/
def headGrid (h : HeadId) (b : Block) : Grid :=
  ⟨b.regI (Obj.headTriggerOrigin h), b.regI (Obj.headTriggerPitch h), b.direction h⟩

/-! ## Drain levels (R234, R235) -/

/-- Whether this pier is an abutment in use (R414). -/
def isAbutment (b : Block) : Bool :=
  b.reg Obj.ringPierNumber != 0xFF &&
  (b.reg Obj.ringAbutmentA == b.reg Obj.ringPierNumber || b.reg Obj.ringAbutmentB == b.reg Obj.ringPierNumber)

/-- L_p of this pier (R234). -/
def drainLevel (b : Block) : Nat :=
  let parts := b.pacedHeads.map fun h =>
    let p := b.capture.partitions[h]
    if p.size = 0 then 0 else 65536 * p.keptBytes / p.size
  let size := b.reg Obj.bufferReadoutSize * 1048576
  min 65535 ((parts ++ [if size = 0 ∨ !b.isAbutment then 0 else 65536 * b.readoutBytes / size]).foldl max 0)

/-- The lowest last sequence over the paced heads (R234). -/
def lowestLast (b : Block) : Option Nat :=
  match b.pacedHeads with
  | [] => none
  | h :: hs => some (hs.foldl (fun m g => min m (b.reg (Obj.headOutputLastSequence g))) (b.reg (Obj.headOutputLastSequence h)))

/-- The pixels' slot of a head at its format, PX16 for BLK16 (R224, R236). -/
def slotAt (h : HeadId) (b : Block) : Nat :=
  let w := b.reg (Obj.headStitchWidth h)
  let bits := match b.reg (Obj.headOutputFormat h) with | 1 => 8 | 2 => 10 | 3 => 12 | _ => 16
  slotBytes (((bits * w + 7) / 8 + 3) / 4 * 4)

/-- What this pier publishes (R234). -/
def levelInfo (b : Block) : LevelInfo :=
  { level := b.drainLevel, last := b.lowestLast, period := b.pacedHeads.foldl (fun m h => max m (b.effMin h)) 0,
    loads := b.pacedHeads.map fun h =>
      ⟨b.slotAt h, b.reg (Obj.ringRouteAbutmentInForce h.val), b.reg (Obj.ringRouteSpanInForce h.val)⟩ }

/-- The latest reports of the epoch's piers (R235), this pier's as it stands now. -/
def reports (b : Block) : List (Nat × LevelInfo) :=
  let own := b.reg Obj.ringPierNumber
  (own, b.levelInfo) :: (b.ring.members.filter (· != own)).filterMap fun p => (b.keystone.levels.get? p).map fun r => (p, r.info)

/-- The level that a pier counts with now (R235). -/
def levelOf (a : AxisId) (p : Nat) (b : Block) : Nat :=
  match b.keystone.levels.get? p with
  | some r => if passed r.at_ (b.reg (Obj.axisKeystoneLevelTimeout a) * tUs + 1) b.now then 65535 else r.info.level
  | none => 65535

/-- L_max and the pier that reported it (R235). -/
def levelMax (a : AxisId) (b : Block) : Nat × Nat :=
  b.ring.members.foldl (fun (m : Nat × Nat) p => if m.1 < b.levelOf a p then (b.levelOf a p, p) else m)
    (match b.ring.members with | [] => (0, 0) | p :: _ => (b.levelOf a p, p))

/-! ## Ceiling and speeds (R236, R237, R245) -/

/-- `keystone.ceiling_in_force` (R236). -/
def ceilingInForce (b : Block) : Nat := match b.ring.ceiling with | some c => min c (b.reg Obj.deviceLineRateCap) | none => 1000000

/-- F_c in lines/s (R237), over the paced heads of the epoch. -/
def ceilingRate (b : Block) : Nat :=
  let worst := b.reports.foldl (fun m r => max m r.2.period) 0
  if worst = 0 then b.ceilingInForce else min b.ceilingInForce (uMicro * 1000000 / worst)

/-- V_c in counts/s (R237). -/
def ceilingSpeed (b : Block) : Nat := b.ceilingRate * b.keystone.grid.pitch.toNat / 256

/-- T_K − T_{K−1} as a time and a number of lines, from the crossings of the last two kept lines. -/
def lastStep (b : Block) : Option (Nat × Nat) :=
  match b.keystone.crossings with
  | (i, t) :: (j, u) :: _ => if j < i then some ((timeDiff t u).toNat, (i - j).toNat) else none
  | _ => none

/-- The period t_i of the time-idle lines in ticks (R242). -/
def idlePeriod (b : Block) : Nat :=
  let base := if b.ceilingRate = 0 then tSec else (tSec + b.ceilingRate - 1) / b.ceilingRate
  match b.lastStep with
  | some (d, n) => max base (d / n)
  | none => base

/-- V_K in counts/s (R245). DEDUCED: with one kept line there is no speed to measure, and it is V_c as at a page start. -/
def speedAtK (b : Block) : Nat :=
  match b.lastStep with
  | some (d, n) => if d = 0 then b.ceilingSpeed else n * b.keystone.grid.pitch.toNat * tSec / (256 * d)
  | none => b.ceilingSpeed

/-- The span directions that a load passes on its way to its abutment: 2k + 1 from pier k to the next, 2k to the one before (R236, R415). -/
def loadLinks (n pier : Nat) (l : HeadLoad) : List Nat :=
  if l.abutment = 0xFF then []
  else if l.span = 1 then (List.range ((l.abutment + n - pier % n) % n)).map fun i => 2 * ((pier + i) % n) + 1
  else (List.range ((pier + n - l.abutment % n) % n)).map fun i => 2 * ((pier + n - i) % n)

/-- The largest integer f that every span direction and every host port bears (R236); 1,000,000 at most. -/
def boundCeiling (b : Block) : Nat :=
  let n := max 1 (b.reg Obj.ringConfigured)
  let all := b.reports.flatMap fun r => r.2.loads.map fun l => (r.1, l)
  let sum (ls : List (Nat × HeadLoad)) : Nat := ls.foldl (fun m x => m + x.2.slot) 0
  let hosts := (all.map (·.2.abutment)).map fun a => sum (all.filter fun x => a != 0xFF && x.2.abutment == a)
  let links := (all.flatMap fun x => loadLinks n x.1 x.2).map fun k => sum (all.filter fun x => (loadLinks n x.1 x.2).contains k)
  let bound (limit : Nat) (f s : Nat) : Nat := if s = 0 then f else min f (limit / s)
  links.foldl (bound 15500000000) (hosts.foldl (bound 31500000000) 1000000)

/-- The owner publishes its pacing ceiling to the epoch (R236). -/
def publishCeiling (f : Nat) (b : Block) : Block := ({ b with ring := { b.ring with ceiling := some f } } : Block).sendRing (.ceiling f)

/-- The pacing ceiling that the owner derives at the basic level (R236). -/
def deriveCeiling (b : Block) : Block :=
  match b.ownAxis with
  | none => b
  | some a =>
    if b.levelInForce (Obj.axisLevel a) = 1 then b
    else (b.setReg (Obj.axisKeystoneCeiling a) b.boundCeiling).publishCeiling b.boundCeiling

/-! ## State changes -/

def keyEvent (a : AxisId) (k : Nat) (b : Block) : Block := b.raise (640 + 32 * a.val + k)

/-- Microseconds of the pause in progress that the pause time does not hold yet (R259). -/
def pauseNow (b : Block) : Nat := match b.keystone.pauseSince with | some t => (timeDiff b.now t).toNat / tUs | none => 0

/-- The controller enters a state, and tells the epoch; time in states 4 to 6 is totalled (R239, R259). -/
def keyState (a : AxisId) (s : Nat) (b : Block) : Block :=
  let is_ := decide (4 ≤ s) && decide (s ≤ 6)
  let b := if is_ then b else b.count (Obj.axisKeystonePauseTime a) b.pauseNow
  (b.modKey fun k => { k with state := s, pauseSince := if is_ then some (k.pauseSince.getD b.now) else none }).sendRing (.page s)

/-- K takes a value, which `keystone.last_kept` reads (R240). -/
def setK (a : AxisId) (k : Int) (b : Block) : Block :=
  (b.setReg (Obj.axisKeystoneLastKept a) (k % 2 ^ 48).toNat).modKey fun x => { x with lastKept := k }

/-- A page starts on a pier: its paced heads count their lines from 0 (R85, R232), and no line has lit a waveband (R244). -/
def pageBegun (b : Block) : Block :=
  b.pacedHeads.foldl (fun (b : Block) h =>
    ((b.lateOwed h).modHead h fun x => { x with nextIndex := 0, crossIndex := 0 }).modIllum h fun x => { x with lit := [] }) b

/-- The page is over on a pier: held heads are free (R233). -/
def pageOver (b : Block) : Block := (List.finRange 4).foldl (fun b h => b.modHead h fun x => { x with held := false }) b

/-- The owner tells the state of its page (R233, R239). -/
def receivePage (n : Nat) (b : Block) : Block :=
  if b.activeAxis.isSome then b
  else
    let was := b.ring.page
    let b := { b with ring := { b.ring with page := n } }
    if n = 0 then b.pageOver else if was = 0 then b.pageBegun else b

/-- A pier comes into an epoch whose page has begun: its paced heads are held (R233). -/
def joinPage (n : Nat) (b : Block) : Block :=
  if b.activeAxis.isSome ∨ n = b.ring.page then b
  else
    let b := { b with ring := { b.ring with page := n } }
    if n = 0 then b.pageOver else b.pacedHeads.foldl (fun b h => b.modHead h fun x => { x with held := b.pageHeld h }) b

/-- The park position for V_r (R245), in 1/256 count. -/
def parkFor (a : AxisId) (vr : Nat) (b : Block) : Int :=
  let g := b.keystone.grid
  let run := stopCounts vr (b.reg (Obj.axisProfileAccel a))
  g.at_ b.keystone.lastKept - g.dir * ((run : Int) * 256 + (b.reg (Obj.axisKeystoneApproachLines a) : Int) * g.pitch)

/-- The virtual limit on the park side, when one binds. -/
def parkLimit (a : AxisId) (b : Block) : Option Int :=
  if !b.limitsBind a then none
  else if 0 < b.keystone.grid.dir then some (b.regI (Obj.axisProfileLimitLow a)) else some (b.regI (Obj.axisProfileLimitHigh a))

/-- Where the axis parks, and V_r (R245, R253): a park position beyond a virtual limit parks at the limit, with the V_r that the run-up left
after the approach lines allows; nothing without room for one line more than those. -/
def parkPlan (a : AxisId) (b : Block) : Option (Int × Nat) :=
  let vr := min b.speedAtK b.ceilingSpeed
  let g := b.keystone.grid
  let park := b.parkFor a vr
  match b.parkLimit a with
  | none => some (park, vr)
  | some l =>
    if 0 ≤ g.dir * (park - l) then some (park, vr)
    else
      let room := g.dir * (g.at_ b.keystone.lastKept - l) - (b.reg (Obj.axisKeystoneApproachLines a) : Int) * g.pitch
      if room < g.pitch then none
      else some (l, min vr (isqrt (2 * b.reg (Obj.axisProfileAccel a) * (room.toNat / 256))))

/-- The park position and V_r are formed anew (R245, R254). -/
def setPark (a : AxisId) (place : Int) (vr : Nat) (b : Block) : Block :=
  (b.modKey fun k => { k with vk := b.speedAtK, vr := vr, park := place }).setRegI (Obj.axisKeystoneParkPosition a) place

/-- Without room for the approach lines the page faults with reason 7 (R253). -/
def noRoom (a : AxisId) (b : Block) : Block := (b.keyState a 8).modKey fun k => { k with reason := 7, vk := b.speedAtK, vr := 0 }

/-- The axis is sent to park, in state s (R245, R253). -/
def sendToPark (a : AxisId) (s : Nat) (b : Block) : Block :=
  match b.parkPlan a with
  | none => b.noRoom a
  | some (place, vr) =>
    (((b.keyState a s).setPark a place vr).modKey fun k => { k with approach := false }).modAxis a fun x =>
      { x with profile := .toTarget place b.ceilingSpeed }

/-- K or V_c has changed in states 4 to 6: the park position follows (R252, R254). -/
def replan (a : AxisId) (b : Block) : Block :=
  match b.parkPlan a with
  | none => if b.keystone.state = 4 then b else b.noRoom a
  | some (place, vr) =>
    let moves := b.keystone.state != 4 && place != b.keystone.park
    let b := b.setPark a place vr
    if moves then b.modAxis a fun x => { x with profile := .toTarget place b.ceilingSpeed } else b

/-- A pause closes the gate and enters state 4 (R240, R242, R251). `reason` none: the abandoned run-up of R254. Reason 7 stays until the page
ends (R253). -/
def keyPause (a : AxisId) (reason : Option Nat) (b : Block) : Block :=
  let s := b.keystone.state
  let b := match reason with
    | some r => if s = 8 ∧ b.keystone.reason = 7 then b else b.modKey fun k => { k with reason := r }
    | none => b
  if s ≠ 2 ∧ s ≠ 3 then b
  else
    let b := (b.keyState a 4).modKey fun k => { k with approach := false }
    let b := ((b.bump (Obj.axisKeystonePauses a)).keyEvent a 24).modAxis a fun x => { x with profile := .brake false }
    if s = 2 then (b.bump (Obj.axisKeystoneAbortedRunups a)).keyEvent a 28 else b

/-- A motion fault or an axis stop of any kind in a page (R251, R280): state 8, reason 4, and flag 12 for the rejoin line. -/
def keyFault (a : AxisId) (b : Block) : Block :=
  let s := b.keystone.state
  if b.activeAxis ≠ some a ∨ s = 0 ∨ s = 7 ∨ s = 8 then b
  else
    let b := if s = 2 then (b.bump (Obj.axisKeystoneAbortedRunups a)).keyEvent a 28 else b
    (b.keyState a 8).modKey fun k => { k with reason := 4, owedFlags := setBit k.owedFlags 12, approach := false }

/-- Whether an axis that a fault has stopped can move again (R239, R251). -/
def axisReady (a : AxisId) (b : Block) : Bool := b.isSet (Obj.axisPositionValid a) && b.axes[a].state == .running

/-- State 8 is left by itself when the axis is valid again and `fault_resume` is 1 (R239). -/
def keyRecover (a : AxisId) (b : Block) : Block :=
  if b.activeAxis == some a && b.keystone.state == 8 && b.keystone.reason != 7 && b.isSet (Obj.axisKeystoneFaultResume a) &&
      b.axisReady a then b.sendToPark a 5
  else b

/-- K goes back to a line (R252): what was kept beyond it is made again. -/
def lowerK (a : AxisId) (k : Int) (b : Block) : Block :=
  if b.keystone.lastKept ≤ k then b
  else
    let b := (b.setK a k).modKey fun x => { x with crossings := x.crossings.dropWhile fun c => decide (k < c.1) }
    if b.keystone.state = 4 ∨ b.keystone.state = 5 ∨ b.keystone.state = 6 then b.replan a else b

/-- A pause from outside the axis: a span fault (5) or a change of epoch (6) (R251, R252). -/
def keyOutside (reason : Nat) (b : Block) : Block :=
  match b.activeAxis with
  | none => b
  | some a =>
    if b.keystone.state = 0 ∨ b.keystone.state = 7 then b
    else
      let b := b.keyPause a (some reason)
      match b.reports.filterMap fun r => r.2.last with
      | k :: ks => if reason = 5 ∧ 0 ≤ b.keystone.lastKept then b.lowerK a (ks.foldl min k : Nat) else b
      | [] => b

/-- The page ends at rest (R239): state 0, its event, held heads free (R233). -/
def pageIdle (a : AxisId) (b : Block) : Block :=
  (((b.keyState a 0).keyEvent a 31).modKey fun k => { k with idleBase := none, approach := false, forced := false }).pageOver

/-- The page ends (R239, R257): state 7; at once state 0 when the axis is at rest. -/
def pageEnding (a : AxisId) (b : Block) : Block :=
  let s := b.keystone.state
  if s = 0 ∨ s = 7 then b
  else
    let b := (b.keyState a 7).modKey fun k => { k with approach := false }
    if b.axes[a].profile = .rest then b.pageIdle a else b.modAxis a fun x => { x with profile := .brake false }

/-- The pier stops being the position source in a page. DESIGN CHOICE: the spec has no case for it; the axis comes to rest and the page
ends at once. -/
def pageDrop (b : Block) : Block :=
  match b.activeAxis with
  | none => b
  | some a => if b.keystone.state = 0 then b else (b.brakeAxis a false).pageIdle a

/-! ## Pacing (R235, R238, R254) -/

/-- What L_max asks of the page (R238, R246). -/
def keyPace (a : AxisId) (b : Block) : Block :=
  let (lm, lp) := b.levelMax a
  let b := (b.setReg (Obj.axisKeystoneLevelMax a) lm).setReg (Obj.axisKeystoneLevelPier a) lp
  let high := b.reg (Obj.axisKeystoneHighMark a)
  let pace := b.reg (Obj.axisKeystonePaceMark a)
  let b := b.modKey fun k =>
    { k with lowSince := if b.reg (Obj.axisKeystoneResumeMark a) < lm then none else (match k.lowSince with | some t => some t | none => some b.now) }
  let timedOut := b.ring.members.any fun p => match b.keystone.levels.get? p with
    | some r => passed r.at_ (b.reg (Obj.axisKeystoneLevelTimeout a) * tUs + 1) b.now
    | none => true
  if b.keystone.state = 3 then
    if high ≤ lm then b.keyPause a (some (if timedOut then 2 else 1))
    else
      let vc := b.ceilingSpeed
      let v := if lm ≤ pace then vc else max (vc / 16) (vc * (high - lm) / (high - pace))
      b.modAxis a fun x => { x with profile := .page (b.keystone.grid.dir * (v : Int)) }
  else if b.keystone.state = 2 ∧ high ≤ lm then b.keyPause a (some (if timedOut then 2 else 1))
  else b

/-- Every 8 µs a scan-mode pier publishes its drain level (R234). -/
def drainPublish (b : Block) : Block :=
  if !b.scan then b
  else
    let i := b.levelInfo
    let b := (b.setReg (Obj.axisKeystoneLevelLocal 0) i.level).setReg (Obj.axisKeystoneLevelLocal 1) i.level
    let b := b.modKey fun k => { k with levels := k.levels.insert (b.reg Obj.ringPierNumber) ⟨i, b.now⟩ }
    let b := b.sendRing (.level i)
    match b.activeAxis with | some a => b.keyPace a | none => b

/-- A level report arrives (R235); one in the MOT cycle of its timeout wins and is a near miss. -/
def levelReport (p : Nat) (i : LevelInfo) (withTimeout : Bool) (b : Block) : Block :=
  let b := b.modKey fun k => { k with levels := k.levels.insert p ⟨i, b.now⟩ }
  match b.activeAxis with
  | some a => (if withTimeout then b.bump (Obj.axisKeystoneNearMisses a) else b).keyPace a
  | none => b

/-- A pier's latest report has become older than the timeout (R235, R251). -/
def levelTimeout (b : Block) : Block := match b.activeAxis with | some a => b.keyPace a | none => b

/-- The cap has changed (R254): a run-up faster than the new V_c is abandoned; in states 4 to 6 the park position follows. -/
def keyCap (a : AxisId) (b : Block) : Block :=
  if b.keystone.state = 2 ∧ b.ceilingSpeed < b.keystone.vr then b.keyPause a none
  else if b.keystone.state = 4 ∨ b.keystone.state = 5 ∨ b.keystone.state = 6 then b.replan a
  else b

/-- The page follows the line-rate cap in force (R254). -/
def keyFollow (b : Block) : Block :=
  if b.reg Obj.deviceLineRateCap = b.keystone.capSeen then b
  else
    let b := b.modKey fun k => { k with capSeen := b.reg Obj.deviceLineRateCap }
    match b.activeAxis with | some a => b.keyCap a | none => b

/-! ## The page (R232, R239, R246, R257) -/

/-- Why a page start is refused (R51, R232, R257, R263, R266): `othersAgree` says that the paced heads of the other piers carry the
same grid. DEDUCED: a page whose axis has lost its encoder is incompatible, as a claim of that axis is. -/
def pageStartViolations (a : AxisId) (othersAgree : Bool) (b : Block) : List AbortCode :=
  let lines := b.reg (Obj.axisKeystonePageLines a)
  let agree : Bool := match b.pacedHeads with
    | [] => false
    | h :: hs => hs.all fun g => b.headGrid g == b.headGrid h
  let pastEnd : Bool := match b.pacedHeads with
    | h :: _ =>
      let g := b.headGrid h
      let vc := b.ceilingRate * g.pitch.toNat / 256
      let e := g.at_ ((lines : Int) - 1) + g.dir * 256 * (stopCounts vc (b.reg (Obj.axisProfileAccel a)) : Int)
      lines != 0 && b.limitsBind a && (decide (b.regI (Obj.axisProfileLimitHigh a) < e) || decide (e < b.regI (Obj.axisProfileLimitLow a)))
    | [] => false
  (if !b.feature 1 then [.feature] else []) ++
  (if !b.scan ∨ b.activeAxis ≠ some a ∨ !b.isSet (Obj.axisKeystoneEnable a) ∨ b.keystone.state ≠ 0 then [.deviceState] else []) ++
  (if b.axes[a].state ≠ .running then [.notStopped] else []) ++
  (if !b.isSet (Obj.axisPositionValid a) then [.deviceState] else []) ++
  (if !agree || !othersAgree || pastEnd || !b.isSet (Obj.axisEncoderEnable a) then [.incompatible] else [])

/-- A page starts (R239, R242, R245). -/
def pageStart (a : AxisId) (b : Block) : Block :=
  let g := match b.pacedHeads with | h :: _ => b.headGrid h | [] => b.keystone.grid
  let b := b.modKey fun k => { k with grid := g, crossings := [], idleBase := some b.now, approach := false, forced := false,
                                      members := b.ring.members, owedFlags := 0, seam := [], lastApproach := none }
  ((b.setK a (-1)).pageBegun).sendToPark a 1

/-- A run-up begins from park (R239, R247). -/
def runUp (a : AxisId) (b : Block) : Block :=
  let b := ((b.keyState a 2).keyEvent a 26).modKey fun k => { k with approach := false }
  b.modAxis a fun x => { x with profile := .page (b.keystone.grid.dir * (b.keystone.vr : Int)) }

/-- The park position is reached (R239). DEDUCED: a pause forced during the approach to the first park meets its run-up. -/
def parkReached (b : Block) : Block :=
  match b.activeAxis with
  | none => b
  | some a =>
    if b.axes[a].profile ≠ .rest then b
    else if b.keystone.state = 1 then
      let b := b.runUp a
      if b.keystone.forced then b.keyPause a (some 3) else b
    else if b.keystone.state = 5 then (b.keyState a 6).keyEvent a 25
    else b

/-- The axis comes to rest (R239). -/
def pageAtRest (b : Block) : Block :=
  match b.activeAxis with
  | none => b
  | some a =>
    if b.axes[a].profile ≠ .rest then b
    else if b.keystone.state = 4 then b.sendToPark a 5
    else if b.keystone.state = 7 then b.pageIdle a
    else b

/-- Whether a parked page may resume now (R246, R251). -/
def mayResume (a : AxisId) (b : Block) : Bool :=
  b.keystone.state == 6 && b.axes[a].profile == .rest && !b.keystone.forced && b.axes[a].faults.isEmpty && !b.ring.minority &&
  b.keystone.members.all (fun p => b.ring.members.contains p) &&
  (match b.keystone.lowSince with | some t => passed t (b.reg (Obj.axisKeystoneResumeHold a) * tUs) b.now | none => false)

/-- The resume conditions are met (R246); with a pause cause in the same MOT cycle the page stays (R256). -/
def resumeMet (withPause : Bool) (b : Block) : Block :=
  match b.activeAxis with
  | none => b
  | some a =>
    if withPause then b.bump (Obj.axisKeystoneCoincidences a)
    else if b.mayResume a then b.runUp a else b

/-- A forced pause (R251); with a release in the same MOT cycle it stays in force, and a second one acts with it (R256). -/
def forcedPause (a : AxisId) (counted : Bool) (b : Block) : Block :=
  let b := if counted then b.bump (Obj.axisKeystoneCoincidences a) else b
  if b.keystone.state = 0 ∨ b.keystone.state = 7 then b
  else (b.modKey fun k => { k with forced := true }).keyPause a (some 3)

/-- A release (R239, R251): the forced pause ends; state 8 is left, but for reason 7. -/
def pageRelease (a : AxisId) (b : Block) : Block :=
  let b := b.modKey fun k => { k with forced := false }
  if b.keystone.state = 8 ∧ b.keystone.reason ≠ 7 ∧ b.axisReady a then b.sendToPark a 5 else b

/-! ## Idle lines (R242) -/

/-- The next time-idle instant (R242). -/
def idleAt (b : Block) : Option Time := b.keystone.idleBase.map fun t => later t b.idlePeriod

/-- A time-idle instant of the owner (R242): broadcast with its mark, and taken by its own paced heads. -/
def idleTimer (b : Block) : Block :=
  match b.activeAxis, b.idleAt with
  | some _, some t =>
    if b.keystone.state = 0 ∨ b.keystone.state = 3 ∨ b.keystone.approach ∨ !due t b.now then b
    else ((b.modKey fun k => { k with idleBase := some t }).broadcast (.idle t none) t).receiveIdle t none
  | _, _ => b

/-! ## Crossings (R240, R247, R248, R283) -/

/-- The crossing time C of index k (R283): interpolated between the stamps of the last two counted edges, rounded down to a tick. -/
def crossingTime (a : AxisId) (g : Grid) (k : Int) (b : Block) : Time :=
  match b.axes[a].edges with
  | e :: f :: _ =>
    let d := e.count - f.count
    if d = 0 then e.at_
    else
      let into := (g.at_ k - f.count) * fineDiff (stampFine e.at_) (stampFine f.at_) / d
      BitVec.ofNat 64 (fineLater (stampFine f.at_) into.toNat / uTick)
  | e :: _ => e.at_
  | [] => b.now

/-- The owner's local heads of source 3 that the page paces. -/
def localPaced (a : AxisId) (b : Block) : List HeadId :=
  b.pacedHeads.filter fun h => b.reg (Obj.headTriggerSource h) == 3 && b.headAxis h == a

/-- A kept line passes the gate (R240): broadcast and fired. -/
def fireKept (a : AxisId) (m : Meet) (k : Nat) (flags : Nat) (b : Block) : Block :=
  let c := b.crossingTime a b.keystone.grid k
  let first := decide (b.keystone.lastKept < 0)
  let b := (b.setK a k).modKey fun x => { x with crossings := (((k : Int), c) :: x.crossings).take 256, idleBase := some c }
  let b := b.raiseIf first (640 + 32 * a.val + 30)
  let b := (b.broadcast (.crossing k c flags) c).receiveCrossing k c flags
  let b := (b.localPaced a).foldl (fun b h => b.encoderTrigger h m k flags) b
  let lines := b.reg (Obj.axisKeystonePageLines a)
  if lines ≠ 0 ∧ lines ≤ k + 1 then b.pageEnding a else b

/-- The approach line at P_k (R247). -/
def fireApproach (a : AxisId) (k : Int) (b : Block) : Block :=
  let c := b.crossingTime a b.keystone.grid k
  let b := (b.modKey fun x => { x with approach := true, idleBase := some c }).broadcast (.idle c (some k)) c
  let b := (List.finRange 4).foldl (fun b h => if b.reg (Obj.headTriggerSource h) = 4 then b.headIdle c (some k) h else b) b
  (b.localPaced a).foldl (fun (b : Block) h => b.used.idleLine h (some k) (later b.now (b.freeUpTo (150 * tNs))) none) b

/-- The crossing of P_{K−n} (R244, R247): the time-idle lines stop, and the local heads' sequences are set for the first approach line. -/
def approachBegins (a : AxisId) (k : Int) (b : Block) : Block :=
  let b := b.modKey fun x => { x with approach := true, idleBase := some b.now }
  (b.localPaced a).foldl (fun b h => b.illumAhead h k) b

/-- The rejoin (R248, R250): state 3, counted, V_r shown; slower than V_K is a slow rejoin. -/
def rejoin (a : AxisId) (b : Block) : Block :=
  let slow := decide (b.keystone.vr < b.keystone.vk)
  let b := (((b.keyState a 3).bump (Obj.axisKeystoneRejoins a)).keyEvent a 27).setReg (Obj.axisKeystoneRejoinSpeed a) b.keystone.vr
  let b := if slow then (b.bump (Obj.axisKeystoneSlowRejoins a)).keyEvent a 29 else b
  b.modKey fun k => { k with approach := false, owedFlags := 0 }

/-- A coincidence of the page (R256). -/
def keyCount (a : AxisId) (b : Block) : Block := b.bump (Obj.axisKeystoneCoincidences a)

/-- A crossing that the gate would admit meets something else in its MOT cycle (R256): not fired; after a pause or a fault the rejoin line
carries flag 11. -/
def crossingMeets (a : AxisId) (m : CrossMeet) (b : Block) : Block :=
  let b := b.keyCount a
  if m = .ending then b else b.modKey fun x => { x with owedFlags := setBit x.owedFlags 11 }

/-- The page's side of a counted edge (R240, R247, R248, R256): which positions it passed, and what the gate admits. -/
def pageCrossing (a : AxisId) (m : CrossMeet) (meet : Meet) (b : Block) : Block :=
  let k := b.keystone
  let r0 := k.grid.reach b.axes[a].prevCount
  let r1 := k.grid.reach b.axes[a].count
  let n : Int := b.reg (Obj.axisKeystoneApproachLines a)
  let lines : Int := b.reg (Obj.axisKeystonePageLines a)
  let top := if lines = 0 then r1 else min r1 (lines - 1)
  if r1 ≤ r0 ∨ (k.state ≠ 2 ∧ k.state ≠ 3) then b
  else if k.lastKept + 1 ≤ top then
    if m ≠ .alone then b.crossingMeets a m
    else
      let skip := flagIf (decide (k.lastKept + 1 < top)) 13
      let b := if k.state = 2 then b.rejoin a else b
      b.fireKept a meet top.toNat (skip ||| (if k.state = 2 then k.owedFlags else 0))
  else if k.state = 2 ∧ k.lastKept - n < r1 then if m ≠ .alone then b.crossingMeets a m else b.fireApproach a r1
  else if k.state = 2 ∧ k.lastKept - n = r1 then if m = .ending then b.keyCount a else b.approachBegins a (r1 + 1)
  else b

/-- A head of source 3 that no page paces (R85, R86, R231). -/
def localCrossing (a : AxisId) (m : Meet) (h : HeadId) (b : Block) : Block :=
  let g := b.headGrid h
  let r0 := g.reach b.axes[a].prevCount
  let r1 := g.reach b.axes[a].count
  let next : Int := b.heads[h].crossIndex
  if b.reg (Obj.headTriggerSource h) ≠ 3 ∨ b.headAxis h ≠ a ∨ b.heads[h].state ≠ .running ∨ b.activeAxis = some a ∨
      r1 ≤ r0 ∨ r1 < 0 ∨ r1 < next then b
  else b.encoderTrigger h m r1.toNat (flagIf (decide (max (r0 + 1) next < r1)) 13)

/-- The position source without a page on its axis: each crossing of its lowest-numbered source-4 head's grid is broadcast (R87). -/
def freeCrossing (a : AxisId) (b : Block) : Block :=
  match (List.finRange 4).find? fun (h : HeadId) => b.reg (Obj.headTriggerSource h) == 4 && b.heads[h].state == .running with
  | none => b
  | some h =>
    let g := b.headGrid h
    let r0 := g.reach b.axes[a].prevCount
    let r1 := g.reach b.axes[a].count
    if r1 ≤ r0 ∨ r1 < 0 ∨ r1 < b.heads[h].crossIndex then b
    else
      let f := flagIf (decide (max (r0 + 1) (b.heads[h].crossIndex : Int) < r1)) 13
      let c := b.crossingTime a g r1
      (b.broadcast (.crossing r1.toNat c f) c).receiveCrossing r1.toNat c f

/-- The midpoint m of a line from the line before it (R177, R250), in 1/256 count. -/
def midpointFrom (l before : SeamLine) : Frac :=
  let dt := timeDiff l.tE before.tE
  (Frac.ofInt l.position).add (if dt = 0 then ⟨0, 1⟩ else Frac.div ⟨(l.position - before.position) * (l.exposure * 16), 1⟩ ⟨2 * dt, 1⟩)

/-- The newest line of the owner's lowest-numbered paced head enters the seam measurement (R250): at a rejoin, e_seam is formed with the
approach line's speed. -/
def seamLine (a : AxisId) (h : HeadId) (b : Block) : Block :=
  match b.heads[h].lines.getLast? with
  | none => b
  | some l =>
    let e : SeamLine := ⟨l.seq, l.position, l.tE, unitsNs l.exposure⟩
    if l.idle then (if l.approach then b.modKey fun k => { k with lastApproach := some e } else b)
    else
      let before := b.keystone.seam.dropWhile fun x => decide ((l.seq : Int) ≤ x.index)
      let b := match l.flags.testBit 3, before, b.keystone.lastApproach with
        | true, k :: j :: _, some p =>
          if k.index + 1 = l.seq then
            b.setRegI (Obj.axisKeystoneSeamError a)
              (((midpointFrom e p).sub (midpointFrom k j)).sub (Frac.ofInt (b.keystone.grid.dir * b.keystone.grid.pitch))).round
          else b
        | _, _, _ => b
      b.modKey fun k => { k with seam := (e :: before).take 256 }

/-- What fires lines, with the seam measured where it fires one on the owner's lowest-numbered paced head (R250). -/
def withSeam (f : Block → Block) (b : Block) : Block :=
  match b.activeAxis, b.pacedHeads with
  | some a, h :: _ =>
    let c := f b
    if c.heads[h].lineCount = b.heads[h].lineCount then c else c.seamLine a h
  | _, _ => f b

/-- The instant of a broadcast is reached (R87). -/
def broadcastFire (h : HeadId) (m : Meet) (b : Block) : Block := b.withSeam fun b => b.broadcastDue h m

/-- A counted edge reaches a trigger position (R85 to R87, R240, R283). Nothing fires while the position is invalid (R17) or with
a fault in the same MOT cycle (R283). -/
def encoderCrossing (a : AxisId) (m : CrossMeet) (meet : Meet) (b : Block) : Block :=
  if !b.scan ∨ !b.isSet (Obj.axisPositionValid a) ∨ !b.isSet (Obj.axisEncoderEnable a) then b
  else b.withSeam fun b =>
    let b := if m = .fault then b else (List.finRange 4).foldl (fun b h => b.localCrossing a meet h) b
    if b.activeAxis = some a then b.pageCrossing a m meet
    else if b.ownAxis = some a ∧ m ≠ .fault then b.freeCrossing a else b

end Block
end Sys2Proof.Machine
end

