-- ==== Sys2Proof/Machine/HeadStart.lean ====
section
/-! DEFINITION. Starting a head: every check that R95 gathers at step 1, the bank, lock, pin tests and chain count, and taking a head
out of service and back (R16, R51, R63, R66, R67, R70, R73, R78, R83, R95, R101, R174, R202, R224, R225, R263, R292, R296, R303, R305,
R546, R584 to R586). -/
namespace Sys2Proof.Machine.Block

/-! ## Guaranteed demand (R224) -/

/-- f_h in lines/s: the highest line rate that the head's configuration permits, under a pacing ceiling (R224). -/
def headRateUnder (ceiling : Nat) (h : HeadId) (b : Block) : Frac :=
  let own : Frac := Frac.norm ⟨(tSec * uTick : Nat), b.effMin h⟩
  match b.reg (Obj.headTriggerSource h) with
  | 0 | 1 => Frac.norm ⟨tSec, max 1 (b.periodNow h)⟩
  | 2 =>
    match scheduleGaps (b.table (0x6014 + h.val)) with
    | [] => own
    | g :: gs => Frac.norm ⟨tSec, max 1 (gs.foldl min g)⟩
  | 3 | 4 => let c := Frac.ofInt ceiling; if own.le c then own else c
  | _ => own

/-- f_h under the ceiling in force (R224, R236). -/
def headRate (h : HeadId) (b : Block) : Frac := b.headRateUnder b.ceilingInForce h

/-- B_h: bins per line of delayed segments (R176, R224). -/
def delayedBins (h : HeadId) (b : Block) : Nat :=
  if b.reg (Obj.headStitchMode h) = 0 then 0
  else
    let o := b.offsetsOf h (b.activeGeometry h)
    b.bins h * ((List.range 16).filter fun s => b.segmentOn h s && o.getD s 0 != 0).length

/-- Demand of one head in bytes/s. -/
def headDemand (h : HeadId) (b : Block) : Frac := (b.headRate h).mul (Frac.ofInt (b.slotAt h + 4 * b.delayedBins h : Nat))

/-- D_g in bytes/s with every running head and head h (R224). -/
def demandWith (h : HeadId) (b : Block) : Frac :=
  ((List.finRange 4).filter fun g => g == h || b.heads[g].state == .running).foldl (fun d g => d.add (b.headDemand g)) ⟨0, 1⟩

/-! ## Checks of step 1 (R95) -/

/-- The features that a start asks for (R51, R78). -/
def startFeatures (h : HeadId) (b : Block) : Bool :=
  let src := b.reg (Obj.headTriggerSource h)
  (!(src == 1 || src == 2) || b.feature 2) && (!(src == 3 || src == 4) || b.feature 1) &&
  (b.reg (Obj.headOutputFormat h) != 0x10 || b.feature 3) && (!b.scan || b.feature 1) &&
  ((List.finRange 4).all fun r => decide (b.reg (Obj.headIllumRowMa h r.val) ≤ b.reg (Obj.headIllumRowNominal h r.val)) || b.feature 6)

/-- Whether a pair mode is permitted (R67). -/
def pairsOk (h : HeadId) (b : Block) : Bool :=
  let pairs := b.reg (Obj.headPatternPairMode h)
  let mode := b.reg (Obj.headPatternOutMode h)
  let t := b.table (0x6010 + h.val)
  let used := (section0 t ++ section1 t).foldl (fun m e => m ||| e.mask) 0
  pairs == 0 || (b.reg (Obj.headPatternBank h) == 1 &&
    (List.range 8).all fun k => !pairs.testBit k || (mode / 2 ^ (2 * (2 * k + 1)) % 4 == 0 && !used.testBit (2 * k + 1)))

/-- Whether the pattern table drives only table-driven outputs (R70). -/
def masksOk (h : HeadId) (b : Block) : Bool :=
  let mode := b.reg (Obj.headPatternOutMode h)
  let t := b.table (0x6010 + h.val)
  let used := (section0 t ++ section1 t).foldl (fun m e => m ||| e.mask) 0
  (List.range 16).all fun k => !used.testBit k || mode / 2 ^ (2 * k) % 4 == 0

/-- Whether the clamp window stands as R101 asks. -/
def clampWindowOk (h : HeadId) (b : Block) : Bool :=
  let f := b.reg (Obj.headVideoClampFirst h)
  let n := b.reg (Obj.headVideoClampCount h)
  let lead := b.reg (Obj.headLayoutLead h)
  let act := b.reg (Obj.headLayoutActive h)
  let dcc := (b.reg (Obj.headVideoCoupling h) &&& b.reg (Obj.headSegments h)) != 0
  if n = 0 then !dcc
  else (decide (f + n ≤ lead) || (decide (lead + act ≤ f) && decide (f + n ≤ b.readout h))) &&
    (List.range n).all fun i => !b.isBlack h (f + i)

/-- Whether the geometry serves stitching (R174). -/
def stitchOk (h : HeadId) (b : Block) : Bool :=
  b.reg (Obj.headStitchMode h) != 1 ||
  (b.geometryCovers h (b.activeGeometry h) &&
   (!b.scan || decide ((b.offsetsOf h (b.activeGeometry h)).foldl max 0 ≤ 250 * b.regI (Obj.headTriggerPitch h))))

/-- Whether a source is of the pier's mode (R78). -/
def sourceOfMode (h : HeadId) (b : Block) : Bool :=
  let src := b.reg (Obj.headTriggerSource h)
  if b.scan then src == 3 || src == 4 else src != 3 && src != 4

/-- Whether the pulse fits (R296). -/
def pulseOk (h : HeadId) (steps : Nat) (b : Block) : Bool :=
  decide (b.reg (Obj.headIllumPrecharge h) ≤ b.reg (Obj.headIllumPulseDelay h)) &&
  decide ((b.reg (Obj.headIllumPulseDelay h) + b.reg (Obj.headIllumPulseWidth h)) * 4 ≤ steps)

/-- Values that a start finds incompatible (0x0604_0043). -/
def startIncompatible (h : HeadId) (b : Block) : Bool :=
  !layoutOk (b.reg (Obj.headLayoutLead h)) (b.reg (Obj.headLayoutActive h)) (b.reg (Obj.headLayoutTrail h))
    (b.reg (Obj.headLayoutObFirst h)) (b.reg (Obj.headLayoutObCount h)) ||
  !b.pairsOk h || !b.masksOk h || decide (b.reg (Obj.headPatternSampleDelay h) ≤ b.reg (Obj.headPatternCdsRefDelay h)) ||
  !b.sourceOfMode h || (b.reg (Obj.headTriggerSource h) == 2 && scheduleCount (b.table (0x6014 + h.val)) == 0) ||
  !b.clampWindowOk h || !b.stitchOk h ||
  decide (256 < (List.range 4).foldl (fun n k => n + b.reg (Obj.captureHeadShare k)) 0) || b.reg (Obj.captureHeadShare h.val) == 0 ||
  (b.isSet Obj.bufferBudgetEnforce && !(b.demandWith h).le (Frac.ofInt 144000000000)) ||
  (b.reg (Obj.headTriggerSource h) == 3 && !b.isSet (Obj.axisEncoderEnable (b.headAxis h))) ||
  ((List.range 4).any fun r => decide (3 * b.reg (Obj.headIllumRowNominal h r) < b.reg (Obj.headIllumRowMa h r))) ||
  !b.pulseOk h (exposureSteps (b.reg (Obj.headExposure h))) ||
  (!b.masksEqual h && decide (b.effMin h < b.frameTicks h * uTick))

/-- Every check of a head start that needs no measurement (R95 step 1). -/
def headStartViolations (h : HeadId) (b : Block) : List AbortCode :=
  codeIf (!b.startFeatures h) .feature ++ codeIf (b.heads[h].state == .isolated) .isolated ++
  codeIf (b.startIncompatible h) .incompatible ++ codeIf (b.reg Obj.thermalState == 3) .thermalVeto ++
  codeIf (b.heads[h].state != .stopped && b.heads[h].state != .isolated || b.test.taken || b.firmware.recovery ||
    match b.ring.leaderMode with | some m => m != b.reg Obj.deviceMode | none => false) .deviceState

/-! ## Start (R95) -/

/-- What the functions of a head derive at a start at basic (R41, R44): the broadcast delay (R88), the width and the first column (R175),
and the stitching filter (R182, R199). -/
def headDerive (h : HeadId) (b : Block) : Block :=
  let b := b.deriveColumns h
  let b := if b.stitchLevel h = 1 then b else { b with tables := b.tables.erase (0x6030 + h.val) }
  if b.levelInForce (Obj.headPatternLevel h) = 1 then b
  else b.setReg (Obj.headTriggerBroadcastDelay h) ((b.reg Obj.ringConfigured - 1) * 960 + 8000)

/-- Derivations of the functions that a head start starts (R41, R44, R225). -/
def startDerive (h : HeadId) (b : Block) : Block :=
  let b := b.headDerive h
  if b.allStopped && b.levelInForce Obj.captureLevel = 0 then b.setReg Obj.bufferBudgetEnforce 1 else b

/-- Lock time of a clock source (R64). -/
def lockTime (source : Nat) : Nat := if source = 0 then 100 * tUs else if source = 1 then 500 * tUs else tMs

/-- What a head forgets and takes anew when its run begins; flags that it owes stay owed (R11, R119). -/
def freshRun (h : HeadId) (b : Block) (x : Head) : Head :=
  { x with startDeadline := later b.now (lockTime (b.reg (Obj.headClockSource h))), lines := [], edges := [], lastTrigger := none,
           nextDue := none, nextIndex := 0, crossIndex := 0, nextSeq := 0, late := none, steps := exposureSteps (b.reg (Obj.headExposure h)),
           period := b.reg (Obj.headTriggerPeriod h), acceptedRun := 0, firstDone := false, gapRaised := false, owed := [],
           lastWindowEnd := none, afterIdle := false, held := false }

/-- Whether the source of a head's clock can be locked to: ring time is locked, holds over, or is the pier's own (R64, R65). -/
def clockPresent (h : HeadId) (b : Block) : Bool := b.reg (Obj.headClockSource h) != 1 || decide (2 ≤ b.reg Obj.ringTimeState)

/-- A ring-wide start ends when no head of this pier and no other member is left (R426): the write is answered, or the member that wrote is
told. -/
def ringStartCheck (b : Block) : Block :=
  match b.ring.start with
  | none => b
  | some r =>
    if !r.heads.isEmpty || !r.waits.isEmpty then b
    else
      let b := { b with ring := { b.ring with start := none } }
      match r.via with
      | none => b.sendRing (.started r.failedHead)
      | some via => if r.failed then (b.raise 787).replyVia via (.abort .hardware) else (b.raise 786).replyVia via .ok

/-- A head of this pier has locked, or failed, in phase 2 of a ring-wide start (R426). -/
def ringStartHead (h : HeadId) (ok : Bool) (b : Block) : Block :=
  match b.ring.start with
  | none => b
  | some r =>
    if !r.heads.contains h.val then b
    else
      let r := { r with heads := r.heads.filter (· != h.val), failed := r.failed || !ok,
                        failedHead := if ok || r.failedHead.isSome then r.failedHead else some h }
      let b := if ok then b else b.setReg Obj.ringStartFail (b.reg Obj.ringPierNumber * 256 + h.val)
      ({ b with ring := { b.ring with start := some r } } : Block).ringStartCheck

/-- A start fails after step 1 (R95): the head returns to state 0, and the command is answered. `bank`: at the bank, which is logged (R66). -/
def startFail (h : HeadId) (c : AbortCode) (bank : Bool) (bankMv : Nat) (b : Block) : Block :=
  let b := if bank then b.logFault 0x0010 h.val bankMv noSource else b
  ((b.answerStart h (.abort c)).enterStopped h).ringStartHead h false

/-- Step 3 begins (R95): the head waits for its lock. DEDUCED: on clock source 1 the 500 µs of R64 count from the start where ring time is
locked already, and otherwise from its lock. -/
def startLock (h : HeadId) (b : Block) : Block :=
  let demand := b.demandWith h
  let b := b.setReg Obj.bufferDemand (demand.div (Frac.ofInt 1000000)).floor.toNat
  let b := b.captureStart h
  let b := (b.lateOwed h).modHead h (b.freshRun h)
  let b := (((b.videoStart h).illumStart h).tempStart h).modStitch h fun s =>
    { s with history := [], prevs := [], cleanSeen := false, offsets := b.offsetsOf h (b.activeGeometry h) }
  b.modCorr h fun c => { c with autoOwed := b.isSet (Obj.headCalAuto h), clamp := c.clamp.map fun y => { y with fresh := true } }

/-- A start that passed step 1 (R95): state 1, and the bank is measured (R66), where it may fail. -/
def startGo (h : HeadId) (via : List Via) (bankMv : Nat) (b : Block) : Block :=
  let nominal := if b.reg (Obj.headPatternBank h) = 0 then 3300 else 1800
  let b := (b.startDerive h).modHead h fun x => { x with state := .starting, startVia := via, stateSince := b.now }
  let b := b.setReg (Obj.headPatternBankMeasured h) bankMv
  if bankMv * 10 < nominal * 9 ∨ nominal * 11 < bankMv * 10 then b.startFail h .incompatible true bankMv else b.startLock h

/-- A head start by write or task, with what else reaches the head in its cycle (R27, R95, R96, R586). -/
def headStart (h : HeadId) (via : Via) (m : StartMeet) (bankMv : Nat) (b : Block) : Block :=
  match m with
  | .isolate _ => (b.bump (Obj.headServiceCoincidences h)).replyVia via (.abort .isolated)
  | .stop byTask =>
    let task := byTask || (match via with | .task _ => true | .write _ => false)
    ((b.bump (if task then Obj.headTriggerCoincidences h else Obj.deviceCommandCoincidences)).replyVia via (.abort .deviceState)).headStop h
  | .alone | .start _ =>
    let vias := match m with | .start o => [via, o] | _ => [via]
    let task := vias.any fun v => match v with | .task _ => true | .write _ => false
    let b := if m = .alone then b else b.bump (if task then Obj.headTriggerCoincidences h else Obj.deviceCommandCoincidences)
    match firstCode ((b.startDerive h).headStartViolations h) with
    | some c =>
      let b := if b.reg Obj.thermalState = 3 then b.bump Obj.thermalVetoes else b
      vias.foldl (fun b v => b.replyVia v (.abort c)) b
    | none => b.startGo h vias bankMv

/-- Pins shorted in pairs of neighbours (R305): bits 0 to 15 columns, 16 to 19 rows. -/
def pairsOf (shorts : Nat) : List Nat := (List.range 20).filter fun i => shorts.testBit i

/-- The head PLL has not locked within its lock time (R64, R95). Without ring time a head on clock source 1 waits on. -/
def lockTimeout (h : HeadId) (b : Block) : Block :=
  if b.heads[h].state ≠ .starting ∨ !b.clockPresent h ∨ !due b.heads[h].startDeadline b.now then b else b.startFail h .hardware false 0

/-- The head enters state 2 (R66, R95, R233): table-driven outputs at their idle levels, mode-2 outputs started, and a head that a page
holds waits for its next page. -/
def enterRunning (h : HeadId) (b : Block) : Block :=
  let b := b.modHead h fun x => { x with state := .running, everRun := true, lockedOnce := true, stateSince := b.now, held := b.pageHeld h }
  let b := b.outputsRest h (b.outputsOf h 2)
  let b := ((b.setReg (Obj.headClockLocked h) 1).raise (headSource h 7)).raise (headSource h 10)
  ((((b.armFirst h).deriveCeiling).answerStart h .ok).ringStartHead h true).listEnd h

/-- The head PLL locks (R64, R95, R303, R305): step 3 takes at least 40 µs and at most the lock time, so that no lock comes before, and one
after it is a failure to lock; a wrong chain refuses the start; shorted pins are disabled for the run; the head enters state 2. -/
def headLocked (h : HeadId) (shorts : BitVec 20) (chain : Nat) (b : Block) : Block :=
  if b.heads[h].state ≠ .starting ∨ !b.clockPresent h ∨ !passed b.heads[h].stateSince (40 * tUs) b.now then b
  else if timeDiff b.heads[h].startDeadline b.now < 0 then b.lockTimeout h
  else if chain ≠ 16 * b.reg (Obj.headIllumExtDrivers h) then b.startFail h .incompatible false 0
  else
    let b := b.setReg (Obj.headIllumShorts h) shorts.toNat
    (if shorts = 0 then b else (b.logFault 0x0013 h.val shorts.toNat (headSource h 45)).raise (headSource h 45)).enterRunning h

/-! ## Head service (R584 to R586) -/

/-- Why an isolation is refused (R51, R584). -/
def isolateViolations (b : Block) : List AbortCode := codeIf (!b.feature 7) .feature

/-- A head is taken out of service: it stops first, and is isolated once it is in state 0 (R584). `withRelease`: a release or a start
reaches it in the same cycle and loses (R586). -/
def isolate (h : HeadId) (via : Via) (withRelease : Bool) (b : Block) : Block :=
  let b := if withRelease then b.bump (Obj.headServiceCoincidences h) else b
  let b := b.setReg (Obj.headServiceIsolate h) 1
  match b.heads[h].state with
  | .isolated => b.replyVia via .ok
  | .stopped => (b.modHead h fun x => { x with isolateVia := x.isolateVia ++ [via] }).isolateDone h
  | _ => (b.modHead h fun x => { x with isolateVia := x.isolateVia ++ [via] }).headStop h

/-- A head comes back into service (R586). DESIGN CHOICE: a release that reaches a head which is still stopping for its isolation
withdraws the isolation, whose write is answered 0x0800_0022. -/
def release (h : HeadId) (via : Via) (b : Block) : Block :=
  let b := b.setReg (Obj.headServiceIsolate h) 0
  if b.heads[h].state = .isolated then
    let b := (b.modHead h fun x => { x with state := .stopped, stateSince := b.now }).logFault 0x0014 h.val 0 noSource
    (b.raise (headSource h 11)).replyVia via .ok
  else
    let b := b.heads[h].isolateVia.foldl (fun b v => b.replyVia v (.abort .deviceState)) b
    (b.modHead h fun x => { x with isolateVia := [] }).replyVia via .ok

end Sys2Proof.Machine.Block
end

