-- ==== Sys2Proof/Machine/Auxiliary.lean ====
section
/-! DEFINITION. The auxiliary channels: excitation, clamps and lead faults, conversions, filters, linearisation, results, the data FIFO,
the echo outputs and the sequencer (R314 to R357). One AUX cycle of 25 ns is 400 ticks. -/
namespace Sys2Proof.Machine

/-- Ticks of an AUX cycle. -/
def auxCycle : Nat := 400

/-- Weight of B_k at X ÷ T, times (k − 1)! T^(k − 1): the cardinal B-spline of order k on its support (R347). -/
def splineWeight (k x t : Nat) : Int :=
  if k ≤ 1 then (if 0 < x ∧ x ≤ t then 1 else 0)
  else sumInts ((List.range (k + 1)).map fun j =>
    let d : Nat := (x - j * t) ^ (k - 1)
    (if j % 2 = 0 then 1 else -1) * ((Nat.choose k j * d : Nat) : Int))

/-- q of a window boundary: the weighted mean of the samples, rounded half away from zero and limited to 16 bits; nothing when no
sample stands in the support (R347, R348). -/
def filterCode (k t : Nat) (at_ : Time) (samples : List (Time × Int)) : Option Int :=
  let ws := samples.map fun (u, x) => let d := timeDiff at_ u; (if d < 0 then 0 else splineWeight k d.toNat t, x)
  let w := sumInts (ws.map (·.1))
  if w = 0 then none else some (clip (divHalfAway (sumInts (ws.map fun p => p.1 * p.2)) w) (-32768) 32767)

/-- Horner's method in binary64 over F32 coefficients, highest first (R327, R329). -/
def horner (coefs : List Frac) (x : Int) : Frac :=
  coefs.foldl (fun acc c => f64 ((f64 (acc.mul (Frac.ofInt x))).add c)) ⟨0, 1⟩

/-- The n F32 coefficients of a linearisation table from an offset, highest first. -/
def coefsAt (t : List Byte) (off n : Nat) : List Frac :=
  ((List.range n).map fun i => (f32Value (fieldU t (off + 4 * i) 4)).getD ⟨0, 1⟩).reverse

/-- A value limited to I32, and whether it was (R327). -/
def toI32 (v : Int) : Int × Bool := (clip v (-2147483648) 2147483647, decide (v < -2147483648 ∨ 2147483647 < v))

/-- The table value at x, and whether it was extended (R328). -/
def tableValue (t : List Byte) (x : Int) : Int × Bool :=
  let n := fieldU t 0 1
  let px (j : Nat) : Int := fieldI t (0x30 + 8 * j) 4
  let py (j : Nat) : Int := fieldI t (0x34 + 8 * j) 4
  let j := match (List.range (n - 1)).find? fun i => decide (x < px (i + 1)) with | some i => i | none => n - 2
  let v := py j + divHalfAway ((py (j + 1) - py j) * (x - px j)) (px (j + 1) - px j)
  (v, decide (x < px 0) || decide (px (n - 1) < x))

namespace Block

def modAux (f : Aux → Aux) (b : Block) : Block := { b with aux := f b.aux }
def modChannel (n : AuxId) (f : AuxChannel → AuxChannel) (b : Block) : Block :=
  b.modAux fun a => { a with channels := a.channels.set n (f a.channels[n]) }
def modLane (l : Fin 2) (f : Lane → Lane) (b : Block) : Block := b.modAux fun a => { a with lanes := a.lanes.set l (f a.lanes[l]) }

def auxTable (n : AuxId) (b : Block) : List Byte := b.table (0x6040 + n.val)
def seqTable (b : Block) : List Byte := b.table 0x6050
def laneList (l : Fin 2) (b : Block) : List SeqEntry := seqList b.seqTable l.val
def laneEntry (l : Fin 2) (b : Block) : Option SeqEntry := (b.laneList l)[b.aux.lanes[l].entry]?
def channelOf (n : Nat) : AuxId := Fin.ofNat 16 n

/-- Status bits set at once in `aux.status`, with bit 0 (R316, R321, R324). -/
def statusSet (n : AuxId) (mask : Nat) (b : Block) : Block := b.setReg (Obj.auxStatus n) (b.reg (Obj.auxStatus n) ||| mask ||| 1)

/-- A status bit cleared; bit 0 stays until the next result. -/
def statusClear (n : AuxId) (i : Nat) (b : Block) : Block := b.setReg (Obj.auxStatus n) (clearBit (b.reg (Obj.auxStatus n)) i)

/-! ## Excitation (R315, R316) -/

/-- Whether the channel is in one of its sequencer entries: from the start of the settle to the end of the last conversion. -/
def inEntry (n : AuxId) (b : Block) : Bool :=
  (List.finRange 2).any fun l =>
    let x := b.aux.lanes[l]
    match b.laneEntry l with
    | some e => x.inPass && e.ch == n.val && (x.active || decide (x.repeats < e.repeat_))
    | none => false

/-- Whether a channel is the one of a continuous converter (R337). -/
def continuous (n : AuxId) (b : Block) : Bool := b.reg Obj.auxAdcMode != 0 && b.reg Obj.auxAdcContChannel == n.val

/-- Whether a channel's excitation is on (R314, R315). DESIGN CHOICE: switched excitation of a continuous channel, which has no entries, is
on throughout. -/
def excited (n : AuxId) (b : Block) : Bool :=
  (b.aux.state == .running || b.aux.state == .stopping) && decide (2 ≤ b.reg (Obj.auxMode n)) && !b.aux.excOff &&
  (!(b.reg Obj.auxExcSwitched).testBit n.val || b.inEntry n || b.continuous n)

/-- The channels excited, with mode and level or current code (R314, R316, R317). -/
def excitationNow (b : Block) : List (Nat × Nat × Nat) :=
  ((List.finRange 16).filter fun (n : AuxId) => b.excited n).map fun (n : AuxId) =>
    let m := b.reg (Obj.auxMode n)
    (n.val, m, if m = 2 then b.reg (Obj.auxExcLevel n) else b.reg (Obj.auxExcCurrent n))

/-- An operation that may switch the excitation: what it switches leaves (R315). -/
def exciting (f : Block → Block) (b : Block) : Block :=
  let c := f b
  if c.excitationNow = b.excitationNow then c else c.emit (.excitation c.excitationNow)

/-- The excitation-off task; the excitation-on task in the same AUX cycle loses and is counted. -/
def excitationOff (withOn : Bool) (b : Block) : Block :=
  let b := b.exciting fun b => b.modAux fun a => { a with excOff := true }
  if withOn then b.bump Obj.auxCoincidences else b

def excitationOn (b : Block) : Block := b.exciting fun b => b.modAux fun a => { a with excOff := false }

/-- An excitation current above 25 mA in mode 2 (R316). -/
def overload (n : AuxId) (b : Block) : Block :=
  if b.reg (Obj.auxMode n) ≠ 2 ∨ !b.excited n ∨ b.aux.channels[n].overload then b
  else ((b.modChannel n fun c => { c with overload := true }).statusSet n 32).raise (576 + n.val)

def overloadClear (n : AuxId) (b : Block) : Block :=
  if !b.aux.channels[n].overload then b
  else
    let b := b.modChannel n fun c => { c with overload := false }
    if b.aux.excOff then b else b.statusClear n 5

/-- Whether a channel's excitation is not in force, status bit 5 (R325). -/
def noExcitation (n : AuxId) (b : Block) : Bool :=
  let m := b.reg (Obj.auxMode n)
  decide (2 ≤ m) && decide (m ≤ 4) && (b.aux.channels[n].overload || b.aux.excOff)

/-! ## Clamp (R321, R322, R349) -/

/-- A pin passes −0.4 V or 5.4 V: `high` says that the forced code is 0x7FFF. -/
def clampEngage (n : AuxId) (high : Bool) (b : Block) : Block :=
  match b.aux.channels[n].clamp with
  | .engaged _ => b
  | _ =>
    let b := (b.modChannel n fun c => { c with clamp := .engaged high }).setReg (Obj.auxClampFlag n) 1
    ((b.bump (Obj.auxClampEvents n)).statusSet n 2).raise (592 + n.val)

def clampRelease (n : AuxId) (b : Block) : Block :=
  match b.aux.channels[n].clamp with | .engaged high => b.modChannel n fun c => { c with clamp := .recovering high } | _ => b

def clampRecovered (n : AuxId) (b : Block) : Block :=
  match b.aux.channels[n].clamp with | .recovering _ => (b.modChannel n fun c => { c with clamp := .released }).statusClear n 1 | _ => b

/-- A clear of one channel's `clamp_flag`; while the clamp is engaged, or engages in the same AUX cycle, it is counted and does
nothing (R322). -/
def clampClear (n : AuxId) (withEngage : Bool) (b : Block) : Block :=
  match b.aux.channels[n].clamp with
  | .engaged _ => b.bump Obj.auxCoincidences
  | _ => if withEngage then b.bump Obj.auxCoincidences else b.setReg (Obj.auxClampFlag n) 0

/-- The clamp-clear task (R334). -/
def clampClearAll (engaging : BitVec 16) (b : Block) : Block :=
  (List.finRange 16).foldl (fun b (n : AuxId) =>
    if b.isSet (Obj.auxClampFlag n) || engaging.getLsbD n.val then b.clampClear n (engaging.getLsbD n.val) else b) b

/-- The code that a clamped channel's results carry. -/
def forcedCode (n : AuxId) (b : Block) : Option Int :=
  match b.aux.channels[n].clamp with
  | .released => none
  | .engaged high | .recovering high => some (if high then 32767 else -32768)

/-! ## Lead faults (R323, R324) -/

/-- A filter begins anew (R347, R349, R350). -/
def filterReset (n : AuxId) (b : Block) : Block := b.modChannel n fun c => { c with t0 := b.now, windows := 0, samples := [] }

/-- Whether a comparator watches a channel (R323, R596): the sense comparator with `wb.test` while the sequencer runs, the excitation
comparator while the excitation is on. -/
def watched (n : AuxId) (sense : Bool) (b : Block) : Bool :=
  if sense then b.isSet (Obj.auxWbTest n) && b.reg (Obj.auxMode n) != 0 && (b.inEntry n || b.continuous n) else b.excited n

/-- A comparator trips; the first to trip sets bit 2 (R324, R596). -/
def wireBreak (n : AuxId) (sense : Bool) (b : Block) : Block :=
  if b.aux.channels[n].broken ∨ !b.watched n sense then b
  else (((b.modChannel n fun c => { c with broken := true }).statusSet n 4).bump (Obj.auxWireBreaks n)).raise (576 + n.val)

def wireWhole (n : AuxId) (b : Block) : Block :=
  if b.aux.channels[n].broken then ((b.modChannel n fun c => { c with broken := false }).statusClear n 2).filterReset n else b

/-! ## From codes to results (R326 to R329, R351) -/

/-- Ī in pA, the value of the sources used (R317, R318). -/
def meanCurrent (n : AuxId) (b : Block) : Frac :=
  let o := fun (k : Nat) => if b.reg (Obj.auxExcCurrent n) = 0 then Obj.auxExcI250Cal k else Obj.auxExcI1mCal k
  let s1 := b.reg (o (2 * n.val))
  let s2 := b.reg (o (2 * n.val + 1))
  if b.reg (Obj.auxMode n) = 4 ∧ !b.isSet (Obj.auxSwap n) then Frac.ofInt s1 else Frac.norm ⟨(s1 + s2 : Nat), 2⟩

/-- x of a filtered code (R326). -/
def scaledOf (n : AuxId) (q : Int) (b : Block) : Int :=
  let g : Int := ((2 ^ (15 + b.reg (Obj.auxGainInForce n)) : Nat) : Int)
  match b.reg (Obj.auxMode n) with
  | 1 => divHalfAway (q * 250000000) g
  | 2 => divHalfAway (q * 1000000000) g
  | 3 | 4 => (f64 ((f64 (Frac.ofInt (q * 2500000000000000))).div (f64 ((Frac.ofInt g).mul (b.meanCurrent n))))).round
  | _ => 0

/-- The cold-junction term, and whether it is missing (R329). -/
def coldJunction (n : AuxId) (b : Block) : Int × Bool :=
  let k := b.reg (Obj.auxLinCjcChannel n)
  if k = 0xFF then (0, false)
  else if (b.reg (Obj.auxStatus k)).testBit 0 then (0, true)
  else ((horner (coefsAt (b.auxTable n) 0x1C 4) (b.regI (Obj.auxResult k))).round, false)

/-- The result of a filtered code with its status bits (R321, R324 to R329): result, x, status. -/
def linearised (n : AuxId) (q : Int) (forced : Bool) (b : Block) : Int × Int × Nat :=
  let x := b.scaledOf n q
  let broken := b.aux.channels[n].broken
  let (cj, cold) := b.coldJunction n
  let (v, far) : Int × Bool :=
    if broken then (x, false)
    else match b.reg (Obj.auxLinMode n) with
      | 1 => toI32 (horner (coefsAt (b.auxTable n) 4 6) (x + cj)).round
      | 2 =>
        let (y, out) := tableValue (b.auxTable n) (x + cj)
        let (y, lim) := toI32 y
        (y, out || lim)
      | _ => (x, false)
  let st := (if far then 64 else 0) + (if b.noExcitation n then 32 else 0) + (if cold then 16 else 0) +
    (if q = 32767 ∨ q = -32768 then 8 else 0) + (if broken then 4 else 0) + (if forced then 2 else 0)
  (v, x, if st % 64 = 0 then st else st + 1)

/-- A word enters the FIFO, or is dropped at a full one (R352). -/
def fifoWrite (n : AuxId) (v q : Int) (st : Nat) (at_ : Time) (b : Block) : Block :=
  if !(b.reg Obj.auxFifoChannels).testBit n.val then b
  else if 256 ≤ b.aux.fifo.length then ((b.modAux fun a => { a with lost := true }).bump Obj.auxFifoOverruns).raise 614
  else
    let w := leBytes 4 (ofSigned 32 v) ++ leBytes 2 (ofSigned 16 q) ++
      [BitVec.ofNat 8 (n.val + if b.aux.lost then 128 else 0), BitVec.ofNat 8 st] ++ leBytes 8 (at_.toNat / 400 * 400)
    let b := b.modAux fun a => { a with fifo := a.fifo ++ [w], lost := false }
    b.raiseIf (b.aux.fifo.length == b.reg Obj.auxFifoDmaMark) 613

/-- A result is published (R351): objects, event, FIFO, and the heads whose bar or lamp-board channel it is. -/
def publish (n : AuxId) (q : Int) (forced : Bool) (at_ : Time) (b : Block) : Block :=
  let (v, x, st) := b.linearised n q forced
  let b := ((b.setRegI (Obj.auxResult n) v).setRegI (Obj.auxScaled n) x).setReg (Obj.auxStatus n) st
  let b := (b.modChannel n fun c => { c with fresh := true }).raise (616 + n.val)
  let b := b.fifoWrite n v q st at_
  let valid := st % 2 == 0
  (List.finRange 4).foldl (fun b (h : HeadId) =>
    let b := if b.reg (Obj.headCorrBarChannel h) = n.val then b.barResult h valid v else b
    if b.reg (Obj.headIllumBoardChannel h) = n.val then b.boardResult h valid v else b) b

/-- T_w in AUX cycles (R347). -/
def windowCycles (n : AuxId) (b : Block) : Nat :=
  (divHalfAway 40000000000 (b.reg (Obj.auxFiltNotch n) : Int)).toNat

/-- `filt.notch_in_force` (R347). -/
def notchInForce (n : AuxId) (b : Block) : Nat := 40000000000 / b.windowCycles n

/-- A sample reaches the filter (R347, R349); at order 0 it is a result of its own. -/
def admitSample (n : AuxId) (at_ : Time) (x : Int) (b : Block) : Block :=
  let forced := b.forcedCode n
  if b.reg (Obj.auxFiltOrder n) = 0 then
    match forced with
    | some q => b.publish n q true at_
    | none => b.publish n (clip x (-32768) 32767) false at_
  else if forced.isSome then b
  else b.modChannel n fun c => { c with samples := c.samples ++ [(at_, x)] }

/-- A window boundary of a filter (R347, R348). -/
def windowBoundary (n : AuxId) (b : Block) : Block :=
  let k := b.reg (Obj.auxFiltOrder n)
  let tw := b.windowCycles n * auxCycle
  let c := b.aux.channels[n]
  let i := c.windows + 1
  let at_ := later c.t0 (i * tw)
  if k = 0 ∨ (b.aux.state ≠ .running ∧ b.aux.state ≠ .stopping) ∨ !due at_ b.now then b
  else
    let held := c.samples.filter fun s => decide (timeDiff at_ s.1 < (k * tw : Nat))
    let b := b.modChannel n fun c => { c with windows := i, samples := held }
    if i < k then b
    else match b.forcedCode n with
      | some q => b.publish n q true at_
      | none =>
        match filterCode k tw at_ (held.filter fun s => decide (0 ≤ timeDiff at_ s.1)) with
        | some q => b.publish n q false at_
        | none => b.bump (Obj.auxEmptyWindows n)

/-! ## Conversions (R319, R337 to R343, R350) -/

/-- A gain write that waits, or a gain loaded at reset, takes force and the filter begins anew (R350). -/
def gainTake (n : AuxId) (b : Block) : Block :=
  if b.aux.channels[n].gainWaits || b.reg (Obj.auxAmpGain n) != b.reg (Obj.auxGainInForce n) then
    ((b.setReg (Obj.auxGainInForce n) (b.reg (Obj.auxAmpGain n))).modChannel n fun c =>
      { c with gainWaits := false, gainAt := some b.now }).filterReset n
  else b

/-- Whether an instant lies within the 2 µs after another. -/
def within2us (start : Time) (since : Option Time) : Bool :=
  match since with | some u => let d := timeDiff start u; decide (0 ≤ d) && decide (d < (2 * tUs : Nat)) | none => false

/-- The converter's code with the sign that the chop reversed restored (R319). -/
def restored (n : AuxId) (code : BitVec 16) (b : Block) : Int :=
  if b.isSet (Obj.auxAmpChop n) && b.aux.reversed then -code.toInt else code.toInt

/-- Whether a channel forms its samples from pairs (R318). -/
def paired (n : AuxId) (b : Block) : Bool := b.isSet (Obj.auxSwap n) && (b.reg (Obj.auxMode n) == 3 || b.reg (Obj.auxMode n) == 4)

/-- An execution has taken its samples (R342): the next begins at once, or DELAY follows and the lane moves on; the last entry ends
the pass. DESIGN CHOICE: the pass event is raised with the last sample; the last entry's DELAY holds only the next pass start. -/
def executionEnd (l : Fin 2) (e : SeqEntry) (b : Block) : Block :=
  b.exciting fun b =>
  let b := b.modLane l fun x => { x with active := false, readyAt := b.now }
  if 0 < b.aux.lanes[l].repeats then b
  else
    let b := b.modLane l fun x => { x with entry := x.entry + 1, readyAt := later b.now (e.delay * auxCycle) }
    if !e.last then b.modLane l fun x => { x with repeats := ((b.laneEntry l).map (·.repeat_)).getD 0 }
    else
      let b := b.modLane l fun x => { x with inPass := false, passes := x.passes + 1 }
      (b.setReg (Obj.auxSeqPassesDone l) b.aux.lanes[l].passes).raise (610 + l.val)

/-- A sample of a lane is taken. -/
def sampleTaken (l : Fin 2) (e : SeqEntry) (at_ : Time) (x : Int) (b : Block) : Block :=
  let b := (b.modLane l fun y => { y with samples := y.samples - 1, pairA := none }).admitSample (channelOf e.ch) at_ x
  if b.aux.lanes[l].samples = 0 then b.executionEnd l e else b

/-- A conversion of a lane ends (R318, R319, R342, R343); it began 1 µs earlier. -/
def laneConversion (l : Fin 2) (code : BitVec 16) (b : Block) : Block :=
  let x := b.aux.lanes[l]
  match b.laneEntry l with
  | none => b
  | some e =>
    if !x.active then b
    else if 0 < x.discard then b.modLane l fun y => { y with discard := y.discard - 1 }
    else
      let n := channelOf e.ch
      let start := b.now - BitVec.ofNat 64 tUs
      if b.isSet (Obj.auxAmpChop n) && within2us start b.aux.chopAt then
        (b.modLane l fun y => { y with pairA := none }).bump Obj.auxChopRepeats
      else
        let v := b.restored n code
        if b.paired n then
          match x.pairA with
          | none => b.modLane l fun y => { y with pairA := some (v, start) }
          | some (a, ta) =>
            let s := divHalfAway (if b.reg (Obj.auxMode n) = 3 then a + v else a - v) 2
            b.sampleTaken l e (later ta ((timeDiff start ta).toNat / 2)) s
        else b.sampleTaken l e start v

/-- A conversion of a continuous converter ends (R338, R339, R350). -/
def contConversion (code : BitVec 16) (b : Block) : Block :=
  let n := channelOf (b.reg Obj.auxAdcContChannel)
  let start := b.now - BitVec.ofNat 64 tUs
  let chopped := b.isSet (Obj.auxAmpChop n) && within2us start b.aux.chopAt
  let pulsed := b.isSet (Obj.auxWbTest n) && within2us start b.aux.pulseAt
  if b.aux.state ≠ .running ∨ chopped ∨ pulsed ∨ within2us start b.aux.channels[n].gainAt then b
  else b.admitSample n start (b.restored n code)

/-- A conversion of SAR A or B ends (R337). -/
def conversion (sar : Fin 2) (code : BitVec 16) (b : Block) : Block :=
  match b.reg Obj.auxAdcMode, sar with
  | 2, _ => b.contConversion code
  | 1, 1 => b.contConversion code
  | _, l => b.laneConversion l code

/-- A chop reversal (R343, R350): the continuous channel's gain takes force here. -/
def chopReversal (b : Block) : Block :=
  let b := b.modAux fun a => { a with reversed := !a.reversed, chopAt := some b.now }
  if b.reg Obj.auxAdcMode = 0 then b else b.gainTake (channelOf (b.reg Obj.auxAdcContChannel))

/-- The test pulse of a continuous channel; `moved` says that its pair moved more than 1.2 V (R339). -/
def testPulse (moved : Bool) (b : Block) : Block :=
  let n := channelOf (b.reg Obj.auxAdcContChannel)
  if b.reg Obj.auxAdcMode = 0 ∨ b.aux.state ≠ .running ∨ !b.isSet (Obj.auxWbTest n) then b
  else
    let b := b.modAux fun a => { a with pulseAt := some b.now }
    if moved then b.wireBreak n true else b

/-! ## The sequencer (R342 to R346) -/

/-- Whether a lane may begin another pass. -/
def passesLeft (l : Fin 2) (b : Block) : Bool :=
  let n := b.reg Obj.auxSeqPasses
  n == 0 || decide (b.aux.lanes[l].passes < n)

/-- A pass of a lane starts, or its start waits for the previous pass and is late (R344). -/
def passStart (l : Fin 2) (b : Block) : Block :=
  let x := b.aux.lanes[l]
  let p := b.reg (Obj.auxSeqPeriod l)
  if b.aux.state ≠ .running ∨ (b.laneList l).isEmpty ∨ !b.passesLeft l then b
  else if p ≠ 0 ∧ !due x.nextPass b.now then b
  else if x.inPass ∨ !due x.readyAt b.now then
    if p = 0 ∨ x.late then b
    else ((b.modLane l fun y => { y with late := true }).bump Obj.auxSeqLatePasses).raise 612
  else
    b.modLane l fun y => { y with inPass := true, late := false, entry := 0, readyAt := b.now,
                                  nextPass := if p = 0 then y.nextPass else later y.nextPass (p * auxCycle),
                                  repeats := ((b.laneList l).head?.map (·.repeat_)).getD 0 }

/-- An execution begins with its settle (R342): the converter switches to the channel, and a gain that waits takes force. -/
def execution (l : Fin 2) (b : Block) : Block :=
  let x := b.aux.lanes[l]
  match b.laneEntry l with
  | none => b
  | some e =>
    if b.aux.state ≠ .running ∨ !x.inPass ∨ x.active ∨ x.repeats = 0 ∨ !due x.readyAt b.now then b
    else
      b.exciting fun b => (b.modLane l fun y => { y with active := true, repeats := y.repeats - 1, discard := e.discard, samples := e.conv, pairA := none }).gainTake
        (channelOf e.ch)

/-- Length of one execution in AUX cycles (R342). -/
def executionCycles (e : SeqEntry) (b : Block) : Nat :=
  40 * (if b.paired (channelOf e.ch) then e.discard + 6 * e.conv else 2 + e.discard + e.conv)

/-- Period of a lane for the check of R345: its own, or the length of one pass. -/
def lanePeriod (l : Fin 2) (b : Block) : Nat :=
  let p := b.reg (Obj.auxSeqPeriod l)
  if p ≠ 0 then p else (b.laneList l).foldl (fun n e => n + e.repeat_ * b.executionCycles e + e.delay) 0

/-- Why a start of the sequencer is refused (R345, R346, R571). -/
def seqViolations (b : Block) : List AbortCode :=
  let mode := b.reg Obj.auxAdcMode
  let cont := b.reg Obj.auxAdcContChannel
  let la := b.laneList 0
  let lb := b.laneList 1
  let chs := fun (l : List SeqEntry) => l.map (·.ch)
  let contUsed := mode == 1 || mode == 2
  let short := fun (l : Fin 2) => (b.laneList l).any fun e =>
    b.reg (Obj.auxFiltOrder e.ch) != 0 && decide (b.windowCycles (channelOf e.ch) < b.lanePeriod l)
  codeIf ((chs la).any fun c => (chs lb).contains c) .conflict ++
  codeIf ((mode == 1 && (chs la).contains cont) || (mode == 2 && ((chs la).contains cont || (chs lb).contains cont))) .conflict ++
  codeIf ((la ++ lb).any (fun e => b.reg (Obj.auxMode e.ch) == 0) || (contUsed && b.reg (Obj.auxMode cont) == 0)) .incompatible ++
  codeIf (contUsed && b.paired (channelOf cont)) .incompatible ++
  codeIf ((contUsed && !lb.isEmpty) || (mode == 2 && !la.isEmpty)) .incompatible ++
  codeIf (short 0 || short 1) .incompatible ++
  codeIf (b.aux.state == .stopping || b.aux.state == .faulted || b.test.taken) .deviceState

def freshLane (t : Time) : Lane := ⟨0, 0, false, 0, 0, none, false, t, t, false, 0⟩

/-- The sequencer begins to run (R346): state 2, filters and lanes anew. -/
def seqRun (b : Block) : Block :=
  let via := b.aux.startVia
  let b := b.exciting fun b => b.modAux fun a =>
    { a with state := .running, startVia := [], lanes := Vector.replicate 2 (freshLane b.now),
             channels := a.channels.map fun c => { c with t0 := b.now, windows := 0, samples := [], fresh := false } }
  let b := ((b.setReg (Obj.auxSeqPassesDone 0) 0).setReg (Obj.auxSeqPassesDone 1) 0).raise 608
  via.foldl (fun b v => b.replyVia v .ok) b

/-- A start by command or task (R27, R345, R346): with a stop in the same AUX cycle it is refused, two starts act once. A start that finds
the sequencer starting or running changes nothing and succeeds. -/
def seqStart (via : Via) (m : StartMeet) (b : Block) : Block :=
  let b := b.startMeets m via Obj.auxCoincidences
  let vias := match m with | .start o => [via, o] | _ => [via]
  match m with
  | .stop _ => b.replyVia via (.abort .deviceState)
  | _ =>
    match firstCode b.seqViolations with
    | some c => vias.foldl (fun b v => b.replyVia v (.abort c)) (if isTask via then b.bump Obj.auxCoincidences else b)
    | none =>
      match b.aux.state with
      | .running => vias.foldl (fun b v => b.replyVia v .ok) b
      | .starting => b.modAux fun a => { a with startVia := a.startVia ++ vias }
      | _ =>
        let b := b.modAux fun a => { a with state := .starting, startVia := vias, refOn := true }
        if b.aux.refReady then b.seqRun else b

/-- The reference buffer goes off unless it stays on while stopped (R346). -/
def refStop (b : Block) : Block :=
  if b.isSet Obj.auxRefEarly then b else (b.modAux fun a => { a with refOn := false, refReady := false }).setReg Obj.auxRefReady 0

/-- A stop by command or task (R27, R346): lanes finish their execution; a starting sequencer refuses its start, and so is a start in the
same AUX cycle refused. -/
def seqStop (via : Via) (m : StartMeet) (b : Block) : Block :=
  let b := b.startMeets m via Obj.auxCoincidences
  let b := match m with | .start o => b.replyVia o (.abort .deviceState) | _ => b
  match b.aux.state with
  | .running => (b.modAux fun a => { a with state := .stopping }).replyVia via .ok
  | .starting =>
    let b := b.aux.startVia.foldl (fun b v => b.replyVia v (.abort .deviceState)) b
    (((b.modAux fun a => { a with state := .stopped, startVia := [] }).refStop).raise 609).replyVia via .ok
  | .faulted => (b.modAux fun a => { a with state := .stopped }).replyVia via .ok
  | _ => b.replyVia via .ok

/-- Whether a lane has nothing more to do. -/
def laneDone (l : Fin 2) (b : Block) : Bool :=
  !b.aux.lanes[l].active &&
  (b.aux.state == .stopping || (b.laneList l).isEmpty || (!b.aux.lanes[l].inPass && !b.passesLeft l))

/-- Each lane has finished (R344, R346): state 0, the excitation off, the buffer as `aux.ref.early` says. A sequencer without
passes to count, or with a continuous converter, ends only on a stop. -/
def seqStopped (b : Block) : Block :=
  let counted := b.reg Obj.auxSeqPasses != 0 && b.reg Obj.auxAdcMode == 0
  if (b.aux.state = .stopping ∨ (b.aux.state = .running ∧ counted)) ∧ b.laneDone 0 ∧ b.laneDone 1 then
    ((b.exciting fun b => b.modAux fun a => { a with state := .stopped }).refStop).raise 609
  else b

/-- The reference-on task (R346). -/
def refBufferOn (b : Block) : Block := b.modAux fun a => { a with refOn := true }

/-- The reference buffer has settled (R346). -/
def refBufferReady (b : Block) : Block :=
  if !b.aux.refOn ∨ b.aux.refReady then b
  else
    let b := ((b.modAux fun a => { a with refReady := true }).setReg Obj.auxRefReady 1).raise 615
    if b.aux.state = .starting then b.seqRun else b

/-! ## The FIFO (R352, R446) -/

/-- A dictionary read of the oldest word. -/
def fifoRead (r : Route) (b : Block) : Block :=
  match b.aux.fifo with
  | [] => b.reply r (.abort .deviceState)
  | w :: ws => (b.modAux fun a => { a with fifo := ws }).reply r (.data w)

/-- A BAR0 read: one word, or 0xFF bytes. -/
def fifoBarReadPart (off size : Nat) (b : Block) : Block :=
  match b.aux.fifo with
  | [] => b.emit (.bar0 (List.replicate size 0xFF))
  | w :: ws => (b.modAux fun a => { a with fifo := ws }).emit (.bar0 (slice w off size))

/-- A read of the whole word. -/
def fifoBarRead (b : Block) : Block := b.fifoBarReadPart 0 16

def fifoFlush (b : Block) : Block := b.modAux fun a => { a with fifo := [] }

/-! ## Echo outputs (R331, R332) -/

/-- The output of an echo: the mapped value, or `echo.fault` (R332). -/
def echoOut (e : EchoId) (b : Block) : Int :=
  let n := channelOf (b.reg (Obj.echoSource e))
  let valid := b.reg (Obj.auxStatus n) % 2 == 0 && b.reg (Obj.auxMode n) != 0 && b.aux.channels[n].fresh
  if !valid then b.regI (Obj.echoFault e)
  else
    let lo := b.regI (Obj.echoValueLo e)
    let hi := b.regI (Obj.echoValueHi e)
    let v := clip (b.regI (Obj.auxResult n)) lo hi
    let p := f64 (Frac.ofInt ((v - lo) * (b.regI (Obj.echoOutHi e) - b.regI (Obj.echoOutLo e))))
    let q := f64 ((f64 (p.div (Frac.ofInt (hi - lo)))).add (Frac.ofInt (b.regI (Obj.echoOutLo e))))
    (q.add ⟨1, 2⟩).floor

/-- Ticks of an AUX cycle: the domain runs at 40 MHz. -/
def tAux : Nat := 400

/-- A period of an echo starts (R331): its value takes force; off, the pin is low or released. -/
def echoPeriod (e : EchoId) (b : Block) : Block :=
  let out := b.echoOut e
  let drain := (b.reg Obj.echoDrive).testBit e.val
  match b.reg (Obj.echoMode e) with
  | 1 =>
    let period := b.reg (Obj.echoPeriod e) * 40
    let high := (divHalfAway (out * period) 65536).toNat
    (b.modAux fun a => { a with echoes := a.echoes.set e { a.echoes[e] with busyUntil := some (later b.now (period * tAux)) } }).emit
      (.echo e.val drain high (period - high))
  | 2 =>
    let half := 5120000000000 / (max out 1).toNat
    let f := b.aux.echoes[e].fraction
    let first := f + half
    let second := first % 256 + half
    let ends := later b.now ((first / 256 + second / 256) * tAux)
    (b.modAux fun a => { a with echoes := a.echoes.set e ⟨second % 256, some ends⟩ }).emit (.echo e.val drain (first / 256) (second / 256))
  | _ => (b.modAux fun a => { a with echoes := a.echoes.set e { a.echoes[e] with busyUntil := none } }).emit (.echo e.val drain 0 0)

end Block
end Sys2Proof.Machine
end

