-- ==== Sys2Proof/Machine/HostQueue.lean ====
section
/-! DEFINITION. Delivery queues in host memory, interrupt causes and MSI-X (R447 to R455). -/
namespace Sys2Proof.Machine.Block

def modHost (f : HostPort → HostPort) (b : Block) : Block := { b with host := f b.host }
def modQueue (q : QueueId) (f : Queue → Queue) (b : Block) : Block :=
  b.modHost fun x => { x with queues := x.queues.set q (f x.queues[q]) }

/-! ## Interrupts (R453 to R455) -/

/-- The vector of a cause; every cause uses vector 0 without feature bit 5 (R453). -/
def vectorOf (cause : Nat) (b : Block) : Fin 64 := if b.feature 5 then Fin.ofNat 64 (b.reg (Obj.hostVector cause)) else 0

/-- The PCI cycle of an instant: the domain runs at 1.0 GHz. -/
def pciCycle (t : Time) : Nat := t.toNat / tNs

/-- A message of a vector is sent, or pends while its table entry is masked (R454). Causes that share a vector and fire within one PCI
cycle send one message. -/
def msixSend (v : Fin 64) (b : Block) : Block :=
  if b.host.msix[v].masked then b.modHost fun x => { x with pending := setBit x.pending v.val }
  else if b.host.msix[v].sentIn = some (pciCycle b.now) then b
  else (b.modHost fun x => { x with msix := x.msix.set v { x.msix[v] with sentIn := some (pciCycle b.now) } }).emit (.msix v.val)

/-- An interrupt cause fires: its bit is set, and its message sent unless the cause mask suppresses it (R454, R455). -/
def fireCause (n : Nat) (b : Block) : Block :=
  let b := b.modHost fun x => { x with causes := setBit x.causes n }
  if b.host.causeMask.testBit n then b else b.msixSend (b.vectorOf n)

/-- Writing 1 to bits of the cause register clears them, except those of causes that fire in the same PCI cycle (R455). -/
def clearCauses (mask firing : Nat) (b : Block) : Block := b.modHost fun x => { x with causes := clearBits x.causes (clearBits mask firing) }

/-! ## Queues (R447 to R452) -/

def queueSize (q : QueueId) (b : Block) : Nat := 2 ^ b.reg (Obj.hostQueueSizeLog2 q)
def queueW (q : QueueId) (b : Block) : Nat := b.reg (Obj.hostQueueWritePos q)
def queueA (q : QueueId) (b : Block) : Nat := b.reg (Obj.hostQueueAckPos q)

/-- The queue of a stream channel (R447). -/
def queueOf (c : Nat) (b : Block) : QueueId := Fin.ofNat 16 (b.reg (Obj.hostStreamQueue (c - 4)))

/-- Fill of a queue in bytes, and in 1/65,536 of its size (R448): the positions are free-running 64-bit counts. -/
def queueFill (q : QueueId) (b : Block) : Nat := (b.queueW q + 2 ^ 64 - b.queueA q) % 2 ^ 64
def queueFraction (q : QueueId) (b : Block) : Nat := b.queueFill q * 65536 / b.queueSize q

/-- Progress on a queue (R449, R453): its interrupt fires once W has advanced by the coalesce bytes, or waits for the timer. -/
def queueProgress (q : QueueId) (b : Block) : Block :=
  let gap := (b.queueW q + 2 ^ 64 - b.host.queues[q].signalled) % 2 ^ 64
  if b.reg (Obj.hostQueueCoalesceBytes q) ≤ gap then
    (b.modQueue q fun x => { x with signalled := b.queueW q, unsignalled := none }).fireCause (8 + q.val)
  else b.modQueue q fun x => { x with unsignalled := if x.unsignalled.isSome then x.unsignalled else some b.now }

/-- A slot enters the ring at W and W is written to the shadow address (R448). -/
def queuePut (q : QueueId) (channel : Nat) (slot : List Byte) (b : Block) : Block :=
  let own := b.reg Obj.ringPierNumber
  let base := b.reg (Obj.hostQueueBase q)
  let at_ := b.queueW q % b.queueSize q
  let first := min slot.length (b.queueSize q - at_)
  let b := b.emit (.hostWrite own (base + at_) (slot.take first))
  let b := if first < slot.length then b.emit (.hostWrite own base (slot.drop first)) else b
  let w := (b.queueW q + slot.length) % 2 ^ 64
  let empty := b.queueFill q == 0
  let b := b.setReg (Obj.hostQueueWritePos q) w
  let b := b.modQueue q fun x => { x with slots := x.slots ++ [(w, channel)], movedAt := if empty then b.now else x.movedAt }
  (b.emit (.hostWrite own (b.reg (Obj.hostQueueShadow q)) (leBytes 8 w))).queueProgress q

/-- The coalesce time after the first unsignalled slot (R449). -/
def coalesceTimer (q : QueueId) (b : Block) : Block :=
  let us := b.reg (Obj.hostQueueCoalesceUs q)
  match b.host.queues[q].unsignalled with
  | none => b
  | some t =>
    if us = 0 ∨ !passed t (us * tUs) b.now then b
    else (b.modQueue q fun x => { x with signalled := b.queueW q, unsignalled := none }).fireCause (8 + q.val)

/-- A's stall time passes (R452); a move of A in the same PCI cycle wins and is a near miss. -/
def stallTimer (q : QueueId) (withMove : Bool) (b : Block) : Block :=
  let us := b.reg (Obj.hostQueueStallUs q)
  let x := b.host.queues[q]
  if us = 0 ∨ x.stalled ∨ b.queueFill q = 0 ∨ !passed x.movedAt (us * tUs) b.now then b
  else if withMove then b.bump Obj.hostNearMisses
  else ((b.modQueue q fun x => { x with stalled := true }).bump Obj.hostStalls).raise 840

/-- An error of a queue: its bit, its event and cause 40 (R451, R453). -/
def queueFail (q : QueueId) (b : Block) : Block := ((b.modQueue q fun x => { x with error := true }).raise 841).fireCause 40

/-- Whether the hysteresis of a destination queue admits beats after a look at its fill (R395). -/
def hysteresis (open_ : Bool) (f high low : Nat) : Bool := if open_ then decide (f < high) else decide (f ≤ low)

/-- The queues of the host are looked at before a beat (R395, R459). -/
def queueMarks (q : QueueId) (high low : Nat) (b : Block) : Block :=
  let was := b.host.queues[q].open_
  let now := hysteresis was (b.queueFraction q) high low
  if was = now then b else (b.modQueue q fun x => { x with open_ := now }).raise (if now then 839 else 838)

end Sys2Proof.Machine.Block
end

