-- ==== Sys2Proof/Machine/Link.lean ====
section
/-! DEFINITION. The link of the span ring: the way to a pier, and the frames that leave on a span (R406, R407, R410, R415, R417). -/
namespace Sys2Proof.Machine.Block

def modRing (f : Ring → Ring) (b : Block) : Block := { b with ring := f b.ring }
def modSpan (s : SpanId) (f : Span → Span) (b : Block) : Block := b.modRing fun r => { r with spans := r.spans.set s (f r.spans[s]) }
def pier (b : Block) : Nat := b.reg Obj.ringPierNumber
def spanUp (s : SpanId) (b : Block) : Bool := decide (2 ≤ b.reg (Obj.spanState s))

/-! ## Routing (R415 to R418) -/

/-- Hops to a pier through the span-1 and the span-0 direction; nothing where the ring is open on the way (R415). -/
def hopsTo (p : Nat) (b : Block) : Option Nat × Option Nat :=
  let n := max 1 (b.reg Obj.ringConfigured)
  let up := (p + n - b.pier % n) % n
  let down := (b.pier % n + n - p % n) % n
  let crosses (from_ k : Nat) := match b.ring.wrapAfter with
    | some w => decide ((w + n - from_ % n) % n < k)
    | none => false
  (if crosses b.pier up || (up != 0 && !b.spanUp 1) then none else some up,
   if crosses (b.pier + n - down) down || (down != 0 && !b.spanUp 0) then none else some down)

/-- The fewest hops to a pier. -/
def fewest (p : Nat) (b : Block) : Option Nat :=
  match b.hopsTo p with
  | (some u, some d) => some (min u d)
  | (some u, none) => some u
  | (none, d) => d

/-- The span on the way to a pier: fewer hops; on equal hops span 0 for heads 0 and 1, span 1 for heads 2 and 3 (R415). -/
def spanTo (h p : Nat) (b : Block) : Nat :=
  match b.hopsTo p with
  | (some u, some d) => if u < d then 1 else if d < u then 0 else if h < 2 then 0 else 1
  | (some _, none) => 1
  | _ => 0

/-- The span by which tunnel frames, ring DMA and acknowledgements leave for a pier: the fewest hops, on equal hops span 0 (R417). -/
def frameSpan (p : Nat) (b : Block) : SpanId := if b.spanTo 0 p = 1 then 1 else 0

/-! ## Frames (R406, R407, R410) -/

/-- Bytes of data frames. -/
def frameBytes (fs : List (Nat × Frame)) : Nat := fs.foldl (fun n f => n + f.2.bytes.length) 0

/-- The frames that stay for a replay: the last 256 KiB (R406). -/
def keepSent : List (Nat × Frame) → List (Nat × Frame)
  | [] => []
  | f :: fs => if 262144 < frameBytes (f :: fs) then keepSent fs else f :: fs

/-- A frame leaves under the next frame sequence, and stays for a replay (R406). -/
def transmit (s : SpanId) (f : Frame) (b : Block) : Block :=
  let seq := b.ring.spans[s].txSeq
  (b.modSpan s fun x => { x with txSeq := (seq + 1) % 4096, sent := keepSent (x.sent ++ [(seq, f)]) }).emit (.frame s.val seq f)

/-- A frame is given to a span: during a changeover it waits (R410); a span that is down loses it. -/
def sendFrame (s : SpanId) (f : Frame) (b : Block) : Block :=
  if !b.spanUp s then b
  else if b.ring.spans[s].changing.isSome then b.modSpan s fun x => { x with waiting := x.waiting ++ [f] }
  else b.transmit s f

/-- The frames that a changeover has held leave in class order: acknowledgements, tunnel, record, ring DMA (R407, R410). -/
def sendWaiting (s : SpanId) (b : Block) : Block :=
  let held := b.ring.spans[s].waiting
  let b := b.modSpan s fun x => { x with waiting := [] }
  ((List.range 4).flatMap fun c => held.filter fun f => f.cls == c).foldl (fun b f => b.transmit s f) b

/-- A write of the memory of an abutment's host: on this pier's endpoint, or as a ring-DMA frame to the abutment (R381, R382). -/
def hostWriteTo (p address : Nat) (bytes : List Byte) (b : Block) : Block :=
  if p = b.pier then b.emit (.hostWrite p address bytes)
  else b.sendFrame (b.frameSpan p) ⟨3, p, b.pier, bytes, some ⟨true, address, none⟩, none⟩

/-- A read of the memory of an abutment's host: memory read requests on this pier's endpoint, or a request frame (R381, R382). -/
def hostReadFrom (p address n : Nat) (b : Block) : Block :=
  if p = b.pier then b.emit (.hostRead p address n)
  else b.sendFrame (b.frameSpan p) ⟨3, p, b.pier, [], some ⟨true, address, some n⟩, none⟩

/-- An access to the buffer of a pier: this pier's, or by a ring-DMA frame (R381). -/
def ringWriteTo (p address : Nat) (bytes : List Byte) (b : Block) : Block :=
  if p = b.pier then b.memWrite address bytes
  else b.sendFrame (b.frameSpan p) ⟨3, p, b.pier, bytes, some ⟨false, address, none⟩, none⟩
def ringReadFrom (p address n : Nat) (b : Block) : Block :=
  if p = b.pier then b else b.sendFrame (b.frameSpan p) ⟨3, p, b.pier, [], some ⟨false, address, some n⟩, none⟩

end Sys2Proof.Machine.Block
end

