-- ==== Sys2Proof/Machine/Dma.lean ====
section
/-! DEFINITION. The DMA engine: register sets, checker, go and stop, pacing, beats, record streams, fences and errors (R381 to R403). -/
namespace Sys2Proof.Machine

/-- A register set (R383); `st` is its set state and `kind` its error kind (R385). -/
structure Desc where
  src : Nat
  dst : Nat
  n0 : Nat
  n1 : Nat
  n2 : Nat
  sstep1 : Int
  dstep1 : Int
  sstep2 : Int
  dstep2 : Int
  ctrl : Nat
  status : Nat
  link : Nat
  tag : Nat
  deriving DecidableEq, Repr

def Desc.st (d : Desc) : Nat := d.status / 2 ^ 28 % 16
def Desc.withState (d : Desc) (st kind : Nat) : Desc := { d with status := st * 2 ^ 28 + kind * 2 ^ 24 }
def Desc.srcSpace (d : Desc) : Nat := d.ctrl / 2 ^ 28 % 16
def Desc.dstSpace (d : Desc) : Nat := d.ctrl / 2 ^ 24 % 16
def Desc.prio (d : Desc) : Fin 4 := Fin.ofNat 4 (d.ctrl / 2 ^ 22)
def Desc.swap (d : Desc) : Nat := d.ctrl / 2 ^ 20 % 4
def Desc.pace (d : Desc) : Nat := d.ctrl / 2 ^ 18 % 4
def Desc.linked (d : Desc) : Bool := d.ctrl.testBit 17
def Desc.fenced (d : Desc) : Bool := d.ctrl.testBit 16
def Desc.hostB (d : Desc) : Bool := d.ctrl.testBit 14
def Desc.line (d : Desc) : Nat := d.ctrl % 256

/-- A descriptor of 64 bytes as the engine fetches it; STATUS is ignored (R383). -/
def descOf (t : List Byte) : Desc :=
  ⟨fieldU t 0 8, fieldU t 8 8, fieldU t 16 4, fieldU t 20 2, fieldU t 22 2, fieldI t 24 4, fieldI t 28 4, fieldI t 32 4, fieldI t 36 4,
   fieldU t 40 4, 0, fieldU t 48 8, fieldU t 56 4⟩

/-- Lowest and highest first byte of a run over the loops of R386. -/
def spanOf (base : Nat) (s1 s2 : Int) (n1 n2 : Nat) : Int × Int :=
  let a := s1 * (n1 - 1 : Nat)
  let c := s2 * (n2 - 1 : Nat)
  (base + min 0 a + min 0 c, base + max 0 a + max 0 c)

/-- The unit of a swap code in bytes (R384). -/
def swapUnit (code : Nat) : Nat := if code = 0 then 1 else if code = 1 then 2 else 4

/-- SWAP over whole units (R384). -/
def swapBytes (code : Nat) : List Byte → List Byte
  | a :: b :: c :: d :: rest =>
    match code with
    | 0 => a :: b :: c :: d :: swapBytes code rest
    | 1 => b :: a :: d :: c :: swapBytes code rest
    | 2 => d :: c :: b :: a :: swapBytes code rest
    | _ => c :: d :: a :: b :: swapBytes code rest
  | [a, b] => if code = 1 then [b, a] else [a, b]
  | l => l

namespace Block

def modDma (c : ChanId) (f : DmaChannel → DmaChannel) (b : Block) : Block :=
  { b with dma := { b.dma with channels := b.dma.channels.set c (f b.dma.channels[c]) } }

/-- The objects of a register set, shadow or active. -/
def descObjs (shadow : Bool) (c : Nat) : List Obj :=
  if shadow then
    [Obj.dmaShadowSrc c, Obj.dmaShadowDst c, Obj.dmaShadowN0 c, Obj.dmaShadowN1 c, Obj.dmaShadowN2 c, Obj.dmaShadowSstep1 c,
     Obj.dmaShadowDstep1 c, Obj.dmaShadowSstep2 c, Obj.dmaShadowDstep2 c, Obj.dmaShadowCtrl c, Obj.dmaShadowStatus c, Obj.dmaShadowLink c,
     Obj.dmaShadowTag c]
  else
    [Obj.dmaActiveSrc c, Obj.dmaActiveDst c, Obj.dmaActiveN0 c, Obj.dmaActiveN1 c, Obj.dmaActiveN2 c, Obj.dmaActiveSstep1 c,
     Obj.dmaActiveDstep1 c, Obj.dmaActiveSstep2 c, Obj.dmaActiveDstep2 c, Obj.dmaActiveCtrl c, Obj.dmaActiveStatus c, Obj.dmaActiveLink c,
     Obj.dmaActiveTag c]

def shadowOf (c : ChanId) (b : Block) : Desc :=
  ⟨b.reg (Obj.dmaShadowSrc c), b.reg (Obj.dmaShadowDst c), b.reg (Obj.dmaShadowN0 c), b.reg (Obj.dmaShadowN1 c), b.reg (Obj.dmaShadowN2 c),
   b.regI (Obj.dmaShadowSstep1 c), b.regI (Obj.dmaShadowDstep1 c), b.regI (Obj.dmaShadowSstep2 c), b.regI (Obj.dmaShadowDstep2 c),
   b.reg (Obj.dmaShadowCtrl c), b.reg (Obj.dmaShadowStatus c), b.reg (Obj.dmaShadowLink c), b.reg (Obj.dmaShadowTag c)⟩

def activeOf (c : ChanId) (b : Block) : Desc :=
  ⟨b.reg (Obj.dmaActiveSrc c), b.reg (Obj.dmaActiveDst c), b.reg (Obj.dmaActiveN0 c), b.reg (Obj.dmaActiveN1 c), b.reg (Obj.dmaActiveN2 c),
   b.regI (Obj.dmaActiveSstep1 c), b.regI (Obj.dmaActiveDstep1 c), b.regI (Obj.dmaActiveSstep2 c), b.regI (Obj.dmaActiveDstep2 c),
   b.reg (Obj.dmaActiveCtrl c), b.reg (Obj.dmaActiveStatus c), b.reg (Obj.dmaActiveLink c), b.reg (Obj.dmaActiveTag c)⟩

/-- A register set written whole. -/
def setDesc (shadow : Bool) (c : ChanId) (d : Desc) (b : Block) : Block :=
  let vs : List Int := [d.src, d.dst, d.n0, d.n1, d.n2, d.sstep1, d.dstep1, d.sstep2, d.dstep2, d.ctrl, d.status, d.link, d.tag]
  ((descObjs shadow c).zip vs).foldl (fun b p => b.setRegI p.1 p.2) b

def setShadowState (c : ChanId) (st : Nat) (b : Block) : Block := b.setReg (Obj.dmaShadowStatus c) (st * 2 ^ 28)
def setActiveState (c : ChanId) (st kind : Nat) (b : Block) : Block := b.setReg (Obj.dmaActiveStatus c) (st * 2 ^ 28 + kind * 2 ^ 24)

/-- The abutment that HOSTSEL names: nothing when the epoch has none (R384, R391). -/
def hostOf (d : Desc) (b : Block) : Option Nat :=
  let p := b.reg (if d.hostB then Obj.ringAbutmentB else Obj.ringAbutmentA)
  if p = 0xFF then none else some p

/-- Bytes of the buffer of this ordering code (R200). -/
def bufferSize (b : Block) : Nat := if b.part.big then 16384 * 1048576 else 8192 * 1048576

/-! ## The checker (R391) -/

/-- Whether every byte of every run lies in its space, for one side. -/
def insideSpace (space base n0 : Nat) (s1 s2 : Int) (n1 n2 : Nat) (source privileged : Bool) (b : Block) : Bool :=
  let (lo, hi) := spanOf base s1 s2 n1 n2
  match space with
  | 0 => decide (0 ≤ lo) && decide (hi + n0 ≤ b.bufferSize)
  | 1 => true
  | 2 => lo / 2 ^ 40 == (base / 2 ^ 40 : Nat) && (hi + n0 - 1) / 2 ^ 40 == (base / 2 ^ 40 : Nat) && base / 2 ^ 40 % 2 ^ 16 == 0 && base / 2 ^ 62 == 0
  | _ => if hi < 0x10000 then source && decide (0 ≤ lo) else privileged && decide (0x10000 ≤ lo) && decide (hi < 0x20000)

/-- The checker, its conditions in their order (R391). Channels 4 to 31 do not reach port 0x1_0000 (R381). -/
def checker (c : ChanId) (d : Desc) (b : Block) : Option AbortCode :=
  let own := decide (c.val < 4)
  let lineOk := decide (d.line ≤ 2) || (decide (16 ≤ d.line) && decide (d.line ≤ 31))
  let ringOk (space a : Nat) := space != 2 || b.ring.members.contains (a / 2 ^ 56 % 64)
  let hostOk := (d.srcSpace != 1 && d.dstSpace != 1) || (b.hostOf d).isSome
  let (lo, hi) := spanOf d.dst d.dstep1 d.dstep2 d.n1 d.n2
  let steps := [d.sstep1, d.dstep1, d.sstep2, d.dstep2]
  let aligned (u : Int) := (d.src : Int) % u == 0 && (d.dst : Int) % u == 0 && (d.n0 : Int) % u == 0 && steps.all fun s => s % u == 0
  let fifo := d.srcSpace == 3 && decide (d.src < 0x10000)
  if d.n0 = 0 ∨ 268435456 < d.n0 ∨ d.n1 = 0 ∨ d.n2 = 0 ∨ 3 < d.srcSpace ∨ 3 < d.dstSpace ∨ d.ctrl / 256 % 64 ≠ 0 ∨ d.link % 64 ≠ 0 ∨ !lineOk then
    some .range
  else if !(ringOk d.srcSpace d.src && ringOk d.dstSpace d.dst && hostOk) then some .unavailable
  else if !b.insideSpace d.srcSpace d.src d.n0 d.sstep1 d.sstep2 d.n1 d.n2 true own ||
      !b.insideSpace d.dstSpace d.dst d.n0 d.dstep1 d.dstep2 d.n1 d.n2 false true then some .incompatible
  else if !own && d.dstSpace == 3 then some .conflict
  else if !own && d.dstSpace == 0 && decide (lo < 0x08000000) && decide (0 ≤ hi) then some .conflict
  else if d.swap ≠ 0 && !aligned (swapUnit d.swap) then some .misaligned
  else if (b.levelInForce Obj.dmaLevel = 0 ∨ fifo) ∧ !aligned 4 then some .misaligned
  else none

/-- Writing CTRL of an empty shadow runs the checker (R387): the shadow becomes loaded, or is refused; through BAR0 a refused set takes
state 5. -/
def shadowLoad (c : ChanId) (ctrl : Nat) (bar : Bool) (b : Block) : Option AbortCode × Block :=
  let d := { b.shadowOf c with ctrl := ctrl }
  match b.checker c d with
  | none => (none, (b.setReg (Obj.dmaShadowCtrl c) ctrl).setShadowState c 1)
  | some e =>
    let b := b.bump Obj.dmaCheckerRefusals
    (some e, if bar then (b.setReg (Obj.dmaShadowCtrl c) ctrl).setShadowState c 5 else b)

/-- Command 4 (R387). -/
def shadowEmpty (c : ChanId) (b : Block) : Block := if (b.shadowOf c).st = 1 then b.setShadowState c 0 else b

/-! ## Go and stop (R388, R389, R394) -/

/-- Admits a pending unit to a channel of PACE 2 or 3. -/
def admitPending (c : ChanId) (b : Block) : Block :=
  let d := b.activeOf c
  if (d.pace = 2 ∨ d.pace = 3) ∧ d.st = 2 ∧ !b.dma.channels[c].admitted ∧ 0 < b.reg (Obj.dmaPending c) then
    (b.setReg (Obj.dmaPending c) (b.reg (Obj.dmaPending c) - 1)).modDma c fun x => { x with admitted := true }
  else b

/-- A loaded shadow becomes the active set (R388). -/
def activate (c : ChanId) (b : Block) : Block :=
  let d := (b.shadowOf c).withState 2 0
  let b := ((b.setDesc false c d).setShadowState c 0).modDma c fun x =>
    { x with i2 := 0, i1 := 0, off := 0, begun := false, passed := false, host := b.hostOf d, fetching := d.linked, open_ := d.line != 0, admitted := false, ending := false }
  b.admitPending c

/-- Whether the active set is empty or ended. -/
def dmaFree (c : ChanId) (b : Block) : Bool := (b.activeOf c).st != 2

/-- After an end, a loaded shadow is taken unless a stop is pending (R388). -/
def takeShadow (c : ChanId) (b : Block) : Block :=
  let x := b.dma.channels[c]
  if x.stopped ∨ x.fetching ∨ (b.shadowOf c).st ≠ 1 then b else b.activate c

/-- Go, by command or task (R388); a stop in the same MEM cycle wins and is counted (R389). -/
def dmaGo (c : ChanId) (b : Block) : Block :=
  let b := b.modDma c fun x => { x with stopped := false }
  if b.dmaFree c && (b.shadowOf c).st == 1 then b.activate c else b

/-- Stop (R389): a descriptor without a beat is discarded in state 6, one with beats runs to its end; no shadow is taken. -/
def dmaStop (c : ChanId) (b : Block) : Block :=
  let x := b.dma.channels[c]
  if b.dmaFree c then b
  else
    let b := b.modDma c fun x => { x with stopped := true }
    if x.begun then b else (b.setActiveState c 6 0).modDma c fun x => { x with admitted := false, fetching := false }

/-- Go and stop in one MEM cycle (R389). -/
def dmaBoth (c : ChanId) (b : Block) : Block := (b.bump (Obj.dmaCoincidences c)).dmaStop c

/-- A request of task 416 + c (R394): one unit is admitted, or counted as pending; an idle channel takes its loaded shadow first, and without one there is nothing to admit. At
PACE 0 and 1 the task is a go. -/
def dmaRequest (c : ChanId) (b : Block) : Block :=
  let d := if b.dmaFree c then b.shadowOf c else b.activeOf c
  if b.dmaFree c ∧ (b.shadowOf c).st ≠ 1 then b
  else if d.pace = 0 ∨ d.pace = 1 then b.dmaGo c
  else
    let b := if b.dmaFree c && (b.shadowOf c).st == 1 then b.dmaGo c else b
    if b.reg (Obj.dmaPending c) = 65535 then b.bump (Obj.dmaCoincidences c)
    else (b.setReg (Obj.dmaPending c) (b.reg (Obj.dmaPending c) + 1)).admitPending c

/-- Task 417 (R400): stops every channel of 4 to 31 in the mask. -/
def dmaStopTask (b : Block) : Block :=
  (List.finRange 32).foldl (fun b (c : ChanId) =>
    if 4 ≤ c.val ∧ (b.reg Obj.dmaStopMask).testBit c.val ∧ !b.dma.channels[c].stream then b.dmaStop c else b) b

/-! ## Ends, fences, errors (R397 to R399) -/

/-- A descriptor has ended (R397): state 3, counted, its event; the shadow follows. -/
def descEnded (c : ChanId) (b : Block) : Block :=
  let p := (b.activeOf c).prio
  let b := ((b.setActiveState c 3 0).bump (Obj.dmaEnded c)).raise (864 + 2 * c.val)
  let b := { b with dma := { b.dma with lastDone := b.dma.lastDone.set p c.val } }
  (b.modDma c fun x => { x with begun := false, admitted := false, ending := false }).takeShadow c

/-- The last beat has been issued; with FENCE the end waits for its proof (R398). -/
def descLastBeat (c : ChanId) (b : Block) : Block :=
  let d := b.activeOf c
  if d.fenced then b.modDma c fun x => { x with ending := true, fence := true, fenceTag := d.tag } else b.descEnded c

/-- Arrival is proven (R398). -/
def fenceProven (c : ChanId) (b : Block) : Block :=
  let x := b.dma.channels[c]
  if !x.fence then b
  else
    let b := ((b.setReg (Obj.dmaArrived c) x.fenceTag).modDma c fun x => { x with fence := false }).raise (865 + 2 * c.val)
    if x.ending then b.descEnded c else b

/-- A fence is asked for (R398); of an idle channel it proves at once. -/
def dmaFence (c : ChanId) (b : Block) : Block :=
  let x := b.dma.channels[c]
  let tag := if b.dmaFree c ∨ !x.begun then x.lastTag else (b.activeOf c).tag
  let b := b.modDma c fun x => { x with fence := true, fenceTag := tag }
  if b.dmaFree c then b.fenceProven c else b

/-- Task 416 (R398, R400). -/
def dmaFenceTask (b : Block) : Block :=
  (List.finRange 32).foldl (fun b (c : ChanId) => if (b.reg Obj.dmaFenceMask).testBit c.val then b.dmaFence c else b) b

/-- A beat fails (R399): the descriptor ends bad, and the shadow follows unless a stop comes in the same cycle. A record stream stops at
its slot with the error bit of its queue set (R451). -/
def dmaError (c : ChanId) (kind address : Nat) (withStop : Bool) (b : Block) : Block :=
  if b.dma.channels[c].stream then
    (((b.modDma c fun x => { x with issued := 0 }).setReg (Obj.dmaBadAddress c) address).bump (Obj.dmaBad c)).queueFail (b.queueOf c.val)
  else if b.dmaFree c then b
  else
    let b := ((b.setActiveState c 4 kind).bump (Obj.dmaBad c)).setReg (Obj.dmaBadAddress c) address
    let b := (b.logFault 0x0030 c.val address (864 + 2 * c.val)).raise (864 + 2 * c.val)
    let b := b.modDma c fun x => { x with begun := false, admitted := false, ending := false, stopped := x.stopped || withStop }
    b.takeShadow c

/-- The address of the beat that a descriptor issues next, on the side of the host (R399). -/
def hostAddress (c : ChanId) (b : Block) : Nat :=
  let d := b.activeOf c
  let x := b.dma.channels[c]
  if d.dstSpace = 1 then ((d.dst + d.dstep1 * x.i1 + d.dstep2 * x.i2 + x.off) % 2 ^ 64).toNat
  else ((d.src + d.sstep1 * x.i1 + d.sstep2 * x.i2 + x.off) % 2 ^ 64).toNat

/-- The abutments in use have changed (R382, R418): a running descriptor whose accesses travel to one that is lost ends bad. -/
def hostLost (b : Block) : Block :=
  (List.finRange 32).foldl (fun b (c : ChanId) =>
    let d := b.activeOf c
    match b.dma.channels[c].host with
    | some p =>
      if d.st = 2 ∧ !b.dma.channels[c].stream ∧ (d.srcSpace = 1 ∨ d.dstSpace = 1) ∧ p ≠ b.reg Obj.ringPierNumber ∧
          p ≠ b.reg Obj.ringAbutmentA ∧ p ≠ b.reg Obj.ringAbutmentB then b.dmaError c 4 (b.hostAddress c) false else b
    | none => b) b

/-- A restart of the control cores cuts the privileged descriptors off, which end bad (R390). -/
def privilegedCut (b : Block) : Block :=
  ([0, 1, 2, 3] : List ChanId).foldl (fun b c =>
    if b.dmaFree c then b else ((b.setActiveState c 4 0).bump (Obj.dmaBad c)).raise (864 + 2 * c.val) |>.modDma c fun x => { x with begun := false }) b

/-- A linked descriptor has been fetched (R388). DESIGN CHOICE: a shadow loaded in the meantime is kept. -/
def linkFetched (c : ChanId) (b : Block) : Block :=
  if !b.dma.channels[c].fetching then b
  else
    let d := descOf (b.memRead (b.activeOf c).link 64)
    let b := b.modDma c fun x => { x with fetching := false }
    let b := if (b.shadowOf c).st = 1 then b
      else match b.checker c d with
        | none => b.setDesc true c (d.withState 1 0)
        | some _ => (b.setShadowState c 0).bump Obj.dmaCheckerRefusals
    if b.dmaFree c then b.takeShadow c else b

/-! ## Record streams (R396, R416, R451) -/

/-- The slots that a stream channel has to deliver, oldest first. -/
def streamSlots (c : ChanId) (b : Block) : List (List Byte) :=
  if h : c.val < 4 then []
  else if c.val < 8 then
    let hd : HeadId := ⟨(c.val - 4) % 4, by omega⟩
    (b.capture.partitions[hd].items.filter Item.isKept).map fun
      | .record r => b.placeRead r.place
      | .marker m => markerSlot (b.reg Obj.ringPierNumber) hd.val (b.reg Obj.ringEpoch) m
  else (b.capture.readout.filter fun r => r.span == c.val - 8).map fun r => b.placeRead r.place

/-- The abutment that a stream channel delivers to: its head's route, or this pier for the readout region. -/
def streamTarget (c : ChanId) (b : Block) : Nat :=
  if c.val < 8 then b.reg (Obj.ringRouteAbutmentInForce (c.val - 4)) else b.reg Obj.ringPierNumber

/-- Whether a stream goes to this pier's own host. -/
def streamOwn (c : ChanId) (b : Block) : Bool :=
  b.streamTarget c == b.reg Obj.ringPierNumber &&
  (b.reg Obj.ringAbutmentA == b.reg Obj.ringPierNumber || b.reg Obj.ringAbutmentB == b.reg Obj.ringPierNumber)

/-- Whether a stream channel can issue a beat (R396, R416, R448, R451). -/
def streamReady (c : ChanId) (b : Block) : Bool :=
  let x := b.dma.channels[c]
  match (b.streamSlots c)[x.sent]? with
  | none => false
  | some slot =>
    if x.hold then false
    else if b.streamOwn c then
      let q := b.queueOf c.val
      let y := b.host.queues[q]
      !y.error && (b.isSet (Obj.hostQueueEnable q) || x.issued != 0) && y.open_ && decide (b.queueFill q + slot.length ≤ b.queueSize q)
    else b.streamTarget c != 0xFF && decide (c.val < 8)

/-- The item of a partition that a stream delivers next has begun its delivery (R221). -/
def markBegun (n : Nat) : List Item → List Item
  | [] => []
  | i :: is =>
    if !i.isKept then i :: markBegun n is
    else match n with
      | 0 => (match i with | .record r => .record { r with begun := true } | .marker m => .marker { m with begun := true }) :: is
      | n + 1 => i :: markBegun n is

/-- A slot has been moved whole: into its queue, or as a record frame on its span (R397, R406, R448). -/
def slotDone (c : ChanId) (slot : List Byte) (b : Block) : Block :=
  let b := if b.streamOwn c then b.queuePut (b.queueOf c.val) c.val slot
    else
      let span : SpanId := if b.reg (Obj.ringRouteSpanInForce (c.val - 4)) = 1 then 1 else 0
      b.sendFrame span ⟨2, b.streamTarget c, b.pier, slot, none, none⟩
  let b := (b.bump (Obj.dmaEnded c)).raise (864 + 2 * c.val)
  let b := { b with dma := { b.dma with lastDone := b.dma.lastDone.set 3 c.val } }
  b.modDma c fun x => { x with sent := x.sent + 1, issued := 0 }

/-- One beat of a record stream. -/
def streamBeat (c : ChanId) (b : Block) : Block :=
  let x := b.dma.channels[c]
  match (b.streamSlots c)[x.sent]? with
  | none => b
  | some slot =>
    let b := if h : x.issued = 0 ∧ 4 ≤ c.val ∧ c.val < 8 then
        b.modPart ⟨c.val - 4, by omega⟩ fun p => { p with items := markBegun x.sent p.items } else b
    if x.issued + 64 < slot.length then b.modDma c fun x => { x with issued := x.issued + 64 } else b.slotDone c slot

/-- The oldest kept item leaves a partition; candidates before it stay. -/
def dropOldest : List Item → List Item
  | [] => []
  | i :: is => if i.isKept then is else i :: dropOldest is

/-- Slots that waited outside the readout region enter it as space allows (R222). -/
def refill : Nat → Block → Block
  | 0, b => b
  | n + 1, b =>
    match b.capture.waiting with
    | [] => b
    | s :: rest =>
      if b.readoutBytes + s.bytes.length ≤ b.readoutSize then
        refill n ((b.readoutPut s.span s.pier s.bytes).modCapture fun c => { c with waiting := rest, readoutFull := !rest.isEmpty })
      else b

/-- The oldest slot of a stream is released (R218, R450): a record leaves its partition; a readout slot leaves the region and is
acknowledged to its origin. -/
def streamRelease (c : ChanId) (b : Block) : Block :=
  let b := b.modDma c fun x => { x with sent := x.sent - 1 }
  if h : 4 ≤ c.val ∧ c.val < 8 then b.modPart ⟨c.val - 4, by omega⟩ fun p => { p with items := dropOldest p.items }
  else
    match b.capture.readout.findIdx? fun r => r.span == c.val - 8 with
    | none => b
    | some i =>
      match b.capture.readout[i]? with
      | none => b
      | some r =>
        let head := (b.placeRead r.place).take 64
        let b := b.modCapture fun x => { x with readout := x.readout.eraseIdx i }
        (b.sendFrame (b.frameSpan r.pier) ⟨0, r.pier, b.pier, head, none, none⟩).refill b.capture.waiting.length
/-- Command 5: a stream channel's slot is abandoned without acknowledgement (R396). -/
def abandonSlot (c : ChanId) (b : Block) : Block := if b.dma.channels[c].stream then b.modDma c fun x => { x with issued := 0 } else b

/-- Delivery of a stream begins anew from its oldest unacknowledged slot (R218, R451, R457). -/
def streamRestart (c : ChanId) (b : Block) : Block := b.modDma c fun x => { x with sent := 0, issued := 0 }

/-! ## Pacing and the choice of a beat (R393 to R395) -/

/-- Fill of a pacing line in 1/65,536; the fills of the two span queues come with the beat. -/
def lineFill (line fill0 fill1 : Nat) (b : Block) : Nat :=
  if line = 0 then b.aux.fifo.length * 256 else if line = 1 then fill0 else if line = 2 then fill1
  else b.queueFraction (Fin.ofNat 16 (line - 16))

/-- The hysteresis of a channel of PACE 1 after a look at its queue, and whether the queue crossed no mark in this cycle (R395). -/
def paceLook (c : ChanId) (fill0 fill1 : Nat) (b : Block) : Bool × Bool :=
  let x := b.dma.channels[c]
  let line := (b.activeOf c).line
  let f := b.lineFill line fill0 fill1
  let now := if line = 0 then (if x.open_ then decide (b.reg (Obj.dmaPaceLow c) < f) else decide (b.reg Obj.auxFifoDmaMark * 256 ≤ f))
    else hysteresis x.open_ f (b.reg (Obj.dmaPaceHigh c)) (b.reg (Obj.dmaPaceLow c))
  (now, now && now == x.open_)

/-- Whether a channel's source has its next beat: the auxiliary FIFO waits for its words (R381). -/
def sourceReady (c : ChanId) (b : Block) : Bool :=
  let d := b.activeOf c
  let n := min 64 (d.n0 - b.dma.channels[c].off)
  d.srcSpace != 3 || decide (0x10000 ≤ d.src) || decide ((n + 15) / 16 ≤ b.aux.fifo.length)

/-- Whether a channel is ready (R393). -/
def dmaReady (c : ChanId) (blocked : BitVec 32) (fill0 fill1 : Nat) (b : Block) : Bool :=
  let d := b.activeOf c
  let x := b.dma.channels[c]
  if blocked.getLsbD c.val then false
  else if x.stream then b.streamReady c
  else d.st == 2 && !x.ending && b.sourceReady c &&
    (match d.pace with | 0 => true | 1 => (b.paceLook c fill0 fill1).2 | _ => x.admitted)

/-- PRIO of a channel; record streams run at 3 (R396). -/
def prioOf (c : ChanId) (b : Block) : Fin 4 := if b.dma.channels[c].stream then 3 else (b.activeOf c).prio

/-- Whether a channel is inside a descriptor or slot. -/
def dmaBegun (c : ChanId) (b : Block) : Bool := if b.dma.channels[c].stream then b.dma.channels[c].issued != 0 else b.dma.channels[c].begun

/-- Whether a channel ranks before another: a privileged one, or one of higher PRIO (R393). -/
def outranks (k c : ChanId) (b : Block) : Bool := decide (4 ≤ c.val) && (decide (k.val < 4) || decide ((b.prioOf c).val < (b.prioOf k).val))

/-- The channel of the next beat (R393). -/
def chooseChannel (blocked : BitVec 32) (fill0 fill1 : Nat) (b : Block) : Option ChanId :=
  let ready := (List.finRange 32).filter fun (c : ChanId) => b.dmaReady c blocked fill0 fill1
  let running := (List.finRange 32).find? fun (c : ChanId) => decide (c.val < 4) && b.dmaBegun c && (b.activeOf c).st == 2
  match running.filter fun c => ready.contains c with
  | some c => some c
  | none =>
    match ready.find? fun c => decide (c.val < 4) && running.isNone with
    | some c => some c
    | none =>
      let ready := ready.filter fun c => decide (4 ≤ c.val)
      let top := ready.foldl (fun m c => max m (b.prioOf c).val) 0
      let mine := ready.filter fun c => (b.prioOf c).val == top
      match mine.find? fun c => b.dmaBegun c with
      | some c => some c
      | none =>
        let last := b.dma.lastDone[Fin.ofNat 4 top]
        match mine.find? fun c => decide (last < c.val) with
        | some c => some c
        | none => mine.head?

/-- The words of the auxiliary FIFO that a beat takes. -/
def fifoTake (n : Nat) (b : Block) : List Byte × Block :=
  let k := (n + 15) / 16
  ((b.aux.fifo.take k).flatten.take n, b.modAux fun a => { a with fifo := a.fifo.drop k })

/-- One beat of a descriptor: up to 64 bytes of a run (R386, R392). `data` is what a source outside the pier returns. -/
def descBeat (c : ChanId) (data : List Byte) (b : Block) : Block :=
  let d := b.activeOf c
  let x := b.dma.channels[c]
  let n := min 64 (d.n0 - x.off)
  let at_ (base : Nat) (s1 s2 : Int) : Nat := ((base + s1 * x.i1 + s2 * x.i2 + x.off) % 2 ^ 64).toNat
  let s := at_ d.src d.sstep1 d.sstep2
  let t := at_ d.dst d.dstep1 d.dstep2
  let (bytes, b) : List Byte × Block :=
    match d.srcSpace with
    | 0 => (b.memRead s n, b)
    | 1 => (padTo n data, b.hostReadFrom (x.host.getD 0xFF) s n)
    | 2 => if s / 2 ^ 56 % 64 = b.pier then (b.memRead (s % 2 ^ 40) n, b) else (padTo n data, b.ringReadFrom (s / 2 ^ 56 % 64) (s % 2 ^ 40) n)
    | _ => if s < 0x10000 then b.fifoTake n else (padTo n data, b)
  let bytes := swapBytes d.swap bytes
  let b := match d.dstSpace with
    | 0 => b.memWrite t bytes
    | 1 => b.hostWriteTo (x.host.getD 0xFF) t bytes
    | 2 => b.ringWriteTo (t / 2 ^ 56 % 64) (t % 2 ^ 40) bytes
    | _ => b.emit (.storeWrite t bytes)
  let b := b.modDma c fun x => { x with begun := true, lastTag := d.tag }
  if x.off + 64 < d.n0 then b.modDma c fun x => { x with off := x.off + 64 }
  else
    let b := if d.pace = 3 then (b.modDma c fun x => { x with admitted := false }).admitPending c else b
    if x.i1 + 1 < d.n1 then b.modDma c fun x => { x with off := 0, i1 := x.i1 + 1 }
    else if x.i2 + 1 < d.n2 then b.modDma c fun x => { x with off := 0, i1 := 0, i2 := x.i2 + 1 }
    else b.descLastBeat c

/-- One MEM cycle of the datapath (R393): the queues are looked at, and the chosen channel issues one beat. `blocked` are the channels
whose destination cannot take a beat, `fill0` and `fill1` the fills of the span queues. In deep sleep the engine is idle (R532). -/
def dmaBeat (blocked : BitVec 32) (fill0 fill1 : Nat) (data : List Byte) (b : Block) : Block :=
  if b.asleep then b
  else
  let before := b
  let b := [4, 5, 6, 7, 8, 9].foldl (fun b c =>
    b.queueMarks (b.queueOf c) (b.reg (Obj.dmaPaceHigh c)) (b.reg (Obj.dmaPaceLow c))) b
  let crossed := [4, 5, 6, 7, 8, 9].foldl (fun m c =>
    let q := b.queueOf c
    if !b.dma.channels[(Fin.ofNat 32 c : ChanId)].stream || before.host.queues[q].open_ == b.host.queues[q].open_ then m else setBit m c) 0
  let pick := b.chooseChannel (blocked ||| BitVec.ofNat 32 crossed) fill0 fill1
  let b := (List.finRange 32).foldl (fun b (c : ChanId) =>
    if (b.activeOf c).st = 2 ∧ (b.activeOf c).pace = 1 then
      let o := (b.paceLook c fill0 fill1).1
      b.modDma c fun x => { x with open_ := o }
    else b) b
  let b := (List.finRange 32).foldl (fun b (c : ChanId) =>
    let p := match pick with
      | some k => k != c && before.dmaBegun c && before.dmaReady c (blocked ||| BitVec.ofNat 32 crossed) fill0 fill1 && before.outranks k c
      | none => false
    if b.dma.channels[c].passed == p then b else b.modDma c fun x => { x with passed := p }) b
  match pick with
  | none => b
  | some c => if b.dma.channels[c].stream then b.streamBeat c else b.descBeat c data

/-- State of a channel at BAR0 offset 0x84 (R401). -/
def dmaStateOf (c : ChanId) (b : Block) : Nat :=
  let d := b.activeOf c
  let x := b.dma.channels[c]
  if x.fence && x.ending then 5
  else if d.st ≠ 2 then (if x.fence then 5 else 0)
  else if x.stopped then 4
  else if 2 ≤ d.pace ∧ !x.admitted then 1
  else if d.pace = 1 ∧ !x.open_ then 1
  else if x.passed then 3
  else 2

/-! ## Why a write of a channel is refused (R387, R390, R395, R396) -/

/-- Writes to a channel's sets, commands and pacing. -/
def channelViolations (c : ChanId) (b : Block) : List AbortCode :=
  codeIf (decide (c.val < 4)) .writeOfRo ++ codeIf b.dma.channels[c].stream .conflict

/-- Writes to a field of a channel's shadow. -/
def shadowViolations (c : ChanId) (b : Block) : List AbortCode := b.channelViolations c ++ codeIf ((b.shadowOf c).st == 1) .deviceState

end Block
end Sys2Proof.Machine
end

