-- ==== Sys2Proof/Machine/Ring.lean ====
section
/-! DEFINITION. The span ring: spans and lanes, frames, numbering and epochs, routing and abutments, ring time, the ring-wide start and the
governor cap on the ring (R404 to R435, R16, R19, R23). -/
namespace Sys2Proof.Machine.Block

/-! ## Routing (R415 to R418) -/

/-- The abutments in use (R414). -/
def abutments (b : Block) : List Nat := [b.reg Obj.ringAbutmentA, b.reg Obj.ringAbutmentB].filter (· != 0xFF)

/-- The derived route of a head (R415). -/
def derivedRoute (h : Nat) (b : Block) : Option (Nat × Nat) :=
  let reach := b.abutments.filterMap fun p => (b.fewest p).map fun n => (p, n)
  match reach with
  | [] => none
  | [(p, _)] => some (p, b.spanTo h p)
  | (p, m) :: (q, n) :: _ =>
    let a := if m < n then p else if n < m then q else if h < 2 then min p q else max p q
    some (a, b.spanTo h a)

/-- The route of a head that takes force (R415): at the expert level the written one while it can reach its abutment. -/
def routeInForce (h : Nat) (b : Block) : Option (Nat × Nat) :=
  let a := b.reg (Obj.ringRouteAbutment h)
  let s := b.reg (Obj.ringRouteSpan h)
  let reaches := b.abutments.contains a && (if s = 1 then (b.hopsTo a).1.isSome else (b.hopsTo a).2.isSome)
  if b.levelInForce Obj.ringLevel = 1 ∧ reaches then some (a, s) else b.derivedRoute h

/-- Every head's route is taken anew (R415, R416): a stream whose path changes while frames are out holds until they are accounted for. -/
def reroute (b : Block) : Block :=
  (List.finRange 4).foldl (fun b (h : HeadId) =>
    let (a, s) := (b.routeInForce h.val).getD (0xFF, 0)
    let b := if b.levelInForce Obj.ringLevel = 1 then b
      else match b.derivedRoute h.val with
        | some (a, s) => (b.setReg (Obj.ringRouteAbutment h) a).setReg (Obj.ringRouteSpan h) s
        | none => b
    let moved := a != b.reg (Obj.ringRouteAbutmentInForce h) || s != b.reg (Obj.ringRouteSpanInForce h)
    let b := (b.setReg (Obj.ringRouteAbutmentInForce h) a).setReg (Obj.ringRouteSpanInForce h) s
    let c : ChanId := ⟨4 + h.val, by omega⟩
    if moved && b.dma.channels[c].sent != 0 then b.modDma c fun x => { x with hold := true, issued := 0 } else b) b

/-- Every frame on the old path has been acknowledged or lost (R416): the stream sends on its new path, from the oldest slot that
has not been acknowledged. -/
def pathHoldEnd (h : HeadId) (b : Block) : Block :=
  let c : ChanId := ⟨4 + h.val, by omega⟩
  if b.dma.channels[c].hold then (b.modDma c fun x => { x with hold := false }).streamRestart c else b

/-- A span-fault event reaches the Keystone controller of the epoch as pause code 5 (R251, R419). -/
def spanFault (b : Block) : Block := (b.sendRing .spanFault).keyOutside 5

/-- Counts a coincidence with something that happened at an instant, where it was in this CTL cycle (R432). -/
def coincides (at_ : Option Time) (b : Block) : Block :=
  match at_ with
  | some t => if ctlCycle t = ctlCycle b.now then b.bump Obj.ringCoincidences else b
  | none => b

/-- The abutments are chosen among the offering members (R414); a loss moves the routes to the other one or raises source 784 (R418). -/
def chooseAbutments (b : Block) : Block :=
  let offering := (List.range 64).filter fun p => b.ring.offers.contains p && b.ring.members.contains p
  let a := (offering[0]?).getD 0xFF
  let c := if b.ring.failover then (offering[1]?).getD 0xFF else 0xFF
  let old := b.abutments
  let b := ((b.setReg Obj.ringAbutmentA a).setReg Obj.ringAbutmentB c)
  let lost := old.any fun p => !b.abutments.contains p
  let b := b.reroute.hostLost
  let b := if lost then (b.coincides b.ring.downAt).modRing fun r => { r with lossAt := some b.now } else b
  if !lost then b
  else if b.abutments.isEmpty then ((b.raise 784).spanFault).deriveCeiling
  else
    let b := [8, 9].foldl (fun b c => b.streamRestart (Fin.ofNat 32 c)) b
    ((b.raise 783).spanFault).deriveCeiling

/-- A pier offers itself, or withdraws its offer (R414). -/
def offerOf (p : Nat) (on : Bool) (b : Block) : Block :=
  (b.modRing fun r => { r with offers := (r.offers.filter (· != p)) ++ (if on then [p] else []) }).chooseAbutments

/-- Feature bit 4 is confirmed on every member of the epoch, or no longer (R414). -/
def failoverSet (on : Bool) (b : Block) : Block :=
  if b.ring.failover = on then b else (b.modRing fun r => { r with failover := on }).chooseAbutments

/-- This pier offers itself, or withdraws its offer (R414, R440). An offer with a readout size of 0 is refused: its event and entry. -/
def offer (on : Bool) (b : Block) : Block :=
  let want := on && b.host.linkUp && b.isSet Obj.hostBusMaster && !b.host.d3hot
  let b := if want && b.reg Obj.bufferReadoutSize == 0 then (b.logFault 0x0044 noUnit 0 789).raise 789 else b
  let yes := want && b.reg Obj.bufferReadoutSize != 0
  (b.sendRing (.offer yes)).offerOf b.pier yes

/-! ## The state of ring time (R64, R424) -/

/-- The state of ring time; with its lock the lock time of heads that start on it begins (R64). -/
def setTimeState (n : Nat) (b : Block) : Block :=
  let fresh := decide (2 ≤ n) && decide (b.reg Obj.ringTimeState < 2)
  let b := b.setReg Obj.ringTimeState n
  if !fresh then b
  else (List.finRange 4).foldl (fun (b : Block) (h : HeadId) =>
    if b.heads[h].state = .starting ∧ b.reg (Obj.headClockSource h) = 1 then
      b.modHead h fun x => { x with startDeadline := later b.now (lockTime 1) }
    else b) b

/-- No valid sync for 8 µs, or a new path to the source (R424): holdover. -/
def holdover (b : Block) : Block :=
  let st := b.reg Obj.ringTimeState
  if st = 1 ∨ st = 2 then ((b.setTimeState 3).modRing fun r => { r with lockSince := none }).raise 780 else b

/-- The span by which a follower takes its time (R422): that of fewer hops to the source, on equal hops span 0. -/
def timePath (b : Block) : Option SpanId :=
  if b.reg Obj.ringTimeSource = 0xFF ∨ b.reg Obj.ringTimeSource = b.pier then none else some (b.frameSpan (b.reg Obj.ringTimeSource))

/-- What may change the path to the time source: on a new one a follower holds over while it measures (R424). -/
def withTimePath (f : Block → Block) (b : Block) : Block :=
  let c := f b
  if b.timePath.isSome ∧ c.timePath.isSome ∧ c.timePath ≠ b.timePath then c.holdover else c

/-! ## Topology -/

/-- Topology in force (`ring.topology`), with the events of a wrap and a close (R415, R433). -/
def setTopology (wrap : Option Nat) (b : Block) : Block :=
  let was := b.reg Obj.ringTopology
  let now := if b.ring.members.length ≤ 1 then 0 else if wrap.isSome then 2 else 1
  let b := (b.modRing fun r => { r with wrapAfter := wrap }).setReg Obj.ringTopology now
  let b := b.raiseIf (was == 1 && now == 2) 774
  (b.raiseIf (was != 1 && now == 1) 775).reroute

/-- The ring has closed with n members (R413): at the basic level the root derives `ring.configured` when that happens first after its reset,
and tells it; a number other than the one in force is a mismatch. -/
def closedCount (n : Nat) (b : Block) : Block :=
  if n ≤ 1 then b
  else
    let old := b.reg Obj.ringConfigured
    let first := decide (b.pier = 0) && decide (b.levelInForce Obj.ringLevel = 0) && !b.ring.closedOnce
    let b := b.modRing fun r => { r with closedOnce := true }
    let b := if first then (b.setReg Obj.ringConfigured n).sendRing (.configured n) else b
    if old = n ∨ old = 0 then b else (b.logFault 0x0043 noUnit n 788).raise 788

/-- The column base that the ring function derives at basic: 32,768 × pier number (R23). -/
def deriveBase (b : Block) : Block :=
  let p := b.reg Obj.ringPierNumber
  if b.levelInForce Obj.ringLevel = 1 ∨ p = 0xFF then b else b.setReg Obj.deviceColumnBase (32768 * p)

/-- Ring training gives the pier its number, at the basic level its column base (R23, R412), and its cap a name (R19). -/
def number (p : Nat) (b : Block) : Block :=
  let own := (b.thermal.caps.get? 0xFF).getD 1000000
  let b := { b with thermal := { b.thermal with caps := (b.thermal.caps.erase 0xFF).insert p own } }
  (b.setReg Obj.ringPierNumber p).deriveBase

/-- A pier that resets takes its number from its neighbour (R412): one above the pier on its span 0, one below the pier on its span 1. -/
def numberBy (s : SpanId) (neighbour : Nat) (b : Block) : Block :=
  let n := b.reg Obj.ringConfigured
  if b.pier ≠ 0xFF then b
  else if s = 0 then b.number (if n = 0 then neighbour + 1 else (neighbour + 1) % n)
  else if 0 < neighbour then b.number (neighbour - 1)
  else if n = 0 then b
  else b.number (n - 1)

/-- Whether pier x comes before pier y as root (R412): one with `ring.root` at 1 before one without, then the lower serial number. -/
def rootBefore (x y : RootInfo) : Bool := if x.root != y.root then x.root else decide (x.serial < y.serial)

/-- The root among this pier and those that it can reach (R412). -/
def rootOf (reach : List RootInfo) (b : Block) : RootInfo :=
  reach.foldl (fun r x => if rootBefore x r then x else r) ⟨b.isSet Obj.ringRoot, b.part.serial, some 0, none⟩

/-- The piers of a ring that forms number themselves from the root (R412): k hops away in the span-1 direction is pier k, k hops away in the
span-0 direction pier `ring.configured` − k; without that value such a pier stays unnumbered (R413). -/
def numberFrom (reach : List RootInfo) (configured : Nat) (b : Block) : Block :=
  if b.pier ≠ 0xFF then b
  else
    match (b.rootOf reach).up, (b.rootOf reach).down with
    | some k, _ => b.number k
    | none, some k => if configured = 0 then b else b.number (configured - k)
    | none, none => b

/-! ## Spans (R409 to R411) -/

/-- A span goes down in both directions (R411, R419). -/
def spanLost (s : SpanId) (b : Block) : Block :=
  if b.reg (Obj.spanState s) = 0 then b
  else
    let up := b.spanUp s
    let b := ((b.setReg (Obj.spanState s) 0).setReg (Obj.spanLaneMap s) 0).setReg (Obj.spanNeighbour s) 0xFF
    let b := b.modSpan s fun x => { x with spare := none, changing := none, txSeq := 0, rxSeq := 0, replayed := none, sent := [], waiting := [] }
    if !up then b
    else
      let b := (b.coincides b.ring.lossAt).modRing fun r => { r with downAt := some b.now }
      let b := (b.bump (Obj.spanDowns s)).raise (770 + s.val)
      let b := b.logFault 0x0041 s.val 0 (770 + s.val)
      let n := max 1 (b.reg Obj.ringConfigured)
      let open_ := if s = 1 then b.pier else (b.pier + n - 1) % n
      let b := if b.reg Obj.ringTopology = 1 then (b.setTopology (some open_)).sendRing (.topology (some open_)) else b
      (b.reroute).spanFault

/-- A span goes down; a follower whose path to the time source led over it holds over (R424). -/
def spanDown (s : SpanId) (b : Block) : Block := b.withTimePath fun b => b.spanLost s

/-- Training begins (R409): at reset, and every 10 ms while the span is down and in no loopback. -/
def spanTraining (s : SpanId) (b : Block) : Block :=
  if b.reg (Obj.spanState s) = 0 ∧ b.reg (Obj.testSpanLoopback s) = 0 then b.setReg (Obj.spanState s) 1 else b

/-- The retrain task (R409, R432): an up span goes down first; with a failure in the same cycle it goes down and trains at once. -/
def spanRetrain (s : SpanId) (withDown : Bool) (b : Block) : Block :=
  ((if withDown then b.bump Obj.ringCoincidences else b).spanDown s).spanTraining s

/-- Training ends (R405, R409): `lanes` are the lanes that passed in both directions; `neighbour` is the pier on the other end where it has a
number; `crossed` says that the span is cabled to the same span number. A pier whose ring closes says so to the others. -/
def trainingComplete (s : SpanId) (lanes : BitVec 5) (neighbour : Option PierId) (crossed closes : Bool) (b : Block) : Block :=
  if b.reg (Obj.spanState s) ≠ 1 then b
  else
    let ok := lanes.toNat
    if crossed then (b.setReg (Obj.spanState s) 0).logFault 0x0040 s.val 0 noSource
    else if popCount ok 5 < 4 then b.setReg (Obj.spanState s) 0
    else
      let all := popCount ok 5 == 5
      let b := (b.setReg (Obj.spanState s) (if all then 2 else 3)).setReg (Obj.spanLaneMap s) (if all then 0x0F else ok)
      let b := b.modSpan s fun x => { x with spare := if all then some 4 else none, changing := none }
      let b := b.setReg (Obj.spanNeighbour s) (match neighbour with | some p => p.val | none => 0xFF)
      let b := match neighbour with | some p => b.numberBy s p.val | none => b
      let b := b.raise (768 + s.val)
      (b.withTimePath fun b =>
        if closes then ((b.setTopology none).closedCount b.ring.members.length).sendRing (.topology none) else b.reroute).deriveCeiling

/-- A lane fails (R410, R411): the spare takes its place, or the span goes down; both at once take it down (R432). -/
def laneFailure (s : SpanId) (lane : Fin 5) (withSpare : Bool) (b : Block) : Block :=
  if !b.spanUp s then b
  else if b.ring.spans[s].spare = some lane.val then
    (b.modSpan s fun x => { x with spare := none }).setReg (Obj.spanState s) 3
  else if !(b.reg (Obj.spanLaneMap s)).testBit lane.val then b
  else if withSpare then (b.bump Obj.ringCoincidences).spanDown s
  else
    let y := b.ring.spans[s]
    if y.spare.isNone ∨ y.changing.isSome then b.spanDown s
    else b.modSpan s fun x => { x with changing := some lane.val }

/-- The spare takes over, and the units that the changeover held leave (R410). -/
def spareInService (s : SpanId) (b : Block) : Block :=
  match b.ring.spans[s].changing, b.ring.spans[s].spare with
  | some lane, some spare =>
    let map := setBit (clearBit (b.reg (Obj.spanLaneMap s)) lane) spare
    let b := (b.modSpan s fun x => { x with spare := none, changing := none }).setReg (Obj.spanLaneMap s) map
    let b := ((b.setReg (Obj.spanState s) 3).bump (Obj.spanSpares s)).raise (772 + s.val)
    ((b.logFault 0x0042 s.val lane (772 + s.val)).sendWaiting s).spanFault
  | _, _ => b

/-! ## Frames and messages (R406 to R408, R417) -/

/-- Slots of a record frame, split by their length at offset 0x30 of the header (R204, R396). -/
def splitSlots : Nat → List Byte → List (List Byte)
  | 0, _ => []
  | n + 1, l =>
    if l.isEmpty then []
    else
      let len := max 64 (slotBytes (fieldU l 0x30 4))
      l.take len :: splitSlots n (l.drop len)

/-- What a ring-DMA frame asks of its destination (R381, R382): of an abutment its host's memory, of any pier its buffer. A read is answered
with the bytes: of the buffer, or those that the host returned. -/
def ringDma (src : Nat) (d : RingDma) (bytes : List Byte) (b : Block) : Block :=
  match d.host, d.read with
  | true, none => if b.abutments.contains b.pier then b.emit (.hostWrite b.pier d.address bytes) else b
  | true, some n =>
    if b.abutments.contains b.pier then
      (b.emit (.hostRead b.pier d.address n)).sendFrame (b.frameSpan src) ⟨3, src, b.pier, padTo n bytes, none, none⟩
    else b
  | false, none => b.memWrite d.address bytes
  | false, some n => b.sendFrame (b.frameSpan src) ⟨3, src, b.pier, b.memRead d.address n, none, none⟩

/-- A data frame is received (R406): one that fails its CRC or its sequence asks for a replay; one for another pier is forwarded; records
enter the readout region; a ring-DMA frame reaches this pier's buffer (for its host's memory: RING_DMA_FRAME); an answer enters its
mailbox slot. -/
def dataFrame (s : SpanId) (f : Frame) (seq : Nat) (crcOk : Bool) (b : Block) : Block :=
  if !b.spanUp s then b
  else if !crcOk ∨ seq % 4096 ≠ b.ring.spans[s].rxSeq then b.emit (.replay s.val b.ring.spans[s].rxSeq)
  else
    let b := b.modSpan s fun x => { x with rxSeq := (x.rxSeq + 1) % 4096 }
    if f.dest ≠ b.pier then b.sendFrame (1 - s) f
    else if f.cls = 2 then (splitSlots 1024 f.bytes).foldl (fun b slot => b.ringRecord s.val f.src slot) b
    else match f.dma, f.answer with
      | some d, _ => if d.host then b else b.ringDma f.src d f.bytes
      | none, some (slot, res) => b.answerSlot slot res
      | none, none => b

/-- The neighbour asks for the frames from a sequence on again (R406); the eighth replay of one frame in a row that fails takes the span
down (R411). -/
def replayRequest (s : SpanId) (seq : Nat) (b : Block) : Block :=
  if !b.spanUp s then b
  else
    let n := match b.ring.spans[s].replayed with | some (q, n) => if q = seq then n + 1 else 1 | none => 1
    let b := (b.bump (Obj.spanReplays s)).modSpan s fun x => { x with replayed := some (seq, n) }
    if 9 ≤ n then b.spanDown s
    else (b.ring.spans[s].sent.dropWhile fun f => f.1 != seq).foldl (fun b f => b.emit (.frame s.val f.1 f.2)) b

/-- Ring-DMA frames at an abutment (R382): their accesses leave on its endpoint in the order received. -/
def ringDmaFrame (src : PierId) (d : RingDma) (bytes : List Byte) (b : Block) : Block := b.ringDma src.val d bytes

/-- An acknowledgement releases a delivered record, with what was delivered before it (R450). Deliveries of a head are in sequence order,
so the record's sequence says how many. -/
def ackFrame (h : HeadId) (seq : Nat) (marker : Bool) (b : Block) : Block :=
  let kept := b.capture.partitions[h].items.filter Item.isKept
  let hit := kept.findIdx? fun
    | .record r => !marker && r.seq == seq
    | .marker m => marker && m.last == seq
  let c : ChanId := ⟨4 + h.val, by omega⟩
  match hit with
  | none => b
  | some i => if i < b.dma.channels[c].sent then (List.range (i + 1)).foldl (fun b _ => b.streamRelease c) b else b

/-! ## Ring time (R420 to R425, R431) -/

/-- The time source sends a sync every 1 µs (R422). -/
def timeSyncSend (b : Block) : Block := if b.reg Obj.ringTimeState = 4 then b.sendRing .sync else b

/-- A sync arrives on a span with the estimated offset in ps (R421, R422, R424): the follower takes it from the span of fewer hops, and after
1 ms within ±1 ns it is locked. -/
def timeSync (s : SpanId) (offset : Int) (withTimeout : Bool) (b : Block) : Block :=
  let st := b.reg Obj.ringTimeState
  if st = 4 ∨ b.timePath ≠ some s then b
  else
    let b := if withTimeout then b.bump Obj.ringNearMisses else b
    let b := (b.setRegI Obj.ringTimeOffset offset).modRing fun r =>
      { r with lastSync := some b.now,
               lockSince := if offset.natAbs ≤ 1000 then (if r.lockSince.isSome then r.lockSince else some b.now) else none }
    let b := if st = 0 then b.setTimeState 1 else b
    match b.ring.lockSince with
    | some t =>
      if b.reg Obj.ringTimeState = 1 ∧ passed t tMs b.now then
        ((b.setTimeState 2).modRing fun r => { r with everLocked := true, slew := 0 }).raise 779
      else b
    | none => b

/-- Every 1 ms a follower measures a hop by a two-way exchange, corrected by `span.time.asym` (R422): the delay of the receive direction
is the mean delay and half the difference. -/
def hopDelayExchange (s : SpanId) (mean : Int) (b : Block) : Block :=
  if b.reg Obj.ringTimeState = 4 then b
  else b.modSpan s fun x => { x with hopDelay := mean + b.regI (Obj.spanTimeAsym s) / 2 }

/-- 8 µs pass since the last valid sync (R424). -/
def holdoverTimeout (b : Block) : Block :=
  match b.ring.lastSync with
  | some t => if passed t (8 * tUs) b.now then b.holdover else b
  | none => b

/-- A follower takes the source's time: it slews, or steps (R421, R425). A step makes the scheduled instants that are due in the new time
skipped; the first lock after a reset steps uncounted. -/
def takeTime (offset : Int) (b : Block) : Block :=
  let b := b.setTimeState 1
  if !b.ring.everLocked then b
  else if offset.natAbs ≤ b.reg Obj.ringTimeSlewMax * tNs then b.modRing fun r => { r with slew := offset }
  else
    let b := (b.bump Obj.ringTimeSteps).raise 781
    let old := b.now
    let b := (List.finRange 4).foldl (fun b (h : HeadId) =>
      let src := b.reg (Obj.headTriggerSource h)
      if b.heads[h].state = .running ∧ (src = 1 ∨ src = 2) then (b.armScheduled h b.heads[h].nextIndex).listEnd h else b)
      { b with now := old - BitVec.ofInt 64 offset }
    { b with now := old }

/-- A follower in holdover regains a source and measures its offset in ticks (R425). -/
def timeRegained (offset : Int) (b : Block) : Block := if b.reg Obj.ringTimeState = 3 then b.takeTime offset else b

/-- Task 386 (R433). -/
def timeLatch (stamp : Time) (b : Block) : Block := b.setReg Obj.ringTimeLatched stamp.toNat

/-- Election of the time source (R420): a source that stays in the epoch stays; else the lowest priority, then the lowest number. -/
def elect (members : List Nat) (prio : List (Nat × Nat)) (old : Nat) : Nat :=
  if members.contains old then old
  else
    let p (m : Nat) : Nat := ((prio.find? fun x => x.1 == m).map (·.2)).getD 255
    match members with
    | [] => 0xFF
    | m :: ms => ms.foldl (fun a c => if p c < p a then c else a) m

/-- The time source of the epoch is elected and this pier becomes source or follower. -/
def electSource (prio : List (Nat × Nat)) (b : Block) : Block :=
  let old := b.reg Obj.ringTimeSource
  let s := elect b.ring.members prio old
  let b := (b.coincides b.ring.electedAt).modRing fun r => { r with electedAt := some b.now }
  let b := b.setReg Obj.ringTimeSource s
  let b := b.raiseIf (s != old) 782
  if s = b.pier then b.setTimeState 4
  else if b.reg Obj.ringTimeState = 4 then b.setTimeState 3 |>.raise 780
  else if s ≠ old then b.holdover else b

/-! ## Epochs (R427 to R431) -/

/-- Whether an epoch of these members holds configuration authority (R428). -/
def authority (members : List Nat) (configured : Nat) : Bool :=
  decide (configured < 2 * members.length) || (decide (configured = 2 * members.length) && members.contains 0)

/-- The stepped cap of a pier changes (R19): it takes force at the first line boundary at or after an instant. DESIGN CHOICE: without a head
that is not stopped there is no boundary, and it takes force at once. -/
def capChanged (at_ : Time) (p cap : Nat) (b : Block) : Block :=
  let b := { b with thermal := { b.thermal with changes := b.thermal.changes ++ [(at_, p, cap)] } }
  if !b.allStopped then b
  else
    let caps := b.thermal.changes.foldl (fun (m : Map Nat) c => m.insert c.2.1 c.2.2) b.thermal.caps
    let b := { b with thermal := { b.thermal with caps := caps, changes := [] } }
    b.setReg Obj.deviceLineRateCap b.lowestCap

/-- A stepped cap of another pier, and the instant at which it left (R19). -/
def capMessage (p : PierId) (cap : Nat) (left : Time) (b : Block) : Block := b.capChanged (later left 160000) p.val cap

/-- The stepped caps that count are those of the members (R19): caps of piers that left go, those of piers that come are taken. -/
def capsOf (members : List Nat) (told : List (Nat × Nat)) (b : Block) : Block :=
  let keep (p : Nat) : Bool := members.contains p || p == b.pier
  let caps : Map Nat := b.thermal.caps.filter fun c => keep c.1
  let caps := told.foldl (fun (m : Map Nat) c => if keep c.1 && c.1 != b.pier then m.insert c.1 c.2 else m) caps
  let b := { b with thermal := { b.thermal with caps := caps, changes := b.thermal.changes.filter fun c => keep c.2.1 } }
  b.setReg Obj.deviceLineRateCap b.lowestCap

/-! ## The position source as the other piers know it (R17, R281, R282) -/

/-- The claim of the position source lapses, is given up, or passes to a pier (R281, R282). -/
def sourceTo (p : Nat) (b : Block) : Block :=
  if b.reg (Obj.axisSourcePier 0) = p then b
  else
    let b := ((b.pageDrop).setReg (Obj.axisBroadcast 0) 0).setReg (Obj.axisBroadcast 1) 0
    ((b.setSourcePier p).modRing fun r => { r with source := none, latches := [] }).joinPage 0

/-- Position, speed and validity of the position source arrive (R282). While it is invalid no crossing comes, and the first line after its
return carries flag 12 (R17). -/
def takePosition (position speed : Int) (valid : Bool) (b : Block) : Block :=
  let was := match b.ring.source with | some (_, _, v) => v | none => true
  let b := b.modRing fun r => { r with source := some (position, speed, valid) }
  if valid || !was then b
  else (List.finRange 4).foldl (fun (b : Block) (h : HeadId) =>
    if b.scan && b.reg (Obj.headTriggerSource h) == 4 then b.owe h (setBit 0 12) else b) b

/-! ## Ring-wide writes (R429) -/

/-- Whether this pier orders ring-wide writes: it is the lowest-numbered member, or alone. -/
def leads (b : Block) : Bool := decide (b.ring.members.length ≤ 1) || b.reg Obj.ringLeader == b.pier

/-- A ring-wide write is applied on this pier; `writer` made it. -/
def wideApply (o : RingWide) (v writer : Nat) (b : Block) : Block :=
  match o with
  | .configured => b.setReg Obj.ringConfigured v
  | .claim _ => b.sourceTo (if v = 1 then writer else 0xFF)
  | .ceiling a =>
    (if writer = b.pier then b.setReg (Obj.axisKeystoneCeiling a.val) v else b).modRing fun r => { r with ceiling := some v }

/-- The leader orders a write of a member: it applies it and tells the epoch. -/
def wideOrder (o : RingWide) (v writer : Nat) (b : Block) : Block := (b.wideApply o v writer).sendRing (.wide o v (Fin.ofNat 64 writer))

/-- A write to a ring-wide object (R429): the leader orders it, and it is applied on every member before the answer. -/
def wideWrite (o : RingWide) (v : Nat) (via : Via) (b : Block) : Block :=
  if b.leads then (b.wideOrder o v b.pier).replyVia via .ok
  else (b.modRing fun r => { r with asked := r.asked ++ [(o, v, via)] }).sendRing (.ask o v)

/-- An ordered write reaches a member (R429); the member that made it answers. -/
def wideTold (o : RingWide) (v : Nat) (writer : PierId) (b : Block) : Block :=
  let b := b.wideApply o v writer.val
  if writer.val ≠ b.pier then b
  else match b.ring.asked.findIdx? fun x => x.1 == o && x.2.1 == v with
    | none => b
    | some i =>
      match b.ring.asked[i]? with
      | none => b
      | some x => (b.modRing fun r => { r with asked := r.asked.eraseIdx i }).replyVia x.2.2 .ok

/-- DESIGN CHOICE: writes that wait for the leader when the epoch changes are refused with 0x060A_0023; the spec has no case for them. -/
def wideCut (b : Block) : Block :=
  b.ring.asked.foldl (fun b x => b.replyVia x.2.2 (.abort .unavailable)) (b.modRing fun r => { r with asked := [] })

/-- The epoch's number (R427). -/
def epochNumber (generation : Nat) (auth : Bool) (lowest : Nat) : Nat := generation % 2 ^ 25 * 128 + (if auth then 64 else 0) + lowest % 64

/-- A new epoch of these members takes force on this pier (R414, R420, R427 to R430). -/
def epochTake (i : EpochInfo) (b : Block) : Block :=
  let members := (List.range 64).filter fun p => i.members.getLsbD p
  let b := if i.wrapAfter.isNone then b.closedCount members.length else b
  let auth := authority members (b.reg Obj.ringConfigured)
  let lowest := (members[0]?).getD 0
  let was := b.ring.minority
  let b := (b.wideCut).modRing fun r =>
    { r with members := members, generation := i.generation + 1, minority := !auth, failover := i.failover,
             offers := (List.range 64).filter fun p => i.offers.getLsbD p,
             leaderMode := if lowest = b.pier then none else some i.leaderMode,
             start := r.start.map fun x => { x with waits := x.waits.filter fun p => members.contains p } }
  let b := ((b.setReg Obj.ringEpoch (epochNumber (i.generation + 1) auth lowest)).setReg Obj.ringLeader lowest).setReg Obj.ringMembers members.length
  let b := (b.bump Obj.ringEpochChanges).raise 776
  let b := if !auth && !was then (b.setReg Obj.ringTimeSplit b.now.toNat).raise 777 else b
  let b := b.raiseIf (auth && was) 778
  let old := b.reg Obj.ringTimeSource
  let b := b.electSource i.priorities
  let b := b.modRing fun r => { r with foreign := !auth && (old != b.reg Obj.ringTimeSource || r.foreign) }
  let b := if members.contains (b.reg (Obj.axisSourcePier 0)) then b else b.sourceTo 0xFF
  let b := b.capsOf members i.wide.caps
  let b := b.setTopology i.wrapAfter
  ((b.chooseAbutments).keyOutside 6).ringStartCheck

/-- The ring-wide state of an epoch is taken (R429, R431), and its time source and page. -/
def wideTake (w : WideState) (b : Block) : Block :=
  let b := (b.setReg Obj.ringConfigured w.configured).modRing fun r => { r with ceiling := w.ceiling }
  ((b.setReg Obj.ringTimeSource w.source).sourceTo w.claim).joinPage w.page

/-- A new epoch takes force (R412, R427): a pier that has been in none takes its number and, but for the root of a new ring, the ring-wide
state first; one that cannot be numbered stays outside. -/
def epochForm (i : EpochInfo) (b : Block) : Block :=
  let root := b.pier == 0xFF && (b.rootOf i.reach).up == some 0 && (b.rootOf i.reach).serial == b.part.serial
  let new := b.ring.members.isEmpty && !root
  let b := b.numberFrom i.reach i.wide.configured
  if b.pier = 0xFF then b
  else b.withTimePath fun b => (if new then b.wideTake i.wide else b).epochTake i

/-- A pier joins or leaves (R427). With a ring-wide start in the same cycle the epoch change wins (R432). -/
def epochChange (i : EpochInfo) (withStart : Bool) (b : Block) : Block :=
  let b := if withStart then b.bump Obj.ringCoincidences else b
  b.epochForm i

/-- Whether this pier's epoch gives the ring-wide state when it joins another (R431): the one with authority; without one, the one that
contains pier 0, then the larger, then the one with the lower Lowest. -/
def givesState (other : List Nat) (otherAuthority : Bool) (b : Block) : Bool :=
  let own := b.ring.members
  let lowest (ps : List Nat) : Nat := (ps[0]?).getD 64
  if b.ring.minority = otherAuthority then !otherAuthority
  else if own.contains 0 != other.contains 0 then own.contains 0
  else if own.length ≠ other.length then decide (other.length < own.length)
  else decide (lowest own < lowest other)

/-- A span joins two epochs (R431): one epoch forms. `other` and `authority` tell the members of the other one and whether it held authority,
`offset` this pier's ring time less that of the other's source; `both` says that both spans came up at once (R432). A member of the epoch
that does not give the state measures its offset, publishes it and slews or steps. -/
def epochJoin (i : EpochInfo) (other : BitVec 64) (authority : Bool) (offset : Int) (both : Bool) (b : Block) : Block :=
  let b := if both then b.bump Obj.ringCoincidences else b
  let oldEpoch := b.reg Obj.ringEpoch
  if b.givesState ((List.range 64).filter fun p => other.getLsbD p) authority then
    (b.withTimePath fun b => b.epochTake i).modRing fun r => { r with foreign := false }
  else
    let b := (b.withTimePath fun b => (b.wideTake i.wide).epochTake i).modRing fun r => { r with foreign := false }
    let b := ((b.setRegI Obj.ringTimeRejoinOffset offset).setReg Obj.ringTimeRejoinAt b.now.toNat).setReg Obj.ringTimeRejoinEpoch oldEpoch
    ((b.sendRing (.rejoin offset b.now oldEpoch)).raise 785).takeTime offset

/-! ## The ring-wide start (R426) -/

/-- The heads of this pier that take part (R426). -/
def startHeads (b : Block) : List HeadId :=
  (List.finRange 4).filter fun h => (b.reg Obj.ringStartHeads).testBit h.val && decide (b.reg (Obj.headTriggerSource h) ≤ 2)

/-- Phase 2 on this pier (R426): S is written to the heads that take part, and they start. -/
def startMembers (s : Time) (via : Option Via) (hs : List HeadId) (waits : List Nat) (banks : List Nat) (b : Block) : Block :=
  let b := b.modRing fun r => { r with start := some ⟨via, hs.map (·.val), none, waits, false⟩ }
  (hs.foldl (fun b (h : HeadId) => (b.setReg (Obj.headTriggerStartAt h) s.toNat).startGo h [] (banks.getD h.val 0)) b).ringStartCheck

/-- Another member's ring-wide start has passed its checks (R426). -/
def startTold (s : Time) (banks : List Nat) (b : Block) : Block :=
  if b.ring.start.isSome then b
  else b.startMembers s none (b.startHeads.filter fun h => ((b.startDerive h).headStartViolations h).isEmpty) [] banks

/-- A member's heads run, or one of them failed to lock (R426). -/
def startedTold (origin : PierId) (failed : Option HeadId) (b : Block) : Block :=
  match b.ring.start with
  | none => b
  | some r =>
    if r.via.isNone ∨ !r.waits.contains origin.val then b
    else
      let b := match failed with | some h => b.setReg Obj.ringStartFail (origin.val * 256 + h.val) | none => b
      (b.modRing fun x => { x with start := some { r with waits := r.waits.filter (· != origin.val), failed := r.failed || failed.isSome } }).ringStartCheck

/-- A write to `ring.start.at` (R426). `others` is the failing check of another member with its pier and head; `epoch` says that the
epoch changes before phase 2; `banks` are the bank voltages measured on this pier's heads. -/
def ringStart (s : Time) (via : Via) (others : Option (PierId × HeadId × AbortCode)) (epoch : Bool) (banks : List Nat) (b : Block) : Block :=
  if timeDiff s b.now < (5 * tMs : Nat) then b.replyVia via (.abort .tooLow)
  else
    let mine := b.startHeads.filterMap fun h => (firstCode ((b.startDerive h).headStartViolations h)).map fun c => (h, c)
    match mine with
    | (h, c) :: _ =>
      let b := if c = .thermalVeto then b.bump Obj.thermalVetoes else b
      ((b.setReg Obj.ringStartFail (b.pier * 256 + h.val)).raise 787).replyVia via (.abort c)
    | [] =>
      match others with
      | some (p, h, c) => ((b.setReg Obj.ringStartFail (p.val * 256 + h.val)).raise 787).replyVia via (.abort c)
      | none =>
        if epoch then (((b.bump Obj.ringCoincidences).raise 787)).replyVia via (.abort .unavailable)
        else
          let waits := b.ring.members.filter (· != b.pier)
          (b.sendRing (.start s)).startMembers s (some via) b.startHeads waits banks

/-! ## Messages (R408, R417) -/

/-- Whether a message from a pier that came on a span goes on (R417): in a closed ring of N for ceil((N − 1) ÷ 2) hops on span 1 and floor((N −
1) ÷ 2) hops on span 0, in a wrapped one to the ends of the line. -/
def goesOn (s : SpanId) (origin : PierId) (b : Block) : Bool :=
  let n := max 1 b.ring.members.length
  let hops := if s = 0 then (b.pier + n - origin.val % n) % n else (origin.val + n - b.pier % n) % n
  b.spanUp (1 - s) && (b.ring.wrapAfter.isSome || decide (hops < if s = 0 then n / 2 else (n - 1) / 2))

/-- What a message that has no command of its own tells this pier. `banks` are the bank voltages in mV that the heads measure when it starts
them. -/
def takeMessage (origin : PierId) (m : RingMsg) (banks : List Nat) (b : Block) : Block :=
  match m with
  | .topology w => b.withTimePath fun b => b.setTopology w
  | .ceiling f => b.modRing fun r => { r with ceiling := some f }
  | .configured n => b.setReg Obj.ringConfigured n
  | .page n => b.receivePage n
  | .spanFault => b.keyOutside 5
  | .mode n => if b.reg Obj.ringLeader = origin.val then b.modRing fun r => { r with leaderMode := some n } else b
  | .offer on => b.offerOf origin.val on
  | .failover on => b.failoverSet on
  | .ask o v => if b.leads then b.wideOrder o v origin.val else b
  | .wide o v writer => b.wideTold o v writer
  | .claim held =>
    if held then (if b.ownAxis.isSome ∧ b.pier < origin.val then b else b.sourceTo origin.val)
    else if b.reg (Obj.axisSourcePier 0) = origin.val then b.sourceTo 0xFF else b
  | .position p v valid => b.takePosition p v valid
  | .start s => b.startTold s banks
  | .started failed => b.startedTold origin failed
  | _ => b

/-- A message goes on from the receive to the transmit balls, away from its origin (R408, R417), and this pier takes what it tells. -/
def messageForward (s : SpanId) (origin : PierId) (m : RingMsg) (banks : List Nat) (b : Block) : Block :=
  let on := b.goesOn s origin
  let b := if on then b.emit (.forward (1 - s.val) origin.val m) else b
  if origin.val = b.pier then b else b.takeMessage origin m banks

end Sys2Proof.Machine.Block
end

