-- ==== Sys2Proof/Machine/HostPort.lean ====
section
/-! DEFINITION. The PCIe endpoint, the delivery queues' registers and the mailbox slots (R436 to R461). -/
namespace Sys2Proof.Machine

/-- A mailbox slot with nothing in it. -/
def emptySlot : MailSlot := ⟨[], [], 0, 0, none⟩
/-- A queue as an FLR or a reset leaves it. -/
def emptyQueue : Queue := ⟨false, [], 0, none, false, 0, true⟩
/-- An MSI-X entry at its PCIe default: masked. -/
def msixDefault : MsixEntry := ⟨0, 0, true, none⟩

namespace Block

/-! ## The function (R436) -/

/-- The dwords of the configuration header that R436 gives, by byte address: vendor and device, class code and revision (the letter and digit
of 0x1009:00), BAR0 as a 64-bit memory of 512 KiB that reads its size, BAR2 to BAR5 and the expansion ROM absent, the subsystem, no
interrupt pin. The serial number of the extended capability is 0x1018:04. No command of the table reads the configuration space. -/
def configDword (a : Nat) (b : Block) : Nat :=
  match a with
  | 0x00 => 0x64401C6B
  | 0x08 => 0x118000B1
  | 0x10 => 0xFFF80004
  | 0x14 => 0xFFFFFFFF
  | 0x2C => (if b.part.big then 0x0016 else 0x0008) * 65536 + 0x1C6B
  | _ => 0

/-! ## The link (R438 to R440) -/

/-- PCIE_PERST_N rises (R438): the endpoint answers, and the ready bit follows once the dictionary is served. -/
def pcieRelease (b : Block) : Block := (b.modHost fun x => { x with released := true, ready := b.power.phase == .served }).raise 8

/-- The link comes up at a speed code and a width (R439); not without the PCIe reference, in reset, in deep sleep or while a test instruction has
the balls (R523, R533, R571). -/
def linkUp (speed : Fin 6) (width : Nat) (b : Block) : Block :=
  if b.asleep ∨ b.ballsTaken ∨ b.power.phase = .held ∨ !b.power.pcieRef then b
  else
  let b := ((b.modHost fun x => { x with linkUp := true, loopback := false, d3hot := false }).setReg Obj.hostLinkSpeed speed.val).setReg Obj.hostLinkWidth width
  let b := b.raise 832
  let b := if speed.val < 5 ∨ width < 8 then
      ((b.logFault 0x0050 noUnit (speed.val * 256 + width) 842).raise 842).fireCause 40 else b
  b.offer true

/-- Every mailbox slot forgets what it waits for (R445). -/
def slotsIdle (b : Block) : Block :=
  b.modHost fun x => { x with slots := x.slots.map fun s => { s with state := 0, answer := none } }

/-- The link goes down (R440): the offer is withdrawn and pending responses are discarded. -/
def linkDown (b : Block) : Block :=
  if !b.host.linkUp then b
  else
    let b := ((b.modHost fun x => { x with linkUp := false }).setReg Obj.hostLinkSpeed 0).setReg Obj.hostLinkWidth 0
    ((b.raise 833).slotsIdle).offer false

def busMasterSet (b : Block) : Block :=
  if b.isSet Obj.hostBusMaster then b else ((b.setReg Obj.hostBusMaster 1).raise 834).offer true

def busMasterClear (b : Block) : Block :=
  if b.isSet Obj.hostBusMaster then ((b.setReg Obj.hostBusMaster 0).raise 835).offer false else b

/-- The queue objects return to their defaults (R461). -/
def queuesReset (b : Block) : Block :=
  let b := b.modHost fun x => { x with queues := Vector.replicate 16 emptyQueue }
  let b := (List.range 16).foldl (fun b q =>
    ([Obj.hostQueueBase q, Obj.hostQueueSizeLog2 q, Obj.hostQueueEnable q, Obj.hostQueueWritePos q, Obj.hostQueueAckPos q, Obj.hostQueueShadow q,
      Obj.hostQueueCoalesceBytes q, Obj.hostQueueCoalesceUs q, Obj.hostQueueStallUs q]).foldl (fun b o => b.setReg o o.dflt) b) b
  [4, 5, 6, 7, 8, 9].foldl (fun b c => b.streamRestart (Fin.ofNat 32 c)) b

/-- A function-level reset (R440): configuration space and the BAR0 registers, the feature set kept. -/
def flr (b : Block) : Block :=
  let b := (b.queuesReset).modHost fun x =>
    { x with dropped := 0, causes := 0, causeMask := 0, msix := Vector.replicate 64 msixDefault, pending := 0, d3hot := false,
             slots := x.slots.map fun s => { s with request := [], response := [], completions := 0 } }
  ((b.slotsIdle).raise 836).busMasterClear.offer false

def d3hotEntry (b : Block) : Block := (b.modHost fun x => { x with d3hot := true }).offer false

/-- A fatal error reported through AER (R440, R418). -/
def fatalError (b : Block) : Block := (b.raise 843).offer false

/-- An AER correctable error (R453). -/
def aerCorrectable (b : Block) : Block := b.fireCause 40

/-- Task 448 + k fires cause 24 + k (R459). -/
def interruptTask (k : Fin 16) (b : Block) : Block := b.fireCause (24 + k.val)

/-! ## Queue registers (R449 to R451) -/

/-- A BAR0 write is dropped and counted (R29, R442). -/
def barDrop (b : Block) : Block := b.modHost fun x => { x with dropped := satAdd x.dropped 1 max32 }

/-- A write answered on its route, or a BAR0 write, which is dropped and counted when it is refused (R29). -/
def answerFrom (r : Option Route) (res : Result) (b : Block) : Block :=
  match r, res with
  | some r, res => b.reply r res
  | none, .abort _ => b.barDrop
  | none, _ => b

/-- The stream channels mapped to a queue. -/
def streamsOf (q : QueueId) (b : Block) : List Nat := [4, 5, 6, 7, 8, 9].filter fun c => b.queueOf c == q

/-- The largest slot of the streams mapped to a queue (R449). DEDUCED: for readout streams, the largest of the slots that wait in the
readout region and of this pier's heads, since this pier knows no other format of the epoch. -/
def largestSlot (q : QueueId) (b : Block) : Nat :=
  let waiting := if (b.streamsOf q).any (8 ≤ ·) then b.capture.readout.map fun x => placeSize x.place else []
  (waiting ++ ((b.streamsOf q).flatMap fun c => if c < 8 then [Fin.ofNat 4 (c - 4)] else List.finRange 4).map fun (h : HeadId) => b.slotAt h).foldl max 0

/-- Enables a queue (R449, R451): refused when its ring is too small; W and A become 0 and its streams begin anew. A disable in the same
PCI cycle wins and is counted. -/
def queueEnable (q : QueueId) (r : Option Route) (withDisable : Bool) (b : Block) : Block :=
  if withDisable then ((b.bump Obj.hostCoincidences).setReg (Obj.hostQueueEnable q) 0).answerFrom r .ok
  else if b.isSet (Obj.hostQueueEnable q) then b.answerFrom r .ok
  else if b.queueSize q < 2 * b.largestSlot q then b.answerFrom r (.abort .incompatible)
  else
    let b := ((b.setReg (Obj.hostQueueEnable q) 1).setReg (Obj.hostQueueWritePos q) 0).setReg (Obj.hostQueueAckPos q) 0
    let b := b.modQueue q fun x => { x with slots := [], signalled := 0, unsignalled := none, stalled := false, movedAt := b.now, open_ := true }
    ((b.streamsOf q).foldl (fun b c => b.streamRestart (Fin.ofNat 32 c)) b).answerFrom r .ok

/-- Disables a queue: its streams stop at the next slot boundary (R451). -/
def queueDisable (q : QueueId) (r : Option Route) (b : Block) : Block := (b.setReg (Obj.hostQueueEnable q) 0).answerFrom r .ok

/-- Clears the error bit: the stream restarts from the failed slot (R451). -/
def queueErrorClear (q : QueueId) (b : Block) : Block := b.modQueue q fun x => { x with error := false }

/-- Slots that end at or before A, which is a bytes beyond the former position, are released (R450). -/
def releaseUpTo (from_ a : Nat) (q : QueueId) : Nat → Block → Block
  | 0, b => b
  | n + 1, b =>
    match b.host.queues[q].slots with
    | [] => b
    | (end_, c) :: rest =>
      if (end_ + 2 ^ 64 - from_) % 2 ^ 64 ≤ a then releaseUpTo from_ a q n ((b.modQueue q fun x => { x with slots := rest }).streamRelease (Fin.ofNat 32 c)) else b

/-- A write of A (R450): outside the range from A to W it is dropped and counted. -/
def ackWrite (q : QueueId) (a : Nat) (r : Option Route) (b : Block) : Block :=
  let old := b.queueA q
  let by_ := (a + 2 ^ 64 - old) % 2 ^ 64
  if b.queueFill q < by_ then (b.bump Obj.hostAckRejected).answerFrom r .ok
  else
    let moved := by_ != 0
    let b := b.setReg (Obj.hostQueueAckPos q) a
    let b := if moved then b.modQueue q fun x => { x with movedAt := b.now, stalled := false } else b
    (releaseUpTo old by_ q b.host.queues[q].slots.length b).answerFrom r .ok

/-! ## Mailbox slots (R444, R445) -/

def modSlot (s : SlotId) (f : MailSlot → MailSlot) (b : Block) : Block :=
  b.modHost fun x => { x with slots := x.slots.set s (f x.slots[s]) }

/-- The header of a request (R445). -/
def mailHeader (opcode target index sub length tag address : Nat) : List Byte :=
  leBytes 1 opcode ++ leBytes 1 target ++ leBytes 2 index ++ leBytes 1 sub ++ leBytes 3 0 ++ leBytes 4 length ++ leBytes 4 tag ++
  leBytes 8 address ++ leBytes 8 0

/-- The response to a request (R445). Its reserved fields read undefined (R2): `open_` gives them. -/
def mailResponse (own : Nat) (request : List Byte) (res : Result) (open_ : Nat) : List Byte :=
  let data := match res with | .data d => d | _ => []
  let code := match res with | .abort c => c.value | _ => 0
  let target := fieldU request 1 1
  leBytes 1 (if code = 0 then 0 else 1) ++ leBytes 1 (if target = 0xFF then own else target) ++ slice (padTo 32 request) 2 2 ++
  slice (padTo 32 request) 4 1 ++ leBytes 3 open_ ++ leBytes 4 data.length ++ slice (padTo 32 request) 12 4 ++ leBytes 8 code ++
  leBytes 8 (open_ / 2 ^ 24) ++ data

/-- A response enters its slot (R444): state 2, counted, its cause and event. -/
def mailComplete (s : SlotId) (b : Block) : Block :=
  match b.host.slots[s].answer with
  | none => b
  | some res =>
    if b.host.slots[s].state ≠ 1 then b.modSlot s fun x => { x with answer := none }
    else
      let resp := mailResponse b.pier b.host.slots[s].request res (Config.reservedBits b.now.toNat s.val)
      let b := b.modSlot s fun x => { x with response := resp, state := 2, completions := (x.completions + 1) % 2 ^ 32, answer := none }
      (b.fireCause s.val).raise 837

/-- A tunnelled target has been silent for 100 ms (R445). -/
def tunnelTimeout (s : SlotId) (b : Block) : Block :=
  if b.host.slots[s].state = 1 ∧ b.host.slots[s].answer = none then b.answerSlot s (.abort .hardware) else b

end Block
end Sys2Proof.Machine
end

