-- ==== Sys2Proof/Machine/Governor.lean ====
section
/-! DEFINITION. The thermal governor: readings, steps, the local cap and the thermal hold (R18, R19, R545 to R549), and what ends every
command. -/
namespace Sys2Proof.Machine.Block

/-- f_max: the highest f_h among the running heads (R545); nothing when none runs. DEDUCED: f_h is taken under the published ceiling, without
the cap that is being computed; a cap under itself would fall at every change until it is 0. -/
def fMax (b : Block) : Option Frac :=
  ((List.finRange 4).filter fun (h : HeadId) => b.heads[h].state == .running).foldl (fun m h =>
    match m with
    | none => some (b.headRateUnder (b.ring.ceiling.getD 1000000) h)
    | some f =>
      let g := b.headRateUnder (b.ring.ceiling.getD 1000000) h
      some (if f.le g then g else f)) none

/-- The stepped cap (R545). With n above 0 and no running head there is no f_max; DESIGN CHOICE: the cap then stays what it was, which
R546 asks for in a thermal hold. -/
def steppedCap (b : Block) : Nat :=
  let n := b.reg Obj.thermalStep
  if n = 0 then 1000000
  else match b.fMax with
    | none => b.thermal.own
    | some f => (f.mul ⟨(8 - n : Nat), 8⟩).floor.toNat

/-- The local cap follows n and f_max (R545, R546): a change is broadcast and enters R19; in thermal hold it reads 0. -/
def capFollow (b : Block) : Block :=
  let cap := b.steppedCap
  let b := b.setReg Obj.thermalLocalCap (if b.reg Obj.thermalState = 3 then 0 else cap)
  if cap = b.thermal.own then b
  else
    let b := { b with thermal := { b.thermal with own := cap } }
    ((b.alert 1).sendRing (.cap cap b.now)).capChanged (later b.now 160000) b.pier cap

/-- `power.state` (R529). -/
def powerState (b : Block) : Nat := if b.asleep then 3 else if b.allStopped then 1 else 0

/-- The streams that the span ring and host port function claims at its start (R396). -/
def claimStreams (b : Block) : Block :=
  let here := b.abutments.contains b.pier
  [4, 5, 6, 7, 8, 9].foldl (fun b c => b.modDma (Fin.ofNat 32 c) fun x => { x with stream := decide (c < 8) || here }) b

/-- The functions of the whole pier that have no command (R40). -/
def pierFunctions : List Nat := [0x2200, 0x2300, 0x2400, 0x2500, 0x2600, 0x2700]

/-- The functions without a command start: each reads state 1 until its derived objects are in force (R41, R44, R415, R463), and the streams
are claimed. -/
def functionStart (b : Block) : Block :=
  let b := pierFunctions.foldl (fun (b : Block) f => b.emit (.starting f)) b
  let b := b.deriveBase
  let b := if b.levelInForce Obj.mgmtLevel = 1 then b else b.setReg Obj.canNodeId b.derivedNode
  let b := if b.levelInForce Obj.captureLevel = 1 then b else b.setReg Obj.bufferBudgetEnforce 1
  (b.reroute).claimStreams

/-- The power state follows the heads; a change is an SMBus alert (R479, R529), and heads that leave their stopped states start the
functions without a command (R41). -/
def stateFollow (b : Block) : Block :=
  let now := b.powerState
  if now = b.power.shown then b
  else
    let b := { b with power := { b.power with shown := now } }
    let b := b.alert 3
    if now = 0 then b.functionStart else b

/-- What ends every command: the power state, the local cap and the page follow, the fault entries are written, and the events raised pass
the fabric. -/
def finish (b : Block) : Block := ((((b.stateFollow).capFollow).keyFollow).writeFaults).settle

/-- `thermal.state` outside the hold. DEDUCED: the rate is governed while the case reading is above 110 °C or a step is in force. -/
def thermalStateFor (b : Block) : Nat :=
  if 110 * 16 < b.regI Obj.thermalCase ∨ b.reg Obj.thermalStep ≠ 0 then 2
  else if b.reg Obj.bufferRefreshState = 1 then 1 else 0

/-- A head stops for the thermal hold (R546); a start of the same CTL cycle is refused (R548). -/
def holdHead (h : HeadId) (b : Block) : Block :=
  if b.heads[h].state == .starting && ctlCycle b.heads[h].stateSince == ctlCycle b.now then
    (b.bump Obj.thermalVetoes).startFail h .thermalVeto false 0
  else b.headStop h

/-- Entry to thermal hold (R546). -/
def holdEnter (b : Block) : Block :=
  let b := ((b.setReg Obj.thermalState 3).bump Obj.thermalHolds).raise 20
  let b := (b.logFault 0x0070 noUnit (b.reg Obj.thermalDie) 20).alert 1
  (List.finRange 4).foldl (fun b (h : HeadId) => b.holdHead h) b

/-- Milliseconds added to a total of seconds. -/
def addMs (o : Obj) (above : Bool) (ms : Nat) (b : Block) : Nat × Block :=
  if !above then (ms, b) else if 999 ≤ ms then (0, b.bump o) else (ms + 1, b)

/-- New readings of the case and of the die in 1/16 °C, every 1 ms (R544, R546 to R549). `withEvaluation`: an evaluation falls in the same
CTL cycle, and a threshold crossed is used from the next one (R548). -/
def thermalReading (case_ die : Int) (withEvaluation : Bool) (b : Block) : Block :=
  let case0 := b.regI Obj.thermalCase
  let die0 := b.regI Obj.thermalDie
  let b := (b.setRegI Obj.thermalCase case_).setRegI Obj.thermalDie die
  let b := if b.regI Obj.thermalDiePeak < die then b.setRegI Obj.thermalDiePeak die else b
  let crosses (limit : Int) (old new : Int) : Bool := decide (old < limit) != decide (new < limit)
  let b := if withEvaluation && (crosses (110 * 16 + 1) case0 case_ || crosses (120 * 16) die0 die || crosses (115 * 16) die0 die)
    then b.bump Obj.thermalNearMisses else b
  let (m95, b) := b.addMs Obj.thermalTimeAbove95 (decide (95 * 16 < case_)) b.thermal.above95
  let (m110, b) := b.addMs Obj.thermalTimeAbove110 (decide (110 * 16 < case_)) b.thermal.above110
  let b := { b with thermal := { b.thermal with above95 := m95, above110 := m110 } }
  let fast := b.reg Obj.bufferRefreshState
  let b := b.refreshFollow case_
  let b := if b.reg Obj.bufferRefreshState = fast then b else (b.raise (if fast = 0 then 16 else 17)).alert 1
  let b := b.raiseIf (decide (case0 ≤ 110 * 16) && decide (110 * 16 < case_)) 18
  let b := b.raiseIf (decide (110 * 16 < case0) && decide (case_ ≤ 110 * 16)) 19
  let b := b.raiseIf (decide (die0 < 120 * 16) && decide (120 * 16 ≤ die)) 22
  let b := b.raiseIf (decide (die0 < 130 * 16) && decide (130 * 16 ≤ die)) 23
  let b := if case0 < 110 * 16 ∧ 110 * 16 ≤ case_ then b.emcyCause 0x4210 3 0 0xFFFF
    else if 110 * 16 ≤ case0 ∧ case_ < 110 * 16 then b.emcyClear 3 else b
  if b.reg Obj.thermalState = 3 then
    if die < 118 * 16 ∧ case_ ≤ 119 * 16 then (b.setReg Obj.thermalState b.thermalStateFor).alert 1 else b
  else if 124 * 16 ≤ die ∨ 121 * 16 < case_ then b.holdEnter
  else b.setReg Obj.thermalState b.thermalStateFor

/-- One evaluation, every 20 ms (R545). -/
def governorEvaluate (b : Block) : Block :=
  let n := b.reg Obj.thermalStep
  let die := b.regI Obj.thermalDie
  let b :=
    if 110 * 16 < b.regI Obj.thermalCase then
      if 120 * 16 ≤ die ∧ n < 7 then (b.setReg Obj.thermalStep (n + 1)).raise 20
      else if die < 115 * 16 ∧ 0 < n then (b.setReg Obj.thermalStep (n - 1)).raise 21
      else b
    else if 0 < n then (b.setReg Obj.thermalStep (n - 1)).raise 21
    else b
  if b.reg Obj.thermalState = 3 then b else b.setReg Obj.thermalState b.thermalStateFor

end Sys2Proof.Machine.Block
end

