-- ==== Sys2Proof/Machine/Pins.lean ====
section
/-! DEFINITION. Pin ownership (R561 to R564). -/
namespace Sys2Proof.Machine.Block

/-- Claims of HDh_TRIG1: the head's line trigger, the capture burst trigger (R562). -/
def trig1Line (h : Nat) (b : Block) : Bool := b.reg (Obj.headTriggerSource h) == 6
def trig1Burst (h : Nat) (b : Block) : Bool := b.reg Obj.captureTriggerSource == 2 && b.reg Obj.captureTriggerHead == h

/-- Claims of AUX_ECHOe: the echo, the sync repeat (R562). -/
def echoOwn (e : Nat) (b : Block) : Bool := b.reg (Obj.echoMode e) == 1 || b.reg (Obj.echoMode e) == 2
def echoRepeat (e : Nat) (b : Block) : Bool := (b.reg Obj.deviceEchoSync).testBit e

/-- Whether the values in force claim a ball twice (R561). -/
def pinConflict (b : Block) : Bool :=
  (List.range 4).any fun k => (b.trig1Line k && b.trig1Burst k) || (b.echoOwn k && b.echoRepeat k)

/-- `device.pin_owner` at a sub-index (R562, R566). -/
def pinOwner (sub : Nat) (b : Block) : Nat :=
  let k := (sub - 1) % 4
  match (sub - 1) / 4 with
  | 0 => if b.reg (Obj.headTriggerSource k) = 5 then 1 else 0
  | 1 => if b.trig1Line k then 1 else if b.trig1Burst k then 2 else 0
  | 2 => if b.reg (Obj.headSyncMode k) = 0 then 0 else 1
  | _ => if b.echoOwn k then 1 else if b.echoRepeat k then 2 else 0

/-- At reset the claimant that stands higher in the table keeps a ball claimed twice; the other claim is withdrawn and logged (R563). -/
def pinsSettle (b : Block) : Block :=
  (List.range 4).foldl (fun b k =>
    let b := if b.trig1Line k && b.trig1Burst k then
        (((b.setReg Obj.captureTriggerSource Obj.captureTriggerSource.dflt).setReg Obj.captureTriggerHead Obj.captureTriggerHead.dflt).logFault
          0x0090 (k + 5) 1 noSource) else b
    if b.echoOwn k && b.echoRepeat k then
      (b.setReg Obj.deviceEchoSync (clearBit (b.reg Obj.deviceEchoSync) k)).logFault 0x0090 (k + 13) 1 noSource else b) b

end Sys2Proof.Machine.Block
end

