-- ==== Sys2Proof/Machine/System.lean ====
section
/-! DEFINITION. Supplies, reset, core restart and deep sleep (R7, R32, R50, R516 to R538, R595). -/
namespace Sys2Proof.Machine

/-- Group of a table or object by index: 0 for 0x1000–0x1FFF, 1 for 0x2000–0x5FFF, 2 for 0x6000–0x6FFF (R33). -/
def groupOf (index : Nat) : Fin 3 := if index < 0x2000 then 0 else if index < 0x6000 then 1 else 2

/-- Why a deep-sleep request or a wake request is made: by a dictionary write, by task, by SMBus POWER_REQUEST (R530). -/
inductive PowerVia where
  | write (r : Route)
  | task
  | smbus
  deriving DecidableEq, Repr

namespace Block

def modPower (f : Power → Power) (b : Block) : Block := { b with power := f b.power }

/-! ## Pier reset (R526 to R528) -/

/-- The rw-c objects' keys with their values, which a reset keeps (R37). -/
def committedRegs (b : Block) : Map Nat :=
  b.regs.filter fun e =>
    match findRow (e.1 / 256) (e.1 % 256) with
    | some r => r.acc == .rwc
    | none => false

/-- A pier reset with the cause bits given: every block returns to its state after reset but for what the nonvolatile store holds. What the
buffer then holds is open (R527 step 3). Levels that come from outside stay: PCIE_PERST_N, the limit switches, the fault inputs, the crystal and the PCIe reference. -/
def pierReset (causes : Nat) (b : Block) : Block :=
  let b := b.custodyCut
  let f := Block.fresh b.part causes (satAdd (b.reg Obj.powerResets) 1 max32)
  let f := (b.committedRegs).foldl (fun (f : Block) e => { f with regs := f.regs.insert e.1 e.2 }) f
  let f := f.setReg Obj.powerSequenceFaults (b.reg Obj.powerSequenceFaults)
  let f := { f with mem := memWipe f.mem 0 f.bufferSize b.free, free := b.free + f.bufferSize }
  let f := { f with outs := b.outs, repair := b.repair, capture := freshCapture b.capture.retired, saved := b.saved }
  let f := { f with faults := { b.faults with select := 0, suppressed := 0 } }
  let fw := { b.firmware with stage := [], status := 0, writing := false, trialEnds := none }
  let cu := { b.custody with recovery := b.custody.recovery.map fun r => { r with left := r.saved, since := 0 } }
  let f := { f with attest := ⟨[], b.attest.leaf⟩, firmware := fw, custody := cu, host := { f.host with released := b.host.released } }
  let f := { f with power := { f.power with crystal := b.power.crystal, pcieRef := b.power.pcieRef, violation := b.power.violation,
                                            resetAt := b.now }, now := b.now }
  { f with axes := Vector.ofFn fun (a : AxisId) =>
      { freshAxis with limP := b.axes[a].limP, limN := b.axes[a].limN } }

/-- A reset source acts: while the pier is held in reset it adds its cause bit, otherwise it begins a pier reset. -/
def resetSource (bitNo : Nat) (b : Block) : Block :=
  if b.power.phase = .held then
    (b.modPower fun x => { x with causes := setBit x.causes bitNo }).setReg Obj.powerResetCause (setBit b.power.causes bitNo)
  else b.pierReset (2 ^ bitNo)

/-- VDD_AON becomes good (R526): always a reset of its own. -/
def powerOn (b : Block) : Block := b.pierReset 1

/-- SYS_RESET_N low for at least 1 µs (R526). -/
def resetPin (b : Block) : Block := b.resetSource 1

/-- The cycle of the RC oscillator, 4 MHz, on which Plinth samples (R522). -/
def plinthCycle (t : Time) : Nat := t.toNat / (250 * tNs)

/-- A rail in fault for more than 1 µs, REF stopped for more than 4 µs, a die above 135 °C for 10 µs, while out of reset (R520, R523, R526).
Several sources in one cycle set several cause bits. -/
def resetRunning (bitNo : Nat) (b : Block) : Block :=
  if b.power.phase ≠ .held ∨ plinthCycle b.power.resetAt = plinthCycle b.now then b.resetSource bitNo else b

/-- The order of R517 is broken (R518): the first rail out of order is recorded, and the pier is held in reset. -/
def sequenceViolation (rail : Nat) (b : Block) : Block :=
  let b := (b.resetSource 3).bump Obj.powerSequenceFaults
  b.modPower fun x => { x with violation := x.violation.orElse fun _ => some rail }

/-- The loaded generation of a saved set takes force (R32, R36): a group without one keeps its defaults, with entry 0x0001 unless a restore
asked for it. -/
def loadGroup (g : Fin 3) (b : Block) : Block :=
  let s := b.saved[g]
  let s : SavedGroup := if s.delete then ⟨none, false, true⟩ else s
  let b := { b with saved := b.saved.set g s }
  match s.set with
  | none => if s.requested then b else b.logFault 0x0001 (g.val + 2) 0 noSource
  | some x =>
    { b with regs := x.regs.foldl (fun m e => m.insert e.1 e.2) b.regs, tables := x.tables.foldl (fun m e => m.insert e.1 e.2) b.tables }

/-- What follows from the saved sets once they are loaded: set numbers in force and the defective count (R152, R162, R186). -/
def loadedSets (b : Block) : Block :=
  (List.finRange 4).foldl (fun b (h : HeadId) =>
    let b := if (b.tables.get? (0x6024 + h.val)).isSome ∨ (b.tables.get? (0x6020 + h.val)).isSome
      then (((List.finRange 16).foldl (fun (b : Block) (s : SegId) => b.gainTo h s ((b.activeSet h).gains.getD s.val 0)) b).setReg
        (Obj.headCorrSetInForce h) (b.activeSet h).number).updateDefective h else b
    if (b.tables.get? (0x602C + h.val)).isSome then b.setReg (Obj.headStitchSetInForce h) (geoNumber (b.activeGeometry h)) else b) b

/-- The functions of the heads derive when the dictionary is first served (R41); those of a head that is not stopped keep what they
have. DESIGN CHOICE: so does the pattern function, which has a command of its own, for its broadcast delay, so that it reads its derived
value before the head's first start. -/
def headsDerive (b : Block) : Block :=
  (List.finRange 4).foldl (fun (b : Block) (h : HeadId) => if b.headStopped h then b.headDerive h else b) b

/-- The dictionary is served (R527 step 5, R528, R535 step 7): functions start (R41), the ready bit and the boot-up message follow (R438,
R462). -/
def serve (b : Block) : Block :=
  let b := (b.modPower fun x => { x with phase := .served }).headsDerive.functionStart
  let b := b.modHost fun x => { x with ready := x.released }
  b.resetComm

/-- Release from reset (R527): boot, saved sets, pins, log entries, service, source 0. `bad` is where the boot ROM finds the SRAM or the
nonvolatile store failing (R575). -/
def resetRelease (bad : Option Nat) (b : Block) : Block :=
  if b.power.phase ≠ .held then b
  else
    let causes := b.power.causes
    let b := ((((b.boot).loadGroup 0).loadGroup 1).loadGroup 2).loadedSets
    let b := (b.pinsSettle).logFault 0x0004 noUnit causes 0
    let b := match b.power.violation with
      | some rail => (b.logFault 0x0002 rail 0 noSource).modPower fun x => { x with violation := none }
      | none => b
    let b := match bad with | some x => b.logFault 0x0007 noUnit x noSource | none => b
    let b := b.modSmb fun x => { x with address := b.reg Obj.smbAddress, mask := b.reg Obj.smbAddressMask }
    ((((b.serve).spanTraining 0).spanTraining 1).raise 0)

/-! ## Restart of the control cores (R7, R50, R528) -/

/-- What a restart of the control cores loses of requests that are not answered. DESIGN CHOICE: the spec gives them no answer (R498, R595); the
SMBus target takes requests again, and a mailbox slot whose request is this pier's own returns to state 0. -/
def requestsCut (b : Block) : Block :=
  let b := b.modSmb fun x => { x with executing := false, staged := [] }
  let own (s : MailSlot) : Bool := fieldU (padTo 32 s.request) 1 1 == 0xFF || fieldU (padTo 32 s.request) 1 1 == b.pier
  b.modHost fun x => { x with slots := x.slots.map fun s => if s.state = 1 ∧ s.answer = none ∧ own s then { s with state := 0 } else s }

/-- The control cores restart with a restart cause bit: heads stop at the next line boundary, the confirmed set is lost, downloads and a save
in progress end. -/
def restartCores (bitNo : Nat) (b : Block) : Block :=
  if b.power.phase = .restarting then b.modPower fun x => { x with restart := setBit x.restart bitNo }
  else if b.power.phase ≠ .served then b
  else
    let b := (List.finRange 4).foldl (fun b (h : HeadId) => b.headStop h) b
    let b := ((b.setReg Obj.deviceFeaturesConfirmedLo 0).setReg Obj.deviceFeaturesConfirmedHi 0).setReg Obj.deviceFeaturesControl 0
    let b := b.custodyCut.privilegedCut
    let b := { b with control := ⟨[], none, []⟩, firmware := { b.firmware with writing := false } }
    let b := b.modPower fun x => { x with phase := .restarting, restart := 2 ^ bitNo, armed := none }
    let b := ((b.modCan fun x => { x with sessions := [] }).modHost fun x => { x with ready := false }).requestsCut
    (b.bump Obj.powerCoreRestarts).raise 14

/-- Armature serves the dictionary again (R528). -/
def coresRunning (b : Block) : Block :=
  if b.power.phase ≠ .restarting then b
  else
    let causes := b.power.restart
    let b := (b.setReg Obj.powerRestartCause causes).boot
    ((b.serve).logFault 0x0005 noUnit causes 15).raise 15

/-! ## Supplies and clocks (R520, R523) -/

/-- The good level and the fault level of each rail in mV (R516). -/
def railLevels : List (Nat × Nat) :=
  [(1710, 1620), (710, 680), (810, 770), (810, 770), (1710, 1620), (1710, 1620), (1140, 1080), (1710, 1620), (1280, 1220), (3140, 2970), (4750, 4500)]

/-- A rail below its good level for more than 10 µs (R516, R520): below its fault level it resets the pier. -/
def railLow (rail : Fin 11) (mv : Nat) (b : Block) : Block :=
  let level := railLevels.getD rail (0, 0)
  if b.power.phase = .held ∨ level.1 ≤ mv then b
  else if mv < level.2 then b.resetRunning 2
  else
    let b := (b.setReg (Obj.powerRailMv rail) mv).setReg Obj.powerRailStatus (setBit (b.reg Obj.powerRailStatus) rail)
    (b.raise 9).logFault 0x0003 rail.val mv 9

/-- Every rail is good again (R520). -/
def railsGood (b : Block) : Block :=
  if b.reg Obj.powerRailStatus = 0 then b else ((b.setReg Obj.powerRailStatus 0).raise 10).emcyClear 2

/-- Task 2 (R536): the rail readings in mV. -/
def railLatch (mv : List Nat) (b : Block) : Block :=
  ((List.range 11).zip mv).foldl (fun b p => b.setReg (Obj.powerRailMv p.1) p.2) b

/-- The PCIe reference stops for more than 4 µs, and returns (R523). -/
def pcieRefLost (b : Block) : Block := if b.power.pcieRef then ((b.modPower fun x => { x with pcieRef := false }).linkDown).raise 11 else b
def pcieRefRestored (b : Block) : Block := if b.power.pcieRef then b else (b.modPower fun x => { x with pcieRef := true }).raise 12

/-- The crystal fails (R523). -/
def crystalFail (b : Block) : Block := if b.power.crystal then (b.modPower fun x => { x with crystal := false }).raise 13 else b

/-- `clock.status` (R537); without REF the pier is in reset (R523). -/
def clockStatus (b : Block) : Nat :=
  (if b.power.phase = .served ∨ b.power.phase = .restarting then 0xF8 else 0) + (if b.power.crystal then 4 else 0) +
  (if b.power.pcieRef then 2 else 0) + 1

/-! ## Deep sleep (R530 to R535) -/

/-- Why a deep-sleep request is refused (R531). -/
def sleepViolations (b : Block) : List AbortCode :=
  codeIf (!b.allStopped || ((List.finRange 2).any fun (a : AxisId) => b.axes[a].state != .stopped) || b.aux.state != .stopped) .notStopped ++
  codeIf (b.control.save.isSome || b.custody.commit.isSome || !b.control.transfers.isEmpty || b.firmware.writing) .deviceState

def answerPower (v : PowerVia) (res : Result) (b : Block) : Block := match v with | .write r => b.reply r res | _ => b

/-- A deep-sleep request (R530, R531). A write over SMBus counts as a request over SMBus. -/
def sleepRequest (v : PowerVia) (b : Block) : Block :=
  if !b.served then b
  else
    match firstCode b.sleepViolations with
    | some c =>
      let quiet := match v with | .write .smbus => false | .write _ => true | _ => false
      let b := if quiet then b else (b.setReg Obj.powerRequestResult (if c = .notStopped then 3 else 5)).raise 4
      b.answerPower v (.abort c)
    | none =>
      let b := b.modPower fun x => { x with armed := some (later b.now (b.reg Obj.powerSleepWait * tMs)) }
      (b.setReg Obj.powerRequestResult 1).answerPower v .ok

/-- What deep sleep loses (R533), how its buses stand (R471, R478, R532), and the end of the table region, where the values in force are
written (R532): its contents are open. -/
def asleepNow (b : Block) : Block :=
  let b := { b with mem := memWipe b.mem 0x03000000 0x01000000 b.free, free := b.free + 0x01000000 }
  let b := b.modRing fun r => { r with members := [], leaderMode := none, offers := [], wrapAfter := none, minority := false, foreign := false,
                                       lastSync := none, lockSince := none, slew := 0, start := none, latches := [], source := none, asked := [] }
  let b := (((((b.setReg Obj.ringEpoch 0).setReg Obj.ringMembers 1).setReg Obj.ringTopology 0).setReg Obj.ringLeader 0xFF).setReg
    Obj.ringTimeState 0).setReg Obj.ringTimeSource 0xFF
  let b := [0, 1].foldl (fun (b : Block) s =>
    ((b.setReg (Obj.spanState s) 0).setReg (Obj.spanLaneMap s) 0).setReg (Obj.spanNeighbour s) 0xFF) b
  let b := (((b.setReg Obj.hostLinkSpeed 0).setReg Obj.hostLinkWidth 0).modHost fun x => { x with linkUp := false, d3hot := false, ready := false })
  let b := (b.modCan fun x => { x with nmt := .initialisation, standby := true, sessions := [], emcyQueue := [] })
  let b := b.modSmb fun x => { x with lowPower := true, wakingUntil := none }
  let b := (List.finRange 2).foldl (fun b (a : AxisId) => (b.modAxis a fun x => { x with validBefore := false }).setValid a false) b
  let b := if b.reg (Obj.axisSourcePier 0) = b.pier then b else b.sourceTo 0xFF
  let b := (List.finRange 16).foldl (fun b (u : TimerId) =>
    if b.reg (Obj.timerClock u) = 0 then b.modTimer u fun x => { x with running := false, count := 0 } else b) b
  (b.modPower fun x => { x with phase := .asleep, armed := none }).chooseAbutments

/-- The pier wakes with the wake-cause bits given (R534, R535). -/
def wake (bits : Nat) (b : Block) : Block :=
  if !b.asleep then b
  else
    let b := (((b.setReg Obj.powerWakeCause bits).emit (.power 4)).raise 2).alert 4
    let b := b.modSmb fun x => { x with lowPower := false, wakingUntil := none }
    (((b.serve).spanTraining 0).spanTraining 1).raise 3

/-- Whether a wake source acts (R534): bits 0 to 3 are masked by `power.wake_mask`. -/
def wakeBits (bits : Nat) (b : Block) : Nat := bits &&& (b.reg Obj.powerWakeMask ||| 0x30)

/-- The event of a wake source at the balls, by its bit (R534, R536). -/
def wakeEvent (bitNo : Fin 4) (b : Block) : Block :=
  match bitNo with
  | 0 => b.raiseIf (b.power.phase != .held) 5
  | 1 => b.raiseIf b.asleep 6
  | 2 => b.raiseIf b.asleep 7
  | 3 => b.pcieRelease

/-- The condition of an armed request is met (R531, R532). `early` are the wake sources that arrive while the pier enters (R534);
`withExpiry`: the wait expires in the same CTL cycle. DESIGN CHOICE: the condition is not met while a function has been started. -/
def sleepEnter (early : BitVec 6) (withExpiry : Bool) (b : Block) : Block :=
  match b.power.armed with
  | none => b
  | some u =>
    if !b.served || (b.host.linkUp && !b.host.d3hot) || (due u b.now && !withExpiry) || !b.sleepViolations.isEmpty then b
    else
      let b := if withExpiry then b.bump Obj.powerNearMisses else b
      let b := ((b.emit (.power 2)).raise 24).proposalExpires
      let b := (b.sendRing .leave).setReg Obj.powerRequestResult 2
      let b := (b.asleepNow).raise 1
      let b := (List.finRange 4).foldl (fun b (k : Fin 4) => if early.getLsbD k.val then b.wakeEvent k else b) b
      if b.wakeBits early.toNat = 0 then b else b.wake (b.wakeBits early.toNat)

/-- The wait of an armed request ends (R531). -/
def sleepExpire (b : Block) : Block :=
  match b.power.armed with
  | none => b
  | some u =>
    if due u b.now then ((b.modPower fun x => { x with armed := none }).setReg Obj.powerRequestResult 4).raise 4 else b

/-- A wake request by write, by SMBus or by task 1 (R530, R534): no effect outside deep sleep. -/
def wakeRequest (bitNo : Nat) (b : Block) : Block := b.wake (2 ^ bitNo)

/-- A wake source at the balls, by its bit (R534, R536): its event is raised, and an unmasked one wakes the pier. -/
def wakeSource (bitNo : Fin 4) (b : Block) : Block :=
  let b := b.wakeEvent bitNo
  let bits := b.wakeBits (2 ^ bitNo.val)
  if bits = 0 then b else b.wake bits

/-- Task 0 and task 1 in one Plinth cycle (R534): the pier does not wake. -/
def wakeTask (withSleep : Bool) (b : Block) : Block := if withSleep then b.bump Obj.powerCoincidences else b.wakeRequest 5

/-- POWER_REQUEST over SMBus (R474, R530): any other value than 1 and 2 has no effect. -/
def smbPower (value : Nat) (pecOk : Bool) (b : Block) : Block :=
  let (ok, b) := b.smbStart
  if !ok then b
  else if !pecOk then ((b.bump Obj.smbPecErrors).raise 945).smbStop
  else
    let b := b.smbStop
    match value with
    | 1 => b.sleepRequest .smbus
    | 2 => b.wakeRequest 4
    | _ => b

end Block
end Sys2Proof.Machine
end

