-- ==== Sys2Proof/Machine/Firmware.lean ====
section
/-! DEFINITION. Proposals, verdicts, commits, recovery, firmware commands and attestation (R489 to R514). -/
namespace Sys2Proof.Machine.Block

/-! ## Firmware commands (R506 to R510) -/

/-- Why an activation of the other slot is refused, but for the lock (R506, R509). `othersRun`: a head of another member of the epoch runs. -/
def activateViolations (othersRun : Bool) (b : Block) : List AbortCode :=
  let o : Fin 2 := 1 - b.firmware.running
  let st := b.firmware.slots[o].state
  codeIf (st != 1 && st != 3) .deviceState ++
  codeIf (!b.feature 9 && (othersRun || (List.finRange 4).any fun (h : HeadId) => b.heads[h].state == .running)) .feature

/-- An activation (R507): the other slot enters trial, and the control cores restart once the answer has been sent. -/
def activate_ (b : Block) : Block := (b.modSlotFw (1 - b.firmware.running) fun x => { x with state := 2 }).restartCores 1

/-- Command 1 (R506): the staged image is written to the slot that is not running. -/
def fwWrite (r : Route) (b : Block) : Block :=
  let run := b.firmware.running
  if b.firmware.status ≠ 2 ∨ b.firmware.slots[run].state = 2 ∨ b.firmware.writing then b.reply r (.abort .deviceState)
  else ((b.modSlotFw (1 - run) fun x => { x with state := 4 }).modFirmware fun x => { x with writing := true }).reply r .ok

/-- The slot has been written and read back (R505, R506): `same` says that the read-back agrees. -/
def slotWritten (same : Bool) (b : Block) : Block :=
  if !b.firmware.writing then b
  else
    let img := b.placeRead b.firmware.stage
    let ok := same && imageCheck img (b.reg Obj.fwSecurityFloor) == 2
    let b := b.modFirmware fun x => { x with writing := false }
    (b.modSlotFw (1 - b.firmware.running) fun _ => ⟨img, if ok then 1 else 4, same && imageCheck img 0 == 2⟩).raise 971

/-- Command 2 (R506, R507, R509). -/
def fwActivate (r : Route) (othersRun : Bool) (b : Block) : Block :=
  match firstCode (b.activateViolations othersRun ++ codeIf (b.isSet Obj.custodyFwLock) .countersign ++
      codeIf (b.custody.commit.isSome || b.firmware.writing) .deviceState) with
  | some c => b.reply r (.abort c)
  | none => (b.reply r .ok).activate_

/-- Command 3 (R507). `withExpiry`: the trial time ends in the same CTL cycle. -/
def fwConfirm (r : Route) (withExpiry : Bool) (b : Block) : Block :=
  let run := b.firmware.running
  if b.firmware.slots[run].state ≠ 2 then b.reply r (.abort .deviceState)
  else
    let b := if withExpiry then b.bump Obj.custodyNearMisses else b
    let img := b.firmware.slots[run].image
    let b := (b.modSlotFw run fun x => { x with state := 3 }).modSlotFw (1 - run) fun x => if x.state = 3 then { x with state := 1 } else x
    let b := b.modFirmware fun x => { x with trialEnds := none }
    let b := if imageRaises img then
        let floor := max (b.reg Obj.fwSecurityFloor) (imageSecurity img)
        (b.setReg Obj.fwSecurityFloor floor).modSlotFw (1 - run) fun x => if imageSecurity x.image < floor then { x with state := 4 } else x
      else b
    (b.raise 973).reply r .ok

/-- The trial time ends unconfirmed (R507): the cores restart, and the boot ROM runs the confirmed slot. -/
def trialExpire (b : Block) : Block :=
  match b.firmware.trialEnds with
  | none => b
  | some u => if due u b.now ∧ b.firmware.slots[b.firmware.running].state = 2 then b.restartCores 1 else b

/-- The staged image has been checked (R506). -/
def stageChecked (b : Block) : Block :=
  if b.firmware.status ≠ 1 then b
  else
    let st := imageCheck (b.placeRead b.firmware.stage) (b.reg Obj.fwSecurityFloor)
    (b.modFirmware fun x => { x with status := st }).raise (if st = 2 then 969 else 970)

/-! ## Proposals (R491 to R494) -/

/-- The codes that a change brings, as a write of its object would (R493, R510). DESIGN CHOICE: an object that is not rw-c brings
0x0800_0020. -/
def changeCodes (othersRun : Bool) (c : Change) (b : Block) : List AbortCode :=
  match findRow c.index c.sub with
  | none => [if indexExists c.index then .noSub else .noObject]
  | some r =>
    if r.acc ≠ .rwc then [.notStored]
    else if r.ty = .octets then
      codeIf (c.value.length != 97) .length ++ codeIf (c.value.head? != some 4) .range
    else
      r.dataCodes c.value ++
      codeIf (c.index == 0x2142 && decide (leNat c.value < b.reg Obj.fwSecurityFloor)) .tooLow ++
      (if c.index = 0x2143 then b.activateViolations othersRun ++ codeIf (leNat c.value == b.firmware.running.val) .deviceState else [])

/-- Whether the lamp limits would stand as R307 asks once the changes are in force. -/
def limitsOk (cs : List Change) (b : Block) : Bool :=
  let b := b.applyChanges cs
  (List.finRange 4).all fun (h : HeadId) =>
    decide (b.regI (Obj.headIllumOdZeroTemp h) ≤ b.regI (Obj.headIllumDerateStart h)) &&
    decide (b.regI (Obj.headIllumDerateStart h) < b.regI (Obj.headIllumDerateEnd h))

/-- The codes that the changes of a record bring (R493). -/
def recordCodes (othersRun : Bool) (record : List Byte) (b : Block) : List AbortCode :=
  match recChanges record with
  | none => [.notStored]
  | some cs =>
    let codes := cs.flatMap fun c => b.changeCodes othersRun c
    if codes.isEmpty then codeIf (!b.limitsOk cs) .incompatible else codes

/-- Whether a record's signature verifies with its proposer's key (R491, R493). -/
def recordSigned (board : Bool) (record : List Byte) (b : Block) : Bool :=
  let n := record.length - 96
  signedBy (b.custodianKey board) (record.take n) (record.drop n)

/-- A complete proposal record is evaluated (R493, R494, R499, R501). `board`: the object of the board custodian was written. -/
def proposalEvaluate (board : Bool) (r : Route) (record : List Byte) (othersRun : Bool) (b : Block) : Block :=
  let recovery := recKind record == 1
  let formed := recForm record
  let signed := b.recordSigned board record
  let stands := formed && fieldU record 1 1 == (if board then 2 else 1) && fieldU record 0x0C 4 == b.reg Obj.commIdentitySerial &&
    fieldU record 8 4 == b.custody.generation && slice record 0x10 32 == b.custody.nonce
  let keyOnly := (recChanges record).getD [] |>.map fun c => c.index
  let state := !b.provisioned || b.custody.commit.isSome ||
    (if recovery then b.custody.recovery.isSome else match b.custody.pending with | some p => p.board != board | none => false)
  let codes := codeIf (!stands || !signed || (recovery && keyOnly != [if board then 0x2120 else 0x2121])) .notStored ++
    codeIf state .deviceState ++ codeIf (formed && recReserved record) .range ++ (if formed then b.recordCodes othersRun record else [])
  match firstCode codes with
  | some c =>
    let b := if c = .notStored ∧ !signed then (b.bump Obj.custodyBadSignatures).raise 964 else b
    b.reply r (.abort c)
  | none =>
    let b := if recovery then
        let delay := b.reg Obj.custodyRecoveryDelay * tSec
        (b.modCustody fun x => { x with recovery := some ⟨record, board, delay, b.now, delay⟩ }).raise 965
      else b.modCustody fun x => { x with pending := some ⟨record, board, later b.now (60 * tSec)⟩ }
    ((b.raise 960).alert 2).reply r .ok

/-- The bytes of a draft from 0 without a gap. -/
def draftBytes : Nat → Map Byte → List Byte
  | _, [] => []
  | k, (a, v) :: rest => if a = k then v :: draftBytes (k + 1) rest else []

def setDraft (board : Bool) (d : Option Draft) (b : Block) : Block :=
  b.modCustody fun x => if board then { x with boardDraft := d } else { x with hostDraft := d }
def draftOf (board : Bool) (b : Block) : Option Draft := if board then b.custody.boardDraft else b.custody.hostDraft

/-- A draft that is given up aborts the write that waits for it (R31, R492). -/
def draftDrop (board : Bool) (b : Block) : Block :=
  match b.draftOf board with
  | none => b
  | some d =>
    let b := b.setDraft board none
    match d.route with
    | some r => b.reply r (.abort .timedOut)
    | none => b

/-- A write to a propose object (R491, R492): its bytes are stored at the offset it carries; offset 0 starts a new record. Over SMBus every
part is answered; on the other routes the record is one transfer, answered at its end. -/
def proposeWrite (board : Bool) (r : Route) (offset : Nat) (data : List Byte) (othersRun : Bool) (b : Block) : Block :=
  if 1024 < offset + data.length then b.reply r (.abort .length)
  else
    let b := if offset = 0 then
        (b.draftDrop board).setDraft board (some ⟨[], b.now, if r = .smbus then none else some r⟩) else b
    match b.draftOf board with
    | none => b.reply r .ok
    | some d =>
      let bytes := data.zipIdx.foldl (fun m x => m.insert (offset + x.2) x.1) d.bytes
      let l := draftBytes 0 bytes
      if 6 ≤ l.length ∧ recLength l ≤ l.length then
        (b.setDraft board none).proposalEvaluate board r (l.take (recLength l)) othersRun
      else
        let b := b.setDraft board (some { d with bytes := bytes })
        if r = .smbus then b.reply r .ok else b

/-- A record has not finished within 1 s of its write at offset 0 (R492). -/
def draftTimeout (board : Bool) (b : Block) : Block :=
  match b.draftOf board with
  | none => b
  | some d => if passed d.startedAt tSec b.now then b.draftDrop board else b

/-! ## Enrolment (R489) -/

/-- An enrol record is written by a custodian. -/
def enrol (board : Bool) (r : Route) (data : List Byte) (b : Block) : Block :=
  if data.length ≠ 193 then b.reply r (.abort .length)
  else if !keyUnset (b.custodianKey board) then b.reply r (.abort .countersign)
  else
    let key := data.take 97
    if key.head? ≠ some 4 ∨ !signedBy key (key ++ b.custody.nonce) (data.drop 97) then ((b.bump Obj.custodyBadSignatures).raise 964).reply r (.abort .notStored)
    else
      let b := b.modCustody fun x => if board then { x with boardKey := key } else { x with hostKey := key }
      ((b.raise 968).renewNonce).reply r .ok

/-! ## Verdicts and commits (R495 to R502) -/

/-- Which pending record a verdict names: true for the recovery. -/
def verdictNames (data : List Byte) (b : Block) : Option Bool :=
  let digest := slice data 8 48
  match b.custody.pending, b.custody.recovery with
  | some p, some q => if Config.sha384 p.record = digest then some false else if Config.sha384 q.record = digest then some true else none
  | some p, none => if Config.sha384 p.record = digest then some false else none
  | none, some q => if Config.sha384 q.record = digest then some true else none
  | none, none => none

/-- Codes of a verdict but for its form and its signature (R495): the proposer's own verdict, a reserved field that is set (R2), a pier
that takes no verdict. -/
def verdictCodes (board : Bool) (data : List Byte) (b : Block) : List AbortCode :=
  let own := match b.verdictNames data with
    | none => false
    | some recovery => (if recovery then b.custody.recovery.map (·.board) else b.custody.pending.map (·.board)) == some board
  codeIf own .countersign ++ codeIf (fieldU data 3 1 != 0 || !zeroAt data 0x38 8) .range ++
  codeIf (!b.provisioned || b.custody.commit.isSome) .deviceState

/-- The journal entry of a commit is written (R497 steps 1 and 2). -/
def commitBegin (record : List Byte) (recovery : Bool) (route : Option Route) (b : Block) : Block :=
  b.modCustody fun x => { x with commit := some ⟨record, recovery, route⟩ }

/-- A verdict record (R495 to R502). `withExpiry`: the window, or the recovery delay, ends in the same cycle; the verdict is then taken. -/
def verdict (board : Bool) (r : Route) (data : List Byte) (withExpiry othersRun : Bool) (b : Block) : Block :=
  if data.length ≠ 160 then b.reply r (.abort .length)
  else match firstCode (b.verdictCodes board data) with
  | some c => b.reply r (.abort c)
  | none =>
    let v := fieldU data 2 1
    let formed := fieldU data 0 1 == 1 && fieldU data 1 1 == (if board then 2 else 1) && decide (v ≤ 1) && fieldU data 4 4 == b.custody.generation
    let signed := signedBy (b.custodianKey board) (data.take 0x40) (data.drop 0x40)
    match b.verdictNames data with
    | none => b.reply r (.abort .notStored)
    | some recovery =>
      let record := if recovery then (b.custody.recovery.map (·.record)).getD [] else (b.custody.pending.map (·.record)).getD []
      if !signed then ((b.bump Obj.custodyBadSignatures).raise 964).reply r (.abort .notStored)
      else if !formed ∨ (recovery ∧ v = 1) then b.reply r (.abort .notStored)
      else
        let near (b : Block) : Block := if withExpiry then b.bump Obj.custodyNearMisses else b
        if recovery then
          (((near b).modCustody fun x => { x with recovery := none }).bump Obj.custodyDeclines |>.raise 967).reply r .ok
        else if v = 0 then
          ((((near b).modCustody fun x => { x with pending := none }).bump Obj.custodyDeclines |>.raise 963).renewNonce).reply r .ok
        else
          match firstCode (b.recordCodes othersRun record) with
          | some c => b.reply r (.abort c)
          | none => (near b).commitBegin record false (some r)

/-- The window of the pending proposal ends (R496). -/
def windowExpire (b : Block) : Block :=
  match b.custody.pending with
  | some p => if due p.ends b.now ∧ b.custody.commit.isNone then b.proposalExpires else b
  | none => b

/-- Steps 3 and 4 of a commit (R497, R510): the changes take force together, the answer is sent, and an activation follows it. -/
def commitComplete (b : Block) : Block :=
  match b.custody.commit with
  | none => b
  | some c =>
    let activates := ((recChanges c.record).getD []).any fun x => x.index == 0x2143
    let b := (b.journalApply c).raise 961
    let b := b.raiseIf c.recovery 966
    let b := match c.route with | some r => b.reply r .ok | none => b
    if activates then b.activate_ else b

/-- The delay of a recovery has passed (R501, R502): it commits. A decline in the same Plinth cycle wins. -/
def recoveryDue (withDecline : Bool) (b : Block) : Block :=
  match b.custody.recovery with
  | none => b
  | some q =>
    if b.recoveryLeft q ≠ 0 ∨ withDecline ∨ b.custody.commit.isSome ∨ !b.served then b
    else if (b.recordCodes false q.record).isEmpty then b.commitBegin q.record true none
    else b

/-- The progress of the delay is saved (R502). -/
def recoverySave (b : Block) : Block :=
  b.modCustody fun x => { x with recovery := x.recovery.map fun q => { q with saved := b.recoveryLeft q } }

/-- Every 24 h of a pending recovery (R502). -/
def recoveryRemind (b : Block) : Block := if b.custody.recovery.isSome then b.emcyCause 0xFF02 7 0 0xFFFF else b

/-! ## Attestation (R511, R512) -/

/-- Every rw-c value in ascending order of index and sub-index, the keys among them. -/
def rwcBytes (b : Block) : List Byte :=
  let u (o : Obj) : List Byte := leBytes (o.ty.bits / 8) (b.reg o)
  b.custody.hostKey ++ b.custody.boardKey ++ u Obj.custodyRecoveryDelay ++ u Obj.custodyFwLock ++ u Obj.fwSecurityFloor ++ u Obj.fwActivateSlot ++
  (List.range 4).flatMap fun h => u (Obj.headIllumDerateStart h) ++ u (Obj.headIllumDerateEnd h) ++ u (Obj.headIllumDerateFloor h) ++
    u (Obj.headIllumOdBudget h) ++ u (Obj.headIllumOdFullTemp h) ++ u (Obj.headIllumOdZeroTemp h)

/-- The signed part of a report. -/
def reportBody (nonce : List Byte) (b : Block) : List Byte :=
  let slot (s : Fin 2) : FwSlot := b.firmware.slots[s]
  leBytes 4 0x54535441 ++ leBytes 2 1 ++ leBytes 2 2124 ++ leBytes 4 (b.reg Obj.commIdentitySerial) ++ leBytes 1 (b.reg Obj.ringPierNumber) ++
  leBytes 1 (if b.part.big then 0x16 else 0x08) ++ leBytes 2 0 ++ nonce ++ leBytes 8 b.now.toNat ++ leBytes 4 (b.reg Obj.ringEpoch) ++
  leBytes 4 b.custody.generation ++ leBytes 1 b.firmware.running.val ++ leBytes 1 (slot 0).state ++ leBytes 1 (slot 1).state ++ leBytes 1 0 ++
  leBytes 4 (b.reg Obj.fwSecurityFloor) ++ leBytes 4 (imageVersion (slot 0).image) ++ leBytes 4 (imageVersion (slot 1).image) ++
  Config.sha384 (imageHeader (slot 0).image) ++ Config.sha384 (imageHeader (slot 1).image) ++ Config.sha384 b.rwcBytes ++
  leBytes 8 (b.reg Obj.deviceFeaturesConfirmedLo) ++ leBytes 8 (b.reg Obj.deviceFeaturesConfirmedHi) ++ leBytes 4 b.attest.leaf ++
  List.replicate 12 0

/-- LMS leaves at manufacture. -/
def lmsLeaves : Nat := 1048576

/-- A nonce is written: a report is formed and signed with one leaf, or none is left. The signatures' bytes are not fixed by the spec. -/
def attestNonce (r : Route) (nonce : List Byte) (b : Block) : Block :=
  if nonce.length ≠ 32 then b.reply r (.abort .length)
  else if lmsLeaves ≤ b.attest.leaf then
    ((b.raise 979).logFault 0x0080 noUnit 0 979).reply r (.abort .deviceState)
  else
    let body := b.reportBody nonce
    let sig := exactly 96 (Config.freeBytes b.free)
    let b := b.used
    let lms := exactly 1772 (Config.freeBytes b.free)
    let b := { b.used with attest := ⟨body ++ sig ++ lms, b.attest.leaf + 1⟩ }
    let left := lmsLeaves - b.attest.leaf
    ((b.raise 977).raiseIf (decide (left ≤ 10485)) 978).reply r .ok

end Sys2Proof.Machine.Block
end

