-- ==== Sys2Proof/Machine/Service.lean ====
section
/-! DEFINITION. Faults and in-service maintenance (R579 to R589): the fault log as an object, clearing of the counters, and memory
repair. -/
namespace Sys2Proof.Machine

namespace Block

/-! ## The fault log (R580, R582) -/

/-- The 32 bytes of an entry (R580). -/
def entryBytes (e : FaultEntry) : List Byte :=
  leBytes 4 e.number ++ leBytes 2 e.code ++ leBytes 1 e.unit ++ leBytes 1 e.severity ++ leBytes 8 e.time.toNat ++ leBytes 2 e.source ++
  leBytes 2 0 ++ leBytes 4 e.epoch ++ leBytes 8 e.detail

/-- `fault.log_entry`: the selected entry, or 32 zero bytes when the log does not hold it (R582). -/
def logEntry (b : Block) : List Byte :=
  match b.faults.entries.find? fun e => e.number == b.faults.select with
  | some e => entryBytes e
  | none => leBytes 32 0

/-- `fault.log_select` is written (R582). -/
def logSelect (n : Nat) (b : Block) : Block := { b with faults := { b.faults with select := n } }

/-- `fault.log_clear` is written (R582): the log is empty and its numbering goes on; an entry that arose in the same CTL cycle stays. -/
def logClear (b : Block) : Block :=
  let kept := b.faults.entries.filter fun e => ctlCycle e.time == ctlCycle b.now
  { b with faults := { b.faults with entries := kept, oldest := match kept with | [] => b.faults.last + 1 | e :: _ => e.number } }

/-! ## Clearing the counters (R583) -/

/-- Whether a key of the register map is a diagnostic counter. -/
def isCounter (key : Nat) : Bool :=
  match findRow (key / 256) (key % 256) with | some r => r.ctr | none => false

/-- Every diagnostic counter of the pier is set to 0. `again` are the keys of the counters that increment in the cycle in which their
block clears them; those read 1. -/
def diagClear (again : List Nat) (b : Block) : Block :=
  let one (key : Nat) : Nat := if again.contains key then 1 else 0
  let regs := b.regs.filter fun e => !isCounter e.1
  let b := { b with regs := (again.filter isCounter).foldl (fun m k => m.insert k 1) regs }
  let f := b.fabric
  let b := { b with fabric := { f with
    stormTrips := one 0x230103, loopRefusals := one 0x230105, nearMisses := one 0x230106,
    coincidences := (again.filter fun k => decide (0x231800 ≤ k) && decide (k < 0x231C00)).foldl
      (fun m k => m.insert ((k / 256 - 0x2318) * 128 + k % 256 - 1) 1) [] } }
  let b := { b with faults := { b.faults with suppressed := one 0x500106 } }
  let b := b.modCan fun x => { x with emcyDropped := one 0x270205 }
  let b := b.modKey fun k => { k with pauseSince := k.pauseSince.map fun _ => b.now }
  { b with thermal := { b.thermal with above95 := 0, above110 := 0 } }

/-! ## Memory repair (R587 to R589) -/

def modRepair (f : Repair → Repair) (b : Block) : Block := { b with repair := f b.repair }

/-- Whether a spare is left in the bank group of a row. -/
def spareLeft (row : MemRow) (b : Block) : Bool :=
  !((b.repair.soft ++ b.repair.hard).any fun x => x.die == row.die && x.bank == row.bank)

/-- A candidate without a spare: entry 0x0033, and its block of the capture region is retired (R589). -/
def noSpare (row : MemRow) (block : Option Nat) (b : Block) : Block :=
  let b := (b.logFault 0x0033 row.die row.row noSource).modRepair fun x => { x with candidates := x.candidates.filter (· != row) }
  match block with
  | none => b
  | some n => b.modCapture fun c => { c with retired := if c.retired.contains n then c.retired else c.retired ++ [n] }

/-- A row becomes a candidate (R587): entry 0x0031, and without a spare its block is retired (R589). `block` is the 2 MiB block of the
capture region in which the row lies, nothing outside that region. -/
def rowCandidate (row : MemRow) (block : Option Nat) (b : Block) : Block :=
  let b := b.logFault 0x0031 row.die row.row noSource
  if b.spareLeft row then
    b.modRepair fun x => { x with candidates := if x.candidates.contains row then x.candidates else x.candidates ++ [row] }
  else b.noSpare row block

/-- A candidate is repaired in soft form (R587): with `mem.ppr.auto` at 1 and a spare left, the row is copied out, the spare programmed
and the row written back, so its contents stay; entry 0x0032. -/
def softRepair (row : MemRow) (block : Option Nat) (b : Block) : Block :=
  if !b.repair.candidates.contains row then b
  else if !b.spareLeft row then b.noSpare row block
  else if b.reg Obj.memPprAuto = 0 then b
  else
    let b := b.modRepair fun x => { x with candidates := x.candidates.filter (· != row), soft := x.soft ++ [row] }
    b.logFault 0x0032 row.die row.row noSource

/-- Every soft repair becomes a hard repair (R588). -/
def pprHarden (b : Block) : Block :=
  let rows := b.repair.soft
  let b := b.modRepair fun x => { x with soft := [], hard := x.hard ++ x.soft }
  rows.foldl (fun b row => b.logFault 0x0032 row.die (setBit row.row 63) noSource) b

end Block
end Sys2Proof.Machine
end

