-- ==== Sys2Proof/Machine/Test.lean ====
section
/-! DEFINITION. Boundary scan and production test (R568 to R577): the test access port, the memory self-test and the loopbacks. -/
namespace Sys2Proof.Machine

/-- The code of an instruction (R569). -/
def TapInstr.code : TapInstr → Nat
  | .extest => 0x00 | .idcode => 0x01 | .samplePreload => 0x02 | .clamp => 0x04 | .highz => 0x05
  | .extestPulse => 0x09 | .extestTrain => 0x0A | .bypass => 0xFF

namespace Block

def modTest (f : Test → Test) (b : Block) : Block := { b with test := f b.test }

/-- Test-Logic-Reset (R568): every ball under functional control, IDCODE in force. -/
def tapReset (b : Block) : Block := b.modTest fun x => { x with instr := .idcode }

/-- Every head, every axis and the sequencer fault, the spans and the PCIe link go down, and an entry is written (R571). -/
def takeBalls (code : Nat) (b : Block) : Block :=
  let b := b.modTest fun x => { x with taken := true }
  let b := (List.finRange 4).foldl (fun b (h : HeadId) =>
    let b := b.answerStart h (.abort .deviceState)
    let b := (b.discardLines h).modHead h fun x => { x with state := .faulted, nextDue := none, owed := [], stateSince := b.now }
    (((b.outputsRest h 0).setReg (Obj.headClockLocked h) 0).windowStop h).ringStartHead h false) b
  let b := (List.finRange 2).foldl (fun b (a : AxisId) =>
    (((b.keyFault a).freezeCommand a).modAxis a fun x => { x with state := .faulted }).switchOff a) b
  let b := b.aux.startVia.foldl (fun b v => b.replyVia v (.abort .deviceState)) b
  let b := b.modAux fun x => { x with state := .faulted, startVia := [] }
  (((b.spanDown 0).spanDown 1).linkDown).logFault 0x00A0 noUnit code noSource

/-- While an instruction that takes the balls is in force, they stand as the boundary register says (R569, R572): in HIGHZ all are released. -/
def driveBalls (b : Block) : Block := if b.ballsTaken then b.emit (.balls b.test.instr.code b.test.boundary) else b

/-- An instruction enters force after a scan of the instruction register, whose capture shifts out 0b0000_0001 (R569). In deep sleep
every instruction other than IDCODE decodes as BYPASS (R568). -/
def tapInstr (i : TapInstr) (b : Block) : Block :=
  let i := if b.asleep && i != .idcode then .bypass else i
  let b := (b.emit (.tdo 8 1)).modTest fun x => { x with instr := i }
  if i.takes then (b.takeBalls i.code).driveBalls else b

/-- A scan of the register that the instruction in force selects (R569, R570, R572): what it captures shifts out, and what was shifted in
is held at its end. `pins` is what the cells capture from the balls and the core; where a bank has no supply that value is open
(R574). -/
def tapScan (pins update : BitVec 360) (b : Block) : Block :=
  match (if b.asleep && b.test.instr != .idcode then TapInstr.bypass else b.test.instr) with
  | .extest | .samplePreload | .extestPulse | .extestTrain =>
    ((b.emit (.tdo 360 pins.toNat)).modTest fun x => { x with boundary := update }).driveBalls
  | .idcode => b.emit (.tdo 32 0x164405A7)
  | .clamp | .highz | .bypass => b.emit (.tdo 1 0)

/-! ## Memory self-test (R575) -/

/-- Whether two byte ranges overlap. -/
def rangesMeet (s n t m : Nat) : Bool := decide (s < t + m) && decide (t < s + n) && decide (0 < n) && decide (0 < m)

/-- Whether a range holds something that a self-test must not destroy (R575): the delay region of a head that is not stopped, a partition
or readout region with records, a table staging in progress. -/
def mbistBlocked (s n : Nat) (b : Block) : Bool :=
  ((List.finRange 4).any fun (h : HeadId) => !b.headStopped h && rangesMeet s n (0x04000000 + h.val * 0x1000000) 0x1000000) ||
  ((List.finRange 4).any fun (h : HeadId) => !b.capture.partitions[h].items.isEmpty &&
    rangesMeet s n (b.captureBase + b.partitionStart h) (b.shareBytes h)) ||
  (!b.capture.readout.isEmpty && rangesMeet s n 0x08000000 (b.reg Obj.bufferReadoutSize * 1048576)) ||
  (!b.control.transfers.isEmpty && rangesMeet s n 0 0x04000000)

/-- Why a self-test is refused. DESIGN CHOICE: a range that is empty or reaches past the buffer is answered 0x0604_0043. -/
def mbistViolations (b : Block) : List AbortCode :=
  let s := b.reg Obj.testMbistStartAddr
  let n := b.reg Obj.testMbistLength
  codeIf (n == 0 || decide (b.bufferSize < s + n)) .incompatible ++ codeIf (b.mbistBlocked s n) .conflict ++
  codeIf (b.test.range.isSome) .deviceState

/-- A self-test starts; the contents of its range are lost. -/
def mbistStart (b : Block) : Block :=
  let s := b.reg Obj.testMbistStartAddr
  let n := b.reg Obj.testMbistLength
  let b := ((b.setReg Obj.testMbistStatus 1).setReg Obj.testMbistErrors 0).setReg Obj.testMbistFirstFail 0
  { b with mem := memWipe b.mem s n b.free, free := b.free + n, test := { b.test with range := some (s, n) } }

/-- A self-test is aborted. -/
def mbistAbort (b : Block) : Block :=
  if b.test.range.isNone then b else (b.modTest fun x => { x with range := none }).setReg Obj.testMbistStatus 4

/-- A write to `test.mbist.command`. A start that meets an abort in one CTL cycle is refused, and no test runs (R27, R575). -/
def mbistCommand (v : Nat) (r : Route) (withOther : Bool) (b : Block) : Block :=
  let b := if withOther then b.bump Obj.deviceCommandCoincidences else b
  if v = 2 then (b.mbistAbort).reply r .ok
  else if withOther then (b.mbistAbort).reply r (.abort .deviceState)
  else match firstCode b.mbistViolations with
    | some c => b.reply r (.abort c)
    | none => (b.mbistStart).reply r .ok

/-- A self-test ends with its count of failing bursts, the lowest failing address, and the rows at which it failed, each with its block
of the capture region. -/
def mbistComplete (errors first : Nat) (rows : List (MemRow × Option Nat)) (b : Block) : Block :=
  if b.test.range.isNone then b
  else
    let b := (b.modTest fun x => { x with range := none }).setReg Obj.testMbistStatus (if errors = 0 then 2 else 3)
    let b := (b.setReg Obj.testMbistErrors (min errors max32)).setReg Obj.testMbistFirstFail (if errors = 0 then 0 else first)
    rows.foldl (fun b x => b.rowCandidate x.1 x.2) b

/-! ## Loopbacks (R576) -/

/-- A write to `test.span.loopback`; `errors` are the bit errors that the loopback ending now has counted. -/
def spanLoopback (s : SpanId) (mode errors : Nat) (b : Block) : Block :=
  let old := b.reg (Obj.testSpanLoopback s)
  let b := if old = 1 ∨ old = 3 then b.count (Obj.testSpanPrbsErrors s) errors else b
  let b := b.setReg (Obj.testSpanLoopback s) mode
  if mode = 0 then b.spanTraining s else b.spanDown s

/-- The PCIe endpoint enters loopback as follower (R576); the link is down meanwhile. PRESUMED from the PCI Express Base Specification. -/
def pcieLoopback (b : Block) : Block := (b.linkDown).modHost fun x => { x with loopback := true }

end Block
end Sys2Proof.Machine
end

