-- ==== Sys2Proof/Machine/HeadCommands.lean ====
section
/-! DEFINITION. Commands of a head that a dictionary write and a task can both give: range commits, correction sets, calibrations and
geometries (R114, R120, R147 to R154, R173, R185 to R189). -/
namespace Sys2Proof.Machine
namespace Block

/-! ## The armed slot of the correction (R120, R148, R150, R151) -/

/-- Whether a swap or range change of the shadow is armed (R148). -/
def shadowArmed (h : HeadId) (b : Block) : Bool :=
  match b.corr[h].armed with
  | some .swap => true
  | some (.range codes n) => !b.activeFits h n codes
  | none => false

/-- Whether the shadow set is in use by an armed change or a calibration (R148). -/
def shadowBusy (h : HeadId) (b : Block) : Bool := b.shadowArmed h || b.corr[h].cal.phase != 0

/-- Why a commit of set n is refused (R121). -/
def commitViolations (h : HeadId) (n : Nat) (b : Block) : List AbortCode :=
  codeIf (n == 0xFFFF) .range ++ codeIf (!b.rangeReady h n) .deviceState

/-- A commit of set n by write (rank 0) or task (rank 1), its set ready (R120, R121). -/
def rangeCommit (h : HeadId) (n rank : Nat) (sameCycle : Bool) (b : Block) : Block :=
  b.corrArmOrTake h (.range (b.stagedGains h) n) rank sameCycle

/-- A commit by task, refused and counted when its set is not ready (R121). -/
def rangeCommitTask (h : HeadId) (sameCycle : Bool) (b : Block) : Block :=
  let n := b.reg (Obj.headVideoRangeTaskSet h)
  if (b.commitViolations h n).isEmpty then b.rangeCommit h n 1 sameCycle else b.bump (Obj.headVideoRangeRefusals h)

/-- Why a swap to set n is refused (R150). -/
def swapViolations (h : HeadId) (n : Nat) (b : Block) : List AbortCode := codeIf (!b.shadowFits h n (b.gainsInForce h)) .deviceState

/-- A swap by write (rank 2) or task (rank 3), its set ready (R150). -/
def corrSwap (h : HeadId) (rank : Nat) (sameCycle : Bool) (b : Block) : Block := b.corrArmOrTake h .swap rank sameCycle

/-- A swap by task, refused and counted when the shadow is not ready for the gains in force (R150). -/
def corrSwapTask (h : HeadId) (sameCycle : Bool) (b : Block) : Block :=
  if (b.swapViolations h (b.shadowSet h).number).isEmpty then b.corrSwap h 3 sameCycle else b.bump (Obj.headCorrTaskRefusals h)

/-! ## Preparing a set (R153) -/

/-- Why a prepare of set n is refused (R148, R153). -/
def prepareViolations (h : HeadId) (n : Nat) (b : Block) : List AbortCode :=
  codeIf (n == 0xFFFF) .range ++ codeIf (b.shadowBusy h) .conflict

/-- A prepare is accepted. DESIGN CHOICE: a prepare still running is replaced, its write answered 0x0800_0022. -/
def corrPrepare (h : HeadId) (n : Nat) (via : Via) (b : Block) : Block :=
  let b := match b.corr[h].prepare with | some (_, _, old) => b.replyVia old (.abort .deviceState) | none => b
  b.modCorr h fun c => { c with prepare := some (n, b.stagedGains h, via) }

/-- The prepared set is ready (R153). -/
def prepareComplete (h : HeadId) (b : Block) : Block :=
  match b.corr[h].prepare with
  | none => b
  | some (n, staged, via) =>
    let c := prepareSet (b.activeSet h) n (b.reg (Obj.headLayoutActive h)) staged (b.gainsInForce h)
    let b := ((b.setShadow h c).setReg (Obj.headCorrShadowReady h) n).modCorr h fun x => { x with prepare := none }
    (b.raise (headSource h 30)).replyVia via .ok

/-! ## Reference-strip calibration (R154) -/

/-- Why a calibration start is refused (R154, R585). -/
def calViolations (h : HeadId) (b : Block) : List AbortCode :=
  codeIf (b.heads[h].state == .isolated) .isolated ++ codeIf (b.corrLevel h == 1) .level ++
  codeIf (b.heads[h].state != .running || b.corr[h].cal.phase != 0) .deviceState

/-- A start and an abort of one HD cycle (R154): no calibration runs, and the coincidence is counted. -/
def calBoth (h : HeadId) (b : Block) : Block := (b.calFail h 9).bump (Obj.headCorrCoincidences h)

/-- A calibration start by task. -/
def calStartTask (h : HeadId) (withAbort : Bool) (b : Block) : Block :=
  if withAbort then b.calBoth h
  else if (b.calViolations h).isEmpty then b.calBegin h else b.bump (Obj.headCorrTaskRefusals h)

/-- A calibration abort by task. -/
def calAbortTask (h : HeadId) (withStart : Bool) (b : Block) : Block := if withStart then b.calBoth h else b.calFail h 9

/-! ## Geometry (R173, R185 to R189) -/

/-- Whether the shadow geometry is in use by an armed swap or a calibration (R187). -/
def geometryBusy (h : HeadId) (b : Block) : Bool := b.stitch[h].armed || b.stitch[h].cal.phase != 0

/-- Whether the shadow geometry is ready (R173). -/
def geometryReady (h : HeadId) (b : Block) : Nat := b.reg (Obj.headStitchShadowReady h)

/-- Why a geometry swap to set n is refused (R185). -/
def geometryViolations (h : HeadId) (n : Nat) (b : Block) : List AbortCode :=
  codeIf (b.geometryReady h == 0xFFFF || b.geometryReady h != n) .deviceState

/-- A geometry swap by task (R185). -/
def geometrySwapTask (h : HeadId) (sameCycle : Bool) (b : Block) : Block :=
  if b.geometryReady h = 0xFFFF then b.bump (Obj.headStitchTaskRefusals h) else b.geometryArm h 1 sameCycle

/-- Why a stitching calibration is refused (R187, R189, R585). -/
def stitchCalViolations (h : HeadId) (b : Block) : List AbortCode :=
  codeIf (b.heads[h].state == .isolated) .isolated ++ codeIf (b.stitchLevel h == 1) .level ++
  codeIf (b.isSet (Obj.headStitchCalEdge h) && !b.scan) .incompatible ++ codeIf (b.geometryBusy h) .conflict ++
  codeIf (b.heads[h].state != .running || b.corr[h].cal.phase != 0) .deviceState

/-- A start and an abort of one HD cycle (R189). -/
def stitchCalBoth (h : HeadId) (b : Block) : Block := (b.stitchCalFail h 9).bump (Obj.headStitchCoincidences h)

/-- A stitching calibration start by task. -/
def stitchCalStartTask (h : HeadId) (withAbort : Bool) (b : Block) : Block :=
  if withAbort then b.stitchCalBoth h
  else if (b.stitchCalViolations h).isEmpty then b.stitchCalBegin h else b.bump (Obj.headStitchTaskRefusals h)

/-- A stitching calibration abort by task. -/
def stitchCalAbortTask (h : HeadId) (withStart : Bool) (b : Block) : Block :=
  if withStart then b.stitchCalBoth h else b.stitchCalFail h 9

/-! ## Illumination (R294, R298, R311) -/

/-- The waveband sequence is restarted by write or task; `withOther`: by both in one HD cycle. -/
def illumRestart (h : HeadId) (withOther : Bool) (b : Block) : Block :=
  (if withOther then b.bump (Obj.headIllumCoincidences h) else b).modIllum h fun x => { x with restartIn := some 2 }

/-- The blank task; an unblank task in the same HD cycle loses (R298). -/
def illumBlank (h : HeadId) (withUnblank : Bool) (b : Block) : Block :=
  (if withUnblank then b.bump (Obj.headIllumCoincidences h) else b).modIllum h fun x => { x with blankByTask := true }

/-- The unblank task. -/
def illumUnblank (h : HeadId) (withBlank : Bool) (b : Block) : Block :=
  if withBlank then b.illumBlank h true else b.modIllum h fun x => { x with blankByTask := false }

/-- The freeze task or write; an unfreeze in the same HD cycle loses (R114). -/
def ilvFreeze (h : HeadId) (withUnfreeze : Bool) (b : Block) : Block := if withUnfreeze then b.ilvBoth h else b.ilvAsk h true

/-- The unfreeze task or write. -/
def ilvUnfreeze (h : HeadId) (withFreeze : Bool) (b : Block) : Block := if withFreeze then b.ilvBoth h else b.ilvAsk h false

/-! ## Commands by write -/

/-- A write that asks for an action: refused with the first of its codes, or done and answered at once. -/
def orReply (r : Route) (why : List AbortCode) (f : Block → Block) (b : Block) : Block :=
  match firstCode why with
  | some c => b.reply r (.abort c)
  | none => (f b).reply r .ok

/-- `cal.command` (R154): 1 start, 2 abort. `withOther`: the other of the two reaches the head in the same HD cycle. -/
def calCommand (h : HeadId) (v : Nat) (r : Route) (withOther : Bool) (b : Block) : Block :=
  if withOther then (b.calBoth h).reply r .ok
  else if v = 2 then (b.calFail h 9).reply r .ok
  else b.orReply r (b.calViolations h) fun b => b.calBegin h

/-- `stitch.cal.command` (R189). -/
def stitchCalCommand (h : HeadId) (v : Nat) (r : Route) (withOther : Bool) (b : Block) : Block :=
  if withOther then (b.stitchCalBoth h).reply r .ok
  else if v = 2 then (b.stitchCalFail h 9).reply r .ok
  else b.orReply r (b.stitchCalViolations h) fun b => b.stitchCalBegin h

end Block
end Sys2Proof.Machine
end

