-- ==== Sys2Proof/Machine/Access.lean ====
section
/-! DEFINITION. Reading the dictionary (R25, R28, R39, R54): the value of every object, those that a block holds elsewhere than in its
registers included. -/
namespace Sys2Proof.Machine

/-- The head and the index in its block of an index of R60 (head 0's index for each head). -/
def headIndex (index : Nat) : Option (HeadId × Nat) :=
  if 0x3000 ≤ index ∧ index < 0x4000 then some (Fin.ofNat 4 ((index - 0x3000) / 0x400), 0x3000 + (index - 0x3000) % 0x400) else none

/-- The axis and axis 0's index of an index of the motion range. -/
def axisIndex (index : Nat) : Option (AxisId × Nat) :=
  if 0x4100 ≤ index ∧ index < 0x4200 then some (Fin.ofNat 2 ((index - 0x4100) / 0x80), 0x4100 + (index - 0x4100) % 0x80) else none

/-- The control object of the function that owns an index (R40, R60); nothing for the service blocks and for ranges without a function. -/
def functionOf (index : Nat) : Option Nat :=
  if 0x6000 ≤ index then
    if index < 0x6010 ∨ 0x6060 ≤ index then none
    else
      let h := (index - 0x6010) % 4
      if index < 0x6018 then some (0x3000 + 0x400 * h)
      else if index < 0x6028 then some (0x3100 + 0x400 * h)
      else if index < 0x6034 then some (0x3180 + 0x400 * h)
      else if index < 0x6038 then some (0x3200 + 0x400 * h)
      else some 0x4000
  else match headIndex index with
    | some (h, i) => if 0x3300 ≤ i then none else some ((if i < 0x3080 then 0x3000 else if i < 0x3100 then 0x3080 else if i < 0x3180 then 0x3100
        else if i < 0x3200 then 0x3180 else if i < 0x3280 then 0x3200 else 0x3280) + 0x400 * h.val)
    | none =>
      match axisIndex index with
      | some (a, _) => some (0x4100 + 0x80 * a.val)
      | none =>
        if 0x2200 ≤ index ∧ index < 0x2800 then some (index / 256 * 256)
        else if 0x4000 ≤ index ∧ index < 0x4100 then some 0x4000
        else if index = 0x2002 then some 0x2600
        else if index = 0x5101 then some 0x2600
        else none

/-- Whether an index is a function control object. -/
def isControl (index : Nat) : Bool := functionOf index == some index

namespace Block

/-- The level in force of the function at a control index (R45). -/
def functionLevel (f : Nat) (b : Block) : Nat := b.levelInForce ⟨f, 1, .u8, 0⟩

/-- Whether the function at a control index is stopped (R40, R593). -/
def functionStopped (f : Nat) (b : Block) : Bool :=
  match headIndex f with
  | some (h, _) => b.headStopped h
  | none =>
    match axisIndex f with
    | some (a, _) => b.axes[a].state == .stopped
    | none => if f = 0x4000 then b.aux.state == .stopped else b.allStopped

/-- The state that a function control object reads (R39 to R41). -/
def functionState (f : Nat) (b : Block) : Nat :=
  match headIndex f with
  | some (h, _) => b.heads[h].state.code
  | none =>
    match axisIndex f with
    | some (a, _) => b.axes[a].state.code
    | none => if f = 0x4000 then b.aux.state.code else if b.allStopped then 0 else 2

/-- Whole units of n ticks until an instant, 0 once it is due. -/
def unitsTo (t : Time) (n : Nat) (b : Block) : Nat := (timeDiff t b.now).toNat / n

/-- An axis's numbers that are held outside its registers. -/
def axisLive (a : AxisId) (i sub : Nat) (b : Block) : Option Nat :=
  let mine := b.activeAxis == some a
  if i = 0x4109 then
    match sub with
    | 1 => some (ofSigned 48 (b.positionAt a b.now))
    | 2 => some (ofSigned 48 (b.axes[a].command b.now))
    | 4 => some (ofSigned 32 (clip (b.deviation a) (-(2 ^ 31)) (2 ^ 31 - 1)))
    | 7 => some (b.axes[a].faults.headD 0)
    | _ => none
  else if i = 0x4160 then
    match sub with
    | 3 => some (if mine then b.keystone.state else 0)
    | 5 => some (if mine then b.keystone.reason else 0)
    | _ => none
  else if i = 0x4162 ∧ sub = 2 then some b.ceilingInForce
  else if i = 0x4164 ∧ sub = 7 ∧ mine then some (satAdd (b.reg (Obj.axisKeystonePauseTime a)) b.pauseNow (2 ^ 64 - 1))
  else none

/-- Numbers of custody, firmware and attestation. -/
def custodyLive (index sub : Nat) (b : Block) : Option Nat :=
  let slot (k : Nat) : FwSlot := b.firmware.slots[Fin.ofNat 2 k]
  match index, sub with
  | 0x2140, 1 => some b.firmware.running.val
  | 0x2140, 3 => some b.firmware.status
  | 0x2140, 5 => some (match b.firmware.trialEnds with | some t => b.unitsTo t tSec | none => 0)
  | 0x2141, 1 | 0x2141, 2 => some (slot (sub - 1)).state
  | 0x2141, 3 | 0x2141, 4 => some (imageVersion (slot (sub - 3)).image)
  | 0x2141, 5 | 0x2141, 6 => some (imageSecurity (slot (sub - 5)).image)
  | 0x2164, 0 => some (lmsLeaves - b.attest.leaf)
  | 0x5080, 2 => some b.custody.generation
  | 0x5080, 3 => some b.custodyState
  | 0x5080, 5 => some (match b.custody.pending with | some p => b.unitsTo p.ends tMs | none => 0)
  | 0x5080, 7 => some (match b.custody.recovery with | some r => b.recoveryLeft r / tSec | none => 0)
  | _, _ => none

/-- Numbers of the blocks that serve the whole pier. -/
def pierLive (index sub : Nat) (b : Block) : Option Nat :=
  match index, sub with
  | 0x1001, 0 => some b.can.errorRegister
  | 0x1018, 3 => some (imageVersion b.firmware.slots[b.firmware.running].image)
  | 0x2201, 1 => some b.powerState
  | 0x2204, 0 => some b.clockStatus
  | 0x2301, 3 => some b.fabric.stormTrips
  | 0x2301, 4 => some b.fabric.stormLast
  | 0x2301, 5 => some b.fabric.loopRefusals
  | 0x2301, 6 => some b.fabric.nearMisses
  | 0x2503, 1 => some b.capture.state
  | 0x2505, 5 => some (b.readoutBytes / 1024)
  | 0x2608, 1 => some b.now.toNat
  | 0x2701, 8 => some b.can.nmt.code
  | 0x2701, 9 => some b.can.nodeId
  | 0x2702, 5 => some b.can.emcyDropped
  | 0x2711, 1 => some b.smb.cause
  | 0x4048, 4 => some b.aux.fifo.length
  | 0x5001, 1 => some b.faults.last
  | 0x5001, 2 => some b.faults.oldest
  | 0x5001, 3 => some b.faults.select
  | 0x5001, 6 => some b.faults.suppressed
  | 0x5010, 3 => some (32 - b.repair.soft.length - b.repair.hard.length)
  | 0x5010, 4 => some b.repair.soft.length
  | 0x5010, 5 => some b.repair.hard.length
  | 0x5010, 6 => some b.capture.retired.length
  | _, _ => none

/-- Numbers of which there is one for each sub-index of an index. -/
def arrayLive (index sub : Nat) (b : Block) : Option Nat :=
  if 0x2318 ≤ index ∧ index ≤ 0x231B then some ((b.fabric.coincidences.get? ((index - 0x2318) * 128 + sub - 1)).getD 0)
  else if index = 0x2345 then some b.fabric.timers[Fin.ofNat 16 (sub - 1)].count
  else if index = 0x2346 then some (if b.fabric.timers[Fin.ofNat 16 (sub - 1)].running then 1 else 0)
  else if index = 0x2403 then some (b.dmaStateOf (Fin.ofNat 32 (sub - 1)))
  else if index = 0x2505 ∧ sub ≤ 4 then some (b.capture.partitions[Fin.ofNat 4 (sub - 1)].keptBytes / 1024)
  else if index = 0x4045 then some (b.notchInForce (Fin.ofNat 16 (sub - 1)))
  else if index = 0x2021 then some (b.pinOwner sub)
  else none

/-- The number that an object reads when its block holds it elsewhere than in its register. -/
def live (index sub : Nat) (b : Block) : Option Nat :=
  if isControl index ∧ sub = 2 then some (b.functionLevel index)
  else if isControl index ∧ sub = 3 then some (b.functionState index)
  else match axisIndex index with
    | some (a, i) => b.axisLive a i sub
    | none =>
      match b.custodyLive index sub with
      | some v => some v
      | none => match b.pierLive index sub with | some v => some v | none => b.arrayLive index sub

/-- The bits that carry a meaning, for the numbers whose tables leave bits reserved or without one (R2). -/
def usedBits (index sub : Nat) : Option Nat :=
  match index, sub with
  | 0x4038, 0 | 0x260A, 2 | 0x2201, 5 | 0x2020, 0 => some 15
  | 0x2711, 1 | 0x2711, 2 | 0x2711, 3 => some 0x8000003F
  | 0x2204, 0 => some 0x00FF
  | _, 10 => if 0x2440 ≤ index ∧ index < 0x2480 then some 0xFFFFC0FF else none
  | _, 11 => if 0x2440 ≤ index ∧ index < 0x2480 then some 0xFF000000 else none
  | _, _ => none

/-- The bits of byte i of a TABLE that are reserved (R2, R68, R144, R171, R290, R330, R340). -/
def reservedOf (index i : Nat) : Byte :=
  if 0x6010 ≤ index ∧ index < 0x6014 then (if i % 8 = 7 then 0x1C else 0)
  else if (0x601C ≤ index ∧ index < 0x6020) ∨ (0x6024 ≤ index ∧ index < 0x6028) then
    (if i = 2 ∨ i = 3 ∨ (0x18 ≤ i ∧ i < 0x40) ∨ (0x40 ≤ i ∧ ((i - 0x40) % 160 = 0x1A ∨ (i - 0x40) % 160 = 0x1B)) then 0xFF else 0)
  else if 0x6028 ≤ index ∧ index < 0x6030 then (if (2 ≤ i ∧ i < 16) ∨ (16 ≤ i ∧ 10 ≤ i % 16) then 0xFF else 0)
  else if 0x6034 ≤ index ∧ index < 0x6038 then (if i % 4 = 0 then 0xFF else if i % 4 = 1 then 0x3F else 0)
  else if 0x6040 ≤ index ∧ index < 0x6050 then (if (1 ≤ i ∧ i < 4) ∨ (0x2C ≤ i ∧ i < 0x30) then 0xFF else 0)
  else if index = 0x6050 then (if i % 8 = 7 then 0x70 else 0)
  else 0

/-- A TABLE as it reads: its reserved bits read undefined (R2), so they are open. -/
def readTable (index : Nat) (b : Block) : List Byte :=
  (b.table index).zipIdx.map fun (x, i) =>
    let m := reservedOf index i
    (x &&& ~~~m) ||| (BitVec.ofNat 8 (Config.reservedBits b.now.toNat (2 ^ 32 * index + i)) &&& m)

/-- The number that an object reads. -/
def readNum (row : Row) (index sub : Nat) (b : Block) : Nat :=
  let v := (b.live index sub).getD (b.reg (row.obj index sub))
  match usedBits index sub with
  | some mask => b.withOpen row.ty.bits mask v (256 * index + sub)
  | none => v

/-- The bytes of text, one for each character. -/
def ascii (s : String) : List Byte := s.toList.map fun c => BitVec.ofNat 8 c.toNat

/-- The bytes of an object of variable size. -/
def readBytes (index sub : Nat) (b : Block) : List Byte :=
  match index, sub with
  | 0x1008, _ => ascii (if b.part.big then "ZW6440-16" else "ZW6440-08")
  | 0x1009, _ => ascii "B1-P2"
  | 0x100A, _ => imageString b.firmware.slots[b.firmware.running].image
  | 0x2302, _ => (List.range 128).map fun i => BitVec.ofNat 8 ((List.range 8).foldl (fun m k =>
      if (b.fabric.tripped.get? (8 * i + k)).isSome then setBit m k else m) 0)
  | 0x2602, _ => leBytes 8 (b.ring.members.foldl setBit 0)
  | 0x2120, _ => b.custody.hostKey
  | 0x2121, _ => b.custody.boardKey
  | 0x2161, _ => b.attest.report
  | 0x2162, _ => Config.attestCert
  | 0x2163, _ => Config.attestLmsPublic
  | 0x5001, _ => b.logEntry
  | 0x5080, 1 => b.custody.nonce
  | 0x5080, 4 => (match b.custody.pending with | some p => p.record | none => [])
  | 0x5080, _ => (match b.custody.recovery with | some r => r.record | none => [])
  | _, _ => b.readTable index

/-- The bytes that a read of a sub-index returns. -/
def readData (row : Row) (index sub : Nat) (b : Block) : List Byte :=
  if row.ty.bits = 0 then b.readBytes index sub else leBytes (row.ty.bits / 8) (b.readNum row index sub)

/-- The bytes that a request on a route reads: a write of the same cycle that stands after it in the order of R26 is not yet seen. -/
def readFor (r : Route) (row : Row) (index sub : Nat) (b : Block) : List Byte :=
  match b.nextWrite (routePlace r) (row.obj index sub).key with
  | some w => ({ b with regs := b.regs.insert w.key w.old }).readData row index sub
  | none => b.readData row index sub

/-- Whether a route reaches an index for reading (R54). -/
def readRoute (r : Route) (index : Nat) (row : Row) : Bool :=
  match r with
  | .smbus => row.ty != .table && (decide (0x1000 ≤ index) && decide (index < 0x2000) || decide (0x2200 ≤ index) && decide (index < 0x2300) ||
      decide (0x5000 ≤ index) && decide (index < 0x6000))
  | _ => true

/-- Whether an index is served in recovery mode on the host's routes (R508). -/
def recoveryServes (index : Nat) : Bool :=
  decide (0x1000 ≤ index) && decide (index ≤ 0x1018) || decide (0x2140 ≤ index) && decide (index ≤ 0x2143) || index == 0x5080 || index == 0x6060

/-- Whether an index is served in deep sleep (R477). -/
def sleepServes (index : Nat) : Bool :=
  [0x1000, 0x1008, 0x1009, 0x1018, 0x2201, 0x2202, 0x2203, 0x2204, 0x2230, 0x2231].contains index

/-- Codes that a request of any kind can bring before its object is looked at (R59 steps 1 and 2, R508). -/
def lookCodes (r : Route) (index sub : Nat) (b : Block) : List AbortCode :=
  codeIf (!indexExists index) .noObject ++ codeIf (indexExists index && (findRow index sub).isNone) .noSub ++
  codeIf (b.firmware.recovery && r != .smbus && !recoveryServes index) .deviceState

/-- Why a read is refused (R3, R54, R59). -/
def readCodes (r : Route) (index sub : Nat) (b : Block) : List AbortCode :=
  b.lookCodes r index sub ++
  match findRow index sub with
  | none => []
  | some row => codeIf (!readRoute r index row) .route ++ codeIf (row.acc == .wo) .readOfWo

/-- A read of one sub-index, answered at once (R25, R28). A read of the auxiliary FIFO takes its oldest word (R352). -/
def dictRead (r : Route) (index sub : Nat) (b : Block) : Block :=
  match firstCode (b.readCodes r index sub), findRow index sub with
  | some c, _ => b.reply r (.abort c)
  | none, none => b.reply r (.abort .noSub)
  | none, some row =>
    if index = 0x4048 ∧ sub = 3 then b.fifoRead r else b.reply r (.data (b.readFor r row index sub))

end Block
end Sys2Proof.Machine
end

