-- ==== Sys2Proof/Machine/HeadWrites.lean ====
section
/-! DEFINITION. Writes to the objects of the heads and of the capture buffer: what their chapters check beyond type and range, and what
they do beyond storing the value (R62 to R93, R120, R147 to R154, R173, R175, R185 to R189, R201, R202, R214, R216, R228, R229, R292,
R296, R584 to R586). -/
namespace Sys2Proof.Machine
namespace Block

/-! ## Head objects -/

/-- Whether the layout in force of a head is one that R63 accepts. -/
def layoutFits (h : HeadId) (b : Block) : Bool :=
  layoutOk (b.reg (Obj.headLayoutLead h)) (b.reg (Obj.headLayoutActive h)) (b.reg (Obj.headLayoutTrail h))
    (b.reg (Obj.headLayoutObFirst h)) (b.reg (Obj.headLayoutObCount h))

/-- Whether a write raises the effective minimum period above a source-0 or source-1 period in force (R93), once the exposure as written is
in force. -/
def raisesMin (h : HeadId) (b new : Block) : Bool :=
  decide (b.reg (Obj.headTriggerSource h) ≤ 1) && decide (b.effMinSet h < new.effMinSet h) &&
  decide (b.periodNow h * uTick < new.effMinSet h)

/-- Whether some output's mode field holds 3 (R66). -/
def outModeBad (v : Nat) : Bool := (List.range 16).any fun k => v / 4 ^ k % 4 == 3

/-- Features that a value of a head object selects (R47, R51, R78, R292, R584). -/
def headFeature (h : HeadId) (i sub v : Nat) (b : Block) : Bool :=
  match i, sub with
  | 0x300A, 1 => (v == 1 || v == 2) && !b.feature 2 || (v == 3 || v == 4) && !b.feature 1
  | 0x3281, 0 => v == 0x10 && !b.feature 3
  | 0x3202, _ => decide (b.reg (Obj.headIllumRowNominal h (sub - 1)) < v) && !b.feature 6
  | 0x3301, 0 => v == 1 && !b.feature 7
  | _, _ => false

/-- Codes of a write to a pattern, trigger or output object. -/
def headTimingCodes (h : HeadId) (i sub v : Nat) (b new : Block) : List AbortCode :=
  match i, sub with
  | 0x3002, _ => codeIf (!new.layoutFits h || b.raisesMin h new) .incompatible
  | 0x3003, _ => codeIf (b.raisesMin h new) .incompatible
  | 0x3006, _ => codeIf (b.raisesMin h new || !new.pulseOk h (exposureSteps v)) .incompatible
  | 0x3008, 4 => codeIf (decide (0xFF < v)) .range
  | 0x3008, 5 => codeIf (outModeBad v) .range
  | 0x300A, 1 => codeIf new.pinConflict .conflict
  | 0x300A, 2 => codeIf (decide (v * uTick < b.effMinSet h)) .tooLow
  | 0x300A, 5 => codeIf (v != 1) .range
  | 0x300A, 11 => codeIf (decide (v < (b.reg Obj.ringConfigured - 1) * 960 + 1600)) .tooLow
  | 0x300B, 1 => codeIf new.pinConflict .conflict
  | _, _ => []

/-- Codes of a write to a video, correction, stitching, illumination or service object. -/
def headLaneCodes (e : Env) (h : HeadId) (i sub v : Nat) (b : Block) : List AbortCode :=
  match i, sub with
  | 0x3082, 1 => b.commitViolations h v
  | 0x3107, 2 => codeIf (v == 0xFFFF) .range ++ codeIf ((b.shadowSet h).number != v) .incompatible ++ codeIf (b.shadowBusy h) .conflict
  | 0x3107, 3 => b.swapViolations h v
  | 0x3107, 4 => b.prepareViolations h v
  | 0x3108, 1 => codeIf (v != 1 && v != 2) .range ++ (if v = 1 ∧ e.same = false then b.calViolations h else [])
  | 0x3182, 1 => codeIf (decide (16 * b.bins h < v)) .tooHigh ++ codeIf (v == 0) .tooLow
  | 0x3184, 2 => codeIf (v == 0xFFFF) .range ++
      codeIf (geoNumber (b.shadowGeometry h) != v || !b.geometryCovers h (b.shadowGeometry h)) .incompatible ++ codeIf (b.geometryBusy h) .conflict
  | 0x3184, 3 => b.geometryViolations h v
  | 0x3185, 1 => codeIf (v != 1 && v != 2) .range ++ (if v = 1 ∧ e.same = false then b.stitchCalViolations h else [])
  | 0x3201, 18 => codeIf (v != 1) .range
  | 0x3202, _ => codeIf (decide (3 * b.reg (Obj.headIllumRowNominal h (sub - 1)) < v)) .tooHigh
  | 0x3206, 4 => codeIf (decide (v < 5000) || decide (b.reg (Obj.headIllumBoostVMax h) < v)) .range
  | _, _ => []

/-- What a write to a head object does when it is more than storing the value and answering. -/
def headDo (e : Env) (r : Route) (h : HeadId) (i sub v : Nat) (b : Block) : Option Block :=
  match i, sub with
  | 0x3000, 4 => some (if v = 1 then b.headStart h (.write r) e.start (e.banks.getD h.val 0) else
      ((if e.same then b.bump Obj.deviceCommandCoincidences else b).headStop h).reply r .ok)
  | 0x300A, 5 => some ((b.softTrigger h e.meet).reply r .ok)
  | 0x3082, 1 => some ((b.rangeCommit h v 0 e.same).reply r .ok)
  | 0x3087, 1 => some ((if v = 1 then b.ilvFreeze h e.same else b.ilvUnfreeze h e.same).reply r .ok)
  | 0x3107, 3 => some ((b.corrSwap h 2 e.same).reply r .ok)
  | 0x3107, 4 => some (b.corrPrepare h v (.write r))
  | 0x3108, 1 => some (b.calCommand h v r e.same)
  | 0x3184, 3 => some ((b.geometryArm h 0 e.same).reply r .ok)
  | 0x3185, 1 => some (b.stitchCalCommand h v r e.same)
  | 0x3201, 18 => some ((b.illumRestart h e.same).reply r .ok)
  | 0x3301, 0 => some (if v = 1 then b.isolate h (.write r) e.same else b.release h (.write r))
  | _, _ => none

/-- What follows from a value stored in a head object: windows that have opened keep their coefficients (R103, R105); the defective count
follows the pixels in use (R162). -/
def headStored (h : HeadId) (i : Nat) (b : Block) : Block :=
  if i = 0x3001 ∨ i = 0x3002 then b.updateDefective h else b

/-- What must happen before a head's coefficient changes. -/
def headBefore (h : HeadId) (i : Nat) (b : Block) : Block :=
  if i = 0x3085 ∨ i = 0x3089 ∨ i = 0x308A ∨ i = 0x308B then b.openWindows h else b

/-! ## Capture objects -/

/-- Codes of a write to the capture buffer's objects. -/
def captureCodes (index sub v : Nat) (b new : Block) : List AbortCode :=
  match index, sub with
  | 0x2501, 6 => codeIf (decide (1 < v)) .range
  | 0x2502, 1 | 0x2502, 2 => codeIf new.pinConflict .conflict
  | 0x2502, 5 => codeIf (v != 1) .range
  | 0x2504, _ => codeIf b.recordsHeld .conflict
  | 0x2508, _ => codeIf (v != 1) .range ++ codeIf (!b.headStopped (Fin.ofNat 4 (sub - 1))) .notStopped
  | _, _ => []

/-- A software burst trigger (R214): B is the ring time at acceptance. DEDUCED: with another source selected it has no effect. -/
def burstFire (m : BurstMeet) (b : Block) : Block := if b.reg Obj.captureTriggerSource = 0 then b.burstMeet m b.now else b

/-- What a write to the capture buffer's objects does beyond storing. -/
def captureDo (e : Env) (r : Route) (index sub v : Nat) (b : Block) : Option Block :=
  match index, sub with
  | 0x2501, 6 => some ((if v = 1 then b.captureArm e.same else
      if e.same then b.captureArm true else b.captureDisarm).reply r .ok)
  | 0x2502, 5 => some ((b.burstFire e.burst).reply r .ok)
  | 0x2508, _ => some ((b.captureDiscard (Fin.ofNat 4 (sub - 1))).reply r .ok)
  | _, _ => none

end Block
end Sys2Proof.Machine
end

