-- ==== Sys2Proof/Machine/MotionWrites.lean ====
section
/-! DEFINITION. Writes to the objects of the motion axes and of the Keystone controller (R230, R238, R257, R263 to R271, R281, R284,
R285, R288). -/
namespace Sys2Proof.Machine
namespace Block

/-- A coincidence of R285 or R284. -/
def axisCount (a : AxisId) (c : Bool) (b : Block) : Block := if c then b.bump (Obj.axisCoincidences a) else b

/-- The axis is enabled (R284). A page on it may go on (R239). -/
def axisEnable (a : AxisId) (vm : Nat) (b : Block) : Block := (b.axisOn a vm).keyRecover a

/-- The axis is disabled; in a page that is an axis stop (R251). -/
def axisDisable (a : AxisId) (b : Block) : Block := (b.axisOff a).keyFault a

/-- An enable by command or task (R27, R284): with a disable in the same MOT cycle it is refused and the axis is disabling; two enables act
once. An enable by task that fails its checks is ignored. -/
def axisStart (a : AxisId) (vm : Nat) (low : Bool) (via : Via) (m : StartMeet) (b : Block) : Block :=
  let b := b.startMeets m via (Obj.axisCoincidences a)
  let vias := match m with | .start o => [via, o] | _ => [via]
  match m with
  | .stop _ => (b.axisDisable a).replyVia via (.abort .deviceState)
  | _ =>
    match firstCode (b.enableViolations a vm low) with
    | some c => vias.foldl (fun b v => b.replyVia v (.abort c)) b
    | none => vias.foldl (fun b v => b.replyVia v .ok) (b.axisEnable a vm)

/-- A disable by command or task (R27, R284): an enable in the same MOT cycle is refused. -/
def axisStop (a : AxisId) (via : Via) (m : StartMeet) (b : Block) : Block :=
  let b := b.startMeets m via (Obj.axisCoincidences a)
  let b := match m with | .start o => b.replyVia o (.abort .deviceState) | _ => b
  (b.axisDisable a).replyVia via .ok

/-- The function command of an axis (R39, R284). -/
def axisCommand (a : AxisId) (v vm : Nat) (low : Bool) (via : Via) (m : StartMeet) (b : Block) : Block :=
  if v = 2 then b.axisStop a via m else b.axisStart a vm low via m

/-- A move, jog or home (R285): a halt or quick stop in the same MOT cycle wins; of two of the same kind one acts, a move by write before one
by task. -/
def moveUnless (a : AxisId) (e : Env) (f : Block → Block) (b : Block) : Block :=
  if e.same then b.axisCount a true else f (b.axisCount a e.twin)

/-- Halt, or quick stop when both arrive (R269, R285). -/
def halt (a : AxisId) (e : Env) (b : Block) : Block := (b.axisCount a (e.same || e.twin)).brakeAxis a e.same

/-- Quick stop (R269, R285). -/
def quickStop (a : AxisId) (e : Env) (b : Block) : Block := (b.axisCount a (e.same || e.twin)).brakeAxis a true

/-- The clear action or task (R280, R285). -/
def clearMotion (a : AxisId) (e : Env) (b : Block) : Block := ((b.axisCount a e.twin).clearFaults a).keyRecover a

/-- Why a page command other than a start is refused (R51, R230, R257): the feature, streak mode, a passive controller. -/
def pageViolations (a : AxisId) (b : Block) : List AbortCode :=
  codeIf (!b.feature 1) .feature ++ codeIf (!b.scan || b.activeAxis != some a) .deviceState

/-- The page starts; with an end in the same MOT cycle it does not, and the end acts (R256). -/
def pageStartBy (a : AxisId) (e : Env) (b : Block) : Block :=
  if e.same then (b.keyCount a).pageEnding a else (if e.twin then b.keyCount a else b).pageStart a

/-- The page ends (R256). -/
def pageEndBy (a : AxisId) (e : Env) (b : Block) : Block := (if e.same || e.twin then b.keyCount a else b).pageEnding a

/-- A forced pause (R251, R256). -/
def pauseBy (a : AxisId) (e : Env) (b : Block) : Block := b.forcedPause a (e.same || e.twin)

/-- A release; with a forced pause in the same MOT cycle that stays in force (R256). -/
def releaseBy (a : AxisId) (e : Env) (b : Block) : Block :=
  if e.same then b.forcedPause a true else (if e.twin then b.keyCount a else b).pageRelease a

/-- Why a start of the page is refused: an end in the same MOT cycle wins (R256, R257). -/
def pageRefused (a : AxisId) (e : Env) (b : Block) : List AbortCode :=
  codeIf e.same .deviceState ++ b.pageStartViolations a e.othersAgree

/-- `keystone.command` (R256, R257). -/
def pageCommand (a : AxisId) (v : Nat) (e : Env) (r : Route) (b : Block) : Block :=
  match v with
  | 1 => if e.same then (b.pageStartBy a e).reply r (.abort .deviceState) else b.orReply r (b.pageRefused a e) fun b => b.pageStartBy a e
  | 2 => b.orReply r (b.pageViolations a) fun b => b.pageEndBy a e
  | 3 => b.orReply r (b.pageViolations a) fun b => b.pauseBy a e
  | _ => b.orReply r (b.pageViolations a) fun b => b.releaseBy a e

/-- Features that a value of an axis object selects (R47, R230). -/
def axisFeature (i sub v : Nat) (b : Block) : Bool := i == 0x4160 && sub == 1 && v == 1 && !b.feature 1

/-- Codes of a write to an axis object. -/
def axisCodes (e : Env) (a : AxisId) (i sub v : Nat) (b new : Block) : List AbortCode :=
  let sv (w : Nat) : Int := toSigned w v
  match i, sub with
  | 0x4101, 4 => codeIf (decide (90000 < v * b.reg (Obj.axisDriveShuntMohm a))) .incompatible
  | 0x4101, 5 => codeIf (decide (b.reg (Obj.axisDriveIRun a) < v)) .incompatible
  | 0x4101, 10 => codeIf (decide (90000 < v * b.reg (Obj.axisDriveIRun a))) .incompatible
  | 0x4103, 3 => codeIf (decide (v < b.reg (Obj.axisProfileAccel a))) .incompatible
  | 0x4103, 4 | 0x4103, 5 => codeIf (b.axes[a].profile != .rest || decide (b.axes[a].command b.now < new.regI (Obj.axisProfileLimitLow a)) ||
      decide (new.regI (Obj.axisProfileLimitHigh a) < b.axes[a].command b.now)) .deviceState
  | 0x4104, 1 => b.moveViolations a (sv 48)
  | 0x4104, 2 => b.jogViolations a (sv 32)
  | 0x4104, 3 => codeIf (v == 0 || decide (4 < v)) .range ++
      (if v = 1 then b.homeViolations a else if v = 2 ∨ v = 3 then b.haltViolations a else [])
  | 0x4108, 0 => if v = 1 then b.claimViolations a e.crossing else []
  | 0x4160, 1 => codeIf (v == 1 && b.isSet (Obj.axisKeystoneEnable (1 - a.val))) .conflict
  | 0x4160, 2 => codeIf (v == 0 || decide (4 < v)) .range
  | 0x4161, 1 | 0x4161, 2 | 0x4161, 3 =>
    codeIf (!(decide (new.reg (Obj.axisKeystoneResumeMark a) < new.reg (Obj.axisKeystonePaceMark a)) &&
      decide (new.reg (Obj.axisKeystonePaceMark a) < new.reg (Obj.axisKeystoneHighMark a)) &&
      decide (new.reg (Obj.axisKeystoneHighMark a) ≤ 61440))) .incompatible
  | _, _ => []

/-- What a write to an axis object does beyond storing. -/
def axisDo (e : Env) (r : Route) (a : AxisId) (i sub v : Nat) (b : Block) : Option Block :=
  match i, sub with
  | 0x4100, 4 => some (b.axisCommand a v (e.vm.getD a.val 0) (e.flt.testBit a.val) (.write r) e.start)
  | 0x4104, 1 => some ((b.moveUnless a e fun b => b.moveTo a (toSigned 48 v)).reply r .ok)
  | 0x4104, 2 => some ((b.moveUnless a e fun b => b.jog a (toSigned 32 v)).reply r .ok)
  | 0x4104, 3 => some ((match v with
      | 1 => b.moveUnless a e fun b => b.home a
      | 2 => b.halt a e
      | 3 => b.quickStop a e
      | _ => b.clearMotion a e).reply r .ok)
  | 0x4108, 0 => some (((if v = 1 then b else b.pageDrop).claim a (v == 1)).reply r .ok)
  | 0x4160, 2 => some (b.pageCommand a v e r)
  | 0x4161, 7 => some (((b.setReg (Obj.axisKeystoneFaultResume a) v).keyRecover a).reply r .ok)
  | 0x4162, 1 => some (b.wideWrite (.ceiling a) v (.write r))
  | _, _ => none

end Block
end Sys2Proof.Machine
end

