-- ==== Sys2Proof/Machine/BlockWrites.lean ====
section
/-! DEFINITION. Writes to the objects of the auxiliary channels, the event fabric, the DMA engine, the span ring and the host port: what
their chapters check beyond type and range, and what they do beyond storing the value (R329 to R332, R350, R363 to R373, R387 to R396,
R402, R413 to R415, R426, R447 to R461). -/
namespace Sys2Proof.Machine
namespace Block

/-! ## Auxiliary channels (R322, R329, R332, R350, R352) -/

/-- Whether a cold-junction channel is one that R329 refuses. -/
def cjcBad (n v : Nat) (b : Block) : Bool :=
  v != 0xFF && (v == n || b.reg (Obj.auxMode v) == 0 || b.reg (Obj.auxLinCjcChannel v) != 0xFF || b.reg (Obj.auxMode n) == 0)

/-- Whether the values of an echo fit each other (R332). -/
def echoOk (e : Nat) (b : Block) : Bool :=
  let inside (v : Nat) : Bool :=
    match b.reg (Obj.echoMode e) with
    | 1 => decide (v ≤ 65536)
    | 2 => decide (1000 ≤ v) && decide (v ≤ 1000000000)
    | _ => true
  decide (b.regI (Obj.echoValueLo e) < b.regI (Obj.echoValueHi e)) && inside (b.reg (Obj.echoOutLo e)) && inside (b.reg (Obj.echoOutHi e)) &&
  inside (b.reg (Obj.echoFault e))

/-- Codes of a write to an auxiliary object. -/
def auxCodes (index sub v : Nat) (b new : Block) : List AbortCode :=
  if index = 0x401C then codeIf (b.cjcBad (sub - 1) v) .incompatible
  else if 0x4031 ≤ index ∧ index ≤ 0x4037 ∧ index ≠ 0x4036 then
    codeIf (!new.echoOk (sub - 1)) .incompatible ++ codeIf (index == 0x4031 && new.pinConflict) .conflict
  else if index = 0x4048 ∧ sub = 6 then codeIf (v != 1) .range
  else if index = 0x4020 then codeIf (v == 1) .range
  else []

/-- What a write to an auxiliary object does beyond storing. -/
def auxDo (e : Env) (r : Route) (index sub v : Nat) (b : Block) : Option Block :=
  match index, sub with
  | 0x4000, 4 => some (if v = 1 then b.seqStart (.write r) e.start else b.seqStop (.write r) e.start)
  | 0x4016, _ =>
    let n := channelOf (sub - 1)
    some (((b.setReg (Obj.auxAmpGain n) v).modChannel n fun c => { c with gainWaits := true }).reply r .ok)
  | 0x4020, _ => some ((b.clampClear (channelOf (sub - 1)) e.same).reply r .ok)
  | 0x4048, 6 => some ((b.fifoFlush).reply r .ok)
  | _, _ => none

/-! ## The event fabric (R363 to R373) -/

/-- Why a select is refused (R363, R364, R367). -/
def selectCodes (t v : Nat) (b : Block) : List AbortCode :=
  codeIf (v != 0xFFFF && !b.feature 8) .feature ++ codeIf (decide (v < 1024) && reservedSource v) .range ++
  codeIf (decide (1024 ≤ v) && v != 0xFFFF) .tooHigh ++ codeIf (b.loopsBack t v) .eventLoop

/-- A select refused as a loop is counted and raises source 49 (R367). -/
def loopRefused (b : Block) : Block :=
  ({ b with fabric := { b.fabric with loopRefusals := satAdd b.fabric.loopRefusals 1 max32 } }).raise 49

/-- Why a software fire is refused (R371, R377). -/
def fireCodes (s : Nat) (b : Block) : List AbortCode :=
  codeIf (decide (1024 ≤ s) || reservedSource s) .range ++ codeIf (b.fabric.tripped.get? s).isSome .deviceState

/-- Codes of a write to a fabric object. -/
def fabricCodes (index sub v : Nat) (b : Block) : List AbortCode :=
  if index = 0x2301 then (if sub = 1 then b.fireCodes v else codeIf (decide (1024 ≤ v)) .range)
  else if 0x2310 ≤ index ∧ index ≤ 0x2313 then b.selectCodes ((index - 0x2310) * 128 + sub - 1) v
  else []

/-- What a write to a fabric object does beyond storing: a write of a unit's mode or clock stops the unit (R373). -/
def fabricDo (r : Route) (index sub v : Nat) (b : Block) : Option Block :=
  if index = 0x2301 then some ((if sub = 1 then b.raise v else b.stormRearm v).reply r .ok)
  else if index = 0x2340 ∨ index = 0x2341 then
    let u : TimerId := Fin.ofNat 16 (sub - 1)
    let o := if index = 0x2340 then Obj.timerMode u else Obj.timerClock u
    some (((b.setReg o v).modTimer u fun x => { x with running := false }).reply r .ok)
  else if 0x2310 ≤ index ∧ index ≤ 0x2313 then some ((b.selectWrite ((index - 0x2310) * 128 + sub - 1) v).reply r .ok)
  else none

/-! ## The DMA engine (R387 to R402) -/

/-- Codes of a write to a shadow field: a loaded shadow is kept (R387); a write of CTRL runs the checker (R391). DEDUCED: a shadow that
the checker has refused counts as empty. `copied`: the engine copies the shadow in the MEM cycle of the write, which is then refused as
one to a loaded shadow (R389). -/
def shadowCodes (c : ChanId) (sub v : Nat) (copied : Bool) (b : Block) : List AbortCode :=
  b.shadowViolations c ++ codeIf copied .deviceState ++
  (if (b.shadowOf c).st ≠ 1 ∧ sub = 10 then (b.checker c { b.shadowOf c with ctrl := v }).toList else [])

/-- Codes of a write to a DMA object. -/
def dmaCodes (e : Env) (index sub v : Nat) (b new : Block) : List AbortCode :=
  if 0x2440 ≤ index ∧ index ≤ 0x245F then
    let c : ChanId := Fin.ofNat 32 (index - 0x2440)
    b.shadowCodes c sub v e.same
  else if 0x2402 ≤ index ∧ index ≤ 0x2406 then
    let c : ChanId := Fin.ofNat 32 (sub - 1)
    b.channelViolations c ++
    codeIf (index == 0x2402 && (v == 0 || decide (4 < v))) .range ++
    codeIf ((index == 0x2405 || index == 0x2406) && decide (new.reg (Obj.dmaPaceHigh c) ≤ new.reg (Obj.dmaPaceLow c))) .incompatible ++
    codeIf (index == 0x2404 && decide (16 ≤ v) && (b.activeOf c).pace == 1 &&
      ([4, 5, 6, 7, 8, 9].any fun q => b.reg (Obj.hostStreamQueue (q - 4)) == v - 16)) .conflict
  else []

/-- A command of a channel (R387 to R389, R398). `both`: a go and a stop reach it in one MEM cycle. -/
def dmaCommand (c : ChanId) (v : Nat) (both : Bool) (b : Block) : Block :=
  match v with
  | 1 => if both then b.dmaBoth c else b.dmaGo c
  | 2 => if both then b.dmaBoth c else b.dmaStop c
  | 3 => b.dmaFence c
  | 4 => b.shadowEmpty c
  | _ => b.abandonSlot c

/-- What a write to a DMA object does beyond storing. -/
def dmaDo (e : Env) (r : Route) (index sub v : Nat) (b : Block) : Option Block :=
  if index = 0x2402 then some ((b.dmaCommand (Fin.ofNat 32 (sub - 1)) v e.same).reply r .ok)
  else if 0x2440 ≤ index ∧ index ≤ 0x245F ∧ sub = 10 then
    some (((b.shadowLoad (Fin.ofNat 32 (index - 0x2440)) v false).2).reply r .ok)
  else none

/-! ## The span ring and the host port (R413 to R415, R426, R447 to R461) -/

/-- Features that a value of a ring or host object selects (R47, R453). -/
def ringFeature (index sub v : Nat) (b : Block) : Bool :=
  index == 0x2642 && v != 0 && !b.feature 5 || index == 0x2605 && decide (sub ≤ 4) && v != b.reg Obj.ringAbutmentA && !b.feature 4

/-- Whether a map of stream channels gives two channels one queue, or names a queue that paces a channel (R447). -/
def streamMapBad (k v : Nat) (b : Block) : Bool :=
  ((List.range 6).any fun j => j != k && b.reg (Obj.hostStreamQueue j) == v) ||
  ((List.finRange 32).any fun (c : ChanId) => (b.activeOf c).pace == 1 && (b.activeOf c).st == 2 && (b.activeOf c).line == 16 + v)

/-- Codes of a write to a ring or host object. -/
def ringCodes (index sub v : Nat) (b : Block) : List AbortCode :=
  let q := sub - 1
  match index with
  | 0x2641 => codeIf (b.streamMapBad q v) .conflict
  | 0x2650 => codeIf (v % 4096 != 0) .range ++ codeIf (b.isSet (Obj.hostQueueEnable q)) .deviceState
  | 0x2651 => codeIf (b.isSet (Obj.hostQueueEnable q)) .deviceState
  | 0x2655 => codeIf (v % 8 != 0) .range ++ codeIf (b.isSet (Obj.hostQueueEnable q)) .deviceState
  | _ => []

/-- What a write to a ring or host object does beyond storing. -/
def ringDo (e : Env) (r : Route) (index sub v : Nat) (b : Block) : Option Block :=
  let q : QueueId := Fin.ofNat 16 (sub - 1)
  match index with
  | 0x2601 => if sub = 3 then some (b.wideWrite .configured v (.write r)) else none
  | 0x2605 =>
    let o := if sub ≤ 4 then Obj.ringRouteAbutment (sub - 1) else Obj.ringRouteSpan (sub - 5)
    some (((b.setReg o v).reroute).reply r .ok)
  | 0x260A => if sub = 1 then some (b.ringStart (BitVec.ofNat 64 v) (.write r) e.startFail e.epoch e.banks) else none
  | 0x2652 => some (if v = 1 then b.queueEnable q (some r) e.same
      else b.queueDisable q (some r) |> fun b => if e.same then b.bump Obj.hostCoincidences else b)
  | 0x2654 => some (b.ackWrite q v (some r))
  | _ => none

end Block
end Sys2Proof.Machine
end

