-- ==== Sys2Proof/Machine/SystemWrites.lean ====
section
/-! DEFINITION. Saved sets, feature negotiation, PDO mappings, and writes to the objects of the device, of communication, of the management
buses, of custody, of power and of service (R13 to R15, R33 to R38, R49, R50, R464, R466, R472, R488 to R515, R530, R575 to R588). -/
namespace Sys2Proof.Machine

/-! ## Saving and restoring (R33 to R36) -/

/-- Whether a key of the register map belongs to a P-marked object. -/
def isPersistent (key : Nat) : Bool :=
  match findRow (key / 256) (key % 256) with | some r => r.p | none => false

/-- Objects without a P mark that a save of the tables stores: the readiness of the shadow sets (R167, R199). -/
def isReadiness (key : Nat) : Bool :=
  (List.range 4).any fun h => key == (Obj.headCorrShadowReady h).key || key == (Obj.headStitchShadowReady h).key

namespace Block

/-- What a save of a group records: the values in force of its P-marked objects (R34). A save of the tables stores both sets and both
geometries of every head (R167, R199). -/
def savedNow (g : Fin 3) (b : Block) : SavedSet where
  regs := b.regs.filter fun e => (groupOf (e.1 / 256) == g && isPersistent e.1) || (g == 2 && isReadiness e.1)
  tables := if g = 2 then b.tables else []

/-- The groups of a sub-index of 0x1010 and 0x1011 (R33). -/
def groupsOf (sub : Nat) : List (Fin 3) := match sub with | 1 => [0, 1, 2] | 2 => [0] | 3 => [1] | _ => [2]

/-- A save begins (R34). -/
def saveBegin (sub : Nat) (r : Route) (b : Block) : Block :=
  let sets := Vector.ofFn fun (g : Fin 3) => if (groupsOf sub).contains g then some (b.savedNow g) else none
  { b with control := { b.control with save := some ⟨r, sets⟩ } }

/-- The set is written and verified: it becomes the loaded generation, and the response is sent (R34, R35). -/
def saveComplete (b : Block) : Block :=
  match b.control.save with
  | none => b
  | some s =>
    let b := (List.finRange 3).foldl (fun (b : Block) (g : Fin 3) =>
      match s.sets[g] with
      | some x => { b with saved := b.saved.set g ⟨some x, false, false⟩ }
      | none => b) b
    ({ b with control := { b.control with save := none } }).reply s.route .ok

/-- A restore marks the saved sets of its groups for deletion (R36). -/
def restore (sub : Nat) (b : Block) : Block :=
  (groupsOf sub).foldl (fun (b : Block) (g : Fin 3) => { b with saved := b.saved.set g { b.saved[g] with delete := true } }) b

/-- The signatures of R33, R36 and R530. -/
def signatureSave : Nat := 0x65766173
def signatureLoad : Nat := 0x64616F6C
def signatureReset : Nat := 0x74657372
def signatureCore : Nat := 0x65726F63

/-! ## Feature negotiation (R49, R50) -/

/-- Whether every accepted feature is offered. -/
def acceptedOffered (b : Block) : Bool :=
  clearBits (b.reg Obj.deviceFeaturesAcceptedLo) (b.reg Obj.deviceFeaturesOfferedLo) == 0 &&
  clearBits (b.reg Obj.deviceFeaturesAcceptedHi) (b.reg Obj.deviceFeaturesOfferedHi) == 0

/-- Codes of a write to `device.features.control`. -/
def featureControlCodes (v : Nat) (b : Block) : List AbortCode :=
  codeIf ((v == 1 || v == 2) && !b.allStopped) .notStopped ++ codeIf (v == 1 && !b.acceptedOffered || v != 1 && v != 2) .range

/-- A refused write of 1 or 2 reads 3 (R49, R50). -/
def featureRefused (v : Nat) (b : Block) : Block := if v = 1 ∨ v = 2 then b.setReg Obj.deviceFeaturesControl 3 else b

/-- The epoch uses a second abutment while feature bit 4 is confirmed on every member (R414). -/
def failoverFollow (others : Bool) (b : Block) : Block :=
  let on := b.feature 4 && (others || decide (b.ring.members.length ≤ 1))
  if b.ring.failover = on then b else (b.sendRing (.failover on)).failoverSet on

/-- `device.mode` is written; the leader of the epoch tells it to the members (R16). -/
def modeWrite (v : Nat) (b : Block) : Block :=
  let b := b.setReg Obj.deviceMode v
  if b.ring.leaderMode.isNone && decide (1 < b.ring.members.length) then b.sendRing (.mode v) else b

/-- The accepted set is put in force (R49). `others`: every other member of the epoch has confirmed feature bit 4. -/
def featuresConfirm (others : Bool) (b : Block) : Block :=
  let lo := b.reg Obj.deviceFeaturesAcceptedLo
  let hi := b.reg Obj.deviceFeaturesAcceptedHi
  (((b.setReg Obj.deviceFeaturesConfirmedLo lo).setReg Obj.deviceFeaturesConfirmedHi hi).setReg Obj.deviceFeaturesControl 2).failoverFollow others

/-- The base profile is put in force (R50, R61). -/
def featuresBase (b : Block) : Block :=
  (((b.setReg Obj.deviceFeaturesConfirmedLo 0).setReg Obj.deviceFeaturesConfirmedHi 0).setReg Obj.deviceFeaturesControl 0).failoverFollow false

/-! ## PDO mappings (R466) -/

/-- Whether a mapping entry names an object that a PDO may map. -/
def mapEntryOk (rpdo : Bool) (e : Nat) : Bool :=
  match findRow (e / 65536) (e / 256 % 256) with
  | none => false
  | some r => r.ty.bits != 0 && r.ty.bits == e % 256 && (if rpdo then r.acc == .rw || r.acc == .rwx || r.acc == .rws else r.acc != .wo)

/-- The entries of a mapping. -/
def mapEntries (rpdo : Bool) (n count : Nat) (b : Block) : List Nat :=
  (List.range count).map fun k => b.reg (if rpdo then Obj.rpdoMap n k else Obj.tpdoMap n k)

/-- Codes of a write to a PDO mapping. DEDUCED: an entry of 0 is unused, and may not be counted. -/
def pdoCodes (index sub v : Nat) (b : Block) : List AbortCode :=
  let rpdo := decide (index < 0x1800)
  let n := index % 256
  if (0x1600 ≤ index ∧ index < 0x1608) ∨ (0x1A00 ≤ index ∧ index < 0x1A08) then
    if sub = 0 then
      let es := b.mapEntries rpdo n v
      codeIf (!(es.all (mapEntryOk rpdo) && decide ((es.foldl (fun m e => m + e % 256) 0) ≤ 512))) .incompatible
    else
      codeIf (b.reg (if rpdo then Obj.rpdoMapCount n else Obj.tpdoMapCount n) != 0) .deviceState ++
      codeIf (v != 0 && !mapEntryOk rpdo v) .incompatible
  else []

/-! ## Checks -/

/-- Bit rates in kbit/s by code (R464). -/
def nominalKbit (code : Nat) : Nat := match code with | 0 => 125 | 1 => 250 | 2 => 500 | _ => 1000
def dataKbit (code : Nat) : Nat := match code with | 1 => 1000 | 2 => 2000 | 3 => 4000 | 4 => 5000 | _ => 8000

/-- Whether a data-rate code stands against a nominal rate code (R464). -/
def ratesOk (nominal data : Nat) : Bool := data == 0 || decide (nominalKbit nominal < dataKbit data)

/-- Features that a value of a device object selects (R42, R47). -/
def deviceFeature (index sub v : Nat) (b : Block) : Bool :=
  index == 0x2001 && v == 1 && !b.feature 1 || isControl index && sub == 1 && v == 1 && !b.feature 0

/-- Codes of a write to an object of the device, of communication and of the management buses. -/
def deviceCodes (index sub v : Nat) (b new : Block) : List AbortCode :=
  match index, sub with
  | 0x1010, _ => codeIf (v != signatureSave) .notStored ++ codeIf b.control.save.isSome .unavailable
  | 0x1011, _ => codeIf (v != signatureLoad) .notStored
  | 0x2002, _ => codeIf (decide (2064384 < v)) .tooHigh
  | 0x2013, _ => b.featureControlCodes v
  | 0x2020, _ => codeIf new.pinConflict .conflict
  | 0x2701, 2 => codeIf (!ratesOk v (b.reg Obj.canDataRate)) .incompatible
  | 0x2701, 3 => codeIf (!ratesOk b.can.nominalRate v) .incompatible
  | 0x2710, 1 | 0x2710, 2 => codeIf (decide (127 < v)) .range ++ codeIf (!smbSetOk (new.reg Obj.smbAddress) (new.reg Obj.smbAddressMask)) .incompatible
  | _, 4 => codeIf (isControl index && v != 1 && v != 2) .range
  | _, _ => []

/-- Codes of a write to an object of power, of test and of service. -/
def serviceCodes (e : Env) (index sub v : Nat) (b : Block) : List AbortCode :=
  match index, sub with
  | 0x2201, 2 => codeIf (v != 1 && v != 2) .notStored
  | 0x2202, 6 => codeIf (v != signatureReset && v != signatureCore) .notStored
  | 0x5000, 0 | 0x5001, 5 => codeIf (v != 0) .range
  | 0x5010, 2 => codeIf (v != 1) .range ++ codeIf (!b.allStopped) .notStopped
  | 0x5100, 4 => codeIf (v != 1 && v != 2) .range ++ (if v = 1 ∧ e.same = false then b.mbistViolations else [])
  | 0x2140, 2 => codeIf (v == 0 || decide (3 < v)) .range ++ (if v = 2 then b.activateViolations e.othersRun ++ codeIf (b.isSet Obj.custodyFwLock) .countersign else [])
  | _, _ => []

/-- Codes that a write of bytes brings: what its chapter says of the record's length (R489, R495, R511, R580). -/
def recordLengthCodes (index sub n : Nat) : List AbortCode :=
  match index, sub with
  | 0x2110, 1 | 0x2118, 1 => codeIf (decide (1024 < n)) .length
  | 0x2110, 2 | 0x2118, 2 => codeIf (n != 160) .length
  | 0x2110, 3 | 0x2118, 3 => codeIf (n != 193) .length
  | 0x2160, 0 => codeIf (n != 32) .length
  | _, _ => []

/-! ## Effects -/

/-- The bits of a list as a mask. -/
def maskOf (l : List Nat) : Nat := l.foldl setBit 0

/-- A pier reset asked for through the dictionary: the answer first (R530). -/
def dictionaryReset (r : Route) (b : Block) : Block := (b.reply r .ok).pierReset 64

/-- A restart of the control cores asked for through the dictionary: the answer first (R530). -/
def dictionaryRestart (r : Route) (b : Block) : Block := (b.reply r .ok).restartCores 3

/-- What a write to these objects does beyond storing. -/
def systemDo (e : Env) (r : Route) (index sub v : Nat) (b : Block) : Option Block :=
  match index, sub with
  | 0x1010, _ => some (b.saveBegin sub r)
  | 0x1011, _ => some ((b.restore sub).reply r .ok)
  | 0x2001, _ => some ((b.modeWrite v).reply r .ok)
  | 0x2013, _ => some ((if v = 1 then b.featuresConfirm e.othersAgree else b.featuresBase).reply r .ok)
  | 0x2201, 2 => some (if v = 1 then b.sleepRequest (.write r) else (b.wakeRequest 4).reply r .ok)
  | 0x2202, 6 => some (if v = signatureReset then b.dictionaryReset r else b.dictionaryRestart r)
  | 0x2504, 5 => some (((b.setReg Obj.bufferReadoutSize v).offer true).reply r .ok)
  | 0x2711, 1 => some ((b.causeClear v (maskOf e.again)).reply r .ok)
  | 0x2140, 2 => some (match v with | 1 => b.fwWrite r | 2 => b.fwActivate r e.othersRun | _ => b.fwConfirm r e.same)
  | 0x5000, 0 => some ((b.diagClear e.again).reply r .ok)
  | 0x5001, 3 => some ((b.logSelect v).reply r .ok)
  | 0x5001, 5 => some ((b.logClear).reply r .ok)
  | 0x5010, 2 => some ((b.pprHarden).reply r .ok)
  | 0x5100, 4 => some (b.mbistCommand v r e.same)
  | 0x5101, _ => some ((b.spanLoopback (Fin.ofNat 2 (sub - 1)) v e.errors).reply r .ok)
  | _, _ => none

/-- What a write of bytes does: custody records and the attestation nonce (R489 to R511). -/
def recordDo (e : Env) (r : Route) (index sub offset : Nat) (data : List Byte) (b : Block) : Option Block :=
  match index, sub with
  | 0x2110, 1 | 0x2118, 1 => some (b.proposeWrite (index == 0x2118) r offset data e.othersRun)
  | 0x2110, 2 | 0x2118, 2 => some (b.verdict (index == 0x2118) r data e.same e.othersRun)
  | 0x2110, 3 | 0x2118, 3 => some (b.enrol (index == 0x2118) r data)
  | 0x2160, 0 => some (b.attestNonce r data)
  | _, _ => none

end Block
end Sys2Proof.Machine
end

