-- ==== Sys2Proof/Machine/Dictionary.lean ====
section
/-! DEFINITION. Writing the dictionary (R2 to R4, R25 to R31, R38, R42, R43, R51, R54, R56, R59, R508): one sub-index, and TABLE downloads. -/
namespace Sys2Proof.Machine

/-- Whether a route reaches an object for writing (R54, R488). -/
def writeRoute (r : Route) (index sub : Nat) : Bool :=
  match r with
  | .smbus => index == 0x2118 || (index == 0x2201 && sub == 2)
  | _ => index != 0x2118

/-- Whether an index is open to local service (R56). -/
def serviceIndex (index : Nat) : Bool :=
  decide (0x2200 ≤ index) && decide (index < 0x2300) || decide (0x5000 ≤ index) && decide (index < 0x6000) ||
  (match headIndex index with | some (_, i) => decide (0x3300 ≤ i) | none => false)

namespace Block

/-- Whether a write is local service (R56). -/
def localService (r : Route) (index : Nat) (b : Block) : Bool :=
  serviceIndex index &&
  (match r with | .can _ | .smbus => true | .mailbox _ => b.abutments.contains b.pier | .tunnel _ => false)

/-- Codes of the access rules (R3, R4, R38, R43, R54, R56). -/
def accessCodes (r : Route) (index sub : Nat) (row : Row) (b : Block) : List AbortCode :=
  let owner := functionOf index
  let level := match owner with | some f => b.functionLevel f | none => 0
  let stopped := match owner with | some f => b.functionStopped f | none => b.allStopped
  codeIf (!writeRoute r index sub) .route ++ codeIf (row.acc == .ro || row.acc == .const) .writeOfRo ++
  codeIf (b.ring.minority && !b.localService r index) .minority ++ codeIf (row.acc == .rwc) .countersign ++
  codeIf (row.acc == .rwx && level == 0) .level ++ codeIf (row.acc == .rws && !stopped) .notStopped

/-- Whether a value selects behaviour of a feature that is not confirmed (R42, R51). -/
def lacksFeature (index sub v : Nat) (b : Block) : Bool :=
  match headIndex index with
  | some (h, i) => b.headFeature h i sub v || b.deviceFeature index sub v
  | none =>
    match axisIndex index with
    | some (_, i) => b.axisFeature i sub v || b.deviceFeature index sub v
    | none => b.deviceFeature index sub v || b.ringFeature index sub v

/-- Codes that an object's chapter adds; `new` holds the value written beside the values in force. -/
def chapterCodes (e : Env) (index sub v : Nat) (b new : Block) : List AbortCode :=
  codeIf (isControl index && sub == 4 && v != 1 && v != 2) .range ++
  match headIndex index with
  | some (h, i) => b.headTimingCodes h i sub v new ++ b.headLaneCodes e h i sub v
  | none =>
    match axisIndex index with
    | some (a, i) => b.axisCodes e a i sub v new
    | none =>
      b.captureCodes index sub v new ++ b.auxCodes index sub v new ++ b.fabricCodes index sub v ++ b.dmaCodes e index sub v new ++
      b.ringCodes index sub v ++ b.deviceCodes index sub v new ++ b.serviceCodes e index sub v ++ b.pdoCodes index sub v

/-- Codes of the actions that check themselves: they count only beside another code, to rank against it (R59). -/
def actionCodes (e : Env) (index sub v : Nat) (b : Block) : List AbortCode :=
  if v ≠ 1 then []
  else match headIndex index with
    | some (h, i) => if i = 0x3000 ∧ sub = 4 then (b.startDerive h).headStartViolations h else []
    | none =>
      match axisIndex index with
      | some (a, i) =>
        if i = 0x4100 ∧ sub = 4 then b.enableViolations a (e.vm.getD a.val 0) (e.flt.testBit a.val)
        else if i = 0x4160 ∧ sub = 2 then b.pageStartViolations a e.othersAgree
        else []
      | none => if index = 0x4000 ∧ sub = 4 then b.seqViolations else []

/-- What a write does beyond storing its value. -/
def writeDo (e : Env) (r : Route) (index sub v : Nat) (b : Block) : Option Block :=
  match headIndex index with
  | some (h, i) => b.headDo e r h i sub v
  | none =>
    match axisIndex index with
    | some (a, i) => b.axisDo e r a i sub v
    | none =>
      (b.captureDo e r index sub v).orElse fun _ => (b.auxDo e r index sub v).orElse fun _ => (b.fabricDo r index sub v).orElse fun _ =>
        (b.dmaDo e r index sub v).orElse fun _ => (b.ringDo e r index sub v).orElse fun _ => b.systemDo e r index sub v

/-- A value is stored, and what follows from it. -/
def store (o : Obj) (v : Nat) (b : Block) : Block :=
  match headIndex o.index with
  | some (h, i) => (((b.noteSetting h i o).headBefore h i).setReg o v).headStored h i
  | none => b.setReg o v

/-- What a refusal leaves beside the code (R49, R50, R367, R391). -/
def refusalEffect (index sub v : Nat) (c : AbortCode) (b : Block) : Block :=
  if index = 0x2013 then b.featureRefused v
  else if 0x2310 ≤ index ∧ index ≤ 0x2313 ∧ c = .eventLoop then b.loopRefused
  else if 0x2440 ≤ index ∧ index ≤ 0x245F ∧ sub = 10 then
    let ch : ChanId := Fin.ofNat 32 (index - 0x2440)
    if (b.shadowViolations ch).isEmpty && b.checker ch { b.shadowOf ch with ctrl := v } == some c then b.bump Obj.dmaCheckerRefusals else b
  else b

/-- Codes of steps 5 and 6 of R59 that an object's chapter adds whatever the value: they rank before a wrong length. -/
def stateCodes (index sub : Nat) (b : Block) : List AbortCode :=
  match index, sub with
  | 0x2508, _ => codeIf (!b.headStopped (Fin.ofNat 4 (sub - 1))) .notStopped
  | 0x5010, 2 => codeIf (!b.allStopped) .notStopped
  | _, _ => []

/-- Every code that holds against a write of one number (R59); none where the write is accepted. -/
def writeCodes (e : Env) (r : Route) (row : Row) (index sub : Nat) (data : List Byte) (b : Block) : List AbortCode :=
  let v := leNat data
  b.lookCodes r index sub ++ b.accessCodes r index sub row ++ row.dataCodes data ++
    (if data.length * 8 == row.ty.bits then
      codeIf (b.lacksFeature index sub v) .feature ++ b.chapterCodes e index sub v (b.setReg (row.obj index sub) v)
     else b.stateCodes index sub)

/-- A value is stored for a request on a route. Where a write of the same sub-index that stands later in the order of R26 has already been
executed in this CTL cycle, that write's value stays in force. -/
def storeFor (r : Route) (o : Obj) (v : Nat) (b : Block) : Block :=
  match b.nextWrite (routePlace r) o.key with
  | some w => b.writeUnder w v
  | none => (b.noteWrite (routePlace r) o).store o v

/-- A write of one number. -/
def writeNumber (e : Env) (r : Route) (row : Row) (index sub : Nat) (data : List Byte) (b : Block) : Block :=
  let v := leNat data
  let fits := data.length * 8 == row.ty.bits
  let codes := b.writeCodes e r row index sub data
  match firstCode (if codes.isEmpty then [] else codes ++ (if fits then b.actionCodes e index sub v else [])) with
  | some c => (if fits then b.refusalEffect index sub v c else b).reply r (.abort c)
  | none => (b.writeDo e r index sub v).getD ((b.storeFor r (row.obj index sub) v).reply r .ok)

/-- Whether a write of one number is accepted: the dictionary is served, the object exists and holds a number, and no code holds against
the write. -/
def accepts (e : Env) (r : Route) (index sub : Nat) (data : List Byte) (b : Block) : Bool :=
  b.served && match findRow index sub with
    | some row => row.ty.bits != 0 && (b.writeCodes e r row index sub data).isEmpty
    | none => false

/-- A write of bytes at an offset of an object. A TABLE moves only by download (R30). -/
def writeBytes (e : Env) (r : Route) (row : Row) (index sub offset : Nat) (data : List Byte) (b : Block) : Block :=
  let codes := b.lookCodes r index sub ++ b.accessCodes r index sub row ++ codeIf (row.ty == .table) .length ++
    (if offset = 0 then recordLengthCodes index sub data.length else [])
  match firstCode codes with
  | some c => b.reply r (.abort c)
  | none => (b.recordDo e r index sub offset data).getD (b.reply r .ok)

/-- A dictionary write as the arbiter executes it, with the offset that a record carries (R25, R28, R59). A request that comes while the
dictionary is not served is lost (R595). -/
def dictWriteAt (e : Env) (r : Route) (index sub offset : Nat) (data : List Byte) (b : Block) : Block :=
  if !b.served then b
  else match findRow index sub with
    | none => b.reply r (.abort ((firstCode (b.lookCodes r index sub)).getD .noSub))
    | some row => if row.ty.bits = 0 then b.writeBytes e r row index sub offset data else b.writeNumber e r row index sub data

/-- A dictionary write. -/
def dictWrite (e : Env) (r : Route) (index sub : Nat) (data : List Byte) (b : Block) : Block := b.dictWriteAt e r index sub 0 data

/-! ## Transfers (R30, R31) -/

def modControl (f : Control → Control) (b : Block) : Block := { b with control := f b.control }

/-- The transfer of a route to or from an index. -/
def transferOf (r : Route) (index : Nat) (b : Block) : Option Transfer :=
  b.control.transfers.find? fun x => x.route == r && x.index == index

/-- A download ends. -/
def transferDrop (r : Route) (index : Nat) (b : Block) : Block :=
  b.modControl fun c => { c with transfers := c.transfers.filter fun x => !(x.route == r && x.index == index) }

/-- A download ends with an abort. -/
def transferAbort (r : Route) (index : Nat) (c : AbortCode) (b : Block) : Block := (b.transferDrop r index).reply r (.abort c)

/-- Codes of a download but for its length and contents. A shadow that is in use by its block is kept (R148, R187). DESIGN CHOICE: an image
is not staged while the staged one is being written to its slot. -/
def tableCodes (r : Route) (index : Nat) (b : Block) : List AbortCode :=
  b.lookCodes r index 0 ++
  (match findRow index 0 with
   | none => []
   | some row => b.accessCodes r index 0 row ++ codeIf (row.ty != .table) .length) ++
  codeIf (decide (0x6018 ≤ index) && decide (index < 0x6020) && b.shadowBusy (Fin.ofNat 4 index)) .conflict ++
  codeIf (decide (0x6028 ≤ index) && decide (index < 0x602C) && b.geometryBusy (Fin.ofNat 4 index)) .conflict ++
  codeIf (index == 0x6060 && b.firmware.writing) .deviceState

/-- The start of a download to a shadow makes it not ready (R147, R173). -/
def shadowUnready (index : Nat) (b : Block) : Block :=
  if 0x6018 ≤ index ∧ index < 0x6020 then b.setReg (Obj.headCorrShadowReady (index % 4)) 0xFFFF
  else if 0x6028 ≤ index ∧ index < 0x602C then b.setReg (Obj.headStitchShadowReady (index % 4)) 0xFFFF
  else b

/-- Codes that the contents of a whole download bring: its length (R30, R83), and the check of its table. DEDUCED: the check of an image
(0x6060) is that of R504, whose result `fw.stage_status` reads (R506): one with a reserved field set is staged and found invalid, where R2
alone would refuse its download. -/
def contentCodes (index : Nat) (t : List Byte) (b : Block) : List AbortCode :=
  if 0x6014 ≤ index ∧ index < 0x6018 then
    let h : HeadId := Fin.ofNat 4 (index - 0x6014)
    if t.length < 8 then [.length]
    else if 4096 < scheduleCount t then [.notStored]
    else if t.length ≠ 8 + 8 * scheduleCount t then [.length]
    else codeIf (!(scheduleRising t && (scheduleGaps t).all fun g => decide (b.effMin h ≤ g * uTick))) .notStored
  else if !tableSizeOk index t.length then [.length]
  else
    let ok : Bool :=
      if 0x6010 ≤ index ∧ index < 0x6014 then patternTableOk t
      else if 0x601C ≤ index ∧ index < 0x6020 then segmentTableOk t
      else if 0x6028 ≤ index ∧ index < 0x602C then geometryOk t
      else if 0x6030 ≤ index ∧ index < 0x6034 then filterOk t
      else if 0x6034 ≤ index ∧ index < 0x6038 then trimsOk t
      else if 0x6040 ≤ index ∧ index < 0x6050 then linTableOk t
      else if index = 0x6050 then seqListOk t 0 && seqListOk t 1
      else true
    codeIf (!ok) .notStored

/-- The pieces of the table region (R200) that downloads in progress and the staged image hold. -/
def stagesHeld (b : Block) : List (Nat × Nat) := b.control.transfers.flatMap (fun x => x.place) ++ b.firmware.stage

/-- The new contents of a TABLE, staged at a place, take force at once (R30); an image stays staged and its check begins (R506). -/
def tableTakesForce (index : Nat) (place : List (Nat × Nat)) (t : List Byte) (b : Block) : Block :=
  if index = 0x6060 then b.modFirmware fun x => { x with stage := place, status := 1 } else b.setTable index t

/-- A download begins, or is refused (R30). -/
def transferStart (r : Route) (index : Nat) (size : Option Nat) (b : Block) : Block :=
  let second := b.control.transfers.any fun x => x.index == index && x.kind == .table
  let bad := match size with | some n => !tableSizeOk index n | none => false
  let codes := b.tableCodes r index ++ codeIf second .conflict
  match firstCode (codes ++ codeIf ((codes.isEmpty || (findRow index 0).isSome) && bad) .length) with
  | some c => b.reply r (.abort c)
  | none => (b.shadowUnready index).modControl fun c => { c with transfers := c.transfers ++ [⟨r, index, 0, .table, size, [], [], b.now⟩] }

/-- A download is complete: its CRC, its length, its access and its contents are checked, and it takes force (R30). -/
def transferEnd (x : Transfer) (crcOk : Bool) (b : Block) : Block :=
  let t := b.placeRead x.place
  let codes := b.tableCodes x.route x.index ++ b.contentCodes x.index t ++ codeIf (match x.size with | some n => n != t.length | none => false) .length
  if !crcOk then b.transferAbort x.route x.index .blockCrc
  else match firstCode codes with
    | some c => b.transferAbort x.route x.index c
    | none => ((b.transferDrop x.route x.index).tableTakesForce x.index x.place t).reply x.route .ok

/-- A further segment of a transfer: more than 1 s after the one before it is too late (R31), but for the CTL cycle in which the time ends
(`late`), which is counted. `f` is what the segment does to the transfer and to the block. -/
def transferGoesOn (r : Route) (index : Nat) (late : Bool) (f : Transfer → Block → Block) (b : Block) : Block :=
  match b.transferOf r index with
  | none => b
  | some x =>
    if !late && passed x.lastAt (tSec + 1) b.now then b.transferAbort r index .timedOut
    else f { x with lastAt := b.now } (if late then b.bump Obj.deviceDictionaryNearMisses else b)

/-- A transfer as it stands after a segment. -/
def transferPut (y : Transfer) (b : Block) : Block :=
  b.modControl fun c => { c with transfers := c.transfers.map fun z => if z.route == y.route && z.index == y.index then y else z }

/-- A segment of a download in progress: its bytes are staged in the table region (R30, R200). DESIGN CHOICE: they go to its lowest free
bytes, and a download that finds too few ends with 0x0504_0005. `fault` is a protocol fault in the segment. -/
def transferSegment (r : Route) (index : Nat) (bytes : List Byte) (last crcOk : Bool) (fault : Option AbortCode) (late : Bool) (b : Block) : Block :=
  b.transferGoesOn r index late (fun x b =>
    match fault with
    | some c => b.transferAbort r index c
    | none =>
      let more := takeSpace bytes.length (freeSpace tableArea b.stagesHeld)
      let y := { x with place := x.place ++ more }
      if placeSize more < bytes.length then b.transferAbort r index .outOfMemory
      else if last then ((b.placeWrite more bytes).transferPut y).transferEnd y crcOk
      else (b.placeWrite more bytes).transferPut y)

/-- TABLE_DOWNLOAD_SEGMENT: `start` says that it begins the transfer, with the size that it states. -/
def downloadSegment (r : Route) (index : Nat) (start : Bool) (size : Option Nat) (bytes : List Byte) (last crcOk : Bool)
    (fault : Option AbortCode) (late : Bool) (b : Block) : Block :=
  if !b.served then b
  else
    let known := (b.transferOf r index).isSome
    let b := if start then b.transferStart r index size else b
    if start && known then b else b.transferSegment r index bytes last crcOk fault late

/-- A table that arrives whole: the mailbox's download (R445). -/
def downloadWhole (r : Route) (index : Nat) (bytes : List Byte) (b : Block) : Block :=
  b.downloadSegment r index true (some bytes.length) bytes true true none false

/-- A write whose data come in segments (R31): it is executed when the last has come. -/
def writePart (e : Env) (r : Route) (index sub : Nat) (data : List Byte) (p : Portion) (b : Block) : Block :=
  match p with
  | .whole => b.dictWrite e r index sub data
  | .first _ => (b.transferDrop r index).modControl fun c => { c with transfers := c.transfers ++ [⟨r, index, sub, .write, none, data, [], b.now⟩] }
  | .next _ last late => b.transferGoesOn r index late (fun x b =>
      let y := { x with bytes := x.bytes ++ data }
      if last then (b.transferDrop r index).dictWrite e r index y.sub y.bytes else b.transferPut y)

/-- The next bytes of a read that is sent in segments; with the last the transfer ends. -/
def readSend (y : Transfer) (n : Nat) (b : Block) : Block :=
  let b := if y.bytes.length ≤ n then b.transferDrop y.route y.index else b.transferPut { y with bytes := y.bytes.drop n }
  let open_ := b.can.sessions
  let b := b.reply y.route (.data (y.bytes.take n))
  if y.bytes.length ≤ n then b else { b with can := { b.can with sessions := open_ } }

/-- A read whose value is sent in segments (R25, R31): it is the value that the first message found. -/
def readPart (r : Route) (index sub : Nat) (p : Portion) (b : Block) : Block :=
  match p with
  | .whole => b.dictRead r index sub
  | .first n =>
    match firstCode (b.readCodes r index sub), findRow index sub with
    | some c, _ => b.reply r (.abort c)
    | none, none => b.reply r (.abort .noSub)
    | none, some row =>
      let x : Transfer := ⟨r, index, sub, .read, none, b.readFor r row index sub, [], b.now⟩
      ((b.transferDrop r index).modControl fun c => { c with transfers := c.transfers ++ [x] }).readSend x n
  | .next n _ late => b.transferGoesOn r index late (fun x b => b.readSend x n)

/-- More than 1 s has passed since the last segment (R31). -/
def transferTimeout (r : Route) (index : Nat) (b : Block) : Block :=
  match b.transferOf r index with
  | some x => if passed x.lastAt (tSec + 1) b.now then b.transferAbort r index .timedOut else b
  | none => b

end Block
end Sys2Proof.Machine
end

