-- ==== Sys2Proof/Machine/Routes.lean ====
section
/-! DEFINITION. The routes by which requests reach the dictionary: USDO and PDOs on CAN FD, the SMBus REQUEST, the mailbox, and the ring
tunnel (R26, R53 to R56, R444, R445, R462 to R468, R474 to R477, R595). -/
namespace Sys2Proof.Machine
namespace Block

/-! ## CAN FD: USDO (R462, R465) -/

/-- Whether the USDO server answers: in pre-operational and operational, while the dictionary is served (R462, R595). -/
def usdoServes (b : Block) : Bool := b.canOn && (b.can.nmt == .preOperational || b.can.nmt == .operational)

/-- A client's request opens its session, one of at most 4 (R465); a fifth is refused. -/
def usdoSession (client : Fin 128) (f : Block → Block) (b : Block) : Block :=
  if !b.usdoServes then b
  else if b.can.sessions.contains client.val then f b
  else if 4 ≤ b.can.sessions.length then b.reply (.can client) (.abort .outOfMemory)
  else f (b.modCan fun x => { x with sessions := x.sessions ++ [client.val] })

/-- A USDO request to read, or to write the data given, whole or by segments. -/
def usdoRequest (client : Fin 128) (index sub : Nat) (write : Option (List Byte)) (part : Portion) (e : Env) (b : Block) : Block :=
  b.usdoSession client fun b =>
    match write with
    | none => b.readPart (.can client) index sub part
    | some data => b.writePart e (.can client) index sub data part

/-! ## CAN FD: PDOs (R466 to R468) -/

/-- Whether PDOs run (R462). -/
def pdosRun (b : Block) : Bool := b.canOn && b.can.nmt == .operational

/-- Index, sub-index and bytes of a mapping entry. -/
def entryIndex (e : Nat) : Nat := e / 65536
def entrySub (e : Nat) : Nat := e / 256 % 256
def entryBytesOf (e : Nat) : Nat := e % 256 / 8

/-- The bytes of TPDO n. -/
def tpdoBytes (n : Nat) (b : Block) : List Byte :=
  (b.mapEntries false n (b.reg (Obj.tpdoMapCount n))).flatMap fun e =>
    match findRow (entryIndex e) (entrySub e) with
    | some row => b.readData row (entryIndex e) (entrySub e)
    | none => []

def modTpdo (n : Fin 8) (f : TpdoState → TpdoState) (b : Block) : Block :=
  b.modCan fun x => { x with tpdos := x.tpdos.set n (f x.tpdos[n]) }

/-- Whether TPDO n is valid: bit 31 of its COB-ID is 0. -/
def tpdoValid (n : Fin 8) (b : Block) : Bool := !(b.reg (Obj.tpdoCobId n)).testBit 31

/-- TPDO n is sent; one that maps nothing is not (DEDUCED from CiA 1301, R462). -/
def tpdoSend (n : Fin 8) (b : Block) : Block :=
  if !b.pdosRun || !b.tpdoValid n || b.reg (Obj.tpdoMapCount n) == 0 then b
  else
    let d := b.tpdoBytes n
    (b.emit (.tpdo n.val d)).modTpdo n fun x => { x with syncs := 0, lastData := some d, lastSent := some b.now }

/-- A SYNC (R467): each TPDO of types 1 to 240 that is due is sent. -/
def canSync (b : Block) : Block :=
  if !b.pdosRun then b
  else (List.finRange 8).foldl (fun b (n : Fin 8) =>
    let ty := b.reg (Obj.tpdoType n)
    if ty = 0 ∨ 240 < ty then b
    else if ty ≤ b.can.tpdos[n].syncs + 1 then b.tpdoSend n
    else b.modTpdo n fun x => { x with syncs := x.syncs + 1 }) b

/-- The task of TPDO n (R467): it sends a TPDO of type 0 only. With a SYNC in the same CTL cycle the TPDO is sent once and counted. -/
def tpdoTask (n : Fin 8) (withSync : Bool) (b : Block) : Block :=
  if b.reg (Obj.tpdoType n) ≠ 0 then b
  else (if withSync && b.pdosRun then b.bump Obj.canCoincidences else b).tpdoSend n

/-- Whether TPDO n is event-driven. -/
def tpdoEvent (n : Fin 8) (b : Block) : Bool := b.reg (Obj.tpdoType n) == 254 || b.reg (Obj.tpdoType n) == 255

/-- Whether the inhibit time of TPDO n has passed. -/
def tpdoInhibited (n : Fin 8) (b : Block) : Bool :=
  match b.can.tpdos[n].lastSent with
  | some t => !passed t (b.reg (Obj.tpdoInhibit n) * 100 * tUs) b.now
  | none => false

/-- Every 1 ms (R467): TPDOs of types 254 and 255 whose mapped values have changed. -/
def tpdoCheck (b : Block) : Block :=
  (List.finRange 8).foldl (fun b (n : Fin 8) =>
    if b.tpdoEvent n && !b.tpdoInhibited n && b.can.tpdos[n].lastData != some (b.tpdoBytes n) then b.tpdoSend n else b) b

/-- The event timer of TPDO n expires (R467). -/
def tpdoTimer (n : Fin 8) (b : Block) : Block :=
  let ms := b.reg (Obj.tpdoEventTimer n)
  let over_ := match b.can.tpdos[n].lastSent with | some t => passed t (ms * tMs) b.now | none => true
  if b.tpdoEvent n && ms != 0 && over_ then b.tpdoSend n else b

/-- An outcome of an RPDO entry that is a refusal. -/
def isRefusal : Out → Bool
  | .answer (.can 0) (.abort _) => true
  | _ => false

/-- One entry of an RPDO is executed as a CAN FD write (R468); a refusal is counted and told. Client 0 stands for the RPDO. -/
def rpdoEntry (e : Env) (index sub : Nat) (data : List Byte) (b : Block) : Block :=
  let before := b.outs
  let b := ({ b with outs := [] }).dictWrite e (.can 0) index sub data
  let refused := b.outs.any isRefusal
  let b := { b with outs := before ++ b.outs }
  if refused then ((b.bump Obj.canRpdoRefusals).raise 932).emcyCause 0xFF01 7 0 932 else b

/-- The entries of an RPDO in mapping order, each with its share of the data. -/
def rpdoEntries (e : Env) : List Nat → List Byte → Block → Block
  | [], _, b => b
  | m :: rest, data, b =>
    rpdoEntries e rest (data.drop (entryBytesOf m)) (b.rpdoEntry e (entryIndex m) (entrySub m) (data.take (entryBytesOf m)))

/-- RPDO n is received (R468). One that is shorter than its mapping is not executed. -/
def rpdoReceived (n : Fin 8) (data : List Byte) (e : Env) (b : Block) : Block :=
  let es := b.mapEntries true n (b.reg (Obj.rpdoMapCount n))
  if !b.pdosRun || (b.reg (Obj.rpdoCobId n)).testBit 31 then b
  else if data.length < es.foldl (fun m x => m + entryBytesOf x) 0 then b.emcyCause 0x8210 4 0 noSource
  else b.rpdoEntries e es data

/-! ## SMBus (R54, R474 to R477) -/

/-- A read of bytes of an object over SMBus (R474). -/
def smbRead (index sub offset len : Nat) (b : Block) : Block :=
  let codes := b.readCodes .smbus index sub
  match firstCode codes, findRow index sub with
  | some c, _ => b.reply .smbus (.abort c)
  | none, none => b.reply .smbus (.abort .noSub)
  | none, some row =>
    let d := b.readFor .smbus row index sub
    if d.length < offset + len ∨ len = 0 ∨ 240 < len then b.reply .smbus (.abort .length)
    else b.reply .smbus (.data (slice d offset len))

/-- A part of a verdict or enrol record (R474): the record is complete when its last byte has come. -/
def smbPart (e : Env) (sub offset : Nat) (data : List Byte) (b : Block) : Block :=
  let whole := if sub = 2 then 160 else 193
  let held := if offset = 0 then [] else ((b.smb.staged.get? sub).getD []).take offset
  if whole < offset + data.length then b.reply .smbus (.abort .length)
  else
    let l := held ++ data
    if held.length ≠ offset then b.reply .smbus .ok
    else if l.length = whole then
      (b.modSmb fun x => { x with staged := x.staged.erase sub }).dictWriteAt e .smbus 0x2118 sub 0 l
    else (b.modSmb fun x => { x with staged := x.staged.insert sub l }).reply .smbus .ok

/-- A write over SMBus: the board custodian's records by parts, the power request whole (R54, R474). -/
def smbWrite (e : Env) (index sub offset : Nat) (data : List Byte) (b : Block) : Block :=
  match findRow index sub with
  | none => b.reply .smbus (.abort ((firstCode (b.lookCodes .smbus index sub)).getD .noSub))
  | some row =>
    let codes := b.lookCodes .smbus index sub ++ b.accessCodes .smbus index sub row
    match firstCode codes with
    | some c => (if data.length * 8 = row.ty.bits then b.refusalEffect index sub (leNat data) c else b).reply .smbus (.abort c)
    | none =>
    if index = 0x2118 then
      if sub = 1 then b.dictWriteAt e .smbus index sub offset data else b.smbPart e sub offset data
    else if offset ≠ 0 then b.reply .smbus (.abort .length)
    else b.dictWriteAt e .smbus index sub 0 data

/-- A REQUEST while the pier sleeps (R477). -/
def smbAsleep (op index sub offset len : Nat) (b : Block) : Block :=
  if op = 1 ∧ sleepServes index then b.smbRead index sub offset len else b.reply .smbus (.abort .deviceState)

/-- A REQUEST (R474 to R478, R595). An op code other than 1 and 2 is answered as R445 answers it in the mailbox (DEDUCED). -/
def smbRequest (op index sub offset len : Nat) (data : List Byte) (pecOk : Bool) (e : Env) (b : Block) : Block :=
  let (ok, b) := b.smbStart
  if !ok then b
  else if !(b.served || b.asleep) then b.smbStop
  else if b.smb.executing || b.smbUnread then (b.bump Obj.smbBusyNacks).smbStop
  else if !pecOk then ((b.bump Obj.smbPecErrors).raise 945).smbStop
  else
    let b := ((b.modSmb fun x => { x with executing := true, response := none }).raise 944).smbStop
    if b.asleep then b.smbAsleep op index sub offset len
    else match op with
      | 1 => b.smbRead index sub offset len
      | 2 => b.smbWrite e index sub offset data
      | _ => b.reply .smbus (.abort .specifier)

/-! ## The mailbox and the tunnel (R55, R444, R445) -/

/-- Codes of a request's form (R445): `table` says that the object is a TABLE. -/
def mailForm (opcode length address bytes : Nat) (table : Bool) : List AbortCode :=
  if opcode ≤ 2 then codeIf (table || decide (4064 < length) || (bytes != 0 && bytes != length)) .length
  else codeIf (!table) .length ++ codeIf (address % 4 != 0 || length % 4 != 0) .misaligned

/-- A request of the mailbox or of a tunnel is executed at this pier (R445). `table` are the bytes that the privileged channel reads in
host memory for a download; an upload leaves for the host memory of the abutment. Bytes of the request area that were not written are 0. -/
def mailExecute (r : Route) (abutment opcode index sub length address : Nat) (data table : List Byte) (e : Env) (b : Block) : Block :=
  match findRow index sub with
  | none => b.reply r (.abort ((firstCode (b.lookCodes r index sub)).getD .noSub))
  | some row =>
    let isTable := row.ty == .table
    let form := mailForm opcode length address (row.ty.bits / 8) isTable
    let codes := match opcode with
      | 1 => b.readCodes r index sub ++ form
      | 2 => if form.isEmpty then [] else b.lookCodes r index sub ++ b.accessCodes r index sub row ++ form
      | 3 => if form.isEmpty then [] else b.tableCodes r index ++ form
      | _ => b.readCodes r index sub ++ form ++ codeIf (isTable && decide (length < (b.table index).length)) .length
    match firstCode codes with
    | some c => b.reply r (.abort c)
    | none =>
      match opcode with
      | 1 => b.dictRead r index sub
      | 2 => b.dictWrite e r index sub (padTo length data)
      | 3 => b.downloadWhole r index (table.take length)
      | _ => (b.emit (.hostWrite abutment address (b.readTable index))).reply r .ok

/-- A doorbell of a slot (R444, R445): the request in the slot is submitted to this pier, or by tunnel to another. Until the ready bit is
set it is dropped and counted (R438). -/
def doorbell (s : SlotId) (table : List Byte) (e : Env) (b : Block) : Block :=
  let x := b.host.slots[s]
  if !b.host.ready || !b.served then b.barDrop
  else if x.state = 1 then b.bump Obj.hostMailboxBusy
  else
    let q := padTo 32 x.request
    let b := b.modSlot s fun x => { x with state := 1, response := [], answer := none }
    let r : Route := .mailbox s
    let op := fieldU q 0 1
    let target := fieldU q 1 1
    if op = 0 ∨ 4 < op then b.reply r (.abort .specifier)
    else if target = 0xFF ∨ target = b.pier then
      b.mailExecute r b.pier op (fieldU q 2 2) (fieldU q 4 1) (fieldU q 8 4) (fieldU q 16 8) (x.request.drop 32) table e
    else if b.ring.members.contains target then b.emit (.tunnel s.val target x.request)
    else b.reply r (.abort .unavailable)

/-- The host writes a request into a slot; while the slot is busy the write is dropped (R444). -/
def slotWrite (s : SlotId) (bytes : List Byte) (b : Block) : Block :=
  if b.host.slots[s].state = 1 then b.barDrop else b.modSlot s fun x => { x with request := bytes }

/-- A request of the host: it is written into its slot and its doorbell is rung. -/
def mailRequest (s : SlotId) (opcode target index sub length tag address : Nat) (data table : List Byte) (e : Env) (b : Block) : Block :=
  if !b.host.linkUp then b
  else if b.host.slots[s].state = 1 then (b.slotWrite s []).doorbell s table e
  else (b.slotWrite s (mailHeader opcode target index sub length tag address ++ data)).doorbell s table e

/-- A tunnelled request reaches its target (R55). -/
def tunnelRequest (abutment : PierId) (opcode index sub length address : Nat) (data table : List Byte) (e : Env) (b : Block) : Block :=
  if !b.served then b
  else if opcode = 0 ∨ 4 < opcode then b.reply (.tunnel abutment) (.abort .specifier)
  else b.mailExecute (.tunnel abutment) abutment.val opcode index sub length address data table e

end Block
end Sys2Proof.Machine
end

