-- ==== Sys2Proof/Machine/Bar0.lean ====
section
/-! DEFINITION. Writes to BAR0 (R29, R387, R401, R441 to R446, R449 to R451, R455). -/
namespace Sys2Proof.Machine

/-- A 64-bit register after a write of one of its halves. -/
def halfWritten (old : Nat) (high : Bool) (v : Nat) : Nat :=
  if high then v * 2 ^ 32 + old % 2 ^ 32 else old / 2 ^ 32 * 2 ^ 32 + v

namespace Block

/-! ## DMA registers (R401) -/

/-- Whether a BAR0 write to a hardware-near object is refused as a dictionary write from this pier's own mailbox would be (R29, R56). -/
def barMinority (index : Nat) (b : Block) : Bool := b.ring.minority && !b.localService (.mailbox 0) index

/-- A dword of a shadow set at an offset of R383. `copied`: the engine copies the shadow in the same MEM cycle (R389). -/
def barShadow (c : ChanId) (off v : Nat) (copied : Bool) (b : Block) : Block :=
  let half (o : Obj) (high : Bool) : Block := b.setByBar o (halfWritten (b.reg o) high v)
  if copied || !(b.shadowViolations c).isEmpty || b.barMinority 0x2440 then b.barDrop
  else match off with
    | 0x00 => half (Obj.dmaShadowSrc c) false
    | 0x04 => half (Obj.dmaShadowSrc c) true
    | 0x08 => half (Obj.dmaShadowDst c) false
    | 0x0C => half (Obj.dmaShadowDst c) true
    | 0x10 => b.setByBar (Obj.dmaShadowN0 c) v
    | 0x14 => (b.setByBar (Obj.dmaShadowN1 c) (v % 65536)).setByBar (Obj.dmaShadowN2 c) (v / 65536)
    | 0x18 => b.setByBar (Obj.dmaShadowSstep1 c) v
    | 0x1C => b.setByBar (Obj.dmaShadowDstep1 c) v
    | 0x20 => b.setByBar (Obj.dmaShadowSstep2 c) v
    | 0x24 => b.setByBar (Obj.dmaShadowDstep2 c) v
    | 0x28 => if v / 256 % 64 ≠ 0 then b.barDrop else (b.shadowLoad c v true).2
    | 0x30 => half (Obj.dmaShadowLink c) false
    | 0x34 => half (Obj.dmaShadowLink c) true
    | 0x38 => b.setByBar (Obj.dmaShadowTag c) v
    | 0x3C => if v = 0 then b else b.barDrop
    | _ => b

/-- The pacing lines of R395. -/
def paceLineOk (n : Nat) : Bool := decide (n ≤ 2) || decide (16 ≤ n) && decide (n ≤ 31)

/-- A dword of a channel at an offset of R401. `both`: a go and a stop, or a write of the shadow and its copy, reach the channel in one MEM
cycle. -/
def barChannel (c : ChanId) (off v : Nat) (both : Bool) (b : Block) : Block :=
  let shut := !(b.channelViolations c).isEmpty || b.barMinority 0x2400
  if off < 0x40 then b.barDrop
  else if off < 0x80 then b.barShadow c (off - 0x40) v both
  else match off with
    | 0x80 => if shut || v = 0 || decide (4 < v) then b.barDrop else b.dmaCommand c v both
    | 0x88 =>
      let line := v % 256
      let low := v / 65536
      if shut || v / 256 % 256 != 0 || !paceLineOk line || decide (b.reg (Obj.dmaPaceHigh c) ≤ low) then b.barDrop
      else (b.setByBar (Obj.dmaPaceLine c) line).setByBar (Obj.dmaPaceLow c) low
    | 0x8C => if shut || decide (v % 65536 ≤ b.reg (Obj.dmaPaceLow c)) then b.barDrop else b.setByBar (Obj.dmaPaceHigh c) (v % 65536)
    | 0x84 | 0x90 => b.barDrop
    | _ => b

/-! ## Queues and interrupts (R449, R454, R455) -/

/-- A register of a queue that is written only while the queue is disabled. -/
def barIdle (q : QueueId) (o : Obj) (v : Nat) (ok : Bool) (b : Block) : Block :=
  if b.isSet (Obj.hostQueueEnable q) || !ok || b.barMinority 0x2650 then b.barDrop else b.setByBar o v

/-- The control register of a queue: error clear, enable, disable. `both`: an enable and a disable meet in one PCI cycle. -/
def barControl (q : QueueId) (v : Nat) (both : Bool) (b : Block) : Block :=
  if 4 ≤ v || b.barMinority 0x2650 then b.barDrop
  else
    let b := if v / 2 % 2 = 1 then b.queueErrorClear q else b
    if v % 2 = 1 then b.queueEnable q none both
    else (if both then b.bump Obj.hostCoincidences else b).queueDisable q none

/-- A queue register of 64 bits, at its offset. -/
def barQueue64 (q : QueueId) (off v : Nat) (b : Block) : Block :=
  match off with
  | 0x00 => b.barIdle q (Obj.hostQueueBase q) v (v % 4096 == 0)
  | 0x18 => if b.barMinority 0x2650 then b.barDrop else b.ackWrite q v none
  | 0x20 => b.barIdle q (Obj.hostQueueShadow q) v (v % 8 == 0)
  | _ => b.barDrop

/-- The register that holds a 64-bit offset of a queue. -/
def queueObj (q : QueueId) (off : Nat) : Obj :=
  if off < 8 then Obj.hostQueueBase q else if off < 0x20 then Obj.hostQueueAckPos q else Obj.hostQueueShadow q

/-- A dword of a queue at an offset of R449. -/
def barQueue (q : QueueId) (off v : Nat) (both : Bool) (b : Block) : Block :=
  let plain (o : Obj) : Block := if b.barMinority 0x2650 then b.barDrop else b.setByBar o v
  match off with
  | 0x08 => b.barIdle q (Obj.hostQueueSizeLog2 q) v (decide (20 ≤ v) && decide (v ≤ 32))
  | 0x0C => b.barControl q v both
  | 0x10 | 0x14 => b.barDrop
  | 0x28 => plain (Obj.hostQueueCoalesceBytes q)
  | 0x2C => plain (Obj.hostQueueCoalesceUs q)
  | 0x30 => plain (Obj.hostQueueStallUs q)
  | 0x00 | 0x04 | 0x18 | 0x1C | 0x20 | 0x24 =>
    b.barQueue64 q (off / 8 * 8) (halfWritten (b.reg (queueObj q off)) (off % 8 == 4) v)
  | _ => b

/-- A dword of the cause register or its mask (R455); `firing` are the causes that fire in the same PCI cycle. -/
def barCause (off v firing : Nat) (b : Block) : Block :=
  match off with
  | 0x0 => b.clearCauses v firing
  | 0x4 => b.clearCauses (v * 2 ^ 32) firing
  | 0x8 => b.modHost fun x => { x with causeMask := halfWritten x.causeMask false v }
  | 0xC => b.modHost fun x => { x with causeMask := halfWritten x.causeMask true v }
  | _ => b

/-- A dword of the MSI-X table: address, data, mask. A message that pends leaves when its entry is unmasked (PCI Express, R454). -/
def barMsix (n : Fin 64) (off v : Nat) (b : Block) : Block :=
  let entry (f : MsixEntry → MsixEntry) : Block := b.modHost fun x => { x with msix := x.msix.set n (f x.msix[n]) }
  match off with
  | 0x0 => entry fun m => { m with address := halfWritten m.address false v }
  | 0x4 => entry fun m => { m with address := halfWritten m.address true v }
  | 0x8 => entry fun m => { m with data := v }
  | _ =>
    let b' := entry fun m => { m with masked := v % 2 == 1 }
    if v % 2 = 0 ∧ b.host.pending.testBit n then (b'.modHost fun x => { x with pending := clearBit x.pending n }).msixSend n else b'

/-! ## The map (R441) -/

/-- A byte string with bytes written at an offset. -/
def patched (l : List Byte) (off : Nat) (bytes : List Byte) : List Byte :=
  let l := padTo (off + bytes.length) l
  l.take off ++ bytes ++ l.drop (off + bytes.length)

/-- A dword of a mailbox slot's registers (R444). -/
def barSlot (s : SlotId) (off v : Nat) (table : List Byte) (e : Env) (b : Block) : Block :=
  match off with
  | 0x0 => if v = 1 then b.doorbell s table e else b.barDrop
  | 0x4 | 0x8 => b.barDrop
  | _ => b

/-- A dword write at a BAR0 offset. Reserved ranges ignore it; registers that only read drop it. -/
def barDword (off v : Nat) (table : List Byte) (e : Env) (b : Block) : Block :=
  if off < 0x40 then (if off < 0x14 ∨ 0x18 ≤ off ∧ off < 0x24 then b.barDrop else b)
  else if 0x1000 ≤ off ∧ off < 0x1080 then b.barSlot (Fin.ofNat 8 ((off - 0x1000) / 16)) (off % 16) v table e
  else if 0x10000 ≤ off ∧ off < 0x12000 then b.barChannel (Fin.ofNat 32 ((off - 0x10000) / 256)) (off % 256) v e.same
  else if off = 0x12000 then (if b.barMinority 0x2401 then b.barDrop else b.setByBar Obj.dmaFenceMask v)
  else if off = 0x12004 then (if b.barMinority 0x2401 then b.barDrop else b.setByBar Obj.dmaStopMask v)
  else if off = 0x12008 then b.barDrop
  else if 0x13000 ≤ off ∧ off < 0x13010 then b.barDrop
  else if 0x20000 ≤ off ∧ off < 0x30000 then
    let s : SlotId := Fin.ofNat 8 ((off - 0x20000) / 0x2000)
    if 0x1000 ≤ off % 0x2000 then b.barDrop else b.slotWrite s (patched b.host.slots[s].request (off % 0x2000) (leBytes 4 v))
  else if 0x30000 ≤ off ∧ off < 0x30400 then b.barQueue (Fin.ofNat 16 ((off - 0x30000) / 64)) (off % 64) v e.same
  else if 0x31000 ≤ off ∧ off < 0x31010 then b.barCause (off % 16) v (maskOf e.again)
  else if 0x40000 ≤ off ∧ off < 0x40400 then b.barMsix (Fin.ofNat 64 ((off - 0x40000) / 16)) (off % 16) v
  else if 0x41000 ≤ off ∧ off < 0x41008 then b.barDrop
  else b

/-- Whether an offset holds a queue register of 64 bits. -/
def isQueue64 (off : Nat) : Bool := decide (0x30000 ≤ off) && decide (off < 0x30400) && [0x00, 0x10, 0x18, 0x20].contains (off % 64)

/-- A write of 8 bytes as its two dwords, of which neither takes effect when one of them is refused (R2, R29). -/
def barPair (off v : Nat) (table : List Byte) (e : Env) (b : Block) : Block :=
  let y := ((b.modHost fun x => { x with dropped := 0 }).barDword off (v % 2 ^ 32) table e).barDword (off + 4) (v / 2 ^ 32 % 2 ^ 32) table e
  if y.host.dropped = 0 then y.modHost fun x => { x with dropped := b.host.dropped } else b.barDrop

/-- A BAR0 write of 4 or 8 bytes at its natural alignment (R443); any other is dropped and counted. `table` are the bytes of host memory
that a download asked for by a doorbell reads. -/
def barWrite (off size v : Nat) (table : List Byte) (e : Env) (b : Block) : Block :=
  if !b.host.linkUp then b
  else if size = 4 ∧ off % 4 = 0 then b.barDword off (v % 2 ^ 32) table e
  else if size = 8 ∧ off % 8 = 0 then
    if isQueue64 off then b.barQueue64 (Fin.ofNat 16 ((off - 0x30000) / 64)) (off % 64) (v % 2 ^ 64)
    else b.barPair off v table e
  else b.barDrop

/-! ## Reads (R441 to R446, R449, R455) -/

/-- A field of a BAR0 block whose bits outside the mask are reserved and read undefined (R2). -/
def barField (off mask v : Nat) (b : Block) : Nat := b.withOpen 32 mask v (2 ^ 40 + off)

/-- A half of a 64-bit value. -/
def halfOf (high : Bool) (v : Nat) : Nat := if high then v / 2 ^ 32 % 2 ^ 32 else v % 2 ^ 32

/-- A dword of the identity and status block (R442). -/
def barIdentity (off : Nat) (b : Block) : Nat :=
  let bit (c : Bool) (k : Nat) : Nat := if c then 2 ^ k else 0
  match off with
  | 0x00 => 0x6440
  | 0x04 => 1
  | 0x08 => b.barField off 15 (bit b.ring.minority 3 + bit b.isAbutment 2 + bit (b.reg Obj.deviceFeaturesControl == 2) 1 + bit b.host.ready 0)
  | 0x0C => b.barField off 0xFF (b.reg Obj.ringPierNumber)
  | 0x10 => b.reg Obj.ringEpoch
  | 0x18 => halfOf false b.now.toNat
  | 0x1C => halfOf true b.now.toNat
  | 0x20 => b.host.dropped
  | _ => 0

/-- A dword of a slot's registers (R444). The doorbell, which is only written, reads 0. -/
def barSlotRead (s : SlotId) (off : Nat) (b : Block) : Nat :=
  match off with
  | 0x4 => b.host.slots[s].state
  | 0x8 => b.host.slots[s].completions
  | _ => 0

/-- A register set as 64 bytes (R383); the reserved bits of CTRL read undefined, and so do those of STATUS (R2). -/
def descBytes (d : Desc) (place : Nat) (b : Block) : List Byte :=
  let i (v : Int) : List Byte := leBytes 4 (v % 2 ^ 32).toNat
  leBytes 8 d.src ++ leBytes 8 d.dst ++ leBytes 4 d.n0 ++ leBytes 2 d.n1 ++ leBytes 2 d.n2 ++ i d.sstep1 ++ i d.dstep1 ++ i d.sstep2 ++
  i d.dstep2 ++ leBytes 4 (b.barField place 0xFFFFC0FF d.ctrl) ++ leBytes 4 (b.barField (place + 4) 0xFF000000 d.status) ++ leBytes 8 d.link ++
  leBytes 4 d.tag ++ leBytes 4 0

/-- A dword of a channel (R401). The command, which is only written, reads 0. -/
def barChannelRead (c : ChanId) (off : Nat) (b : Block) : Nat :=
  if off < 0x40 then fieldU (b.descBytes (b.activeOf c) (256 * c.val)) off 4
  else if off < 0x80 then fieldU (b.descBytes (b.shadowOf c) (256 * c.val + 0x40)) (off - 0x40) 4
  else match off with
    | 0x84 => b.dmaStateOf c
    | 0x88 => b.barField (256 * c.val + 0x88) 0xFFFF00FF (b.reg (Obj.dmaPaceLine c) + 65536 * b.reg (Obj.dmaPaceLow c))
    | 0x8C => b.reg (Obj.dmaPaceHigh c) + 65536 * b.reg (Obj.dmaPending c)
    | 0x90 => b.reg (Obj.dmaArrived c)
    | _ => 0

/-- A dword of a queue's registers (R449). -/
def barQueueRead (q : QueueId) (off : Nat) (b : Block) : Nat :=
  match off with
  | 0x00 | 0x04 => halfOf (off == 0x04) (b.reg (Obj.hostQueueBase q))
  | 0x08 => b.reg (Obj.hostQueueSizeLog2 q)
  | 0x0C => b.barField (0x30000 + 64 * q.val + off) 3 ((if b.host.queues[q].error then 2 else 0) + (if b.isSet (Obj.hostQueueEnable q) then 1 else 0))
  | 0x10 | 0x14 => halfOf (off == 0x14) (b.queueW q)
  | 0x18 | 0x1C => halfOf (off == 0x1C) (b.queueA q)
  | 0x20 | 0x24 => halfOf (off == 0x24) (b.reg (Obj.hostQueueShadow q))
  | 0x28 => b.reg (Obj.hostQueueCoalesceBytes q)
  | 0x2C => b.reg (Obj.hostQueueCoalesceUs q)
  | 0x30 => b.reg (Obj.hostQueueStallUs q)
  | _ => 0

/-- A dword of the cause register, its mask, the MSI-X table and its pending bits (R441, R455). -/
def barInterruptRead (off : Nat) (b : Block) : Nat :=
  if 0x31000 ≤ off ∧ off < 0x31008 then halfOf (off % 8 == 4) b.host.causes
  else if 0x31008 ≤ off ∧ off < 0x31010 then halfOf (off % 8 == 4) b.host.causeMask
  else if 0x40000 ≤ off ∧ off < 0x40400 then
    let m := b.host.msix[(Fin.ofNat 64 ((off - 0x40000) / 16) : Fin 64)]
    match off % 16 with
    | 0x0 => halfOf false m.address
    | 0x4 => halfOf true m.address
    | 0x8 => m.data
    | _ => if m.masked then 1 else 0
  else if 0x41000 ≤ off ∧ off < 0x41008 then halfOf (off % 8 == 4) b.host.pending
  else 0

/-- A dword of BAR0 as it reads; a reserved range reads 0 (R441). -/
def barReadDword (off : Nat) (b : Block) : Nat :=
  if off < 0x40 then b.barIdentity off
  else if 0x1000 ≤ off ∧ off < 0x1080 then b.barSlotRead (Fin.ofNat 8 ((off - 0x1000) / 16)) (off % 16)
  else if 0x10000 ≤ off ∧ off < 0x12000 then b.barChannelRead (Fin.ofNat 32 ((off - 0x10000) / 256)) (off % 256)
  else if off = 0x12000 then b.reg Obj.dmaFenceMask
  else if off = 0x12004 then b.reg Obj.dmaStopMask
  else if off = 0x12008 then b.reg Obj.dmaCheckerRefusals
  else if 0x20000 ≤ off ∧ off < 0x30000 then
    let s := b.host.slots[(Fin.ofNat 8 ((off - 0x20000) / 0x2000) : Fin 8)]
    fieldU (padTo 4096 (if 0x1000 ≤ off % 0x2000 then s.response else s.request)) (off % 0x1000) 4
  else if 0x30000 ≤ off ∧ off < 0x30400 then b.barQueueRead (Fin.ofNat 16 ((off - 0x30000) / 64)) (off % 64)
  else b.barInterruptRead off

/-- Whether BAR0 takes a read of this size here (R443). -/
def barReadable (off size : Nat) : Bool :=
  ((size == 4 || size == 8) && off % size == 0) ||
  (size != 0 && size % 4 == 0 && off % 4 == 0 &&
    (decide (0x20000 ≤ off ∧ off + size ≤ 0x30000) || decide (0x13000 ≤ off ∧ off + size ≤ 0x13010) || decide (0x40000 ≤ off ∧ off + size ≤ 0x40400)))

/-- A read of BAR0 (R441 to R446): its bytes. A read that reaches the auxiliary FIFO takes one word from it. -/
def barRead (off size : Nat) (b : Block) : Block :=
  if 0x13000 ≤ off ∧ off < 0x13010 then b.fifoBarReadPart (off - 0x13000) size
  else b.emit (.bar0 ((List.range (size / 4)).flatMap fun i => leBytes 4 (b.barReadDword (off + 4 * i))))

/-- A BAR0 access that is no write of R29 and no read of the whole FIFO: one of a size or alignment that BAR0 does not take is an
unsupported request, of which a read completes with UR status and a write is dropped and counted (R443); any other read returns its bytes. -/
def barAccess (off size : Nat) (write : Bool) (b : Block) : Block :=
  if !b.host.linkUp then b
  else if write then (if (size = 4 ∨ size = 8) ∧ off % size = 0 then b else b.barDrop)
  else if barReadable off size then b.barRead off size
  else b.emit .unsupported

end Block
end Sys2Proof.Machine
end

