-- ==== Sys2Proof/Machine/Tasks.lean ====
section
/-! DEFINITION. The tasks of the event fabric: what the owning block does when it samples a catch latch (R359 to R362, R377), and the
pairs of tasks of which one wins (R361). -/
namespace Sys2Proof.Machine

/-- Nothing else happens around a command. -/
def Env.quiet : Env := ⟨false, .alone, .alone, .alone, [], [], none, true, false, none, false, [], 0, false, 0, false⟩

/-- The tasks over which a task wins when both are sampled in one cycle (R361): the start, enable, unblank, unfreeze or release of the
pair, for halt and quick stop the moves, for task 417 the go and request tasks. The pairs of the timer units stand in R374. -/
def losersTo (t : Nat) : List Nat :=
  if t = 0 then [1]
  else if 32 ≤ t ∧ t < 288 then
    match (t - 32) % 64 with
    | 2 => [t - 1] | 4 => [t + 1] | 8 => [t - 1] | 11 => [t - 1] | 16 => [t + 1]
    | _ => []
  else if t = 288 then [289]
  else if t = 293 then [292]
  else if 320 ≤ t ∧ t < 352 then
    match (t - 320) % 16 with
    | 1 => [t - 1] | 2 => [t + 2, t + 3] | 3 => [t + 1, t + 2, t - 1] | 13 => [t - 1] | 14 => [t + 1]
    | _ => []
  else if t = 354 then [353]
  else if t = 417 then (List.range 28).map (420 + ·)
  else []

/-- The tasks that win over a task. -/
def winnersOver (t : Nat) : List Nat :=
  (List.range 512).filter fun w => (losersTo w).contains t

namespace Block

/-- One more coincidence of a task (R360, R361). -/
def countTask (t : Nat) (b : Block) : Block :=
  let f := b.fabric
  { b with fabric := { f with coincidences := f.coincidences.insert t (satAdd ((f.coincidences.get? t).getD 0) 1 max32) } }

/-- A catch latch is cleared. -/
def unlatch (t : Nat) (b : Block) : Block := { b with fabric := { b.fabric with latches := b.fabric.latches.erase t } }

/-- The stamp of the event that set the latch of a task, or the time now. -/
def stampOf (t : Nat) (b : Block) : Time := match b.fabric.latches.get? t with | some l => l.stamp | none => b.now

/-- Whether a catch latch is set. -/
def latched (t : Nat) (b : Block) : Bool := (b.fabric.latches.get? t).isSome

/-- A task of a head, k = 0 to 18 (R97, R124, R164, R197, R311). `e.same` says that the other of two requests of a pair, or a second
request of the same kind, reaches the head in the same cycle and wins or joins. -/
def headTask (h : HeadId) (k : Nat) (stamp : Time) (e : Env) (b : Block) : Block :=
  match k with
  | 0 => b.taskTrigger h e.meet e.merged
  | 1 => b.headStart h (.task stamp) (if e.same && e.start == .alone then .stop true else e.start) (e.banks.getD h.val 0)
  | 2 => b.headStop h
  | 3 => b.syncPulse h
  | 4 => b.ilvFreeze h e.same
  | 5 => b.ilvUnfreeze h e.same
  | 6 => b.rangeCommitTask h e.same
  | 7 => b.calStartTask h e.same
  | 8 => b.calAbortTask h e.same
  | 9 => b.corrSwapTask h e.same
  | 10 => b.stitchCalStartTask h e.same
  | 11 => b.stitchCalAbortTask h e.same
  | 12 => b.geometrySwapTask h e.same
  | 16 => b.illumBlank h e.same
  | 17 => b.illumUnblank h e.same
  | 18 => b.illumRestart h e.same
  | _ => b

/-- A task of an axis, k = 0 to 6, or of its Keystone controller, k = 12 to 15 (R258, R286). -/
def axisTask (a : AxisId) (k : Nat) (stamp : Time) (e : Env) (b : Block) : Block :=
  let via : Via := .task stamp
  let ifNone (why : List AbortCode) (f : Block → Block) : Block := if why.isEmpty then f b else b
  match k with
  | 0 => b.axisStart a (e.vm.getD a.val 0) (e.flt.testBit a.val) via (if e.same && e.start == .alone then .stop true else e.start)
  | 1 => b.axisStop a via e.start
  | 2 => b.taskOr a (b.haltViolations a) fun b => b.halt a e
  | 3 => b.taskOr a (b.haltViolations a) fun b => b.quickStop a e
  | 4 => b.taskOr a (b.moveViolations a (b.regI (Obj.axisTaskTarget a))) fun b =>
      b.moveUnless a e fun b => b.moveTo a (b.regI (Obj.axisTaskTarget a))
  | 5 => b.taskOr a (b.homeViolations a) fun b => b.moveUnless a e fun b => b.home a
  | 6 => b.clearMotion a e
  | 12 => if e.same then b.pageStartBy a e else ifNone (b.pageRefused a e) fun b => b.pageStartBy a e
  | 13 => ifNone (b.pageViolations a) fun b => b.pageEndBy a e
  | 14 => ifNone (b.pageViolations a) fun b => b.pauseBy a e
  | 15 => ifNone (b.pageViolations a) fun b => b.releaseBy a e
  | _ => b

/-- A task of the pier's other blocks (R227, R334, R353, R372, R394, R400, R433, R459, R484, R536). `mv` are the rail voltages in mV. -/
def pierTask (t : Nat) (stamp : Time) (e : Env) (mv : List Nat) (b : Block) : Block :=
  if t = 0 then b.sleepRequest .task
  else if t = 1 then b.wakeTask e.same
  else if t = 2 then b.railLatch mv
  else if t = 288 then b.excitationOff e.same
  else if t = 289 then (if e.same then b.excitationOff true else b.excitationOn)
  else if t = 290 then b.clampClearAll (BitVec.ofNat 16 (maskOf e.again))
  else if t = 292 then b.seqStart (.task stamp) (if e.same && e.start == .alone then .stop true else e.start)
  else if t = 293 then b.seqStop (.task stamp) e.start
  else if t = 294 then b.refBufferOn
  else if t = 295 then b.fifoFlush
  else if t = 352 then (if b.reg Obj.captureTriggerSource = 1 then b.burstMeet e.burst stamp else b)
  else if t = 353 then b.captureArm e.same
  else if t = 354 then b.captureDisarm
  else if t = 384 then b.spanRetrain 0 e.same
  else if t = 385 then b.spanRetrain 1 e.same
  else if t = 386 then b.timeLatch stamp
  else if t = 416 then b.dmaFenceTask
  else if t = 417 then b.dmaStopTask
  else if 420 ≤ t ∧ t < 448 then
    let c : ChanId := Fin.ofNat 32 (t - 416)
    if e.same then b.dmaBoth c else b.dmaRequest c
  else if 448 ≤ t ∧ t < 464 then b.interruptTask (Fin.ofNat 16 (t - 448))
  else if 464 ≤ t ∧ t < 472 then b.tpdoTask (Fin.ofNat 8 (t - 464)) e.same
  else if t = 472 then b.alertTask
  else if 480 ≤ t ∧ t < 512 then
    let u : TimerId := Fin.ofNat 16 ((t - 480) / 2)
    if t % 2 = 0 then b.timerA u e.same else if e.same then b.timerA u true else b.timerB u
  else b

/-- What a task does, by its number (R377); a number that no table assigns does nothing. -/
def taskDo (t : Nat) (stamp : Time) (e : Env) (mv : List Nat) (b : Block) : Block :=
  if 32 ≤ t ∧ t < 288 then b.headTask (Fin.ofNat 4 ((t - 32) / 64)) ((t - 32) % 64) stamp e
  else if 320 ≤ t ∧ t < 352 then b.axisTask (Fin.ofNat 2 ((t - 320) / 16)) ((t - 320) % 16) stamp e
  else b.pierTask t stamp e mv

/-- Whether a go or request task loses to task 417: the stop reaches its channel (R389, R400). -/
def losesNow (w l : Nat) (b : Block) : Bool := w != 417 || (b.reg Obj.dmaStopMask).testBit (l - 416)

/-- The owning block samples the latch of task t (R359): the task is performed once, with the stamp of the event that set the latch, and
the latch cleared; a task of a block that is isolated or powered down is dropped (R362). With `e.same` the set latches of the tasks
with which it is paired are sampled in the same cycle (R361): the losing one is not performed, and counted. -/
def sampled (t : Nat) (e : Env) (mv : List Nat) (b : Block) : Block :=
  let stamp := b.stampOf t
  let e := { e with merged := match b.fabric.latches.get? t with | some l => l.merged | none => false }
  let b := b.unlatch t
  if !b.taskAlive t then b
  else if !e.same then b.taskDo t stamp e mv
  else if 480 ≤ t then (b.unlatch (if t % 2 = 0 then t + 1 else t - 1)).taskDo t stamp e mv
  else
    let wins := (winnersOver t).filter fun w => b.latched w && b.losesNow w t
    let loses := (losersTo t).filter fun l => b.latched l && b.losesNow t l
    if wins ≠ [] then
      let b := ((wins.foldl (fun b w => b.unlatch w) b).countTask t).taskDo t stamp e mv
      wins.foldl (fun b w => b.taskDo w b.now { e with same := false } mv) b
    else if loses ≠ [] then
      let b := loses.foldl (fun b l => (((b.unlatch l).countTask l).taskDo l b.now e mv)) b
      b.taskDo t stamp { e with same := false } mv
    else b.taskDo t stamp e mv

/-- TASK_LATCH_SAMPLED: a latch that is not set has nothing to sample. -/
def latchSampled (t : Nat) (e : Env) (mv : List Nat) (b : Block) : Block := if b.latched t then b.sampled t e mv else b

end Block
end Sys2Proof.Machine
end

