-- ==== Sys2Proof/Machine/Commands.lean ====
section
/-! DEFINITION. What the meanings of the commands share: running an operation at the instant of a command, the dictionary write of one
object, actions that a write and a task can both ask for, the sources of the burst trigger, and what a motion fault does to a page. -/
namespace Sys2Proof.Machine

/-- A command at ring time t: its operation, then what ends every command (`Block.finish`). The queue is left to the step. -/
def run (t : Time) (f : Block → Block) (s : State) : Host.Outcome State Fault Refusal := .next { s with b := (f (s.b.at_ t)).finish }

/-- Only the coincidence of a second request surrounds the command. -/
def Env.meeting (same : Bool) : Env := { Env.quiet with same := same }

/-- What else reaches the block in the cycle of a command of a pair. -/
def Env.pair (m : PairMeet) : Env := { Env.quiet with same := m == .other, twin := m == .twin }

/-- What else reaches a function in the cycle of its start or stop. -/
def Env.starting (m : StartMeet) : Env := { Env.quiet with start := m }

/-- The number of a head's task k, and of an axis's (R377). -/
def headTaskNo (h : HeadId) (k : Nat) : Nat := 32 + 64 * h.val + k
def axisTaskNo (a : AxisId) (k : Nat) : Nat := 320 + 16 * a.val + k

namespace Block

/-- A dictionary write of one number to an object (R25, R28). -/
def writeTo (o : Obj) (v : Nat) (r : Route) (e : Env) (b : Block) : Block := b.dictWrite e r o.index o.sub (leBytes (o.ty.bits / 8) v)

/-- An action asked for by a dictionary write, or by its task when there is no route. -/
def orTask (r : Option Route) (o : Obj) (v task : Nat) (e : Env) (b : Block) : Block :=
  match r with
  | some r => b.writeTo o v r e
  | none => b.sampled task e []

/-- A command of a DMA channel through the dictionary, BAR0 or its task (R387 to R394, R401); the owner's channels have no task. -/
def channelCommand (c : ChanId) (v : Nat) (p : Port) (e : Env) (b : Block) : Block :=
  match p with
  | .write r => b.writeTo (Obj.dmaCommand c.val) v r e
  | .bar0 => b.barWrite (0x10080 + 256 * c.val) 4 v [] e
  | .task => if 4 ≤ c.val then b.sampled (416 + c.val) e [] else b

/-- A register of a delivery queue through the dictionary or BAR0 (R449): `off` is its BAR0 offset, `size` its bytes. -/
def queueWrite (q : QueueId) (o : Obj) (off size v : Nat) (r : Option Route) (e : Env) (b : Block) : Block :=
  match r with
  | some r => b.writeTo o v r e
  | none => b.barWrite (0x30000 + 64 * q.val + off) size v [] e

/-! ## Burst triggers (R214) -/

/-- An edge on HDh_TRIG1 that the head sees (R79, R97, R214): its event, and where it is that of `trigger.pin_edge` of the capture trigger
head, with source 2, a burst trigger stamped on the 488 ps grid. -/
def burstPin (h : HeadId) (falling : Bool) (width : Nat) (m : BurstMeet) (b : Block) : Block :=
  if !b.pinSeen h width then b
  else
    let b := b.raise (headSource h 14)
    if b.reg Obj.captureTriggerSource = 2 ∧ b.reg Obj.captureTriggerHead = h.val ∧ b.isSet (Obj.headTriggerPinEdge h) = falling then
      b.burstMeet m (onGrid b.now)
    else b

/-- `capture.trigger.at` becomes due (R214). -/
def burstDue (m : BurstMeet) (b : Block) : Block :=
  let at_ : Time := BitVec.ofNat 64 (b.reg Obj.captureTriggerAt)
  if b.reg Obj.captureTriggerSource = 3 && due at_ b.now then b.burstMeet m at_ else b

/-- A burst trigger that another pier broadcast (R214). -/
def burstReceived (bTime : Time) (m : BurstMeet) (b : Block) : Block :=
  if b.reg Obj.captureTriggerSource = 4 then b.burstMeet m bTime else b

/-! ## Axes -/

/-- An event of an axis; a motion fault that it brings into force is an axis stop for the page (R251, R280), and one that makes the axis valid
again may let it go on (R239). -/
def axisEvent (a : AxisId) (f : Block → Block) (b : Block) : Block :=
  let c := f b
  if c.axes[a].faults.any fun n => !b.axes[a].faults.contains n then c.keyFault a else c.keyRecover a

/-- One update of the profile generator; a stop at a virtual limit is an axis stop for the page (R251, R271). -/
def profileUpdate (a : AxisId) (b : Block) : Block :=
  let (hit, b) := b.profileStep a
  if hit then b.keyFault a else b

/-! ## The auxiliary FIFO -/

/-- A read of the oldest word of the FIFO through the dictionary (R352); a request that comes while it is not served is lost (R595). -/
def fifoRequest (r : Route) (b : Block) : Block := if b.served then b.dictRead r 0x4048 3 else b

/-! ## Management buses and the test access port -/

/-- An NMT command for node 0 (every node) or this node, while the controller takes part in the bus (R462). -/
def nmtAt (node : Nat) (f : Block → Block) (b : Block) : Block := if b.canOn && (node == 0 || node == b.can.nodeId) then f b else b

/-- A download segment; on CAN FD its first request opens a session (R30, R465). -/
def tableSegment (r : Route) (index : Nat) (start : Bool) (size : Option Nat) (bytes : List Byte) (last crcOk : Bool)
    (fault : Option AbortCode) (late : Bool) (b : Block) : Block :=
  let go (b : Block) : Block := b.downloadSegment r index start size bytes last crcOk fault late
  match r with
  | .can c => if start then b.usdoSession c go else if b.usdoServes then go b else b
  | _ => go b

/-- An instruction of the test access port, and the scan of the register that it selects when one follows: what the cells capture and
what is shifted in (R568 to R574). -/
def tapCommand (i : TapInstr) (scan : Option (BitVec 360 × BitVec 360)) (b : Block) : Block :=
  let b := b.tapInstr i
  match scan with
  | some (pins, update) => b.tapScan pins update
  | none => b

/-- A wake source by its bit of `power.wake_cause` (R534): the balls, POWER_REQUEST over SMBus, task 1. -/
def wakeBy (bitNo : Fin 6) (e : Env) (b : Block) : Block :=
  if h : bitNo.val < 4 then b.wakeSource ⟨bitNo.val, h⟩
  else if bitNo.val = 4 then b.wakeRequest 4
  else b.sampled 1 e []

end Block
end Sys2Proof.Machine
end

