-- ==== Sys2Proof/Machine/AuxiliaryRows.lean ====
section
/-! DEFINITION. Meanings of the commands: the auxiliary front end, converters and sequencer (R315 to R353). -/
namespace Sys2Proof.Machine

/-- EXCITATION_OFF (R315). -/
def execExcitationOff (t : Time) (same : Bool) (s : State) : Host.Outcome State Fault Refusal :=
  run t (fun b => b.sampled 288 (Env.meeting same) []) s

/-- EXCITATION_ON (R315). -/
def execExcitationOn (t : Time) (same : Bool) (s : State) : Host.Outcome State Fault Refusal :=
  run t (fun b => b.sampled 289 (Env.meeting same) []) s

/-- EXCITATION_OVERLOAD (R316). -/
def execExcitationOverload (t : Time) (n : AuxId) (s : State) : Host.Outcome State Fault Refusal :=
  run t (fun b => b.overload n) s

/-- EXCITATION_OVERLOAD_CLEAR (R316). -/
def execExcitationOverloadClear (t : Time) (n : AuxId) (s : State) : Host.Outcome State Fault Refusal :=
  run t (fun b => b.overloadClear n) s

/-- CLAMP_ENGAGE (R321). -/
def execClampEngage (t : Time) (n : AuxId) (high : Bool) (s : State) : Host.Outcome State Fault Refusal :=
  run t (fun b => b.clampEngage n high) s

/-- CLAMP_RELEASE (R321). -/
def execClampRelease (t : Time) (n : AuxId) (s : State) : Host.Outcome State Fault Refusal :=
  run t (fun b => b.clampRelease n) s

/-- CLAMP_RECOVERY_END (R349). -/
def execClampRecoveryEnd (t : Time) (n : AuxId) (s : State) : Host.Outcome State Fault Refusal :=
  run t (fun b => b.clampRecovered n) s

/-- CLAMP_CLEAR (R322). -/
def execClampClear (t : Time) (r : Option Route) (n : AuxId) (engaging : List Nat) (s : State) : Host.Outcome State Fault Refusal :=
  run t (fun b =>
    b.orTask r (Obj.auxClampFlag n.val) 0 290
    { Env.quiet with same := engaging.contains n.val, again := engaging }) s

/-- WIRE_BREAK_TRIP (R324). -/
def execWireBreakTrip (t : Time) (lead : Lead) (s : State) : Host.Outcome State Fault Refusal :=
  run t (fun b => b.wireBreak lead.channel lead.sense) s

/-- WIRE_BREAK_CLEAR (R324). -/
def execWireBreakClear (t : Time) (n : AuxId) (s : State) : Host.Outcome State Fault Refusal :=
  run t (fun b => b.wireWhole n) s

/-- ECHO_PERIOD (R331). -/
def execEchoPeriod (t : Time) (o : EchoId) (s : State) : Host.Outcome State Fault Refusal :=
  run t (fun b => b.echoPeriod o) s

/-- SEQ_START (R346). -/
def execSeqStart (t : Time) (r : Option Route) (meet : StartMeet) (s : State) : Host.Outcome State Fault Refusal :=
  run t (fun b => b.orTask r Obj.auxCommand 1 292 (Env.starting meet)) s

/-- SEQ_STOP (R346). -/
def execSeqStop (t : Time) (r : Option Route) (meet : StartMeet) (s : State) : Host.Outcome State Fault Refusal :=
  run t (fun b => b.orTask r Obj.auxCommand 2 293 (Env.starting meet)) s

/-- SEQ_STOP_COMPLETE (R346). -/
def execSeqStopComplete (t : Time) (s : State) : Host.Outcome State Fault Refusal :=
  run t (fun b => b.seqStopped) s

/-- REF_BUFFER_ON (R346). -/
def execRefBufferOn (t : Time) (s : State) : Host.Outcome State Fault Refusal :=
  run t (fun b => b.sampled 294 Env.quiet []) s

/-- REF_BUFFER_READY (R346). -/
def execRefBufferReady (t : Time) (s : State) : Host.Outcome State Fault Refusal :=
  run t (fun b => b.refBufferReady) s

/-- PASS_START (R344). -/
def execPassStart (t : Time) (lane : Fin 2) (s : State) : Host.Outcome State Fault Refusal :=
  run t (fun b => b.passStart lane) s

/-- ENTRY_EXECUTION (R342). -/
def execEntryExecution (t : Time) (lane : Fin 2) (s : State) : Host.Outcome State Fault Refusal :=
  run t (fun b => b.execution lane) s

/-- CONVERSION_COMPLETE (R337). -/
def execConversionComplete (t : Time) (sar : Fin 2) (code : BitVec 16) (s : State) : Host.Outcome State Fault Refusal :=
  run t (fun b => b.conversion sar code) s

/-- CHOP_REVERSAL (R343). -/
def execChopReversal (t : Time) (s : State) : Host.Outcome State Fault Refusal :=
  run t (fun b => b.chopReversal) s

/-- CONTINUOUS_TEST_PULSE (R339). -/
def execContinuousTestPulse (t : Time) (moved : Bool) (s : State) : Host.Outcome State Fault Refusal :=
  run t (fun b => b.testPulse moved) s

/-- FILTER_WINDOW_BOUNDARY (R347). -/
def execFilterWindowBoundary (t : Time) (n : AuxId) (s : State) : Host.Outcome State Fault Refusal :=
  run t (fun b => b.windowBoundary n) s

/-- FIFO_READ (R352). -/
def execFifoRead (t : Time) (r : Route) (s : State) : Host.Outcome State Fault Refusal :=
  run t (fun b => b.fifoRequest r) s

/-- FIFO_BAR0_READ (R446). -/
def execFifoBar0Read (t : Time) (s : State) : Host.Outcome State Fault Refusal :=
  run t (fun b => b.fifoBarRead) s

/-- FIFO_FLUSH (R352). -/
def execFifoFlush (t : Time) (r : Option Route) (s : State) : Host.Outcome State Fault Refusal :=
  run t (fun b => b.orTask r Obj.auxFifoFlush 1 295 Env.quiet) s

end Sys2Proof.Machine
end

