-- ==== Sys2Proof/Machine/CanRows.lean ====
section
/-! DEFINITION. Meanings of the commands: CAN FD (R462 to R471, R485). -/
namespace Sys2Proof.Machine

/-- NMT_START_REMOTE_NODE (R462). -/
def execNmtStartRemoteNode (t : Time) (node : Fin 128) (s : State) : Host.Outcome State Fault Refusal :=
  run t (fun b => b.nmtAt node.val fun b => b.nmtTo .operational) s

/-- NMT_STOP_REMOTE_NODE (R462). -/
def execNmtStopRemoteNode (t : Time) (node : Fin 128) (s : State) : Host.Outcome State Fault Refusal :=
  run t (fun b => b.nmtAt node.val fun b => b.nmtTo .stopped) s

/-- NMT_ENTER_PRE_OPERATIONAL (R462). -/
def execNmtEnterPreOperational (t : Time) (node : Fin 128) (s : State) : Host.Outcome State Fault Refusal :=
  run t (fun b => b.nmtAt node.val fun b => b.nmtTo .preOperational) s

/-- NMT_RESET_COMMUNICATION (R462). -/
def execNmtResetCommunication (t : Time) (node : Fin 128) (s : State) : Host.Outcome State Fault Refusal :=
  run t (fun b => b.nmtAt node.val fun b => b.resetComm) s

/-- NMT_RESET_NODE (R462). -/
def execNmtResetNode (t : Time) (node : Fin 128) (s : State) : Host.Outcome State Fault Refusal :=
  run t (fun b => b.nmtAt node.val fun b => if b.isSet Obj.canNmtReset then b.restartCores 2 else b.resetComm) s

/-- USDO_REQUEST (R465). -/
def execUsdoRequest (t : Time) (client : Fin 128) (index : BitVec 16) (sub : BitVec 8) (body : UsdoBody)
    (e : Env) (s : State) : Host.Outcome State Fault Refusal :=
  run t (fun b => b.usdoRequest client index.toNat sub.toNat body.write body.part e) s

/-- CAN_SYNC_RECEIVED (R467). -/
def execCanSyncReceived (t : Time) (s : State) : Host.Outcome State Fault Refusal :=
  run t (fun b => b.canSync) s

/-- TPDO_TASK (R467). -/
def execTpdoTask (t : Time) (n : Fin 8) (withSync : Bool) (s : State) : Host.Outcome State Fault Refusal :=
  run t (fun b => b.sampled (464 + n.val) (Env.meeting withSync) []) s

/-- TPDO_CHANGE_CHECK (R467). -/
def execTpdoChangeCheck (t : Time) (s : State) : Host.Outcome State Fault Refusal :=
  run t (fun b => b.tpdoCheck) s

/-- TPDO_EVENT_TIMER (R467). -/
def execTpdoEventTimer (t : Time) (n : Fin 8) (s : State) : Host.Outcome State Fault Refusal :=
  run t (fun b => b.tpdoTimer n) s

/-- RPDO_RECEIVED (R468). -/
def execRpdoReceived (t : Time) (n : Fin 8) (data : List Byte) (e : Env) (s : State) : Host.Outcome State Fault Refusal :=
  run t (fun b => b.rpdoReceived n data e) s

/-- EMCY_INHIBIT_EXPIRY (R470). -/
def execEmcyInhibitExpiry (t : Time) (s : State) : Host.Outcome State Fault Refusal :=
  run t (fun b => b.emcyInhibitEnd) s

/-- CAN_ERROR_PASSIVE (R469). -/
def execCanErrorPassive (t : Time) (tec : BitVec 8) (rec_ : BitVec 8) (s : State) : Host.Outcome State Fault Refusal :=
  run t (fun b => b.errorPassive tec.toNat rec_.toNat) s

/-- CAN_BUS_OFF (R471). -/
def execCanBusOff (t : Time) (s : State) : Host.Outcome State Fault Refusal :=
  run t (fun b => b.busOff) s

/-- BUS_OFF_RECOVERY (R471). -/
def execBusOffRecovery (t : Time) (s : State) : Host.Outcome State Fault Refusal :=
  run t (fun b => b.busRecover) s

/-- HEARTBEAT_TIMER (R485). -/
def execHeartbeatTimer (t : Time) (s : State) : Host.Outcome State Fault Refusal :=
  run t (fun b => b.heartbeat) s

end Sys2Proof.Machine
end

