-- ==== Sys2Proof/Machine/CaptureRows.lean ====
section
/-! DEFINITION. Meanings of the commands: the capture buffer (R213 to R228). -/
namespace Sys2Proof.Machine

/-- CAPTURE_TRIGGER_FIRE (R214). -/
def execCaptureTriggerFire (t : Time) (r : Route) (meet : BurstMeet) (s : State) : Host.Outcome State Fault Refusal :=
  run t (fun b => b.writeTo Obj.captureTriggerFire 1 r { Env.quiet with burst := meet }) s

/-- BURST_TRIGGER_TASK (R214). -/
def execBurstTriggerTask (t : Time) (meet : BurstMeet) (s : State) : Host.Outcome State Fault Refusal :=
  run t (fun b => b.sampled 352 { Env.quiet with burst := meet } []) s

/-- BURST_TRIGGER_PIN (R214). -/
def execBurstTriggerPin (t : Time) (edge : PinEdge) (meet : BurstMeet) (s : State) : Host.Outcome State Fault Refusal :=
  run t (fun b => b.burstPin edge.head edge.falling edge.width meet) s

/-- CAPTURE_TRIGGER_DUE (R214). -/
def execCaptureTriggerDue (t : Time) (meet : BurstMeet) (s : State) : Host.Outcome State Fault Refusal :=
  run t (fun b => b.burstDue meet) s

/-- BURST_BROADCAST_RECEIVED (R214). -/
def execBurstBroadcastReceived (t : Time) (burst : Time) (meet : BurstMeet) (s : State) : Host.Outcome State Fault Refusal :=
  run t (fun b => b.burstReceived burst meet) s

/-- CAPTURE_ARM (R216). -/
def execCaptureArm (t : Time) (r : Option Route) (same : Bool) (s : State) : Host.Outcome State Fault Refusal :=
  run t (fun b => b.orTask r Obj.captureArm 1 353 (Env.meeting same)) s

/-- CAPTURE_DISARM (R216). -/
def execCaptureDisarm (t : Time) (r : Option Route) (same : Bool) (s : State) : Host.Outcome State Fault Refusal :=
  run t (fun b => b.orTask r Obj.captureArm 0 354 (Env.meeting same)) s

/-- CAPTURE_DISCARD (R228). -/
def execCaptureDiscard (t : Time) (r : Route) (h : HeadId) (s : State) : Host.Outcome State Fault Refusal :=
  run t (fun b => b.writeTo (Obj.captureDiscard h.val) 1 r Env.quiet) s

/-- RING_RECORD_ARRIVES (R222). -/
def execRingRecordArrives (t : Time) (span : SpanId) (pier : PierId) (slot : List Byte) (s : State) : Host.Outcome State Fault Refusal :=
  run t (fun b => b.ringRecord span.val pier.val slot) s

end Sys2Proof.Machine
end

