-- ==== Sys2Proof/Machine/CorrectionRows.lean ====
section
/-! DEFINITION. Meanings of the commands: correction, calibration and stitching of a head (R134 to R195). -/
namespace Sys2Proof.Machine

/-- TEMP_HOLD_EXPIRY (R134). -/
def execTempHoldExpiry (t : Time) (h : HeadId) (s : State) : Host.Outcome State Fault Refusal :=
  run t (fun b => b.tempExpire h) s

/-- SHADOW_READY_WRITE (R147). -/
def execShadowReadyWrite (t : Time) (r : Route) (h : HeadId) (set : BitVec 16) (s : State) : Host.Outcome State Fault Refusal :=
  run t (fun b => b.writeTo (Obj.headCorrShadowReady h) set.toNat r Env.quiet) s

/-- CORR_SWAP (R150). -/
def execCorrSwap (t : Time) (r : Option Route) (h : HeadId) (set : BitVec 16) (same : Bool)
    (s : State) : Host.Outcome State Fault Refusal :=
  run t (fun b => b.orTask r (Obj.headCorrSwap h) set.toNat (headTaskNo h 9) (Env.meeting same)) s

/-- CORR_PREPARE (R153). -/
def execCorrPrepare (t : Time) (r : Route) (h : HeadId) (set : BitVec 16) (s : State) : Host.Outcome State Fault Refusal :=
  run t (fun b => b.writeTo (Obj.headCorrPrepare h) set.toNat r Env.quiet) s

/-- PREPARE_COMPLETE (R153). -/
def execPrepareComplete (t : Time) (h : HeadId) (s : State) : Host.Outcome State Fault Refusal :=
  run t (fun b => b.prepareComplete h) s

/-- CAL_START (R154). -/
def execCalStart (t : Time) (r : Option Route) (h : HeadId) (same : Bool) (s : State) : Host.Outcome State Fault Refusal :=
  run t (fun b => b.orTask r (Obj.headCalCommand h) 1 (headTaskNo h 7) (Env.meeting same)) s

/-- CAL_ABORT (R154). -/
def execCalAbort (t : Time) (r : Option Route) (h : HeadId) (same : Bool) (s : State) : Host.Outcome State Fault Refusal :=
  run t (fun b => b.orTask r (Obj.headCalCommand h) 2 (headTaskNo h 8) (Env.meeting same)) s

/-- CAL_PHASE_END (R155). -/
def execCalPhaseEnd (t : Time) (h : HeadId) (s : State) : Host.Outcome State Fault Refusal :=
  run t (fun b => b.calPhaseEnd h) s

/-- CAL_DERIVE_COMPLETE (R163). -/
def execCalDeriveComplete (t : Time) (h : HeadId) (same : Bool) (s : State) : Host.Outcome State Fault Refusal :=
  run t (fun b => b.calDone h same) s

/-- STITCH_SHADOW_READY (R173). -/
def execStitchShadowReady (t : Time) (r : Route) (h : HeadId) (set : BitVec 16) (s : State) : Host.Outcome State Fault Refusal :=
  run t (fun b => b.writeTo (Obj.headStitchShadowReady h) set.toNat r Env.quiet) s

/-- STITCH_SWAP (R185). -/
def execStitchSwap (t : Time) (r : Option Route) (h : HeadId) (set : BitVec 16) (same : Bool)
    (s : State) : Host.Outcome State Fault Refusal :=
  run t (fun b => b.orTask r (Obj.headStitchSwap h) set.toNat (headTaskNo h 12) (Env.meeting same)) s

/-- STITCH_CAL_START (R189). -/
def execStitchCalStart (t : Time) (r : Option Route) (h : HeadId) (same : Bool) (s : State) : Host.Outcome State Fault Refusal :=
  run t (fun b => b.orTask r (Obj.headStitchCalCommand h) 1 (headTaskNo h 10) (Env.meeting same)) s

/-- STITCH_CAL_ABORT (R189). -/
def execStitchCalAbort (t : Time) (r : Option Route) (h : HeadId) (same : Bool) (s : State) : Host.Outcome State Fault Refusal :=
  run t (fun b => b.orTask r (Obj.headStitchCalCommand h) 2 (headTaskNo h 11) (Env.meeting same)) s

/-- STITCH_CAL_PHASE_END (R190). -/
def execStitchCalPhaseEnd (t : Time) (h : HeadId) (s : State) : Host.Outcome State Fault Refusal :=
  run t (fun b => b.stitchCalPhaseEnd h) s

/-- STITCH_DERIVE_COMPLETE (R195). -/
def execStitchDeriveComplete (t : Time) (h : HeadId) (same : Bool) (s : State) : Host.Outcome State Fault Refusal :=
  run t (fun b => b.stitchCalDone h same) s

end Sys2Proof.Machine
end

