-- ==== Sys2Proof/Machine/CustodyRows.lean ====
section
/-! DEFINITION. Meanings of the commands: custody, firmware and attestation (R487 to R515). -/
namespace Sys2Proof.Machine

/-- CUSTODY_ENROL (R489). -/
def execCustodyEnrol (t : Time) (r : Route) (board : Bool) (record : List Byte) (s : State) : Host.Outcome State Fault Refusal :=
  run t (fun b => b.dictWriteAt Env.quiet r (if board then 0x2118 else 0x2110) 3 0 record) s

/-- CUSTODY_PROPOSE (R493). -/
def execCustodyPropose (t : Time) (r : Route) (board : Bool) (offset : BitVec 16) (data : List Byte) (othersRun : Bool)
    (s : State) : Host.Outcome State Fault Refusal :=
  run t (fun b => b.dictWriteAt { Env.quiet with othersRun := othersRun } r (if board then 0x2118 else 0x2110) 1 offset.toNat data) s

/-- PROPOSAL_INCOMPLETE_TIMEOUT (R492). -/
def execProposalIncompleteTimeout (t : Time) (board : Bool) (s : State) : Host.Outcome State Fault Refusal :=
  run t (fun b => b.draftTimeout board) s

/-- CUSTODY_VERDICT (R495). -/
def execCustodyVerdict (t : Time) (r : Route) (board : Bool) (record : List Byte) (withExpiry : Bool) (othersRun : Bool)
    (s : State) : Host.Outcome State Fault Refusal :=
  run t (fun b => b.dictWriteAt { Env.quiet with same := withExpiry, othersRun := othersRun } r (if board then 0x2118 else 0x2110) 2 0 record) s

/-- PROPOSAL_WINDOW_EXPIRY (R496). -/
def execProposalWindowExpiry (t : Time) (s : State) : Host.Outcome State Fault Refusal :=
  run t (fun b => b.windowExpire) s

/-- COMMIT_COMPLETE (R497). -/
def execCommitComplete (t : Time) (s : State) : Host.Outcome State Fault Refusal :=
  run t (fun b => b.commitComplete) s

/-- RECOVERY_DELAY_EXPIRY (R501). -/
def execRecoveryDelayExpiry (t : Time) (withDecline : Bool) (s : State) : Host.Outcome State Fault Refusal :=
  run t (fun b => b.recoveryDue withDecline) s

/-- RECOVERY_PROGRESS_SAVE (R502). -/
def execRecoveryProgressSave (t : Time) (s : State) : Host.Outcome State Fault Refusal :=
  run t (fun b => b.recoverySave) s

/-- RECOVERY_REMINDER (R502). -/
def execRecoveryReminder (t : Time) (s : State) : Host.Outcome State Fault Refusal :=
  run t (fun b => b.recoveryRemind) s

/-- STAGE_CHECK_COMPLETE (R506). -/
def execStageCheckComplete (t : Time) (s : State) : Host.Outcome State Fault Refusal :=
  run t (fun b => b.stageChecked) s

/-- FW_WRITE_SLOT (R506). -/
def execFwWriteSlot (t : Time) (r : Route) (s : State) : Host.Outcome State Fault Refusal :=
  run t (fun b => b.writeTo Obj.fwCommand 1 r Env.quiet) s

/-- SLOT_WRITE_COMPLETE (R505). -/
def execSlotWriteComplete (t : Time) (verified : Bool) (s : State) : Host.Outcome State Fault Refusal :=
  run t (fun b => b.slotWritten verified) s

/-- FW_ACTIVATE (R507). -/
def execFwActivate (t : Time) (r : Route) (othersRun : Bool) (s : State) : Host.Outcome State Fault Refusal :=
  run t (fun b => b.writeTo Obj.fwCommand 2 r { Env.quiet with othersRun := othersRun }) s

/-- FW_CONFIRM (R507). -/
def execFwConfirm (t : Time) (r : Route) (withExpiry : Bool) (s : State) : Host.Outcome State Fault Refusal :=
  run t (fun b => b.writeTo Obj.fwCommand 3 r (Env.meeting withExpiry)) s

/-- TRIAL_EXPIRY (R507). -/
def execTrialExpiry (t : Time) (s : State) : Host.Outcome State Fault Refusal :=
  run t (fun b => b.trialExpire) s

/-- ATTEST_NONCE (R511). -/
def execAttestNonce (t : Time) (r : Route) (nonce : List Byte) (s : State) : Host.Outcome State Fault Refusal :=
  run t (fun b => b.dictWriteAt Env.quiet r 0x2160 0 0 nonce) s

end Sys2Proof.Machine
end

