-- ==== Sys2Proof/Machine/DictionaryRows.lean ====
section
/-! DEFINITION. Meanings of the commands: writes of the dictionary and BAR0, saves, table downloads, features (R25 to R59). -/
namespace Sys2Proof.Machine

/-- DICTIONARY_WRITE (R3). -/
def execDictionaryWrite (t : Time) (r : Route) (index : BitVec 16) (sub : BitVec 8) (data : List Byte) (e : Env)
    (s : State) : Host.Outcome State Fault Refusal :=
  run t (fun b => b.dictWrite e r index.toNat sub.toNat data) s

/-- BAR0_WRITE (R29). -/
def execBar0Write (t : Time) (off : BitVec 20) (size : Nat) (v : BitVec 64) (table : List Byte) (e : Env)
    (s : State) : Host.Outcome State Fault Refusal :=
  run t (fun b => b.barWrite off.toNat size v.toNat table e) s

/-- BAR0_UNSUPPORTED_ACCESS (R443). -/
def execBar0UnsupportedAccess (t : Time) (access : BarAccess) (s : State) : Host.Outcome State Fault Refusal :=
  run t (fun b => b.barAccess access.off.toNat access.size access.write) s

/-- LEVEL_WRITE (R45). -/
def execLevelWrite (t : Time) (r : Route) (index : BitVec 16) (level : BitVec 8) (e : Env) (s : State) : Host.Outcome State Fault Refusal :=
  run t (fun b => b.dictWrite e r index.toNat 1 [level]) s

/-- SAVE (R33). -/
def execSave (t : Time) (r : Route) (group : Fin 4) (signature : BitVec 32) (s : State) : Host.Outcome State Fault Refusal :=
  run t (fun b => b.writeTo (Obj.commSave group.val) signature.toNat r Env.quiet) s

/-- SAVE_COMPLETE (R34). -/
def execSaveComplete (t : Time) (s : State) : Host.Outcome State Fault Refusal :=
  run t (fun b => b.saveComplete) s

/-- RESTORE (R36). -/
def execRestore (t : Time) (r : Route) (group : Fin 4) (signature : BitVec 32) (s : State) : Host.Outcome State Fault Refusal :=
  run t (fun b => b.writeTo (Obj.commRestore group.val) signature.toNat r Env.quiet) s

/-- TABLE_DOWNLOAD_SEGMENT (R30). -/
def execTableDownloadSegment (t : Time) (r : Route) (index : BitVec 16) (start : Bool) (size : Option Nat) (bytes : List Byte)
    (last : Bool) (crcOk : Bool) (fault : Option AbortCode) (late : Bool) (s : State) : Host.Outcome State Fault Refusal :=
  run t (fun b => b.tableSegment r index.toNat start size bytes last crcOk fault late) s

/-- TRANSFER_TIMEOUT (R31). -/
def execTransferTimeout (t : Time) (r : Route) (index : BitVec 16) (s : State) : Host.Outcome State Fault Refusal :=
  run t (fun b => b.transferTimeout r index.toNat) s

/-- FEATURES_CONFIRM (R49). -/
def execFeaturesConfirm (t : Time) (r : Route) (othersConfirm : Bool) (s : State) : Host.Outcome State Fault Refusal :=
  run t (fun b => b.writeTo Obj.deviceFeaturesControl 1 r { Env.quiet with othersAgree := othersConfirm }) s

/-- FEATURES_BASE (R50). -/
def execFeaturesBase (t : Time) (r : Route) (othersConfirm : Bool) (s : State) : Host.Outcome State Fault Refusal :=
  run t (fun b => b.writeTo Obj.deviceFeaturesControl 2 r { Env.quiet with othersAgree := othersConfirm }) s

end Sys2Proof.Machine
end

