-- ==== Sys2Proof/Machine/DmaRows.lean ====
section
/-! DEFINITION. Meanings of the commands: the DMA engine and memory repair (R381 to R403, R587). -/
namespace Sys2Proof.Machine

/-- DMA_SHADOW_LOAD (R387). -/
def execDmaShadowLoad (t : Time) (r : Option Route) (c : ChanId) (ctrl : BitVec 32) (s : State) : Host.Outcome State Fault Refusal :=
  run t (fun b =>
    match r with
    | some r => b.writeTo (Obj.dmaShadowCtrl c.val) ctrl.toNat r Env.quiet
    | none => b.barWrite (0x10068 + 256 * c.val) 4 ctrl.toNat [] Env.quiet) s

/-- DMA_GO (R388). -/
def execDmaGo (t : Time) (p : Port) (c : ChanId) (same : Bool) (s : State) : Host.Outcome State Fault Refusal :=
  run t (fun b => b.channelCommand c 1 p (Env.meeting same)) s

/-- DMA_STOP (R389). -/
def execDmaStop (t : Time) (r : Option Route) (c : ChanId) (same : Bool) (s : State) : Host.Outcome State Fault Refusal :=
  run t (fun b => b.channelCommand c 2 (match r with | some r => .write r | none => .bar0) (Env.meeting same)) s

/-- DMA_FENCE (R398). -/
def execDmaFence (t : Time) (r : Option Route) (c : ChanId) (s : State) : Host.Outcome State Fault Refusal :=
  run t (fun b => b.channelCommand c 3 (match r with | some r => .write r | none => .bar0) Env.quiet) s

/-- DMA_EMPTY_SHADOW (R387). -/
def execDmaEmptyShadow (t : Time) (r : Option Route) (c : ChanId) (s : State) : Host.Outcome State Fault Refusal :=
  run t (fun b => b.channelCommand c 4 (match r with | some r => .write r | none => .bar0) Env.quiet) s

/-- DMA_ABANDON_SLOT (R396). -/
def execDmaAbandonSlot (t : Time) (c : ChanId) (s : State) : Host.Outcome State Fault Refusal :=
  run t (fun b => b.abandonSlot c) s

/-- DMA_REQUEST (R394). -/
def execDmaRequest (t : Time) (c : ChanId) (same : Bool) (s : State) : Host.Outcome State Fault Refusal :=
  run t (fun b => if 4 ≤ c.val then b.sampled (416 + c.val) (Env.meeting same) [] else b) s

/-- DMA_FENCE_TASK (R398). -/
def execDmaFenceTask (t : Time) (s : State) : Host.Outcome State Fault Refusal :=
  run t (fun b => b.sampled 416 Env.quiet []) s

/-- DMA_STOP_TASK (R400). -/
def execDmaStopTask (t : Time) (same : Bool) (s : State) : Host.Outcome State Fault Refusal :=
  run t (fun b => b.sampled 417 (Env.meeting same) []) s

/-- DMA_BEAT (R393). -/
def execDmaBeat (t : Time) (blocked : BitVec 32) (fill0 : Nat) (fill1 : Nat) (data : List Byte)
    (s : State) : Host.Outcome State Fault Refusal :=
  run t (fun b => b.dmaBeat blocked fill0 fill1 data) s

/-- DMA_LINK_FETCH_DONE (R388). -/
def execDmaLinkFetchDone (t : Time) (c : ChanId) (s : State) : Host.Outcome State Fault Refusal :=
  run t (fun b => b.linkFetched c) s

/-- DMA_BUS_ERROR (R399). -/
def execDmaBusError (t : Time) (c : ChanId) (kind : Nat) (address : BitVec 64) (withStop : Bool) (row : Option
    (MemRow × Option Nat)) (s : State) : Host.Outcome State Fault Refusal :=
  run t (fun b =>
    let b := b.dmaError c kind address.toNat withStop
    match row with
    | some (x, block) => if kind = 3 then b.rowCandidate x block else b
    | none => b) s

/-- DMA_RING_ACK_TIMEOUT (R385). -/
def execDmaRingAckTimeout (t : Time) (c : ChanId) (address : BitVec 64) (withStop : Bool) (s : State) : Host.Outcome State Fault Refusal :=
  run t (fun b => b.dmaError c 4 address.toNat withStop) s

/-- FENCE_PROVEN (R398). -/
def execFenceProven (t : Time) (c : ChanId) (s : State) : Host.Outcome State Fault Refusal :=
  run t (fun b => b.fenceProven c) s

/-- SOFT_REPAIR (R587). -/
def execSoftRepair (t : Time) (row : MemRow) (block : Option Nat) (s : State) : Host.Outcome State Fault Refusal :=
  run t (fun b => b.softRepair row block) s

end Sys2Proof.Machine
end

