-- ==== Sys2Proof/Machine/FabricRows.lean ====
section
/-! DEFINITION. Meanings of the commands: the event fabric and its units (R359 to R375). -/
namespace Sys2Proof.Machine

/-- TASK_SELECT_WRITE (R367). -/
def execTaskSelectWrite (t : Time) (r : Route) (task : TaskId) (source : BitVec 16) (s : State) : Host.Outcome State Fault Refusal :=
  run t (fun b => b.writeTo (Obj.fabricTaskSelect task.val) source.toNat r Env.quiet) s

/-- TASK_LATCH_SAMPLED (R359). -/
def execTaskLatchSampled (t : Time) (task : TaskId) (railMv : List Nat) (e : Env) (s : State) : Host.Outcome State Fault Refusal :=
  run t (fun b => b.latchSampled task.val e railMv) s

/-- RELAY_INPUT (R366). -/
def execRelayInput (t : Time) (relay : Fin 8) (in0 : Bool) (in1 : Bool) (s : State) : Host.Outcome State Fault Refusal :=
  run t (fun b => if in0 || in1 then b.relayInput relay.val in0 in1 else b) s

/-- STORM_WINDOW_CLOSE (R368). -/
def execStormWindowClose (t : Time) (source : SourceId) (s : State) : Host.Outcome State Fault Refusal :=
  run t (fun b => b.stormClose source.val) s

/-- STORM_REARM (R369). -/
def execStormRearm (t : Time) (r : Route) (source : BitVec 16) (s : State) : Host.Outcome State Fault Refusal :=
  run t (fun b => b.writeTo Obj.fabricStormRearm source.toNat r Env.quiet) s

/-- FABRIC_FIRE (R371). -/
def execFabricFire (t : Time) (r : Route) (source : BitVec 16) (s : State) : Host.Outcome State Fault Refusal :=
  run t (fun b => b.writeTo Obj.fabricFire source.toNat r Env.quiet) s

/-- TIMER_A_TASK (R372). -/
def execTimerATask (t : Time) (unit : TimerId) (withB : Bool) (s : State) : Host.Outcome State Fault Refusal :=
  run t (fun b => b.sampled (480 + 2 * unit.val) (Env.meeting withB) []) s

/-- TIMER_B_TASK (R372). -/
def execTimerBTask (t : Time) (unit : TimerId) (withA : Bool) (s : State) : Host.Outcome State Fault Refusal :=
  run t (fun b => b.sampled (481 + 2 * unit.val) (Env.meeting withA) []) s

/-- TIMER_PERIOD_END (R373). -/
def execTimerPeriodEnd (t : Time) (unit : TimerId) (withB : Bool) (s : State) : Host.Outcome State Fault Refusal :=
  run t (fun b => b.timerEnd unit [1, 2] withB) s

/-- ALARM_DUE (R372). -/
def execAlarmDue (t : Time) (unit : TimerId) (withB : Bool) (s : State) : Host.Outcome State Fault Refusal :=
  run t (fun b => b.timerEnd unit [4] withB) s

end Sys2Proof.Machine
end

