-- ==== Sys2Proof/Machine/HeadRows.lean ====
section
/-! DEFINITION. Meanings of the commands: head start and stop, triggers, lines, video (R64 to R120). -/
namespace Sys2Proof.Machine

/-- HEAD_START (R95). -/
def execHeadStart (t : Time) (r : Option Route) (h : HeadId) (meet : StartMeet) (bankMv : BitVec 16)
    (s : State) : Host.Outcome State Fault Refusal :=
  run t (fun b =>
    b.orTask r (Obj.headPatternCommand h) 1 (headTaskNo h 1)
    { Env.quiet with start := meet, banks := List.replicate 4 bankMv.toNat }) s

/-- HEAD_PLL_LOCKED (R95). -/
def execHeadPllLocked (t : Time) (h : HeadId) (shorts : BitVec 20) (chain : Nat) (s : State) : Host.Outcome State Fault Refusal :=
  run t (fun b => b.headLocked h shorts chain) s

/-- HEAD_LOCK_TIMEOUT (R95). -/
def execHeadLockTimeout (t : Time) (h : HeadId) (s : State) : Host.Outcome State Fault Refusal :=
  run t (fun b => b.lockTimeout h) s

/-- HEAD_STOP (R96). -/
def execHeadStop (t : Time) (r : Option Route) (h : HeadId) (same : Bool) (s : State) : Host.Outcome State Fault Refusal :=
  run t (fun b => b.orTask r (Obj.headPatternCommand h) 2 (headTaskNo h 2) (Env.meeting same)) s

/-- HEAD_LOCK_LOST (R65). -/
def execHeadLockLost (t : Time) (h : HeadId) (s : State) : Host.Outcome State Fault Refusal :=
  run t (fun b => b.lockLost h) s

/-- TIME_TRIGGER (R80). -/
def execTimeTrigger (t : Time) (h : HeadId) (meet : Meet) (s : State) : Host.Outcome State Fault Refusal :=
  run t (fun b => b.timeTrigger h meet) s

/-- SCHEDULED_TRIGGER (R80). -/
def execScheduledTrigger (t : Time) (h : HeadId) (meet : Meet) (s : State) : Host.Outcome State Fault Refusal :=
  run t (fun b => b.scheduledTrigger h meet) s

/-- PIN_TRIGGER (R79). -/
def execPinTrigger (t : Time) (edge : PinEdge) (pin : Fin 2) (meet : Meet) (s : State) : Host.Outcome State Fault Refusal :=
  run t (fun b => b.pinTrigger edge.head pin edge.falling edge.width meet) s

/-- TRIGGER_TASK (R97). -/
def execTriggerTask (t : Time) (h : HeadId) (meet : Meet) (s : State) : Host.Outcome State Fault Refusal :=
  run t (fun b => b.sampled (headTaskNo h 0) { Env.quiet with meet := meet } []) s

/-- TRIGGER_FIRE (R80). -/
def execTriggerFire (t : Time) (r : Route) (h : HeadId) (meet : Meet) (s : State) : Host.Outcome State Fault Refusal :=
  run t (fun b => b.writeTo (Obj.headTriggerFire h) 1 r { Env.quiet with meet := meet }) s

/-- EXPOSURE_END (R73). -/
def execExposureEnd (t : Time) (h : HeadId) (s : State) : Host.Outcome State Fault Refusal :=
  run t (fun b => b.exposureEnd h) s

/-- WINDOW_CLOSE (R94). -/
def execWindowClose (t : Time) (h : HeadId) (video : Video) (lamps : LampReport) (s : State) : Host.Outcome State Fault Refusal :=
  run t (fun b => b.windowClose h video lamps) s

/-- TRIGGER_TIMEOUT (R91). -/
def execTriggerTimeout (t : Time) (h : HeadId) (withTrigger : Bool) (s : State) : Host.Outcome State Fault Refusal :=
  run t (fun b => b.triggerTimeout h withTrigger) s

/-- TRIGGER_COUNT_REACHED (R84). -/
def execTriggerCountReached (t : Time) (h : HeadId) (s : State) : Host.Outcome State Fault Refusal :=
  run t (fun b => b.triggerCountEnd h) s

/-- SYNC_PULSE_TASK (R97). -/
def execSyncPulseTask (t : Time) (h : HeadId) (s : State) : Host.Outcome State Fault Refusal :=
  run t (fun b => b.sampled (headTaskNo h 3) Env.quiet []) s

/-- LINE_LEAVES_QUEUE (R133). -/
def execLineLeavesQueue (t : Time) (h : HeadId) (s : State) : Host.Outcome State Fault Refusal :=
  run t (fun b => b.lineLeaves h) s

/-- RANGE_COMMIT (R120). -/
def execRangeCommit (t : Time) (r : Option Route) (h : HeadId) (set : BitVec 16) (same : Bool)
    (s : State) : Host.Outcome State Fault Refusal :=
  run t (fun b => b.orTask r (Obj.headVideoRangeCommit h) set.toNat (headTaskNo h 6) (Env.meeting same)) s

/-- PEDESTAL_LOOP_UPDATE (R103). -/
def execPedestalLoopUpdate (t : Time) (h : HeadId) (s : State) : Host.Outcome State Fault Refusal :=
  run t (fun b => b.pedestalUpdate h) s

/-- ILV_WINDOW_COMPLETE (R107). -/
def execIlvWindowComplete (t : Time) (h : HeadId) (s : State) : Host.Outcome State Fault Refusal :=
  run t (fun b => b.ilvWindows h) s

/-- ILV_FREEZE (R114). -/
def execIlvFreeze (t : Time) (r : Option Route) (h : HeadId) (same : Bool) (s : State) : Host.Outcome State Fault Refusal :=
  run t (fun b => b.orTask r (Obj.headVideoIlvFreeze h) 1 (headTaskNo h 4) (Env.meeting same)) s

/-- ILV_UNFREEZE (R114). -/
def execIlvUnfreeze (t : Time) (r : Option Route) (h : HeadId) (same : Bool) (s : State) : Host.Outcome State Fault Refusal :=
  run t (fun b => b.orTask r (Obj.headVideoIlvFreeze h) 0 (headTaskNo h 5) (Env.meeting same)) s

/-- ILV_CONVERGENCE_TIMEOUT (R116). -/
def execIlvConvergenceTimeout (t : Time) (h : HeadId) (withConvergence : Bool) (s : State) : Host.Outcome State Fault Refusal :=
  run t (fun b => b.ilvTimeout h withConvergence) s

end Sys2Proof.Machine
end

