-- ==== Sys2Proof/Machine/HostRows.lean ====
section
/-! DEFINITION. Meanings of the commands: the PCIe host port, its mailbox, queues and interrupts (R436 to R461). -/
namespace Sys2Proof.Machine

/-- PCIE_RESET_RELEASE (R438). -/
def execPcieResetRelease (t : Time) (s : State) : Host.Outcome State Fault Refusal :=
  run t (fun b => b.pcieRelease) s

/-- LINK_UP (R439). -/
def execLinkUp (t : Time) (speed : Fin 6) (width : Nat) (s : State) : Host.Outcome State Fault Refusal :=
  run t (fun b => b.linkUp speed width) s

/-- LINK_DOWN (R440). -/
def execLinkDown (t : Time) (s : State) : Host.Outcome State Fault Refusal :=
  run t (fun b => b.linkDown) s

/-- BUS_MASTER_SET (R414). -/
def execBusMasterSet (t : Time) (s : State) : Host.Outcome State Fault Refusal :=
  run t (fun b => b.busMasterSet) s

/-- BUS_MASTER_CLEAR (R440). -/
def execBusMasterClear (t : Time) (s : State) : Host.Outcome State Fault Refusal :=
  run t (fun b => b.busMasterClear) s

/-- FUNCTION_LEVEL_RESET (R440). -/
def execFunctionLevelReset (t : Time) (s : State) : Host.Outcome State Fault Refusal :=
  run t (fun b => b.flr) s

/-- D3HOT_ENTRY (R440). -/
def execD3hotEntry (t : Time) (s : State) : Host.Outcome State Fault Refusal :=
  run t (fun b => b.d3hotEntry) s

/-- FATAL_ERROR (R440). -/
def execFatalError (t : Time) (s : State) : Host.Outcome State Fault Refusal :=
  run t (fun b => b.fatalError) s

/-- MAILBOX_READ (R445). -/
def execMailboxRead (t : Time) (slot : SlotId) (target : BitVec 8) (index : BitVec 16) (sub : BitVec 8) (length : BitVec 32)
    (tag : BitVec 32) (e : Env) (s : State) : Host.Outcome State Fault Refusal :=
  run t (fun b => b.mailRequest slot 1 target.toNat index.toNat sub.toNat length.toNat tag.toNat 0 [] [] e) s

/-- MAILBOX_WRITE (R445). -/
def execMailboxWrite (t : Time) (slot : SlotId) (target : BitVec 8) (index : BitVec 16) (sub : BitVec 8) (tag : BitVec 32)
    (data : List Byte) (e : Env) (s : State) : Host.Outcome State Fault Refusal :=
  run t (fun b => b.mailRequest slot 2 target.toNat index.toNat sub.toNat data.length tag.toNat 0 data [] e) s

/-- MAILBOX_TABLE_DOWNLOAD (R445). -/
def execMailboxTableDownload (t : Time) (slot : SlotId) (target : BitVec 8) (index : BitVec 16) (tag : BitVec 32)
    (address : BitVec 64) (table : List Byte) (e : Env) (s : State) : Host.Outcome State Fault Refusal :=
  run t (fun b => b.mailRequest slot 3 target.toNat index.toNat 0 table.length tag.toNat address.toNat [] table e) s

/-- MAILBOX_TABLE_UPLOAD (R445). -/
def execMailboxTableUpload (t : Time) (slot : SlotId) (target : BitVec 8) (index : BitVec 16) (length : BitVec 32)
    (tag : BitVec 32) (address : BitVec 64) (e : Env) (s : State) : Host.Outcome State Fault Refusal :=
  run t (fun b => b.mailRequest slot 4 target.toNat index.toNat 0 length.toNat tag.toNat address.toNat [] [] e) s

/-- MAILBOX_COMPLETE (R444). -/
def execMailboxComplete (t : Time) (slot : SlotId) (s : State) : Host.Outcome State Fault Refusal :=
  run t (fun b => b.mailComplete slot) s

/-- TUNNEL_TARGET_TIMEOUT (R445). -/
def execTunnelTargetTimeout (t : Time) (slot : SlotId) (s : State) : Host.Outcome State Fault Refusal :=
  run t (fun b => b.tunnelTimeout slot) s

/-- QUEUE_ENABLE (R451). -/
def execQueueEnable (t : Time) (r : Option Route) (queue : QueueId) (same : Bool) (s : State) : Host.Outcome State Fault Refusal :=
  run t (fun b => b.queueWrite queue (Obj.hostQueueEnable queue.val) 0x0C 4 1 r (Env.meeting same)) s

/-- QUEUE_DISABLE (R451). -/
def execQueueDisable (t : Time) (r : Option Route) (queue : QueueId) (same : Bool) (s : State) : Host.Outcome State Fault Refusal :=
  run t (fun b => b.queueWrite queue (Obj.hostQueueEnable queue.val) 0x0C 4 0 r (Env.meeting same)) s

/-- QUEUE_ERROR_CLEAR (R451). -/
def execQueueErrorClear (t : Time) (queue : QueueId) (s : State) : Host.Outcome State Fault Refusal :=
  run t (fun b => b.barWrite (0x3000C + 64 * queue.val) 4 (2 + b.reg (Obj.hostQueueEnable queue.val)) [] Env.quiet) s

/-- ACK_POSITION_WRITE (R450). -/
def execAckPositionWrite (t : Time) (r : Option Route) (queue : QueueId) (position : BitVec 64)
    (s : State) : Host.Outcome State Fault Refusal :=
  run t (fun b => b.queueWrite queue (Obj.hostQueueAckPos queue.val) 0x18 8 position.toNat r Env.quiet) s

/-- COALESCE_TIMER (R449). -/
def execCoalesceTimer (t : Time) (queue : QueueId) (s : State) : Host.Outcome State Fault Refusal :=
  run t (fun b => b.coalesceTimer queue) s

/-- HOST_STALL_TIMER (R452). -/
def execHostStallTimer (t : Time) (queue : QueueId) (withMove : Bool) (s : State) : Host.Outcome State Fault Refusal :=
  run t (fun b => b.stallTimer queue withMove) s

/-- INTERRUPT_CAUSE_CLEAR (R455). -/
def execInterruptCauseClear (t : Time) (high : Bool) (mask : BitVec 32) (firing : List Nat)
    (s : State) : Host.Outcome State Fault Refusal :=
  run t (fun b => b.barWrite (if high then 0x31004 else 0x31000) 4 mask.toNat [] { Env.quiet with again := firing }) s

/-- INTERRUPT_TASK (R459). -/
def execInterruptTask (t : Time) (k : Fin 16) (s : State) : Host.Outcome State Fault Refusal :=
  run t (fun b => b.sampled (448 + k.val) Env.quiet []) s

/-- AER_CORRECTABLE_ERROR (R453). -/
def execAerCorrectableError (t : Time) (s : State) : Host.Outcome State Fault Refusal :=
  run t (fun b => b.aerCorrectable) s

end Sys2Proof.Machine
end

