-- ==== Sys2Proof/Machine/IlluminationRows.lean ====
section
/-! DEFINITION. Meanings of the commands: the lamps of a head (R293 to R304). -/
namespace Sys2Proof.Machine

/-- SEQ_RESTART (R294). -/
def execSeqRestart (t : Time) (r : Option Route) (h : HeadId) (same : Bool) (s : State) : Host.Outcome State Fault Refusal :=
  run t (fun b => b.orTask r (Obj.headIllumSeqRestart h) 1 (headTaskNo h 18) (Env.meeting same)) s

/-- ILLUM_BLANK (R298). -/
def execIllumBlank (t : Time) (h : HeadId) (same : Bool) (s : State) : Host.Outcome State Fault Refusal :=
  run t (fun b => b.sampled (headTaskNo h 16) (Env.meeting same) []) s

/-- ILLUM_UNBLANK (R298). -/
def execIllumUnblank (t : Time) (h : HeadId) (same : Bool) (s : State) : Host.Outcome State Fault Refusal :=
  run t (fun b => b.sampled (headTaskNo h 17) (Env.meeting same) []) s

/-- BOOST_ADAPT (R300). -/
def execBoostAdapt (t : Time) (h : HeadId) (s : State) : Host.Outcome State Fault Refusal :=
  run t (fun b => b.boostAdapt h) s

/-- BOOST_OVERVOLTAGE (R301). -/
def execBoostOvervoltage (t : Time) (h : HeadId) (s : State) : Host.Outcome State Fault Refusal :=
  run t (fun b => b.boostOver h) s

/-- SELECT_FRAME_COMPLETE (R304). -/
def execSelectFrameComplete (t : Time) (h : HeadId) (s : State) : Host.Outcome State Fault Refusal :=
  run t (fun b => b.frameComplete h) s

end Sys2Proof.Machine
end

