-- ==== Sys2Proof/Machine/KeystoneRows.lean ====
section
/-! DEFINITION. Meanings of the commands: Keystone pacing (R230 to R258). -/
namespace Sys2Proof.Machine

/-- DRAIN_LEVEL_PUBLISH (R234). -/
def execDrainLevelPublish (t : Time) (s : State) : Host.Outcome State Fault Refusal :=
  run t (fun b => b.drainPublish) s

/-- LEVEL_REPORT_RECEIVED (R235). -/
def execLevelReportReceived (t : Time) (pier : PierId) (level : Nat) (paced : PacedInfo) (withTimeout : Bool)
    (s : State) : Host.Outcome State Fault Refusal :=
  run t (fun b => b.levelReport pier.val ⟨level, paced.last, paced.period, paced.loads⟩ withTimeout) s

/-- LEVEL_TIMEOUT (R235). -/
def execLevelTimeout (t : Time) (s : State) : Host.Outcome State Fault Refusal :=
  run t (fun b => b.levelTimeout) s

/-- PAGE_START (R257). -/
def execPageStart (t : Time) (r : Option Route) (a : AxisId) (othersAgree : Bool) (meet : PairMeet)
    (s : State) : Host.Outcome State Fault Refusal :=
  run t (fun b =>
    b.orTask r (Obj.axisKeystoneCommand a) 1 (axisTaskNo a 12)
    { Env.pair meet with othersAgree := othersAgree }) s

/-- PAGE_END (R257). -/
def execPageEnd (t : Time) (r : Option Route) (a : AxisId) (meet : PairMeet) (s : State) : Host.Outcome State Fault Refusal :=
  run t (fun b => b.orTask r (Obj.axisKeystoneCommand a) 2 (axisTaskNo a 13) (Env.pair meet)) s

/-- FORCED_PAUSE (R251). -/
def execForcedPause (t : Time) (r : Option Route) (a : AxisId) (meet : PairMeet) (s : State) : Host.Outcome State Fault Refusal :=
  run t (fun b => b.orTask r (Obj.axisKeystoneCommand a) 3 (axisTaskNo a 14) (Env.pair meet)) s

/-- PAGE_RELEASE (R251). -/
def execPageRelease (t : Time) (r : Option Route) (a : AxisId) (meet : PairMeet) (s : State) : Host.Outcome State Fault Refusal :=
  run t (fun b => b.orTask r (Obj.axisKeystoneCommand a) 4 (axisTaskNo a 15) (Env.pair meet)) s

/-- PAGE_AXIS_AT_REST (R239). -/
def execPageAxisAtRest (t : Time) (s : State) : Host.Outcome State Fault Refusal :=
  run t (fun b => b.pageAtRest) s

/-- PARK_REACHED (R239). -/
def execParkReached (t : Time) (s : State) : Host.Outcome State Fault Refusal :=
  run t (fun b => b.parkReached) s

/-- RESUME_CONDITIONS_MET (R246). -/
def execResumeConditionsMet (t : Time) (withPause : Bool) (s : State) : Host.Outcome State Fault Refusal :=
  run t (fun b => b.resumeMet withPause) s

/-- IDLE_LINE_TIMER (R242). -/
def execIdleLineTimer (t : Time) (s : State) : Host.Outcome State Fault Refusal :=
  run t (fun b => b.idleTimer) s

/-- IDLE_MARK_RECEIVED (R242). -/
def execIdleMarkReceived (t : Time) (instant : Time) (line : Option Int) (s : State) : Host.Outcome State Fault Refusal :=
  run t (fun b => b.receiveIdle instant line) s

end Sys2Proof.Machine
end

