-- ==== Sys2Proof/Machine/MotionRows.lean ====
section
/-! DEFINITION. Meanings of the commands: the motion axes and position on the ring (R85 to R89, R260 to R288). -/
namespace Sys2Proof.Machine

/-- AXIS_ENABLE (R284). -/
def execAxisEnable (t : Time) (r : Option Route) (a : AxisId) (stage : StageLevels) (meet : StartMeet)
    (s : State) : Host.Outcome State Fault Refusal :=
  run t (fun b =>
    b.orTask r (Obj.axisCommand a) 1 (axisTaskNo a 0)
    { Env.starting meet with vm := List.replicate 2 stage.vmMv.toNat, flt := if stage.fltLow then 3 else 0 }) s

/-- AXIS_DISABLE (R284). -/
def execAxisDisable (t : Time) (r : Option Route) (a : AxisId) (meet : StartMeet) (s : State) : Host.Outcome State Fault Refusal :=
  run t (fun b => b.orTask r (Obj.axisCommand a) 2 (axisTaskNo a 1) (Env.starting meet)) s

/-- AXIS_DISABLE_COMPLETE (R284). -/
def execAxisDisableComplete (t : Time) (a : AxisId) (s : State) : Host.Outcome State Fault Refusal :=
  run t (fun b => b.axisOffDone a) s

/-- MOVE_TO (R268). -/
def execMoveTo (t : Time) (r : Option Route) (a : AxisId) (target : Pos) (meet : PairMeet) (s : State) : Host.Outcome State Fault Refusal :=
  run t (fun b => b.orTask r (Obj.axisMoveTo a) target.toNat (axisTaskNo a 4) (Env.pair meet)) s

/-- JOG (R268). -/
def execJog (t : Time) (r : Route) (a : AxisId) (speed : BitVec 32) (meet : PairMeet) (s : State) : Host.Outcome State Fault Refusal :=
  run t (fun b => b.writeTo (Obj.axisJog a) speed.toNat r (Env.pair meet)) s

/-- HOME (R267). -/
def execHome (t : Time) (r : Option Route) (a : AxisId) (meet : PairMeet) (s : State) : Host.Outcome State Fault Refusal :=
  run t (fun b => b.orTask r (Obj.axisAction a) 1 (axisTaskNo a 5) (Env.pair meet)) s

/-- HOMING_REFERENCE_FOUND (R267). -/
def execHomingReferenceFound (t : Time) (a : AxisId) (s : State) : Host.Outcome State Fault Refusal :=
  run t (fun b => b.axisEvent a fun b => b.homingFound a) s

/-- HOMING_FAILED (R267). -/
def execHomingFailed (t : Time) (a : AxisId) (s : State) : Host.Outcome State Fault Refusal :=
  run t (fun b => b.homingFailed a) s

/-- HALT (R269). -/
def execHalt (t : Time) (r : Option Route) (a : AxisId) (meet : PairMeet) (s : State) : Host.Outcome State Fault Refusal :=
  run t (fun b => b.orTask r (Obj.axisAction a) 2 (axisTaskNo a 2) (Env.pair meet)) s

/-- QUICK_STOP (R269). -/
def execQuickStop (t : Time) (r : Option Route) (a : AxisId) (meet : PairMeet) (s : State) : Host.Outcome State Fault Refusal :=
  run t (fun b => b.orTask r (Obj.axisAction a) 3 (axisTaskNo a 3) (Env.pair meet)) s

/-- CLEAR_MOTION_FAULT (R280). -/
def execClearMotionFault (t : Time) (r : Option Route) (a : AxisId) (s : State)
    (twin : Bool := false) : Host.Outcome State Fault Refusal :=
  run t (fun b => b.orTask r (Obj.axisAction a) 4 (axisTaskNo a 6) { Env.quiet with twin := twin }) s

/-- PROFILE_UPDATE (R268). -/
def execProfileUpdate (t : Time) (a : AxisId) (s : State) : Host.Outcome State Fault Refusal :=
  run t (fun b => b.profileUpdate a) s

/-- PWM_PERIOD (R273). -/
def execPwmPeriod (t : Time) (a : AxisId) (shuntA : Int) (shuntB : Int) (vmUv : BitVec 32) (s : State) : Host.Outcome State Fault Refusal :=
  run t (fun b => b.axisEvent a fun b => b.pwmPeriod a shuntA shuntB vmUv.toNat) s

/-- HOLD_CURRENT_DELAY (R276). -/
def execHoldCurrentDelay (t : Time) (a : AxisId) (s : State) : Host.Outcome State Fault Refusal :=
  run t (fun b => b.holdCurrent a) s

/-- ENCODER_EDGE (R265). -/
def execEncoderEdge (t : Time) (a : AxisId) (up : Bool) (s : State) : Host.Outcome State Fault Refusal :=
  run t (fun b => b.axisEvent a fun b => b.encoderEdge a up) s

/-- ENCODER_CROSSING (R283). -/
def execEncoderCrossing (t : Time) (a : AxisId) (meets : CrossingMeets) (s : State) : Host.Outcome State Fault Refusal :=
  run t (fun b => b.encoderCrossing a meets.page meets.head) s

/-- ENCODER_ERROR (R279). -/
def execEncoderError (t : Time) (fault : EncoderFault) (s : State) : Host.Outcome State Fault Refusal :=
  run t (fun b => b.axisEvent fault.axis fun b => b.encoderErrorBy fault.axis fault.cause.val) s

/-- DEVIATION_TRIP (R278). -/
def execDeviationTrip (t : Time) (a : AxisId) (returned : Bool) (s : State) : Host.Outcome State Fault Refusal :=
  run t (fun b => b.axisEvent a fun b => b.deviationTrip a returned) s

/-- DEVIATION_REALIGN (R278). -/
def execDeviationRealign (t : Time) (a : AxisId) (s : State) : Host.Outcome State Fault Refusal :=
  run t (fun b => b.axisEvent a fun b => b.deviationRealign a) s

/-- LIMIT_SWITCH_ACTIVE (R272). -/
def execLimitSwitchActive (t : Time) (a : AxisId) (up : Bool) (s : State) : Host.Outcome State Fault Refusal :=
  run t (fun b => b.axisEvent a fun b => b.limitActive a up) s

/-- LIMIT_SWITCH_RELEASE (R272). -/
def execLimitSwitchRelease (t : Time) (a : AxisId) (up : Bool) (s : State) : Host.Outcome State Fault Refusal :=
  run t (fun b => b.axisEvent a fun b => b.limitRelease a up) s

/-- POWER_STAGE_FAULT (R277). -/
def execPowerStageFault (t : Time) (a : AxisId) (code : Fin 3) (s : State) : Host.Outcome State Fault Refusal :=
  run t (fun b => b.axisEvent a fun b => b.stageFault a (4 + code.val)) s

/-- BROADCAST_CLAIM (R281). -/
def execBroadcastClaim (t : Time) (r : Route) (a : AxisId) (on : Bool) (crossing : Option PierId)
    (s : State) : Host.Outcome State Fault Refusal :=
  run t (fun b => b.writeTo (Obj.axisBroadcast a) (if on then 1 else 0) r { Env.quiet with crossing := crossing }) s

/-- POSITION_BROADCAST (R282). -/
def execPositionBroadcast (t : Time) (s : State) : Host.Outcome State Fault Refusal :=
  run t (fun b => b.positionBroadcast) s

/-- CROSSING_RECEIVED (R87). -/
def execCrossingReceived (t : Time) (k : BitVec 48) (instant : Time) (flags : BitVec 16) (s : State) : Host.Outcome State Fault Refusal :=
  run t (fun b => b.receiveCrossing k.toNat instant flags.toNat) s

/-- BROADCAST_TRIGGER_DUE (R87). -/
def execBroadcastTriggerDue (t : Time) (h : HeadId) (meet : Meet) (s : State) : Host.Outcome State Fault Refusal :=
  run t (fun b => b.broadcastFire h meet) s

/-- POSITION_LATCH_RECEIVED (R89). -/
def execPositionLatchReceived (t : Time) (exposure : Time) (position : Pos) (s : State) : Host.Outcome State Fault Refusal :=
  run t (fun b => b.positionLatched exposure position.toInt) s

/-- INDEX_PULSE (R286). -/
def execIndexPulse (t : Time) (a : AxisId) (s : State) : Host.Outcome State Fault Refusal :=
  run t (fun b => b.indexPulse a) s

end Sys2Proof.Machine
end

