-- ==== Sys2Proof/Machine/PowerRows.lean ====
section
/-! DEFINITION. Meanings of the commands: supplies, clocks, resets, deep sleep and the governor (R516 to R549). -/
namespace Sys2Proof.Machine

/-- POWER_ON (R526). -/
def execPowerOn (t : Time) (s : State) : Host.Outcome State Fault Refusal :=
  run t (fun b => b.powerOn) s

/-- RESET_PIN (R526). -/
def execResetPin (t : Time) (s : State) : Host.Outcome State Fault Refusal :=
  run t (fun b => b.resetPin) s

/-- SUPPLY_FAULT (R520). -/
def execSupplyFault (t : Time) (s : State) : Host.Outcome State Fault Refusal :=
  run t (fun b => b.resetRunning 2) s

/-- RAIL_LOW (R520). -/
def execRailLow (t : Time) (rail : Fin 11) (mv : BitVec 16) (s : State) : Host.Outcome State Fault Refusal :=
  run t (fun b => b.railLow rail mv.toNat) s

/-- RAILS_GOOD_AGAIN (R520). -/
def execRailsGoodAgain (t : Time) (s : State) : Host.Outcome State Fault Refusal :=
  run t (fun b => b.railsGood) s

/-- SEQUENCE_VIOLATION (R518). -/
def execSequenceViolation (t : Time) (rail : Fin 11) (s : State) : Host.Outcome State Fault Refusal :=
  run t (fun b => b.sequenceViolation rail.val) s

/-- REF_LOST (R523). -/
def execRefLost (t : Time) (s : State) : Host.Outcome State Fault Refusal :=
  run t (fun b => b.resetRunning 4) s

/-- PCIE_REF_LOST (R523). -/
def execPcieRefLost (t : Time) (s : State) : Host.Outcome State Fault Refusal :=
  run t (fun b => b.pcieRefLost) s

/-- PCIE_REF_RESTORED (R523). -/
def execPcieRefRestored (t : Time) (s : State) : Host.Outcome State Fault Refusal :=
  run t (fun b => b.pcieRefRestored) s

/-- CRYSTAL_FAIL (R523). -/
def execCrystalFail (t : Time) (s : State) : Host.Outcome State Fault Refusal :=
  run t (fun b => b.crystalFail) s

/-- THERMAL_TRIP (R526). -/
def execThermalTrip (t : Time) (s : State) : Host.Outcome State Fault Refusal :=
  run t (fun b => b.resetRunning 5) s

/-- PIER_RESET_RELEASE (R527). -/
def execPierResetRelease (t : Time) (s : State) (bootFail : Option (BitVec 64) := none) : Host.Outcome State Fault Refusal :=
  run t (fun b => b.resetRelease (bootFail.map BitVec.toNat)) s

/-- DICTIONARY_RESET (R530). -/
def execDictionaryReset (t : Time) (r : Route) (s : State) : Host.Outcome State Fault Refusal :=
  run t (fun b => b.writeTo Obj.powerReset Block.signatureReset r Env.quiet) s

/-- CORE_RESTART_REQUEST (R530). -/
def execCoreRestartRequest (t : Time) (r : Route) (s : State) : Host.Outcome State Fault Refusal :=
  run t (fun b => b.writeTo Obj.powerReset Block.signatureCore r Env.quiet) s

/-- CORE_WATCHDOG_EXPIRY (R528). -/
def execCoreWatchdogExpiry (t : Time) (s : State) : Host.Outcome State Fault Refusal :=
  run t (fun b => b.restartCores 0) s

/-- CORES_RUNNING (R528). -/
def execCoresRunning (t : Time) (s : State) : Host.Outcome State Fault Refusal :=
  run t (fun b => b.coresRunning) s

/-- DEEP_SLEEP_REQUEST (R531). -/
def execDeepSleepRequest (t : Time) (r : Option Route) (s : State) : Host.Outcome State Fault Refusal :=
  run t (fun b => b.orTask r Obj.powerRequest 1 0 Env.quiet) s

/-- WAKE_REQUEST (R530). -/
def execWakeRequest (t : Time) (r : Route) (s : State) : Host.Outcome State Fault Refusal :=
  run t (fun b => b.writeTo Obj.powerRequest 2 r Env.quiet) s

/-- SLEEP_CONDITION_MET (R532). -/
def execSleepConditionMet (t : Time) (early : BitVec 6) (withExpiry : Bool) (s : State) : Host.Outcome State Fault Refusal :=
  run t (fun b => b.sleepEnter early withExpiry) s

/-- SLEEP_WAIT_EXPIRY (R531). -/
def execSleepWaitExpiry (t : Time) (s : State) : Host.Outcome State Fault Refusal :=
  run t (fun b => b.sleepExpire) s

/-- WAKE_SOURCE (R534). -/
def execWakeSource (t : Time) (source : Fin 6) (same : Bool) (s : State) : Host.Outcome State Fault Refusal :=
  run t (fun b => b.wakeBy source (Env.meeting same)) s

/-- RAIL_LATCH (R536). -/
def execRailLatch (t : Time) (railMv : List Nat) (s : State) : Host.Outcome State Fault Refusal :=
  run t (fun b => b.sampled 2 Env.quiet railMv) s

/-- THERMAL_READING (R544). -/
def execThermalReading (t : Time) (case_ : Int) (die : Int) (withEvaluation : Bool) (s : State) : Host.Outcome State Fault Refusal :=
  run t (fun b => b.thermalReading case_ die withEvaluation) s

/-- GOVERNOR_EVALUATION (R545). -/
def execGovernorEvaluation (t : Time) (s : State) : Host.Outcome State Fault Refusal :=
  run t (fun b => b.governorEvaluate) s

end Sys2Proof.Machine
end

