-- ==== Sys2Proof/Machine/RingRows.lean ====
section
/-! DEFINITION. Meanings of the commands: the span ring, ring time and the epoch (R404 to R435). -/
namespace Sys2Proof.Machine

/-- SPAN_TRAINING (R409). -/
def execSpanTraining (t : Time) (span : SpanId) (s : State) : Host.Outcome State Fault Refusal :=
  run t (fun b => if b.ballsTaken then b else b.spanTraining span) s

/-- SPAN_RETRAIN (R409). -/
def execSpanRetrain (t : Time) (span : SpanId) (withDown : Bool) (s : State) : Host.Outcome State Fault Refusal :=
  run t (fun b => b.sampled (384 + span.val) (Env.meeting withDown) []) s

/-- TRAINING_COMPLETE (R409). -/
def execTrainingComplete (t : Time) (span : SpanId) (lanes : BitVec 5) (neighbour : Option PierId) (crossed : Bool) (closes : Bool)
    (s : State) : Host.Outcome State Fault Refusal :=
  run t (fun b => b.trainingComplete span lanes neighbour crossed closes) s

/-- LANE_FAILURE (R410). -/
def execLaneFailure (t : Time) (span : SpanId) (lane : Fin 5) (withSpare : Bool) (s : State) : Host.Outcome State Fault Refusal :=
  run t (fun b => b.laneFailure span lane withSpare) s

/-- SPARE_IN_SERVICE (R410). -/
def execSpareInService (t : Time) (span : SpanId) (s : State) : Host.Outcome State Fault Refusal :=
  run t (fun b => b.spareInService span) s

/-- SPAN_DOWN (R411). -/
def execSpanDown (t : Time) (span : SpanId) (s : State) : Host.Outcome State Fault Refusal :=
  run t (fun b => b.spanDown span) s

/-- DATA_FRAME_RECEIVED (R406). -/
def execDataFrameReceived (t : Time) (span : SpanId) (frame : Frame) (seq : Nat) (crcOk : Bool)
    (s : State) : Host.Outcome State Fault Refusal :=
  run t (fun b => b.dataFrame span frame seq crcOk) s

/-- REPLAY_REQUEST (R406). -/
def execReplayRequest (t : Time) (span : SpanId) (seq : Nat) (s : State) : Host.Outcome State Fault Refusal :=
  run t (fun b => b.replayRequest span seq) s

/-- MESSAGE_FORWARD (R408). -/
def execMessageForward (t : Time) (span : SpanId) (arrival : Arrival) (s : State) : Host.Outcome State Fault Refusal :=
  run t (fun b => b.messageForward span arrival.origin arrival.message arrival.banks) s

/-- TUNNEL_REQUEST_RECEIVED (R55). -/
def execTunnelRequestReceived (t : Time) (abutment : PierId) (opcode : BitVec 8) (index : BitVec 16) (sub : BitVec 8)
    (length : BitVec 32) (address : BitVec 64) (data : List Byte) (table : List Byte) (e : Env) (s : State) : Host.Outcome State Fault Refusal :=
  run t (fun b => b.tunnelRequest abutment opcode.toNat index.toNat sub.toNat length.toNat address.toNat data table e) s

/-- RING_DMA_FRAME (R382). -/
def execRingDmaFrame (t : Time) (frame : DmaFrame) (bytes : List Byte) (s : State) : Host.Outcome State Fault Refusal :=
  run t (fun b => b.ringDmaFrame frame.src frame.access bytes) s

/-- ACK_FRAME_RECEIVED (R450). -/
def execAckFrameReceived (t : Time) (h : HeadId) (seq : BitVec 48) (marker : Bool) (s : State) : Host.Outcome State Fault Refusal :=
  run t (fun b => b.ackFrame h seq.toNat marker) s

/-- PATH_HOLD_END (R416). -/
def execPathHoldEnd (t : Time) (h : HeadId) (s : State) : Host.Outcome State Fault Refusal :=
  run t (fun b => b.pathHoldEnd h) s

/-- TIME_SYNC_SEND (R422). -/
def execTimeSyncSend (t : Time) (s : State) : Host.Outcome State Fault Refusal :=
  run t (fun b => b.timeSyncSend) s

/-- TIME_SYNC_RECEIVED (R422). -/
def execTimeSyncReceived (t : Time) (sync : SyncInfo) (withTimeout : Bool) (s : State) : Host.Outcome State Fault Refusal :=
  run t (fun b => b.timeSync sync.span sync.offset withTimeout) s

/-- HOP_DELAY_EXCHANGE (R422). -/
def execHopDelayExchange (t : Time) (span : SpanId) (mean : Int) (s : State) : Host.Outcome State Fault Refusal :=
  run t (fun b => b.hopDelayExchange span mean) s

/-- HOLDOVER_TIMEOUT (R424). -/
def execHoldoverTimeout (t : Time) (s : State) : Host.Outcome State Fault Refusal :=
  run t (fun b => b.holdoverTimeout) s

/-- TIME_SOURCE_REGAINED (R425). -/
def execTimeSourceRegained (t : Time) (offset : Int) (s : State) : Host.Outcome State Fault Refusal :=
  run t (fun b => b.timeRegained offset) s

/-- TIME_LATCH (R433). -/
def execTimeLatch (t : Time) (s : State) : Host.Outcome State Fault Refusal :=
  run t (fun b => b.sampled 386 Env.quiet []) s

/-- EPOCH_CHANGE (R427). -/
def execEpochChange (t : Time) (info : EpochInfo) (withStart : Bool) (s : State) : Host.Outcome State Fault Refusal :=
  run t (fun b => b.epochChange info withStart) s

/-- EPOCH_JOIN (R431). -/
def execEpochJoin (t : Time) (info : EpochInfo) (other : BitVec 64) (generation : Nat) (authority : Bool) (offset : Int)
    (both : Bool) (s : State) : Host.Outcome State Fault Refusal :=
  run t (fun b => b.epochJoin { info with generation := max info.generation generation } other authority offset both) s

/-- RING_WIDE_WRITE (R429). -/
def execRingWideWrite (t : Time) (r : Route) (o : RingWide) (v : BitVec 32) (e : Env) (s : State) : Host.Outcome State Fault Refusal :=
  run t (fun b =>
    match o with
    | .configured => b.writeTo Obj.ringConfigured v.toNat r e
    | .claim a => b.writeTo (Obj.axisBroadcast a.val) v.toNat r e
    | .ceiling a => b.writeTo (Obj.axisKeystoneCeiling a.val) v.toNat r e) s

/-- GOVERNOR_CAP_MESSAGE (R19). -/
def execGovernorCapMessage (t : Time) (pier : PierId) (cap : BitVec 32) (sent : Time) (s : State) : Host.Outcome State Fault Refusal :=
  run t (fun b => b.capMessage pier cap.toNat sent) s

/-- RING_START (R426). -/
def execRingStart (t : Time) (r : Route) (instant : Time) (banks : List Nat) (failing : Option (PierId × HeadId × AbortCode))
    (epochChanges : Bool) (s : State) : Host.Outcome State Fault Refusal :=
  run t (fun b =>
    b.writeTo Obj.ringStartAt instant.toNat r
    { Env.quiet with banks := banks, startFail := failing, epoch := epochChanges }) s

end Sys2Proof.Machine
end

