-- ==== Sys2Proof/Machine/ServiceRows.lean ====
section
/-! DEFINITION. Meanings of the commands: the fault log, diagnostics and in-service maintenance (R579 to R589). -/
namespace Sys2Proof.Machine

/-- FAULT_LOG_SELECT (R582). -/
def execFaultLogSelect (t : Time) (r : Route) (number : BitVec 32) (s : State) : Host.Outcome State Fault Refusal :=
  run t (fun b => b.writeTo Obj.faultLogSelect number.toNat r Env.quiet) s

/-- FAULT_LOG_CLEAR (R582). -/
def execFaultLogClear (t : Time) (r : Route) (s : State) : Host.Outcome State Fault Refusal :=
  run t (fun b => b.writeTo Obj.faultLogClear 0 r Env.quiet) s

/-- DIAG_CLEAR (R583). -/
def execDiagClear (t : Time) (r : Route) (again : List Nat) (s : State) : Host.Outcome State Fault Refusal :=
  run t (fun b => b.writeTo Obj.diagClear 0 r { Env.quiet with again := again }) s

/-- HEAD_ISOLATE (R584). -/
def execHeadIsolate (t : Time) (r : Route) (h : HeadId) (same : Bool) (s : State) : Host.Outcome State Fault Refusal :=
  run t (fun b => b.writeTo (Obj.headServiceIsolate h) 1 r (Env.meeting same)) s

/-- HEAD_RELEASE (R586). -/
def execHeadRelease (t : Time) (r : Route) (h : HeadId) (s : State) : Host.Outcome State Fault Refusal :=
  run t (fun b => b.writeTo (Obj.headServiceIsolate h) 0 r Env.quiet) s

/-- PPR_HARDEN (R588). -/
def execPprHarden (t : Time) (r : Route) (s : State) : Host.Outcome State Fault Refusal :=
  run t (fun b => b.writeTo Obj.memPprCommand 1 r Env.quiet) s

end Sys2Proof.Machine
end

