-- ==== Sys2Proof/Machine/SmbusRows.lean ====
section
/-! DEFINITION. Meanings of the commands: the SMBus target (R472 to R484). -/
namespace Sys2Proof.Machine

/-- SMB_REQUEST (R476). -/
def execSmbRequest (t : Time) (op : BitVec 8) (index : BitVec 16) (sub : BitVec 8) (offset : BitVec 16) (len : BitVec 8)
    (data : List Byte) (pecOk : Bool) (e : Env) (s : State) : Host.Outcome State Fault Refusal :=
  run t (fun b => b.smbRequest op.toNat index.toNat sub.toNat offset.toNat len.toNat data pecOk e) s

/-- SMB_RESPONSE (R476). -/
def execSmbResponse (t : Time) (s : State) : Host.Outcome State Fault Refusal :=
  run t (fun b => b.smbResponse) s

/-- SMB_STATUS (R474). -/
def execSmbStatus (t : Time) (s : State) : Host.Outcome State Fault Refusal :=
  run t (fun b => b.smbStatus) s

/-- SMB_ALERT_CAUSE_READ (R474). -/
def execSmbAlertCauseRead (t : Time) (s : State) : Host.Outcome State Fault Refusal :=
  run t (fun b => b.smbCauseRead) s

/-- SMB_ALERT_CAUSE_WRITE (R474). -/
def execSmbAlertCauseWrite (t : Time) (mask : BitVec 32) (again : BitVec 32) (pecOk : Bool)
    (s : State) : Host.Outcome State Fault Refusal :=
  run t (fun b => b.smbCauseWrite mask.toNat again.toNat pecOk) s

/-- SMB_TEMPERATURE (R474). -/
def execSmbTemperature (t : Time) (s : State) : Host.Outcome State Fault Refusal :=
  run t (fun b => b.smbTemperature) s

/-- SMB_POWER_REQUEST (R474). -/
def execSmbPowerRequest (t : Time) (value : BitVec 8) (pecOk : Bool) (s : State) : Host.Outcome State Fault Refusal :=
  run t (fun b => b.smbPower value.toNat pecOk) s

/-- SMB_ALERT_RESPONSE (R480). -/
def execSmbAlertResponse (t : Time) (lost : Bool) (again : Bool) (s : State) : Host.Outcome State Fault Refusal :=
  run t (fun b => b.alertResponse lost again) s

/-- SMB_ALERT_TASK (R484). -/
def execSmbAlertTask (t : Time) (s : State) : Host.Outcome State Fault Refusal :=
  run t (fun b => b.sampled 472 Env.quiet []) s

/-- SMB_SCL_TIMEOUT (R482). -/
def execSmbSclTimeout (t : Time) (withStop : Bool) (s : State) : Host.Outcome State Fault Refusal :=
  run t (fun b => b.sclTimeout withStop) s

/-- SMB_RESPONSE_HOLD_EXPIRY (R476). -/
def execSmbResponseHoldExpiry (t : Time) (s : State) : Host.Outcome State Fault Refusal :=
  run t (fun b => b.smbHoldEnd) s

/-- SMB_SLEEP_START (R478). -/
def execSmbSleepStart (t : Time) (s : State) : Host.Outcome State Fault Refusal :=
  run t (fun b => b.sleepStart) s

/-- SMB_SLEEP_IDLE_EXPIRY (R478). -/
def execSmbSleepIdleExpiry (t : Time) (s : State) : Host.Outcome State Fault Refusal :=
  run t (fun b => b.sleepIdleEnd) s

end Sys2Proof.Machine
end

