-- ==== Sys2Proof/Machine/TestRows.lean ====
section
/-! DEFINITION. Meanings of the commands: boundary scan, self-tests, loopback (R568 to R577). -/
namespace Sys2Proof.Machine

/-- TAP_RESET (R568). -/
def execTapReset (t : Time) (s : State) : Host.Outcome State Fault Refusal :=
  run t (fun b => b.tapReset) s

/-- EXTEST (R571). -/
def execExtest (t : Time) (scan : Option (BitVec 360 × BitVec 360)) (s : State) : Host.Outcome State Fault Refusal :=
  run t (fun b => b.tapCommand .extest scan) s

/-- IDCODE (R570). -/
def execIdcode (t : Time) (scan : Option (BitVec 360 × BitVec 360)) (s : State) : Host.Outcome State Fault Refusal :=
  run t (fun b => b.tapCommand .idcode scan) s

/-- SAMPLE_PRELOAD (R569). -/
def execSamplePreload (t : Time) (scan : Option (BitVec 360 × BitVec 360)) (s : State) : Host.Outcome State Fault Refusal :=
  run t (fun b => b.tapCommand .samplePreload scan) s

/-- CLAMP (R571). -/
def execClamp (t : Time) (scan : Option (BitVec 360 × BitVec 360)) (s : State) : Host.Outcome State Fault Refusal :=
  run t (fun b => b.tapCommand .clamp scan) s

/-- HIGHZ (R571). -/
def execHighz (t : Time) (scan : Option (BitVec 360 × BitVec 360)) (s : State) : Host.Outcome State Fault Refusal :=
  run t (fun b => b.tapCommand .highz scan) s

/-- EXTEST_PULSE (R574). -/
def execExtestPulse (t : Time) (scan : Option (BitVec 360 × BitVec 360)) (s : State) : Host.Outcome State Fault Refusal :=
  run t (fun b => b.tapCommand .extestPulse scan) s

/-- EXTEST_TRAIN (R574). -/
def execExtestTrain (t : Time) (scan : Option (BitVec 360 × BitVec 360)) (s : State) : Host.Outcome State Fault Refusal :=
  run t (fun b => b.tapCommand .extestTrain scan) s

/-- BYPASS (R569). -/
def execBypass (t : Time) (_code : BitVec 8) (scan : Option (BitVec 360 × BitVec 360)) (s : State) : Host.Outcome State Fault Refusal :=
  run t (fun b => b.tapCommand .bypass scan) s

/-- MBIST_START (R575). -/
def execMbistStart (t : Time) (r : Route) (same : Bool) (s : State) : Host.Outcome State Fault Refusal :=
  run t (fun b => b.writeTo Obj.testMbistCommand 1 r (Env.meeting same)) s

/-- MBIST_ABORT (R575). -/
def execMbistAbort (t : Time) (r : Route) (same : Bool) (s : State) : Host.Outcome State Fault Refusal :=
  run t (fun b => b.writeTo Obj.testMbistCommand 2 r (Env.meeting same)) s

/-- MBIST_COMPLETE (R575). -/
def execMbistComplete (t : Time) (errors : Nat) (first : BitVec 64) (rows : List (MemRow × Option Nat))
    (s : State) : Host.Outcome State Fault Refusal :=
  run t (fun b => b.mbistComplete errors first.toNat rows) s

/-- SPAN_LOOPBACK (R576). -/
def execSpanLoopback (t : Time) (r : Route) (span : SpanId) (mode : BitVec 8) (errors : Nat)
    (s : State) : Host.Outcome State Fault Refusal :=
  run t (fun b => b.writeTo (Obj.testSpanLoopback span.val) mode.toNat r { Env.quiet with errors := errors }) s

/-- PCIE_LOOPBACK_ENTRY (R576). -/
def execPcieLoopbackEntry (t : Time) (s : State) : Host.Outcome State Fault Refusal :=
  run t (fun b => b.pcieLoopback) s

end Sys2Proof.Machine
end

