-- ==== Sys2Proof/Machine/Dispatch.lean ====
section
/-! DEFINITION. One arm for each command. -/
namespace Sys2Proof.Machine

def exec (i : Instr) (s : State) : Host.Outcome State Fault Refusal :=
  match i with
  | .dictionaryWrite t r index sub data e => Sys2Proof.Machine.execDictionaryWrite t r index sub data e s
  | .bar0Write t off size v table e => Sys2Proof.Machine.execBar0Write t off size v table e s
  | .bar0UnsupportedAccess t access => Sys2Proof.Machine.execBar0UnsupportedAccess t access s
  | .levelWrite t r index level e => Sys2Proof.Machine.execLevelWrite t r index level e s
  | .save t r group signature => Sys2Proof.Machine.execSave t r group signature s
  | .saveComplete t => Sys2Proof.Machine.execSaveComplete t s
  | .restore t r group signature => Sys2Proof.Machine.execRestore t r group signature s
  | .tableDownloadSegment t r index start size bytes last crcOk fault late => Sys2Proof.Machine.execTableDownloadSegment t r index start size bytes last crcOk fault late s
  | .transferTimeout t r index => Sys2Proof.Machine.execTransferTimeout t r index s
  | .featuresConfirm t r othersConfirm => Sys2Proof.Machine.execFeaturesConfirm t r othersConfirm s
  | .featuresBase t r othersConfirm => Sys2Proof.Machine.execFeaturesBase t r othersConfirm s
  | .headStart t r h meet bankMv => Sys2Proof.Machine.execHeadStart t r h meet bankMv s
  | .headPllLocked t h shorts chain => Sys2Proof.Machine.execHeadPllLocked t h shorts chain s
  | .headLockTimeout t h => Sys2Proof.Machine.execHeadLockTimeout t h s
  | .headStop t r h same => Sys2Proof.Machine.execHeadStop t r h same s
  | .headLockLost t h => Sys2Proof.Machine.execHeadLockLost t h s
  | .timeTrigger t h meet => Sys2Proof.Machine.execTimeTrigger t h meet s
  | .scheduledTrigger t h meet => Sys2Proof.Machine.execScheduledTrigger t h meet s
  | .pinTrigger t edge pin meet => Sys2Proof.Machine.execPinTrigger t edge pin meet s
  | .triggerTask t h meet => Sys2Proof.Machine.execTriggerTask t h meet s
  | .triggerFire t r h meet => Sys2Proof.Machine.execTriggerFire t r h meet s
  | .exposureEnd t h => Sys2Proof.Machine.execExposureEnd t h s
  | .windowClose t h video lamps => Sys2Proof.Machine.execWindowClose t h video lamps s
  | .triggerTimeout t h withTrigger => Sys2Proof.Machine.execTriggerTimeout t h withTrigger s
  | .triggerCountReached t h => Sys2Proof.Machine.execTriggerCountReached t h s
  | .syncPulseTask t h => Sys2Proof.Machine.execSyncPulseTask t h s
  | .lineLeavesQueue t h => Sys2Proof.Machine.execLineLeavesQueue t h s
  | .rangeCommit t r h set same => Sys2Proof.Machine.execRangeCommit t r h set same s
  | .pedestalLoopUpdate t h => Sys2Proof.Machine.execPedestalLoopUpdate t h s
  | .ilvWindowComplete t h => Sys2Proof.Machine.execIlvWindowComplete t h s
  | .ilvFreeze t r h same => Sys2Proof.Machine.execIlvFreeze t r h same s
  | .ilvUnfreeze t r h same => Sys2Proof.Machine.execIlvUnfreeze t r h same s
  | .ilvConvergenceTimeout t h withConvergence => Sys2Proof.Machine.execIlvConvergenceTimeout t h withConvergence s
  | .tempHoldExpiry t h => Sys2Proof.Machine.execTempHoldExpiry t h s
  | .shadowReadyWrite t r h set => Sys2Proof.Machine.execShadowReadyWrite t r h set s
  | .corrSwap t r h set same => Sys2Proof.Machine.execCorrSwap t r h set same s
  | .corrPrepare t r h set => Sys2Proof.Machine.execCorrPrepare t r h set s
  | .prepareComplete t h => Sys2Proof.Machine.execPrepareComplete t h s
  | .calStart t r h same => Sys2Proof.Machine.execCalStart t r h same s
  | .calAbort t r h same => Sys2Proof.Machine.execCalAbort t r h same s
  | .calPhaseEnd t h => Sys2Proof.Machine.execCalPhaseEnd t h s
  | .calDeriveComplete t h same => Sys2Proof.Machine.execCalDeriveComplete t h same s
  | .stitchShadowReady t r h set => Sys2Proof.Machine.execStitchShadowReady t r h set s
  | .stitchSwap t r h set same => Sys2Proof.Machine.execStitchSwap t r h set same s
  | .stitchCalStart t r h same => Sys2Proof.Machine.execStitchCalStart t r h same s
  | .stitchCalAbort t r h same => Sys2Proof.Machine.execStitchCalAbort t r h same s
  | .stitchCalPhaseEnd t h => Sys2Proof.Machine.execStitchCalPhaseEnd t h s
  | .stitchDeriveComplete t h same => Sys2Proof.Machine.execStitchDeriveComplete t h same s
  | .captureTriggerFire t r meet => Sys2Proof.Machine.execCaptureTriggerFire t r meet s
  | .burstTriggerTask t meet => Sys2Proof.Machine.execBurstTriggerTask t meet s
  | .burstTriggerPin t edge meet => Sys2Proof.Machine.execBurstTriggerPin t edge meet s
  | .captureTriggerDue t meet => Sys2Proof.Machine.execCaptureTriggerDue t meet s
  | .burstBroadcastReceived t burst meet => Sys2Proof.Machine.execBurstBroadcastReceived t burst meet s
  | .captureArm t r same => Sys2Proof.Machine.execCaptureArm t r same s
  | .captureDisarm t r same => Sys2Proof.Machine.execCaptureDisarm t r same s
  | .captureDiscard t r h => Sys2Proof.Machine.execCaptureDiscard t r h s
  | .ringRecordArrives t span pier slot => Sys2Proof.Machine.execRingRecordArrives t span pier slot s
  | .drainLevelPublish t => Sys2Proof.Machine.execDrainLevelPublish t s
  | .levelReportReceived t pier level paced withTimeout => Sys2Proof.Machine.execLevelReportReceived t pier level paced withTimeout s
  | .levelTimeout t => Sys2Proof.Machine.execLevelTimeout t s
  | .pageStart t r a othersAgree meet => Sys2Proof.Machine.execPageStart t r a othersAgree meet s
  | .pageEnd t r a meet => Sys2Proof.Machine.execPageEnd t r a meet s
  | .forcedPause t r a meet => Sys2Proof.Machine.execForcedPause t r a meet s
  | .pageRelease t r a meet => Sys2Proof.Machine.execPageRelease t r a meet s
  | .pageAxisAtRest t => Sys2Proof.Machine.execPageAxisAtRest t s
  | .parkReached t => Sys2Proof.Machine.execParkReached t s
  | .resumeConditionsMet t withPause => Sys2Proof.Machine.execResumeConditionsMet t withPause s
  | .idleLineTimer t => Sys2Proof.Machine.execIdleLineTimer t s
  | .idleMarkReceived t instant line => Sys2Proof.Machine.execIdleMarkReceived t instant line s
  | .axisEnable t r a stage meet => Sys2Proof.Machine.execAxisEnable t r a stage meet s
  | .axisDisable t r a meet => Sys2Proof.Machine.execAxisDisable t r a meet s
  | .axisDisableComplete t a => Sys2Proof.Machine.execAxisDisableComplete t a s
  | .moveTo t r a target meet => Sys2Proof.Machine.execMoveTo t r a target meet s
  | .jog t r a speed meet => Sys2Proof.Machine.execJog t r a speed meet s
  | .home t r a meet => Sys2Proof.Machine.execHome t r a meet s
  | .homingReferenceFound t a => Sys2Proof.Machine.execHomingReferenceFound t a s
  | .homingFailed t a => Sys2Proof.Machine.execHomingFailed t a s
  | .halt t r a meet => Sys2Proof.Machine.execHalt t r a meet s
  | .quickStop t r a meet => Sys2Proof.Machine.execQuickStop t r a meet s
  | .clearMotionFault t r a twin => Sys2Proof.Machine.execClearMotionFault t r a s twin
  | .profileUpdate t a => Sys2Proof.Machine.execProfileUpdate t a s
  | .pwmPeriod t a shuntA shuntB vmUv => Sys2Proof.Machine.execPwmPeriod t a shuntA shuntB vmUv s
  | .holdCurrentDelay t a => Sys2Proof.Machine.execHoldCurrentDelay t a s
  | .encoderEdge t a up => Sys2Proof.Machine.execEncoderEdge t a up s
  | .encoderCrossing t a meets => Sys2Proof.Machine.execEncoderCrossing t a meets s
  | .encoderError t fault => Sys2Proof.Machine.execEncoderError t fault s
  | .deviationTrip t a returned => Sys2Proof.Machine.execDeviationTrip t a returned s
  | .deviationRealign t a => Sys2Proof.Machine.execDeviationRealign t a s
  | .limitSwitchActive t a up => Sys2Proof.Machine.execLimitSwitchActive t a up s
  | .limitSwitchRelease t a up => Sys2Proof.Machine.execLimitSwitchRelease t a up s
  | .powerStageFault t a code => Sys2Proof.Machine.execPowerStageFault t a code s
  | .broadcastClaim t r a on crossing => Sys2Proof.Machine.execBroadcastClaim t r a on crossing s
  | .positionBroadcast t => Sys2Proof.Machine.execPositionBroadcast t s
  | .crossingReceived t k instant flags => Sys2Proof.Machine.execCrossingReceived t k instant flags s
  | .broadcastTriggerDue t h meet => Sys2Proof.Machine.execBroadcastTriggerDue t h meet s
  | .positionLatchReceived t exposure position => Sys2Proof.Machine.execPositionLatchReceived t exposure position s
  | .seqRestart t r h same => Sys2Proof.Machine.execSeqRestart t r h same s
  | .illumBlank t h same => Sys2Proof.Machine.execIllumBlank t h same s
  | .illumUnblank t h same => Sys2Proof.Machine.execIllumUnblank t h same s
  | .boostAdapt t h => Sys2Proof.Machine.execBoostAdapt t h s
  | .boostOvervoltage t h => Sys2Proof.Machine.execBoostOvervoltage t h s
  | .selectFrameComplete t h => Sys2Proof.Machine.execSelectFrameComplete t h s
  | .excitationOff t same => Sys2Proof.Machine.execExcitationOff t same s
  | .excitationOn t same => Sys2Proof.Machine.execExcitationOn t same s
  | .excitationOverload t n => Sys2Proof.Machine.execExcitationOverload t n s
  | .excitationOverloadClear t n => Sys2Proof.Machine.execExcitationOverloadClear t n s
  | .clampEngage t n high => Sys2Proof.Machine.execClampEngage t n high s
  | .clampRelease t n => Sys2Proof.Machine.execClampRelease t n s
  | .clampRecoveryEnd t n => Sys2Proof.Machine.execClampRecoveryEnd t n s
  | .clampClear t r n engaging => Sys2Proof.Machine.execClampClear t r n engaging s
  | .wireBreakTrip t lead => Sys2Proof.Machine.execWireBreakTrip t lead s
  | .wireBreakClear t n => Sys2Proof.Machine.execWireBreakClear t n s
  | .echoPeriod t o => Sys2Proof.Machine.execEchoPeriod t o s
  | .seqStart t r meet => Sys2Proof.Machine.execSeqStart t r meet s
  | .seqStop t r meet => Sys2Proof.Machine.execSeqStop t r meet s
  | .seqStopComplete t => Sys2Proof.Machine.execSeqStopComplete t s
  | .refBufferOn t => Sys2Proof.Machine.execRefBufferOn t s
  | .refBufferReady t => Sys2Proof.Machine.execRefBufferReady t s
  | .passStart t lane => Sys2Proof.Machine.execPassStart t lane s
  | .entryExecution t lane => Sys2Proof.Machine.execEntryExecution t lane s
  | .conversionComplete t sar code => Sys2Proof.Machine.execConversionComplete t sar code s
  | .chopReversal t => Sys2Proof.Machine.execChopReversal t s
  | .continuousTestPulse t moved => Sys2Proof.Machine.execContinuousTestPulse t moved s
  | .filterWindowBoundary t n => Sys2Proof.Machine.execFilterWindowBoundary t n s
  | .fifoRead t r => Sys2Proof.Machine.execFifoRead t r s
  | .fifoBar0Read t => Sys2Proof.Machine.execFifoBar0Read t s
  | .fifoFlush t r => Sys2Proof.Machine.execFifoFlush t r s
  | .taskSelectWrite t r task source => Sys2Proof.Machine.execTaskSelectWrite t r task source s
  | .taskLatchSampled t task railMv e => Sys2Proof.Machine.execTaskLatchSampled t task railMv e s
  | .relayInput t relay in0 in1 => Sys2Proof.Machine.execRelayInput t relay in0 in1 s
  | .stormWindowClose t source => Sys2Proof.Machine.execStormWindowClose t source s
  | .stormRearm t r source => Sys2Proof.Machine.execStormRearm t r source s
  | .fabricFire t r source => Sys2Proof.Machine.execFabricFire t r source s
  | .timerATask t unit withB => Sys2Proof.Machine.execTimerATask t unit withB s
  | .timerBTask t unit withA => Sys2Proof.Machine.execTimerBTask t unit withA s
  | .timerPeriodEnd t unit withB => Sys2Proof.Machine.execTimerPeriodEnd t unit withB s
  | .alarmDue t unit withB => Sys2Proof.Machine.execAlarmDue t unit withB s
  | .dmaShadowLoad t r c ctrl => Sys2Proof.Machine.execDmaShadowLoad t r c ctrl s
  | .dmaGo t p c same => Sys2Proof.Machine.execDmaGo t p c same s
  | .dmaStop t r c same => Sys2Proof.Machine.execDmaStop t r c same s
  | .dmaFence t r c => Sys2Proof.Machine.execDmaFence t r c s
  | .dmaEmptyShadow t r c => Sys2Proof.Machine.execDmaEmptyShadow t r c s
  | .dmaAbandonSlot t c => Sys2Proof.Machine.execDmaAbandonSlot t c s
  | .dmaRequest t c same => Sys2Proof.Machine.execDmaRequest t c same s
  | .dmaFenceTask t => Sys2Proof.Machine.execDmaFenceTask t s
  | .dmaStopTask t same => Sys2Proof.Machine.execDmaStopTask t same s
  | .dmaBeat t blocked fill0 fill1 data => Sys2Proof.Machine.execDmaBeat t blocked fill0 fill1 data s
  | .dmaLinkFetchDone t c => Sys2Proof.Machine.execDmaLinkFetchDone t c s
  | .dmaBusError t c kind address withStop row => Sys2Proof.Machine.execDmaBusError t c kind address withStop row s
  | .dmaRingAckTimeout t c address withStop => Sys2Proof.Machine.execDmaRingAckTimeout t c address withStop s
  | .fenceProven t c => Sys2Proof.Machine.execFenceProven t c s
  | .softRepair t row block => Sys2Proof.Machine.execSoftRepair t row block s
  | .spanTraining t span => Sys2Proof.Machine.execSpanTraining t span s
  | .spanRetrain t span withDown => Sys2Proof.Machine.execSpanRetrain t span withDown s
  | .trainingComplete t span lanes neighbour crossed closes => Sys2Proof.Machine.execTrainingComplete t span lanes neighbour crossed closes s
  | .laneFailure t span lane withSpare => Sys2Proof.Machine.execLaneFailure t span lane withSpare s
  | .spareInService t span => Sys2Proof.Machine.execSpareInService t span s
  | .spanDown t span => Sys2Proof.Machine.execSpanDown t span s
  | .dataFrameReceived t span frame seq crcOk => Sys2Proof.Machine.execDataFrameReceived t span frame seq crcOk s
  | .replayRequest t span seq => Sys2Proof.Machine.execReplayRequest t span seq s
  | .messageForward t span arrival => Sys2Proof.Machine.execMessageForward t span arrival s
  | .tunnelRequestReceived t abutment opcode index sub length address data table e => Sys2Proof.Machine.execTunnelRequestReceived t abutment opcode index sub length address data table e s
  | .ringDmaFrame t frame bytes => Sys2Proof.Machine.execRingDmaFrame t frame bytes s
  | .ackFrameReceived t h seq marker => Sys2Proof.Machine.execAckFrameReceived t h seq marker s
  | .pathHoldEnd t h => Sys2Proof.Machine.execPathHoldEnd t h s
  | .timeSyncSend t => Sys2Proof.Machine.execTimeSyncSend t s
  | .timeSyncReceived t sync withTimeout => Sys2Proof.Machine.execTimeSyncReceived t sync withTimeout s
  | .hopDelayExchange t span mean => Sys2Proof.Machine.execHopDelayExchange t span mean s
  | .holdoverTimeout t => Sys2Proof.Machine.execHoldoverTimeout t s
  | .timeSourceRegained t offset => Sys2Proof.Machine.execTimeSourceRegained t offset s
  | .timeLatch t => Sys2Proof.Machine.execTimeLatch t s
  | .epochChange t info withStart => Sys2Proof.Machine.execEpochChange t info withStart s
  | .epochJoin t info other generation authority offset both => Sys2Proof.Machine.execEpochJoin t info other generation authority offset both s
  | .ringWideWrite t r o v e => Sys2Proof.Machine.execRingWideWrite t r o v e s
  | .governorCapMessage t pier cap sent => Sys2Proof.Machine.execGovernorCapMessage t pier cap sent s
  | .ringStart t r instant banks failing epochChanges => Sys2Proof.Machine.execRingStart t r instant banks failing epochChanges s
  | .pcieResetRelease t => Sys2Proof.Machine.execPcieResetRelease t s
  | .linkUp t speed width => Sys2Proof.Machine.execLinkUp t speed width s
  | .linkDown t => Sys2Proof.Machine.execLinkDown t s
  | .busMasterSet t => Sys2Proof.Machine.execBusMasterSet t s
  | .busMasterClear t => Sys2Proof.Machine.execBusMasterClear t s
  | .functionLevelReset t => Sys2Proof.Machine.execFunctionLevelReset t s
  | .d3hotEntry t => Sys2Proof.Machine.execD3hotEntry t s
  | .fatalError t => Sys2Proof.Machine.execFatalError t s
  | .mailboxRead t slot target index sub length tag e => Sys2Proof.Machine.execMailboxRead t slot target index sub length tag e s
  | .mailboxWrite t slot target index sub tag data e => Sys2Proof.Machine.execMailboxWrite t slot target index sub tag data e s
  | .mailboxTableDownload t slot target index tag address table e => Sys2Proof.Machine.execMailboxTableDownload t slot target index tag address table e s
  | .mailboxTableUpload t slot target index length tag address e => Sys2Proof.Machine.execMailboxTableUpload t slot target index length tag address e s
  | .mailboxComplete t slot => Sys2Proof.Machine.execMailboxComplete t slot s
  | .tunnelTargetTimeout t slot => Sys2Proof.Machine.execTunnelTargetTimeout t slot s
  | .queueEnable t r queue same => Sys2Proof.Machine.execQueueEnable t r queue same s
  | .queueDisable t r queue same => Sys2Proof.Machine.execQueueDisable t r queue same s
  | .queueErrorClear t queue => Sys2Proof.Machine.execQueueErrorClear t queue s
  | .ackPositionWrite t r queue position => Sys2Proof.Machine.execAckPositionWrite t r queue position s
  | .coalesceTimer t queue => Sys2Proof.Machine.execCoalesceTimer t queue s
  | .hostStallTimer t queue withMove => Sys2Proof.Machine.execHostStallTimer t queue withMove s
  | .interruptCauseClear t high mask firing => Sys2Proof.Machine.execInterruptCauseClear t high mask firing s
  | .interruptTask t k => Sys2Proof.Machine.execInterruptTask t k s
  | .nmtStartRemoteNode t node => Sys2Proof.Machine.execNmtStartRemoteNode t node s
  | .nmtStopRemoteNode t node => Sys2Proof.Machine.execNmtStopRemoteNode t node s
  | .nmtEnterPreOperational t node => Sys2Proof.Machine.execNmtEnterPreOperational t node s
  | .nmtResetCommunication t node => Sys2Proof.Machine.execNmtResetCommunication t node s
  | .nmtResetNode t node => Sys2Proof.Machine.execNmtResetNode t node s
  | .usdoRequest t client index sub body e => Sys2Proof.Machine.execUsdoRequest t client index sub body e s
  | .canSyncReceived t => Sys2Proof.Machine.execCanSyncReceived t s
  | .tpdoTask t n withSync => Sys2Proof.Machine.execTpdoTask t n withSync s
  | .tpdoChangeCheck t => Sys2Proof.Machine.execTpdoChangeCheck t s
  | .tpdoEventTimer t n => Sys2Proof.Machine.execTpdoEventTimer t n s
  | .rpdoReceived t n data e => Sys2Proof.Machine.execRpdoReceived t n data e s
  | .emcyInhibitExpiry t => Sys2Proof.Machine.execEmcyInhibitExpiry t s
  | .canErrorPassive t tec rec_ => Sys2Proof.Machine.execCanErrorPassive t tec rec_ s
  | .canBusOff t => Sys2Proof.Machine.execCanBusOff t s
  | .busOffRecovery t => Sys2Proof.Machine.execBusOffRecovery t s
  | .heartbeatTimer t => Sys2Proof.Machine.execHeartbeatTimer t s
  | .smbRequest t op index sub offset len data pecOk e => Sys2Proof.Machine.execSmbRequest t op index sub offset len data pecOk e s
  | .smbResponse t => Sys2Proof.Machine.execSmbResponse t s
  | .smbStatus t => Sys2Proof.Machine.execSmbStatus t s
  | .smbAlertCauseRead t => Sys2Proof.Machine.execSmbAlertCauseRead t s
  | .smbAlertCauseWrite t mask again pecOk => Sys2Proof.Machine.execSmbAlertCauseWrite t mask again pecOk s
  | .smbTemperature t => Sys2Proof.Machine.execSmbTemperature t s
  | .smbPowerRequest t value pecOk => Sys2Proof.Machine.execSmbPowerRequest t value pecOk s
  | .smbAlertResponse t lost again => Sys2Proof.Machine.execSmbAlertResponse t lost again s
  | .smbAlertTask t => Sys2Proof.Machine.execSmbAlertTask t s
  | .smbSclTimeout t withStop => Sys2Proof.Machine.execSmbSclTimeout t withStop s
  | .smbResponseHoldExpiry t => Sys2Proof.Machine.execSmbResponseHoldExpiry t s
  | .smbSleepStart t => Sys2Proof.Machine.execSmbSleepStart t s
  | .smbSleepIdleExpiry t => Sys2Proof.Machine.execSmbSleepIdleExpiry t s
  | .custodyEnrol t r board record => Sys2Proof.Machine.execCustodyEnrol t r board record s
  | .custodyPropose t r board offset data othersRun => Sys2Proof.Machine.execCustodyPropose t r board offset data othersRun s
  | .proposalIncompleteTimeout t board => Sys2Proof.Machine.execProposalIncompleteTimeout t board s
  | .custodyVerdict t r board record withExpiry othersRun => Sys2Proof.Machine.execCustodyVerdict t r board record withExpiry othersRun s
  | .proposalWindowExpiry t => Sys2Proof.Machine.execProposalWindowExpiry t s
  | .commitComplete t => Sys2Proof.Machine.execCommitComplete t s
  | .recoveryDelayExpiry t withDecline => Sys2Proof.Machine.execRecoveryDelayExpiry t withDecline s
  | .recoveryProgressSave t => Sys2Proof.Machine.execRecoveryProgressSave t s
  | .recoveryReminder t => Sys2Proof.Machine.execRecoveryReminder t s
  | .stageCheckComplete t => Sys2Proof.Machine.execStageCheckComplete t s
  | .fwWriteSlot t r => Sys2Proof.Machine.execFwWriteSlot t r s
  | .slotWriteComplete t verified => Sys2Proof.Machine.execSlotWriteComplete t verified s
  | .fwActivate t r othersRun => Sys2Proof.Machine.execFwActivate t r othersRun s
  | .fwConfirm t r withExpiry => Sys2Proof.Machine.execFwConfirm t r withExpiry s
  | .trialExpiry t => Sys2Proof.Machine.execTrialExpiry t s
  | .attestNonce t r nonce => Sys2Proof.Machine.execAttestNonce t r nonce s
  | .powerOn t => Sys2Proof.Machine.execPowerOn t s
  | .resetPin t => Sys2Proof.Machine.execResetPin t s
  | .supplyFault t => Sys2Proof.Machine.execSupplyFault t s
  | .railLow t rail mv => Sys2Proof.Machine.execRailLow t rail mv s
  | .railsGoodAgain t => Sys2Proof.Machine.execRailsGoodAgain t s
  | .sequenceViolation t rail => Sys2Proof.Machine.execSequenceViolation t rail s
  | .refLost t => Sys2Proof.Machine.execRefLost t s
  | .pcieRefLost t => Sys2Proof.Machine.execPcieRefLost t s
  | .pcieRefRestored t => Sys2Proof.Machine.execPcieRefRestored t s
  | .crystalFail t => Sys2Proof.Machine.execCrystalFail t s
  | .thermalTrip t => Sys2Proof.Machine.execThermalTrip t s
  | .pierResetRelease t bootFail => Sys2Proof.Machine.execPierResetRelease t s bootFail
  | .dictionaryReset t r => Sys2Proof.Machine.execDictionaryReset t r s
  | .coreRestartRequest t r => Sys2Proof.Machine.execCoreRestartRequest t r s
  | .coreWatchdogExpiry t => Sys2Proof.Machine.execCoreWatchdogExpiry t s
  | .coresRunning t => Sys2Proof.Machine.execCoresRunning t s
  | .deepSleepRequest t r => Sys2Proof.Machine.execDeepSleepRequest t r s
  | .wakeRequest t r => Sys2Proof.Machine.execWakeRequest t r s
  | .sleepConditionMet t early withExpiry => Sys2Proof.Machine.execSleepConditionMet t early withExpiry s
  | .sleepWaitExpiry t => Sys2Proof.Machine.execSleepWaitExpiry t s
  | .wakeSource t source same => Sys2Proof.Machine.execWakeSource t source same s
  | .railLatch t railMv => Sys2Proof.Machine.execRailLatch t railMv s
  | .thermalReading t case_ die withEvaluation => Sys2Proof.Machine.execThermalReading t case_ die withEvaluation s
  | .governorEvaluation t => Sys2Proof.Machine.execGovernorEvaluation t s
  | .tapReset t => Sys2Proof.Machine.execTapReset t s
  | .extest t scan => Sys2Proof.Machine.execExtest t scan s
  | .idcode t scan => Sys2Proof.Machine.execIdcode t scan s
  | .samplePreload t scan => Sys2Proof.Machine.execSamplePreload t scan s
  | .clamp t scan => Sys2Proof.Machine.execClamp t scan s
  | .highz t scan => Sys2Proof.Machine.execHighz t scan s
  | .extestPulse t scan => Sys2Proof.Machine.execExtestPulse t scan s
  | .extestTrain t scan => Sys2Proof.Machine.execExtestTrain t scan s
  | .bypass t code scan => Sys2Proof.Machine.execBypass t code scan s
  | .mbistStart t r same => Sys2Proof.Machine.execMbistStart t r same s
  | .mbistAbort t r same => Sys2Proof.Machine.execMbistAbort t r same s
  | .mbistComplete t errors first rows => Sys2Proof.Machine.execMbistComplete t errors first rows s
  | .spanLoopback t r span mode errors => Sys2Proof.Machine.execSpanLoopback t r span mode errors s
  | .faultLogSelect t r number => Sys2Proof.Machine.execFaultLogSelect t r number s
  | .faultLogClear t r => Sys2Proof.Machine.execFaultLogClear t r s
  | .diagClear t r again => Sys2Proof.Machine.execDiagClear t r again s
  | .headIsolate t r h same => Sys2Proof.Machine.execHeadIsolate t r h same s
  | .headRelease t r h => Sys2Proof.Machine.execHeadRelease t r h s
  | .pprHarden t r => Sys2Proof.Machine.execPprHarden t r s
  | .indexPulse t a => Sys2Proof.Machine.execIndexPulse t a s
  | .aerCorrectableError t => Sys2Proof.Machine.execAerCorrectableError t s
  | .pcieLoopbackEntry t => Sys2Proof.Machine.execPcieLoopbackEntry t s

end Sys2Proof.Machine
end

