-- ==== Sys2Proof/WellFormed.lean ====
section
/-! DEFINITION. Which commands can reach the block: the bounds that their operands' types do not state. -/
namespace Sys2Proof

/-- The protocol faults of a segmented or block transfer (R58). -/
def Machine.AbortCode.isProtocol : Machine.AbortCode → Bool
  | .toggle | .specifier | .blockSize | .blockSequence | .blockCrc | .outOfMemory => true
  | _ => false

/-- Whether a command is one that can reach the block. -/
def Instr.wellFormed (i : Instr) : Bool :=
  match i with
  | .dictionaryWrite _ _ _ _ data _ => decide (data.length ≤ 1024)
  | .bar0Write _ off size _ _ _ => decide ((size = 4 ∨ size = 8) ∧ off.toNat % size = 0)
  | .bar0UnsupportedAccess _ x => decide (1 ≤ x.size ∧ x.size ≤ 4096)
  | .levelWrite _ _ _ _ _ => true
  | .save _ _ _ _ => true
  | .saveComplete _ => true
  | .restore _ _ _ _ => true
  | .tableDownloadSegment _ _ _ _ _ _ _ _ fault _ => decide (fault.all Machine.AbortCode.isProtocol)
  | .transferTimeout _ _ _ => true
  | .featuresConfirm _ _ _ => true
  | .featuresBase _ _ _ => true
  | .headStart _ _ _ _ _ => true
  | .headPllLocked _ _ _ chain => decide (chain ≤ 255)
  | .headLockTimeout _ _ => true
  | .headStop _ _ _ _ => true
  | .headLockLost _ _ => true
  | .timeTrigger _ _ _ => true
  | .scheduledTrigger _ _ _ => true
  | .pinTrigger _ _ _ _ => true
  | .triggerTask _ _ _ => true
  | .triggerFire _ _ _ _ => true
  | .exposureEnd _ _ => true
  | .windowClose _ _ video _ => decide (video.samples.length = 16)
  | .triggerTimeout _ _ _ => true
  | .triggerCountReached _ _ => true
  | .syncPulseTask _ _ => true
  | .lineLeavesQueue _ _ => true
  | .rangeCommit _ _ _ _ _ => true
  | .pedestalLoopUpdate _ _ => true
  | .ilvWindowComplete _ _ => true
  | .ilvFreeze _ _ _ _ => true
  | .ilvUnfreeze _ _ _ _ => true
  | .ilvConvergenceTimeout _ _ _ => true
  | .tempHoldExpiry _ _ => true
  | .shadowReadyWrite _ _ _ _ => true
  | .corrSwap _ _ _ _ _ => true
  | .corrPrepare _ _ _ _ => true
  | .prepareComplete _ _ => true
  | .calStart _ _ _ _ => true
  | .calAbort _ _ _ _ => true
  | .calPhaseEnd _ _ => true
  | .calDeriveComplete _ _ _ => true
  | .stitchShadowReady _ _ _ _ => true
  | .stitchSwap _ _ _ _ _ => true
  | .stitchCalStart _ _ _ _ => true
  | .stitchCalAbort _ _ _ _ => true
  | .stitchCalPhaseEnd _ _ => true
  | .stitchDeriveComplete _ _ _ => true
  | .captureTriggerFire _ _ _ => true
  | .burstTriggerTask _ _ => true
  | .burstTriggerPin _ _ _ => true
  | .captureTriggerDue _ _ => true
  | .burstBroadcastReceived _ _ _ => true
  | .captureArm _ _ _ => true
  | .captureDisarm _ _ _ => true
  | .captureDiscard _ _ _ => true
  | .ringRecordArrives _ _ _ slot => decide (slot.length % 64 = 0)
  | .drainLevelPublish _ => true
  | .levelReportReceived _ _ level paced _ => decide (level < 65536 ∧ paced.last.all (· < 2 ^ 48) ∧ paced.loads.length ≤ 4)
  | .levelTimeout _ => true
  | .pageStart _ _ _ _ _ => true
  | .pageEnd _ _ _ _ => true
  | .forcedPause _ _ _ _ => true
  | .pageRelease _ _ _ _ => true
  | .pageAxisAtRest _ => true
  | .parkReached _ => true
  | .resumeConditionsMet _ _ => true
  | .idleLineTimer _ => true
  | .idleMarkReceived _ _ _ => true
  | .axisEnable _ _ _ _ _ => true
  | .axisDisable _ _ _ _ => true
  | .axisDisableComplete _ _ => true
  | .moveTo _ _ _ _ _ => true
  | .jog _ _ _ _ _ => true
  | .home _ _ _ _ => true
  | .homingReferenceFound _ _ => true
  | .homingFailed _ _ => true
  | .halt _ _ _ _ => true
  | .quickStop _ _ _ _ => true
  | .clearMotionFault _ _ _ _ => true
  | .profileUpdate _ _ => true
  | .pwmPeriod _ _ _ _ _ => true
  | .holdCurrentDelay _ _ => true
  | .encoderEdge _ _ _ => true
  | .encoderCrossing _ _ _ => true
  | .encoderError _ _ => true
  | .deviationTrip _ _ _ => true
  | .deviationRealign _ _ => true
  | .limitSwitchActive _ _ _ => true
  | .limitSwitchRelease _ _ _ => true
  | .powerStageFault _ _ _ => true
  | .broadcastClaim _ _ _ _ _ => true
  | .positionBroadcast _ => true
  | .crossingReceived _ _ _ _ => true
  | .broadcastTriggerDue _ _ _ => true
  | .positionLatchReceived _ _ _ => true
  | .seqRestart _ _ _ _ => true
  | .illumBlank _ _ _ => true
  | .illumUnblank _ _ _ => true
  | .boostAdapt _ _ => true
  | .boostOvervoltage _ _ => true
  | .selectFrameComplete _ _ => true
  | .excitationOff _ _ => true
  | .excitationOn _ _ => true
  | .excitationOverload _ _ => true
  | .excitationOverloadClear _ _ => true
  | .clampEngage _ _ _ => true
  | .clampRelease _ _ => true
  | .clampRecoveryEnd _ _ => true
  | .clampClear _ _ _ engaging => decide (engaging.all (· < 16))
  | .wireBreakTrip _ _ => true
  | .wireBreakClear _ _ => true
  | .echoPeriod _ _ => true
  | .seqStart _ _ _ => true
  | .seqStop _ _ _ => true
  | .seqStopComplete _ => true
  | .refBufferOn _ => true
  | .refBufferReady _ => true
  | .passStart _ _ => true
  | .entryExecution _ _ => true
  | .conversionComplete _ _ _ => true
  | .chopReversal _ => true
  | .continuousTestPulse _ _ => true
  | .filterWindowBoundary _ _ => true
  | .fifoRead _ _ => true
  | .fifoBar0Read _ => true
  | .fifoFlush _ _ => true
  | .taskSelectWrite _ _ _ _ => true
  | .taskLatchSampled _ _ railMv _ => decide (railMv.length ≤ 11 ∧ railMv.all (· < 65536))
  | .relayInput _ _ in0 in1 => decide ((in0 || in1) = true)
  | .stormWindowClose _ _ => true
  | .stormRearm _ _ _ => true
  | .fabricFire _ _ _ => true
  | .timerATask _ _ _ => true
  | .timerBTask _ _ _ => true
  | .timerPeriodEnd _ _ _ => true
  | .alarmDue _ _ _ => true
  | .dmaShadowLoad _ _ _ _ => true
  | .dmaGo _ p c _ => decide (p = .task → 4 ≤ c.val)
  | .dmaStop _ _ _ _ => true
  | .dmaFence _ _ _ => true
  | .dmaEmptyShadow _ _ _ => true
  | .dmaAbandonSlot _ _ => true
  | .dmaRequest _ c _ => decide (4 ≤ c.val)
  | .dmaFenceTask _ => true
  | .dmaStopTask _ _ => true
  | .dmaBeat _ _ fill0 fill1 data => decide (fill0 ≤ 65536 ∧ fill1 ≤ 65536 ∧ data.length ≤ 64)
  | .dmaLinkFetchDone _ _ => true
  | .dmaBusError _ _ kind _ _ _ => decide (1 ≤ kind ∧ kind ≤ 6)
  | .dmaRingAckTimeout _ _ _ _ => true
  | .fenceProven _ _ => true
  | .softRepair _ _ _ => true
  | .spanTraining _ _ => true
  | .spanRetrain _ _ _ => true
  | .trainingComplete _ _ _ _ _ _ => true
  | .laneFailure _ _ _ _ => true
  | .spareInService _ _ => true
  | .spanDown _ _ => true
  | .dataFrameReceived _ _ frame _ _ => decide (frame.dest < 64 ∧ frame.src < 64)
  | .replayRequest _ _ _ => true
  | .messageForward _ _ m => decide (m.banks.length = 4)
  | .tunnelRequestReceived _ _ _ _ _ _ _ data _ _ => decide (data.length ≤ 4064)
  | .ringDmaFrame _ _ bytes => decide (bytes.length ≤ 4096)
  | .ackFrameReceived _ _ _ _ => true
  | .pathHoldEnd _ _ => true
  | .timeSyncSend _ => true
  | .timeSyncReceived _ _ _ => true
  | .hopDelayExchange _ _ _ => true
  | .holdoverTimeout _ => true
  | .timeSourceRegained _ _ => true
  | .timeLatch _ => true
  | .epochChange _ info _ => decide (info.members ≠ 0)
  | .epochJoin _ info other _ _ _ _ => decide (info.members ≠ 0 ∧ other ≠ 0)
  | .ringWideWrite _ _ _ _ _ => true
  | .governorCapMessage _ _ _ _ => true
  | .ringStart _ _ _ banks _ _ => decide (banks.length = 4)
  | .pcieResetRelease _ => true
  | .linkUp _ _ width => decide (width = 1 ∨ width = 2 ∨ width = 4 ∨ width = 8)
  | .linkDown _ => true
  | .busMasterSet _ => true
  | .busMasterClear _ => true
  | .functionLevelReset _ => true
  | .d3hotEntry _ => true
  | .fatalError _ => true
  | .mailboxRead _ _ _ _ _ _ _ _ => true
  | .mailboxWrite _ _ _ _ _ _ data _ => decide (data.length ≤ 4064)
  | .mailboxTableDownload _ _ _ _ _ _ _ _ => true
  | .mailboxTableUpload _ _ _ _ _ _ _ _ => true
  | .mailboxComplete _ _ => true
  | .tunnelTargetTimeout _ _ => true
  | .queueEnable _ _ _ _ => true
  | .queueDisable _ _ _ _ => true
  | .queueErrorClear _ _ => true
  | .ackPositionWrite _ _ _ _ => true
  | .coalesceTimer _ _ => true
  | .hostStallTimer _ _ _ => true
  | .interruptCauseClear _ _ _ firing => decide (firing.all (· < 64))
  | .interruptTask _ _ => true
  | .nmtStartRemoteNode _ _ => true
  | .nmtStopRemoteNode _ _ => true
  | .nmtEnterPreOperational _ _ => true
  | .nmtResetCommunication _ _ => true
  | .nmtResetNode _ _ => true
  | .usdoRequest _ _ _ _ body _ => decide (body.write.all (fun d => d.length ≤ 1024))
  | .canSyncReceived _ => true
  | .tpdoTask _ _ _ => true
  | .tpdoChangeCheck _ => true
  | .tpdoEventTimer _ _ => true
  | .rpdoReceived _ _ data _ => decide (data.length ≤ 64)
  | .emcyInhibitExpiry _ => true
  | .canErrorPassive _ _ _ => true
  | .canBusOff _ => true
  | .busOffRecovery _ => true
  | .heartbeatTimer _ => true
  | .smbRequest _ _ _ _ _ _ data _ _ => decide (data.length ≤ 240)
  | .smbResponse _ => true
  | .smbStatus _ => true
  | .smbAlertCauseRead _ => true
  | .smbAlertCauseWrite _ _ _ _ => true
  | .smbTemperature _ => true
  | .smbPowerRequest _ _ _ => true
  | .smbAlertResponse _ _ _ => true
  | .smbAlertTask _ => true
  | .smbSclTimeout _ _ => true
  | .smbResponseHoldExpiry _ => true
  | .smbSleepStart _ => true
  | .smbSleepIdleExpiry _ => true
  | .custodyEnrol _ _ _ record => decide (record.length ≤ 1024)
  | .custodyPropose _ _ _ offset data _ => decide (offset.toNat + data.length ≤ 1024)
  | .proposalIncompleteTimeout _ _ => true
  | .custodyVerdict _ _ _ record _ _ => decide (record.length ≤ 1024)
  | .proposalWindowExpiry _ => true
  | .commitComplete _ => true
  | .recoveryDelayExpiry _ _ => true
  | .recoveryProgressSave _ => true
  | .recoveryReminder _ => true
  | .stageCheckComplete _ => true
  | .fwWriteSlot _ _ => true
  | .slotWriteComplete _ _ => true
  | .fwActivate _ _ _ => true
  | .fwConfirm _ _ _ => true
  | .trialExpiry _ => true
  | .attestNonce _ _ nonce => decide (nonce.length ≤ 1024)
  | .powerOn _ => true
  | .resetPin _ => true
  | .supplyFault _ => true
  | .railLow _ _ _ => true
  | .railsGoodAgain _ => true
  | .sequenceViolation _ _ => true
  | .refLost _ => true
  | .pcieRefLost _ => true
  | .pcieRefRestored _ => true
  | .crystalFail _ => true
  | .thermalTrip _ => true
  | .pierResetRelease _ _ => true
  | .dictionaryReset _ _ => true
  | .coreRestartRequest _ _ => true
  | .coreWatchdogExpiry _ => true
  | .coresRunning _ => true
  | .deepSleepRequest _ _ => true
  | .wakeRequest _ _ => true
  | .sleepConditionMet _ _ _ => true
  | .sleepWaitExpiry _ => true
  | .wakeSource _ _ _ => true
  | .railLatch _ railMv => decide (railMv.length = 11 ∧ railMv.all (· < 65536))
  | .thermalReading _ case_ die _ => decide (-32768 ≤ case_ ∧ case_ ≤ 32767 ∧ -32768 ≤ die ∧ die ≤ 32767)
  | .governorEvaluation _ => true
  | .tapReset _ => true
  | .extest _ _ => true
  | .idcode _ _ => true
  | .samplePreload _ _ => true
  | .clamp _ _ => true
  | .highz _ _ => true
  | .extestPulse _ _ => true
  | .extestTrain _ _ => true
  | .bypass _ code _ => decide (code.toNat ∉ [0x00, 0x01, 0x02, 0x04, 0x05, 0x09, 0x0A])
  | .mbistStart _ _ _ => true
  | .mbistAbort _ _ _ => true
  | .mbistComplete _ _ _ _ => true
  | .spanLoopback _ _ _ _ _ => true
  | .faultLogSelect _ _ _ => true
  | .faultLogClear _ _ => true
  | .diagClear _ _ _ => true
  | .headIsolate _ _ _ _ => true
  | .headRelease _ _ _ => true
  | .pprHarden _ _ => true
  | .indexPulse _ _ => true
  | .aerCorrectableError _ => true
  | .pcieLoopbackEntry _ => true

end Sys2Proof
end

