-- ==== Sys2Proof/Safety.lean ====
section
/-! DEFINITION. The terms in which claims speak: how a command ends, when a dictionary request is accepted or answered, what a command
owes to the route that asked for it, what a sound pier is, and what a command leaves as it is. -/
namespace Sys2Proof
open Machine

/-- The command ends in a next state whose queue is the one it found and whose pier is `b` once what ends every command is done: the
power state and the local cap follow, and the events raised pass the fabric. -/
def Does (i : Instr) (s : State) (b : Block) : Prop := exec i s = .next { s with b := b.finish }

/-- The command ends in a next state whose queue is the one it found and whose pier has the property. -/
def Ends (i : Instr) (s : State) (p : Block → Prop) : Prop := ∃ n, exec i s = .next n ∧ n.pending = s.pending ∧ p n.b

namespace Machine.Block

/-- The answer left on the route. -/
def Answered (r : Route) (res : Result) (b : Block) : Prop := Out.answer r res ∈ b.outs

/-- The source fired. -/
def Fired (n : Nat) (b : Block) : Prop := Out.event n ∈ b.outs

/-- The arbiter accepts the write of a number to an object. -/
def acceptsObj (e : Env) (r : Route) (o : Obj) (v : Nat) (b : Block) : Bool := b.accepts e r o.index o.sub (leBytes (o.ty.bits / 8) v)

/-- A request by write or by task reaches its block: the arbiter accepts the write of v to the object, or the block of the task takes
tasks and its latch is not awaited. -/
def reaches (r : Option Route) (o : Obj) (v task : Nat) (e : Env) (b : Block) : Prop :=
  match r with
  | some r => b.acceptsObj e r o v = true
  | none => b.taskAlive task = true

/-- The pier as the request finds it: a task's latch is cleared as it is sampled. -/
def cleared (r : Option Route) (task : Nat) (b : Block) : Block := match r with | some _ => b | none => b.unlatch task

/-- The answer to a request: a write is answered on its route, a task is not answered. -/
def answered (r : Option Route) (res : Result) (b : Block) : Block := match r with | some r => b.reply r res | none => b

/-- Who asked. -/
def viaOf (r : Option Route) (task : Nat) (b : Block) : Via := match r with | some r => .write r | none => .task (b.stampOf task)

/-- The pier's stores are in canonical form: registers and tables by rising key, and the buffer by rising address without an entry that
reads the same unlisted. -/
def Canonical (b : Block) : Prop := Map.wf b.regs = true ∧ Map.wf b.tables = true ∧ memWf b.mem = true

/-! ## Frames -/

/-- The parts of a pier that are no registers; one head, one of its paths, or one axis is a part of its own. -/
inductive Piece
  | tables | faults | can | smb
  | head (h : HeadId) | video (h : HeadId) | corr (h : HeadId) | stitch (h : HeadId) | illum (h : HeadId)
  | capture
  | axis (a : AxisId)
  | keystone | aux | ring | dma | mem | host | power | thermal | test | repair | saved | control | custody | firmware | attest | fabric
  deriving DecidableEq, Repr

/-- The registers that follow the routes of the heads on the ring. -/
def routeRegs : List Obj := (List.finRange 4).flatMap fun (h : HeadId) =>
  [Obj.ringRouteAbutment h, Obj.ringRouteSpan h, Obj.ringRouteAbutmentInForce h, Obj.ringRouteSpanInForce h]

/-- The registers that a pause of a page touches. -/
def pageRegs : List Obj := (List.finRange 2).flatMap fun (a : AxisId) =>
  [Obj.axisKeystonePauseTime a, Obj.axisKeystonePauses a, Obj.axisKeystoneAbortedRunups a, Obj.axisKeystoneLastKept a,
   Obj.axisKeystoneParkPosition a]

/-- The registers that a descriptor's end and the next one's activation touch. -/
def dmaRegs : List Obj := (List.finRange 32).flatMap fun (c : ChanId) =>
  descObjs true c.val ++ descObjs false c.val ++ [Obj.dmaPending c, Obj.dmaBad c, Obj.dmaBadAddress c]

/-- The registers that follow the offers of the abutments. -/
def offerRegs : List Obj :=
  [Obj.ringAbutmentA, Obj.ringAbutmentB, Obj.axisKeystoneCeiling 0, Obj.axisKeystoneCeiling 1, Obj.ringCoincidences] ++ routeRegs ++ pageRegs ++
    dmaRegs

/-- The registers that a new epoch touches. -/
def epochRegs : List Obj :=
  [Obj.ringPierNumber, Obj.deviceColumnBase, Obj.ringConfigured, Obj.ringEpoch, Obj.ringLeader, Obj.ringMembers, Obj.ringEpochChanges,
   Obj.ringTimeSplit, Obj.ringTimeSource, Obj.ringTimeState, Obj.ringTopology, Obj.axisSourcePier 0, Obj.axisSourcePier 1, Obj.axisBroadcast 0,
   Obj.axisBroadcast 1, Obj.deviceLineRateCap] ++ offerRegs

/-- The parts that a change of the ring's abutments, spans or members touches. -/
def ringParts : List Piece :=
  [.ring, .dma, .keystone, .axis 0, .axis 1, .faults, .smb, .can, .host, .thermal, .head 0, .head 1, .head 2, .head 3]

/-- The registers of the delivery queues. -/
def queueRegs : List Obj := (List.range 16).flatMap fun q =>
  [Obj.hostQueueBase q, Obj.hostQueueSizeLog2 q, Obj.hostQueueEnable q, Obj.hostQueueWritePos q, Obj.hostQueueAckPos q, Obj.hostQueueShadow q,
   Obj.hostQueueCoalesceBytes q, Obj.hostQueueCoalesceUs q, Obj.hostQueueStallUs q]

/-- The frame of a command: from b to n every part but those of P is left as it is, and every register but those of R. The events that wait
to be routed, what has left the pier, and the count of the open values taken are no part of it. -/
structure Leaves (P : List Piece) (R : List Obj) (b n : Block) : Prop where
  now : n.now = b.now
  part : n.part = b.part
  reg : ∀ o : Obj, (∀ x ∈ R, o.key ≠ x.key) → n.reg o = b.reg o
  fabric : Piece.fabric ∉ P → { n.fabric with queue := [] } = { b.fabric with queue := [] }
  tables : Piece.tables ∉ P → n.tables = b.tables
  faults : Piece.faults ∉ P → n.faults = b.faults
  can : Piece.can ∉ P → n.can = b.can
  smb : Piece.smb ∉ P → n.smb = b.smb
  capture : Piece.capture ∉ P → n.capture = b.capture
  keystone : Piece.keystone ∉ P → n.keystone = b.keystone
  aux : Piece.aux ∉ P → n.aux = b.aux
  ring : Piece.ring ∉ P → n.ring = b.ring
  dma : Piece.dma ∉ P → n.dma = b.dma
  mem : Piece.mem ∉ P → n.mem = b.mem
  host : Piece.host ∉ P → n.host = b.host
  power : Piece.power ∉ P → n.power = b.power
  thermal : Piece.thermal ∉ P → n.thermal = b.thermal
  test : Piece.test ∉ P → n.test = b.test
  repair : Piece.repair ∉ P → n.repair = b.repair
  saved : Piece.saved ∉ P → n.saved = b.saved
  control : Piece.control ∉ P → n.control = b.control
  custody : Piece.custody ∉ P → n.custody = b.custody
  firmware : Piece.firmware ∉ P → n.firmware = b.firmware
  attest : Piece.attest ∉ P → n.attest = b.attest
  heads : ∀ h : HeadId, Piece.head h ∉ P → n.heads[h] = b.heads[h]
  video : ∀ h : HeadId, Piece.video h ∉ P → n.video[h] = b.video[h]
  corr : ∀ h : HeadId, Piece.corr h ∉ P → n.corr[h] = b.corr[h]
  stitch : ∀ h : HeadId, Piece.stitch h ∉ P → n.stitch[h] = b.stitch[h]
  illum : ∀ h : HeadId, Piece.illum h ∉ P → n.illum[h] = b.illum[h]
  axes : ∀ a : AxisId, Piece.axis a ∉ P → n.axes[a] = b.axes[a]

end Machine.Block
end Sys2Proof
end

