-- ==== Sys2Proof/Certificates/Slice0/Obligations.lean ====
section
/-! DEFINITION. The statements for the provers: one obligation for each rule, or group of rules, about what a command does. -/
section
open Sys2Proof Sys2Proof.Machine Sys2Proof.Machine.Block

/-! ## The step, the stores, and what ends every command -/

/-- STEP: the command at the front of the queue runs on the pier with the queue's rest. With no command waiting the pier idles; the second
clause is the model's choice (log entry 1). -/
def Obligations.StepRunsFrontCommand : Prop :=
  (∀ (c : Instr) (rest : List Instr) (s : State),
     step { s with pending := c :: rest } = exec c { s with pending := rest }) ∧
  (∀ s : State, s.pending = [] → step s = .next s)

/-- Every command, in every state and with every operand, answers a next state, and leaves the queue that it finds. -/
def Obligations.EveryCommandAnswers : Prop := ∀ (c : Instr) (s : State), ∃ n, exec c s = .next n ∧ n.pending = s.pending

/-- The pier's stores stay canonical under every step: registers and tables by rising key, the buffer by rising address without an entry
that reads the same unlisted. -/
def Obligations.StoresStayCanonical : Prop := ∀ s n : State, s.b.Canonical → step s = .next n → n.b.Canonical

/-- After every step that runs a command, and through every idle one, the power state shown is that of the sleep and of the heads (R529),
the local cap reads what the governor's step and the fastest head give, 0 in thermal hold, and this pier's own cap is that cap (R545, R546;
without a running head there is no fastest one, and that the cap then stays what it was is the model's choice). Where the spec leaves a
point open, the model's choice stands (log entries 81 and 82). -/
def Obligations.PowerAndCapFollow : Prop := ∀ s n : State,
  let follows (b : Block) : Prop := b.power.shown = b.powerState ∧
    b.reg Obj.thermalLocalCap = (if b.reg Obj.thermalState = 3 then 0 else b.steppedCap) % 2 ^ 32 ∧
    b.thermal.own = b.steppedCap
  (s.pending ≠ [] → step s = .next n → follows n.b) ∧ (follows s.b → step s = .next n → follows n.b)

/-- State.reset is the pier held after a power-on reset: the stores are canonical and nothing waits, the cause is power-on and one reset is
counted, no feature is confirmed, every head and axis is stopped, the capture buffer lists nothing, the fault log is empty and its first
entry will be number 1, and what follows the heads follows (R48, R526, R527, R579). Where the spec leaves a point open, the model's choice
stands (log entries 10, 11 and 13). -/
def Obligations.ResetState : Prop := let b := State.reset.b
  State.reset.pending = [] ∧ b.Canonical ∧ b.power.phase = .held ∧ b.reg Obj.powerResetCause = 1 ∧ b.reg Obj.powerResets = 1 ∧
  b.reg Obj.deviceFeaturesConfirmedLo = 0 ∧ b.reg Obj.deviceFeaturesConfirmedHi = 0 ∧ b.reg Obj.deviceFeaturesControl = 0 ∧
  (∀ h : HeadId, b.heads[h].state = .stopped) ∧ (∀ a : AxisId, b.axes[a].state = .stopped) ∧ b.mem.cells = [] ∧
  b.faults.entries = [] ∧ b.faults.last = 0 ∧ b.faults.oldest = 1 ∧ b.served = false ∧ b.power.shown = b.powerState ∧
  (∀ t < 512, b.select t = 0xFFFF) ∧ b.reg Obj.canNodeIdInForce = 127

/-- What ends every command leaves the heads, the buffer, the tables and every register but those that follow from the power state and the
cap; what has left the pier stays in its record. -/
def Obligations.FinishLeaves : Prop := ∀ b : Block,
  let n := b.finish
  n.now = b.now ∧ n.part = b.part ∧ n.tables = b.tables ∧ n.heads = b.heads ∧ n.video = b.video ∧ n.corr = b.corr ∧ n.stitch = b.stitch ∧
  n.illum = b.illum ∧ n.capture = b.capture ∧ n.aux = b.aux ∧ n.ring = b.ring ∧ n.mem = b.mem ∧ n.host = b.host ∧ n.test = b.test ∧
  n.repair = b.repair ∧ n.saved = b.saved ∧ n.control = b.control ∧ n.custody = b.custody ∧ n.firmware = b.firmware ∧ n.attest = b.attest ∧
  (∀ o : Obj, o.sub < 256 → o.index ∉ [0x2002, 0x2003, 0x2230, 0x2506, 0x2605, 0x2701, 0x4163, 0x4164, 0x41E3, 0x41E4] → n.reg o = b.reg o) ∧
  ∀ x ∈ b.outs, x ∈ n.outs

/-- A run of bytes written to the buffer reads back, every byte outside it reads as before, and the buffer stays in its canonical form; a
range whose contents are lost reads open bytes, and every byte outside it reads as before (R200, R527). Where the spec leaves a point open,
the model's choice stands (log entry 11). -/
def Obligations.BufferWrites : Prop := ∀ (m : Buffer) (a : Nat), memWf m = true →
  (∀ bytes : List Byte, memWf (memPutRun m a bytes) = true ∧ (∀ (i : Nat) (v : Byte), bytes[i]? = some v → memGet (memPutRun m a bytes) (a + i) = v) ∧
    ∀ x : Nat, x < a ∨ a + bytes.length ≤ x → memGet (memPutRun m a bytes) x = memGet m x) ∧
  (∀ n k : Nat, memWf (memWipe m a n k) = true ∧
    (∀ x : Nat, a ≤ x → x < a + n → memGet (memWipe m a n k) x = BitVec.ofNat 8 (Config.freeNat (k + (x - a)))) ∧
    ∀ x : Nat, x < a ∨ a + n ≤ x → memGet (memWipe m a n k) x = memGet m x) ∧
  (∀ (b : Block) (n i : Nat), b.mem = m → i < n → (b.memRead a n)[i]? = some (memGet m (a + i)))

/-! ## The dictionary and BAR0 -/

/-- DICTIONARY_WRITE and LEVEL_WRITE: an accepted write of an object that does no more than hold its value stores it and is answered. -/
def Obligations.AcceptedWriteIsStored : Prop := ∀ (t : Time) (r : Route) (e : Env) (s : State),
  (∀ (index : BitVec 16) (sub : BitVec 8) (data : List Byte) (row : Row), findRow index.toNat sub.toNat = some row →
    (s.b.at_ t).accepts e r index.toNat sub.toNat data = true → (s.b.at_ t).writeDo e r index.toNat sub.toNat (leNat data) = none →
    Does (.dictionaryWrite t r index sub data e) s (((s.b.at_ t).storeFor r (row.obj index.toNat sub.toNat) (leNat data)).reply r .ok)) ∧
  (∀ (index : BitVec 16) (sub : BitVec 8) (data : List Byte) (row : Row) (b : Block), findRow index.toNat sub.toNat = some row →
    (s.b.at_ t).accepts e r index.toNat sub.toNat data = true → (s.b.at_ t).writeDo e r index.toNat sub.toNat (leNat data) = some b →
    Does (.dictionaryWrite t r index sub data e) s b) ∧
  (∀ (index : BitVec 16) (level : BitVec 8) (row : Row), findRow index.toNat 1 = some row →
    (s.b.at_ t).accepts e r index.toNat 1 [level] = true → (s.b.at_ t).writeDo e r index.toNat 1 level.toNat = none →
    Does (.levelWrite t r index level e) s (((s.b.at_ t).storeFor r (row.obj index.toNat 1) level.toNat).reply r .ok)) ∧
  (∀ (o : Obj) (v : Nat), (s.b.at_ t).nextWrite (routePlace r) o.key = none → headIndex o.index = none →
    ((s.b.at_ t).storeFor r o v).reg o = v % 2 ^ o.ty.bits) ∧
  (∀ (h : HeadId) (level : BitVec 8), (s.b.at_ t).accepts e r (0x3000 + 0x400 * h.val) 1 [level] = true →
    (s.b.at_ t).nextWrite (routePlace r) (Obj.headPatternLevel h).key = none →
    Ends (.levelWrite t r (BitVec.ofNat 16 (0x3000 + 0x400 * h.val)) level e) s fun n =>
      n.functionLevel (0x3000 + 0x400 * h.val) = (if s.b.feature 0 then level.toNat else 0) ∧ n.Answered r .ok ∧ n.mem = s.b.mem ∧
      ∀ g : HeadId, n.heads[g].state = s.b.heads[g].state ∧ n.heads[g].lines = s.b.heads[g].lines)

/-- DICTIONARY_WRITE, TABLE_DOWNLOAD_SEGMENT, LEVEL_WRITE: a write that breaks access rules is answered once, with the first of its codes in
the order 0x0E5A_0004, 0x0E5A_0006, 0x0E5A_0005, and the object keeps its value (R4); the level of a function is not set to 1 without
feature bit 0 (R42). -/
def Obligations.RefusedWrites : Prop := ∀ (t : Time) (r : Route) (e : Env) (index : BitVec 16) (sub : BitVec 8) (s : State),
  let b := s.b.at_ t
  let i := index.toNat
  let k := sub.toNat
  let first (l : List AbortCode) (c : AbortCode) : Prop := c ∈ l ∧ ∀ d ∈ l, c.rank ≤ d.rank
  b.served = true →
  AbortCode.countersign.rank < AbortCode.level.rank ∧ AbortCode.level.rank < AbortCode.notStopped.rank ∧
  (AbortCode.countersign.value, AbortCode.level.value, AbortCode.notStopped.value) = (0x0E5A0004, 0x0E5A0006, 0x0E5A0005) ∧
  (∀ (row : Row) (data : List Byte), findRow i k = some row → row.ty.bits ≠ 0 → b.writeCodes e r row i k data ≠ [] → ∃ (c : AbortCode) (n : Block),
    (if data.length * 8 = row.ty.bits then first (b.writeCodes e r row i k data ++ b.actionCodes e i k (leNat data)) c
      else first (b.writeCodes e r row i k data) c) ∧ Does (.dictionaryWrite t r index sub data e) s n ∧
    (n.outs.filter fun x => match x with | .answer _ _ => true | _ => false) = [.answer r (.abort c)] ∧
    (i ≠ 0x2013 → n.reg (row.obj i k) = b.reg (row.obj i k)) ∧ n.heads = s.b.heads ∧ n.mem = s.b.mem ∧ n.tables = s.b.tables ∧ n.axes = s.b.axes) ∧
  (∀ (row : Row) (data : List Byte), findRow i k = some row → row.ty.bits = 0 → b.accessCodes r i k row ≠ [] →
    ∃ c : AbortCode, (∀ d ∈ b.accessCodes r i k row, c.rank ≤ d.rank) ∧ Does (.dictionaryWrite t r index sub data e) s (b.reply r (.abort c))) ∧
  (∀ (row : Row) (size : Option Nat) (data : List Byte) (last crcOk late : Bool) (fault : Option AbortCode), (∀ c : Fin 128, r ≠ .can c) →
    findRow i 0 = some row → b.accessCodes r i 0 row ≠ [] → b.transferOf r i = none →
    ∃ c : AbortCode, (∀ d ∈ b.accessCodes r i 0 row, c.rank ≤ d.rank) ∧
      Does (.tableDownloadSegment t r index true size data last crcOk fault late) s (b.reply r (.abort c))) ∧
  (∀ row : Row, isControl i = true → findRow i 1 = some row → b.feature 0 = false → r ≠ .smbus →
    Does (.levelWrite t r index 1 e) s (b.reply r (.abort .feature)))

/-- BAR0_WRITE and BAR0_UNSUPPORTED_ACCESS: with the link up a write of 4 or 8 aligned bytes acts on its registers, a mask of the DMA engine
takes its value, a register that only reads drops the write and counts it; an access of another size or alignment is dropped and counted, or
is an unsupported request; a read that BAR0 takes returns its bytes. A write of BAR0 that the dictionary would refuse, or to a register that
only reads, changes nothing but the count of dropped writes (R29, R442). Where the spec leaves a point open, the model's choice stands (log
entries 66, 67 and 116). -/
def Obligations.Bar0Accesses : Prop :=
  (∀ (t : Time) (s : State), s.b.host.linkUp = true →
     let b := s.b.at_ t
     (∀ (off : BitVec 20) (v : BitVec 64) (table : List Byte) (e : Env), off.toNat % 4 = 0 →
       Does (.bar0Write t off 4 v table e) s (b.barDword off.toNat (v.toNat % 2 ^ 32) table e)) ∧
     (∀ (off : BitVec 20) (v : BitVec 64) (table : List Byte) (e : Env), off.toNat % 8 = 0 → isQueue64 off.toNat = false →
       Does (.bar0Write t off 8 v table e) s (b.barPair off.toNat v.toNat table e)) ∧
     (∀ (v : BitVec 64) (table : List Byte) (e : Env), s.b.ring.minority = false → b.nextWrite 0 Obj.dmaFenceMask.key = none →
       b.nextWrite 0 Obj.dmaStopMask.key = none →
       Does (.bar0Write t 0x12000 4 v table e) s (b.setReg Obj.dmaFenceMask (v.toNat % 2 ^ 32)) ∧
       Does (.bar0Write t 0x12004 4 v table e) s (b.setReg Obj.dmaStopMask (v.toNat % 2 ^ 32))) ∧
     (∀ (v : BitVec 64) (table : List Byte) (e : Env),
       Does (.bar0Write t 0x12008 4 v table e) s (b.modHost fun x => { x with dropped := satAdd x.dropped 1 max32 })) ∧
     (∀ (off : BitVec 20) (size : Nat),
       ((size ≠ 4 ∧ size ≠ 8) ∨ off.toNat % size ≠ 0 →
         Does (.bar0UnsupportedAccess t ⟨off, size, true⟩) s (b.modHost fun x => { x with dropped := satAdd x.dropped 1 max32 })) ∧
       (barReadable off.toNat size = false → Does (.bar0UnsupportedAccess t ⟨off, size, false⟩) s (b.emit .unsupported)) ∧
       (barReadable off.toNat size = true → Does (.bar0UnsupportedAccess t ⟨off, size, false⟩) s (b.barRead off.toNat size)))) ∧
  (∀ (q : QueueId) (v : Nat) (b : Block), b.host.linkUp = true →
     (b.reg (Obj.hostQueueEnable q) ≠ 0 → b.barWrite (0x30008 + 64 * q.val) 4 v [] Env.quiet =
       b.modHost fun x => { x with dropped := satAdd x.dropped 1 max32 }) ∧
     (∀ c : ChanId, c.val < 4 → b.barWrite (0x10080 + 256 * c.val) 4 v [] Env.quiet = b.modHost fun x => { x with dropped := satAdd x.dropped 1 max32 }) ∧
     (b.barWrite (0x30010 + 64 * q.val) 8 v [] Env.quiet = b.modHost fun x => { x with dropped := satAdd x.dropped 1 max32 }))

/-- SAVE, SAVE_COMPLETE, RESTORE: a save records the values of its groups and is answered once they are the loaded generation; a restore
marks its groups for deletion. FEATURES_CONFIRM and FEATURES_BASE: the accepted set, or the base profile, takes force,
`device.features.control` reads 2, or 0, and the write is answered. Where the spec leaves a point open, the model's choice stands (log entry
90). -/
def Obligations.SavesRestoresAndFeatures : Prop :=
  (∀ (t : Time) (r : Route) (s : State),
     (∀ (g : Fin 4) (v : BitVec 32), (s.b.at_ t).acceptsObj Env.quiet r (Obj.commSave g.val) v.toNat = true →
       Does (.save t r g v) s { s.b.at_ t with control := { s.b.control with
         save := some ⟨r, Vector.ofFn fun (k : Fin 3) => if (groupsOf (1 + g.val)).contains k then some ((s.b.at_ t).savedNow k) else none⟩ } }) ∧
     (∀ x : SaveRun, s.b.control.save = some x → Ends (.saveComplete t) s fun n =>
       n.control = { s.b.control with save := none } ∧ n.Answered x.route .ok ∧ n.mem = s.b.mem ∧ n.heads = s.b.heads ∧
       ∀ k : Fin 3, n.saved[k] = match x.sets[k] with | some y => ⟨some y, false, false⟩ | none => s.b.saved[k]) ∧
     (∀ (g : Fin 4) (v : BitVec 32), (s.b.at_ t).acceptsObj Env.quiet r (Obj.commRestore g.val) v.toNat = true →
       Ends (.restore t r g v) s fun n => n.Answered r .ok ∧ n.mem = s.b.mem ∧ n.heads = s.b.heads ∧
         ∀ k : Fin 3, n.saved[k] = if k ∈ groupsOf (1 + g.val) then { s.b.saved[k] with delete := true } else s.b.saved[k])) ∧
  (∀ (t : Time) (r : Route) (others : Bool) (s : State),
     let b := s.b.at_ t
     let e : Env := { Env.quiet with othersAgree := others }
     (b.acceptsObj e r Obj.deviceFeaturesControl 1 = true → Does (.featuresConfirm t r others) s
       (((((b.setReg Obj.deviceFeaturesConfirmedLo (b.reg Obj.deviceFeaturesAcceptedLo)).setReg Obj.deviceFeaturesConfirmedHi
         (b.reg Obj.deviceFeaturesAcceptedHi)).setReg Obj.deviceFeaturesControl 2).failoverFollow others).reply r .ok)) ∧
     (b.acceptsObj e r Obj.deviceFeaturesControl 2 = true → Does (.featuresBase t r others) s
       (((((b.setReg Obj.deviceFeaturesConfirmedLo 0).setReg Obj.deviceFeaturesConfirmedHi 0).setReg Obj.deviceFeaturesControl 0).failoverFollow
         false).reply r .ok)))

/-- TABLE_DOWNLOAD_SEGMENT and TRANSFER_TIMEOUT, on every route that serves them: a download that nothing refuses begins; a segment is
staged in the table region and added to it; the final block, with every check passed, takes force at once and is answered; a transfer silent
for more than 1 s ends with 0x0504_0000. Where the spec leaves a point open, the model's choice stands (log entries 23, 24 and 91). -/
def Obligations.TableDownloads : Prop := ∀ (t : Time) (r : Route) (index : BitVec 16) (s : State), s.b.served = true →
  let b := s.b.at_ t
  let opens := ∀ c : Fin 128, r = .can c → b.usdoServes = true ∧ b.can.sessions.contains c.val = true
  (∀ (size : Option Nat) (crcOk : Bool), opens → b.transferOf r index.toNat = none → b.tableCodes r index.toNat = [] →
    (b.control.transfers.any fun x => x.index == index.toNat && x.kind == .table) = false →
    (∀ n, size = some n → tableSizeOk index.toNat n = true) →
    Does (.tableDownloadSegment t r index true size [] false crcOk none false) s ((b.shadowUnready index.toNat).modControl fun c =>
      { c with transfers := c.transfers ++ [⟨r, index.toNat, 0, .table, size, [], [], t⟩] })) ∧
  (∀ (x : Transfer) (bytes : List Byte) (crcOk : Bool), opens → b.transferOf r index.toNat = some x → passed x.lastAt (tSec + 1) t = false →
    let more := takeSpace bytes.length (freeSpace tableArea b.stagesHeld)
    let y := { x with lastAt := t, place := x.place ++ more }
    bytes.length ≤ placeSize more →
    Does (.tableDownloadSegment t r index false none bytes false crcOk none false) s ((b.placeWrite more bytes).transferPut y) ∧
    (index.toNat ≠ 0x6060 → let c := (b.placeWrite more bytes).transferPut y
      let new := c.placeRead y.place
      c.tableCodes x.route x.index = [] → c.contentCodes x.index new = [] → (∀ n, x.size = some n → n = new.length) →
      Does (.tableDownloadSegment t r index false none bytes true true none false) s
        (((c.transferDrop r index.toNat).setTable index.toNat new).reply r .ok))) ∧
  (∀ x : Transfer, b.transferOf r index.toNat = some x → passed x.lastAt (tSec + 1) t = true →
    Does (.transferTimeout t r index) s ((b.modControl fun c =>
      { c with transfers := c.transfers.filter fun y => !(y.route == r && y.index == index.toNat) }).reply r (.abort .timedOut)))

/-! ## Heads -/

/-- HEAD_START and HEAD_LOCK_TIMEOUT: a start by write or task that passes every check of R95 begins; where its bank is within 10 % the head
waits for its lock, and where it is not the start is refused; a head whose clock is there and that has not locked by its deadline answers
0x0606_0000 and returns to state 0. HEAD_PLL_LOCKED: a head that locks within the bounds of step 3 with its whole select chain runs, its
start is answered, and its events are raised, unless its list has nothing left to fire; the pins found shorted are disabled; a wrong chain
refuses the start. HEAD_STOP, HEAD_LOCK_LOST, TRIGGER_COUNT_REACHED: a head stops accepting triggers, ends its calibrations and finishes its
lines; a running head that loses lock is faulted without its lines in flight, with its outputs at their idle levels. Where the spec leaves a
point open, the model's choice stands (log entries 31, 93 and 94). -/
def Obligations.HeadsStartAndStop : Prop :=
  (∀ (t : Time) (r : Option Route) (h : HeadId) (bankMv : BitVec 16) (s : State),
     let b := s.b.at_ t
     let c := b.cleared r (headTaskNo h 1)
     let nominal := if b.reg (Obj.headPatternBank h) = 0 then 3300 else 1800
     (b.reaches r (Obj.headPatternCommand h) 1 (headTaskNo h 1) { Env.quiet with start := .alone, banks := List.replicate 4 bankMv.toNat } →
       (c.startDerive h).headStartViolations h = [] →
       Does (.headStart t r h .alone bankMv) s (c.startGo h [b.viaOf r (headTaskNo h 1)] bankMv.toNat) ∧
       (nominal * 9 ≤ bankMv.toNat * 10 → bankMv.toNat * 10 ≤ nominal * 11 → Ends (.headStart t r h .alone bankMv) s fun n =>
         n.heads[h].state = .starting ∧ n.heads[h].startVia = [b.viaOf r (headTaskNo h 1)] ∧
         n.heads[h].startDeadline = later t (lockTime (b.reg (Obj.headClockSource h))) ∧ n.heads[h].lines = [] ∧ n.heads[h].nextSeq = 0 ∧
         n.mem = s.b.mem ∧ ∀ g : HeadId, g ≠ h → n.heads[g] = s.b.heads[g]) ∧
       (bankMv.toNat * 10 < nominal * 9 ∨ nominal * 11 < bankMv.toNat * 10 → Ends (.headStart t r h .alone bankMv) s fun n =>
         n.heads[h].state ≠ .starting ∧ n.heads[h].startVia = [] ∧ n.mem = s.b.mem ∧ ∀ x : Route, r = some x → n.Answered x (.abort .incompatible))) ∧
     (b.heads[h].state = .starting → b.clockPresent h = true → due b.heads[h].startDeadline t = true →
       Does (.headLockTimeout t h) s (b.startFail h .hardware false 0))) ∧
  (∀ (t : Time) (h : HeadId) (shorts : BitVec 20) (chain : Nat) (s : State),
     let b := s.b.at_ t
     let c := b.setReg (Obj.headIllumShorts h) shorts.toNat
     b.heads[h].state = .starting → b.clockPresent h = true → passed b.heads[h].stateSince (40 * tUs) t = true →
     0 ≤ timeDiff b.heads[h].startDeadline t →
     (chain = 16 * b.reg (Obj.headIllumExtDrivers h) →
       Does (.headPllLocked t h shorts chain) s
         ((if shorts = 0 then c else (c.logFault 0x0013 h.val shorts.toNat (headSource h 45)).raise (headSource h 45)).enterRunning h) ∧
       (b.reg (Obj.headTriggerSource h) ≠ 2 → Ends (.headPllLocked t h shorts chain) s fun n =>
         n.heads[h].state = .running ∧ n.heads[h].startVia = [] ∧ n.heads[h].everRun = true ∧ n.Fired (headSource h 7) ∧
         n.Fired (headSource h 10) ∧ (∀ r : Route, Via.write r ∈ s.b.heads[h].startVia → n.Answered r .ok) ∧ n.mem = s.b.mem ∧
         ∀ g : HeadId, g ≠ h → n.heads[g] = s.b.heads[g])) ∧
     (chain ≠ 16 * b.reg (Obj.headIllumExtDrivers h) → Does (.headPllLocked t h shorts chain) s (b.startFail h .incompatible false 0))) ∧
  (∀ (t : Time) (r : Option Route) (h : HeadId) (s : State),
     let b := s.b.at_ t
     let c := b.cleared r (headTaskNo h 2)
     (b.reaches r (Obj.headPatternCommand h) 2 (headTaskNo h 2) Env.quiet →
       Does (.headStop t r h false) s ((c.headStop h).answered r .ok) ∧
       (b.heads[h].state = .running → b.heads[h].lines ≠ [] → Does (.headStop t r h false) s
         ((((c.modHead h fun x => { x with state := .stopping, nextDue := none, owed := [], stateSince := t }).calFail h 9).stitchCalFail h
           9).answered r .ok)) ∧
       (b.heads[h].state = .running → b.heads[h].lines = [] → b.heads[h].isolateVia = [] → Ends (.headStop t r h false) s fun n =>
         n.heads[h].state = .stopped ∧ n.heads[h].edges = [] ∧ n.heads[h].nextDue = none ∧ n.Fired (headSource h 11) ∧ n.mem = s.b.mem ∧
         (∀ x : Route, r = some x → n.Answered x .ok) ∧ ∀ g : HeadId, g ≠ h → n.heads[g] = s.b.heads[g])) ∧
     (b.heads[h].state = .running ∨ b.heads[h].state = .stopping → Does (.headLockLost t h) s
       ((((((b.discardLines h).modHead h fun x => { x with state := .faulted, nextDue := none, owed := [], stateSince := t }).outputsRest h
         0).setReg (Obj.headClockLocked h) 0).raise (headSource h 6)).windowStop h) ∧
       ((b.discardLines h).heads[h].lines = [])) ∧
     (b.heads[h].state = .running → b.countReached h = true →
       Does (.triggerCountReached t h) s ((b.raise (headSource h 15)).headStop h)))

/-- TIME_TRIGGER, SCHEDULED_TRIGGER, PIN_TRIGGER, TRIGGER_TASK, TRIGGER_FIRE, BROADCAST_TRIGGER_DUE: a trigger of the source that the head
selects reaches the head with the instant of its arrival and its exposure start; the delays that the spec only bounds are open values. Where
the spec leaves a point open, the model's choice stands (log entries 28, 30 and 92). -/
def Obligations.TriggersReachTheHead : Prop := ∀ (t : Time) (h : HeadId) (meet : Meet) (s : State),
  let b := s.b.at_ t
  let src := b.reg (Obj.headTriggerSource h)
  (∀ d : Time, src = 0 → b.heads[h].state = .running → b.heads[h].nextDue = some d → due d t = true →
    (b.insideCap h d = false →
      let c := b.triggerMeet h meet none false 0 d (onGrid d) none
      Does (.timeTrigger t h meet) s (c.modHead h fun x => { x with nextDue := some (later d (c.periodNow h)) })) ∧
    (b.insideCap h d = true → Does (.timeTrigger t h meet) s
      (b.modHead h fun x => { x with nextDue := x.lastTrigger.map fun u => later u b.capTicks }))) ∧
  (∀ d : Time, src = 1 ∨ src = 2 → b.heads[h].state = .running → b.heads[h].nextDue = some d → due d t = true →
    Does (.scheduledTrigger t h meet) s (((b.used.triggerMeet h meet (some b.heads[h].nextIndex) true 0 d
      (b.freeAround (b.scheduleSlack h) d) none).armScheduled h (b.heads[h].nextIndex + 1)).listEnd h)) ∧
  (∀ (pin : Fin 2) (falling : Bool) (width : Nat), b.pinSeen h width = true →
    (src = 5 + pin.val ∧ b.isSet (Obj.headTriggerPinEdge h) = falling → Does (.pinTrigger t ⟨h, falling, width⟩ pin meet) s
      ((b.raise (headSource h (13 + pin.val))).triggerMeet h meet none false 0 t
        (later (onGrid t) (Config.pinDelay % (180 * tNs + 1) + pinFilterTicks (b.reg (Obj.headTriggerPinFilter h)))) none)) ∧
    (src ≠ 5 + pin.val ∨ b.isSet (Obj.headTriggerPinEdge h) ≠ falling → Does (.pinTrigger t ⟨h, falling, width⟩ pin meet) s
      (b.raise (headSource h (13 + pin.val))))) ∧
  (src = 7 → b.taskAlive (headTaskNo h 0) = true → Does (.triggerTask t h meet) s
    ((b.unlatch (headTaskNo h 0)).used.triggerMeet h meet none false
      (flagIf (match b.fabric.latches.get? (headTaskNo h 0) with | some l => l.merged | none => false) 11) t
      (later t (b.freeUpTo (40 * tNs))) none)) ∧
  (∀ r : Route, b.isSet (Obj.headTriggerSwEnable h) = true ∨ src = 8 → b.acceptsObj { Env.quiet with meet := meet } r (Obj.headTriggerFire h) 1 = true →
    Does (.triggerFire t r h meet) s ((b.used.triggerMeet h meet none false 0 t (later t (b.freeUpTo (2 * tUs))) none).reply r .ok)) ∧
  (∀ (o : Owed) (rest : List Owed) (k : Nat), b.heads[h].owed = o :: rest → o.k = some k → due o.at_ t = true → b.heads[h].held = false →
    b.heads[h].nextIndex ≤ k →
    let c := b.latchDue
    Does (.broadcastTriggerDue t h meet) s ((c.used.modHead h fun x => { x with owed := rest }).indexedTrigger h meet k o.flags o.at_
      (c.freeAround (c.scheduleSlack h) o.at_) (some o.at_)))

/-- TIME_TRIGGER: a due trigger outside every minimum makes one line of the head: it is counted, takes the head's next sequence and its own
instant, on the 488 ps grid, as exposure start, and no other head changes (R76, R79, R82). Where the spec leaves a point open, the model's
choice stands (log entries 5 and 92). -/
def Obligations.AcceptedTriggerMakesALine : Prop := ∀ (t d : Time) (h : HeadId) (s : State),
  let b := s.b.at_ t
  b.reg (Obj.headTriggerSource h) = 0 → b.heads[h].state = .running → b.heads[h].nextDue = some d → due d t = true →
  b.heads[h].lastTrigger = none → b.countReached h = false →
  Ends (.timeTrigger t h .alone) s fun n =>
    n.heads[h].lines.length = s.b.heads[h].lines.length + 1 ∧
    (n.heads[h].lines.getLast?.map fun l => (l.seq, l.tE, l.idle)) = some (s.b.heads[h].nextSeq % 2 ^ 48, onGrid d, false) ∧
    n.heads[h].nextSeq = s.b.heads[h].nextSeq + 1 ∧ n.heads[h].acceptedRun = s.b.heads[h].acceptedRun + 1 ∧ n.heads[h].lastTrigger = some d ∧
    n.Fired (headSource h 0) ∧ n.Fired (headSource h 1) ∧ n.mem = s.b.mem ∧ ∀ g : HeadId, g ≠ h → n.heads[g] = s.b.heads[g]

/-- EXPOSURE_END, WINDOW_CLOSE, LINE_LEAVES_QUEUE, TRIGGER_TIMEOUT, SYNC_PULSE_TASK: the window of a line follows the end of its exposure
and never the one before it; a line whose window closes enters the queue; a line that leaves the queue is the head's last record, and of the
buffer only the head's delay area and its partition are written; a gap raises its event once; a head that has run pulses its sync output.
Where the spec leaves a point open, the model's choice stands (log entries 33 and 34). -/
def Obligations.LinesAreReadOut : Prop := ∀ (t : Time) (h : HeadId) (s : State),
  let b := s.b.at_ t
  (∀ (i : Nat) (l : Line), (b.heads[h].lines.findIdx? fun l => !l.exposed) = some i → b.heads[h].lines[i]? = some l →
    let open0 := fineLater l.tX (b.reg (Obj.headPatternReadoutOffset h) * uCoarse)
    let delay := match b.heads[h].lastWindowEnd with | some e => (fineDiff e open0).toNat | none => 0
    Ends (.exposureEnd t h) s fun n =>
      n.heads[h].lastWindowEnd = some (fineLater (fineLater open0 delay) (b.windowUnits h)) ∧
      n.heads[h].lines.length = b.heads[h].lines.length ∧ n.Fired (headSource h 2) ∧ n.mem = s.b.mem) ∧
  (∀ (l : Line) (rest : List Line) (v : Video) (lamps : LampReport), b.heads[h].lines = l :: rest → l.exposed = true →
    Ends (.windowClose t h v lamps) s fun n => n.Fired (headSource h 3) ∧ n.mem = s.b.mem ∧
      (l.idle = false → b.heads[h].queue.length < 8 → n.heads[h].queue.length = b.heads[h].queue.length + 1)) ∧
  (∀ (q : QueuedLine) (rest : List QueuedLine), b.heads[h].queue = q :: rest → q.line.waitsPosition = false →
    (∀ xs ∈ q.segments, xs.length ≤ 1024) →
    Ends (.lineLeavesQueue t h) s fun n => n.heads[h].queue = rest ∧ n.reg (Obj.headOutputLastSequence h) = q.line.seq % 2 ^ 64 ∧
      (∀ g : HeadId, g ≠ h → n.heads[g] = s.b.heads[g]) ∧
      ∀ a : Nat, a < delayPlace h.val 0 0 ∨ delayPlace h.val 0 0 + 0x01000000 ≤ a →
        (∀ p ∈ b.partitionArea h b.capture.partitions[h].skip, a < p.1 ∨ p.1 + p.2 ≤ a) → memGet n.mem a = memGet b.mem a) ∧
  (b.reg (Obj.headTriggerTimeout h) ≠ 0 → b.heads[h].state = .running → b.heads[h].gapRaised = false →
    passed (b.heads[h].lastTrigger.getD b.heads[h].stateSince) (b.reg (Obj.headTriggerTimeout h) * tUs) t = true →
    Does (.triggerTimeout t h false) s ((b.modHead h fun x => { x with gapRaised := true }).raise (headSource h 5)) ∧
    Does (.triggerTimeout t h true) s (b.bump (Obj.headTriggerNearMisses h))) ∧
  (b.taskAlive (headTaskNo h 3) = true →
    (b.reg (Obj.headSyncMode h) = 3 → b.heads[h].everRun = true →
      Does (.syncPulseTask t h) s ((b.unlatch (headTaskNo h 3)).syncOut h (fineOf t) (b.reg (Obj.headSyncWidth h) * uCoarse))) ∧
    (b.reg (Obj.headSyncMode h) ≠ 3 ∨ b.heads[h].everRun = false → Does (.syncPulseTask t h) s (b.unlatch (headTaskNo h 3))))

/-- RANGE_COMMIT, PEDESTAL_LOOP_UPDATE, ILV_WINDOW_COMPLETE, ILV_FREEZE, ILV_UNFREEZE, ILV_CONVERGENCE_TIMEOUT. Where the spec leaves a
point open, the model's choice stands (log entry 99). -/
def Obligations.VideoLoops : Prop := ∀ (t : Time) (h : HeadId) (s : State),
  let b := s.b.at_ t
  (∀ (r : Route) (set : BitVec 16), b.acceptsObj Env.quiet r (Obj.headVideoRangeCommit h) set.toNat = true →
    Does (.rangeCommit t (some r) h set false) s ((b.corrArmOrTake h (.range (b.stagedGains h) set.toNat) 0 false).reply r .ok)) ∧
  (∀ set : BitVec 16, b.taskAlive (headTaskNo h 6) = true → b.commitViolations h (b.reg (Obj.headVideoRangeTaskSet h)) = [] →
    Does (.rangeCommit t none h set false) s ((b.unlatch (headTaskNo h 6)).corrArmOrTake h
      (.range (b.stagedGains h) (b.reg (Obj.headVideoRangeTaskSet h))) 1 false)) ∧
  (∀ r : Option Route, b.reaches r (Obj.headVideoIlvFreeze h) 1 (headTaskNo h 4) Env.quiet → Does (.ilvFreeze t r h false) s
    (((b.cleared r (headTaskNo h 4)).ilvAsk h true).answered r .ok)) ∧
  (∀ r : Option Route, b.reaches r (Obj.headVideoIlvFreeze h) 0 (headTaskNo h 5) Env.quiet → Does (.ilvUnfreeze t r h false) s
    (((b.cleared r (headTaskNo h 5)).ilvAsk h false).answered r .ok)) ∧
  (∀ freeze : Bool, (b.ilvAsk h freeze).video[h].freezeNext = some freeze) ∧
  (256 ≤ b.video[h].pedestalLines → let c := (b.openWindows h).modVideo h fun v => { v with pedestalLines := 0 }
    Does (.pedestalLoopUpdate t h) s (if c.videoLevel h = 1 ∨ c.reg (Obj.headLayoutObCount h) = 0 then
      c.modVideo h fun v => { v with inputs := v.inputs.map fun x => { x with obSum := 0, obCount := 0 } }
     else (List.finRange 16).foldl (fun (b : Block) (k : SegId) => b.pedestalStep h k) c)) ∧
  (∀ ready : List SegId, ready ≠ [] → ((List.finRange 16).filter fun (k : SegId) => b.segmentOn h k && b.video[h].inputs[k].status != 4 &&
      b.video[h].inputs[k].status != 7 && b.ilvComplete h k) = ready → Does (.ilvWindowComplete t h) s
    (((ready.foldl (fun b k => b.ilvInputWindow h k) (b.openWindows h)).modVideo h fun v => { v with kind := 0 }).convergedCheck h)) ∧
  (b.reg (Obj.headVideoIlvTimeout h) ≠ 0 → b.video[h].timeoutRaised = false → b.reg (Obj.headVideoIlvTimeout h) ≤ b.video[h].linesSince →
    b.video[h].converged = false →
    Does (.ilvConvergenceTimeout t h false) s ((b.modVideo h fun v => { v with timeoutRaised := true }).raise (headSource h 22)) ∧
    Does (.ilvConvergenceTimeout t h true) s (b.bump (Obj.headVideoIlvNearMisses h)))

/-- TEMP_HOLD_EXPIRY, SHADOW_READY_WRITE, CORR_SWAP, CORR_PREPARE, PREPARE_COMPLETE. An armed swap or range change waits for the line
boundary of a head that runs, and takes force at once on a head that is stopped (R120, R150, R152): active and shadow exchange their places
and their numbers, and the swap is counted and raised. Where the spec leaves a point open, the model's choice stands (log entry 38). -/
def Obligations.CorrectionSetsAndSwaps : Prop :=
  (∀ (t : Time) (h : HeadId) (s : State),
     let b := s.b.at_ t
     (b.reg (Obj.headCorrBarChannel h) ≠ 0xFF → b.reg (Obj.headCorrTempState h) < 2 → b.tempStale h = true →
       Does (.tempHoldExpiry t h) s (b.setTempState h 2) ∧ (b.setTempState h 2).reg (Obj.headCorrTempState h) = 2 ∧
       (b.reg (Obj.headLinMode h) = 0 → (b.setTempState h 2).Fired (headSource h 25))) ∧
     (∀ (r : Route) (set : BitVec 16), b.acceptsObj Env.quiet r (Obj.headCorrShadowReady h) set.toNat = true →
       Does (.shadowReadyWrite t r h set) s ((b.storeFor r (Obj.headCorrShadowReady h) set.toNat).reply r .ok)) ∧
     (∀ (r : Route) (set : BitVec 16), b.acceptsObj Env.quiet r (Obj.headCorrSwap h) set.toNat = true →
       Does (.corrSwap t (some r) h set false) s ((b.corrArmOrTake h .swap 2 false).reply r .ok)) ∧
     (∀ set : BitVec 16, b.taskAlive (headTaskNo h 9) = true → b.swapViolations h (b.shadowSet h).number = [] →
       Does (.corrSwap t none h set false) s ((b.unlatch (headTaskNo h 9)).corrArmOrTake h .swap 3 false)) ∧
     (∀ (r : Route) (set : BitVec 16), b.acceptsObj Env.quiet r (Obj.headCorrPrepare h) set.toNat = true → b.corr[h].prepare = none →
       Does (.corrPrepare t r h set) s (b.modCorr h fun c => { c with prepare := some (set.toNat, b.stagedGains h, .write r) })) ∧
     (∀ (n : Nat) (staged : List Nat) (v : Via), b.corr[h].prepare = some (n, staged, v) →
       Does (.prepareComplete t h) s ((((((b.setShadow h (prepareSet (b.activeSet h) n (b.reg (Obj.headLayoutActive h)) staged (b.gainsInForce h))).setReg (Obj.headCorrShadowReady h)
         n).modCorr h fun x => { x with prepare := none }).raise (headSource h 30)).replyVia v .ok)))) ∧
  (∀ (h : HeadId) (rank : Nat) (b : Block),
     (b.headStopped h = false → b.corrArmOrTake h .swap rank false = b.modCorr h fun c =>
       { c with armed := some .swap, armedRank := rank, armedAt := some b.now, armedOld := b.armedBefore h, armedCounted := false }) ∧
     (b.headStopped h = true → let n := b.corrArmOrTake h .swap rank false
       n.activeSet h = b.shadowSet h ∧ n.shadowSet h = b.activeSet h ∧ n.reg (Obj.headCorrSetInForce h) = (b.shadowSet h).number % 2 ^ 16 ∧
       n.reg (Obj.headCorrShadowReady h) = (b.activeSet h).number % 2 ^ 16 ∧ Out.event (headSource h 27) ∈ n.outs ∧ n.mem = b.mem ∧ n.heads = b.heads))

/-- CAL_START, CAL_ABORT, CAL_PHASE_END, CAL_DERIVE_COMPLETE. Where the spec leaves a point open, the model's choice stands (log entry 19).
-/
def Obligations.Calibrations : Prop := ∀ (t : Time) (h : HeadId) (s : State),
  let b := s.b.at_ t
  let begun : Calibration := ⟨1, b.reg (Obj.headCalSettleLines h), b.reg (Obj.headCalDarkLines h), b.reg (Obj.headCalWhiteLines h),
    b.reg (Obj.headCalGreyLines h), 0, [], [], [], 0, 0, 0, false⟩
  (∀ r : Option Route, b.reaches r (Obj.headCalCommand h) 1 (headTaskNo h 7) Env.quiet → b.calViolations h = [] →
    Does (.calStart t r h false) s ((((b.cleared r (headTaskNo h 7)).modCorr h fun x => { x with cal := begun, autoOwed := false }).setReg
      (Obj.headCalStatus h) 1).answered r .ok)) ∧
  (∀ r : Option Route, b.reaches r (Obj.headCalCommand h) 2 (headTaskNo h 8) Env.quiet → b.corr[h].cal.phase ≠ 0 →
    Does (.calAbort t r h false) s (((((b.cleared r (headTaskNo h 8)).modCorr h fun c => { c with cal := noCal }).setReg (Obj.headCalStatus h)
      9).raise (headSource h 29)).answered r .ok)) ∧
  (∀ c : Calibration, b.corr[h].cal = c → c.phase = 1 ∨ c.phase = 3 ∨ c.phase = 5 → calTarget c ≤ c.done →
    Does (.calPhaseEnd t h) s ((b.modCorr h fun x => { x with cal := { c with phase := c.phase + 1, done := 0 } }).setReg (Obj.headCalStatus h)
      (calStatusOf (c.phase + 1)))) ∧
  (∀ c : CorrSet, b.corr[h].cal.phase = 7 → b.calDerive h = some c →
    Does (.calDeriveComplete t h false) s ((((((b.used.setShadow h c).setReg (Obj.headCorrShadowReady h) c.number).modCorr h fun x =>
      { x with cal := noCal }).setReg (Obj.headCalStatus h) 5).raise (headSource h 28)).corrArmOrTake h .swap 4 false)) ∧
  (b.corr[h].cal.phase = 7 → b.calDerive h = none → Does (.calDeriveComplete t h false) s (b.calFail h 8))

/-- STITCH_SHADOW_READY, STITCH_SWAP, STITCH_CAL_START, STITCH_CAL_ABORT, STITCH_CAL_PHASE_END, STITCH_DERIVE_COMPLETE. Where the spec
leaves a point open, the model's choice stands (log entry 39). -/
def Obligations.StitchingGeometry : Prop := ∀ (t : Time) (h : HeadId) (s : State),
  let b := s.b.at_ t
  (∀ (r : Route) (set : BitVec 16), b.acceptsObj Env.quiet r (Obj.headStitchShadowReady h) set.toNat = true →
    Does (.stitchShadowReady t r h set) s ((b.storeFor r (Obj.headStitchShadowReady h) set.toNat).reply r .ok)) ∧
  (∀ (r : Option Route) (set : BitVec 16), b.reaches r (Obj.headStitchSwap h) set.toNat (headTaskNo h 12) Env.quiet → b.geometryReady h ≠ 0xFFFF →
    Does (.stitchSwap t r h set false) s
      (((b.cleared r (headTaskNo h 12)).geometryArm h (if r.isSome then 0 else 1) false).answered r .ok)) ∧
  (∀ rank : Nat, let n := b.geometryArm h rank false
    (b.headStopped h = false → n.stitch[h].armed = true ∧ n.tables = b.tables) ∧
    (b.headStopped h = true → n.activeGeometry h = b.shadowGeometry h ∧ n.shadowGeometry h = b.activeGeometry h ∧
      n.reg (Obj.headStitchSetInForce h) = geoNumber (b.shadowGeometry h) % 2 ^ 16 ∧ Out.event (headSource h 33) ∈ n.outs)) ∧
  (∀ r : Option Route, b.reaches r (Obj.headStitchCalCommand h) 1 (headTaskNo h 10) Env.quiet → b.stitchCalViolations h = [] →
    Does (.stitchCalStart t r h false) s ((((b.cleared r (headTaskNo h 10)).modStitch h fun x =>
      { x with cal := ⟨1, b.reg (Obj.headStitchCalLines h), 0, [], []⟩ }).setReg (Obj.headStitchCalStatus h) 1).answered r .ok)) ∧
  (∀ r : Option Route, b.reaches r (Obj.headStitchCalCommand h) 2 (headTaskNo h 11) Env.quiet → b.stitch[h].cal.phase ≠ 0 →
    Does (.stitchCalAbort t r h false) s (((((b.cleared r (headTaskNo h 11)).modStitch h fun x => { x with cal := noStitchCal }).setReg
      (Obj.headStitchCalStatus h) 9).raise (headSource h 35)).answered r .ok)) ∧
  (b.stitch[h].cal.phase = 1 → b.stitch[h].cal.lines ≤ b.stitch[h].cal.done → b.reg (Obj.headStitchCalEdge h) = 1 →
    Does (.stitchCalPhaseEnd t h) s ((b.modStitch h fun x => { x with cal := { x.cal with phase := 2, done := 0 } }).setReg
      (Obj.headStitchCalStatus h) 2)) ∧
  (b.stitch[h].cal.phase = 1 → b.stitch[h].cal.lines ≤ b.stitch[h].cal.done → b.reg (Obj.headStitchCalEdge h) ≠ 1 →
    Does (.stitchCalPhaseEnd t h) s ((b.modStitch h fun x => { x with cal := { x.cal with phase := 3 } }).setReg (Obj.headStitchCalStatus h) 4)) ∧
  (∀ (g : List Byte) (res : List Nat), b.stitch[h].cal.phase = 3 → b.stitchDerive h = .ok (g, res) →
    let c := ((List.range 16).foldl (fun b k => b.setReg (Obj.headStitchCalResidual h k) (res.getD k 0)) b).setTable (0x6028 + h.val) g
    c.geometryCovers h g = true → Does (.stitchDeriveComplete t h false) s
      (((((c.modStitch h fun x => { x with cal := noStitchCal }).setReg (Obj.headStitchShadowReady h) (geoNumber g)).setReg
        (Obj.headStitchCalStatus h) 5).raise (headSource h 34)).geometryArm h 2 false)) ∧
  (∀ e : Nat, b.stitch[h].cal.phase = 3 → b.stitchDerive h = .error e → Does (.stitchDeriveComplete t h false) s (b.stitchCalFail h e))

/-! ## Capture and Keystone -/

/-- CAPTURE_TRIGGER_FIRE, BURST_TRIGGER_TASK, BURST_TRIGGER_PIN, CAPTURE_TRIGGER_DUE, BURST_BROADCAST_RECEIVED: a burst trigger of the
source selected reaches the buffer with its instant B (R214). An edge of a pin that is not selected leaves its event and nothing else. A
burst trigger that arrives alone is accepted in state 2, which becomes 3 with B recorded, and is counted as ignored in every other state
(R214, R216). Where the spec leaves a point open, the model's choice stands (log entry 44). -/
def Obligations.BurstTriggers : Prop :=
  (∀ (t : Time) (m : BurstMeet) (s : State),
     let b := s.b.at_ t
     let src := b.reg Obj.captureTriggerSource
     (∀ r : Route, src = 0 → b.acceptsObj { Env.quiet with burst := m } r Obj.captureTriggerFire 1 = true →
       Does (.captureTriggerFire t r m) s ((b.burstMeet m t).reply r .ok)) ∧
     (src = 1 → b.taskAlive 352 = true → Does (.burstTriggerTask t m) s ((b.unlatch 352).burstMeet m (b.stampOf 352))) ∧
     (∀ (h : HeadId) (falling : Bool) (width : Nat), b.pinSeen h width = true →
       (src = 2 → b.reg Obj.captureTriggerHead = h.val → b.isSet (Obj.headTriggerPinEdge h) = falling →
         Does (.burstTriggerPin t ⟨h, falling, width⟩ m) s ((b.raise (headSource h 14)).burstMeet m (onGrid t))) ∧
       (src ≠ 2 ∨ b.reg Obj.captureTriggerHead ≠ h.val ∨ b.isSet (Obj.headTriggerPinEdge h) ≠ falling →
         Does (.burstTriggerPin t ⟨h, falling, width⟩ m) s (b.raise (headSource h 14)))) ∧
     (src = 3 → due (BitVec.ofNat 64 (b.reg Obj.captureTriggerAt)) t = true →
       Does (.captureTriggerDue t m) s (b.burstMeet m (BitVec.ofNat 64 (b.reg Obj.captureTriggerAt)))) ∧
     (∀ instant : Time, src = 4 → Does (.burstBroadcastReceived t instant m) s (b.burstMeet m instant))) ∧
  (∀ (instant : Time) (b : Block),
     (b.capture.state = 2 → let n := b.burstMeet .alone instant
       n.capture.burstB = instant ∧ Out.event 704 ∈ n.outs ∧ n.heads = b.heads ∧ n.reg Obj.captureTriggerLast = instant.toNat ∧
       ((∀ h : HeadId, b.capture.partitions[h].items = []) → n.mem = b.mem) ∧
       (∀ h : HeadId, b.heads[h].state = .running → b.capture.partitions[h].seen = [] →
         n.capture.state = 3 ∧ n.capture.partitions[h].items = b.capture.partitions[h].items)) ∧
     (b.capture.state ≠ 2 → b.burstMeet .alone instant = (b.bump Obj.captureTriggerIgnored).raise 709))

/-- CAPTURE_ARM, CAPTURE_DISARM, CAPTURE_DISCARD, RING_RECORD_ARRIVES: arming clears the burst counter and takes state 4 to 2, disarming
takes 2 to 4; a stopped head's records are released; a record from the ring enters the readout region while there is room and waits
otherwise. Where the spec leaves a point open, the model's choice stands (log entries 45 and 101). -/
def Obligations.CaptureCommands : Prop := ∀ (t : Time) (s : State),
  let b := s.b.at_ t
  (∀ r : Option Route, b.reaches r Obj.captureArm 1 353 Env.quiet → Does (.captureArm t r false) s (let c := (b.cleared r 353).setReg Obj.captureBurstsDone 0
    (if b.capture.state = 4 then c.modCapture fun x => { x with state := 2 } else c).answered r .ok)) ∧
  (∀ r : Option Route, b.reaches r Obj.captureArm 0 354 Env.quiet → Does (.captureDisarm t r false) s (let c := b.cleared r 354
    (if b.capture.state = 2 then c.modCapture fun x => { x with state := 4 } else c).answered r .ok)) ∧
  (∀ (r : Route) (h : HeadId), b.acceptsObj Env.quiet r (Obj.captureDiscard h.val) 1 = true → Does (.captureDiscard t r h) s
    ((b.captureDiscard h).reply r .ok) ∧
    ((b.captureDiscard h).capture.partitions[h].items = []) ∧
    (∀ g : HeadId, g ≠ h → (b.captureDiscard h).capture.partitions[g] = b.capture.partitions[g])) ∧
  (∀ (span : SpanId) (pier : PierId) (slot : List Byte), b.capture.waiting = [] →
    b.readoutBytes + slot.length ≤ b.reg Obj.bufferReadoutSize * 1048576 → Does (.ringRecordArrives t span pier slot) s
      ((b.readoutPut span.val pier.val slot).modCapture fun c => { c with readoutFull := false }) ∧
      ∀ a : Nat, a < 0x08000000 ∨ 0x08000000 + b.readoutSize ≤ a →
        memGet (b.readoutPut span.val pier.val slot).mem a = memGet b.mem a) ∧
  (∀ (span : SpanId) (pier : PierId) (slot : List Byte), b.capture.readoutFull = false →
    b.reg Obj.bufferReadoutSize * 1048576 < b.readoutBytes + slot.length → Does (.ringRecordArrives t span pier slot) s
      ((b.modCapture fun c => { c with waiting := c.waiting ++ [⟨span.val, pier.val, slot⟩], readoutFull := true }).raise 712))

/-- DRAIN_LEVEL_PUBLISH, LEVEL_REPORT_RECEIVED, LEVEL_TIMEOUT: in scan mode a pier publishes its level and its last sequence to the ring and
to its own two controllers; a report is kept with its time; the owner of a page then paces by the highest level. While the page is in state
3, a highest level at or above the high mark pauses it in state 4 with the axis brought to rest, and below the pace mark the axis follows
the ceiling speed; nothing of the pacing touches a head or the buffer (R238, R240). Where the spec leaves a point open, the model's choice
stands (log entry 46). -/
def Obligations.LevelsPaceThePage : Prop :=
  (∀ (t : Time) (s : State),
     let b := s.b.at_ t
     let i := b.levelInfo
     (b.scan = true → b.activeAxis = none → Does (.drainLevelPublish t) s
       ((((b.setReg (Obj.axisKeystoneLevelLocal 0) i.level).setReg (Obj.axisKeystoneLevelLocal 1) i.level).modKey fun k =>
         { k with levels := k.levels.insert (b.reg Obj.ringPierNumber) ⟨i, t⟩ }).sendRing (.level i))) ∧
     (b.scan = true → Ends (.drainLevelPublish t) s fun n => i.level ≤ 65535 ∧ Out.ring (.level i) ∈ n.outs ∧ n.mem = s.b.mem ∧ n.heads = s.b.heads) ∧
     (∀ (pier : PierId) (info : LevelInfo), let c := b.modKey fun k => { k with levels := k.levels.insert pier.val ⟨info, t⟩ }
       (b.activeAxis = none → ∀ same : Bool, Does (.levelReportReceived t pier info.level ⟨info.last, info.period, info.loads⟩ same) s c) ∧
       ∀ a : AxisId, b.activeAxis = some a →
         Does (.levelReportReceived t pier info.level ⟨info.last, info.period, info.loads⟩ false) s (c.keyPace a) ∧
         Does (.levelReportReceived t pier info.level ⟨info.last, info.period, info.loads⟩ true) s ((c.bump (Obj.axisKeystoneNearMisses a)).keyPace a)) ∧
     (∀ a : AxisId, b.activeAxis = some a → Does (.levelTimeout t) s (b.keyPace a))) ∧
  (∀ (a : AxisId) (b : Block), b.keystone.state = 3 →
     (b.reg (Obj.axisKeystoneHighMark a) ≤ (b.levelMax a).1 → (b.keyPace a).keystone.state = 4 ∧ (b.keyPace a).axes[a].profile = .brake false ∧
       Out.event (640 + 32 * a.val + 24) ∈ (b.keyPace a).outs) ∧
     ((b.levelMax a).1 ≤ b.reg (Obj.axisKeystonePaceMark a) → b.reg (Obj.axisKeystonePaceMark a) < b.reg (Obj.axisKeystoneHighMark a) →
       (b.keyPace a).keystone.state = 3 ∧ (b.keyPace a).axes[a].profile = .page (b.keystone.grid.dir * (b.ceilingSpeed : Int))) ∧
     (b.keyPace a).heads = b.heads ∧ (b.keyPace a).mem = b.mem)

/-- PAGE_START, PAGE_END, FORCED_PAUSE, PAGE_RELEASE: a page starts from state 0 toward its park position, ends, is paused and released by
the active controller; a passive one refuses with 0x0800_0022, and an end that meets the start wins. PAGE_AXIS_AT_REST, PARK_REACHED,
RESUME_CONDITIONS_MET, IDLE_LINE_TIMER, IDLE_MARK_RECEIVED: a pause that has come to rest is sent to park and an ending page to state 0; a
page at its park position runs up, or waits there; the conditions of a resume begin the run-up; a due time-idle instant is broadcast and
taken; a mark of another pier is taken by the paced heads of this one. Where the spec leaves a point open, the model's choice stands (log
entries 48, 102 and 103). -/
def Obligations.PagesMoveOn : Prop :=
  (∀ (t : Time) (a : AxisId) (r : Option Route) (s : State),
     let b := s.b.at_ t
     (∀ others : Bool, b.reaches r (Obj.axisKeystoneCommand a) 1 (axisTaskNo a 12) { Env.quiet with othersAgree := others } →
       b.pageStartViolations a others = [] → Does (.pageStart t r a others .alone) s (((b.cleared r (axisTaskNo a 12)).pageStart a).answered r .ok)) ∧
     (b.pageViolations a = [] →
       (b.reaches r (Obj.axisKeystoneCommand a) 2 (axisTaskNo a 13) Env.quiet →
         Does (.pageEnd t r a .alone) s (((b.cleared r (axisTaskNo a 13)).pageEnding a).answered r .ok)) ∧
       (b.reaches r (Obj.axisKeystoneCommand a) 3 (axisTaskNo a 14) Env.quiet → b.keystone.state ≠ 0 → b.keystone.state ≠ 7 →
         Does (.forcedPause t r a .alone) s ((((b.cleared r (axisTaskNo a 14)).modKey fun k => { k with forced := true }).keyPause a (some 3)).answered r .ok)) ∧
       (b.reaches r (Obj.axisKeystoneCommand a) 4 (axisTaskNo a 15) Env.quiet →
         let c := (b.cleared r (axisTaskNo a 15)).modKey fun k => { k with forced := false }
         Does (.pageRelease t r a .alone) s
           ((if b.keystone.state = 8 ∧ b.keystone.reason ≠ 7 ∧ b.axisReady a then c.sendToPark a 5 else c).answered r .ok))) ∧
     (∀ x : Route, b.feature 1 = true → b.scan = true → b.activeAxis ≠ some a → b.acceptsObj Env.quiet x (Obj.axisKeystoneCommand a) 3 = true →
       Does (.forcedPause t (some x) a .alone) s (b.reply x (.abort .deviceState))) ∧
     (∀ (x : Route) (others : Bool), b.acceptsObj { Env.pair .other with othersAgree := others } x (Obj.axisKeystoneCommand a) 1 = true →
       Does (.pageStart t (some x) a others .other) s (((b.keyCount a).pageEnding a).reply x (.abort .deviceState)))) ∧
  (∀ (t : Time) (a : AxisId) (s : State),
     let b := s.b.at_ t
     let ranUp (c : Block) : Prop := c.keystone.state = 2 ∧ c.Fired (640 + 32 * a.val + 26) ∧
       c.axes[a].profile = .page (b.keystone.grid.dir * (b.keystone.vr : Int)) ∧
       Leaves [.keystone, .axis a] [Obj.axisKeystonePauseTime a] b c
     (b.activeAxis = some a →
       (b.axes[a].profile = .rest →
         (b.keystone.state = 4 → Does (.pageAxisAtRest t) s (b.sendToPark a 5)) ∧
         (b.keystone.state = 7 → ∃ c, Does (.pageAxisAtRest t) s c ∧ c.keystone.state = 0 ∧ c.Fired (640 + 32 * a.val + 31) ∧
           Leaves [.keystone, .head 0, .head 1, .head 2, .head 3] [Obj.axisKeystonePauseTime a] b c ∧
           ∀ h : HeadId, c.heads[h] = { b.heads[h] with held := false }) ∧
         (b.keystone.state = 1 → b.keystone.forced = false → ∃ c, Does (.parkReached t) s c ∧ ranUp c) ∧
         (b.keystone.state = 5 → ∃ c, Does (.parkReached t) s c ∧ c.keystone.state = 6 ∧ c.Fired (640 + 32 * a.val + 25) ∧ Leaves [.keystone] [] b c)) ∧
       (b.mayResume a = true → ∃ c, Does (.resumeConditionsMet t false) s c ∧ ranUp c) ∧
       Does (.resumeConditionsMet t true) s (b.bump (Obj.axisKeystoneCoincidences a)) ∧
       (∀ u : Time, b.idleAt = some u → due u t = true → b.keystone.state ≠ 0 → b.keystone.state ≠ 3 → b.keystone.approach = false →
         Does (.idleLineTimer t) s (((b.modKey fun k => { k with idleBase := some u }).broadcast (.idle u none) u).receiveIdle u none))) ∧
     (∀ (instant : Time) (line : Option Int), Does (.idleMarkReceived t instant line) s (b.receiveIdle instant line)))

/-! ## Motion, position and illumination -/

/-- AXIS_ENABLE, AXIS_DISABLE, AXIS_DISABLE_COMPLETE: an enable that nothing refuses starts the axis at rest; one that finds V_M or the
fault input bad answers 0x0606_0000; a disable brings the axis to rest in state 3; at rest it is stopped with its outputs low (R284).
MOVE_TO, JOG, HOME, HALT, QUICK_STOP, CLEAR_MOTION_FAULT: an accepted command gives the axis its profile; a moving axis brakes at `accel`
for a halt and at `stop_decel` for a quick stop, which wins where both meet, as a halt wins over a move (R267 to R270, R280, R285). Where
the spec leaves a point open, the model's choice stands (log entries 48, 49 and 131). -/
def Obligations.AxesAreCommanded : Prop :=
  (∀ (t : Time) (r : Option Route) (a : AxisId) (s : State),
     let b := s.b.at_ t
     (∀ (vm : BitVec 16) (low : Bool), b.reaches r (Obj.axisCommand a) 1 (axisTaskNo a 0)
         { Env.quiet with vm := List.replicate 2 vm.toNat, flt := if low then 3 else 0 } →
       (b.enableViolations a vm.toNat low = [] →
         Does (.axisEnable t r a ⟨vm, low⟩ .alone) s (((b.cleared r (axisTaskNo a 0)).axisEnable a vm.toNat).answered r .ok) ∧
         (b.axes[a].state = .stopped → b.keystone.state ≠ 8 → ∃ c, Does (.axisEnable t r a ⟨vm, low⟩ .alone) s c ∧ c.axes[a].state = .running ∧
           c.axes[a].profile = .rest ∧ c.axes[a].vel = 0 ∧ c.axes[a].holding = true ∧ c.axes[a].driven = true ∧ c.Fired (640 + 32 * a.val) ∧
           Leaves [.axis a] [Obj.axisDriveKp a, Obj.axisDriveKi a, Obj.axisDriveInForce a, Obj.axisVm a] ((b.cleared r (axisTaskNo a 0)).answered r .ok) c)) ∧
       (b.enableViolations a vm.toNat low = [.hardware] →
         Does (.axisEnable t r a ⟨vm, low⟩ .alone) s ((b.cleared r (axisTaskNo a 0)).answered r (.abort .hardware)))) ∧
     (b.reaches r (Obj.axisCommand a) 2 (axisTaskNo a 1) Env.quiet → b.keystone.state = 0 →
       (b.axes[a].state = .running → b.axes[a].profile ≠ .rest → Does (.axisDisable t r a .alone) s
         (((b.cleared r (axisTaskNo a 1)).modAxis a fun x => { x with state := .stopping, profile := .brake true }).answered r .ok)) ∧
       (b.axes[a].state = .faulted → Does (.axisDisable t r a .alone) s ((((b.cleared r (axisTaskNo a 1)).modAxis a fun x =>
         { x with state := .stopped, faults := x.faults.filter fun c => decide (c < 4) }).raise (640 + 32 * a.val + 1)).answered r .ok)) ∧
       (b.axes[a].state = .stopped → Does (.axisDisable t r a .alone) s ((b.cleared r (axisTaskNo a 1)).answered r .ok))) ∧
     (b.axes[a].state = .stopping → b.axes[a].vel = 0 → ∃ c, Does (.axisDisableComplete t a) s c ∧ c.axes[a].state = .stopped ∧
       c.axes[a].profile = .rest ∧ c.axes[a].driven = false ∧ c.axes[a].mA = 0 ∧ c.axes[a].mB = 0 ∧ Out.switchesLow a.val ∈ c.outs ∧
       c.Fired (640 + 32 * a.val + 1) ∧ Leaves [.axis a] [Obj.axisDriveInForce a] b c)) ∧
  (∀ (t : Time) (a : AxisId) (s : State),
     let b := s.b.at_ t
     let brake (hard : Bool) (c : Block) : Block := c.modAxis a fun x => { x with profile := .brake hard }
     (∀ (r : Route) (target : Pos), b.acceptsObj Env.quiet r (Obj.axisMoveTo a) target.toNat = true → Does (.moveTo t (some r) a target .alone) s
       ((b.modAxis a fun x => { x with profile := .toTarget target.toInt (b.reg (Obj.axisProfileMaxSpeed a)) }).reply r .ok)) ∧
     (∀ target : Pos, b.taskAlive (axisTaskNo a 4) = true → b.moveViolations a (b.regI (Obj.axisTaskTarget a)) = [] →
       Does (.moveTo t none a target .alone) s ((b.unlatch (axisTaskNo a 4)).modAxis a fun x =>
         { x with profile := .toTarget (b.regI (Obj.axisTaskTarget a)) (b.reg (Obj.axisProfileMaxSpeed a)) })) ∧
     (∀ (r : Route) (target : Pos), b.acceptsObj (Env.pair .other) r (Obj.axisMoveTo a) target.toNat = true →
       Does (.moveTo t (some r) a target .other) s ((b.bump (Obj.axisCoincidences a)).reply r .ok)) ∧
     (∀ (r : Route) (speed : BitVec 32), b.acceptsObj Env.quiet r (Obj.axisJog a) speed.toNat = true → Does (.jog t r a speed .alone) s
       ((b.modAxis a fun x => { x with profile := .velocity speed.toInt }).reply r .ok)) ∧
     (∀ r : Option Route, b.reaches r (Obj.axisAction a) 1 (axisTaskNo a 5) Env.quiet → b.homeViolations a = [] → Does (.home t r a .alone) s
       (((b.cleared r (axisTaskNo a 5)).modAxis a fun x => { x with profile := .homing false 0 }).answered r .ok)) ∧
     (∀ r : Option Route, b.reaches r (Obj.axisAction a) 2 (axisTaskNo a 2) Env.quiet → b.haltViolations a = [] → b.axes[a].profile ≠ .rest →
       Does (.halt t r a .alone) s ((brake false (b.cleared r (axisTaskNo a 2))).answered r .ok)) ∧
     (∀ r : Route, b.acceptsObj (Env.pair .other) r (Obj.axisAction a) 2 = true → b.axes[a].profile ≠ .rest →
       Does (.halt t (some r) a .other) s ((brake true (b.bump (Obj.axisCoincidences a))).reply r .ok)) ∧
     (∀ r : Option Route, b.reaches r (Obj.axisAction a) 3 (axisTaskNo a 3) Env.quiet → b.haltViolations a = [] → b.axes[a].profile ≠ .rest →
       Does (.quickStop t r a .alone) s ((brake true (b.cleared r (axisTaskNo a 3))).answered r .ok)) ∧
     (∀ r : Option Route, b.reaches r (Obj.axisAction a) 4 (axisTaskNo a 6) Env.quiet → b.axes[a].limP = false → b.axes[a].limN = false →
       b.axes[a].faults = [3] → b.keystone.state ≠ 8 → Does (.clearMotionFault t r a false) s
         (((b.cleared r (axisTaskNo a 6)).modAxis a fun x => { x with faults := [] }).answered r .ok)))

/-- PROFILE_UPDATE, PWM_PERIOD, HOLD_CURRENT_DELAY: a braking axis away from its switches and limits loses at most its deceleration in one
update and moves by the mean of its speeds; one that moves by speed stays inside its virtual limits; a PWM period of a driven axis keeps
both modulations within ±1 and sends duties; an axis at rest for `hold_delay` holds (R268, R269, R271, R273, R276). Where the spec leaves a
point open, the model's choice stands (log entries 50 and 109). -/
def Obligations.AxesRun : Prop := ∀ (t : Time) (a : AxisId) (s : State),
  let b := s.b.at_ t
  let x := b.axes[a]
  (∀ hard : Bool, x.state = .running → x.profile = .brake hard → x.limP = false → x.limN = false → b.limitsBind a = false →
    let rate := if hard then b.reg (Obj.axisProfileStopDecel a) else b.reg (Obj.axisProfileAccel a)
    let v := clip 0 (x.vel - rate) (x.vel + rate)
    ∃ c, Does (.profileUpdate t a) s c ∧ c.axes[a].vel = v ∧ c.axes[a].pos = x.pos + x.vel + v ∧
      Leaves [.axis a] [Obj.axisProfileState a] b c ∧
      (v = 0 → c.axes[a].profile = .rest ∧ c.axes[a].restSince = t ∧ c.Fired (640 + 32 * a.val + 2)) ∧
      (v ≠ 0 → c.axes[a].profile = .brake hard)) ∧
  (∀ w : Int, x.state = .running → x.profile = .velocity w → b.limitsBind a = true →
    let lim := b.limitUnits a
    lim.1 ≤ x.pos → x.pos ≤ lim.2 → Ends (.profileUpdate t a) s fun n => lim.1 ≤ n.axes[a].pos ∧ n.axes[a].pos ≤ lim.2) ∧
  (x.state = .stopped → Does (.profileUpdate t a) s b) ∧
  (∀ (shuntA shuntB : Int) (vmUv : BitVec 32),
    let vm := vmUv.toNat * b.reg (Obj.axisDriveVmRatio a) / 100000
    b.keystone.state ≠ 8 →
    (x.driven = true → shuntA.natAbs ≤ 98000 → shuntB.natAbs ≤ 98000 → 8000 ≤ vm → vm ≤ 60000 → x.mA.natAbs ≤ 2 ^ 24 → x.mB.natAbs ≤ 2 ^ 24 →
      ∃ c, Does (.pwmPeriod t a shuntA shuntB vmUv) s c ∧ c.axes[a].mA.natAbs ≤ 2 ^ 24 ∧ c.axes[a].mB.natAbs ≤ 2 ^ 24 ∧
        c.reg (Obj.axisDriveInForce a) = (if b.wantStrong a then 2 else 1) ∧ c.axes[a].pos = x.pos ∧ c.axes[a].vel = x.vel ∧
        (∃ dA dB, Out.pwm a.val dA dB (b.reg (Obj.axisDriveDeadtime a)) ∈ c.outs ∧ dA ≤ 2500 ∧ dB ≤ 2500) ∧
        Leaves [.axis a] [Obj.axisVm a, Obj.axisModeSwitches a, Obj.axisVsatPeriods a, Obj.axisDriveInForce a] b c) ∧
    (x.driven = false → Does (.pwmPeriod t a shuntA shuntB vmUv) s (b.setReg (Obj.axisVm a) (min vm 65535)))) ∧
  (x.state = .running → x.profile = .rest → x.vel = 0 → x.holding = false →
    passed x.restSince (b.reg (Obj.axisDriveHoldDelay a) * tMs) t = true →
    Does (.holdCurrentDelay t a) s ((b.modAxis a fun x => { x with holding := true }).raise (640 + 32 * a.val + 16)))

/-- HOMING_REFERENCE_FOUND, HOMING_FAILED, LIMIT_SWITCH_ACTIVE, LIMIT_SWITCH_RELEASE: a reference makes the position that of the object and
valid; a switch is motion fault 3 with its event while it is active, and stops a carriage that moves toward it; for homing method 2 the
switch ahead turns the carriage, and its release on the way back is the reference (R267, R272, R280). ENCODER_EDGE, ENCODER_ERROR,
INDEX_PULSE, DEVIATION_TRIP, DEVIATION_REALIGN, POWER_STAGE_FAULT: an edge is one count in its direction with its stamp, or an encoder error
where it comes faster than the filter admits; an error, a deviation and a failed power stage are motion faults 2, 1 and 4 to 6; the position
is invalid, the axis brakes, or has its outputs low in state 4 (R264, R265, R277 to R280, R286). Where the spec leaves a point open, the
model's choice stands (log entries 48, 110 and 111). -/
def Obligations.LimitsHomingAndFaults : Prop :=
  (∀ (t : Time) (a : AxisId) (s : State),
     let b := s.b.at_ t
     let found (i : Instr) : Prop := ∃ c, Does i s c ∧ c.axes[a].profile = .brake false ∧ c.reg (Obj.axisPositionValid a) ≠ 0 ∧
       c.Fired (640 + 32 * a.val + 3) ∧ c.positionAt a t = b.regI (Obj.axisHomePosition a) ∧ Leaves [.axis a] [Obj.axisPositionValid a] b c
     (b.keystone.state = 0 → b.homing a = some (b.reg (Obj.axisHomeMethod a) == 2) → found (.homingReferenceFound t a)) ∧
     (b.homing a ≠ none → Does (.homingFailed t a) s
       ((b.modAxis a fun x => { x with profile := .brake false }).raise (640 + 32 * a.val + 4))) ∧
     (∀ up : Bool, b.keystone.state = 0 → b.homing a = none → ∃ c, Does (.limitSwitchActive t a up) s c ∧ 3 ∈ c.axes[a].faults ∧
       (if up then c.axes[a].limP else c.axes[a].limN) = true ∧ c.Fired (640 + 32 * a.val + 6) ∧ Leaves [.axis a] [] b c ∧
       ((if up then 0 < b.axes[a].vel else b.axes[a].vel < 0) → b.axes[a].profile ≠ .rest → c.axes[a].profile = .brake true)) ∧
     (∀ (up : Bool) (n : Nat), b.keystone.state = 0 → b.axes[a].profile = .homing false n → b.reg (Obj.axisHomeMethod a) = 2 →
       decide (0 < b.regI (Obj.axisHomeDirection a)) = up → ∃ c, Does (.limitSwitchActive t a up) s c ∧ c.axes[a].profile = .homing true n ∧
         3 ∈ c.axes[a].faults ∧ Leaves [.axis a] [] b c) ∧
     (∀ up : Bool, b.keystone.state = 0 → (if up then b.axes[a].limN else b.axes[a].limP) = false →
       (b.homing a ≠ some true → Does (.limitSwitchRelease t a up) s
         (b.modAxis a fun x => { x with limP := false, limN := false, faults := x.faults.filter (· != 3) })) ∧
       (b.homing a = some true → b.reg (Obj.axisHomeMethod a) = 2 → decide (0 < b.regI (Obj.axisHomeDirection a)) = up →
         found (.limitSwitchRelease t a up)))) ∧
  (∀ (t : Time) (a : AxisId) (s : State), s.b.keystone.state = 0 →
     let b := s.b.at_ t
     let x := b.axes[a]
     let slow : Bool := match x.edges with | e :: _ => passed e.at_ (b.edgeMin a * tNs) t | [] => true
     (∀ up : Bool, b.isSet (Obj.axisEncoderEnable a) = true → b.asleep = false → slow = true → ∃ c, Does (.encoderEdge t a up) s c ∧
       let n := x.count + (if up = !b.isSet (Obj.axisEncoderInvert a) then 256 else -256)
       c.axes[a].count = n ∧ (c.axes[a].edges.head?.map fun e => (e.at_, e.count)) = some (t, n) ∧ c.axes[a].pos = x.pos ∧
       Leaves [.axis a] [Obj.axisSpeed a] b c) ∧
     (∀ up : Bool, b.isSet (Obj.axisEncoderEnable a) = true → b.asleep = false → slow = false → Ends (.encoderEdge t a up) s fun n =>
       2 ∈ n.axes[a].faults ∧ n.axes[a].count = x.count ∧ n.reg (Obj.axisPositionValid a) = 0 ∧ n.Fired (640 + 32 * a.val + 8)) ∧
     (∀ up : Bool, b.isSet (Obj.axisEncoderEnable a) = false ∨ b.asleep = true → Does (.encoderEdge t a up) s b) ∧
     (∀ cause : Fin 3, b.isSet (Obj.axisEncoderEnable a) = true → cause ≠ 1 ∨ b.reg (Obj.axisEncoderMode a) = 0 →
       ∃ c, Does (.encoderError t ⟨a, cause⟩) s c ∧ 2 ∈ c.axes[a].faults ∧ c.reg (Obj.axisPositionValid a) = 0 ∧
         c.Fired (640 + 32 * a.val + 8) ∧ (x.profile ≠ .rest → c.axes[a].profile = .brake true) ∧
         Leaves [.axis a, .head 0, .head 1, .head 2, .head 3] [Obj.axisPositionValid a, Obj.axisEncoderErrors a] b c) ∧
     (Does (.indexPulse t a) s ((b.setRegI (Obj.axisIndexPosition a) (b.positionAt a t)).raise (640 + 32 * a.val + 15))) ∧
     (∀ u : Time, x.driven = true → b.isSet (Obj.axisEncoderEnable a) = true → x.outsideSince = some u →
       passed u (b.reg (Obj.axisDevTime a) * tUs) t = true → 1 ∉ x.faults →
       (b.outsideWindow a = true → ∃ c, Does (.deviationTrip t a false) s c ∧ 1 ∈ c.axes[a].faults ∧
         c.axes[a].validBefore = b.isSet (Obj.axisPositionValid a) ∧ c.reg (Obj.axisPositionValid a) = 0 ∧
         (x.profile ≠ .rest → c.axes[a].profile = .brake true) ∧ c.Fired (640 + 32 * a.val + 7) ∧
         Leaves [.axis a, .head 0, .head 1, .head 2, .head 3] [Obj.axisPositionValid a, Obj.axisDevTrips a] b c) ∧
       Does (.deviationTrip t a true) s ((b.modAxis a fun x => { x with outsideSince := none }).bump (Obj.axisNearMisses a))) ∧
     ((match x.edges with | e :: _ => passed e.at_ tMs t | [] => true) = true → 1 ∈ x.faults → ∃ c, Does (.deviationRealign t a) s c ∧
       1 ∉ c.axes[a].faults ∧ c.axes[a].pos = toUnits (b.positionAt a t) ∧ c.axes[a].vel = 0 ∧ c.axes[a].profile = .rest ∧
       c.axes[a].alignLeft = 256 ∧ c.isSet (Obj.axisPositionValid a) = (x.validBefore || b.isSet (Obj.axisPositionValid a)) ∧
       Leaves [.axis a] [Obj.axisPositionValid a] b c) ∧
     (x.state = .running ∨ x.state = .stopping →
       (∀ code : Fin 3, ∃ c, Does (.powerStageFault t a code) s c ∧ 4 + code.val ∈ c.axes[a].faults ∧
         c.axes[a].state = .faulted ∧ c.axes[a].driven = false ∧ c.axes[a].mA = 0 ∧ c.axes[a].mB = 0 ∧ c.axes[a].vel = 0 ∧
         Out.switchesLow a.val ∈ c.outs ∧ c.Fired (640 + 32 * a.val + 11) ∧
         Leaves [.axis a, .faults] [Obj.axisDriveInForce a, Obj.axisProfileState a] b c) ∧
       (∀ (shuntA shuntB : Int) (vmUv : BitVec 32), x.driven = true → 98000 < shuntA.natAbs ∨ 98000 < shuntB.natAbs →
         Ends (.pwmPeriod t a shuntA shuntB vmUv) s fun n => 5 ∈ n.axes[a].faults ∧ n.axes[a].state = .faulted ∧ n.axes[a].driven = false)))

/-- BROADCAST_CLAIM, POSITION_BROADCAST, CROSSING_RECEIVED, POSITION_LATCH_RECEIVED, ENCODER_CROSSING: the source of position claims and
gives up its place, and sends its position; a crossing reaches the heads of source 4; a position latched by the owner enters the lines that
wait for it; a counted edge offers its crossing to the heads of source 3 (R85 to R89, R281 to R283). -/
def Obligations.PositionOnTheRing : Prop := ∀ (t : Time) (a : AxisId) (s : State),
  let b := s.b.at_ t
  let me := b.reg Obj.ringPierNumber
  (∀ (r : Route) (crossing : Option PierId), b.acceptsObj { Env.quiet with crossing := crossing } r (Obj.axisBroadcast a) 1 = true →
    Does (.broadcastClaim t r a true crossing) s ((((b.setReg (Obj.axisBroadcast a) 1).setSourcePier me).sendRing (.claim true)).reply r .ok) ∧
    Ends (.broadcastClaim t r a true crossing) s fun n => n.reg (Obj.axisBroadcast a) = 1 ∧ n.reg (Obj.axisSourcePier 0) = me % 2 ^ 8 ∧
      n.reg (Obj.axisSourcePier 1) = me % 2 ^ 8 ∧ Out.ring (.claim true) ∈ n.outs ∧ n.Answered r .ok ∧ (b.keystone.state = 0 → n.axes = s.b.axes)) ∧
  (∀ (r : Route) (crossing : Option PierId), b.acceptsObj { Env.quiet with crossing := crossing } r (Obj.axisBroadcast a) 0 = true →
    b.keystone.state = 0 → b.reg (Obj.axisSourcePier 0) = me →
    Does (.broadcastClaim t r a false crossing) s ((((b.setReg (Obj.axisBroadcast a) 0).setSourcePier 0xFF).sendRing (.claim false)).reply r .ok)) ∧
  (b.ownAxis = some a → Does (.positionBroadcast t) s
    (b.sendRing (.position (b.positionAt a t) (b.regI (Obj.axisSpeed a)) (b.isSet (Obj.axisPositionValid a))))) ∧
  (∀ (h : HeadId) (k : BitVec 48) (instant : Time) (flags : BitVec 16), b.reg (Obj.headTriggerSource h) = 4 → b.heads[h].state = .running →
    (∀ g : HeadId, g ≠ h → b.reg (Obj.headTriggerSource g) ≠ 4) →
    let at_ := later instant (b.reg (Obj.headTriggerBroadcastDelay h))
    due at_ t = false → Does (.crossingReceived t k instant flags) s (b.modHead h fun x =>
      { x with crossIndex := max x.crossIndex (k.toNat + 1), owed := x.owed ++ [⟨some k.toNat, at_, flags.toNat, none⟩] })) ∧
  (∀ (exposure : Time) (position : Pos), Ends (.positionLatchReceived t exposure position) s fun n => n.mem = s.b.mem ∧
    (∀ h : HeadId, n.heads[h].state = s.b.heads[h].state ∧ n.heads[h].lines.length = s.b.heads[h].lines.length) ∧
    ∀ (h : HeadId) (i : Nat) (l : Line), s.b.heads[h].lines[i]? = some l → n.heads[h].lines[i]? = some
      (if l.waitsPosition = true ∧ l.common = some exposure then { l with position := position.toInt, waitsPosition := false } else l)) ∧
  (∀ (page : CrossMeet) (meet : Meet), b.scan = true → b.isSet (Obj.axisPositionValid a) = true → b.isSet (Obj.axisEncoderEnable a) = true →
    Does (.encoderCrossing t a ⟨page, meet⟩) s (b.withSeam fun c =>
      let d := if page = .fault then c else (List.finRange 4).foldl (fun d h => d.localCrossing a meet h) c
      if d.activeAxis = some a then d.pageCrossing a page meet else if d.ownAxis = some a ∧ page ≠ .fault then d.freeCrossing a else d))

/-- ENCODER_CROSSING: a counted edge that passes position k of a head of source 3 fires its line, with flag 13 when it passed others before
(R85, R86). Where the spec leaves a point open, the model's choice stands (log entries 28 and 47). -/
def Obligations.CrossingsFireLines : Prop := ∀ (t : Time) (a : AxisId) (h : HeadId) (s : State),
  let b := s.b.at_ t
  let g := b.headGrid h
  let k := g.reach b.axes[a].count
  b.scan = true → b.isSet (Obj.axisPositionValid a) = true → b.isSet (Obj.axisEncoderEnable a) = true →
  b.activeAxis = none → b.ownAxis = none → (∀ z : HeadId, z ≠ h → b.reg (Obj.headTriggerSource z) ≠ 3) →
  b.reg (Obj.headTriggerSource h) = 3 → b.headAxis h = a → b.heads[h].state = .running →
  g.reach b.axes[a].prevCount < k → 0 ≤ k → (b.heads[h].crossIndex : Int) ≤ k → (b.heads[h].nextIndex : Int) ≤ k → b.heads[h].held = false →
  b.heads[h].lastTrigger = none → b.countReached h = false →
  Ends (.encoderCrossing t a ⟨.alone, .alone⟩) s fun n =>
  n.heads[h].lines.length = b.heads[h].lines.length + 1 ∧ n.heads[h].nextIndex = k.toNat + 1 ∧ n.heads[h].crossIndex = k.toNat + 1 ∧
  n.heads[h].acceptedRun = b.heads[h].acceptedRun + 1 ∧ Out.event (headSource h 0) ∈ n.outs ∧
  (max (g.reach b.axes[a].prevCount + 1) (b.heads[h].crossIndex : Int) < k →
    (n.heads[h].lines.getLast?.map fun l => l.flags.testBit 13) = some true) ∧
  n.mem = b.mem ∧ ∀ z : HeadId, z ≠ h → n.heads[z] = b.heads[z]

/-- SEQ_RESTART, ILLUM_BLANK, ILLUM_UNBLANK, BOOST_OVERVOLTAGE, BOOST_ADAPT, SELECT_FRAME_COMPLETE. The current of an on-chip lamp (R290,
R291): never above 200 mA, nor above what command, derating and trim make of it, and nothing for a lamp that is trimmed to 0 or a head
derated to 0. Where the spec leaves a point open, the model's choice stands (log entries 51 and 88). -/
def Obligations.IlluminationAndLamps : Prop :=
  (∀ (t : Time) (h : HeadId) (s : State),
     let b := s.b.at_ t
     (∀ r : Option Route, b.reaches r (Obj.headIllumSeqRestart h) 1 (headTaskNo h 18) Env.quiet → Does (.seqRestart t r h false) s
       (((b.cleared r (headTaskNo h 18)).modIllum h fun x => { x with restartIn := some 2 }).answered r .ok)) ∧
     (b.taskAlive (headTaskNo h 16) = true →
       Does (.illumBlank t h false) s ((b.unlatch (headTaskNo h 16)).modIllum h fun x => { x with blankByTask := true })) ∧
     (b.taskAlive (headTaskNo h 17) = true →
       Does (.illumUnblank t h false) s ((b.unlatch (headTaskNo h 17)).modIllum h fun x => { x with blankByTask := false })) ∧
     (b.illum[h].boostOff = false → Does (.boostOvervoltage t h) s ((b.modIllum h fun x => { x with boostOff := true }).raise (headSource h 47))) ∧
     (b.illum[h].pulses < 256 → Does (.boostAdapt t h) s b) ∧
     (256 ≤ b.illum[h].pulses → b.levelInForce (Obj.headIllumLevel h) = 0 → (∀ k : Fin 4, b.illum[h].rowMeasured[k] = true ∧ b.illum[h].rowPulses[k] < 256) →
       ∀ m : Int, b.illum[h].headroom = some m →
         let v := b.reg (Obj.headIllumBoostVSet h)
         let top := b.reg (Obj.headIllumBoostVMax h)
         let want := b.reg (Obj.headIllumBoostHeadroom h)
         (m < (want : Int) - 100 → v < top → Does (.boostAdapt t h) s
           ((b.setReg (Obj.headIllumBoostVSet h) (min top (max 5000 (v + 250)))).modIllum h fun x => { x with pulses := 0, headroom := none })) ∧
         ((want : Int) + 300 < m → Does (.boostAdapt t h) s
           ((b.setReg (Obj.headIllumBoostVSet h) (min top (max 5000 (v - 100)))).modIllum h fun x => { x with pulses := 0, headroom := none }))) ∧
     (∀ u : Time, b.illum[h].frameDue = some u → b.illum[h].frameLate = true → due u t = true →
       Does (.selectFrameComplete t h) s
         ((b.modIllum h fun x => { x with latchedMask := x.frameMask, frameDue := none, frameLate := false }).startFrame h))) ∧
  (∀ cmd cap d trim : Nat,
     lampCurrent cmd cap d trim ≤ 3200 ∧ (d = 0 ∨ trim = 0 → lampCurrent cmd cap d trim = 0) ∧
     (d ≤ 65536 → trim ≤ 32768 → lampCurrent cmd cap d trim ≤ min cmd cap) ∧
     (cmd ≤ cap → cmd ≤ 3200 → lampCurrent cmd cap 65536 32768 = cmd))

/-! ## The auxiliary channels -/

/-- EXCITATION_OFF, EXCITATION_ON, EXCITATION_OVERLOAD, EXCITATION_OVERLOAD_CLEAR, WIRE_BREAK_TRIP, WIRE_BREAK_CLEAR: the tasks hold and
free the excitation, and what is then excited leaves; a comparator trips while it watches its channel; an overload is status bit 5 and a
broken wire status bit 2, with bit 0, and their event once (R315, R316, R324). CLAMP_ENGAGE, CLAMP_RELEASE, CLAMP_RECOVERY_END, CLAMP_CLEAR:
a clamp engages with its flag, its count and its event; it recovers after its release; a clear is counted and does nothing while the clamp
is engaged (R321, R322, R349). -/
def Obligations.ExcitationWiresAndClamps : Prop :=
  (∀ (t : Time) (n : AuxId) (s : State),
     let b := s.b.at_ t
     (b.taskAlive 288 = true → ∃ c, Does (.excitationOff t false) s c ∧ c.aux = { b.aux with excOff := true } ∧ Leaves [.aux] [] (b.unlatch 288) c ∧
       c.excitationNow = [] ∧ (b.excitationNow ≠ [] → Out.excitation [] ∈ c.outs)) ∧
     (b.taskAlive 289 = true → ∃ c, Does (.excitationOn t false) s c ∧ c.aux = { b.aux with excOff := false } ∧ Leaves [.aux] [] (b.unlatch 289) c ∧
       (c.excitationNow ≠ b.excitationNow → Out.excitation c.excitationNow ∈ c.outs)) ∧
     (b.reg (Obj.auxMode n) = 2 → b.excited n = true → b.aux.channels[n].overload = false → Does (.excitationOverload t n) s
       (((b.modChannel n fun c => { c with overload := true }).setReg (Obj.auxStatus n) (b.reg (Obj.auxStatus n) ||| 32 ||| 1)).raise (576 + n.val))) ∧
     (b.aux.channels[n].overload = true → b.aux.excOff = false → Does (.excitationOverloadClear t n) s
       ((b.modChannel n fun c => { c with overload := false }).setReg (Obj.auxStatus n) (clearBit (b.reg (Obj.auxStatus n)) 5))) ∧
     (∀ sense : Bool, b.aux.channels[n].broken = false → b.watched n sense = true → Does (.wireBreakTrip t ⟨n, sense⟩) s
       ((((b.modChannel n fun c => { c with broken := true }).setReg (Obj.auxStatus n) (b.reg (Obj.auxStatus n) ||| 4 ||| 1)).bump
         (Obj.auxWireBreaks n)).raise (576 + n.val))) ∧
     (b.aux.channels[n].broken = true → Does (.wireBreakClear t n) s
       (((b.modChannel n fun c => { c with broken := false }).setReg (Obj.auxStatus n) (clearBit (b.reg (Obj.auxStatus n)) 2)).modChannel n fun c =>
         { c with t0 := t, windows := 0, samples := [] }))) ∧
  (∀ (t : Time) (n : AuxId) (s : State),
     let b := s.b.at_ t
     (∀ high : Bool, (∀ k : Bool, b.aux.channels[n].clamp ≠ .engaged k) → ∃ c, Does (.clampEngage t n high) s c ∧ c.aux.channels[n].clamp = .engaged high ∧
       c.reg (Obj.auxClampFlag n) = 1 ∧ c.reg (Obj.auxStatus n) = (b.reg (Obj.auxStatus n) ||| 2 ||| 1) % 256 ∧ c.Fired (592 + n.val) ∧
       Leaves [.aux] [Obj.auxClampFlag n, Obj.auxClampEvents n, Obj.auxStatus n] b c ∧
       ∀ k : AuxId, k ≠ n → c.aux.channels[k] = b.aux.channels[k]) ∧
     (∀ high : Bool, b.aux.channels[n].clamp = .engaged high → Does (.clampRelease t n) s (b.modChannel n fun c => { c with clamp := .recovering high }) ∧
       (∀ r : Route, b.acceptsObj Env.quiet r (Obj.auxClampFlag n) 0 = true → Does (.clampClear t (some r) n []) s
         ((b.bump Obj.auxCoincidences).reply r .ok))) ∧
     (∀ high : Bool, b.aux.channels[n].clamp = .recovering high → Does (.clampRecoveryEnd t n) s
       ((b.modChannel n fun c => { c with clamp := .released }).setReg (Obj.auxStatus n) (clearBit (b.reg (Obj.auxStatus n)) 1))) ∧
     (∀ r : Route, (∀ k : Bool, b.aux.channels[n].clamp ≠ .engaged k) → b.acceptsObj Env.quiet r (Obj.auxClampFlag n) 0 = true →
       Does (.clampClear t (some r) n []) s ((b.setReg (Obj.auxClampFlag n) 0).reply r .ok)) ∧
     (b.taskAlive 290 = true → ∃ c, Does (.clampClear t none n []) s c ∧
       Leaves [] (Obj.auxCoincidences :: (List.finRange 16).map fun (k : AuxId) => Obj.auxClampFlag k.val) (b.unlatch 290) c ∧
       ∀ k : AuxId, (∀ z : Bool, b.aux.channels[k].clamp ≠ .engaged z) → c.reg (Obj.auxClampFlag k) = 0))

/-- SEQ_START, SEQ_STOP, SEQ_STOP_COMPLETE, REF_BUFFER_ON, REF_BUFFER_READY: a start that nothing refuses waits for the reference buffer,
and runs with its filters and passes anew once it is ready; a stop ends the start, or lets the lanes finish; then the sequencer is stopped
(R346). PASS_START, ENTRY_EXECUTION, CONVERSION_COMPLETE, CHOP_REVERSAL, CONTINUOUS_TEST_PULSE: a pass begins at its first entry, an
execution with its discarded conversions; a conversion to be discarded leaves no sample; a chop reversal turns the phase (R337 to R344).
Where the spec leaves a point open, the model's choice stands (log entry 52). -/
def Obligations.SequencerAndLanes : Prop :=
  (∀ (t : Time) (s : State),
     let b := s.b.at_ t
     (∀ r : Option Route, b.reaches r Obj.auxCommand 1 292 Env.quiet → b.seqViolations = [] → b.aux.state = .stopped → b.aux.refReady = false →
       Does (.seqStart t r .alone) s ((b.cleared r 292).modAux fun a => { a with state := .starting, startVia := [b.viaOf r 292], refOn := true })) ∧
     (∀ r : Option Route, b.reaches r Obj.auxCommand 1 292 Env.quiet → b.seqViolations = [] → b.aux.state = .stopped → b.aux.refReady = true →
       ∃ c, Does (.seqStart t r .alone) s c ∧ c.aux.state = .running ∧ c.Fired 608 ∧ c.reg (Obj.auxSeqPassesDone 0) = 0 ∧ c.reg (Obj.auxSeqPassesDone 1) = 0 ∧
         Leaves [.aux] [Obj.auxSeqPassesDone 0, Obj.auxSeqPassesDone 1] ((b.cleared r 292).answered r .ok) c ∧ (∀ r' : Route, r = some r' → c.Answered r' .ok)) ∧
     (∀ r : Option Route, b.reaches r Obj.auxCommand 2 293 Env.quiet → b.aux.state = .running → Does (.seqStop t r .alone) s
       (((b.cleared r 293).modAux fun a => { a with state := .stopping }).answered r .ok)) ∧
     (∀ r : Option Route, b.reaches r Obj.auxCommand 2 293 Env.quiet → b.aux.state = .stopped → Does (.seqStop t r .alone) s
       ((b.cleared r 293).answered r .ok)) ∧
     (∀ r : Option Route, b.reaches r Obj.auxCommand 2 293 Env.quiet → b.aux.state = .starting → ∃ c, Does (.seqStop t r .alone) s c ∧
       c.aux.state = .stopped ∧ c.Fired 609 ∧ (∀ r' : Route, r = some r' → c.Answered r' .ok) ∧
       ∀ r' : Route, Via.write r' ∈ b.aux.startVia → c.Answered r' (.abort .deviceState)) ∧
     (b.aux.state = .stopping → (∀ l : Fin 2, b.aux.lanes[l].active = false) →
       (b.reg Obj.auxRefEarly ≠ 0 → Does (.seqStopComplete t) s
         ((b.exciting fun b => b.modAux fun a => { a with state := .stopped }).raise 609)) ∧
       (b.reg Obj.auxRefEarly = 0 → Does (.seqStopComplete t) s
         ((((b.exciting fun b => b.modAux fun a => { a with state := .stopped }).modAux fun a =>
           { a with refOn := false, refReady := false }).setReg Obj.auxRefReady 0).raise 609))) ∧
     (b.taskAlive 294 = true → Does (.refBufferOn t) s ((b.unlatch 294).modAux fun a => { a with refOn := true })) ∧
     (b.aux.refOn = true → b.aux.refReady = false →
       (b.aux.state = .stopped → Does (.refBufferReady t) s (((b.modAux fun a => { a with refReady := true }).setReg Obj.auxRefReady 1).raise 615)) ∧
       (b.aux.state = .starting → ∃ c, Does (.refBufferReady t) s c ∧ c.aux.state = .running ∧ c.Fired 608 ∧ c.Fired 615 ∧
         Leaves [.aux, .host, .smb, .can] [Obj.auxSeqPassesDone 0, Obj.auxSeqPassesDone 1, Obj.auxRefReady] b c ∧
         ∀ r : Route, Via.write r ∈ b.aux.startVia → c.Answered r .ok))) ∧
  (∀ (t : Time) (l : Fin 2) (s : State),
     let b := s.b.at_ t
     let x := b.aux.lanes[l]
     let p := b.reg (Obj.auxSeqPeriod l)
     (∀ (e : SeqEntry) (rest : List SeqEntry), b.laneList l = e :: rest → b.aux.state = .running → b.passesLeft l = true → x.inPass = false →
       due x.readyAt t = true → (p = 0 ∨ due x.nextPass t = true) → Does (.passStart t l) s (b.modLane l fun y =>
         { y with inPass := true, late := false, entry := 0, readyAt := t, nextPass := if p = 0 then y.nextPass else later y.nextPass (p * 400),
                  repeats := e.repeat_ })) ∧
     (∀ (e : SeqEntry) (rest : List SeqEntry), b.laneList l = e :: rest → b.aux.state = .running → b.passesLeft l = true → x.inPass = true → p ≠ 0 →
       due x.nextPass t = true → x.late = false → Does (.passStart t l) s
         (((b.modLane l fun y => { y with late := true }).bump Obj.auxSeqLatePasses).raise 612)) ∧
     (∀ e : SeqEntry, b.laneEntry l = some e → b.aux.state = .running → x.inPass = true → x.active = false → x.repeats ≠ 0 → due x.readyAt t = true →
       Does (.entryExecution t l) s (b.exciting fun b => (b.modLane l fun y =>
         { y with active := true, repeats := y.repeats - 1, discard := e.discard, samples := e.conv, pairA := none }).gainTake (channelOf e.ch))) ∧
     (∀ (code : BitVec 16) (e : SeqEntry), b.reg Obj.auxAdcMode = 0 → b.laneEntry l = some e → x.active = true → x.discard ≠ 0 →
       Does (.conversionComplete t l code) s (b.modLane l fun y => { y with discard := y.discard - 1 })) ∧
     (∀ (code : BitVec 16) (e : SeqEntry), b.reg Obj.auxAdcMode = 0 → b.laneEntry l = some e → x.active = true → x.discard = 0 →
       b.isSet (Obj.auxAmpChop (channelOf e.ch)) = false → b.isSet (Obj.auxSwap (channelOf e.ch)) = true → b.reg (Obj.auxMode (channelOf e.ch)) = 3 →
       x.pairA = none → Does (.conversionComplete t l code) s (b.modLane l fun y => { y with pairA := some (code.toInt, t - BitVec.ofNat 64 tUs) })) ∧
     (b.reg Obj.auxAdcMode = 0 → Does (.chopReversal t) s (b.modAux fun a => { a with reversed := !a.reversed, chopAt := some t })) ∧
     (b.reg Obj.auxAdcMode ≠ 0 → b.aux.state = .running → b.isSet (Obj.auxWbTest (channelOf (b.reg Obj.auxAdcContChannel))) = true →
       Does (.continuousTestPulse t false) s (b.modAux fun a => { a with pulseAt := some t })))

/-- A sample of a channel whose filter is of order 0 is a result at once, and one of a filtered channel enters its filter; a clamped channel
publishes its forced code, or withholds the sample from its filter (R321, R347, R349). FILTER_WINDOW_BOUNDARY: a due boundary is counted;
before the filter's support is full nothing is published; without a sample in its support it is an empty window (R347, R348). FIFO_READ,
FIFO_BAR0_READ, FIFO_FLUSH, ECHO_PERIOD: a read takes the oldest word and an empty FIFO answers 0x0800_0022, or 0xFF bytes at BAR0; a flush
empties it; a period of a pulse-width echo is split by its value (R331, R352, R446). Where the spec leaves a point open, the model's choice
stands (log entries 36 and 53). -/
def Obligations.SamplesFiltersAndFifo : Prop :=
  (∀ (n : AuxId) (at_ : Time) (x : Int) (b : Block),
     (b.reg (Obj.auxFiltOrder n) = 0 → b.aux.channels[n].clamp = .released → b.admitSample n at_ x = b.publish n (clip x (-32768) 32767) false at_) ∧
     (∀ high : Bool, b.reg (Obj.auxFiltOrder n) = 0 → b.aux.channels[n].clamp = .engaged high →
       b.admitSample n at_ x = b.publish n (if high then 32767 else -32768) true at_) ∧
     (b.reg (Obj.auxFiltOrder n) ≠ 0 → b.aux.channels[n].clamp = .released →
       b.admitSample n at_ x = b.modChannel n fun c => { c with samples := c.samples ++ [(at_, x)] }) ∧
     (∀ high : Bool, b.reg (Obj.auxFiltOrder n) ≠ 0 → b.aux.channels[n].clamp = .engaged high → b.admitSample n at_ x = b)) ∧
  (∀ (t : Time) (n : AuxId) (s : State),
     let b := s.b.at_ t
     let c := b.aux.channels[n]
     let k := b.reg (Obj.auxFiltOrder n)
     let tw := b.windowCycles n * 400
     let at_ := later c.t0 ((c.windows + 1) * tw)
     let held := c.samples.filter fun u => decide (timeDiff at_ u.1 < (k * tw : Nat))
     let moved := b.modChannel n fun c => { c with windows := c.windows + 1, samples := held }
     k ≠ 0 → b.aux.state = .running → due at_ t = true →
     (c.windows + 1 < k → Does (.filterWindowBoundary t n) s moved) ∧
     (k ≤ c.windows + 1 → c.clamp = .released → c.samples = [] → Does (.filterWindowBoundary t n) s (moved.bump (Obj.auxEmptyWindows n))) ∧
     (∀ q : Int, k ≤ c.windows + 1 → c.clamp = .released → filterCode k tw at_ (held.filter fun u => decide (0 ≤ timeDiff at_ u.1)) = some q →
       Does (.filterWindowBoundary t n) s (moved.publish n q false at_) ∧ -32768 ≤ q ∧ q ≤ 32767)) ∧
  (∀ (t : Time) (s : State),
     let b := s.b.at_ t
     (∀ (r : Route) (w : List Byte) (ws : List (List Byte)), b.aux.fifo = w :: ws → b.served = true → b.readCodes r 0x4048 3 = [] →
       Does (.fifoRead t r) s ((b.modAux fun a => { a with fifo := ws }).reply r (.data w))) ∧
     (∀ r : Route, b.aux.fifo = [] → b.served = true → b.readCodes r 0x4048 3 = [] → Does (.fifoRead t r) s (b.reply r (.abort .deviceState))) ∧
     (∀ (w : List Byte) (ws : List (List Byte)), b.aux.fifo = w :: ws →
       Does (.fifoBar0Read t) s ((b.modAux fun a => { a with fifo := ws }).emit (.bar0 (w.take 16)))) ∧
     (b.aux.fifo = [] → Does (.fifoBar0Read t) s (b.emit (.bar0 (List.replicate 16 0xFF)))) ∧
     (∀ r : Option Route, b.reaches r Obj.auxFifoFlush 1 295 Env.quiet → Does (.fifoFlush t r) s
       (((b.cleared r 295).modAux fun a => { a with fifo := [] }).answered r .ok)) ∧
     (∀ o : EchoId, b.reg (Obj.echoMode o) = 1 → 0 ≤ b.echoOut o → b.echoOut o ≤ 65536 → ∃ high low, high + low = b.reg (Obj.echoPeriod o) * 40 ∧
       high = (divHalfAway (b.echoOut o * (b.reg (Obj.echoPeriod o) * 40 : Nat)) 65536).toNat ∧
       Does (.echoPeriod t o) s ((b.modAux fun a =>
         { a with echoes := a.echoes.set o ⟨a.echoes[o].fraction, some (later t (b.reg (Obj.echoPeriod o) * 40 * 400))⟩ }).emit
           (.echo o.val ((b.reg Obj.echoDrive).testBit o.val) high low))))

/-! ## The event fabric -/

/-- TASK_SELECT_WRITE, TASK_LATCH_SAMPLED, FABRIC_FIRE, STORM_REARM, STORM_WINDOW_CLOSE, RELAY_INPUT: a select is stored, and the one before
it kept for the 2 ns in which its events race; a set latch is cleared and its task performed with the latch's stamp; a source is fired by
software and enabled again; a window closes after 1,000 ns; a relay raises its output for an input whose other input had no event in the
last 2 ns (R359, R363 to R371). The storm guard (R368, R369): the first 64 events of a source in its window of 1,000 ns are delivered; the
65th trips the guard, which disables the source, counts the trip and names the source; an event of a source disabled for more than 20 ns
does nothing. An event that is delivered sets the catch latch of a task that selects its source, with a stamp of 1 ns resolution; a latch
already set keeps its stamp, and the merge is counted (R359, R360). Where the spec leaves a point open, the model's choice stands (log
entries 54 and 114). -/
def Obligations.EventsAndStorms : Prop :=
  (∀ (t : Time) (s : State),
     let b := s.b.at_ t
     (∀ (r : Route) (task : TaskId) (source : BitVec 16), b.acceptsObj Env.quiet r (Obj.fabricTaskSelect task) source.toNat = true →
       Does (.taskSelectWrite t r task source) s
         (({ b with fabric := { b.fabric with changes := b.fabric.changes.insert task.val (t, b.reg (Obj.fabricTaskSelect task)) } }.setReg
           (Obj.fabricTaskSelect task) source.toNat).reply r .ok)) ∧
     (∀ (task : TaskId) (rail : List Nat) (l : Latch), b.fabric.latches.get? task = some l → b.taskAlive task = true →
       Does (.taskLatchSampled t task rail Env.quiet) s ((b.unlatch task).taskDo task l.stamp { Env.quiet with merged := l.merged } rail)) ∧
     (∀ (task : TaskId) (rail : List Nat) (e : Env), b.fabric.latches.get? task = none → Does (.taskLatchSampled t task rail e) s b) ∧
     (∀ (r : Route) (source : BitVec 16), b.acceptsObj Env.quiet r Obj.fabricFire source.toNat = true →
       Does (.fabricFire t r source) s ((b.raise source.toNat).reply r .ok)) ∧
     (∀ (r : Route) (source : BitVec 16), b.acceptsObj Env.quiet r Obj.fabricStormRearm source.toNat = true →
       Does (.stormRearm t r source) s ({ b with fabric := { b.fabric with tripped := b.fabric.tripped.erase source.toNat } }.reply r .ok)) ∧
     (∀ (source : SourceId) (w : StormWin), b.fabric.windows.get? source = some w → b.asleep = false → passed w.opened 16000 t = true →
       Does (.stormWindowClose t source) s { b with fabric := { b.fabric with windows := b.fabric.windows.erase source } }) ∧
     (∀ k : Fin 8, b.fabric.relayIn.get? (17 + 2 * k.val) = none →
       Does (.relayInput t k true false) s ({ b with fabric := { b.fabric with relayIn := b.fabric.relayIn.insert (16 + 2 * k.val) t } }.raise (56 + k.val))) ∧
     (∀ (k : Fin 8) (u : Time), b.fabric.relayIn.get? (17 + 2 * k.val) = some u → passed u (2 * tNs) t = false →
       Does (.relayInput t k true false) s { b with fabric := { b.fabric with relayIn := b.fabric.relayIn.insert (16 + 2 * k.val) t } })) ∧
  (∀ (n : Nat) (b : Block),
     (∀ w : StormWin, b.asleep = false → b.fabric.tripped.get? n = none → b.fabric.windows.get? n = some w → passed w.opened 16000 b.now = false →
       w.count < 64 →
       b.routeEvent n = Block.deliver n { b with fabric := { b.fabric with windows := b.fabric.windows.insert n { w with count := w.count + 1 } } }) ∧
     (∀ w : StormWin, b.asleep = false → Map.wf b.fabric.tripped = true → b.fabric.tripped.get? n = none → b.fabric.windows.get? n = some w →
       passed w.opened 16000 b.now = false → 64 ≤ w.count →
       (b.routeEvent n).fabric.tripped.get? n = some b.now ∧ (b.routeEvent n).fabric.stormLast = n ∧
       (b.routeEvent n).fabric.stormTrips = satAdd b.fabric.stormTrips 1 max32 ∧ 48 ∈ (b.routeEvent n).fabric.queue ∧
       (b.routeEvent n).heads = b.heads ∧ (b.routeEvent n).regs = b.regs ∧ (b.routeEvent n).mem = b.mem) ∧
     (∀ u : Time, b.fabric.tripped.get? n = some u → passed u 321 b.now = true → b.routeEvent n = b)) ∧
  (∀ (n : Nat) (b : Block), Map.wf b.fabric.latches = true →
     (b.fabric.latches.get? n = none → (b.latchTask n).fabric.latches.get? n = some ⟨BitVec.ofNat 64 (b.now.toNat / 16 * 16), false⟩) ∧
     (∀ l : Latch, b.fabric.latches.get? n = some l → (b.latchTask n).fabric.latches.get? n = some { l with merged := true } ∧
       (Map.wf b.fabric.coincidences = true → (b.latchTask n).fabric.coincidences.get? n =
         some (satAdd ((b.fabric.coincidences.get? n).getD 0) 1 max32))) ∧
     (∀ m : Nat, m ≠ n → (b.latchTask n).fabric.latches.get? m = b.fabric.latches.get? m))

/-- DICTIONARY_WRITE of `fabric.task_select`: the select of task t is 0x2310 + t ÷ 128, sub-index t mod 128 + 1; an accepted write is a
source that is not reserved, or 0xFFFF, and is then the select; a reserved source is refused with 0x0609_0030 and any other number with
0x0609_0031 (R363). -/
def Obligations.TaskSelects : Prop := ∀ (time : Time) (r : Route) (e : Env) (t : Fin 512) (v : BitVec 16) (s : State),
  let b := s.b.at_ time
  let o := Obj.fabricTaskSelect t.val
  let write : Instr := .dictionaryWrite time r (BitVec.ofNat 16 (0x2310 + t.val / 128)) (BitVec.ofNat 8 (t.val % 128 + 1)) (leBytes 2 v.toNat) e
  o.index = 0x2310 + t.val / 128 ∧ o.sub = t.val % 128 + 1 ∧ b.select t.val = b.reg o ∧
  (b.acceptsObj e r o v.toNat = true → (v.toNat < 1024 ∨ v.toNat = 0xFFFF) ∧ (v.toNat < 1024 → reservedSource v.toNat = false) ∧
    ∃ n, Does write s n ∧ n.select t.val = v.toNat ∧ n.Answered r .ok ∧ n.heads = b.heads ∧ n.mem = b.mem ∧
      ∀ z : Fin 512, z ≠ t → n.select z.val = b.select z.val) ∧
  (b.served = true → b.firmware.recovery = false → r ≠ .smbus → b.ring.minority = false → b.allStopped = true → b.feature 8 = true →
    (v.toNat < 1024 → reservedSource v.toNat = true → Does write s (b.reply r (.abort .range))) ∧
    (1024 ≤ v.toNat → v.toNat ≠ 0xFFFF → Does write s (b.reply r (.abort .tooHigh))))

/-- TIMER_A_TASK, TIMER_B_TASK, TIMER_PERIOD_END, ALARM_DUE: a unit starts with its period, counts to its limit, or arms at its instant; it
stops, zeroes or disarms; a running unit fires at its end, and a periodic one goes on (R372 to R375). -/
def Obligations.TimersRun : Prop := ∀ (t : Time) (u : TimerId) (s : State),
  let b := s.b.at_ t
  let mode := b.reg (Obj.timerMode u)
  let clock := b.reg (Obj.timerClock u)
  let period := b.reg (Obj.timerPeriod u)
  let x : TimerUnit := { b.fabric.timers[u] with period := period, limit := b.reg (Obj.timerLimit u), alarm := BitVec.ofNat 64 (b.reg (Obj.timerAlarm u)) }
  let a := b.unlatch (480 + 2 * u.val)
  let z := b.unlatch (481 + 2 * u.val)
  (b.taskAlive (480 + 2 * u.val) = true →
    (mode = 1 ∨ mode = 2 → Does (.timerATask t u false) s
      (a.modTimer u fun _ => { x with running := true, endAt := later t (if clock = 0 then period * 16 else period * 48828125 / 100) })) ∧
    (mode = 3 → x.count + 1 < x.limit → Does (.timerATask t u false) s (a.modTimer u fun _ => { x with count := x.count + 1 })) ∧
    (mode = 3 → x.limit ≤ x.count + 1 → Does (.timerATask t u false) s ((a.modTimer u fun _ => { x with count := 0 }).raise (32 + u.val))) ∧
    (mode = 4 → clock ≠ 1 → due x.alarm t = false → Does (.timerATask t u false) s (a.modTimer u fun _ => { x with running := true, endAt := x.alarm })) ∧
    (mode = 4 → clock = 1 → Does (.timerATask t u false) s (a.raise 50))) ∧
  (b.taskAlive (481 + 2 * u.val) = true →
    (mode = 1 ∨ mode = 2 ∨ mode = 4 → Does (.timerBTask t u false) s (z.modTimer u fun x => { x with running := false })) ∧
    (mode = 3 → Does (.timerBTask t u false) s (z.modTimer u fun x => { x with count := 0 }))) ∧
  (b.fabric.timers[u].running = true → due b.fabric.timers[u].endAt t = true →
    (mode = 1 → Does (.timerPeriodEnd t u false) s ((b.modTimer u fun x => { x with running := false }).raise (32 + u.val))) ∧
    (mode = 2 → Does (.timerPeriodEnd t u false) s ((b.modTimer u fun x =>
      { x with endAt := later x.endAt (if clock = 0 then x.period * 16 else x.period * 48828125 / 100) }).raise (32 + u.val))) ∧
    (mode = 4 → Does (.alarmDue t u false) s ((b.modTimer u fun x => { x with running := false }).raise (32 + u.val))))

/-! ## The DMA engine -/

/-- DMA_GO, DMA_STOP, DMA_FENCE, DMA_EMPTY_SHADOW, DMA_ABANDON_SLOT, by dictionary write, through BAR0 and a go by its task too: a go makes
a loaded shadow the active set of an idle channel; a stop discards a descriptor without a beat and lets one with beats run on; a fence of an
idle channel proves at once; an abandoned slot is sent anew (R387 to R389, R396, R398). Where the spec leaves a point open, the model's
choice stands (log entry 7). -/
def Obligations.ChannelsAreCommanded : Prop := ∀ (t : Time) (r : Option Route) (c : ChanId) (s : State),
  let b := s.b.at_ t
  let p : Port := match r with | some r => .write r | none => .bar0
  let asked (v : Nat) : Prop := match r with
    | some r => b.acceptsObj Env.quiet r (Obj.dmaCommand c.val) v = true
    | none => b.host.linkUp = true ∧ b.channelViolations c = [] ∧ b.barMinority 0x2400 = false
  (asked 1 → (b.activeOf c).st ≠ 2 → (b.shadowOf c).st = 1 → Does (.dmaGo t p c false) s
    (((b.modDma c fun x => { x with stopped := false }).activate c).answered r .ok)) ∧
  (asked 1 → (b.activeOf c).st = 2 → Does (.dmaGo t p c false) s ((b.modDma c fun x => { x with stopped := false }).answered r .ok)) ∧
  (asked 2 → (b.activeOf c).st = 2 → b.dma.channels[c].begun = false → Does (.dmaStop t r c false) s
    ((((b.modDma c fun x => { x with stopped := true }).setReg (Obj.dmaActiveStatus c) (6 * 2 ^ 28)).modDma c fun x =>
      { x with admitted := false, fetching := false }).answered r .ok)) ∧
  (asked 2 → (b.activeOf c).st = 2 → b.dma.channels[c].begun = true → Does (.dmaStop t r c false) s
    ((b.modDma c fun x => { x with stopped := true }).answered r .ok)) ∧
  (asked 3 → (b.activeOf c).st ≠ 2 → b.dma.channels[c].ending = false → Does (.dmaFence t r c) s
    (((((b.setReg (Obj.dmaArrived c) b.dma.channels[c].lastTag).modDma c fun x =>
      { x with fence := false, fenceTag := b.dma.channels[c].lastTag }).raise (865 + 2 * c.val))).answered r .ok)) ∧
  (asked 4 → (b.shadowOf c).st = 1 → Does (.dmaEmptyShadow t r c) s ((b.setReg (Obj.dmaShadowStatus c) 0).answered r .ok)) ∧
  (4 ≤ c.val → b.taskAlive (416 + c.val) = true → (b.activeOf c).st ≠ 2 → (b.shadowOf c).st = 1 → (b.shadowOf c).pace ≤ 1 →
    Does (.dmaGo t .task c false) s (((b.unlatch (416 + c.val)).modDma c fun x => { x with stopped := false }).activate c)) ∧
  (b.dma.channels[c].stream = true → Does (.dmaAbandonSlot t c) s (b.modDma c fun x => { x with issued := 0 }))

/-- An activated set is the shadow in state 2, field for field, at the first beat of its loops, and the shadow is empty (R386, R388).
DMA_SHADOW_LOAD, DMA_REQUEST, DMA_FENCE_TASK, DMA_STOP_TASK, DMA_LINK_FETCH_DONE: a set that the checker passes is loaded; one that it
refuses is counted, and through BAR0 kept in state 5, where one with a reserved bit of CTRL set is dropped; a fetched descriptor that passes
is loaded; a request of a paced channel is one unit more; the tasks reach the channels of their masks (R387, R391, R394, R398, R400). Where
the spec leaves a point open, the model's choice stands (log entries 56, 115 and 127). -/
def Obligations.ShadowsAndActivation : Prop :=
  (∀ (c : ChanId) (b : Block), Map.wf b.regs = true →
     let n := b.activate c
     n.reg (Obj.dmaActiveSrc c) = b.reg (Obj.dmaShadowSrc c) % 2 ^ 64 ∧ n.reg (Obj.dmaActiveDst c) = b.reg (Obj.dmaShadowDst c) % 2 ^ 64 ∧
     n.reg (Obj.dmaActiveN0 c) = b.reg (Obj.dmaShadowN0 c) % 2 ^ 32 ∧ n.reg (Obj.dmaActiveCtrl c) = b.reg (Obj.dmaShadowCtrl c) % 2 ^ 32 ∧
     n.reg (Obj.dmaActiveTag c) = b.reg (Obj.dmaShadowTag c) % 2 ^ 32 ∧ (n.activeOf c).st = 2 ∧ (n.shadowOf c).st = 0 ∧
     n.dma.channels[c].i2 = 0 ∧ n.dma.channels[c].i1 = 0 ∧ n.dma.channels[c].off = 0 ∧ n.dma.channels[c].begun = false ∧ n.mem = b.mem ∧
     ∀ k : ChanId, k ≠ c → n.dma.channels[k] = b.dma.channels[k]) ∧
  (∀ (t : Time) (c : ChanId) (s : State),
     let b := s.b.at_ t
     (∀ (r : Route) (ctrl : BitVec 32), b.acceptsObj Env.quiet r (Obj.dmaShadowCtrl c) ctrl.toNat = true →
       Does (.dmaShadowLoad t (some r) c ctrl) s (((b.setReg (Obj.dmaShadowCtrl c) ctrl.toNat).setReg (Obj.dmaShadowStatus c) (2 ^ 28)).reply r .ok)) ∧
     (∀ ctrl : BitVec 32, b.host.linkUp = true → b.shadowViolations c = [] → b.barMinority 0x2440 = false →
       (b.checker c { b.shadowOf c with ctrl := ctrl.toNat } = none → Does (.dmaShadowLoad t none c ctrl) s
         ((b.setReg (Obj.dmaShadowCtrl c) ctrl.toNat).setReg (Obj.dmaShadowStatus c) (2 ^ 28))) ∧
       (ctrl.toNat / 256 % 64 ≠ 0 → Does (.dmaShadowLoad t none c ctrl) s b.barDrop) ∧
       (∀ e : AbortCode, ctrl.toNat / 256 % 64 = 0 → b.checker c { b.shadowOf c with ctrl := ctrl.toNat } = some e → Does (.dmaShadowLoad t none c ctrl) s
         (((b.bump Obj.dmaCheckerRefusals).setReg (Obj.dmaShadowCtrl c) ctrl.toNat).setReg (Obj.dmaShadowStatus c) (5 * 2 ^ 28)))) ∧
     (4 ≤ c.val → b.taskAlive (416 + c.val) = true → (b.activeOf c).st = 2 → 2 ≤ (b.activeOf c).pace → b.dma.channels[c].admitted = true →
       b.reg (Obj.dmaPending c) < 65535 → Does (.dmaRequest t c false) s
         ((b.unlatch (416 + c.val)).setReg (Obj.dmaPending c) (b.reg (Obj.dmaPending c) + 1))) ∧
     (b.taskAlive 416 = true → ∃ n, Does (.dmaFenceTask t) s n ∧ n.mem = b.mem ∧ n.heads = b.heads ∧
       (∀ o : Obj, o.sub < 256 → o.index < 0x2400 ∨ 0x2480 ≤ o.index → n.reg o = b.reg o) ∧
       ((b.reg Obj.dmaFenceMask).testBit c.val = true → (b.activeOf c).st ≠ 2 → n.Fired (865 + 2 * c.val))) ∧
     (b.taskAlive 417 = true → ∃ n, Does (.dmaStopTask t false) s n ∧ Leaves [.dma] ((List.finRange 32).map fun (k : ChanId) => Obj.dmaActiveStatus k.val) (b.unlatch 417) n ∧
       (4 ≤ c.val → (b.reg Obj.dmaStopMask).testBit c.val = true → b.dma.channels[c].stream = false → (b.activeOf c).st = 2 →
         n.dma.channels[c].stopped = true)) ∧
     (b.dma.channels[c].fetching = true → (b.activeOf c).st = 2 →
       ((b.shadowOf c).st = 1 → Does (.dmaLinkFetchDone t c) s (b.modDma c fun x => { x with fetching := false })) ∧
       (∀ d : Desc, d = descOf (b.memRead (b.activeOf c).link 64) → (b.shadowOf c).st ≠ 1 → b.checker c d = none →
         Does (.dmaLinkFetchDone t c) s ((b.modDma c fun x => { x with fetching := false }).setDesc true c (d.withState 1 0)))))

/-- FENCE_PROVEN, DMA_BUS_ERROR, DMA_RING_ACK_TIMEOUT: a proof writes its tag and its event; a failed beat ends the descriptor bad, with its
kind, its address, its count and its event (R385, R398, R399). -/
def Obligations.DescriptorsEnd : Prop := ∀ (t : Time) (c : ChanId) (s : State),
  let b := s.b.at_ t
  (b.dma.channels[c].fence = true → b.dma.channels[c].ending = false → Does (.fenceProven t c) s
    (((b.setReg (Obj.dmaArrived c) b.dma.channels[c].fenceTag).modDma c fun x => { x with fence := false }).raise (865 + 2 * c.val))) ∧
  (∀ (kind : Nat) (address : BitVec 64), kind < 16 → b.dma.channels[c].stream = false → (b.activeOf c).st = 2 → (b.shadowOf c).st ≠ 1 →
    ∃ n, Does (.dmaBusError t c kind address false none) s n ∧ n.reg (Obj.dmaActiveStatus c) = 4 * 2 ^ 28 + kind * 2 ^ 24 ∧
      n.reg (Obj.dmaBadAddress c) = address.toNat ∧ n.reg (Obj.dmaBad c) = satAdd (b.reg (Obj.dmaBad c)) 1 max32 % 2 ^ 32 ∧
      n.Fired (864 + 2 * c.val) ∧
      Leaves [.dma, .faults, .smb, .can] [Obj.dmaActiveStatus c, Obj.dmaBad c, Obj.dmaBadAddress c] b n) ∧
  (∀ address : BitVec 64, b.dma.channels[c].stream = false → (b.activeOf c).st = 2 → (b.shadowOf c).st ≠ 1 →
    ∃ n, Does (.dmaRingAckTimeout t c address false) s n ∧ n.reg (Obj.dmaActiveStatus c) = 4 * 2 ^ 28 + 4 * 2 ^ 24 ∧
      n.reg (Obj.dmaBadAddress c) = address.toNat ∧ n.Fired (864 + 2 * c.val) ∧
      Leaves [.dma, .faults, .smb, .can] [Obj.dmaActiveStatus c, Obj.dmaBad c, Obj.dmaBadAddress c] b n)

/-- DMA_BEAT: one beat of the only channel that is active, from the buffer to the buffer: up to 64 bytes of the run stand at the
destination, units swapped, and every other byte of the buffer reads as before (R384, R386, R392, R393). Where the spec leaves a point open,
the model's choice stands (log entry 58). -/
def Obligations.BeatsMoveBytes : Prop := ∀ (t : Time) (c : ChanId) (fill0 fill1 : Nat) (data : List Byte) (s : State),
  let b := s.b.at_ t
  let d := b.activeOf c
  let x := b.dma.channels[c]
  let n := min 64 (d.n0 - x.off)
  let src := ((d.src + d.sstep1 * x.i1 + d.sstep2 * x.i2 + x.off) % 2 ^ 64).toNat
  let dst := ((d.dst + d.dstep1 * x.i1 + d.dstep2 * x.i2 + x.off) % 2 ^ 64).toNat
  (∀ k : ChanId, b.dma.channels[k].stream = false ∧ (k ≠ c → (b.activeOf k).st ≠ 2)) →
  b.asleep = false → d.st = 2 → x.ending = false → d.pace = 0 → d.srcSpace = 0 → d.dstSpace = 0 → memWf b.mem = true →
  ∃ c', Does (.dmaBeat t 0 fill0 fill1 data) s c' ∧
    (∀ i, i < n → memGet c'.mem (dst + i) = (swapBytes d.swap (b.memRead src n)).getD i 0) ∧
    (∀ a, a < dst ∨ dst + n ≤ a → memGet c'.mem a = memGet b.mem a) ∧ c'.heads = b.heads ∧ c'.axes = b.axes

/-! ## The span ring -/

/-- SPAN_TRAINING, SPAN_RETRAIN, TRAINING_COMPLETE, LANE_FAILURE, SPARE_IN_SERVICE, SPAN_DOWN: a span trains, comes up with the lanes that
passed and its neighbour, loses its spare or puts it in service, and goes down, at a failure without a spare too, with its event, its log
entry and its count (R405, R409 to R411). Where the spec leaves a point open, the model's choice stands (log entries 59 and 61). -/
def Obligations.SpansTrainAndFail : Prop := ∀ (t : Time) (k : SpanId) (s : State),
  let b := s.b.at_ t
  (b.reg (Obj.spanState k) = 0 → b.reg (Obj.testSpanLoopback k) = 0 →
    (b.ballsTaken = false → Does (.spanTraining t k) s (b.setReg (Obj.spanState k) 1)) ∧
    (b.taskAlive (384 + k.val) = true → Does (.spanRetrain t k false) s ((b.unlatch (384 + k.val)).setReg (Obj.spanState k) 1))) ∧
  (∀ (lanes : BitVec 5) (neighbour : Option PierId) (closes : Bool), b.reg (Obj.spanState k) = 1 →
    (4 ≤ popCount lanes.toNat 5 → ∃ n, Does (.trainingComplete t k lanes neighbour false closes) s n ∧ n.Fired (768 + k.val) ∧
      n.reg (Obj.spanState k) = (if popCount lanes.toNat 5 = 5 then 2 else 3) ∧ n.reg (Obj.spanNeighbour k) = (match neighbour with | some p => p.val | none => 0xFF) ∧
      (b.reg Obj.ringPierNumber ≠ 0xFF ∨ neighbour = none → n.reg Obj.ringPierNumber = b.reg Obj.ringPierNumber) ∧
      n.reg (Obj.spanLaneMap k) = (if popCount lanes.toNat 5 = 5 then 0x0F else lanes.toNat) ∧
      Leaves ringParts ([Obj.spanState k, Obj.spanLaneMap k, Obj.spanNeighbour k, Obj.ringTopology, Obj.ringConfigured, Obj.ringTimeState,
        Obj.ringPierNumber, Obj.deviceColumnBase] ++ offerRegs) b n) ∧
    (popCount lanes.toNat 5 < 4 → Does (.trainingComplete t k lanes neighbour false closes) s (b.setReg (Obj.spanState k) 0)) ∧
    (Does (.trainingComplete t k lanes neighbour true closes) s ((b.setReg (Obj.spanState k) 0).logFault 0x0040 k.val 0 noSource))) ∧
  (∀ lane : Fin 5, b.spanUp k = true →
    (b.ring.spans[k].spare = some lane.val → Does (.laneFailure t k lane false) s
      ((b.modSpan k fun x => { x with spare := none }).setReg (Obj.spanState k) 3)) ∧
    (∀ z : Nat, b.ring.spans[k].spare = some z → z ≠ lane.val → (b.reg (Obj.spanLaneMap k)).testBit lane.val = true → b.ring.spans[k].changing = none →
      Does (.laneFailure t k lane false) s (b.modSpan k fun x => { x with changing := some lane.val })) ∧
    (b.ring.spans[k].spare = none → (b.reg (Obj.spanLaneMap k)).testBit lane.val = true → Does (.laneFailure t k lane false) s (b.spanDown k))) ∧
  (∀ lane spare : Nat, b.ring.spans[k].changing = some lane → b.ring.spans[k].spare = some spare → ∃ n, Does (.spareInService t k) s n ∧
    n.reg (Obj.spanState k) = 3 ∧ n.reg (Obj.spanLaneMap k) = setBit (clearBit (b.reg (Obj.spanLaneMap k)) lane) spare % 256 ∧
    n.Fired (772 + k.val) ∧ n.ring.spans[k].spare = none ∧ n.ring.spans[k].changing = none ∧
    Leaves [.ring, .keystone, .axis 0, .axis 1, .faults, .smb, .can] ([Obj.spanState k, Obj.spanLaneMap k, Obj.spanSpares k] ++ pageRegs) b n) ∧
  (2 ≤ b.reg (Obj.spanState k) → ∃ n, Does (.spanDown t k) s n ∧ n.reg (Obj.spanState k) = 0 ∧ n.reg (Obj.spanLaneMap k) = 0 ∧
    n.reg (Obj.spanNeighbour k) = 0xFF ∧ n.Fired (770 + k.val) ∧
    Leaves ringParts ([Obj.spanState k, Obj.spanLaneMap k, Obj.spanNeighbour k, Obj.spanDowns k, Obj.ringTopology, Obj.ringCoincidences,
      Obj.ringTimeState] ++ routeRegs ++ pageRegs) b n) ∧
  (b.reg (Obj.spanState k) = 0 → Does (.spanDown t k) s b)

/-- DATA_FRAME_RECEIVED, REPLAY_REQUEST, MESSAGE_FORWARD, RING_DMA_FRAME, ACK_FRAME_RECEIVED, PATH_HOLD_END: a frame that fails its check
asks for a replay and changes nothing else; one for another pier leaves by the other span under that span's next sequence, and stays for a
replay; a message goes on as far as the ring's form says; ring DMA at an abutment is written to its host, elsewhere to the buffer, and a
read is answered; an acknowledgement of what was not delivered does nothing; a path hold ends from the oldest slot (R382, R406 to R417,
R450). ACK_FRAME_RECEIVED: the acknowledgement of a delivered record releases the head's items up to it; the space they held is free, and
nothing else of the pier changes but the stream's place (R218, R450). Where the spec leaves a point open, the model's choice stands (log
entry 61). -/
def Obligations.FramesAndMessages : Prop :=
  (∀ (t : Time) (k : SpanId) (s : State),
     let b := s.b.at_ t
     (∀ (f : Frame) (seq : Nat) (crcOk : Bool), b.spanUp k = true →
       (crcOk = false ∨ seq % 4096 ≠ b.ring.spans[k].rxSeq → Does (.dataFrameReceived t k f seq crcOk) s (b.emit (.replay k.val b.ring.spans[k].rxSeq))) ∧
       (crcOk = true → seq % 4096 = b.ring.spans[k].rxSeq →
         let c := b.modSpan k fun x => { x with rxSeq := (x.rxSeq + 1) % 4096 }
         (f.dest ≠ b.reg Obj.ringPierNumber → c.spanUp (1 - k) = true → c.ring.spans[1 - k].changing = none →
           Does (.dataFrameReceived t k f seq crcOk) s (c.transmit (1 - k) f)) ∧
         (∀ (slot : SlotId) (res : Result), f.dest = b.reg Obj.ringPierNumber → f.cls ≠ 2 → f.dma = none → f.answer = some (slot, res) →
           Does (.dataFrameReceived t k f seq crcOk) s (c.answerSlot slot res)))) ∧
     (∀ seq : Nat, b.spanUp k = true → b.ring.spans[k].replayed = none → Does (.replayRequest t k seq) s
       ((b.ring.spans[k].sent.dropWhile fun f => f.1 != seq).foldl (fun c f => c.emit (.frame k.val f.1 f.2))
         ((b.bump (Obj.spanReplays k)).modSpan k fun x => { x with replayed := some (seq, 1) }))) ∧
     (∀ seq : Nat, b.spanUp k = true → b.ring.spans[k].replayed = some (seq, 8) → ∃ n, Does (.replayRequest t k seq) s n ∧
       n.reg (Obj.spanState k) = 0 ∧ n.Fired (770 + k.val) ∧
       Leaves ringParts ([Obj.spanReplays k, Obj.spanState k, Obj.spanLaneMap k, Obj.spanNeighbour k, Obj.spanDowns k, Obj.ringTopology,
         Obj.ringCoincidences, Obj.ringTimeState] ++ routeRegs ++ pageRegs) b n) ∧
     (∀ (origin : PierId) (banks : List Nat), origin.val ≠ b.reg Obj.ringPierNumber →
       let on (m : RingMsg) : Block := if b.goesOn k origin then b.emit (.forward (1 - k.val) origin.val m) else b
       (∀ f : Nat, Does (.messageForward t k ⟨origin, (.ceiling f), banks⟩) s ((on (.ceiling f)).modRing fun r => { r with ceiling := some f })) ∧
       (∀ n : Nat, Does (.messageForward t k ⟨origin, (.configured n), banks⟩) s ((on (.configured n)).setReg Obj.ringConfigured n)) ∧
       Does (.messageForward t k ⟨origin, .sync, banks⟩) s (on .sync)) ∧
     (∀ (src : PierId) (d : RingDma) (bytes : List Byte),
       (d.host = true → d.read = none → b.abutments.contains (b.reg Obj.ringPierNumber) = true →
         Does (.ringDmaFrame t ⟨src, d⟩ bytes) s (b.emit (.hostWrite (b.reg Obj.ringPierNumber) d.address bytes))) ∧
       (d.host = false → d.read = none → Does (.ringDmaFrame t ⟨src, d⟩ bytes) s (b.memWrite d.address bytes)) ∧
       (∀ z : Nat, d.host = false → d.read = some z → b.spanUp (b.frameSpan src.val) = true → b.ring.spans[b.frameSpan src.val].changing = none →
         Does (.ringDmaFrame t ⟨src, d⟩ bytes) s
           (b.transmit (b.frameSpan src.val) ⟨3, src.val, b.reg Obj.ringPierNumber, b.memRead d.address z, none, none⟩))) ∧
     (∀ (h : HeadId) (seq : BitVec 48) (marker : Bool), b.capture.partitions[h].items = [] → Does (.ackFrameReceived t h seq marker) s b) ∧
     (∀ (h : HeadId) (c : ChanId), c.val = 4 + h.val → b.dma.channels[c].hold = true → Does (.pathHoldEnd t h) s
       (b.modDma c fun x => { x with hold := false, sent := 0, issued := 0 }))) ∧
  (∀ (t : Time) (h : HeadId) (c : ChanId) (seq : BitVec 48) (r : Record) (rest : List Item) (s : State),
     let b := s.b.at_ t
     c.val = 4 + h.val → b.capture.partitions[h].items = .record r :: rest → r.kept = true → r.seq = seq.toNat → 0 < b.dma.channels[c].sent →
     ∃ n, Does (.ackFrameReceived t h seq false) s n ∧ n.capture.partitions[h].items = rest ∧
       n.dma.channels[c].sent = b.dma.channels[c].sent - 1 ∧ n.mem = b.mem ∧ n.regs = b.regs ∧ n.heads = b.heads ∧
       ∀ z : HeadId, z ≠ h → n.capture.partitions[z] = b.capture.partitions[z])

/-- TIME_SYNC_SEND, TIME_SYNC_RECEIVED, HOP_DELAY_EXCHANGE, HOLDOVER_TIMEOUT, TIME_SOURCE_REGAINED, TIME_LATCH: the source sends its syncs;
a follower takes the offset of the syncs on its path and is locked after 1 ms within 1 ns; 8 µs without a sync are holdover; a regained
source is followed again (R420 to R425). Where the spec leaves a point open, the model's choice stands (log entry 60). -/
def Obligations.RingTimeIsKept : Prop := ∀ (t : Time) (s : State),
  let b := s.b.at_ t
  let st := b.reg Obj.ringTimeState
  (st = 4 → Does (.timeSyncSend t) s (b.sendRing .sync)) ∧
  (∀ (k : SpanId) (offset : Int), st = 4 ∨ b.timePath ≠ some k → Does (.timeSyncReceived t ⟨k, offset⟩ false) s b) ∧
  (∀ (k : SpanId) (offset : Int), st = 0 → b.timePath = some k → 1000 < offset.natAbs → Does (.timeSyncReceived t ⟨k, offset⟩ false) s
    (((b.setRegI Obj.ringTimeOffset offset).modRing fun r => { r with lastSync := some t, lockSince := none }).setReg Obj.ringTimeState 1)) ∧
  (∀ (k : SpanId) (offset : Int) (u : Time), st = 1 → b.timePath = some k → offset.natAbs ≤ 1000 → b.ring.lockSince = some u →
    passed u tMs t = true → ∃ n, Does (.timeSyncReceived t ⟨k, offset⟩ false) s n ∧ n.reg Obj.ringTimeState = 2 ∧ n.Fired 779 ∧
      n.ring.lastSync = some t ∧ Leaves [.ring, .head 0, .head 1, .head 2, .head 3] [Obj.ringTimeOffset, Obj.ringTimeState] b n) ∧
  (∀ (k : SpanId) (mean : Int), st ≠ 4 → Does (.hopDelayExchange t k mean) s
    (b.modSpan k fun x => { x with hopDelay := mean + b.regI (Obj.spanTimeAsym k) / 2 })) ∧
  (∀ u : Time, st = 1 ∨ st = 2 → b.ring.lastSync = some u → passed u (8 * tUs) t = true → ∃ n, Does (.holdoverTimeout t) s n ∧
    n.reg Obj.ringTimeState = 3 ∧ n.ring.lockSince = none ∧ n.Fired 780 ∧ Leaves [.ring, .head 0, .head 1, .head 2, .head 3] [Obj.ringTimeState] b n) ∧
  (∀ offset : Int, st = 3 → b.ring.everLocked = true → offset.natAbs ≤ b.reg Obj.ringTimeSlewMax * tNs → Does (.timeSourceRegained t offset) s
    ((b.setReg Obj.ringTimeState 1).modRing fun r => { r with slew := offset })) ∧
  (∀ offset : Int, st = 3 → b.ring.everLocked = true → b.reg Obj.ringTimeSlewMax * tNs < offset.natAbs → ∃ n, Does (.timeSourceRegained t offset) s n ∧
    n.Fired 781 ∧ n.now = t ∧ n.reg Obj.ringTimeState = 1 ∧ n.reg Obj.ringTimeSteps = satAdd (b.reg Obj.ringTimeSteps) 1 max32 % 2 ^ 32 ∧
    ((∀ h : HeadId, b.heads[h].state ≠ .running) → Leaves [] [Obj.ringTimeState, Obj.ringTimeSteps] b n)) ∧
  (b.taskAlive 386 = true → Does (.timeLatch t) s ((b.unlatch 386).setReg Obj.ringTimeLatched (b.stampOf 386).toNat))

/-- A pier without a number takes it from the root (R412, R413): k hops away in the span-1 direction it is pier k, k hops away in the span-0
direction pier `ring.configured` − k, and unnumbered where that value is 0; at the basic level it takes its column base with it.
EPOCH_CHANGE, EPOCH_JOIN: a numbered pier takes the epoch's members, its generation, its lowest member as leader and its authority, which a
majority of the configured piers has, or half of them with pier 0; without authority it is in minority; a pier that comes into its first
epoch takes the ring-wide state with it, and one that joins an epoch that does not take its own state publishes its offset and slews (R427
to R431). RING_WIDE_WRITE, GOVERNOR_CAP_MESSAGE, RING_START: an accepted ring-wide write is ordered by the leader, applied on every member
and answered, and goes to the leader from another member; another pier's cap takes force at a line boundary 10 µs after it left; a ring-wide
start less than 5 ms ahead is refused, one that a member fails names it, and one without heads here ends when every other member's heads run
(R19, R426, R429). Where the spec leaves a point open, the model's choice stands (log entries 60, 63, 106 and 107). -/
def Obligations.EpochsAndRingCommands : Prop :=
  (∀ (reach : List RootInfo) (conf : Nat) (b : Block), b.reg Obj.ringPierNumber = 0xFF →
     (∀ k : Nat, (b.rootOf reach).up = some k → k < 64 → (b.numberFrom reach conf).reg Obj.ringPierNumber = k ∧
       (b.levelInForce Obj.ringLevel ≠ 1 → (b.numberFrom reach conf).reg Obj.deviceColumnBase = 32768 * k)) ∧
     (∀ k : Nat, (b.rootOf reach).up = none → (b.rootOf reach).down = some k →
       (conf = 0 → b.numberFrom reach conf = b) ∧
       (conf ≠ 0 → conf - k < 64 → (b.numberFrom reach conf).reg Obj.ringPierNumber = conf - k)) ∧
     (∀ p : Nat, 0 < p → p < 64 → (b.numberBy 1 p).reg Obj.ringPierNumber = p - 1)) ∧
  (∀ (t : Time) (i : EpochInfo) (s : State),
     let b := s.b.at_ t
     let members := (List.range 64).filter fun p => i.members.getLsbD p
     let formed (conf g : Nat) (n : Block) : Prop := n.ring.members = members ∧ n.ring.generation = g + 1 ∧
       (n.ring.minority = true ↔ ¬ (conf < 2 * members.length ∨ (conf = 2 * members.length ∧ 0 ∈ members))) ∧
       n.reg Obj.ringMembers = members.length ∧ n.reg Obj.ringLeader = (members[0]?).getD 0 ∧ n.Fired 776
     b.ring.start = none → b.reg Obj.ringPierNumber ≠ 0xFF → i.wrapAfter ≠ none →
     (∃ n, Does (.epochChange t i false) s n ∧ Leaves ringParts epochRegs b n ∧
       formed (if b.ring.members = [] then i.wide.configured % 256 else b.reg Obj.ringConfigured) i.generation n) ∧
     (∀ (other : BitVec 64) (generation : Nat) (authority : Bool) (offset : Int),
       let others := (List.range 64).filter fun p => other.getLsbD p
       (b.givesState others authority = true → ∃ n, Does (.epochJoin t i other generation authority offset false) s n ∧
         formed (b.reg Obj.ringConfigured) (max i.generation generation) n ∧
         n.ring.foreign = false ∧ Leaves ringParts epochRegs b n) ∧
       (b.givesState others authority = false → offset.natAbs ≤ b.reg Obj.ringTimeSlewMax * tNs →
         ∃ n, Does (.epochJoin t i other generation authority offset false) s n ∧
           formed (i.wide.configured % 256) (max i.generation generation) n ∧ n.ring.foreign = false ∧
           n.reg Obj.ringTimeRejoinAt = t.toNat ∧ n.reg Obj.ringTimeRejoinEpoch = b.reg Obj.ringEpoch % 2 ^ 32 ∧ n.Fired 785 ∧
           Leaves ringParts ([Obj.ringTimeRejoinOffset, Obj.ringTimeRejoinAt, Obj.ringTimeRejoinEpoch] ++ epochRegs) b n))) ∧
  (∀ (t : Time) (r : Route) (s : State),
     let b := s.b.at_ t
     (∀ (v : BitVec 32) (e : Env), b.accepts e r 0x2601 3 (leBytes 1 v.toNat) = true → 
       (b.leads = true → Does (.ringWideWrite t r .configured v e) s (((b.setReg Obj.ringConfigured (v.toNat % 256)).sendRing
         (.wide .configured (v.toNat % 256) (Fin.ofNat 64 (b.reg Obj.ringPierNumber)))).reply r .ok)) ∧
       (b.leads = false → Does (.ringWideWrite t r .configured v e) s
         ((b.modRing fun x => { x with asked := x.asked ++ [(.configured, v.toNat % 256, .write r)] }).sendRing (.ask .configured (v.toNat % 256))))) ∧
     (∀ (a : AxisId) (v : BitVec 32) (e : Env), b.acceptsObj e r (Obj.axisKeystoneCeiling a) v.toNat = true → b.leads = true →
       ∃ n, Does (.ringWideWrite t r (.ceiling a) v e) s n ∧ n.ring.ceiling = some v.toNat ∧ n.reg (Obj.axisKeystoneCeiling a) = v.toNat ∧
         n.Answered r .ok ∧ Out.ring (.wide (.ceiling a) v.toNat (Fin.ofNat 64 (b.reg Obj.ringPierNumber))) ∈ n.outs ∧
         Leaves [.ring] [Obj.axisKeystoneCeiling a] (b.reply r .ok) n) ∧
     (∀ (pier : PierId) (cap : BitVec 32) (sent : Time),
       (b.allStopped = false → Does (.governorCapMessage t pier cap sent) s
         { b with thermal := { b.thermal with changes := b.thermal.changes ++ [(later sent 160000, pier.val, cap.toNat)] } }) ∧
       (b.allStopped = true → b.thermal.changes = [] → ∃ n, Does (.governorCapMessage t pier cap sent) s n ∧
         n.thermal.caps = b.thermal.caps.insert pier.val cap.toNat ∧ n.reg Obj.deviceLineRateCap = n.lowestCap % 2 ^ 32 ∧
         Leaves [.thermal] [Obj.deviceLineRateCap] b n)) ∧
     (∀ (instant : Time) (banks : List Nat) (failing : Option (PierId × HeadId × AbortCode)) (change : Bool),
       b.acceptsObj { Env.quiet with banks := banks, startFail := failing, epoch := change } r Obj.ringStartAt instant.toNat = true →
       (timeDiff instant t < 80000000 → Does (.ringStart t r instant banks failing change) s (b.reply r (.abort .tooLow))) ∧
       (80000000 ≤ timeDiff instant t → b.startHeads = [] →
         (∀ (p : PierId) (h : HeadId) (c : AbortCode), failing = some (p, h, c) → Does (.ringStart t r instant banks failing change) s
           (((b.setReg Obj.ringStartFail (p.val * 256 + h.val)).raise 787).reply r (.abort c))) ∧
         (failing = none → change = false → ∀ waits : List Nat, waits = b.ring.members.filter (· != b.reg Obj.ringPierNumber) →
           (waits = [] → Does (.ringStart t r instant banks failing change) s
             ((((b.sendRing (.start instant)).modRing fun x => { x with start := none }).raise 786).reply r .ok)) ∧
           (waits ≠ [] → Does (.ringStart t r instant banks failing change) s
             ((b.sendRing (.start instant)).modRing fun x => { x with start := some ⟨some (.write r), [], none, waits, false⟩ }))))))

/-! ## The host port -/

/-- PCIE_RESET_RELEASE, LINK_UP, LINK_DOWN, BUS_MASTER_SET, BUS_MASTER_CLEAR, FUNCTION_LEVEL_RESET, D3HOT_ENTRY, FATAL_ERROR: a pier with
its link up, its bus master enabled, in D0 and with a readout region offers itself as abutment; whatever ends one of these withdraws the
offer (R414, R438 to R440); the link needs its reference and a pier that is neither in reset nor asleep (R523, R533). -/
def Obligations.LinkAndOffers : Prop := ∀ (t : Time) (s : State),
  let b := s.b.at_ t
  let me := b.reg Obj.ringPierNumber
  (Does (.pcieResetRelease t) s ((b.modHost fun x => { x with released := true, ready := b.power.phase == .served }).raise 8)) ∧
  (∀ (speed : Fin 6) (width : Nat), width < 256 → b.asleep = false → b.ballsTaken = false → b.power.phase ≠ .held → b.power.pcieRef = true → ∃ n, Does (.linkUp t speed width) s n ∧ n.host.linkUp = true ∧ n.host.d3hot = false ∧
    n.reg Obj.hostLinkSpeed = speed.val ∧ n.reg Obj.hostLinkWidth = width ∧ n.Fired 832 ∧ (speed.val < 5 ∨ width < 8 → n.Fired 842) ∧
    Leaves ringParts ([Obj.hostLinkSpeed, Obj.hostLinkWidth] ++ offerRegs) b n ∧
    (b.reg Obj.hostBusMaster ≠ 0 → b.reg Obj.bufferReadoutSize ≠ 0 → me ∈ n.ring.offers)) ∧
  (b.host.linkUp = true → ∃ n, Does (.linkDown t) s n ∧ n.host.linkUp = false ∧ n.reg Obj.hostLinkSpeed = 0 ∧ n.reg Obj.hostLinkWidth = 0 ∧
    n.Fired 833 ∧ me ∉ n.ring.offers ∧ (∀ k : SlotId, n.host.slots[k].state = 0 ∧ n.host.slots[k].answer = none) ∧
    Leaves ringParts ([Obj.hostLinkSpeed, Obj.hostLinkWidth] ++ offerRegs) b n) ∧
  (b.reg Obj.hostBusMaster = 0 → ∃ n, Does (.busMasterSet t) s n ∧ n.reg Obj.hostBusMaster = 1 ∧ n.Fired 834 ∧
    Leaves ringParts (Obj.hostBusMaster :: offerRegs) b n) ∧
  (b.reg Obj.hostBusMaster ≠ 0 → Does (.busMasterSet t) s b ∧
    ∃ n, Does (.busMasterClear t) s n ∧ n.reg Obj.hostBusMaster = 0 ∧ n.Fired 835 ∧ me ∉ n.ring.offers ∧
      Leaves ringParts (Obj.hostBusMaster :: offerRegs) b n) ∧
  (∃ n, Does (.functionLevelReset t) s n ∧ n.host.causes = 0 ∧ n.host.causeMask = 0 ∧ n.host.pending = 0 ∧ n.host.dropped = 0 ∧ n.Fired 836 ∧
    n.reg Obj.hostBusMaster = 0 ∧ me ∉ n.ring.offers ∧ n.reg Obj.deviceFeaturesConfirmedLo = b.reg Obj.deviceFeaturesConfirmedLo ∧
    (∀ q : QueueId, n.host.queues[q].error = false ∧ n.host.queues[q].slots = [] ∧ n.reg (Obj.hostQueueEnable q) = 0) ∧
    Leaves ringParts (Obj.hostBusMaster :: queueRegs ++ offerRegs) b n) ∧
  (∃ n, Does (.d3hotEntry t) s n ∧ n.host.d3hot = true ∧ me ∉ n.ring.offers ∧ Leaves ringParts offerRegs b n) ∧
  (∃ n, Does (.fatalError t) s n ∧ n.Fired 843 ∧ me ∉ n.ring.offers ∧ Leaves ringParts offerRegs b n)

/-- MAILBOX_READ, MAILBOX_WRITE, MAILBOX_TABLE_DOWNLOAD, MAILBOX_TABLE_UPLOAD: with the link up and the port ready, a request to this pier
in a slot that is not busy makes the slot busy and is answered with the value read, with success once the value is stored or the table in
force, which is staged in the table region, or once the table has left for host memory (R444, R445). MAILBOX_COMPLETE,
TUNNEL_TARGET_TIMEOUT, TUNNEL_REQUEST_RECEIVED: an answer enters its slot as its response, which is done and counted, with its cause and its
event; a target silent for 100 ms is answered 0x0606_0000; a tunnelled read is answered to its abutment (R55, R444, R445). Where the spec
leaves a point open, the model's choice stands (log entry 68). -/
def Obligations.MailboxRequestsAndAnswers : Prop :=
  (∀ (t : Time) (slot : SlotId) (index : BitVec 16) (sub : BitVec 8) (tag : BitVec 32) (e : Env) (row : Row) (s : State),
     let b := s.b.at_ t
     let r : Route := .mailbox slot
     let busy (request : List Byte) : Block := b.modSlot slot fun x => { x with request := request, state := 1, response := [], answer := none }
     b.host.linkUp = true → b.host.ready = true → b.served = true → b.host.slots[slot].state ≠ 1 →
     (∀ length : BitVec 32, findRow index.toNat sub.toNat = some row → b.readCodes r index.toNat sub.toNat = [] → row.ty ≠ .table → length.toNat ≤ 4064 →
       (row.ty.bits = 0 ∨ length.toNat = row.ty.bits / 8) → ¬ (index = 0x4048 ∧ sub = 3) →
       let c := busy (mailHeader 1 0xFF index.toNat sub.toNat length.toNat tag.toNat 0 ++ [])
       Does (.mailboxRead t slot 0xFF index sub length tag e) s (c.reply r (.data (c.readFor r row index.toNat sub.toNat)))) ∧
     (∀ data : List Byte, findRow index.toNat sub.toNat = some row → data.length ≤ 4064 → data.length * 8 = row.ty.bits →
       let c := busy (mailHeader 2 0xFF index.toNat sub.toNat data.length tag.toNat 0 ++ data)
       c.accepts e r index.toNat sub.toNat data = true → c.writeDo e r index.toNat sub.toNat (leNat data) = none →
       Does (.mailboxWrite t slot 0xFF index sub tag data e) s ((c.storeFor r (row.obj index.toNat sub.toNat) (leNat data)).reply r .ok)) ∧
     (∀ (h : HeadId) (address : BitVec 64) (table : List Byte), index.toNat = 0x6010 + h.val → address.toNat % 4 = 0 → table.length % 4 = 0 →
       table.length < 2 ^ 32 → b.tableCodes r index.toNat = [] → b.contentCodes index.toNat table = [] → b.control.transfers = [] →
       b.firmware.stage = [] → Canonical b → ∃ n, Does (.mailboxTableDownload t slot 0xFF index tag address table e) s n ∧ n.table index.toNat = table ∧
         n.Answered r .ok ∧ Leaves [.host, .tables, .mem] [] b n ∧ ∀ a, table.length ≤ a → memGet n.mem a = memGet b.mem a) ∧
     (∀ (length : BitVec 32) (address : BitVec 64), findRow index.toNat 0 = some row → row.ty = .table → b.readCodes r index.toNat 0 = [] →
       length.toNat % 4 = 0 → address.toNat % 4 = 0 → (b.table index.toNat).length ≤ length.toNat →
       Does (.mailboxTableUpload t slot 0xFF index length tag address e) s
         (((busy (mailHeader 4 0xFF index.toNat 0 length.toNat tag.toNat address.toNat ++ [])).emit
           (.hostWrite (b.reg Obj.ringPierNumber) address.toNat (b.readTable index.toNat))).reply r .ok))) ∧
  (∀ (t : Time) (slot : SlotId) (s : State),
     let b := s.b.at_ t
     let x := b.host.slots[slot]
     (∀ res : Result, x.answer = some res → x.state = 1 → Does (.mailboxComplete t slot) s (((b.modSlot slot fun x =>
       { x with response := mailResponse (b.reg Obj.ringPierNumber) x.request res (Config.reservedBits t.toNat slot.val), state := 2, completions := (x.completions + 1) % 2 ^ 32,
                answer := none }).fireCause slot.val).raise 837)) ∧
     (x.state = 1 → x.answer = none → Does (.tunnelTargetTimeout t slot) s (b.modSlot slot fun x => { x with answer := some (.abort .hardware) })) ∧
     (∀ (abutment : PierId) (index : BitVec 16) (sub : BitVec 8) (length : BitVec 32) (row : Row) (e : Env), b.served = true →
       findRow index.toNat sub.toNat = some row → b.readCodes (.tunnel abutment) index.toNat sub.toNat = [] → row.ty ≠ .table → length.toNat ≤ 4064 →
       (row.ty.bits = 0 ∨ length.toNat = row.ty.bits / 8) → ¬ (index = 0x4048 ∧ sub = 3) →
       Does (.tunnelRequestReceived t abutment 1 index sub length 0 [] [] e) s
         (b.emit (.answer (.tunnel abutment) (.data (b.readFor (.tunnel abutment) row index.toNat sub.toNat))))) ∧
     (∀ (abutment : PierId) (opcode : BitVec 8) (e : Env), b.served = true → opcode = 0 ∨ 4 < opcode.toNat →
       Does (.tunnelRequestReceived t abutment opcode 0 0 0 0 [] [] e) s (b.emit (.answer (.tunnel abutment) (.abort .specifier)))))

/-- QUEUE_ENABLE, QUEUE_DISABLE, QUEUE_ERROR_CLEAR, ACK_POSITION_WRITE, COALESCE_TIMER, HOST_STALL_TIMER: an enabled queue begins with W and
A at 0; A moves on to W at most, of 64-bit counts that wrap, and releases what ends before it, and elsewhere is refused and counted; the
timers signal a slot that waits and a host that stands (R449 to R452). Where the spec leaves a point open, the model's choice stands (log
entry 69). -/
def Obligations.QueuesDeliver : Prop := ∀ (t : Time) (r : Option Route) (q : QueueId) (s : State),
  let b := s.b.at_ t
  let asked (o : Obj) (v : Nat) : Prop := match r with
    | some r => b.acceptsObj Env.quiet r o v = true
    | none => b.host.linkUp = true ∧ b.barMinority 0x2650 = false
  (asked (Obj.hostQueueEnable q) 1 → b.reg (Obj.hostQueueEnable q) = 0 → 2 * b.largestSlot q ≤ 2 ^ b.reg (Obj.hostQueueSizeLog2 q) →
    ∃ n, Does (.queueEnable t r q false) s n ∧ n.reg (Obj.hostQueueEnable q) = 1 ∧ n.reg (Obj.hostQueueWritePos q) = 0 ∧
      n.reg (Obj.hostQueueAckPos q) = 0 ∧ n.host.queues[q].slots = [] ∧ n.host.queues[q].open_ = true ∧
      Leaves [.host, .dma] [Obj.hostQueueEnable q, Obj.hostQueueWritePos q, Obj.hostQueueAckPos q] (b.answered r .ok) n ∧
      (∀ z : QueueId, z ≠ q → n.host.queues[z] = b.host.queues[z]) ∧ (∀ r' : Route, r = some r' → n.Answered r' .ok)) ∧
  (asked (Obj.hostQueueEnable q) 0 → Does (.queueDisable t r q false) s ((b.setReg (Obj.hostQueueEnable q) 0).answered r .ok)) ∧
  (b.host.linkUp = true → b.barMinority 0x2650 = false → b.reg (Obj.hostQueueEnable q) = 1 →
    Does (.queueErrorClear t q) s (b.modQueue q fun x => { x with error := false })) ∧
  (b.host.linkUp = true → b.barMinority 0x2650 = false → b.reg (Obj.hostQueueEnable q) = 0 →
    Does (.queueErrorClear t q) s ((b.modQueue q fun x => { x with error := false }).setReg (Obj.hostQueueEnable q) 0)) ∧
  (∀ position : BitVec 64, asked (Obj.hostQueueAckPos q) position.toNat →
    let by_ := (position.toNat + 2 ^ 64 - b.queueA q) % 2 ^ 64
    (b.queueFill q < by_ → Does (.ackPositionWrite t r q position) s ((b.bump Obj.hostAckRejected).answered r .ok)) ∧
    (by_ ≤ b.queueFill q → ∃ n, Does (.ackPositionWrite t r q position) s n ∧
      n.reg (Obj.hostQueueAckPos q) = position.toNat ∧ n.reg (Obj.hostQueueWritePos q) = b.reg (Obj.hostQueueWritePos q) ∧
      (∀ x, n.host.queues[q].slots.head? = some x → by_ < (x.1 + 2 ^ 64 - b.queueA q) % 2 ^ 64) ∧
      Leaves [.host, .dma, .capture, .ring, .mem] [Obj.hostQueueAckPos q] (b.answered r .ok) n)) ∧
  (∀ u : Time, b.host.queues[q].unsignalled = some u → b.reg (Obj.hostQueueCoalesceUs q) ≠ 0 → passed u (b.reg (Obj.hostQueueCoalesceUs q) * tUs) t = true →
    Does (.coalesceTimer t q) s ((b.modQueue q fun x => { x with signalled := b.queueW q, unsignalled := none }).fireCause (8 + q.val))) ∧
  (b.reg (Obj.hostQueueStallUs q) ≠ 0 → b.host.queues[q].stalled = false → b.queueFill q ≠ 0 →
    passed b.host.queues[q].movedAt (b.reg (Obj.hostQueueStallUs q) * tUs) t = true →
    Does (.hostStallTimer t q false) s (((b.modQueue q fun x => { x with stalled := true }).bump Obj.hostStalls).raise 840) ∧
    Does (.hostStallTimer t q true) s (b.bump Obj.hostNearMisses))

/-- INTERRUPT_CAUSE_CLEAR, INTERRUPT_TASK, AER_CORRECTABLE_ERROR, BAR0_WRITE of the mask, and every cause that fires: a write of 1 clears a
bit of the cause register but for a cause that fires with it; a cause that fires sets its bit, and its message leaves once in a PCI cycle
unless the cause is masked or its table entry is: a masked entry pends (R453 to R455). Nothing but the host port and what leaves changes. -/
def Obligations.InterruptCauses : Prop := ∀ (t : Time) (s : State),
  let b := s.b.at_ t
  (∀ (high : Bool) (mask : BitVec 32) (firing : List Nat), b.host.linkUp = true → ∃ causes : Nat, (∀ n : Nat, causes.testBit n =
      (b.host.causes.testBit n && (firing.contains n || !(if high then mask.toNat * 2 ^ 32 else mask.toNat).testBit n))) ∧
    Does (.interruptCauseClear t high mask firing) s (b.modHost fun x => { x with causes := causes })) ∧
  (∀ (mask : BitVec 64) (e : Env), b.host.linkUp = true → Does (.bar0Write t 0x31008 8 mask [] e) s (b.modHost fun x => { x with causeMask := mask.toNat })) ∧
  (∀ k : Fin 16, b.taskAlive (448 + k.val) = true → Does (.interruptTask t k) s ((b.unlatch (448 + k.val)).fireCause (24 + k.val))) ∧
  (Does (.aerCorrectableError t) s (b.fireCause 40)) ∧
  (∀ (n : Nat) (b : Block),
    let v := if b.feature 5 then (Fin.ofNat 64 (b.reg (Obj.hostVector n)) : Fin 64) else 0
    let c := b.fireCause n
    c.host.causes.testBit n = true ∧ (∀ m, m ≠ n → c.host.causes.testBit m = b.host.causes.testBit m) ∧
    (b.host.causeMask.testBit n = true → c.outs = b.outs ∧ c.host.pending = b.host.pending) ∧
    (b.host.causeMask.testBit n = false → b.host.msix[v].masked = true → c.outs = b.outs ∧ c.host.pending.testBit v.val = true) ∧
    (b.host.causeMask.testBit n = false → b.host.msix[v].masked = false → c.host.pending = b.host.pending ∧
      (b.host.msix[v].sentIn ≠ some (pciCycle b.now) → c.outs = b.outs ++ [.msix v.val]) ∧
      (b.host.msix[v].sentIn = some (pciCycle b.now) → c.outs = b.outs)) ∧
    c.regs = b.regs ∧ c.mem = b.mem ∧ c.heads = b.heads ∧ c.host.queues = b.host.queues ∧ c.host.slots = b.host.slots)

/-! ## The management buses -/

/-- NMT_START_REMOTE_NODE, NMT_STOP_REMOTE_NODE, NMT_ENTER_PRE_OPERATIONAL, NMT_RESET_COMMUNICATION, NMT_RESET_NODE: a command for every
node or for this one changes the NMT state with its event, and leaves the rest of the controller; Reset Communication takes the node-ID,
with the COB-IDs that follow it, and the rates anew and sends the boot-up message (R462 to R464). CAN_ERROR_PASSIVE, CAN_BUS_OFF,
BUS_OFF_RECOVERY, HEARTBEAT_TIMER: the oldest waiting message leaves when the inhibit time ends; the states of the bus show in the counters,
the events and the emergency messages; the heartbeat tells the NMT state (R469 to R471, R485). Where the spec leaves a point open, the
model's choice stands (log entries 72 and 117). -/
def Obligations.NmtAndBusErrors : Prop :=
  (∀ (t : Time) (node : Fin 128) (s : State),
     let b := s.b.at_ t
     let into (n : Nmt) : Block := (b.modCan fun x => { x with nmt := n }).raiseIf (b.can.nmt != n) 928
     (b.canOn = true → b.can.nmt ≠ .initialisation → node.val = 0 ∨ node.val = b.can.nodeId →
       Does (.nmtStartRemoteNode t node) s (into .operational) ∧ Does (.nmtStopRemoteNode t node) s (into .stopped) ∧
       Does (.nmtEnterPreOperational t node) s (into .preOperational)) ∧
     (b.canOn = true → node.val = 0 ∨ node.val = b.can.nodeId →
       (∃ n, Does (.nmtResetCommunication t node) s n ∧ n.can.nmt = .preOperational ∧ n.can.nodeId = n.reg Obj.canNodeId ∧ n.can.sessions = [] ∧
         n.can.nominalRate = n.reg Obj.canNominalRate ∧ n.can.dataRate = n.reg Obj.canDataRate ∧ Out.bootUp n.can.nodeId ∈ n.outs ∧
         (b.levelInForce Obj.mgmtLevel ≠ 1 → n.can.nodeId = (if b.reg Obj.ringPierNumber = 0xFF then 127 else 1 + b.reg Obj.ringPierNumber) % 256) ∧
         Leaves [.can] ([Obj.canNodeId, Obj.canTec, Obj.canRec] ++ (nodeCobIds 0).map (·.1)) b n ∧ n.reg Obj.canTec = 0 ∧ n.reg Obj.canRec = 0) ∧
       (b.reg Obj.canNmtReset = 0 → ∃ n, Does (.nmtResetNode t node) s n ∧ Does (.nmtResetCommunication t node) s n) ∧
       (b.reg Obj.canNmtReset ≠ 0 → Does (.nmtResetNode t node) s (b.restartCores 2))) ∧
     (node.val ≠ 0 → node.val ≠ b.can.nodeId → Does (.nmtStartRemoteNode t node) s b ∧ Does (.nmtStopRemoteNode t node) s b ∧
       Does (.nmtEnterPreOperational t node) s b ∧ Does (.nmtResetCommunication t node) s b ∧ Does (.nmtResetNode t node) s b)) ∧
  (∀ (t : Time) (s : State),
     let b := s.b.at_ t
     (∀ tec rec_ : BitVec 8, b.canOn = true → ∃ n, Does (.canErrorPassive t tec rec_) s n ∧ n.reg Obj.canTec = tec.toNat ∧ n.reg Obj.canRec = rec_.toNat ∧
       n.can.errorPassive = true ∧ n.can.errorRegister.testBit 4 = true ∧ n.Fired 929 ∧ Leaves [.can] [Obj.canTec, Obj.canRec] b n) ∧
     (b.canOn = true → Does (.canBusOff t) s
       ((((b.modCan fun x => { x with busOff := true, sessions := [] }).bump Obj.canBusOffs).setReg Obj.canTec 255).raise 930)) ∧
     (b.can.busOff = true → b.served = true → b.reg Obj.canAutoRecover ≠ 0 → ∃ n, Does (.busOffRecovery t) s n ∧ n.can.busOff = false ∧
       n.can.errorPassive = false ∧ n.reg Obj.canTec = 0 ∧ n.reg Obj.canRec = 0 ∧ n.Fired 931 ∧ Leaves [.can] [Obj.canTec, Obj.canRec] b n) ∧
     (b.can.busOff = true → b.reg Obj.canAutoRecover = 0 → Does (.busOffRecovery t) s b) ∧
     (b.canOn = true → b.can.nmt ≠ .initialisation → b.reg Obj.commHeartbeat ≠ 0 → b.can.heartbeatSent = none → Does (.heartbeatTimer t) s
       ((b.emit (.heartbeat b.can.nodeId b.can.nmt.code)).modCan fun x => { x with heartbeatSent := some t })))

/-- EMCY_INHIBIT_EXPIRY, and every emergency message while the controller can send: it leaves when no inhibit time runs or the time ends
with it and none waits; else it waits as the newest of at most 8, and a further one is dropped and counted; at the end of the time the
oldest leaves and the time of 0x1015, in 100 µs, runs again (R470). -/
def Obligations.EmergencyQueue : Prop := ∀ (m : Emcy) (b : Block), b.canSends = true →
  let inhibit : Option Time := if b.reg Obj.commEmcyInhibit = 0 then none else some (later b.now (b.reg Obj.commEmcyInhibit * 100 * tUs))
  let sent (c : Block) : Prop := c = (({ b with can := { b.can with inhibitUntil := inhibit } }).emit (.emcy m)).raise 933
  (b.can.inhibitUntil = none → sent (b.emcy m)) ∧
  (∀ u : Time, b.can.inhibitUntil = some u →
    (due u b.now = true → b.can.emcyQueue = [] → sent (b.emcy m)) ∧
    (due u b.now = false ∨ b.can.emcyQueue ≠ [] →
      (b.can.emcyQueue.length < 8 → b.emcy m = { b with can := { b.can with emcyQueue := b.can.emcyQueue ++ [m] } }) ∧
      (8 ≤ b.can.emcyQueue.length → b.emcy m = { b with can := { b.can with emcyDropped := satAdd b.can.emcyDropped 1 max32 } }))) ∧
  (∀ (t : Time) (s : State) (u : Time), s.b.can.inhibitUntil = some u → due u t = true →
    (s.b.can.emcyQueue = [] → Does (.emcyInhibitExpiry t) s ((s.b.at_ t).modCan fun x => { x with inhibitUntil := none })) ∧
    (∀ (first : Emcy) (rest : List Emcy), s.b.can.emcyQueue = first :: rest → s.b.canSends = true → ∃ n, Does (.emcyInhibitExpiry t) s n ∧
      n.can.emcyQueue = rest ∧ Out.emcy first ∈ n.outs ∧ n.Fired 933 ∧ n.regs = s.b.regs ∧ n.mem = s.b.mem ∧
      n.can.inhibitUntil = (if s.b.reg Obj.commEmcyInhibit = 0 then none else some (later t (s.b.reg Obj.commEmcyInhibit * 100 * tUs)))))

/-- USDO_REQUEST: in pre-operational and operational the server answers up to four clients: a whole read with the value, an accepted whole
write once it is stored; a fifth client is refused with 0x0504_0005 (R462, R465). A value sent in segments is the one that the first message
found, and data that come in segments are written with the last of them (R25, R31). CAN_SYNC_RECEIVED, TPDO_TASK, TPDO_CHANGE_CHECK,
TPDO_EVENT_TIMER, RPDO_RECEIVED: in operational a TPDO leaves with its mapped bytes when its SYNCs, its task, a change or its timer ask for
it; an RPDO that is too short is not executed and told (R466 to R468). Where the spec leaves a point open, the model's choice stands (log
entries 26 and 27). -/
def Obligations.UsdoAndPdos : Prop :=
  (∀ (t : Time) (client : Fin 128) (index : BitVec 16) (sub : BitVec 8) (e : Env) (row : Row) (s : State),
     let b := s.b.at_ t
     let r : Route := .can client
     let c := if b.can.sessions.contains client.val then b else b.modCan fun x => { x with sessions := x.sessions ++ [client.val] }
     b.usdoServes = true →
     (client.val ∉ b.can.sessions → 4 ≤ b.can.sessions.length → ∀ (w : Option (List Byte)) (p : Portion),
       Does (.usdoRequest t client index sub ⟨w, p⟩ e) s (b.reply r (.abort .outOfMemory))) ∧
     (client.val ∈ b.can.sessions ∨ b.can.sessions.length < 4 → findRow index.toNat sub.toNat = some row →
       (b.readCodes r index.toNat sub.toNat = [] →
         (¬ (index = 0x4048 ∧ sub = 3) → Does (.usdoRequest t client index sub ⟨none, .whole⟩ e) s
           (c.reply r (.data (c.readFor r row index.toNat sub.toNat)))) ∧
         (∀ n : Nat, n < (b.readFor r row index.toNat sub.toNat).length → b.transferOf r index.toNat = none →
           ∃ m, Does (.usdoRequest t client index sub ⟨none, .first n⟩ e) s m ∧ m.Answered r (.data ((b.readFor r row index.toNat sub.toNat).take n)) ∧
             m.transferOf r index.toNat =
               some ⟨r, index.toNat, sub.toNat, .read, none, (b.readFor r row index.toNat sub.toNat).drop n, [], t⟩ ∧
             client.val ∈ m.can.sessions ∧ Leaves [.can, .control] [] b m)) ∧
       (∀ data : List Byte, c.accepts e r index.toNat sub.toNat data = true → c.writeDo e r index.toNat sub.toNat (leNat data) = none →
         Does (.usdoRequest t client index sub ⟨some data, .whole⟩ e) s ((c.storeFor r (row.obj index.toNat sub.toNat) (leNat data)).reply r .ok)) ∧
       (∀ (data : List Byte) (n : Nat), Does (.usdoRequest t client index sub ⟨some data, .first n⟩ e) s ((c.transferDrop r index.toNat).modControl
         fun x => { x with transfers := x.transfers ++ [⟨r, index.toNat, sub.toNat, .write, none, data, [], t⟩] })) ∧
       (∀ (data : List Byte) (n : Nat) (x : Transfer), b.transferOf r index.toNat = some x → passed x.lastAt (tSec + 1) t = false →
         Does (.usdoRequest t client index sub ⟨some data, .next n true false⟩ e) s
           ((c.transferDrop r index.toNat).dictWrite e r index.toNat x.sub (x.bytes ++ data))))) ∧
  (∀ (t : Time) (n : Fin 8) (s : State),
     let b := s.b.at_ t
     let sent (b : Block) : Block := (b.emit (.tpdo n.val (b.tpdoBytes n.val))).modTpdo n fun x =>
       { x with syncs := 0, lastData := some (b.tpdoBytes n.val), lastSent := some t }
     b.pdosRun = true → (b.reg (Obj.tpdoCobId n)).testBit 31 = false → b.reg (Obj.tpdoMapCount n) ≠ 0 →
     (b.reg (Obj.tpdoType n) = 0 → b.taskAlive (464 + n.val) = true → Does (.tpdoTask t n false) s (sent (b.unlatch (464 + n.val)))) ∧
     (b.reg (Obj.tpdoType n) ≠ 0 → b.taskAlive (464 + n.val) = true → Does (.tpdoTask t n false) s (b.unlatch (464 + n.val))) ∧
     (b.tpdoEvent n = true → b.reg (Obj.tpdoEventTimer n) ≠ 0 → b.can.tpdos[n].lastSent = none → Does (.tpdoEventTimer t n) s (sent b)) ∧
     (b.tpdoEvent n = true → b.can.tpdos[n].lastSent = none → b.can.tpdos[n].lastData = none → (∀ k : Fin 8, k ≠ n → b.tpdoEvent k = false) →
       Does (.tpdoChangeCheck t) s (sent b)) ∧
     (b.reg (Obj.tpdoType n) = 1 → (∀ k : Fin 8, k ≠ n → b.reg (Obj.tpdoType k) = 0) → Does (.canSyncReceived t) s (sent b)) ∧
     (b.reg (Obj.tpdoType n) = 2 → b.can.tpdos[n].syncs = 0 → (∀ k : Fin 8, k ≠ n → b.reg (Obj.tpdoType k) = 0) →
       Does (.canSyncReceived t) s (b.modTpdo n fun x => { x with syncs := 1 })) ∧
     (∀ (data : List Byte) (e : Env), (b.reg (Obj.rpdoCobId n)).testBit 31 = false →
       (b.reg (Obj.rpdoMapCount n) = 0 → Does (.rpdoReceived t n data e) s b) ∧
       (∀ (entry : Nat) (row : Row), b.reg (Obj.rpdoMapCount n) = 1 → b.reg (Obj.rpdoMap n 0) = entry →
         (data.length < entry % 256 / 8 → Does (.rpdoReceived t n data e) s (b.emcyCause 0x8210 4 0 noSource)) ∧
         (let c : Block := { b with outs := [] }
          let share := data.take (entry % 256 / 8)
          entry % 256 / 8 ≤ data.length → findRow (entry / 65536) (entry / 256 % 256) = some row →
          c.accepts e (.can 0) (entry / 65536) (entry / 256 % 256) share = true → c.writeDo e (.can 0) (entry / 65536) (entry / 256 % 256) (leNat share) = none →
          Does (.rpdoReceived t n data e) s ((b.storeFor (.can 0) (row.obj (entry / 65536) (entry / 256 % 256)) (leNat share)).reply (.can 0) .ok)))))

/-- SMB_STATUS, SMB_ALERT_CAUSE_READ, SMB_ALERT_CAUSE_WRITE, SMB_TEMPERATURE, SMB_ALERT_RESPONSE, SMB_ALERT_TASK, SMB_SCL_TIMEOUT: awake,
the target answers a read with its bytes and the PEC over all of the transaction, clears the causes written, and answers the alert response
address with the end of its address set that the class names (R474, R475, R479 to R484). SMB_REQUEST, SMB_RESPONSE,
SMB_RESPONSE_HOLD_EXPIRY: a request with a good PEC that finds no other in progress is executed and its answer is the response, which is
read with its status; a bad PEC is counted and executes nothing; the hold frees the target (R474 to R476). Where the spec leaves a point
open, the model's choice stands (log entries 73, 74 and 89). -/
def Obligations.SmbusTransactions : Prop :=
  (∀ (t : Time) (s : State),
     let b := s.b.at_ t
     let started := b.modSmb fun x => { x with lastStart := t }
     let a := BitVec.ofNat 8 (2 * b.smb.address)
     let told (code : Byte) (bytes : List Byte) : Block :=
       (started.emit (.smb (bytes ++ [BitVec.ofNat 8 (pec ([a, code, a + 1] ++ bytes))]))).smbStop
     b.served = true →
     (∃ v : Byte, Does (.smbStatus t) s (told 3 [v]) ∧ v.getLsbD 7 = b.smb.executing ∧ v.getLsbD 5 = b.alertAsserted ∧ v.getLsbD 4 = false ∧
       v.getLsbD 3 = b.ring.minority) ∧
     (Does (.smbAlertCauseRead t) s (told 4 (leBytes 4 (b.withOpen 32 0x8000003F b.smb.cause 4)))) ∧ (Does (.smbTemperature t) s (told 5 (leBytes 2 (b.reg Obj.thermalCase)))) ∧
     (∀ mask : BitVec 32, b.custody.recovery = none → ∃ n, Does (.smbAlertCauseWrite t mask 0 true) s n ∧ n.smb.cause = clearBits b.smb.cause mask.toNat ∧
       Leaves [.smb] [Obj.smbCoincidences] b n) ∧
     (∀ mask again : BitVec 32, Does (.smbAlertCauseWrite t mask again false) s (((started.bump Obj.smbPecErrors).raise 945).smbStop)) ∧
     (b.smb.owesUrgent = true → ∃ n byte, Does (.smbAlertResponse t false false) s n ∧ n.smb.owesUrgent = false ∧ n.smb.owesNormal = b.smb.owesNormal ∧
       Leaves [.smb] [] b n ∧
       n.Fired 948 ∧ Out.smb [byte, BitVec.ofNat 8 (pec [0x19, byte])] ∈ n.outs ∧
       byte = BitVec.ofNat 8 (2 * ((smbSet b.smb.address b.smb.mask).head?).getD b.smb.address)) ∧
     (b.smb.owesUrgent = false → b.smb.owesNormal = true → ∃ n byte, Does (.smbAlertResponse t false false) s n ∧ n.smb.owesNormal = false ∧
       Leaves [.smb] [] b n ∧
       Out.smb [byte, BitVec.ofNat 8 (pec [0x19, byte])] ∈ n.outs ∧
       byte = BitVec.ofNat 8 (2 * ((smbSet b.smb.address b.smb.mask).getLast?).getD b.smb.address)) ∧
     (b.smb.owesUrgent = true → Does (.smbAlertResponse t true false) s ((started.bump Obj.smbAraLosses).smbStop)) ∧
     (b.taskAlive 472 = true → b.smb.cause.testBit 31 = false → ∃ n, Does (.smbAlertTask t) s n ∧ n.smb.cause.testBit 31 = true ∧
       Leaves [.smb] [] (b.unlatch 472) n) ∧
     (Does (.smbSclTimeout t false) s ((b.bump Obj.smbTimeouts).raise 946)) ∧ (Does (.smbSclTimeout t true) s ((b.bump Obj.smbNearMisses).smbStop))) ∧
  (∀ (t : Time) (index : BitVec 16) (sub : BitVec 8) (e : Env) (s : State),
     let b := s.b.at_ t
     let started := b.modSmb fun x => { x with lastStart := t }
     let taken := ((started.modSmb fun x => { x with executing := true, response := none }).raise 944).smbStop
     b.served = true →
     (∀ (row : Row) (offset : BitVec 16) (len : BitVec 8), b.smb.executing = false → b.smb.response = none → findRow index.toNat sub.toNat = some row →
       b.readCodes .smbus index.toNat sub.toNat = [] → len.toNat ≠ 0 → len.toNat ≤ 240 →
       offset.toNat + len.toNat ≤ (taken.readFor .smbus row index.toNat sub.toNat).length →
       Does (.smbRequest t 1 index sub offset len [] true e) s
         (taken.reply .smbus (.data (slice (taken.readFor .smbus row index.toNat sub.toNat) offset.toNat len.toNat)))) ∧
     (∀ (op len : BitVec 8) (offset : BitVec 16) (data : List Byte), b.smb.executing = false → b.smb.response = none →
       Does (.smbRequest t op index sub offset len data false e) s (((started.bump Obj.smbPecErrors).raise 945).smbStop)) ∧
     (∀ (op len : BitVec 8) (offset : BitVec 16) (data : List Byte) (ok : Bool), b.smb.executing = true →
       Does (.smbRequest t op index sub offset len data ok e) s ((started.bump Obj.smbBusyNacks).smbStop)) ∧
     (∀ x : SmbResponse, b.smb.executing = false → b.smb.response = some x → ∃ n, Does (.smbResponse t) s n ∧ n.smb.response = some { x with read := true } ∧
       (x.result = .ok → ∃ p : Byte, Out.smb [1, 0, p] ∈ n.outs) ∧ Leaves [.smb] [] b n ∧
       (passed x.readyAt (b.reg Obj.smbResponseHold * tMs) t = true →
         Does (.smbResponseHoldExpiry t) s (b.modSmb fun y => { y with response := some { x with read := true } }))))

/-! ## Custody and firmware -/

/-- CUSTODY_ENROL, CUSTODY_PROPOSE, PROPOSAL_INCOMPLETE_TIMEOUT: a key signed with the nonce is set while it is unset; a record that comes
whole is evaluated; a proposal that stands under R493 waits for its verdict for 60 s; a record not finished within 1 s is given up (R489,
R492 to R494). Where the spec leaves a point open, the model's choice stands (log entries 75, 76 and 128). -/
def Obligations.CustodyProposals : Prop := ∀ (t : Time) (r : Route) (board : Bool) (s : State),
  let b := s.b.at_ t
  let index := if board then 0x2118 else 0x2110
  let free (sub : Nat) : Prop := ∀ row, findRow index sub = some row → b.lookCodes r index sub = [] ∧ b.accessCodes r index sub row = []
  b.served = true →
  (∀ record : List Byte, free 3 → record.length = 193 → keyUnset (b.custodianKey board) = true →
    (record.head? = some 4 → signedBy (record.take 97) (record.take 97 ++ b.custody.nonce) (record.drop 97) = true → ∃ n, Does (.custodyEnrol t r board record) s n ∧
      n.custodianKey board = record.take 97 ∧ n.custodianKey (!board) = b.custodianKey (!board) ∧ n.custody.nonce.length = 32 ∧ n.Fired 968 ∧
      n.Answered r .ok ∧ Leaves [.custody] [] (b.reply r .ok) n) ∧
    (record.head? ≠ some 4 ∨ signedBy (record.take 97) (record.take 97 ++ b.custody.nonce) (record.drop 97) = false → Does (.custodyEnrol t r board record) s
      (((b.bump Obj.custodyBadSignatures).raise 964).reply r (.abort .notStored)))) ∧
  (∀ (record : List Byte) (othersRun : Bool), free 1 → record.length ≤ 1024 → 6 ≤ record.length → recLength record = record.length →
    b.draftOf board = none → Does (.custodyPropose t r board 0 record othersRun) s (b.proposalEvaluate board r record othersRun)) ∧
  (∀ (record : List Byte) (othersRun : Bool), b.provisioned = true → b.custody.commit = none → b.custody.pending = none → recForm record = true →
    recKind record = 0 → fieldU record 1 1 = (if board then 2 else 1) → fieldU record 8 4 = b.custody.generation →
    fieldU record 0x0C 4 = b.reg Obj.commIdentitySerial → slice record 0x10 32 = b.custody.nonce → b.recordSigned board record = true →
    recReserved record = false → b.recordCodes othersRun record = [] → let n := b.proposalEvaluate board r record othersRun
      n.custody = { b.custody with pending := some ⟨record, board, later t (60 * tSec)⟩ } ∧ Out.event 960 ∈ n.outs ∧ Out.answer r .ok ∈ n.outs ∧
      n.regs = b.regs ∧ n.mem = b.mem) ∧
  (∀ d : Draft, b.draftOf board = some d → passed d.startedAt tSec t = true → ∃ n, Does (.proposalIncompleteTimeout t board) s n ∧
    n.draftOf board = none ∧ n.draftOf (!board) = b.draftOf (!board) ∧ n.custody.pending = b.custody.pending ∧
    Leaves [.custody, .host, .smb, .can] [] b n ∧ ∀ r : Route, d.route = some r → n.Answered r (.abort .timedOut))

/-- CUSTODY_VERDICT, PROPOSAL_WINDOW_EXPIRY, COMMIT_COMPLETE: the other custodian's signed approval begins a commit, its decline ends the
proposal, and so does the end of its 60 s; a commit puts the changes in force, raises the generation by 1 and is answered (R495 to R498).
RECOVERY_DELAY_EXPIRY, RECOVERY_PROGRESS_SAVE, RECOVERY_REMINDER: a recovery whose delay has passed commits unless a decline meets it; its
progress is saved; it is told again every 24 h (R501, R502). Where the spec leaves a point open, the model's choice stands (log entries 75
and 77). -/
def Obligations.VerdictsCommitsAndRecoveries : Prop :=
  (∀ (t : Time) (r : Route) (board : Bool) (s : State),
     let b := s.b.at_ t
     let index := if board then 0x2118 else 0x2110
     (∀ (data : List Byte) (p : Proposal) (othersRun : Bool), b.served = true →
       (∀ row, findRow index 2 = some row → b.lookCodes r index 2 = [] ∧ b.accessCodes r index 2 row = []) → data.length = 160 → b.provisioned = true →
       b.custody.commit = none → b.custody.recovery = none → b.custody.pending = some p → p.board ≠ board → Config.sha384 p.record = slice data 8 48 →
       signedBy (b.custodianKey board) (data.take 0x40) (data.drop 0x40) = true → fieldU data 0 1 = 1 → fieldU data 1 1 = (if board then 2 else 1) →
       fieldU data 3 1 = 0 → zeroAt data 0x38 8 = true → fieldU data 4 4 = b.custody.generation →
       (fieldU data 2 1 = 1 → b.recordCodes othersRun p.record = [] → Does (.custodyVerdict t r board data false othersRun) s
         (b.modCustody fun x => { x with commit := some ⟨p.record, false, some r⟩ })) ∧
       (fieldU data 2 1 = 0 → ∃ n, Does (.custodyVerdict t r board data false othersRun) s n ∧ n.custody.pending = none ∧
         n.custody.generation = b.custody.generation ∧ n.reg Obj.custodyDeclines = satAdd (b.reg Obj.custodyDeclines) 1 max32 % 2 ^ 32 ∧ n.Fired 963 ∧
         n.Answered r .ok ∧ Leaves [.custody] [Obj.custodyDeclines] (b.reply r .ok) n)) ∧
     (∀ p : Proposal, b.custody.pending = some p → due p.ends t = true → b.custody.commit = none → ∃ n, Does (.proposalWindowExpiry t) s n ∧
       n.custody.pending = none ∧ n.custody.generation = b.custody.generation ∧ n.custody.hostKey = b.custody.hostKey ∧ n.Fired 962 ∧
       n.reg Obj.custodyExpiries = satAdd (b.reg Obj.custodyExpiries) 1 max32 % 2 ^ 32 ∧
       Leaves [.custody] [Obj.custodyExpiries] b n) ∧
     (∀ (c : Commit) (cs : List Change), b.custody.commit = some c → recChanges c.record = some cs → (∀ x ∈ cs, x.index ≠ 0x2143) →
       ∃ n, Does (.commitComplete t) s n ∧ n.custody.commit = none ∧ n.custody.recovery = none ∧ n.custody.generation = b.custody.generation + 1 ∧
         n.custody.nonce.length = 32 ∧ n.Fired 961 ∧ (∀ r' : Route, c.route = some r' → n.Answered r' .ok) ∧ n.mem = b.mem ∧ n.heads = b.heads ∧
         (∀ (key : List Byte) (clean : Bool), cs = [⟨0x2120, 0, key, clean⟩] → n.custody.hostKey = key ∧ n.custody.boardKey = b.custody.boardKey ∧ n.regs = b.regs) ∧
         (∀ (v : List Byte) (clean : Bool), cs = [⟨0x2123, 0, v, clean⟩] → n.reg Obj.custodyFwLock = leNat v % 256 ∧ n.custody.hostKey = b.custody.hostKey))) ∧
  (∀ (t : Time) (q : Recovery) (s : State),
     let b := s.b.at_ t
     b.custody.recovery = some q →
     (b.recoveryLeft q = 0 → b.custody.commit = none → b.served = true → b.recordCodes false q.record = [] →
       Does (.recoveryDelayExpiry t false) s (b.modCustody fun x => { x with commit := some ⟨q.record, true, none⟩ }) ∧
       Does (.recoveryDelayExpiry t true) s b) ∧
     (b.recoveryLeft q ≠ 0 → Does (.recoveryDelayExpiry t false) s b) ∧
     Does (.recoveryProgressSave t) s (b.modCustody fun x => { x with recovery := some { q with saved := b.recoveryLeft q } }) ∧
     Does (.recoveryReminder t) s (b.emcyCause 0xFF02 7 0 0xFFFF))

/-- STAGE_CHECK_COMPLETE, FW_WRITE_SLOT, SLOT_WRITE_COMPLETE, FW_ACTIVATE, FW_CONFIRM, TRIAL_EXPIRY: a staged image is checked, written to
the slot that does not run, activated by a restart into trial, and confirmed; a trial that is not confirmed in time restarts the cores (R505
to R507). ATTEST_NONCE: a nonce of 32 bytes is answered with a report that holds it, signed with one more leaf; without a leaf left it is
refused with 0x0800_0022 and told (R511, R512). Where the spec leaves a point open, the model's choice stands (log entries 15, 19 and 78).
-/
def Obligations.FirmwareAndAttestation : Prop :=
  (∀ (t : Time) (r : Route) (s : State),
     let b := s.b.at_ t
     let run := b.firmware.running
     let other := 1 - run
     let staged := b.placeRead b.firmware.stage
     let check := imageCheck staged (b.reg Obj.fwSecurityFloor)
     (b.firmware.status = 1 → Does (.stageCheckComplete t) s
       ((b.modFirmware fun x => { x with status := check }).raise (if check = 2 then 969 else 970))) ∧
     (b.acceptsObj Env.quiet r Obj.fwCommand 1 = true → b.firmware.status = 2 → b.firmware.slots[run].state ≠ 2 → b.firmware.writing = false →
       Does (.fwWriteSlot t r) s (((b.modSlotFw other fun x => { x with state := 4 }).modFirmware fun x => { x with writing := true }).reply r .ok)) ∧
     (b.firmware.writing = true → ∀ verified : Bool, ∃ n, Does (.slotWriteComplete t verified) s n ∧ n.firmware.writing = false ∧
       n.firmware.slots[other].image = staged ∧ n.firmware.slots[other].state = (if verified && check == 2 then 1 else 4) ∧
       n.firmware.slots[run] = b.firmware.slots[run] ∧ n.Fired 971 ∧ Leaves [.firmware] [] b n) ∧
     (∀ othersRun : Bool, b.acceptsObj { Env.quiet with othersRun := othersRun } r Obj.fwCommand 2 = true → b.custody.commit = none →
       b.firmware.writing = false → Does (.fwActivate t r othersRun) s
         (((b.reply r .ok).modSlotFw other fun x => { x with state := 2 }).restartCores 1)) ∧
     (b.acceptsObj Env.quiet r Obj.fwCommand 3 = true → b.firmware.slots[run].state = 2 → ∃ n, Does (.fwConfirm t r false) s n ∧
       n.firmware.slots[run] = { b.firmware.slots[run] with state := 3 } ∧ n.firmware.slots[other].state ≠ 3 ∧ n.firmware.trialEnds = none ∧ n.Fired 973 ∧
       n.Answered r .ok ∧ Leaves [.firmware] [Obj.fwSecurityFloor] (b.reply r .ok) n) ∧
     (b.acceptsObj Env.quiet r Obj.fwCommand 3 = true → b.firmware.slots[run].state ≠ 2 →
       Does (.fwConfirm t r false) s (b.reply r (.abort .deviceState))) ∧
     (∀ u : Time, b.firmware.trialEnds = some u → due u t = true → b.firmware.slots[run].state = 2 → Does (.trialExpiry t) s (b.restartCores 1))) ∧
  (∀ (t : Time) (r : Route) (nonce : List Byte) (s : State),
     let b := s.b.at_ t
     b.served = true → (∀ row, findRow 0x2160 0 = some row → b.lookCodes r 0x2160 0 = [] ∧ b.accessCodes r 0x2160 0 row = []) → nonce.length = 32 →
     (b.attest.leaf < lmsLeaves → ∃ n, Does (.attestNonce t r nonce) s n ∧ n.attest.leaf = b.attest.leaf + 1 ∧
       n.attest.report.take (b.reportBody nonce).length = b.reportBody nonce ∧ n.attest.report.length = (b.reportBody nonce).length + 1868 ∧ n.Fired 977 ∧
       (lmsLeaves - (b.attest.leaf + 1) ≤ 10485 → n.Fired 978) ∧ n.Answered r .ok ∧ Leaves [.attest] [] (b.reply r .ok) n) ∧
     (lmsLeaves ≤ b.attest.leaf → Does (.attestNonce t r nonce) s
       (((b.raise 979).logFault 0x0080 noUnit 0 979).reply r (.abort .deviceState))))

/-! ## Power, thermal, test and service -/

/-- POWER_ON, RESET_PIN, SUPPLY_FAULT, REF_LOST, THERMAL_TRIP, DICTIONARY_RESET, SEQUENCE_VIOLATION: a pier reset holds the pier in reset
with its cause, counted, every head stopped and every number at its reset value but for what the nonvolatile store keeps; while it is held a
further source adds its cause, those of a supply, the reference or the die in the cycle in which the reset began (R518, R520, R523, R526,
R530). PIER_RESET_RELEASE, CORE_RESTART_REQUEST, CORE_WATCHDOG_EXPIRY, CORES_RUNNING: a release serves the dictionary with source 0 and the
boot-up message; a restart loses the confirmed features, stops the heads and ends downloads, and is followed by service again (R527, R528,
R530, R7). Where the spec leaves a point open, the model's choice stands (log entries 79 and 120). -/
def Obligations.PierResetsAndReleases : Prop :=
  (∀ (t : Time) (s : State),
     let b := s.b.at_ t
     let reset (causes : Nat) (n : Block) : Prop := n.power.phase = .held ∧ n.power.causes = causes ∧
       (b.custody.commit = none → n.reg Obj.powerResets = satAdd (b.reg Obj.powerResets) 1 max32 % 2 ^ 32) ∧ n.saved = b.saved ∧ n.heads = Vector.replicate 4 freshHead ∧
       n.attest.leaf = b.attest.leaf ∧ n.repair = b.repair ∧ n.custody.pending = none ∧ n.control.transfers = [] ∧ n.tables = []
     (∃ n, Does (.powerOn t) s n ∧ reset 1 n) ∧
     (b.power.phase ≠ .held → (∃ n, Does (.resetPin t) s n ∧ reset 2 n) ∧ (∃ n, Does (.supplyFault t) s n ∧ reset 4 n) ∧
       (∃ n, Does (.refLost t) s n ∧ reset 16 n) ∧ (∃ n, Does (.thermalTrip t) s n ∧ reset 32 n) ∧
       (∀ rail : Fin 11, ∃ n, Does (.sequenceViolation t rail) s n ∧ reset 8 n ∧ n.power.violation = some rail.val)) ∧
     (∀ r : Route, b.acceptsObj Env.quiet r Obj.powerReset signatureReset = true → ∃ n, Does (.dictionaryReset t r) s n ∧ reset 64 n ∧ n.Answered r .ok) ∧
     (b.power.phase = .held →
       let adds (bit : Nat) : Block :=
         (b.modPower fun x => { x with causes := setBit x.causes bit }).setReg Obj.powerResetCause (setBit b.power.causes bit)
       Does (.resetPin t) s (adds 1) ∧
       (plinthCycle b.power.resetAt = plinthCycle t → Does (.supplyFault t) s (adds 2) ∧ Does (.refLost t) s (adds 4) ∧ Does (.thermalTrip t) s (adds 5)) ∧
       (plinthCycle b.power.resetAt ≠ plinthCycle t → Does (.supplyFault t) s b ∧ Does (.refLost t) s b ∧ Does (.thermalTrip t) s b))) ∧
  (∀ (t : Time) (s : State),
     let b := s.b.at_ t
     let restarts (bit : Nat) (n : Block) : Prop := n.power.phase = .restarting ∧ n.power.restart = 2 ^ bit ∧
       (b.custody.commit = none → n.reg Obj.deviceFeaturesConfirmedLo = 0 ∧ n.reg Obj.deviceFeaturesConfirmedHi = 0 ∧
         n.reg Obj.deviceFeaturesControl = 0) ∧ n.control.transfers = [] ∧ n.control.save = none ∧
       n.custody.pending = none ∧ n.Fired 14 ∧ (∀ h : HeadId, n.heads[h].state ≠ .running ∧ n.heads[h].state ≠ .starting) ∧
       n.mem = b.mem ∧ n.axes = b.axes ∧ n.power.causes = b.power.causes
     (∀ bad : Option (BitVec 64), b.power.phase = .held → ∃ n, Does (.pierResetRelease t bad) s n ∧ n.power.phase = .served ∧ n.Fired 0 ∧ n.can.nmt = .preOperational ∧
       Out.bootUp n.can.nodeId ∈ n.outs ∧ n.host.ready = b.host.released) ∧
     (∀ bad : Option (BitVec 64), b.power.phase ≠ .held → Does (.pierResetRelease t bad) s b) ∧
     (b.served = true → (∃ n, Does (.coreWatchdogExpiry t) s n ∧ restarts 0 n) ∧
       ∀ r : Route, b.acceptsObj Env.quiet r Obj.powerReset signatureCore = true → ∃ n, Does (.coreRestartRequest t r) s n ∧ restarts 3 n ∧ n.Answered r .ok) ∧
     (b.power.phase = .restarting → ∃ n, Does (.coresRunning t) s n ∧ n.power.phase = .served ∧
       n.reg Obj.powerRestartCause = b.power.restart % 256 ∧ n.Fired 15 ∧ n.mem = b.mem))

/-- RAIL_LOW, RAILS_GOOD_AGAIN, RAIL_LATCH, PCIE_REF_LOST, PCIE_REF_RESTORED, CRYSTAL_FAIL: a rail below its good level sets its bit, with
its event and its log entry, and one below its fault level resets the pier, until every rail is good; the readings are latched; a lost PCIe
reference takes the link down; a failed crystal is told (R520, R523, R536). THERMAL_READING, GOVERNOR_EVALUATION: the readings are taken; at
124 °C of the die or above 121 °C of the case the pier enters the thermal hold and stops its heads; an evaluation raises the step while the
case is above 110 °C and the die at 120 °C, and lowers it below 115 °C (R544 to R546). Where the spec leaves a point open, the model's
choice stands (log entry 83). -/
def Obligations.SuppliesAndThermal : Prop :=
  (∀ (t : Time) (s : State),
     let b := s.b.at_ t
     (∀ (rail : Fin 11) (mv : BitVec 16), b.power.phase ≠ .held → (railLevels.getD rail (0, 0)).2 ≤ mv.toNat →
       mv.toNat < (railLevels.getD rail (0, 0)).1 → ∃ n, Does (.railLow t rail mv) s n ∧ n.reg (Obj.powerRailMv rail.val) = mv.toNat ∧ n.reg Obj.powerRailStatus = setBit (b.reg Obj.powerRailStatus) rail.val % 2 ^ 16 ∧ n.Fired 9 ∧
       Leaves [.faults] [Obj.powerRailMv rail.val, Obj.powerRailStatus] b n) ∧
     (∀ (rail : Fin 11) (mv : BitVec 16), b.power.phase ≠ .held →
       ((railLevels.getD rail (0, 0)).1 ≤ mv.toNat → Does (.railLow t rail mv) s b) ∧
       (mv.toNat < (railLevels.getD rail (0, 0)).2 → ∃ n, Does (.railLow t rail mv) s n ∧ n.power.phase = .held ∧ n.power.causes = 4)) ∧
     (b.reg Obj.powerRailStatus ≠ 0 → ∃ n, Does (.railsGoodAgain t) s n ∧ n.reg Obj.powerRailStatus = 0 ∧ n.Fired 10 ∧
       Leaves [.can] [Obj.powerRailStatus] b n) ∧
     (b.reg Obj.powerRailStatus = 0 → Does (.railsGoodAgain t) s b) ∧
     (∀ mv : List Nat, mv.length = 11 → b.taskAlive 2 = true → ∃ n, Does (.railLatch t mv) s n ∧
       (∀ k : Fin 11, n.reg (Obj.powerRailMv k.val) = mv.getD k.val 0 % 2 ^ 16) ∧
       Leaves [] ((List.range 11).map Obj.powerRailMv) (b.unlatch 2) n) ∧
     (b.power.pcieRef = true → b.host.linkUp = true → ∃ n, Does (.pcieRefLost t) s n ∧ n.power.pcieRef = false ∧ n.host.linkUp = false ∧ n.Fired 833 ∧
       n.Fired 11 ∧ Leaves (.power :: ringParts) ([Obj.hostLinkSpeed, Obj.hostLinkWidth] ++ offerRegs) b n) ∧
     (b.power.pcieRef = false → Does (.pcieRefLost t) s b ∧ Does (.pcieRefRestored t) s ((b.modPower fun x => { x with pcieRef := true }).raise 12)) ∧
     (b.power.crystal = true → Does (.crystalFail t) s ((b.modPower fun x => { x with crystal := false }).raise 13))) ∧
  (∀ (t : Time) (s : State),
     let b := s.b.at_ t
     let n0 := b.reg Obj.thermalStep
     (∀ (case_ die : Int) (same : Bool), -32768 ≤ case_ → case_ < 32768 → -32768 ≤ die → die < 32768 → ∃ n, Does (.thermalReading t case_ die same) s n ∧
       n.regI Obj.thermalCase = case_ ∧ n.regI Obj.thermalDie = die ∧ n.regI Obj.thermalDiePeak = max (b.regI Obj.thermalDiePeak) die ∧ n.mem = b.mem ∧
       (124 * 16 ≤ die ∨ 121 * 16 < case_ → n.reg Obj.thermalState = 3) ∧
       (b.reg Obj.thermalState ≠ 3 → 124 * 16 ≤ die → n.Fired 20 ∧ ∀ h : HeadId, n.heads[h].state ≠ .running) ∧
       (b.reg Obj.thermalState ≠ 3 → die < 124 * 16 → case_ ≤ 121 * 16 → n.reg Obj.thermalState ≠ 3 ∧
         Leaves [.thermal, .smb, .can] [Obj.thermalCase, Obj.thermalDie, Obj.thermalDiePeak, Obj.thermalNearMisses, Obj.thermalTimeAbove95,
           Obj.thermalTimeAbove110, Obj.bufferRefreshState, Obj.bufferUsable, Obj.thermalState] b n) ∧
       (b.regI Obj.thermalDie < 120 * 16 → 120 * 16 ≤ die → n.Fired 22)) ∧
     (110 * 16 < b.regI Obj.thermalCase → 120 * 16 ≤ b.regI Obj.thermalDie → n0 < 7 → ∃ n, Does (.governorEvaluation t) s n ∧
       n.reg Obj.thermalStep = n0 + 1 ∧ n.Fired 20 ∧ Leaves [] [Obj.thermalStep, Obj.thermalState] b n) ∧
     (b.regI Obj.thermalDie < 115 * 16 → 0 < n0 → n0 ≤ 7 → ∃ n, Does (.governorEvaluation t) s n ∧ n.reg Obj.thermalStep = n0 - 1 ∧ n.Fired 21 ∧
       Leaves [] [Obj.thermalStep, Obj.thermalState] b n) ∧
     (b.regI Obj.thermalCase ≤ 110 * 16 → 0 < n0 → n0 ≤ 7 → ∃ n, Does (.governorEvaluation t) s n ∧ n.reg Obj.thermalStep = n0 - 1 ∧ n.Fired 21 ∧
       Leaves [] [Obj.thermalStep, Obj.thermalState] b n) ∧
     (n0 = 0 → b.regI Obj.thermalCase ≤ 110 * 16 → ∃ n, Does (.governorEvaluation t) s n ∧ n.reg Obj.thermalStep = 0 ∧
       Leaves [] [Obj.thermalState] b n))

/-- DEEP_SLEEP_REQUEST, WAKE_REQUEST, SMB_POWER_REQUEST, SLEEP_CONDITION_MET, SLEEP_WAIT_EXPIRY, WAKE_SOURCE: a request that nothing refuses
is armed and waits for the link; the pier then sleeps, or the request expires; an unmasked source wakes it and is recorded (R474, R530 to
R535). SMB_SLEEP_START, SMB_SLEEP_IDLE_EXPIRY: in low power the first START is not acknowledged and wakes the receivers; without a START for
`smb.sleep_idle` they go to low power again (R474, R478). Where the spec leaves a point open, the model's choice stands (log entries 80 and
121). -/
def Obligations.SleepAndWake : Prop :=
  (∀ (t : Time) (s : State),
     let b := s.b.at_ t
     let armed (c : Block) : Block := (c.modPower fun x => { x with armed := some (later t (b.reg Obj.powerSleepWait * tMs)) }).setReg Obj.powerRequestResult 1
     (∀ r : Option Route, b.reaches r Obj.powerRequest 1 0 Env.quiet → b.served = true →
       (b.sleepViolations = [] → Does (.deepSleepRequest t r) s ((armed (b.cleared r 0)).answered r .ok)) ∧
       (r = none → b.allStopped = false → Does (.deepSleepRequest t none) s (((b.unlatch 0).setReg Obj.powerRequestResult 3).raise 4)) ∧
       (∀ c : Fin 128, r = some (.can c) → b.allStopped = false → Does (.deepSleepRequest t r) s (b.reply (.can c) (.abort .notStopped)))) ∧
     (∀ r : Route, b.acceptsObj Env.quiet r Obj.powerRequest 2 = true → Does (.wakeRequest t r) s (b.reply r .ok)) ∧
     (b.served = true → b.sleepViolations = [] → Does (.smbPowerRequest t 1 true) s (armed ((b.modSmb fun x => { x with lastStart := t }).smbStop))) ∧
     (b.asleep = true → b.smb.lowPower = false → b.smb.wakingUntil = none → ∃ n, Does (.smbPowerRequest t 2 true) s n ∧ n.power.phase = .served ∧
       n.reg Obj.powerWakeCause = 16 ∧ n.Fired 2 ∧ n.Fired 3 ∧ n.mem = b.mem) ∧
     (∀ v : BitVec 8, b.served = true → Does (.smbPowerRequest t v false) s
       ((((b.modSmb fun x => { x with lastStart := t }).bump Obj.smbPecErrors).raise 945).smbStop)) ∧
     (∀ u : Time, b.power.armed = some u → b.served = true → b.host.linkUp = false → due u t = false → b.sleepViolations = [] →
       ∃ n, Does (.sleepConditionMet t 0 false) s n ∧ n.power.phase = .asleep ∧ n.power.armed = none ∧ n.reg Obj.powerRequestResult = 2 ∧ n.Fired 24 ∧
         n.Fired 1 ∧ n.can.standby = true ∧ n.smb.lowPower = true ∧ n.ring.members = [] ∧ n.custody.pending = none ∧ Out.power 2 ∈ n.outs ∧
         (∀ h : HeadId, n.heads[h].state = b.heads[h].state) ∧
         (memWf b.mem = true → ∀ a, a < 0x03000000 ∨ 0x04000000 ≤ a → memGet n.mem a = memGet b.mem a) ∧ n.reg Obj.deviceFeaturesConfirmedLo = b.reg Obj.deviceFeaturesConfirmedLo) ∧
     (∀ u : Time, b.power.armed = some u → due u t = true → Does (.sleepWaitExpiry t) s
       (((b.modPower fun x => { x with armed := none }).setReg Obj.powerRequestResult 4).raise 4)) ∧
     (∀ source : Fin 6, b.asleep = true →
       (source.val < 4 → (b.reg Obj.powerWakeMask).testBit source.val = true) → ∃ n, Does (.wakeSource t source false) s n ∧ n.power.phase = .served ∧
         n.reg Obj.powerWakeCause = 2 ^ source.val ∧ n.Fired 2 ∧ n.Fired 3 ∧ Out.power 4 ∈ n.outs ∧ n.can.nmt = .preOperational ∧ n.mem = b.mem ∧ n.heads = b.heads) ∧
     (∀ source : Fin 6, source.val < 4 → b.asleep = true → (b.reg Obj.powerWakeMask).testBit source.val = false → ∃ n, Does (.wakeSource t source false) s n ∧
       n.power.phase = .asleep ∧ n.mem = b.mem ∧ n.heads = b.heads)) ∧
  (∀ (t : Time) (s : State),
     let b := s.b.at_ t
     (b.asleep = true → b.smb.lowPower = true → b.power.phase ≠ .held → Does (.smbSleepStart t) s
       (((b.smbStop.modSmb fun x => { x with lowPower := false, wakingUntil := some (later t (50 * tUs)), lastStart := t }).bump Obj.smbSleepNacks).raise 949)) ∧
     (b.asleep = false → b.power.phase ≠ .held → Does (.smbSleepStart t) s (b.modSmb fun x => { x with lastStart := t })) ∧
     (b.asleep = true → b.smb.lowPower = false → passed b.smb.lastStart (b.reg Obj.smbSleepIdle * tMs) t = true →
       Does (.smbSleepIdleExpiry t) s (b.modSmb fun x => { x with lowPower := true, wakingUntil := none })))

/-- TAP_RESET, EXTEST, IDCODE, SAMPLE_PRELOAD, CLAMP, HIGHZ, EXTEST_PULSE, EXTEST_TRAIN, BYPASS: an instruction enters force with the
capture of its register; one that takes the balls drives them as the boundary register says, faults every head, axis and the sequencer and
takes the spans and the link down; a scan shifts out the register selected (R568 to R574). MBIST_START, MBIST_ABORT, MBIST_COMPLETE,
SPAN_LOOPBACK, PCIE_LOOPBACK_ENTRY: a self-test takes its range, of which the contents are lost, and ends with its findings; a loopback
takes its span or the link down (R575, R576). Where the spec leaves a point open, the model's choice stands (log entries 84, 85 and 86). -/
def Obligations.TestModes : Prop :=
  (∀ (t : Time) (s : State),
     let b := s.b.at_ t
     let holds (i : TapInstr) : Block := (b.emit (.tdo 8 1)).modTest fun x => { x with instr := i }
     let code (i : TapInstr) : Nat := i.code
     let taken (i : TapInstr) (n : Block) : Prop := n.test.instr = i ∧ n.test.taken = true ∧ Out.tdo 8 1 ∈ n.outs ∧ n.host.linkUp = false ∧
       (∀ h : HeadId, n.heads[h].state = .faulted ∧ n.heads[h].lines = [] ∧ (b.heads[h].everRun = true → n.heads[h].outputsIdle = true)) ∧
       Out.balls (code i) n.test.boundary ∈ n.outs ∧ (∀ a : AxisId, n.axes[a].state = .faulted) ∧
       n.aux.state = .faulted ∧ n.reg (Obj.spanState 0) = 0 ∧ n.reg (Obj.spanState 1) = 0 ∧ n.mem = b.mem
     Does (.tapReset t) s (b.modTest fun x => { x with instr := .idcode }) ∧ (Does (.idcode t none) s (holds .idcode)) ∧
     (b.asleep = false →
       (∀ (i : Instr) (k : TapInstr), (i, k) ∈ [(Instr.extest t none, TapInstr.extest), (.clamp t none, .clamp), (.highz t none, .highz),
           (.extestPulse t none, .extestPulse), (.extestTrain t none, .extestTrain)] → ∃ n, Does i s n ∧ taken k n ∧ n.test.boundary = b.test.boundary) ∧
       (∀ (pins update : BitVec 360) (i : Instr) (k : TapInstr), (i, k) ∈ [(Instr.extest t (some (pins, update)), TapInstr.extest),
           (.extestPulse t (some (pins, update)), .extestPulse), (.extestTrain t (some (pins, update)), .extestTrain)] →
         ∃ n, Does i s n ∧ taken k n ∧ n.test.boundary = update ∧ Out.tdo 360 pins.toNat ∈ n.outs) ∧
       (∀ (pins update : BitVec 360) (i : Instr) (k : TapInstr), (i, k) ∈ [(Instr.clamp t (some (pins, update)), TapInstr.clamp),
           (.highz t (some (pins, update)), .highz)] → ∃ n, Does i s n ∧ taken k n ∧ n.test.boundary = b.test.boundary ∧ Out.tdo 1 0 ∈ n.outs) ∧
       Does (.samplePreload t none) s (holds .samplePreload) ∧ (∀ code : BitVec 8, Does (.bypass t code none) s (holds .bypass)) ∧
       (∀ pins update : BitVec 360, Does (.idcode t (some (pins, update))) s ((holds .idcode).emit (.tdo 32 0x164405A7)) ∧
         Does (.samplePreload t (some (pins, update))) s (((holds .samplePreload).emit (.tdo 360 pins.toNat)).modTest fun x => { x with boundary := update }) ∧
         ∀ code : BitVec 8, Does (.bypass t code (some (pins, update))) s ((holds .bypass).emit (.tdo 1 0)))) ∧
     (b.asleep = true → Does (.extest t none) s (holds .bypass))) ∧
  (∀ (t : Time) (r : Route) (s : State),
     let b := s.b.at_ t
     let start := b.reg Obj.testMbistStartAddr
     let len := b.reg Obj.testMbistLength
     (b.acceptsObj Env.quiet r Obj.testMbistCommand 1 = true → memWf b.mem = true → ∃ n, Does (.mbistStart t r false) s n ∧
       n.test.range = some (start, len) ∧ n.reg Obj.testMbistStatus = 1 ∧ n.reg Obj.testMbistErrors = 0 ∧ n.Answered r .ok ∧
       Leaves [.mem, .test] [Obj.testMbistStatus, Obj.testMbistErrors, Obj.testMbistFirstFail] (b.reply r .ok) n ∧
       (∀ a, a < start ∨ start + len ≤ a → memGet n.mem a = memGet b.mem a)) ∧
     (b.acceptsObj Env.quiet r Obj.testMbistCommand 2 = true → b.test.range ≠ none →
       Does (.mbistAbort t r false) s (((b.modTest fun x => { x with range := none }).setReg Obj.testMbistStatus 4).reply r .ok)) ∧
     (∀ (errors : Nat) (first : BitVec 64), b.test.range ≠ none → errors ≤ max32 → ∃ n, Does (.mbistComplete t errors first []) s n ∧ n.test.range = none ∧
       n.reg Obj.testMbistStatus = (if errors = 0 then 2 else 3) ∧ n.reg Obj.testMbistErrors = errors ∧
       n.reg Obj.testMbistFirstFail = (if errors = 0 then 0 else first.toNat) ∧
       Leaves [.test] [Obj.testMbistStatus, Obj.testMbistErrors, Obj.testMbistFirstFail] b n) ∧
     (∀ (span : SpanId) (errors : Nat), (b.reg (Obj.testSpanLoopback span.val) = 1 ∨ b.reg (Obj.testSpanLoopback span.val) = 3) →
       b.acceptsObj { Env.quiet with errors := errors } r (Obj.testSpanLoopback span.val) 0 = true → ∃ n, Does (.spanLoopback t r span 0 errors) s n ∧
         n.reg (Obj.testSpanLoopback span.val) = 0 ∧
         n.reg (Obj.testSpanPrbsErrors span.val) = min (b.reg (Obj.testSpanPrbsErrors span.val) + errors) max32 ∧ n.Answered r .ok) ∧
     (∀ (span : SpanId) (errors : Nat), b.reg (Obj.testSpanLoopback span.val) = 0 →
       (∀ mode : BitVec 8, mode ≠ 0 → b.acceptsObj { Env.quiet with errors := errors } r (Obj.testSpanLoopback span.val) mode.toNat = true →
         ∃ n, Does (.spanLoopback t r span mode errors) s n ∧ n.reg (Obj.testSpanLoopback span.val) = mode.toNat ∧ n.reg (Obj.spanState span) = 0 ∧
           n.Answered r .ok ∧ n.mem = b.mem) ∧
       (b.reg (Obj.spanState span) = 0 → b.acceptsObj { Env.quiet with errors := errors } r (Obj.testSpanLoopback span.val) 0 = true →
         Does (.spanLoopback t r span 0 errors) s (((b.setReg (Obj.testSpanLoopback span.val) 0).setReg (Obj.spanState span) 1).reply r .ok))) ∧
     (b.host.linkUp = true → ∃ n, Does (.pcieLoopbackEntry t) s n ∧ n.host.loopback = true ∧ n.host.linkUp = false ∧ n.Fired 833 ∧
       Leaves ringParts ([Obj.hostLinkSpeed, Obj.hostLinkWidth] ++ offerRegs) b n))

/-- FAULT_LOG_SELECT, FAULT_LOG_CLEAR, DIAG_CLEAR, HEAD_ISOLATE, HEAD_RELEASE, SOFT_REPAIR, PPR_HARDEN: the log is selected and cleared with
its numbering kept, but for an entry of the same cycle; the diagnostics are cleared; a stopped head is isolated and released, each with its
log entry; candidates are repaired (R582 to R589). Where the spec leaves a point open, the model's choice stands (log entries 35 and 86). -/
def Obligations.MaintenanceCommands : Prop := ∀ (t : Time) (r : Route) (s : State),
  let b := s.b.at_ t
  (∀ number : BitVec 32, b.acceptsObj Env.quiet r Obj.faultLogSelect number.toNat = true → Does (.faultLogSelect t r number) s
    (({ b with faults := { b.faults with select := number.toNat } }).reply r .ok)) ∧
  (b.acceptsObj Env.quiet r Obj.faultLogClear 0 = true → ∃ n, Does (.faultLogClear t r) s n ∧ n.Answered r .ok ∧
    n.faults.entries = (b.faults.entries.filter fun e => ctlCycle e.time == ctlCycle t) ∧ n.faults.last = b.faults.last ∧
    (n.faults.entries = [] → n.faults.oldest = b.faults.last + 1) ∧ n.faults.raised = b.faults.raised ∧ Leaves [.faults] [] (b.reply r .ok) n) ∧
  (b.acceptsObj Env.quiet r Obj.diagClear 0 = true → ∃ n, Does (.diagClear t r []) s n ∧ n.Answered r .ok ∧ n.heads = b.heads ∧ n.mem = b.mem ∧
    n.can.emcyDropped = 0 ∧ n.reg Obj.canBusOffs = 0 ∧ n.reg Obj.dmaCheckerRefusals = 0 ∧ n.reg Obj.ringConfigured = b.reg Obj.ringConfigured) ∧
  (∀ h : HeadId, b.acceptsObj Env.quiet r (Obj.headServiceIsolate h) 1 = true →
    (b.heads[h].state = .stopped → b.heads[h].isolateVia = [] → ∃ n, Does (.headIsolate t r h false) s n ∧ n.heads[h].state = .isolated ∧
      n.reg (Obj.headServiceIsolate h) = 1 ∧ Out.outputsOff h.val ∈ n.outs ∧ n.Answered r .ok ∧ Leaves [.head h, .faults] [Obj.headServiceIsolate h, Obj.headServiceIsolations h] (b.reply r .ok) n) ∧
    (b.heads[h].state = .isolated → Does (.headIsolate t r h false) s ((b.setReg (Obj.headServiceIsolate h) 1).reply r .ok))) ∧
  (∀ h : HeadId, b.acceptsObj Env.quiet r (Obj.headServiceIsolate h) 0 = true → b.heads[h].state = .isolated → ∃ n, Does (.headRelease t r h) s n ∧
    n.heads[h].state = .stopped ∧ n.reg (Obj.headServiceIsolate h) = 0 ∧ n.Fired (headSource h 11) ∧ n.Answered r .ok ∧ Leaves [.head h, .faults] [Obj.headServiceIsolate h] (b.reply r .ok) n) ∧
  (∀ (row : MemRow) (block : Option Nat), b.repair.candidates.contains row = true → b.spareLeft row = true → b.reg Obj.memPprAuto ≠ 0 →
    ∃ n, Does (.softRepair t row block) s n ∧ row ∈ n.repair.soft ∧ row ∉ n.repair.candidates ∧ n.repair.hard = b.repair.hard ∧
      Leaves [.repair, .faults] [] b n) ∧
  (b.acceptsObj Env.quiet r Obj.memPprCommand 1 = true → ∃ n, Does (.pprHarden t r) s n ∧ n.repair.soft = [] ∧
    n.repair.hard = b.repair.hard ++ b.repair.soft ∧ n.Answered r .ok ∧
    Leaves [.repair, .faults] [] (b.reply r .ok) n)

end
end

