-- ==== Sys2Proof/Laws/Map.lean ====
section
/-! SUPPORT. Laws of the sparse maps and of the buffer: what is read after a write, and that every operation keeps the canonical form. -/
namespace Sys2Proof.Machine

/-! ## Sparse maps -/

/-- After a value is set at a key, that key reads it and every other key reads as before. -/
@[simp] theorem Map.get?_insert {α : Type} (m : Map α) (k j : Nat) (v : α) : (Map.insert m k v).get? j = if j = k then some v else m.get? j := by
  induction m with
  | nil => simp [Map.insert, Map.get?]
  | cons x rest ih =>
    obtain ⟨i, w⟩ := x
    unfold Map.insert
    split
    · simp only [Map.get?]
    · split <;> simp only [Map.get?] <;> (try rw [ih]) <;> (repeat' split) <;> simp_all

/-- Every key of a map lies above a bound. -/
def Map.above {α : Type} (m : Map α) (k : Nat) : Prop := ∀ x ∈ m, k < x.1

theorem Map.wf_cons {α : Type} (k : Nat) (v : α) (m : Map α) : Map.wf ((k, v) :: m) = true ↔ Map.above m k ∧ Map.wf m = true := by
  induction m generalizing k v with
  | nil => simp [Map.wf, Map.above]
  | cons x rest ih =>
    obtain ⟨j, w⟩ := x
    simp only [Map.wf, Bool.and_eq_true, decide_eq_true_eq]
    constructor
    · rintro ⟨h, hw⟩
      refine ⟨?_, hw⟩
      intro y hy
      rcases List.mem_cons.mp hy with rfl | hy
      · exact h
      · exact Nat.lt_trans h (((ih j w).mp hw).1 y hy)
    · rintro ⟨h, hw⟩
      exact ⟨h (j, w) (by simp), hw⟩

theorem Map.above_insert {α : Type} (m : Map α) (k j : Nat) (v : α) (h : Map.above m k) (hk : k < j) : Map.above (Map.insert m j v) k := by
  induction m with
  | nil => intro x hx; simp [Map.insert] at hx; subst hx; exact hk
  | cons x rest ih =>
    obtain ⟨i, w⟩ := x
    have h1 : k < i := h (i, w) (by simp)
    have h2 : Map.above rest k := fun y hy => h y (by simp [hy])
    intro y hy
    unfold Map.insert at hy
    split at hy
    · rcases List.mem_cons.mp hy with rfl | hy
      · exact hk
      · exact h y hy
    · split at hy
      · rcases List.mem_cons.mp hy with rfl | hy
        · exact hk
        · exact h2 y hy
      · rcases List.mem_cons.mp hy with rfl | hy
        · exact h1
        · exact ih h2 y hy

/-- Setting a key keeps the canonical form. -/
theorem Map.wf_insert {α : Type} (m : Map α) (k : Nat) (v : α) (h : m.wf = true) : (m.insert k v).wf = true := by
  induction m with
  | nil => simp [Map.insert, Map.wf]
  | cons x rest ih =>
    obtain ⟨i, w⟩ := x
    obtain ⟨ha, hr⟩ := (Map.wf_cons i w rest).mp h
    unfold Map.insert
    split
    · rename_i hk
      refine (Map.wf_cons _ _ _).mpr ⟨?_, h⟩
      intro y hy
      rcases List.mem_cons.mp hy with rfl | hy
      · exact hk
      · exact Nat.lt_trans hk (ha y hy)
    · split
      · rename_i _ hk; subst hk; exact (Map.wf_cons _ _ _).mpr ⟨ha, hr⟩
      · exact (Map.wf_cons _ _ _).mpr ⟨Map.above_insert _ _ _ _ ha (by omega), ih hr⟩

/-- A part of a map is in canonical form. -/
theorem Map.wf_filter {α : Type} (m : Map α) (p : Nat × α → Bool) (h : m.wf = true) : Map.wf (m.filter p) = true := by
  induction m with
  | nil => rfl
  | cons x rest ih =>
    obtain ⟨i, w⟩ := x
    obtain ⟨ha, hr⟩ := (Map.wf_cons i w rest).mp h
    rw [List.filter_cons]
    split
    · exact (Map.wf_cons _ _ _).mpr ⟨fun y hy => ha y (List.mem_of_mem_filter hy), ih hr⟩
    · exact ih hr

/-- Two maps, the second above the first, form one. -/
theorem Map.wf_append {α : Type} (m n : Map α) (hm : m.wf = true) (hn : n.wf = true) (h : ∀ x ∈ m, ∀ y ∈ n, x.1 < y.1) :
    Map.wf (m ++ n) = true := by
  induction m with
  | nil => exact hn
  | cons x rest ih =>
    obtain ⟨i, w⟩ := x
    obtain ⟨ha, hr⟩ := (Map.wf_cons i w rest).mp hm
    refine (Map.wf_cons _ _ _).mpr ⟨?_, ih hr fun x hx y hy => h x (by simp [hx]) y hy⟩
    intro y hy
    rcases List.mem_append.mp hy with hy | hy
    · exact ha y hy
    · exact h (i, w) (by simp) y hy

/-! ## Registers -/

/-- A write of a register: that register reads the value cut to its width, every other reads as before. -/
theorem Block.reg_setReg (b : Block) (o y : Obj) (v : Nat) : (b.setReg o v).reg y = if y.key = o.key then v % 2 ^ o.ty.bits else b.reg y := by
  simp only [Block.reg, Block.setReg, Map.get?_insert]
  split <;> simp

@[simp] theorem Block.reg_setReg_self (b : Block) (o : Obj) (v : Nat) : (b.setReg o v).reg o = v % 2 ^ o.ty.bits := by
  rw [Block.reg_setReg]; simp

theorem Block.reg_setReg_ne (b : Block) (o y : Obj) (v : Nat) (h : y.key ≠ o.key) : (b.setReg o v).reg y = b.reg y := by
  rw [Block.reg_setReg, if_neg h]

/-- A counter that counts: one more, and at the top of its type it stays. -/
theorem Block.reg_bump (b : Block) (o : Obj) : (b.bump o).reg o = satAdd (b.reg o) 1 (2 ^ o.ty.bits - 1) % 2 ^ o.ty.bits := by
  simp [Block.bump, Block.count]

/-! ## The buffer -/

theorem runCells_mem (wiped : List (Nat × Nat × Nat)) (a : Nat) (bytes : List Byte) (x : Nat × Byte) (h : x ∈ runCells wiped a bytes) :
    a ≤ x.1 ∧ x.1 < a + bytes.length ∧ (x.2 ≠ 0 ∨ memWiped wiped x.1 = true) := by
  induction bytes generalizing a with
  | nil => simp [runCells] at h
  | cons v rest ih =>
    unfold runCells at h
    have step : x ∈ runCells wiped (a + 1) rest → a ≤ x.1 ∧ x.1 < a + (v :: rest).length ∧ (x.2 ≠ 0 ∨ memWiped wiped x.1 = true) := by
      intro hx
      obtain ⟨h1, h2, h3⟩ := ih (a + 1) hx
      exact ⟨by omega, by simp only [List.length_cons]; omega, h3⟩
    split at h
    · exact step h
    · rename_i hv
      rcases List.mem_cons.mp h with rfl | hx
      · refine ⟨Nat.le_refl _, by simp, ?_⟩
        by_cases h0 : v = 0
        · right
          cases hw : memWiped wiped a with
          | true => rfl
          | false => exact absurd ⟨h0, hw⟩ hv
        · left; exact h0
      · exact step hx

theorem runCells_wf (wiped : List (Nat × Nat × Nat)) (a : Nat) (bytes : List Byte) : Map.wf (runCells wiped a bytes) = true := by
  induction bytes generalizing a with
  | nil => rfl
  | cons v rest ih =>
    unfold runCells
    split
    · exact ih _
    · exact (Map.wf_cons _ _ _).mpr ⟨fun x hx => by have := (runCells_mem _ _ _ x hx).1; omega, ih _⟩

/-- A write to the buffer keeps its canonical form. -/
theorem memPutRun_wf (m : Buffer) (a : Nat) (bytes : List Byte) (h : memWf m = true) : memWf (memPutRun m a bytes) = true := by
  simp only [memWf, Bool.and_eq_true, List.all_eq_true, Bool.or_eq_true, bne_iff_ne, ne_eq] at h ⊢
  obtain ⟨hw, hz⟩ := h
  constructor
  · simp only [memPutRun]
    refine Map.wf_append _ _ (Map.wf_append _ _ (Map.wf_filter _ _ hw) (runCells_wf _ _ _) ?_) (Map.wf_filter _ _ hw) ?_
    · intro x hx y hy
      have h1 := of_decide_eq_true (List.mem_filter.mp hx).2
      have h2 := (runCells_mem _ _ _ y hy).1
      omega
    · intro x hx y hy
      have h2 := of_decide_eq_true (List.mem_filter.mp hy).2
      rcases List.mem_append.mp hx with hx | hx
      · have h1 := of_decide_eq_true (List.mem_filter.mp hx).2
        omega
      · have h1 := (runCells_mem _ _ _ x hx).2.1
        omega
  · intro x hx
    simp only [memPutRun] at hx ⊢
    rcases List.mem_append.mp hx with hx | hx
    · rcases List.mem_append.mp hx with hx | hx
      · exact hz x (List.mem_of_mem_filter hx)
      · exact (runCells_mem _ _ _ x hx).2.2
    · exact hz x (List.mem_of_mem_filter hx)

/-- Contents lost keep the canonical form. -/
theorem memWipe_wf (m : Buffer) (start n k : Nat) (h : memWf m = true) : memWf (memWipe m start n k) = true := by
  simp only [memWf, Bool.and_eq_true, List.all_eq_true, Bool.or_eq_true, bne_iff_ne, ne_eq] at h ⊢
  obtain ⟨hw, hz⟩ := h
  refine ⟨Map.wf_filter _ _ hw, fun x hx => ?_⟩
  simp only [memWipe] at hx ⊢
  rcases hz x (List.mem_of_mem_filter hx) with h1 | h1
  · exact Or.inl h1
  · right
    simp only [memWiped, List.any_cons, Bool.or_eq_true]
    exact Or.inr h1

end Sys2Proof.Machine
end

