-- ==== Sys2Proof/Laws/State.lean ====
section
/-! SUPPORT. What each named update leaves and what it sets: one lemma for each field and update, so that no proof unfolds a record. -/
namespace Sys2Proof.Machine.Block

variable (b : Block) (t : Time) (o : Obj) (v n : Nat) (i : Int) (x : Out) (m : RingMsg) (l : List Byte) (res : Result) (h : HeadId)
  (a : AxisId) (c : AuxId) (ch : ChanId) (sp : SpanId) (q : QueueId) (k : SlotId) (u : TimerId) (p : Fin 8) (lane fw : Fin 2)
  (fHead : Head → Head) (fVideo : VideoState → VideoState) (fCorr : Corr → Corr) (fStitch : Stitch → Stitch) (fIllum : Illum → Illum)
  (fCapture : Capture → Capture) (fPart : Partition → Partition) (fAxis : Axis → Axis) (fKey : Keystone → Keystone) (fAux : Aux → Aux)
  (fChannel : AuxChannel → AuxChannel) (fLane : Lane → Lane) (fTimer : TimerUnit → TimerUnit) (fDma : DmaChannel → DmaChannel)
  (fRing : Ring → Ring) (fSpan : Span → Span) (fHost : HostPort → HostPort) (fQueue : Queue → Queue) (fSlot : MailSlot → MailSlot)
  (fCan : Can → Can) (fTpdo : TpdoState → TpdoState) (fSmb : Smb → Smb) (fControl : Control → Control) (fCustody : Custody → Custody)
  (fFirmware : Firmware → Firmware) (fFw : FwSlot → FwSlot) (fPower : Power → Power) (fTest : Test → Test) (fRepair : Repair → Repair)

@[simp] theorem at_now : (b.at_ t).now = t := rfl
@[simp] theorem at_part : (b.at_ t).part = b.part := rfl
@[simp] theorem at_regs : (b.at_ t).regs = b.regs := rfl
@[simp] theorem at_tables : (b.at_ t).tables = b.tables := rfl
@[simp] theorem at_outs : (b.at_ t).outs = [] := rfl
@[simp] theorem at_free : (b.at_ t).free = b.free := rfl
@[simp] theorem at_fabric : (b.at_ t).fabric = b.fabric := rfl
@[simp] theorem at_faults : (b.at_ t).faults = b.faults := rfl
@[simp] theorem at_can : (b.at_ t).can = b.can := rfl
@[simp] theorem at_smb : (b.at_ t).smb = b.smb := rfl
@[simp] theorem at_heads : (b.at_ t).heads = b.heads := rfl
@[simp] theorem at_video : (b.at_ t).video = b.video := rfl
@[simp] theorem at_corr : (b.at_ t).corr = b.corr := rfl
@[simp] theorem at_stitch : (b.at_ t).stitch = b.stitch := rfl
@[simp] theorem at_illum : (b.at_ t).illum = b.illum := rfl
@[simp] theorem at_capture : (b.at_ t).capture = b.capture := rfl
@[simp] theorem at_axes : (b.at_ t).axes = b.axes := rfl
@[simp] theorem at_keystone : (b.at_ t).keystone = b.keystone := rfl
@[simp] theorem at_aux : (b.at_ t).aux = b.aux := rfl
@[simp] theorem at_ring : (b.at_ t).ring = b.ring := rfl
@[simp] theorem at_dma : (b.at_ t).dma = b.dma := rfl
@[simp] theorem at_mem : (b.at_ t).mem = b.mem := rfl
@[simp] theorem at_host : (b.at_ t).host = b.host := rfl
@[simp] theorem at_power : (b.at_ t).power = b.power := rfl
@[simp] theorem at_thermal : (b.at_ t).thermal = b.thermal := rfl
@[simp] theorem at_test : (b.at_ t).test = b.test := rfl
@[simp] theorem at_repair : (b.at_ t).repair = b.repair := rfl
@[simp] theorem at_saved : (b.at_ t).saved = b.saved := rfl
@[simp] theorem at_control : (b.at_ t).control = b.control := rfl
@[simp] theorem at_custody : (b.at_ t).custody = b.custody := rfl
@[simp] theorem at_firmware : (b.at_ t).firmware = b.firmware := rfl
@[simp] theorem at_attest : (b.at_ t).attest = b.attest := rfl
@[simp] theorem at_reg (y : Obj) : (b.at_ t).reg y = b.reg y := rfl

@[simp] theorem setReg_now : (b.setReg o v).now = b.now := rfl
@[simp] theorem setReg_part : (b.setReg o v).part = b.part := rfl
@[simp] theorem setReg_regs : (b.setReg o v).regs = b.regs.insert o.key (v % 2 ^ o.ty.bits) := rfl
@[simp] theorem setReg_tables : (b.setReg o v).tables = b.tables := rfl
@[simp] theorem setReg_outs : (b.setReg o v).outs = b.outs := rfl
@[simp] theorem setReg_free : (b.setReg o v).free = b.free := rfl
@[simp] theorem setReg_fabric : (b.setReg o v).fabric = b.fabric := rfl
@[simp] theorem setReg_faults : (b.setReg o v).faults = b.faults := rfl
@[simp] theorem setReg_can : (b.setReg o v).can = b.can := rfl
@[simp] theorem setReg_smb : (b.setReg o v).smb = b.smb := rfl
@[simp] theorem setReg_heads : (b.setReg o v).heads = b.heads := rfl
@[simp] theorem setReg_video : (b.setReg o v).video = b.video := rfl
@[simp] theorem setReg_corr : (b.setReg o v).corr = b.corr := rfl
@[simp] theorem setReg_stitch : (b.setReg o v).stitch = b.stitch := rfl
@[simp] theorem setReg_illum : (b.setReg o v).illum = b.illum := rfl
@[simp] theorem setReg_capture : (b.setReg o v).capture = b.capture := rfl
@[simp] theorem setReg_axes : (b.setReg o v).axes = b.axes := rfl
@[simp] theorem setReg_keystone : (b.setReg o v).keystone = b.keystone := rfl
@[simp] theorem setReg_aux : (b.setReg o v).aux = b.aux := rfl
@[simp] theorem setReg_ring : (b.setReg o v).ring = b.ring := rfl
@[simp] theorem setReg_dma : (b.setReg o v).dma = b.dma := rfl
@[simp] theorem setReg_mem : (b.setReg o v).mem = b.mem := rfl
@[simp] theorem setReg_host : (b.setReg o v).host = b.host := rfl
@[simp] theorem setReg_power : (b.setReg o v).power = b.power := rfl
@[simp] theorem setReg_thermal : (b.setReg o v).thermal = b.thermal := rfl
@[simp] theorem setReg_test : (b.setReg o v).test = b.test := rfl
@[simp] theorem setReg_repair : (b.setReg o v).repair = b.repair := rfl
@[simp] theorem setReg_saved : (b.setReg o v).saved = b.saved := rfl
@[simp] theorem setReg_control : (b.setReg o v).control = b.control := rfl
@[simp] theorem setReg_custody : (b.setReg o v).custody = b.custody := rfl
@[simp] theorem setReg_firmware : (b.setReg o v).firmware = b.firmware := rfl
@[simp] theorem setReg_attest : (b.setReg o v).attest = b.attest := rfl

@[simp] theorem setRegI_now : (b.setRegI o i).now = b.now := rfl
@[simp] theorem setRegI_part : (b.setRegI o i).part = b.part := rfl
@[simp] theorem setRegI_regs : (b.setRegI o i).regs = b.regs.insert o.key (ofSigned o.ty.bits i % 2 ^ o.ty.bits) := rfl
@[simp] theorem setRegI_tables : (b.setRegI o i).tables = b.tables := rfl
@[simp] theorem setRegI_outs : (b.setRegI o i).outs = b.outs := rfl
@[simp] theorem setRegI_free : (b.setRegI o i).free = b.free := rfl
@[simp] theorem setRegI_fabric : (b.setRegI o i).fabric = b.fabric := rfl
@[simp] theorem setRegI_faults : (b.setRegI o i).faults = b.faults := rfl
@[simp] theorem setRegI_can : (b.setRegI o i).can = b.can := rfl
@[simp] theorem setRegI_smb : (b.setRegI o i).smb = b.smb := rfl
@[simp] theorem setRegI_heads : (b.setRegI o i).heads = b.heads := rfl
@[simp] theorem setRegI_video : (b.setRegI o i).video = b.video := rfl
@[simp] theorem setRegI_corr : (b.setRegI o i).corr = b.corr := rfl
@[simp] theorem setRegI_stitch : (b.setRegI o i).stitch = b.stitch := rfl
@[simp] theorem setRegI_illum : (b.setRegI o i).illum = b.illum := rfl
@[simp] theorem setRegI_capture : (b.setRegI o i).capture = b.capture := rfl
@[simp] theorem setRegI_axes : (b.setRegI o i).axes = b.axes := rfl
@[simp] theorem setRegI_keystone : (b.setRegI o i).keystone = b.keystone := rfl
@[simp] theorem setRegI_aux : (b.setRegI o i).aux = b.aux := rfl
@[simp] theorem setRegI_ring : (b.setRegI o i).ring = b.ring := rfl
@[simp] theorem setRegI_dma : (b.setRegI o i).dma = b.dma := rfl
@[simp] theorem setRegI_mem : (b.setRegI o i).mem = b.mem := rfl
@[simp] theorem setRegI_host : (b.setRegI o i).host = b.host := rfl
@[simp] theorem setRegI_power : (b.setRegI o i).power = b.power := rfl
@[simp] theorem setRegI_thermal : (b.setRegI o i).thermal = b.thermal := rfl
@[simp] theorem setRegI_test : (b.setRegI o i).test = b.test := rfl
@[simp] theorem setRegI_repair : (b.setRegI o i).repair = b.repair := rfl
@[simp] theorem setRegI_saved : (b.setRegI o i).saved = b.saved := rfl
@[simp] theorem setRegI_control : (b.setRegI o i).control = b.control := rfl
@[simp] theorem setRegI_custody : (b.setRegI o i).custody = b.custody := rfl
@[simp] theorem setRegI_firmware : (b.setRegI o i).firmware = b.firmware := rfl
@[simp] theorem setRegI_attest : (b.setRegI o i).attest = b.attest := rfl

@[simp] theorem count_now : (b.count o n).now = b.now := rfl
@[simp] theorem count_part : (b.count o n).part = b.part := rfl
@[simp] theorem count_regs : (b.count o n).regs = b.regs.insert o.key (satAdd (b.reg o) n (2 ^ o.ty.bits - 1) % 2 ^ o.ty.bits) := rfl
@[simp] theorem count_tables : (b.count o n).tables = b.tables := rfl
@[simp] theorem count_outs : (b.count o n).outs = b.outs := rfl
@[simp] theorem count_free : (b.count o n).free = b.free := rfl
@[simp] theorem count_fabric : (b.count o n).fabric = b.fabric := rfl
@[simp] theorem count_faults : (b.count o n).faults = b.faults := rfl
@[simp] theorem count_can : (b.count o n).can = b.can := rfl
@[simp] theorem count_smb : (b.count o n).smb = b.smb := rfl
@[simp] theorem count_heads : (b.count o n).heads = b.heads := rfl
@[simp] theorem count_video : (b.count o n).video = b.video := rfl
@[simp] theorem count_corr : (b.count o n).corr = b.corr := rfl
@[simp] theorem count_stitch : (b.count o n).stitch = b.stitch := rfl
@[simp] theorem count_illum : (b.count o n).illum = b.illum := rfl
@[simp] theorem count_capture : (b.count o n).capture = b.capture := rfl
@[simp] theorem count_axes : (b.count o n).axes = b.axes := rfl
@[simp] theorem count_keystone : (b.count o n).keystone = b.keystone := rfl
@[simp] theorem count_aux : (b.count o n).aux = b.aux := rfl
@[simp] theorem count_ring : (b.count o n).ring = b.ring := rfl
@[simp] theorem count_dma : (b.count o n).dma = b.dma := rfl
@[simp] theorem count_mem : (b.count o n).mem = b.mem := rfl
@[simp] theorem count_host : (b.count o n).host = b.host := rfl
@[simp] theorem count_power : (b.count o n).power = b.power := rfl
@[simp] theorem count_thermal : (b.count o n).thermal = b.thermal := rfl
@[simp] theorem count_test : (b.count o n).test = b.test := rfl
@[simp] theorem count_repair : (b.count o n).repair = b.repair := rfl
@[simp] theorem count_saved : (b.count o n).saved = b.saved := rfl
@[simp] theorem count_control : (b.count o n).control = b.control := rfl
@[simp] theorem count_custody : (b.count o n).custody = b.custody := rfl
@[simp] theorem count_firmware : (b.count o n).firmware = b.firmware := rfl
@[simp] theorem count_attest : (b.count o n).attest = b.attest := rfl

@[simp] theorem bump_now : (b.bump o).now = b.now := rfl
@[simp] theorem bump_part : (b.bump o).part = b.part := rfl
@[simp] theorem bump_regs : (b.bump o).regs = b.regs.insert o.key (satAdd (b.reg o) 1 (2 ^ o.ty.bits - 1) % 2 ^ o.ty.bits) := rfl
@[simp] theorem bump_tables : (b.bump o).tables = b.tables := rfl
@[simp] theorem bump_outs : (b.bump o).outs = b.outs := rfl
@[simp] theorem bump_free : (b.bump o).free = b.free := rfl
@[simp] theorem bump_fabric : (b.bump o).fabric = b.fabric := rfl
@[simp] theorem bump_faults : (b.bump o).faults = b.faults := rfl
@[simp] theorem bump_can : (b.bump o).can = b.can := rfl
@[simp] theorem bump_smb : (b.bump o).smb = b.smb := rfl
@[simp] theorem bump_heads : (b.bump o).heads = b.heads := rfl
@[simp] theorem bump_video : (b.bump o).video = b.video := rfl
@[simp] theorem bump_corr : (b.bump o).corr = b.corr := rfl
@[simp] theorem bump_stitch : (b.bump o).stitch = b.stitch := rfl
@[simp] theorem bump_illum : (b.bump o).illum = b.illum := rfl
@[simp] theorem bump_capture : (b.bump o).capture = b.capture := rfl
@[simp] theorem bump_axes : (b.bump o).axes = b.axes := rfl
@[simp] theorem bump_keystone : (b.bump o).keystone = b.keystone := rfl
@[simp] theorem bump_aux : (b.bump o).aux = b.aux := rfl
@[simp] theorem bump_ring : (b.bump o).ring = b.ring := rfl
@[simp] theorem bump_dma : (b.bump o).dma = b.dma := rfl
@[simp] theorem bump_mem : (b.bump o).mem = b.mem := rfl
@[simp] theorem bump_host : (b.bump o).host = b.host := rfl
@[simp] theorem bump_power : (b.bump o).power = b.power := rfl
@[simp] theorem bump_thermal : (b.bump o).thermal = b.thermal := rfl
@[simp] theorem bump_test : (b.bump o).test = b.test := rfl
@[simp] theorem bump_repair : (b.bump o).repair = b.repair := rfl
@[simp] theorem bump_saved : (b.bump o).saved = b.saved := rfl
@[simp] theorem bump_control : (b.bump o).control = b.control := rfl
@[simp] theorem bump_custody : (b.bump o).custody = b.custody := rfl
@[simp] theorem bump_firmware : (b.bump o).firmware = b.firmware := rfl
@[simp] theorem bump_attest : (b.bump o).attest = b.attest := rfl

@[simp] theorem setTable_now : (b.setTable n l).now = b.now := rfl
@[simp] theorem setTable_part : (b.setTable n l).part = b.part := rfl
@[simp] theorem setTable_regs : (b.setTable n l).regs = b.regs := rfl
@[simp] theorem setTable_tables : (b.setTable n l).tables = b.tables.insert n l := rfl
@[simp] theorem setTable_outs : (b.setTable n l).outs = b.outs := rfl
@[simp] theorem setTable_free : (b.setTable n l).free = b.free := rfl
@[simp] theorem setTable_fabric : (b.setTable n l).fabric = b.fabric := rfl
@[simp] theorem setTable_faults : (b.setTable n l).faults = b.faults := rfl
@[simp] theorem setTable_can : (b.setTable n l).can = b.can := rfl
@[simp] theorem setTable_smb : (b.setTable n l).smb = b.smb := rfl
@[simp] theorem setTable_heads : (b.setTable n l).heads = b.heads := rfl
@[simp] theorem setTable_video : (b.setTable n l).video = b.video := rfl
@[simp] theorem setTable_corr : (b.setTable n l).corr = b.corr := rfl
@[simp] theorem setTable_stitch : (b.setTable n l).stitch = b.stitch := rfl
@[simp] theorem setTable_illum : (b.setTable n l).illum = b.illum := rfl
@[simp] theorem setTable_capture : (b.setTable n l).capture = b.capture := rfl
@[simp] theorem setTable_axes : (b.setTable n l).axes = b.axes := rfl
@[simp] theorem setTable_keystone : (b.setTable n l).keystone = b.keystone := rfl
@[simp] theorem setTable_aux : (b.setTable n l).aux = b.aux := rfl
@[simp] theorem setTable_ring : (b.setTable n l).ring = b.ring := rfl
@[simp] theorem setTable_dma : (b.setTable n l).dma = b.dma := rfl
@[simp] theorem setTable_mem : (b.setTable n l).mem = b.mem := rfl
@[simp] theorem setTable_host : (b.setTable n l).host = b.host := rfl
@[simp] theorem setTable_power : (b.setTable n l).power = b.power := rfl
@[simp] theorem setTable_thermal : (b.setTable n l).thermal = b.thermal := rfl
@[simp] theorem setTable_test : (b.setTable n l).test = b.test := rfl
@[simp] theorem setTable_repair : (b.setTable n l).repair = b.repair := rfl
@[simp] theorem setTable_saved : (b.setTable n l).saved = b.saved := rfl
@[simp] theorem setTable_control : (b.setTable n l).control = b.control := rfl
@[simp] theorem setTable_custody : (b.setTable n l).custody = b.custody := rfl
@[simp] theorem setTable_firmware : (b.setTable n l).firmware = b.firmware := rfl
@[simp] theorem setTable_attest : (b.setTable n l).attest = b.attest := rfl
@[simp] theorem setTable_reg (y : Obj) : (b.setTable n l).reg y = b.reg y := rfl

@[simp] theorem used_now : b.used.now = b.now := rfl
@[simp] theorem used_part : b.used.part = b.part := rfl
@[simp] theorem used_regs : b.used.regs = b.regs := rfl
@[simp] theorem used_tables : b.used.tables = b.tables := rfl
@[simp] theorem used_outs : b.used.outs = b.outs := rfl
@[simp] theorem used_free : b.used.free = b.free + 1 := rfl
@[simp] theorem used_fabric : b.used.fabric = b.fabric := rfl
@[simp] theorem used_faults : b.used.faults = b.faults := rfl
@[simp] theorem used_can : b.used.can = b.can := rfl
@[simp] theorem used_smb : b.used.smb = b.smb := rfl
@[simp] theorem used_heads : b.used.heads = b.heads := rfl
@[simp] theorem used_video : b.used.video = b.video := rfl
@[simp] theorem used_corr : b.used.corr = b.corr := rfl
@[simp] theorem used_stitch : b.used.stitch = b.stitch := rfl
@[simp] theorem used_illum : b.used.illum = b.illum := rfl
@[simp] theorem used_capture : b.used.capture = b.capture := rfl
@[simp] theorem used_axes : b.used.axes = b.axes := rfl
@[simp] theorem used_keystone : b.used.keystone = b.keystone := rfl
@[simp] theorem used_aux : b.used.aux = b.aux := rfl
@[simp] theorem used_ring : b.used.ring = b.ring := rfl
@[simp] theorem used_dma : b.used.dma = b.dma := rfl
@[simp] theorem used_mem : b.used.mem = b.mem := rfl
@[simp] theorem used_host : b.used.host = b.host := rfl
@[simp] theorem used_power : b.used.power = b.power := rfl
@[simp] theorem used_thermal : b.used.thermal = b.thermal := rfl
@[simp] theorem used_test : b.used.test = b.test := rfl
@[simp] theorem used_repair : b.used.repair = b.repair := rfl
@[simp] theorem used_saved : b.used.saved = b.saved := rfl
@[simp] theorem used_control : b.used.control = b.control := rfl
@[simp] theorem used_custody : b.used.custody = b.custody := rfl
@[simp] theorem used_firmware : b.used.firmware = b.firmware := rfl
@[simp] theorem used_attest : b.used.attest = b.attest := rfl
@[simp] theorem used_reg (y : Obj) : b.used.reg y = b.reg y := rfl

@[simp] theorem emit_now : (b.emit x).now = b.now := rfl
@[simp] theorem emit_part : (b.emit x).part = b.part := rfl
@[simp] theorem emit_regs : (b.emit x).regs = b.regs := rfl
@[simp] theorem emit_tables : (b.emit x).tables = b.tables := rfl
@[simp] theorem emit_outs : (b.emit x).outs = b.outs ++ [x] := rfl
@[simp] theorem emit_free : (b.emit x).free = b.free := rfl
@[simp] theorem emit_fabric : (b.emit x).fabric = b.fabric := rfl
@[simp] theorem emit_faults : (b.emit x).faults = b.faults := rfl
@[simp] theorem emit_can : (b.emit x).can = b.can := rfl
@[simp] theorem emit_smb : (b.emit x).smb = b.smb := rfl
@[simp] theorem emit_heads : (b.emit x).heads = b.heads := rfl
@[simp] theorem emit_video : (b.emit x).video = b.video := rfl
@[simp] theorem emit_corr : (b.emit x).corr = b.corr := rfl
@[simp] theorem emit_stitch : (b.emit x).stitch = b.stitch := rfl
@[simp] theorem emit_illum : (b.emit x).illum = b.illum := rfl
@[simp] theorem emit_capture : (b.emit x).capture = b.capture := rfl
@[simp] theorem emit_axes : (b.emit x).axes = b.axes := rfl
@[simp] theorem emit_keystone : (b.emit x).keystone = b.keystone := rfl
@[simp] theorem emit_aux : (b.emit x).aux = b.aux := rfl
@[simp] theorem emit_ring : (b.emit x).ring = b.ring := rfl
@[simp] theorem emit_dma : (b.emit x).dma = b.dma := rfl
@[simp] theorem emit_mem : (b.emit x).mem = b.mem := rfl
@[simp] theorem emit_host : (b.emit x).host = b.host := rfl
@[simp] theorem emit_power : (b.emit x).power = b.power := rfl
@[simp] theorem emit_thermal : (b.emit x).thermal = b.thermal := rfl
@[simp] theorem emit_test : (b.emit x).test = b.test := rfl
@[simp] theorem emit_repair : (b.emit x).repair = b.repair := rfl
@[simp] theorem emit_saved : (b.emit x).saved = b.saved := rfl
@[simp] theorem emit_control : (b.emit x).control = b.control := rfl
@[simp] theorem emit_custody : (b.emit x).custody = b.custody := rfl
@[simp] theorem emit_firmware : (b.emit x).firmware = b.firmware := rfl
@[simp] theorem emit_attest : (b.emit x).attest = b.attest := rfl
@[simp] theorem emit_reg (y : Obj) : (b.emit x).reg y = b.reg y := rfl

@[simp] theorem sendRing_now : (b.sendRing m).now = b.now := rfl
@[simp] theorem sendRing_part : (b.sendRing m).part = b.part := rfl
@[simp] theorem sendRing_regs : (b.sendRing m).regs = b.regs := rfl
@[simp] theorem sendRing_tables : (b.sendRing m).tables = b.tables := rfl
@[simp] theorem sendRing_outs : (b.sendRing m).outs = b.outs ++ [.ring m] := rfl
@[simp] theorem sendRing_free : (b.sendRing m).free = b.free := rfl
@[simp] theorem sendRing_fabric : (b.sendRing m).fabric = b.fabric := rfl
@[simp] theorem sendRing_faults : (b.sendRing m).faults = b.faults := rfl
@[simp] theorem sendRing_can : (b.sendRing m).can = b.can := rfl
@[simp] theorem sendRing_smb : (b.sendRing m).smb = b.smb := rfl
@[simp] theorem sendRing_heads : (b.sendRing m).heads = b.heads := rfl
@[simp] theorem sendRing_video : (b.sendRing m).video = b.video := rfl
@[simp] theorem sendRing_corr : (b.sendRing m).corr = b.corr := rfl
@[simp] theorem sendRing_stitch : (b.sendRing m).stitch = b.stitch := rfl
@[simp] theorem sendRing_illum : (b.sendRing m).illum = b.illum := rfl
@[simp] theorem sendRing_capture : (b.sendRing m).capture = b.capture := rfl
@[simp] theorem sendRing_axes : (b.sendRing m).axes = b.axes := rfl
@[simp] theorem sendRing_keystone : (b.sendRing m).keystone = b.keystone := rfl
@[simp] theorem sendRing_aux : (b.sendRing m).aux = b.aux := rfl
@[simp] theorem sendRing_ring : (b.sendRing m).ring = b.ring := rfl
@[simp] theorem sendRing_dma : (b.sendRing m).dma = b.dma := rfl
@[simp] theorem sendRing_mem : (b.sendRing m).mem = b.mem := rfl
@[simp] theorem sendRing_host : (b.sendRing m).host = b.host := rfl
@[simp] theorem sendRing_power : (b.sendRing m).power = b.power := rfl
@[simp] theorem sendRing_thermal : (b.sendRing m).thermal = b.thermal := rfl
@[simp] theorem sendRing_test : (b.sendRing m).test = b.test := rfl
@[simp] theorem sendRing_repair : (b.sendRing m).repair = b.repair := rfl
@[simp] theorem sendRing_saved : (b.sendRing m).saved = b.saved := rfl
@[simp] theorem sendRing_control : (b.sendRing m).control = b.control := rfl
@[simp] theorem sendRing_custody : (b.sendRing m).custody = b.custody := rfl
@[simp] theorem sendRing_firmware : (b.sendRing m).firmware = b.firmware := rfl
@[simp] theorem sendRing_attest : (b.sendRing m).attest = b.attest := rfl
@[simp] theorem sendRing_reg (y : Obj) : (b.sendRing m).reg y = b.reg y := rfl

@[simp] theorem raise_now : (b.raise n).now = b.now := rfl
@[simp] theorem raise_part : (b.raise n).part = b.part := rfl
@[simp] theorem raise_regs : (b.raise n).regs = b.regs := rfl
@[simp] theorem raise_tables : (b.raise n).tables = b.tables := rfl
@[simp] theorem raise_outs : (b.raise n).outs = b.outs ++ [.event n] := rfl
@[simp] theorem raise_free : (b.raise n).free = b.free := rfl
@[simp] theorem raise_fabric : (b.raise n).fabric = { b.fabric with queue := b.fabric.queue ++ [n] } := rfl
@[simp] theorem raise_faults : (b.raise n).faults = b.faults := rfl
@[simp] theorem raise_can : (b.raise n).can = b.can := rfl
@[simp] theorem raise_smb : (b.raise n).smb = b.smb := rfl
@[simp] theorem raise_heads : (b.raise n).heads = b.heads := rfl
@[simp] theorem raise_video : (b.raise n).video = b.video := rfl
@[simp] theorem raise_corr : (b.raise n).corr = b.corr := rfl
@[simp] theorem raise_stitch : (b.raise n).stitch = b.stitch := rfl
@[simp] theorem raise_illum : (b.raise n).illum = b.illum := rfl
@[simp] theorem raise_capture : (b.raise n).capture = b.capture := rfl
@[simp] theorem raise_axes : (b.raise n).axes = b.axes := rfl
@[simp] theorem raise_keystone : (b.raise n).keystone = b.keystone := rfl
@[simp] theorem raise_aux : (b.raise n).aux = b.aux := rfl
@[simp] theorem raise_ring : (b.raise n).ring = b.ring := rfl
@[simp] theorem raise_dma : (b.raise n).dma = b.dma := rfl
@[simp] theorem raise_mem : (b.raise n).mem = b.mem := rfl
@[simp] theorem raise_host : (b.raise n).host = b.host := rfl
@[simp] theorem raise_power : (b.raise n).power = b.power := rfl
@[simp] theorem raise_thermal : (b.raise n).thermal = b.thermal := rfl
@[simp] theorem raise_test : (b.raise n).test = b.test := rfl
@[simp] theorem raise_repair : (b.raise n).repair = b.repair := rfl
@[simp] theorem raise_saved : (b.raise n).saved = b.saved := rfl
@[simp] theorem raise_control : (b.raise n).control = b.control := rfl
@[simp] theorem raise_custody : (b.raise n).custody = b.custody := rfl
@[simp] theorem raise_firmware : (b.raise n).firmware = b.firmware := rfl
@[simp] theorem raise_attest : (b.raise n).attest = b.attest := rfl
@[simp] theorem raise_reg (y : Obj) : (b.raise n).reg y = b.reg y := rfl

@[simp] theorem memWrite_now : (b.memWrite n l).now = b.now := rfl
@[simp] theorem memWrite_part : (b.memWrite n l).part = b.part := rfl
@[simp] theorem memWrite_regs : (b.memWrite n l).regs = b.regs := rfl
@[simp] theorem memWrite_tables : (b.memWrite n l).tables = b.tables := rfl
@[simp] theorem memWrite_outs : (b.memWrite n l).outs = b.outs := rfl
@[simp] theorem memWrite_free : (b.memWrite n l).free = b.free := rfl
@[simp] theorem memWrite_fabric : (b.memWrite n l).fabric = b.fabric := rfl
@[simp] theorem memWrite_faults : (b.memWrite n l).faults = b.faults := rfl
@[simp] theorem memWrite_can : (b.memWrite n l).can = b.can := rfl
@[simp] theorem memWrite_smb : (b.memWrite n l).smb = b.smb := rfl
@[simp] theorem memWrite_heads : (b.memWrite n l).heads = b.heads := rfl
@[simp] theorem memWrite_video : (b.memWrite n l).video = b.video := rfl
@[simp] theorem memWrite_corr : (b.memWrite n l).corr = b.corr := rfl
@[simp] theorem memWrite_stitch : (b.memWrite n l).stitch = b.stitch := rfl
@[simp] theorem memWrite_illum : (b.memWrite n l).illum = b.illum := rfl
@[simp] theorem memWrite_capture : (b.memWrite n l).capture = b.capture := rfl
@[simp] theorem memWrite_axes : (b.memWrite n l).axes = b.axes := rfl
@[simp] theorem memWrite_keystone : (b.memWrite n l).keystone = b.keystone := rfl
@[simp] theorem memWrite_aux : (b.memWrite n l).aux = b.aux := rfl
@[simp] theorem memWrite_ring : (b.memWrite n l).ring = b.ring := rfl
@[simp] theorem memWrite_dma : (b.memWrite n l).dma = b.dma := rfl
@[simp] theorem memWrite_mem : (b.memWrite n l).mem = memPutRun b.mem n l := rfl
@[simp] theorem memWrite_host : (b.memWrite n l).host = b.host := rfl
@[simp] theorem memWrite_power : (b.memWrite n l).power = b.power := rfl
@[simp] theorem memWrite_thermal : (b.memWrite n l).thermal = b.thermal := rfl
@[simp] theorem memWrite_test : (b.memWrite n l).test = b.test := rfl
@[simp] theorem memWrite_repair : (b.memWrite n l).repair = b.repair := rfl
@[simp] theorem memWrite_saved : (b.memWrite n l).saved = b.saved := rfl
@[simp] theorem memWrite_control : (b.memWrite n l).control = b.control := rfl
@[simp] theorem memWrite_custody : (b.memWrite n l).custody = b.custody := rfl
@[simp] theorem memWrite_firmware : (b.memWrite n l).firmware = b.firmware := rfl
@[simp] theorem memWrite_attest : (b.memWrite n l).attest = b.attest := rfl
@[simp] theorem memWrite_reg (y : Obj) : (b.memWrite n l).reg y = b.reg y := rfl

@[simp] theorem answerSlot_now : (b.answerSlot k res).now = b.now := rfl
@[simp] theorem answerSlot_part : (b.answerSlot k res).part = b.part := rfl
@[simp] theorem answerSlot_regs : (b.answerSlot k res).regs = b.regs := rfl
@[simp] theorem answerSlot_tables : (b.answerSlot k res).tables = b.tables := rfl
@[simp] theorem answerSlot_outs : (b.answerSlot k res).outs = b.outs := rfl
@[simp] theorem answerSlot_free : (b.answerSlot k res).free = b.free := rfl
@[simp] theorem answerSlot_fabric : (b.answerSlot k res).fabric = b.fabric := rfl
@[simp] theorem answerSlot_faults : (b.answerSlot k res).faults = b.faults := rfl
@[simp] theorem answerSlot_can : (b.answerSlot k res).can = b.can := rfl
@[simp] theorem answerSlot_smb : (b.answerSlot k res).smb = b.smb := rfl
@[simp] theorem answerSlot_heads : (b.answerSlot k res).heads = b.heads := rfl
@[simp] theorem answerSlot_video : (b.answerSlot k res).video = b.video := rfl
@[simp] theorem answerSlot_corr : (b.answerSlot k res).corr = b.corr := rfl
@[simp] theorem answerSlot_stitch : (b.answerSlot k res).stitch = b.stitch := rfl
@[simp] theorem answerSlot_illum : (b.answerSlot k res).illum = b.illum := rfl
@[simp] theorem answerSlot_capture : (b.answerSlot k res).capture = b.capture := rfl
@[simp] theorem answerSlot_axes : (b.answerSlot k res).axes = b.axes := rfl
@[simp] theorem answerSlot_keystone : (b.answerSlot k res).keystone = b.keystone := rfl
@[simp] theorem answerSlot_aux : (b.answerSlot k res).aux = b.aux := rfl
@[simp] theorem answerSlot_ring : (b.answerSlot k res).ring = b.ring := rfl
@[simp] theorem answerSlot_dma : (b.answerSlot k res).dma = b.dma := rfl
@[simp] theorem answerSlot_mem : (b.answerSlot k res).mem = b.mem := rfl
@[simp] theorem answerSlot_power : (b.answerSlot k res).power = b.power := rfl
@[simp] theorem answerSlot_thermal : (b.answerSlot k res).thermal = b.thermal := rfl
@[simp] theorem answerSlot_test : (b.answerSlot k res).test = b.test := rfl
@[simp] theorem answerSlot_repair : (b.answerSlot k res).repair = b.repair := rfl
@[simp] theorem answerSlot_saved : (b.answerSlot k res).saved = b.saved := rfl
@[simp] theorem answerSlot_control : (b.answerSlot k res).control = b.control := rfl
@[simp] theorem answerSlot_custody : (b.answerSlot k res).custody = b.custody := rfl
@[simp] theorem answerSlot_firmware : (b.answerSlot k res).firmware = b.firmware := rfl
@[simp] theorem answerSlot_attest : (b.answerSlot k res).attest = b.attest := rfl
@[simp] theorem answerSlot_reg (y : Obj) : (b.answerSlot k res).reg y = b.reg y := rfl

@[simp] theorem answerSmb_now : (b.answerSmb res).now = b.now := rfl
@[simp] theorem answerSmb_part : (b.answerSmb res).part = b.part := rfl
@[simp] theorem answerSmb_regs : (b.answerSmb res).regs = b.regs := rfl
@[simp] theorem answerSmb_tables : (b.answerSmb res).tables = b.tables := rfl
@[simp] theorem answerSmb_outs : (b.answerSmb res).outs = b.outs := rfl
@[simp] theorem answerSmb_free : (b.answerSmb res).free = b.free := rfl
@[simp] theorem answerSmb_fabric : (b.answerSmb res).fabric = b.fabric := rfl
@[simp] theorem answerSmb_faults : (b.answerSmb res).faults = b.faults := rfl
@[simp] theorem answerSmb_can : (b.answerSmb res).can = b.can := rfl
@[simp] theorem answerSmb_smb : (b.answerSmb res).smb = { b.smb with executing := false, response := some ⟨res, b.now, false⟩ } := rfl
@[simp] theorem answerSmb_heads : (b.answerSmb res).heads = b.heads := rfl
@[simp] theorem answerSmb_video : (b.answerSmb res).video = b.video := rfl
@[simp] theorem answerSmb_corr : (b.answerSmb res).corr = b.corr := rfl
@[simp] theorem answerSmb_stitch : (b.answerSmb res).stitch = b.stitch := rfl
@[simp] theorem answerSmb_illum : (b.answerSmb res).illum = b.illum := rfl
@[simp] theorem answerSmb_capture : (b.answerSmb res).capture = b.capture := rfl
@[simp] theorem answerSmb_axes : (b.answerSmb res).axes = b.axes := rfl
@[simp] theorem answerSmb_keystone : (b.answerSmb res).keystone = b.keystone := rfl
@[simp] theorem answerSmb_aux : (b.answerSmb res).aux = b.aux := rfl
@[simp] theorem answerSmb_ring : (b.answerSmb res).ring = b.ring := rfl
@[simp] theorem answerSmb_dma : (b.answerSmb res).dma = b.dma := rfl
@[simp] theorem answerSmb_mem : (b.answerSmb res).mem = b.mem := rfl
@[simp] theorem answerSmb_host : (b.answerSmb res).host = b.host := rfl
@[simp] theorem answerSmb_power : (b.answerSmb res).power = b.power := rfl
@[simp] theorem answerSmb_thermal : (b.answerSmb res).thermal = b.thermal := rfl
@[simp] theorem answerSmb_test : (b.answerSmb res).test = b.test := rfl
@[simp] theorem answerSmb_repair : (b.answerSmb res).repair = b.repair := rfl
@[simp] theorem answerSmb_saved : (b.answerSmb res).saved = b.saved := rfl
@[simp] theorem answerSmb_control : (b.answerSmb res).control = b.control := rfl
@[simp] theorem answerSmb_custody : (b.answerSmb res).custody = b.custody := rfl
@[simp] theorem answerSmb_firmware : (b.answerSmb res).firmware = b.firmware := rfl
@[simp] theorem answerSmb_attest : (b.answerSmb res).attest = b.attest := rfl
@[simp] theorem answerSmb_reg (y : Obj) : (b.answerSmb res).reg y = b.reg y := rfl

@[simp] theorem unlatch_now : (b.unlatch n).now = b.now := rfl
@[simp] theorem unlatch_part : (b.unlatch n).part = b.part := rfl
@[simp] theorem unlatch_regs : (b.unlatch n).regs = b.regs := rfl
@[simp] theorem unlatch_tables : (b.unlatch n).tables = b.tables := rfl
@[simp] theorem unlatch_outs : (b.unlatch n).outs = b.outs := rfl
@[simp] theorem unlatch_free : (b.unlatch n).free = b.free := rfl
@[simp] theorem unlatch_fabric : (b.unlatch n).fabric = { b.fabric with latches := b.fabric.latches.erase n } := rfl
@[simp] theorem unlatch_faults : (b.unlatch n).faults = b.faults := rfl
@[simp] theorem unlatch_can : (b.unlatch n).can = b.can := rfl
@[simp] theorem unlatch_smb : (b.unlatch n).smb = b.smb := rfl
@[simp] theorem unlatch_heads : (b.unlatch n).heads = b.heads := rfl
@[simp] theorem unlatch_video : (b.unlatch n).video = b.video := rfl
@[simp] theorem unlatch_corr : (b.unlatch n).corr = b.corr := rfl
@[simp] theorem unlatch_stitch : (b.unlatch n).stitch = b.stitch := rfl
@[simp] theorem unlatch_illum : (b.unlatch n).illum = b.illum := rfl
@[simp] theorem unlatch_capture : (b.unlatch n).capture = b.capture := rfl
@[simp] theorem unlatch_axes : (b.unlatch n).axes = b.axes := rfl
@[simp] theorem unlatch_keystone : (b.unlatch n).keystone = b.keystone := rfl
@[simp] theorem unlatch_aux : (b.unlatch n).aux = b.aux := rfl
@[simp] theorem unlatch_ring : (b.unlatch n).ring = b.ring := rfl
@[simp] theorem unlatch_dma : (b.unlatch n).dma = b.dma := rfl
@[simp] theorem unlatch_mem : (b.unlatch n).mem = b.mem := rfl
@[simp] theorem unlatch_host : (b.unlatch n).host = b.host := rfl
@[simp] theorem unlatch_power : (b.unlatch n).power = b.power := rfl
@[simp] theorem unlatch_thermal : (b.unlatch n).thermal = b.thermal := rfl
@[simp] theorem unlatch_test : (b.unlatch n).test = b.test := rfl
@[simp] theorem unlatch_repair : (b.unlatch n).repair = b.repair := rfl
@[simp] theorem unlatch_saved : (b.unlatch n).saved = b.saved := rfl
@[simp] theorem unlatch_control : (b.unlatch n).control = b.control := rfl
@[simp] theorem unlatch_custody : (b.unlatch n).custody = b.custody := rfl
@[simp] theorem unlatch_firmware : (b.unlatch n).firmware = b.firmware := rfl
@[simp] theorem unlatch_attest : (b.unlatch n).attest = b.attest := rfl
@[simp] theorem unlatch_reg (y : Obj) : (b.unlatch n).reg y = b.reg y := rfl

@[simp] theorem countTask_now : (b.countTask n).now = b.now := rfl
@[simp] theorem countTask_part : (b.countTask n).part = b.part := rfl
@[simp] theorem countTask_regs : (b.countTask n).regs = b.regs := rfl
@[simp] theorem countTask_tables : (b.countTask n).tables = b.tables := rfl
@[simp] theorem countTask_outs : (b.countTask n).outs = b.outs := rfl
@[simp] theorem countTask_free : (b.countTask n).free = b.free := rfl
@[simp] theorem countTask_faults : (b.countTask n).faults = b.faults := rfl
@[simp] theorem countTask_can : (b.countTask n).can = b.can := rfl
@[simp] theorem countTask_smb : (b.countTask n).smb = b.smb := rfl
@[simp] theorem countTask_heads : (b.countTask n).heads = b.heads := rfl
@[simp] theorem countTask_video : (b.countTask n).video = b.video := rfl
@[simp] theorem countTask_corr : (b.countTask n).corr = b.corr := rfl
@[simp] theorem countTask_stitch : (b.countTask n).stitch = b.stitch := rfl
@[simp] theorem countTask_illum : (b.countTask n).illum = b.illum := rfl
@[simp] theorem countTask_capture : (b.countTask n).capture = b.capture := rfl
@[simp] theorem countTask_axes : (b.countTask n).axes = b.axes := rfl
@[simp] theorem countTask_keystone : (b.countTask n).keystone = b.keystone := rfl
@[simp] theorem countTask_aux : (b.countTask n).aux = b.aux := rfl
@[simp] theorem countTask_ring : (b.countTask n).ring = b.ring := rfl
@[simp] theorem countTask_dma : (b.countTask n).dma = b.dma := rfl
@[simp] theorem countTask_mem : (b.countTask n).mem = b.mem := rfl
@[simp] theorem countTask_host : (b.countTask n).host = b.host := rfl
@[simp] theorem countTask_power : (b.countTask n).power = b.power := rfl
@[simp] theorem countTask_thermal : (b.countTask n).thermal = b.thermal := rfl
@[simp] theorem countTask_test : (b.countTask n).test = b.test := rfl
@[simp] theorem countTask_repair : (b.countTask n).repair = b.repair := rfl
@[simp] theorem countTask_saved : (b.countTask n).saved = b.saved := rfl
@[simp] theorem countTask_control : (b.countTask n).control = b.control := rfl
@[simp] theorem countTask_custody : (b.countTask n).custody = b.custody := rfl
@[simp] theorem countTask_firmware : (b.countTask n).firmware = b.firmware := rfl
@[simp] theorem countTask_attest : (b.countTask n).attest = b.attest := rfl
@[simp] theorem countTask_reg (y : Obj) : (b.countTask n).reg y = b.reg y := rfl

@[simp] theorem modHead_now : (b.modHead h fHead).now = b.now := rfl
@[simp] theorem modHead_part : (b.modHead h fHead).part = b.part := rfl
@[simp] theorem modHead_regs : (b.modHead h fHead).regs = b.regs := rfl
@[simp] theorem modHead_tables : (b.modHead h fHead).tables = b.tables := rfl
@[simp] theorem modHead_outs : (b.modHead h fHead).outs = b.outs := rfl
@[simp] theorem modHead_free : (b.modHead h fHead).free = b.free := rfl
@[simp] theorem modHead_fabric : (b.modHead h fHead).fabric = b.fabric := rfl
@[simp] theorem modHead_faults : (b.modHead h fHead).faults = b.faults := rfl
@[simp] theorem modHead_can : (b.modHead h fHead).can = b.can := rfl
@[simp] theorem modHead_smb : (b.modHead h fHead).smb = b.smb := rfl
@[simp] theorem modHead_heads : (b.modHead h fHead).heads = b.heads.set h (fHead b.heads[h]) := rfl
@[simp] theorem modHead_video : (b.modHead h fHead).video = b.video := rfl
@[simp] theorem modHead_corr : (b.modHead h fHead).corr = b.corr := rfl
@[simp] theorem modHead_stitch : (b.modHead h fHead).stitch = b.stitch := rfl
@[simp] theorem modHead_illum : (b.modHead h fHead).illum = b.illum := rfl
@[simp] theorem modHead_capture : (b.modHead h fHead).capture = b.capture := rfl
@[simp] theorem modHead_axes : (b.modHead h fHead).axes = b.axes := rfl
@[simp] theorem modHead_keystone : (b.modHead h fHead).keystone = b.keystone := rfl
@[simp] theorem modHead_aux : (b.modHead h fHead).aux = b.aux := rfl
@[simp] theorem modHead_ring : (b.modHead h fHead).ring = b.ring := rfl
@[simp] theorem modHead_dma : (b.modHead h fHead).dma = b.dma := rfl
@[simp] theorem modHead_mem : (b.modHead h fHead).mem = b.mem := rfl
@[simp] theorem modHead_host : (b.modHead h fHead).host = b.host := rfl
@[simp] theorem modHead_power : (b.modHead h fHead).power = b.power := rfl
@[simp] theorem modHead_thermal : (b.modHead h fHead).thermal = b.thermal := rfl
@[simp] theorem modHead_test : (b.modHead h fHead).test = b.test := rfl
@[simp] theorem modHead_repair : (b.modHead h fHead).repair = b.repair := rfl
@[simp] theorem modHead_saved : (b.modHead h fHead).saved = b.saved := rfl
@[simp] theorem modHead_control : (b.modHead h fHead).control = b.control := rfl
@[simp] theorem modHead_custody : (b.modHead h fHead).custody = b.custody := rfl
@[simp] theorem modHead_firmware : (b.modHead h fHead).firmware = b.firmware := rfl
@[simp] theorem modHead_attest : (b.modHead h fHead).attest = b.attest := rfl
@[simp] theorem modHead_reg (y : Obj) : (b.modHead h fHead).reg y = b.reg y := rfl

@[simp] theorem modVideo_now : (b.modVideo h fVideo).now = b.now := rfl
@[simp] theorem modVideo_part : (b.modVideo h fVideo).part = b.part := rfl
@[simp] theorem modVideo_regs : (b.modVideo h fVideo).regs = b.regs := rfl
@[simp] theorem modVideo_tables : (b.modVideo h fVideo).tables = b.tables := rfl
@[simp] theorem modVideo_outs : (b.modVideo h fVideo).outs = b.outs := rfl
@[simp] theorem modVideo_free : (b.modVideo h fVideo).free = b.free := rfl
@[simp] theorem modVideo_fabric : (b.modVideo h fVideo).fabric = b.fabric := rfl
@[simp] theorem modVideo_faults : (b.modVideo h fVideo).faults = b.faults := rfl
@[simp] theorem modVideo_can : (b.modVideo h fVideo).can = b.can := rfl
@[simp] theorem modVideo_smb : (b.modVideo h fVideo).smb = b.smb := rfl
@[simp] theorem modVideo_heads : (b.modVideo h fVideo).heads = b.heads := rfl
@[simp] theorem modVideo_video : (b.modVideo h fVideo).video = b.video.set h (fVideo b.video[h]) := rfl
@[simp] theorem modVideo_corr : (b.modVideo h fVideo).corr = b.corr := rfl
@[simp] theorem modVideo_stitch : (b.modVideo h fVideo).stitch = b.stitch := rfl
@[simp] theorem modVideo_illum : (b.modVideo h fVideo).illum = b.illum := rfl
@[simp] theorem modVideo_capture : (b.modVideo h fVideo).capture = b.capture := rfl
@[simp] theorem modVideo_axes : (b.modVideo h fVideo).axes = b.axes := rfl
@[simp] theorem modVideo_keystone : (b.modVideo h fVideo).keystone = b.keystone := rfl
@[simp] theorem modVideo_aux : (b.modVideo h fVideo).aux = b.aux := rfl
@[simp] theorem modVideo_ring : (b.modVideo h fVideo).ring = b.ring := rfl
@[simp] theorem modVideo_dma : (b.modVideo h fVideo).dma = b.dma := rfl
@[simp] theorem modVideo_mem : (b.modVideo h fVideo).mem = b.mem := rfl
@[simp] theorem modVideo_host : (b.modVideo h fVideo).host = b.host := rfl
@[simp] theorem modVideo_power : (b.modVideo h fVideo).power = b.power := rfl
@[simp] theorem modVideo_thermal : (b.modVideo h fVideo).thermal = b.thermal := rfl
@[simp] theorem modVideo_test : (b.modVideo h fVideo).test = b.test := rfl
@[simp] theorem modVideo_repair : (b.modVideo h fVideo).repair = b.repair := rfl
@[simp] theorem modVideo_saved : (b.modVideo h fVideo).saved = b.saved := rfl
@[simp] theorem modVideo_control : (b.modVideo h fVideo).control = b.control := rfl
@[simp] theorem modVideo_custody : (b.modVideo h fVideo).custody = b.custody := rfl
@[simp] theorem modVideo_firmware : (b.modVideo h fVideo).firmware = b.firmware := rfl
@[simp] theorem modVideo_attest : (b.modVideo h fVideo).attest = b.attest := rfl
@[simp] theorem modVideo_reg (y : Obj) : (b.modVideo h fVideo).reg y = b.reg y := rfl

@[simp] theorem modCorr_now : (b.modCorr h fCorr).now = b.now := rfl
@[simp] theorem modCorr_part : (b.modCorr h fCorr).part = b.part := rfl
@[simp] theorem modCorr_regs : (b.modCorr h fCorr).regs = b.regs := rfl
@[simp] theorem modCorr_tables : (b.modCorr h fCorr).tables = b.tables := rfl
@[simp] theorem modCorr_outs : (b.modCorr h fCorr).outs = b.outs := rfl
@[simp] theorem modCorr_free : (b.modCorr h fCorr).free = b.free := rfl
@[simp] theorem modCorr_fabric : (b.modCorr h fCorr).fabric = b.fabric := rfl
@[simp] theorem modCorr_faults : (b.modCorr h fCorr).faults = b.faults := rfl
@[simp] theorem modCorr_can : (b.modCorr h fCorr).can = b.can := rfl
@[simp] theorem modCorr_smb : (b.modCorr h fCorr).smb = b.smb := rfl
@[simp] theorem modCorr_heads : (b.modCorr h fCorr).heads = b.heads := rfl
@[simp] theorem modCorr_video : (b.modCorr h fCorr).video = b.video := rfl
@[simp] theorem modCorr_corr : (b.modCorr h fCorr).corr = b.corr.set h (fCorr b.corr[h]) := rfl
@[simp] theorem modCorr_stitch : (b.modCorr h fCorr).stitch = b.stitch := rfl
@[simp] theorem modCorr_illum : (b.modCorr h fCorr).illum = b.illum := rfl
@[simp] theorem modCorr_capture : (b.modCorr h fCorr).capture = b.capture := rfl
@[simp] theorem modCorr_axes : (b.modCorr h fCorr).axes = b.axes := rfl
@[simp] theorem modCorr_keystone : (b.modCorr h fCorr).keystone = b.keystone := rfl
@[simp] theorem modCorr_aux : (b.modCorr h fCorr).aux = b.aux := rfl
@[simp] theorem modCorr_ring : (b.modCorr h fCorr).ring = b.ring := rfl
@[simp] theorem modCorr_dma : (b.modCorr h fCorr).dma = b.dma := rfl
@[simp] theorem modCorr_mem : (b.modCorr h fCorr).mem = b.mem := rfl
@[simp] theorem modCorr_host : (b.modCorr h fCorr).host = b.host := rfl
@[simp] theorem modCorr_power : (b.modCorr h fCorr).power = b.power := rfl
@[simp] theorem modCorr_thermal : (b.modCorr h fCorr).thermal = b.thermal := rfl
@[simp] theorem modCorr_test : (b.modCorr h fCorr).test = b.test := rfl
@[simp] theorem modCorr_repair : (b.modCorr h fCorr).repair = b.repair := rfl
@[simp] theorem modCorr_saved : (b.modCorr h fCorr).saved = b.saved := rfl
@[simp] theorem modCorr_control : (b.modCorr h fCorr).control = b.control := rfl
@[simp] theorem modCorr_custody : (b.modCorr h fCorr).custody = b.custody := rfl
@[simp] theorem modCorr_firmware : (b.modCorr h fCorr).firmware = b.firmware := rfl
@[simp] theorem modCorr_attest : (b.modCorr h fCorr).attest = b.attest := rfl
@[simp] theorem modCorr_reg (y : Obj) : (b.modCorr h fCorr).reg y = b.reg y := rfl

@[simp] theorem modStitch_now : (b.modStitch h fStitch).now = b.now := rfl
@[simp] theorem modStitch_part : (b.modStitch h fStitch).part = b.part := rfl
@[simp] theorem modStitch_regs : (b.modStitch h fStitch).regs = b.regs := rfl
@[simp] theorem modStitch_tables : (b.modStitch h fStitch).tables = b.tables := rfl
@[simp] theorem modStitch_outs : (b.modStitch h fStitch).outs = b.outs := rfl
@[simp] theorem modStitch_free : (b.modStitch h fStitch).free = b.free := rfl
@[simp] theorem modStitch_fabric : (b.modStitch h fStitch).fabric = b.fabric := rfl
@[simp] theorem modStitch_faults : (b.modStitch h fStitch).faults = b.faults := rfl
@[simp] theorem modStitch_can : (b.modStitch h fStitch).can = b.can := rfl
@[simp] theorem modStitch_smb : (b.modStitch h fStitch).smb = b.smb := rfl
@[simp] theorem modStitch_heads : (b.modStitch h fStitch).heads = b.heads := rfl
@[simp] theorem modStitch_video : (b.modStitch h fStitch).video = b.video := rfl
@[simp] theorem modStitch_corr : (b.modStitch h fStitch).corr = b.corr := rfl
@[simp] theorem modStitch_stitch : (b.modStitch h fStitch).stitch = b.stitch.set h (fStitch b.stitch[h]) := rfl
@[simp] theorem modStitch_illum : (b.modStitch h fStitch).illum = b.illum := rfl
@[simp] theorem modStitch_capture : (b.modStitch h fStitch).capture = b.capture := rfl
@[simp] theorem modStitch_axes : (b.modStitch h fStitch).axes = b.axes := rfl
@[simp] theorem modStitch_keystone : (b.modStitch h fStitch).keystone = b.keystone := rfl
@[simp] theorem modStitch_aux : (b.modStitch h fStitch).aux = b.aux := rfl
@[simp] theorem modStitch_ring : (b.modStitch h fStitch).ring = b.ring := rfl
@[simp] theorem modStitch_dma : (b.modStitch h fStitch).dma = b.dma := rfl
@[simp] theorem modStitch_mem : (b.modStitch h fStitch).mem = b.mem := rfl
@[simp] theorem modStitch_host : (b.modStitch h fStitch).host = b.host := rfl
@[simp] theorem modStitch_power : (b.modStitch h fStitch).power = b.power := rfl
@[simp] theorem modStitch_thermal : (b.modStitch h fStitch).thermal = b.thermal := rfl
@[simp] theorem modStitch_test : (b.modStitch h fStitch).test = b.test := rfl
@[simp] theorem modStitch_repair : (b.modStitch h fStitch).repair = b.repair := rfl
@[simp] theorem modStitch_saved : (b.modStitch h fStitch).saved = b.saved := rfl
@[simp] theorem modStitch_control : (b.modStitch h fStitch).control = b.control := rfl
@[simp] theorem modStitch_custody : (b.modStitch h fStitch).custody = b.custody := rfl
@[simp] theorem modStitch_firmware : (b.modStitch h fStitch).firmware = b.firmware := rfl
@[simp] theorem modStitch_attest : (b.modStitch h fStitch).attest = b.attest := rfl
@[simp] theorem modStitch_reg (y : Obj) : (b.modStitch h fStitch).reg y = b.reg y := rfl

@[simp] theorem modIllum_now : (b.modIllum h fIllum).now = b.now := rfl
@[simp] theorem modIllum_part : (b.modIllum h fIllum).part = b.part := rfl
@[simp] theorem modIllum_regs : (b.modIllum h fIllum).regs = b.regs := rfl
@[simp] theorem modIllum_tables : (b.modIllum h fIllum).tables = b.tables := rfl
@[simp] theorem modIllum_outs : (b.modIllum h fIllum).outs = b.outs := rfl
@[simp] theorem modIllum_free : (b.modIllum h fIllum).free = b.free := rfl
@[simp] theorem modIllum_fabric : (b.modIllum h fIllum).fabric = b.fabric := rfl
@[simp] theorem modIllum_faults : (b.modIllum h fIllum).faults = b.faults := rfl
@[simp] theorem modIllum_can : (b.modIllum h fIllum).can = b.can := rfl
@[simp] theorem modIllum_smb : (b.modIllum h fIllum).smb = b.smb := rfl
@[simp] theorem modIllum_heads : (b.modIllum h fIllum).heads = b.heads := rfl
@[simp] theorem modIllum_video : (b.modIllum h fIllum).video = b.video := rfl
@[simp] theorem modIllum_corr : (b.modIllum h fIllum).corr = b.corr := rfl
@[simp] theorem modIllum_stitch : (b.modIllum h fIllum).stitch = b.stitch := rfl
@[simp] theorem modIllum_illum : (b.modIllum h fIllum).illum = b.illum.set h (fIllum b.illum[h]) := rfl
@[simp] theorem modIllum_capture : (b.modIllum h fIllum).capture = b.capture := rfl
@[simp] theorem modIllum_axes : (b.modIllum h fIllum).axes = b.axes := rfl
@[simp] theorem modIllum_keystone : (b.modIllum h fIllum).keystone = b.keystone := rfl
@[simp] theorem modIllum_aux : (b.modIllum h fIllum).aux = b.aux := rfl
@[simp] theorem modIllum_ring : (b.modIllum h fIllum).ring = b.ring := rfl
@[simp] theorem modIllum_dma : (b.modIllum h fIllum).dma = b.dma := rfl
@[simp] theorem modIllum_mem : (b.modIllum h fIllum).mem = b.mem := rfl
@[simp] theorem modIllum_host : (b.modIllum h fIllum).host = b.host := rfl
@[simp] theorem modIllum_power : (b.modIllum h fIllum).power = b.power := rfl
@[simp] theorem modIllum_thermal : (b.modIllum h fIllum).thermal = b.thermal := rfl
@[simp] theorem modIllum_test : (b.modIllum h fIllum).test = b.test := rfl
@[simp] theorem modIllum_repair : (b.modIllum h fIllum).repair = b.repair := rfl
@[simp] theorem modIllum_saved : (b.modIllum h fIllum).saved = b.saved := rfl
@[simp] theorem modIllum_control : (b.modIllum h fIllum).control = b.control := rfl
@[simp] theorem modIllum_custody : (b.modIllum h fIllum).custody = b.custody := rfl
@[simp] theorem modIllum_firmware : (b.modIllum h fIllum).firmware = b.firmware := rfl
@[simp] theorem modIllum_attest : (b.modIllum h fIllum).attest = b.attest := rfl
@[simp] theorem modIllum_reg (y : Obj) : (b.modIllum h fIllum).reg y = b.reg y := rfl

@[simp] theorem modCapture_now : (b.modCapture fCapture).now = b.now := rfl
@[simp] theorem modCapture_part : (b.modCapture fCapture).part = b.part := rfl
@[simp] theorem modCapture_regs : (b.modCapture fCapture).regs = b.regs := rfl
@[simp] theorem modCapture_tables : (b.modCapture fCapture).tables = b.tables := rfl
@[simp] theorem modCapture_outs : (b.modCapture fCapture).outs = b.outs := rfl
@[simp] theorem modCapture_free : (b.modCapture fCapture).free = b.free := rfl
@[simp] theorem modCapture_fabric : (b.modCapture fCapture).fabric = b.fabric := rfl
@[simp] theorem modCapture_faults : (b.modCapture fCapture).faults = b.faults := rfl
@[simp] theorem modCapture_can : (b.modCapture fCapture).can = b.can := rfl
@[simp] theorem modCapture_smb : (b.modCapture fCapture).smb = b.smb := rfl
@[simp] theorem modCapture_heads : (b.modCapture fCapture).heads = b.heads := rfl
@[simp] theorem modCapture_video : (b.modCapture fCapture).video = b.video := rfl
@[simp] theorem modCapture_corr : (b.modCapture fCapture).corr = b.corr := rfl
@[simp] theorem modCapture_stitch : (b.modCapture fCapture).stitch = b.stitch := rfl
@[simp] theorem modCapture_illum : (b.modCapture fCapture).illum = b.illum := rfl
@[simp] theorem modCapture_capture : (b.modCapture fCapture).capture = fCapture b.capture := rfl
@[simp] theorem modCapture_axes : (b.modCapture fCapture).axes = b.axes := rfl
@[simp] theorem modCapture_keystone : (b.modCapture fCapture).keystone = b.keystone := rfl
@[simp] theorem modCapture_aux : (b.modCapture fCapture).aux = b.aux := rfl
@[simp] theorem modCapture_ring : (b.modCapture fCapture).ring = b.ring := rfl
@[simp] theorem modCapture_dma : (b.modCapture fCapture).dma = b.dma := rfl
@[simp] theorem modCapture_mem : (b.modCapture fCapture).mem = b.mem := rfl
@[simp] theorem modCapture_host : (b.modCapture fCapture).host = b.host := rfl
@[simp] theorem modCapture_power : (b.modCapture fCapture).power = b.power := rfl
@[simp] theorem modCapture_thermal : (b.modCapture fCapture).thermal = b.thermal := rfl
@[simp] theorem modCapture_test : (b.modCapture fCapture).test = b.test := rfl
@[simp] theorem modCapture_repair : (b.modCapture fCapture).repair = b.repair := rfl
@[simp] theorem modCapture_saved : (b.modCapture fCapture).saved = b.saved := rfl
@[simp] theorem modCapture_control : (b.modCapture fCapture).control = b.control := rfl
@[simp] theorem modCapture_custody : (b.modCapture fCapture).custody = b.custody := rfl
@[simp] theorem modCapture_firmware : (b.modCapture fCapture).firmware = b.firmware := rfl
@[simp] theorem modCapture_attest : (b.modCapture fCapture).attest = b.attest := rfl
@[simp] theorem modCapture_reg (y : Obj) : (b.modCapture fCapture).reg y = b.reg y := rfl

@[simp] theorem modPart_now : (b.modPart h fPart).now = b.now := rfl
@[simp] theorem modPart_part : (b.modPart h fPart).part = b.part := rfl
@[simp] theorem modPart_regs : (b.modPart h fPart).regs = b.regs := rfl
@[simp] theorem modPart_tables : (b.modPart h fPart).tables = b.tables := rfl
@[simp] theorem modPart_outs : (b.modPart h fPart).outs = b.outs := rfl
@[simp] theorem modPart_free : (b.modPart h fPart).free = b.free := rfl
@[simp] theorem modPart_fabric : (b.modPart h fPart).fabric = b.fabric := rfl
@[simp] theorem modPart_faults : (b.modPart h fPart).faults = b.faults := rfl
@[simp] theorem modPart_can : (b.modPart h fPart).can = b.can := rfl
@[simp] theorem modPart_smb : (b.modPart h fPart).smb = b.smb := rfl
@[simp] theorem modPart_heads : (b.modPart h fPart).heads = b.heads := rfl
@[simp] theorem modPart_video : (b.modPart h fPart).video = b.video := rfl
@[simp] theorem modPart_corr : (b.modPart h fPart).corr = b.corr := rfl
@[simp] theorem modPart_stitch : (b.modPart h fPart).stitch = b.stitch := rfl
@[simp] theorem modPart_illum : (b.modPart h fPart).illum = b.illum := rfl
@[simp] theorem modPart_axes : (b.modPart h fPart).axes = b.axes := rfl
@[simp] theorem modPart_keystone : (b.modPart h fPart).keystone = b.keystone := rfl
@[simp] theorem modPart_aux : (b.modPart h fPart).aux = b.aux := rfl
@[simp] theorem modPart_ring : (b.modPart h fPart).ring = b.ring := rfl
@[simp] theorem modPart_dma : (b.modPart h fPart).dma = b.dma := rfl
@[simp] theorem modPart_mem : (b.modPart h fPart).mem = b.mem := rfl
@[simp] theorem modPart_host : (b.modPart h fPart).host = b.host := rfl
@[simp] theorem modPart_power : (b.modPart h fPart).power = b.power := rfl
@[simp] theorem modPart_thermal : (b.modPart h fPart).thermal = b.thermal := rfl
@[simp] theorem modPart_test : (b.modPart h fPart).test = b.test := rfl
@[simp] theorem modPart_repair : (b.modPart h fPart).repair = b.repair := rfl
@[simp] theorem modPart_saved : (b.modPart h fPart).saved = b.saved := rfl
@[simp] theorem modPart_control : (b.modPart h fPart).control = b.control := rfl
@[simp] theorem modPart_custody : (b.modPart h fPart).custody = b.custody := rfl
@[simp] theorem modPart_firmware : (b.modPart h fPart).firmware = b.firmware := rfl
@[simp] theorem modPart_attest : (b.modPart h fPart).attest = b.attest := rfl
@[simp] theorem modPart_reg (y : Obj) : (b.modPart h fPart).reg y = b.reg y := rfl

@[simp] theorem modAxis_now : (b.modAxis a fAxis).now = b.now := rfl
@[simp] theorem modAxis_part : (b.modAxis a fAxis).part = b.part := rfl
@[simp] theorem modAxis_regs : (b.modAxis a fAxis).regs = b.regs := rfl
@[simp] theorem modAxis_tables : (b.modAxis a fAxis).tables = b.tables := rfl
@[simp] theorem modAxis_outs : (b.modAxis a fAxis).outs = b.outs := rfl
@[simp] theorem modAxis_free : (b.modAxis a fAxis).free = b.free := rfl
@[simp] theorem modAxis_fabric : (b.modAxis a fAxis).fabric = b.fabric := rfl
@[simp] theorem modAxis_faults : (b.modAxis a fAxis).faults = b.faults := rfl
@[simp] theorem modAxis_can : (b.modAxis a fAxis).can = b.can := rfl
@[simp] theorem modAxis_smb : (b.modAxis a fAxis).smb = b.smb := rfl
@[simp] theorem modAxis_heads : (b.modAxis a fAxis).heads = b.heads := rfl
@[simp] theorem modAxis_video : (b.modAxis a fAxis).video = b.video := rfl
@[simp] theorem modAxis_corr : (b.modAxis a fAxis).corr = b.corr := rfl
@[simp] theorem modAxis_stitch : (b.modAxis a fAxis).stitch = b.stitch := rfl
@[simp] theorem modAxis_illum : (b.modAxis a fAxis).illum = b.illum := rfl
@[simp] theorem modAxis_capture : (b.modAxis a fAxis).capture = b.capture := rfl
@[simp] theorem modAxis_axes : (b.modAxis a fAxis).axes = b.axes.set a (fAxis b.axes[a]) := rfl
@[simp] theorem modAxis_keystone : (b.modAxis a fAxis).keystone = b.keystone := rfl
@[simp] theorem modAxis_aux : (b.modAxis a fAxis).aux = b.aux := rfl
@[simp] theorem modAxis_ring : (b.modAxis a fAxis).ring = b.ring := rfl
@[simp] theorem modAxis_dma : (b.modAxis a fAxis).dma = b.dma := rfl
@[simp] theorem modAxis_mem : (b.modAxis a fAxis).mem = b.mem := rfl
@[simp] theorem modAxis_host : (b.modAxis a fAxis).host = b.host := rfl
@[simp] theorem modAxis_power : (b.modAxis a fAxis).power = b.power := rfl
@[simp] theorem modAxis_thermal : (b.modAxis a fAxis).thermal = b.thermal := rfl
@[simp] theorem modAxis_test : (b.modAxis a fAxis).test = b.test := rfl
@[simp] theorem modAxis_repair : (b.modAxis a fAxis).repair = b.repair := rfl
@[simp] theorem modAxis_saved : (b.modAxis a fAxis).saved = b.saved := rfl
@[simp] theorem modAxis_control : (b.modAxis a fAxis).control = b.control := rfl
@[simp] theorem modAxis_custody : (b.modAxis a fAxis).custody = b.custody := rfl
@[simp] theorem modAxis_firmware : (b.modAxis a fAxis).firmware = b.firmware := rfl
@[simp] theorem modAxis_attest : (b.modAxis a fAxis).attest = b.attest := rfl
@[simp] theorem modAxis_reg (y : Obj) : (b.modAxis a fAxis).reg y = b.reg y := rfl

@[simp] theorem modKey_now : (b.modKey fKey).now = b.now := rfl
@[simp] theorem modKey_part : (b.modKey fKey).part = b.part := rfl
@[simp] theorem modKey_regs : (b.modKey fKey).regs = b.regs := rfl
@[simp] theorem modKey_tables : (b.modKey fKey).tables = b.tables := rfl
@[simp] theorem modKey_outs : (b.modKey fKey).outs = b.outs := rfl
@[simp] theorem modKey_free : (b.modKey fKey).free = b.free := rfl
@[simp] theorem modKey_fabric : (b.modKey fKey).fabric = b.fabric := rfl
@[simp] theorem modKey_faults : (b.modKey fKey).faults = b.faults := rfl
@[simp] theorem modKey_can : (b.modKey fKey).can = b.can := rfl
@[simp] theorem modKey_smb : (b.modKey fKey).smb = b.smb := rfl
@[simp] theorem modKey_heads : (b.modKey fKey).heads = b.heads := rfl
@[simp] theorem modKey_video : (b.modKey fKey).video = b.video := rfl
@[simp] theorem modKey_corr : (b.modKey fKey).corr = b.corr := rfl
@[simp] theorem modKey_stitch : (b.modKey fKey).stitch = b.stitch := rfl
@[simp] theorem modKey_illum : (b.modKey fKey).illum = b.illum := rfl
@[simp] theorem modKey_capture : (b.modKey fKey).capture = b.capture := rfl
@[simp] theorem modKey_axes : (b.modKey fKey).axes = b.axes := rfl
@[simp] theorem modKey_keystone : (b.modKey fKey).keystone = fKey b.keystone := rfl
@[simp] theorem modKey_aux : (b.modKey fKey).aux = b.aux := rfl
@[simp] theorem modKey_ring : (b.modKey fKey).ring = b.ring := rfl
@[simp] theorem modKey_dma : (b.modKey fKey).dma = b.dma := rfl
@[simp] theorem modKey_mem : (b.modKey fKey).mem = b.mem := rfl
@[simp] theorem modKey_host : (b.modKey fKey).host = b.host := rfl
@[simp] theorem modKey_power : (b.modKey fKey).power = b.power := rfl
@[simp] theorem modKey_thermal : (b.modKey fKey).thermal = b.thermal := rfl
@[simp] theorem modKey_test : (b.modKey fKey).test = b.test := rfl
@[simp] theorem modKey_repair : (b.modKey fKey).repair = b.repair := rfl
@[simp] theorem modKey_saved : (b.modKey fKey).saved = b.saved := rfl
@[simp] theorem modKey_control : (b.modKey fKey).control = b.control := rfl
@[simp] theorem modKey_custody : (b.modKey fKey).custody = b.custody := rfl
@[simp] theorem modKey_firmware : (b.modKey fKey).firmware = b.firmware := rfl
@[simp] theorem modKey_attest : (b.modKey fKey).attest = b.attest := rfl
@[simp] theorem modKey_reg (y : Obj) : (b.modKey fKey).reg y = b.reg y := rfl

@[simp] theorem modAux_now : (b.modAux fAux).now = b.now := rfl
@[simp] theorem modAux_part : (b.modAux fAux).part = b.part := rfl
@[simp] theorem modAux_regs : (b.modAux fAux).regs = b.regs := rfl
@[simp] theorem modAux_tables : (b.modAux fAux).tables = b.tables := rfl
@[simp] theorem modAux_outs : (b.modAux fAux).outs = b.outs := rfl
@[simp] theorem modAux_free : (b.modAux fAux).free = b.free := rfl
@[simp] theorem modAux_fabric : (b.modAux fAux).fabric = b.fabric := rfl
@[simp] theorem modAux_faults : (b.modAux fAux).faults = b.faults := rfl
@[simp] theorem modAux_can : (b.modAux fAux).can = b.can := rfl
@[simp] theorem modAux_smb : (b.modAux fAux).smb = b.smb := rfl
@[simp] theorem modAux_heads : (b.modAux fAux).heads = b.heads := rfl
@[simp] theorem modAux_video : (b.modAux fAux).video = b.video := rfl
@[simp] theorem modAux_corr : (b.modAux fAux).corr = b.corr := rfl
@[simp] theorem modAux_stitch : (b.modAux fAux).stitch = b.stitch := rfl
@[simp] theorem modAux_illum : (b.modAux fAux).illum = b.illum := rfl
@[simp] theorem modAux_capture : (b.modAux fAux).capture = b.capture := rfl
@[simp] theorem modAux_axes : (b.modAux fAux).axes = b.axes := rfl
@[simp] theorem modAux_keystone : (b.modAux fAux).keystone = b.keystone := rfl
@[simp] theorem modAux_aux : (b.modAux fAux).aux = fAux b.aux := rfl
@[simp] theorem modAux_ring : (b.modAux fAux).ring = b.ring := rfl
@[simp] theorem modAux_dma : (b.modAux fAux).dma = b.dma := rfl
@[simp] theorem modAux_mem : (b.modAux fAux).mem = b.mem := rfl
@[simp] theorem modAux_host : (b.modAux fAux).host = b.host := rfl
@[simp] theorem modAux_power : (b.modAux fAux).power = b.power := rfl
@[simp] theorem modAux_thermal : (b.modAux fAux).thermal = b.thermal := rfl
@[simp] theorem modAux_test : (b.modAux fAux).test = b.test := rfl
@[simp] theorem modAux_repair : (b.modAux fAux).repair = b.repair := rfl
@[simp] theorem modAux_saved : (b.modAux fAux).saved = b.saved := rfl
@[simp] theorem modAux_control : (b.modAux fAux).control = b.control := rfl
@[simp] theorem modAux_custody : (b.modAux fAux).custody = b.custody := rfl
@[simp] theorem modAux_firmware : (b.modAux fAux).firmware = b.firmware := rfl
@[simp] theorem modAux_attest : (b.modAux fAux).attest = b.attest := rfl
@[simp] theorem modAux_reg (y : Obj) : (b.modAux fAux).reg y = b.reg y := rfl

@[simp] theorem modChannel_now : (b.modChannel c fChannel).now = b.now := rfl
@[simp] theorem modChannel_part : (b.modChannel c fChannel).part = b.part := rfl
@[simp] theorem modChannel_regs : (b.modChannel c fChannel).regs = b.regs := rfl
@[simp] theorem modChannel_tables : (b.modChannel c fChannel).tables = b.tables := rfl
@[simp] theorem modChannel_outs : (b.modChannel c fChannel).outs = b.outs := rfl
@[simp] theorem modChannel_free : (b.modChannel c fChannel).free = b.free := rfl
@[simp] theorem modChannel_fabric : (b.modChannel c fChannel).fabric = b.fabric := rfl
@[simp] theorem modChannel_faults : (b.modChannel c fChannel).faults = b.faults := rfl
@[simp] theorem modChannel_can : (b.modChannel c fChannel).can = b.can := rfl
@[simp] theorem modChannel_smb : (b.modChannel c fChannel).smb = b.smb := rfl
@[simp] theorem modChannel_heads : (b.modChannel c fChannel).heads = b.heads := rfl
@[simp] theorem modChannel_video : (b.modChannel c fChannel).video = b.video := rfl
@[simp] theorem modChannel_corr : (b.modChannel c fChannel).corr = b.corr := rfl
@[simp] theorem modChannel_stitch : (b.modChannel c fChannel).stitch = b.stitch := rfl
@[simp] theorem modChannel_illum : (b.modChannel c fChannel).illum = b.illum := rfl
@[simp] theorem modChannel_capture : (b.modChannel c fChannel).capture = b.capture := rfl
@[simp] theorem modChannel_axes : (b.modChannel c fChannel).axes = b.axes := rfl
@[simp] theorem modChannel_keystone : (b.modChannel c fChannel).keystone = b.keystone := rfl
@[simp] theorem modChannel_ring : (b.modChannel c fChannel).ring = b.ring := rfl
@[simp] theorem modChannel_dma : (b.modChannel c fChannel).dma = b.dma := rfl
@[simp] theorem modChannel_mem : (b.modChannel c fChannel).mem = b.mem := rfl
@[simp] theorem modChannel_host : (b.modChannel c fChannel).host = b.host := rfl
@[simp] theorem modChannel_power : (b.modChannel c fChannel).power = b.power := rfl
@[simp] theorem modChannel_thermal : (b.modChannel c fChannel).thermal = b.thermal := rfl
@[simp] theorem modChannel_test : (b.modChannel c fChannel).test = b.test := rfl
@[simp] theorem modChannel_repair : (b.modChannel c fChannel).repair = b.repair := rfl
@[simp] theorem modChannel_saved : (b.modChannel c fChannel).saved = b.saved := rfl
@[simp] theorem modChannel_control : (b.modChannel c fChannel).control = b.control := rfl
@[simp] theorem modChannel_custody : (b.modChannel c fChannel).custody = b.custody := rfl
@[simp] theorem modChannel_firmware : (b.modChannel c fChannel).firmware = b.firmware := rfl
@[simp] theorem modChannel_attest : (b.modChannel c fChannel).attest = b.attest := rfl
@[simp] theorem modChannel_reg (y : Obj) : (b.modChannel c fChannel).reg y = b.reg y := rfl

@[simp] theorem modLane_now : (b.modLane lane fLane).now = b.now := rfl
@[simp] theorem modLane_part : (b.modLane lane fLane).part = b.part := rfl
@[simp] theorem modLane_regs : (b.modLane lane fLane).regs = b.regs := rfl
@[simp] theorem modLane_tables : (b.modLane lane fLane).tables = b.tables := rfl
@[simp] theorem modLane_outs : (b.modLane lane fLane).outs = b.outs := rfl
@[simp] theorem modLane_free : (b.modLane lane fLane).free = b.free := rfl
@[simp] theorem modLane_fabric : (b.modLane lane fLane).fabric = b.fabric := rfl
@[simp] theorem modLane_faults : (b.modLane lane fLane).faults = b.faults := rfl
@[simp] theorem modLane_can : (b.modLane lane fLane).can = b.can := rfl
@[simp] theorem modLane_smb : (b.modLane lane fLane).smb = b.smb := rfl
@[simp] theorem modLane_heads : (b.modLane lane fLane).heads = b.heads := rfl
@[simp] theorem modLane_video : (b.modLane lane fLane).video = b.video := rfl
@[simp] theorem modLane_corr : (b.modLane lane fLane).corr = b.corr := rfl
@[simp] theorem modLane_stitch : (b.modLane lane fLane).stitch = b.stitch := rfl
@[simp] theorem modLane_illum : (b.modLane lane fLane).illum = b.illum := rfl
@[simp] theorem modLane_capture : (b.modLane lane fLane).capture = b.capture := rfl
@[simp] theorem modLane_axes : (b.modLane lane fLane).axes = b.axes := rfl
@[simp] theorem modLane_keystone : (b.modLane lane fLane).keystone = b.keystone := rfl
@[simp] theorem modLane_ring : (b.modLane lane fLane).ring = b.ring := rfl
@[simp] theorem modLane_dma : (b.modLane lane fLane).dma = b.dma := rfl
@[simp] theorem modLane_mem : (b.modLane lane fLane).mem = b.mem := rfl
@[simp] theorem modLane_host : (b.modLane lane fLane).host = b.host := rfl
@[simp] theorem modLane_power : (b.modLane lane fLane).power = b.power := rfl
@[simp] theorem modLane_thermal : (b.modLane lane fLane).thermal = b.thermal := rfl
@[simp] theorem modLane_test : (b.modLane lane fLane).test = b.test := rfl
@[simp] theorem modLane_repair : (b.modLane lane fLane).repair = b.repair := rfl
@[simp] theorem modLane_saved : (b.modLane lane fLane).saved = b.saved := rfl
@[simp] theorem modLane_control : (b.modLane lane fLane).control = b.control := rfl
@[simp] theorem modLane_custody : (b.modLane lane fLane).custody = b.custody := rfl
@[simp] theorem modLane_firmware : (b.modLane lane fLane).firmware = b.firmware := rfl
@[simp] theorem modLane_attest : (b.modLane lane fLane).attest = b.attest := rfl
@[simp] theorem modLane_reg (y : Obj) : (b.modLane lane fLane).reg y = b.reg y := rfl

@[simp] theorem modTimer_now : (b.modTimer u fTimer).now = b.now := rfl
@[simp] theorem modTimer_part : (b.modTimer u fTimer).part = b.part := rfl
@[simp] theorem modTimer_regs : (b.modTimer u fTimer).regs = b.regs := rfl
@[simp] theorem modTimer_tables : (b.modTimer u fTimer).tables = b.tables := rfl
@[simp] theorem modTimer_outs : (b.modTimer u fTimer).outs = b.outs := rfl
@[simp] theorem modTimer_free : (b.modTimer u fTimer).free = b.free := rfl
@[simp] theorem modTimer_faults : (b.modTimer u fTimer).faults = b.faults := rfl
@[simp] theorem modTimer_can : (b.modTimer u fTimer).can = b.can := rfl
@[simp] theorem modTimer_smb : (b.modTimer u fTimer).smb = b.smb := rfl
@[simp] theorem modTimer_heads : (b.modTimer u fTimer).heads = b.heads := rfl
@[simp] theorem modTimer_video : (b.modTimer u fTimer).video = b.video := rfl
@[simp] theorem modTimer_corr : (b.modTimer u fTimer).corr = b.corr := rfl
@[simp] theorem modTimer_stitch : (b.modTimer u fTimer).stitch = b.stitch := rfl
@[simp] theorem modTimer_illum : (b.modTimer u fTimer).illum = b.illum := rfl
@[simp] theorem modTimer_capture : (b.modTimer u fTimer).capture = b.capture := rfl
@[simp] theorem modTimer_axes : (b.modTimer u fTimer).axes = b.axes := rfl
@[simp] theorem modTimer_keystone : (b.modTimer u fTimer).keystone = b.keystone := rfl
@[simp] theorem modTimer_aux : (b.modTimer u fTimer).aux = b.aux := rfl
@[simp] theorem modTimer_ring : (b.modTimer u fTimer).ring = b.ring := rfl
@[simp] theorem modTimer_dma : (b.modTimer u fTimer).dma = b.dma := rfl
@[simp] theorem modTimer_mem : (b.modTimer u fTimer).mem = b.mem := rfl
@[simp] theorem modTimer_host : (b.modTimer u fTimer).host = b.host := rfl
@[simp] theorem modTimer_power : (b.modTimer u fTimer).power = b.power := rfl
@[simp] theorem modTimer_thermal : (b.modTimer u fTimer).thermal = b.thermal := rfl
@[simp] theorem modTimer_test : (b.modTimer u fTimer).test = b.test := rfl
@[simp] theorem modTimer_repair : (b.modTimer u fTimer).repair = b.repair := rfl
@[simp] theorem modTimer_saved : (b.modTimer u fTimer).saved = b.saved := rfl
@[simp] theorem modTimer_control : (b.modTimer u fTimer).control = b.control := rfl
@[simp] theorem modTimer_custody : (b.modTimer u fTimer).custody = b.custody := rfl
@[simp] theorem modTimer_firmware : (b.modTimer u fTimer).firmware = b.firmware := rfl
@[simp] theorem modTimer_attest : (b.modTimer u fTimer).attest = b.attest := rfl
@[simp] theorem modTimer_reg (y : Obj) : (b.modTimer u fTimer).reg y = b.reg y := rfl

@[simp] theorem modDma_now : (b.modDma ch fDma).now = b.now := rfl
@[simp] theorem modDma_part : (b.modDma ch fDma).part = b.part := rfl
@[simp] theorem modDma_regs : (b.modDma ch fDma).regs = b.regs := rfl
@[simp] theorem modDma_tables : (b.modDma ch fDma).tables = b.tables := rfl
@[simp] theorem modDma_outs : (b.modDma ch fDma).outs = b.outs := rfl
@[simp] theorem modDma_free : (b.modDma ch fDma).free = b.free := rfl
@[simp] theorem modDma_fabric : (b.modDma ch fDma).fabric = b.fabric := rfl
@[simp] theorem modDma_faults : (b.modDma ch fDma).faults = b.faults := rfl
@[simp] theorem modDma_can : (b.modDma ch fDma).can = b.can := rfl
@[simp] theorem modDma_smb : (b.modDma ch fDma).smb = b.smb := rfl
@[simp] theorem modDma_heads : (b.modDma ch fDma).heads = b.heads := rfl
@[simp] theorem modDma_video : (b.modDma ch fDma).video = b.video := rfl
@[simp] theorem modDma_corr : (b.modDma ch fDma).corr = b.corr := rfl
@[simp] theorem modDma_stitch : (b.modDma ch fDma).stitch = b.stitch := rfl
@[simp] theorem modDma_illum : (b.modDma ch fDma).illum = b.illum := rfl
@[simp] theorem modDma_capture : (b.modDma ch fDma).capture = b.capture := rfl
@[simp] theorem modDma_axes : (b.modDma ch fDma).axes = b.axes := rfl
@[simp] theorem modDma_keystone : (b.modDma ch fDma).keystone = b.keystone := rfl
@[simp] theorem modDma_aux : (b.modDma ch fDma).aux = b.aux := rfl
@[simp] theorem modDma_ring : (b.modDma ch fDma).ring = b.ring := rfl
@[simp] theorem modDma_mem : (b.modDma ch fDma).mem = b.mem := rfl
@[simp] theorem modDma_host : (b.modDma ch fDma).host = b.host := rfl
@[simp] theorem modDma_power : (b.modDma ch fDma).power = b.power := rfl
@[simp] theorem modDma_thermal : (b.modDma ch fDma).thermal = b.thermal := rfl
@[simp] theorem modDma_test : (b.modDma ch fDma).test = b.test := rfl
@[simp] theorem modDma_repair : (b.modDma ch fDma).repair = b.repair := rfl
@[simp] theorem modDma_saved : (b.modDma ch fDma).saved = b.saved := rfl
@[simp] theorem modDma_control : (b.modDma ch fDma).control = b.control := rfl
@[simp] theorem modDma_custody : (b.modDma ch fDma).custody = b.custody := rfl
@[simp] theorem modDma_firmware : (b.modDma ch fDma).firmware = b.firmware := rfl
@[simp] theorem modDma_attest : (b.modDma ch fDma).attest = b.attest := rfl
@[simp] theorem modDma_reg (y : Obj) : (b.modDma ch fDma).reg y = b.reg y := rfl

@[simp] theorem modRing_now : (b.modRing fRing).now = b.now := rfl
@[simp] theorem modRing_part : (b.modRing fRing).part = b.part := rfl
@[simp] theorem modRing_regs : (b.modRing fRing).regs = b.regs := rfl
@[simp] theorem modRing_tables : (b.modRing fRing).tables = b.tables := rfl
@[simp] theorem modRing_outs : (b.modRing fRing).outs = b.outs := rfl
@[simp] theorem modRing_free : (b.modRing fRing).free = b.free := rfl
@[simp] theorem modRing_fabric : (b.modRing fRing).fabric = b.fabric := rfl
@[simp] theorem modRing_faults : (b.modRing fRing).faults = b.faults := rfl
@[simp] theorem modRing_can : (b.modRing fRing).can = b.can := rfl
@[simp] theorem modRing_smb : (b.modRing fRing).smb = b.smb := rfl
@[simp] theorem modRing_heads : (b.modRing fRing).heads = b.heads := rfl
@[simp] theorem modRing_video : (b.modRing fRing).video = b.video := rfl
@[simp] theorem modRing_corr : (b.modRing fRing).corr = b.corr := rfl
@[simp] theorem modRing_stitch : (b.modRing fRing).stitch = b.stitch := rfl
@[simp] theorem modRing_illum : (b.modRing fRing).illum = b.illum := rfl
@[simp] theorem modRing_capture : (b.modRing fRing).capture = b.capture := rfl
@[simp] theorem modRing_axes : (b.modRing fRing).axes = b.axes := rfl
@[simp] theorem modRing_keystone : (b.modRing fRing).keystone = b.keystone := rfl
@[simp] theorem modRing_aux : (b.modRing fRing).aux = b.aux := rfl
@[simp] theorem modRing_ring : (b.modRing fRing).ring = fRing b.ring := rfl
@[simp] theorem modRing_dma : (b.modRing fRing).dma = b.dma := rfl
@[simp] theorem modRing_mem : (b.modRing fRing).mem = b.mem := rfl
@[simp] theorem modRing_host : (b.modRing fRing).host = b.host := rfl
@[simp] theorem modRing_power : (b.modRing fRing).power = b.power := rfl
@[simp] theorem modRing_thermal : (b.modRing fRing).thermal = b.thermal := rfl
@[simp] theorem modRing_test : (b.modRing fRing).test = b.test := rfl
@[simp] theorem modRing_repair : (b.modRing fRing).repair = b.repair := rfl
@[simp] theorem modRing_saved : (b.modRing fRing).saved = b.saved := rfl
@[simp] theorem modRing_control : (b.modRing fRing).control = b.control := rfl
@[simp] theorem modRing_custody : (b.modRing fRing).custody = b.custody := rfl
@[simp] theorem modRing_firmware : (b.modRing fRing).firmware = b.firmware := rfl
@[simp] theorem modRing_attest : (b.modRing fRing).attest = b.attest := rfl
@[simp] theorem modRing_reg (y : Obj) : (b.modRing fRing).reg y = b.reg y := rfl

@[simp] theorem modSpan_now : (b.modSpan sp fSpan).now = b.now := rfl
@[simp] theorem modSpan_part : (b.modSpan sp fSpan).part = b.part := rfl
@[simp] theorem modSpan_regs : (b.modSpan sp fSpan).regs = b.regs := rfl
@[simp] theorem modSpan_tables : (b.modSpan sp fSpan).tables = b.tables := rfl
@[simp] theorem modSpan_outs : (b.modSpan sp fSpan).outs = b.outs := rfl
@[simp] theorem modSpan_free : (b.modSpan sp fSpan).free = b.free := rfl
@[simp] theorem modSpan_fabric : (b.modSpan sp fSpan).fabric = b.fabric := rfl
@[simp] theorem modSpan_faults : (b.modSpan sp fSpan).faults = b.faults := rfl
@[simp] theorem modSpan_can : (b.modSpan sp fSpan).can = b.can := rfl
@[simp] theorem modSpan_smb : (b.modSpan sp fSpan).smb = b.smb := rfl
@[simp] theorem modSpan_heads : (b.modSpan sp fSpan).heads = b.heads := rfl
@[simp] theorem modSpan_video : (b.modSpan sp fSpan).video = b.video := rfl
@[simp] theorem modSpan_corr : (b.modSpan sp fSpan).corr = b.corr := rfl
@[simp] theorem modSpan_stitch : (b.modSpan sp fSpan).stitch = b.stitch := rfl
@[simp] theorem modSpan_illum : (b.modSpan sp fSpan).illum = b.illum := rfl
@[simp] theorem modSpan_capture : (b.modSpan sp fSpan).capture = b.capture := rfl
@[simp] theorem modSpan_axes : (b.modSpan sp fSpan).axes = b.axes := rfl
@[simp] theorem modSpan_keystone : (b.modSpan sp fSpan).keystone = b.keystone := rfl
@[simp] theorem modSpan_aux : (b.modSpan sp fSpan).aux = b.aux := rfl
@[simp] theorem modSpan_dma : (b.modSpan sp fSpan).dma = b.dma := rfl
@[simp] theorem modSpan_mem : (b.modSpan sp fSpan).mem = b.mem := rfl
@[simp] theorem modSpan_host : (b.modSpan sp fSpan).host = b.host := rfl
@[simp] theorem modSpan_power : (b.modSpan sp fSpan).power = b.power := rfl
@[simp] theorem modSpan_thermal : (b.modSpan sp fSpan).thermal = b.thermal := rfl
@[simp] theorem modSpan_test : (b.modSpan sp fSpan).test = b.test := rfl
@[simp] theorem modSpan_repair : (b.modSpan sp fSpan).repair = b.repair := rfl
@[simp] theorem modSpan_saved : (b.modSpan sp fSpan).saved = b.saved := rfl
@[simp] theorem modSpan_control : (b.modSpan sp fSpan).control = b.control := rfl
@[simp] theorem modSpan_custody : (b.modSpan sp fSpan).custody = b.custody := rfl
@[simp] theorem modSpan_firmware : (b.modSpan sp fSpan).firmware = b.firmware := rfl
@[simp] theorem modSpan_attest : (b.modSpan sp fSpan).attest = b.attest := rfl
@[simp] theorem modSpan_reg (y : Obj) : (b.modSpan sp fSpan).reg y = b.reg y := rfl

@[simp] theorem modHost_now : (b.modHost fHost).now = b.now := rfl
@[simp] theorem modHost_part : (b.modHost fHost).part = b.part := rfl
@[simp] theorem modHost_regs : (b.modHost fHost).regs = b.regs := rfl
@[simp] theorem modHost_tables : (b.modHost fHost).tables = b.tables := rfl
@[simp] theorem modHost_outs : (b.modHost fHost).outs = b.outs := rfl
@[simp] theorem modHost_free : (b.modHost fHost).free = b.free := rfl
@[simp] theorem modHost_fabric : (b.modHost fHost).fabric = b.fabric := rfl
@[simp] theorem modHost_faults : (b.modHost fHost).faults = b.faults := rfl
@[simp] theorem modHost_can : (b.modHost fHost).can = b.can := rfl
@[simp] theorem modHost_smb : (b.modHost fHost).smb = b.smb := rfl
@[simp] theorem modHost_heads : (b.modHost fHost).heads = b.heads := rfl
@[simp] theorem modHost_video : (b.modHost fHost).video = b.video := rfl
@[simp] theorem modHost_corr : (b.modHost fHost).corr = b.corr := rfl
@[simp] theorem modHost_stitch : (b.modHost fHost).stitch = b.stitch := rfl
@[simp] theorem modHost_illum : (b.modHost fHost).illum = b.illum := rfl
@[simp] theorem modHost_capture : (b.modHost fHost).capture = b.capture := rfl
@[simp] theorem modHost_axes : (b.modHost fHost).axes = b.axes := rfl
@[simp] theorem modHost_keystone : (b.modHost fHost).keystone = b.keystone := rfl
@[simp] theorem modHost_aux : (b.modHost fHost).aux = b.aux := rfl
@[simp] theorem modHost_ring : (b.modHost fHost).ring = b.ring := rfl
@[simp] theorem modHost_dma : (b.modHost fHost).dma = b.dma := rfl
@[simp] theorem modHost_mem : (b.modHost fHost).mem = b.mem := rfl
@[simp] theorem modHost_host : (b.modHost fHost).host = fHost b.host := rfl
@[simp] theorem modHost_power : (b.modHost fHost).power = b.power := rfl
@[simp] theorem modHost_thermal : (b.modHost fHost).thermal = b.thermal := rfl
@[simp] theorem modHost_test : (b.modHost fHost).test = b.test := rfl
@[simp] theorem modHost_repair : (b.modHost fHost).repair = b.repair := rfl
@[simp] theorem modHost_saved : (b.modHost fHost).saved = b.saved := rfl
@[simp] theorem modHost_control : (b.modHost fHost).control = b.control := rfl
@[simp] theorem modHost_custody : (b.modHost fHost).custody = b.custody := rfl
@[simp] theorem modHost_firmware : (b.modHost fHost).firmware = b.firmware := rfl
@[simp] theorem modHost_attest : (b.modHost fHost).attest = b.attest := rfl
@[simp] theorem modHost_reg (y : Obj) : (b.modHost fHost).reg y = b.reg y := rfl

@[simp] theorem modQueue_now : (b.modQueue q fQueue).now = b.now := rfl
@[simp] theorem modQueue_part : (b.modQueue q fQueue).part = b.part := rfl
@[simp] theorem modQueue_regs : (b.modQueue q fQueue).regs = b.regs := rfl
@[simp] theorem modQueue_tables : (b.modQueue q fQueue).tables = b.tables := rfl
@[simp] theorem modQueue_outs : (b.modQueue q fQueue).outs = b.outs := rfl
@[simp] theorem modQueue_free : (b.modQueue q fQueue).free = b.free := rfl
@[simp] theorem modQueue_fabric : (b.modQueue q fQueue).fabric = b.fabric := rfl
@[simp] theorem modQueue_faults : (b.modQueue q fQueue).faults = b.faults := rfl
@[simp] theorem modQueue_can : (b.modQueue q fQueue).can = b.can := rfl
@[simp] theorem modQueue_smb : (b.modQueue q fQueue).smb = b.smb := rfl
@[simp] theorem modQueue_heads : (b.modQueue q fQueue).heads = b.heads := rfl
@[simp] theorem modQueue_video : (b.modQueue q fQueue).video = b.video := rfl
@[simp] theorem modQueue_corr : (b.modQueue q fQueue).corr = b.corr := rfl
@[simp] theorem modQueue_stitch : (b.modQueue q fQueue).stitch = b.stitch := rfl
@[simp] theorem modQueue_illum : (b.modQueue q fQueue).illum = b.illum := rfl
@[simp] theorem modQueue_capture : (b.modQueue q fQueue).capture = b.capture := rfl
@[simp] theorem modQueue_axes : (b.modQueue q fQueue).axes = b.axes := rfl
@[simp] theorem modQueue_keystone : (b.modQueue q fQueue).keystone = b.keystone := rfl
@[simp] theorem modQueue_aux : (b.modQueue q fQueue).aux = b.aux := rfl
@[simp] theorem modQueue_ring : (b.modQueue q fQueue).ring = b.ring := rfl
@[simp] theorem modQueue_dma : (b.modQueue q fQueue).dma = b.dma := rfl
@[simp] theorem modQueue_mem : (b.modQueue q fQueue).mem = b.mem := rfl
@[simp] theorem modQueue_power : (b.modQueue q fQueue).power = b.power := rfl
@[simp] theorem modQueue_thermal : (b.modQueue q fQueue).thermal = b.thermal := rfl
@[simp] theorem modQueue_test : (b.modQueue q fQueue).test = b.test := rfl
@[simp] theorem modQueue_repair : (b.modQueue q fQueue).repair = b.repair := rfl
@[simp] theorem modQueue_saved : (b.modQueue q fQueue).saved = b.saved := rfl
@[simp] theorem modQueue_control : (b.modQueue q fQueue).control = b.control := rfl
@[simp] theorem modQueue_custody : (b.modQueue q fQueue).custody = b.custody := rfl
@[simp] theorem modQueue_firmware : (b.modQueue q fQueue).firmware = b.firmware := rfl
@[simp] theorem modQueue_attest : (b.modQueue q fQueue).attest = b.attest := rfl
@[simp] theorem modQueue_reg (y : Obj) : (b.modQueue q fQueue).reg y = b.reg y := rfl

@[simp] theorem modSlot_now : (b.modSlot k fSlot).now = b.now := rfl
@[simp] theorem modSlot_part : (b.modSlot k fSlot).part = b.part := rfl
@[simp] theorem modSlot_regs : (b.modSlot k fSlot).regs = b.regs := rfl
@[simp] theorem modSlot_tables : (b.modSlot k fSlot).tables = b.tables := rfl
@[simp] theorem modSlot_outs : (b.modSlot k fSlot).outs = b.outs := rfl
@[simp] theorem modSlot_free : (b.modSlot k fSlot).free = b.free := rfl
@[simp] theorem modSlot_fabric : (b.modSlot k fSlot).fabric = b.fabric := rfl
@[simp] theorem modSlot_faults : (b.modSlot k fSlot).faults = b.faults := rfl
@[simp] theorem modSlot_can : (b.modSlot k fSlot).can = b.can := rfl
@[simp] theorem modSlot_smb : (b.modSlot k fSlot).smb = b.smb := rfl
@[simp] theorem modSlot_heads : (b.modSlot k fSlot).heads = b.heads := rfl
@[simp] theorem modSlot_video : (b.modSlot k fSlot).video = b.video := rfl
@[simp] theorem modSlot_corr : (b.modSlot k fSlot).corr = b.corr := rfl
@[simp] theorem modSlot_stitch : (b.modSlot k fSlot).stitch = b.stitch := rfl
@[simp] theorem modSlot_illum : (b.modSlot k fSlot).illum = b.illum := rfl
@[simp] theorem modSlot_capture : (b.modSlot k fSlot).capture = b.capture := rfl
@[simp] theorem modSlot_axes : (b.modSlot k fSlot).axes = b.axes := rfl
@[simp] theorem modSlot_keystone : (b.modSlot k fSlot).keystone = b.keystone := rfl
@[simp] theorem modSlot_aux : (b.modSlot k fSlot).aux = b.aux := rfl
@[simp] theorem modSlot_ring : (b.modSlot k fSlot).ring = b.ring := rfl
@[simp] theorem modSlot_dma : (b.modSlot k fSlot).dma = b.dma := rfl
@[simp] theorem modSlot_mem : (b.modSlot k fSlot).mem = b.mem := rfl
@[simp] theorem modSlot_power : (b.modSlot k fSlot).power = b.power := rfl
@[simp] theorem modSlot_thermal : (b.modSlot k fSlot).thermal = b.thermal := rfl
@[simp] theorem modSlot_test : (b.modSlot k fSlot).test = b.test := rfl
@[simp] theorem modSlot_repair : (b.modSlot k fSlot).repair = b.repair := rfl
@[simp] theorem modSlot_saved : (b.modSlot k fSlot).saved = b.saved := rfl
@[simp] theorem modSlot_control : (b.modSlot k fSlot).control = b.control := rfl
@[simp] theorem modSlot_custody : (b.modSlot k fSlot).custody = b.custody := rfl
@[simp] theorem modSlot_firmware : (b.modSlot k fSlot).firmware = b.firmware := rfl
@[simp] theorem modSlot_attest : (b.modSlot k fSlot).attest = b.attest := rfl
@[simp] theorem modSlot_reg (y : Obj) : (b.modSlot k fSlot).reg y = b.reg y := rfl

@[simp] theorem modCan_now : (b.modCan fCan).now = b.now := rfl
@[simp] theorem modCan_part : (b.modCan fCan).part = b.part := rfl
@[simp] theorem modCan_regs : (b.modCan fCan).regs = b.regs := rfl
@[simp] theorem modCan_tables : (b.modCan fCan).tables = b.tables := rfl
@[simp] theorem modCan_outs : (b.modCan fCan).outs = b.outs := rfl
@[simp] theorem modCan_free : (b.modCan fCan).free = b.free := rfl
@[simp] theorem modCan_fabric : (b.modCan fCan).fabric = b.fabric := rfl
@[simp] theorem modCan_faults : (b.modCan fCan).faults = b.faults := rfl
@[simp] theorem modCan_can : (b.modCan fCan).can = fCan b.can := rfl
@[simp] theorem modCan_smb : (b.modCan fCan).smb = b.smb := rfl
@[simp] theorem modCan_heads : (b.modCan fCan).heads = b.heads := rfl
@[simp] theorem modCan_video : (b.modCan fCan).video = b.video := rfl
@[simp] theorem modCan_corr : (b.modCan fCan).corr = b.corr := rfl
@[simp] theorem modCan_stitch : (b.modCan fCan).stitch = b.stitch := rfl
@[simp] theorem modCan_illum : (b.modCan fCan).illum = b.illum := rfl
@[simp] theorem modCan_capture : (b.modCan fCan).capture = b.capture := rfl
@[simp] theorem modCan_axes : (b.modCan fCan).axes = b.axes := rfl
@[simp] theorem modCan_keystone : (b.modCan fCan).keystone = b.keystone := rfl
@[simp] theorem modCan_aux : (b.modCan fCan).aux = b.aux := rfl
@[simp] theorem modCan_ring : (b.modCan fCan).ring = b.ring := rfl
@[simp] theorem modCan_dma : (b.modCan fCan).dma = b.dma := rfl
@[simp] theorem modCan_mem : (b.modCan fCan).mem = b.mem := rfl
@[simp] theorem modCan_host : (b.modCan fCan).host = b.host := rfl
@[simp] theorem modCan_power : (b.modCan fCan).power = b.power := rfl
@[simp] theorem modCan_thermal : (b.modCan fCan).thermal = b.thermal := rfl
@[simp] theorem modCan_test : (b.modCan fCan).test = b.test := rfl
@[simp] theorem modCan_repair : (b.modCan fCan).repair = b.repair := rfl
@[simp] theorem modCan_saved : (b.modCan fCan).saved = b.saved := rfl
@[simp] theorem modCan_control : (b.modCan fCan).control = b.control := rfl
@[simp] theorem modCan_custody : (b.modCan fCan).custody = b.custody := rfl
@[simp] theorem modCan_firmware : (b.modCan fCan).firmware = b.firmware := rfl
@[simp] theorem modCan_attest : (b.modCan fCan).attest = b.attest := rfl
@[simp] theorem modCan_reg (y : Obj) : (b.modCan fCan).reg y = b.reg y := rfl

@[simp] theorem modTpdo_now : (b.modTpdo p fTpdo).now = b.now := rfl
@[simp] theorem modTpdo_part : (b.modTpdo p fTpdo).part = b.part := rfl
@[simp] theorem modTpdo_regs : (b.modTpdo p fTpdo).regs = b.regs := rfl
@[simp] theorem modTpdo_tables : (b.modTpdo p fTpdo).tables = b.tables := rfl
@[simp] theorem modTpdo_outs : (b.modTpdo p fTpdo).outs = b.outs := rfl
@[simp] theorem modTpdo_free : (b.modTpdo p fTpdo).free = b.free := rfl
@[simp] theorem modTpdo_fabric : (b.modTpdo p fTpdo).fabric = b.fabric := rfl
@[simp] theorem modTpdo_faults : (b.modTpdo p fTpdo).faults = b.faults := rfl
@[simp] theorem modTpdo_smb : (b.modTpdo p fTpdo).smb = b.smb := rfl
@[simp] theorem modTpdo_heads : (b.modTpdo p fTpdo).heads = b.heads := rfl
@[simp] theorem modTpdo_video : (b.modTpdo p fTpdo).video = b.video := rfl
@[simp] theorem modTpdo_corr : (b.modTpdo p fTpdo).corr = b.corr := rfl
@[simp] theorem modTpdo_stitch : (b.modTpdo p fTpdo).stitch = b.stitch := rfl
@[simp] theorem modTpdo_illum : (b.modTpdo p fTpdo).illum = b.illum := rfl
@[simp] theorem modTpdo_capture : (b.modTpdo p fTpdo).capture = b.capture := rfl
@[simp] theorem modTpdo_axes : (b.modTpdo p fTpdo).axes = b.axes := rfl
@[simp] theorem modTpdo_keystone : (b.modTpdo p fTpdo).keystone = b.keystone := rfl
@[simp] theorem modTpdo_aux : (b.modTpdo p fTpdo).aux = b.aux := rfl
@[simp] theorem modTpdo_ring : (b.modTpdo p fTpdo).ring = b.ring := rfl
@[simp] theorem modTpdo_dma : (b.modTpdo p fTpdo).dma = b.dma := rfl
@[simp] theorem modTpdo_mem : (b.modTpdo p fTpdo).mem = b.mem := rfl
@[simp] theorem modTpdo_host : (b.modTpdo p fTpdo).host = b.host := rfl
@[simp] theorem modTpdo_power : (b.modTpdo p fTpdo).power = b.power := rfl
@[simp] theorem modTpdo_thermal : (b.modTpdo p fTpdo).thermal = b.thermal := rfl
@[simp] theorem modTpdo_test : (b.modTpdo p fTpdo).test = b.test := rfl
@[simp] theorem modTpdo_repair : (b.modTpdo p fTpdo).repair = b.repair := rfl
@[simp] theorem modTpdo_saved : (b.modTpdo p fTpdo).saved = b.saved := rfl
@[simp] theorem modTpdo_control : (b.modTpdo p fTpdo).control = b.control := rfl
@[simp] theorem modTpdo_custody : (b.modTpdo p fTpdo).custody = b.custody := rfl
@[simp] theorem modTpdo_firmware : (b.modTpdo p fTpdo).firmware = b.firmware := rfl
@[simp] theorem modTpdo_attest : (b.modTpdo p fTpdo).attest = b.attest := rfl
@[simp] theorem modTpdo_reg (y : Obj) : (b.modTpdo p fTpdo).reg y = b.reg y := rfl

@[simp] theorem modSmb_now : (b.modSmb fSmb).now = b.now := rfl
@[simp] theorem modSmb_part : (b.modSmb fSmb).part = b.part := rfl
@[simp] theorem modSmb_regs : (b.modSmb fSmb).regs = b.regs := rfl
@[simp] theorem modSmb_tables : (b.modSmb fSmb).tables = b.tables := rfl
@[simp] theorem modSmb_outs : (b.modSmb fSmb).outs = b.outs := rfl
@[simp] theorem modSmb_free : (b.modSmb fSmb).free = b.free := rfl
@[simp] theorem modSmb_fabric : (b.modSmb fSmb).fabric = b.fabric := rfl
@[simp] theorem modSmb_faults : (b.modSmb fSmb).faults = b.faults := rfl
@[simp] theorem modSmb_can : (b.modSmb fSmb).can = b.can := rfl
@[simp] theorem modSmb_smb : (b.modSmb fSmb).smb = fSmb b.smb := rfl
@[simp] theorem modSmb_heads : (b.modSmb fSmb).heads = b.heads := rfl
@[simp] theorem modSmb_video : (b.modSmb fSmb).video = b.video := rfl
@[simp] theorem modSmb_corr : (b.modSmb fSmb).corr = b.corr := rfl
@[simp] theorem modSmb_stitch : (b.modSmb fSmb).stitch = b.stitch := rfl
@[simp] theorem modSmb_illum : (b.modSmb fSmb).illum = b.illum := rfl
@[simp] theorem modSmb_capture : (b.modSmb fSmb).capture = b.capture := rfl
@[simp] theorem modSmb_axes : (b.modSmb fSmb).axes = b.axes := rfl
@[simp] theorem modSmb_keystone : (b.modSmb fSmb).keystone = b.keystone := rfl
@[simp] theorem modSmb_aux : (b.modSmb fSmb).aux = b.aux := rfl
@[simp] theorem modSmb_ring : (b.modSmb fSmb).ring = b.ring := rfl
@[simp] theorem modSmb_dma : (b.modSmb fSmb).dma = b.dma := rfl
@[simp] theorem modSmb_mem : (b.modSmb fSmb).mem = b.mem := rfl
@[simp] theorem modSmb_host : (b.modSmb fSmb).host = b.host := rfl
@[simp] theorem modSmb_power : (b.modSmb fSmb).power = b.power := rfl
@[simp] theorem modSmb_thermal : (b.modSmb fSmb).thermal = b.thermal := rfl
@[simp] theorem modSmb_test : (b.modSmb fSmb).test = b.test := rfl
@[simp] theorem modSmb_repair : (b.modSmb fSmb).repair = b.repair := rfl
@[simp] theorem modSmb_saved : (b.modSmb fSmb).saved = b.saved := rfl
@[simp] theorem modSmb_control : (b.modSmb fSmb).control = b.control := rfl
@[simp] theorem modSmb_custody : (b.modSmb fSmb).custody = b.custody := rfl
@[simp] theorem modSmb_firmware : (b.modSmb fSmb).firmware = b.firmware := rfl
@[simp] theorem modSmb_attest : (b.modSmb fSmb).attest = b.attest := rfl
@[simp] theorem modSmb_reg (y : Obj) : (b.modSmb fSmb).reg y = b.reg y := rfl

@[simp] theorem modControl_now : (b.modControl fControl).now = b.now := rfl
@[simp] theorem modControl_part : (b.modControl fControl).part = b.part := rfl
@[simp] theorem modControl_regs : (b.modControl fControl).regs = b.regs := rfl
@[simp] theorem modControl_tables : (b.modControl fControl).tables = b.tables := rfl
@[simp] theorem modControl_outs : (b.modControl fControl).outs = b.outs := rfl
@[simp] theorem modControl_free : (b.modControl fControl).free = b.free := rfl
@[simp] theorem modControl_fabric : (b.modControl fControl).fabric = b.fabric := rfl
@[simp] theorem modControl_faults : (b.modControl fControl).faults = b.faults := rfl
@[simp] theorem modControl_can : (b.modControl fControl).can = b.can := rfl
@[simp] theorem modControl_smb : (b.modControl fControl).smb = b.smb := rfl
@[simp] theorem modControl_heads : (b.modControl fControl).heads = b.heads := rfl
@[simp] theorem modControl_video : (b.modControl fControl).video = b.video := rfl
@[simp] theorem modControl_corr : (b.modControl fControl).corr = b.corr := rfl
@[simp] theorem modControl_stitch : (b.modControl fControl).stitch = b.stitch := rfl
@[simp] theorem modControl_illum : (b.modControl fControl).illum = b.illum := rfl
@[simp] theorem modControl_capture : (b.modControl fControl).capture = b.capture := rfl
@[simp] theorem modControl_axes : (b.modControl fControl).axes = b.axes := rfl
@[simp] theorem modControl_keystone : (b.modControl fControl).keystone = b.keystone := rfl
@[simp] theorem modControl_aux : (b.modControl fControl).aux = b.aux := rfl
@[simp] theorem modControl_ring : (b.modControl fControl).ring = b.ring := rfl
@[simp] theorem modControl_dma : (b.modControl fControl).dma = b.dma := rfl
@[simp] theorem modControl_mem : (b.modControl fControl).mem = b.mem := rfl
@[simp] theorem modControl_host : (b.modControl fControl).host = b.host := rfl
@[simp] theorem modControl_power : (b.modControl fControl).power = b.power := rfl
@[simp] theorem modControl_thermal : (b.modControl fControl).thermal = b.thermal := rfl
@[simp] theorem modControl_test : (b.modControl fControl).test = b.test := rfl
@[simp] theorem modControl_repair : (b.modControl fControl).repair = b.repair := rfl
@[simp] theorem modControl_saved : (b.modControl fControl).saved = b.saved := rfl
@[simp] theorem modControl_control : (b.modControl fControl).control = fControl b.control := rfl
@[simp] theorem modControl_custody : (b.modControl fControl).custody = b.custody := rfl
@[simp] theorem modControl_firmware : (b.modControl fControl).firmware = b.firmware := rfl
@[simp] theorem modControl_attest : (b.modControl fControl).attest = b.attest := rfl
@[simp] theorem modControl_reg (y : Obj) : (b.modControl fControl).reg y = b.reg y := rfl

@[simp] theorem modCustody_now : (b.modCustody fCustody).now = b.now := rfl
@[simp] theorem modCustody_part : (b.modCustody fCustody).part = b.part := rfl
@[simp] theorem modCustody_regs : (b.modCustody fCustody).regs = b.regs := rfl
@[simp] theorem modCustody_tables : (b.modCustody fCustody).tables = b.tables := rfl
@[simp] theorem modCustody_outs : (b.modCustody fCustody).outs = b.outs := rfl
@[simp] theorem modCustody_free : (b.modCustody fCustody).free = b.free := rfl
@[simp] theorem modCustody_fabric : (b.modCustody fCustody).fabric = b.fabric := rfl
@[simp] theorem modCustody_faults : (b.modCustody fCustody).faults = b.faults := rfl
@[simp] theorem modCustody_can : (b.modCustody fCustody).can = b.can := rfl
@[simp] theorem modCustody_smb : (b.modCustody fCustody).smb = b.smb := rfl
@[simp] theorem modCustody_heads : (b.modCustody fCustody).heads = b.heads := rfl
@[simp] theorem modCustody_video : (b.modCustody fCustody).video = b.video := rfl
@[simp] theorem modCustody_corr : (b.modCustody fCustody).corr = b.corr := rfl
@[simp] theorem modCustody_stitch : (b.modCustody fCustody).stitch = b.stitch := rfl
@[simp] theorem modCustody_illum : (b.modCustody fCustody).illum = b.illum := rfl
@[simp] theorem modCustody_capture : (b.modCustody fCustody).capture = b.capture := rfl
@[simp] theorem modCustody_axes : (b.modCustody fCustody).axes = b.axes := rfl
@[simp] theorem modCustody_keystone : (b.modCustody fCustody).keystone = b.keystone := rfl
@[simp] theorem modCustody_aux : (b.modCustody fCustody).aux = b.aux := rfl
@[simp] theorem modCustody_ring : (b.modCustody fCustody).ring = b.ring := rfl
@[simp] theorem modCustody_dma : (b.modCustody fCustody).dma = b.dma := rfl
@[simp] theorem modCustody_mem : (b.modCustody fCustody).mem = b.mem := rfl
@[simp] theorem modCustody_host : (b.modCustody fCustody).host = b.host := rfl
@[simp] theorem modCustody_power : (b.modCustody fCustody).power = b.power := rfl
@[simp] theorem modCustody_thermal : (b.modCustody fCustody).thermal = b.thermal := rfl
@[simp] theorem modCustody_test : (b.modCustody fCustody).test = b.test := rfl
@[simp] theorem modCustody_repair : (b.modCustody fCustody).repair = b.repair := rfl
@[simp] theorem modCustody_saved : (b.modCustody fCustody).saved = b.saved := rfl
@[simp] theorem modCustody_control : (b.modCustody fCustody).control = b.control := rfl
@[simp] theorem modCustody_custody : (b.modCustody fCustody).custody = fCustody b.custody := rfl
@[simp] theorem modCustody_firmware : (b.modCustody fCustody).firmware = b.firmware := rfl
@[simp] theorem modCustody_attest : (b.modCustody fCustody).attest = b.attest := rfl
@[simp] theorem modCustody_reg (y : Obj) : (b.modCustody fCustody).reg y = b.reg y := rfl

@[simp] theorem modFirmware_now : (b.modFirmware fFirmware).now = b.now := rfl
@[simp] theorem modFirmware_part : (b.modFirmware fFirmware).part = b.part := rfl
@[simp] theorem modFirmware_regs : (b.modFirmware fFirmware).regs = b.regs := rfl
@[simp] theorem modFirmware_tables : (b.modFirmware fFirmware).tables = b.tables := rfl
@[simp] theorem modFirmware_outs : (b.modFirmware fFirmware).outs = b.outs := rfl
@[simp] theorem modFirmware_free : (b.modFirmware fFirmware).free = b.free := rfl
@[simp] theorem modFirmware_fabric : (b.modFirmware fFirmware).fabric = b.fabric := rfl
@[simp] theorem modFirmware_faults : (b.modFirmware fFirmware).faults = b.faults := rfl
@[simp] theorem modFirmware_can : (b.modFirmware fFirmware).can = b.can := rfl
@[simp] theorem modFirmware_smb : (b.modFirmware fFirmware).smb = b.smb := rfl
@[simp] theorem modFirmware_heads : (b.modFirmware fFirmware).heads = b.heads := rfl
@[simp] theorem modFirmware_video : (b.modFirmware fFirmware).video = b.video := rfl
@[simp] theorem modFirmware_corr : (b.modFirmware fFirmware).corr = b.corr := rfl
@[simp] theorem modFirmware_stitch : (b.modFirmware fFirmware).stitch = b.stitch := rfl
@[simp] theorem modFirmware_illum : (b.modFirmware fFirmware).illum = b.illum := rfl
@[simp] theorem modFirmware_capture : (b.modFirmware fFirmware).capture = b.capture := rfl
@[simp] theorem modFirmware_axes : (b.modFirmware fFirmware).axes = b.axes := rfl
@[simp] theorem modFirmware_keystone : (b.modFirmware fFirmware).keystone = b.keystone := rfl
@[simp] theorem modFirmware_aux : (b.modFirmware fFirmware).aux = b.aux := rfl
@[simp] theorem modFirmware_ring : (b.modFirmware fFirmware).ring = b.ring := rfl
@[simp] theorem modFirmware_dma : (b.modFirmware fFirmware).dma = b.dma := rfl
@[simp] theorem modFirmware_mem : (b.modFirmware fFirmware).mem = b.mem := rfl
@[simp] theorem modFirmware_host : (b.modFirmware fFirmware).host = b.host := rfl
@[simp] theorem modFirmware_power : (b.modFirmware fFirmware).power = b.power := rfl
@[simp] theorem modFirmware_thermal : (b.modFirmware fFirmware).thermal = b.thermal := rfl
@[simp] theorem modFirmware_test : (b.modFirmware fFirmware).test = b.test := rfl
@[simp] theorem modFirmware_repair : (b.modFirmware fFirmware).repair = b.repair := rfl
@[simp] theorem modFirmware_saved : (b.modFirmware fFirmware).saved = b.saved := rfl
@[simp] theorem modFirmware_control : (b.modFirmware fFirmware).control = b.control := rfl
@[simp] theorem modFirmware_custody : (b.modFirmware fFirmware).custody = b.custody := rfl
@[simp] theorem modFirmware_firmware : (b.modFirmware fFirmware).firmware = fFirmware b.firmware := rfl
@[simp] theorem modFirmware_attest : (b.modFirmware fFirmware).attest = b.attest := rfl
@[simp] theorem modFirmware_reg (y : Obj) : (b.modFirmware fFirmware).reg y = b.reg y := rfl

@[simp] theorem modSlotFw_now : (b.modSlotFw fw fFw).now = b.now := rfl
@[simp] theorem modSlotFw_part : (b.modSlotFw fw fFw).part = b.part := rfl
@[simp] theorem modSlotFw_regs : (b.modSlotFw fw fFw).regs = b.regs := rfl
@[simp] theorem modSlotFw_tables : (b.modSlotFw fw fFw).tables = b.tables := rfl
@[simp] theorem modSlotFw_outs : (b.modSlotFw fw fFw).outs = b.outs := rfl
@[simp] theorem modSlotFw_free : (b.modSlotFw fw fFw).free = b.free := rfl
@[simp] theorem modSlotFw_fabric : (b.modSlotFw fw fFw).fabric = b.fabric := rfl
@[simp] theorem modSlotFw_faults : (b.modSlotFw fw fFw).faults = b.faults := rfl
@[simp] theorem modSlotFw_can : (b.modSlotFw fw fFw).can = b.can := rfl
@[simp] theorem modSlotFw_smb : (b.modSlotFw fw fFw).smb = b.smb := rfl
@[simp] theorem modSlotFw_heads : (b.modSlotFw fw fFw).heads = b.heads := rfl
@[simp] theorem modSlotFw_video : (b.modSlotFw fw fFw).video = b.video := rfl
@[simp] theorem modSlotFw_corr : (b.modSlotFw fw fFw).corr = b.corr := rfl
@[simp] theorem modSlotFw_stitch : (b.modSlotFw fw fFw).stitch = b.stitch := rfl
@[simp] theorem modSlotFw_illum : (b.modSlotFw fw fFw).illum = b.illum := rfl
@[simp] theorem modSlotFw_capture : (b.modSlotFw fw fFw).capture = b.capture := rfl
@[simp] theorem modSlotFw_axes : (b.modSlotFw fw fFw).axes = b.axes := rfl
@[simp] theorem modSlotFw_keystone : (b.modSlotFw fw fFw).keystone = b.keystone := rfl
@[simp] theorem modSlotFw_aux : (b.modSlotFw fw fFw).aux = b.aux := rfl
@[simp] theorem modSlotFw_ring : (b.modSlotFw fw fFw).ring = b.ring := rfl
@[simp] theorem modSlotFw_dma : (b.modSlotFw fw fFw).dma = b.dma := rfl
@[simp] theorem modSlotFw_mem : (b.modSlotFw fw fFw).mem = b.mem := rfl
@[simp] theorem modSlotFw_host : (b.modSlotFw fw fFw).host = b.host := rfl
@[simp] theorem modSlotFw_power : (b.modSlotFw fw fFw).power = b.power := rfl
@[simp] theorem modSlotFw_thermal : (b.modSlotFw fw fFw).thermal = b.thermal := rfl
@[simp] theorem modSlotFw_test : (b.modSlotFw fw fFw).test = b.test := rfl
@[simp] theorem modSlotFw_repair : (b.modSlotFw fw fFw).repair = b.repair := rfl
@[simp] theorem modSlotFw_saved : (b.modSlotFw fw fFw).saved = b.saved := rfl
@[simp] theorem modSlotFw_control : (b.modSlotFw fw fFw).control = b.control := rfl
@[simp] theorem modSlotFw_custody : (b.modSlotFw fw fFw).custody = b.custody := rfl
@[simp] theorem modSlotFw_attest : (b.modSlotFw fw fFw).attest = b.attest := rfl
@[simp] theorem modSlotFw_reg (y : Obj) : (b.modSlotFw fw fFw).reg y = b.reg y := rfl

@[simp] theorem modPower_now : (b.modPower fPower).now = b.now := rfl
@[simp] theorem modPower_part : (b.modPower fPower).part = b.part := rfl
@[simp] theorem modPower_regs : (b.modPower fPower).regs = b.regs := rfl
@[simp] theorem modPower_tables : (b.modPower fPower).tables = b.tables := rfl
@[simp] theorem modPower_outs : (b.modPower fPower).outs = b.outs := rfl
@[simp] theorem modPower_free : (b.modPower fPower).free = b.free := rfl
@[simp] theorem modPower_fabric : (b.modPower fPower).fabric = b.fabric := rfl
@[simp] theorem modPower_faults : (b.modPower fPower).faults = b.faults := rfl
@[simp] theorem modPower_can : (b.modPower fPower).can = b.can := rfl
@[simp] theorem modPower_smb : (b.modPower fPower).smb = b.smb := rfl
@[simp] theorem modPower_heads : (b.modPower fPower).heads = b.heads := rfl
@[simp] theorem modPower_video : (b.modPower fPower).video = b.video := rfl
@[simp] theorem modPower_corr : (b.modPower fPower).corr = b.corr := rfl
@[simp] theorem modPower_stitch : (b.modPower fPower).stitch = b.stitch := rfl
@[simp] theorem modPower_illum : (b.modPower fPower).illum = b.illum := rfl
@[simp] theorem modPower_capture : (b.modPower fPower).capture = b.capture := rfl
@[simp] theorem modPower_axes : (b.modPower fPower).axes = b.axes := rfl
@[simp] theorem modPower_keystone : (b.modPower fPower).keystone = b.keystone := rfl
@[simp] theorem modPower_aux : (b.modPower fPower).aux = b.aux := rfl
@[simp] theorem modPower_ring : (b.modPower fPower).ring = b.ring := rfl
@[simp] theorem modPower_dma : (b.modPower fPower).dma = b.dma := rfl
@[simp] theorem modPower_mem : (b.modPower fPower).mem = b.mem := rfl
@[simp] theorem modPower_host : (b.modPower fPower).host = b.host := rfl
@[simp] theorem modPower_power : (b.modPower fPower).power = fPower b.power := rfl
@[simp] theorem modPower_thermal : (b.modPower fPower).thermal = b.thermal := rfl
@[simp] theorem modPower_test : (b.modPower fPower).test = b.test := rfl
@[simp] theorem modPower_repair : (b.modPower fPower).repair = b.repair := rfl
@[simp] theorem modPower_saved : (b.modPower fPower).saved = b.saved := rfl
@[simp] theorem modPower_control : (b.modPower fPower).control = b.control := rfl
@[simp] theorem modPower_custody : (b.modPower fPower).custody = b.custody := rfl
@[simp] theorem modPower_firmware : (b.modPower fPower).firmware = b.firmware := rfl
@[simp] theorem modPower_attest : (b.modPower fPower).attest = b.attest := rfl
@[simp] theorem modPower_reg (y : Obj) : (b.modPower fPower).reg y = b.reg y := rfl

@[simp] theorem modTest_now : (b.modTest fTest).now = b.now := rfl
@[simp] theorem modTest_part : (b.modTest fTest).part = b.part := rfl
@[simp] theorem modTest_regs : (b.modTest fTest).regs = b.regs := rfl
@[simp] theorem modTest_tables : (b.modTest fTest).tables = b.tables := rfl
@[simp] theorem modTest_outs : (b.modTest fTest).outs = b.outs := rfl
@[simp] theorem modTest_free : (b.modTest fTest).free = b.free := rfl
@[simp] theorem modTest_fabric : (b.modTest fTest).fabric = b.fabric := rfl
@[simp] theorem modTest_faults : (b.modTest fTest).faults = b.faults := rfl
@[simp] theorem modTest_can : (b.modTest fTest).can = b.can := rfl
@[simp] theorem modTest_smb : (b.modTest fTest).smb = b.smb := rfl
@[simp] theorem modTest_heads : (b.modTest fTest).heads = b.heads := rfl
@[simp] theorem modTest_video : (b.modTest fTest).video = b.video := rfl
@[simp] theorem modTest_corr : (b.modTest fTest).corr = b.corr := rfl
@[simp] theorem modTest_stitch : (b.modTest fTest).stitch = b.stitch := rfl
@[simp] theorem modTest_illum : (b.modTest fTest).illum = b.illum := rfl
@[simp] theorem modTest_capture : (b.modTest fTest).capture = b.capture := rfl
@[simp] theorem modTest_axes : (b.modTest fTest).axes = b.axes := rfl
@[simp] theorem modTest_keystone : (b.modTest fTest).keystone = b.keystone := rfl
@[simp] theorem modTest_aux : (b.modTest fTest).aux = b.aux := rfl
@[simp] theorem modTest_ring : (b.modTest fTest).ring = b.ring := rfl
@[simp] theorem modTest_dma : (b.modTest fTest).dma = b.dma := rfl
@[simp] theorem modTest_mem : (b.modTest fTest).mem = b.mem := rfl
@[simp] theorem modTest_host : (b.modTest fTest).host = b.host := rfl
@[simp] theorem modTest_power : (b.modTest fTest).power = b.power := rfl
@[simp] theorem modTest_thermal : (b.modTest fTest).thermal = b.thermal := rfl
@[simp] theorem modTest_test : (b.modTest fTest).test = fTest b.test := rfl
@[simp] theorem modTest_repair : (b.modTest fTest).repair = b.repair := rfl
@[simp] theorem modTest_saved : (b.modTest fTest).saved = b.saved := rfl
@[simp] theorem modTest_control : (b.modTest fTest).control = b.control := rfl
@[simp] theorem modTest_custody : (b.modTest fTest).custody = b.custody := rfl
@[simp] theorem modTest_firmware : (b.modTest fTest).firmware = b.firmware := rfl
@[simp] theorem modTest_attest : (b.modTest fTest).attest = b.attest := rfl
@[simp] theorem modTest_reg (y : Obj) : (b.modTest fTest).reg y = b.reg y := rfl

@[simp] theorem modRepair_now : (b.modRepair fRepair).now = b.now := rfl
@[simp] theorem modRepair_part : (b.modRepair fRepair).part = b.part := rfl
@[simp] theorem modRepair_regs : (b.modRepair fRepair).regs = b.regs := rfl
@[simp] theorem modRepair_tables : (b.modRepair fRepair).tables = b.tables := rfl
@[simp] theorem modRepair_outs : (b.modRepair fRepair).outs = b.outs := rfl
@[simp] theorem modRepair_free : (b.modRepair fRepair).free = b.free := rfl
@[simp] theorem modRepair_fabric : (b.modRepair fRepair).fabric = b.fabric := rfl
@[simp] theorem modRepair_faults : (b.modRepair fRepair).faults = b.faults := rfl
@[simp] theorem modRepair_can : (b.modRepair fRepair).can = b.can := rfl
@[simp] theorem modRepair_smb : (b.modRepair fRepair).smb = b.smb := rfl
@[simp] theorem modRepair_heads : (b.modRepair fRepair).heads = b.heads := rfl
@[simp] theorem modRepair_video : (b.modRepair fRepair).video = b.video := rfl
@[simp] theorem modRepair_corr : (b.modRepair fRepair).corr = b.corr := rfl
@[simp] theorem modRepair_stitch : (b.modRepair fRepair).stitch = b.stitch := rfl
@[simp] theorem modRepair_illum : (b.modRepair fRepair).illum = b.illum := rfl
@[simp] theorem modRepair_capture : (b.modRepair fRepair).capture = b.capture := rfl
@[simp] theorem modRepair_axes : (b.modRepair fRepair).axes = b.axes := rfl
@[simp] theorem modRepair_keystone : (b.modRepair fRepair).keystone = b.keystone := rfl
@[simp] theorem modRepair_aux : (b.modRepair fRepair).aux = b.aux := rfl
@[simp] theorem modRepair_ring : (b.modRepair fRepair).ring = b.ring := rfl
@[simp] theorem modRepair_dma : (b.modRepair fRepair).dma = b.dma := rfl
@[simp] theorem modRepair_mem : (b.modRepair fRepair).mem = b.mem := rfl
@[simp] theorem modRepair_host : (b.modRepair fRepair).host = b.host := rfl
@[simp] theorem modRepair_power : (b.modRepair fRepair).power = b.power := rfl
@[simp] theorem modRepair_thermal : (b.modRepair fRepair).thermal = b.thermal := rfl
@[simp] theorem modRepair_test : (b.modRepair fRepair).test = b.test := rfl
@[simp] theorem modRepair_repair : (b.modRepair fRepair).repair = fRepair b.repair := rfl
@[simp] theorem modRepair_saved : (b.modRepair fRepair).saved = b.saved := rfl
@[simp] theorem modRepair_control : (b.modRepair fRepair).control = b.control := rfl
@[simp] theorem modRepair_custody : (b.modRepair fRepair).custody = b.custody := rfl
@[simp] theorem modRepair_firmware : (b.modRepair fRepair).firmware = b.firmware := rfl
@[simp] theorem modRepair_attest : (b.modRepair fRepair).attest = b.attest := rfl
@[simp] theorem modRepair_reg (y : Obj) : (b.modRepair fRepair).reg y = b.reg y := rfl

end Sys2Proof.Machine.Block
end

