-- ==== Sys2Proof/Laws/Finish.lean ====
section
/-! SUPPORT. What ends every command, and the shared operations it is made of: the fields that each leaves as they are. -/
namespace Sys2Proof.Machine.Block

/-- A property of the pier that every step of a fold leaves is left by the fold. -/
theorem foldl_keeps {α β : Type} (φ : Block → β) (f : Block → α → Block) (l : List α) (b : Block) (h : ∀ c x, φ (f c x) = φ c) :
    φ (l.foldl f b) = φ b := by
  induction l generalizing b with
  | nil => rfl
  | cons x l ih => rw [List.foldl_cons, ih, h]

/-- What relay inputs and catch latches leave, the delivery of an event leaves. -/
theorem deliver_field {β : Type} (φ : Block → β) (s : Nat) (b : Block) (hr : ∀ c r i j, φ (relayInput r i j c) = φ c)
    (hl : ∀ c n, φ (latchTask n c) = φ c) : φ (b.deliver s) = φ b := by
  unfold deliver
  rw [foldl_keeps φ _ _ _ hl]
  exact foldl_keeps φ _ _ _ fun c n => by dsimp only; split <;> simp [hr]

/-- What the registers and the DMA channels do not hold, taking the routes anew leaves. -/
theorem reroute_field {β : Type} (φ : Block → β) (b : Block) (hs : ∀ c o v, φ (setReg o v c) = φ c) (hd : ∀ c i g, φ (modDma i g c) = φ c) :
    φ b.reroute = φ b := by
  unfold reroute
  exact foldl_keeps φ _ _ _ fun c h => by dsimp only; (repeat' split) <;> simp [hs, hd]

/-- A source raised touches the outputs and the fabric. -/
@[simp] theorem raiseIf_keeps (c : Bool) (n : Nat) (b : Block) :
    (b.raiseIf c n).now = b.now ∧ (b.raiseIf c n).part = b.part ∧ (b.raiseIf c n).regs = b.regs ∧ (b.raiseIf c n).tables = b.tables ∧
    (b.raiseIf c n).free = b.free ∧ (b.raiseIf c n).faults = b.faults ∧ (b.raiseIf c n).can = b.can ∧ (b.raiseIf c n).smb = b.smb ∧
    (b.raiseIf c n).heads = b.heads ∧ (b.raiseIf c n).video = b.video ∧ (b.raiseIf c n).corr = b.corr ∧ (b.raiseIf c n).stitch = b.stitch ∧
    (b.raiseIf c n).illum = b.illum ∧ (b.raiseIf c n).capture = b.capture ∧ (b.raiseIf c n).axes = b.axes ∧
    (b.raiseIf c n).keystone = b.keystone ∧ (b.raiseIf c n).aux = b.aux ∧ (b.raiseIf c n).ring = b.ring ∧ (b.raiseIf c n).dma = b.dma ∧
    (b.raiseIf c n).mem = b.mem ∧ (b.raiseIf c n).host = b.host ∧ (b.raiseIf c n).power = b.power ∧ (b.raiseIf c n).thermal = b.thermal ∧
    (b.raiseIf c n).test = b.test ∧ (b.raiseIf c n).repair = b.repair ∧ (b.raiseIf c n).saved = b.saved ∧
    (b.raiseIf c n).control = b.control ∧ (b.raiseIf c n).custody = b.custody ∧ (b.raiseIf c n).firmware = b.firmware ∧
    (b.raiseIf c n).attest = b.attest := by
  unfold raiseIf; (repeat' split) <;> simp

@[simp] theorem raiseIf_reg (c : Bool) (n : Nat) (b : Block) (y : Obj) : (b.raiseIf c n).reg y = b.reg y := by simp [reg]

/-- An alert touches the SMBus target and its event. -/
@[simp] theorem alert_keeps (i : Nat) (b : Block) :
    (b.alert i).now = b.now ∧ (b.alert i).part = b.part ∧ (b.alert i).regs = b.regs ∧ (b.alert i).tables = b.tables ∧
    (b.alert i).free = b.free ∧ (b.alert i).faults = b.faults ∧ (b.alert i).can = b.can ∧ (b.alert i).heads = b.heads ∧
    (b.alert i).video = b.video ∧ (b.alert i).corr = b.corr ∧ (b.alert i).stitch = b.stitch ∧ (b.alert i).illum = b.illum ∧
    (b.alert i).capture = b.capture ∧ (b.alert i).axes = b.axes ∧ (b.alert i).keystone = b.keystone ∧ (b.alert i).aux = b.aux ∧
    (b.alert i).ring = b.ring ∧ (b.alert i).dma = b.dma ∧ (b.alert i).mem = b.mem ∧ (b.alert i).host = b.host ∧
    (b.alert i).power = b.power ∧ (b.alert i).thermal = b.thermal ∧ (b.alert i).test = b.test ∧ (b.alert i).repair = b.repair ∧
    (b.alert i).saved = b.saved ∧ (b.alert i).control = b.control ∧ (b.alert i).custody = b.custody ∧ (b.alert i).firmware = b.firmware ∧
    (b.alert i).attest = b.attest := by
  unfold alert; simp only []; (repeat' split) <;> simp

@[simp] theorem alert_reg (i : Nat) (b : Block) (y : Obj) : (b.alert i).reg y = b.reg y := by simp [reg]

/-- An emergency message touches the CAN controller and its event. -/
@[simp] theorem emcyNow_keeps (m : Emcy) (b : Block) :
    (b.emcyNow m).now = b.now ∧ (b.emcyNow m).part = b.part ∧ (b.emcyNow m).regs = b.regs ∧ (b.emcyNow m).tables = b.tables ∧
    (b.emcyNow m).free = b.free ∧ (b.emcyNow m).faults = b.faults ∧ (b.emcyNow m).smb = b.smb ∧ (b.emcyNow m).heads = b.heads ∧
    (b.emcyNow m).video = b.video ∧ (b.emcyNow m).corr = b.corr ∧ (b.emcyNow m).stitch = b.stitch ∧ (b.emcyNow m).illum = b.illum ∧
    (b.emcyNow m).capture = b.capture ∧ (b.emcyNow m).axes = b.axes ∧ (b.emcyNow m).keystone = b.keystone ∧ (b.emcyNow m).aux = b.aux ∧
    (b.emcyNow m).ring = b.ring ∧ (b.emcyNow m).dma = b.dma ∧ (b.emcyNow m).mem = b.mem ∧ (b.emcyNow m).host = b.host ∧
    (b.emcyNow m).power = b.power ∧ (b.emcyNow m).thermal = b.thermal ∧ (b.emcyNow m).test = b.test ∧ (b.emcyNow m).repair = b.repair ∧
    (b.emcyNow m).saved = b.saved ∧ (b.emcyNow m).control = b.control ∧ (b.emcyNow m).custody = b.custody ∧
    (b.emcyNow m).firmware = b.firmware ∧ (b.emcyNow m).attest = b.attest := by
  simp [emcyNow]

@[simp] theorem emcyNow_reg (m : Emcy) (b : Block) (y : Obj) : (b.emcyNow m).reg y = b.reg y := by simp [reg]

@[simp] theorem emcy_keeps (m : Emcy) (b : Block) :
    (b.emcy m).now = b.now ∧ (b.emcy m).part = b.part ∧ (b.emcy m).regs = b.regs ∧ (b.emcy m).tables = b.tables ∧ (b.emcy m).free = b.free ∧
    (b.emcy m).faults = b.faults ∧ (b.emcy m).smb = b.smb ∧ (b.emcy m).heads = b.heads ∧ (b.emcy m).video = b.video ∧
    (b.emcy m).corr = b.corr ∧ (b.emcy m).stitch = b.stitch ∧ (b.emcy m).illum = b.illum ∧ (b.emcy m).capture = b.capture ∧
    (b.emcy m).axes = b.axes ∧ (b.emcy m).keystone = b.keystone ∧ (b.emcy m).aux = b.aux ∧ (b.emcy m).ring = b.ring ∧
    (b.emcy m).dma = b.dma ∧ (b.emcy m).mem = b.mem ∧ (b.emcy m).host = b.host ∧ (b.emcy m).power = b.power ∧
    (b.emcy m).thermal = b.thermal ∧ (b.emcy m).test = b.test ∧ (b.emcy m).repair = b.repair ∧ (b.emcy m).saved = b.saved ∧
    (b.emcy m).control = b.control ∧ (b.emcy m).custody = b.custody ∧ (b.emcy m).firmware = b.firmware ∧ (b.emcy m).attest = b.attest := by
  unfold emcy; (repeat' split) <;> simp

@[simp] theorem emcy_reg (m : Emcy) (b : Block) (y : Obj) : (b.emcy m).reg y = b.reg y := by simp [reg]

@[simp] theorem emcyCause_keeps (k n e s : Nat) (b : Block) :
    (b.emcyCause k n e s).now = b.now ∧ (b.emcyCause k n e s).part = b.part ∧ (b.emcyCause k n e s).regs = b.regs ∧
    (b.emcyCause k n e s).tables = b.tables ∧ (b.emcyCause k n e s).free = b.free ∧ (b.emcyCause k n e s).faults = b.faults ∧
    (b.emcyCause k n e s).smb = b.smb ∧ (b.emcyCause k n e s).heads = b.heads ∧ (b.emcyCause k n e s).video = b.video ∧
    (b.emcyCause k n e s).corr = b.corr ∧ (b.emcyCause k n e s).stitch = b.stitch ∧ (b.emcyCause k n e s).illum = b.illum ∧
    (b.emcyCause k n e s).capture = b.capture ∧ (b.emcyCause k n e s).axes = b.axes ∧ (b.emcyCause k n e s).keystone = b.keystone ∧
    (b.emcyCause k n e s).aux = b.aux ∧ (b.emcyCause k n e s).ring = b.ring ∧ (b.emcyCause k n e s).dma = b.dma ∧
    (b.emcyCause k n e s).mem = b.mem ∧ (b.emcyCause k n e s).host = b.host ∧ (b.emcyCause k n e s).power = b.power ∧
    (b.emcyCause k n e s).thermal = b.thermal ∧ (b.emcyCause k n e s).test = b.test ∧ (b.emcyCause k n e s).repair = b.repair ∧
    (b.emcyCause k n e s).saved = b.saved ∧ (b.emcyCause k n e s).control = b.control ∧ (b.emcyCause k n e s).custody = b.custody ∧
    (b.emcyCause k n e s).firmware = b.firmware ∧ (b.emcyCause k n e s).attest = b.attest := by
  simp [emcyCause]

@[simp] theorem emcyCause_reg (k n e s : Nat) (b : Block) (y : Obj) : (b.emcyCause k n e s).reg y = b.reg y := by simp [reg]

@[simp] theorem emcyClear_keeps (n : Nat) (b : Block) :
    (b.emcyClear n).now = b.now ∧ (b.emcyClear n).part = b.part ∧ (b.emcyClear n).regs = b.regs ∧ (b.emcyClear n).tables = b.tables ∧
    (b.emcyClear n).faults = b.faults ∧ (b.emcyClear n).smb = b.smb ∧ (b.emcyClear n).heads = b.heads ∧ (b.emcyClear n).video = b.video ∧
    (b.emcyClear n).corr = b.corr ∧ (b.emcyClear n).stitch = b.stitch ∧ (b.emcyClear n).illum = b.illum ∧
    (b.emcyClear n).capture = b.capture ∧ (b.emcyClear n).axes = b.axes ∧ (b.emcyClear n).keystone = b.keystone ∧
    (b.emcyClear n).aux = b.aux ∧ (b.emcyClear n).ring = b.ring ∧ (b.emcyClear n).dma = b.dma ∧ (b.emcyClear n).mem = b.mem ∧
    (b.emcyClear n).host = b.host ∧ (b.emcyClear n).power = b.power ∧ (b.emcyClear n).thermal = b.thermal ∧ (b.emcyClear n).test = b.test ∧
    (b.emcyClear n).repair = b.repair ∧ (b.emcyClear n).saved = b.saved ∧ (b.emcyClear n).control = b.control ∧
    (b.emcyClear n).custody = b.custody ∧ (b.emcyClear n).firmware = b.firmware ∧ (b.emcyClear n).attest = b.attest := by
  unfold emcyClear; simp only []; (repeat' split) <;> simp

@[simp] theorem emcyClear_reg (n : Nat) (b : Block) (y : Obj) : (b.emcyClear n).reg y = b.reg y := by simp [reg]

/-- A fault that arises touches the log. -/
@[simp] theorem logFault_keeps (k u d s : Nat) (b : Block) :
    (b.logFault k u d s).now = b.now ∧ (b.logFault k u d s).part = b.part ∧ (b.logFault k u d s).regs = b.regs ∧
    (b.logFault k u d s).tables = b.tables ∧ (b.logFault k u d s).outs = b.outs ∧ (b.logFault k u d s).free = b.free ∧
    (b.logFault k u d s).fabric = b.fabric ∧ (b.logFault k u d s).can = b.can ∧ (b.logFault k u d s).smb = b.smb ∧
    (b.logFault k u d s).heads = b.heads ∧ (b.logFault k u d s).video = b.video ∧ (b.logFault k u d s).corr = b.corr ∧
    (b.logFault k u d s).stitch = b.stitch ∧ (b.logFault k u d s).illum = b.illum ∧ (b.logFault k u d s).capture = b.capture ∧
    (b.logFault k u d s).axes = b.axes ∧ (b.logFault k u d s).keystone = b.keystone ∧ (b.logFault k u d s).aux = b.aux ∧
    (b.logFault k u d s).ring = b.ring ∧ (b.logFault k u d s).dma = b.dma ∧ (b.logFault k u d s).mem = b.mem ∧
    (b.logFault k u d s).host = b.host ∧ (b.logFault k u d s).power = b.power ∧ (b.logFault k u d s).thermal = b.thermal ∧
    (b.logFault k u d s).test = b.test ∧ (b.logFault k u d s).repair = b.repair ∧ (b.logFault k u d s).saved = b.saved ∧
    (b.logFault k u d s).control = b.control ∧ (b.logFault k u d s).custody = b.custody ∧ (b.logFault k u d s).firmware = b.firmware ∧
    (b.logFault k u d s).attest = b.attest := by
  unfold logFault; simp only []; (repeat' split) <;> simp

@[simp] theorem logFault_reg (k u d s : Nat) (b : Block) (y : Obj) : (b.logFault k u d s).reg y = b.reg y := by simp [reg]

/-- A log entry touches the log, the alert and the emergency message. -/
@[simp] theorem writeFault_keeps (e : FaultEntry) (b : Block) :
    (b.writeFault e).now = b.now ∧ (b.writeFault e).part = b.part ∧ (b.writeFault e).regs = b.regs ∧ (b.writeFault e).tables = b.tables ∧
    (b.writeFault e).free = b.free ∧ (b.writeFault e).heads = b.heads ∧ (b.writeFault e).video = b.video ∧ (b.writeFault e).corr = b.corr ∧
    (b.writeFault e).stitch = b.stitch ∧ (b.writeFault e).illum = b.illum ∧ (b.writeFault e).capture = b.capture ∧
    (b.writeFault e).axes = b.axes ∧ (b.writeFault e).keystone = b.keystone ∧ (b.writeFault e).aux = b.aux ∧
    (b.writeFault e).ring = b.ring ∧ (b.writeFault e).dma = b.dma ∧ (b.writeFault e).mem = b.mem ∧ (b.writeFault e).host = b.host ∧
    (b.writeFault e).power = b.power ∧ (b.writeFault e).thermal = b.thermal ∧ (b.writeFault e).test = b.test ∧
    (b.writeFault e).repair = b.repair ∧ (b.writeFault e).saved = b.saved ∧ (b.writeFault e).control = b.control ∧
    (b.writeFault e).custody = b.custody ∧ (b.writeFault e).firmware = b.firmware ∧ (b.writeFault e).attest = b.attest := by
  simp [writeFault]

@[simp] theorem writeFault_reg (e : FaultEntry) (b : Block) (y : Obj) : (b.writeFault e).reg y = b.reg y := by simp [reg]

@[simp] theorem writeFaults_keeps (b : Block) :
    (b.writeFaults).now = b.now ∧ (b.writeFaults).part = b.part ∧ (b.writeFaults).regs = b.regs ∧ (b.writeFaults).tables = b.tables ∧
    (b.writeFaults).free = b.free ∧ (b.writeFaults).heads = b.heads ∧ (b.writeFaults).video = b.video ∧ (b.writeFaults).corr = b.corr ∧
    (b.writeFaults).stitch = b.stitch ∧ (b.writeFaults).illum = b.illum ∧ (b.writeFaults).capture = b.capture ∧
    (b.writeFaults).axes = b.axes ∧ (b.writeFaults).keystone = b.keystone ∧ (b.writeFaults).aux = b.aux ∧ (b.writeFaults).ring = b.ring ∧
    (b.writeFaults).dma = b.dma ∧ (b.writeFaults).mem = b.mem ∧ (b.writeFaults).host = b.host ∧ (b.writeFaults).power = b.power ∧
    (b.writeFaults).thermal = b.thermal ∧ (b.writeFaults).test = b.test ∧ (b.writeFaults).repair = b.repair ∧
    (b.writeFaults).saved = b.saved ∧ (b.writeFaults).control = b.control ∧ (b.writeFaults).custody = b.custody ∧
    (b.writeFaults).firmware = b.firmware ∧ (b.writeFaults).attest = b.attest := by
  exact ⟨foldl_keeps Block.now _ _ _ fun c h => by simp, foldl_keeps Block.part _ _ _ fun c h => by simp, foldl_keeps Block.regs _ _ _ fun c h => by simp, foldl_keeps Block.tables _ _ _ fun c h => by simp, foldl_keeps Block.free _ _ _ fun c h => by simp, foldl_keeps Block.heads _ _ _ fun c h => by simp, foldl_keeps Block.video _ _ _ fun c h => by simp, foldl_keeps Block.corr _ _ _ fun c h => by simp, foldl_keeps Block.stitch _ _ _ fun c h => by simp, foldl_keeps Block.illum _ _ _ fun c h => by simp, foldl_keeps Block.capture _ _ _ fun c h => by simp, foldl_keeps Block.axes _ _ _ fun c h => by simp, foldl_keeps Block.keystone _ _ _ fun c h => by simp, foldl_keeps Block.aux _ _ _ fun c h => by simp, foldl_keeps Block.ring _ _ _ fun c h => by simp, foldl_keeps Block.dma _ _ _ fun c h => by simp, foldl_keeps Block.mem _ _ _ fun c h => by simp, foldl_keeps Block.host _ _ _ fun c h => by simp, foldl_keeps Block.power _ _ _ fun c h => by simp, foldl_keeps Block.thermal _ _ _ fun c h => by simp, foldl_keeps Block.test _ _ _ fun c h => by simp, foldl_keeps Block.repair _ _ _ fun c h => by simp, foldl_keeps Block.saved _ _ _ fun c h => by simp, foldl_keeps Block.control _ _ _ fun c h => by simp, foldl_keeps Block.custody _ _ _ fun c h => by simp, foldl_keeps Block.firmware _ _ _ fun c h => by simp, foldl_keeps Block.attest _ _ _ fun c h => by simp⟩

@[simp] theorem writeFaults_reg (b : Block) (y : Obj) : (b.writeFaults).reg y = b.reg y := by simp [reg]

@[simp] theorem latchTask_keeps (n : Nat) (b : Block) :
    (b.latchTask n).now = b.now ∧ (b.latchTask n).part = b.part ∧ (b.latchTask n).regs = b.regs ∧ (b.latchTask n).tables = b.tables ∧
    (b.latchTask n).outs = b.outs ∧ (b.latchTask n).free = b.free ∧ (b.latchTask n).faults = b.faults ∧ (b.latchTask n).can = b.can ∧
    (b.latchTask n).smb = b.smb ∧ (b.latchTask n).heads = b.heads ∧ (b.latchTask n).video = b.video ∧ (b.latchTask n).corr = b.corr ∧
    (b.latchTask n).stitch = b.stitch ∧ (b.latchTask n).illum = b.illum ∧ (b.latchTask n).capture = b.capture ∧
    (b.latchTask n).axes = b.axes ∧ (b.latchTask n).keystone = b.keystone ∧ (b.latchTask n).aux = b.aux ∧ (b.latchTask n).ring = b.ring ∧
    (b.latchTask n).dma = b.dma ∧ (b.latchTask n).mem = b.mem ∧ (b.latchTask n).host = b.host ∧ (b.latchTask n).power = b.power ∧
    (b.latchTask n).thermal = b.thermal ∧ (b.latchTask n).test = b.test ∧ (b.latchTask n).repair = b.repair ∧
    (b.latchTask n).saved = b.saved ∧ (b.latchTask n).control = b.control ∧ (b.latchTask n).custody = b.custody ∧
    (b.latchTask n).firmware = b.firmware ∧ (b.latchTask n).attest = b.attest := by
  unfold latchTask; simp only []; (repeat' split) <;> simp

@[simp] theorem latchTask_reg (n : Nat) (b : Block) (y : Obj) : (b.latchTask n).reg y = b.reg y := by simp [reg]

@[simp] theorem relayInput_keeps (r : Nat) (i j : Bool) (b : Block) :
    (b.relayInput r i j).now = b.now ∧ (b.relayInput r i j).part = b.part ∧ (b.relayInput r i j).regs = b.regs ∧
    (b.relayInput r i j).tables = b.tables ∧ (b.relayInput r i j).free = b.free ∧ (b.relayInput r i j).faults = b.faults ∧
    (b.relayInput r i j).can = b.can ∧ (b.relayInput r i j).smb = b.smb ∧ (b.relayInput r i j).heads = b.heads ∧
    (b.relayInput r i j).video = b.video ∧ (b.relayInput r i j).corr = b.corr ∧ (b.relayInput r i j).stitch = b.stitch ∧
    (b.relayInput r i j).illum = b.illum ∧ (b.relayInput r i j).capture = b.capture ∧ (b.relayInput r i j).axes = b.axes ∧
    (b.relayInput r i j).keystone = b.keystone ∧ (b.relayInput r i j).aux = b.aux ∧ (b.relayInput r i j).ring = b.ring ∧
    (b.relayInput r i j).dma = b.dma ∧ (b.relayInput r i j).mem = b.mem ∧ (b.relayInput r i j).host = b.host ∧
    (b.relayInput r i j).power = b.power ∧ (b.relayInput r i j).thermal = b.thermal ∧ (b.relayInput r i j).test = b.test ∧
    (b.relayInput r i j).repair = b.repair ∧ (b.relayInput r i j).saved = b.saved ∧ (b.relayInput r i j).control = b.control ∧
    (b.relayInput r i j).custody = b.custody ∧ (b.relayInput r i j).firmware = b.firmware ∧ (b.relayInput r i j).attest = b.attest := by
  simp [relayInput]

@[simp] theorem relayInput_reg (r : Nat) (i j : Bool) (b : Block) (y : Obj) : (b.relayInput r i j).reg y = b.reg y := by simp [reg]

/-- An event that is delivered touches the fabric, and the events of relays. -/
@[simp] theorem deliver_keeps (s : Nat) (b : Block) :
    (b.deliver s).now = b.now ∧ (b.deliver s).part = b.part ∧ (b.deliver s).regs = b.regs ∧ (b.deliver s).tables = b.tables ∧
    (b.deliver s).free = b.free ∧ (b.deliver s).faults = b.faults ∧ (b.deliver s).can = b.can ∧ (b.deliver s).smb = b.smb ∧
    (b.deliver s).heads = b.heads ∧ (b.deliver s).video = b.video ∧ (b.deliver s).corr = b.corr ∧ (b.deliver s).stitch = b.stitch ∧
    (b.deliver s).illum = b.illum ∧ (b.deliver s).capture = b.capture ∧ (b.deliver s).axes = b.axes ∧ (b.deliver s).keystone = b.keystone ∧
    (b.deliver s).aux = b.aux ∧ (b.deliver s).ring = b.ring ∧ (b.deliver s).dma = b.dma ∧ (b.deliver s).mem = b.mem ∧
    (b.deliver s).host = b.host ∧ (b.deliver s).power = b.power ∧ (b.deliver s).thermal = b.thermal ∧ (b.deliver s).test = b.test ∧
    (b.deliver s).repair = b.repair ∧ (b.deliver s).saved = b.saved ∧ (b.deliver s).control = b.control ∧
    (b.deliver s).custody = b.custody ∧ (b.deliver s).firmware = b.firmware ∧ (b.deliver s).attest = b.attest := by
  exact ⟨deliver_field Block.now s b (fun c r i j => by simp) (fun c n => by simp), deliver_field Block.part s b (fun c r i j => by simp) (fun c n => by simp), deliver_field Block.regs s b (fun c r i j => by simp) (fun c n => by simp), deliver_field Block.tables s b (fun c r i j => by simp) (fun c n => by simp), deliver_field Block.free s b (fun c r i j => by simp) (fun c n => by simp), deliver_field Block.faults s b (fun c r i j => by simp) (fun c n => by simp), deliver_field Block.can s b (fun c r i j => by simp) (fun c n => by simp), deliver_field Block.smb s b (fun c r i j => by simp) (fun c n => by simp), deliver_field Block.heads s b (fun c r i j => by simp) (fun c n => by simp), deliver_field Block.video s b (fun c r i j => by simp) (fun c n => by simp), deliver_field Block.corr s b (fun c r i j => by simp) (fun c n => by simp), deliver_field Block.stitch s b (fun c r i j => by simp) (fun c n => by simp), deliver_field Block.illum s b (fun c r i j => by simp) (fun c n => by simp), deliver_field Block.capture s b (fun c r i j => by simp) (fun c n => by simp), deliver_field Block.axes s b (fun c r i j => by simp) (fun c n => by simp), deliver_field Block.keystone s b (fun c r i j => by simp) (fun c n => by simp), deliver_field Block.aux s b (fun c r i j => by simp) (fun c n => by simp), deliver_field Block.ring s b (fun c r i j => by simp) (fun c n => by simp), deliver_field Block.dma s b (fun c r i j => by simp) (fun c n => by simp), deliver_field Block.mem s b (fun c r i j => by simp) (fun c n => by simp), deliver_field Block.host s b (fun c r i j => by simp) (fun c n => by simp), deliver_field Block.power s b (fun c r i j => by simp) (fun c n => by simp), deliver_field Block.thermal s b (fun c r i j => by simp) (fun c n => by simp), deliver_field Block.test s b (fun c r i j => by simp) (fun c n => by simp), deliver_field Block.repair s b (fun c r i j => by simp) (fun c n => by simp), deliver_field Block.saved s b (fun c r i j => by simp) (fun c n => by simp), deliver_field Block.control s b (fun c r i j => by simp) (fun c n => by simp), deliver_field Block.custody s b (fun c r i j => by simp) (fun c n => by simp), deliver_field Block.firmware s b (fun c r i j => by simp) (fun c n => by simp), deliver_field Block.attest s b (fun c r i j => by simp) (fun c n => by simp)⟩

@[simp] theorem deliver_reg (s : Nat) (b : Block) (y : Obj) : (b.deliver s).reg y = b.reg y := by simp [reg]

@[simp] theorem stormTrip_keeps (s : Nat) (b : Block) :
    (b.stormTrip s).now = b.now ∧ (b.stormTrip s).part = b.part ∧ (b.stormTrip s).regs = b.regs ∧ (b.stormTrip s).tables = b.tables ∧
    (b.stormTrip s).free = b.free ∧ (b.stormTrip s).heads = b.heads ∧ (b.stormTrip s).video = b.video ∧ (b.stormTrip s).corr = b.corr ∧
    (b.stormTrip s).stitch = b.stitch ∧ (b.stormTrip s).illum = b.illum ∧ (b.stormTrip s).capture = b.capture ∧
    (b.stormTrip s).axes = b.axes ∧ (b.stormTrip s).keystone = b.keystone ∧ (b.stormTrip s).aux = b.aux ∧ (b.stormTrip s).ring = b.ring ∧
    (b.stormTrip s).dma = b.dma ∧ (b.stormTrip s).mem = b.mem ∧ (b.stormTrip s).host = b.host ∧ (b.stormTrip s).power = b.power ∧
    (b.stormTrip s).thermal = b.thermal ∧ (b.stormTrip s).test = b.test ∧ (b.stormTrip s).repair = b.repair ∧
    (b.stormTrip s).saved = b.saved ∧ (b.stormTrip s).control = b.control ∧ (b.stormTrip s).custody = b.custody ∧
    (b.stormTrip s).firmware = b.firmware ∧ (b.stormTrip s).attest = b.attest := by
  simp [stormTrip]

@[simp] theorem stormTrip_reg (s : Nat) (b : Block) (y : Obj) : (b.stormTrip s).reg y = b.reg y := by simp [reg]

@[simp] theorem routeEvent_keeps (s : Nat) (b : Block) :
    (b.routeEvent s).now = b.now ∧ (b.routeEvent s).part = b.part ∧ (b.routeEvent s).regs = b.regs ∧ (b.routeEvent s).tables = b.tables ∧
    (b.routeEvent s).heads = b.heads ∧ (b.routeEvent s).video = b.video ∧ (b.routeEvent s).corr = b.corr ∧
    (b.routeEvent s).stitch = b.stitch ∧ (b.routeEvent s).illum = b.illum ∧ (b.routeEvent s).capture = b.capture ∧
    (b.routeEvent s).axes = b.axes ∧ (b.routeEvent s).keystone = b.keystone ∧ (b.routeEvent s).aux = b.aux ∧
    (b.routeEvent s).ring = b.ring ∧ (b.routeEvent s).dma = b.dma ∧ (b.routeEvent s).mem = b.mem ∧ (b.routeEvent s).host = b.host ∧
    (b.routeEvent s).power = b.power ∧ (b.routeEvent s).thermal = b.thermal ∧ (b.routeEvent s).test = b.test ∧
    (b.routeEvent s).repair = b.repair ∧ (b.routeEvent s).saved = b.saved ∧ (b.routeEvent s).control = b.control ∧
    (b.routeEvent s).custody = b.custody ∧ (b.routeEvent s).firmware = b.firmware ∧ (b.routeEvent s).attest = b.attest := by
  unfold routeEvent; simp only []; (repeat' split) <;> simp

@[simp] theorem routeEvent_reg (s : Nat) (b : Block) (y : Obj) : (b.routeEvent s).reg y = b.reg y := by simp [reg]

@[simp] theorem route_keeps (n : Nat) (b : Block) :
    (route n b).now = b.now ∧ (route n b).part = b.part ∧ (route n b).regs = b.regs ∧ (route n b).tables = b.tables ∧
    (route n b).heads = b.heads ∧ (route n b).video = b.video ∧ (route n b).corr = b.corr ∧ (route n b).stitch = b.stitch ∧
    (route n b).illum = b.illum ∧ (route n b).capture = b.capture ∧ (route n b).axes = b.axes ∧ (route n b).keystone = b.keystone ∧
    (route n b).aux = b.aux ∧ (route n b).ring = b.ring ∧ (route n b).dma = b.dma ∧ (route n b).mem = b.mem ∧ (route n b).host = b.host ∧
    (route n b).power = b.power ∧ (route n b).thermal = b.thermal ∧ (route n b).test = b.test ∧ (route n b).repair = b.repair ∧
    (route n b).saved = b.saved ∧ (route n b).control = b.control ∧ (route n b).custody = b.custody ∧ (route n b).firmware = b.firmware ∧
    (route n b).attest = b.attest := by
  induction n generalizing b with
  | zero => simp [route]
  | succ n ih => unfold route; split <;> simp [ih]

@[simp] theorem route_reg (n : Nat) (b : Block) (y : Obj) : (route n b).reg y = b.reg y := by simp [reg]

/-- Routing the events of a command touches the fabric, the log with its messages, and the events of storms and relays. -/
@[simp] theorem settle_keeps (b : Block) :
    (b.settle).now = b.now ∧ (b.settle).part = b.part ∧ (b.settle).regs = b.regs ∧ (b.settle).tables = b.tables ∧
    (b.settle).heads = b.heads ∧ (b.settle).video = b.video ∧ (b.settle).corr = b.corr ∧ (b.settle).stitch = b.stitch ∧
    (b.settle).illum = b.illum ∧ (b.settle).capture = b.capture ∧ (b.settle).axes = b.axes ∧ (b.settle).keystone = b.keystone ∧
    (b.settle).aux = b.aux ∧ (b.settle).ring = b.ring ∧ (b.settle).dma = b.dma ∧ (b.settle).mem = b.mem ∧ (b.settle).host = b.host ∧
    (b.settle).power = b.power ∧ (b.settle).thermal = b.thermal ∧ (b.settle).test = b.test ∧ (b.settle).repair = b.repair ∧
    (b.settle).saved = b.saved ∧ (b.settle).control = b.control ∧ (b.settle).custody = b.custody ∧ (b.settle).firmware = b.firmware ∧
    (b.settle).attest = b.attest := by
  simp [settle]

@[simp] theorem settle_reg (b : Block) (y : Obj) : (b.settle).reg y = b.reg y := by simp [reg]

@[simp] theorem keyEvent_keeps (a : AxisId) (k : Nat) (b : Block) :
    (b.keyEvent a k).now = b.now ∧ (b.keyEvent a k).part = b.part ∧ (b.keyEvent a k).regs = b.regs ∧ (b.keyEvent a k).tables = b.tables ∧
    (b.keyEvent a k).free = b.free ∧ (b.keyEvent a k).faults = b.faults ∧ (b.keyEvent a k).can = b.can ∧ (b.keyEvent a k).smb = b.smb ∧
    (b.keyEvent a k).heads = b.heads ∧ (b.keyEvent a k).video = b.video ∧ (b.keyEvent a k).corr = b.corr ∧
    (b.keyEvent a k).stitch = b.stitch ∧ (b.keyEvent a k).illum = b.illum ∧ (b.keyEvent a k).capture = b.capture ∧
    (b.keyEvent a k).axes = b.axes ∧ (b.keyEvent a k).keystone = b.keystone ∧ (b.keyEvent a k).aux = b.aux ∧
    (b.keyEvent a k).ring = b.ring ∧ (b.keyEvent a k).dma = b.dma ∧ (b.keyEvent a k).mem = b.mem ∧ (b.keyEvent a k).host = b.host ∧
    (b.keyEvent a k).power = b.power ∧ (b.keyEvent a k).thermal = b.thermal ∧ (b.keyEvent a k).test = b.test ∧
    (b.keyEvent a k).repair = b.repair ∧ (b.keyEvent a k).saved = b.saved ∧ (b.keyEvent a k).control = b.control ∧
    (b.keyEvent a k).custody = b.custody ∧ (b.keyEvent a k).firmware = b.firmware ∧ (b.keyEvent a k).attest = b.attest := by
  simp [keyEvent]

@[simp] theorem keyEvent_reg (a : AxisId) (k : Nat) (b : Block) (y : Obj) : (b.keyEvent a k).reg y = b.reg y := by simp [reg]

@[simp] theorem keyState_keeps (a : AxisId) (s : Nat) (b : Block) :
    (b.keyState a s).now = b.now ∧ (b.keyState a s).part = b.part ∧ (b.keyState a s).tables = b.tables ∧ (b.keyState a s).free = b.free ∧
    (b.keyState a s).fabric = b.fabric ∧ (b.keyState a s).faults = b.faults ∧ (b.keyState a s).can = b.can ∧ (b.keyState a s).smb = b.smb ∧
    (b.keyState a s).heads = b.heads ∧ (b.keyState a s).video = b.video ∧ (b.keyState a s).corr = b.corr ∧
    (b.keyState a s).stitch = b.stitch ∧ (b.keyState a s).illum = b.illum ∧ (b.keyState a s).capture = b.capture ∧
    (b.keyState a s).axes = b.axes ∧ (b.keyState a s).aux = b.aux ∧ (b.keyState a s).ring = b.ring ∧ (b.keyState a s).dma = b.dma ∧
    (b.keyState a s).mem = b.mem ∧ (b.keyState a s).host = b.host ∧ (b.keyState a s).power = b.power ∧
    (b.keyState a s).thermal = b.thermal ∧ (b.keyState a s).test = b.test ∧ (b.keyState a s).repair = b.repair ∧
    (b.keyState a s).saved = b.saved ∧ (b.keyState a s).control = b.control ∧ (b.keyState a s).custody = b.custody ∧
    (b.keyState a s).firmware = b.firmware ∧ (b.keyState a s).attest = b.attest := by
  unfold keyState; simp only []; (repeat' split) <;> simp

@[simp] theorem setPark_keeps (a : AxisId) (p : Int) (v : Nat) (b : Block) :
    (b.setPark a p v).now = b.now ∧ (b.setPark a p v).part = b.part ∧ (b.setPark a p v).tables = b.tables ∧
    (b.setPark a p v).outs = b.outs ∧ (b.setPark a p v).free = b.free ∧ (b.setPark a p v).fabric = b.fabric ∧
    (b.setPark a p v).faults = b.faults ∧ (b.setPark a p v).can = b.can ∧ (b.setPark a p v).smb = b.smb ∧
    (b.setPark a p v).heads = b.heads ∧ (b.setPark a p v).video = b.video ∧ (b.setPark a p v).corr = b.corr ∧
    (b.setPark a p v).stitch = b.stitch ∧ (b.setPark a p v).illum = b.illum ∧ (b.setPark a p v).capture = b.capture ∧
    (b.setPark a p v).axes = b.axes ∧ (b.setPark a p v).aux = b.aux ∧ (b.setPark a p v).ring = b.ring ∧ (b.setPark a p v).dma = b.dma ∧
    (b.setPark a p v).mem = b.mem ∧ (b.setPark a p v).host = b.host ∧ (b.setPark a p v).power = b.power ∧
    (b.setPark a p v).thermal = b.thermal ∧ (b.setPark a p v).test = b.test ∧ (b.setPark a p v).repair = b.repair ∧
    (b.setPark a p v).saved = b.saved ∧ (b.setPark a p v).control = b.control ∧ (b.setPark a p v).custody = b.custody ∧
    (b.setPark a p v).firmware = b.firmware ∧ (b.setPark a p v).attest = b.attest := by
  simp [setPark]

@[simp] theorem noRoom_keeps (a : AxisId) (b : Block) :
    (b.noRoom a).now = b.now ∧ (b.noRoom a).part = b.part ∧ (b.noRoom a).tables = b.tables ∧ (b.noRoom a).free = b.free ∧
    (b.noRoom a).fabric = b.fabric ∧ (b.noRoom a).faults = b.faults ∧ (b.noRoom a).can = b.can ∧ (b.noRoom a).smb = b.smb ∧
    (b.noRoom a).heads = b.heads ∧ (b.noRoom a).video = b.video ∧ (b.noRoom a).corr = b.corr ∧ (b.noRoom a).stitch = b.stitch ∧
    (b.noRoom a).illum = b.illum ∧ (b.noRoom a).capture = b.capture ∧ (b.noRoom a).axes = b.axes ∧ (b.noRoom a).aux = b.aux ∧
    (b.noRoom a).ring = b.ring ∧ (b.noRoom a).dma = b.dma ∧ (b.noRoom a).mem = b.mem ∧ (b.noRoom a).host = b.host ∧
    (b.noRoom a).power = b.power ∧ (b.noRoom a).thermal = b.thermal ∧ (b.noRoom a).test = b.test ∧ (b.noRoom a).repair = b.repair ∧
    (b.noRoom a).saved = b.saved ∧ (b.noRoom a).control = b.control ∧ (b.noRoom a).custody = b.custody ∧
    (b.noRoom a).firmware = b.firmware ∧ (b.noRoom a).attest = b.attest := by
  simp [noRoom]

@[simp] theorem sendToPark_keeps (a : AxisId) (s : Nat) (b : Block) :
    (b.sendToPark a s).now = b.now ∧ (b.sendToPark a s).part = b.part ∧ (b.sendToPark a s).tables = b.tables ∧
    (b.sendToPark a s).free = b.free ∧ (b.sendToPark a s).fabric = b.fabric ∧ (b.sendToPark a s).faults = b.faults ∧
    (b.sendToPark a s).can = b.can ∧ (b.sendToPark a s).smb = b.smb ∧ (b.sendToPark a s).heads = b.heads ∧
    (b.sendToPark a s).video = b.video ∧ (b.sendToPark a s).corr = b.corr ∧ (b.sendToPark a s).stitch = b.stitch ∧
    (b.sendToPark a s).illum = b.illum ∧ (b.sendToPark a s).capture = b.capture ∧ (b.sendToPark a s).aux = b.aux ∧
    (b.sendToPark a s).ring = b.ring ∧ (b.sendToPark a s).dma = b.dma ∧ (b.sendToPark a s).mem = b.mem ∧ (b.sendToPark a s).host = b.host ∧
    (b.sendToPark a s).power = b.power ∧ (b.sendToPark a s).thermal = b.thermal ∧ (b.sendToPark a s).test = b.test ∧
    (b.sendToPark a s).repair = b.repair ∧ (b.sendToPark a s).saved = b.saved ∧ (b.sendToPark a s).control = b.control ∧
    (b.sendToPark a s).custody = b.custody ∧ (b.sendToPark a s).firmware = b.firmware ∧ (b.sendToPark a s).attest = b.attest := by
  unfold sendToPark; (repeat' split) <;> simp

@[simp] theorem replan_keeps (a : AxisId) (b : Block) :
    (b.replan a).now = b.now ∧ (b.replan a).part = b.part ∧ (b.replan a).tables = b.tables ∧ (b.replan a).free = b.free ∧
    (b.replan a).fabric = b.fabric ∧ (b.replan a).faults = b.faults ∧ (b.replan a).can = b.can ∧ (b.replan a).smb = b.smb ∧
    (b.replan a).heads = b.heads ∧ (b.replan a).video = b.video ∧ (b.replan a).corr = b.corr ∧ (b.replan a).stitch = b.stitch ∧
    (b.replan a).illum = b.illum ∧ (b.replan a).capture = b.capture ∧ (b.replan a).aux = b.aux ∧ (b.replan a).ring = b.ring ∧
    (b.replan a).dma = b.dma ∧ (b.replan a).mem = b.mem ∧ (b.replan a).host = b.host ∧ (b.replan a).power = b.power ∧
    (b.replan a).thermal = b.thermal ∧ (b.replan a).test = b.test ∧ (b.replan a).repair = b.repair ∧ (b.replan a).saved = b.saved ∧
    (b.replan a).control = b.control ∧ (b.replan a).custody = b.custody ∧ (b.replan a).firmware = b.firmware ∧
    (b.replan a).attest = b.attest := by
  unfold replan; simp only []; (repeat' split) <;> simp

@[simp] theorem keyPause_keeps (a : AxisId) (r : Option Nat) (b : Block) :
    (b.keyPause a r).now = b.now ∧ (b.keyPause a r).part = b.part ∧ (b.keyPause a r).tables = b.tables ∧ (b.keyPause a r).free = b.free ∧
    (b.keyPause a r).faults = b.faults ∧ (b.keyPause a r).can = b.can ∧ (b.keyPause a r).smb = b.smb ∧ (b.keyPause a r).heads = b.heads ∧
    (b.keyPause a r).video = b.video ∧ (b.keyPause a r).corr = b.corr ∧ (b.keyPause a r).stitch = b.stitch ∧
    (b.keyPause a r).illum = b.illum ∧ (b.keyPause a r).capture = b.capture ∧ (b.keyPause a r).aux = b.aux ∧
    (b.keyPause a r).ring = b.ring ∧ (b.keyPause a r).dma = b.dma ∧ (b.keyPause a r).mem = b.mem ∧ (b.keyPause a r).host = b.host ∧
    (b.keyPause a r).power = b.power ∧ (b.keyPause a r).thermal = b.thermal ∧ (b.keyPause a r).test = b.test ∧
    (b.keyPause a r).repair = b.repair ∧ (b.keyPause a r).saved = b.saved ∧ (b.keyPause a r).control = b.control ∧
    (b.keyPause a r).custody = b.custody ∧ (b.keyPause a r).firmware = b.firmware ∧ (b.keyPause a r).attest = b.attest := by
  unfold keyPause; simp only []; (repeat' split) <;> simp

@[simp] theorem keyCap_keeps (a : AxisId) (b : Block) :
    (b.keyCap a).now = b.now ∧ (b.keyCap a).part = b.part ∧ (b.keyCap a).tables = b.tables ∧ (b.keyCap a).free = b.free ∧
    (b.keyCap a).faults = b.faults ∧ (b.keyCap a).can = b.can ∧ (b.keyCap a).smb = b.smb ∧ (b.keyCap a).heads = b.heads ∧
    (b.keyCap a).video = b.video ∧ (b.keyCap a).corr = b.corr ∧ (b.keyCap a).stitch = b.stitch ∧ (b.keyCap a).illum = b.illum ∧
    (b.keyCap a).capture = b.capture ∧ (b.keyCap a).aux = b.aux ∧ (b.keyCap a).ring = b.ring ∧ (b.keyCap a).dma = b.dma ∧
    (b.keyCap a).mem = b.mem ∧ (b.keyCap a).host = b.host ∧ (b.keyCap a).power = b.power ∧ (b.keyCap a).thermal = b.thermal ∧
    (b.keyCap a).test = b.test ∧ (b.keyCap a).repair = b.repair ∧ (b.keyCap a).saved = b.saved ∧ (b.keyCap a).control = b.control ∧
    (b.keyCap a).custody = b.custody ∧ (b.keyCap a).firmware = b.firmware ∧ (b.keyCap a).attest = b.attest := by
  unfold keyCap; (repeat' split) <;> simp

@[simp] theorem keyFollow_keeps (b : Block) :
    (b.keyFollow).now = b.now ∧ (b.keyFollow).part = b.part ∧ (b.keyFollow).tables = b.tables ∧ (b.keyFollow).free = b.free ∧
    (b.keyFollow).faults = b.faults ∧ (b.keyFollow).can = b.can ∧ (b.keyFollow).smb = b.smb ∧ (b.keyFollow).heads = b.heads ∧
    (b.keyFollow).video = b.video ∧ (b.keyFollow).corr = b.corr ∧ (b.keyFollow).stitch = b.stitch ∧ (b.keyFollow).illum = b.illum ∧
    (b.keyFollow).capture = b.capture ∧ (b.keyFollow).aux = b.aux ∧ (b.keyFollow).ring = b.ring ∧ (b.keyFollow).dma = b.dma ∧
    (b.keyFollow).mem = b.mem ∧ (b.keyFollow).host = b.host ∧ (b.keyFollow).power = b.power ∧ (b.keyFollow).thermal = b.thermal ∧
    (b.keyFollow).test = b.test ∧ (b.keyFollow).repair = b.repair ∧ (b.keyFollow).saved = b.saved ∧ (b.keyFollow).control = b.control ∧
    (b.keyFollow).custody = b.custody ∧ (b.keyFollow).firmware = b.firmware ∧ (b.keyFollow).attest = b.attest := by
  unfold keyFollow; simp only []; (repeat' split) <;> simp

@[simp] theorem capChanged_keeps (t : Time) (p v : Nat) (b : Block) :
    (b.capChanged t p v).now = b.now ∧ (b.capChanged t p v).part = b.part ∧ (b.capChanged t p v).tables = b.tables ∧
    (b.capChanged t p v).outs = b.outs ∧ (b.capChanged t p v).free = b.free ∧ (b.capChanged t p v).fabric = b.fabric ∧
    (b.capChanged t p v).faults = b.faults ∧ (b.capChanged t p v).can = b.can ∧ (b.capChanged t p v).smb = b.smb ∧
    (b.capChanged t p v).heads = b.heads ∧ (b.capChanged t p v).video = b.video ∧ (b.capChanged t p v).corr = b.corr ∧
    (b.capChanged t p v).stitch = b.stitch ∧ (b.capChanged t p v).illum = b.illum ∧ (b.capChanged t p v).capture = b.capture ∧
    (b.capChanged t p v).axes = b.axes ∧ (b.capChanged t p v).keystone = b.keystone ∧ (b.capChanged t p v).aux = b.aux ∧
    (b.capChanged t p v).ring = b.ring ∧ (b.capChanged t p v).dma = b.dma ∧ (b.capChanged t p v).mem = b.mem ∧
    (b.capChanged t p v).host = b.host ∧ (b.capChanged t p v).power = b.power ∧ (b.capChanged t p v).test = b.test ∧
    (b.capChanged t p v).repair = b.repair ∧ (b.capChanged t p v).saved = b.saved ∧ (b.capChanged t p v).control = b.control ∧
    (b.capChanged t p v).custody = b.custody ∧ (b.capChanged t p v).firmware = b.firmware ∧ (b.capChanged t p v).attest = b.attest := by
  unfold capChanged; simp only []; (repeat' split) <;> simp

@[simp] theorem capFollow_keeps (b : Block) :
    (b.capFollow).now = b.now ∧ (b.capFollow).part = b.part ∧ (b.capFollow).tables = b.tables ∧ (b.capFollow).free = b.free ∧
    (b.capFollow).faults = b.faults ∧ (b.capFollow).can = b.can ∧ (b.capFollow).heads = b.heads ∧ (b.capFollow).video = b.video ∧
    (b.capFollow).corr = b.corr ∧ (b.capFollow).stitch = b.stitch ∧ (b.capFollow).illum = b.illum ∧ (b.capFollow).capture = b.capture ∧
    (b.capFollow).axes = b.axes ∧ (b.capFollow).keystone = b.keystone ∧ (b.capFollow).aux = b.aux ∧ (b.capFollow).ring = b.ring ∧
    (b.capFollow).dma = b.dma ∧ (b.capFollow).mem = b.mem ∧ (b.capFollow).host = b.host ∧ (b.capFollow).power = b.power ∧
    (b.capFollow).test = b.test ∧ (b.capFollow).repair = b.repair ∧ (b.capFollow).saved = b.saved ∧ (b.capFollow).control = b.control ∧
    (b.capFollow).custody = b.custody ∧ (b.capFollow).firmware = b.firmware ∧ (b.capFollow).attest = b.attest := by
  unfold capFollow; simp only []; (repeat' split) <;> simp

@[simp] theorem reroute_keeps (b : Block) :
    (b.reroute).now = b.now ∧ (b.reroute).part = b.part ∧ (b.reroute).tables = b.tables ∧ (b.reroute).outs = b.outs ∧
    (b.reroute).free = b.free ∧ (b.reroute).fabric = b.fabric ∧ (b.reroute).faults = b.faults ∧ (b.reroute).can = b.can ∧
    (b.reroute).smb = b.smb ∧ (b.reroute).heads = b.heads ∧ (b.reroute).video = b.video ∧ (b.reroute).corr = b.corr ∧
    (b.reroute).stitch = b.stitch ∧ (b.reroute).illum = b.illum ∧ (b.reroute).capture = b.capture ∧ (b.reroute).axes = b.axes ∧
    (b.reroute).keystone = b.keystone ∧ (b.reroute).aux = b.aux ∧ (b.reroute).ring = b.ring ∧ (b.reroute).mem = b.mem ∧
    (b.reroute).host = b.host ∧ (b.reroute).power = b.power ∧ (b.reroute).thermal = b.thermal ∧ (b.reroute).test = b.test ∧
    (b.reroute).repair = b.repair ∧ (b.reroute).saved = b.saved ∧ (b.reroute).control = b.control ∧ (b.reroute).custody = b.custody ∧
    (b.reroute).firmware = b.firmware ∧ (b.reroute).attest = b.attest := by
  exact ⟨reroute_field Block.now b (fun c o v => by simp) (fun c i g => by simp), reroute_field Block.part b (fun c o v => by simp) (fun c i g => by simp), reroute_field Block.tables b (fun c o v => by simp) (fun c i g => by simp), reroute_field Block.outs b (fun c o v => by simp) (fun c i g => by simp), reroute_field Block.free b (fun c o v => by simp) (fun c i g => by simp), reroute_field Block.fabric b (fun c o v => by simp) (fun c i g => by simp), reroute_field Block.faults b (fun c o v => by simp) (fun c i g => by simp), reroute_field Block.can b (fun c o v => by simp) (fun c i g => by simp), reroute_field Block.smb b (fun c o v => by simp) (fun c i g => by simp), reroute_field Block.heads b (fun c o v => by simp) (fun c i g => by simp), reroute_field Block.video b (fun c o v => by simp) (fun c i g => by simp), reroute_field Block.corr b (fun c o v => by simp) (fun c i g => by simp), reroute_field Block.stitch b (fun c o v => by simp) (fun c i g => by simp), reroute_field Block.illum b (fun c o v => by simp) (fun c i g => by simp), reroute_field Block.capture b (fun c o v => by simp) (fun c i g => by simp), reroute_field Block.axes b (fun c o v => by simp) (fun c i g => by simp), reroute_field Block.keystone b (fun c o v => by simp) (fun c i g => by simp), reroute_field Block.aux b (fun c o v => by simp) (fun c i g => by simp), reroute_field Block.ring b (fun c o v => by simp) (fun c i g => by simp), reroute_field Block.mem b (fun c o v => by simp) (fun c i g => by simp), reroute_field Block.host b (fun c o v => by simp) (fun c i g => by simp), reroute_field Block.power b (fun c o v => by simp) (fun c i g => by simp), reroute_field Block.thermal b (fun c o v => by simp) (fun c i g => by simp), reroute_field Block.test b (fun c o v => by simp) (fun c i g => by simp), reroute_field Block.repair b (fun c o v => by simp) (fun c i g => by simp), reroute_field Block.saved b (fun c o v => by simp) (fun c i g => by simp), reroute_field Block.control b (fun c o v => by simp) (fun c i g => by simp), reroute_field Block.custody b (fun c o v => by simp) (fun c i g => by simp), reroute_field Block.firmware b (fun c o v => by simp) (fun c i g => by simp), reroute_field Block.attest b (fun c o v => by simp) (fun c i g => by simp)⟩

@[simp] theorem claimStreams_keeps (b : Block) :
    (b.claimStreams).now = b.now ∧ (b.claimStreams).part = b.part ∧ (b.claimStreams).regs = b.regs ∧ (b.claimStreams).tables = b.tables ∧
    (b.claimStreams).outs = b.outs ∧ (b.claimStreams).free = b.free ∧ (b.claimStreams).fabric = b.fabric ∧
    (b.claimStreams).faults = b.faults ∧ (b.claimStreams).can = b.can ∧ (b.claimStreams).smb = b.smb ∧ (b.claimStreams).heads = b.heads ∧
    (b.claimStreams).video = b.video ∧ (b.claimStreams).corr = b.corr ∧ (b.claimStreams).stitch = b.stitch ∧
    (b.claimStreams).illum = b.illum ∧ (b.claimStreams).capture = b.capture ∧ (b.claimStreams).axes = b.axes ∧
    (b.claimStreams).keystone = b.keystone ∧ (b.claimStreams).aux = b.aux ∧ (b.claimStreams).ring = b.ring ∧ (b.claimStreams).mem = b.mem ∧
    (b.claimStreams).host = b.host ∧ (b.claimStreams).power = b.power ∧ (b.claimStreams).thermal = b.thermal ∧
    (b.claimStreams).test = b.test ∧ (b.claimStreams).repair = b.repair ∧ (b.claimStreams).saved = b.saved ∧
    (b.claimStreams).control = b.control ∧ (b.claimStreams).custody = b.custody ∧ (b.claimStreams).firmware = b.firmware ∧
    (b.claimStreams).attest = b.attest := by
  exact ⟨foldl_keeps Block.now _ _ _ fun c h => by simp, foldl_keeps Block.part _ _ _ fun c h => by simp, foldl_keeps Block.regs _ _ _ fun c h => by simp, foldl_keeps Block.tables _ _ _ fun c h => by simp, foldl_keeps Block.outs _ _ _ fun c h => by simp, foldl_keeps Block.free _ _ _ fun c h => by simp, foldl_keeps Block.fabric _ _ _ fun c h => by simp, foldl_keeps Block.faults _ _ _ fun c h => by simp, foldl_keeps Block.can _ _ _ fun c h => by simp, foldl_keeps Block.smb _ _ _ fun c h => by simp, foldl_keeps Block.heads _ _ _ fun c h => by simp, foldl_keeps Block.video _ _ _ fun c h => by simp, foldl_keeps Block.corr _ _ _ fun c h => by simp, foldl_keeps Block.stitch _ _ _ fun c h => by simp, foldl_keeps Block.illum _ _ _ fun c h => by simp, foldl_keeps Block.capture _ _ _ fun c h => by simp, foldl_keeps Block.axes _ _ _ fun c h => by simp, foldl_keeps Block.keystone _ _ _ fun c h => by simp, foldl_keeps Block.aux _ _ _ fun c h => by simp, foldl_keeps Block.ring _ _ _ fun c h => by simp, foldl_keeps Block.mem _ _ _ fun c h => by simp, foldl_keeps Block.host _ _ _ fun c h => by simp, foldl_keeps Block.power _ _ _ fun c h => by simp, foldl_keeps Block.thermal _ _ _ fun c h => by simp, foldl_keeps Block.test _ _ _ fun c h => by simp, foldl_keeps Block.repair _ _ _ fun c h => by simp, foldl_keeps Block.saved _ _ _ fun c h => by simp, foldl_keeps Block.control _ _ _ fun c h => by simp, foldl_keeps Block.custody _ _ _ fun c h => by simp, foldl_keeps Block.firmware _ _ _ fun c h => by simp, foldl_keeps Block.attest _ _ _ fun c h => by simp⟩

@[simp] theorem claimStreams_reg (b : Block) (y : Obj) : (b.claimStreams).reg y = b.reg y := by simp [reg]

@[simp] theorem deriveBase_keeps (b : Block) :
    (b.deriveBase).now = b.now ∧ (b.deriveBase).part = b.part ∧ (b.deriveBase).tables = b.tables ∧ (b.deriveBase).outs = b.outs ∧
    (b.deriveBase).free = b.free ∧ (b.deriveBase).fabric = b.fabric ∧ (b.deriveBase).faults = b.faults ∧ (b.deriveBase).can = b.can ∧
    (b.deriveBase).smb = b.smb ∧ (b.deriveBase).heads = b.heads ∧ (b.deriveBase).video = b.video ∧ (b.deriveBase).corr = b.corr ∧
    (b.deriveBase).stitch = b.stitch ∧ (b.deriveBase).illum = b.illum ∧ (b.deriveBase).capture = b.capture ∧ (b.deriveBase).axes = b.axes ∧
    (b.deriveBase).keystone = b.keystone ∧ (b.deriveBase).aux = b.aux ∧ (b.deriveBase).ring = b.ring ∧ (b.deriveBase).dma = b.dma ∧
    (b.deriveBase).mem = b.mem ∧ (b.deriveBase).host = b.host ∧ (b.deriveBase).power = b.power ∧ (b.deriveBase).thermal = b.thermal ∧
    (b.deriveBase).test = b.test ∧ (b.deriveBase).repair = b.repair ∧ (b.deriveBase).saved = b.saved ∧ (b.deriveBase).control = b.control ∧
    (b.deriveBase).custody = b.custody ∧ (b.deriveBase).firmware = b.firmware ∧ (b.deriveBase).attest = b.attest := by
  unfold deriveBase; simp only []; (repeat' split) <;> simp

@[simp] theorem functionStart_keeps (b : Block) :
    (b.functionStart).now = b.now ∧ (b.functionStart).part = b.part ∧ (b.functionStart).tables = b.tables ∧
    (b.functionStart).free = b.free ∧ (b.functionStart).fabric = b.fabric ∧ (b.functionStart).faults = b.faults ∧
    (b.functionStart).can = b.can ∧ (b.functionStart).smb = b.smb ∧ (b.functionStart).heads = b.heads ∧ (b.functionStart).video = b.video ∧
    (b.functionStart).corr = b.corr ∧ (b.functionStart).stitch = b.stitch ∧ (b.functionStart).illum = b.illum ∧
    (b.functionStart).capture = b.capture ∧ (b.functionStart).axes = b.axes ∧ (b.functionStart).keystone = b.keystone ∧
    (b.functionStart).aux = b.aux ∧ (b.functionStart).ring = b.ring ∧ (b.functionStart).mem = b.mem ∧ (b.functionStart).host = b.host ∧
    (b.functionStart).power = b.power ∧ (b.functionStart).thermal = b.thermal ∧ (b.functionStart).test = b.test ∧
    (b.functionStart).repair = b.repair ∧ (b.functionStart).saved = b.saved ∧ (b.functionStart).control = b.control ∧
    (b.functionStart).custody = b.custody ∧ (b.functionStart).firmware = b.firmware ∧ (b.functionStart).attest = b.attest := by
  unfold functionStart; simp only []; (repeat' split) <;> simp [pierFunctions]

@[simp] theorem stateFollow_keeps (b : Block) :
    (b.stateFollow).now = b.now ∧ (b.stateFollow).part = b.part ∧ (b.stateFollow).tables = b.tables ∧ (b.stateFollow).free = b.free ∧
    (b.stateFollow).faults = b.faults ∧ (b.stateFollow).can = b.can ∧ (b.stateFollow).heads = b.heads ∧ (b.stateFollow).video = b.video ∧
    (b.stateFollow).corr = b.corr ∧ (b.stateFollow).stitch = b.stitch ∧ (b.stateFollow).illum = b.illum ∧
    (b.stateFollow).capture = b.capture ∧ (b.stateFollow).axes = b.axes ∧ (b.stateFollow).keystone = b.keystone ∧
    (b.stateFollow).aux = b.aux ∧ (b.stateFollow).ring = b.ring ∧ (b.stateFollow).mem = b.mem ∧ (b.stateFollow).host = b.host ∧
    (b.stateFollow).thermal = b.thermal ∧ (b.stateFollow).test = b.test ∧ (b.stateFollow).repair = b.repair ∧
    (b.stateFollow).saved = b.saved ∧ (b.stateFollow).control = b.control ∧ (b.stateFollow).custody = b.custody ∧
    (b.stateFollow).firmware = b.firmware ∧ (b.stateFollow).attest = b.attest := by
  unfold stateFollow; simp only []; (repeat' split) <;> simp

/-- What ends every command leaves the heads, the capture buffer and every store but the registers. -/
@[simp] theorem finish_keeps (b : Block) :
    (b.finish).now = b.now ∧ (b.finish).part = b.part ∧ (b.finish).tables = b.tables ∧ (b.finish).heads = b.heads ∧
    (b.finish).video = b.video ∧ (b.finish).corr = b.corr ∧ (b.finish).stitch = b.stitch ∧ (b.finish).illum = b.illum ∧
    (b.finish).capture = b.capture ∧ (b.finish).aux = b.aux ∧ (b.finish).ring = b.ring ∧ (b.finish).mem = b.mem ∧ (b.finish).host = b.host ∧
    (b.finish).test = b.test ∧ (b.finish).repair = b.repair ∧ (b.finish).saved = b.saved ∧ (b.finish).control = b.control ∧
    (b.finish).custody = b.custody ∧ (b.finish).firmware = b.firmware ∧ (b.finish).attest = b.attest := by
  simp [finish]

/-! ## Registers -/

/-- The indices of the registers that what ends every command may set: the column base, the caps, the budget switch, the routes, the
node-ID, and the Keystone pause counters and park position. -/
def finishIndices : List Nat := [0x2002, 0x2003, 0x2230, 0x2506, 0x2605, 0x2701, 0x4163, 0x4164, 0x41E3, 0x41E4]

theorem key_ne {o y : Obj} (ho : o.sub < 256) (hy : y.sub < 256) (h : y.index ≠ o.index) : y.key ≠ o.key := by
  simp only [Obj.key]; omega

theorem reg_setReg_index (b : Block) (o y : Obj) (v : Nat) (ho : o.sub < 256) (hy : y.sub < 256) (h : y.index ≠ o.index) :
    (b.setReg o v).reg y = b.reg y := reg_setReg_ne _ _ _ _ (key_ne ho hy h)

theorem reg_setRegI_index (b : Block) (o y : Obj) (v : Int) (ho : o.sub < 256) (hy : y.sub < 256) (h : y.index ≠ o.index) :
    (b.setRegI o v).reg y = b.reg y := reg_setReg_index _ _ _ _ ho hy h

theorem reg_count_index (b : Block) (o y : Obj) (n : Nat) (ho : o.sub < 256) (hy : y.sub < 256) (h : y.index ≠ o.index) :
    (b.count o n).reg y = b.reg y := reg_setReg_index _ _ _ _ ho hy h

theorem reg_bump_index (b : Block) (o y : Obj) (ho : o.sub < 256) (hy : y.sub < 256) (h : y.index ≠ o.index) :
    (b.bump o).reg y = b.reg y := reg_setReg_index _ _ _ _ ho hy h

/-- What a setting of one of those registers leaves. -/
theorem outside {o y : Obj} (h : y.index ∉ finishIndices) (ho : o.index ∈ finishIndices) : y.index ≠ o.index := fun e => h (e ▸ ho)

theorem keystone_indices (a : AxisId) : (Obj.axisKeystonePauseTime a).index ∈ finishIndices ∧ (Obj.axisKeystoneParkPosition a).index ∈ finishIndices ∧
    (Obj.axisKeystonePauses a).index ∈ finishIndices ∧ (Obj.axisKeystoneAbortedRunups a).index ∈ finishIndices := by
  revert a; decide

/-- The park position is set in those registers alone. -/
theorem park_reg_index (a : AxisId) (v : Int) (b : Block) (y : Obj) (hy : y.sub < 256) (h : y.index ∉ finishIndices) :
    (b.setRegI (Obj.axisKeystoneParkPosition a) v).reg y = b.reg y :=
  reg_setRegI_index _ _ _ _ (show (Obj.axisKeystoneParkPosition a).sub < 256 by simp [Obj.axisKeystoneParkPosition]) hy
    (outside h (keystone_indices a).2.1)

theorem keyState_reg_index (a : AxisId) (s : Nat) (b : Block) (y : Obj) (hy : y.sub < 256) (h : y.index ∉ finishIndices) :
    (b.keyState a s).reg y = b.reg y := by
  unfold keyState; simp only []
  (repeat' split) <;> simp [reg_count_index _ _ _ _ (show (Obj.axisKeystonePauseTime a).sub < 256 by simp [Obj.axisKeystonePauseTime]) hy
    (outside h (keystone_indices a).1)]

theorem setPark_reg_index (a : AxisId) (p : Int) (v : Nat) (b : Block) (y : Obj) (hy : y.sub < 256) (h : y.index ∉ finishIndices) :
    (b.setPark a p v).reg y = b.reg y := by simp [setPark, park_reg_index _ _ _ _ hy h]

theorem noRoom_reg_index (a : AxisId) (b : Block) (y : Obj) (hy : y.sub < 256) (h : y.index ∉ finishIndices) :
    (b.noRoom a).reg y = b.reg y := by simp [noRoom, keyState_reg_index _ _ _ _ hy h]

theorem replan_reg_index (a : AxisId) (b : Block) (y : Obj) (hy : y.sub < 256) (h : y.index ∉ finishIndices) :
    (b.replan a).reg y = b.reg y := by
  unfold replan; simp only []
  (repeat' split) <;> simp [noRoom_reg_index _ _ _ hy h, setPark_reg_index _ _ _ _ _ hy h]

theorem keyPause_reg_index (a : AxisId) (r : Option Nat) (b : Block) (y : Obj) (hy : y.sub < 256) (h : y.index ∉ finishIndices) :
    (b.keyPause a r).reg y = b.reg y := by
  unfold keyPause; simp only []
  (repeat' split) <;> simp [keyState_reg_index _ _ _ _ hy h,
    reg_bump_index _ _ _ (show (Obj.axisKeystonePauses a).sub < 256 by simp [Obj.axisKeystonePauses]) hy (outside h (keystone_indices a).2.2.1),
    reg_bump_index _ _ _ (show (Obj.axisKeystoneAbortedRunups a).sub < 256 by simp [Obj.axisKeystoneAbortedRunups]) hy (outside h (keystone_indices a).2.2.2)]

theorem keyCap_reg_index (a : AxisId) (b : Block) (y : Obj) (hy : y.sub < 256) (h : y.index ∉ finishIndices) :
    (b.keyCap a).reg y = b.reg y := by
  unfold keyCap; (repeat' split) <;> simp [keyPause_reg_index _ _ _ _ hy h, replan_reg_index _ _ _ hy h]

theorem keyFollow_reg_index (b : Block) (y : Obj) (hy : y.sub < 256) (h : y.index ∉ finishIndices) :
    (b.keyFollow).reg y = b.reg y := by
  unfold keyFollow; simp only []; (repeat' split) <;> simp [keyCap_reg_index _ _ _ hy h]

theorem capChanged_reg_index (t : Time) (p v : Nat) (b : Block) (y : Obj) (hy : y.sub < 256) (h : y.index ∉ finishIndices) :
    (b.capChanged t p v).reg y = b.reg y := by
  unfold capChanged; simp only []
  split
  · rfl
  · exact reg_setReg_index _ _ _ _ (by decide) hy (outside h (by decide))

theorem capFollow_reg_index (b : Block) (y : Obj) (hy : y.sub < 256) (h : y.index ∉ finishIndices) :
    (b.capFollow).reg y = b.reg y := by
  have k : ∀ v, (b.setReg Obj.thermalLocalCap v).reg y = b.reg y := fun v =>
    reg_setReg_index b Obj.thermalLocalCap y v (by decide) hy (outside h (by decide))
  unfold capFollow; simp only []
  (repeat' split)
  all_goals first | exact k _ | (rw [capChanged_reg_index _ _ _ _ _ hy h, sendRing_reg, alert_reg]; exact k _)

theorem reroute_reg_index (b : Block) (y : Obj) (hy : y.sub < 256) (h : y.index ∉ finishIndices) :
    (b.reroute).reg y = b.reg y := by
  unfold reroute
  refine foldl_keeps (fun c => c.reg y) _ _ _ fun c g => ?_
  have hs : ∀ (o : Obj) (v : Nat) (c : Block), o.sub < 256 → o.index ∈ finishIndices → (c.setReg o v).reg y = c.reg y :=
    fun o v c ho hi => reg_setReg_index _ _ _ _ ho hy (outside h hi)
  have k : ∀ g : HeadId, (Obj.ringRouteAbutment g).sub < 256 ∧ (Obj.ringRouteSpan g).sub < 256 ∧ (Obj.ringRouteAbutmentInForce g).sub < 256 ∧
      (Obj.ringRouteSpanInForce g).sub < 256 := by decide
  obtain ⟨k1, k2, k3, k4⟩ := k g
  have i1 : (0x2605 : Nat) ∈ finishIndices := by decide
  dsimp only
  (repeat' split) <;> simp [hs _ _ _ k1 i1, hs _ _ _ k2 i1, hs _ _ _ k3 i1, hs _ _ _ k4 i1]

theorem deriveBase_reg_index (b : Block) (y : Obj) (hy : y.sub < 256) (h : y.index ∉ finishIndices) :
    (b.deriveBase).reg y = b.reg y := by
  unfold deriveBase; simp only []; split
  · rfl
  · exact reg_setReg_index _ _ _ _ (by decide) hy (outside h (by decide))

theorem functionStart_reg_index (b : Block) (y : Obj) (hy : y.sub < 256) (h : y.index ∉ finishIndices) :
    (b.functionStart).reg y = b.reg y := by
  unfold functionStart; simp only []
  have c : ∀ x : Block, (x.claimStreams).reg y = x.reg y := fun x => by simp [reg]
  have d : (pierFunctions.foldl (fun (b : Block) f => b.emit (.starting f)) b).reg y = b.reg y := by simp [pierFunctions]
  have k : ∀ (x : Block) (o : Obj) (v : Nat), o.sub < 256 → o.index ∈ finishIndices → (x.setReg o v).reg y = x.reg y :=
    fun x o v ho hi => reg_setReg_index _ _ _ _ ho hy (outside h hi)
  rw [c, reroute_reg_index _ _ hy h]
  (repeat' split) <;> simp [k _ Obj.bufferBudgetEnforce _ (by decide) (by decide), k _ Obj.canNodeId _ (by decide) (by decide),
    deriveBase_reg_index _ _ hy h, d]

theorem stateFollow_reg_index (b : Block) (y : Obj) (hy : y.sub < 256) (h : y.index ∉ finishIndices) :
    (b.stateFollow).reg y = b.reg y := by
  unfold stateFollow; simp only []
  (repeat' split)
  · rfl
  · rw [functionStart_reg_index _ _ hy h, alert_reg]; rfl
  · rw [alert_reg]; rfl

/-- What ends every command leaves every register outside the indices above. -/
theorem finish_reg_index (b : Block) (y : Obj) (hy : y.sub < 256) (h : y.index ∉ finishIndices) :
    (b.finish).reg y = b.reg y := by
  unfold finish
  rw [settle_reg, writeFaults_reg, keyFollow_reg_index _ _ hy h, capFollow_reg_index _ _ hy h, stateFollow_reg_index _ _ hy h]

/-! ## Outputs: what has left the pier stays in the record of the command -/

theorem foldl_outs {α : Type} (f : Block → α → Block) (l : List α) (b : Block) (h : ∀ c x, ∀ o ∈ c.outs, o ∈ (f c x).outs) :
    ∀ o ∈ b.outs, o ∈ (l.foldl f b).outs := by
  induction l generalizing b with
  | nil => exact fun o ho => ho
  | cons x l ih => exact fun o ho => ih _ o (h b x o ho)

theorem raiseIf_outs (c : Bool) (n : Nat) (b : Block) : ∀ o ∈ b.outs, o ∈ (b.raiseIf c n).outs := by
  unfold raiseIf; split <;> intro o ho <;> simp [ho]

theorem alert_outs (i : Nat) (b : Block) : ∀ o ∈ b.outs, o ∈ (b.alert i).outs := by
  unfold alert; simp only []
  (repeat' split) <;> intro o ho
  · exact ho
  · exact raiseIf_outs _ _ _ o ho
  · exact ho

theorem emcyNow_outs (m : Emcy) (b : Block) : ∀ o ∈ b.outs, o ∈ (b.emcyNow m).outs := by
  intro o ho; simp [emcyNow, ho]

theorem emcy_outs (m : Emcy) (b : Block) : ∀ o ∈ b.outs, o ∈ (b.emcy m).outs := by
  unfold emcy; (repeat' split) <;> intro o ho <;> first | exact ho | exact emcyNow_outs _ _ o ho

theorem emcyCause_outs (k n e s : Nat) (b : Block) : ∀ o ∈ b.outs, o ∈ (b.emcyCause k n e s).outs := by
  intro o ho; exact emcy_outs _ _ o ho

theorem writeFault_outs (e : FaultEntry) (b : Block) : ∀ o ∈ b.outs, o ∈ (b.writeFault e).outs := by
  intro o ho; exact emcyCause_outs _ _ _ _ _ o (alert_outs _ _ o ho)

theorem writeFaults_outs (b : Block) : ∀ o ∈ b.outs, o ∈ (b.writeFaults).outs := by
  intro o ho; exact foldl_outs _ _ _ (fun c e => writeFault_outs e c) o ho

theorem latchTask_outs (n : Nat) (b : Block) : ∀ o ∈ b.outs, o ∈ (b.latchTask n).outs := by
  unfold latchTask; simp only []; split <;> exact fun o ho => ho

theorem relayInput_outs (r : Nat) (i j : Bool) (b : Block) : ∀ o ∈ b.outs, o ∈ (b.relayInput r i j).outs := by
  intro o ho; exact raiseIf_outs _ _ _ o ho

theorem deliver_outs (s : Nat) (b : Block) : ∀ o ∈ b.outs, o ∈ (b.deliver s).outs := by
  intro o ho
  refine foldl_outs _ _ _ (fun c n => latchTask_outs n c) o (foldl_outs _ _ _ (fun c n o ho => ?_) o ho)
  dsimp only; split
  · exact relayInput_outs _ _ _ _ o ho
  · exact ho

theorem stormTrip_outs (s : Nat) (b : Block) : ∀ o ∈ b.outs, o ∈ (b.stormTrip s).outs := by
  intro o ho; simp only [stormTrip, raise_outs, List.mem_append]; exact Or.inl (writeFaults_outs _ o (by simpa using ho))

theorem routeEvent_outs (s : Nat) (b : Block) : ∀ o ∈ b.outs, o ∈ (b.routeEvent s).outs := by
  intro o ho
  have d : ∀ c : Block, o ∈ c.outs → o ∈ (c.deliver s).outs := fun c h => deliver_outs s c o h
  have u : o ∈ (b.stormTrip s).used.outs := by simpa using stormTrip_outs s b o ho
  unfold routeEvent; simp only []
  split
  · exact ho
  · split
    · split
      · exact ho
      · split
        · exact d _ (by simpa using ho)
        · simpa using ho
    · split
      · split
        · exact d _ (by simpa using ho)
        · split
          · split
            · exact d _ u
            · exact u
          · exact d _ (by simpa using ho)
      · exact d _ (by simpa using ho)

theorem route_outs (n : Nat) (b : Block) : ∀ o ∈ b.outs, o ∈ (route n b).outs := by
  induction n generalizing b with
  | zero => exact fun o ho => ho
  | succ n ih =>
    unfold route; split
    · exact fun o ho => ho
    · exact fun o ho => ih _ o (routeEvent_outs _ _ o ho)

theorem keyState_outs (a : AxisId) (s : Nat) (b : Block) : ∀ o ∈ b.outs, o ∈ (b.keyState a s).outs := by
  unfold keyState; simp only []; (repeat' split) <;> intro o ho <;> simp [ho]

theorem noRoom_outs (a : AxisId) (b : Block) : ∀ o ∈ b.outs, o ∈ (b.noRoom a).outs := fun o ho => keyState_outs _ _ _ o ho

theorem sendToPark_outs (a : AxisId) (s : Nat) (b : Block) : ∀ o ∈ b.outs, o ∈ (b.sendToPark a s).outs := by
  unfold sendToPark; split <;> intro o ho
  · exact noRoom_outs _ _ o ho
  · simpa using keyState_outs _ _ _ o ho

theorem replan_outs (a : AxisId) (b : Block) : ∀ o ∈ b.outs, o ∈ (b.replan a).outs := by
  unfold replan; simp only []; (repeat' split) <;> intro o ho <;> first | exact ho | exact noRoom_outs _ _ o ho

theorem keyPause_outs (a : AxisId) (r : Option Nat) (b : Block) : ∀ o ∈ b.outs, o ∈ (b.keyPause a r).outs := by
  intro o ho
  have k : ∀ c : Block, c.outs = b.outs → o ∈ (c.keyState a 4).outs := fun c hc => keyState_outs _ _ _ o (hc ▸ ho)
  unfold keyPause; simp only []
  (repeat' split) <;> simp [keyEvent, ho] <;> exact Or.inl (k _ rfl)

theorem keyCap_outs (a : AxisId) (b : Block) : ∀ o ∈ b.outs, o ∈ (b.keyCap a).outs := by
  unfold keyCap
  (repeat' split) <;> intro o ho <;> first | exact ho | exact keyPause_outs _ _ _ o ho | exact replan_outs _ _ o ho

theorem keyFollow_outs (b : Block) : ∀ o ∈ b.outs, o ∈ (b.keyFollow).outs := by
  unfold keyFollow; simp only []; (repeat' split) <;> intro o ho <;> first | exact ho | exact keyCap_outs _ _ o ho

theorem capFollow_outs (b : Block) : ∀ o ∈ b.outs, o ∈ (b.capFollow).outs := by
  unfold capFollow; simp only []; (repeat' split) <;> intro o ho
  all_goals first
    | exact ho
    | simpa using ho
    | (rw [(capChanged_keeps _ _ _ _).2.2.2.1, sendRing_outs]; exact List.mem_append_left _ (alert_outs _ _ o (by simpa using ho)))

theorem functionStart_outs (b : Block) : ∀ o ∈ b.outs, o ∈ (b.functionStart).outs := by
  unfold functionStart; simp only []
  intro o ho
  (repeat' split) <;> simp [pierFunctions, ho]

theorem stateFollow_outs (b : Block) : ∀ o ∈ b.outs, o ∈ (b.stateFollow).outs := by
  unfold stateFollow; simp only []; (repeat' split) <;> intro o ho
  · exact ho
  · exact functionStart_outs _ o (alert_outs _ _ o ho)
  · exact alert_outs _ _ o ho

/-- What left the pier during a command is in the record of its end. -/
theorem finish_outs (b : Block) : ∀ o ∈ b.outs, o ∈ (b.finish).outs := by
  intro o ho; exact route_outs _ _ o (writeFaults_outs _ o (keyFollow_outs _ o (capFollow_outs _ o (stateFollow_outs _ o ho))))

end Sys2Proof.Machine.Block
end

