-- ==== Sys2Proof/Laws/Dictionary.lean ====
section
/-! SUPPORT. What a dictionary write comes to: an accepted one does what its object asks for, a refused one leaves its code. -/
namespace Sys2Proof.Machine

theorem leBytes_length (n v : Nat) : (leBytes n v).length = n := by
  induction n generalizing v with
  | zero => rfl
  | succ n ih => simp [leBytes, ih]

/-- The number that n bytes spell is the number cut to them. -/
theorem leNat_leBytes (n v : Nat) : leNat (leBytes n v) = v % 256 ^ n := by
  induction n generalizing v with
  | zero => simp [leBytes, leNat, Nat.mod_one]
  | succ n ih =>
    simp only [leBytes, leNat, ih, BitVec.toNat_ofNat]
    rw [show (256 : Nat) ^ (n + 1) = 256 * 256 ^ n from Nat.pow_succ' .., Nat.mod_mul]

namespace Block

theorem firstCode_eq_none {l : List AbortCode} : firstCode l = none ↔ l = [] := by
  cases l with
  | nil => simp [firstCode]
  | cons c l => simp only [firstCode, reduceCtorEq, iff_false]; cases firstCode l <;> simp; split <;> simp

/-- An accepted write does what its object asks for, or stores the value and answers. -/
theorem dictWrite_of_accepts {e : Env} {r : Route} {index sub : Nat} {data : List Byte} {b : Block} {row : Row}
    (hr : findRow index sub = some row) (h : b.accepts e r index sub data = true) :
    b.dictWrite e r index sub data = (b.writeDo e r index sub (leNat data)).getD ((b.storeFor r (row.obj index sub) (leNat data)).reply r .ok) := by
  simp only [accepts, hr, Bool.and_eq_true, bne_iff_ne, ne_eq, List.isEmpty_iff] at h
  obtain ⟨hs, hb, hc⟩ := h
  simp [dictWrite, dictWriteAt, hs, hr, hb, writeNumber, hc, firstCode]

/-- An object that an accepted write names has a row. -/
theorem row_of_accepts {e : Env} {r : Route} {index sub : Nat} {data : List Byte} {b : Block} (h : b.accepts e r index sub data = true) :
    ∃ row, findRow index sub = some row := by
  unfold accepts at h
  cases hr : findRow index sub with
  | none => simp [hr] at h
  | some row => exact ⟨row, rfl⟩

/-- An accepted write of an action does the action. -/
theorem writeTo_of_accepts {e : Env} {r : Route} {o : Obj} {v : Nat} {b c : Block} (h : b.acceptsObj e r o v = true)
    (hc : b.writeDo e r o.index o.sub (v % 256 ^ (o.ty.bits / 8)) = some c) : b.writeTo o v r e = c := by
  obtain ⟨row, hr⟩ := row_of_accepts h
  rw [writeTo, dictWrite_of_accepts hr h, leNat_leBytes, hc]; rfl

end Block
end Sys2Proof.Machine
end

