-- ==== Sys2Proof/Laws/Leaves.lean ====
section
/-! SUPPORT. Frames compose: what each shared operation adds to what a command may change. -/
namespace Sys2Proof.Machine.Block

variable {P : List Piece} {R : List Obj} {b n : Block}

theorem Leaves.refl (P : List Piece) (R : List Obj) (b : Block) : Leaves P R b b := by constructor <;> intros <;> rfl

theorem Leaves.trans {c : Block} (h : Leaves P R b n) (g : Leaves P R n c) : Leaves P R b c := by
  constructor
  · rw [g.now, h.now]
  · rw [g.part, h.part]
  · intro o ho; rw [g.reg o ho, h.reg o ho]
  · intro hp; rw [g.fabric hp, h.fabric hp]
  · intro hp; rw [g.tables hp, h.tables hp]
  · intro hp; rw [g.faults hp, h.faults hp]
  · intro hp; rw [g.can hp, h.can hp]
  · intro hp; rw [g.smb hp, h.smb hp]
  · intro hp; rw [g.capture hp, h.capture hp]
  · intro hp; rw [g.keystone hp, h.keystone hp]
  · intro hp; rw [g.aux hp, h.aux hp]
  · intro hp; rw [g.ring hp, h.ring hp]
  · intro hp; rw [g.dma hp, h.dma hp]
  · intro hp; rw [g.mem hp, h.mem hp]
  · intro hp; rw [g.host hp, h.host hp]
  · intro hp; rw [g.power hp, h.power hp]
  · intro hp; rw [g.thermal hp, h.thermal hp]
  · intro hp; rw [g.test hp, h.test hp]
  · intro hp; rw [g.repair hp, h.repair hp]
  · intro hp; rw [g.saved hp, h.saved hp]
  · intro hp; rw [g.control hp, h.control hp]
  · intro hp; rw [g.custody hp, h.custody hp]
  · intro hp; rw [g.firmware hp, h.firmware hp]
  · intro hp; rw [g.attest hp, h.attest hp]
  · intro x hp; rw [g.heads x hp, h.heads x hp]
  · intro x hp; rw [g.video x hp, h.video x hp]
  · intro x hp; rw [g.corr x hp, h.corr x hp]
  · intro x hp; rw [g.stitch x hp, h.stitch x hp]
  · intro x hp; rw [g.illum x hp, h.illum x hp]
  · intro x hp; rw [g.axes x hp, h.axes x hp]

theorem Leaves.setReg (h : Leaves P R b n) (o : Obj) (v : Nat) (ho : o ∈ R) : Leaves P R b (n.setReg o v) :=
  { h with reg := fun y hy => by rw [reg_setReg_ne _ _ _ _ (hy o ho)]; exact h.reg y hy }

theorem Leaves.setRegI (h : Leaves P R b n) (o : Obj) (v : Int) (ho : o ∈ R) : Leaves P R b (n.setRegI o v) := h.setReg o _ ho
theorem Leaves.count (h : Leaves P R b n) (o : Obj) (v : Nat) (ho : o ∈ R) : Leaves P R b (n.count o v) := h.setReg o _ ho
theorem Leaves.bump (h : Leaves P R b n) (o : Obj) (ho : o ∈ R) : Leaves P R b (n.bump o) := h.setReg o _ ho
theorem Leaves.raise (h : Leaves P R b n) (k : Nat) : Leaves P R b (n.raise k) := { h with fabric := fun hp => h.fabric hp }
theorem Leaves.raiseIf (h : Leaves P R b n) (c : Bool) (k : Nat) : Leaves P R b (n.raiseIf c k) := by
  cases c
  · exact h
  · exact h.raise k
theorem Leaves.emit (h : Leaves P R b n) (x : Out) : Leaves P R b (n.emit x) := { h with }
theorem Leaves.sendRing (h : Leaves P R b n) (m : RingMsg) : Leaves P R b (n.sendRing m) := { h with }
theorem Leaves.used (h : Leaves P R b n) : Leaves P R b n.used := { h with }
theorem Leaves.unlatch (h : Leaves P R b n) (k : Nat) (hp : Piece.fabric ∈ P) : Leaves P R b (n.unlatch k) := { h with fabric := fun q => absurd hp q }

theorem Leaves.modHead (h : Leaves P R b n) (x : HeadId) (f : Head → Head) (hp : Piece.head x ∈ P) : Leaves P R b (n.modHead x f) :=
  { h with heads := fun y hy => by
              have : (x : Nat) ≠ y := fun e => hy (by rw [← Fin.ext e]; exact hp)
              have e := h.heads y hy
              simpa [Block.modHead, Vector.getElem_set, this] using e }

theorem Leaves.modVideo (h : Leaves P R b n) (x : HeadId) (f : VideoState → VideoState) (hp : Piece.video x ∈ P) : Leaves P R b (n.modVideo x f) :=
  { h with video := fun y hy => by
              have : (x : Nat) ≠ y := fun e => hy (by rw [← Fin.ext e]; exact hp)
              have e := h.video y hy
              simpa [Block.modVideo, Vector.getElem_set, this] using e }

theorem Leaves.modCorr (h : Leaves P R b n) (x : HeadId) (f : Corr → Corr) (hp : Piece.corr x ∈ P) : Leaves P R b (n.modCorr x f) :=
  { h with corr := fun y hy => by
              have : (x : Nat) ≠ y := fun e => hy (by rw [← Fin.ext e]; exact hp)
              have e := h.corr y hy
              simpa [Block.modCorr, Vector.getElem_set, this] using e }

theorem Leaves.modStitch (h : Leaves P R b n) (x : HeadId) (f : Stitch → Stitch) (hp : Piece.stitch x ∈ P) : Leaves P R b (n.modStitch x f) :=
  { h with stitch := fun y hy => by
              have : (x : Nat) ≠ y := fun e => hy (by rw [← Fin.ext e]; exact hp)
              have e := h.stitch y hy
              simpa [Block.modStitch, Vector.getElem_set, this] using e }

theorem Leaves.modIllum (h : Leaves P R b n) (x : HeadId) (f : Illum → Illum) (hp : Piece.illum x ∈ P) : Leaves P R b (n.modIllum x f) :=
  { h with illum := fun y hy => by
              have : (x : Nat) ≠ y := fun e => hy (by rw [← Fin.ext e]; exact hp)
              have e := h.illum y hy
              simpa [Block.modIllum, Vector.getElem_set, this] using e }

theorem Leaves.modAxis (h : Leaves P R b n) (x : AxisId) (f : Axis → Axis) (hp : Piece.axis x ∈ P) : Leaves P R b (n.modAxis x f) :=
  { h with axes := fun y hy => by
              have : (x : Nat) ≠ y := fun e => hy (by rw [← Fin.ext e]; exact hp)
              have e := h.axes y hy
              simpa [Block.modAxis, Vector.getElem_set, this] using e }

theorem Leaves.modCapture (h : Leaves P R b n) (f : Capture → Capture) (hp : Piece.capture ∈ P) : Leaves P R b (n.modCapture f) :=
  { h with capture := fun q => absurd hp q }
theorem Leaves.modPart (h : Leaves P R b n) (x : HeadId) (f : Partition → Partition) (hp : Piece.capture ∈ P) : Leaves P R b (n.modPart x f) :=
  { h with capture := fun q => absurd hp q }
theorem Leaves.modKey (h : Leaves P R b n) (f : Keystone → Keystone) (hp : Piece.keystone ∈ P) : Leaves P R b (n.modKey f) :=
  { h with keystone := fun q => absurd hp q }
theorem Leaves.modAux (h : Leaves P R b n) (f : Aux → Aux) (hp : Piece.aux ∈ P) : Leaves P R b (n.modAux f) :=
  { h with aux := fun q => absurd hp q }
theorem Leaves.modChannel (h : Leaves P R b n) (x : AuxId) (f : AuxChannel → AuxChannel) (hp : Piece.aux ∈ P) : Leaves P R b (n.modChannel x f) :=
  { h with aux := fun q => absurd hp q }
theorem Leaves.modLane (h : Leaves P R b n) (x : Fin 2) (f : Lane → Lane) (hp : Piece.aux ∈ P) : Leaves P R b (n.modLane x f) :=
  { h with aux := fun q => absurd hp q }
theorem Leaves.modRing (h : Leaves P R b n) (f : Ring → Ring) (hp : Piece.ring ∈ P) : Leaves P R b (n.modRing f) :=
  { h with ring := fun q => absurd hp q }
theorem Leaves.modSpan (h : Leaves P R b n) (x : SpanId) (f : Span → Span) (hp : Piece.ring ∈ P) : Leaves P R b (n.modSpan x f) :=
  { h with ring := fun q => absurd hp q }
theorem Leaves.modDma (h : Leaves P R b n) (x : ChanId) (f : DmaChannel → DmaChannel) (hp : Piece.dma ∈ P) : Leaves P R b (n.modDma x f) :=
  { h with dma := fun q => absurd hp q }
theorem Leaves.modHost (h : Leaves P R b n) (f : HostPort → HostPort) (hp : Piece.host ∈ P) : Leaves P R b (n.modHost f) :=
  { h with host := fun q => absurd hp q }
theorem Leaves.modQueue (h : Leaves P R b n) (x : QueueId) (f : Queue → Queue) (hp : Piece.host ∈ P) : Leaves P R b (n.modQueue x f) :=
  { h with host := fun q => absurd hp q }
theorem Leaves.modSlot (h : Leaves P R b n) (x : SlotId) (f : MailSlot → MailSlot) (hp : Piece.host ∈ P) : Leaves P R b (n.modSlot x f) :=
  { h with host := fun q => absurd hp q }
theorem Leaves.modCan (h : Leaves P R b n) (f : Can → Can) (hp : Piece.can ∈ P) : Leaves P R b (n.modCan f) :=
  { h with can := fun q => absurd hp q }
theorem Leaves.modTpdo (h : Leaves P R b n) (x : Fin 8) (f : TpdoState → TpdoState) (hp : Piece.can ∈ P) : Leaves P R b (n.modTpdo x f) :=
  { h with can := fun q => absurd hp q }
theorem Leaves.modSmb (h : Leaves P R b n) (f : Smb → Smb) (hp : Piece.smb ∈ P) : Leaves P R b (n.modSmb f) :=
  { h with smb := fun q => absurd hp q }
theorem Leaves.modControl (h : Leaves P R b n) (f : Control → Control) (hp : Piece.control ∈ P) : Leaves P R b (n.modControl f) :=
  { h with control := fun q => absurd hp q }
theorem Leaves.modCustody (h : Leaves P R b n) (f : Custody → Custody) (hp : Piece.custody ∈ P) : Leaves P R b (n.modCustody f) :=
  { h with custody := fun q => absurd hp q }
theorem Leaves.modFirmware (h : Leaves P R b n) (f : Firmware → Firmware) (hp : Piece.firmware ∈ P) : Leaves P R b (n.modFirmware f) :=
  { h with firmware := fun q => absurd hp q }
theorem Leaves.modSlotFw (h : Leaves P R b n) (x : Fin 2) (f : FwSlot → FwSlot) (hp : Piece.firmware ∈ P) : Leaves P R b (n.modSlotFw x f) :=
  { h with firmware := fun q => absurd hp q }
theorem Leaves.modPower (h : Leaves P R b n) (f : Power → Power) (hp : Piece.power ∈ P) : Leaves P R b (n.modPower f) :=
  { h with power := fun q => absurd hp q }
theorem Leaves.modTest (h : Leaves P R b n) (f : Test → Test) (hp : Piece.test ∈ P) : Leaves P R b (n.modTest f) :=
  { h with test := fun q => absurd hp q }
theorem Leaves.modRepair (h : Leaves P R b n) (f : Repair → Repair) (hp : Piece.repair ∈ P) : Leaves P R b (n.modRepair f) :=
  { h with repair := fun q => absurd hp q }
theorem Leaves.modTimer (h : Leaves P R b n) (x : TimerId) (f : TimerUnit → TimerUnit) (hp : Piece.fabric ∈ P) : Leaves P R b (n.modTimer x f) :=
  { h with fabric := fun q => absurd hp q }
theorem Leaves.memWrite (h : Leaves P R b n) (a : Nat) (l : List Byte) (hp : Piece.mem ∈ P) : Leaves P R b (n.memWrite a l) :=
  { h with mem := fun q => absurd hp q }
theorem Leaves.setTable (h : Leaves P R b n) (k : Nat) (l : List Byte) (hp : Piece.tables ∈ P) : Leaves P R b (n.setTable k l) :=
  { h with tables := fun q => absurd hp q }

/-- A fold of operations leaves what each leaves. -/
theorem Leaves.foldl {α : Type} (h : Leaves P R b n) (f : Block → α → Block) (l : List α) (hf : ∀ c x, x ∈ l → Leaves P R c (f c x)) :
    Leaves P R b (l.foldl f n) := by
  induction l generalizing n with
  | nil => exact h
  | cons x l ih => exact ih (h.trans (hf n x (by simp))) fun c y hy => hf c y (by simp [hy])

/-- An operation that leaves a part or a register leaves it after what came before it. -/
theorem Leaves.of_part {Q : List Piece} {S : List Obj} {c : Block} (h : Leaves P R b n) (g : Leaves Q S n c) (hq : Q ⊆ P) (hs : S ⊆ R) :
    Leaves P R b c :=
  h.trans { g with
    reg := fun o ho => g.reg o fun x hx => ho x (hs hx)
    fabric := fun q => g.fabric fun z => q (hq z)
    tables := fun q => g.tables fun z => q (hq z)
    faults := fun q => g.faults fun z => q (hq z)
    can := fun q => g.can fun z => q (hq z)
    smb := fun q => g.smb fun z => q (hq z)
    capture := fun q => g.capture fun z => q (hq z)
    keystone := fun q => g.keystone fun z => q (hq z)
    aux := fun q => g.aux fun z => q (hq z)
    ring := fun q => g.ring fun z => q (hq z)
    dma := fun q => g.dma fun z => q (hq z)
    mem := fun q => g.mem fun z => q (hq z)
    host := fun q => g.host fun z => q (hq z)
    power := fun q => g.power fun z => q (hq z)
    thermal := fun q => g.thermal fun z => q (hq z)
    test := fun q => g.test fun z => q (hq z)
    repair := fun q => g.repair fun z => q (hq z)
    saved := fun q => g.saved fun z => q (hq z)
    control := fun q => g.control fun z => q (hq z)
    custody := fun q => g.custody fun z => q (hq z)
    firmware := fun q => g.firmware fun z => q (hq z)
    attest := fun q => g.attest fun z => q (hq z)
    heads := fun x q => g.heads x fun z => q (hq z)
    video := fun x q => g.video x fun z => q (hq z)
    corr := fun x q => g.corr x fun z => q (hq z)
    stitch := fun x q => g.stitch x fun z => q (hq z)
    illum := fun x q => g.illum x fun z => q (hq z)
    axes := fun x q => g.axes x fun z => q (hq z) }

/-- An answer on a route of the mailbox, of SMBus or of CAN touches that port alone. -/
theorem leaves_reply (r : Route) (res : Result) (b : Block) : Leaves [.host, .smb, .can] [] b (b.reply r res) := by
  cases r <;> constructor <;> intros <;> first | rfl | (exfalso; simp_all)

theorem leaves_answered (r : Option Route) (res : Result) (b : Block) : Leaves [.host, .smb, .can] [] b (b.answered r res) := by
  cases r with
  | none => exact .refl _ _ _
  | some r => exact leaves_reply r res b

theorem leaves_replyVia (v : Via) (res : Result) (b : Block) : Leaves [.host, .smb, .can] [] b (b.replyVia v res) := by
  cases v with
  | write r => exact leaves_reply r res b
  | task _ => exact .refl _ _ _

/-- Two piers that agree but for P and R still do once both have answered the same. -/
theorem Leaves.reply (h : Leaves P R b n) (r : Route) (res : Result) : Leaves P R (b.reply r res) (n.reply r res) := by
  cases r with
  | mailbox s => exact { h with host := fun q => by simp only [Block.reply, answerSlot, emit_host, h.host q] }
  | smbus => exact { h with smb := fun q => by simp only [Block.reply, answerSmb, emit_smb, h.smb q, emit_now, h.now] }
  | can c => exact { h with can := fun q => by simp only [Block.reply, emit_can, h.can q] }
  | tunnel _ => exact { h with }

theorem Leaves.answered (h : Leaves P R b n) (r : Option Route) (res : Result) : Leaves P R (b.answered r res) (n.answered r res) := by
  cases r with
  | none => exact h
  | some r => exact h.reply r res

/-- A request by task clears the task's latch. -/
theorem leaves_cleared (r : Option Route) (task : Nat) (b : Block) : Leaves [.fabric] [] b (b.cleared r task) := by
  cases r with
  | none => exact (Leaves.refl _ _ b).unlatch task (by simp)
  | some _ => exact .refl _ _ _

theorem leaves_alert (i : Nat) (b : Block) : Leaves [.smb] [] b (b.alert i) := by
  unfold alert; dsimp only; (repeat' split) <;> (try unfold Block.raiseIf) <;> (repeat' split) <;> constructor <;> intros <;>
    first | rfl | (exfalso; simp_all)

theorem leaves_emcyNow (m : Emcy) (b : Block) : Leaves [.can] [] b (b.emcyNow m) := by
  unfold emcyNow; constructor <;> intros <;> first | rfl | (exfalso; simp_all)

theorem leaves_emcy (m : Emcy) (b : Block) : Leaves [.can] [] b (b.emcy m) := by
  unfold emcy; (repeat' split)
  · exact .refl _ _ _
  · exact leaves_emcyNow m b
  · exact leaves_emcyNow m b
  all_goals constructor <;> intros <;> first | rfl | (exfalso; simp_all)

theorem leaves_emcyCause (k i e s : Nat) (b : Block) : Leaves [.can] [] b (b.emcyCause k i e s) :=
  ((Leaves.refl _ _ b).modCan (fun c => { c with errorRegister := setBit (setBit c.errorRegister i) 0 }) (by simp)).trans (leaves_emcy _ _)

theorem leaves_emcyClear (i : Nat) (b : Block) : Leaves [.can] [] b (b.emcyClear i) := by
  unfold emcyClear
  split
  · dsimp only
    (repeat' split) <;> exact Leaves.trans (n := _) (by constructor <;> intros <;> first | rfl | (exfalso; simp_all)) (leaves_emcy _ _)
  · exact .refl _ _ _

theorem Leaves.faultLog (h : Leaves P R b n) (f : FaultLog) (hp : Piece.faults ∈ P) : Leaves P R b { n with faults := f } :=
  { h with faults := fun q => absurd hp q }

theorem leaves_logFault (k u d s : Nat) (b : Block) : Leaves [.faults] [] b (b.logFault k u d s) := by
  unfold logFault; dsimp only; split <;> exact (Leaves.refl _ _ b).faultLog _ (by simp)

end Sys2Proof.Machine.Block
end

