-- ==== Sys2Proof/Laws/Tasks.lean ====
section
/-! SUPPORT. What a command comes to: the pier its meaning makes, tasks sampled alone, and the indices of heads and axes. -/
namespace Sys2Proof
open Machine

theorem does_of_run {i : Instr} {s : State} {t : Time} {f : Block → Block} {b : Block} (h : exec i s = run t f s) (hb : f (s.b.at_ t) = b) :
    Does i s b := by
  unfold Does; rw [h, run, hb]

theorem ends_of_run {i : Instr} {s : State} {t : Time} {f : Block → Block} {p : Block → Prop} (h : exec i s = run t f s)
    (hb : p (f (s.b.at_ t)).finish) : Ends i s p := ⟨_, h, rfl, hb⟩

namespace Machine

/-! ## Indices -/

theorem headIndex_of (h : HeadId) (i : Nat) (hi : i < 0x400) : headIndex (0x3000 + i + 0x400 * h.val) = some (h, 0x3000 + i) := by
  unfold headIndex
  rw [if_pos (by omega)]
  have h1 : (0x3000 + i + 0x400 * h.val - 0x3000) / 0x400 = h.val := by omega
  have h2 : (0x3000 + i + 0x400 * h.val - 0x3000) % 0x400 = i := by omega
  rw [h1, h2]
  simp [Fin.ofNat_eq_cast]

theorem axisIndex_of (a : AxisId) (i : Nat) (hi : i < 0x80) : axisIndex (0x4100 + i + 0x80 * a.val) = some (a, 0x4100 + i) := by
  unfold axisIndex
  rw [if_pos (by omega)]
  have h1 : (0x4100 + i + 0x80 * a.val - 0x4100) / 0x80 = a.val := by omega
  have h2 : (0x4100 + i + 0x80 * a.val - 0x4100) % 0x80 = i := by omega
  rw [h1, h2]
  simp [Fin.ofNat_eq_cast]

theorem headIndex_low (i : Nat) (hi : i < 0x3000 ∨ 0x4000 ≤ i) : headIndex i = none := by unfold headIndex; rw [if_neg (by omega)]
theorem axisIndex_other (i : Nat) (hi : i < 0x4100 ∨ 0x4200 ≤ i) : axisIndex i = none := by unfold axisIndex; rw [if_neg (by omega)]

namespace Block

/-- A write to a head's object does what the head does with it. -/
theorem writeDo_head (e : Env) (r : Route) (h : HeadId) (i sub v : Nat) (b : Block) (hi : i < 0x400) :
    b.writeDo e r (0x3000 + i + 0x400 * h.val) sub v = b.headDo e r h (0x3000 + i) sub v := by simp only [writeDo, headIndex_of h i hi]

theorem writeDo_axis (e : Env) (r : Route) (a : AxisId) (i sub v : Nat) (b : Block) (hi : i < 0x80) :
    b.writeDo e r (0x4100 + i + 0x80 * a.val) sub v = b.axisDo e r a (0x4100 + i) sub v := by
  simp only [writeDo, headIndex_low (0x4100 + i + 0x80 * a.val) (by omega), axisIndex_of a i hi]

/-! ## Tasks -/

/-- A task sampled alone, of a block that takes tasks, is performed once, with its latch cleared. -/
theorem sampled_alone (n : Nat) (e : Env) (mv : List Nat) (b : Block) (hs : e.same = false) (ha : b.taskAlive n = true) :
    b.sampled n e mv = (b.unlatch n).taskDo n (b.stampOf n)
      { e with merged := match b.fabric.latches.get? n with | some l => l.merged | none => false } mv := by
  have h2 : (b.unlatch n).taskAlive n = true := ha
  simp only [sampled, hs, h2]
  rfl

theorem taskDo_head (h : HeadId) (k : Nat) (hk : k < 64) (st : Time) (e : Env) (mv : List Nat) (b : Block) :
    b.taskDo (headTaskNo h k) st e mv = b.headTask h k st e := by
  unfold taskDo headTaskNo
  rw [if_pos (by omega)]
  have h1 : (32 + 64 * h.val + k - 32) / 64 = h.val := by omega
  have h2 : (32 + 64 * h.val + k - 32) % 64 = k := by omega
  rw [h1, h2]
  simp [Fin.ofNat_eq_cast]

theorem taskDo_axis (a : AxisId) (k : Nat) (hk : k < 16) (st : Time) (e : Env) (mv : List Nat) (b : Block) :
    b.taskDo (axisTaskNo a k) st e mv = b.axisTask a k st e := by
  unfold taskDo axisTaskNo
  rw [if_neg (by omega), if_pos (by omega)]
  have h1 : (320 + 16 * a.val + k - 320) / 16 = a.val := by omega
  have h2 : (320 + 16 * a.val + k - 320) % 16 = k := by omega
  rw [h1, h2]
  simp [Fin.ofNat_eq_cast]

/-- A head's request: by write it does what the object does, by task what the task does. -/
theorem orTask_some (r : Route) (o : Obj) (v n : Nat) (e : Env) (b : Block) : b.orTask (some r) o v n e = b.writeTo o v r e := rfl
theorem orTask_none (o : Obj) (v n : Nat) (e : Env) (b : Block) : b.orTask none o v n e = b.sampled n e [] := rfl

end Block
end Machine
end Sys2Proof
end

