-- ==== Sys2Proof/Tests/Slice0.lean ====
section
/-! SUPPORT. Tests of the model: ill-formed commands that the check refuses, the spec's worked examples and single steps on small states, and
for every statement with hypotheses a concrete pier that meets them. -/
namespace Sys2Proof.Tests
set_option Elab.async false
open Sys2Proof Sys2Proof.Machine Sys2Proof.Machine.Block

/-- Registers set one after another. -/
def regsSet (b : Block) (l : List (Obj × Nat)) : Block := l.foldl (fun b x => b.setReg x.1 x.2) b

/-- A pier that serves its dictionary, with its link up, its CAN controller operational and every feature confirmed. -/
def up : Block :=
  let b := State.reset.b
  regsSet { b with
      power := { b.power with phase := .served }
      host := { b.host with linkUp := true, released := true, ready := true }
      can := { b.can with nmt := .operational, standby := false }
      ring := { b.ring with members := [0] } } [(Obj.deviceFeaturesConfirmedLo, 0x3FF)]

/-- The route of mailbox slot 0. -/
def box : Route := .mailbox 0

/-- Head 0 in a state. -/
def headIn (x : FnState) (b : Block) : Block := b.modHead 0 fun h => { h with state := x }

/-! ## Ill-formed commands -/

/-- The check refuses a record longer than 1,024 bytes and a BAR0 write of another size or across its size. -/
theorem test_ill_writes :
    (Instr.dictionaryWrite 0 box 0 0 (List.replicate 1025 0) Env.quiet).wellFormed = false ∧
    (Instr.bar0Write 0 0 2 0 [] Env.quiet).wellFormed = false ∧ (Instr.bar0Write 0 4 8 0 [] Env.quiet).wellFormed = false ∧
    (Instr.bar0Write 0 8 8 0 [] Env.quiet).wellFormed = true ∧ (Instr.bar0UnsupportedAccess 0 ⟨0, 0, false⟩).wellFormed = false := by decide +kernel

/-- The check refuses a download fault that is no protocol fault, a chain pattern beyond 8 bits and a window without 16 segments. -/
theorem test_ill_heads :
    (Instr.tableDownloadSegment 0 box 0 true none [] false true (some .range) false).wellFormed = false ∧
    (Instr.headPllLocked 0 0 0 256).wellFormed = false ∧
    (∀ v : Video, v.samples = [] → ∀ m w, (Instr.windowClose 0 m v w).wellFormed = false) :=
  ⟨by decide, by decide, fun v h m w => by simp [Instr.wellFormed, h]⟩

/-- The check refuses a ring record of no whole slots, a clamped channel past 15, rails past 11, a relay input without an edge. -/
theorem test_ill_inputs :
    (Instr.ringRecordArrives 0 0 0 [1]).wellFormed = false ∧ (Instr.clampClear 0 box 0 [16]).wellFormed = false ∧
    (Instr.taskLatchSampled 0 0 (List.replicate 12 0) Env.quiet).wellFormed = false ∧ (Instr.relayInput 0 0 false false).wellFormed = false := by
  decide +kernel

/-- The check refuses the tasks of control-core channels, a fill past the buffer's FIFO, a beat of 65 bytes and an unknown kind of error. -/
theorem test_ill_dma :
    (Instr.dmaGo 0 .task 3 false).wellFormed = false ∧ (Instr.dmaRequest 0 3 false).wellFormed = false ∧
    (Instr.dmaBeat 0 0 65537 0 []).wellFormed = false ∧ (Instr.dmaBeat 0 0 0 0 (List.replicate 65 0)).wellFormed = false ∧
    (Instr.dmaBusError 0 4 7 0 false none).wellFormed = false := by decide +kernel

/-- An epoch without members. -/
def noEpoch : EpochInfo := ⟨[], 0, 0, 0, false, [], 0, none, ⟨0, none, 0xFF, [], 0, 0xFF⟩⟩

/-- The check refuses a pier past 63, an epoch without members, a start without four banks and a link of three lanes. -/
theorem test_ill_ring :
    (Instr.dataFrameReceived 0 0 ⟨0, 64, 0, [], none, none⟩ 0 true).wellFormed = false ∧
    (Instr.epochChange 0 noEpoch false).wellFormed = false ∧
    (Instr.epochJoin 0 noEpoch 1 0 false 0 false).wellFormed = false ∧
    (Instr.ringStart 0 box 0 [] none false).wellFormed = false ∧ (Instr.linkUp 0 5 3).wellFormed = false := by decide +kernel

/-- The check refuses data past the room of a mailbox slot, of a USDO request, of an RPDO and of an SMBus block, and a cause past 63. -/
theorem test_ill_requests :
    (Instr.mailboxWrite 0 0 0 0 0 0 (List.replicate 4065 0) Env.quiet).wellFormed = false ∧
    (Instr.tunnelRequestReceived 0 0 2 0 0 0 0 (List.replicate 4065 0) [] Env.quiet).wellFormed = false ∧
    (Instr.usdoRequest 0 0 0 0 ⟨some (List.replicate 1025 0), .whole⟩ Env.quiet).wellFormed = false ∧
    (Instr.rpdoReceived 0 0 (List.replicate 65 0) Env.quiet).wellFormed = false ∧
    (Instr.smbRequest 0 2 0 0 0 0 (List.replicate 241 0) true Env.quiet).wellFormed = false ∧
    (Instr.interruptCauseClear 0 false 0 [64]).wellFormed = false := by decide +kernel

/-- The check refuses custody records and nonces past 1,024 bytes, ten rails, a reading past 16 bits and a bypass with the code of another
instruction. -/
theorem test_ill_services :
    (Instr.custodyEnrol 0 box false (List.replicate 1025 0)).wellFormed = false ∧
    (Instr.custodyPropose 0 box false 1024 [0] false).wellFormed = false ∧
    (Instr.custodyVerdict 0 box false (List.replicate 1025 0) false false).wellFormed = false ∧
    (Instr.attestNonce 0 box (List.replicate 1025 0)).wellFormed = false ∧ (Instr.railLatch 0 [1]).wellFormed = false ∧
    (Instr.thermalReading 0 32768 0 false).wellFormed = false ∧ (Instr.bypass 0 4 none).wellFormed = false := by decide +kernel

/-! ## Worked examples of the spec -/

/-- R206: the CRC of the nine bytes "123456789". -/
theorem test_crc : crc32c [0x31, 0x32, 0x33, 0x34, 0x35, 0x36, 0x37, 0x38, 0x39] = 0xE3069283 := by decide +kernel

/-- The worked example after R104: input 7 of head 0, converter B at 9,000. -/
theorem test_interleave : correctB (-12) 262 9000 = 9037 := by decide +kernel

/-- The worked example after R209: a block of the barrel rig begins 0x74, 0xBB, 0x05, 0x0F, 0x7C and takes 23 bytes. -/
theorem test_blk16 : (blkBlock ([48003, 47988, 48019, 47996] ++ List.replicate 28 47988)).take 5 = [0x74, 0xBB, 0x05, 0x0F, 0x7C] ∧
    (blkBlock ([48003, 47988, 48019, 47996] ++ List.replicate 28 47988)).length = 23 := by decide +kernel

/-- The worked example of the stagger: line k − 95 at −1,893.6645 counts, line k − 94 at −1,873.6605, the target at −1,880.0694; the engine
carries 1/256 count. -/
theorem test_stagger : phiOf (-481298) (-484778) (-479657) = 174 := by decide +kernel

/-- The worked example of R178: bin 41 on a mark at 12,000 among bins at 48,000 with the weights that the example gives. -/
theorem test_fiducial : rnd (48000 * 6244 + 12000 * 10140) 14 = 25720 := by decide +kernel

/-- A fabric in which task 16 selects source 57. -/
def relays : Block := regsSet up [(Obj.fabricTaskSelect 16, 57)]

/-- The worked example after R367: with task 16 on source 57, task 18 may not select source 56 and may select source 32. -/
theorem test_relay_loop : relays.loopsBack 18 56 = true ∧ relays.loopsBack 18 32 = false := by decide +kernel

/-- Ring time wraps: 16 ticks after the last but one tick the count is 14, which is later. -/
theorem test_time_wraps : later (BitVec.ofNat 64 (2 ^ 64 - 2)) 16 = 14 ∧ due (BitVec.ofNat 64 (2 ^ 64 - 2)) 14 = true ∧
    due 14 (BitVec.ofNat 64 (2 ^ 64 - 2)) = false := by decide +kernel

/-! ## Single steps -/

/-- What a step leaves of a pier with one command in its queue. -/
def after (b : Block) (i : Instr) : Block :=
  match step { State.reset with b := b, pending := [i] } with
  | .next n => n.b
  | _ => b

/-- Reset is released: the pier serves its dictionary, in pre-operational with node-ID 127 (R463, R527). -/
theorem test_release : (after State.reset.b (.pierResetRelease 0 none)).power.phase = .served ∧
    (after State.reset.b (.pierResetRelease 0 none)).can.nmt = .preOperational ∧
    (after State.reset.b (.pierResetRelease 0 none)).can.nodeId = 127 := by decide +kernel

/-- A write of the mask of wake sources over CAN is stored and answered once (R25, R535). -/
theorem test_write :
    let n := after { up with outs := [] } (.dictionaryWrite 16000 (.can 3) (BitVec.ofNat 16 Obj.powerWakeMask.index) (BitVec.ofNat 8 Obj.powerWakeMask.sub)
      (leBytes (Obj.powerWakeMask.ty.bits / 8) 1) Env.quiet)
    n.reg Obj.powerWakeMask = 1 ∧ n.outs = [.answer (.can 3) .ok] := by decide +kernel

/-- A value of the wrong size is refused with 0x0607_0010 and changes nothing (R594). -/
theorem test_write_length :
    let n := after { up with outs := [] } (.dictionaryWrite 16000 (.can 3) (BitVec.ofNat 16 Obj.powerWakeMask.index) (BitVec.ofNat 8 Obj.powerWakeMask.sub)
      (leBytes 8 1) Env.quiet)
    n.reg Obj.powerWakeMask = up.reg Obj.powerWakeMask ∧ n.outs = [.answer (.can 3) (.abort .length)] := by decide +kernel

/-- A pin reset stops the running head and shows cause bit 1 (R526). -/
theorem test_pin_reset : (after (headIn .running up) (.resetPin 0)).power.phase = .held ∧
    (after (headIn .running up) (.resetPin 0)).heads[(0 : HeadId)].state = .stopped ∧
    (after (headIn .running up) (.resetPin 0)).reg Obj.powerResetCause = 2 := by decide +kernel

/-- A task whose select is the source of an event is latched by it, with the time of the event (R359). -/
theorem test_event : ((after (regsSet up [(Obj.fabricTaskSelect 33, 13)]) (.crystalFail 160)).fabric.latches.get? 33).map (·.merged) = some false := by
  decide +kernel

/-- A pattern table of one entry in each section. -/
def tinyTable : List Byte := leBytes 8 (2 ^ 63) ++ leBytes 8 (2 ^ 63 + 2 ^ 61) ++ List.replicate 8176 0

/-- A run of zero bytes holds only zeros. -/
theorem zeros_all (n m : Nat) : ((List.replicate n (0 : Byte)).take m).all (· == 0) = true := by simp

/-- R68, R69: the table's entries are the last of sections 0 and 1, and the bytes after them are 0. -/
theorem test_pattern_table : patternTableOk tinyTable = true := by
  have hl : (leBytes 8 (2 ^ 63) ++ leBytes 8 (2 ^ 63 + 2 ^ 61)).length = 16 := by decide +kernel
  have e0 : patternEntry tinyTable 0 = ⟨true, 0, 0, 0, 0, 0, 0⟩ := by decide +kernel
  have e1 : patternEntry tinyTable 1 = ⟨true, 1, 0, 0, 0, 0, 0⟩ := by decide +kernel
  have s0 : section0 tinyTable = [⟨true, 0, 0, 0, 0, 0, 0⟩] := by simp [section0, sectionFrom, e0]
  have s1 : section1 tinyTable = [⟨true, 1, 0, 0, 0, 0, 0⟩] := by simp [section1, s0, sectionFrom, e1]
  have z : zeroAt tinyTable 16 8176 = true := by
    simp only [zeroAt, slice, tinyTable]
    rw [List.drop_left' hl]
    exact zeros_all _ _
  simp [patternTableOk, s0, s1, sectionOrdered, z]

/-- Hypotheses of MailboxRequests, the contents of a table for 0x6010. -/
theorem hyp_table_contents : up.contentCodes 0x6010 tinyTable = [] ∧ tinyTable.length % 4 = 0 ∧ tinyTable.length < 2 ^ 32 := by
  have hl : tinyTable.length = 8192 := by
    rw [tinyTable, List.length_append, List.length_replicate]
    decide +kernel
  refine ⟨?_, by omega, by omega⟩
  simp [contentCodes, tableSizeOk, hl, test_pattern_table, codeIf]

/-! ## Piers that meet the hypotheses of the statements -/

/-- A pier with a download to 0x6010 in progress on the mailbox. -/
def loading : Block := up.modControl fun c => { c with transfers := [⟨box, 0x6010, 0, .table, none, [], [], 0⟩] }

/-- A pier with a download of 8 bytes to 0x6014 in progress on the mailbox. -/
def filling : Block := up.modControl fun c => { c with transfers := [⟨box, 0x6014, 0, .table, some 8, [], [], 0⟩] }

/-- What a line of head 0 is in these tests. -/
def aLine : Line := ⟨0, 0, 0, none, 0, false, false, 0, 0, 0, 0, 0, false, 0, false, 0, 255, false, [], none, false, 0, ⟨[], []⟩, [], []⟩

/-- The banks that a start finds, and a pier whose start of head 0 can be asked for by task. -/
def banks (mv : Nat) : Env := { Env.quiet with start := .alone, banks := List.replicate 4 mv }

/-- Head 0 waiting for its lock until 2 ms. -/
def locking : Block := up.modHead 0 fun h => { h with state := .starting, startDeadline := 2000 * tUs }

/-- Head 0 running on a source, with an instant due at 0. -/
def onSource (n : Nat) : Block := (regsSet (headIn .running up) [(Obj.headTriggerSource 0, n)]).modHead 0 fun x => { x with nextDue := some 0 }

/-- Input 0 of head 0 with a complete window. -/
def complete : Block := up.modVideo 0 fun v => { v with inputs := v.inputs.set 0 { v.inputs[0] with sums := ⟨65536, 65536, 65536, 0, 0, 0, 0, 0, 0, 0, 0⟩ } }

/-- A set numbered 0 in the shadow of head 0, ready; its gain codes are those in force. -/
def shadowed : Block := (up.setShadow 0 (up.activeSet 0)).setReg (Obj.headCorrShadowReady 0) 0

/-- Head 0 with the bar temperature of channel 0, 1 s and one tick old. -/
def stale : Block := (regsSet up [(Obj.headCorrBarChannel 0, 0), (Obj.headCorrTempState 0, 0)]).modCorr 0 fun c => { c with lastTemp := some (0, -16000000001) }

/-- Head 0 in a phase of its calibration with one line of each kind, of one segment of 16 pixels. -/
def inPhase (n : Nat) : Block := (regsSet (headIn .running up) [(Obj.headSegments 0, 1), (Obj.headLayoutActive 0, 16)]).modCorr 0 fun c =>
  { c with cal := ⟨n, 0, 1, 1, 0, 1, List.replicate 16 (0, 1), List.replicate 16 (40000, 1), [], 0, 0, 0, false⟩ }

/-- Head 0 running with a geometry ready in its shadow, and in a phase of its stitching calibration. -/
def ready5 : Block := (headIn .running up).setReg (Obj.headStitchShadowReady 0) 0
def stitching (n : Nat) : Block := (headIn .running up).modStitch 0 fun x => { x with cal := ⟨n, 1, 1, [], []⟩ }

/-- Head 0 with one segment of 16 bins, on which the marks of the target stand at bins 3, 7 and 11. -/
def marked : Block := (regsSet (headIn .running up) [(Obj.headSegments 0, 1), (Obj.headLayoutActive 0, 16), (Obj.headStitchWidth 0, 16),
    (Obj.headStitchCalFirstMark 0, 768), (Obj.headStitchCalMarkPitch 0, 1024)]).modStitch 0 fun x =>
  { x with cal := ⟨3, 1, 1, [[9, 9, 9, 0, 9, 9, 9, 0, 9, 9, 9, 0, 9, 9, 9, 9]], []⟩ }

/-- A pier whose head 0 has an empty pattern table and passes its lines through. -/
def bare : Block := (regsSet up [(Obj.headStitchMode 0, 0)]).setTable 0x6010 []

/-- A pier in scan mode, and one whose axis 0 is the position source and runs. -/
def scanning : Block := regsSet up [(Obj.deviceMode, 1)]
def owner : Block := (regsSet scanning [(Obj.axisSourcePier 0, 0), (Obj.ringPierNumber, 0), (Obj.axisBroadcast 0, 1), (Obj.axisEncoderEnable 0, 1), (Obj.axisPositionValid 0, 1),
    (Obj.axisKeystoneEnable 0, 1), (Obj.headTriggerSource 0, 4)]).modAxis 0 fun x => { x with state := .running }
def page (n : Nat) : Block := owner.modKey fun k => { k with state := n }

/-- The page in state 3 with a report of level 0. -/
def low : Block := (page 3).modKey fun k => { k with levels := [(0, ⟨⟨0, none, 0, []⟩, 0⟩)] }

/-- The owner with head 0 running on source 4. -/
def paced0 : Block := headIn .running owner

/-- The page in state 5 whose last line fired at 0. -/
def idling : Block := (page 5).modKey fun k => { k with idleBase := some 0 }

/-- Axis 0 stopped in a page that does not hold it, and running with a profile. -/
def axisRun (p : Profile) (v : Int) : Block := up.modAxis 0 fun x => { x with state := .running, profile := p, vel := v }
def axisIn (x : FnState) : Block := up.modAxis 0 fun y => { y with state := x }

/-- Axis 0 running at rest at a valid position, and with motion fault 3. -/
def moving : Block := regsSet (axisRun .rest 0) [(Obj.axisPositionValid 0, 1), (Obj.axisEncoderEnable 0, 1)]
def hit : Block := (axisRun .rest 0).modAxis 0 fun x => { x with faults := [3] }

/-- Axis 0 at its upper virtual limit, and axis 0 with its power stage driven. -/
def inside : Block := (regsSet (axisRun (.velocity 5) 5) [(Obj.axisProfileLimitsEnable 0, 1), (Obj.axisPositionValid 0, 1), (Obj.axisEncoderEnable 0, 1), (Obj.axisProfileLimitHigh 0, 256000)]).modAxis 0 fun x =>
  { x with pos := 0 }
def powered : Block := (axisRun .rest 0).modAxis 0 fun x => { x with driven := true }

/-- Axis 0 homing upward with method 2, on the way out and on the way back. -/
def turning : Block := regsSet (axisRun (.homing false 0) 5) [(Obj.axisHomeMethod 0, 2), (Obj.axisHomeDirection 0, 1)]
def turned : Block := turning.modAxis 0 fun x => { x with profile := .homing true 0 }

/-- Axis 0 with an encoder far from the command, and with an edge at 0. -/
def away : Block := moving.modAxis 0 fun x => { x with count := 256000000000, driven := true, outsideSince := some 0 }
def rapid : Block := away.modAxis 0 fun x => { x with edges := [⟨0, 256, 1⟩] }

/-- Piers that can claim the position, own it, hear it, and ignore it. -/
def encoded : Block := regsSet up [(Obj.axisEncoderEnable 0, 1), (Obj.ringPierNumber, 0)]
def owner0 : Block := regsSet encoded [(Obj.axisSourcePier 0, 0), (Obj.ringPierNumber, 0), (Obj.axisBroadcast 0, 1)]
def fromRing : Block := regsSet (headIn .running up) [(Obj.headTriggerSource 0, 4), (Obj.headTriggerBroadcastDelay 0, 8000)]
def quietScan : Block := regsSet encoded [(Obj.deviceMode, 1), (Obj.axisPositionValid 0, 1)]

/-- Head 0 on source 3, the encoder four pitches past the origin. -/
def crossed : Block := (regsSet (headIn .running quietScan) [(Obj.headTriggerSource 0, 3), (Obj.headTriggerPitch 0, 64)]).modAxis 0 fun x => { x with count := 256, edges := [⟨0, 256, 1⟩] }

/-- The boost of head 0 after 256 pulses with a headroom, and the headroom that its object asks for. -/
def boosted (m : Int) : Block := up.modIllum 0 fun x => { x with pulses := 256, headroom := some m, rowMeasured := Vector.replicate 4 true }
def short : Int := up.reg (Obj.headIllumBoostHeadroom 0)

/-- Channel 0 of the auxiliary front end with a clamp, and a pier whose sequencer is in a state. -/
def clamped (c : ClampPhase) : Block := up.modChannel 0 fun x => { x with clamp := c }
def auxIn (x : FnState) : Block := up.modAux fun a => { a with state := x }

/-- A running sequencer whose lane 0 has one entry; the lane in a pass; with a conversion of some discards; with a swapped channel. -/
def seqd : Block := (auxIn .running).setTable 0x6050 (leBytes 8 (2 ^ 63 + 2 ^ 40 + 2 ^ 24))
def lane (b : Block) : Block := b.modLane 0 fun y => { y with inPass := true, repeats := 1 }
def busy (n : Nat) : Block := (lane seqd).modLane 0 fun y => { y with active := true, discard := n }
def swapped : Block := regsSet (busy 0) [(Obj.auxSwap 0, 1), (Obj.auxMode 0, 3), (Obj.auxAmpChop 0, 0)]

/-- Channel 0 with a filter of order 1 in a running sequencer. -/
def filtered (n : Nat) : Block := (regsSet (auxIn .running) [(Obj.auxFiltOrder 0, 1)]).modChannel 0 fun c => { c with windows := n }

/-- Echo 0 as a pulse width. -/
def echoing : Block := regsSet up [(Obj.echoMode 0, 1), (Obj.echoFault 0, 65536)]

/-- A pier with a latch set, and one with a storm window of source 5. -/
def latched (n : Nat) : Block := { up with fabric := { up.fabric with latches := [(n, ⟨0, false⟩)] } }
def stormy (n : Nat) : Block := { up with fabric := { up.fabric with windows := [(5, ⟨0, n⟩)] } }

/-- Timer unit 0 in a mode. -/
def timer (n : Nat) : Block := regsSet up [(Obj.timerMode 0, n)]

/-- Channel 8 with its shadow and its active set in given states, and an active channel of a given CTRL. -/
def chanIn (sh ac : Nat) : Block := regsSet up [(Obj.dmaShadowStatus 8, sh * 2 ^ 28), (Obj.dmaActiveStatus 8, ac * 2 ^ 28)]
def chanRun (ctrl n0 : Nat) : Block := regsSet (chanIn 0 2) [(Obj.dmaActiveCtrl 8, ctrl), (Obj.dmaActiveN0 8, n0)]

/-- Channel 8 with the descriptor at 0x08000000 as its link: one beat of 64 bytes. -/
def linked : Block := (((regsSet (chanIn 0 2) [(Obj.dmaActiveLink 8, 0x08000000)]).modDma 8 fun x => { x with fetching := true }).memWrite 0x08000000
  (leBytes 8 0x08001000 ++ leBytes 8 0x08002000 ++ leBytes 4 64 ++ leBytes 2 1 ++ leBytes 2 1 ++ List.replicate 40 0))

/-- Channel 8 with a shadow that the checker passes, and one with a paced active set whose unit is admitted. -/
def loadable : Block := regsSet up [(Obj.dmaShadowN0 8, 64), (Obj.dmaShadowN1 8, 1), (Obj.dmaShadowN2 8, 1), (Obj.dmaShadowSrc 8, 0x08000000), (Obj.dmaShadowDst 8, 0x08001000)]
def paced : Block := (chanRun (2 * 2 ^ 18) 64).modDma 8 fun x => { x with admitted := true }

/-- Span 0 in a state, with spare lane 4, and with a frame replayed n times. -/
def spanIn (n : Nat) : Block := regsSet up [(Obj.spanState 0, n)]
def spared : Block := (regsSet (spanIn 2) [(Obj.spanLaneMap 0, 15)]).modSpan 0 fun x => { x with spare := some 4 }
def replayed (n : Nat) : Block := (spanIn 2).modSpan 0 fun x => { x with replayed := some (7, n) }

/-- Head 0 with one delivered record of sequence 7. -/
def streamed : Block := (up.modDma 4 fun x => { x with sent := 1 }).modPart 0 fun p => { p with items := [.record ⟨7, 0, [], true, true, 0⟩] }

/-- Ring time in a state. -/
def timeIn (n : Nat) : Block := regsSet up [(Obj.ringTimeState, n)]

/-- A pier of number 1 in a ring of four, and an epoch of the members of a mask. -/
def numbered : Block := regsSet up [(Obj.ringPierNumber, 1), (Obj.ringConfigured, 4)]
def anEpoch (m : BitVec 64) : EpochInfo := ⟨[], m, 5, 0, false, [], 0, some 1, ⟨4, none, 0xFF, [], 0, 0xFF⟩⟩

/-- A pier that owns the position by axis 0. -/
def owning : Block := regsSet up [(Obj.axisSourcePier 0, up.reg Obj.ringPierNumber), (Obj.axisBroadcast 0, 1), (Obj.axisKeystoneEnable 0, 1), (Obj.axisLevel 0, 1)]
def noHeads : Block := regsSet up [(Obj.ringStartHeads, 0)]

/-- The leader of an epoch, and another member of it. -/
def leading : Block := regsSet { owning with ring := { owning.ring with members := [0] } } [(Obj.ringPierNumber, 0), (Obj.axisSourcePier 0, 0), (Obj.ringLevel, 1), (Obj.ringLeader, 0)]
def following : Block := regsSet { owning with ring := { owning.ring with members := [0, 1] } } [(Obj.ringPierNumber, 1), (Obj.ringLevel, 1), (Obj.ringLeader, 0)]

/-- Slot 0 busy with a write. -/
def asked : Block := up.modSlot 0 fun x => { x with state := 1 }

/-- Queue 0 with the largest ring, and enabled with A and W. -/
def sized : Block := regsSet up [(Obj.hostQueueSizeLog2 0, 30)]
def delivered (a w : Nat) : Block := regsSet sized [(Obj.hostQueueEnable 0, 1), (Obj.hostQueueAckPos 0, a), (Obj.hostQueueWritePos 0, w)]

/-- A CAN controller with n sessions, and one with a segmented write. -/
def clients (n : Nat) : Block := up.modCan fun x => { x with sessions := List.range n }
def halfway : Block := (clients 3).modControl fun c => { c with transfers := [⟨.can 1, 0x2700, 1, .write, none, [], [], 0⟩] }

/-- TPDO 0 with a transmission type, the others of type 0, all valid. -/
def mapped (n : Nat) : Block := regsSet up ((Obj.tpdoType 0, n) :: (Obj.tpdoMapCount 0, 1) :: (Obj.tpdoCobId 0, 0x180) :: ((List.range 7).map fun k => (Obj.tpdoType (k + 1), 0)))

/-- RPDO 0 with n entries mapped. -/
def received (n : Nat) : Block := regsSet up [(Obj.tpdoCobId 0, 0x180), (Obj.tpdoMapCount 0, 1), (Obj.rpdoCobId 0, 0x200), (Obj.rpdoMapCount 0, n), (Obj.rpdoMap 0 0, 0x27000108)]

/-- A controller in bus-off. -/
def off (n : Nat) : Block := regsSet (up.modCan fun x => { x with busOff := true }) [(Obj.canAutoRecover, n)]

/-- A target that owes the answers of its classes. -/
def owes (u n : Bool) : Block := up.modSmb fun x => { x with owesUrgent := u, owesNormal := n }

/-- A target that executes a request. -/
def taken : Block := (((up.modSmb fun x => { x with lastStart := 0 }).modSmb fun x => { x with executing := true, response := none }).raise 944).smbStop

/-- A pier in deep sleep. -/
def dozing (low : Bool) : Block := { up with power := { up.power with phase := .asleep }, smb := { up.smb with lowPower := low } }

/-- A provisioned pier with its nonce all zeros, and a record of the host that changes one object. -/
def keyed : Block := up.modCustody fun x => { x with hostKey := List.replicate 97 1, boardKey := List.replicate 97 2, nonce := List.replicate 32 0 }
def aRecord (index : Nat) (value : List Byte) : List Byte :=
  [1, 1, 0, 1] ++ leBytes 2 (152 + (value.length + 3) / 4 * 4) ++ [0, 0] ++ leBytes 4 keyed.custody.generation ++ leBytes 4 1 ++ List.replicate 32 0 ++
  leBytes 2 index ++ [0, 0] ++ leBytes 2 value.length ++ [0, 0] ++ value ++ List.replicate ((value.length + 3) / 4 * 4 - value.length) 0 ++ List.replicate 96 0
def aVerdict (decision : Byte) : List Byte := [1, 2, decision, 0] ++ leBytes 4 keyed.custody.generation ++ List.replicate 152 0

/-- A pier with a proposal that waits for its verdict, and one with a recovery of so many ticks left. -/
def proposed : Block := keyed.modCustody fun x => { x with pending := some ⟨aRecord 0x2123 [1], false, 0⟩ }
def recovering (left : Nat) : Block := keyed.modCustody fun x => { x with recovery := some ⟨aRecord 0x2123 [1], false, left, 0, left⟩ }

/-- Firmware with a staged image of a status, with a written other slot, and on trial. -/
def staged (n : Nat) : Block := up.modFirmware fun x => { x with status := n }
def written : Block := (up.modSlotFw (1 - up.firmware.running) fun x => { x with state := 1 })
def onTrial : Block := (up.modSlotFw up.firmware.running fun x => { x with state := 2 }).modFirmware fun x => { x with trialEnds := some 0 }

/-- The pier in a phase, and a head whose thermal and test state varies. -/
def pierIn (p : Phase) : Block := { up with power := { up.power with phase := p } }

/-- A pier whose link is down and whose request for sleep is armed, and one asleep with a wake mask. -/
def down : Block := { up with host := { up.host with linkUp := false }, power := { up.power with armed := some 5 } }
def masked (m : Nat) : Block := regsSet (pierIn .asleep) [(Obj.powerWakeMask, m)]

/-- Readings of the case and the die, and a step. -/
def hot (c d n : Nat) : Block := regsSet up [(Obj.thermalCase, c), (Obj.thermalDie, d), (Obj.thermalStep, n)]

/-- A self-test whose range is given, and one that runs. -/
def ranged : Block := regsSet up [(Obj.testMbistStartAddr, 0x1000), (Obj.testMbistLength, 0x1000)]
def testing : Block := ranged.modTest fun x => { x with range := some (0x1000, 0x1000) }

/-- A pier with a row that waits for its repair and one repaired. -/
def worn : Block := { up with repair := { up.repair with candidates := [⟨0, 0, 5⟩], soft := [⟨0, 1, 6⟩] } }

/-- A controller within an inhibit time that ends at 9, with n messages that wait. -/
def inhibited (n : Nat) : Block := up.modCan fun x => { x with inhibitUntil := some 9, emcyQueue := List.replicate n ⟨0x8110, 0, 0, 0⟩ }

/-- Hypotheses of AcceptedWriteIsStored: an object that only holds its value, one that acts, a level at 0 and at 1. -/
theorem hyp_accepted_write :
    (findRow 0x1017 0).isSome = true ∧
    up.accepts Env.quiet box 0x1017 0 [0xE8, 3] = true ∧
    (up.writeDo Env.quiet box 0x1017 0 1000).isNone = true ∧
    (findRow 0x3000 4).isSome = true ∧
    (headIn .running up).accepts Env.quiet box 0x3000 4 [2] = true ∧
    ((headIn .running up).writeDo Env.quiet box 0x3000 4 2).isSome = true ∧
    (findRow 0x2300 1).isSome = true ∧
    up.nextWrite (routePlace box) (Obj.headPatternLevel 0).key = none ∧
    headIndex 0x1017 = none ∧ up.nextWrite (routePlace box) 0x101700 = none ∧
    up.accepts Env.quiet box 0x2300 1 [1] = true ∧
    (up.writeDo Env.quiet box 0x2300 1 1).isNone = true ∧
    up.accepts Env.quiet box 0x3C00 1 [1] = true ∧
    up.accepts Env.quiet box 0x3000 1 [0] = true := by decide +kernel

/-- Hypotheses of Bar0Accesses. -/
theorem hyp_bar0 :
    up.host.linkUp = true ∧ (0x12000 : BitVec 20).toNat % 4 = 0 ∧ (0x31008 : BitVec 20).toNat % 8 = 0 ∧ isQueue64 (0x31008 : BitVec 20).toNat = false ∧
    up.ring.minority = false ∧ up.nextWrite 0 Obj.dmaFenceMask.key = none ∧ up.nextWrite 0 Obj.dmaStopMask.key = none ∧
    ((3 : Nat) ≠ 4 ∧ (3 : Nat) ≠ 8) ∧ (0x12001 : BitVec 20).toNat % 4 ≠ 0 ∧ barReadable 0x12001 4 = false ∧ barReadable 0x12000 4 = true ∧
    (regsSet up [(Obj.hostQueueEnable 15, 1)]).reg (Obj.hostQueueEnable 15) ≠ 0 := by decide +kernel

/-- Hypotheses of SavesRestoresAndFeatures, for the first and the last group. -/
theorem hyp_saves :
    up.acceptsObj Env.quiet box (Obj.commSave 0) 0x65766173 = true ∧
    up.acceptsObj Env.quiet box (Obj.commSave 3) 0x65766173 = true ∧
    { up with control := { up.control with save := some ⟨box, Vector.replicate 3 none⟩ } }.control.save = some ⟨box, Vector.replicate 3 none⟩ ∧
    up.acceptsObj Env.quiet box (Obj.commRestore 0) 0x64616F6C = true ∧
    up.acceptsObj Env.quiet box (Obj.commRestore 3) 0x64616F6C = true ∧
    up.acceptsObj { Env.quiet with othersAgree := true } box Obj.deviceFeaturesControl 1 = true ∧
    up.acceptsObj { Env.quiet with othersAgree := false } box Obj.deviceFeaturesControl 2 = true := by decide +kernel

/-- Hypotheses of TableDownloads; a transfer stands for 1 s and is over one tick of 62.5 ps later. -/
theorem hyp_downloads :
    up.served = true ∧ up.transferOf box 0x6010 = none ∧ up.tableCodes box 0x6010 = [] ∧
    (up.control.transfers.any fun x => x.index == 0x6010 && x.kind == .table) = false ∧ tableSizeOk 0x6010 8192 = true ∧
    placeSize (takeSpace 4 (freeSpace tableArea loading.stagesHeld)) = 4 ∧
    (filling.transferOf box 0x6014 = some ⟨box, 0x6014, 0, .table, some 8, [], [], 0⟩) ∧ filling.tableCodes box 0x6014 = [] ∧
    filling.contentCodes 0x6014 (List.replicate 8 0) = [] ∧
    (let m := takeSpace 8 (freeSpace tableArea filling.stagesHeld); (filling.placeWrite m (List.replicate 8 0)).placeRead m) = List.replicate 8 0 ∧
    up.usdoServes = true ∧ ({ up with can := { up.can with sessions := [127] } }).can.sessions.contains 127 = true ∧
    loading.transferOf box 0x6010 = some ⟨box, 0x6010, 0, .table, none, [], [], 0⟩ ∧
    passed 0 (tSec + 1) 16000000000 = false ∧ passed 0 (tSec + 1) 16000000001 = true := by decide +kernel

/-- Hypotheses of RefusedWrites: a number that may not be written, one of the wrong length, octets that only read, a TABLE of a running head, and a
level without feature bit 0. -/
theorem hyp_refused :
    up.served = true ∧
    ((findRow 0x1000 0).map fun r => (decide (r.ty.bits ≠ 0), up.writeCodes Env.quiet box r 0x1000 0 [0, 0, 0, 0] == [])) = some (true, false) ∧
    ((findRow 0x1017 0).map fun r => (decide (r.ty.bits ≠ 0), up.writeCodes Env.quiet box r 0x1017 0 [0] == [])) = some (true, false) ∧
    ((findRow 0x1008 0).map fun r => (decide (r.ty.bits = 0), up.accessCodes box 0x1008 0 r == [])) = some (true, false) ∧
    ((findRow 0x6010 0).map fun r => (headIn .running up).accessCodes box 0x6010 0 r) = some [.notStopped] ∧
    up.transferOf box 0x6010 = none ∧
    isControl 0x3C80 = true ∧ (findRow 0x3C80 1).isSome = true ∧ (regsSet up [(Obj.deviceFeaturesConfirmedLo, 0x3FE)]).feature 0 = false := by decide +kernel

/-- Hypotheses of TaskSelects: the first and the last task, the highest source and none, the first and the last reserved source and those beside them.
-/
theorem hyp_task_selects :
    up.acceptsObj Env.quiet box (Obj.fabricTaskSelect 0) 1023 = true ∧
    up.acceptsObj Env.quiet box (Obj.fabricTaskSelect 511) 0xFFFF = true ∧
    up.served = true ∧ up.firmware.recovery = false ∧ up.ring.minority = false ∧ up.allStopped = true ∧ up.feature 8 = true ∧
    reservedSource 25 = true ∧ reservedSource 980 = true ∧ reservedSource 979 = false ∧ reservedSource 24 = false := by decide +kernel

/-- Hypotheses of HeadsStartAndStop, start: by write and by task, the bank at 2,970 mV and at 3,630 mV, and a lock that is late. -/
theorem hyp_head_start :
    bare.acceptsObj (banks 2970) box (Obj.headPatternCommand 0) 1 = true ∧ bare.taskAlive (headTaskNo 0 1) = true ∧
    (bare.startDerive 0).headStartViolations 0 = [] ∧ ((bare.unlatch (headTaskNo 0 1)).startDerive 0).headStartViolations 0 = [] ∧
    bare.reg (Obj.headPatternBank 0) = 0 ∧ 3300 * 9 ≤ 2970 * 10 ∧ 3630 * 10 ≤ 3300 * 11 ∧
    (headIn .starting up).heads[(0 : HeadId)].state = .starting ∧ due (headIn .starting up).heads[(0 : HeadId)].startDeadline 0 = true ∧
    locking.heads[(0 : HeadId)].state = .starting ∧ locking.clockPresent 0 = true ∧ passed locking.heads[(0 : HeadId)].stateSince (40 * tUs) (100 * tUs) = true ∧
    0 ≤ timeDiff locking.heads[(0 : HeadId)].startDeadline (100 * tUs) ∧ locking.reg (Obj.headTriggerSource 0) ≠ 2 ∧
    (headIn .starting up).clockPresent 0 = true ∧
    (headIn .starting up).reg (Obj.headIllumExtDrivers 0) = 0 ∧ (0 : Nat) = 16 * 0 := by decide +kernel

/-- Hypotheses of HeadsStartAndStop, stop: by write and by task, a head with lines, one that loses lock, one whose count is reached. -/
theorem hyp_head_stop :
    (headIn .running up).acceptsObj Env.quiet box (Obj.headPatternCommand 0) 2 = true ∧ (headIn .running up).taskAlive (headTaskNo 0 2) = true ∧
    ((headIn .running up).modHead 0 fun x => { x with lines := [aLine] }).heads[(0 : HeadId)].lines ≠ [] ∧
    (headIn .stopping up).heads[(0 : HeadId)].state = .stopping ∧
    (headIn .running up).heads[(0 : HeadId)].state = .running ∧ (headIn .running up).heads[(0 : HeadId)].lines = [] ∧ (headIn .running up).heads[(0 : HeadId)].isolateVia = [] ∧
    ((regsSet (headIn .running up) [(Obj.headTriggerCount 0, 1)]).modHead 0 fun x => { x with acceptedRun := 1 }).countReached 0 = true := by decide +kernel

/-- Hypotheses of TriggersReachTheHead, by source; pins 0 and 1, and software triggers by enable and by source 8. -/
theorem hyp_triggers :
    (onSource 0).reg (Obj.headTriggerSource 0) = 0 ∧ (onSource 0).heads[(0 : HeadId)].nextDue = some 0 ∧ due 0 0 = true ∧ (onSource 0).insideCap 0 0 = false ∧
    ((onSource 0).modHead 0 fun x => { x with lastTrigger := some 0, state := .running }).insideCap 0 1 = true ∧
    (onSource 5).pinSeen 0 128 = true ∧ (onSource 5).isSet (Obj.headTriggerPinEdge 0) = false ∧
    (onSource 2).reg (Obj.headTriggerSource 0) = 2 ∧
    (onSource 1).reg (Obj.headTriggerSource 0) = 1 ∧ (onSource 1).heads[(0 : HeadId)].state = .running ∧
    (onSource 5).reg (Obj.headTriggerSource 0) = 5 + (0 : Fin 2).val ∧ (onSource 6).reg (Obj.headTriggerSource 0) = 5 + (1 : Fin 2).val ∧
    (onSource 5).reg (Obj.headTriggerSource 0) ≠ 5 + (1 : Fin 2).val ∧
    (onSource 7).reg (Obj.headTriggerSource 0) = 7 ∧ (onSource 7).taskAlive (headTaskNo 0 0) = true ∧
    (onSource 8).acceptsObj { Env.quiet with meet := .alone } box (Obj.headTriggerFire 0) 1 = true ∧
    (regsSet (onSource 0) [(Obj.headTriggerSwEnable 0, 1)]).acceptsObj { Env.quiet with meet := .alone } box (Obj.headTriggerFire 0) 1 = true ∧
    (regsSet (onSource 0) [(Obj.headTriggerSwEnable 0, 1)]).isSet (Obj.headTriggerSwEnable 0) = true ∧
    ((onSource 4).modHead 0 fun x => { x with owed := [⟨some 0, 0, 0, none⟩] }).heads[(0 : HeadId)].owed = [⟨some 0, 0, 0, none⟩] ∧
    (onSource 4).heads[(0 : HeadId)].held = false ∧ (onSource 4).heads[(0 : HeadId)].nextIndex ≤ 0 := by decide +kernel

/-- Hypotheses of AcceptedTriggerMakesALine. -/
theorem hyp_accepted_trigger :
    (onSource 0).heads[(0 : HeadId)].state = .running ∧ (onSource 0).heads[(0 : HeadId)].lastTrigger = none ∧ (onSource 0).countReached 0 = false := by decide +kernel

/-- Hypotheses of LinesAreReadOut. -/
theorem hyp_lines :
    (((headIn .running up).modHead 0 fun x => { x with lines := [aLine] }).heads[(0 : HeadId)].lines.findIdx? fun l => !l.exposed) = some 0 ∧
    ((headIn .running up).modHead 0 fun x => { x with lines := [{ aLine with exposed := true }] }).heads[(0 : HeadId)].queue.length < 8 ∧
    ((headIn .running up).modHead 0 fun x => { x with queue := [⟨aLine, []⟩] }).heads[(0 : HeadId)].queue = [⟨aLine, []⟩] ∧ aLine.waitsPosition = false ∧
    (regsSet (headIn .running up) [(Obj.headTriggerTimeout 0, 1)]).reg (Obj.headTriggerTimeout 0) ≠ 0 ∧ passed 0 (1 * tUs) 16000 = true ∧
    (headIn .running up).heads[(0 : HeadId)].gapRaised = false ∧
    (regsSet up [(Obj.headSyncMode 0, 3)]).reg (Obj.headSyncMode 0) = 3 ∧ up.taskAlive (headTaskNo 0 3) = true ∧
    (headIn .running up).heads[(0 : HeadId)].everRun = false ∧ (regsSet up [(Obj.headSyncMode 0, 0)]).reg (Obj.headSyncMode 0) ≠ 3 ∧
    ((headIn .running up).modHead 0 fun x => { x with everRun := true }).heads[(0 : HeadId)].everRun = true ∧
    (([] : List (List Nat)).all fun xs => decide (xs.length ≤ 1024)) = true ∧ delayPlace 0 0 0 + 0x01000000 ≤ 0xC0000000 ∧
    ((headIn .running up).modHead 0 fun x => { x with lines := [{ aLine with exposed := true }] }).heads[(0 : HeadId)].lines = [{ aLine with exposed := true }] := by decide +kernel

/-- Hypotheses of VideoLoops. -/
theorem hyp_video :
    up.acceptsObj Env.quiet box (Obj.headVideoRangeCommit 0) 0 = true ∧
    up.taskAlive (headTaskNo 0 6) = true ∧ up.commitViolations 0 (up.reg (Obj.headVideoRangeTaskSet 0)) = [] ∧
    up.acceptsObj Env.quiet box (Obj.headVideoIlvFreeze 0) 1 = true ∧ up.acceptsObj Env.quiet box (Obj.headVideoIlvFreeze 0) 0 = true ∧
    256 ≤ (up.modVideo 0 fun v => { v with pedestalLines := 256 }).video[(0 : HeadId)].pedestalLines ∧
    ((List.finRange 16).filter fun (k : SegId) => (complete).segmentOn 0 k && complete.video[(0 : HeadId)].inputs[k].status != 4 &&
  complete.video[(0 : HeadId)].inputs[k].status != 7 && complete.ilvComplete 0 k) = [0] ∧
    (regsSet up [(Obj.headVideoIlvTimeout 0, 1)]).reg (Obj.headVideoIlvTimeout 0) ≠ 0 ∧ up.video[(0 : HeadId)].converged = false ∧
    (up.modVideo 0 fun v => { v with linesSince := 1 }).video[(0 : HeadId)].timeoutRaised = false ∧ 1 ≤ (up.modVideo 0 fun v => { v with linesSince := 1 }).video[(0 : HeadId)].linesSince ∧
    ((up.openWindows 0).modVideo 0 fun v => { v with pedestalLines := 0 }).videoLevel 0 = 0 := by decide +kernel

/-- Hypotheses of CorrectionSetsAndSwaps. -/
theorem hyp_corr_sets :
    stale.reg (Obj.headCorrBarChannel 0) ≠ 0xFF ∧ stale.reg (Obj.headCorrTempState 0) < 2 ∧ stale.tempStale 0 = true ∧
    (regsSet shadowed [(Obj.headCorrLevel 0, 1)]).acceptsObj Env.quiet box (Obj.headCorrShadowReady 0) 0 = true ∧
    shadowed.acceptsObj Env.quiet box (Obj.headCorrSwap 0) 0 = true ∧
    shadowed.taskAlive (headTaskNo 0 9) = true ∧ shadowed.swapViolations 0 (shadowed.shadowSet 0).number = [] ∧
    (headIn .running up).acceptsObj Env.quiet box (Obj.headCorrPrepare 0) 1 = true ∧ (headIn .running up).corr[(0 : HeadId)].prepare = none ∧
    (up.modCorr 0 fun c => { c with prepare := some (1, [], .write box) }).corr[(0 : HeadId)].prepare = some (1, [], .write box) ∧
    (headIn .running up).heads[(0 : HeadId)].state = .running ∧ up.heads[(0 : HeadId)].state = .stopped := by decide +kernel

/-- Hypotheses of Calibrations. -/
theorem hyp_calibrations :
    (headIn .running up).acceptsObj Env.quiet box (Obj.headCalCommand 0) 1 = true ∧ (headIn .running up).calViolations 0 = [] ∧
    (headIn .running up).acceptsObj Env.quiet box (Obj.headCalCommand 0) 2 = true ∧ (inPhase 1).corr[(0 : HeadId)].cal.phase ≠ 0 ∧
    calTarget (inPhase 1).corr[(0 : HeadId)].cal ≤ (inPhase 1).corr[(0 : HeadId)].cal.done ∧
    calTarget (inPhase 5).corr[(0 : HeadId)].cal ≤ (inPhase 5).corr[(0 : HeadId)].cal.done ∧
    (inPhase 7).corr[(0 : HeadId)].cal.phase = 7 ∧ ((inPhase 7).calDerive 0).isSome = true := by decide +kernel

/-- Hypotheses of StitchingGeometry. -/
theorem hyp_stitching :
    (regsSet ready5 [(Obj.headStitchLevel 0, 1)]).acceptsObj Env.quiet box (Obj.headStitchShadowReady 0) 0 = true ∧
    ready5.acceptsObj Env.quiet box (Obj.headStitchSwap 0) 0 = true ∧ ready5.geometryReady 0 ≠ 0xFFFF ∧ ready5.heads[(0 : HeadId)].state = .running ∧
    (headIn .running up).acceptsObj Env.quiet box (Obj.headStitchCalCommand 0) 1 = true ∧ (headIn .running up).stitchCalViolations 0 = [] ∧
    (headIn .running up).acceptsObj Env.quiet box (Obj.headStitchCalCommand 0) 2 = true ∧ (stitching 1).stitch[(0 : HeadId)].cal.phase ≠ 0 ∧
    (stitching 1).stitch[(0 : HeadId)].cal.lines ≤ (stitching 1).stitch[(0 : HeadId)].cal.done ∧ (stitching 1).reg (Obj.headStitchCalEdge 0) ≠ 1 ∧
    (regsSet (stitching 1) [(Obj.headStitchCalEdge 0, 1)]).reg (Obj.headStitchCalEdge 0) = 1 ∧
    marked.stitch[(0 : HeadId)].cal.phase = 3 ∧
    (match marked.stitchDerive 0 with | .ok (g, res) => (((List.range 16).foldl (fun b k => b.setReg (Obj.headStitchCalResidual 0 k) (res.getD k 0)) marked).setTable 0x6028 g).geometryCovers 0 g | .error _ => false) = true := by decide +kernel

/-- Hypotheses of BurstTriggers, by source. -/
theorem hyp_bursts :
    (regsSet up [(Obj.captureTriggerSource, 0)]).acceptsObj { Env.quiet with burst := .alone } box Obj.captureTriggerFire 1 = true ∧
    (regsSet up [(Obj.captureTriggerSource, 1)]).reg Obj.captureTriggerSource = 1 ∧ up.taskAlive 352 = true ∧
    (regsSet up [(Obj.captureTriggerSource, 2), (Obj.captureTriggerHead, 3)]).reg Obj.captureTriggerHead = (3 : HeadId).val ∧
    (regsSet up [(Obj.captureTriggerSource, 2), (Obj.captureTriggerHead, 3)]).reg Obj.captureTriggerHead ≠ (0 : HeadId).val ∧
    up.pinSeen 3 128 = true ∧ up.isSet (Obj.headTriggerPinEdge 3) = false ∧
    (regsSet up [(Obj.captureTriggerSource, 3)]).reg Obj.captureTriggerSource = 3 ∧
    due (BitVec.ofNat 64 (up.reg Obj.captureTriggerAt)) 0 = true ∧
    (regsSet up [(Obj.captureTriggerSource, 4)]).reg Obj.captureTriggerSource = 4 ∧
    (up.modCapture fun c => { c with state := 2 }).capture.state = 2 ∧ up.capture.state ≠ 2 ∧
    (∀ h : HeadId, (up.modCapture fun c => { c with state := 2 }).capture.partitions[h].items = []) := by decide +kernel

/-- Hypotheses of CaptureCommands; a slot that just fits the readout region and one that does not. -/
theorem hyp_capture :
    up.acceptsObj Env.quiet box Obj.captureArm 1 = true ∧ up.taskAlive 353 = true ∧
    up.acceptsObj Env.quiet box Obj.captureArm 0 = true ∧ up.taskAlive 354 = true ∧
    up.acceptsObj Env.quiet box (Obj.captureDiscard 3) 1 = true ∧
    up.capture.waiting = [] ∧ up.readoutBytes + [(0 : Byte)].length ≤ up.reg Obj.bufferReadoutSize * 1048576 ∧
    up.capture.readoutFull = false ∧ (regsSet up [(Obj.bufferReadoutSize, 0)]).reg Obj.bufferReadoutSize * 1048576 < up.readoutBytes + [(0 : Byte)].length := by decide +kernel

/-- Hypotheses of LevelsPaceThePage: a pier that does not own the page and one that does, at the high mark and at the pace mark. -/
theorem hyp_levels :
    scanning.scan = true ∧ scanning.activeAxis = none ∧
    owner.activeAxis = some 0 ∧
    (page 3).keystone.state = 3 ∧ (page 3).reg (Obj.axisKeystoneHighMark 0) ≤ ((page 3).levelMax 0).1 ∧
    (low.levelMax 0).1 ≤ low.reg (Obj.axisKeystonePaceMark 0) ∧ low.reg (Obj.axisKeystonePaceMark 0) < low.reg (Obj.axisKeystoneHighMark 0) := by decide +kernel

/-- Hypotheses of PagesMoveOn, the commands. -/
theorem hyp_pages :
    paced0.acceptsObj { Env.quiet with othersAgree := true } box (Obj.axisKeystoneCommand 0) 1 = true ∧ paced0.taskAlive (axisTaskNo 0 12) = true ∧
    paced0.pageStartViolations 0 true = [] ∧
    owner.acceptsObj Env.quiet box (Obj.axisKeystoneCommand 0) 2 = true ∧ owner.taskAlive (axisTaskNo 0 13) = true ∧
    (page 3).acceptsObj Env.quiet box (Obj.axisKeystoneCommand 0) 3 = true ∧ (page 3).taskAlive (axisTaskNo 0 14) = true ∧
    (page 3).keystone.state ≠ 0 ∧ (page 3).keystone.state ≠ 7 ∧ (page 3).activeAxis = some 0 ∧
    (page 3).acceptsObj Env.quiet box (Obj.axisKeystoneCommand 0) 4 = true ∧ (page 3).keystone.state ≠ 8 ∧
    scanning.feature 1 = true ∧ scanning.scan = true ∧ scanning.activeAxis ≠ some 0 ∧ scanning.acceptsObj Env.quiet box (Obj.axisKeystoneCommand 0) 3 = true ∧
    owner.pageViolations 0 = [] ∧ (page 3).pageViolations 0 = [] ∧
    owner.acceptsObj { Env.pair .other with othersAgree := true } box (Obj.axisKeystoneCommand 0) 1 = true := by decide +kernel

/-- Hypotheses of PagesMoveOn, the states of a page. -/
theorem hyp_pages_move :
    (page 4).activeAxis = some 0 ∧ (page 4).keystone.state = 4 ∧ (page 7).keystone.state = 7 ∧ (page 1).keystone.state = 1 ∧ (page 5).keystone.state = 5 ∧
    ((page 6).modKey fun k => { k with lowSince := some (-1000000000) }).mayResume 0 = true ∧
    idling.idleAt = some (later 0 idling.idlePeriod) ∧ due (later 0 idling.idlePeriod) (later 0 idling.idlePeriod) = true ∧ idling.keystone.approach = false ∧
    (page 1).keystone.forced = false ∧ (page 1).axes[(0 : AxisId)].profile = .rest := by decide +kernel

/-- Hypotheses of AxesAreCommanded: enable at 8 V and at 60 V, and disable in states 2, 4 and 0. -/
theorem hyp_axes :
    up.acceptsObj { Env.quiet with vm := List.replicate 2 8000, flt := 0 } box (Obj.axisCommand 0) 1 = true ∧ up.enableViolations 0 7000 false = [.hardware] ∧
    up.acceptsObj { Env.quiet with vm := List.replicate 2 8000, flt := 3 } box (Obj.axisCommand 0) 1 = true ∧ up.taskAlive (axisTaskNo 0 0) = true ∧
    up.enableViolations 0 8000 false = [] ∧ up.enableViolations 1 60000 false = [] ∧
    up.axes[(0 : AxisId)].state = .stopped ∧ up.keystone.state = 0 ∧
    (axisRun (.homing false 0) 5).acceptsObj Env.quiet box (Obj.axisCommand 0) 2 = true ∧ (axisRun (.homing false 0) 5).taskAlive (axisTaskNo 0 1) = true ∧
    (axisRun (.homing false 0) 5).axes[(0 : AxisId)].profile ≠ .rest ∧
    (axisIn .faulted).axes[(0 : AxisId)].state = .faulted ∧ (axisIn .faulted).acceptsObj Env.quiet box (Obj.axisCommand 0) 2 = true ∧
    up.acceptsObj Env.quiet box (Obj.axisCommand 0) 2 = true ∧
    (axisIn .stopping).axes[(0 : AxisId)].vel = 0 := by decide +kernel

/-- Hypotheses of AxesAreCommanded: moves by write and by task, jog, home, halt, quick stop, and a fault that clears. -/
theorem hyp_axes_go :
    moving.acceptsObj Env.quiet box (Obj.axisMoveTo 0) 256 = true ∧ moving.taskAlive (axisTaskNo 0 4) = true ∧
    moving.moveViolations 0 (moving.regI (Obj.axisTaskTarget 0)) = [] ∧
    moving.acceptsObj (Env.pair .other) box (Obj.axisMoveTo 0) 256 = true ∧
    (axisRun (.velocity 5) 5).acceptsObj (Env.pair .other) box (Obj.axisAction 0) 2 = true ∧
    hit.axes[(0 : AxisId)].limN = false ∧ hit.keystone.state ≠ 8 ∧
    moving.acceptsObj Env.quiet box (Obj.axisJog 0) 4294967295 = true ∧
    moving.acceptsObj Env.quiet box (Obj.axisAction 0) 1 = true ∧ moving.homeViolations 0 = [] ∧
    (axisRun (.homing false 0) 5).acceptsObj Env.quiet box (Obj.axisAction 0) 2 = true ∧ (axisRun (.homing false 0) 5).haltViolations 0 = [] ∧
    (axisRun (.homing false 0) 5).acceptsObj Env.quiet box (Obj.axisAction 0) 3 = true ∧
    hit.acceptsObj Env.quiet box (Obj.axisAction 0) 4 = true ∧ hit.axes[(0 : AxisId)].faults = [3] ∧ hit.axes[(0 : AxisId)].limP = false := by decide +kernel

/-- Hypotheses of AxesRun. -/
theorem hyp_axes_run :
    (axisRun (.brake true) 5).axes[(0 : AxisId)].profile = .brake true ∧ (axisRun (.brake false) 5).axes[(0 : AxisId)].profile = .brake false ∧
    (axisRun (.brake true) 5).axes[(0 : AxisId)].limP = false ∧ (axisRun (.brake true) 5).axes[(0 : AxisId)].limN = false ∧ (axisRun (.brake true) 5).limitsBind 0 = false ∧
    inside.axes[(0 : AxisId)].profile = .velocity 5 ∧ inside.limitsBind 0 = true ∧
    (inside.limitUnits 0).1 ≤ inside.axes[(0 : AxisId)].pos ∧ inside.axes[(0 : AxisId)].pos ≤ (inside.limitUnits 0).2 ∧
    powered.axes[(0 : AxisId)].driven = true ∧ (98000 : Int).natAbs ≤ 98000 ∧ powered.axes[(0 : AxisId)].mA.natAbs ≤ 2 ^ 24 ∧
    8000 ≤ 1000000 * powered.reg (Obj.axisDriveVmRatio 0) / 100000 ∧ 1000000 * powered.reg (Obj.axisDriveVmRatio 0) / 100000 ≤ 60000 ∧
    up.axes[(0 : AxisId)].driven = false ∧ up.axes[(0 : AxisId)].state = .stopped ∧ up.keystone.state ≠ 8 ∧
    (axisRun .rest 0).axes[(0 : AxisId)].holding = false ∧ passed 0 ((axisRun .rest 0).reg (Obj.axisDriveHoldDelay 0) * tMs) (BitVec.ofNat 64 ((axisRun .rest 0).reg (Obj.axisDriveHoldDelay 0) * tMs)) = true := by decide +kernel

/-- Hypotheses of LimitsHomingAndFaults. -/
theorem hyp_limits :
    (axisRun (.homing false 0) 5).homing 0 = some ((axisRun (.homing false 0) 5).reg (Obj.axisHomeMethod 0) == 2) ∧ turned.homing 0 = some (turned.reg (Obj.axisHomeMethod 0) == 2) ∧
    turning.axes[(0 : AxisId)].profile = .homing false 0 ∧ turning.reg (Obj.axisHomeMethod 0) = 2 ∧ decide (0 < turning.regI (Obj.axisHomeDirection 0)) = true ∧
    turned.homing 0 = some true ∧ turned.axes[(0 : AxisId)].limN = false ∧ up.homing 0 ≠ some true ∧
    (axisRun (.velocity 5) 5).keystone.state = 0 ∧ (axisRun (.velocity 5) 5).homing 0 = none ∧ (axisRun (.velocity 5) 5).axes[(0 : AxisId)].profile ≠ .rest ∧ 0 < (axisRun (.velocity 5) 5).axes[(0 : AxisId)].vel ∧
    (axisRun (.velocity (-5)) (-5)).axes[(0 : AxisId)].vel < 0 ∧
    up.axes[(0 : AxisId)].limN = false ∧ up.axes[(0 : AxisId)].limP = false ∧
    (regsSet up [(Obj.axisEncoderEnable 0, 1)]).reg (Obj.axisEncoderEnable 0) ≠ 0 ∧ (regsSet up [(Obj.axisEncoderEnable 0, 0)]).reg (Obj.axisEncoderEnable 0) = 0 ∧
    away.isSet (Obj.axisEncoderEnable 0) = true ∧ away.asleep = false ∧ away.axes[(0 : AxisId)].edges = [] ∧ (regsSet up [(Obj.axisEncoderEnable 0, 0)]).isSet (Obj.axisEncoderEnable 0) = false ∧
    (match rapid.axes[(0 : AxisId)].edges with | e :: _ => passed e.at_ (rapid.edgeMin 0 * tNs) 0 | [] => true) = false ∧
    away.axes[(0 : AxisId)].driven = true ∧ away.outsideWindow 0 = true ∧ away.axes[(0 : AxisId)].outsideSince = some 0 ∧ 1 ∉ away.axes[(0 : AxisId)].faults ∧
    passed 0 (away.reg (Obj.axisDevTime 0) * tUs) tSec = true ∧ away.axes[(0 : AxisId)].state = .running ∧ (98000 : Nat) < (98001 : Int).natAbs ∧
    ((0 : Fin 3) ≠ 1) ∧ (regsSet away [(Obj.axisEncoderMode 0, 0)]).reg (Obj.axisEncoderMode 0) = 0 ∧
    (up.modAxis 0 fun x => { x with faults := [1] }).axes[(0 : AxisId)].edges = [] ∧
    1 ∈ (up.modAxis 0 fun x => { x with faults := [1] }).axes[(0 : AxisId)].faults := by decide +kernel

/-- Hypotheses of PositionOnTheRing. -/
theorem hyp_position :
    encoded.acceptsObj { Env.quiet with crossing := none } box (Obj.axisBroadcast 0) 1 = true ∧
    encoded.acceptsObj { Env.quiet with crossing := some 3 } box (Obj.axisBroadcast 0) 1 = true ∧
    owner0.acceptsObj { Env.quiet with crossing := none } box (Obj.axisBroadcast 0) 0 = true ∧ owner0.reg (Obj.axisSourcePier 0) = owner0.reg Obj.ringPierNumber ∧
    owner0.ownAxis = some 0 ∧
    (fromRing.reg (Obj.headTriggerSource 0) = 4 ∧ fromRing.heads[(0 : HeadId)].state = .running ∧ (∀ g : HeadId, g ≠ 0 → fromRing.reg (Obj.headTriggerSource g) ≠ 4)) ∧
    due (later 0 (fromRing.reg (Obj.headTriggerBroadcastDelay 0))) 0 = false ∧
    quietScan.scan = true ∧ quietScan.reg (Obj.axisPositionValid 0) ≠ 0 ∧ quietScan.reg (Obj.axisEncoderEnable 0) ≠ 0 ∧ quietScan.activeAxis = none ∧ quietScan.ownAxis = none ∧
    (∀ h : HeadId, quietScan.reg (Obj.headTriggerSource h) ≠ 3) := by decide +kernel

/-- Hypotheses of CrossingsFireLines: four indices passed in one count. -/
theorem hyp_crossings :
    crossed.reg (Obj.headTriggerSource 0) = 3 ∧ crossed.headAxis 0 = 0 ∧ crossed.heads[(0 : HeadId)].state = .running ∧ crossed.activeAxis = none ∧ crossed.ownAxis = none ∧ crossed.scan = true ∧
    (crossed.headGrid 0).reach crossed.axes[(0 : AxisId)].prevCount < (crossed.headGrid 0).reach crossed.axes[(0 : AxisId)].count ∧
    0 ≤ (crossed.headGrid 0).reach crossed.axes[(0 : AxisId)].count ∧ (crossed.heads[(0 : HeadId)].crossIndex : Int) ≤ (crossed.headGrid 0).reach crossed.axes[(0 : AxisId)].count ∧ (crossed.heads[(0 : HeadId)].nextIndex : Int) ≤ (crossed.headGrid 0).reach crossed.axes[(0 : AxisId)].count ∧
    max ((crossed.headGrid 0).reach crossed.axes[(0 : AxisId)].prevCount + 1) (crossed.heads[(0 : HeadId)].crossIndex : Int) < (crossed.headGrid 0).reach crossed.axes[(0 : AxisId)].count ∧
    crossed.heads[(0 : HeadId)].held = false ∧ crossed.heads[(0 : HeadId)].lastTrigger = none ∧ crossed.countReached 0 = false := by decide +kernel

/-- Hypotheses of IlluminationAndLamps; a headroom 101 mV short and one 301 mV over. -/
theorem hyp_illumination :
    up.acceptsObj Env.quiet box (Obj.headIllumSeqRestart 0) 1 = true ∧ up.taskAlive (headTaskNo 0 18) = true ∧ up.taskAlive (headTaskNo 0 16) = true ∧
    up.taskAlive (headTaskNo 0 17) = true ∧ up.illum[(0 : HeadId)].boostOff = false ∧ up.illum[(0 : HeadId)].pulses < 256 ∧
    256 ≤ (boosted 0).illum[(0 : HeadId)].pulses ∧ (boosted 0).levelInForce (Obj.headIllumLevel 0) = 0 ∧
    (∀ k : Fin 4, (boosted 0).illum[(0 : HeadId)].rowMeasured[k] = true ∧ (boosted 0).illum[(0 : HeadId)].rowPulses[k] < 256) ∧
    (boosted (short - 101)).illum[(0 : HeadId)].headroom = some (short - 101) ∧ short - 101 < (up.reg (Obj.headIllumBoostHeadroom 0) : Int) - 100 ∧
    up.reg (Obj.headIllumBoostVSet 0) < up.reg (Obj.headIllumBoostVMax 0) ∧
    (boosted (short + 301)).illum[(0 : HeadId)].headroom = some (short + 301) ∧ (up.reg (Obj.headIllumBoostHeadroom 0) : Int) + 300 < short + 301 ∧
    (up.modIllum 0 fun x => { x with frameDue := some 0, frameLate := true }).illum[(0 : HeadId)].frameDue = some 0 ∧ up.reg (Obj.headIllumExtDrivers 0) = 0 := by decide +kernel

/-- Hypotheses of ExcitationWiresAndClamps, excitation and wires. -/
theorem hyp_excitation :
    up.taskAlive 288 = true ∧ up.taskAlive 289 = true ∧
    (regsSet up [(Obj.auxMode 0, 2)]).reg (Obj.auxMode 0) = 2 ∧ up.aux.channels[(0 : AuxId)].overload = false ∧
    (regsSet (auxIn .running) [(Obj.auxMode 0, 2)]).excited 0 = true ∧ (regsSet (auxIn .running) [(Obj.auxMode 0, 2)]).watched 0 false = true ∧
    up.aux.excOff = false ∧
    (up.modChannel 0 fun c => { c with overload := true }).aux.channels[(0 : AuxId)].overload = true ∧
    up.aux.channels[(0 : AuxId)].broken = false ∧ (regsSet up [(Obj.auxMode 0, 1)]).reg (Obj.auxMode 0) ≠ 0 ∧
    (up.modChannel 0 fun c => { c with broken := true }).aux.channels[(0 : AuxId)].broken = true := by decide +kernel

/-- Hypotheses of ExcitationWiresAndClamps, clamps. -/
theorem hyp_clamps :
    (∀ k : Bool, up.aux.channels[(0 : AuxId)].clamp ≠ .engaged k) ∧
    (clamped (.engaged true)).aux.channels[(0 : AuxId)].clamp = .engaged true ∧ (clamped (.engaged true)).acceptsObj Env.quiet box (Obj.auxClampFlag 0) 0 = true ∧
    (clamped (.recovering true)).aux.channels[(0 : AuxId)].clamp = .recovering true ∧
    up.acceptsObj Env.quiet box (Obj.auxClampFlag 0) 0 = true ∧ up.taskAlive 290 = true := by decide +kernel

/-- Hypotheses of SequencerAndLanes, the sequencer. -/
theorem hyp_sequencer :
    up.acceptsObj Env.quiet box Obj.auxCommand 1 = true ∧ up.taskAlive 292 = true ∧ up.seqViolations = [] ∧
    up.aux.state = .stopped ∧ up.aux.refReady = false ∧ (up.modAux fun a => { a with refReady := true }).aux.refReady = true ∧
    (auxIn .running).acceptsObj Env.quiet box Obj.auxCommand 2 = true ∧ (auxIn .running).taskAlive 293 = true ∧
    up.acceptsObj Env.quiet box Obj.auxCommand 2 = true ∧
    (auxIn .starting).acceptsObj Env.quiet box Obj.auxCommand 2 = true ∧ (auxIn .starting).aux.state = .starting ∧
    ((auxIn .stopping).aux.state = .stopping ∧ (∀ l : Fin 2, (auxIn .stopping).aux.lanes[l].active = false)) ∧
    up.reg Obj.auxRefEarly = 0 ∧ (regsSet up [(Obj.auxRefEarly, 1)]).reg Obj.auxRefEarly ≠ 0 ∧
    up.taskAlive 294 = true ∧ (up.modAux fun a => { a with refOn := true }).aux.refOn = true ∧
    ((auxIn .starting).modAux fun a => { a with refOn := true }).aux.state = .starting := by decide +kernel

/-- Hypotheses of SequencerAndLanes, lane 0 with one entry of channel 0. -/
theorem hyp_lanes :
    (seqd.laneList 0).length = 1 ∧ seqd.aux.state = .running ∧ seqd.passesLeft 0 = true ∧ seqd.aux.lanes[(0 : Fin 2)].inPass = false ∧
    due seqd.aux.lanes[(0 : Fin 2)].readyAt 0 = true ∧ seqd.reg (Obj.auxSeqPeriod 0) = 0 ∧
    (regsSet (lane seqd) [(Obj.auxSeqPeriod 0, 1)]).reg (Obj.auxSeqPeriod 0) ≠ 0 ∧ due seqd.aux.lanes[(0 : Fin 2)].nextPass 0 = true ∧
    (lane seqd).aux.lanes[(0 : Fin 2)].inPass = true ∧ seqd.aux.lanes[(0 : Fin 2)].late = false ∧
    ((lane seqd).laneEntry 0).isSome = true ∧ (lane seqd).aux.lanes[(0 : Fin 2)].active = false ∧ (lane seqd).aux.lanes[(0 : Fin 2)].repeats ≠ 0 ∧
    seqd.reg Obj.auxAdcMode = 0 ∧ (busy 1).aux.lanes[(0 : Fin 2)].discard ≠ 0 ∧ ((busy 1).laneEntry 0).isSome = true ∧ (busy 1).aux.lanes[(0 : Fin 2)].active = true ∧
    ((swapped).laneEntry 0).map (fun e => (swapped.isSet (Obj.auxAmpChop (channelOf e.ch)), swapped.isSet (Obj.auxSwap (channelOf e.ch)), swapped.reg (Obj.auxMode (channelOf e.ch)))) = some (false, true, 3) ∧
    (busy 0).aux.lanes[(0 : Fin 2)].pairA = none ∧ (busy 0).aux.lanes[(0 : Fin 2)].discard = 0 ∧
    (regsSet seqd [(Obj.auxAdcMode, 1), (Obj.auxWbTest 0, 1)]).reg Obj.auxAdcMode ≠ 0 ∧
    (regsSet seqd [(Obj.auxAdcMode, 1), (Obj.auxWbTest 0, 1)]).isSet (Obj.auxWbTest (channelOf ((regsSet seqd [(Obj.auxAdcMode, 1), (Obj.auxWbTest 0, 1)]).reg Obj.auxAdcContChannel))) = true := by decide +kernel

/-- Hypotheses of SamplesFiltersAndFifo, samples. -/
theorem hyp_samples :
    (regsSet up [(Obj.auxFiltOrder 0, 0)]).reg (Obj.auxFiltOrder 0) = 0 ∧ up.aux.channels[(0 : AuxId)].clamp = .released ∧
    (clamped (.engaged false)).aux.channels[(0 : AuxId)].clamp = .engaged false ∧ (regsSet up [(Obj.auxFiltOrder 0, 3)]).reg (Obj.auxFiltOrder 0) ≠ 0 := by decide +kernel

/-- Hypotheses of SamplesFiltersAndFifo, windows: one whose support is not full, an empty one, and one with a result. -/
theorem hyp_filters :
    (filtered 0).reg (Obj.auxFiltOrder 0) ≠ 0 ∧ (filtered 0).aux.state = .running ∧ (filtered 0).aux.channels[(0 : AuxId)].windows + 1 < (regsSet (filtered 0) [(Obj.auxFiltOrder 0, 3)]).reg (Obj.auxFiltOrder 0) ∧
    due (later 0 ((filtered 0).windowCycles 0 * 400)) (BitVec.ofNat 64 ((filtered 0).windowCycles 0 * 400)) = true ∧
    (filtered 0).reg (Obj.auxFiltOrder 0) ≤ (filtered 0).aux.channels[(0 : AuxId)].windows + 1 ∧ (filtered 0).aux.channels[(0 : AuxId)].samples = [] ∧
    filterCode 1 400 400 [(300, 7)] = some 7 := by decide +kernel

/-- Hypotheses of SamplesFiltersAndFifo, the FIFO and an echo. -/
theorem hyp_fifo :
    (up.modAux fun a => { a with fifo := [[1]] }).aux.fifo = [[1]] ∧ up.served = true ∧ up.readCodes box 0x4048 3 = [] ∧ up.aux.fifo = [] ∧
    up.acceptsObj Env.quiet box Obj.auxFifoFlush 1 = true ∧ up.taskAlive 295 = true ∧
    echoing.reg (Obj.echoMode 0) = 1 ∧ 0 ≤ echoing.echoOut 0 ∧ echoing.echoOut 0 ≤ 65536 := by decide +kernel

/-- Hypotheses of EventsAndStorms. -/
theorem hyp_fabric :
    up.acceptsObj Env.quiet box (Obj.fabricTaskSelect 511) 1023 = true ∧ (latched 33).fabric.latches.get? 33 = some ⟨0, false⟩ ∧ (latched 33).taskAlive 33 = true ∧
    up.fabric.latches.get? 33 = none ∧ up.acceptsObj Env.quiet box Obj.fabricFire 1023 = true ∧
    ({ up with fabric := { up.fabric with tripped := [(1023, 0)] } }).acceptsObj Env.quiet box Obj.fabricStormRearm 1023 = true ∧
    (stormy 63).asleep = false ∧ (stormy 63).fabric.windows.get? 5 = some ⟨0, 63⟩ ∧ passed 0 16000 16000 = true ∧ passed 0 16000 15999 = false ∧
    up.fabric.relayIn.get? 17 = none ∧ ({ up with fabric := { up.fabric with relayIn := [(17, (0 : Time))] } }).fabric.relayIn.get? 17 = some (0 : Time) ∧ passed 0 (2 * tNs) 31 = false := by decide +kernel

/-- Hypotheses of EventsAndStorms: the 64th event of a window, the 65th, and one 321 ticks after a trip. -/
theorem hyp_storms :
    (stormy 63).fabric.tripped.get? 5 = none ∧ (63 : Nat) < 64 ∧ passed 0 16000 (stormy 63).now = false ∧
    Map.wf (stormy 64).fabric.tripped = true ∧ (stormy 64).fabric.windows.get? 5 = some ⟨0, 64⟩ ∧ 64 ≤ (64 : Nat) ∧
    passed 0 321 321 = true ∧
    Map.wf up.fabric.latches = true ∧ Map.wf (latched 33).fabric.coincidences = true := by decide +kernel

/-- Hypotheses of TimersRun. -/
theorem hyp_timers :
    up.taskAlive 480 = true ∧ up.taskAlive 481 = true ∧ up.taskAlive 511 = true ∧
    (timer 1).reg (Obj.timerMode 0) = 1 ∧ (timer 2).reg (Obj.timerMode 0) = 2 ∧ (timer 3).reg (Obj.timerMode 0) = 3 ∧ (timer 4).reg (Obj.timerMode 0) = 4 ∧
    (timer 3).fabric.timers[(0 : TimerId)].count + 1 < 2 ∧ (1 : Nat) ≤ (timer 3).fabric.timers[(0 : TimerId)].count + 1 ∧
    (timer 4).reg (Obj.timerClock 0) ≠ 1 ∧ due 1 0 = false ∧ (regsSet (timer 4) [(Obj.timerClock 0, 1)]).reg (Obj.timerClock 0) = 1 ∧
    ((timer 1).modTimer 0 fun x => { x with running := true }).fabric.timers[(0 : TimerId)].running = true ∧ due up.fabric.timers[(0 : TimerId)].endAt 0 = true := by decide +kernel

/-- Hypotheses of ChannelsAreCommanded, by write and through BAR0. -/
theorem hyp_channels :
    (chanIn 1 3).acceptsObj Env.quiet box (Obj.dmaCommand 8) 1 = true ∧ ((chanIn 1 3).activeOf 8).st ≠ 2 ∧ ((chanIn 1 3).shadowOf 8).st = 1 ∧
    (chanIn 1 2).acceptsObj Env.quiet box (Obj.dmaCommand 8) 1 = true ∧ ((chanIn 1 2).activeOf 8).st = 2 ∧
    (chanIn 0 2).acceptsObj Env.quiet box (Obj.dmaCommand 8) 2 = true ∧ (chanIn 0 2).dma.channels[(8 : ChanId)].begun = false ∧
    ((chanIn 0 2).modDma 8 fun x => { x with begun := true }).acceptsObj Env.quiet box (Obj.dmaCommand 8) 2 = true ∧ ((chanIn 0 2).modDma 8 fun x => { x with begun := true }).dma.channels[(8 : ChanId)].begun = true ∧
    up.acceptsObj Env.quiet box (Obj.dmaCommand 8) 3 = true ∧ (up.activeOf 8).st ≠ 2 ∧ up.dma.channels[(8 : ChanId)].ending = false ∧
    (chanIn 1 0).acceptsObj Env.quiet box (Obj.dmaCommand 8) 4 = true ∧ (up.modDma 8 fun x => { x with stream := true }).dma.channels[(8 : ChanId)].stream = true ∧
    (chanIn 1 3).host.linkUp = true ∧ (chanIn 1 3).channelViolations 8 = [] ∧ (chanIn 1 3).barMinority 0x2400 = false ∧
    Map.wf (chanIn 1 3).regs = true ∧
    (regsSet (chanIn 1 3) [(Obj.dmaShadowCtrl 8, 0)]).taskAlive (416 + 8) = true ∧ ((chanIn 1 3).shadowOf 8).pace ≤ 1 := by decide +kernel

/-- Hypotheses of ShadowsAndActivation. -/
theorem hyp_shadows :
    loadable.acceptsObj Env.quiet box (Obj.dmaShadowCtrl 8) (0 : BitVec 32).toNat = true ∧
    loadable.host.linkUp = true ∧ loadable.shadowViolations 8 = [] ∧ loadable.barMinority 0x2440 = false ∧
    loadable.checker 8 { loadable.shadowOf 8 with ctrl := (0 : BitVec 32).toNat } = none ∧
    loadable.checker 8 { loadable.shadowOf 8 with ctrl := (0xF0000000 : BitVec 32).toNat } = some .range ∧
    (0xF0000000 : BitVec 32).toNat / 256 % 64 = 0 ∧ (0x100 : BitVec 32).toNat / 256 % 64 ≠ 0 ∧
    (4 ≤ (8 : ChanId).val ∧ paced.taskAlive (416 + 8) = true ∧ (paced.activeOf 8).st = 2 ∧ 2 ≤ (paced.activeOf 8).pace) ∧
    paced.dma.channels[(8 : ChanId)].admitted = true ∧ paced.reg (Obj.dmaPending 8) < 65535 ∧
    up.taskAlive 416 = true ∧ ((regsSet up [(Obj.dmaFenceMask, 256)]).reg Obj.dmaFenceMask).testBit 8 = true ∧ (up.activeOf 8).st ≠ 2 ∧
    up.taskAlive 417 = true ∧ ((regsSet up [(Obj.dmaStopMask, 256)]).reg Obj.dmaStopMask).testBit 8 = true ∧ (chanIn 0 2).dma.channels[(8 : ChanId)].stream = false ∧
    ((chanIn 1 2).modDma 8 fun x => { x with fetching := true }).dma.channels[(8 : ChanId)].fetching = true ∧ ((chanIn 1 2).activeOf 8).st = 2 ∧ ((chanIn 1 2).shadowOf 8).st = 1 ∧
    (linked.shadowOf 8).st ≠ 1 ∧ (linked.activeOf 8).st = 2 ∧ linked.dma.channels[(8 : ChanId)].fetching = true ∧
    linked.checker 8 (descOf (linked.memRead (linked.activeOf 8).link 64)) = none := by decide +kernel

/-- Hypotheses of DescriptorsEnd. -/
theorem hyp_ends :
    (up.modDma 8 fun x => { x with fence := true }).dma.channels[(8 : ChanId)].fence = true ∧ up.dma.channels[(8 : ChanId)].ending = false ∧
    (chanIn 0 2).dma.channels[(8 : ChanId)].stream = false ∧ ((chanIn 0 2).activeOf 8).st = 2 ∧ ((chanIn 0 2).shadowOf 8).st ≠ 1 := by decide +kernel

/-- Hypotheses of BeatsMoveBytes, at a run of 64 and of 3 bytes. -/
theorem hyp_beats :
    (∀ k : ChanId, (chanRun 0 64).dma.channels[k].stream = false ∧ (k ≠ 8 → ((chanRun 0 64).activeOf k).st ≠ 2)) ∧
    ((chanRun 0 64).activeOf 8).st = 2 ∧ (chanRun 0 64).dma.channels[(8 : ChanId)].ending = false ∧ ((chanRun 0 64).activeOf 8).pace = 0 ∧
    ((chanRun 0 64).activeOf 8).srcSpace = 0 ∧ ((chanRun 0 64).activeOf 8).dstSpace = 0 ∧ memWf (chanRun 0 64).mem = true ∧
    min 64 (((chanRun 0 3).activeOf 8).n0 - (chanRun 0 3).dma.channels[(8 : ChanId)].off) = 3 := by decide +kernel

/-- Hypotheses of SpansTrainAndFail. -/
theorem hyp_spans :
    up.reg (Obj.spanState 0) = 0 ∧ up.reg (Obj.testSpanLoopback 0) = 0 ∧ up.ballsTaken = false ∧ up.taskAlive (384 + 0) = true ∧
    (spanIn 1).reg (Obj.spanState 0) = 1 ∧ 4 ≤ popCount (31 : BitVec 5).toNat 5 ∧ 4 ≤ popCount (30 : BitVec 5).toNat 5 ∧ popCount (7 : BitVec 5).toNat 5 < 4 ∧
    popCount (31 : BitVec 5).toNat 5 = 5 ∧ popCount (30 : BitVec 5).toNat 5 ≠ 5 ∧
    spared.spanUp 0 = true ∧ spared.ring.spans[(0 : SpanId)].spare = some (4 : Fin 5).val ∧ 4 ≠ (1 : Fin 5).val ∧
    (spared.reg (Obj.spanLaneMap 0)).testBit (1 : Fin 5).val = true ∧ spared.ring.spans[(0 : SpanId)].changing = none ∧
    (spared.modSpan 0 fun x => { x with changing := some 1 }).ring.spans[(0 : SpanId)].changing = some 1 ∧
    2 ≤ (spanIn 2).reg (Obj.spanState 0) ∧ (spanIn 2).ring.spans[(0 : SpanId)].spare = none ∧ (spanIn 0).reg (Obj.spanState 0) = 0 ∧
    ((regsSet (spanIn 2) [(Obj.spanLaneMap 0, 15)]).reg (Obj.spanLaneMap 0)).testBit 1 = true := by decide +kernel

/-- Hypotheses of FramesAndMessages. -/
theorem hyp_frames :
    (regsSet (spanIn 2) [(Obj.spanState 1, 2)]).spanUp 1 = true ∧ (spanIn 2).ring.spans[(1 : SpanId)].changing = none ∧
    (1 : Nat) ≠ (regsSet (spanIn 2) [(Obj.ringPierNumber, 0)]).reg Obj.ringPierNumber ∧
    (spanIn 2).spanUp ((spanIn 2).frameSpan 0) = true ∧ (spanIn 2).ring.spans[(spanIn 2).frameSpan 0].changing = none ∧
    (spanIn 2).spanUp 0 = true ∧ 0 % 4096 = (spanIn 2).ring.spans[(0 : SpanId)].rxSeq ∧ 1 % 4096 ≠ (spanIn 2).ring.spans[(0 : SpanId)].rxSeq ∧
    (⟨0, 3, 1, [], none, none⟩ : Frame).dest ≠ (regsSet (spanIn 2) [(Obj.ringPierNumber, 0)]).reg Obj.ringPierNumber ∧
    (⟨0, 0, 1, [], none, some (0, .ok)⟩ : Frame).dest = (regsSet (spanIn 2) [(Obj.ringPierNumber, 0)]).reg Obj.ringPierNumber ∧ (⟨0, 0, 1, [], none, some (0, .ok)⟩ : Frame).cls ≠ 2 ∧
    (⟨0, 0, 1, [], none, some (0, .ok)⟩ : Frame).dma = none ∧ (⟨0, 0, 1, [], none, some (0, .ok)⟩ : Frame).answer = some (0, .ok) ∧
    (spanIn 2).ring.spans[(0 : SpanId)].replayed = none ∧ (replayed 8).ring.spans[(0 : SpanId)].replayed = some (7, 8) ∧ (replayed 8).spanUp 0 = true ∧
    (regsSet up [(Obj.ringPierNumber, 0), (Obj.ringAbutmentA, 0)]).abutments.contains ((regsSet up [(Obj.ringPierNumber, 0), (Obj.ringAbutmentA, 0)]).reg Obj.ringPierNumber) = true ∧
    up.capture.partitions[(0 : HeadId)].items = [] ∧ (4 : ChanId).val = 4 + (0 : HeadId).val ∧
    streamed.capture.partitions[(0 : HeadId)].items = [.record ⟨7, 0, [], true, true, 0⟩] ∧ (7 : BitVec 48).toNat = 7 ∧ 0 < streamed.dma.channels[(4 : ChanId)].sent ∧
    (up.modDma 4 fun x => { x with hold := true }).dma.channels[(4 : ChanId)].hold = true := by decide +kernel

/-- Hypotheses of RingTimeIsKept. -/
theorem hyp_times :
    (timeIn 4).reg Obj.ringTimeState = 4 ∧ (timeIn 0).reg Obj.ringTimeState = 0 ∧ 1000 < (-1001 : Int).natAbs ∧ (1000 : Int).natAbs ≤ 1000 ∧
    ((timeIn 1).modRing fun x => { x with lockSince := some 0 }).ring.lockSince = some 0 ∧ (timeIn 1).reg Obj.ringTimeState = 1 ∧
    passed 0 tMs (BitVec.ofNat 64 tMs) = true ∧ passed 0 (8 * tUs) (BitVec.ofNat 64 (8 * tUs)) = true ∧
    ((timeIn 2).modRing fun x => { x with lastSync := some 0 }).ring.lastSync = some 0 ∧ (timeIn 2).reg Obj.ringTimeState = 2 ∧
    ((timeIn 3).modRing fun x => { x with everLocked := true }).reg Obj.ringTimeState = 3 ∧ ((timeIn 3).modRing fun x => { x with everLocked := true }).ring.everLocked = true ∧
    (0 : Int).natAbs ≤ (timeIn 3).reg Obj.ringTimeSlewMax * tNs ∧ (timeIn 3).reg Obj.ringTimeSlewMax * tNs < (1000000000000 : Int).natAbs ∧
    up.taskAlive 386 = true ∧ (timeIn 4).timePath ≠ some 0 ∧
    (regsSet (timeIn 0) [(Obj.ringTimeSource, 1), (Obj.ringPierNumber, 0)]).timePath = some ((regsSet (timeIn 0) [(Obj.ringTimeSource, 1), (Obj.ringPierNumber, 0)]).frameSpan 1) ∧
    (∀ h : HeadId, (timeIn 3).heads[h].state ≠ .running) := by decide +kernel

/-- Hypotheses of EpochsAndRingCommands, with a majority, a half with pier 0 and a half without it. -/
theorem hyp_epochs :
    numbered.ring.start = none ∧ numbered.reg Obj.ringPierNumber ≠ 0xFF ∧ (anEpoch 3).wrapAfter ≠ none ∧
    ((List.range 64).filter fun p => (anEpoch 3).members.getLsbD p) = [0, 1] ∧ numbered.reg Obj.ringConfigured = 4 ∧ numbered.ring.members ≠ [] ∧
    numbered.givesState [2] false = true ∧ numbered.givesState [0] true = false ∧ (5 : Int).natAbs ≤ numbered.reg Obj.ringTimeSlewMax * tNs ∧
    ({ numbered with ring := { numbered.ring with members := [] } }).ring.members = [] ∧
    ((List.range 64).filter fun p => (anEpoch 6).members.getLsbD p) = [1, 2] ∧ 4 = 2 * [1, 2].length ∧ 4 < 2 * [0, 1, 2].length ∧
    (regsSet up [(Obj.ringPierNumber, 0xFF)]).reg Obj.ringPierNumber = 0xFF ∧
    (regsSet up [(Obj.ringRoot, 0)]).rootOf [⟨true, 0, some 2, some 1⟩] = ⟨true, 0, some 2, some 1⟩ ∧ (regsSet up [(Obj.ringRoot, 0)]).rootOf [⟨true, 0, none, some 1⟩] = ⟨true, 0, none, some 1⟩ ∧
    (4 : Nat) ≠ 0 ∧ 4 - 1 < 64 ∧ (0 : Nat) < 5 ∧ 5 < 64 := by decide +kernel

/-- Hypotheses of EpochsAndRingCommands. -/
theorem hyp_ring_wide :
    (regsSet up [(Obj.ringLevel, 1)]).accepts Env.quiet box 0x2601 3 (leBytes 1 (2 : BitVec 32).toNat) = true ∧
    owning.acceptsObj Env.quiet box (Obj.axisKeystoneCeiling 0) (5000 : BitVec 32).toNat = true ∧ owning.activeAxis = some 0 ∧
    noHeads.acceptsObj { Env.quiet with banks := [], startFail := none, epoch := false } box Obj.ringStartAt (80000000 : Time).toNat = true ∧
    timeDiff 79999999 0 < 80000000 ∧ 80000000 ≤ timeDiff 80000000 0 ∧ noHeads.startHeads = [] ∧ leading.leads = true ∧ following.leads = false ∧ up.allStopped = true ∧ up.thermal.changes = [] ∧ (headIn .running up).allStopped = false ∧
    leading.accepts Env.quiet box 0x2601 3 (leBytes 1 2) = true ∧ following.accepts Env.quiet box 0x2601 3 (leBytes 1 2) = true ∧
    leading.acceptsObj Env.quiet box (Obj.axisKeystoneCeiling 0) 5000 = true ∧
    (up.ring.members.filter (· != (regsSet up [(Obj.ringPierNumber, 0)]).reg Obj.ringPierNumber)) = [] ∧ ([0, 1].filter (· != (regsSet up [(Obj.ringPierNumber, 0)]).reg Obj.ringPierNumber)) = [1] ∧
    noHeads.acceptsObj { Env.quiet with banks := [], startFail := some (1, 2, .deviceState), epoch := false } box Obj.ringStartAt (80000000 : Time).toNat = true ∧
    Map.wf up.thermal.caps = true := by decide +kernel

/-- Hypotheses of LinkAndOffers. -/
theorem hyp_links :
    ((8 : Nat) < 256 ∧ (5 : Fin 6).val = 5 ∧ ((3 : Fin 6).val < 5 ∨ 8 < 8) ∧ up.host.linkUp = true) ∧
    (regsSet up [(Obj.hostBusMaster, 1), (Obj.bufferReadoutSize, 4096)]).reg Obj.hostBusMaster ≠ 0 ∧ (regsSet up [(Obj.hostBusMaster, 1), (Obj.bufferReadoutSize, 4096)]).reg Obj.bufferReadoutSize ≠ 0 ∧
    up.reg Obj.hostBusMaster = 0 ∧ up.asleep = false ∧ up.ballsTaken = false ∧ up.power.phase ≠ .held ∧ up.power.pcieRef = true := by decide +kernel

/-- Hypotheses of MailboxRequestsAndAnswers, a read. -/
theorem hyp_mail_read :
    up.host.linkUp = true ∧ up.host.ready = true ∧ up.served = true ∧ up.host.slots[(0 : SlotId)].state ≠ 1 ∧
    ((findRow 0x2700 1).map fun row => decide (row.ty ≠ .table) && (row.ty.bits == 0 || 1 == row.ty.bits / 8)) = some true ∧
    up.readCodes box 0x2700 1 = [] ∧ (1 : BitVec 32).toNat ≤ 4064 ∧ (0x2700 : BitVec 16) ≠ 0x4048 := by decide +kernel

/-- Hypotheses of MailboxRequestsAndAnswers, a write. -/
theorem hyp_mail_write :
    ((findRow 0x2700 1).map fun row => 8 == row.ty.bits) = some true ∧ [(1 : Byte)].length ≤ 4064 ∧
    asked.accepts Env.quiet box 0x2700 1 [1] = true ∧ (asked.writeDo Env.quiet box 0x2700 1 1).isNone = true := by decide +kernel

/-- Hypotheses of MailboxRequestsAndAnswers, a table (its contents at hyp_table_contents). -/
theorem hyp_mail_tables :
    (0x6010 : BitVec 16).toNat = 0x6010 + (0 : HeadId).val ∧ (64 : BitVec 64).toNat % 4 = 0 ∧
    up.tableCodes box 0x6010 = [] ∧ up.control.transfers = [] ∧ up.firmware.stage = [] ∧
    Map.wf up.regs = true ∧ Map.wf up.tables = true ∧ memWf up.mem = true ∧
    (List.replicate 1024 (0 : Byte)).length % 4 = 0 ∧ (1024 : BitVec 32).toNat % 4 = 0 ∧
    ((findRow 0x6050 0).map fun row => row.ty) = some .table ∧ up.readCodes box 0x6050 0 = [] ∧ (up.table 0x6050).length ≤ (1024 : BitVec 32).toNat := by decide +kernel

/-- Hypotheses of MailboxRequestsAndAnswers. -/
theorem hyp_mail_answers :
    (asked.modSlot 0 fun x => { x with answer := some .ok }).host.slots[(0 : SlotId)].answer = some .ok ∧
    (asked.modSlot 0 fun x => { x with answer := some .ok }).host.slots[(0 : SlotId)].state = 1 ∧
    asked.host.slots[(0 : SlotId)].state = 1 ∧ asked.host.slots[(0 : SlotId)].answer = none ∧ up.readCodes (.tunnel 3) 0x2700 1 = [] ∧
    (((0 : BitVec 8) = 0 ∨ 4 < (0 : BitVec 8).toNat) ∧ 4 < (5 : BitVec 8).toNat) := by decide +kernel

/-- Hypotheses of QueuesDeliver, by write and through BAR0, and acknowledgements at A, at W and either side. -/
theorem hyp_queues :
    sized.acceptsObj Env.quiet box (Obj.hostQueueEnable 0) 1 = true ∧ sized.reg (Obj.hostQueueEnable 0) = 0 ∧
    2 * sized.largestSlot 0 ≤ 2 ^ sized.reg (Obj.hostQueueSizeLog2 0) ∧ sized.host.linkUp = true ∧ sized.barMinority 0x2650 = false ∧
    (delivered 0 4096).acceptsObj Env.quiet box (Obj.hostQueueEnable 0) 0 = true ∧ (delivered 0 4096).reg (Obj.hostQueueEnable 0) = 1 ∧
    (delivered 64 4096).acceptsObj Env.quiet box (Obj.hostQueueAckPos 0) (63 : BitVec 64).toNat = true ∧
    (delivered 64 4096).queueFill 0 < ((63 : BitVec 64).toNat + 2 ^ 64 - (delivered 64 4096).queueA 0) % 2 ^ 64 ∧
    (delivered 64 4096).queueFill 0 < ((4097 : BitVec 64).toNat + 2 ^ 64 - (delivered 64 4096).queueA 0) % 2 ^ 64 ∧
    ((64 : BitVec 64).toNat + 2 ^ 64 - (delivered 64 4096).queueA 0) % 2 ^ 64 ≤ (delivered 64 4096).queueFill 0 ∧
    ((4096 : BitVec 64).toNat + 2 ^ 64 - (delivered 64 4096).queueA 0) % 2 ^ 64 ≤ (delivered 64 4096).queueFill 0 ∧
    (delivered 0 64).barMinority 0x2650 = false ∧
    ((delivered 0 64).modQueue 0 fun x => { x with unsignalled := some 0 }).host.queues[(0 : QueueId)].unsignalled = some 0 ∧
    (regsSet up [(Obj.hostQueueCoalesceUs 0, 1)]).reg (Obj.hostQueueCoalesceUs 0) ≠ 0 ∧ passed 0 (1 * tUs) 16000 = true ∧
    (regsSet (delivered 0 64) [(Obj.hostQueueStallUs 0, 1)]).reg (Obj.hostQueueStallUs 0) ≠ 0 ∧ (delivered 0 64).host.queues[(0 : QueueId)].stalled = false ∧
    (delivered 0 64).queueFill 0 ≠ 0 ∧ passed 0 (1 * tUs) 16000 = true ∧ (delivered 0 64).host.queues[(0 : QueueId)].movedAt = 0 := by decide +kernel

/-- Hypotheses of Bar0Accesses. -/
theorem hyp_dropped :
    (delivered 0 0).host.linkUp = true ∧ (delivered 0 0).reg (Obj.hostQueueEnable 0) ≠ 0 ∧ (3 : ChanId).val < 4 := by decide +kernel

/-- Hypotheses of NmtAndBusErrors. -/
theorem hyp_nmt :
    up.canOn = true ∧ up.can.nmt ≠ .initialisation ∧ up.can.nodeId = 127 ∧ (0 : Fin 128).val = 0 ∧ (127 : Fin 128).val = up.can.nodeId ∧
    up.levelInForce Obj.mgmtLevel ≠ 1 ∧ up.reg Obj.canNmtReset = 0 ∧ (regsSet up [(Obj.canNmtReset, 1)]).reg Obj.canNmtReset ≠ 0 ∧
    (5 : Fin 128).val ≠ 0 ∧ (5 : Fin 128).val ≠ up.can.nodeId := by decide +kernel

/-- Hypotheses of UsdoAndPdos, with three sessions and with four. -/
theorem hyp_usdo :
    (clients 4).usdoServes = true ∧ (9 : Fin 128).val ∉ (clients 4).can.sessions ∧ 4 ≤ (clients 4).can.sessions.length ∧
    (clients 3).usdoServes = true ∧ (9 : Fin 128).val ∉ (clients 3).can.sessions ∧ (clients 3).can.sessions.length < 4 ∧
    (0 : Nat) < ((findRow 0x2700 1).map fun row => ((clients 3).readFor (.can 9) row 0x2700 1).length).getD 0 ∧ (clients 3).transferOf (.can 9) 0x2700 = none ∧
    (halfway.transferOf (.can 1) 0x2700 = some ⟨.can 1, 0x2700, 1, .write, none, [], [], 0⟩) ∧ passed 0 (tSec + 1) 0 = false ∧ (1 : Fin 128).val ∈ halfway.can.sessions ∧
    (findRow 0x2700 1).isSome = true ∧ (clients 3).readCodes (.can 9) 0x2700 1 = [] ∧ (0x2700 : BitVec 16) ≠ 0x4048 ∧
    ((clients 3).modCan fun x => { x with sessions := x.sessions ++ [9] }).accepts Env.quiet (.can 9) 0x2700 1 [1] = true ∧
    (((clients 3).modCan fun x => { x with sessions := x.sessions ++ [9] }).writeDo Env.quiet (.can 9) 0x2700 1 1).isNone = true := by decide +kernel

/-- Hypotheses of UsdoAndPdos, TPDOs. -/
theorem hyp_tpdos :
    (mapped 0).pdosRun = true ∧ (mapped 0).reg (Obj.tpdoMapCount 0) ≠ 0 ∧ ((mapped 0).reg (Obj.tpdoCobId 0)).testBit 31 = false ∧ (mapped 0).taskAlive (464 + 0) = true ∧
    (mapped 0).reg (Obj.tpdoType 0) = 0 ∧ (mapped 1).reg (Obj.tpdoType 0) = 1 ∧ (mapped 2).reg (Obj.tpdoType 0) = 2 ∧ (mapped 2).can.tpdos[(0 : Fin 8)].syncs = 0 ∧
    (mapped 254).tpdoEvent 0 = true ∧ (mapped 254).can.tpdos[(0 : Fin 8)].lastSent = none ∧ (mapped 254).can.tpdos[(0 : Fin 8)].lastData = none ∧
    (regsSet (mapped 254) [(Obj.tpdoEventTimer 0, 1)]).reg (Obj.tpdoEventTimer 0) ≠ 0 ∧ (mapped 254).pdosRun = true ∧
    (∀ k : Fin 8, k ≠ 0 → (mapped 254).tpdoEvent k = false ∧ (mapped 1).reg (Obj.tpdoType k) = 0) := by decide +kernel

/-- Hypotheses of UsdoAndPdos, RPDO 0 onto sub-index 1 of 0x2700. -/
theorem hyp_rpdos :
    (received 1).pdosRun = true ∧ ((received 1).reg (Obj.rpdoCobId 0)).testBit 31 = false ∧ (received 0).reg (Obj.rpdoMapCount 0) = 0 ∧ (received 1).reg (Obj.rpdoMapCount 0) = 1 ∧
    (received 1).reg (Obj.rpdoMap 0 0) = 0x27000108 ∧ ([] : List Byte).length < 0x27000108 % 256 / 8 ∧ 0x27000108 % 256 / 8 ≤ [(1 : Byte)].length ∧
    (findRow (0x27000108 / 65536) (0x27000108 / 256 % 256)).isSome = true ∧
    ({ received 1 with outs := [] }).accepts Env.quiet (.can 0) 0x2700 1 [1] = true ∧ (({ received 1 with outs := [] }).writeDo Env.quiet (.can 0) 0x2700 1 1).isNone = true ∧
    ((received 1).reg (Obj.tpdoCobId 0)).testBit 31 = false ∧ (received 1).reg (Obj.tpdoMapCount 0) ≠ 0 := by decide +kernel

/-- Hypotheses of NmtAndBusErrors. -/
theorem hyp_bus :
    up.canOn = true ∧ (off 1).can.busOff = true ∧ (off 1).served = true ∧ (off 1).reg Obj.canAutoRecover ≠ 0 ∧ (off 0).reg Obj.canAutoRecover = 0 ∧
    up.can.nmt ≠ .initialisation ∧ (regsSet up [(Obj.commHeartbeat, 100)]).reg Obj.commHeartbeat ≠ 0 ∧ (regsSet up [(Obj.commHeartbeat, 100)]).can.heartbeatSent = none := by decide +kernel

/-- Hypotheses of SmbusTransactions. -/
theorem hyp_smbus :
    up.served = true ∧ up.custody.recovery = none ∧ (owes true false).smb.owesUrgent = true ∧
    (owes false true).smb.owesUrgent = false ∧ (owes false true).smb.owesNormal = true ∧
    up.taskAlive 472 = true ∧ up.smb.cause.testBit 31 = false := by decide +kernel

/-- Hypotheses of SmbusTransactions. -/
theorem hyp_smb_requests :
    up.served = true ∧ up.smb.executing = false ∧ up.smb.response = none ∧ (findRow 0x1018 1).isSome = true ∧ up.readCodes .smbus 0x1018 1 = [] ∧
    (1 : BitVec 8).toNat ≠ 0 ∧ (240 : BitVec 8).toNat ≤ 240 ∧
    ((findRow 0x1018 1).map fun row => decide ((0 : BitVec 16).toNat + (1 : BitVec 8).toNat ≤ (taken.readFor .smbus row 0x1018 1).length)) = some true ∧
    (up.modSmb fun x => { x with executing := true }).smb.executing = true ∧
    (up.modSmb fun x => { x with response := some ⟨.ok, 0, false⟩ }).smb.response = some ⟨.ok, 0, false⟩ ∧ passed 0 (up.reg Obj.smbResponseHold * tMs) (BitVec.ofNat 64 (2 ^ 60)) = true := by decide +kernel

/-- Hypotheses of SleepAndWake. -/
theorem hyp_smb_sleeps :
    (dozing true).asleep = true ∧ (dozing true).smb.lowPower = true ∧ (dozing true).power.phase ≠ .held ∧ up.asleep = false ∧
    (dozing false).asleep = true ∧ (dozing false).smb.lowPower = false ∧ (dozing false).smb.lastStart = 0 ∧ passed 0 ((dozing false).reg Obj.smbSleepIdle * tMs) (BitVec.ofNat 64 (2 ^ 60)) = true := by decide +kernel

/-- Hypotheses of CustodyProposals, an enrolment and a record of six bytes; whether a signature verifies is open. -/
theorem hyp_enrol :
    up.served = true ∧ keyUnset (up.custodianKey false) = true ∧ (List.replicate 193 (0 : Byte)).length = 193 ∧
    (∀ sub : Fin 4, ((findRow 0x2110 sub.val).all fun row => decide (up.lookCodes box 0x2110 sub.val = []) && decide (up.accessCodes box 0x2110 sub.val row = [])) = true) ∧
    6 ≤ [(1 : Byte), 1, 0, 1, 6, 0].length ∧ recLength [1, 1, 0, 1, 6, 0] = [(1 : Byte), 1, 0, 1, 6, 0].length ∧ up.draftOf false = none := by decide +kernel

/-- Hypotheses of CustodyProposals, a proposal of the host, but for its signature, and a draft. -/
theorem hyp_proposal :
    keyed.provisioned = true ∧ keyed.custody.commit = none ∧ keyed.custody.pending = none ∧ recForm (aRecord 0x2123 [1]) = true ∧
    recKind (aRecord 0x2123 [1]) = 0 ∧ fieldU (aRecord 0x2123 [1]) 1 1 = 1 ∧ fieldU (aRecord 0x2123 [1]) 8 4 = keyed.custody.generation ∧
    fieldU (aRecord 0x2123 [1]) 0x0C 4 = keyed.reg Obj.commIdentitySerial ∧ slice (aRecord 0x2123 [1]) 0x10 32 = keyed.custody.nonce ∧
    keyed.recordCodes false (aRecord 0x2123 [1]) = [] ∧ recReserved (aRecord 0x2123 [1]) = false ∧ keyed.placeRead keyed.firmware.stage = [] ∧
    (up.modCustody fun x => { x with hostDraft := some ⟨[], 0, some box⟩ }).draftOf false = some ⟨[], 0, some box⟩ ∧ passed 0 tSec (BitVec.ofNat 64 tSec) = true := by decide +kernel

/-- Hypotheses of VerdictsCommitsAndRecoveries, a verdict of the board, but for its digest and its signature. -/
theorem hyp_verdict :
    (proposed).served = true ∧ proposed.provisioned = true ∧ proposed.custody.commit = none ∧ proposed.custody.recovery = none ∧
    proposed.custody.pending = some ⟨aRecord 0x2123 [1], false, 0⟩ ∧ (aVerdict 1).length = 160 ∧ fieldU (aVerdict 1) 0 1 = 1 ∧ fieldU (aVerdict 1) 1 1 = 2 ∧
    fieldU (aVerdict 1) 3 1 = 0 ∧ zeroAt (aVerdict 1) 0x38 8 = true ∧ fieldU (aVerdict 1) 4 4 = proposed.custody.generation ∧
    fieldU (aVerdict 1) 2 1 = 1 ∧ fieldU (aVerdict 0) 2 1 = 0 ∧ proposed.recordCodes false (aRecord 0x2123 [1]) = [] ∧
    ((findRow 0x2118 2).all fun row => decide (proposed.lookCodes .smbus 0x2118 2 = []) && decide (proposed.accessCodes .smbus 0x2118 2 row = [])) = true ∧
    due 0 0 = true ∧ recChanges (aRecord 0x2123 [1]) = some [⟨0x2123, 0, [1], true⟩] ∧ recChanges (aRecord 0x2120 (List.replicate 97 1)) = some [⟨0x2120, 0, List.replicate 97 1, true⟩] ∧
    (proposed.modCustody fun x => { x with commit := some ⟨aRecord 0x2123 [1], false, some box⟩ }).custody.commit = some ⟨aRecord 0x2123 [1], false, some box⟩ := by decide +kernel

/-- Hypotheses of VerdictsCommitsAndRecoveries. -/
theorem hyp_recoveries :
    (recovering 0).custody.recovery = some ⟨aRecord 0x2123 [1], false, 0, 0, 0⟩ ∧ (recovering 0).recoveryLeft ⟨aRecord 0x2123 [1], false, 0, 0, 0⟩ = 0 ∧
    (recovering 0).custody.commit = none ∧ (recovering 0).served = true ∧ (recovering 0).recordCodes false (aRecord 0x2123 [1]) = [] ∧
    (recovering 5).recoveryLeft ⟨aRecord 0x2123 [1], false, 5, 0, 5⟩ ≠ 0 := by decide +kernel

/-- Hypotheses of FirmwareAndAttestation. -/
theorem hyp_firmware :
    (staged 1).firmware.status = 1 ∧ (staged 2).acceptsObj Env.quiet box Obj.fwCommand 1 = true ∧ (staged 2).firmware.status = 2 ∧
    (staged 2).firmware.slots[(staged 2).firmware.running].state ≠ 2 ∧ (staged 2).firmware.writing = false ∧
    ((staged 2).modFirmware fun x => { x with writing := true }).firmware.writing = true ∧
    written.acceptsObj { Env.quiet with othersRun := false } box Obj.fwCommand 2 = true ∧ written.custody.commit = none ∧ written.firmware.writing = false ∧
    (onTrial).acceptsObj Env.quiet box Obj.fwCommand 3 = true ∧ onTrial.firmware.slots[onTrial.firmware.running].state = 2 ∧ onTrial.firmware.trialEnds = some 0 ∧
    up.acceptsObj Env.quiet box Obj.fwCommand 3 = true ∧ up.firmware.slots[up.firmware.running].state ≠ 2 := by decide +kernel

/-- Hypotheses of FirmwareAndAttestation. -/
theorem hyp_attest :
    up.served = true ∧ ((findRow 0x2160 0).all fun row => decide (up.lookCodes box 0x2160 0 = []) && decide (up.accessCodes box 0x2160 0 row = [])) = true ∧
    (List.replicate 32 (0 : Byte)).length = 32 ∧ up.attest.leaf < lmsLeaves ∧ lmsLeaves - (lmsLeaves - 10486 + 1) ≤ 10485 ∧
    lmsLeaves ≤ ({ up with attest := { up.attest with leaf := lmsLeaves } }).attest.leaf := by decide +kernel

/-- Hypotheses of PierResetsAndReleases. -/
theorem hyp_resets :
    up.power.phase ≠ .held ∧ up.acceptsObj Env.quiet box Obj.powerReset signatureReset = true ∧ (pierIn .held).power.phase = .held ∧ up.custody.commit = none ∧
    plinthCycle 0 = plinthCycle 1 ∧ plinthCycle 0 ≠ plinthCycle (BitVec.ofNat 64 tMs) := by decide +kernel

/-- Hypotheses of PierResetsAndReleases. -/
theorem hyp_restarts :
    (pierIn .held).power.phase = .held ∧ up.power.phase ≠ .held ∧ up.served = true ∧ up.acceptsObj Env.quiet box Obj.powerReset signatureCore = true ∧
    (pierIn .restarting).power.phase = .restarting ∧ up.custody.commit = none := by decide +kernel

/-- Hypotheses of SuppliesAndThermal. -/
theorem hyp_supplies :
    up.power.phase ≠ .held ∧ (regsSet up [(Obj.powerRailStatus, 1)]).reg Obj.powerRailStatus ≠ 0 ∧ up.reg Obj.powerRailStatus = 0 ∧
    (railLevels.getD 0 (0, 0)).2 < (railLevels.getD 0 (0, 0)).1 ∧ 0 < (railLevels.getD 0 (0, 0)).2 ∧ (railLevels.getD 0 (0, 0)).1 < 2 ^ 16 ∧
    (List.replicate 11 1000).length = 11 ∧ up.taskAlive 2 = true ∧ up.power.pcieRef = true ∧ up.host.linkUp = true ∧
    ({ up with power := { up.power with pcieRef := false } }).power.pcieRef = false ∧ up.power.crystal = true := by decide +kernel

/-- Hypotheses of SleepAndWake. -/
theorem hyp_sleeps :
    down.acceptsObj Env.quiet box Obj.powerRequest 1 = true ∧ down.taskAlive 0 = true ∧ down.served = true ∧ down.sleepViolations = [] ∧ (headIn .running up).allStopped = false ∧
    (headIn .running up).taskAlive 0 = true ∧ (headIn .running up).acceptsObj Env.quiet (.can 3) Obj.powerRequest 1 = true ∧
    up.acceptsObj Env.quiet box Obj.powerRequest 2 = true ∧ (pierIn .asleep).asleep = true ∧ (pierIn .asleep).smb.lowPower = false ∧ (pierIn .asleep).smb.wakingUntil = none ∧
    down.power.armed = some 5 ∧ down.host.linkUp = false ∧ due 5 4 = false ∧ due 5 5 = true ∧
    (masked 15).asleep = true ∧ ((masked 15).reg Obj.powerWakeMask).testBit 3 = true ∧ ((masked 0).reg Obj.powerWakeMask).testBit 3 = false ∧ ¬ (4 : Fin 6).val < 4 := by decide +kernel

/-- Hypotheses of SuppliesAndThermal at the edges of its bands. -/
theorem hyp_thermal :
    124 * 16 ≤ (1984 : Int) ∧ ¬ 124 * 16 ≤ (1983 : Int) ∧ 121 * 16 < (1937 : Int) ∧ ¬ 121 * 16 < (1936 : Int) ∧ up.reg Obj.thermalState ≠ 3 ∧
    up.regI Obj.thermalDie < 120 * 16 ∧ 110 * 16 < (hot 1761 1920 6).regI Obj.thermalCase ∧ 120 * 16 ≤ (hot 1761 1920 6).regI Obj.thermalDie ∧ (hot 1761 1920 6).reg Obj.thermalStep < 7 ∧
    (hot 0 1839 7).regI Obj.thermalDie < 115 * 16 ∧ 0 < (hot 0 1839 7).reg Obj.thermalStep ∧ (hot 0 1839 7).reg Obj.thermalStep ≤ 7 ∧
    (hot 1760 2000 0).reg Obj.thermalStep = 0 ∧ (hot 1760 2000 0).regI Obj.thermalCase ≤ 110 * 16 := by decide +kernel

/-- Hypotheses of TestModes. -/
theorem hyp_taps :
    up.asleep = false ∧ (pierIn .asleep).asleep = true := by decide +kernel

/-- Hypotheses of TestModes. -/
theorem hyp_tests :
    ranged.acceptsObj Env.quiet box Obj.testMbistCommand 1 = true ∧ memWf ranged.mem = true ∧ testing.acceptsObj Env.quiet box Obj.testMbistCommand 2 = true ∧ testing.test.range ≠ none ∧
    up.reg (Obj.testSpanLoopback 0) = 0 ∧ up.acceptsObj { Env.quiet with errors := 0 } box (Obj.testSpanLoopback 0) (1 : BitVec 8).toNat = true ∧
    up.reg (Obj.spanState 0) = 0 ∧ up.acceptsObj { Env.quiet with errors := 0 } box (Obj.testSpanLoopback 0) 0 = true ∧ up.host.linkUp = true ∧
    ((regsSet up [(Obj.testSpanLoopback 0, 1)]).reg (Obj.testSpanLoopback 0) = 1) ∧ (0 : Nat) ≤ max32 ∧
    (regsSet up [(Obj.testSpanLoopback 0, 1)]).acceptsObj { Env.quiet with errors := 3 } box (Obj.testSpanLoopback 0) 0 = true := by decide +kernel

/-- Hypotheses of MaintenanceCommands. -/
theorem hyp_upkeep :
    up.acceptsObj Env.quiet box Obj.faultLogSelect (0 : BitVec 32).toNat = true ∧ up.acceptsObj Env.quiet box Obj.faultLogClear 0 = true ∧ up.acceptsObj Env.quiet box Obj.diagClear 0 = true ∧
    up.acceptsObj Env.quiet box (Obj.headServiceIsolate 0) 1 = true ∧ up.heads[(0 : HeadId)].state = .stopped ∧ up.heads[(0 : HeadId)].isolateVia = [] ∧
    (headIn .isolated up).acceptsObj Env.quiet box (Obj.headServiceIsolate 0) 1 = true ∧ (headIn .isolated up).acceptsObj Env.quiet box (Obj.headServiceIsolate 0) 0 = true ∧
    (headIn .isolated up).heads[(0 : HeadId)].state = .isolated ∧ worn.repair.candidates.contains ⟨0, 0, 5⟩ = true ∧ worn.spareLeft ⟨0, 0, 5⟩ = true ∧
    (regsSet up [(Obj.memPprAuto, 1)]).reg Obj.memPprAuto ≠ 0 ∧ worn.acceptsObj Env.quiet box Obj.memPprCommand 1 = true := by decide +kernel

/-- Reset meets the hypotheses of StoresStayCanonical and of PowerAndCapFollow. -/
theorem hyp_reset :
    Map.wf State.reset.b.regs = true ∧ Map.wf State.reset.b.tables = true ∧ memWf State.reset.b.mem = true ∧ State.reset.b.power.shown = State.reset.b.powerState ∧
    State.reset.b.reg Obj.thermalLocalCap = State.reset.b.steppedCap % 2 ^ 32 ∧ State.reset.b.reg Obj.thermalState ≠ 3 ∧
    State.reset.b.thermal.own = State.reset.b.steppedCap := by decide +kernel

/-- Hypotheses of InterruptCauses. -/
theorem hyp_causes :
    up.host.linkUp = true ∧ up.taskAlive (448 + 15) = true ∧ up.host.causeMask.testBit 0 = false ∧ up.host.msix[(0 : Fin 64)].masked = true ∧
    (up.modHost fun x => { x with causeMask := 1 }).host.causeMask.testBit 0 = true ∧
    (up.modHost fun x => { x with msix := x.msix.set 0 ⟨0, 0, false, none⟩ }).host.msix[(0 : Fin 64)].masked = false ∧
    (up.modHost fun x => { x with msix := x.msix.set 0 ⟨0, 0, false, some (pciCycle 0)⟩ }).host.msix[(0 : Fin 64)].sentIn = some (pciCycle 0) := by decide +kernel

/-- Hypotheses of EmergencyQueue: no inhibit time, one that ends, one that runs, and 0, 7 and 8 messages that wait. -/
theorem hyp_emergencies :
    up.canSends = true ∧ up.can.inhibitUntil = none ∧ (inhibited 0).canSends = true ∧ (inhibited 0).can.inhibitUntil = some 9 ∧ due 9 9 = true ∧ due 9 8 = false ∧
    (inhibited 0).can.emcyQueue = [] ∧ (inhibited 7).can.emcyQueue.length < 8 ∧ 8 ≤ (inhibited 8).can.emcyQueue.length ∧ (inhibited 8).can.emcyQueue ≠ [] := by decide +kernel

/-- Hypotheses of BufferWrites. -/
theorem hyp_buffers :
    memWf State.reset.b.mem = true ∧ [(7 : Byte)][0]? = some 7 := by decide +kernel

end Sys2Proof.Tests
end

/-! # Refused writes (R4, R42)

The one code that answers a refusal, what a refused write leaves, and the level of a function without feature bit 0. -/

namespace Sys2Proof.Machine

/-! ## The first of several codes (R4, R59) -/

theorem mem_of_firstCode {l : List AbortCode} {c : AbortCode} (h : firstCode l = some c) : c ∈ l := by
  induction l generalizing c with
  | nil => cases h
  | cons x l ih =>
    unfold firstCode at h
    split at h
    · cases h; exact .head _
    · next d hd =>
      split at h
      · cases h; exact .tail _ (ih hd)
      · cases h; exact .head _

theorem rank_le_of_firstCode {l : List AbortCode} {c d : AbortCode} (h : firstCode l = some c) (hd : d ∈ l) : c.rank ≤ d.rank := by
  induction l generalizing c d with
  | nil => cases hd
  | cons x l ih =>
    unfold firstCode at h
    split at h
    · next hn =>
      rw [Block.firstCode_eq_none.mp hn, List.mem_singleton] at hd
      cases h; rw [hd]
    · next y hy =>
      rcases List.mem_cons.mp hd with rfl | hd
      · split at h <;> cases h <;> omega
      · have := ih hy hd
        split at h <;> cases h <;> omega

/-- Where a code holds there is a first one. -/
theorem exists_firstCode {l : List AbortCode} (h : l ≠ []) : ∃ c, firstCode l = some c :=
  Option.ne_none_iff_exists'.mp fun hn => h (Block.firstCode_eq_none.mp hn)

/-- A code that ranks before every other one is the first. -/
theorem firstCode_eq_of_lt {l : List AbortCode} {c : AbortCode} (hc : c ∈ l) (h : ∀ d ∈ l, d ≠ c → c.rank < d.rank) : firstCode l = some c := by
  obtain ⟨d, hd⟩ := exists_firstCode (List.ne_nil_of_mem hc)
  by_cases e : d = c
  · rw [hd, e]
  · exact absurd (rank_le_of_firstCode hd hc) (Nat.not_le.mpr (h d (mem_of_firstCode hd) e))

theorem mem_codeIf {bad : Bool} {c d : AbortCode} : d ∈ codeIf bad c ↔ bad = true ∧ d = c := by
  cases bad <;> simp [codeIf]

/-! ## What a refusal leaves -/

/-- Whether an output is an answer to a dictionary request. -/
def Out.isAnswer : Out → Bool
  | .answer _ _ => true
  | _ => false

namespace Block

theorem reply_outs (r : Route) (res : Result) (b : Block) : (b.reply r res).outs = b.outs ++ [.answer r res] := by cases r <;> rfl

theorem reply_reg (r : Route) (res : Result) (b : Block) (o : Obj) : (b.reply r res).reg o = b.reg o := by cases r <;> rfl

theorem reply_keeps (r : Route) (res : Result) (b : Block) : (b.reply r res).heads = b.heads ∧ (b.reply r res).mem = b.mem ∧
    (b.reply r res).tables = b.tables ∧ (b.reply r res).axes = b.axes := by
  cases r <;> exact ⟨rfl, rfl, rfl, rfl⟩

theorem reply_transferOf (r q : Route) (res : Result) (index : Nat) (b : Block) : (b.reply r res).transferOf q index = b.transferOf q index := by
  cases r <;> rfl

/-- All that a refusal can leave beside the code. -/
theorem refusalEffect_cases (index sub v : Nat) (c : AbortCode) (b : Block) :
    b.refusalEffect index sub v c = b ∨
    index = 0x2013 ∧ b.refusalEffect index sub v c = b.setReg Obj.deviceFeaturesControl 3 ∨
    b.refusalEffect index sub v c = b.loopRefused ∨
    0x2440 ≤ index ∧ b.refusalEffect index sub v c = b.bump Obj.dmaCheckerRefusals := by
  unfold refusalEffect
  split
  · next hi =>
    unfold featureRefused
    split
    · exact .inr (.inl ⟨hi, rfl⟩)
    · exact .inl rfl
  · split
    · exact .inr (.inr (.inl rfl))
    · split
      · next hi =>
        dsimp only
        split
        · exact .inr (.inr (.inr ⟨hi.1, rfl⟩))
        · exact .inl rfl
      · exact .inl rfl

theorem refusalEffect_keeps (index sub v : Nat) (c : AbortCode) (b : Block) :
    let n := b.refusalEffect index sub v c
    n.heads = b.heads ∧ n.mem = b.mem ∧ n.tables = b.tables ∧ n.axes = b.axes := by
  rcases refusalEffect_cases index sub v c b with h | ⟨-, h⟩ | h | ⟨-, h⟩ <;> rw [h] <;> exact ⟨rfl, rfl, rfl, rfl⟩

/-- A refusal answers nothing by itself. -/
theorem refusalEffect_answers (index sub v : Nat) (c : AbortCode) (b : Block) :
    (b.refusalEffect index sub v c).outs.filter Out.isAnswer = b.outs.filter Out.isAnswer := by
  rcases refusalEffect_cases index sub v c b with h | ⟨-, h⟩ | h | ⟨-, h⟩ <;> rw [h]
  · rfl
  · simp [loopRefused, Out.isAnswer]
  · rfl

/-- A refused object keeps its value; `device.features.control` is another matter (R49, R50). -/
theorem refusalEffect_reg {index sub : Nat} (v : Nat) (c : AbortCode) (b : Block) {o : Obj} (hi : index ≠ 0x2013) (ho : o.index = index)
    (hs : o.sub < 256) : (b.refusalEffect index sub v c).reg o = b.reg o := by
  rcases refusalEffect_cases index sub v c b with h | ⟨e, -⟩ | h | ⟨hl, h⟩
  · rw [h]
  · exact absurd e hi
  · rw [h]; rfl
  · rw [h]
    exact reg_bump_index _ _ _ (by decide) hs fun e => by simp only [Obj.dmaCheckerRefusals] at e; omega

/-! ## The answer to a refused request -/

/-- A refused write of one number is answered with the first of its codes. The codes of an action count beside another code (R59). -/
theorem dictWrite_of_refused {e : Env} {r : Route} {index sub : Nat} {data : List Byte} {b : Block} {row : Row} (hs : b.served = true)
    (hr : findRow index sub = some row) (hb : row.ty.bits ≠ 0) (hc : b.writeCodes e r row index sub data ≠ []) : ∃ c,
    firstCode (b.writeCodes e r row index sub data ++ if data.length * 8 = row.ty.bits then b.actionCodes e index sub (leNat data) else []) = some c ∧
    b.dictWrite e r index sub data =
      (if data.length * 8 = row.ty.bits then b.refusalEffect index sub (leNat data) c else b).reply r (.abort c) := by
  obtain ⟨c, h⟩ := exists_firstCode (List.append_ne_nil_of_left_ne_nil hc
    (if data.length * 8 = row.ty.bits then b.actionCodes e index sub (leNat data) else []))
  refine ⟨c, h, ?_⟩
  simp [dictWrite, dictWriteAt, hs, hr, hb, writeNumber, hc, h]

/-- A write of bytes that access rules refuse is answered with a code that no other one ranks before. -/
theorem dictWrite_bytes_of_refused {e : Env} {r : Route} {index sub : Nat} {data : List Byte} {b : Block} {row : Row} (hs : b.served = true)
    (hr : findRow index sub = some row) (hb : row.ty.bits = 0) (hc : b.accessCodes r index sub row ≠ []) :
    ∃ c : AbortCode, (∀ d ∈ b.accessCodes r index sub row, c.rank ≤ d.rank) ∧ b.dictWrite e r index sub data = b.reply r (.abort c) := by
  obtain ⟨c, h⟩ := exists_firstCode (l := b.lookCodes r index sub ++ b.accessCodes r index sub row ++ codeIf (row.ty == .table) .length ++
    recordLengthCodes index sub data.length) (by simp [hc])
  refine ⟨c, fun d hd => rank_le_of_firstCode h (by simp [hd]), ?_⟩
  simp only [dictWrite, dictWriteAt, hs, hr, hb, writeBytes, h, Bool.not_true, Bool.false_eq_true, if_false, if_true]

/-- The start of a download that access rules refuse is answered with a code that no other one ranks before. -/
theorem transferStart_of_refused {r : Route} {index : Nat} {b : Block} {row : Row} (size : Option Nat)
    (hr : findRow index 0 = some row) (hc : b.accessCodes r index 0 row ≠ []) :
    ∃ c : AbortCode, (∀ d ∈ b.accessCodes r index 0 row, c.rank ≤ d.rank) ∧ b.transferStart r index size = b.reply r (.abort c) := by
  have memTable {d} (hd : d ∈ b.accessCodes r index 0 row) : d ∈ b.tableCodes r index := by simp [tableCodes, hr, hd]
  unfold transferStart
  dsimp only
  split
  · next c h => exact ⟨c, fun d hd => rank_le_of_firstCode h (by simp [memTable hd]), rfl⟩
  · next h =>
    obtain ⟨d, hd⟩ := List.exists_mem_of_ne_nil _ hc
    have : d ∈ ([] : List AbortCode) := firstCode_eq_none.mp h ▸ by simp [memTable hd]
    cases this

/-- A segment without a transfer is lost. -/
theorem transferSegment_of_none {r : Route} {index : Nat} {bytes : List Byte} {last crcOk late : Bool} {fault : Option AbortCode} {b : Block}
    (h : b.transferOf r index = none) : b.transferSegment r index bytes last crcOk fault late = b := by
  simp only [transferSegment, transferGoesOn, h]

/-- A download that access rules refuse at its start ends there. -/
theorem downloadSegment_of_refused {r : Route} {index : Nat} {bytes : List Byte} {last crcOk late : Bool} {fault : Option AbortCode} {b : Block}
    {row : Row} (size : Option Nat) (hs : b.served = true) (hr : findRow index 0 = some row) (hc : b.accessCodes r index 0 row ≠ [])
    (ht : b.transferOf r index = none) : ∃ c : AbortCode, (∀ d ∈ b.accessCodes r index 0 row, c.rank ≤ d.rank) ∧
      b.downloadSegment r index true size bytes last crcOk fault late = b.reply r (.abort c) := by
  obtain ⟨c, hl, h⟩ := transferStart_of_refused size hr hc
  refine ⟨c, hl, ?_⟩
  simp [downloadSegment, hs, ht, h, transferSegment_of_none, reply_transferOf]

/-- A route other than CAN FD opens no session for a download. -/
theorem tableSegment_eq {r : Route} (hr : ∀ c : Fin 128, r ≠ .can c) (index : Nat) (start : Bool) (size : Option Nat) (bytes : List Byte)
    (last crcOk : Bool) (fault : Option AbortCode) (late : Bool) (b : Block) :
    b.tableSegment r index start size bytes last crcOk fault late = b.downloadSegment r index start size bytes last crcOk fault late := by
  cases r with
  | can c => exact absurd rfl (hr c)
  | _ => rfl

end Block

/-! ## The level of a function (R40, R42) -/

/-- The control object of a service, of a function of a head, of the auxiliary front end, or of an axis (R40). -/
def ControlPlace (f : Nat) : Prop :=
  (∃ k : Fin 6, f = 0x2200 + 0x100 * k.val) ∨ (∃ (h : HeadId) (k : Fin 6), f = 0x3000 + 0x80 * k.val + 0x400 * h.val) ∨
  f = 0x4000 ∨ ∃ a : AxisId, f = 0x4100 + 0 + 0x80 * a.val

theorem controlPlace_service (k : Fin 6) : ControlPlace (0x2200 + 0x100 * k.val) := .inl ⟨k, rfl⟩
theorem controlPlace_head (h : HeadId) (k : Fin 6) : ControlPlace (0x3000 + 0x80 * k.val + 0x400 * h.val) := .inr (.inl ⟨h, k, rfl⟩)
theorem controlPlace_aux : ControlPlace 0x4000 := .inr (.inr (.inl rfl))
theorem controlPlace_axis (a : AxisId) : ControlPlace (0x4100 + 0 + 0x80 * a.val) := .inr (.inr (.inr ⟨a, rfl⟩))

/-- The function that owns a TABLE, a head's object, a motion object or any other one has its control object at one of these places. -/
theorem functionOf_place {index f : Nat} (h : functionOf index = some f) : ControlPlace f := by
  unfold functionOf at h
  split at h
  · have hm : (index - 0x6010) % 4 < 4 := Nat.mod_lt _ (by decide)
    dsimp only at h
    split_ifs at h <;> obtain rfl := Option.some.inj h
    · exact controlPlace_head ⟨_, hm⟩ 0
    · exact controlPlace_head ⟨_, hm⟩ 2
    · exact controlPlace_head ⟨_, hm⟩ 3
    · exact controlPlace_head ⟨_, hm⟩ 4
    · exact controlPlace_aux
  · split at h
    · next g i _ =>
      rw [Option.ite_none_left_eq_some, Option.some.injEq] at h
      obtain ⟨-, rfl⟩ := h
      split_ifs
      · exact controlPlace_head g 0
      · exact controlPlace_head g 1
      · exact controlPlace_head g 2
      · exact controlPlace_head g 3
      · exact controlPlace_head g 4
      · exact controlPlace_head g 5
    · split at h
      · next a _ _ => cases h; exact controlPlace_axis a
      · split_ifs at h with hs <;> cases h
        · convert controlPlace_service ⟨index / 256 - 0x22, by omega⟩ using 1; dsimp only; omega
        · exact controlPlace_aux
        · exact controlPlace_service 4
        · exact controlPlace_service 4

/-- A function's range begins at a multiple of 0x80. -/
theorem ControlPlace.mod {f : Nat} (h : ControlPlace f) : f % 0x80 = 0 := by
  rcases h with ⟨k, rfl⟩ | ⟨g, k, rfl⟩ | rfl | ⟨a, rfl⟩ <;> omega

theorem isControl_place {index : Nat} (h : isControl index = true) : ControlPlace index :=
  functionOf_place (index := index) (by simpa [isControl] using h)

/-- What a level object is in the tables: one byte that is written while its function is stopped. -/
def Row.isLevel (row : Row) : Bool := row.ty == .u8 && row.acc == .rws

/-- The tables give every control object its level at sub-index 1. -/
theorem findRow_level {index : Nat} (h : ControlPlace index) : (findRow index 1).all Row.isLevel = true := by
  rcases h with ⟨k, rfl⟩ | ⟨g, k, rfl⟩ | rfl | ⟨a, rfl⟩
  · revert k; decide +kernel
  · revert g k; decide +kernel
  · decide +kernel
  · revert a; decide +kernel

theorem indexExists_of_findRow {index sub : Nat} {row : Row} (h : findRow index sub = some row) : indexExists index = true := by
  have hp := List.find?_some h
  exact List.any_eq_true.mpr ⟨row, List.mem_of_find?_eq_some h, ((Bool.and_eq_true _ _).mp hp).2⟩

/-- The range of an object's table ranks after access. -/
theorem Chk.feature_lt_of_mem_codes {c : Chk} {v : Int} {d : AbortCode} (h : d ∈ c.codes v) : AbortCode.feature.rank < d.rank := by
  cases c <;> simp only [Chk.codes, List.mem_append, mem_codeIf, List.not_mem_nil] at h <;> grind [AbortCode.rank]

namespace Block

/-- No chapter adds a code to the write of a level. -/
theorem chapterCodes_level {index : Nat} (h : ControlPlace index) (e : Env) (b new : Block) : b.chapterCodes e index 1 1 new = [] := by
  have hc : codeIf (isControl index && 1 == 4 && 1 != 1 && 1 != 2) .range = [] := by simp [codeIf]
  rw [chapterCodes, hc, List.nil_append]
  rcases h with ⟨k, rfl⟩ | ⟨g, k, rfl⟩ | rfl | ⟨a, rfl⟩
  · rw [headIndex_low _ (by omega), axisIndex_other _ (by omega)]
    fin_cases k <;> rfl
  · rw [headIndex_of g (0x80 * k.val) (by omega)]
    fin_cases k <;> rfl
  · rfl
  · rw [headIndex_low _ (by omega), axisIndex_of a 0 (by omega)]
    rfl

/-- Access refuses the write of a level only for the ring's minority, or where the function is not stopped (R56, R3). -/
theorem feature_lt_of_mem_accessCodes {r : Route} {index : Nat} {row : Row} {b : Block} {d : AbortCode} (h : ControlPlace index)
    (hr : r ≠ .smbus) (hacc : row.acc = .rws) (hd : d ∈ b.accessCodes r index 1 row) : AbortCode.feature.rank < d.rank := by
  have hroute : writeRoute r index 1 = true := by
    have : index ≠ 0x2118 := by have := h.mod; omega
    cases r <;> simp_all [writeRoute]
  have : d = .minority ∨ d = .notStopped := by
    simp only [accessCodes, List.mem_append, mem_codeIf, hroute, hacc] at hd
    rcases hd with ((((hd | hd) | hd) | hd) | hd) | hd <;> simp_all
  rcases this with rfl | rfl <;> decide

/-- A code other than that of the missing feature ranks after it in the write of level 1. -/
theorem feature_lt_of_mem_writeCodes {e : Env} {r : Route} {index : Nat} {row : Row} {data : List Byte} {b : Block} {d : AbortCode}
    (h : ControlPlace index) (hr : r ≠ .smbus) (hf : findRow index 1 = some row) (hty : row.ty = .u8) (hacc : row.acc = .rws)
    (hl : data.length = 1) (hv : leNat data = 1) (hd : d ∈ b.writeCodes e r row index 1 data) (hne : d ≠ .feature) :
    AbortCode.feature.rank < d.rank := by
  simp only [writeCodes, List.mem_append, hty, hl, hv, Ty.bits] at hd
  rcases hd with ((hd | hd) | hd) | hd
  · have : d = .deviceState := by simp [lookCodes, mem_codeIf, indexExists_of_findRow hf, hf] at hd; exact hd.2
    rw [this]; decide
  · exact feature_lt_of_mem_accessCodes h hr hacc hd
  · have : d ∈ row.chk.codes (row.value 1) := by simpa [Row.dataCodes, hty, hl, hv, Ty.bits, codeIf] using hd
    exact Chk.feature_lt_of_mem_codes this
  · have : d = .feature := by simp [chapterCodes_level h, mem_codeIf] at hd; exact hd.2
    exact absurd this hne

/-- Level 1 selects feature bit 0 (R42). -/
theorem lacksFeature_level {index : Nat} {b : Block} (hc : isControl index = true) (h0 : b.feature 0 = false) :
    b.lacksFeature index 1 1 = true := by
  have : b.deviceFeature index 1 1 = true := by simp [deviceFeature, hc, h0]
  unfold lacksFeature
  (repeat' split) <;> simp [this]

/-- No action of the pier stands at sub-index 1. -/
theorem actionCodes_level (e : Env) (index v : Nat) (b : Block) : b.actionCodes e index 1 v = [] := by
  simp only [actionCodes, show ¬ 1 = 4 by decide, show ¬ 1 = 2 by decide, and_false, if_false]
  (repeat' split) <;> rfl

/-- A refused level leaves nothing beside its code. -/
theorem refusalEffect_level {index : Nat} (h : ControlPlace index) (v : Nat) (c : AbortCode) (b : Block) : b.refusalEffect index 1 v c = b := by
  have := h.mod
  rw [refusalEffect, if_neg (by omega), if_neg (by omega), if_neg (by omega)]

/-- Level 1 without feature bit 0 is refused for that feature (R42). -/
theorem dictWrite_level_of_no_feature {e : Env} {r : Route} {index : Nat} {row : Row} {b : Block} (hs : b.served = true) (hc : isControl index = true)
    (hf : findRow index 1 = some row) (h0 : b.feature 0 = false) (hr : r ≠ .smbus) :
    b.dictWrite e r index 1 [1] = b.reply r (.abort .feature) := by
  have hp := isControl_place hc
  have hv : leNat [1] = 1 := rfl
  obtain ⟨hty, hacc⟩ : row.ty = .u8 ∧ row.acc = .rws := by simpa [hf, Row.isLevel] using findRow_level hp
  have hfits : [(1 : Byte)].length * 8 = row.ty.bits := by rw [hty]; rfl
  have hmem : AbortCode.feature ∈ b.writeCodes e r row index 1 [1] := by
    simp only [writeCodes, List.mem_append, hfits, hv, lacksFeature_level hc h0, beq_self_eq_true, if_true, mem_codeIf, true_and, true_or, or_true]
  obtain ⟨c, hfirst, hw⟩ := dictWrite_of_refused (e := e) (r := r) hs hf (by rw [hty]; decide) (List.ne_nil_of_mem hmem)
  rw [hv, actionCodes_level, ite_self, List.append_nil,
    firstCode_eq_of_lt hmem fun d hd hne => feature_lt_of_mem_writeCodes hp hr hf hty hacc rfl hv hd hne] at hfirst
  cases hfirst
  rw [hw, refusalEffect_level hp, ite_self]

end Block

/-! ## The obligation -/

open Block

/-- A refused write of a number, as the pier shows it: one answer with the first of its codes, and the object, the heads, the buffer, the
tables and the axes as they were. -/
theorem refused_number (t : Time) (r : Route) (e : Env) (index : BitVec 16) (sub : BitVec 8) (s : State) {row : Row} {data : List Byte}
    (hs : (s.b.at_ t).served = true) (hr : findRow index.toNat sub.toNat = some row) (hb : row.ty.bits ≠ 0)
    (hc : (s.b.at_ t).writeCodes e r row index.toNat sub.toNat data ≠ []) : ∃ (c : AbortCode) (n : Block),
    firstCode ((s.b.at_ t).writeCodes e r row index.toNat sub.toNat data ++
      if data.length * 8 = row.ty.bits then (s.b.at_ t).actionCodes e index.toNat sub.toNat (leNat data) else []) = some c ∧
    Does (.dictionaryWrite t r index sub data e) s n ∧ n.outs.filter Out.isAnswer = [.answer r (.abort c)] ∧
    (index.toNat ≠ 0x2013 → n.reg (row.obj index.toNat sub.toNat) = (s.b.at_ t).reg (row.obj index.toNat sub.toNat)) ∧
    n.heads = s.b.heads ∧ n.mem = s.b.mem ∧ n.tables = s.b.tables ∧ n.axes = s.b.axes := by
  obtain ⟨c, hfirst, hw⟩ := dictWrite_of_refused hs hr hb hc
  refine ⟨c, _, hfirst, does_of_run rfl hw, ?_, fun hi => ?_, ?_⟩
  · rw [reply_outs, List.filter_append]
    split
    · rw [refusalEffect_answers]; rfl
    · rfl
  · rw [reply_reg]
    split
    · exact refusalEffect_reg _ _ _ hi rfl sub.isLt
    · rfl
  · obtain ⟨h1, h2, h3, h4⟩ := reply_keeps r (.abort c)
      (if data.length * 8 = row.ty.bits then (s.b.at_ t).refusalEffect index.toNat sub.toNat (leNat data) c else s.b.at_ t)
    rw [h1, h2, h3, h4]
    split
    · exact refusalEffect_keeps _ _ _ _ _
    · exact ⟨rfl, rfl, rfl, rfl⟩

end Sys2Proof.Machine

namespace Sys2Proof
open Machine Machine.Block

/-- Settles O9: every refused write comes to `reply` with the first code (`firstCode`), and a level without feature bit 0 brings no code
that ranks before the missing feature. -/
theorem refusedWrites : Obligations.RefusedWrites := by
  unfold Obligations.RefusedWrites
  intro t r e index sub s b i k first hs
  refine ⟨by decide, by decide, rfl, fun row data hr hb hc => ?_, fun row data hr hb hc => ?_,
    fun row size data last crcOk late fault hcan hr hc ht => ?_, fun row hctl hr h0 hsm => ?_⟩
  · obtain ⟨c, n, hfirst, hdoes, hans, hreg, hkeep⟩ := refused_number t r e index sub s hs hr hb hc
    refine ⟨c, n, ?_, hdoes, hans, hreg, hkeep⟩
    split at hfirst
    · next hl => rw [if_pos hl]; exact ⟨mem_of_firstCode hfirst, fun d => rank_le_of_firstCode hfirst⟩
    · next hl =>
      rw [List.append_nil] at hfirst
      rw [if_neg hl]; exact ⟨mem_of_firstCode hfirst, fun d => rank_le_of_firstCode hfirst⟩
  · obtain ⟨c, hl, hw⟩ := dictWrite_bytes_of_refused hs hr hb hc
    exact ⟨c, hl, does_of_run rfl hw⟩
  · obtain ⟨c, hl, hw⟩ := downloadSegment_of_refused size hs hr hc ht
    exact ⟨c, hl, does_of_run rfl ((tableSegment_eq hcan ..).trans hw)⟩
  · exact does_of_run rfl (dictWrite_level_of_no_feature hs hctl hr h0 hsm)

end Sys2Proof

/-! # Task selects (R363, R377)

The one row of `fabric.task_select`, the codes that hold against a write to it, and what an accepted write comes to. -/

namespace Sys2Proof.Machine

/-! ## The row -/

/-- The row of `fabric.task_select` (R379): four indices of 128 selects each. -/
def taskSelectRow : Row := ⟨0x2310, 1, 4, 1, 128, .u16, .rws, true, 0xFFFF, .any, false⟩

theorem taskSelectRow_fits (v : Nat) : (leBytes 2 v).length * 8 = taskSelectRow.ty.bits := by rw [leBytes_length]; rfl

theorem leNat_two_bytes {v : Nat} (hv : v < 2 ^ 16) : leNat (leBytes 2 v) = v := by
  rw [leNat_leBytes]; exact Nat.mod_eq_of_lt hv

/-- The table sets no range: the chapter's own codes stand in its place (R380). -/
theorem taskSelectRow_dataCodes (v : Nat) : taskSelectRow.dataCodes (leBytes 2 v) = [] := by
  simp [Row.dataCodes, taskSelectRow, Ty.bits, leBytes_length, Chk.codes, codeIf]

/-- A row that alone holds an index is found at its sub-indices. -/
theorem findRow_of_filter {index sub : Nat} {row : Row} (h : (objectRows.filter fun r => r.hasIndex index) = [row]) (hs : row.hasSub sub = true) :
    findRow index sub = some row := by
  have : findRow index sub = (objectRows.filter fun r => r.hasIndex index).find? fun r => r.hasSub sub := by
    simp only [findRow, List.find?_filter, Bool.decide_and, Bool.decide_eq_true, Bool.and_comm]
  rw [this, h, List.find?_singleton, if_pos hs]

theorem rows_taskSelect (k : Fin 4) : (objectRows.filter fun r => r.hasIndex (0x2310 + k.val)) = [taskSelectRow] := by
  revert k; decide +kernel

/-- The event fabric has no functions of its own to stop: it is stopped while all are (R593). -/
theorem Block.functionStopped_fabric (b : Block) : b.functionStopped 0x2300 = b.allStopped := by
  simp [functionStopped, headIndex_low, axisIndex_other]

section
variable {i : Nat} (hi : 0x2310 ≤ i ∧ i ≤ 0x2313)
include hi

theorem findRow_taskSelect {sub : Nat} (h1 : 1 ≤ sub) (h2 : sub ≤ 128) : findRow i sub = some taskSelectRow := by
  have h := rows_taskSelect ⟨i - 0x2310, by omega⟩
  rw [show 0x2310 + (i - 0x2310) = i by omega] at h
  exact findRow_of_filter h (by simp [Row.hasSub, taskSelectRow, h1, h2])

theorem taskSelect_index_cases : i = 0x2310 ∨ i = 0x2311 ∨ i = 0x2312 ∨ i = 0x2313 := by omega

/-- Selects belong to the function of the event fabric. -/
theorem functionOf_taskSelect : functionOf i = some 0x2300 := by
  have h : i / 256 * 256 = 0x2300 := by omega
  rw [functionOf, if_neg (by omega), headIndex_low i (by omega), axisIndex_other i (by omega)]
  simp only [h]
  rw [if_pos (by omega)]

theorem isControl_taskSelect : isControl i = false := by
  rw [isControl, functionOf_taskSelect hi, beq_eq_false_iff_ne]
  simp only [ne_eq, Option.some.injEq]; omega

namespace Block

/-! ## What a write meets -/

theorem writeRoute_taskSelect {r : Route} (hr : r ≠ .smbus) (sub : Nat) : writeRoute r i sub = true := by
  have : i ≠ 0x2118 := by omega
  cases r <;> simp_all [writeRoute]

/-- Every route but SMBus has access outside a ring's minority while all functions are stopped (R3, R54, R56). -/
theorem accessCodes_taskSelect {r : Route} {b : Block} (sub : Nat) (hr : r ≠ .smbus) (hm : b.ring.minority = false) (ha : b.allStopped = true) :
    b.accessCodes r i sub taskSelectRow = [] := by
  have hf := functionOf_taskSelect hi
  have hroute := writeRoute_taskSelect hi hr sub
  simp [accessCodes, hf, hroute, functionStopped_fabric, hm, ha, taskSelectRow, codeIf]

theorem lacksFeature_taskSelect (sub v : Nat) (b : Block) : b.lacksFeature i sub v = false := by
  have h1 : i ≠ 0x2001 := by omega
  have h2 : i ≠ 0x2642 := by omega
  have h3 : i ≠ 0x2605 := by omega
  simp [lacksFeature, headIndex_low i (by omega), axisIndex_other i (by omega), deviceFeature, ringFeature, isControl_taskSelect hi, h1, h2, h3]

theorem deviceCodes_taskSelect (sub v : Nat) (b new : Block) : b.deviceCodes i sub v new = [] := by
  have hc := isControl_taskSelect hi
  by_cases h4 : sub = 4
  · subst h4 -- the one place where the device chapter asks whether the index is a control object
    rcases taskSelect_index_cases hi with rfl | rfl | rfl | rfl <;> simp [deviceCodes, hc, codeIf]
  · rcases taskSelect_index_cases hi with rfl | rfl | rfl | rfl <;> simp [deviceCodes]

/-- Of the chapters only the event fabric's adds codes. -/
theorem chapterCodes_taskSelect (e : Env) (sub v : Nat) (b new : Block) : b.chapterCodes e i sub v new = b.fabricCodes i sub v := by
  have hcapture : b.captureCodes i sub v new = [] := by rcases taskSelect_index_cases hi with rfl | rfl | rfl | rfl <;> rfl
  have haux : b.auxCodes i sub v new = [] := by
    rw [auxCodes, if_neg (by omega), if_neg (by omega), if_neg (by omega), if_neg (by omega)]
  have hdma : b.dmaCodes e i sub v new = [] := by rw [dmaCodes, if_neg (by omega), if_neg (by omega)]
  have hring : b.ringCodes i sub v = [] := by rcases taskSelect_index_cases hi with rfl | rfl | rfl | rfl <;> rfl
  have hservice : b.serviceCodes e i sub v = [] := by rcases taskSelect_index_cases hi with rfl | rfl | rfl | rfl <;> rfl
  have hpdo : b.pdoCodes i sub v = [] := by rw [pdoCodes, if_neg (by omega)]
  simp [chapterCodes, headIndex_low i (by omega), axisIndex_other i (by omega), isControl_taskSelect hi, codeIf, hcapture, haux, hdma, hring,
    deviceCodes_taskSelect hi, hservice, hpdo]

/-- An accepted write is a change of the select (R365). -/
theorem writeDo_taskSelect (e : Env) (r : Route) (sub v : Nat) (b : Block) :
    b.writeDo e r i sub v = some ((b.selectWrite ((i - 0x2310) * 128 + sub - 1) v).reply r .ok) := by
  have hcapture : b.captureDo e r i sub v = none := by rcases taskSelect_index_cases hi with rfl | rfl | rfl | rfl <;> rfl
  have haux : b.auxDo e r i sub v = none := by rcases taskSelect_index_cases hi with rfl | rfl | rfl | rfl <;> rfl
  have hf : b.fabricDo r i sub v = some ((b.selectWrite ((i - 0x2310) * 128 + sub - 1) v).reply r .ok) := by
    rw [fabricDo, if_neg (by omega), if_neg (by omega), if_pos hi]
  simp [writeDo, headIndex_low i (by omega), axisIndex_other i (by omega), hcapture, haux, hf]

theorem actionCodes_taskSelect (e : Env) (sub v : Nat) (b : Block) : b.actionCodes e i sub v = [] := by
  have : i ≠ 0x4000 := by omega
  simp [actionCodes, headIndex_low i (by omega), axisIndex_other i (by omega), this]

/-- Only a loop leaves more than its code (R367). -/
theorem refusalEffect_taskSelect (sub v : Nat) {c : AbortCode} (hc : c ≠ .eventLoop) (b : Block) : b.refusalEffect i sub v c = b := by
  rw [refusalEffect, if_neg (by omega), if_neg (fun h => hc h.2.2), if_neg (by omega)]

/-- Where access is given, the codes of a write of two bytes are those of the select. -/
theorem writeCodes_taskSelect {e : Env} {r : Route} {sub v : Nat} {b : Block} (h1 : 1 ≤ sub) (h2 : sub ≤ 128) (hv : v < 2 ^ 16)
    (hrec : b.firmware.recovery = false) (hr : r ≠ .smbus) (hm : b.ring.minority = false) (ha : b.allStopped = true) :
    b.writeCodes e r taskSelectRow i sub (leBytes 2 v) = b.fabricCodes i sub v := by
  have hfind := findRow_taskSelect hi h1 h2
  have hlook : b.lookCodes r i sub = [] := by simp [lookCodes, indexExists_of_findRow hfind, hfind, hrec, codeIf]
  simp only [writeCodes, hlook, accessCodes_taskSelect hi sub hr hm ha, taskSelectRow_dataCodes, taskSelectRow_fits, leNat_two_bytes hv,
    lacksFeature_taskSelect hi, chapterCodes_taskSelect hi, codeIf, beq_self_eq_true, Bool.false_eq_true, if_true, if_false, List.nil_append]

end Block
end

namespace Block

/-! ## The codes of a select (R363) -/

/-- A code of the select that is no loop comes first. -/
theorem firstCode_select {c : AbortCode} (h : c.rank < AbortCode.eventLoop.rank) (bad : Bool) :
    firstCode (c :: codeIf bad .eventLoop) = some c :=
  firstCode_eq_of_lt (.head _) fun d hd hne => by
    rcases List.mem_cons.mp hd with rfl | hd
    · exact absurd rfl hne
    · rwa [(mem_codeIf.mp hd).2]

theorem selectCodes_reserved {t v : Nat} {b : Block} (h8 : b.feature 8 = true) (hv : v < 1024) (hres : reservedSource v = true) :
    b.selectCodes t v = .range :: codeIf (b.loopsBack t v) .eventLoop := by
  have : ¬ 1024 ≤ v := by omega
  simp [selectCodes, h8, hv, hres, this, codeIf]

theorem selectCodes_beyond {t v : Nat} {b : Block} (h8 : b.feature 8 = true) (hv : 1024 ≤ v) (hn : v ≠ 0xFFFF) :
    b.selectCodes t v = .tooHigh :: codeIf (b.loopsBack t v) .eventLoop := by
  have : ¬ v < 1024 := by omega
  simp [selectCodes, h8, hv, hn, this, codeIf]

/-- No code of the select holds: it is a source that is not reserved, or none. -/
theorem source_of_selectCodes_nil {t v : Nat} {b : Block} (h : b.selectCodes t v = []) :
    (v < 1024 ∨ v = 0xFFFF) ∧ (v < 1024 → reservedSource v = false) := by
  have no (c : AbortCode) : c ∉ b.selectCodes t v := by rw [h]; exact List.not_mem_nil
  constructor
  · by_contra hv
    exact no .tooHigh (by simp [selectCodes, mem_codeIf]; omega)
  · intro hv
    by_contra hres
    exact no .range (by simp [selectCodes, mem_codeIf, hv, hres])

/-! ## A written select (R365) -/

theorem select_selectWrite (t v : Nat) (b : Block) : (b.selectWrite t v).select t = v % 2 ^ 16 := reg_setReg_self _ _ _

theorem taskSelect_key_inj {t z : Nat} (h : (Obj.fabricTaskSelect z).key = (Obj.fabricTaskSelect t).key) : z = t := by
  simp only [Obj.key, Obj.fabricTaskSelect] at h; omega

theorem select_selectWrite_ne {t z : Nat} (h : z ≠ t) (v : Nat) (b : Block) : (b.selectWrite t v).select z = b.select z :=
  reg_setReg_ne _ _ _ _ fun hk => h (taskSelect_key_inj hk)

theorem reply_select (r : Route) (res : Result) (t : Nat) (b : Block) : (b.reply r res).select t = b.select t := reply_reg r res b _

/-! ## The write of task t's select -/

section
variable (t : Fin 512) (v : BitVec 16)

theorem taskSelect_index_range : 0x2310 ≤ 0x2310 + t.val / 128 ∧ 0x2310 + t.val / 128 ≤ 0x2313 := by omega

theorem findRow_select : findRow (0x2310 + t.val / 128) (t.val % 128 + 1) = some taskSelectRow :=
  findRow_taskSelect (taskSelect_index_range t) (by omega) (by omega)

/-- Index and sub-index give the task back. -/
theorem task_of_taskSelect : (0x2310 + t.val / 128 - 0x2310) * 128 + (t.val % 128 + 1) - 1 = t.val := by omega

/-- DICTIONARY_WRITE to the select of a task. -/
def writeSelect (time : Time) (r : Route) (e : Env) : Instr :=
  .dictionaryWrite time r (BitVec.ofNat 16 (0x2310 + t.val / 128)) (BitVec.ofNat 8 (t.val % 128 + 1)) (leBytes 2 v.toNat) e

theorem fabricCodes_taskSelect (v : Nat) (b : Block) :
    b.fabricCodes (0x2310 + t.val / 128) (t.val % 128 + 1) v = b.selectCodes t.val v := by
  rw [fabricCodes, if_neg (by omega), if_pos (taskSelect_index_range t), task_of_taskSelect]

theorem acceptsObj_taskSelect (e : Env) (r : Route) (b : Block) : b.acceptsObj e r (Obj.fabricTaskSelect t.val) v.toNat =
    b.accepts e r (0x2310 + t.val / 128) (t.val % 128 + 1) (leBytes 2 v.toNat) := by
  simp only [acceptsObj, Obj.fabricTaskSelect, Ty.bits]

theorem does_writeSelect {time : Time} {r : Route} {e : Env} {s : State} {n : Block}
    (h : (s.b.at_ time).dictWrite e r (0x2310 + t.val / 128) (t.val % 128 + 1) (leBytes 2 v.toNat) = n) : Does (writeSelect t v time r e) s n := by
  refine does_of_run rfl (Eq.trans ?_ h)
  rw [BitVec.toNat_ofNat, BitVec.toNat_ofNat, Nat.mod_eq_of_lt (by omega : 0x2310 + t.val / 128 < 2 ^ 16),
    Nat.mod_eq_of_lt (by omega : t.val % 128 + 1 < 2 ^ 8)]

variable {t v} {e : Env} {r : Route} {b : Block}

/-- An accepted select brings no code of its chapter. -/
theorem selectCodes_of_accepts (h : b.acceptsObj e r (Obj.fabricTaskSelect t.val) v.toNat = true) : b.selectCodes t.val v.toNat = [] := by
  have hi := taskSelect_index_range t
  have hcodes : b.writeCodes e r taskSelectRow (0x2310 + t.val / 128) (t.val % 128 + 1) (leBytes 2 v.toNat) = [] := by
    simp only [acceptsObj_taskSelect, accepts, findRow_select, Bool.and_eq_true, List.isEmpty_iff] at h
    obtain ⟨-, -, h⟩ := h
    exact h
  simp only [writeCodes, taskSelectRow_fits, beq_self_eq_true, if_true, leNat_two_bytes v.isLt, chapterCodes_taskSelect hi,
    fabricCodes_taskSelect, List.append_eq_nil_iff] at hcodes
  obtain ⟨-, -, h⟩ := hcodes
  exact h

theorem dictWrite_taskSelect_of_accepts (h : b.acceptsObj e r (Obj.fabricTaskSelect t.val) v.toNat = true) :
    b.dictWrite e r (0x2310 + t.val / 128) (t.val % 128 + 1) (leBytes 2 v.toNat) = (b.selectWrite t.val v.toNat).reply r .ok := by
  have hi := taskSelect_index_range t
  rw [acceptsObj_taskSelect] at h
  rw [dictWrite_of_accepts (findRow_select t) h, writeDo_taskSelect hi, task_of_taskSelect, leNat_two_bytes v.isLt, Option.getD_some]

/-- A select that brings a code of its own is answered with it, whether or not it also closes a loop. -/
theorem dictWrite_taskSelect_refused {c : AbortCode} (hs : b.served = true) (hrec : b.firmware.recovery = false) (hr : r ≠ .smbus)
    (hm : b.ring.minority = false) (ha : b.allStopped = true) (hc : c.rank < AbortCode.eventLoop.rank)
    (hcodes : b.selectCodes t.val v.toNat = c :: codeIf (b.loopsBack t.val v.toNat) .eventLoop) :
    b.dictWrite e r (0x2310 + t.val / 128) (t.val % 128 + 1) (leBytes 2 v.toNat) = b.reply r (.abort c) := by
  have hi := taskSelect_index_range t
  have hne : c ≠ .eventLoop := by rintro rfl; exact Nat.lt_irrefl _ hc
  have hall : b.writeCodes e r taskSelectRow (0x2310 + t.val / 128) (t.val % 128 + 1) (leBytes 2 v.toNat) =
      c :: codeIf (b.loopsBack t.val v.toNat) .eventLoop := by
    rw [writeCodes_taskSelect hi (by omega) (by omega) v.isLt hrec hr hm ha, fabricCodes_taskSelect, hcodes]
  obtain ⟨d, hfirst, hw⟩ := dictWrite_of_refused (e := e) (r := r) hs (findRow_select t) (by decide)
    (by rw [hall]; exact List.cons_ne_nil _ _)
  rw [actionCodes_taskSelect hi, ite_self, List.append_nil, hall, firstCode_select hc] at hfirst
  cases hfirst
  rw [hw, refusalEffect_taskSelect hi _ _ hne, ite_self]

end
end Block
end Sys2Proof.Machine

namespace Sys2Proof
open Machine Machine.Block

/-- Settles O35: an accepted write is `selectWrite`, and a code of the select's own ranks before that of a loop. -/
theorem taskSelects : Obligations.TaskSelects := by
  unfold Obligations.TaskSelects
  intro time r e t v s b o write
  refine ⟨rfl, rfl, rfl, fun hacc => ?_, fun hs hrec hr hm ha h8 => ⟨fun hv hres => ?_, fun hv hn => ?_⟩⟩
  · obtain ⟨hsource, hfree⟩ := source_of_selectCodes_nil (selectCodes_of_accepts hacc)
    obtain ⟨hheads, hmem, -, -⟩ := reply_keeps r .ok (b.selectWrite t.val v.toNat)
    refine ⟨hsource, hfree, _, does_writeSelect t v (dictWrite_taskSelect_of_accepts hacc), ?_, ?_, hheads, hmem, fun z hz => ?_⟩
    · rw [reply_select, select_selectWrite, Nat.mod_eq_of_lt v.isLt]
    · simp [Answered, reply_outs]
    · rw [reply_select, select_selectWrite_ne (Fin.val_ne_of_ne hz)]
  · exact does_writeSelect t v (dictWrite_taskSelect_refused hs hrec hr hm ha (by decide) (selectCodes_reserved h8 hv hres))
  · exact does_writeSelect t v (dictWrite_taskSelect_refused hs hrec hr hm ha (by decide) (selectCodes_beyond h8 hv hn))

end Sys2Proof

/-! # Interrupt causes (R453 to R455)

The masks of the cause register as sets of bits, the cause dwords of BAR0, and what a cause that fires does. -/

namespace Sys2Proof.Machine

/-! ## Masks -/

theorem testBit_setBit (m k n : Nat) : (setBit m k).testBit n = (m.testBit n || decide (n = k)) := by
  rw [setBit, Nat.testBit_or, Nat.one_shiftLeft, Nat.testBit_two_pow]
  simp only [eq_comm (a := n)]

theorem testBit_clearBits (m k n : Nat) : (clearBits m k).testBit n = (m.testBit n && !k.testBit n) := by
  have hbit (m k : Nat) : (m &&& k) % 2 = 1 ↔ m % 2 = 1 ∧ k % 2 = 1 := Nat.and_mod_two_eq_one
  unfold clearBits
  induction n generalizing m k with
  | zero =>
    have hle : m &&& k ≤ m := Nat.and_le_left
    simp only [Nat.testBit_zero]
    grind
  | succ n ih =>
    have hodd := hbit m k
    have hle : m / 2 &&& k / 2 ≤ m / 2 := Nat.and_le_left
    have hhalf : (m - (m &&& k)) / 2 = m / 2 - (m / 2 &&& k / 2) := by
      rw [← Nat.and_div_two] at hle ⊢
      omega
    rw [Nat.testBit_succ, Nat.testBit_succ, Nat.testBit_succ, hhalf, ih]

theorem testBit_foldl_setBit (l : List Nat) (m n : Nat) : (l.foldl setBit m).testBit n = (m.testBit n || l.contains n) := by
  induction l generalizing m with
  | nil => simp
  | cons x l ih => rw [List.foldl_cons, ih, testBit_setBit, List.contains_cons, Bool.or_assoc, beq_eq_decide]

/-- Both halves written leave nothing of the old value. -/
theorem halfWritten_both (old v : Nat) (hv : v < 2 ^ 64) :
    halfWritten (halfWritten old false (v % 2 ^ 32)) true (v / 2 ^ 32 % 2 ^ 32) = v := by
  simp only [halfWritten, if_true, Bool.false_eq_true, if_false]
  omega

namespace Block

theorem testBit_maskOf (l : List Nat) (n : Nat) : (maskOf l).testBit n = l.contains n := by
  rw [maskOf, testBit_foldl_setBit, Nat.zero_testBit, Bool.false_or]

/-! ## The cause register and its mask in BAR0 (R455) -/

theorem barDword_cause {off : Nat} (hl : 0x31000 ≤ off) (hr : off < 0x31010) (v : Nat) (table : List Byte) (e : Env) (b : Block) :
    b.barDword off v table e = b.barCause (off % 16) v (maskOf e.again) := by
  unfold barDword
  iterate 9 rw [if_neg (by omega)]
  rw [if_pos ⟨hl, hr⟩]

section
variable {b : Block} (hup : b.host.linkUp = true)
include hup

theorem barWrite_dword {off : Nat} (h : off % 4 = 0) (v : Nat) (table : List Byte) (e : Env) :
    b.barWrite off 4 v table e = b.barDword off (v % 2 ^ 32) table e := by
  rw [barWrite, hup, if_neg (by decide), if_pos ⟨rfl, h⟩]

theorem barWrite_pair {off : Nat} (h : off % 8 = 0) (hq : isQueue64 off = false) (v : Nat) (table : List Byte) (e : Env) :
    b.barWrite off 8 v table e = b.barPair off v table e := by
  rw [barWrite, hup, if_neg (by decide), if_neg (by omega), if_pos ⟨rfl, h⟩, hq, if_neg Bool.false_ne_true]

/-- A dword of the cause register clears the causes of its half. -/
theorem barWrite_causes (high : Bool) (mask : BitVec 32) (table : List Byte) (e : Env) :
    b.barWrite (if high then 0x31004 else 0x31000) 4 mask.toNat table e =
      b.clearCauses (if high then mask.toNat * 2 ^ 32 else mask.toNat) (maskOf e.again) := by
  have hoff : (if high then 0x31004 else 0x31000) % 4 = 0 := by cases high <;> rfl
  rw [barWrite_dword hup hoff, Nat.mod_eq_of_lt mask.isLt, barDword_cause (by split <;> decide) (by split <;> decide)]
  cases high <;> rfl

/-- Eight bytes written at the mask are the new mask: both dwords take effect and nothing is dropped. -/
theorem barWrite_causeMask (mask : BitVec 64) (table : List Byte) (e : Env) :
    b.barWrite 0x31008 8 mask.toNat table e = b.modHost fun x => { x with causeMask := mask.toNat } := by
  rw [barWrite_pair hup rfl rfl]
  simp only [barPair]
  rw [barDword_cause (by decide) (by decide), barDword_cause (by decide) (by decide)]
  simp only [barCause, modHost, halfWritten_both _ _ mask.isLt, if_true]

end

/-! ## A message of a vector (R454) -/

section
variable {v : Fin 64} {b : Block}

theorem msixSend_of_masked (hm : b.host.msix[v].masked = true) :
    b.msixSend v = b.modHost fun x => { x with pending := setBit x.pending v.val } := if_pos hm

theorem msixSend_of_sent (hm : b.host.msix[v].masked = false) (hs : b.host.msix[v].sentIn = some (pciCycle b.now)) : b.msixSend v = b := by
  rw [msixSend, hm, if_neg Bool.false_ne_true, if_pos hs]

theorem msixSend_of_unsent (hm : b.host.msix[v].masked = false) (hs : b.host.msix[v].sentIn ≠ some (pciCycle b.now)) :
    b.msixSend v =
      (b.modHost fun x => { x with msix := x.msix.set v { x.msix[v] with sentIn := some (pciCycle b.now) } }).emit (.msix v.val) := by
  rw [msixSend, hm, if_neg Bool.false_ne_true, if_neg hs]

/-- A message pends, or leaves at most once in a PCI cycle; either way only its table entry, the pending bits and what leaves change. -/
theorem msixSend_keeps (v : Fin 64) (b : Block) : let n := b.msixSend v
    n.host.causes = b.host.causes ∧ n.regs = b.regs ∧ n.mem = b.mem ∧ n.heads = b.heads ∧ n.host.queues = b.host.queues ∧
    n.host.slots = b.host.slots := by
  cases hm : b.host.msix[v].masked
  · by_cases hs : b.host.msix[v].sentIn = some (pciCycle b.now)
    · rw [msixSend_of_sent hm hs]; exact ⟨rfl, rfl, rfl, rfl, rfl, rfl⟩
    · rw [msixSend_of_unsent hm hs]; exact ⟨rfl, rfl, rfl, rfl, rfl, rfl⟩
  · rw [msixSend_of_masked hm]; exact ⟨rfl, rfl, rfl, rfl, rfl, rfl⟩

end

/-! ## A cause that fires (R454, R455) -/

/-- The bit of a cause is set in the cause register. -/
def setCause (n : Nat) (b : Block) : Block := b.modHost fun x => { x with causes := setBit x.causes n }

theorem fireCause_of_suppressed {n : Nat} {b : Block} (h : b.host.causeMask.testBit n = true) : b.fireCause n = b.setCause n := if_pos h

theorem fireCause_of_unsuppressed {n : Nat} {b : Block} (h : b.host.causeMask.testBit n = false) :
    b.fireCause n = (b.setCause n).msixSend (b.vectorOf n) := if_neg (ne_true_of_eq_false h)

/-- A cause that fires sets its bit, and leaves what is not of interrupts. -/
theorem fireCause_keeps (n : Nat) (b : Block) : let c := b.fireCause n
    c.host.causes = setBit b.host.causes n ∧ c.regs = b.regs ∧ c.mem = b.mem ∧ c.heads = b.heads ∧ c.host.queues = b.host.queues ∧
    c.host.slots = b.host.slots := by
  cases h : b.host.causeMask.testBit n
  · rw [fireCause_of_unsuppressed h]; exact msixSend_keeps (b.vectorOf n) (b.setCause n)
  · rw [fireCause_of_suppressed h]; exact ⟨rfl, rfl, rfl, rfl, rfl, rfl⟩

/-- Task 448 + k belongs to the host port, where it fires cause 24 + k (R459). -/
theorem taskDo_interrupt (k : Fin 16) (stamp : Time) (e : Env) (mv : List Nat) (b : Block) :
    b.taskDo (448 + k.val) stamp e mv = b.fireCause (24 + k.val) := by
  have hk : (448 + k.val - 448) = k.val := by omega
  unfold taskDo pierTask
  iterate 21 rw [if_neg (by omega)]
  rw [if_pos (by omega), hk, Fin.ofNat_eq_cast, Fin.cast_val_eq_self, interruptTask]

end Block
end Sys2Proof.Machine

namespace Sys2Proof
open Machine Machine.Block

/-- Settles O48: the cause dwords of BAR0 reach the cause register and its mask, and a cause that fires is its bit and then the message
of its vector, by the state of that vector's table entry. -/
theorem interruptCauses : Obligations.InterruptCauses := by
  unfold Obligations.InterruptCauses
  intro t s b
  refine ⟨fun high mask firing hup => ?clear, fun mask e hup => ?mask, fun k ha => ?task, does_of_run rfl rfl, ?fires⟩
  case clear =>
    refine ⟨_, fun n => ?_, does_of_run rfl (barWrite_causes hup high mask [] _)⟩
    rw [testBit_clearBits, testBit_clearBits, testBit_maskOf, Bool.not_and, Bool.not_not, Bool.or_comm]
  case mask => exact does_of_run rfl (barWrite_causeMask hup mask [] e)
  case task => exact does_of_run rfl ((sampled_alone _ _ _ _ rfl ha).trans (taskDo_interrupt ..))
  case fires =>
    intro n b v c
    obtain ⟨hcauses, hregs, hmem, hheads, hqueues, hslots⟩ := fireCause_keeps n b
    refine ⟨?_, fun m hm => ?_, fun h => ?_, fun h hmasked => ?_, fun h hmasked => ?_, hregs, hmem, hheads, hqueues, hslots⟩
    · simp [c, hcauses, testBit_setBit]
    · simp [c, hcauses, testBit_setBit, hm]
    · rw [show c = b.setCause n from fireCause_of_suppressed h]; exact ⟨rfl, rfl⟩
    · have hc : c = (b.setCause n).modHost fun x => { x with pending := setBit x.pending v.val } :=
        (fireCause_of_unsuppressed h).trans (msixSend_of_masked hmasked)
      rw [hc]
      exact ⟨rfl, by simp [testBit_setBit]⟩
    · have hc : c = (b.setCause n).msixSend v := fireCause_of_unsuppressed h
      by_cases hs : b.host.msix[v].sentIn = some (pciCycle b.now)
      · rw [hc, msixSend_of_sent (b := b.setCause n) hmasked hs]
        exact ⟨rfl, fun hne => absurd hs hne, fun _ => rfl⟩
      · rw [hc, msixSend_of_unsent (b := b.setCause n) hmasked hs]
        exact ⟨rfl, fun _ => rfl, fun he => absurd he hs⟩

end Sys2Proof

/-! # Emergency messages (R470)

One equation for each thing that happens to a message, and to the queue at the end of an inhibit time. -/

namespace Sys2Proof.Machine.Block

variable {b : Block} {m : Emcy} {u : Time}

/-! ## A message that is raised -/

theorem emcy_of_uninhibited (hs : b.canSends = true) (hi : b.can.inhibitUntil = none) : b.emcy m = b.emcyNow m := by
  simp only [emcy, hs, hi, Bool.not_true, Bool.false_eq_true, if_false]

/-- A message that falls due as the inhibit time ends leaves at once, where none waits before it. -/
theorem emcy_of_ended (hs : b.canSends = true) (hi : b.can.inhibitUntil = some u) (hd : due u b.now = true) (hq : b.can.emcyQueue = []) :
    b.emcy m = b.emcyNow m := by
  simp only [emcy, hs, hi, hd, hq, Bool.not_true, Bool.false_eq_true, if_false, List.isEmpty_nil, Bool.and_self, if_true]

/-- Behind an inhibit time or another message there is only the queue. -/
theorem emcy_of_inhibited (hs : b.canSends = true) (hi : b.can.inhibitUntil = some u) (hw : due u b.now = false ∨ b.can.emcyQueue ≠ []) :
    b.emcy m = if b.can.emcyQueue.length < 8 then { b with can := { b.can with emcyQueue := b.can.emcyQueue ++ [m] } }
      else { b with can := { b.can with emcyDropped := satAdd b.can.emcyDropped 1 max32 } } := by
  have hwait : (due u b.now && b.can.emcyQueue.isEmpty) = false := by simpa [← Bool.not_eq_true, imp_iff_not_or] using hw
  simp only [emcy, hs, hi, hwait, Bool.not_true, Bool.false_eq_true, if_false]

/-! ## The end of an inhibit time -/

theorem emcyInhibitEnd_of_empty (hi : b.can.inhibitUntil = some u) (hd : due u b.now = true) (hq : b.can.emcyQueue = []) :
    b.emcyInhibitEnd = b.modCan fun x => { x with inhibitUntil := none } := by
  simp only [emcyInhibitEnd, hi, hd, hq, Bool.not_true, Bool.false_eq_true, if_false]

theorem emcyInhibitEnd_of_waiting {rest : List Emcy} (hi : b.can.inhibitUntil = some u) (hd : due u b.now = true)
    (hq : b.can.emcyQueue = m :: rest) (hs : b.canSends = true) :
    b.emcyInhibitEnd = (b.modCan fun x => { x with emcyQueue := rest }).emcyNow m := by
  simp only [emcyInhibitEnd, hi, hd, hq, hs, Bool.not_true, Bool.false_eq_true, if_false, if_true]

/-! ## A message that leaves -/

theorem emcyNow_can (m : Emcy) (b : Block) : (b.emcyNow m).can = { b.can with
    inhibitUntil := if b.reg Obj.commEmcyInhibit = 0 then none else some (later b.now (b.reg Obj.commEmcyInhibit * 100 * tUs)) } := rfl

theorem mem_emcyNow_outs (m : Emcy) (b : Block) : Out.emcy m ∈ (b.emcyNow m).outs := by simp [emcyNow]

theorem emcyNow_fired (m : Emcy) (b : Block) : (b.emcyNow m).Fired 933 := by simp [emcyNow, Fired]

end Sys2Proof.Machine.Block

namespace Sys2Proof
open Machine Machine.Block

/-- Settles O50: a message that is raised leaves by `emcyNow` or goes to the queue, and at the end of an inhibit time the queue's oldest
leaves by the same `emcyNow`. -/
theorem emergencyQueue : Obligations.EmergencyQueue := by
  unfold Obligations.EmergencyQueue
  intro m b hs inhibit sent
  have sent_emcyNow : sent (b.emcyNow m) := rfl
  refine ⟨fun hi => ?uninhibited, fun u hi => ⟨fun hd hq => ?ended, fun hw => ⟨fun hl => ?waits, fun hl => ?dropped⟩⟩,
    fun t s u hi hd => ⟨fun hq => ?empty, fun first rest hq hsends => ?oldest⟩⟩
  case uninhibited => rw [emcy_of_uninhibited hs hi]; exact sent_emcyNow
  case ended => rw [emcy_of_ended hs hi hd hq]; exact sent_emcyNow
  case waits => rw [emcy_of_inhibited hs hi hw, if_pos hl]
  case dropped => rw [emcy_of_inhibited hs hi hw, if_neg (Nat.not_lt.mpr hl)]
  case empty => exact does_of_run rfl (emcyInhibitEnd_of_empty (b := s.b.at_ t) hi hd hq)
  case oldest =>
    refine ⟨_, does_of_run rfl (emcyInhibitEnd_of_waiting (b := s.b.at_ t) hi hd hq hsends), ?_,
      mem_emcyNow_outs .., emcyNow_fired .., ?_, ?_, ?_⟩
    · rw [emcyNow_can]; rfl
    · simp
    · simp
    · rw [emcyNow_can]; rfl

end Sys2Proof

/-! # The step and what ends every command

Every command is an operation of the pier at an instant (`run`), then `finish`. What `finish` leaves makes the power state and the local cap
follow the heads and the governor. -/

namespace Sys2Proof.Machine

/-- Every command runs an operation of the pier at an instant. -/
theorem exec_eq_run (c : Instr) : ∃ (t : Time) (f : Block → Block), ∀ s, exec c s = run t f s := by
  unfold exec
  cases c <;> dsimp only
  all_goals exact ⟨_, _, fun _ => rfl⟩

/-- A step that runs a command ends in a pier that `finish` leaves. -/
theorem exists_finish_of_step {s n : State} (hp : s.pending ≠ []) (h : step s = .next n) : ∃ b : Block, n.b = b.finish := by
  unfold step at h
  split at h
  · contradiction
  next c rest _ =>
    obtain ⟨t, f, hf⟩ := exec_eq_run c
    rw [hf, run] at h
    cases h
    exact ⟨_, rfl⟩

theorem step_of_empty {s : State} (h : s.pending = []) : step s = .next s := by rw [step, h]

namespace Block

/-! ## The page's part of `finish` -/

theorem mem_pageRegs (a : AxisId) : Obj.axisKeystonePauseTime a ∈ pageRegs ∧ Obj.axisKeystonePauses a ∈ pageRegs ∧
    Obj.axisKeystoneAbortedRunups a ∈ pageRegs ∧ Obj.axisKeystoneLastKept a ∈ pageRegs ∧ Obj.axisKeystoneParkPosition a ∈ pageRegs := by
  revert a; decide

/-- The parts that a pause of a page touches besides the registers: the controller and the axes. -/
def pageParts : List Piece := [.keystone, .axis 0, .axis 1]

theorem keystone_mem_pageParts : Piece.keystone ∈ pageParts := by decide
theorem axis_mem_pageParts (a : AxisId) : Piece.axis a ∈ pageParts := by revert a; decide

theorem leaves_keyState (a : AxisId) (s : Nat) (b : Block) : Leaves pageParts pageRegs b (b.keyState a s) := by
  unfold keyState; dsimp only
  split
  · exact ((Leaves.refl _ _ b).modKey _ keystone_mem_pageParts).sendRing _
  · exact (((Leaves.refl _ _ b).count _ _ (mem_pageRegs a).1).modKey _ keystone_mem_pageParts).sendRing _

theorem leaves_setPark (a : AxisId) (p : Int) (v : Nat) (b : Block) : Leaves pageParts pageRegs b (b.setPark a p v) :=
  ((Leaves.refl _ _ b).modKey _ keystone_mem_pageParts).setRegI _ _ (mem_pageRegs a).2.2.2.2

theorem leaves_noRoom (a : AxisId) (b : Block) : Leaves pageParts pageRegs b (b.noRoom a) :=
  (leaves_keyState a 8 b).modKey _ keystone_mem_pageParts

theorem leaves_replan (a : AxisId) (b : Block) : Leaves pageParts pageRegs b (b.replan a) := by
  unfold replan
  split
  · split
    · exact .refl _ _ b
    · exact leaves_noRoom a b
  · dsimp only
    split
    · exact (leaves_setPark a _ _ b).modAxis a _ (axis_mem_pageParts a)
    · exact leaves_setPark a _ _ b

theorem leaves_keyPause (a : AxisId) (r : Option Nat) (b : Block) : Leaves pageParts pageRegs b (b.keyPause a r) := by
  unfold keyPause
  extract_lets s c d e
  have hc : Leaves pageParts pageRegs b c := by
    unfold c
    split
    · split
      · exact .refl _ _ b
      · exact (Leaves.refl _ _ b).modKey _ keystone_mem_pageParts
    · exact .refl _ _ b
  have he : Leaves pageParts pageRegs b e :=
    (((hc.trans (leaves_keyState a 4 c)).modKey _ keystone_mem_pageParts).bump _ (mem_pageRegs a).2.1).raise _ |>.modAxis a _
      (axis_mem_pageParts a)
  split
  · exact hc
  · split
    · exact (he.bump _ (mem_pageRegs a).2.2.1).raise _
    · exact he

theorem leaves_keyCap (a : AxisId) (b : Block) : Leaves pageParts pageRegs b (b.keyCap a) := by
  unfold keyCap
  split
  · exact leaves_keyPause a none b
  · split
    · exact leaves_replan a b
    · exact .refl _ _ b

theorem leaves_keyFollow (b : Block) : Leaves pageParts pageRegs b b.keyFollow := by
  have h := (Leaves.refl pageParts pageRegs b).modKey (fun k => { k with capSeen := b.reg Obj.deviceLineRateCap }) keystone_mem_pageParts
  unfold keyFollow
  split
  · exact .refl _ _ b
  · dsimp only
    split
    · exact h.trans (leaves_keyCap _ _)
    · exact h

/-! ## f_max and the stepped cap -/

/-- The registers that a head's line rate follows (R13, R72, R73, R80, R93, R224). -/
def rateObjs (h : HeadId) : List Obj :=
  [Obj.headTriggerSource h, Obj.headTriggerPeriod h, Obj.headExposure h, Obj.headLayoutLead h, Obj.headLayoutActive h, Obj.headLayoutTrail h,
   Obj.headPatternPixelRate h, Obj.headSegments h, Obj.headStitchMode h, Obj.headStitchWidth h]

theorem rateObjs_outside (h : HeadId) : ∀ o ∈ rateObjs h, o.sub < 256 ∧ o.index ∉ finishIndices := by revert h; decide

theorem table_schedule {b n : Block} (ht : n.tables = b.tables) (h : HeadId) : n.table (0x6014 + h.val) = b.table (0x6014 + h.val) := by
  have hd : ∀ c : Block, c.tableDefault (0x6014 + h.val) = List.replicate 8 0 := fun c => by
    rw [tableDefault, if_neg (by omega), if_pos (by omega)]
  simp only [table, ht, hd]

/-- The line rate of a head follows the head, its schedule and its registers. -/
theorem headRateUnder_congr {b n : Block} (hh : n.heads = b.heads) (ht : n.tables = b.tables) (h : HeadId)
    (hr : ∀ o ∈ rateObjs h, n.reg o = b.reg o) (ceiling : Nat) : n.headRateUnder ceiling h = b.headRateUnder ceiling h := by
  simp only [rateObjs, List.mem_cons, List.not_mem_nil, or_false, forall_eq_or_imp, forall_eq] at hr
  obtain ⟨hsource, hperiod, hexposure, hlead, hactive, htrail, hrate, hsegments, hmode, hwidth⟩ := hr
  have hclocked : n.clocked h = b.clocked h := by simp only [clocked, hh]
  have hwindow : n.windowUnits h = b.windowUnits h := by simp only [windowUnits, readout, pixelUnits, hlead, hactive, htrail, hrate]
  have hmin : n.effMin h = b.effMin h := by
    simp only [effMin, effMinWith, boundPeriod, pipelinePixels, stepsNow, hclocked, hwindow, hh, hexposure, hactive, hsegments, hmode, hwidth]
  simp only [headRateUnder, hmin, periodNow, hclocked, hh, hsource, hperiod, table_schedule ht h]

theorem fMax_congr {b n : Block} (hh : n.heads = b.heads) (ht : n.tables = b.tables) (hring : n.ring = b.ring)
    (hr : ∀ h, ∀ o ∈ rateObjs h, n.reg o = b.reg o) : n.fMax = b.fMax := by
  simp only [fMax, hh, hring, headRateUnder_congr hh ht _ (hr _)]

/-- A cap that is already the pier's own stays what the step and f_max give. -/
theorem steppedCap_of_own {b n : Block} (hs : n.reg Obj.thermalStep = b.reg Obj.thermalStep) (hf : n.fMax = b.fMax)
    (ho : n.thermal.own = b.steppedCap) : n.steppedCap = b.steppedCap := by
  by_cases h0 : b.reg Obj.thermalStep = 0
  · simp [steppedCap, hs, h0]
  · cases hm : b.fMax with
    | none => rw [ho.symm]; simp [steppedCap, hs, hf, h0, hm]
    | some f => simp [steppedCap, hs, hf, h0, hm]

/-! ## What the cap's part of `finish` sets -/

theorem capChanged_own (t : Time) (p v : Nat) (b : Block) : (b.capChanged t p v).thermal.own = b.thermal.own := by
  unfold capChanged; dsimp only; split <;> rfl

theorem capChanged_reg (t : Time) (p v : Nat) (b : Block) (o : Obj) (ho : o.key ≠ Obj.deviceLineRateCap.key) :
    (b.capChanged t p v).reg o = b.reg o := by
  unfold capChanged; dsimp only
  split
  · rfl
  · exact reg_setReg_ne _ _ _ _ ho

theorem capFollow_own (b : Block) : b.capFollow.thermal.own = b.steppedCap := by
  unfold capFollow
  extract_lets cap c d e
  split
  next h => exact h.symm
  · rw [capChanged_own]; simp [e, cap]

theorem capFollow_reg (b : Block) (o : Obj) (ho : o.key ≠ Obj.deviceLineRateCap.key) : b.capFollow.reg o =
    (b.setReg Obj.thermalLocalCap (if b.reg Obj.thermalState = 3 then 0 else b.steppedCap)).reg o := by
  unfold capFollow
  extract_lets cap c d
  split
  · rfl
  · rw [capChanged_reg _ _ _ _ _ ho, sendRing_reg, alert_reg]; rfl

theorem stateFollow_shown (b : Block) : b.stateFollow.power.shown = b.powerState := by
  unfold stateFollow; dsimp only
  split
  next h => exact h.symm
  · split <;> simp

theorem stateFollow_phase (b : Block) : b.stateFollow.power.phase = b.power.phase := by
  unfold stateFollow; dsimp only
  split
  · rfl
  · split <;> simp

/-! ## What follows at the end of a command -/

theorem finish_power (b : Block) : b.finish.power.shown = b.powerState ∧ b.finish.power.phase = b.power.phase := by
  have hp : b.finish.power = b.stateFollow.power := by
    have hk := (leaves_keyFollow b.stateFollow.capFollow).power (by decide)
    simp only [finish, settle_keeps, writeFaults_keeps, hk, capFollow_keeps]
  rw [hp]
  exact ⟨stateFollow_shown b, stateFollow_phase b⟩

theorem powerState_congr {b n : Block} (hh : n.heads = b.heads) (hp : n.power.phase = b.power.phase) : n.powerState = b.powerState := by
  have hs : ∀ h, n.headStopped h = b.headStopped h := fun h => by simp only [headStopped, hh]
  have hall : n.allStopped = b.allStopped := by simp only [allStopped, hs]
  rw [powerState, powerState, asleep, asleep, hp, hall]

theorem finish_own (b : Block) : b.finish.thermal.own = b.stateFollow.steppedCap := by
  have hk := (leaves_keyFollow b.stateFollow.capFollow).thermal (by decide)
  simp only [finish, settle_keeps, writeFaults_keeps, hk, capFollow_own]

/-- A register of the governor reads after `finish` what it read after the cap's part. -/
theorem finish_reg_thermal (b : Block) {o : Obj} (ho : o ∈ [Obj.thermalStep, Obj.thermalState, Obj.thermalLocalCap]) :
    b.finish.reg o = b.stateFollow.capFollow.reg o := by
  have hpage : ∀ o ∈ [Obj.thermalStep, Obj.thermalState, Obj.thermalLocalCap], ∀ x ∈ pageRegs, o.key ≠ x.key := by decide
  rw [finish, settle_reg, writeFaults_reg, (leaves_keyFollow _).reg o (hpage o ho)]

theorem finish_fMax (b : Block) : b.finish.fMax = b.stateFollow.fMax :=
  fMax_congr (by simp) (by simp) (by simp) fun h o ho => by
    obtain ⟨hsub, hindex⟩ := rateObjs_outside h o ho
    rw [finish_reg_index _ _ hsub hindex, stateFollow_reg_index _ _ hsub hindex]

theorem finish_steppedCap (b : Block) : b.finish.steppedCap = b.stateFollow.steppedCap := by
  refine steppedCap_of_own ?_ (finish_fMax b) (finish_own b)
  rw [finish_reg_thermal b (by simp), capFollow_reg _ _ (by decide), reg_setReg_ne _ _ _ _ (by decide)]

end Block
end Sys2Proof.Machine

namespace Sys2Proof
open Machine Machine.Block

/-- Settles O1: the step is `exec` on the queue's rest, and nothing on an empty queue. -/
theorem stepRunsFrontCommand : Obligations.StepRunsFrontCommand := ⟨fun _ _ _ => rfl, fun _ => step_of_empty⟩

/-- Settles O2: every command is `run`, which answers a next state with the queue that it finds. -/
theorem everyCommandAnswers : Obligations.EveryCommandAnswers := by
  unfold Obligations.EveryCommandAnswers
  intro c s
  obtain ⟨t, f, hf⟩ := exec_eq_run c
  exact ⟨_, hf s, rfl⟩

/-- Settles O4: every command ends in `finish`, which sets what is shown and the caps, and leaves the heads, the step and f_max that they
follow; an idle step changes nothing. -/
theorem powerAndCapFollow : Obligations.PowerAndCapFollow := by
  unfold Obligations.PowerAndCapFollow
  intro s n follows
  have hfinish : ∀ b : Block, follows b.finish := by
    intro b
    obtain ⟨hshown, hphase⟩ := finish_power b
    refine ⟨by rw [hshown, powerState_congr (finish_keeps b).2.2.2.1 hphase], ?_, by rw [finish_own, finish_steppedCap]⟩
    rw [finish_steppedCap, finish_reg_thermal b (by simp), finish_reg_thermal b (by simp), capFollow_reg _ _ (by decide),
      capFollow_reg _ Obj.thermalState (by decide), reg_setReg_self, reg_setReg_ne _ _ Obj.thermalState _ (by decide)]
    rfl
  have hrun : s.pending ≠ [] → step s = .next n → follows n.b := by
    intro hp h
    obtain ⟨b, hb⟩ := exists_finish_of_step hp h
    rw [hb]
    exact hfinish b
  refine ⟨hrun, fun hs h => ?_⟩
  by_cases hp : s.pending = []
  · rw [step_of_empty hp] at h
    cases h
    exact hs
  · exact hrun hp h

/-- Settles O5: the values of reset, computed. -/
theorem resetState : Obligations.ResetState := by
  unfold Obligations.ResetState
  intro b
  have hselect : ∀ t < 512, b.select t = 0xFFFF := by decide +kernel
  refine ⟨rfl, ⟨?_, ?_, ?_⟩, rfl, ?_, ?_, ?_, ?_, ?_, ?_, ?_, rfl, rfl, rfl, rfl, rfl, ?_, hselect, ?_⟩ <;> decide +kernel

/-- Settles O6: what `finish` is made of leaves these parts, every register outside `finishIndices`, and what has left. -/
theorem finishLeaves : Obligations.FinishLeaves := by
  unfold Obligations.FinishLeaves
  intro b n
  obtain ⟨hnow, hpart, htables, hheads, hvideo, hcorr, hstitch, hillum, hcapture, haux, hring, hmem, hhost, htest, hrepair, hsaved, hcontrol,
    hcustody, hfirmware, hattest⟩ := finish_keeps b
  exact ⟨hnow, hpart, htables, hheads, hvideo, hcorr, hstitch, hillum, hcapture, haux, hring, hmem, hhost, htest, hrepair, hsaved, hcontrol,
    hcustody, hfirmware, hattest, fun o hsub hindex => finish_reg_index b o hsub hindex, finish_outs b⟩

end Sys2Proof

/-! # The buffer (R200, R527)

What an address reads after a run of bytes is written or the contents of a range are lost, through the cells listed at it. -/

namespace Sys2Proof.Machine

/-! ## Lookups -/

theorem Map.get?_append {α : Type} (m n : Map α) (k : Nat) : Map.get? (m ++ n) k = (m.get? k).or (n.get? k) := by
  induction m with
  | nil => rfl
  | cons x m ih =>
    obtain ⟨j, v⟩ := x
    simp only [List.cons_append, Map.get?]
    split
    · rfl
    · exact ih

/-- A part of a map that is taken by key. -/
theorem Map.get?_filter {α : Type} (m : Map α) (p : Nat → Bool) (k : Nat) :
    Map.get? (m.filter fun c => p c.1) k = if p k then m.get? k else none := by
  induction m with
  | nil => simp [Map.get?]
  | cons x m ih =>
    obtain ⟨j, v⟩ := x
    by_cases hk : k = j
    · subst hk
      cases hp : p k with
      | true => simp [hp, Map.get?]
      | false => simpa [hp] using ih
    · cases hp : p j with
      | true => simpa [hp, Map.get?, hk] using ih
      | false => simpa [hp, Map.get?, hk] using ih

/-! ## Contents lost -/

theorem memDefault_of_not_wiped {w : List (Nat × Nat × Nat)} {a : Nat} (h : memWiped w a = false) : memDefault w a = 0 := by
  induction w with
  | nil => rfl
  | cons x w ih =>
    obtain ⟨start, n, k⟩ := x
    simp only [memWiped, List.any_cons, Bool.or_eq_false_iff, Bool.and_eq_false_iff, decide_eq_false_iff_not] at h
    obtain ⟨hx, hw⟩ := h
    rw [memDefault, if_neg (by omega)]
    exact ih hw

theorem memGet_memWipe_inside (m : Buffer) {a n k x : Nat} (h1 : a ≤ x) (h2 : x < a + n) :
    memGet (memWipe m a n k) x = BitVec.ofNat 8 (Config.freeNat (k + (x - a))) := by
  have hcell : (memWipe m a n k).cells.get? x = none := by
    rw [memWipe, Map.get?_filter m.cells (fun i => decide (i < a) || decide (a + n ≤ i)), if_neg (by simp; omega)]
  rw [memGet, hcell, memWipe, Option.getD_none, memDefault, if_pos ⟨h1, h2⟩]

theorem memGet_memWipe_outside (m : Buffer) {a n k x : Nat} (h : x < a ∨ a + n ≤ x) : memGet (memWipe m a n k) x = memGet m x := by
  have hcell : (memWipe m a n k).cells.get? x = m.cells.get? x := by
    rw [memWipe, Map.get?_filter m.cells (fun i => decide (i < a) || decide (a + n ≤ i)), if_pos (by simpa using h)]
  rw [memGet, hcell, memWipe, memDefault, if_neg (by omega)]
  rfl

/-! ## A run of bytes -/

/-- Outside its addresses a run lists nothing. -/
theorem get?_runCells_outside (w : List (Nat × Nat × Nat)) (bytes : List Byte) {a x : Nat} (h : x < a ∨ a + bytes.length ≤ x) :
    (runCells w a bytes).get? x = none := by
  induction bytes generalizing a with
  | nil => rfl
  | cons v rest ih =>
    rw [List.length_cons] at h
    have hrest : (runCells w (a + 1) rest).get? x = none := ih (by omega)
    unfold runCells
    split
    · exact hrest
    · rw [Map.get?, if_neg (by omega)]
      exact hrest

/-- At its addresses a run reads its bytes, listed or not. -/
theorem get?_runCells_inside (w : List (Nat × Nat × Nat)) (bytes : List Byte) (a i : Nat) {v : Byte} (h : bytes[i]? = some v) :
    ((runCells w a bytes).get? (a + i)).getD (memDefault w (a + i)) = v := by
  induction bytes generalizing a i with
  | nil => simp at h
  | cons u rest ih =>
    cases i with
    | zero =>
      obtain rfl : u = v := by simpa using h
      have hrest : (runCells w (a + 1) rest).get? a = none := get?_runCells_outside w rest (by omega)
      rw [Nat.add_zero]
      unfold runCells
      split
      next hz => rw [hrest, Option.getD_none, memDefault_of_not_wiped hz.2, hz.1]
      · simp [Map.get?]
    | succ i =>
      have hrest := ih (a + 1) i (by simpa using h)
      rw [show a + 1 + i = a + (i + 1) by omega] at hrest
      unfold runCells
      split
      · exact hrest
      · rw [Map.get?, if_neg (by omega)]
        exact hrest

/-- The cells of a written buffer: before the run, the run, after it. -/
theorem get?_memPutRun (m : Buffer) (a : Nat) (bytes : List Byte) (x : Nat) : (memPutRun m a bytes).cells.get? x =
    if x < a ∨ a + bytes.length ≤ x then m.cells.get? x else (runCells m.wiped a bytes).get? x := by
  rw [memPutRun, Map.get?_append, Map.get?_append, Map.get?_filter m.cells fun i => decide (i < a),
    Map.get?_filter m.cells fun i => decide (a + bytes.length ≤ i)]
  by_cases h1 : x < a
  · simp [h1, get?_runCells_outside m.wiped bytes (.inl h1), show ¬a + bytes.length ≤ x by omega]
  · by_cases h2 : a + bytes.length ≤ x
    · simp [h1, h2, get?_runCells_outside m.wiped bytes (.inr h2)]
    · simp [h1, h2]

theorem memGet_memPutRun_inside (m : Buffer) (a : Nat) {bytes : List Byte} {i : Nat} {v : Byte} (h : bytes[i]? = some v) :
    memGet (memPutRun m a bytes) (a + i) = v := by
  obtain ⟨hi, -⟩ := List.getElem?_eq_some_iff.mp h
  rw [memGet, get?_memPutRun, if_neg (by omega)]
  exact get?_runCells_inside m.wiped bytes a i h

theorem memGet_memPutRun_outside (m : Buffer) {a x : Nat} {bytes : List Byte} (h : x < a ∨ a + bytes.length ≤ x) :
    memGet (memPutRun m a bytes) x = memGet m x := by
  rw [memGet, get?_memPutRun, if_pos h]
  rfl

/-! ## Reading -/

theorem Block.getElem?_memRead (b : Block) (a : Nat) {n i : Nat} (h : i < n) : (b.memRead a n)[i]? = some (memGet b.mem (a + i)) := by
  have hcell := Map.get?_filter b.mem.cells (fun j => decide (a ≤ j) && decide (j < a + n)) (a + i)
  rw [if_pos (by simp; omega)] at hcell
  simp [Block.memRead, List.getElem?_map, List.getElem?_range h, memGet, hcell]

end Sys2Proof.Machine

namespace Sys2Proof
open Machine Machine.Block

/-- Settles O7: what a cell reads after a run or a loss, inside its addresses and outside them. -/
theorem bufferWrites : Obligations.BufferWrites := by
  unfold Obligations.BufferWrites
  intro m a hm
  refine ⟨fun bytes => ⟨memPutRun_wf m a bytes hm, fun i v hv => memGet_memPutRun_inside m a hv, fun x hx => memGet_memPutRun_outside m hx⟩,
    fun n k => ⟨memWipe_wf m a n k hm, fun x h1 h2 => memGet_memWipe_inside m h1 h2, fun x hx => memGet_memWipe_outside m hx⟩, ?_⟩
  rintro b n i rfl hi
  exact b.getElem?_memRead a hi

end Sys2Proof

/-! # Requests by write and by task (R25, R28, R359), and the dictionary's longer operations (R33 to R36, R49, R50)

An accepted write of an action, or a task sampled alone, does the action on the pier as the request finds it, and is answered. -/

namespace Sys2Proof.Machine.Block

/-! ## Requests -/

/-- A request by write or by task that reaches its block: the operation on the pier as the request finds it. `hw` says what the object does
with the value, `ht` what the task does. -/
theorem orTask_of_reaches {r : Option Route} {o : Obj} {v task : Nat} {e : Env} {b c : Block} (h : b.reaches r o v task e)
    (he : e.same = false) (hw : ∀ x, r = some x → b.writeDo e x o.index o.sub (v % 256 ^ (o.ty.bits / 8)) = some c)
    (ht : r = none → ∀ m, (b.unlatch task).taskDo task (b.stampOf task) { e with merged := m } [] = c) : b.orTask r o v task e = c := by
  cases r with
  | some x => exact writeTo_of_accepts h (hw x rfl)
  | none => rw [orTask_none, sampled_alone task e [] b he h]; exact ht rfl _

/-- The same for an operation that both perform and that only the write answers. -/
theorem orTask_answered {r : Option Route} {o : Obj} {v task : Nat} {e : Env} {b : Block} {f : Block → Block} (h : b.reaches r o v task e)
    (he : e.same = false) (hw : ∀ x, r = some x → b.writeDo e x o.index o.sub (v % 256 ^ (o.ty.bits / 8)) = some ((f b).reply x .ok))
    (ht : r = none → ∀ m, (b.unlatch task).taskDo task (b.stampOf task) { e with merged := m } [] = f (b.unlatch task)) :
    b.orTask r o v task e = (f (b.cleared r task)).answered r .ok := by
  cases r with
  | some x => exact writeTo_of_accepts h (hw x rfl)
  | none => rw [orTask_none, sampled_alone task e [] b he h]; exact ht rfl _

/-- A write to an object that is of no head and no axis. -/
theorem writeDo_pier (e : Env) (r : Route) {index : Nat} (sub v : Nat) (b : Block) (hh : index < 0x3000 ∨ 0x4000 ≤ index)
    (ha : index < 0x4100 ∨ 0x4200 ≤ index) :
    b.writeDo e r index sub v = (b.captureDo e r index sub v).orElse fun _ => (b.auxDo e r index sub v).orElse fun _ =>
      (b.fabricDo r index sub v).orElse fun _ => (b.dmaDo e r index sub v).orElse fun _ => (b.ringDo e r index sub v).orElse fun _ =>
        b.systemDo e r index sub v := by
  simp only [writeDo, headIndex_low index hh, axisIndex_other index ha]

theorem reply_answered (r : Route) (res : Result) (b : Block) : (b.reply r res).Answered r res := by simp [Answered, reply_outs]

/-- An answer given before the end of a command is in its record. -/
theorem Answered.finish {r : Route} {res : Result} {b : Block} (h : b.Answered r res) : b.finish.Answered r res := finish_outs b _ h

theorem Fired.finish {n : Nat} {b : Block} (h : b.Fired n) : b.finish.Fired n := finish_outs b _ h

/-! ## Levels (R40, R42) -/

theorem nextWrite_none_store {r : Route} {o : Obj} {v : Nat} {b : Block} (h : b.nextWrite (routePlace r) o.key = none) :
    b.storeFor r o v = (b.noteWrite (routePlace r) o).store o v := by simp only [storeFor, h]

theorem store_other {o : Obj} (v : Nat) (b : Block) (h : headIndex o.index = none) : b.store o v = b.setReg o v := by simp only [store, h]

/-- The setting of a head that is about to be written: only what it was is noted. -/
theorem noteSetting_regs (h : HeadId) (i : Nat) (o : Obj) (b : Block) : (b.noteSetting h i o).regs = b.regs := by
  unfold noteSetting; extract_lets old; split <;> rfl

theorem noteSetting_mem (h : HeadId) (i : Nat) (o : Obj) (b : Block) : (b.noteSetting h i o).mem = b.mem := by
  unfold noteSetting; extract_lets old; split <;> rfl

theorem noteSetting_head (h g : HeadId) (i : Nat) (o : Obj) (b : Block) :
    (b.noteSetting h i o).heads[g].state = b.heads[g].state ∧ (b.noteSetting h i o).heads[g].lines = b.heads[g].lines := by
  unfold noteSetting
  extract_lets old
  split
  · exact ⟨rfl, rfl⟩
  · by_cases hg : h.val = g.val
    · obtain rfl : h = g := Fin.ext hg
      rw [Fin.getElem_fin, Vector.getElem_set_self]
      exact ⟨rfl, rfl⟩
    · simp [hg]

theorem reg_congr_regs {b n : Block} (h : n.regs = b.regs) (o : Obj) : n.reg o = b.reg o := by rw [reg, reg, h]

/-- A head's level is stored as it is written. -/
theorem store_level (h : HeadId) {o : Obj} (ho : o.index = 0x3000 + 0x400 * h.val) (v : Nat) (b : Block) :
    b.store o v = (b.noteSetting h 0x3000 o).setReg o v := by
  have hi : headIndex o.index = some (h, 0x3000) := ho ▸ headIndex_of h 0 (by omega)
  simp only [store, hi, headBefore, headStored]
  rfl

/-- The level of a head that has been stored, and what the write leaves. -/
theorem functionLevel_storeFor_level (h : HeadId) {r : Route} {o : Obj} (hi : o.index = 0x3000 + 0x400 * h.val) (hs : o.sub = 1)
    (hty : o.ty = .u8) (v : Nat) {b : Block} (hn : b.nextWrite (routePlace r) o.key = none) :
    (b.storeFor r o v).functionLevel (0x3000 + 0x400 * h.val) = if b.feature 0 then v % 2 ^ 8 else 0 := by
  have hkey : ∀ ty d, (⟨0x3000 + 0x400 * h.val, 1, ty, d⟩ : Obj).key = o.key := fun _ _ => by simp only [Obj.key, hi, hs]
  have hne : Obj.deviceFeaturesConfirmedLo.key ≠ o.key := by simp only [Obj.key, hi, hs, Obj.deviceFeaturesConfirmedLo]; omega
  rw [nextWrite_none_store hn, store_level h hi, functionLevel, levelInForce, feature, reg_setReg_ne _ _ _ _ hne, reg_setReg, if_pos (hkey _ _),
    reg_congr_regs (noteSetting_regs ..), hty]
  rfl

theorem storeFor_level_keeps (h : HeadId) {r : Route} {o : Obj} (hi : o.index = 0x3000 + 0x400 * h.val) (v : Nat) {b : Block}
    (hn : b.nextWrite (routePlace r) o.key = none) : (b.storeFor r o v).mem = b.mem ∧ ∀ g : HeadId,
      (b.storeFor r o v).heads[g].state = b.heads[g].state ∧ (b.storeFor r o v).heads[g].lines = b.heads[g].lines := by
  rw [nextWrite_none_store hn, store_level h hi]
  exact ⟨noteSetting_mem .., fun g => noteSetting_head ..⟩

theorem levelInForce_congr {o : Obj} {b n : Block} (hf : n.reg Obj.deviceFeaturesConfirmedLo = b.reg Obj.deviceFeaturesConfirmedLo)
    (ho : n.reg o = b.reg o) : n.levelInForce o = b.levelInForce o := by rw [levelInForce, levelInForce, feature, feature, hf, ho]

theorem finish_levelInForce {o : Obj} (b : Block) (hs : o.sub < 256) (hi : o.index ∉ finishIndices) :
    b.finish.levelInForce o = b.levelInForce o :=
  levelInForce_congr (finish_reg_index b _ (by decide) (by decide)) (finish_reg_index b _ hs hi)

end Sys2Proof.Machine.Block

namespace Sys2Proof
open Machine Machine.Block

/-- Settles O8: an accepted write is what its object does, or `storeFor`, which sets the register to the value. -/
theorem acceptedWriteIsStored : Obligations.AcceptedWriteIsStored := by
  unfold Obligations.AcceptedWriteIsStored
  intro t r e s
  have hstored : ∀ (o : Obj) (v : Nat), (s.b.at_ t).nextWrite (routePlace r) o.key = none → headIndex o.index = none →
      ((s.b.at_ t).storeFor r o v).reg o = v % 2 ^ o.ty.bits := fun o v hn hi => by
    rw [nextWrite_none_store hn, store_other _ _ hi, reg_setReg_self]
  refine ⟨fun index sub data row hrow ha hd => ?_, fun index sub data row b hrow ha hd => ?_, fun index level row hrow ha hd => ?_, hstored,
    fun h level ha hn => ?_⟩
  · exact does_of_run rfl (by rw [dictWrite_of_accepts hrow ha, hd]; rfl)
  · exact does_of_run rfl (by rw [dictWrite_of_accepts hrow ha, hd]; rfl)
  · have hv : leNat [level] = level.toNat := by simp [leNat]
    exact does_of_run rfl (by rw [dictWrite_of_accepts hrow ha, hv, hd]; rfl)
  · have hindex : (BitVec.ofNat 16 (0x3000 + 0x400 * h.val)).toNat = 0x3000 + 0x400 * h.val := by
      rw [BitVec.toNat_ofNat, Nat.mod_eq_of_lt (by omega)]
    have hv : leNat [level] = level.toNat := by simp [leNat]
    obtain ⟨row, hrow⟩ := row_of_accepts ha
    have hty : row.ty = .u8 := by
      have hl := findRow_level (controlPlace_head h 0)
      rw [show 0x3000 + 0x80 * (0 : Fin 6).val + 0x400 * h.val = 0x3000 + 0x400 * h.val from rfl, hrow] at hl
      simp only [Option.all_some, Row.isLevel, Bool.and_eq_true, beq_iff_eq] at hl
      exact hl.1
    have hd : (s.b.at_ t).writeDo e r (0x3000 + 0x400 * h.val) 1 level.toNat = none := writeDo_head e r h 0 1 level.toNat _ (by omega)
    have hrun : (s.b.at_ t).dictWrite e r (BitVec.ofNat 16 (0x3000 + 0x400 * h.val)).toNat 1 [level] =
        ((s.b.at_ t).storeFor r (row.obj (0x3000 + 0x400 * h.val) 1) level.toNat).reply r .ok := by
      rw [hindex, dictWrite_of_accepts hrow ha, hv, hd, Option.getD_none]
    obtain ⟨hmem, hheads⟩ := storeFor_level_keeps h (o := row.obj (0x3000 + 0x400 * h.val) 1) rfl level.toNat hn
    refine ends_of_run rfl ?_
    rw [hrun]
    have hreply := reply_keeps r .ok ((s.b.at_ t).storeFor r (row.obj (0x3000 + 0x400 * h.val) 1) level.toNat)
    obtain ⟨hrheads, hrmem, -, -⟩ := hreply
    refine ⟨?_, (reply_answered ..).finish, ?_, fun g => ?_⟩
    · rw [functionLevel, finish_levelInForce _ (by simp) (by simp [finishIndices]; omega), levelInForce_congr (reply_reg ..) (reply_reg ..)]
      have hl := functionLevel_storeFor_level h (o := row.obj (0x3000 + 0x400 * h.val) 1) rfl rfl hty level.toNat hn
      rw [functionLevel, Nat.mod_eq_of_lt level.isLt] at hl
      exact hl
    · simp only [finish_keeps, hrmem, hmem, at_mem]
    · simp only [finish_keeps, hrheads]; exact hheads g

end Sys2Proof

/-! # Saves, restores and the feature set (R33 to R36, R49, R50) -/

namespace Sys2Proof.Machine.Block

/-! ## The saved sets -/

/-- What a save that is complete puts in a group's place. -/
def savedAfter (x : SaveRun) (old : SavedGroup) (k : Fin 3) : SavedGroup :=
  match x.sets[k] with | some y => ⟨some y, false, false⟩ | none => old

/-- The groups of a complete save are put in place one by one. -/
def putSaved (x : SaveRun) (b : Block) (g : Fin 3) : Block :=
  match x.sets[g] with | some y => { b with saved := b.saved.set g ⟨some y, false, false⟩ } | none => b

theorem putSaved_keeps (x : SaveRun) (b : Block) (g : Fin 3) : (b.putSaved x g).control = b.control ∧ (b.putSaved x g).mem = b.mem ∧
    (b.putSaved x g).heads = b.heads := by
  unfold putSaved; split <;> exact ⟨rfl, rfl, rfl⟩

theorem putSaved_saved (x : SaveRun) (b : Block) (g k : Fin 3) :
    (b.putSaved x g).saved[k] = if k = g then savedAfter x b.saved[k] k else b.saved[k] := by
  unfold putSaved savedAfter
  by_cases hk : k = g
  · subst hk; rw [if_pos rfl]; split <;> simp [*]
  · have hv : g.val ≠ k.val := fun e => hk (Fin.ext e.symm)
    rw [if_neg hk]; split <;> simp [hv]

theorem saveComplete_of_some {x : SaveRun} {b : Block} (h : b.control.save = some x) : b.saveComplete =
    ({ [0, 1, 2].foldl (putSaved x) b with control := { ([0, 1, 2].foldl (putSaved x) b).control with save := none } }).reply x.route .ok := by
  simp only [saveComplete, h]
  rfl

theorem foldl_putSaved (x : SaveRun) (b : Block) (k : Fin 3) : ([0, 1, 2].foldl (putSaved x) b).saved[k] = savedAfter x b.saved[k] k := by
  simp only [List.foldl_cons, List.foldl_nil, putSaved_saved]
  fin_cases k <;> rfl

theorem foldl_putSaved_keeps (x : SaveRun) (b : Block) : ([0, 1, 2].foldl (putSaved x) b).control = b.control ∧
    ([0, 1, 2].foldl (putSaved x) b).mem = b.mem ∧ ([0, 1, 2].foldl (putSaved x) b).heads = b.heads := by
  have h : ∀ b g, _ := putSaved_keeps x
  exact ⟨foldl_keeps Block.control _ _ _ fun c g => (h c g).1, foldl_keeps Block.mem _ _ _ fun c g => (h c g).2.1,
    foldl_keeps Block.heads _ _ _ fun c g => (h c g).2.2⟩

/-! ## The answer of a request leaves these -/

theorem reply_saved (r : Route) (res : Result) (b : Block) : (b.reply r res).saved = b.saved := by cases r <;> rfl
theorem reply_control (r : Route) (res : Result) (b : Block) : (b.reply r res).control = b.control := by cases r <;> rfl

/-! ## Restores -/

/-- A group is marked for deletion. -/
def markSaved (b : Block) (g : Fin 3) : Block := { b with saved := b.saved.set g { b.saved[g] with delete := true } }

theorem markSaved_saved (b : Block) (g k : Fin 3) :
    (b.markSaved g).saved[k] = if k = g then { b.saved[k] with delete := true } else b.saved[k] := by
  by_cases hk : k = g
  · subst hk; simp [markSaved]
  · have hv : g.val ≠ k.val := fun e => hk (Fin.ext e.symm)
    simp [markSaved, hk, hv]

theorem foldl_markSaved (l : List (Fin 3)) (b : Block) (k : Fin 3) :
    (l.foldl markSaved b).saved[k] = if k ∈ l then { b.saved[k] with delete := true } else b.saved[k] := by
  induction l generalizing b with
  | nil => rfl
  | cons g l ih =>
    rw [List.foldl_cons, ih, markSaved_saved]
    by_cases hk : k = g <;> by_cases hl : k ∈ l <;> simp [hk, hl]

theorem restore_saved (sub : Nat) (b : Block) (k : Fin 3) :
    (b.restore sub).saved[k] = if k ∈ groupsOf sub then { b.saved[k] with delete := true } else b.saved[k] := foldl_markSaved ..

theorem restore_keeps (sub : Nat) (b : Block) : (b.restore sub).mem = b.mem ∧ (b.restore sub).heads = b.heads :=
  ⟨foldl_keeps Block.mem _ _ _ fun _ _ => rfl, foldl_keeps Block.heads _ _ _ fun _ _ => rfl⟩

/-! ## What the writes of the dictionary ask for -/

theorem writeDo_commSave (e : Env) (r : Route) (g v : Nat) (b : Block) :
    b.writeDo e r (Obj.commSave g).index (Obj.commSave g).sub v = some (b.saveBegin (1 + g) r) :=
  writeDo_pier e r (index := 0x1010) _ v b (.inl (by decide)) (.inl (by decide))

theorem writeDo_commRestore (e : Env) (r : Route) (g v : Nat) (b : Block) :
    b.writeDo e r (Obj.commRestore g).index (Obj.commRestore g).sub v = some ((b.restore (1 + g)).reply r .ok) :=
  writeDo_pier e r (index := 0x1011) _ v b (.inl (by decide)) (.inl (by decide))

theorem writeDo_featuresControl (e : Env) (r : Route) (v : Nat) (b : Block) :
    b.writeDo e r Obj.deviceFeaturesControl.index Obj.deviceFeaturesControl.sub v =
      some ((if v = 1 then b.featuresConfirm e.othersAgree else b.featuresBase).reply r .ok) :=
  writeDo_pier e r (index := 0x2013) _ v b (.inl (by decide)) (.inl (by decide))

end Sys2Proof.Machine.Block

namespace Sys2Proof
open Machine Machine.Block

/-- Settles O11: the accepted writes do `saveBegin`, `restore`, `featuresConfirm` and `featuresBase`; a complete save puts its groups in
place one by one. -/
theorem savesRestoresAndFeatures : Obligations.SavesRestoresAndFeatures := by
  unfold Obligations.SavesRestoresAndFeatures
  refine ⟨fun t r s => ⟨fun g v h => ?_, fun x hx => ?_, fun g v h => ?_⟩, fun t r others s => ?_⟩
  · exact does_of_run rfl (writeTo_of_accepts h (writeDo_commSave ..))
  · obtain ⟨hcontrol, hmem, hheads⟩ := foldl_putSaved_keeps x (s.b.at_ t)
    refine ends_of_run rfl ?_
    rw [saveComplete_of_some (b := s.b.at_ t) hx]
    refine ⟨?_, (reply_answered ..).finish, ?_, ?_, fun k => ?_⟩
    · simp only [finish_keeps, reply_control, hcontrol, at_control]
    · simp only [finish_keeps, reply_keeps, hmem, at_mem]
    · simp only [finish_keeps, reply_keeps, hheads, at_heads]
    · simp only [finish_keeps, reply_saved]
      exact foldl_putSaved x (s.b.at_ t) k
  · obtain ⟨hmem, hheads⟩ := restore_keeps (1 + g.val) (s.b.at_ t)
    refine ends_of_run rfl ?_
    rw [writeTo_of_accepts h (writeDo_commRestore ..)]
    refine ⟨(reply_answered ..).finish, ?_, ?_, fun k => ?_⟩
    · simp only [finish_keeps, reply_keeps, hmem, at_mem]
    · simp only [finish_keeps, reply_keeps, hheads, at_heads]
    · simp only [finish_keeps, reply_saved]
      exact restore_saved (1 + g.val) (s.b.at_ t) k
  · exact ⟨fun h => does_of_run rfl (writeTo_of_accepts h (writeDo_featuresControl ..)),
      fun h => does_of_run rfl (writeTo_of_accepts h (writeDo_featuresControl ..))⟩

end Sys2Proof

/-! # TABLE downloads (R30, R31) -/

namespace Sys2Proof.Machine

theorem timeDiff_self (t : Time) : timeDiff t t = 0 := by simp [timeDiff]

/-- No time has passed since now. -/
theorem passed_self {n : Nat} (h : 0 < n) (t : Time) : passed t n t = false := by simp [passed, timeDiff_self]; omega

theorem takeSpace_zero (l : List (Nat × Nat)) : takeSpace 0 l = [] := by cases l <;> simp [takeSpace]

namespace Block

/-- The transfer of a route and an index is that route's and that index's. -/
theorem of_transferOf {r : Route} {index : Nat} {b : Block} {x : Transfer} (h : b.transferOf r index = some x) :
    x.route = r ∧ x.index = index := by
  have hx := List.find?_some h
  simpa using hx

/-- A request of a client whose session is open, or on another route, reaches the download. -/
theorem tableSegment_of_open {r : Route} {b : Block} (h : ∀ c : Fin 128, r = .can c → b.usdoServes = true ∧ b.can.sessions.contains c.val = true)
    (index : Nat) (start : Bool) (size : Option Nat) (bytes : List Byte) (last crcOk : Bool) (fault : Option AbortCode) (late : Bool) :
    b.tableSegment r index start size bytes last crcOk fault late = b.downloadSegment r index start size bytes last crcOk fault late := by
  cases r with
  | can c =>
    obtain ⟨hserves, hopen⟩ := h c rfl
    simp only [tableSegment, usdoSession, hserves, hopen, Bool.not_true, Bool.false_eq_true, if_false, if_true, ite_self]
  | _ => rfl

/-- A download that nothing refuses begins with no bytes. -/
theorem transferStart_of_ok {r : Route} {index : Nat} {size : Option Nat} {b : Block} (hcodes : b.tableCodes r index = [])
    (hsecond : (b.control.transfers.any fun x => x.index == index && x.kind == .table) = false)
    (hsize : ∀ n, size = some n → tableSizeOk index n = true) : b.transferStart r index size = (b.shadowUnready index).modControl fun c =>
      { c with transfers := c.transfers ++ [⟨r, index, 0, .table, size, [], [], b.now⟩] } := by
  cases size with
  | none => simp [transferStart, hcodes, hsecond, codeIf, firstCode]
  | some n => simp [transferStart, hcodes, hsecond, hsize n rfl, codeIf, firstCode]

theorem shadowUnready_keeps (index : Nat) (b : Block) : (b.shadowUnready index).now = b.now ∧ (b.shadowUnready index).control = b.control ∧
    (b.shadowUnready index).power = b.power := by
  unfold shadowUnready
  split
  · simp
  · split <;> simp

/-- A segment without bytes, in the instant in which its transfer has begun, changes nothing. -/
theorem transferSegment_empty {r : Route} {index : Nat} {size : Option Nat} {b : Block} (h : b.transferOf r index = none) (crcOk : Bool) :
    let c := b.modControl fun c => { c with transfers := c.transfers ++ [⟨r, index, 0, .table, size, [], [], b.now⟩] }
    c.transferSegment r index [] false crcOk none false = c := by
  intro c
  have hnone : ∀ z ∈ b.control.transfers, (z.route == r && z.index == index) = false := by
    simpa [transferOf, List.find?_eq_none] using h
  have hfind : c.transferOf r index = some ⟨r, index, 0, .table, size, [], [], b.now⟩ := by
    have h' : b.control.transfers.find? (fun x => x.route == r && x.index == index) = none := h
    simp [transferOf, c, modControl, List.find?_append, h']
  have hput : c.transferPut ⟨r, index, 0, .table, size, [], [], b.now⟩ = c := by
    have hmap : b.control.transfers.map (fun z => if z.route == r && z.index == index then
        (⟨r, index, 0, .table, size, [], [], b.now⟩ : Transfer) else z) = b.control.transfers := by
      conv_rhs => rw [← List.map_id b.control.transfers]
      exact List.map_congr_left fun z hz => by rw [hnone z hz]; rfl
    simp only [transferPut, c, modControl, List.map_append, hmap]
    simp
  have hpassed : passed b.now (tSec + 1) c.now = false := passed_self (by decide) _
  simp only [transferSegment, transferGoesOn, hfind, hpassed, Bool.and_false, Bool.false_eq_true, if_false, List.length_nil, takeSpace_zero,
    List.append_nil, placeWrite, Nat.not_lt_zero]
  exact hput

/-- A segment in time that finds room is staged and added to its transfer, which it ends when it is the last. -/
theorem transferSegment_of_some {r : Route} {index : Nat} {bytes : List Byte} {b : Block} {x : Transfer} (h : b.transferOf r index = some x)
    (ht : passed x.lastAt (tSec + 1) b.now = false)
    (hroom : bytes.length ≤ placeSize (takeSpace bytes.length (freeSpace tableArea b.stagesHeld))) (last crcOk : Bool) :
    let more := takeSpace bytes.length (freeSpace tableArea b.stagesHeld)
    let y := { x with lastAt := b.now, place := x.place ++ more }
    b.transferSegment r index bytes last crcOk none false =
      if last then ((b.placeWrite more bytes).transferPut y).transferEnd y crcOk else (b.placeWrite more bytes).transferPut y := by
  simp only [transferSegment, transferGoesOn, h, ht, Bool.and_false, Bool.false_eq_true, if_false, if_neg (Nat.not_lt.mpr hroom)]

/-- A complete download with every check passed takes force. -/
theorem transferEnd_of_ok {x : Transfer} {b : Block} (hi : x.index ≠ 0x6060) (hcodes : b.tableCodes x.route x.index = [])
    (hcontent : b.contentCodes x.index (b.placeRead x.place) = []) (hsize : ∀ n, x.size = some n → n = (b.placeRead x.place).length) :
    b.transferEnd x true = ((b.transferDrop x.route x.index).setTable x.index (b.placeRead x.place)).reply x.route .ok := by
  cases hs : x.size with
  | none => simp [transferEnd, hcodes, hcontent, hs, codeIf, firstCode, tableTakesForce, hi]
  | some n => simp [transferEnd, hcodes, hcontent, hs, hsize n hs, codeIf, firstCode, tableTakesForce, hi]

end Block
end Sys2Proof.Machine

namespace Sys2Proof
open Machine Machine.Block

/-- Settles O12: a download that begins (`transferStart_of_ok`), a segment (`transferSegment_of_some`), the final block
(`transferEnd_of_ok`), and the abort of a silent transfer. -/
theorem tableDownloads : Obligations.TableDownloads := by
  unfold Obligations.TableDownloads
  intro t r index s hs b
  have hb : b.served = true := hs
  refine ⟨fun size crcOk hopen hnone hcodes hsecond hsize => ?_, ?_, fun x hx ht => ?_⟩
  · refine does_of_run rfl ?_
    obtain ⟨hnow, hcontrol, -⟩ := shadowUnready_keeps index.toNat b
    have hnone' : (b.shadowUnready index.toNat).transferOf r index.toNat = none := by rw [transferOf, hcontrol]; exact hnone
    have hseg := transferSegment_empty (size := size) hnone' crcOk
    rw [hnow] at hseg
    rw [tableSegment_of_open hopen]
    simp only [downloadSegment, hb, hnone, transferStart_of_ok hcodes hsecond hsize]
    exact hseg
  · intro x bytes crcOk hopen hx ht more y hroom
    have hseg := transferSegment_of_some hx ht hroom
    have hrun : ∀ last crc, b.tableSegment r index.toNat false none bytes last crc none false = b.transferSegment r index.toNat bytes last crc none false :=
      fun last crc => by rw [tableSegment_of_open hopen]; simp [downloadSegment, hb]
    refine ⟨does_of_run rfl ((hrun ..).trans (hseg false crcOk)), ?_⟩
    intro hi c new hcodes hcontent hsize
    obtain ⟨hroute, hindex⟩ := of_transferOf hx
    have hend := transferEnd_of_ok (x := y) (b := c) (by rw [← hindex] at hi; exact hi) hcodes hcontent hsize
    refine does_of_run rfl ((hrun ..).trans ((hseg true true).trans (hend.trans ?_)))
    simp only [y, hroute, hindex]
    rfl
  · refine does_of_run rfl ?_
    have hx' : (s.b.at_ t).transferOf r index.toNat = some x := hx
    have ht' : passed x.lastAt (tSec + 1) (s.b.at_ t).now = true := ht
    simp only [transferTimeout, hx', ht', if_true]
    rfl

end Sys2Proof

/-! # BAR0 (R29, R442, R443) -/

namespace Sys2Proof.Machine.Block

theorem barDword_queue (q : QueueId) {off : Nat} (ho : off < 64) (v : Nat) (table : List Byte) (e : Env) (b : Block) :
    b.barDword (0x30000 + 64 * q.val + off) v table e = b.barQueue q off v e.same := by
  have hq : (0x30000 + 64 * q.val + off - 0x30000) / 64 = q.val := by omega
  have hr : (0x30000 + 64 * q.val + off) % 64 = off := by omega
  unfold barDword
  iterate 8 rw [if_neg (by omega)]
  rw [if_pos (by omega), hq, hr]
  simp [Fin.ofNat_eq_cast]

section
variable {b : Block} (hup : b.host.linkUp = true)
include hup

/-- A mask of the DMA engine takes its value. -/
theorem barWrite_dmaMask {off : Nat} {o : Obj} (ho : off = 0x12000 ∧ o = Obj.dmaFenceMask ∨ off = 0x12004 ∧ o = Obj.dmaStopMask)
    (hm : b.ring.minority = false) (hn : b.nextWrite 0 o.key = none) (v : Nat) (table : List Byte) (e : Env) :
    b.barWrite off 4 v table e = b.setReg o (v % 2 ^ 32) := by
  have hmin : b.barMinority 0x2401 = false := by rw [barMinority, hm, Bool.false_and]
  have hset : b.setByBar o (v % 2 ^ 32) = b.setReg o (v % 2 ^ 32) := by simp only [setByBar, hn]
  rcases ho with ⟨rfl, rfl⟩ | ⟨rfl, rfl⟩
  · rw [barWrite_dword hup rfl, ← hset]; simp [barDword, hmin]
  · rw [barWrite_dword hup rfl, ← hset]; simp [barDword, hmin]

theorem barWrite_checkerRefusals (v : Nat) (table : List Byte) (e : Env) : b.barWrite 0x12008 4 v table e = b.barDrop := by
  rw [barWrite_dword hup rfl]; simp [barDword]

/-- The size of an enabled queue is not written. -/
theorem barWrite_sizeLog2 (q : QueueId) (hq : b.reg (Obj.hostQueueEnable q) ≠ 0) (v : Nat) (e : Env) :
    b.barWrite (0x30008 + 64 * q.val) 4 v [] e = b.barDrop := by
  have hoff : 0x30008 + 64 * q.val = 0x30000 + 64 * q.val + 8 := by omega
  rw [barWrite_dword hup (by omega), hoff, barDword_queue q (by decide)]
  simp [barQueue, barIdle, isSet, hq]

/-- The write position only reads. -/
theorem barWrite_writePos (q : QueueId) (v : Nat) (e : Env) : b.barWrite (0x30010 + 64 * q.val) 8 v [] e = b.barDrop := by
  have hq : isQueue64 (0x30010 + 64 * q.val) = true := by
    have hr : (0x30010 + 64 * q.val) % 64 = 0x10 := by omega
    simp only [isQueue64, hr, Bool.and_eq_true, decide_eq_true_eq]
    exact ⟨⟨by omega, by omega⟩, by decide⟩
  have hr : (0x30010 + 64 * q.val) % 64 = 0x10 := by omega
  rw [barWrite, hup, if_neg (by decide), if_neg (by omega), if_pos ⟨rfl, by omega⟩, if_pos hq, hr]
  rfl

/-- The channels of the owner take no command. -/
theorem barWrite_ownerChannel (c : ChanId) (hc : c.val < 4) (v : Nat) (e : Env) : b.barWrite (0x10080 + 256 * c.val) 4 v [] e = b.barDrop := by
  have hn : (0x10080 + 256 * c.val - 0x10000) / 256 = c.val := by omega
  have hr : (0x10080 + 256 * c.val) % 256 = 0x80 := by omega
  have hchan : (Fin.ofNat 32 c.val) = c := by simp [Fin.ofNat_eq_cast]
  rw [barWrite_dword hup (by omega), barDword, if_neg (by omega), if_neg (by omega), if_pos (by omega), hn, hr, hchan]
  simp [barChannel, channelViolations, codeIf, hc]

/-- A write of a size or at an alignment that BAR0 does not take. -/
theorem barAccess_write {off size : Nat} (h : (size ≠ 4 ∧ size ≠ 8) ∨ off % size ≠ 0) : b.barAccess off size true = b.barDrop := by
  have hno : ¬((size = 4 ∨ size = 8) ∧ off % size = 0) := by omega
  rw [barAccess, hup, if_neg (by decide), if_pos rfl, if_neg hno]

theorem barAccess_read (off size : Nat) :
    b.barAccess off size false = if barReadable off size then b.barRead off size else b.emit .unsupported := by
  rw [barAccess, hup, if_neg (by decide), if_neg (by decide)]

end
end Sys2Proof.Machine.Block

namespace Sys2Proof
open Machine Machine.Block

/-- Settles O10: each access of BAR0 by its size, its alignment and its offset. -/
theorem bar0Accesses : Obligations.Bar0Accesses := by
  unfold Obligations.Bar0Accesses
  refine ⟨?_, fun q v b hup => ⟨fun hq => barWrite_sizeLog2 hup q hq v _, fun c hc => barWrite_ownerChannel hup c hc v _,
    barWrite_writePos hup q v _⟩⟩
  intro t s hs b
  have hup : b.host.linkUp = true := hs
  refine ⟨fun off v table e h => does_of_run rfl (barWrite_dword hup h ..), fun off v table e h hq => does_of_run rfl (barWrite_pair hup h hq ..),
    fun v table e hm hf hstop => ⟨does_of_run rfl (barWrite_dmaMask hup (.inl ⟨rfl, rfl⟩) hm hf ..),
      does_of_run rfl (barWrite_dmaMask hup (.inr ⟨rfl, rfl⟩) hm hstop ..)⟩,
    fun v table e => does_of_run rfl (barWrite_checkerRefusals hup ..), fun off size => ⟨fun h => does_of_run rfl (barAccess_write hup h),
      fun h => does_of_run rfl ?_, fun h => does_of_run rfl ?_⟩⟩
  · exact (barAccess_read hup ..).trans (by rw [h, if_neg (by decide)])
  · exact (barAccess_read hup ..).trans (if_pos h)

end Sys2Proof

/-! # What an operation touches

`Within P b n`: from b to n only the pieces of P among the buffer, the heads, the axes, the page and the capture module are touched, what has
left the pier stays in its record, and stores in canonical form stay so. One lemma per operation, in the order of the model. -/

namespace Sys2Proof.Machine
set_option Elab.async false

theorem Map.wf_erase {α : Type} (m : Map α) (k : Nat) (h : m.wf = true) : (m.erase k).wf = true := by
  have he : m.erase k = m.filter fun x => !(k == x.1) := by
    induction m with
    | nil => rfl
    | cons x m ih =>
      have ih := ih ((Map.wf_cons _ _ _).mp h).2
      by_cases hk : k = x.1
      · subst hk; simp [Map.erase, ih]
      · simp [Map.erase, hk, ih]
  exact he ▸ Map.wf_filter m _ h

theorem Map.wf_foldl_insert {α β : Type} (f : β → Nat × α) (l : List β) : ∀ m : Map α, m.wf = true →
    (l.foldl (fun m e => m.insert (f e).1 (f e).2) m).wf = true := by
  induction l with
  | nil => exact fun _ h => h
  | cons x l ih => exact fun m h => ih _ (Map.wf_insert m _ _ h)

theorem orElse_eq {α : Type} {o p : Option α} {n : α} (h : (o.orElse fun _ => p) = some n) : o = some n ∨ p = some n := by
  cases o with
  | none => exact .inr h
  | some x => exact .inl h

namespace Block

structure Within (P : Piece → Prop) (b n : Block) : Prop where
  now : n.now = b.now
  outs : ∀ o ∈ b.outs, o ∈ n.outs
  canonical : b.Canonical → n.Canonical
  mem : ¬P .mem → n.mem = b.mem
  heads : ∀ h : HeadId, ¬P (.head h) → n.heads[h] = b.heads[h]
  axes : ∀ a : AxisId, ¬P (.axis a) → n.axes[a] = b.axes[a]
  keystone : ¬P .keystone → n.keystone = b.keystone
  capture : ¬P .capture → n.capture = b.capture

namespace Within
variable {P : Piece → Prop} {b c d : Block}

theorem refl (P : Piece → Prop) (b : Block) : Within P b b :=
  ⟨rfl, fun _ h => h, id, fun _ => rfl, fun _ _ => rfl, fun _ _ => rfl, fun _ => rfl, fun _ => rfl⟩

theorem trans (w : Within P b c) (v : Within P c d) : Within P b d where
  now := v.now.trans w.now
  outs o ho := v.outs o (w.outs o ho)
  canonical h := v.canonical (w.canonical h)
  mem h := (v.mem h).trans (w.mem h)
  heads g h := (v.heads g h).trans (w.heads g h)
  axes a h := (v.axes a h).trans (w.axes a h)
  keystone h := (v.keystone h).trans (w.keystone h)
  capture h := (v.capture h).trans (w.capture h)

theorem mono {Q : Piece → Prop} (w : Within P b c) (h : ∀ p, P p → Q p) : Within Q b c where
  now := w.now
  outs := w.outs
  canonical := w.canonical
  mem hq := w.mem fun hp => hq (h _ hp)
  heads g hq := w.heads g fun hp => hq (h _ hp)
  axes a hq := w.axes a fun hp => hq (h _ hp)
  keystone hq := w.keystone fun hp => hq (h _ hp)
  capture hq := w.capture fun hp => hq (h _ hp)

/-- A change of what no piece holds. -/
theorem of_eq (w : Within P b c) (hn : d.now = c.now) (ho : ∀ o ∈ c.outs, o ∈ d.outs) (hr : Map.wf c.regs = true → Map.wf d.regs = true)
    (ht : Map.wf c.tables = true → Map.wf d.tables = true) (hm : d.mem = c.mem) (hh : d.heads = c.heads) (ha : d.axes = c.axes)
    (hk : d.keystone = c.keystone) (hc : d.capture = c.capture) : Within P b d where
  now := hn.trans w.now
  outs o h := ho o (w.outs o h)
  canonical h := by
    obtain ⟨h1, h2, h3⟩ := w.canonical h
    exact ⟨hr h1, ht h2, hm ▸ h3⟩
  mem h := hm.trans (w.mem h)
  heads g h := by rw [hh]; exact w.heads g h
  axes g h := by rw [ha]; exact w.axes g h
  keystone h := hk.trans (w.keystone h)
  capture h := hc.trans (w.capture h)

/-- A change of what is neither a piece, nor a register or a table, nor what has left the pier. -/
theorem aside (w : Within P b c) (hn : d.now = c.now := by rfl) (ho : d.outs = c.outs := by rfl) (hr : d.regs = c.regs := by rfl)
    (ht : d.tables = c.tables := by rfl) (hm : d.mem = c.mem := by rfl) (hh : d.heads = c.heads := by rfl) (ha : d.axes = c.axes := by rfl)
    (hk : d.keystone = c.keystone := by rfl) (hc : d.capture = c.capture := by rfl) : Within P b d :=
  w.of_eq hn (fun _ h => ho ▸ h) (hr ▸ id) (ht ▸ id) hm hh ha hk hc

/-- Work done at another instant, after which the pier is at its own again. -/
theorem atTime {t : Time} (w : Within P b c) (v : Within P { c with now := t } d) : Within P b { d with now := c.now } where
  now := w.now
  outs o ho := v.outs o (w.outs o ho)
  canonical h := v.canonical (w.canonical h)
  mem h := (v.mem h).trans (w.mem h)
  heads g h := (v.heads g h).trans (w.heads g h)
  axes a h := (v.axes a h).trans (w.axes a h)
  keystone h := (v.keystone h).trans (w.keystone h)
  capture h := (v.capture h).trans (w.capture h)

theorem ite {p : Prop} [Decidable p] (w : Within P b c) (v : Within P b d) : Within P b (if p then c else d) := by
  split
  · exact w
  · exact v

theorem iteSnd {α : Type} {p : Prop} [Decidable p] {x y : α × Block} (w : Within P b x.2) (v : Within P b y.2) :
    Within P b (if p then x else y).2 := by
  split
  · exact w
  · exact v

theorem dite {p : Prop} [Decidable p] {f : p → Block} (w : ∀ h, Within P b (f h)) (v : Within P b d) :
    Within P b (if h : p then f h else d) := by
  split
  · exact w _
  · exact v

/-- The block of an operation that may not be one, or another. -/
theorem getD {o : Option Block} (w : Within P b c) (h : ∀ n, o = some n → Within P b n) : Within P b (o.getD c) := by
  cases o with
  | none => exact w
  | some n => exact h n rfl

theorem foldl {α : Type} {f : Block → α → Block} {l : List α} (w : Within P b c) (hf : ∀ c x, Within P b c → Within P b (f c x)) :
    Within P b (l.foldl f c) := by
  induction l generalizing c with
  | nil => exact w
  | cons x l ih => exact ih (hf c x w)

/-! ## Primitives -/

variable {b₀ n : Block}

theorem setReg (w : Within P b₀ b) {o : Obj} {v : Nat} : Within P b₀ (b.setReg o v) :=
  w.of_eq rfl (fun _ h => h) (fun h => Map.wf_insert _ _ _ h) id rfl rfl rfl rfl rfl

theorem setTable (w : Within P b₀ b) {i : Nat} {d : List Byte} : Within P b₀ (b.setTable i d) :=
  w.of_eq rfl (fun _ h => h) id (fun h => Map.wf_insert _ _ _ h) rfl rfl rfl rfl rfl

theorem emit (w : Within P b₀ b) {o : Out} : Within P b₀ (b.emit o) :=
  w.of_eq rfl (fun _ h => List.mem_append_left _ h) id id rfl rfl rfl rfl rfl

theorem raise (w : Within P b₀ b) {n : Nat} : Within P b₀ (b.raise n) :=
  w.of_eq rfl (fun _ h => List.mem_append_left _ h) id id rfl rfl rfl rfl rfl

theorem modHead (w : Within P b₀ b) {h : HeadId} {f : Head → Head} (hh : P (.head h)) : Within P b₀ (b.modHead h f) :=
  w.trans { refl P b with
    heads := fun g hg => by
      have hne : h ≠ g := fun e => hg (e ▸ hh)
      simp [Block.modHead, Vector.getElem_set_ne, Fin.val_ne_of_ne hne] }

theorem modAxis (w : Within P b₀ b) {a : AxisId} {f : Axis → Axis} (ha : P (.axis a)) : Within P b₀ (b.modAxis a f) :=
  w.trans { refl P b with
    axes := fun g hg => by
      have hne : a ≠ g := fun e => hg (e ▸ ha)
      simp [Block.modAxis, Vector.getElem_set_ne, Fin.val_ne_of_ne hne] }

theorem withKeystone (w : Within P b₀ b) {k : Keystone} (hkey : P .keystone) : Within P b₀ { b with keystone := k } :=
  w.trans { refl P b with keystone := fun h => absurd hkey h }

theorem modKey (w : Within P b₀ b) {f : Keystone → Keystone} (hkey : P .keystone) : Within P b₀ (b.modKey f) := w.withKeystone hkey

theorem withCapture (w : Within P b₀ b) {k : Capture} (hcap : P .capture) : Within P b₀ { b with capture := k } :=
  w.trans { refl P b with capture := fun h => absurd hcap h }

theorem modCapture (w : Within P b₀ b) {f : Capture → Capture} (hcap : P .capture) : Within P b₀ (b.modCapture f) := w.withCapture hcap

theorem withMem (w : Within P b₀ b) {m : Buffer} (hmem : P .mem) (hm : memWf b.mem = true → memWf m = true) : Within P b₀ { b with mem := m } :=
  w.trans { refl P b with
    canonical := fun h => ⟨h.1, h.2.1, hm h.2.2⟩
    mem := fun h => absurd hmem h }

theorem memWrite (w : Within P b₀ b) {a : Nat} {l : List Byte} (hmem : P .mem) : Within P b₀ (b.memWrite a l) :=
  w.withMem hmem fun h => memPutRun_wf _ _ _ h

theorem modVideo (w : Within P b₀ b) {h : HeadId} {f : VideoState → VideoState} : Within P b₀ (b.modVideo h f) := w.aside
theorem modCorr (w : Within P b₀ b) {h : HeadId} {f : Corr → Corr} : Within P b₀ (b.modCorr h f) := w.aside
theorem modStitch (w : Within P b₀ b) {h : HeadId} {f : Stitch → Stitch} : Within P b₀ (b.modStitch h f) := w.aside
theorem modIllum (w : Within P b₀ b) {h : HeadId} {f : Illum → Illum} : Within P b₀ (b.modIllum h f) := w.aside

/-! ## Objects held as registers -/

theorem setRegI (w : Within P b₀ b) {o : Obj} {v : Int} : Within P b₀ (b.setRegI o v) := w.setReg
theorem count (w : Within P b₀ b) {o : Obj} {n : Nat} : Within P b₀ (b.count o n) := w.setReg
theorem bump (w : Within P b₀ b) {o : Obj} : Within P b₀ (b.bump o) := w.count

/-! ## Values that the spec leaves open -/

theorem used (w : Within P b₀ b) : Within P b₀ b.used := w.aside

/-! ## Outputs, events and answers -/

theorem placeWrite (w : Within P b₀ b) {l : List (Nat × Nat)} {bytes : List Byte} (hmem : P .mem) : Within P b₀ (Block.placeWrite l bytes b) := by
  induction l generalizing b bytes with
  | nil => exact w
  | cons p l ih => exact ih (w.memWrite hmem)

theorem answerSlot (w : Within P b₀ b) {s : SlotId} {res : Result} : Within P b₀ (b.answerSlot s res) := w.aside
theorem answerSmb (w : Within P b₀ b) {res : Result} : Within P b₀ (b.answerSmb res) := w.aside

theorem reply (w : Within P b₀ b) {r : Route} {res : Result} : Within P b₀ (b.reply r res) := by
  unfold Block.reply
  extract_lets
  split
  · exact w.emit.answerSlot
  · exact w.emit.answerSmb
  · exact w.emit.aside
  · exact w.emit

theorem replyVia (w : Within P b₀ b) {v : Via} {res : Result} : Within P b₀ (b.replyVia v res) := by
  unfold Block.replyVia
  split
  · exact w.reply
  · exact w

theorem sendRing (w : Within P b₀ b) {m : RingMsg} : Within P b₀ (b.sendRing m) := w.emit
theorem raiseIf (w : Within P b₀ b) {c : Bool} {s : Nat} : Within P b₀ (b.raiseIf c s) := w.raise.ite w

/-! ## SMBus alerts (R479) -/

theorem alert (w : Within P b₀ b) {i : Nat} : Within P b₀ (b.alert i) := w.ite (w.aside.raiseIf.ite w.aside)

/-! ## Emergency messages (R469, R470) -/

theorem emcyNow (w : Within P b₀ b) {m : Emcy} : Within P b₀ (b.emcyNow m) := by
  unfold Block.emcyNow
  exact w.aside.emit.raise

theorem emcy (w : Within P b₀ b) {m : Emcy} : Within P b₀ (b.emcy m) := by
  unfold Block.emcy
  refine ite ?_ ?_
  · exact w
  · split
    · exact w.emcyNow
    · exact w.emcyNow.ite (w.aside.ite w.aside)

theorem emcyCause (w : Within P b₀ b) {code bitNo entry source : Nat} : Within P b₀ (b.emcyCause code bitNo entry source) := by
  unfold Block.emcyCause
  exact w.aside.emcy

theorem emcyClear (w : Within P b₀ b) {bitNo : Nat} : Within P b₀ (b.emcyClear bitNo) := (w.aside.emcy.ite w.aside.used.emcy).ite w

/-! ## Which abort code is answered (R59) -/

theorem logFault (w : Within P b₀ b) {code unit detail source : Nat} : Within P b₀ (b.logFault code unit detail source) := w.aside.ite w.aside

theorem writeFault (w : Within P b₀ b) {e : FaultEntry} : Within P b₀ (b.writeFault e) := by
  unfold Block.writeFault
  exact w.aside.alert.emcyCause

theorem writeFaults (w : Within P b₀ b) : Within P b₀ b.writeFaults := w.aside.foldl (fun _ _ v => v.writeFault)

/-! ## Units held in vectors -/

theorem modCan (w : Within P b₀ b) {f : Can → Can} : Within P b₀ (b.modCan f) := w.aside
theorem modSmb (w : Within P b₀ b) {f : Smb → Smb} : Within P b₀ (b.modSmb f) := w.aside

/-! ## NMT (R462 to R464) -/

theorem setNmt (w : Within P b₀ b) {n : Nmt} : Within P b₀ (b.setNmt n) := w.modCan.raiseIf

theorem nodeChange (w : Within P b₀ b) {node : Nat} : Within P b₀ (b.nodeChange node) := by
  unfold Block.nodeChange
  exact (w.foldl (fun _ _ v => v.setReg.ite v)).modCan

theorem resetComm (w : Within P b₀ b) : Within P b₀ b.resetComm := by
  unfold Block.resetComm
  exact (w.ite w.setReg).nodeChange.modCan.setReg.setReg.setNmt.setNmt.emit

theorem nmtTo (w : Within P b₀ b) {n : Nmt} : Within P b₀ (b.nmtTo n) := w.setNmt.ite w

/-! ## Emergency messages and bus errors (R469 to R471) -/

theorem emcyInhibitEnd (w : Within P b₀ b) : Within P b₀ b.emcyInhibitEnd := by
  unfold Block.emcyInhibitEnd
  split
  · exact w
  · refine ite ?_ ?_
    · exact w
    · split
      · exact w.modCan
      · exact w.modCan.emcyNow.ite w

theorem errorPassive (w : Within P b₀ b) {tec rec_ : Nat} : Within P b₀ (b.errorPassive tec rec_) := w.ite w.setReg.setReg.modCan.raise.emcyCause
theorem busOff (w : Within P b₀ b) : Within P b₀ b.busOff := w.ite w.modCan.bump.setReg.raise
theorem busRecover (w : Within P b₀ b) : Within P b₀ b.busRecover := w.ite w.modCan.setReg.setReg.raise.emcyCause

theorem heartbeat (w : Within P b₀ b) : Within P b₀ b.heartbeat := by
  unfold Block.heartbeat
  extract_lets
  refine ite ?_ ?_
  · exact w
  · split
    · exact w.emit.modCan.ite w
    · exact w.emit.modCan

/-! ## SMBus (R472 to R483) -/

theorem smbStop (w : Within P b₀ b) : Within P b₀ b.smbStop := w.modSmb

theorem smbStart (w : Within P b₀ b) : Within P b₀ b.smbStart.2 := by
  have hs : Within P b₀ (b.modSmb fun x => { x with lastStart := b.now }) := w.modSmb
  unfold Block.smbStart
  split
  · exact w
  · split
    · exact hs
    · split
      · dsimp only
        exact w.smbStop.modSmb.bump.raise
      · extract_lets
        split
        · split
          · dsimp only
            exact hs.modSmb
          · exact hs.smbStop
        · exact hs

theorem smbAnswer (w : Within P b₀ b) {code : Nat} {bytes : List Byte} : Within P b₀ (b.smbAnswer code bytes) := by
  unfold Block.smbAnswer
  exact w.emit

theorem smbStatus (w : Within P b₀ b) : Within P b₀ b.smbStatus := (w.smbStart).ite (w.smbStart).smbAnswer.smbStop
theorem smbCauseRead (w : Within P b₀ b) : Within P b₀ b.smbCauseRead := (w.smbStart).ite (w.smbStart).smbAnswer.smbStop

theorem causeClear (w : Within P b₀ b) {mask again : Nat} : Within P b₀ (b.causeClear mask again) := by
  unfold Block.causeClear
  exact w.modSmb.count

theorem smbCauseWrite (w : Within P b₀ b) {mask again : Nat} {pecOk : Bool} : Within P b₀ (b.smbCauseWrite mask again pecOk) :=
  (w.smbStart).ite ((w.smbStart).bump.raise.smbStop.ite (w.smbStart).causeClear.smbStop)

theorem smbTemperature (w : Within P b₀ b) : Within P b₀ b.smbTemperature := (w.smbStart).ite (w.smbStart).smbAnswer.smbStop

theorem smbResponse (w : Within P b₀ b) : Within P b₀ b.smbResponse := by
  have ws := w.smbStart
  unfold Block.smbResponse
  refine ite ws (ite ws.smbStop ?_)
  split
  · exact ws.smbStop
  · exact ws.smbAnswer.modSmb.smbStop

theorem smbHoldEnd (w : Within P b₀ b) : Within P b₀ b.smbHoldEnd := by
  unfold Block.smbHoldEnd
  split
  · exact w.modSmb.ite w
  · exact w

theorem alertResponse (w : Within P b₀ b) {lost again : Bool} : Within P b₀ (b.alertResponse lost again) := by
  unfold Block.alertResponse
  extract_lets
  refine ite ?_ ?_
  · exact w
  · exact (w.smbStart).ite ((w.smbStart).bump.smbStop.ite (((w.smbStart).emit.modSmb.bump.ite (w.smbStart).emit.modSmb).raise.smbStop))

theorem alertTask (w : Within P b₀ b) : Within P b₀ b.alertTask := w.alert
theorem sclTimeout (w : Within P b₀ b) {withStop : Bool} : Within P b₀ (b.sclTimeout withStop) := w.ite (w.bump.smbStop.ite w.bump.raise)
theorem sleepStart (w : Within P b₀ b) : Within P b₀ b.sleepStart := w.smbStart
theorem sleepIdleEnd (w : Within P b₀ b) : Within P b₀ b.sleepIdleEnd := w.modSmb.ite w

/-! ## Requests of one cycle (R26, R29) -/

theorem noteWrite (w : Within P b₀ b) {place : Nat} {o : Obj} : Within P b₀ (b.noteWrite place o) := by
  unfold Block.noteWrite
  exact w.aside

theorem writeUnder (w : Within P b₀ b) {x : ArbWrite} {v : Nat} : Within P b₀ (b.writeUnder x v) := w.aside

theorem setByBar (w : Within P b₀ b) {o : Obj} {v : Nat} : Within P b₀ (b.setByBar o v) := by
  unfold Block.setByBar
  split
  · exact w.writeUnder
  · exact w.setReg

/-! ## Elzia images (R503, R504) -/

theorem modCustody (w : Within P b₀ b) {f : Custody → Custody} : Within P b₀ (b.modCustody f) := w.aside
theorem modFirmware (w : Within P b₀ b) {f : Firmware → Firmware} : Within P b₀ (b.modFirmware f) := w.aside
theorem modSlotFw (w : Within P b₀ b) {s : Fin 2} {f : FwSlot → FwSlot} : Within P b₀ (b.modSlotFw s f) := w.modFirmware
theorem renewNonce (w : Within P b₀ b) : Within P b₀ b.renewNonce := w.modCustody.used

theorem proposalExpires (w : Within P b₀ b) : Within P b₀ b.proposalExpires := by
  unfold Block.proposalExpires
  split
  · exact w
  · exact w.modCustody.bump.raise.renewNonce

theorem applyChanges (w : Within P b₀ b) {cs : List Change} : Within P b₀ (b.applyChanges cs) :=
  w.foldl (fun _ _ v => by
    refine ite ?_ ?_
    · exact v.modCustody
    · refine ite ?_ ?_
      · exact v.modCustody
      · split
        · exact v.setReg
        · exact v)

theorem journalApply (w : Within P b₀ b) {c : Commit} : Within P b₀ (b.journalApply c) := by
  unfold Block.journalApply
  exact w.applyChanges.modCustody.raiseIf.renewNonce

theorem custodyCut (w : Within P b₀ b) : Within P b₀ b.custodyCut := by
  unfold Block.custodyCut
  extract_lets b1 _
  have wb1 : Within P b₀ b1 := by
    unfold b1
    split
    · exact w
    · exact w.used.journalApply.ite w.used.modCustody
  exact wb1.proposalExpires.modCustody.renewNonce

/-! ## The boot ROM (R505, R507, R508) -/

theorem recoveryMode (w : Within P b₀ b) {s : Fin 2} : Within P b₀ (b.recoveryMode s) := w.modFirmware.logFault.raise

theorem bootRun (w : Within P b₀ b) {s : Fin 2} : Within P b₀ (b.bootRun s) := by
  unfold Block.bootRun
  exact w.modFirmware.raiseIf

theorem bootSelect (w : Within P b₀ b) : Within P b₀ b.bootSelect.2 := by
  unfold Block.bootSelect
  extract_lets _ _ _ b1
  have wb1 : Within P b₀ b1 := w.modSlotFw.raise.ite w
  split
  · exact w
  · split
    · exact wb1
    · split
      · exact wb1
      · exact wb1

theorem boot (w : Within P b₀ b) : Within P b₀ b.boot := by
  have wb := w.bootSelect
  unfold Block.boot
  exact wb.bootRun.ite (wb.modSlotFw.bootRun.logFault.raise.ite (wb.modSlotFw.modSlotFw.ite wb.modSlotFw).recoveryMode)

theorem selectWrite (w : Within P b₀ b) {t v : Nat} : Within P b₀ (b.selectWrite t v) := by
  unfold Block.selectWrite
  exact w.aside.setReg

theorem latchTask (w : Within P b₀ b) {t : Nat} : Within P b₀ (b.latchTask t) := by
  unfold Block.latchTask
  extract_lets
  split
  · exact w.aside
  · exact w.aside

theorem relayInput (w : Within P b₀ b) {r : Nat} {in0 in1 : Bool} : Within P b₀ (b.relayInput r in0 in1) := by
  unfold Block.relayInput
  exact w.aside.raiseIf

theorem deliver (w : Within P b₀ b) {s : Nat} : Within P b₀ (b.deliver s) := by
  unfold Block.deliver
  exact (w.foldl (fun _ _ v => v.relayInput.ite v)).foldl (fun _ _ v2 => v2.latchTask)

theorem stormTrip (w : Within P b₀ b) {s : Nat} : Within P b₀ (b.stormTrip s) := by
  unfold Block.stormTrip
  exact w.aside.logFault.writeFaults.raise

theorem routeEvent (w : Within P b₀ b) {s : Nat} : Within P b₀ (b.routeEvent s) := by
  unfold Block.routeEvent
  refine ite ?_ ?_
  · exact w
  · split
    · exact w.ite (w.used.deliver.ite w.used)
    · split
      · exact w.aside.deliver.ite ((w.stormTrip.used.deliver.ite w.stormTrip.used).ite w.aside.deliver)
      · exact w.aside.deliver

theorem route (w : Within P b₀ b) {n : Nat} : Within P b₀ (Block.route n b) := by
  induction n generalizing b with
  | zero => exact w
  | succ n ih =>
    unfold Block.route
    split
    · exact w
    · exact ih w.aside.routeEvent

theorem settle (w : Within P b₀ b) : Within P b₀ b.settle := w.route

/-! ## Storm guard and software firing -/

theorem stormClose (w : Within P b₀ b) {s : Nat} : Within P b₀ (b.stormClose s) := by
  unfold Block.stormClose
  split
  · exact w.aside.ite w
  · exact w

theorem stormRearm (w : Within P b₀ b) {s : Nat} : Within P b₀ (b.stormRearm s) := w.aside

/-! ## Timer and counter units (R372 to R375) -/

theorem modTimer (w : Within P b₀ b) {u : TimerId} {f : TimerUnit → TimerUnit} : Within P b₀ (b.modTimer u f) := w.aside

theorem timerA (w : Within P b₀ b) {u : TimerId} {withB : Bool} : Within P b₀ (b.timerA u withB) := by
  unfold Block.timerA
  dsimp only
  refine ite w.aside.modTimer ?_
  split
  · exact w.modTimer
  · exact w.modTimer
  · exact w.modTimer.raise.ite w.modTimer
  · exact w.raise.ite (w.modTimer.raise.ite w.modTimer)
  · exact w

theorem timerB (w : Within P b₀ b) {u : TimerId} : Within P b₀ (b.timerB u) := by
  unfold Block.timerB
  split
  · exact w.modTimer
  · exact w.modTimer
  · exact w.modTimer
  · exact w.modTimer
  · exact w

theorem timerEnd (w : Within P b₀ b) {u : TimerId} {modes : List Nat} {withB : Bool} : Within P b₀ (b.timerEnd u modes withB) := by
  unfold Block.timerEnd
  exact (w.aside.timerB.ite (w.modTimer.raise.ite w.modTimer.raise)).ite w

/-! ## Shadowed settings (R76) -/

theorem noteSetting (w : Within P b₀ b) {h : HeadId} {i : Nat} {o : Obj} (hh : P (.head h)) : Within P b₀ (b.noteSetting h i o) :=
  w.ite (w.modHead hh (f := fun x => { x with recent := b.recentNow h ++ [(o.key, b.reg o)], recentAt := some b.now }))

theorem recalled (w : Within P b₀ b) {l : Map Nat} : Within P b₀ (b.recalled l) :=
  w.of_eq rfl (fun _ h => h) (Map.wf_foldl_insert id l _) id rfl rfl rfl rfl rfl

theorem capTake (w : Within P b₀ b) : Within P b₀ b.capTake := by
  unfold Block.capTake
  split
  · exact w.ite w.aside.setReg

/-! ## Levels of the pattern outputs (R66, R67) -/

theorem setIlvStatus (w : Within P b₀ b) {h : HeadId} {s : SegId} {st : Nat} : Within P b₀ (b.setIlvStatus h s st) := w.setReg.modVideo

theorem convergedCheck (w : Within P b₀ b) {h : HeadId} : Within P b₀ (b.convergedCheck h) := by
  unfold Block.convergedCheck
  exact w.modVideo.raise.ite (w.modVideo.raise.ite w)

theorem restartWindows (w : Within P b₀ b) {h : HeadId} {keep : Bool} : Within P b₀ (b.restartWindows h keep) := w.modVideo

theorem videoStart (w : Within P b₀ b) {h : HeadId} : Within P b₀ (b.videoStart h) := by
  unfold Block.videoStart
  exact (w.foldl (fun _ _ v => v.setIlvStatus.modVideo)).modVideo.convergedCheck

theorem ilvApply (w : Within P b₀ b) {h : HeadId} : Within P b₀ (b.ilvApply h) := by
  unfold Block.ilvApply
  split
  · exact w
  · exact (w.modVideo.setReg.foldl (fun _ _ v2 => v2.setIlvStatus)).convergedCheck

theorem openWindow (w : Within P b₀ b) {h : HeadId} {i : Nat} (hh : P (.head h)) : Within P b₀ (b.openWindow h i) := by
  unfold Block.openWindow
  exact w.ilvApply.emit.modHead hh

theorem openWindows (w : Within P b₀ b) {h : HeadId} (hh : P (.head h)) : Within P b₀ (b.openWindows h) :=
  w.foldl (fun _ _ v => by
    split
    · exact (v.openWindow hh).ite v
    · exact v)

theorem ilvAsk (w : Within P b₀ b) {h : HeadId} {freeze : Bool} (hh : P (.head h)) : Within P b₀ (b.ilvAsk h freeze) := (w.openWindows hh).modVideo
theorem ilvBoth (w : Within P b₀ b) {h : HeadId} (hh : P (.head h)) : Within P b₀ (b.ilvBoth h) := (w.ilvAsk hh).bump
theorem gainTo (w : Within P b₀ b) {h : HeadId} {s : SegId} {code : Nat} : Within P b₀ (b.gainTo h s code) := w.setReg.modVideo

theorem rangeInForce (w : Within P b₀ b) {h : HeadId} {codes : List Nat} : Within P b₀ (b.rangeInForce h codes) := by
  unfold Block.rangeInForce
  exact (w.foldl (fun _ _ v => v.gainTo)).bump.raise

/-! ## The pedestal loop (R103) -/

theorem pedestalStep (w : Within P b₀ b) {h : HeadId} {s : SegId} : Within P b₀ (b.pedestalStep h s) := by
  unfold Block.pedestalStep
  exact w.modVideo.ite (w.modVideo.setRegI.raiseIf.ite w.modVideo)

theorem pedestalUpdate (w : Within P b₀ b) {h : HeadId} (hh : P (.head h)) : Within P b₀ (b.pedestalUpdate h) := by
  unfold Block.pedestalUpdate
  refine ite ?_ ?_
  · exact w
  · exact ((w.openWindows hh).modVideo).modVideo.ite (((w.openWindows hh).modVideo).foldl (fun _ _ v1 => v1.pedestalStep))

/-! ## Interleave calibration (R106 to R116) -/

theorem ilvInputWindow (w : Within P b₀ b) {h : HeadId} {s : SegId} : Within P b₀ (b.ilvInputWindow h s) := by
  unfold Block.ilvInputWindow
  extract_lets
  split
  · exact (w.modVideo.setRegI.setRegI.setRegI.ite w.modVideo).setIlvStatus.raise.logFault.ite (w.modVideo.setRegI.setRegI.setRegI.ite
      w.modVideo).setIlvStatus

theorem ilvWindows (w : Within P b₀ b) {h : HeadId} (hh : P (.head h)) : Within P b₀ (b.ilvWindows h) := by
  unfold Block.ilvWindows
  exact w.ite ((((w.openWindows hh).foldl (fun _ _ v => v.ilvInputWindow)).modVideo).convergedCheck)

theorem ilvTimeout (w : Within P b₀ b) {h : HeadId} {withConvergence : Bool} : Within P b₀ (b.ilvTimeout h withConvergence) := by
  unfold Block.ilvTimeout
  exact w.ite (w.bump.ite w.modVideo.raise)

/-! ## Sets -/

theorem setActive (w : Within P b₀ b) {h : HeadId} {c : CorrSet} : Within P b₀ (b.setActive h c) := w.setTable.setTable
theorem setShadow (w : Within P b₀ b) {h : HeadId} {c : CorrSet} : Within P b₀ (b.setShadow h c) := w.setTable.setTable
theorem updateDefective (w : Within P b₀ b) {h : HeadId} : Within P b₀ (b.updateDefective h) := w.setReg

/-! ## Calibration: ending without a result (R156) -/

theorem calFail (w : Within P b₀ b) {h : HeadId} {status : Nat} : Within P b₀ (b.calFail h status) := w.ite w.modCorr.setReg.raise

/-! ## Bringing a set into force (R149 to R152) -/

theorem swapSets (w : Within P b₀ b) {h : HeadId} : Within P b₀ (b.swapSets h) := by
  unfold Block.swapSets
  exact w.setActive.setShadow.setReg.setReg.updateDefective.bump.raise

theorem corrTake (w : Within P b₀ b) {h : HeadId} {a : Armed} : Within P b₀ (b.corrTake h a) := by
  unfold Block.corrTake
  extract_lets
  split
  · exact w.calFail.swapSets
  · exact (w.calFail.ite w.calFail.swapSets).rangeInForce

theorem corrPut (w : Within P b₀ b) {h : HeadId} {a : Armed} : Within P b₀ (b.corrPut h a) := w.corrTake.ite w.modCorr

theorem corrArmOrTake (w : Within P b₀ b) {h : HeadId} {a : Armed} {rank : Nat} {sameCycle : Bool} : Within P b₀
    (b.corrArmOrTake h a rank sameCycle) := by
  unfold Block.corrArmOrTake
  extract_lets
  refine ite ?_ ?_
  · exact ((w.ite w.bump).bump.ite (w.ite w.bump)).modCorr.corrPut.ite ((w.ite w.bump).bump.ite (w.ite w.bump)).modCorr
  · exact w.modCorr.corrPut

theorem corrTakeBefore (w : Within P b₀ b) {h : HeadId} : Within P b₀ (b.corrTakeBefore h) := by
  unfold Block.corrTakeBefore
  split
  · exact w
  · exact w.modCorr.corrTake

theorem corrTakeArmed (w : Within P b₀ b) {h : HeadId} : Within P b₀ (b.corrTakeArmed h) := by
  unfold Block.corrTakeArmed
  split
  · exact w
  · exact w.modCorr.corrTake

/-! ## Bar temperature (R132 to R134) -/

theorem setTempState (w : Within P b₀ b) {h : HeadId} {st : Nat} : Within P b₀ (b.setTempState h st) := by
  unfold Block.setTempState
  exact w.ite w.setReg.raiseIf.modCorr.raiseIf.raiseIf

theorem tempExpire (w : Within P b₀ b) {h : HeadId} : Within P b₀ (b.tempExpire h) := w.ite (w.setTempState.ite w)

theorem barResult (w : Within P b₀ b) {h : HeadId} {valid : Bool} {t : Int} : Within P b₀ (b.barResult h valid t) :=
  ((w.bump.ite w).modCorr.setTempState).ite (w.setTempState.ite w)

theorem tempStart (w : Within P b₀ b) {h : HeadId} : Within P b₀ (b.tempStart h) := by
  unfold Block.tempStart
  exact w.setTempState.ite w.setReg.modCorr.raiseIf

/-! ## Reference-strip calibration (R154 to R163) -/

theorem calBegin (w : Within P b₀ b) {h : HeadId} : Within P b₀ (b.calBegin h) := by
  unfold Block.calBegin
  exact w.modCorr.setReg

theorem calLine (w : Within P b₀ b) {h : HeadId} {t : Int} {ys : List Px} : Within P b₀ (b.calLine h t ys) := by
  unfold Block.calLine
  exact w.ite (w.calFail.ite (w.calFail.ite w.modCorr))

theorem calPhaseEnd (w : Within P b₀ b) {h : HeadId} : Within P b₀ (b.calPhaseEnd h) := by
  unfold Block.calPhaseEnd
  exact w.ite (w.calFail.ite w.modCorr.setReg)

theorem calDone (w : Within P b₀ b) {h : HeadId} {sameCycle : Bool} : Within P b₀ (b.calDone h sameCycle) := by
  unfold Block.calDone
  refine ite ?_ ?_
  · exact w
  · split
    · exact w.calFail
    · exact w.used.setShadow.setReg.modCorr.setReg.raise.corrArmOrTake

/-! ## Geometry (R171) -/

theorem deriveColumns (w : Within P b₀ b) {h : HeadId} : Within P b₀ (b.deriveColumns h) := w.ite w.setReg.setReg

/-! ## Coordinates and targets (R177) -/

theorem stitchSeen (w : Within P b₀ b) {h : HeadId} {l : Line} : Within P b₀ (b.stitchSeen h l) := w.modStitch
theorem stitchIdle (w : Within P b₀ b) {h : HeadId} {l : Line} : Within P b₀ (b.stitchIdle h l) := w.ite w.modStitch
theorem stitchLatched (w : Within P b₀ b) {h : HeadId} {tE : Time} {p : Int} : Within P b₀ (b.stitchLatched h tE p) := w.modStitch

theorem stitchSettle (w : Within P b₀ b) {h : HeadId} {l : Line} : Within P b₀ (b.stitchSettle h l) := by
  unfold Block.stitchSettle
  split
  · exact w.ite w.used.modStitch
  · exact w

/-! ## The history in the delay region (R176, R200) -/

theorem storeHistory (w : Within P b₀ b) {h : HeadId} {s : Nat} {z : Int} {flags : Nat} {px : List Px} (hmem : P .mem) : Within P b₀
    (b.storeHistory h s z flags px) := by
  unfold Block.storeHistory
  exact (w.memWrite hmem).modStitch

theorem noteClean (w : Within P b₀ b) {h : HeadId} {misses : Nat} : Within P b₀ (b.noteClean h misses) := w.modStitch.raise.ite w

theorem voussoir (w : Within P b₀ b) {h : HeadId} {l : Line} {bins : List (List Px)} (hmem : P .mem) : Within P b₀ (b.voussoir h l bins).2.2 := by
  unfold Block.voussoir
  extract_lets _ _ _ _ _ b1 _ _ b2 _ _ _ _ _ _ _ _ b3
  have wb2 : Within P b₀ b2 := w.stitchSeen.foldl fun _ _ v => v.storeHistory hmem
  have wb3 : Within P b₀ b3 := wb2.count.count
  split
  · exact w.stitchSeen.noteClean
  · exact (wb3.ite wb3.bump.raise).noteClean

/-! ## Geometry swaps (R185, R186) -/

theorem stitchCalFail (w : Within P b₀ b) {h : HeadId} {status : Nat} : Within P b₀ (b.stitchCalFail h status) := w.ite w.modStitch.setReg.raise

theorem geometryTake (w : Within P b₀ b) {h : HeadId} : Within P b₀ (b.geometryTake h) := by
  unfold Block.geometryTake
  exact w.stitchCalFail.setTable.setTable.setReg.setReg.modStitch.bump.raise

theorem geometryArm (w : Within P b₀ b) {h : HeadId} {rank : Nat} {sameCycle : Bool} : Within P b₀ (b.geometryArm h rank sameCycle) := by
  unfold Block.geometryArm
  exact ((w.ite w.bump).modStitch).ite (w.modStitch.geometryTake.ite w.modStitch.modStitch)

theorem geometryTakeBefore (w : Within P b₀ b) {h : HeadId} : Within P b₀ (b.geometryTakeBefore h) := by
  unfold Block.geometryTakeBefore
  exact (w.modStitch.geometryTake.ite w).ite (w.modStitch.geometryTake.ite w)

theorem geometryTakeArmed (w : Within P b₀ b) {h : HeadId} : Within P b₀ (b.geometryTakeArmed h) := w.modStitch.geometryTake.ite w

/-! ## Fiducial calibration (R188 to R195) -/

theorem stitchCalBegin (w : Within P b₀ b) {h : HeadId} : Within P b₀ (b.stitchCalBegin h) := w.modStitch.setReg

theorem stitchCalLine (w : Within P b₀ b) {h : HeadId} {z : Int} {bins : List (List Px)} : Within P b₀ (b.stitchCalLine h z bins) := by
  unfold Block.stitchCalLine
  exact w.modStitch.ite (w.modStitch.ite w)

theorem stitchCalPhaseEnd (w : Within P b₀ b) {h : HeadId} : Within P b₀ (b.stitchCalPhaseEnd h) := by
  unfold Block.stitchCalPhaseEnd
  exact (w.modStitch.setReg.ite w.modStitch.setReg).ite ((w.modStitch.setReg.ite (w.stitchCalFail.ite w)).ite w)

theorem stitchCalDone (w : Within P b₀ b) {h : HeadId} {sameCycle : Bool} : Within P b₀ (b.stitchCalDone h sameCycle) := by
  unfold Block.stitchCalDone
  refine ite ?_ ?_
  · exact w
  · split
    · exact w.stitchCalFail
    · exact (w.foldl (fun _ _ v1 => v1.setReg)).setTable.modStitch.setReg.setReg.raise.geometryArm.ite (w.foldl (fun _ _ v1 =>
        v1.setReg)).setTable.setReg.stitchCalFail

/-! ## Derating and overdrive (R307 to R309) -/

theorem boardResult (w : Within P b₀ b) {h : HeadId} {valid : Bool} {t : Int} : Within P b₀ (b.boardResult h valid t) :=
  w.setRegI.modIllum.ite w.modIllum.raiseIf

theorem derateInForce (w : Within P b₀ b) {h : HeadId} : Within P b₀ (b.derateInForce h) := by
  unfold Block.derateInForce
  exact w.setReg.modIllum.raiseIf

theorem leak (w : Within P b₀ b) {h : HeadId} : Within P b₀ (b.leak h) := by
  unfold Block.leak
  exact w.modIllum

theorem overdrive (w : Within P b₀ b) {h : HeadId} {r ticks : Nat} : Within P b₀ (b.overdrive h r ticks) := by
  unfold Block.overdrive
  exact w.leak.modIllum.setReg.raiseIf.raiseIf

theorem showAccum (w : Within P b₀ b) {h : HeadId} : Within P b₀ (b.showAccum h) := w.foldl (fun _ _ v => v.setReg)

/-! ## The sequence and the pulse (R293 to R299) -/

theorem startFrame (w : Within P b₀ b) {h : HeadId} : Within P b₀ (b.startFrame h) := by
  unfold Block.startFrame
  exact w.ite w.modIllum.emit

theorem illumAhead (w : Within P b₀ b) {h : HeadId} {j : Int} : Within P b₀ (b.illumAhead h j) := by
  unfold Block.illumAhead
  split
  · exact w
  · exact w.modIllum.ite w.modIllum.modIllum.startFrame

theorem illumBoundary (w : Within P b₀ b) {h : HeadId} {line kept : Option Int} {dark : Bool} {steps : Nat} :
    Within P b₀ (b.illumBoundary h line kept dark steps).2.2.2 := by
  unfold Block.illumBoundary
  extract_lets _ _ _ _ _ _ _ _ _ _ _ b6 _ _ b5 b4 _ _ _ _ _ _ _ _ _ _ b3 b2 _ _ b1 b0
  have wb6 : Within P b₀ b6 := w.derateInForce.modIllum.raiseIf.overdrive
  have wb5 : Within P b₀ b5 := wb6.modIllum.ite wb6
  have wb4 : Within P b₀ b4 := wb5.modIllum.bump.raise.ite wb5.startFrame
  have wb2 : Within P b₀ b2 := (wb4.bump.raise.ite wb4).bump.ite (wb4.bump.raise.ite wb4)
  have wb0 : Within P b₀ b0 := (wb2.emit (o := _)).modIllum.ite wb2
  exact wb0.showAccum

/-! ## Measurements, boost and frames -/

theorem prechargeStep (w : Within P b₀ b) {h : HeadId} : Within P b₀ (b.prechargeStep h) :=
  w.ite (w.foldl (fun _ _ v => by
    extract_lets
    refine ite ?_ ?_
    · split
      · exact v.setReg.modIllum
      · exact v
    · exact v.ite v.setReg))

theorem lampMeasure (w : Within P b₀ b) {h : HeadId} {row : Nat} {m : LampReport} : Within P b₀ (b.lampMeasure h row m) := by
  unfold Block.lampMeasure
  extract_lets _ _ _ b2
  have wb2 : Within P b₀ b2 := w.setReg.modIllum.prechargeStep
  exact wb2.ite wb2.count.raise

theorem boostStep (w : Within P b₀ b) {h : HeadId} : Within P b₀ (b.boostStep h) := by
  unfold Block.boostStep
  split
  · exact w
  · exact (w.ite w.setReg).raiseIf

theorem boostAdapt (w : Within P b₀ b) {h : HeadId} : Within P b₀ (b.boostAdapt h) := w.ite w.boostStep.prechargeStep.modIllum
theorem boostOver (w : Within P b₀ b) {h : HeadId} : Within P b₀ (b.boostOver h) := w.ite w.modIllum.raise

theorem frameComplete (w : Within P b₀ b) {h : HeadId} : Within P b₀ (b.frameComplete h) := by
  unfold Block.frameComplete
  split
  · exact w
  · exact w.modIllum.startFrame.ite w

theorem illumStart (w : Within P b₀ b) {h : HeadId} : Within P b₀ (b.illumStart h) := by
  unfold Block.illumStart
  extract_lets _ _ _ b3 _ _
  have wb3 : Within P b₀ b3 := (w.ite w.setReg).modIllum.setReg.setReg
  exact (wb3.setReg.ite wb3.setReg.emit.emit).prechargeStep

/-! ## Partitions (R202, R218 to R221) -/

theorem modPart (w : Within P b₀ b) {h : HeadId} {f : Partition → Partition} (hcap : P .capture) : Within P b₀ (b.modPart h f) := w.modCapture hcap

/-! ## Bursts (R213 to R217) -/

theorem keepRange (w : Within P b₀ b) {h : HeadId} {first last : Nat} (hmem : P .mem) (hcap : P .capture) : Within P b₀
    (b.keepRange h first last) := by
  unfold Block.keepRange
  extract_lets
  split
  · exact w
  · exact (w.ite (w.placeWrite hmem)).modPart hcap

theorem windowStart (w : Within P b₀ b) {h : HeadId} {l : Nat} (hmem : P .mem) (hcap : P .capture) : Within P b₀ (b.windowStart h l) := by
  unfold Block.windowStart
  exact ((w.modPart hcap).keepRange hmem hcap).ite (w.modPart hcap)

theorem windowEnd (w : Within P b₀ b) {h : HeadId} {last : Nat} (hcap : P .capture) : Within P b₀ (b.windowEnd h last) := w.modPart hcap

theorem burstCheck (w : Within P b₀ b) (hcap : P .capture) : Within P b₀ b.burstCheck :=
  w.ite ((((w.foldl (fun _ _ v => v.modPart hcap)).setReg.modCapture hcap).raise).raiseIf)

theorem windowTest (w : Within P b₀ b) {h : HeadId} {seq : Nat} {tE : Time} (hmem : P .mem) (hcap : P .capture) :
    Within P b₀ (b.windowTest h seq tE) := by
  unfold Block.windowTest
  extract_lets b1
  have wb1 : Within P b₀ b1 := (w.windowStart hmem hcap).ite w
  refine ite w ?_
  split
  · exact wb1
  · extract_lets _ b2
    have wb2 : Within P b₀ b2 := ((wb1.keepRange hmem hcap).modPart hcap).ite wb1
    exact ((wb2.windowEnd hcap).burstCheck hcap).ite wb2

theorem windowLine (w : Within P b₀ b) {h : HeadId} {seq : Nat} {tE : Time} (hmem : P .mem) (hcap : P .capture) : Within P b₀
    (b.windowLine h seq tE) := by
  unfold Block.windowLine
  exact (w.modPart hcap).windowTest hmem hcap

theorem lateLines (w : Within P b₀ b) {h : HeadId} (hmem : P .mem) (hcap : P .capture) : Within P b₀ (b.lateLines h) := by
  unfold Block.lateLines
  extract_lets
  split
  · exact (w.modPart hcap).foldl (fun _ _ v => v.windowLine hmem hcap)

theorem windowStop (w : Within P b₀ b) {h : HeadId} (hcap : P .capture) : Within P b₀ (b.windowStop h) := by
  unfold Block.windowStop
  refine ite ?_ ?_
  · exact w
  · split
    · exact (w.windowEnd hcap).burstCheck hcap
    · exact w.burstCheck hcap

theorem burstTrigger (w : Within P b₀ b) {bTime : Time} (hmem : P .mem) (hcap : P .capture) : Within P b₀ (b.burstTrigger bTime) := by
  unfold Block.burstTrigger
  refine ite ?_ ?_
  · exact (((((w.modCapture hcap).setReg).raise.sendRing.ite ((w.modCapture hcap).setReg).raise).foldl (fun _ _ v4 => v4.modPart hcap)).foldl (fun _
      _ v5 => v5.foldl (fun _ _ v6 => v6.windowTest hmem hcap))).burstCheck hcap
  · exact w.bump.raise

theorem burstMeet (w : Within P b₀ b) {m : BurstMeet} {bTime : Time} (hmem : P .mem) (hcap : P .capture) : Within P b₀ (b.burstMeet m bTime) := by
  unfold Block.burstMeet
  split
  · exact w.burstTrigger hmem hcap
  · exact w.bump.burstTrigger hmem hcap
  · exact (w.bump.modCapture hcap).ite w.bump
  · exact w.bump.bump.raise

theorem captureDisarm (w : Within P b₀ b) (hcap : P .capture) : Within P b₀ b.captureDisarm := (w.modCapture hcap).ite w

theorem captureArm (w : Within P b₀ b) {withDisarm : Bool} (hcap : P .capture) : Within P b₀ (b.captureArm withDisarm) :=
  (w.bump.captureDisarm hcap).ite ((w.setReg.modCapture hcap).ite w.setReg)

theorem captureStart (w : Within P b₀ b) {h : HeadId} (hcap : P .capture) : Within P b₀ (b.captureStart h) := by
  unfold Block.captureStart
  exact (w.modPart hcap).modCapture hcap

theorem captureStop (w : Within P b₀ b) (hcap : P .capture) : Within P b₀ b.captureStop := (w.modCapture hcap).ite w

/-! ## Writing (R204, R219 to R221) -/

theorem loseLine (w : Within P b₀ b) {h : HeadId} {l : Line} (hcap : P .capture) : Within P b₀ (b.loseLine h l) := ((w.modPart hcap).bump).raise

theorem putRecord (w : Within P b₀ b) {h : HeadId} {l : Line} {slot : List Byte} {kept : Bool} (hmem : P .mem) (hcap : P .capture) : Within P b₀
    (b.putRecord h l slot kept) := by
  unfold Block.putRecord
  exact (w.placeWrite hmem).modPart hcap

theorem writeRecord (w : Within P b₀ b) {h : HeadId} {l : Line} {build : Nat → List Byte} (hmem : P .mem) (hcap : P .capture) :
    Within P b₀ (b.writeRecord h l build).2 := by
  unfold Block.writeRecord
  extract_lets p kept slot need
  split
  extract_lets b1
  have wb1 : Within P b₀ b1 := w.modPart hcap
  split
  next b2 heq =>
    suffices wb2 : Within P b₀ b2 from wb2.windowLine hmem hcap
    split at heq
    · cases heq; exact wb1.putRecord hmem hcap
    · split at heq
      · cases heq; exact wb1.loseLine hcap
      · split at heq
        extract_lets b3 at heq
        have wb3 : Within P b₀ b3 := wb1.ite (wb1.modPart hcap).count.raise
        split at heq
        · cases heq; exact wb3.bump.loseLine hcap
        · cases heq; exact wb3.putRecord hmem hcap

theorem captureDiscard (w : Within P b₀ b) {h : HeadId} (hcap : P .capture) : Within P b₀ (b.captureDiscard h) := by
  unfold Block.captureDiscard
  extract_lets _ b1
  have wb1 : Within P b₀ b1 := w.modPart hcap
  exact wb1.aside

/-! ## Records from the ring at an abutment (R222) -/

theorem readoutPut (w : Within P b₀ b) {span fromPier : Nat} {slot : List Byte} (hmem : P .mem) (hcap : P .capture) : Within P b₀
    (b.readoutPut span fromPier slot) := by
  unfold Block.readoutPut
  exact (w.placeWrite hmem).modCapture hcap

theorem ringRecord (w : Within P b₀ b) {span fromPier : Nat} {slot : List Byte} (hmem : P .mem) (hcap : P .capture) : Within P b₀
    (b.ringRecord span fromPier slot) :=
  ((w.readoutPut hmem hcap).modCapture hcap).ite ((w.modCapture hcap).raiseIf)

/-! ## Refresh (R226) -/

theorem refreshFollow (w : Within P b₀ b) {case_ : Int} : Within P b₀ (b.refreshFollow case_) :=
  w.setReg.setReg.raise.ite (w.setReg.setReg.raise.ite w)

/-! ## Flags owed to later lines (R11, R14, R119) -/

theorem owe (w : Within P b₀ b) {h : HeadId} {f : Nat} (hh : P (.head h)) : Within P b₀ (b.owe h f) := w.modHead hh

theorem oweDelivered (w : Within P b₀ b) {h : HeadId} {f : Nat} (hh : P (.head h)) : Within P b₀ (b.oweDelivered h f) := by
  unfold Block.oweDelivered
  split
  · exact w.modHead hh
  · exact w.owe hh

/-! ## Pattern outputs (R66 to R71) -/

theorem passEdges (w : Within P b₀ b) {h : HeadId} (hh : P (.head h)) : Within P b₀ (b.passEdges h) := by
  unfold Block.passEdges
  split
  · exact w.modHead hh

theorem timeEdges (w : Within P b₀ b) {h : HeadId} {es : List Edge} (hh : P (.head h)) : Within P b₀ (b.timeEdges h es) := by
  unfold Block.timeEdges
  extract_lets _ _ _ _ _ b2 b3
  have wb2 : Within P b₀ b2 := (w.passEdges hh).modHead hh
  have wb3 : Within P b₀ b3 := wb2.ite wb2.emit
  exact wb3.ite wb3.count.raise

theorem outputsRest (w : Within P b₀ b) {h : HeadId} {clocks : Nat} (hh : P (.head h)) : Within P b₀ (b.outputsRest h clocks) :=
  w.ite ((w.modHead hh).emit)

theorem syncOut (w : Within P b₀ b) {h : HeadId} {start length : Nat} : Within P b₀ (b.syncOut h start length) := by
  unfold Block.syncOut
  exact w.emit.ite (w.emit.used.ite w.emit.used.emit)

/-! ## The line boundary (R76) -/

theorem lineBind (w : Within P b₀ b) {h : HeadId} {tE : Time} {common : Option Time} {idle : Bool} {seq extra : Nat} {line : Option Int}
    (hh : P (.head h)) : Within P b₀ (b.lineBind h tE common idle seq extra line) := by
  unfold Block.lineBind
  extract_lets _ _ b2 b3
  have wb2 : Within P b₀ b2 := ((w.capTake.openWindows hh).corrTakeBefore).geometryTakeBefore
  have wb3 : Within P b₀ b3 := wb2.calBegin.ite wb2
  split
  next heq =>
    have wi := fun l k d s => wb3.illumBoundary (h := h) (line := l) (kept := k) (dark := d) (steps := s)
    have wb4 := heq ▸ wi ..
    split
    extract_lets _ _ _ _ _ _ b5 b6
    have wb6 : Within P b₀ b6 := (wb4.modHead hh).setReg.timeEdges hh
    exact (wb6.syncOut.ite wb6).raise

theorem lineBoundary (w : Within P b₀ b) {h : HeadId} {tE : Time} {common : Option Time} {idle : Bool} {seq extra : Nat} {line : Option Int}
    (hh : P (.head h)) : Within P b₀ (b.lineBoundary h tE common idle seq extra line) := by
  unfold Block.lineBoundary
  exact (w.recalled.lineBind hh).recalled

/-! ## Accepting a trigger (R14, R18, R82, R90) -/

theorem acceptLine (w : Within P b₀ b) {h : HeadId} {index : Option Nat} {extra : Nat} {arrival tE : Time} {common : Option Time}
    (hh : P (.head h)) : Within P b₀ (b.acceptLine h index extra arrival tE common) := by
  unfold Block.acceptLine
  exact (w.modHead hh).bump.raise.lineBoundary hh

theorem trigger (w : Within P b₀ b) {h : HeadId} {index : Option Nat} {scheduled : Bool} {extra : Nat} {arrival tE : Time} {common : Option Time}
    (hh : P (.head h)) : Within P b₀ (b.trigger h index scheduled extra arrival tE common) := by
  unfold Block.trigger
  refine ite ?_ ?_
  · exact w
  · split
    · exact w.acceptLine hh
    · exact (w.owe hh).ite ((w.bump.raise.owe hh).ite (w.acceptLine hh))

theorem triggerMeet (w : Within P b₀ b) {h : HeadId} {m : Meet} {index : Option Nat} {scheduled : Bool} {extra : Nat} {arrival tE : Time}
    {common : Option Time} (hh : P (.head h)) : Within P b₀ (b.triggerMeet h m index scheduled extra arrival tE common) := by
  unfold Block.triggerMeet
  split
  · exact w.trigger hh
  · exact w.bump.raise.trigger hh
  · exact w.bump.raise

theorem idleLine (w : Within P b₀ b) {h : HeadId} {line : Option Int} {tE : Time} {common : Option Time} (hh : P (.head h)) : Within P b₀
    (b.idleLine h line tE common) :=
  w.ite (w.lineBoundary hh)

/-! ## Time and scheduled triggers (R80, R81) -/

theorem armScheduled (w : Within P b₀ b) {h : HeadId} {k : Nat} (hh : P (.head h)) : Within P b₀ (b.armScheduled h k) := by
  unfold Block.armScheduled
  split
  · exact (w.modHead hh).ite ((w.modHead hh).owe hh)
  · exact w.modHead hh

theorem armFirst (w : Within P b₀ b) {h : HeadId} (hh : P (.head h)) : Within P b₀ (b.armFirst h) := by
  unfold Block.armFirst
  split
  · exact (w.modHead hh).ite ((w.modHead hh).ite ((w.modHead hh).owe hh))
  · exact w.armScheduled hh
  · exact w.armScheduled hh
  · exact w.modHead hh

theorem timeTrigger (w : Within P b₀ b) {h : HeadId} {m : Meet} (hh : P (.head h)) : Within P b₀ (b.timeTrigger h m) := by
  unfold Block.timeTrigger
  split
  · exact w
  · exact w.ite ((w.modHead hh).ite ((w.triggerMeet hh).modHead hh))

/-! ## Stop (R96) -/

theorem isolateDone (w : Within P b₀ b) {h : HeadId} (hh : P (.head h)) : Within P b₀ (b.isolateDone h) := by
  unfold Block.isolateDone
  exact w.ite (((w.modHead hh).bump).emit.logFault.foldl (fun _ _ v2 => v2.replyVia))

theorem enterStopped (w : Within P b₀ b) {h : HeadId} (hcap : P .capture) (hh : P (.head h)) : Within P b₀ (b.enterStopped h) := by
  unfold Block.enterStopped
  exact (((((w.modHead hh).outputsRest hh).setReg).calFail.stitchCalFail.restartWindows.corrTakeArmed.geometryTakeArmed.raise.windowStop
      hcap).captureStop hcap).isolateDone hh

theorem stopIfDone (w : Within P b₀ b) {h : HeadId} (hcap : P .capture) (hh : P (.head h)) : Within P b₀ (b.stopIfDone h) :=
  (w.enterStopped hcap hh).ite w

theorem answerStart (w : Within P b₀ b) {h : HeadId} {res : Result} (hh : P (.head h)) : Within P b₀ (b.answerStart h res) :=
  (w.foldl (fun _ _ v => v.replyVia)).modHead hh

theorem headStop (w : Within P b₀ b) {h : HeadId} (hcap : P .capture) (hh : P (.head h)) : Within P b₀ (b.headStop h) := by
  unfold Block.headStop
  split
  · exact (((w.modHead hh).calFail).stitchCalFail).stopIfDone hcap hh
  · exact (w.answerStart hh).enterStopped hcap hh
  · exact w.enterStopped hcap hh
  · exact w

theorem runEnd (w : Within P b₀ b) {h : HeadId} (hcap : P .capture) (hh : P (.head h)) : Within P b₀ (b.runEnd h) := w.raise.headStop hcap hh
theorem listEnd (w : Within P b₀ b) {h : HeadId} (hcap : P .capture) (hh : P (.head h)) : Within P b₀ (b.listEnd h) := (w.runEnd hcap hh).ite w

theorem scheduledTrigger (w : Within P b₀ b) {h : HeadId} {m : Meet} (hcap : P .capture) (hh : P (.head h)) : Within P b₀
    (b.scheduledTrigger h m) := by
  unfold Block.scheduledTrigger
  split
  · exact w
  · exact w.ite (((w.used.triggerMeet hh).armScheduled hh).listEnd hcap hh)

theorem triggerCountEnd (w : Within P b₀ b) {h : HeadId} (hcap : P .capture) (hh : P (.head h)) : Within P b₀ (b.triggerCountEnd h) :=
  (w.runEnd hcap hh).ite w

/-! ## Other sources -/

theorem pinTrigger (w : Within P b₀ b) {h : HeadId} {pin : Fin 2} {falling : Bool} {width : Nat} {m : Meet} (hh : P (.head h)) : Within P b₀
    (b.pinTrigger h pin falling width m) := by
  unfold Block.pinTrigger
  exact w.ite ((w.raise.triggerMeet hh).ite w.raise)

theorem taskTrigger (w : Within P b₀ b) {h : HeadId} {m : Meet} {merged : Bool} (hh : P (.head h)) : Within P b₀ (b.taskTrigger h m merged) :=
  (w.used.triggerMeet hh).ite w

theorem softTrigger (w : Within P b₀ b) {h : HeadId} {m : Meet} (hh : P (.head h)) : Within P b₀ (b.softTrigger h m) := (w.used.triggerMeet hh).ite w
theorem lateSettled (w : Within P b₀ b) {h : HeadId} {k : Nat} (hh : P (.head h)) : Within P b₀ (b.lateSettled h k) := w.modHead hh
theorem lateOwed (w : Within P b₀ b) {h : HeadId} (hh : P (.head h)) : Within P b₀ (b.lateOwed h) := ((w.modHead hh).owe hh).ite w

theorem indexedTrigger (w : Within P b₀ b) {h : HeadId} {m : Meet} {k flags : Nat} {arrival tE : Time} {common : Option Time} (hh : P (.head h)) :
    Within P b₀ (b.indexedTrigger h m k flags arrival tE common) :=
  ((w.triggerMeet hh).lateSettled hh).modHead hh

theorem encoderTrigger (w : Within P b₀ b) {h : HeadId} {m : Meet} {k flags : Nat} (hh : P (.head h)) : Within P b₀
    (b.encoderTrigger h m k flags) := by
  unfold Block.encoderTrigger
  exact (w.used.idleLine hh).ite ((w.used.indexedTrigger hh).modHead hh)

theorem headCrossing (w : Within P b₀ b) {k : Nat} {c : Time} {flags : Nat} {h : HeadId} (hh : P (.head h)) : Within P b₀
    (b.headCrossing k c flags h) := by
  unfold Block.headCrossing
  refine ite ?_ ?_
  · exact w
  · exact ((w.modHead hh).modHead hh).ite ((w.modHead hh).bump.raise.ite ((w.modHead hh).bump.raise.modHead hh))

theorem receiveCrossing (w : Within P b₀ b) {k : Nat} {c : Time} {flags : Nat} (hheads : ∀ g, P (.head g)) : Within P b₀
    (b.receiveCrossing k c flags) :=
  w.foldl (fun _ _ v => v.headCrossing (hheads _))

theorem headIdle (w : Within P b₀ b) {c : Time} {line : Option Int} {h : HeadId} (hh : P (.head h)) : Within P b₀ (b.headIdle c line h) := by
  unfold Block.headIdle
  extract_lets _ _ b1
  have wb1 : Within P b₀ b1 := by
    unfold b1
    split
    · exact w.illumAhead.ite w
    · exact w
  exact w.ite (w.ite (wb1.modHead hh))

theorem receiveIdle (w : Within P b₀ b) {c : Time} {line : Option Int} (hheads : ∀ g, P (.head g)) : Within P b₀ (b.receiveIdle c line) :=
  w.foldl (fun _ _ v => v.headIdle (hheads _))

theorem broadcast (w : Within P b₀ b) {m : RingMsg} {c : Time} : Within P b₀ (b.broadcast m c) := by
  unfold Block.broadcast
  exact w.sendRing.aside

theorem latchDue (w : Within P b₀ b) : Within P b₀ b.latchDue := by
  unfold Block.latchDue
  split
  dsimp only
  split
  · exact w.aside
  · exact foldl w.aside fun _ _ v => v.sendRing

theorem broadcastDue (w : Within P b₀ b) {h : HeadId} {m : Meet} (hh : P (.head h)) : Within P b₀ (b.broadcastDue h m) := by
  unfold Block.broadcastDue
  extract_lets
  split
  · exact w.latchDue
  · refine ite ?_ ?_
    · exact w.latchDue
    · split
      · exact (w.latchDue.used.modHead hh).idleLine hh
      · exact ((w.latchDue.used.modHead hh).idleLine hh).ite ((w.latchDue.used.modHead hh).indexedTrigger hh)

theorem triggerTimeout (w : Within P b₀ b) {h : HeadId} {withTrigger : Bool} (hh : P (.head h)) : Within P b₀ (b.triggerTimeout h withTrigger) := by
  unfold Block.triggerTimeout
  exact w.ite (w.bump.ite ((w.modHead hh).raise))

theorem syncPulse (w : Within P b₀ b) {h : HeadId} : Within P b₀ (b.syncPulse h) := w.syncOut.ite w

/-! ## Exposure end and readout (R73, R77, R94) -/

theorem exposureEnd (w : Within P b₀ b) {h : HeadId} (hh : P (.head h)) : Within P b₀ (b.exposureEnd h) := by
  unfold Block.exposureEnd
  split
  · exact w
  · split
    · exact w
    · exact (((((w.modHead hh).ite (w.modHead hh).bump).setReg.ite ((w.modHead hh).ite (w.modHead hh).bump)).timeEdges hh).syncOut.ite ((((w.modHead
        hh).ite (w.modHead hh).bump).setReg.ite ((w.modHead hh).ite (w.modHead hh).bump)).timeEdges hh)).raise.openWindows hh

/-! ## From samples to codes (R99, R104, R106) -/

theorem ilvLine (w : Within P b₀ b) {h : HeadId} {l : Line} {kind : Nat} {trips : Bool} {s : SegId} {codes : List (Nat × Nat)} : Within P b₀
    (b.ilvLine h l kind trips s codes) := by
  unfold Block.ilvLine
  exact (w.ite ((w.ite w.bump).modVideo)).modVideo

theorem clampSegment (w : Within P b₀ b) {h : HeadId} {l : Line} {s : SegId} {codes : List (Nat × Nat)} :
    Within P b₀ (b.clampSegment h l s codes).2.2 := by
  unfold Block.clampSegment
  exact w.modCorr.setRegI

theorem addBlack (w : Within P b₀ b) {h : HeadId} {s : SegId} {obs : List Int} : Within P b₀ (b.addBlack h s obs) := w.modVideo

theorem readLine (w : Within P b₀ b) {h : HeadId} {l : Line} {v : Video} : Within P b₀ (b.readLine h l v).2.2.2 := by
  unfold Block.readLine
  extract_lets kind
  suffices hs : ∀ (xs : List SegId) (acc : List (List Px) × Nat × Bool × Block), Within P b₀ acc.2.2.2 → Within P b₀ (xs.foldl _ acc).2.2.2 from
    hs _ _ w
  intro xs
  induction xs with
  | nil => exact fun _ wa => wa
  | cons s xs ih =>
    intro acc wa
    refine ih _ ?_
    dsimp only
    split
    · exact wa
    · exact wa.ilvLine.addBlack.clampSegment

theorem dropLine (w : Within P b₀ b) {h : HeadId} {l : Line} {flags : Nat} (hcap : P .capture) (hh : P (.head h)) : Within P b₀
    (b.dropLine h l flags) :=
  (w.bump.oweDelivered hh).modPart hcap

theorem windowClose (w : Within P b₀ b) {h : HeadId} {v : Video} {lamps : LampReport} (hcap : P .capture) (hh : P (.head h)) : Within P b₀
    (b.windowClose h v lamps) := by
  unfold Block.windowClose
  extract_lets b1
  have wb1 : Within P b₀ b1 := w.openWindows hh
  split
  · exact wb1
  · exact wb1.ite (((((((((((wb1.restartWindows.ite wb1).readLine).modHead hh).modVideo).bump.raise.ite ((((wb1.restartWindows.ite
      wb1).readLine).modHead hh).modVideo)).bump.raise.ite (((((wb1.restartWindows.ite wb1).readLine).modHead hh).modVideo).bump.raise.ite
      ((((wb1.restartWindows.ite wb1).readLine).modHead hh).modVideo))).bump.raise.ite ((((((wb1.restartWindows.ite wb1).readLine).modHead
      hh).modVideo).bump.raise.ite ((((wb1.restartWindows.ite wb1).readLine).modHead hh).modVideo)).bump.raise.ite (((((wb1.restartWindows.ite
      wb1).readLine).modHead hh).modVideo).bump.raise.ite ((((wb1.restartWindows.ite wb1).readLine).modHead
      hh).modVideo)))).lampMeasure.raise.oweDelivered hh).stitchIdle).ite (((((((((wb1.restartWindows.ite wb1).readLine).modHead
      hh).modVideo).bump.raise.ite ((((wb1.restartWindows.ite wb1).readLine).modHead hh).modVideo)).bump.raise.ite (((((wb1.restartWindows.ite
      wb1).readLine).modHead hh).modVideo).bump.raise.ite ((((wb1.restartWindows.ite wb1).readLine).modHead hh).modVideo))).bump.raise.ite
      ((((((wb1.restartWindows.ite wb1).readLine).modHead hh).modVideo).bump.raise.ite ((((wb1.restartWindows.ite wb1).readLine).modHead
      hh).modVideo)).bump.raise.ite (((((wb1.restartWindows.ite wb1).readLine).modHead hh).modVideo).bump.raise.ite ((((wb1.restartWindows.ite
      wb1).readLine).modHead hh).modVideo)))).lampMeasure.raise.dropLine hcap hh).ite ((((((((wb1.restartWindows.ite wb1).readLine).modHead
      hh).modVideo).bump.raise.ite ((((wb1.restartWindows.ite wb1).readLine).modHead hh).modVideo)).bump.raise.ite (((((wb1.restartWindows.ite
      wb1).readLine).modHead hh).modVideo).bump.raise.ite ((((wb1.restartWindows.ite wb1).readLine).modHead hh).modVideo))).bump.raise.ite
      ((((((wb1.restartWindows.ite wb1).readLine).modHead hh).modVideo).bump.raise.ite ((((wb1.restartWindows.ite wb1).readLine).modHead
      hh).modVideo)).bump.raise.ite (((((wb1.restartWindows.ite wb1).readLine).modHead hh).modVideo).bump.raise.ite ((((wb1.restartWindows.ite
      wb1).readLine).modHead hh).modVideo)))).lampMeasure.raise.modHead hh))).stopIfDone hcap hh)

theorem discardLines (w : Within P b₀ b) {h : HeadId} (hh : P (.head h)) : Within P b₀ (b.discardLines h) := by
  unfold Block.discardLines
  exact (w.ite w.count).modHead hh

theorem lockLost (w : Within P b₀ b) {h : HeadId} (hcap : P .capture) (hh : P (.head h)) : Within P b₀ (b.lockLost h) :=
  w.ite ((((((w.discardLines hh).modHead hh).outputsRest hh).setReg).raise).windowStop hcap)

theorem positionLatched (w : Within P b₀ b) {tE : Time} {p : Int} (hheads : ∀ g, P (.head g)) : Within P b₀ (b.positionLatched tE p) := by
  unfold Block.positionLatched
  exact w.foldl (fun _ _ v => (v.modHead (hheads _)).stitchLatched)

theorem calibrate (w : Within P b₀ b) {h : HeadId} {flags : Nat} {t z : Int} {ys bins : List (List Px)} : Within P b₀
    (b.calibrate h flags t z ys bins) :=
  w.ite (w.calLine.ite w.calLine.stitchCalLine)

theorem lineLeaves (w : Within P b₀ b) {h : HeadId} (hmem : P .mem) (hcap : P .capture) (hh : P (.head h)) : Within P b₀ (b.lineLeaves h) := by
  unfold Block.lineLeaves
  split
  · exact w
  · next q rest _ =>
    refine ite w ?_
    extract_lets b1 _ _ l b2
    have wb1 : Within P b₀ b1 := w.modHead hh
    have wb2 : Within P b₀ b2 := (wb1.used.ite wb1).stitchSettle
    split
    extract_lets b3 b4
    have wb4 : Within P b₀ b4 := wb2.setRegI.bump.ite wb2.setRegI
    split
    next bins t table _ cols flags b5 heq =>
    have wb5 := (congrArg (fun x => Within P b₀ x.2.2) heq).mp (wb4.voussoir hmem)
    split
    extract_lets b6 b7
    have wb7 : Within P b₀ b7 := (wb5.bump.ite wb5).bump.setReg
    split
    next b8 heq =>
    have wb8 := (congrArg (fun x => Within P b₀ x.2) heq).mp (wb7.writeRecord hmem hcap)
    exact (((wb8.calibrate.ite wb8).lateLines hmem hcap).windowStop hcap).captureStop hcap

/-! ## The profile (R268, R269, R271) -/

theorem watchDeviation (w : Within P b₀ b) {a : AxisId} (ha : P (.axis a)) : Within P b₀ (b.watchDeviation a) := by
  unfold Block.watchDeviation
  exact w.modAxis ha

theorem stepEvents (w : Within P b₀ b) {a : AxisId} {x : Axis} {ended atLimit far : Bool} : Within P b₀ (b.stepEvents a x ended atLimit far) := by
  unfold Block.stepEvents
  exact w.raiseIf.raiseIf.bump.raise.ite w.raiseIf.raiseIf

theorem profileStep (w : Within P b₀ b) {a : AxisId} (ha : P (.axis a)) : Within P b₀ (b.profileStep a).2 := by
  have step : ∀ y v x e l f, Within P b₀ ((((b.modAxis a fun _ => y).setReg (Obj.axisProfileState a) v).stepEvents a x e l f).watchDeviation a) :=
    fun _ _ _ _ _ _ => (w.modAxis ha).setReg.stepEvents.watchDeviation ha
  unfold Block.profileStep
  refine iteSnd w ?_
  exact step ..

/-! ## Position validity and motion faults (R266, R278 to R280) -/

theorem setValid (w : Within P b₀ b) {a : AxisId} {v : Bool} (hheads : ∀ g, P (.head g)) : Within P b₀ (b.setValid a v) :=
  w.ite (w.setReg.raise.ite (w.setReg.raise.foldl (fun _ _ v1 => (v1.owe (hheads _)).ite v1)))

theorem addFault (w : Within P b₀ b) {a : AxisId} {code : Nat} (ha : P (.axis a)) : Within P b₀ (b.addFault a code) := w.modAxis ha
theorem dropFault (w : Within P b₀ b) {a : AxisId} {code : Nat} (ha : P (.axis a)) : Within P b₀ (b.dropFault a code) := w.modAxis ha
theorem brakeAxis (w : Within P b₀ b) {a : AxisId} {hard : Bool} (ha : P (.axis a)) : Within P b₀ (b.brakeAxis a hard) := w.ite (w.modAxis ha)

theorem tripEnd (w : Within P b₀ b) {a : AxisId} (hheads : ∀ g, P (.head g)) (ha : P (.axis a)) : Within P b₀ (b.tripEnd a) := by
  unfold Block.tripEnd
  exact ((w.dropFault ha).modAxis ha).setValid hheads

theorem deviationTrip (w : Within P b₀ b) {a : AxisId} {returned : Bool} (hheads : ∀ g, P (.head g)) (ha : P (.axis a)) : Within P b₀
    (b.deviationTrip a returned) := by
  unfold Block.deviationTrip
  exact w.ite (((w.modAxis ha).bump).ite (w.ite ((((((w.modAxis ha).addFault ha).setValid hheads).raise).bump).brakeAxis ha)))

theorem deviationRealign (w : Within P b₀ b) {a : AxisId} (hheads : ∀ g, P (.head g)) (ha : P (.axis a)) : Within P b₀ (b.deviationRealign a) := by
  unfold Block.deviationRealign
  exact w.ite (((w.modAxis ha).modAxis ha).tripEnd hheads ha)

theorem encoderError (w : Within P b₀ b) {a : AxisId} (hheads : ∀ g, P (.head g)) (ha : P (.axis a)) : Within P b₀ (b.encoderError a) :=
  w.ite ((((((w.modAxis ha).addFault ha).setValid hheads).raise).bump).brakeAxis ha)

theorem encoderErrorBy (w : Within P b₀ b) {a : AxisId} {cause : Nat} (hheads : ∀ g, P (.head g)) (ha : P (.axis a)) : Within P b₀
    (b.encoderErrorBy a cause) :=
  w.ite (w.encoderError hheads ha)

theorem switchOff (w : Within P b₀ b) {a : AxisId} (ha : P (.axis a)) : Within P b₀ (b.switchOff a) := ((w.modAxis ha).setReg).emit
theorem freezeCommand (w : Within P b₀ b) {a : AxisId} (ha : P (.axis a)) : Within P b₀ (b.freezeCommand a) := w.modAxis ha

theorem stageFault (w : Within P b₀ b) {a : AxisId} {code : Nat} (ha : P (.axis a)) : Within P b₀ (b.stageFault a code) :=
  w.ite (((((w.addFault ha).freezeCommand ha).modAxis ha).switchOff ha).setReg.raise.logFault)

theorem clearFaults (w : Within P b₀ b) {a : AxisId} (hheads : ∀ g, P (.head g)) (ha : P (.axis a)) : Within P b₀ (b.clearFaults a) := by
  unfold Block.clearFaults
  extract_lets b1
  have wb1 : Within P b₀ b1 := w.ite (w.dropFault ha)
  exact (wb1.tripEnd hheads ha).ite wb1

/-! ## Commands of the axis (R266 to R272) -/

theorem moveTo (w : Within P b₀ b) {a : AxisId} {t : Int} (ha : P (.axis a)) : Within P b₀ (b.moveTo a t) := w.modAxis ha
theorem jog (w : Within P b₀ b) {a : AxisId} {v : Int} (ha : P (.axis a)) : Within P b₀ (b.jog a v) := w.modAxis ha
theorem home (w : Within P b₀ b) {a : AxisId} (ha : P (.axis a)) : Within P b₀ (b.home a) := w.modAxis ha

theorem startMeets (w : Within P b₀ b) {m : StartMeet} {via : Via} {o : Obj} : Within P b₀ (b.startMeets m via o) := by
  unfold Block.startMeets
  exact w.ite (w.bump.ite w.bump.bump)

theorem taskOr (w : Within P b₀ b) {a : AxisId} {why : List AbortCode} {f : Block → Block} (hf : ∀ c, Within P b₀ c → Within P b₀ (f c)) : Within P
    b₀ (b.taskOr a why f) :=
  ((hf _ w)).ite (w.bump.ite w)

theorem homingFound (w : Within P b₀ b) {a : AxisId} (hheads : ∀ g, P (.head g)) (ha : P (.axis a)) : Within P b₀ (b.homingFound a) :=
  w.ite ((w.modAxis ha).raise.setValid hheads)

theorem homingFailed (w : Within P b₀ b) {a : AxisId} (ha : P (.axis a)) : Within P b₀ (b.homingFailed a) := w.ite ((w.modAxis ha).raise)

theorem limitActive (w : Within P b₀ b) {a : AxisId} {up : Bool} (ha : P (.axis a)) : Within P b₀ (b.limitActive a up) := by
  unfold Block.limitActive
  extract_lets _ b2 _ _
  have wb2 : Within P b₀ b2 := ((w.modAxis ha).addFault ha).raise
  split
  · exact (wb2.modAxis ha).ite (((wb2.homingFailed ha).brakeAxis ha).ite wb2)
  · exact (wb2.brakeAxis ha).ite wb2

theorem limitRelease (w : Within P b₀ b) {a : AxisId} {up : Bool} (hheads : ∀ g, P (.head g)) (ha : P (.axis a)) : Within P b₀
    (b.limitRelease a up) := by
  unfold Block.limitRelease
  extract_lets b1 b2
  have wb1 : Within P b₀ b1 := w.modAxis ha
  have wb2 : Within P b₀ b2 := wb1.ite (wb1.dropFault ha)
  exact (wb2.homingFound hheads ha).ite wb2

theorem indexPulse (w : Within P b₀ b) {a : AxisId} : Within P b₀ (b.indexPulse a) := w.setRegI.raise

theorem encoderEdge (w : Within P b₀ b) {a : AxisId} {up : Bool} (hheads : ∀ g, P (.head g)) (ha : P (.axis a)) : Within P b₀ (b.encoderEdge a up) :=
  w.ite ((w.encoderError hheads ha).ite ((w.modAxis ha).setRegI.watchDeviation ha))

/-! ## Drive (R262, R273 to R276) -/

theorem drivePeriod (w : Within P b₀ b) {a : AxisId} {isa isb : Int} {vm : Nat} (ha : P (.axis a)) : Within P b₀ (b.drivePeriod a isa isb vm) := by
  unfold Block.drivePeriod
  extract_lets _ _ _ b1 _ _ _ _
  have wb1 : Within P b₀ b1 := w.bump.raise.ite w
  split
  · split
    · exact ((wb1.bump.raise.ite wb1).modAxis ha).setReg.emit

theorem pwmPeriod (w : Within P b₀ b) {a : AxisId} {isa isb : Int} {vmPin : Nat} (ha : P (.axis a)) : Within P b₀ (b.pwmPeriod a isa isb vmPin) := by
  unfold Block.pwmPeriod
  exact w.setReg.ite ((w.setReg.stageFault ha).ite ((w.setReg.stageFault ha).ite (w.setReg.drivePeriod ha)))

theorem holdCurrent (w : Within P b₀ b) {a : AxisId} (ha : P (.axis a)) : Within P b₀ (b.holdCurrent a) := by
  unfold Block.holdCurrent
  exact ((w.modAxis ha).raise).ite w

/-! ## Enable and disable (R284) -/

theorem deriveGains (w : Within P b₀ b) {a : AxisId} {vm : Nat} : Within P b₀ (b.deriveGains a vm) := w.ite w.setReg.setReg

theorem axisOn (w : Within P b₀ b) {a : AxisId} {vm : Nat} (ha : P (.axis a)) : Within P b₀ (b.axisOn a vm) :=
  w.ite ((w.emit.deriveGains.modAxis ha).setReg.setReg.raise)

theorem axisOff (w : Within P b₀ b) {a : AxisId} (ha : P (.axis a)) : Within P b₀ (b.axisOff a) := by
  unfold Block.axisOff
  split
  · exact (w.modAxis ha).brakeAxis ha
  · exact (w.modAxis ha).raise
  · exact w

theorem axisOffDone (w : Within P b₀ b) {a : AxisId} (ha : P (.axis a)) : Within P b₀ (b.axisOffDone a) :=
  ((((w.freezeCommand ha).modAxis ha).switchOff ha).raise).ite w

/-! ## The position source (R281, R282) -/

theorem setSourcePier (w : Within P b₀ b) {p : Nat} : Within P b₀ (b.setSourcePier p) := w.setReg.setReg

theorem claim (w : Within P b₀ b) {a : AxisId} {on : Bool} : Within P b₀ (b.claim a on) := by
  unfold Block.claim
  exact w.setReg.setSourcePier.sendRing.ite (w.setReg.setSourcePier.sendRing.ite w.setReg)

theorem positionBroadcast (w : Within P b₀ b) : Within P b₀ b.positionBroadcast := by
  unfold Block.positionBroadcast
  split
  · exact w.sendRing
  · exact w

/-! ## Ceiling and speeds (R236, R237, R245) -/

theorem publishCeiling (w : Within P b₀ b) {f : Nat} : Within P b₀ (b.publishCeiling f) := w.aside.sendRing

theorem deriveCeiling (w : Within P b₀ b) : Within P b₀ b.deriveCeiling := by
  unfold Block.deriveCeiling
  split
  · exact w
  · exact w.ite w.setReg.publishCeiling

/-! ## State changes -/

theorem keyEvent (w : Within P b₀ b) {a : AxisId} {k : Nat} : Within P b₀ (b.keyEvent a k) := w.raise

theorem keyState (w : Within P b₀ b) {a : AxisId} {s : Nat} (hkey : P .keystone) : Within P b₀ (b.keyState a s) := by
  unfold Block.keyState
  exact ((w.ite w.count).modKey hkey).sendRing

theorem setK (w : Within P b₀ b) {a : AxisId} {k : Int} (hkey : P .keystone) : Within P b₀ (b.setK a k) := w.setReg.modKey hkey

theorem pageBegun (w : Within P b₀ b) (hheads : ∀ g, P (.head g)) : Within P b₀ b.pageBegun :=
  w.foldl (fun _ _ v => ((v.lateOwed (hheads _)).modHead (hheads _)).modIllum)

theorem pageOver (w : Within P b₀ b) (hheads : ∀ g, P (.head g)) : Within P b₀ b.pageOver := w.foldl (fun _ _ v => v.modHead (hheads _))

theorem receivePage (w : Within P b₀ b) {n : Nat} (hheads : ∀ g, P (.head g)) : Within P b₀ (b.receivePage n) :=
  w.ite ((w.aside.pageOver hheads).ite ((w.aside.pageBegun hheads).ite w.aside))

theorem joinPage (w : Within P b₀ b) {n : Nat} (hheads : ∀ g, P (.head g)) : Within P b₀ (b.joinPage n) :=
  w.ite ((w.aside.pageOver hheads).ite (w.aside.foldl (fun _ _ v1 => v1.modHead (hheads _))))

theorem setPark (w : Within P b₀ b) {a : AxisId} {place : Int} {vr : Nat} (hkey : P .keystone) : Within P b₀ (b.setPark a place vr) :=
  (w.modKey hkey).setRegI

theorem noRoom (w : Within P b₀ b) {a : AxisId} (hkey : P .keystone) : Within P b₀ (b.noRoom a) := (w.keyState hkey).modKey hkey

theorem sendToPark (w : Within P b₀ b) {a : AxisId} {s : Nat} (hkey : P .keystone) (ha : P (.axis a)) : Within P b₀ (b.sendToPark a s) := by
  unfold Block.sendToPark
  split
  · exact w.noRoom hkey
  · exact (((w.keyState hkey).setPark hkey).modKey hkey).modAxis ha

theorem replan (w : Within P b₀ b) {a : AxisId} (hkey : P .keystone) (ha : P (.axis a)) : Within P b₀ (b.replan a) := by
  unfold Block.replan
  split
  · exact w.ite (w.noRoom hkey)
  · exact ((w.setPark hkey).modAxis ha).ite (w.setPark hkey)

theorem keyPause (w : Within P b₀ b) {a : AxisId} {reason : Option Nat} (hkey : P .keystone) (ha : P (.axis a)) : Within P b₀
    (b.keyPause a reason) := by
  unfold Block.keyPause
  extract_lets _ b1
  have wb1 : Within P b₀ b1 := by
    unfold b1
    split
    · exact w.ite (w.modKey hkey)
    · exact w
  refine ite ?_ ?_
  · exact wb1
  · exact (((wb1.keyState hkey).modKey hkey).bump.keyEvent.modAxis ha).bump.keyEvent.ite (((wb1.keyState hkey).modKey hkey).bump.keyEvent.modAxis ha)

theorem keyFault (w : Within P b₀ b) {a : AxisId} (hkey : P .keystone) : Within P b₀ (b.keyFault a) := by
  unfold Block.keyFault
  exact w.ite (((w.bump.keyEvent.ite w).keyState hkey).modKey hkey)

theorem keyRecover (w : Within P b₀ b) {a : AxisId} (hkey : P .keystone) (ha : P (.axis a)) : Within P b₀ (b.keyRecover a) :=
  (w.sendToPark hkey ha).ite w

theorem lowerK (w : Within P b₀ b) {a : AxisId} {k : Int} (hkey : P .keystone) (ha : P (.axis a)) : Within P b₀ (b.lowerK a k) := by
  unfold Block.lowerK
  refine ite ?_ ?_
  · exact w
  · exact (((w.setK hkey).modKey hkey).replan hkey ha).ite ((w.setK hkey).modKey hkey)

theorem keyOutside (w : Within P b₀ b) {reason : Nat} (hkey : P .keystone) (haxes : ∀ x, P (.axis x)) : Within P b₀ (b.keyOutside reason) := by
  unfold Block.keyOutside
  split
  · exact w
  · next a _ =>
    have wb1 : Within P b₀ (b.keyPause a (some reason)) := w.keyPause hkey (haxes a)
    refine ite w ?_
    dsimp only
    split
    · exact (wb1.lowerK hkey (haxes a)).ite wb1
    · exact wb1

theorem pageIdle (w : Within P b₀ b) {a : AxisId} (hkey : P .keystone) (hheads : ∀ g, P (.head g)) : Within P b₀ (b.pageIdle a) :=
  (((w.keyState hkey).keyEvent).modKey hkey).pageOver hheads

theorem pageEnding (w : Within P b₀ b) {a : AxisId} (hkey : P .keystone) (hheads : ∀ g, P (.head g)) (ha : P (.axis a)) : Within P b₀
    (b.pageEnding a) := by
  unfold Block.pageEnding
  extract_lets
  refine ite ?_ ?_
  · exact w
  · exact (((w.keyState hkey).modKey hkey).pageIdle hkey hheads).ite (((w.keyState hkey).modKey hkey).modAxis ha)

theorem pageDrop (w : Within P b₀ b) (hkey : P .keystone) (hheads : ∀ g, P (.head g)) (haxes : ∀ x, P (.axis x)) : Within P b₀ b.pageDrop := by
  unfold Block.pageDrop
  split
  · exact w
  · exact w.ite ((w.brakeAxis (haxes _)).pageIdle hkey hheads)

/-! ## Pacing (R235, R238, R254) -/

theorem keyPace (w : Within P b₀ b) {a : AxisId} (hkey : P .keystone) (ha : P (.axis a)) : Within P b₀ (b.keyPace a) := by
  unfold Block.keyPace
  split
  · exact (((w.setReg.setReg.modKey hkey).keyPause hkey ha).ite ((w.setReg.setReg.modKey hkey).modAxis ha)).ite (((w.setReg.setReg.modKey
      hkey).keyPause hkey ha).ite (w.setReg.setReg.modKey hkey))

theorem drainPublish (w : Within P b₀ b) (hkey : P .keystone) (haxes : ∀ x, P (.axis x)) : Within P b₀ b.drainPublish := by
  unfold Block.drainPublish
  extract_lets _ b1 b2 b3
  have wb3 : Within P b₀ b3 := (w.setReg.setReg.modKey hkey).sendRing
  refine ite w ?_
  cases b3.activeAxis with
  | none => exact wb3
  | some a => exact wb3.keyPace hkey (haxes _)

theorem levelReport (w : Within P b₀ b) {p : Nat} {i : LevelInfo} {withTimeout : Bool} (hkey : P .keystone) (haxes : ∀ x, P (.axis x)) : Within P b₀
    (b.levelReport p i withTimeout) := by
  unfold Block.levelReport
  extract_lets
  split
  · exact ((w.modKey hkey).bump.ite (w.modKey hkey)).keyPace hkey (haxes _)
  · exact (w.modKey hkey)

theorem levelTimeout (w : Within P b₀ b) (hkey : P .keystone) (haxes : ∀ x, P (.axis x)) : Within P b₀ b.levelTimeout := by
  unfold Block.levelTimeout
  split
  · exact w.keyPace hkey (haxes _)
  · exact w

theorem keyCap (w : Within P b₀ b) {a : AxisId} (hkey : P .keystone) (ha : P (.axis a)) : Within P b₀ (b.keyCap a) :=
  (w.keyPause hkey ha).ite ((w.replan hkey ha).ite w)

theorem keyFollow (w : Within P b₀ b) (hkey : P .keystone) (haxes : ∀ x, P (.axis x)) : Within P b₀ b.keyFollow := by
  unfold Block.keyFollow
  extract_lets b1
  have wb1 : Within P b₀ b1 := w.modKey hkey
  refine ite w ?_
  cases b1.activeAxis with
  | none => exact wb1
  | some a => exact wb1.keyCap hkey (haxes _)

/-! ## The page (R232, R239, R246, R257) -/

theorem pageStart (w : Within P b₀ b) {a : AxisId} (hkey : P .keystone) (hheads : ∀ g, P (.head g)) (ha : P (.axis a)) : Within P b₀
    (b.pageStart a) := by
  unfold Block.pageStart
  exact (((w.modKey hkey).setK hkey).pageBegun hheads).sendToPark hkey ha

theorem runUp (w : Within P b₀ b) {a : AxisId} (hkey : P .keystone) (ha : P (.axis a)) : Within P b₀ (b.runUp a) := by
  unfold Block.runUp
  exact (((w.keyState hkey).keyEvent).modKey hkey).modAxis ha

theorem parkReached (w : Within P b₀ b) (hkey : P .keystone) (haxes : ∀ x, P (.axis x)) : Within P b₀ b.parkReached := by
  unfold Block.parkReached
  split
  · exact w
  · exact w.ite ((((w.runUp hkey (haxes _)).keyPause hkey (haxes _)).ite (w.runUp hkey (haxes _))).ite (((w.keyState hkey).keyEvent).ite w))

theorem pageAtRest (w : Within P b₀ b) (hkey : P .keystone) (hheads : ∀ g, P (.head g)) (haxes : ∀ x, P (.axis x)) : Within P b₀ b.pageAtRest := by
  unfold Block.pageAtRest
  split
  · exact w
  · exact w.ite ((w.sendToPark hkey (haxes _)).ite ((w.pageIdle hkey hheads).ite w))

theorem resumeMet (w : Within P b₀ b) {withPause : Bool} (hkey : P .keystone) (haxes : ∀ x, P (.axis x)) : Within P b₀ (b.resumeMet withPause) := by
  unfold Block.resumeMet
  split
  · exact w
  · exact w.bump.ite ((w.runUp hkey (haxes _)).ite w)

theorem forcedPause (w : Within P b₀ b) {a : AxisId} {counted : Bool} (hkey : P .keystone) (ha : P (.axis a)) : Within P b₀
    (b.forcedPause a counted) := by
  unfold Block.forcedPause
  exact (w.bump.ite w).ite (((w.bump.ite w).modKey hkey).keyPause hkey ha)

theorem pageRelease (w : Within P b₀ b) {a : AxisId} (hkey : P .keystone) (ha : P (.axis a)) : Within P b₀ (b.pageRelease a) := by
  unfold Block.pageRelease
  exact ((w.modKey hkey).sendToPark hkey ha).ite (w.modKey hkey)

/-! ## Idle lines (R242) -/

theorem idleTimer (w : Within P b₀ b) (hkey : P .keystone) (hheads : ∀ g, P (.head g)) : Within P b₀ b.idleTimer := by
  unfold Block.idleTimer
  split
  · exact w.ite (((w.modKey hkey).broadcast).receiveIdle hheads)
  · exact w

/-! ## Crossings (R240, R247, R248, R283) -/

theorem fireKept (w : Within P b₀ b) {a : AxisId} {m : Meet} {k : Nat} {flags : Nat} (hkey : P .keystone) (hheads : ∀ g, P (.head g))
    (ha : P (.axis a)) : Within P b₀ (b.fireKept a m k flags) := by
  unfold Block.fireKept
  extract_lets _ _ _ _ _ b4 _
  have wb4 : Within P b₀ b4 := (((w.setK hkey).modKey hkey).raiseIf.broadcast.receiveCrossing hheads).foldl (fun _ _ v4 => v4.encoderTrigger (hheads
      _))
  exact (wb4.pageEnding hkey hheads ha).ite wb4

theorem fireApproach (w : Within P b₀ b) {a : AxisId} {k : Int} (hkey : P .keystone) (hheads : ∀ g, P (.head g)) : Within P b₀
    (b.fireApproach a k) := by
  unfold Block.fireApproach
  exact (((w.modKey hkey).broadcast).foldl (fun _ _ v1 => (v1.headIdle (hheads _)).ite v1)).foldl (fun _ _ v3 => v3.used.idleLine (hheads _))

theorem approachBegins (w : Within P b₀ b) {a : AxisId} {k : Int} (hkey : P .keystone) : Within P b₀ (b.approachBegins a k) := by
  unfold Block.approachBegins
  exact (w.modKey hkey).foldl (fun _ _ v1 => v1.illumAhead)

theorem rejoin (w : Within P b₀ b) {a : AxisId} (hkey : P .keystone) : Within P b₀ (b.rejoin a) := by
  unfold Block.rejoin
  extract_lets _ b1 _
  have wb1 : Within P b₀ b1 := (((w.keyState hkey).bump).keyEvent).setReg
  exact (wb1.bump.keyEvent.ite wb1).modKey hkey

theorem keyCount (w : Within P b₀ b) {a : AxisId} : Within P b₀ (b.keyCount a) := w.bump

theorem crossingMeets (w : Within P b₀ b) {a : AxisId} {m : CrossMeet} (hkey : P .keystone) : Within P b₀ (b.crossingMeets a m) := by
  unfold Block.crossingMeets
  exact w.keyCount.ite (w.keyCount.modKey hkey)

theorem pageCrossing (w : Within P b₀ b) {a : AxisId} {m : CrossMeet} {meet : Meet} (hkey : P .keystone) (hheads : ∀ g, P (.head g))
    (ha : P (.axis a)) : Within P b₀ (b.pageCrossing a m meet) := by
  unfold Block.pageCrossing
  exact w.ite (((w.crossingMeets hkey).ite (((w.rejoin hkey).ite w).fireKept hkey hheads ha)).ite (((w.crossingMeets hkey).ite (w.fireApproach hkey
      hheads)).ite ((w.keyCount.ite (w.approachBegins hkey)).ite w)))

theorem localCrossing (w : Within P b₀ b) {a : AxisId} {m : Meet} {h : HeadId} (hh : P (.head h)) : Within P b₀ (b.localCrossing a m h) := by
  unfold Block.localCrossing
  exact w.ite (w.encoderTrigger hh)

theorem freeCrossing (w : Within P b₀ b) {a : AxisId} (hheads : ∀ g, P (.head g)) : Within P b₀ (b.freeCrossing a) := by
  unfold Block.freeCrossing
  split
  · exact w
  · exact w.ite (w.broadcast.receiveCrossing hheads)

theorem seamLine (w : Within P b₀ b) {a : AxisId} {h : HeadId} (hkey : P .keystone) : Within P b₀ (b.seamLine a h) := by
  unfold Block.seamLine
  split
  · exact w
  · extract_lets _ _ b1
    have wb1 : Within P b₀ b1 := by
      unfold b1
      split
      · exact w.setRegI.ite w
      · exact w
    exact ((w.modKey hkey).ite w).ite (wb1.modKey hkey)

theorem withSeam (w : Within P b₀ b) {f : Block → Block} (hkey : P .keystone) (hf : ∀ c, Within P b₀ c → Within P b₀ (f c)) : Within P b₀
    (b.withSeam f) := by
  unfold Block.withSeam
  split
  · exact ((hf _ w)).ite (((hf _ w)).seamLine hkey)
  · exact (hf _ w)

theorem broadcastFire (w : Within P b₀ b) {h : HeadId} {m : Meet} (hkey : P .keystone) (hh : P (.head h)) : Within P b₀ (b.broadcastFire h m) :=
  w.withSeam hkey (fun _ v => v.broadcastDue hh)

theorem encoderCrossing (w : Within P b₀ b) {a : AxisId} {m : CrossMeet} {meet : Meet} (hkey : P .keystone) (hheads : ∀ g, P (.head g))
    (ha : P (.axis a)) : Within P b₀ (b.encoderCrossing a m meet) :=
  w.ite (w.withSeam hkey (fun _ v => by
    extract_lets b1
    have wb1 : Within P b₀ b1 := v.ite (v.foldl (fun _ _ v2 => v2.localCrossing (hheads _)))
    exact (wb1.pageCrossing hkey hheads ha).ite ((wb1.freeCrossing hheads).ite wb1)))

/-! ## Start (R95) -/

theorem headDerive (w : Within P b₀ b) {h : HeadId} : Within P b₀ (b.headDerive h) := by
  unfold Block.headDerive
  extract_lets b1 b2
  have wb2 : Within P b₀ b2 := w.deriveColumns.ite (w.deriveColumns.of_eq rfl (fun _ h => h) id (Map.wf_erase _ _) rfl rfl rfl rfl rfl)
  exact wb2.ite wb2.setReg

theorem startDerive (w : Within P b₀ b) {h : HeadId} : Within P b₀ (b.startDerive h) := by
  unfold Block.startDerive
  exact w.headDerive.setReg.ite w.headDerive

theorem ringStartCheck (w : Within P b₀ b) : Within P b₀ b.ringStartCheck := by
  unfold Block.ringStartCheck
  split
  · exact w
  · refine ite ?_ ?_
    · exact w
    · split
      · exact w.aside.sendRing
      · exact w.aside.raise.replyVia.ite w.aside.raise.replyVia

theorem ringStartHead (w : Within P b₀ b) {h : HeadId} {ok : Bool} : Within P b₀ (b.ringStartHead h ok) := by
  unfold Block.ringStartHead
  split
  · exact w
  · exact w.ite ((w.ite w.setReg).aside.ringStartCheck)

theorem startFail (w : Within P b₀ b) {h : HeadId} {c : AbortCode} {bank : Bool} {bankMv : Nat} (hcap : P .capture) (hh : P (.head h)) : Within P b₀
    (b.startFail h c bank bankMv) := by
  unfold Block.startFail
  exact (((w.logFault.ite w).answerStart hh).enterStopped hcap hh).ringStartHead

theorem startLock (w : Within P b₀ b) {h : HeadId} (hcap : P .capture) (hh : P (.head h)) : Within P b₀ (b.startLock h) := by
  unfold Block.startLock
  exact (((w.setReg.captureStart hcap).lateOwed hh).modHead hh).videoStart.illumStart.tempStart.modStitch.modCorr

theorem startGo (w : Within P b₀ b) {h : HeadId} {via : List Via} {bankMv : Nat} (hcap : P .capture) (hh : P (.head h)) : Within P b₀
    (b.startGo h via bankMv) := by
  unfold Block.startGo
  extract_lets _ b1 _
  have wb1 : Within P b₀ b1 := w.startDerive.modHead hh
  exact (wb1.setReg.startFail hcap hh).ite (wb1.setReg.startLock hcap hh)

theorem headStart (w : Within P b₀ b) {h : HeadId} {via : Via} {m : StartMeet} {bankMv : Nat} (hcap : P .capture) (hh : P (.head h)) :
    Within P b₀ (b.headStart h via m bankMv) := by
  unfold Block.headStart
  cases m with
  | isolate => exact w.bump.replyVia
  | stop => exact w.bump.replyVia.headStop hcap hh
  | alone =>
    dsimp only
    split
    · exact foldl (w.ite w.bump |>.bump.ite (w.ite w.bump)) fun _ _ v => v.replyVia
    · exact (w.ite w.bump).startGo hcap hh
  | start o =>
    dsimp only
    split
    · exact foldl (w.ite w.bump |>.bump.ite (w.ite w.bump)) fun _ _ v => v.replyVia
    · exact (w.ite w.bump).startGo hcap hh

theorem lockTimeout (w : Within P b₀ b) {h : HeadId} (hcap : P .capture) (hh : P (.head h)) : Within P b₀ (b.lockTimeout h) :=
  w.ite (w.startFail hcap hh)

theorem enterRunning (w : Within P b₀ b) {h : HeadId} (hcap : P .capture) (hh : P (.head h)) : Within P b₀ (b.enterRunning h) := by
  unfold Block.enterRunning
  exact ((((((w.modHead hh).outputsRest hh).setReg.raise.raise.armFirst hh).deriveCeiling).answerStart hh).ringStartHead).listEnd hcap hh

theorem headLocked (w : Within P b₀ b) {h : HeadId} {shorts : BitVec 20} {chain : Nat} (hcap : P .capture) (hh : P (.head h)) : Within P b₀
    (b.headLocked h shorts chain) :=
  w.ite ((w.lockTimeout hcap hh).ite ((w.startFail hcap hh).ite ((w.setReg.ite w.setReg.logFault.raise).enterRunning hcap hh)))

/-! ## Head service (R584 to R586) -/

theorem isolate (w : Within P b₀ b) {h : HeadId} {via : Via} {withRelease : Bool} (hcap : P .capture) (hh : P (.head h)) : Within P b₀
    (b.isolate h via withRelease) := by
  unfold Block.isolate
  extract_lets
  split
  · exact (w.bump.ite w).setReg.replyVia
  · exact ((w.bump.ite w).setReg.modHead hh).isolateDone hh
  · exact ((w.bump.ite w).setReg.modHead hh).headStop hcap hh

theorem release (w : Within P b₀ b) {h : HeadId} {via : Via} (hh : P (.head h)) : Within P b₀ (b.release h via) := by
  unfold Block.release
  exact (((w.setReg.modHead hh).logFault).raise.replyVia).ite (((w.setReg.foldl (fun _ _ v2 => v2.replyVia)).modHead hh).replyVia)

theorem modAux (w : Within P b₀ b) {f : Aux → Aux} : Within P b₀ (b.modAux f) := w.aside
theorem modChannel (w : Within P b₀ b) {n : AuxId} {f : AuxChannel → AuxChannel} : Within P b₀ (b.modChannel n f) := w.modAux
theorem modLane (w : Within P b₀ b) {l : Fin 2} {f : Lane → Lane} : Within P b₀ (b.modLane l f) := w.modAux
theorem statusSet (w : Within P b₀ b) {n : AuxId} {mask : Nat} : Within P b₀ (b.statusSet n mask) := w.setReg
theorem statusClear (w : Within P b₀ b) {n : AuxId} {i : Nat} : Within P b₀ (b.statusClear n i) := w.setReg

/-! ## Excitation (R315, R316) -/

theorem exciting (w : Within P b₀ b) {f : Block → Block} (hf : ∀ c, Within P b₀ c → Within P b₀ (f c)) : Within P b₀ (b.exciting f) := by
  unfold Block.exciting
  exact ((hf _ w)).ite ((hf _ w)).emit

theorem excitationOff (w : Within P b₀ b) {withOn : Bool} : Within P b₀ (b.excitationOff withOn) := by
  unfold Block.excitationOff
  extract_lets b1
  have wb1 : Within P b₀ b1 := w.exciting (fun _ v1 => v1.modAux)
  exact wb1.bump.ite wb1

theorem excitationOn (w : Within P b₀ b) : Within P b₀ b.excitationOn := w.exciting (fun _ v => v.modAux)
theorem overload (w : Within P b₀ b) {n : AuxId} : Within P b₀ (b.overload n) := w.ite w.modChannel.statusSet.raise
theorem overloadClear (w : Within P b₀ b) {n : AuxId} : Within P b₀ (b.overloadClear n) := w.ite (w.modChannel.ite w.modChannel.statusClear)

/-! ## Clamp (R321, R322, R349) -/

theorem clampEngage (w : Within P b₀ b) {n : AuxId} {high : Bool} : Within P b₀ (b.clampEngage n high) := by
  unfold Block.clampEngage
  split
  · exact w
  · exact w.modChannel.setReg.bump.statusSet.raise

theorem clampRelease (w : Within P b₀ b) {n : AuxId} : Within P b₀ (b.clampRelease n) := by
  unfold Block.clampRelease
  split
  · exact w.modChannel
  · exact w

theorem clampRecovered (w : Within P b₀ b) {n : AuxId} : Within P b₀ (b.clampRecovered n) := by
  unfold Block.clampRecovered
  split
  · exact w.modChannel.statusClear
  · exact w

theorem clampClear (w : Within P b₀ b) {n : AuxId} {withEngage : Bool} : Within P b₀ (b.clampClear n withEngage) := by
  unfold Block.clampClear
  split
  · exact w.bump
  · exact w.bump.ite w.setReg

theorem clampClearAll (w : Within P b₀ b) {engaging : BitVec 16} : Within P b₀ (b.clampClearAll engaging) := w.foldl (fun _ _ v => v.clampClear.ite v)

/-! ## Lead faults (R323, R324) -/

theorem filterReset (w : Within P b₀ b) {n : AuxId} : Within P b₀ (b.filterReset n) := w.modChannel
theorem wireBreak (w : Within P b₀ b) {n : AuxId} {sense : Bool} : Within P b₀ (b.wireBreak n sense) := w.ite w.modChannel.statusSet.bump.raise
theorem wireWhole (w : Within P b₀ b) {n : AuxId} : Within P b₀ (b.wireWhole n) := w.modChannel.statusClear.filterReset.ite w

/-! ## From codes to results (R326 to R329, R351) -/

theorem fifoWrite (w : Within P b₀ b) {n : AuxId} {v q : Int} {st : Nat} {at_ : Time} : Within P b₀ (b.fifoWrite n v q st at_) :=
  w.ite (w.modAux.bump.raise.ite w.modAux.raiseIf)

theorem publish (w : Within P b₀ b) {n : AuxId} {q : Int} {forced : Bool} {at_ : Time} : Within P b₀ (b.publish n q forced at_) := by
  unfold Block.publish
  split
  · exact w.setRegI.setRegI.setReg.modChannel.raise.fifoWrite.foldl (fun _ _ v3 => (v3.barResult.ite v3).boardResult.ite (v3.barResult.ite v3))

theorem admitSample (w : Within P b₀ b) {n : AuxId} {at_ : Time} {x : Int} : Within P b₀ (b.admitSample n at_ x) := by
  unfold Block.admitSample
  dsimp only
  refine ite ?_ (w.ite w.modChannel)
  split
  · exact w.publish
  · exact w.publish

theorem windowBoundary (w : Within P b₀ b) {n : AuxId} : Within P b₀ (b.windowBoundary n) := by
  unfold Block.windowBoundary
  extract_lets
  refine ite ?_ ?_
  · exact w
  · refine ite ?_ ?_
    · exact w.modChannel
    · split
      · exact w.modChannel.publish
      · split
        · exact w.modChannel.publish
        · exact w.modChannel.bump

/-! ## Conversions (R319, R337 to R343, R350) -/

theorem gainTake (w : Within P b₀ b) {n : AuxId} : Within P b₀ (b.gainTake n) := w.setReg.modChannel.filterReset.ite w

theorem executionEnd (w : Within P b₀ b) {l : Fin 2} {e : SeqEntry} : Within P b₀ (b.executionEnd l e) :=
  w.exciting (fun _ v => v.modLane.ite (v.modLane.modLane.modLane.ite v.modLane.modLane.modLane.setReg.raise))

theorem sampleTaken (w : Within P b₀ b) {l : Fin 2} {e : SeqEntry} {at_ : Time} {x : Int} : Within P b₀ (b.sampleTaken l e at_ x) := by
  unfold Block.sampleTaken
  extract_lets b1
  have wb1 : Within P b₀ b1 := w.modLane.admitSample
  exact wb1.executionEnd.ite wb1

theorem laneConversion (w : Within P b₀ b) {l : Fin 2} {code : BitVec 16} : Within P b₀ (b.laneConversion l code) := by
  unfold Block.laneConversion
  extract_lets
  split
  · exact w
  · refine ite ?_ ?_
    · exact w
    · refine ite ?_ ?_
      · exact w.modLane
      · refine ite ?_ ?_
        · exact w.modLane.bump
        · refine ite ?_ ?_
          · split
            · exact w.modLane
            · exact w.sampleTaken
          · exact w.sampleTaken

theorem contConversion (w : Within P b₀ b) {code : BitVec 16} : Within P b₀ (b.contConversion code) := by
  unfold Block.contConversion
  exact w.ite w.admitSample

theorem conversion (w : Within P b₀ b) {sar : Fin 2} {code : BitVec 16} : Within P b₀ (b.conversion sar code) := by
  unfold Block.conversion
  split
  · exact w.contConversion
  · exact w.contConversion
  · exact w.laneConversion

theorem chopReversal (w : Within P b₀ b) : Within P b₀ b.chopReversal := by
  unfold Block.chopReversal
  exact w.modAux.ite w.modAux.gainTake

theorem testPulse (w : Within P b₀ b) {moved : Bool} : Within P b₀ (b.testPulse moved) := by
  unfold Block.testPulse
  exact w.ite (w.modAux.wireBreak.ite w.modAux)

/-! ## The sequencer (R342 to R346) -/

theorem passStart (w : Within P b₀ b) {l : Fin 2} : Within P b₀ (b.passStart l) := by
  unfold Block.passStart
  exact w.ite (w.ite ((w.ite w.modLane.bump.raise).ite w.modLane))

theorem execution (w : Within P b₀ b) {l : Fin 2} : Within P b₀ (b.execution l) := by
  unfold Block.execution
  extract_lets
  split
  · exact w
  · exact w.ite (w.exciting (fun _ v => v.modLane.gainTake))

theorem seqRun (w : Within P b₀ b) : Within P b₀ b.seqRun := by
  unfold Block.seqRun
  exact (w.exciting (fun _ v => v.modAux)).setReg.setReg.raise.foldl (fun _ _ v3 => v3.replyVia)

theorem seqStart (w : Within P b₀ b) {via : Via} {m : StartMeet} : Within P b₀ (b.seqStart via m) := by
  unfold Block.seqStart
  extract_lets
  split
  · exact w.startMeets.replyVia
  · split
    · exact (w.startMeets.bump.ite w.startMeets).foldl (fun _ _ v1 => v1.replyVia)
    · split
      · exact w.startMeets.foldl (fun _ _ v2 => v2.replyVia)
      · exact w.startMeets.modAux
      · exact w.startMeets.modAux.seqRun.ite w.startMeets.modAux

theorem refStop (w : Within P b₀ b) : Within P b₀ b.refStop := w.ite w.modAux.setReg

theorem seqStop (w : Within P b₀ b) {via : Via} {m : StartMeet} : Within P b₀ (b.seqStop via m) := by
  unfold Block.seqStop
  extract_lets _ b2
  have wb2 : Within P b₀ b2 := by
    unfold b2
    split
    · exact w.startMeets.replyVia
    · exact w.startMeets
  split
  · exact wb2.modAux.replyVia
  · exact (wb2.foldl (fun _ _ v3 => v3.replyVia)).modAux.refStop.raise.replyVia
  · exact wb2.modAux.replyVia
  · exact wb2.replyVia

theorem seqStopped (w : Within P b₀ b) : Within P b₀ b.seqStopped := by
  unfold Block.seqStopped
  exact (((w.exciting (fun _ v => v.modAux)).refStop).raise).ite w

theorem refBufferOn (w : Within P b₀ b) : Within P b₀ b.refBufferOn := w.modAux

theorem refBufferReady (w : Within P b₀ b) : Within P b₀ b.refBufferReady := by
  unfold Block.refBufferReady
  refine ite ?_ ?_
  · exact w
  · exact w.modAux.setReg.raise.seqRun.ite w.modAux.setReg.raise

/-! ## The FIFO (R352, R446) -/

theorem fifoRead (w : Within P b₀ b) {r : Route} : Within P b₀ (b.fifoRead r) := by
  unfold Block.fifoRead
  split
  · exact w.reply
  · exact w.modAux.reply

theorem fifoBarReadPart (w : Within P b₀ b) {off size : Nat} : Within P b₀ (b.fifoBarReadPart off size) := by
  unfold Block.fifoBarReadPart
  split
  · exact w.emit
  · exact w.modAux.emit

theorem fifoBarRead (w : Within P b₀ b) : Within P b₀ b.fifoBarRead := w.fifoBarReadPart
theorem fifoFlush (w : Within P b₀ b) : Within P b₀ b.fifoFlush := w.modAux

/-! ## Echo outputs (R331, R332) -/

theorem echoPeriod (w : Within P b₀ b) {e : EchoId} : Within P b₀ (b.echoPeriod e) := by
  unfold Block.echoPeriod
  extract_lets
  split
  · exact w.modAux.emit
  · exact w.modAux.emit
  · exact w.modAux.emit

theorem modHost (w : Within P b₀ b) {f : HostPort → HostPort} : Within P b₀ (b.modHost f) := w.aside
theorem modQueue (w : Within P b₀ b) {q : QueueId} {f : Queue → Queue} : Within P b₀ (b.modQueue q f) := w.modHost

/-! ## Interrupts (R453 to R455) -/

theorem msixSend (w : Within P b₀ b) {v : Fin 64} : Within P b₀ (b.msixSend v) := w.modHost.ite (w.ite w.modHost.emit)

theorem fireCause (w : Within P b₀ b) {n : Nat} : Within P b₀ (b.fireCause n) := by
  unfold Block.fireCause
  exact w.modHost.ite w.modHost.msixSend

theorem clearCauses (w : Within P b₀ b) {mask firing : Nat} : Within P b₀ (b.clearCauses mask firing) := w.modHost

/-! ## Queues (R447 to R452) -/

theorem queueProgress (w : Within P b₀ b) {q : QueueId} : Within P b₀ (b.queueProgress q) := by
  unfold Block.queueProgress
  exact w.modQueue.fireCause.ite w.modQueue

theorem queuePut (w : Within P b₀ b) {q : QueueId} {channel : Nat} {slot : List Byte} : Within P b₀ (b.queuePut q channel slot) := by
  unfold Block.queuePut
  exact (w.emit.emit.ite w.emit).setReg.modQueue.emit.queueProgress

theorem coalesceTimer (w : Within P b₀ b) {q : QueueId} : Within P b₀ (b.coalesceTimer q) := by
  unfold Block.coalesceTimer
  extract_lets
  split
  · exact w
  · exact w.ite w.modQueue.fireCause

theorem stallTimer (w : Within P b₀ b) {q : QueueId} {withMove : Bool} : Within P b₀ (b.stallTimer q withMove) := by
  unfold Block.stallTimer
  exact w.ite (w.bump.ite w.modQueue.bump.raise)

theorem queueFail (w : Within P b₀ b) {q : QueueId} : Within P b₀ (b.queueFail q) := w.modQueue.raise.fireCause

theorem queueMarks (w : Within P b₀ b) {q : QueueId} {high low : Nat} : Within P b₀ (b.queueMarks q high low) := by
  unfold Block.queueMarks
  exact w.ite w.modQueue.raise

theorem modRing (w : Within P b₀ b) {f : Ring → Ring} : Within P b₀ (b.modRing f) := w.aside
theorem modSpan (w : Within P b₀ b) {s : SpanId} {f : Span → Span} : Within P b₀ (b.modSpan s f) := w.modRing

/-! ## Frames (R406, R407, R410) -/

theorem transmit (w : Within P b₀ b) {s : SpanId} {f : Frame} : Within P b₀ (b.transmit s f) := by
  unfold Block.transmit
  exact w.modSpan.emit

theorem sendFrame (w : Within P b₀ b) {s : SpanId} {f : Frame} : Within P b₀ (b.sendFrame s f) := w.ite (w.modSpan.ite w.transmit)

theorem sendWaiting (w : Within P b₀ b) {s : SpanId} : Within P b₀ (b.sendWaiting s) := by
  unfold Block.sendWaiting
  exact w.modSpan.foldl (fun _ _ v1 => v1.transmit)

theorem hostWriteTo (w : Within P b₀ b) {p address : Nat} {bytes : List Byte} : Within P b₀ (b.hostWriteTo p address bytes) := w.emit.ite w.sendFrame
theorem hostReadFrom (w : Within P b₀ b) {p address n : Nat} : Within P b₀ (b.hostReadFrom p address n) := w.emit.ite w.sendFrame

theorem ringWriteTo (w : Within P b₀ b) {p address : Nat} {bytes : List Byte} (hmem : P .mem) : Within P b₀ (b.ringWriteTo p address bytes) :=
  (w.memWrite hmem).ite w.sendFrame

theorem ringReadFrom (w : Within P b₀ b) {p address n : Nat} : Within P b₀ (b.ringReadFrom p address n) := w.ite w.sendFrame
theorem modDma (w : Within P b₀ b) {c : ChanId} {f : DmaChannel → DmaChannel} : Within P b₀ (b.modDma c f) := w.aside

theorem setDesc (w : Within P b₀ b) {shadow : Bool} {c : ChanId} {d : Desc} : Within P b₀ (b.setDesc shadow c d) := by
  unfold Block.setDesc
  exact w.foldl (fun _ _ v => v.setRegI)

theorem setShadowState (w : Within P b₀ b) {c : ChanId} {st : Nat} : Within P b₀ (b.setShadowState c st) := w.setReg
theorem setActiveState (w : Within P b₀ b) {c : ChanId} {st kind : Nat} : Within P b₀ (b.setActiveState c st kind) := w.setReg

/-! ## The checker (R391) -/

theorem shadowLoad (w : Within P b₀ b) {c : ChanId} {ctrl : Nat} {bar : Bool} : Within P b₀ (b.shadowLoad c ctrl bar).2 := by
  unfold Block.shadowLoad
  dsimp only
  split
  · exact w.setReg.setShadowState
  · exact w.bump.setReg.setShadowState.ite w.bump

theorem shadowEmpty (w : Within P b₀ b) {c : ChanId} : Within P b₀ (b.shadowEmpty c) := w.setShadowState.ite w

/-! ## Go and stop (R388, R389, R394) -/

theorem admitPending (w : Within P b₀ b) {c : ChanId} : Within P b₀ (b.admitPending c) := by
  unfold Block.admitPending
  exact w.setReg.modDma.ite w

theorem activate (w : Within P b₀ b) {c : ChanId} : Within P b₀ (b.activate c) := by
  unfold Block.activate
  exact w.setDesc.setShadowState.modDma.admitPending

theorem takeShadow (w : Within P b₀ b) {c : ChanId} : Within P b₀ (b.takeShadow c) := by
  unfold Block.takeShadow
  exact w.ite w.activate

theorem dmaGo (w : Within P b₀ b) {c : ChanId} : Within P b₀ (b.dmaGo c) := by
  unfold Block.dmaGo
  exact w.modDma.activate.ite w.modDma

theorem dmaStop (w : Within P b₀ b) {c : ChanId} : Within P b₀ (b.dmaStop c) := by
  unfold Block.dmaStop
  exact w.ite (w.modDma.ite w.modDma.setActiveState.modDma)

theorem dmaBoth (w : Within P b₀ b) {c : ChanId} : Within P b₀ (b.dmaBoth c) := w.bump.dmaStop

theorem dmaRequest (w : Within P b₀ b) {c : ChanId} : Within P b₀ (b.dmaRequest c) := by
  unfold Block.dmaRequest
  exact w.ite (w.dmaGo.ite ((w.dmaGo.ite w).bump.ite (w.dmaGo.ite w).setReg.admitPending))

theorem dmaStopTask (w : Within P b₀ b) : Within P b₀ b.dmaStopTask := w.foldl (fun _ _ v => v.dmaStop.ite v)

/-! ## Ends, fences, errors (R397 to R399) -/

theorem descEnded (w : Within P b₀ b) {c : ChanId} : Within P b₀ (b.descEnded c) := by
  unfold Block.descEnded
  exact w.setActiveState.bump.raise.aside.modDma.takeShadow

theorem descLastBeat (w : Within P b₀ b) {c : ChanId} : Within P b₀ (b.descLastBeat c) := by
  unfold Block.descLastBeat
  exact w.modDma.ite w.descEnded

theorem fenceProven (w : Within P b₀ b) {c : ChanId} : Within P b₀ (b.fenceProven c) := by
  unfold Block.fenceProven
  extract_lets
  refine ite ?_ ?_
  · exact w
  · exact w.setReg.modDma.raise.descEnded.ite w.setReg.modDma.raise

theorem dmaFence (w : Within P b₀ b) {c : ChanId} : Within P b₀ (b.dmaFence c) := by
  unfold Block.dmaFence
  exact w.modDma.fenceProven.ite w.modDma

theorem dmaFenceTask (w : Within P b₀ b) : Within P b₀ b.dmaFenceTask := w.foldl (fun _ _ v => v.dmaFence.ite v)

theorem dmaError (w : Within P b₀ b) {c : ChanId} {kind address : Nat} {withStop : Bool} : Within P b₀ (b.dmaError c kind address withStop) :=
  w.modDma.setReg.bump.queueFail.ite (w.ite w.setActiveState.bump.setReg.logFault.raise.modDma.takeShadow)

theorem hostLost (w : Within P b₀ b) : Within P b₀ b.hostLost :=
  w.foldl (fun _ _ v => by
    extract_lets
    split
    · exact v.dmaError.ite v
    · exact v)

theorem privilegedCut (w : Within P b₀ b) : Within P b₀ b.privilegedCut := w.foldl (fun _ _ v => v.ite v.setActiveState.bump.raise.modDma)

theorem linkFetched (w : Within P b₀ b) {c : ChanId} : Within P b₀ (b.linkFetched c) := by
  unfold Block.linkFetched
  extract_lets _ b1 b2
  have wb1 : Within P b₀ b1 := w.modDma
  have wb2 : Within P b₀ b2 := by
    unfold b2
    refine ite wb1 ?_
    split
    · exact wb1.setDesc
    · exact wb1.setShadowState.bump
  exact w.ite (wb2.takeShadow.ite wb2)

/-! ## Record streams (R396, R416, R451) -/

theorem slotDone (w : Within P b₀ b) {c : ChanId} {slot : List Byte} : Within P b₀ (b.slotDone c slot) := by
  unfold Block.slotDone
  exact (w.queuePut.ite w.sendFrame).bump.raise.aside.modDma

theorem streamBeat (w : Within P b₀ b) {c : ChanId} (hcap : P .capture) : Within P b₀ (b.streamBeat c) := by
  unfold Block.streamBeat
  extract_lets
  split
  · exact w
  · exact (dite (fun _ => w.modPart hcap) w).modDma.ite (dite (fun _ => w.modPart hcap) w).slotDone

theorem refill (w : Within P b₀ b) {n : Nat} (hmem : P .mem) (hcap : P .capture) : Within P b₀ (Block.refill n b) := by
  induction n generalizing b with
  | zero => exact w
  | succ n ih =>
    unfold Block.refill
    split
    · exact w
    · exact (ih ((w.readoutPut hmem hcap).modCapture hcap)).ite w

theorem streamRelease (w : Within P b₀ b) {c : ChanId} (hmem : P .mem) (hcap : P .capture) : Within P b₀ (b.streamRelease c) := by
  unfold Block.streamRelease
  extract_lets b1
  have wb1 : Within P b₀ b1 := w.modDma
  refine dite (fun _ => wb1.modPart hcap) ?_
  split
  · exact wb1
  · split
    · exact wb1
    · exact (wb1.modCapture hcap).sendFrame.refill hmem hcap

theorem abandonSlot (w : Within P b₀ b) {c : ChanId} : Within P b₀ (b.abandonSlot c) := w.modDma.ite w
theorem streamRestart (w : Within P b₀ b) {c : ChanId} : Within P b₀ (b.streamRestart c) := w.modDma

/-! ## Pacing and the choice of a beat (R393 to R395) -/

theorem fifoTake (w : Within P b₀ b) {n : Nat} : Within P b₀ (b.fifoTake n).2 := by
  unfold Block.fifoTake
  dsimp only
  exact w.modAux

theorem descBeat (w : Within P b₀ b) {c : ChanId} {data : List Byte} (hmem : P .mem) : Within P b₀ (b.descBeat c data) := by
  unfold Block.descBeat
  extract_lets d x n at_ s t
  split
  next bytes b1 heq =>
    have wb1 : Within P b₀ b1 := by
      split at heq
      · cases heq; exact w
      · cases heq; exact w.hostReadFrom
      · split at heq
        · cases heq; exact w
        · cases heq; exact w.ringReadFrom
      · split at heq
        · exact (congrArg (fun x => Within P b₀ x.2) heq).mp w.fifoTake
        · cases heq; exact w
    extract_lets bytes b2 b3 b4
    have wb2 : Within P b₀ b2 := by
      unfold b2
      split
      · exact wb1.memWrite hmem
      · exact wb1.hostWriteTo
      · exact wb1.ringWriteTo hmem
      · exact wb1.emit
    have wb3 : Within P b₀ b3 := wb2.modDma
    have wb4 : Within P b₀ b4 := wb3.modDma.admitPending.ite wb3
    exact wb3.modDma.ite (wb4.modDma.ite (wb4.modDma.ite wb4.descLastBeat))

theorem dmaBeat (w : Within P b₀ b) {blocked : BitVec 32} {fill0 fill1 : Nat} {data : List Byte} (hmem : P .mem) (hcap : P .capture) :
    Within P b₀ (b.dmaBeat blocked fill0 fill1 data) := by
  unfold Block.dmaBeat
  refine ite w ?_
  extract_lets _ b1 _ pick b2 b3
  have wb2 : Within P b₀ b2 := (w.foldl fun _ _ v => v.queueMarks).foldl fun _ _ v => v.modDma.ite v
  have wb3 : Within P b₀ b3 := wb2.foldl fun _ _ v => v.ite v.modDma
  cases pick with
  | none => exact wb3
  | some c => exact (wb3.streamBeat hcap).ite (wb3.descBeat hmem)

/-! ## Routing (R415 to R418) -/

theorem reroute (w : Within P b₀ b) : Within P b₀ b.reroute := by
  unfold Block.reroute
  refine w.foldl fun c h wc => ?_
  split
  extract_lets b1 _ b2
  have wb1 : Within P b₀ b1 := by
    unfold b1
    refine ite wc ?_
    split
    · exact wc.setReg.setReg
    · exact wc
  exact wb1.setReg.setReg.modDma.ite wb1.setReg.setReg

theorem pathHoldEnd (w : Within P b₀ b) {h : HeadId} : Within P b₀ (b.pathHoldEnd h) := by
  unfold Block.pathHoldEnd
  exact w.modDma.streamRestart.ite w

theorem spanFault (w : Within P b₀ b) (hkey : P .keystone) (haxes : ∀ x, P (.axis x)) : Within P b₀ b.spanFault := w.sendRing.keyOutside hkey haxes

theorem coincides (w : Within P b₀ b) {at_ : Option Time} : Within P b₀ (b.coincides at_) := by
  unfold Block.coincides
  split
  · exact w.bump.ite w
  · exact w

theorem chooseAbutments (w : Within P b₀ b) (hkey : P .keystone) (haxes : ∀ x, P (.axis x)) : Within P b₀ b.chooseAbutments := by
  unfold Block.chooseAbutments
  extract_lets _ _ _ _ _ _ b2 b3
  have wb2 : Within P b₀ b2 := w.setReg.setReg.reroute.hostLost
  have wb3 : Within P b₀ b3 := wb2.coincides.modRing.ite wb2
  exact wb3.ite (((wb3.raise.spanFault hkey haxes).deriveCeiling).ite (((wb3.foldl (fun _ _ v3 => v3.streamRestart)).raise.spanFault hkey
      haxes).deriveCeiling))

theorem offerOf (w : Within P b₀ b) {p : Nat} {on : Bool} (hkey : P .keystone) (haxes : ∀ x, P (.axis x)) : Within P b₀ (b.offerOf p on) :=
  w.modRing.chooseAbutments hkey haxes

theorem failoverSet (w : Within P b₀ b) {on : Bool} (hkey : P .keystone) (haxes : ∀ x, P (.axis x)) : Within P b₀ (b.failoverSet on) :=
  w.ite (w.modRing.chooseAbutments hkey haxes)

theorem offer (w : Within P b₀ b) {on : Bool} (hkey : P .keystone) (haxes : ∀ x, P (.axis x)) : Within P b₀ (b.offer on) := by
  unfold Block.offer
  exact (w.logFault.raise.ite w).sendRing.offerOf hkey haxes

/-! ## The state of ring time (R64, R424) -/

theorem setTimeState (w : Within P b₀ b) {n : Nat} (hheads : ∀ g, P (.head g)) : Within P b₀ (b.setTimeState n) := by
  unfold Block.setTimeState
  exact w.setReg.ite (w.setReg.foldl (fun _ _ v1 => (v1.modHead (hheads _)).ite v1))

theorem holdover (w : Within P b₀ b) (hheads : ∀ g, P (.head g)) : Within P b₀ b.holdover := by
  unfold Block.holdover
  exact (((w.setTimeState hheads).modRing).raise).ite w

theorem withTimePath (w : Within P b₀ b) {f : Block → Block} (hheads : ∀ g, P (.head g)) (hf : ∀ c, Within P b₀ c → Within P b₀ (f c)) : Within P b₀
    (b.withTimePath f) := by
  unfold Block.withTimePath
  exact (((hf _ w)).holdover hheads).ite ((hf _ w))

/-! ## Topology -/

theorem setTopology (w : Within P b₀ b) {wrap : Option Nat} : Within P b₀ (b.setTopology wrap) := by
  unfold Block.setTopology
  exact w.modRing.setReg.raiseIf.raiseIf.reroute

theorem closedCount (w : Within P b₀ b) {n : Nat} : Within P b₀ (b.closedCount n) := by
  unfold Block.closedCount
  refine ite ?_ ?_
  · exact w
  · exact (w.modRing.setReg.sendRing.ite w.modRing).ite (w.modRing.setReg.sendRing.ite w.modRing).logFault.raise

theorem deriveBase (w : Within P b₀ b) : Within P b₀ b.deriveBase := by
  unfold Block.deriveBase
  exact w.ite w.setReg

theorem number (w : Within P b₀ b) {p : Nat} : Within P b₀ (b.number p) := by
  unfold Block.number
  exact w.aside.setReg.deriveBase

theorem numberBy (w : Within P b₀ b) {s : SpanId} {neighbour : Nat} : Within P b₀ (b.numberBy s neighbour) := by
  unfold Block.numberBy
  exact w.ite (w.number.ite (w.number.ite (w.ite w.number)))

theorem numberFrom (w : Within P b₀ b) {reach : List RootInfo} {configured : Nat} : Within P b₀ (b.numberFrom reach configured) := by
  unfold Block.numberFrom
  refine ite ?_ ?_
  · exact w
  · split
    · exact w.number
    · exact w.ite w.number
    · exact w

/-! ## Spans (R409 to R411) -/

theorem spanLost (w : Within P b₀ b) {s : SpanId} (hkey : P .keystone) (haxes : ∀ x, P (.axis x)) : Within P b₀ (b.spanLost s) := by
  unfold Block.spanLost
  refine ite ?_ ?_
  · exact w
  · exact w.setReg.setReg.setReg.modSpan.ite ((w.setReg.setReg.setReg.modSpan.coincides.modRing.bump.raise.logFault.setTopology.sendRing.ite
      w.setReg.setReg.setReg.modSpan.coincides.modRing.bump.raise.logFault).reroute.spanFault hkey haxes)

theorem spanDown (w : Within P b₀ b) {s : SpanId} (hkey : P .keystone) (hheads : ∀ g, P (.head g)) (haxes : ∀ x, P (.axis x)) : Within P b₀
    (b.spanDown s) :=
  w.withTimePath hheads (fun _ v => v.spanLost hkey haxes)

theorem spanTraining (w : Within P b₀ b) {s : SpanId} : Within P b₀ (b.spanTraining s) := w.setReg.ite w

theorem spanRetrain (w : Within P b₀ b) {s : SpanId} {withDown : Bool} (hkey : P .keystone) (hheads : ∀ g, P (.head g)) (haxes : ∀ x, P (.axis x)) :
    Within P b₀ (b.spanRetrain s withDown) :=
  ((w.bump.ite w).spanDown hkey hheads haxes).spanTraining

theorem trainingComplete (w : Within P b₀ b) {s : SpanId} {lanes : BitVec 5} {neighbour : Option PierId} {crossed closes : Bool}
    (hheads : ∀ g, P (.head g)) : Within P b₀ (b.trainingComplete s lanes neighbour crossed closes) := by
  unfold Block.trainingComplete
  extract_lets _ _ _ b2 b3 b4 b5
  have wb3 : Within P b₀ b3 := w.setReg.setReg.modSpan.setReg
  have wb4 : Within P b₀ b4 := by
    unfold b4
    cases neighbour with
    | none => exact wb3
    | some p => exact wb3.numberBy
  exact w.ite (w.setReg.logFault.ite (w.setReg.ite ((wb4.raise.withTimePath hheads fun _ v =>
    v.setTopology.closedCount.sendRing.ite v.reroute).deriveCeiling)))

theorem laneFailure (w : Within P b₀ b) {s : SpanId} {lane : Fin 5} {withSpare : Bool} (hkey : P .keystone) (hheads : ∀ g, P (.head g))
    (haxes : ∀ x, P (.axis x)) : Within P b₀ (b.laneFailure s lane withSpare) :=
  w.ite (w.modSpan.setReg.ite (w.ite ((w.bump.spanDown hkey hheads haxes).ite ((w.spanDown hkey hheads haxes).ite w.modSpan))))

theorem spareInService (w : Within P b₀ b) {s : SpanId} (hkey : P .keystone) (haxes : ∀ x, P (.axis x)) : Within P b₀ (b.spareInService s) := by
  unfold Block.spareInService
  split
  · exact w.modSpan.setReg.setReg.bump.raise.logFault.sendWaiting.spanFault hkey haxes
  · exact w

/-! ## Frames and messages (R406 to R408, R417) -/

theorem ringDma (w : Within P b₀ b) {src : Nat} {d : RingDma} {bytes : List Byte} (hmem : P .mem) : Within P b₀ (b.ringDma src d bytes) := by
  unfold Block.ringDma
  split
  · exact w.emit.ite w
  · exact w.emit.sendFrame.ite w
  · exact w.memWrite hmem
  · exact w.sendFrame

theorem dataFrame (w : Within P b₀ b) {s : SpanId} {f : Frame} {seq : Nat} {crcOk : Bool} (hmem : P .mem) (hcap : P .capture) : Within P b₀
    (b.dataFrame s f seq crcOk) := by
  unfold Block.dataFrame
  refine ite ?_ ?_
  · exact w
  · refine ite ?_ ?_
    · exact w.emit
    · refine ite ?_ ?_
      · exact w.modSpan.sendFrame
      · refine ite ?_ ?_
        · exact w.modSpan.foldl (fun _ _ v1 => v1.ringRecord hmem hcap)
        · split
          · exact w.modSpan.ite (w.modSpan.ringDma hmem)
          · exact w.modSpan.answerSlot
          · exact w.modSpan

theorem replayRequest (w : Within P b₀ b) {s : SpanId} {seq : Nat} (hkey : P .keystone) (hheads : ∀ g, P (.head g)) (haxes : ∀ x, P (.axis x)) :
    Within P b₀ (b.replayRequest s seq) :=
  w.ite ((w.bump.modSpan.spanDown hkey hheads haxes).ite (w.bump.modSpan.foldl (fun _ _ v1 => v1.emit)))

theorem ringDmaFrame (w : Within P b₀ b) {src : PierId} {d : RingDma} {bytes : List Byte} (hmem : P .mem) : Within P b₀
    (b.ringDmaFrame src d bytes) :=
  w.ringDma hmem

theorem ackFrame (w : Within P b₀ b) {h : HeadId} {seq : Nat} {marker : Bool} (hmem : P .mem) (hcap : P .capture) :
    Within P b₀ (b.ackFrame h seq marker) := by
  unfold Block.ackFrame
  dsimp only
  split
  · exact w
  · exact (w.foldl fun _ _ v => v.streamRelease hmem hcap).ite w

/-! ## Ring time (R420 to R425, R431) -/

theorem timeSyncSend (w : Within P b₀ b) : Within P b₀ b.timeSyncSend := w.sendRing.ite w

theorem timeSync (w : Within P b₀ b) {s : SpanId} {offset : Int} {withTimeout : Bool} (hheads : ∀ g, P (.head g)) : Within P b₀
    (b.timeSync s offset withTimeout) := by
  unfold Block.timeSync
  extract_lets
  refine ite ?_ ?_
  · exact w
  · split
    · exact ((((((w.bump.ite w).setRegI.modRing.setTimeState hheads).ite (w.bump.ite w).setRegI.modRing).setTimeState hheads).modRing).raise).ite
        (((w.bump.ite w).setRegI.modRing.setTimeState hheads).ite (w.bump.ite w).setRegI.modRing)
    · exact (((w.bump.ite w).setRegI.modRing.setTimeState hheads).ite (w.bump.ite w).setRegI.modRing)

theorem hopDelayExchange (w : Within P b₀ b) {s : SpanId} {mean : Int} : Within P b₀ (b.hopDelayExchange s mean) := w.ite w.modSpan

theorem holdoverTimeout (w : Within P b₀ b) (hheads : ∀ g, P (.head g)) : Within P b₀ b.holdoverTimeout := by
  unfold Block.holdoverTimeout
  split
  · exact (w.holdover hheads).ite w
  · exact w

theorem takeTime (w : Within P b₀ b) {offset : Int} (hcap : P .capture) (hheads : ∀ g, P (.head g)) : Within P b₀ (b.takeTime offset) := by
  unfold Block.takeTime
  extract_lets b1 b2 old b3
  have wb1 : Within P b₀ b1 := w.setTimeState hheads
  have wb2 : Within P b₀ b2 := wb1.bump.raise
  have wb3 : Within P { b2 with now := old - BitVec.ofInt 64 offset } b3 := (refl P _).foldl fun _ _ v =>
    ((v.armScheduled (hheads _)).listEnd hcap (hheads _)).ite v
  exact wb1.ite (wb1.modRing.ite (wb2.atTime wb3))

theorem timeRegained (w : Within P b₀ b) {offset : Int} (hcap : P .capture) (hheads : ∀ g, P (.head g)) : Within P b₀ (b.timeRegained offset) :=
  (w.takeTime hcap hheads).ite w

theorem timeLatch (w : Within P b₀ b) {stamp : Time} : Within P b₀ (b.timeLatch stamp) := w.setReg

theorem electSource (w : Within P b₀ b) {prio : List (Nat × Nat)} (hheads : ∀ g, P (.head g)) : Within P b₀ (b.electSource prio) := by
  unfold Block.electSource
  extract_lets _ _ b1 _ _
  have wb1 : Within P b₀ b1 := w.coincides.modRing
  exact (wb1.setReg.raiseIf.setTimeState hheads).ite (((wb1.setReg.raiseIf.setTimeState hheads).raise).ite ((wb1.setReg.raiseIf.holdover hheads).ite
      wb1.setReg.raiseIf))

/-! ## Epochs (R427 to R431) -/

theorem capChanged (w : Within P b₀ b) {at_ : Time} {p cap : Nat} : Within P b₀ (b.capChanged at_ p cap) := by
  unfold Block.capChanged
  exact w.aside.ite w.aside.aside.setReg

theorem capMessage (w : Within P b₀ b) {p : PierId} {cap : Nat} {left : Time} : Within P b₀ (b.capMessage p cap left) := w.capChanged

theorem capsOf (w : Within P b₀ b) {members : List Nat} {told : List (Nat × Nat)} : Within P b₀ (b.capsOf members told) := by
  unfold Block.capsOf
  exact w.aside.setReg

/-! ## The position source as the other piers know it (R17, R281, R282) -/

theorem sourceTo (w : Within P b₀ b) {p : Nat} (hkey : P .keystone) (hheads : ∀ g, P (.head g)) (haxes : ∀ x, P (.axis x)) : Within P b₀
    (b.sourceTo p) :=
  w.ite ((((w.pageDrop hkey hheads haxes).setReg).setReg).setSourcePier.modRing.joinPage hheads)

theorem takePosition (w : Within P b₀ b) {position speed : Int} {valid : Bool} (hheads : ∀ g, P (.head g)) : Within P b₀
    (b.takePosition position speed valid) := by
  unfold Block.takePosition
  exact w.modRing.ite (w.modRing.foldl (fun _ _ v1 => (v1.owe (hheads _)).ite v1))

/-! ## Ring-wide writes (R429) -/

theorem wideApply (w : Within P b₀ b) {o : RingWide} {v writer : Nat} (hkey : P .keystone) (hheads : ∀ g, P (.head g)) (haxes : ∀ x, P (.axis x)) :
    Within P b₀ (b.wideApply o v writer) := by
  unfold Block.wideApply
  split
  · exact w.setReg
  · exact w.sourceTo hkey hheads haxes
  · exact (w.setReg.ite w).modRing

theorem wideOrder (w : Within P b₀ b) {o : RingWide} {v writer : Nat} (hkey : P .keystone) (hheads : ∀ g, P (.head g)) (haxes : ∀ x, P (.axis x)) :
    Within P b₀ (b.wideOrder o v writer) :=
  (w.wideApply hkey hheads haxes).sendRing

theorem wideWrite (w : Within P b₀ b) {o : RingWide} {v : Nat} {via : Via} (hkey : P .keystone) (hheads : ∀ g, P (.head g))
    (haxes : ∀ x, P (.axis x)) : Within P b₀ (b.wideWrite o v via) :=
  ((w.wideOrder hkey hheads haxes).replyVia).ite w.modRing.sendRing

theorem wideTold (w : Within P b₀ b) {o : RingWide} {v : Nat} {writer : PierId} (hkey : P .keystone) (hheads : ∀ g, P (.head g))
    (haxes : ∀ x, P (.axis x)) : Within P b₀ (b.wideTold o v writer) := by
  unfold Block.wideTold
  extract_lets b1
  have wb1 : Within P b₀ b1 := w.wideApply hkey hheads haxes
  refine ite ?_ ?_
  · exact wb1
  · split
    · exact wb1
    · split
      · exact wb1
      · exact wb1.modRing.replyVia

theorem wideCut (w : Within P b₀ b) : Within P b₀ b.wideCut := w.modRing.foldl (fun _ _ v => v.replyVia)

theorem epochTake (w : Within P b₀ b) {i : EpochInfo} (hkey : P .keystone) (hheads : ∀ g, P (.head g)) (haxes : ∀ x, P (.axis x)) : Within P b₀
    (b.epochTake i) := by
  unfold Block.epochTake
  extract_lets _ _ _ _ _ _ b3 _ _ _ _ b7 _ _ _ _
  have wb3 : Within P b₀ b3 := (w.closedCount.ite w).wideCut.modRing.setReg.setReg.setReg
  have wb7 : Within P b₀ b7 := (wb3.bump.raise.setReg.raise.ite wb3.bump.raise).raiseIf.electSource hheads
  exact (((wb7.modRing.ite (wb7.modRing.sourceTo hkey hheads haxes)).capsOf.setTopology.chooseAbutments hkey haxes).keyOutside hkey
      haxes).ringStartCheck

theorem wideTake (w : Within P b₀ b) {x : WideState} (hkey : P .keystone) (hheads : ∀ g, P (.head g)) (haxes : ∀ x, P (.axis x)) :
    Within P b₀ (b.wideTake x) := by
  unfold Block.wideTake
  exact (w.setReg.modRing.setReg.sourceTo hkey hheads haxes).joinPage hheads

theorem epochForm (w : Within P b₀ b) {i : EpochInfo} (hkey : P .keystone) (hheads : ∀ g, P (.head g)) (haxes : ∀ x, P (.axis x)) : Within P b₀
    (b.epochForm i) := by
  unfold Block.epochForm
  exact w.numberFrom.ite (w.numberFrom.withTimePath hheads (fun _ v1 => ((v1.wideTake hkey hheads haxes).ite v1).epochTake hkey hheads haxes))

theorem epochChange (w : Within P b₀ b) {i : EpochInfo} {withStart : Bool} (hkey : P .keystone) (hheads : ∀ g, P (.head g))
    (haxes : ∀ x, P (.axis x)) : Within P b₀ (b.epochChange i withStart) := by
  unfold Block.epochChange
  exact (w.bump.ite w).epochForm hkey hheads haxes

theorem epochJoin (w : Within P b₀ b) {i : EpochInfo} {other : BitVec 64} {authority : Bool} {offset : Int} {both : Bool} (hkey : P .keystone)
    (hcap : P .capture) (hheads : ∀ g, P (.head g)) (haxes : ∀ x, P (.axis x)) : Within P b₀ (b.epochJoin i other authority offset both) := by
  unfold Block.epochJoin
  exact (((w.bump.ite w).withTimePath hheads (fun _ v1 => v1.epochTake hkey hheads haxes)).modRing).ite ((((w.bump.ite w).withTimePath hheads (fun _
      v2 => (v2.wideTake hkey hheads haxes).epochTake hkey hheads haxes)).modRing).setRegI.setReg.setReg.sendRing.raise.takeTime hcap hheads)

/-! ## The ring-wide start (R426) -/

theorem startMembers (w : Within P b₀ b) {s : Time} {via : Option Via} {hs : List HeadId} {waits : List Nat} {banks : List Nat} (hcap : P .capture)
    (hheads : ∀ g, P (.head g)) : Within P b₀ (b.startMembers s via hs waits banks) := by
  unfold Block.startMembers
  exact (w.modRing.foldl (fun _ _ v1 => v1.setReg.startGo hcap (hheads _))).ringStartCheck

theorem startTold (w : Within P b₀ b) {s : Time} {banks : List Nat} (hcap : P .capture) (hheads : ∀ g, P (.head g)) : Within P b₀
    (b.startTold s banks) :=
  w.ite (w.startMembers hcap hheads)

theorem startedTold (w : Within P b₀ b) {origin : PierId} {failed : Option HeadId} : Within P b₀ (b.startedTold origin failed) := by
  unfold Block.startedTold
  split
  · exact w
  · refine ite w ?_
    cases failed with
    | none => exact w.modRing.ringStartCheck
    | some h => exact w.setReg.modRing.ringStartCheck

theorem ringStart (w : Within P b₀ b) {s : Time} {via : Via} {others : Option (PierId × HeadId × AbortCode)} {epoch : Bool} {banks : List Nat}
    (hcap : P .capture) (hheads : ∀ g, P (.head g)) : Within P b₀ (b.ringStart s via others epoch banks) := by
  unfold Block.ringStart
  refine ite w.replyVia ?_
  dsimp only
  split
  · exact (w.bump.ite w).setReg.raise.replyVia
  · split
    · exact w.setReg.raise.replyVia
    · exact w.bump.raise.replyVia.ite (w.sendRing.startMembers hcap hheads)

/-! ## Messages (R408, R417) -/

theorem takeMessage (w : Within P b₀ b) {origin : PierId} {m : RingMsg} {banks : List Nat} (hkey : P .keystone) (hcap : P .capture)
    (hheads : ∀ g, P (.head g)) (haxes : ∀ x, P (.axis x)) : Within P b₀ (b.takeMessage origin m banks) := by
  unfold Block.takeMessage
  split
  · exact w.withTimePath hheads (fun _ v => v.setTopology)
  · exact w.modRing
  · exact w.setReg
  · exact w.receivePage hheads
  · exact w.keyOutside hkey haxes
  · exact w.modRing.ite w
  · exact w.offerOf hkey haxes
  · exact w.failoverSet hkey haxes
  · exact (w.wideOrder hkey hheads haxes).ite w
  · exact w.wideTold hkey hheads haxes
  · exact (w.ite (w.sourceTo hkey hheads haxes)).ite ((w.sourceTo hkey hheads haxes).ite w)
  · exact w.takePosition hheads
  · exact w.startTold hcap hheads
  · exact w.startedTold
  · exact w

theorem messageForward (w : Within P b₀ b) {s : SpanId} {origin : PierId} {m : RingMsg} {banks : List Nat} (hkey : P .keystone) (hcap : P .capture)
    (hheads : ∀ g, P (.head g)) (haxes : ∀ x, P (.axis x)) : Within P b₀ (b.messageForward s origin m banks) := by
  unfold Block.messageForward
  exact (w.emit.ite w).ite ((w.emit.ite w).takeMessage hkey hcap hheads haxes)

/-! ## The link (R438 to R440) -/

theorem pcieRelease (w : Within P b₀ b) : Within P b₀ b.pcieRelease := w.modHost.raise

theorem linkUp (w : Within P b₀ b) {speed : Fin 6} {width : Nat} (hkey : P .keystone) (haxes : ∀ x, P (.axis x)) : Within P b₀
    (b.linkUp speed width) := by
  unfold Block.linkUp
  refine ite ?_ ?_
  · exact w
  · exact (w.modHost.setReg.setReg.raise.logFault.raise.fireCause.ite w.modHost.setReg.setReg.raise).offer hkey haxes

theorem slotsIdle (w : Within P b₀ b) : Within P b₀ b.slotsIdle := w.modHost

theorem linkDown (w : Within P b₀ b) (hkey : P .keystone) (haxes : ∀ x, P (.axis x)) : Within P b₀ b.linkDown :=
  w.ite (w.modHost.setReg.setReg.raise.slotsIdle.offer hkey haxes)

theorem busMasterSet (w : Within P b₀ b) (hkey : P .keystone) (haxes : ∀ x, P (.axis x)) : Within P b₀ b.busMasterSet :=
  w.ite (w.setReg.raise.offer hkey haxes)

theorem busMasterClear (w : Within P b₀ b) (hkey : P .keystone) (haxes : ∀ x, P (.axis x)) : Within P b₀ b.busMasterClear :=
  (w.setReg.raise.offer hkey haxes).ite w

theorem queuesReset (w : Within P b₀ b) : Within P b₀ b.queuesReset := by
  unfold Block.queuesReset
  exact (w.modHost.foldl (fun _ _ v1 => v1.foldl (fun _ _ v2 => v2.setReg))).foldl (fun _ _ v4 => v4.streamRestart)

theorem flr (w : Within P b₀ b) (hkey : P .keystone) (haxes : ∀ x, P (.axis x)) : Within P b₀ b.flr := by
  unfold Block.flr
  exact (w.queuesReset.modHost.slotsIdle.raise.busMasterClear hkey haxes).offer hkey haxes

theorem d3hotEntry (w : Within P b₀ b) (hkey : P .keystone) (haxes : ∀ x, P (.axis x)) : Within P b₀ b.d3hotEntry := w.modHost.offer hkey haxes
theorem fatalError (w : Within P b₀ b) (hkey : P .keystone) (haxes : ∀ x, P (.axis x)) : Within P b₀ b.fatalError := w.raise.offer hkey haxes
theorem aerCorrectable (w : Within P b₀ b) : Within P b₀ b.aerCorrectable := w.fireCause
theorem interruptTask (w : Within P b₀ b) {k : Fin 16} : Within P b₀ (b.interruptTask k) := w.fireCause

/-! ## Queue registers (R449 to R451) -/

theorem barDrop (w : Within P b₀ b) : Within P b₀ b.barDrop := w.modHost

theorem answerFrom (w : Within P b₀ b) {r : Option Route} {res : Result} : Within P b₀ (b.answerFrom r res) := by
  unfold Block.answerFrom
  split
  · exact w.reply
  · exact w.barDrop
  · exact w

theorem queueEnable (w : Within P b₀ b) {q : QueueId} {r : Option Route} {withDisable : Bool} : Within P b₀ (b.queueEnable q r withDisable) :=
  w.bump.setReg.answerFrom.ite (w.answerFrom.ite (w.answerFrom.ite ((w.setReg.setReg.setReg.modQueue.foldl (fun _ _ v2 =>
      v2.streamRestart)).answerFrom)))

theorem queueDisable (w : Within P b₀ b) {q : QueueId} {r : Option Route} : Within P b₀ (b.queueDisable q r) := w.setReg.answerFrom
theorem queueErrorClear (w : Within P b₀ b) {q : QueueId} : Within P b₀ (b.queueErrorClear q) := w.modQueue

theorem releaseUpTo (w : Within P b₀ b) {from_ a : Nat} {q : QueueId} {n : Nat} (hmem : P .mem) (hcap : P .capture) :
    Within P b₀ (Block.releaseUpTo from_ a q n b) := by
  induction n generalizing b with
  | zero => exact w
  | succ n ih =>
    unfold Block.releaseUpTo
    split
    · exact w
    · exact (ih (w.modQueue.streamRelease hmem hcap)).ite w

theorem ackWrite (w : Within P b₀ b) {q : QueueId} {a : Nat} {r : Option Route} (hmem : P .mem) (hcap : P .capture) : Within P b₀
    (b.ackWrite q a r) := by
  unfold Block.ackWrite
  exact w.bump.answerFrom.ite (((w.setReg.modQueue.ite w.setReg).releaseUpTo hmem hcap).answerFrom)

/-! ## Mailbox slots (R444, R445) -/

theorem modSlot (w : Within P b₀ b) {s : SlotId} {f : MailSlot → MailSlot} : Within P b₀ (b.modSlot s f) := w.modHost

theorem mailComplete (w : Within P b₀ b) {s : SlotId} : Within P b₀ (b.mailComplete s) := by
  unfold Block.mailComplete
  split
  · exact w
  · exact w.modSlot.ite w.modSlot.fireCause.raise

theorem tunnelTimeout (w : Within P b₀ b) {s : SlotId} : Within P b₀ (b.tunnelTimeout s) := w.answerSlot.ite w

theorem capFollow (w : Within P b₀ b) : Within P b₀ b.capFollow := by
  unfold Block.capFollow
  exact w.setReg.ite w.setReg.aside.alert.sendRing.capChanged

theorem claimStreams (w : Within P b₀ b) : Within P b₀ b.claimStreams := by
  unfold Block.claimStreams
  exact w.foldl (fun _ _ v => v.modDma)

theorem functionStart (w : Within P b₀ b) : Within P b₀ b.functionStart := by
  unfold Block.functionStart
  extract_lets b1 _ b3 _
  have wb1 : Within P b₀ b1 := w.foldl (fun _ _ v1 => v1.emit)
  have wb3 : Within P b₀ b3 := wb1.deriveBase.ite wb1.deriveBase.setReg
  exact (wb3.ite wb3.setReg).reroute.claimStreams

theorem stateFollow (w : Within P b₀ b) : Within P b₀ b.stateFollow := by
  unfold Block.stateFollow
  exact w.ite (w.aside.alert.functionStart.ite w.aside.alert)

theorem finish (w : Within P b₀ b) (hkey : P .keystone) (haxes : ∀ x, P (.axis x)) : Within P b₀ b.finish :=
  ((w.stateFollow.capFollow.keyFollow hkey haxes).writeFaults).settle

theorem holdHead (w : Within P b₀ b) {h : HeadId} (hcap : P .capture) (hh : P (.head h)) : Within P b₀ (b.holdHead h) :=
  (w.bump.startFail hcap hh).ite (w.headStop hcap hh)

theorem holdEnter (w : Within P b₀ b) (hcap : P .capture) (hheads : ∀ g, P (.head g)) : Within P b₀ b.holdEnter := by
  unfold Block.holdEnter
  exact w.setReg.bump.raise.logFault.alert.foldl (fun _ _ v2 => v2.holdHead hcap (hheads _))

theorem addMs (w : Within P b₀ b) {o : Obj} {above : Bool} {ms : Nat} : Within P b₀ (b.addMs o above ms).2 := by
  unfold Block.addMs
  split
  · exact w
  · split
    · exact w.bump
    · exact w

theorem thermalReading (w : Within P b₀ b) {case_ die : Int} {withEvaluation : Bool} (hcap : P .capture) (hheads : ∀ g, P (.head g)) :
    Within P b₀ (b.thermalReading case_ die withEvaluation) := by
  unfold Block.thermalReading
  extract_lets _ _ b0 b1 _ b2
  have wb1 : Within P b₀ b1 := w.setRegI.setRegI.setRegI.ite w.setRegI.setRegI
  have wb2 : Within P b₀ b2 := wb1.bump.ite wb1
  split
  next h3 =>
  have wb3 := h3 ▸ wb2.addMs
  split
  next h4 =>
  have wb4 := h4 ▸ wb3.addMs
  extract_lets _ b5 _ b6 b7 b8 b9 b10 b11 b12
  have wb5 : Within P b₀ b5 := wb4.aside
  have wb7 : Within P b₀ b7 := wb5.refreshFollow.ite wb5.refreshFollow.raise.alert
  have wb11 : Within P b₀ b11 := wb7.raiseIf.raiseIf.raiseIf.raiseIf
  have wb12 : Within P b₀ b12 := wb11.emcyCause.ite (wb11.emcyClear.ite wb11)
  exact (wb12.setReg.alert.ite wb12).ite ((wb12.holdEnter hcap hheads).ite wb12.setReg)

theorem governorEvaluate (w : Within P b₀ b) : Within P b₀ b.governorEvaluate := by
  unfold Block.governorEvaluate
  extract_lets _ _ b1
  have wb1 : Within P b₀ b1 := (w.setReg.raise.ite (w.setReg.raise.ite w)).ite (w.setReg.raise.ite w)
  exact wb1.ite wb1.setReg

theorem pinsSettle (w : Within P b₀ b) : Within P b₀ b.pinsSettle :=
  w.foldl (fun _ _ v => by
    extract_lets b1
    have wb1 : Within P b₀ b1 := v.setReg.setReg.logFault.ite v
    exact wb1.setReg.logFault.ite wb1)

theorem modPower (w : Within P b₀ b) {f : Power → Power} : Within P b₀ (b.modPower f) := w.aside

/-! ## Pier reset (R526 to R528) -/

theorem freshRegs_wf (p : Part) (causes resets : Nat) : Map.wf (freshRegs p causes resets) = true := by rfl

theorem pierReset (w : Within P b₀ b) {causes : Nat} (hmem : P .mem) (hkey : P .keystone) (hcap : P .capture) (hheads : ∀ g, P (.head g))
    (haxes : ∀ x, P (.axis x)) : Within P b₀ (b.pierReset causes) := by
  unfold Block.pierReset
  extract_lets b1 f0 f1 f2
  have wf0 : f0.Canonical := ⟨freshRegs_wf .., rfl, rfl⟩
  have wf1 : Within P f0 f1 := (refl P _).foldl fun _ _ v => v.of_eq rfl (fun _ h => h) (fun h => Map.wf_insert _ _ _ h) id rfl rfl rfl rfl rfl
  obtain ⟨hr, ht, hm⟩ := wf1.setReg.canonical wf0
  exact w.custodyCut.trans ⟨rfl, fun _ h => h, fun _ => ⟨hr, ht, memWipe_wf _ _ _ _ hm⟩, fun h => absurd hmem h, fun _ h => absurd (hheads _) h,
    fun _ h => absurd (haxes _) h, fun h => absurd hkey h, fun h => absurd hcap h⟩

theorem resetSource (w : Within P b₀ b) {bitNo : Nat} (hmem : P .mem) (hkey : P .keystone) (hcap : P .capture) (hheads : ∀ g, P (.head g))
    (haxes : ∀ x, P (.axis x)) : Within P b₀ (b.resetSource bitNo) :=
  w.modPower.setReg.ite (w.pierReset hmem hkey hcap hheads haxes)

theorem powerOn (w : Within P b₀ b) (hmem : P .mem) (hkey : P .keystone) (hcap : P .capture) (hheads : ∀ g, P (.head g))
    (haxes : ∀ x, P (.axis x)) : Within P b₀ b.powerOn :=
  w.pierReset hmem hkey hcap hheads haxes

theorem resetPin (w : Within P b₀ b) (hmem : P .mem) (hkey : P .keystone) (hcap : P .capture) (hheads : ∀ g, P (.head g))
    (haxes : ∀ x, P (.axis x)) : Within P b₀ b.resetPin :=
  w.resetSource hmem hkey hcap hheads haxes

theorem resetRunning (w : Within P b₀ b) {bitNo : Nat} (hmem : P .mem) (hkey : P .keystone) (hcap : P .capture) (hheads : ∀ g, P (.head g))
    (haxes : ∀ x, P (.axis x)) : Within P b₀ (b.resetRunning bitNo) :=
  (w.resetSource hmem hkey hcap hheads haxes).ite w

theorem sequenceViolation (w : Within P b₀ b) {rail : Nat} (hmem : P .mem) (hkey : P .keystone) (hcap : P .capture) (hheads : ∀ g, P (.head g))
    (haxes : ∀ x, P (.axis x)) : Within P b₀ (b.sequenceViolation rail) := by
  unfold Block.sequenceViolation
  exact ((w.resetSource hmem hkey hcap hheads haxes).bump).modPower

theorem loadGroup (w : Within P b₀ b) {g : Fin 3} : Within P b₀ (b.loadGroup g) := by
  unfold Block.loadGroup
  extract_lets _ _ b1
  have wb1 : Within P b₀ b1 := w.aside
  split
  · exact wb1.ite wb1.logFault
  · exact wb1.of_eq rfl (fun _ h => h) (Map.wf_foldl_insert id _ _) (Map.wf_foldl_insert id _ _) rfl rfl rfl rfl rfl

theorem loadedSets (w : Within P b₀ b) : Within P b₀ b.loadedSets :=
  w.foldl (fun _ _ v => by
    extract_lets b1
    have wb1 : Within P b₀ b1 := (((v.foldl (fun _ _ v2 => v2.gainTo)).setReg).updateDefective).ite v
    exact wb1.setReg.ite wb1)

theorem headsDerive (w : Within P b₀ b) : Within P b₀ b.headsDerive := w.foldl (fun _ _ v => v.headDerive.ite v)

theorem serve (w : Within P b₀ b) : Within P b₀ b.serve := by
  unfold Block.serve
  exact w.modPower.headsDerive.functionStart.modHost.resetComm

theorem resetRelease (w : Within P b₀ b) {bad : Option Nat} : Within P b₀ (b.resetRelease bad) := by
  unfold Block.resetRelease
  extract_lets _ _ b2 b3 b4 b5
  have wb2 : Within P b₀ b2 := w.boot.loadGroup.loadGroup.loadGroup.loadedSets.pinsSettle.logFault
  have wb3 : Within P b₀ b3 := by
    unfold b3
    split
    · exact wb2.logFault.modPower
    · exact wb2
  have wb4 : Within P b₀ b4 := by
    unfold b4
    split
    · exact wb3.logFault
    · exact wb3
  exact w.ite wb4.modSmb.serve.spanTraining.spanTraining.raise

/-! ## Restart of the control cores (R7, R50, R528) -/

theorem requestsCut (w : Within P b₀ b) : Within P b₀ b.requestsCut := by
  unfold Block.requestsCut
  exact w.modSmb.modHost

theorem restartCores (w : Within P b₀ b) {bitNo : Nat} (hcap : P .capture) (hheads : ∀ g, P (.head g)) : Within P b₀ (b.restartCores bitNo) :=
  w.modPower.ite (w.ite ((w.foldl (fun _ _ v => v.headStop hcap (hheads
      _))).setReg.setReg.setReg.custodyCut.privilegedCut.aside.modPower.modCan.modHost.requestsCut.bump.raise))

theorem coresRunning (w : Within P b₀ b) : Within P b₀ b.coresRunning := w.ite w.setReg.boot.serve.logFault.raise

/-! ## Supplies and clocks (R520, R523) -/

theorem railLow (w : Within P b₀ b) {rail : Fin 11} {mv : Nat} (hmem : P .mem) (hkey : P .keystone) (hcap : P .capture) (hheads : ∀ g, P (.head g))
    (haxes : ∀ x, P (.axis x)) : Within P b₀ (b.railLow rail mv) := by
  unfold Block.railLow
  exact w.ite ((w.resetRunning hmem hkey hcap hheads haxes).ite w.setReg.setReg.raise.logFault)

theorem railsGood (w : Within P b₀ b) : Within P b₀ b.railsGood := w.ite w.setReg.raise.emcyClear
theorem railLatch (w : Within P b₀ b) {mv : List Nat} : Within P b₀ (b.railLatch mv) := w.foldl (fun _ _ v => v.setReg)

theorem pcieRefLost (w : Within P b₀ b) (hkey : P .keystone) (haxes : ∀ x, P (.axis x)) : Within P b₀ b.pcieRefLost :=
  ((w.modPower.linkDown hkey haxes).raise).ite w

theorem pcieRefRestored (w : Within P b₀ b) : Within P b₀ b.pcieRefRestored := w.ite w.modPower.raise
theorem crystalFail (w : Within P b₀ b) : Within P b₀ b.crystalFail := w.modPower.raise.ite w

/-! ## Deep sleep (R530 to R535) -/

theorem answerPower (w : Within P b₀ b) {v : PowerVia} {res : Result} : Within P b₀ (b.answerPower v res) := by
  unfold Block.answerPower
  split
  · exact w.reply
  · exact w

theorem sleepRequest (w : Within P b₀ b) {v : PowerVia} : Within P b₀ (b.sleepRequest v) := by
  unfold Block.sleepRequest
  refine ite ?_ ?_
  · exact w
  · split
    · exact (w.ite w.setReg.raise).answerPower
    · exact w.modPower.setReg.answerPower

theorem asleepNow (w : Within P b₀ b) (hmem : P .mem) (hkey : P .keystone) (hheads : ∀ g, P (.head g)) (haxes : ∀ x, P (.axis x)) :
    Within P b₀ b.asleepNow := by
  unfold Block.asleepNow
  extract_lets b1 b2 b3 b4 b5 b6 b7 b8 b9 b10
  have wb1 : Within P b₀ b1 := (w.withMem hmem (memWipe_wf _ _ _ _)).aside
  have wb3 : Within P b₀ b3 := wb1.modRing.setReg.setReg.setReg.setReg.setReg.setReg
  have wb4 : Within P b₀ b4 := wb3.foldl fun _ _ v => v.setReg.setReg.setReg
  have wb7 : Within P b₀ b7 := wb4.setReg.setReg.modHost.modCan.modSmb
  have wb8 : Within P b₀ b8 := wb7.foldl fun _ _ v => (v.modAxis (haxes _)).setValid hheads
  have wb9 : Within P b₀ b9 := wb8.ite (wb8.sourceTo hkey hheads haxes)
  have wb10 : Within P b₀ b10 := wb9.foldl fun _ _ v => v.modTimer.ite v
  exact wb10.modPower.chooseAbutments hkey haxes

theorem wake (w : Within P b₀ b) {bits : Nat} : Within P b₀ (b.wake bits) :=
  w.ite w.setReg.emit.raise.alert.modSmb.serve.spanTraining.spanTraining.raise

theorem wakeEvent (w : Within P b₀ b) {bitNo : Fin 4} : Within P b₀ (b.wakeEvent bitNo) := by
  unfold Block.wakeEvent
  split
  · exact w.raiseIf
  · exact w.raiseIf
  · exact w.raiseIf
  · exact w.pcieRelease

theorem sleepEnter (w : Within P b₀ b) {early : BitVec 6} {withExpiry : Bool} (hmem : P .mem) (hkey : P .keystone) (hheads : ∀ g, P (.head g))
    (haxes : ∀ x, P (.axis x)) : Within P b₀ (b.sleepEnter early withExpiry) := by
  unfold Block.sleepEnter
  split
  · exact w
  · exact w.ite (((((w.bump.ite w).emit.raise.proposalExpires.sendRing.setReg.asleepNow hmem hkey hheads haxes).raise).foldl (fun _ _ v4 =>
      v4.wakeEvent.ite v4)).ite ((((w.bump.ite w).emit.raise.proposalExpires.sendRing.setReg.asleepNow hmem hkey hheads haxes).raise).foldl (fun _ _
      v4 => v4.wakeEvent.ite v4)).wake)

theorem sleepExpire (w : Within P b₀ b) : Within P b₀ b.sleepExpire := by
  unfold Block.sleepExpire
  split
  · exact w
  · exact w.modPower.setReg.raise.ite w

theorem wakeRequest (w : Within P b₀ b) {bitNo : Nat} : Within P b₀ (b.wakeRequest bitNo) := w.wake

theorem wakeSource (w : Within P b₀ b) {bitNo : Fin 4} : Within P b₀ (b.wakeSource bitNo) := by
  unfold Block.wakeSource
  exact w.wakeEvent.ite w.wakeEvent.wake

theorem wakeTask (w : Within P b₀ b) {withSleep : Bool} : Within P b₀ (b.wakeTask withSleep) := w.bump.ite w.wakeRequest

theorem smbPower (w : Within P b₀ b) {value : Nat} {pecOk : Bool} : Within P b₀ (b.smbPower value pecOk) := by
  unfold Block.smbPower
  split
  next heq =>
    have ws := heq ▸ w.smbStart
    refine ite ws (ite ws.bump.raise.smbStop ?_)
    dsimp only
    split
    · exact ws.smbStop.sleepRequest
    · exact ws.smbStop.wakeRequest
    · exact ws.smbStop

/-! ## Firmware commands (R506 to R510) -/

theorem activate_ (w : Within P b₀ b) (hcap : P .capture) (hheads : ∀ g, P (.head g)) : Within P b₀ b.activate_ :=
  w.modSlotFw.restartCores hcap hheads

theorem fwWrite (w : Within P b₀ b) {r : Route} : Within P b₀ (b.fwWrite r) := by
  unfold Block.fwWrite
  exact w.reply.ite w.modSlotFw.modFirmware.reply

theorem slotWritten (w : Within P b₀ b) {same : Bool} : Within P b₀ (b.slotWritten same) := w.ite w.modFirmware.modSlotFw.raise

theorem fwActivate (w : Within P b₀ b) {r : Route} {othersRun : Bool} (hcap : P .capture) (hheads : ∀ g, P (.head g)) : Within P b₀
    (b.fwActivate r othersRun) := by
  unfold Block.fwActivate
  split
  · exact w.reply
  · exact w.reply.activate_ hcap hheads

theorem fwConfirm (w : Within P b₀ b) {r : Route} {withExpiry : Bool} : Within P b₀ (b.fwConfirm r withExpiry) := by
  unfold Block.fwConfirm
  extract_lets
  refine ite ?_ ?_
  · exact w.reply
  · exact ((w.bump.ite w).modSlotFw.modSlotFw.modFirmware.setReg.modSlotFw.ite (w.bump.ite w).modSlotFw.modSlotFw.modFirmware).raise.reply

theorem trialExpire (w : Within P b₀ b) (hcap : P .capture) (hheads : ∀ g, P (.head g)) : Within P b₀ b.trialExpire := by
  unfold Block.trialExpire
  split
  · exact w
  · exact (w.restartCores hcap hheads).ite w

theorem stageChecked (w : Within P b₀ b) : Within P b₀ b.stageChecked := w.ite w.modFirmware.raise

/-! ## Proposals (R491 to R494) -/

theorem proposalEvaluate (w : Within P b₀ b) {board : Bool} {r : Route} {record : List Byte} {othersRun : Bool} : Within P b₀
    (b.proposalEvaluate board r record othersRun) := by
  unfold Block.proposalEvaluate
  extract_lets
  split
  · exact (w.bump.raise.ite w).reply
  · exact (w.modCustody.raise.ite w.modCustody).raise.alert.reply

theorem setDraft (w : Within P b₀ b) {board : Bool} {d : Option Draft} : Within P b₀ (b.setDraft board d) := w.modCustody

theorem draftDrop (w : Within P b₀ b) {board : Bool} : Within P b₀ (b.draftDrop board) := by
  unfold Block.draftDrop
  split
  · exact w
  · split
    · exact w.setDraft.reply
    · exact w.setDraft

theorem proposeWrite (w : Within P b₀ b) {board : Bool} {r : Route} {offset : Nat} {data : List Byte} {othersRun : Bool} :
    Within P b₀ (b.proposeWrite board r offset data othersRun) := by
  unfold Block.proposeWrite
  extract_lets b1
  have wb1 : Within P b₀ b1 := w.draftDrop.setDraft.ite w
  refine ite w.reply ?_
  cases b1.draftOf board with
  | none => exact wb1.reply
  | some d => exact wb1.setDraft.proposalEvaluate.ite (wb1.setDraft.reply.ite wb1.setDraft)

theorem draftTimeout (w : Within P b₀ b) {board : Bool} : Within P b₀ (b.draftTimeout board) := by
  unfold Block.draftTimeout
  split
  · exact w
  · exact w.draftDrop.ite w

/-! ## Enrolment (R489) -/

theorem enrol (w : Within P b₀ b) {board : Bool} {r : Route} {data : List Byte} : Within P b₀ (b.enrol board r data) :=
  w.reply.ite (w.reply.ite (w.bump.raise.reply.ite w.modCustody.raise.renewNonce.reply))

/-! ## Verdicts and commits (R495 to R502) -/

theorem commitBegin (w : Within P b₀ b) {record : List Byte} {recovery : Bool} {route : Option Route} : Within P b₀
    (b.commitBegin record recovery route) :=
  w.modCustody

theorem verdict (w : Within P b₀ b) {board : Bool} {r : Route} {data : List Byte} {withExpiry othersRun : Bool} :
    Within P b₀ (b.verdict board r data withExpiry othersRun) := by
  have near : Within P b₀ (if withExpiry then b.bump Obj.custodyNearMisses else b) := w.bump.ite w
  unfold Block.verdict
  refine ite w.reply ?_
  split
  · exact w.reply
  · dsimp only
    cases b.verdictNames data with
    | none => exact w.reply
    | some recovery =>
      refine ite w.bump.raise.reply (ite w.reply (ite near.modCustody.bump.raise.reply (ite near.modCustody.bump.raise.renewNonce.reply ?_)))
      split
      · exact w.reply
      · exact near.commitBegin

theorem windowExpire (w : Within P b₀ b) : Within P b₀ b.windowExpire := by
  unfold Block.windowExpire
  split
  · exact w.proposalExpires.ite w
  · exact w

theorem commitComplete (w : Within P b₀ b) (hcap : P .capture) (hheads : ∀ g, P (.head g)) : Within P b₀ b.commitComplete := by
  unfold Block.commitComplete
  split
  · exact w
  · extract_lets _ _ _ b3
    have wb3 : Within P b₀ b3 := by
      unfold b3
      split
      · exact w.journalApply.raise.raiseIf.reply
      · exact w.journalApply.raise.raiseIf
    exact (wb3.activate_ hcap hheads).ite wb3

theorem recoveryDue (w : Within P b₀ b) {withDecline : Bool} : Within P b₀ (b.recoveryDue withDecline) := by
  unfold Block.recoveryDue
  split
  · exact w
  · exact w.ite (w.commitBegin.ite w)

theorem recoverySave (w : Within P b₀ b) : Within P b₀ b.recoverySave := w.modCustody
theorem recoveryRemind (w : Within P b₀ b) : Within P b₀ b.recoveryRemind := w.emcyCause.ite w

/-! ## Attestation (R511, R512) -/

theorem attestNonce (w : Within P b₀ b) {r : Route} {nonce : List Byte} : Within P b₀ (b.attestNonce r nonce) :=
  w.reply.ite (w.raise.logFault.reply.ite w.used.used.aside.raise.raiseIf.reply)

/-! ## The fault log (R580, R582) -/

theorem logSelect (w : Within P b₀ b) {n : Nat} : Within P b₀ (b.logSelect n) := w.aside

theorem logClear (w : Within P b₀ b) : Within P b₀ b.logClear := by
  unfold Block.logClear
  exact w.aside

/-! ## Clearing the counters (R583) -/

theorem diagClear (w : Within P b₀ b) {again : List Nat} (hkey : P .keystone) : Within P b₀ (b.diagClear again) := by
  unfold Block.diagClear
  extract_lets _ _ b1 _ _ _ b3 _ b5
  have hr : Map.wf b.regs = true → Map.wf b1.regs = true := fun h =>
    Map.wf_foldl_insert (fun k => (k, 1)) _ _ (Map.wf_filter _ _ h)
  have wb1 : Within P b₀ b1 := w.of_eq rfl (fun _ h => h) hr id rfl rfl rfl rfl rfl
  have wb3 : Within P b₀ b3 := wb1.aside
  have wb5 : Within P b₀ b5 := wb3.modCan.modKey hkey
  exact wb5.aside

/-! ## Memory repair (R587 to R589) -/

theorem modRepair (w : Within P b₀ b) {f : Repair → Repair} : Within P b₀ (b.modRepair f) := w.aside

theorem noSpare (w : Within P b₀ b) {row : MemRow} {block : Option Nat} (hcap : P .capture) : Within P b₀ (b.noSpare row block) := by
  unfold Block.noSpare
  extract_lets b1
  have wb1 : Within P b₀ b1 := w.logFault.modRepair
  split
  · exact wb1
  · exact wb1.modCapture hcap

theorem rowCandidate (w : Within P b₀ b) {row : MemRow} {block : Option Nat} (hcap : P .capture) : Within P b₀ (b.rowCandidate row block) := by
  unfold Block.rowCandidate
  exact w.logFault.modRepair.ite (w.logFault.noSpare hcap)

theorem softRepair (w : Within P b₀ b) {row : MemRow} {block : Option Nat} (hcap : P .capture) : Within P b₀ (b.softRepair row block) :=
  w.ite ((w.noSpare hcap).ite (w.ite w.modRepair.logFault))

theorem pprHarden (w : Within P b₀ b) : Within P b₀ b.pprHarden := by
  unfold Block.pprHarden
  exact w.modRepair.foldl (fun _ _ v1 => v1.logFault)

theorem modTest (w : Within P b₀ b) {f : Test → Test} : Within P b₀ (b.modTest f) := w.aside
theorem tapReset (w : Within P b₀ b) : Within P b₀ b.tapReset := w.modTest

theorem takeBalls (w : Within P b₀ b) {code : Nat} (hkey : P .keystone) (hcap : P .capture) (hheads : ∀ g, P (.head g)) (haxes : ∀ x, P (.axis x)) :
    Within P b₀ (b.takeBalls code) := by
  unfold Block.takeBalls
  exact ((((((w.modTest.foldl (fun _ _ v1 => ((((((v1.answerStart (hheads _)).discardLines (hheads _)).modHead (hheads _)).outputsRest (hheads
      _)).setReg).windowStop hcap).ringStartHead)).foldl (fun _ _ v5 => (((v5.keyFault hkey).freezeCommand (haxes _)).modAxis (haxes _)).switchOff
      (haxes _))).foldl (fun _ _ v7 => v7.replyVia)).modAux.spanDown hkey hheads haxes).spanDown hkey hheads haxes).linkDown hkey haxes).logFault

theorem driveBalls (w : Within P b₀ b) : Within P b₀ b.driveBalls := w.emit.ite w

theorem tapInstr (w : Within P b₀ b) {i : TapInstr} (hkey : P .keystone) (hcap : P .capture) (hheads : ∀ g, P (.head g))
    (haxes : ∀ x, P (.axis x)) : Within P b₀ (b.tapInstr i) := by
  unfold Block.tapInstr
  exact ((w.emit.modTest.takeBalls hkey hcap hheads haxes).driveBalls).ite w.emit.modTest

theorem tapScan (w : Within P b₀ b) {pins update : BitVec 360} : Within P b₀ (b.tapScan pins update) := by
  unfold Block.tapScan
  split
  · exact w.emit.modTest.driveBalls
  · exact w.emit.modTest.driveBalls
  · exact w.emit.modTest.driveBalls
  · exact w.emit.modTest.driveBalls
  · exact w.emit
  · exact w.emit
  · exact w.emit
  · exact w.emit

/-! ## Memory self-test (R575) -/

theorem mbistStart (w : Within P b₀ b) (hmem : P .mem) : Within P b₀ b.mbistStart :=
  (w.setReg.setReg.setReg.withMem hmem (memWipe_wf _ _ _ _)).aside

theorem mbistAbort (w : Within P b₀ b) : Within P b₀ b.mbistAbort := w.ite w.modTest.setReg

theorem mbistCommand (w : Within P b₀ b) {v : Nat} {r : Route} {withOther : Bool} (hmem : P .mem) : Within P b₀ (b.mbistCommand v r withOther) := by
  unfold Block.mbistCommand
  extract_lets
  refine ite ?_ ?_
  · exact (w.bump.ite w).mbistAbort.reply
  · refine ite ?_ ?_
    · exact (w.bump.ite w).mbistAbort.reply
    · split
      · exact (w.bump.ite w).reply
      · exact ((w.bump.ite w).mbistStart hmem).reply

theorem mbistComplete (w : Within P b₀ b) {errors first : Nat} {rows : List (MemRow × Option Nat)} (hcap : P .capture) : Within P b₀
    (b.mbistComplete errors first rows) :=
  w.ite (w.modTest.setReg.setReg.setReg.foldl (fun _ _ v2 => v2.rowCandidate hcap))

/-! ## Loopbacks (R576) -/

theorem spanLoopback (w : Within P b₀ b) {s : SpanId} {mode errors : Nat} (hkey : P .keystone) (hheads : ∀ g, P (.head g))
    (haxes : ∀ x, P (.axis x)) : Within P b₀ (b.spanLoopback s mode errors) := by
  unfold Block.spanLoopback
  exact (w.count.ite w).setReg.spanTraining.ite ((w.count.ite w).setReg.spanDown hkey hheads haxes)

theorem pcieLoopback (w : Within P b₀ b) (hkey : P .keystone) (haxes : ∀ x, P (.axis x)) : Within P b₀ b.pcieLoopback :=
  (w.linkDown hkey haxes).modHost

/-! ## The armed slot of the correction (R120, R148, R150, R151) -/

theorem rangeCommit (w : Within P b₀ b) {h : HeadId} {n rank : Nat} {sameCycle : Bool} : Within P b₀ (b.rangeCommit h n rank sameCycle) :=
  w.corrArmOrTake

theorem rangeCommitTask (w : Within P b₀ b) {h : HeadId} {sameCycle : Bool} : Within P b₀ (b.rangeCommitTask h sameCycle) := by
  unfold Block.rangeCommitTask
  exact w.rangeCommit.ite w.bump

theorem corrSwap (w : Within P b₀ b) {h : HeadId} {rank : Nat} {sameCycle : Bool} : Within P b₀ (b.corrSwap h rank sameCycle) := w.corrArmOrTake
theorem corrSwapTask (w : Within P b₀ b) {h : HeadId} {sameCycle : Bool} : Within P b₀ (b.corrSwapTask h sameCycle) := w.corrSwap.ite w.bump

/-! ## Preparing a set (R153) -/

theorem corrPrepare (w : Within P b₀ b) {h : HeadId} {n : Nat} {via : Via} : Within P b₀ (b.corrPrepare h n via) := by
  unfold Block.corrPrepare
  extract_lets b1
  have wb1 : Within P b₀ b1 := by
    unfold b1
    split
    · exact w.replyVia
    · exact w
  exact wb1.modCorr

theorem prepareComplete (w : Within P b₀ b) {h : HeadId} : Within P b₀ (b.prepareComplete h) := by
  unfold Block.prepareComplete
  split
  · exact w
  · exact w.setShadow.setReg.modCorr.raise.replyVia

/-! ## Reference-strip calibration (R154) -/

theorem calBoth (w : Within P b₀ b) {h : HeadId} : Within P b₀ (b.calBoth h) := w.calFail.bump

theorem calStartTask (w : Within P b₀ b) {h : HeadId} {withAbort : Bool} : Within P b₀ (b.calStartTask h withAbort) :=
  w.calBoth.ite (w.calBegin.ite w.bump)

theorem calAbortTask (w : Within P b₀ b) {h : HeadId} {withStart : Bool} : Within P b₀ (b.calAbortTask h withStart) := w.calBoth.ite w.calFail

/-! ## Geometry (R173, R185 to R189) -/

theorem geometrySwapTask (w : Within P b₀ b) {h : HeadId} {sameCycle : Bool} : Within P b₀ (b.geometrySwapTask h sameCycle) :=
  w.bump.ite w.geometryArm

theorem stitchCalBoth (w : Within P b₀ b) {h : HeadId} : Within P b₀ (b.stitchCalBoth h) := w.stitchCalFail.bump

theorem stitchCalStartTask (w : Within P b₀ b) {h : HeadId} {withAbort : Bool} : Within P b₀ (b.stitchCalStartTask h withAbort) :=
  w.stitchCalBoth.ite (w.stitchCalBegin.ite w.bump)

theorem stitchCalAbortTask (w : Within P b₀ b) {h : HeadId} {withStart : Bool} : Within P b₀ (b.stitchCalAbortTask h withStart) :=
  w.stitchCalBoth.ite w.stitchCalFail

/-! ## Illumination (R294, R298, R311) -/

theorem illumRestart (w : Within P b₀ b) {h : HeadId} {withOther : Bool} : Within P b₀ (b.illumRestart h withOther) := (w.bump.ite w).modIllum
theorem illumBlank (w : Within P b₀ b) {h : HeadId} {withUnblank : Bool} : Within P b₀ (b.illumBlank h withUnblank) := (w.bump.ite w).modIllum
theorem illumUnblank (w : Within P b₀ b) {h : HeadId} {withBlank : Bool} : Within P b₀ (b.illumUnblank h withBlank) := w.illumBlank.ite w.modIllum

theorem ilvFreeze (w : Within P b₀ b) {h : HeadId} {withUnfreeze : Bool} (hh : P (.head h)) : Within P b₀ (b.ilvFreeze h withUnfreeze) :=
  (w.ilvBoth hh).ite (w.ilvAsk hh)

theorem ilvUnfreeze (w : Within P b₀ b) {h : HeadId} {withFreeze : Bool} (hh : P (.head h)) : Within P b₀ (b.ilvUnfreeze h withFreeze) :=
  (w.ilvBoth hh).ite (w.ilvAsk hh)

/-! ## Commands by write -/

theorem orReply (w : Within P b₀ b) {r : Route} {why : List AbortCode} {f : Block → Block} (hf : ∀ c, Within P b₀ c → Within P b₀ (f c)) : Within P
    b₀ (b.orReply r why f) := by
  unfold Block.orReply
  split
  · exact w.reply
  · exact ((hf _ w)).reply

theorem calCommand (w : Within P b₀ b) {h : HeadId} {v : Nat} {r : Route} {withOther : Bool} : Within P b₀ (b.calCommand h v r withOther) :=
  w.calBoth.reply.ite (w.calFail.reply.ite (w.orReply (fun _ v => v.calBegin)))

theorem stitchCalCommand (w : Within P b₀ b) {h : HeadId} {v : Nat} {r : Route} {withOther : Bool} : Within P b₀
    (b.stitchCalCommand h v r withOther) :=
  w.stitchCalBoth.reply.ite (w.stitchCalFail.reply.ite (w.orReply (fun _ v => v.stitchCalBegin)))

theorem dictRead (w : Within P b₀ b) {r : Route} {index sub : Nat} : Within P b₀ (b.dictRead r index sub) := by
  unfold Block.dictRead
  split
  · exact w.reply
  · exact w.reply
  · exact w.fifoRead.ite w.reply

/-! ## Head objects -/

theorem headDo (w : Within P b₀ b) {e : Env} {r : Route} {h : HeadId} {i sub v : Nat} (hcap : P .capture) (hh : P (.head h))
    (hn : b.headDo e r h i sub v = some n) : Within P b₀ n := by
  unfold Block.headDo at hn
  split at hn
  · cases hn; exact (w.headStart hcap hh).ite (((w.bump.ite w).headStop hcap hh).reply)
  · cases hn; exact (w.softTrigger hh).reply
  · cases hn; exact w.rangeCommit.reply
  · cases hn; exact ((w.ilvFreeze hh).ite (w.ilvUnfreeze hh)).reply
  · cases hn; exact w.corrSwap.reply
  · cases hn; exact w.corrPrepare
  · cases hn; exact w.calCommand
  · cases hn; exact w.geometryArm.reply
  · cases hn; exact w.stitchCalCommand
  · cases hn; exact w.illumRestart.reply
  · cases hn; exact (w.isolate hcap hh).ite (w.release hh)
  · cases hn

theorem headStored (w : Within P b₀ b) {h : HeadId} {i : Nat} : Within P b₀ (b.headStored h i) := w.updateDefective.ite w
theorem headBefore (w : Within P b₀ b) {h : HeadId} {i : Nat} (hh : P (.head h)) : Within P b₀ (b.headBefore h i) := (w.openWindows hh).ite w

/-! ## Capture objects -/

theorem burstFire (w : Within P b₀ b) {m : BurstMeet} (hmem : P .mem) (hcap : P .capture) : Within P b₀ (b.burstFire m) :=
  (w.burstMeet hmem hcap).ite w

theorem captureDo (w : Within P b₀ b) {e : Env} {r : Route} {index sub v : Nat} (hmem : P .mem) (hcap : P .capture)
    (hn : b.captureDo e r index sub v = some n) : Within P b₀ n := by
  unfold Block.captureDo at hn
  split at hn
  · cases hn; exact ((w.captureArm hcap).ite ((w.captureArm hcap).ite (w.captureDisarm hcap))).reply
  · cases hn; exact (w.burstFire hmem hcap).reply
  · cases hn; exact (w.captureDiscard hcap).reply
  · cases hn

theorem axisCount (w : Within P b₀ b) {a : AxisId} {c : Bool} : Within P b₀ (b.axisCount a c) := w.bump.ite w

theorem axisEnable (w : Within P b₀ b) {a : AxisId} {vm : Nat} (hkey : P .keystone) (ha : P (.axis a)) : Within P b₀ (b.axisEnable a vm) :=
  (w.axisOn ha).keyRecover hkey ha

theorem axisDisable (w : Within P b₀ b) {a : AxisId} (hkey : P .keystone) (ha : P (.axis a)) : Within P b₀ (b.axisDisable a) :=
  (w.axisOff ha).keyFault hkey

theorem axisStart (w : Within P b₀ b) {a : AxisId} {vm : Nat} {low : Bool} {via : Via} {m : StartMeet} (hkey : P .keystone) (ha : P (.axis a)) :
    Within P b₀ (b.axisStart a vm low via m) := by
  unfold Block.axisStart
  extract_lets
  split
  · exact (w.startMeets.axisDisable hkey ha).replyVia
  · split
    · exact w.startMeets.foldl (fun _ _ v1 => v1.replyVia)
    · exact (w.startMeets.axisEnable hkey ha).foldl (fun _ _ v2 => v2.replyVia)

theorem axisStop (w : Within P b₀ b) {a : AxisId} {via : Via} {m : StartMeet} (hkey : P .keystone) (ha : P (.axis a)) : Within P b₀
    (b.axisStop a via m) := by
  unfold Block.axisStop
  extract_lets _ b2
  have wb2 : Within P b₀ b2 := by
    unfold b2
    split
    · exact w.startMeets.replyVia
    · exact w.startMeets
  exact (wb2.axisDisable hkey ha).replyVia

theorem axisCommand (w : Within P b₀ b) {a : AxisId} {v vm : Nat} {low : Bool} {via : Via} {m : StartMeet} (hkey : P .keystone) (ha : P (.axis a)) :
    Within P b₀ (b.axisCommand a v vm low via m) :=
  (w.axisStop hkey ha).ite (w.axisStart hkey ha)

theorem moveUnless (w : Within P b₀ b) {a : AxisId} {e : Env} {f : Block → Block} (hf : ∀ c, Within P b₀ c → Within P b₀ (f c)) : Within P b₀
    (b.moveUnless a e f) :=
  w.axisCount.ite ((hf _ w.axisCount))

theorem halt (w : Within P b₀ b) {a : AxisId} {e : Env} (ha : P (.axis a)) : Within P b₀ (b.halt a e) := w.axisCount.brakeAxis ha
theorem quickStop (w : Within P b₀ b) {a : AxisId} {e : Env} (ha : P (.axis a)) : Within P b₀ (b.quickStop a e) := w.axisCount.brakeAxis ha

theorem clearMotion (w : Within P b₀ b) {a : AxisId} {e : Env} (hkey : P .keystone) (hheads : ∀ g, P (.head g)) (ha : P (.axis a)) : Within P b₀
    (b.clearMotion a e) :=
  (w.axisCount.clearFaults hheads ha).keyRecover hkey ha

theorem pageStartBy (w : Within P b₀ b) {a : AxisId} {e : Env} (hkey : P .keystone) (hheads : ∀ g, P (.head g)) (ha : P (.axis a)) : Within P b₀
    (b.pageStartBy a e) :=
  (w.keyCount.pageEnding hkey hheads ha).ite ((w.keyCount.ite w).pageStart hkey hheads ha)

theorem pageEndBy (w : Within P b₀ b) {a : AxisId} {e : Env} (hkey : P .keystone) (hheads : ∀ g, P (.head g)) (ha : P (.axis a)) : Within P b₀
    (b.pageEndBy a e) :=
  (w.keyCount.ite w).pageEnding hkey hheads ha

theorem pauseBy (w : Within P b₀ b) {a : AxisId} {e : Env} (hkey : P .keystone) (ha : P (.axis a)) : Within P b₀ (b.pauseBy a e) :=
  w.forcedPause hkey ha

theorem releaseBy (w : Within P b₀ b) {a : AxisId} {e : Env} (hkey : P .keystone) (ha : P (.axis a)) : Within P b₀ (b.releaseBy a e) :=
  (w.forcedPause hkey ha).ite ((w.keyCount.ite w).pageRelease hkey ha)

theorem pageCommand (w : Within P b₀ b) {a : AxisId} {v : Nat} {e : Env} {r : Route} (hkey : P .keystone) (hheads : ∀ g, P (.head g))
    (ha : P (.axis a)) : Within P b₀ (b.pageCommand a v e r) := by
  unfold Block.pageCommand
  split
  · exact ((w.pageStartBy hkey hheads ha).reply).ite (w.orReply (fun _ v => v.pageStartBy hkey hheads ha))
  · exact w.orReply (fun _ v1 => v1.pageEndBy hkey hheads ha)
  · exact w.orReply (fun _ v2 => v2.pauseBy hkey ha)
  · exact w.orReply (fun _ v3 => v3.releaseBy hkey ha)

theorem axisDo (w : Within P b₀ b) {e : Env} {r : Route} {a : AxisId} {i sub v : Nat} (hkey : P .keystone) (hheads : ∀ g, P (.head g))
    (haxes : ∀ x, P (.axis x)) (hn : b.axisDo e r a i sub v = some n) : Within P b₀ n := by
  unfold Block.axisDo at hn
  split at hn
  · cases hn; exact w.axisCommand hkey (haxes _)
  · cases hn; exact (w.moveUnless (fun _ v => v.moveTo (haxes _))).reply
  · cases hn; exact (w.moveUnless (fun _ v1 => v1.jog (haxes _))).reply
  · cases hn
    refine reply ?_
    split
    · exact w.moveUnless (fun _ v2 => v2.home (haxes _))
    · exact w.halt (haxes _)
    · exact w.quickStop (haxes _)
    · exact w.clearMotion hkey hheads (haxes _)
  · cases hn; exact ((w.ite (w.pageDrop hkey hheads haxes)).claim).reply
  · cases hn; exact w.pageCommand hkey hheads (haxes _)
  · cases hn; exact (w.setReg.keyRecover hkey (haxes _)).reply
  · cases hn; exact w.wideWrite hkey hheads haxes
  · cases hn

/-! ## Auxiliary channels (R322, R329, R332, R350, R352) -/

theorem auxDo (w : Within P b₀ b) {e : Env} {r : Route} {index sub v : Nat} (hn : b.auxDo e r index sub v = some n) : Within P b₀ n := by
  unfold Block.auxDo at hn
  split at hn
  · cases hn; exact w.seqStart.ite w.seqStop
  · cases hn; exact w.setReg.modChannel.reply
  · cases hn; exact w.clampClear.reply
  · cases hn; exact w.fifoFlush.reply
  · cases hn

/-! ## The event fabric (R363 to R373) -/

theorem loopRefused (w : Within P b₀ b) : Within P b₀ b.loopRefused := w.aside.raise

theorem fabricDo (w : Within P b₀ b) {r : Route} {index sub v : Nat} (hn : b.fabricDo r index sub v = some n) : Within P b₀ n := by
  unfold Block.fabricDo at hn
  split at hn
  · cases hn; exact (w.raise.ite w.stormRearm).reply
  · split at hn
    · cases hn; exact w.setReg.modTimer.reply
    · split at hn
      · cases hn; exact w.selectWrite.reply
      · cases hn

/-! ## The DMA engine (R387 to R402) -/

theorem dmaCommand (w : Within P b₀ b) {c : ChanId} {v : Nat} {both : Bool} : Within P b₀ (b.dmaCommand c v both) := by
  unfold Block.dmaCommand
  split
  · exact w.dmaBoth.ite w.dmaGo
  · exact w.dmaBoth.ite w.dmaStop
  · exact w.dmaFence
  · exact w.shadowEmpty
  · exact w.abandonSlot

theorem dmaDo (w : Within P b₀ b) {e : Env} {r : Route} {index sub v : Nat} (hn : b.dmaDo e r index sub v = some n) : Within P b₀ n := by
  unfold Block.dmaDo at hn
  split at hn
  · cases hn; exact w.dmaCommand.reply
  · split at hn
    · cases hn; exact w.shadowLoad.reply
    · cases hn

/-! ## The span ring and the host port (R413 to R415, R426, R447 to R461) -/

theorem ringDo (w : Within P b₀ b) {e : Env} {r : Route} {index sub v : Nat} (hmem : P .mem) (hkey : P .keystone) (hcap : P .capture)
    (hheads : ∀ g, P (.head g)) (haxes : ∀ x, P (.axis x)) (hn : b.ringDo e r index sub v = some n) : Within P b₀ n := by
  unfold Block.ringDo at hn
  split at hn
  · split at hn
    · cases hn; exact w.wideWrite hkey hheads haxes
    · cases hn
  · cases hn; exact w.setReg.reroute.reply
  · split at hn
    · cases hn; exact w.ringStart hcap hheads
    · cases hn
  · cases hn; exact w.queueEnable.ite (w.queueDisable.bump.ite w.queueDisable)
  · cases hn; exact w.ackWrite hmem hcap
  · cases hn

/-! ## Saving and restoring (R33 to R36) -/

theorem saveBegin (w : Within P b₀ b) {sub : Nat} {r : Route} : Within P b₀ (b.saveBegin sub r) := by
  unfold Block.saveBegin
  exact w.aside

theorem saveComplete (w : Within P b₀ b) : Within P b₀ b.saveComplete := by
  unfold Block.saveComplete
  split
  · exact w
  · refine reply (aside (w.foldl fun c g v => ?_))
    split
    · exact v.aside
    · exact v

theorem restore (w : Within P b₀ b) {sub : Nat} : Within P b₀ (b.restore sub) := w.foldl (fun _ _ v => v.aside)

/-! ## Feature negotiation (R49, R50) -/

theorem featureRefused (w : Within P b₀ b) {v : Nat} : Within P b₀ (b.featureRefused v) := w.setReg.ite w

theorem failoverFollow (w : Within P b₀ b) {others : Bool} (hkey : P .keystone) (haxes : ∀ x, P (.axis x)) : Within P b₀
    (b.failoverFollow others) := by
  unfold Block.failoverFollow
  exact w.ite (w.sendRing.failoverSet hkey haxes)

theorem modeWrite (w : Within P b₀ b) {v : Nat} : Within P b₀ (b.modeWrite v) := by
  unfold Block.modeWrite
  exact w.setReg.sendRing.ite w.setReg

theorem featuresConfirm (w : Within P b₀ b) {others : Bool} (hkey : P .keystone) (haxes : ∀ x, P (.axis x)) : Within P b₀
    (b.featuresConfirm others) := by
  unfold Block.featuresConfirm
  exact w.setReg.setReg.setReg.failoverFollow hkey haxes

theorem featuresBase (w : Within P b₀ b) (hkey : P .keystone) (haxes : ∀ x, P (.axis x)) : Within P b₀ b.featuresBase :=
  w.setReg.setReg.setReg.failoverFollow hkey haxes

/-! ## Effects -/

theorem dictionaryReset (w : Within P b₀ b) {r : Route} (hmem : P .mem) (hkey : P .keystone) (hcap : P .capture) (hheads : ∀ g, P (.head g))
    (haxes : ∀ x, P (.axis x)) : Within P b₀ (b.dictionaryReset r) :=
  w.reply.pierReset hmem hkey hcap hheads haxes

theorem dictionaryRestart (w : Within P b₀ b) {r : Route} (hcap : P .capture) (hheads : ∀ g, P (.head g)) : Within P b₀ (b.dictionaryRestart r) :=
  w.reply.restartCores hcap hheads

theorem systemDo (w : Within P b₀ b) {e : Env} {r : Route} {index sub v : Nat} (hmem : P .mem) (hkey : P .keystone) (hcap : P .capture)
    (hheads : ∀ g, P (.head g)) (haxes : ∀ x, P (.axis x)) (hn : b.systemDo e r index sub v = some n) : Within P b₀ n := by
  unfold Block.systemDo at hn
  split at hn
  · cases hn; exact w.saveBegin
  · cases hn; exact w.restore.reply
  · cases hn; exact w.modeWrite.reply
  · cases hn; exact ((w.featuresConfirm hkey haxes).ite (w.featuresBase hkey haxes)).reply
  · cases hn; exact w.sleepRequest.ite w.wakeRequest.reply
  · cases hn; exact (w.dictionaryReset hmem hkey hcap hheads haxes).ite (w.dictionaryRestart hcap hheads)
  · cases hn; exact (w.setReg.offer hkey haxes).reply
  · cases hn; exact w.causeClear.reply
  · cases hn
    split
    · exact w.fwWrite
    · exact w.fwActivate hcap hheads
    · exact w.fwConfirm
  · cases hn; exact (w.diagClear hkey).reply
  · cases hn; exact w.logSelect.reply
  · cases hn; exact w.logClear.reply
  · cases hn; exact w.pprHarden.reply
  · cases hn; exact w.mbistCommand hmem
  · cases hn; exact (w.spanLoopback hkey hheads haxes).reply
  · cases hn

theorem recordDo (w : Within P b₀ b) {e : Env} {r : Route} {index sub offset : Nat} {data : List Byte}
    (hn : b.recordDo e r index sub offset data = some n) : Within P b₀ n := by
  unfold Block.recordDo at hn
  split at hn
  · cases hn; exact w.proposeWrite
  · cases hn; exact w.proposeWrite
  · cases hn; exact w.verdict
  · cases hn; exact w.verdict
  · cases hn; exact w.enrol
  · cases hn; exact w.enrol
  · cases hn; exact w.attestNonce
  · cases hn

theorem writeDo (w : Within P b₀ b) {e : Env} {r : Route} {index sub v : Nat} (hmem : P .mem) (hkey : P .keystone) (hcap : P .capture)
    (hheads : ∀ g, P (.head g)) (haxes : ∀ x, P (.axis x)) (hn : b.writeDo e r index sub v = some n) : Within P b₀ n := by
  unfold Block.writeDo at hn
  split at hn
  · exact w.headDo hcap (hheads _) hn
  · split at hn
    · exact w.axisDo hkey hheads haxes hn
    · rcases orElse_eq hn with hn | hn
      · exact w.captureDo hmem hcap hn
      · rcases orElse_eq hn with hn | hn
        · exact w.auxDo hn
        · rcases orElse_eq hn with hn | hn
          · exact w.fabricDo hn
          · rcases orElse_eq hn with hn | hn
            · exact w.dmaDo hn
            · rcases orElse_eq hn with hn | hn
              · exact w.ringDo hmem hkey hcap hheads haxes hn
              · exact w.systemDo hmem hkey hcap hheads haxes hn

theorem store (w : Within P b₀ b) {o : Obj} {v : Nat} (hheads : ∀ g, P (.head g)) : Within P b₀ (b.store o v) := by
  unfold Block.store
  split
  · exact (((w.noteSetting (hheads _)).headBefore (hheads _)).setReg).headStored
  · exact w.setReg

theorem refusalEffect (w : Within P b₀ b) {index sub v : Nat} {c : AbortCode} : Within P b₀ (b.refusalEffect index sub v c) :=
  w.featureRefused.ite (w.loopRefused.ite ((w.bump.ite w).ite w))

theorem storeFor (w : Within P b₀ b) {r : Route} {o : Obj} {v : Nat} (hheads : ∀ g, P (.head g)) : Within P b₀ (b.storeFor r o v) := by
  unfold Block.storeFor
  split
  · exact w.writeUnder
  · exact w.noteWrite.store hheads

theorem writeNumber (w : Within P b₀ b) {e : Env} {r : Route} {row : Row} {index sub : Nat} {data : List Byte} (hmem : P .mem) (hkey : P .keystone)
    (hcap : P .capture) (hheads : ∀ g, P (.head g)) (haxes : ∀ x, P (.axis x)) : Within P b₀ (b.writeNumber e r row index sub data) := by
  unfold Block.writeNumber
  extract_lets
  split
  · exact (w.refusalEffect.ite w).reply
  · exact getD ((w.storeFor hheads).reply) fun _ hn => w.writeDo hmem hkey hcap hheads haxes hn

theorem writeBytes (w : Within P b₀ b) {e : Env} {r : Route} {row : Row} {index sub offset : Nat} {data : List Byte} : Within P b₀
    (b.writeBytes e r row index sub offset data) := by
  unfold Block.writeBytes
  extract_lets
  split
  · exact w.reply
  · exact getD w.reply fun _ hn => w.recordDo hn

theorem dictWriteAt (w : Within P b₀ b) {e : Env} {r : Route} {index sub offset : Nat} {data : List Byte} (hmem : P .mem) (hkey : P .keystone)
    (hcap : P .capture) (hheads : ∀ g, P (.head g)) (haxes : ∀ x, P (.axis x)) : Within P b₀ (b.dictWriteAt e r index sub offset data) := by
  unfold Block.dictWriteAt
  refine ite ?_ ?_
  · exact w
  · split
    · exact w.reply
    · exact w.writeBytes.ite (w.writeNumber hmem hkey hcap hheads haxes)

theorem dictWrite (w : Within P b₀ b) {e : Env} {r : Route} {index sub : Nat} {data : List Byte} (hmem : P .mem) (hkey : P .keystone)
    (hcap : P .capture) (hheads : ∀ g, P (.head g)) (haxes : ∀ x, P (.axis x)) : Within P b₀ (b.dictWrite e r index sub data) :=
  w.dictWriteAt hmem hkey hcap hheads haxes

/-! ## Transfers (R30, R31) -/

theorem modControl (w : Within P b₀ b) {f : Control → Control} : Within P b₀ (b.modControl f) := w.aside
theorem transferDrop (w : Within P b₀ b) {r : Route} {index : Nat} : Within P b₀ (b.transferDrop r index) := w.modControl
theorem transferAbort (w : Within P b₀ b) {r : Route} {index : Nat} {c : AbortCode} : Within P b₀ (b.transferAbort r index c) := w.transferDrop.reply
theorem shadowUnready (w : Within P b₀ b) {index : Nat} : Within P b₀ (b.shadowUnready index) := w.setReg.ite (w.setReg.ite w)

theorem tableTakesForce (w : Within P b₀ b) {index : Nat} {place : List (Nat × Nat)} {t : List Byte} : Within P b₀
    (b.tableTakesForce index place t) :=
  w.modFirmware.ite w.setTable

theorem transferStart (w : Within P b₀ b) {r : Route} {index : Nat} {size : Option Nat} : Within P b₀ (b.transferStart r index size) := by
  unfold Block.transferStart
  extract_lets
  split
  · exact w.reply
  · exact w.shadowUnready.modControl

theorem transferEnd (w : Within P b₀ b) {x : Transfer} {crcOk : Bool} : Within P b₀ (b.transferEnd x crcOk) := by
  unfold Block.transferEnd
  extract_lets
  refine ite ?_ ?_
  · exact w.transferAbort
  · split
    · exact w.transferAbort
    · exact w.transferDrop.tableTakesForce.reply

theorem transferGoesOn (w : Within P b₀ b) {r : Route} {index : Nat} {late : Bool} {f : Transfer → Block → Block}
    (hf : ∀ x c, Within P b₀ c → Within P b₀ (f x c)) : Within P b₀ (b.transferGoesOn r index late f) := by
  unfold Block.transferGoesOn
  split
  · exact w
  · exact w.transferAbort.ite (hf _ _ (w.bump.ite w))

theorem transferPut (w : Within P b₀ b) {y : Transfer} : Within P b₀ (b.transferPut y) := w.modControl

theorem transferSegment (w : Within P b₀ b) {r : Route} {index : Nat} {bytes : List Byte} {last crcOk : Bool} {fault : Option AbortCode}
    {late : Bool} (hmem : P .mem) : Within P b₀ (b.transferSegment r index bytes last crcOk fault late) := by
  refine w.transferGoesOn fun x c v => ?_
  cases fault with
  | some _ => exact v.transferAbort
  | none => exact v.transferAbort.ite ((v.placeWrite hmem).transferPut.transferEnd.ite (v.placeWrite hmem).transferPut)

theorem downloadSegment (w : Within P b₀ b) {r : Route} {index : Nat} {start : Bool} {size : Option Nat} {bytes : List Byte} {last crcOk : Bool}
    {fault : Option AbortCode} {late : Bool} (hmem : P .mem) : Within P b₀ (b.downloadSegment r index start size bytes last crcOk fault late) := by
  unfold Block.downloadSegment
  refine ite ?_ ?_
  · exact w
  · exact (w.transferStart.ite w).ite ((w.transferStart.ite w).transferSegment hmem)

theorem downloadWhole (w : Within P b₀ b) {r : Route} {index : Nat} {bytes : List Byte} (hmem : P .mem) : Within P b₀
    (b.downloadWhole r index bytes) :=
  w.downloadSegment hmem

theorem writePart (w : Within P b₀ b) {e : Env} {r : Route} {index sub : Nat} {data : List Byte} {p : Portion} (hmem : P .mem) (hkey : P .keystone)
    (hcap : P .capture) (hheads : ∀ g, P (.head g)) (haxes : ∀ x, P (.axis x)) : Within P b₀ (b.writePart e r index sub data p) := by
  unfold Block.writePart
  split
  · exact w.dictWrite hmem hkey hcap hheads haxes
  · exact w.transferDrop.modControl
  · exact w.transferGoesOn (fun _ _ v => (v.transferDrop.dictWrite hmem hkey hcap hheads haxes).ite v.transferPut)

theorem readSend (w : Within P b₀ b) {y : Transfer} {n : Nat} : Within P b₀ (b.readSend y n) := by
  unfold Block.readSend
  extract_lets b1 _ _
  have wb1 : Within P b₀ b1 := w.transferDrop.ite w.transferPut
  exact wb1.reply.ite wb1.reply.aside

theorem readPart (w : Within P b₀ b) {r : Route} {index sub : Nat} {p : Portion} : Within P b₀ (b.readPart r index sub p) := by
  unfold Block.readPart
  split
  · exact w.dictRead
  · split
    · exact w.reply
    · exact w.reply
    · exact w.transferDrop.modControl.readSend
  · exact w.transferGoesOn fun _ _ v => v.readSend

theorem transferTimeout (w : Within P b₀ b) {r : Route} {index : Nat} : Within P b₀ (b.transferTimeout r index) := by
  unfold Block.transferTimeout
  split
  · exact w.transferAbort.ite w
  · exact w

/-! ## CAN FD: USDO (R462, R465) -/

theorem usdoSession (w : Within P b₀ b) {client : Fin 128} {f : Block → Block} (hf : ∀ c, Within P b₀ c → Within P b₀ (f c)) : Within P b₀
    (b.usdoSession client f) :=
  w.ite (((hf _ w)).ite (w.reply.ite ((hf _ w.modCan))))

theorem usdoRequest (w : Within P b₀ b) {client : Fin 128} {index sub : Nat} {write : Option (List Byte)} {part : Portion} {e : Env} (hmem : P .mem)
    (hkey : P .keystone) (hcap : P .capture) (hheads : ∀ g, P (.head g)) (haxes : ∀ x, P (.axis x)) : Within P b₀
    (b.usdoRequest client index sub write part e) :=
  w.usdoSession (fun _ v => by
    split
    · exact v.readPart
    · exact v.writePart hmem hkey hcap hheads haxes)

/-! ## CAN FD: PDOs (R466 to R468) -/

theorem modTpdo (w : Within P b₀ b) {n : Fin 8} {f : TpdoState → TpdoState} : Within P b₀ (b.modTpdo n f) := w.modCan
theorem tpdoSend (w : Within P b₀ b) {n : Fin 8} : Within P b₀ (b.tpdoSend n) := w.ite w.emit.modTpdo
theorem canSync (w : Within P b₀ b) : Within P b₀ b.canSync := w.ite (w.foldl (fun _ _ v => v.ite (v.tpdoSend.ite v.modTpdo)))
theorem tpdoTask (w : Within P b₀ b) {n : Fin 8} {withSync : Bool} : Within P b₀ (b.tpdoTask n withSync) := w.ite ((w.bump.ite w).tpdoSend)
theorem tpdoCheck (w : Within P b₀ b) : Within P b₀ b.tpdoCheck := w.foldl (fun _ _ v => v.tpdoSend.ite v)

theorem tpdoTimer (w : Within P b₀ b) {n : Fin 8} : Within P b₀ (b.tpdoTimer n) := by
  unfold Block.tpdoTimer
  exact w.tpdoSend.ite w

theorem rpdoEntry (w : Within P b₀ b) {e : Env} {index sub : Nat} {data : List Byte} (hmem : P .mem) (hkey : P .keystone)
    (hcap : P .capture) (hheads : ∀ g, P (.head g)) (haxes : ∀ x, P (.axis x)) : Within P b₀ (b.rpdoEntry e index sub data) := by
  unfold Block.rpdoEntry
  extract_lets before b1 _ b2
  have wb1 : Within P { b with outs := [] } b1 := (refl P _).dictWrite hmem hkey hcap hheads haxes
  have wb2 : Within P b₀ b2 := w.trans { wb1 with outs := fun _ ho => List.mem_append_left _ ho }
  exact wb2.bump.raise.emcyCause.ite wb2

theorem rpdoEntries (w : Within P b₀ b) {e : Env} {l : List Nat} {data : List Byte} (hmem : P .mem) (hkey : P .keystone)
    (hcap : P .capture) (hheads : ∀ g, P (.head g)) (haxes : ∀ x, P (.axis x)) : Within P b₀ (Block.rpdoEntries e l data b) := by
  induction l generalizing b data with
  | nil => exact w
  | cons m l ih => exact ih (w.rpdoEntry hmem hkey hcap hheads haxes)

theorem rpdoReceived (w : Within P b₀ b) {n : Fin 8} {data : List Byte} {e : Env} (hmem : P .mem) (hkey : P .keystone) (hcap : P .capture)
    (hheads : ∀ g, P (.head g)) (haxes : ∀ x, P (.axis x)) : Within P b₀ (b.rpdoReceived n data e) := by
  unfold Block.rpdoReceived
  exact w.ite (w.emcyCause.ite (w.rpdoEntries hmem hkey hcap hheads haxes))

/-! ## SMBus (R54, R474 to R477) -/

theorem smbRead (w : Within P b₀ b) {index sub offset len : Nat} : Within P b₀ (b.smbRead index sub offset len) := by
  unfold Block.smbRead
  extract_lets
  split
  · exact w.reply
  · exact w.reply
  · exact w.reply.ite w.reply

theorem smbPart (w : Within P b₀ b) {e : Env} {sub offset : Nat} {data : List Byte} (hmem : P .mem) (hkey : P .keystone) (hcap : P .capture)
    (hheads : ∀ g, P (.head g)) (haxes : ∀ x, P (.axis x)) : Within P b₀ (b.smbPart e sub offset data) := by
  unfold Block.smbPart
  exact w.reply.ite (w.reply.ite ((w.modSmb.dictWriteAt hmem hkey hcap hheads haxes).ite w.modSmb.reply))

theorem smbWrite (w : Within P b₀ b) {e : Env} {index sub offset : Nat} {data : List Byte} (hmem : P .mem) (hkey : P .keystone)
    (hcap : P .capture) (hheads : ∀ g, P (.head g)) (haxes : ∀ x, P (.axis x)) : Within P b₀ (b.smbWrite e index sub offset data) := by
  unfold Block.smbWrite
  split
  · exact w.reply
  · dsimp only
    split
    · exact (w.refusalEffect.ite w).reply
    · exact ((w.dictWriteAt hmem hkey hcap hheads haxes).ite (w.smbPart hmem hkey hcap hheads haxes)).ite (w.reply.ite (w.dictWriteAt hmem hkey hcap
        hheads haxes))

theorem smbAsleep (w : Within P b₀ b) {op index sub offset len : Nat} : Within P b₀ (b.smbAsleep op index sub offset len) := w.smbRead.ite w.reply

theorem smbRequest (w : Within P b₀ b) {op index sub offset len : Nat} {data : List Byte} {pecOk : Bool} {e : Env} (hmem : P .mem)
    (hkey : P .keystone) (hcap : P .capture) (hheads : ∀ g, P (.head g)) (haxes : ∀ x, P (.axis x)) :
    Within P b₀ (b.smbRequest op index sub offset len data pecOk e) := by
  unfold Block.smbRequest
  split
  next heq =>
    have ws := heq ▸ w.smbStart
    have wx := ws.modSmb (f := fun x => { x with executing := true, response := none }) |>.raise (n := 944) |>.smbStop
    refine ite ws (ite ws.smbStop (ite ws.bump.smbStop (ite ws.bump.raise.smbStop (ite wx.smbAsleep ?_))))
    split
    · exact wx.smbRead
    · exact wx.smbWrite hmem hkey hcap hheads haxes
    · exact wx.reply

/-! ## The mailbox and the tunnel (R55, R444, R445) -/

theorem mailExecute (w : Within P b₀ b) {r : Route} {abutment opcode index sub length address : Nat} {data table : List Byte} {e : Env}
    (hmem : P .mem) (hkey : P .keystone) (hcap : P .capture) (hheads : ∀ g, P (.head g)) (haxes : ∀ x, P (.axis x)) :
    Within P b₀ (b.mailExecute r abutment opcode index sub length address data table e) := by
  have run : ∀ c : Option AbortCode, Within P b₀ (match c with
      | some c => b.reply r (.abort c)
      | none => match opcode with
        | 1 => b.dictRead r index sub
        | 2 => b.dictWrite e r index sub (padTo length data)
        | 3 => b.downloadWhole r index (table.take length)
        | _ => (b.emit (.hostWrite abutment address (b.readTable index))).reply r .ok) := by
    intro c
    split
    · exact w.reply
    · split
      · exact w.dictRead
      · exact w.dictWrite hmem hkey hcap hheads haxes
      · exact w.downloadWhole hmem
      · exact w.emit.reply
  unfold Block.mailExecute
  cases findRow index sub with
  | none => exact w.reply
  | some row => exact run _

theorem doorbell (w : Within P b₀ b) {s : SlotId} {table : List Byte} {e : Env} (hmem : P .mem) (hkey : P .keystone) (hcap : P .capture)
    (hheads : ∀ g, P (.head g)) (haxes : ∀ x, P (.axis x)) : Within P b₀ (b.doorbell s table e) := by
  unfold Block.doorbell
  exact w.barDrop.ite (w.bump.ite (w.modSlot.reply.ite ((w.modSlot.mailExecute hmem hkey hcap hheads haxes).ite (w.modSlot.emit.ite
      w.modSlot.reply))))

theorem slotWrite (w : Within P b₀ b) {s : SlotId} {bytes : List Byte} : Within P b₀ (b.slotWrite s bytes) := w.barDrop.ite w.modSlot

theorem mailRequest (w : Within P b₀ b) {s : SlotId} {opcode target index sub length tag address : Nat} {data table : List Byte} {e : Env}
    (hmem : P .mem) (hkey : P .keystone) (hcap : P .capture) (hheads : ∀ g, P (.head g)) (haxes : ∀ x, P (.axis x)) : Within P b₀
    (b.mailRequest s opcode target index sub length tag address data table e) :=
  w.ite ((w.slotWrite.doorbell hmem hkey hcap hheads haxes).ite (w.slotWrite.doorbell hmem hkey hcap hheads haxes))

theorem tunnelRequest (w : Within P b₀ b) {abutment : PierId} {opcode index sub length address : Nat} {data table : List Byte} {e : Env}
    (hmem : P .mem) (hkey : P .keystone) (hcap : P .capture) (hheads : ∀ g, P (.head g)) (haxes : ∀ x, P (.axis x)) : Within P b₀
    (b.tunnelRequest abutment opcode index sub length address data table e) :=
  w.ite (w.reply.ite (w.mailExecute hmem hkey hcap hheads haxes))

/-! ## DMA registers (R401) -/

theorem barShadow (w : Within P b₀ b) {c : ChanId} {off v : Nat} {copied : Bool} : Within P b₀ (b.barShadow c off v copied) := by
  unfold Block.barShadow
  extract_lets
  refine ite ?_ ?_
  · exact w.barDrop
  · split
    · exact w.setByBar
    · exact w.setByBar
    · exact w.setByBar
    · exact w.setByBar
    · exact w.setByBar
    · exact w.setByBar.setByBar
    · exact w.setByBar
    · exact w.setByBar
    · exact w.setByBar
    · exact w.setByBar
    · exact w.barDrop.ite w.shadowLoad
    · exact w.setByBar
    · exact w.setByBar
    · exact w.setByBar
    · exact w.ite w.barDrop
    · exact w

theorem barChannel (w : Within P b₀ b) {c : ChanId} {off v : Nat} {both : Bool} : Within P b₀ (b.barChannel c off v both) := by
  unfold Block.barChannel
  extract_lets
  refine ite ?_ ?_
  · exact w.barDrop
  · refine ite ?_ ?_
    · exact w.barShadow
    · split
      · exact w.barDrop.ite w.dmaCommand
      · exact w.barDrop.ite w.setByBar.setByBar
      · exact w.barDrop.ite w.setByBar
      · exact w.barDrop
      · exact w.barDrop
      · exact w

/-! ## Queues and interrupts (R449, R454, R455) -/

theorem barIdle (w : Within P b₀ b) {q : QueueId} {o : Obj} {v : Nat} {ok : Bool} : Within P b₀ (b.barIdle q o v ok) := w.barDrop.ite w.setByBar

theorem barControl (w : Within P b₀ b) {q : QueueId} {v : Nat} {both : Bool} : Within P b₀ (b.barControl q v both) := by
  unfold Block.barControl
  refine ite ?_ ?_
  · exact w.barDrop
  · exact (w.queueErrorClear.ite w).queueEnable.ite (((w.queueErrorClear.ite w).bump.ite (w.queueErrorClear.ite w)).queueDisable)

theorem barQueue64 (w : Within P b₀ b) {q : QueueId} {off v : Nat} (hmem : P .mem) (hcap : P .capture) : Within P b₀ (b.barQueue64 q off v) := by
  unfold Block.barQueue64
  split
  · exact w.barIdle
  · exact w.barDrop.ite (w.ackWrite hmem hcap)
  · exact w.barIdle
  · exact w.barDrop

theorem barQueue (w : Within P b₀ b) {q : QueueId} {off v : Nat} {both : Bool} (hmem : P .mem) (hcap : P .capture) : Within P b₀
    (b.barQueue q off v both) := by
  unfold Block.barQueue
  extract_lets
  split
  · exact w.barIdle
  · exact w.barControl
  · exact w.barDrop
  · exact w.barDrop
  · exact w.barDrop.ite w.setByBar
  · exact w.barDrop.ite w.setByBar
  · exact w.barDrop.ite w.setByBar
  · exact w.barQueue64 hmem hcap
  · exact w.barQueue64 hmem hcap
  · exact w.barQueue64 hmem hcap
  · exact w.barQueue64 hmem hcap
  · exact w.barQueue64 hmem hcap
  · exact w.barQueue64 hmem hcap
  · exact w

theorem barCause (w : Within P b₀ b) {off v firing : Nat} : Within P b₀ (b.barCause off v firing) := by
  unfold Block.barCause
  split
  · exact w.clearCauses
  · exact w.clearCauses
  · exact w.modHost
  · exact w.modHost
  · exact w

theorem barMsix (w : Within P b₀ b) {n : Fin 64} {off v : Nat} : Within P b₀ (b.barMsix n off v) := by
  unfold Block.barMsix
  extract_lets
  split
  · exact w.modHost
  · exact w.modHost
  · exact w.modHost
  · exact w.modHost.modHost.msixSend.ite w.modHost

/-! ## The map (R441) -/

theorem barSlot (w : Within P b₀ b) {s : SlotId} {off v : Nat} {table : List Byte} {e : Env} (hmem : P .mem) (hkey : P .keystone)
    (hcap : P .capture) (hheads : ∀ g, P (.head g)) (haxes : ∀ x, P (.axis x)) : Within P b₀ (b.barSlot s off v table e) := by
  unfold Block.barSlot
  split
  · exact (w.doorbell hmem hkey hcap hheads haxes).ite w.barDrop
  · exact w.barDrop
  · exact w.barDrop
  · exact w

theorem barDword (w : Within P b₀ b) {off v : Nat} {table : List Byte} {e : Env} (hmem : P .mem) (hkey : P .keystone) (hcap : P .capture)
    (hheads : ∀ g, P (.head g)) (haxes : ∀ x, P (.axis x)) : Within P b₀ (b.barDword off v table e) :=
  (w.barDrop.ite w).ite ((w.barSlot hmem hkey hcap hheads haxes).ite (w.barChannel.ite ((w.barDrop.ite w.setByBar).ite ((w.barDrop.ite
      w.setByBar).ite (w.barDrop.ite (w.barDrop.ite ((w.barDrop.ite w.slotWrite).ite ((w.barQueue hmem hcap).ite (w.barCause.ite (w.barMsix.ite
      (w.barDrop.ite w)))))))))))

theorem barPair (w : Within P b₀ b) {off v : Nat} {table : List Byte} {e : Env} (hmem : P .mem) (hkey : P .keystone) (hcap : P .capture)
    (hheads : ∀ g, P (.head g)) (haxes : ∀ x, P (.axis x)) : Within P b₀ (b.barPair off v table e) := by
  unfold Block.barPair
  exact ((w.modHost.barDword hmem hkey hcap hheads haxes).barDword hmem hkey hcap hheads haxes).modHost.ite w.barDrop

theorem barWrite (w : Within P b₀ b) {off size v : Nat} {table : List Byte} {e : Env} (hmem : P .mem) (hkey : P .keystone) (hcap : P .capture)
    (hheads : ∀ g, P (.head g)) (haxes : ∀ x, P (.axis x)) : Within P b₀ (b.barWrite off size v table e) :=
  w.ite ((w.barDword hmem hkey hcap hheads haxes).ite (((w.barQueue64 hmem hcap).ite (w.barPair hmem hkey hcap hheads haxes)).ite w.barDrop))

/-! ## Reads (R441 to R446, R449, R455) -/

theorem barRead (w : Within P b₀ b) {off size : Nat} : Within P b₀ (b.barRead off size) := w.fifoBarReadPart.ite w.emit

theorem barAccess (w : Within P b₀ b) {off size : Nat} {write : Bool} : Within P b₀ (b.barAccess off size write) :=
  w.ite ((w.ite w.barDrop).ite (w.barRead.ite w.emit))

theorem countTask (w : Within P b₀ b) {t : Nat} : Within P b₀ (b.countTask t) := by
  unfold Block.countTask
  exact w.aside

theorem unlatch (w : Within P b₀ b) {t : Nat} : Within P b₀ (b.unlatch t) := w.aside

theorem headTask (w : Within P b₀ b) {h : HeadId} {k : Nat} {stamp : Time} {e : Env} (hcap : P .capture) (hh : P (.head h)) : Within P b₀
    (b.headTask h k stamp e) := by
  unfold Block.headTask
  split
  · exact w.taskTrigger hh
  · exact w.headStart hcap hh
  · exact w.headStop hcap hh
  · exact w.syncPulse
  · exact w.ilvFreeze hh
  · exact w.ilvUnfreeze hh
  · exact w.rangeCommitTask
  · exact w.calStartTask
  · exact w.calAbortTask
  · exact w.corrSwapTask
  · exact w.stitchCalStartTask
  · exact w.stitchCalAbortTask
  · exact w.geometrySwapTask
  · exact w.illumBlank
  · exact w.illumUnblank
  · exact w.illumRestart
  · exact w

theorem axisTask (w : Within P b₀ b) {a : AxisId} {k : Nat} {stamp : Time} {e : Env} (hkey : P .keystone) (hheads : ∀ g, P (.head g))
    (ha : P (.axis a)) : Within P b₀ (b.axisTask a k stamp e) := by
  unfold Block.axisTask
  extract_lets
  split
  · exact w.axisStart hkey ha
  · exact w.axisStop hkey ha
  · exact w.taskOr (fun _ v => v.halt ha)
  · exact w.taskOr (fun _ v1 => v1.quickStop ha)
  · exact w.taskOr (fun _ v2 => v2.moveUnless (fun _ v3 => v3.moveTo ha))
  · exact w.taskOr (fun _ v4 => v4.moveUnless (fun _ v5 => v5.home ha))
  · exact w.clearMotion hkey hheads ha
  · exact (w.pageStartBy hkey hheads ha).ite ((w.pageStartBy hkey hheads ha).ite w)
  · exact (w.pageEndBy hkey hheads ha).ite w
  · exact (w.pauseBy hkey ha).ite w
  · exact (w.releaseBy hkey ha).ite w
  · exact w

theorem pierTask (w : Within P b₀ b) {t : Nat} {stamp : Time} {e : Env} {mv : List Nat} (hmem : P .mem) (hkey : P .keystone) (hcap : P .capture)
    (hheads : ∀ g, P (.head g)) (haxes : ∀ x, P (.axis x)) : Within P b₀ (b.pierTask t stamp e mv) :=
  w.sleepRequest.ite (w.wakeTask.ite (w.railLatch.ite (w.excitationOff.ite ((w.excitationOff.ite w.excitationOn).ite (w.clampClearAll.ite
      (w.seqStart.ite (w.seqStop.ite (w.refBufferOn.ite (w.fifoFlush.ite (((w.burstMeet hmem hcap).ite w).ite ((w.captureArm hcap).ite
      ((w.captureDisarm hcap).ite ((w.spanRetrain hkey hheads haxes).ite ((w.spanRetrain hkey hheads haxes).ite (w.timeLatch.ite (w.dmaFenceTask.ite
      (w.dmaStopTask.ite ((w.dmaBoth.ite w.dmaRequest).ite (w.interruptTask.ite (w.tpdoTask.ite (w.alertTask.ite ((w.timerA.ite (w.timerA.ite
      w.timerB)).ite w))))))))))))))))))))))

theorem taskDo (w : Within P b₀ b) {t : Nat} {stamp : Time} {e : Env} {mv : List Nat} (hmem : P .mem) (hkey : P .keystone) (hcap : P .capture)
    (hheads : ∀ g, P (.head g)) (haxes : ∀ x, P (.axis x)) : Within P b₀ (b.taskDo t stamp e mv) :=
  (w.headTask hcap (hheads _)).ite ((w.axisTask hkey hheads (haxes _)).ite (w.pierTask hmem hkey hcap hheads haxes))

theorem sampled (w : Within P b₀ b) {t : Nat} {e : Env} {mv : List Nat} (hmem : P .mem) (hkey : P .keystone) (hcap : P .capture)
    (hheads : ∀ g, P (.head g)) (haxes : ∀ x, P (.axis x)) : Within P b₀ (b.sampled t e mv) := by
  unfold Block.sampled
  exact w.unlatch.ite ((w.unlatch.taskDo hmem hkey hcap hheads haxes).ite ((w.unlatch.unlatch.taskDo hmem hkey hcap hheads haxes).ite
      (((((w.unlatch.foldl (fun _ _ v1 => v1.unlatch)).countTask).taskDo hmem hkey hcap hheads haxes).foldl (fun _ _ v3 => v3.taskDo hmem hkey hcap
      hheads haxes)).ite (((w.unlatch.foldl (fun _ _ v4 => v4.unlatch.countTask.taskDo hmem hkey hcap hheads haxes)).taskDo hmem hkey hcap hheads
      haxes).ite (w.unlatch.taskDo hmem hkey hcap hheads haxes)))))

theorem latchSampled (w : Within P b₀ b) {t : Nat} {e : Env} {mv : List Nat} (hmem : P .mem) (hkey : P .keystone) (hcap : P .capture)
    (hheads : ∀ g, P (.head g)) (haxes : ∀ x, P (.axis x)) : Within P b₀ (b.latchSampled t e mv) :=
  (w.sampled hmem hkey hcap hheads haxes).ite w

theorem writeTo (w : Within P b₀ b) {o : Obj} {v : Nat} {r : Route} {e : Env} (hmem : P .mem) (hkey : P .keystone) (hcap : P .capture)
    (hheads : ∀ g, P (.head g)) (haxes : ∀ x, P (.axis x)) : Within P b₀ (b.writeTo o v r e) :=
  w.dictWrite hmem hkey hcap hheads haxes

theorem orTask (w : Within P b₀ b) {r : Option Route} {o : Obj} {v task : Nat} {e : Env} (hmem : P .mem) (hkey : P .keystone) (hcap : P .capture)
    (hheads : ∀ g, P (.head g)) (haxes : ∀ x, P (.axis x)) : Within P b₀ (b.orTask r o v task e) := by
  unfold Block.orTask
  split
  · exact w.writeTo hmem hkey hcap hheads haxes
  · exact w.sampled hmem hkey hcap hheads haxes

theorem channelCommand (w : Within P b₀ b) {c : ChanId} {v : Nat} {p : Port} {e : Env} (hmem : P .mem) (hkey : P .keystone) (hcap : P .capture)
    (hheads : ∀ g, P (.head g)) (haxes : ∀ x, P (.axis x)) : Within P b₀ (b.channelCommand c v p e) := by
  unfold Block.channelCommand
  split
  · exact w.writeTo hmem hkey hcap hheads haxes
  · exact w.barWrite hmem hkey hcap hheads haxes
  · exact (w.sampled hmem hkey hcap hheads haxes).ite w

theorem queueWrite (w : Within P b₀ b) {q : QueueId} {o : Obj} {off size v : Nat} {r : Option Route} {e : Env} (hmem : P .mem) (hkey : P .keystone)
    (hcap : P .capture) (hheads : ∀ g, P (.head g)) (haxes : ∀ x, P (.axis x)) : Within P b₀ (b.queueWrite q o off size v r e) := by
  unfold Block.queueWrite
  split
  · exact w.writeTo hmem hkey hcap hheads haxes
  · exact w.barWrite hmem hkey hcap hheads haxes

/-! ## Burst triggers (R214) -/

theorem burstPin (w : Within P b₀ b) {h : HeadId} {falling : Bool} {width : Nat} {m : BurstMeet} (hmem : P .mem) (hcap : P .capture) : Within P b₀
    (b.burstPin h falling width m) :=
  w.ite ((w.raise.burstMeet hmem hcap).ite w.raise)

theorem burstDue (w : Within P b₀ b) {m : BurstMeet} (hmem : P .mem) (hcap : P .capture) : Within P b₀ (b.burstDue m) := by
  unfold Block.burstDue
  exact (w.burstMeet hmem hcap).ite w

theorem burstReceived (w : Within P b₀ b) {bTime : Time} {m : BurstMeet} (hmem : P .mem) (hcap : P .capture) : Within P b₀
    (b.burstReceived bTime m) :=
  (w.burstMeet hmem hcap).ite w

/-! ## Axes -/

theorem axisEvent (w : Within P b₀ b) {a : AxisId} {f : Block → Block} (hkey : P .keystone) (ha : P (.axis a))
    (hf : ∀ c, Within P b₀ c → Within P b₀ (f c)) : Within P b₀ (b.axisEvent a f) := by
  unfold Block.axisEvent
  exact (((hf _ w)).keyFault hkey).ite (((hf _ w)).keyRecover hkey ha)

theorem profileUpdate (w : Within P b₀ b) {a : AxisId} (hkey : P .keystone) (ha : P (.axis a)) : Within P b₀ (b.profileUpdate a) :=
  (((w.profileStep ha)).keyFault hkey).ite ((w.profileStep ha))

/-! ## The auxiliary FIFO -/

theorem fifoRequest (w : Within P b₀ b) {r : Route} : Within P b₀ (b.fifoRequest r) := w.dictRead.ite w

/-! ## Management buses and the test access port -/

theorem nmtAt (w : Within P b₀ b) {node : Nat} {f : Block → Block} (hf : ∀ c, Within P b₀ c → Within P b₀ (f c)) : Within P b₀ (b.nmtAt node f) :=
  ((hf _ w)).ite w

theorem tableSegment (w : Within P b₀ b) {r : Route} {index : Nat} {start : Bool} {size : Option Nat} {bytes : List Byte} {last crcOk : Bool}
    {fault : Option AbortCode} {late : Bool} (hmem : P .mem) : Within P b₀ (b.tableSegment r index start size bytes last crcOk fault late) := by
  unfold Block.tableSegment
  extract_lets
  split
  · exact (w.usdoSession (fun _ v => v.downloadSegment hmem)).ite ((w.downloadSegment hmem).ite w)
  · exact w.downloadSegment hmem

theorem tapCommand (w : Within P b₀ b) {i : TapInstr} {scan : Option (BitVec 360 × BitVec 360)} (hkey : P .keystone) (hcap : P .capture)
    (hheads : ∀ g, P (.head g)) (haxes : ∀ x, P (.axis x)) : Within P b₀ (b.tapCommand i scan) := by
  unfold Block.tapCommand
  extract_lets b1
  have wb1 : Within P b₀ b1 := w.tapInstr hkey hcap hheads haxes
  split
  · exact wb1.tapScan
  · exact wb1

theorem wakeBy (w : Within P b₀ b) {bitNo : Fin 6} {e : Env} (hmem : P .mem) (hkey : P .keystone) (hcap : P .capture)
    (hheads : ∀ g, P (.head g)) (haxes : ∀ x, P (.axis x)) : Within P b₀ (b.wakeBy bitNo e) :=
  dite (fun _ => w.wakeSource) (w.wakeRequest.ite (w.sampled hmem hkey hcap hheads haxes))


end Within
end Block
end Sys2Proof.Machine

namespace Sys2Proof.Machine
set_option Elab.async false
open Block Within

/-- Every piece may be touched. -/
def All : Piece → Prop := fun _ => True

/-- The command is one operation on the pier at its instant, and the operation keeps the stores canonical. -/
inductive Operates (e : State → Host.Outcome State Fault Refusal) : Prop
  | intro {t : Time} {f : Block → Block} (run_eq : ∀ s, e s = run t f s) (within : ∀ b, Within All b (f b))

/-- Each command, by the lemma of the operation that it runs. -/
theorem operates (i : Instr) : Operates (exec i) := by
  have hmem : All .mem := trivial
  have hkey : All .keystone := trivial
  have hcap : All .capture := trivial
  have hheads : ∀ g, All (.head g) := fun _ => trivial
  have haxes : ∀ x, All (.axis x) := fun _ => trivial
  unfold exec
  cases i <;> dsimp only
  case dictionaryWrite => exact .intro (fun _ => rfl) fun b => (refl All b).dictWrite hmem hkey hcap hheads haxes
  case bar0Write => exact .intro (fun _ => rfl) fun b => (refl All b).barWrite hmem hkey hcap hheads haxes
  case bar0UnsupportedAccess => exact .intro (fun _ => rfl) fun b => (refl All b).barAccess
  case levelWrite => exact .intro (fun _ => rfl) fun b => (refl All b).dictWrite hmem hkey hcap hheads haxes
  case save => exact .intro (fun _ => rfl) fun b => (refl All b).writeTo hmem hkey hcap hheads haxes
  case saveComplete => exact .intro (fun _ => rfl) fun b => (refl All b).saveComplete
  case restore => exact .intro (fun _ => rfl) fun b => (refl All b).writeTo hmem hkey hcap hheads haxes
  case tableDownloadSegment => exact .intro (fun _ => rfl) fun b => (refl All b).tableSegment hmem
  case transferTimeout => exact .intro (fun _ => rfl) fun b => (refl All b).transferTimeout
  case featuresConfirm => exact .intro (fun _ => rfl) fun b => (refl All b).writeTo hmem hkey hcap hheads haxes
  case featuresBase => exact .intro (fun _ => rfl) fun b => (refl All b).writeTo hmem hkey hcap hheads haxes
  case headStart => exact .intro (fun _ => rfl) fun b => (refl All b).orTask hmem hkey hcap hheads haxes
  case headPllLocked => exact .intro (fun _ => rfl) fun b => (refl All b).headLocked hcap (hheads _)
  case headLockTimeout => exact .intro (fun _ => rfl) fun b => (refl All b).lockTimeout hcap (hheads _)
  case headStop => exact .intro (fun _ => rfl) fun b => (refl All b).orTask hmem hkey hcap hheads haxes
  case headLockLost => exact .intro (fun _ => rfl) fun b => (refl All b).lockLost hcap (hheads _)
  case timeTrigger => exact .intro (fun _ => rfl) fun b => (refl All b).timeTrigger (hheads _)
  case scheduledTrigger => exact .intro (fun _ => rfl) fun b => (refl All b).scheduledTrigger hcap (hheads _)
  case pinTrigger => exact .intro (fun _ => rfl) fun b => (refl All b).pinTrigger (hheads _)
  case triggerTask => exact .intro (fun _ => rfl) fun b => (refl All b).sampled hmem hkey hcap hheads haxes
  case triggerFire => exact .intro (fun _ => rfl) fun b => (refl All b).writeTo hmem hkey hcap hheads haxes
  case exposureEnd => exact .intro (fun _ => rfl) fun b => (refl All b).exposureEnd (hheads _)
  case windowClose => exact .intro (fun _ => rfl) fun b => (refl All b).windowClose hcap (hheads _)
  case triggerTimeout => exact .intro (fun _ => rfl) fun b => (refl All b).triggerTimeout (hheads _)
  case triggerCountReached => exact .intro (fun _ => rfl) fun b => (refl All b).triggerCountEnd hcap (hheads _)
  case syncPulseTask => exact .intro (fun _ => rfl) fun b => (refl All b).sampled hmem hkey hcap hheads haxes
  case lineLeavesQueue => exact .intro (fun _ => rfl) fun b => (refl All b).lineLeaves hmem hcap (hheads _)
  case rangeCommit => exact .intro (fun _ => rfl) fun b => (refl All b).orTask hmem hkey hcap hheads haxes
  case pedestalLoopUpdate => exact .intro (fun _ => rfl) fun b => (refl All b).pedestalUpdate (hheads _)
  case ilvWindowComplete => exact .intro (fun _ => rfl) fun b => (refl All b).ilvWindows (hheads _)
  case ilvFreeze => exact .intro (fun _ => rfl) fun b => (refl All b).orTask hmem hkey hcap hheads haxes
  case ilvUnfreeze => exact .intro (fun _ => rfl) fun b => (refl All b).orTask hmem hkey hcap hheads haxes
  case ilvConvergenceTimeout => exact .intro (fun _ => rfl) fun b => (refl All b).ilvTimeout
  case tempHoldExpiry => exact .intro (fun _ => rfl) fun b => (refl All b).tempExpire
  case shadowReadyWrite => exact .intro (fun _ => rfl) fun b => (refl All b).writeTo hmem hkey hcap hheads haxes
  case corrSwap => exact .intro (fun _ => rfl) fun b => (refl All b).orTask hmem hkey hcap hheads haxes
  case corrPrepare => exact .intro (fun _ => rfl) fun b => (refl All b).writeTo hmem hkey hcap hheads haxes
  case prepareComplete => exact .intro (fun _ => rfl) fun b => (refl All b).prepareComplete
  case calStart => exact .intro (fun _ => rfl) fun b => (refl All b).orTask hmem hkey hcap hheads haxes
  case calAbort => exact .intro (fun _ => rfl) fun b => (refl All b).orTask hmem hkey hcap hheads haxes
  case calPhaseEnd => exact .intro (fun _ => rfl) fun b => (refl All b).calPhaseEnd
  case calDeriveComplete => exact .intro (fun _ => rfl) fun b => (refl All b).calDone
  case stitchShadowReady => exact .intro (fun _ => rfl) fun b => (refl All b).writeTo hmem hkey hcap hheads haxes
  case stitchSwap => exact .intro (fun _ => rfl) fun b => (refl All b).orTask hmem hkey hcap hheads haxes
  case stitchCalStart => exact .intro (fun _ => rfl) fun b => (refl All b).orTask hmem hkey hcap hheads haxes
  case stitchCalAbort => exact .intro (fun _ => rfl) fun b => (refl All b).orTask hmem hkey hcap hheads haxes
  case stitchCalPhaseEnd => exact .intro (fun _ => rfl) fun b => (refl All b).stitchCalPhaseEnd
  case stitchDeriveComplete => exact .intro (fun _ => rfl) fun b => (refl All b).stitchCalDone
  case captureTriggerFire => exact .intro (fun _ => rfl) fun b => (refl All b).writeTo hmem hkey hcap hheads haxes
  case burstTriggerTask => exact .intro (fun _ => rfl) fun b => (refl All b).sampled hmem hkey hcap hheads haxes
  case burstTriggerPin => exact .intro (fun _ => rfl) fun b => (refl All b).burstPin hmem hcap
  case captureTriggerDue => exact .intro (fun _ => rfl) fun b => (refl All b).burstDue hmem hcap
  case burstBroadcastReceived => exact .intro (fun _ => rfl) fun b => (refl All b).burstReceived hmem hcap
  case captureArm => exact .intro (fun _ => rfl) fun b => (refl All b).orTask hmem hkey hcap hheads haxes
  case captureDisarm => exact .intro (fun _ => rfl) fun b => (refl All b).orTask hmem hkey hcap hheads haxes
  case captureDiscard => exact .intro (fun _ => rfl) fun b => (refl All b).writeTo hmem hkey hcap hheads haxes
  case ringRecordArrives => exact .intro (fun _ => rfl) fun b => (refl All b).ringRecord hmem hcap
  case drainLevelPublish => exact .intro (fun _ => rfl) fun b => (refl All b).drainPublish hkey haxes
  case levelReportReceived => exact .intro (fun _ => rfl) fun b => (refl All b).levelReport hkey haxes
  case levelTimeout => exact .intro (fun _ => rfl) fun b => (refl All b).levelTimeout hkey haxes
  case pageStart => exact .intro (fun _ => rfl) fun b => (refl All b).orTask hmem hkey hcap hheads haxes
  case pageEnd => exact .intro (fun _ => rfl) fun b => (refl All b).orTask hmem hkey hcap hheads haxes
  case forcedPause => exact .intro (fun _ => rfl) fun b => (refl All b).orTask hmem hkey hcap hheads haxes
  case pageRelease => exact .intro (fun _ => rfl) fun b => (refl All b).orTask hmem hkey hcap hheads haxes
  case pageAxisAtRest => exact .intro (fun _ => rfl) fun b => (refl All b).pageAtRest hkey hheads haxes
  case parkReached => exact .intro (fun _ => rfl) fun b => (refl All b).parkReached hkey haxes
  case resumeConditionsMet => exact .intro (fun _ => rfl) fun b => (refl All b).resumeMet hkey haxes
  case idleLineTimer => exact .intro (fun _ => rfl) fun b => (refl All b).idleTimer hkey hheads
  case idleMarkReceived => exact .intro (fun _ => rfl) fun b => (refl All b).receiveIdle hheads
  case axisEnable => exact .intro (fun _ => rfl) fun b => (refl All b).orTask hmem hkey hcap hheads haxes
  case axisDisable => exact .intro (fun _ => rfl) fun b => (refl All b).orTask hmem hkey hcap hheads haxes
  case axisDisableComplete => exact .intro (fun _ => rfl) fun b => (refl All b).axisOffDone (haxes _)
  case moveTo => exact .intro (fun _ => rfl) fun b => (refl All b).orTask hmem hkey hcap hheads haxes
  case jog => exact .intro (fun _ => rfl) fun b => (refl All b).writeTo hmem hkey hcap hheads haxes
  case home => exact .intro (fun _ => rfl) fun b => (refl All b).orTask hmem hkey hcap hheads haxes
  case homingReferenceFound => exact .intro (fun _ => rfl) fun b => (refl All b).axisEvent hkey (haxes _) (fun _ v => v.homingFound hheads (haxes _))
  case homingFailed => exact .intro (fun _ => rfl) fun b => (refl All b).homingFailed (haxes _)
  case halt => exact .intro (fun _ => rfl) fun b => (refl All b).orTask hmem hkey hcap hheads haxes
  case quickStop => exact .intro (fun _ => rfl) fun b => (refl All b).orTask hmem hkey hcap hheads haxes
  case clearMotionFault => exact .intro (fun _ => rfl) fun b => (refl All b).orTask hmem hkey hcap hheads haxes
  case profileUpdate => exact .intro (fun _ => rfl) fun b => (refl All b).profileUpdate hkey (haxes _)
  case pwmPeriod => exact .intro (fun _ => rfl) fun b => (refl All b).axisEvent hkey (haxes _) (fun _ v => v.pwmPeriod (haxes _))
  case holdCurrentDelay => exact .intro (fun _ => rfl) fun b => (refl All b).holdCurrent (haxes _)
  case encoderEdge => exact .intro (fun _ => rfl) fun b => (refl All b).axisEvent hkey (haxes _) (fun _ v => v.encoderEdge hheads (haxes _))
  case encoderCrossing => exact .intro (fun _ => rfl) fun b => (refl All b).encoderCrossing hkey hheads (haxes _)
  case encoderError => exact .intro (fun _ => rfl) fun b => (refl All b).axisEvent hkey (haxes _) (fun _ v => v.encoderErrorBy hheads (haxes _))
  case deviationTrip => exact .intro (fun _ => rfl) fun b => (refl All b).axisEvent hkey (haxes _) (fun _ v => v.deviationTrip hheads (haxes _))
  case deviationRealign => exact .intro (fun _ => rfl) fun b => (refl All b).axisEvent hkey (haxes _) (fun _ v => v.deviationRealign hheads (haxes _))
  case limitSwitchActive => exact .intro (fun _ => rfl) fun b => (refl All b).axisEvent hkey (haxes _) (fun _ v => v.limitActive (haxes _))
  case limitSwitchRelease => exact .intro (fun _ => rfl) fun b => (refl All b).axisEvent hkey (haxes _) (fun _ v => v.limitRelease hheads (haxes _))
  case powerStageFault => exact .intro (fun _ => rfl) fun b => (refl All b).axisEvent hkey (haxes _) (fun _ v => v.stageFault (haxes _))
  case broadcastClaim => exact .intro (fun _ => rfl) fun b => (refl All b).writeTo hmem hkey hcap hheads haxes
  case positionBroadcast => exact .intro (fun _ => rfl) fun b => (refl All b).positionBroadcast
  case crossingReceived => exact .intro (fun _ => rfl) fun b => (refl All b).receiveCrossing hheads
  case broadcastTriggerDue => exact .intro (fun _ => rfl) fun b => (refl All b).broadcastFire hkey (hheads _)
  case positionLatchReceived => exact .intro (fun _ => rfl) fun b => (refl All b).positionLatched hheads
  case seqRestart => exact .intro (fun _ => rfl) fun b => (refl All b).orTask hmem hkey hcap hheads haxes
  case illumBlank => exact .intro (fun _ => rfl) fun b => (refl All b).sampled hmem hkey hcap hheads haxes
  case illumUnblank => exact .intro (fun _ => rfl) fun b => (refl All b).sampled hmem hkey hcap hheads haxes
  case boostAdapt => exact .intro (fun _ => rfl) fun b => (refl All b).boostAdapt
  case boostOvervoltage => exact .intro (fun _ => rfl) fun b => (refl All b).boostOver
  case selectFrameComplete => exact .intro (fun _ => rfl) fun b => (refl All b).frameComplete
  case excitationOff => exact .intro (fun _ => rfl) fun b => (refl All b).sampled hmem hkey hcap hheads haxes
  case excitationOn => exact .intro (fun _ => rfl) fun b => (refl All b).sampled hmem hkey hcap hheads haxes
  case excitationOverload => exact .intro (fun _ => rfl) fun b => (refl All b).overload
  case excitationOverloadClear => exact .intro (fun _ => rfl) fun b => (refl All b).overloadClear
  case clampEngage => exact .intro (fun _ => rfl) fun b => (refl All b).clampEngage
  case clampRelease => exact .intro (fun _ => rfl) fun b => (refl All b).clampRelease
  case clampRecoveryEnd => exact .intro (fun _ => rfl) fun b => (refl All b).clampRecovered
  case clampClear => exact .intro (fun _ => rfl) fun b => (refl All b).orTask hmem hkey hcap hheads haxes
  case wireBreakTrip => exact .intro (fun _ => rfl) fun b => (refl All b).wireBreak
  case wireBreakClear => exact .intro (fun _ => rfl) fun b => (refl All b).wireWhole
  case echoPeriod => exact .intro (fun _ => rfl) fun b => (refl All b).echoPeriod
  case seqStart => exact .intro (fun _ => rfl) fun b => (refl All b).orTask hmem hkey hcap hheads haxes
  case seqStop => exact .intro (fun _ => rfl) fun b => (refl All b).orTask hmem hkey hcap hheads haxes
  case seqStopComplete => exact .intro (fun _ => rfl) fun b => (refl All b).seqStopped
  case refBufferOn => exact .intro (fun _ => rfl) fun b => (refl All b).sampled hmem hkey hcap hheads haxes
  case refBufferReady => exact .intro (fun _ => rfl) fun b => (refl All b).refBufferReady
  case passStart => exact .intro (fun _ => rfl) fun b => (refl All b).passStart
  case entryExecution => exact .intro (fun _ => rfl) fun b => (refl All b).execution
  case conversionComplete => exact .intro (fun _ => rfl) fun b => (refl All b).conversion
  case chopReversal => exact .intro (fun _ => rfl) fun b => (refl All b).chopReversal
  case continuousTestPulse => exact .intro (fun _ => rfl) fun b => (refl All b).testPulse
  case filterWindowBoundary => exact .intro (fun _ => rfl) fun b => (refl All b).windowBoundary
  case fifoRead => exact .intro (fun _ => rfl) fun b => (refl All b).fifoRequest
  case fifoBar0Read => exact .intro (fun _ => rfl) fun b => (refl All b).fifoBarRead
  case fifoFlush => exact .intro (fun _ => rfl) fun b => (refl All b).orTask hmem hkey hcap hheads haxes
  case taskSelectWrite => exact .intro (fun _ => rfl) fun b => (refl All b).writeTo hmem hkey hcap hheads haxes
  case taskLatchSampled => exact .intro (fun _ => rfl) fun b => (refl All b).latchSampled hmem hkey hcap hheads haxes
  case relayInput => exact .intro (fun _ => rfl) fun b => ((refl All b).relayInput).ite (refl All b)
  case stormWindowClose => exact .intro (fun _ => rfl) fun b => (refl All b).stormClose
  case stormRearm => exact .intro (fun _ => rfl) fun b => (refl All b).writeTo hmem hkey hcap hheads haxes
  case fabricFire => exact .intro (fun _ => rfl) fun b => (refl All b).writeTo hmem hkey hcap hheads haxes
  case timerATask => exact .intro (fun _ => rfl) fun b => (refl All b).sampled hmem hkey hcap hheads haxes
  case timerBTask => exact .intro (fun _ => rfl) fun b => (refl All b).sampled hmem hkey hcap hheads haxes
  case timerPeriodEnd => exact .intro (fun _ => rfl) fun b => (refl All b).timerEnd
  case alarmDue => exact .intro (fun _ => rfl) fun b => (refl All b).timerEnd
  case dmaShadowLoad =>
    refine .intro (fun _ => rfl) fun b => ?_
    split
    · exact (refl All b).writeTo hmem hkey hcap hheads haxes
    · exact (refl All b).barWrite hmem hkey hcap hheads haxes
  case dmaGo => exact .intro (fun _ => rfl) fun b => (refl All b).channelCommand hmem hkey hcap hheads haxes
  case dmaStop => exact .intro (fun _ => rfl) fun b => (refl All b).channelCommand hmem hkey hcap hheads haxes
  case dmaFence => exact .intro (fun _ => rfl) fun b => (refl All b).channelCommand hmem hkey hcap hheads haxes
  case dmaEmptyShadow => exact .intro (fun _ => rfl) fun b => (refl All b).channelCommand hmem hkey hcap hheads haxes
  case dmaAbandonSlot => exact .intro (fun _ => rfl) fun b => (refl All b).abandonSlot
  case dmaRequest => exact .intro (fun _ => rfl) fun b => ((refl All b).sampled hmem hkey hcap hheads haxes).ite (refl All b)
  case dmaFenceTask => exact .intro (fun _ => rfl) fun b => (refl All b).sampled hmem hkey hcap hheads haxes
  case dmaStopTask => exact .intro (fun _ => rfl) fun b => (refl All b).sampled hmem hkey hcap hheads haxes
  case dmaBeat => exact .intro (fun _ => rfl) fun b => (refl All b).dmaBeat hmem hcap
  case dmaLinkFetchDone => exact .intro (fun _ => rfl) fun b => (refl All b).linkFetched
  case dmaBusError =>
    refine .intro (fun _ => rfl) fun b => ?_
    extract_lets b1
    have wb1 : Within All b b1 := (refl All b).dmaError
    split
    · exact (wb1.rowCandidate hcap).ite wb1
    · exact wb1
  case dmaRingAckTimeout => exact .intro (fun _ => rfl) fun b => (refl All b).dmaError
  case fenceProven => exact .intro (fun _ => rfl) fun b => (refl All b).fenceProven
  case softRepair => exact .intro (fun _ => rfl) fun b => (refl All b).softRepair hcap
  case spanTraining => exact .intro (fun _ => rfl) fun b => (refl All b).ite ((refl All b).spanTraining)
  case spanRetrain => exact .intro (fun _ => rfl) fun b => (refl All b).sampled hmem hkey hcap hheads haxes
  case trainingComplete => exact .intro (fun _ => rfl) fun b => (refl All b).trainingComplete hheads
  case laneFailure => exact .intro (fun _ => rfl) fun b => (refl All b).laneFailure hkey hheads haxes
  case spareInService => exact .intro (fun _ => rfl) fun b => (refl All b).spareInService hkey haxes
  case spanDown => exact .intro (fun _ => rfl) fun b => (refl All b).spanDown hkey hheads haxes
  case dataFrameReceived => exact .intro (fun _ => rfl) fun b => (refl All b).dataFrame hmem hcap
  case replayRequest => exact .intro (fun _ => rfl) fun b => (refl All b).replayRequest hkey hheads haxes
  case messageForward => exact .intro (fun _ => rfl) fun b => (refl All b).messageForward hkey hcap hheads haxes
  case tunnelRequestReceived => exact .intro (fun _ => rfl) fun b => (refl All b).tunnelRequest hmem hkey hcap hheads haxes
  case ringDmaFrame => exact .intro (fun _ => rfl) fun b => (refl All b).ringDmaFrame hmem
  case ackFrameReceived => exact .intro (fun _ => rfl) fun b => (refl All b).ackFrame hmem hcap
  case pathHoldEnd => exact .intro (fun _ => rfl) fun b => (refl All b).pathHoldEnd
  case timeSyncSend => exact .intro (fun _ => rfl) fun b => (refl All b).timeSyncSend
  case timeSyncReceived => exact .intro (fun _ => rfl) fun b => (refl All b).timeSync hheads
  case hopDelayExchange => exact .intro (fun _ => rfl) fun b => (refl All b).hopDelayExchange
  case holdoverTimeout => exact .intro (fun _ => rfl) fun b => (refl All b).holdoverTimeout hheads
  case timeSourceRegained => exact .intro (fun _ => rfl) fun b => (refl All b).timeRegained hcap hheads
  case timeLatch => exact .intro (fun _ => rfl) fun b => (refl All b).sampled hmem hkey hcap hheads haxes
  case epochChange => exact .intro (fun _ => rfl) fun b => (refl All b).epochChange hkey hheads haxes
  case epochJoin => exact .intro (fun _ => rfl) fun b => (refl All b).epochJoin hkey hcap hheads haxes
  case ringWideWrite =>
    refine .intro (fun _ => rfl) fun b => ?_
    split
    · exact (refl All b).writeTo hmem hkey hcap hheads haxes
    · exact (refl All b).writeTo hmem hkey hcap hheads haxes
    · exact (refl All b).writeTo hmem hkey hcap hheads haxes
  case governorCapMessage => exact .intro (fun _ => rfl) fun b => (refl All b).capMessage
  case ringStart => exact .intro (fun _ => rfl) fun b => (refl All b).writeTo hmem hkey hcap hheads haxes
  case pcieResetRelease => exact .intro (fun _ => rfl) fun b => (refl All b).pcieRelease
  case linkUp => exact .intro (fun _ => rfl) fun b => (refl All b).linkUp hkey haxes
  case linkDown => exact .intro (fun _ => rfl) fun b => (refl All b).linkDown hkey haxes
  case busMasterSet => exact .intro (fun _ => rfl) fun b => (refl All b).busMasterSet hkey haxes
  case busMasterClear => exact .intro (fun _ => rfl) fun b => (refl All b).busMasterClear hkey haxes
  case functionLevelReset => exact .intro (fun _ => rfl) fun b => (refl All b).flr hkey haxes
  case d3hotEntry => exact .intro (fun _ => rfl) fun b => (refl All b).d3hotEntry hkey haxes
  case fatalError => exact .intro (fun _ => rfl) fun b => (refl All b).fatalError hkey haxes
  case mailboxRead => exact .intro (fun _ => rfl) fun b => (refl All b).mailRequest hmem hkey hcap hheads haxes
  case mailboxWrite => exact .intro (fun _ => rfl) fun b => (refl All b).mailRequest hmem hkey hcap hheads haxes
  case mailboxTableDownload => exact .intro (fun _ => rfl) fun b => (refl All b).mailRequest hmem hkey hcap hheads haxes
  case mailboxTableUpload => exact .intro (fun _ => rfl) fun b => (refl All b).mailRequest hmem hkey hcap hheads haxes
  case mailboxComplete => exact .intro (fun _ => rfl) fun b => (refl All b).mailComplete
  case tunnelTargetTimeout => exact .intro (fun _ => rfl) fun b => (refl All b).tunnelTimeout
  case queueEnable => exact .intro (fun _ => rfl) fun b => (refl All b).queueWrite hmem hkey hcap hheads haxes
  case queueDisable => exact .intro (fun _ => rfl) fun b => (refl All b).queueWrite hmem hkey hcap hheads haxes
  case queueErrorClear => exact .intro (fun _ => rfl) fun b => (refl All b).barWrite hmem hkey hcap hheads haxes
  case ackPositionWrite => exact .intro (fun _ => rfl) fun b => (refl All b).queueWrite hmem hkey hcap hheads haxes
  case coalesceTimer => exact .intro (fun _ => rfl) fun b => (refl All b).coalesceTimer
  case hostStallTimer => exact .intro (fun _ => rfl) fun b => (refl All b).stallTimer
  case interruptCauseClear => exact .intro (fun _ => rfl) fun b => (refl All b).barWrite hmem hkey hcap hheads haxes
  case interruptTask => exact .intro (fun _ => rfl) fun b => (refl All b).sampled hmem hkey hcap hheads haxes
  case nmtStartRemoteNode => exact .intro (fun _ => rfl) fun b => (refl All b).nmtAt (fun _ v => v.nmtTo)
  case nmtStopRemoteNode => exact .intro (fun _ => rfl) fun b => (refl All b).nmtAt (fun _ v => v.nmtTo)
  case nmtEnterPreOperational => exact .intro (fun _ => rfl) fun b => (refl All b).nmtAt (fun _ v => v.nmtTo)
  case nmtResetCommunication => exact .intro (fun _ => rfl) fun b => (refl All b).nmtAt (fun _ v => v.resetComm)
  case nmtResetNode => exact .intro (fun _ => rfl) fun b => (refl All b).nmtAt (fun _ v => (v.restartCores hcap hheads).ite v.resetComm)
  case usdoRequest => exact .intro (fun _ => rfl) fun b => (refl All b).usdoRequest hmem hkey hcap hheads haxes
  case canSyncReceived => exact .intro (fun _ => rfl) fun b => (refl All b).canSync
  case tpdoTask => exact .intro (fun _ => rfl) fun b => (refl All b).sampled hmem hkey hcap hheads haxes
  case tpdoChangeCheck => exact .intro (fun _ => rfl) fun b => (refl All b).tpdoCheck
  case tpdoEventTimer => exact .intro (fun _ => rfl) fun b => (refl All b).tpdoTimer
  case rpdoReceived => exact .intro (fun _ => rfl) fun b => (refl All b).rpdoReceived hmem hkey hcap hheads haxes
  case emcyInhibitExpiry => exact .intro (fun _ => rfl) fun b => (refl All b).emcyInhibitEnd
  case canErrorPassive => exact .intro (fun _ => rfl) fun b => (refl All b).errorPassive
  case canBusOff => exact .intro (fun _ => rfl) fun b => (refl All b).busOff
  case busOffRecovery => exact .intro (fun _ => rfl) fun b => (refl All b).busRecover
  case heartbeatTimer => exact .intro (fun _ => rfl) fun b => (refl All b).heartbeat
  case smbRequest => exact .intro (fun _ => rfl) fun b => (refl All b).smbRequest hmem hkey hcap hheads haxes
  case smbResponse => exact .intro (fun _ => rfl) fun b => (refl All b).smbResponse
  case smbStatus => exact .intro (fun _ => rfl) fun b => (refl All b).smbStatus
  case smbAlertCauseRead => exact .intro (fun _ => rfl) fun b => (refl All b).smbCauseRead
  case smbAlertCauseWrite => exact .intro (fun _ => rfl) fun b => (refl All b).smbCauseWrite
  case smbTemperature => exact .intro (fun _ => rfl) fun b => (refl All b).smbTemperature
  case smbPowerRequest => exact .intro (fun _ => rfl) fun b => (refl All b).smbPower
  case smbAlertResponse => exact .intro (fun _ => rfl) fun b => (refl All b).alertResponse
  case smbAlertTask => exact .intro (fun _ => rfl) fun b => (refl All b).sampled hmem hkey hcap hheads haxes
  case smbSclTimeout => exact .intro (fun _ => rfl) fun b => (refl All b).sclTimeout
  case smbResponseHoldExpiry => exact .intro (fun _ => rfl) fun b => (refl All b).smbHoldEnd
  case smbSleepStart => exact .intro (fun _ => rfl) fun b => (refl All b).sleepStart
  case smbSleepIdleExpiry => exact .intro (fun _ => rfl) fun b => (refl All b).sleepIdleEnd
  case custodyEnrol => exact .intro (fun _ => rfl) fun b => (refl All b).dictWriteAt hmem hkey hcap hheads haxes
  case custodyPropose => exact .intro (fun _ => rfl) fun b => (refl All b).dictWriteAt hmem hkey hcap hheads haxes
  case proposalIncompleteTimeout => exact .intro (fun _ => rfl) fun b => (refl All b).draftTimeout
  case custodyVerdict => exact .intro (fun _ => rfl) fun b => (refl All b).dictWriteAt hmem hkey hcap hheads haxes
  case proposalWindowExpiry => exact .intro (fun _ => rfl) fun b => (refl All b).windowExpire
  case commitComplete => exact .intro (fun _ => rfl) fun b => (refl All b).commitComplete hcap hheads
  case recoveryDelayExpiry => exact .intro (fun _ => rfl) fun b => (refl All b).recoveryDue
  case recoveryProgressSave => exact .intro (fun _ => rfl) fun b => (refl All b).recoverySave
  case recoveryReminder => exact .intro (fun _ => rfl) fun b => (refl All b).recoveryRemind
  case stageCheckComplete => exact .intro (fun _ => rfl) fun b => (refl All b).stageChecked
  case fwWriteSlot => exact .intro (fun _ => rfl) fun b => (refl All b).writeTo hmem hkey hcap hheads haxes
  case slotWriteComplete => exact .intro (fun _ => rfl) fun b => (refl All b).slotWritten
  case fwActivate => exact .intro (fun _ => rfl) fun b => (refl All b).writeTo hmem hkey hcap hheads haxes
  case fwConfirm => exact .intro (fun _ => rfl) fun b => (refl All b).writeTo hmem hkey hcap hheads haxes
  case trialExpiry => exact .intro (fun _ => rfl) fun b => (refl All b).trialExpire hcap hheads
  case attestNonce => exact .intro (fun _ => rfl) fun b => (refl All b).dictWriteAt hmem hkey hcap hheads haxes
  case powerOn => exact .intro (fun _ => rfl) fun b => (refl All b).powerOn hmem hkey hcap hheads haxes
  case resetPin => exact .intro (fun _ => rfl) fun b => (refl All b).resetPin hmem hkey hcap hheads haxes
  case supplyFault => exact .intro (fun _ => rfl) fun b => (refl All b).resetRunning hmem hkey hcap hheads haxes
  case railLow => exact .intro (fun _ => rfl) fun b => (refl All b).railLow hmem hkey hcap hheads haxes
  case railsGoodAgain => exact .intro (fun _ => rfl) fun b => (refl All b).railsGood
  case sequenceViolation => exact .intro (fun _ => rfl) fun b => (refl All b).sequenceViolation hmem hkey hcap hheads haxes
  case refLost => exact .intro (fun _ => rfl) fun b => (refl All b).resetRunning hmem hkey hcap hheads haxes
  case pcieRefLost => exact .intro (fun _ => rfl) fun b => (refl All b).pcieRefLost hkey haxes
  case pcieRefRestored => exact .intro (fun _ => rfl) fun b => (refl All b).pcieRefRestored
  case crystalFail => exact .intro (fun _ => rfl) fun b => (refl All b).crystalFail
  case thermalTrip => exact .intro (fun _ => rfl) fun b => (refl All b).resetRunning hmem hkey hcap hheads haxes
  case pierResetRelease => exact .intro (fun _ => rfl) fun b => (refl All b).resetRelease
  case dictionaryReset => exact .intro (fun _ => rfl) fun b => (refl All b).writeTo hmem hkey hcap hheads haxes
  case coreRestartRequest => exact .intro (fun _ => rfl) fun b => (refl All b).writeTo hmem hkey hcap hheads haxes
  case coreWatchdogExpiry => exact .intro (fun _ => rfl) fun b => (refl All b).restartCores hcap hheads
  case coresRunning => exact .intro (fun _ => rfl) fun b => (refl All b).coresRunning
  case deepSleepRequest => exact .intro (fun _ => rfl) fun b => (refl All b).orTask hmem hkey hcap hheads haxes
  case wakeRequest => exact .intro (fun _ => rfl) fun b => (refl All b).writeTo hmem hkey hcap hheads haxes
  case sleepConditionMet => exact .intro (fun _ => rfl) fun b => (refl All b).sleepEnter hmem hkey hheads haxes
  case sleepWaitExpiry => exact .intro (fun _ => rfl) fun b => (refl All b).sleepExpire
  case wakeSource => exact .intro (fun _ => rfl) fun b => (refl All b).wakeBy hmem hkey hcap hheads haxes
  case railLatch => exact .intro (fun _ => rfl) fun b => (refl All b).sampled hmem hkey hcap hheads haxes
  case thermalReading => exact .intro (fun _ => rfl) fun b => (refl All b).thermalReading hcap hheads
  case governorEvaluation => exact .intro (fun _ => rfl) fun b => (refl All b).governorEvaluate
  case tapReset => exact .intro (fun _ => rfl) fun b => (refl All b).tapReset
  case extest => exact .intro (fun _ => rfl) fun b => (refl All b).tapCommand hkey hcap hheads haxes
  case idcode => exact .intro (fun _ => rfl) fun b => (refl All b).tapCommand hkey hcap hheads haxes
  case samplePreload => exact .intro (fun _ => rfl) fun b => (refl All b).tapCommand hkey hcap hheads haxes
  case clamp => exact .intro (fun _ => rfl) fun b => (refl All b).tapCommand hkey hcap hheads haxes
  case highz => exact .intro (fun _ => rfl) fun b => (refl All b).tapCommand hkey hcap hheads haxes
  case extestPulse => exact .intro (fun _ => rfl) fun b => (refl All b).tapCommand hkey hcap hheads haxes
  case extestTrain => exact .intro (fun _ => rfl) fun b => (refl All b).tapCommand hkey hcap hheads haxes
  case bypass => exact .intro (fun _ => rfl) fun b => (refl All b).tapCommand hkey hcap hheads haxes
  case mbistStart => exact .intro (fun _ => rfl) fun b => (refl All b).writeTo hmem hkey hcap hheads haxes
  case mbistAbort => exact .intro (fun _ => rfl) fun b => (refl All b).writeTo hmem hkey hcap hheads haxes
  case mbistComplete => exact .intro (fun _ => rfl) fun b => (refl All b).mbistComplete hcap
  case spanLoopback => exact .intro (fun _ => rfl) fun b => (refl All b).writeTo hmem hkey hcap hheads haxes
  case faultLogSelect => exact .intro (fun _ => rfl) fun b => (refl All b).writeTo hmem hkey hcap hheads haxes
  case faultLogClear => exact .intro (fun _ => rfl) fun b => (refl All b).writeTo hmem hkey hcap hheads haxes
  case diagClear => exact .intro (fun _ => rfl) fun b => (refl All b).writeTo hmem hkey hcap hheads haxes
  case headIsolate => exact .intro (fun _ => rfl) fun b => (refl All b).writeTo hmem hkey hcap hheads haxes
  case headRelease => exact .intro (fun _ => rfl) fun b => (refl All b).writeTo hmem hkey hcap hheads haxes
  case pprHarden => exact .intro (fun _ => rfl) fun b => (refl All b).writeTo hmem hkey hcap hheads haxes
  case indexPulse => exact .intro (fun _ => rfl) fun b => (refl All b).indexPulse
  case aerCorrectableError => exact .intro (fun _ => rfl) fun b => (refl All b).aerCorrectable
  case pcieLoopbackEntry => exact .intro (fun _ => rfl) fun b => (refl All b).pcieLoopback hkey haxes

end Sys2Proof.Machine

namespace Sys2Proof
open Machine Machine.Block

/-- Settles O3: an idle step changes no store, and the operation of a command and what ends it keep the canonical form. -/
theorem storesStayCanonical : Obligations.StoresStayCanonical := by
  unfold Obligations.StoresStayCanonical
  intro s n hs hn
  cases hp : s.pending with
  | nil =>
    cases (step_of_empty hp).symm.trans hn
    exact hs
  | cons i rest =>
    obtain ⟨hrun, hw⟩ := operates i
    have hstep : step s = exec i { s with pending := rest } := by rw [step, hp]
    rw [hstep, hrun] at hn
    cases hn
    exact ((hw _).finish trivial fun _ => trivial).canonical hs

end Sys2Proof

/-! # Triggers of the heads (R78 to R87) -/

namespace Sys2Proof.Machine.Block

theorem latchDue_keeps (b : Block) : b.latchDue.now = b.now ∧ b.latchDue.heads = b.heads := by
  have hfold (a : AxisId) (l : List Time) : ∀ b : Block, (l.foldl (fun b t => b.sendRing (.latch t (b.positionAt a t))) b).now = b.now ∧
      (l.foldl (fun b t => b.sendRing (.latch t (b.positionAt a t))) b).heads = b.heads := by
    induction l with
    | nil => exact fun b => ⟨rfl, rfl⟩
    | cons t l ih => exact fun b => ih (b.sendRing (.latch t (b.positionAt a t)))
  unfold latchDue
  split
  dsimp only
  split
  · exact ⟨rfl, rfl⟩
  · exact hfold ..

section
variable {b : Block} {h : HeadId} {d : Time}

theorem timeTrigger_of_due (m : Meet) (hs : b.reg (Obj.headTriggerSource h) = 0) (hr : b.heads[h].state = .running)
    (hn : b.heads[h].nextDue = some d) (hd : due d b.now = true) :
    b.timeTrigger h m = if b.insideCap h d then b.modHead h fun x => { x with nextDue := x.lastTrigger.map fun t => later t b.capTicks }
      else (b.triggerMeet h m none false 0 d (onGrid d) none).modHead h fun x =>
        { x with nextDue := some (later d ((b.triggerMeet h m none false 0 d (onGrid d) none).periodNow h)) } := by
  have hno : ¬(b.reg (Obj.headTriggerSource h) ≠ 0 ∨ b.heads[h].state ≠ .running ∨ (!due d b.now) = true) := by
    simpa [hs, hd] using hr
  rw [timeTrigger, hn]
  exact if_neg hno

theorem broadcastDue_of_due (m : Meet) {o : Owed} {rest : List Owed} {k : Nat} (ho : b.heads[h].owed = o :: rest) (hk : o.k = some k)
    (hd : due o.at_ b.now = true) (hheld : b.heads[h].held = false) (hi : b.heads[h].nextIndex ≤ k) :
    b.broadcastDue h m = (b.latchDue.used.modHead h fun x => { x with owed := rest }).indexedTrigger h m k o.flags o.at_
      (b.latchDue.freeAround (b.latchDue.scheduleSlack h) o.at_) (some o.at_) := by
  obtain ⟨hnow, hheads⟩ := b.latchDue_keeps
  have hmod : (b.latchDue.used.modHead h fun x => { x with owed := rest }).heads[h] = { b.heads[h] with owed := rest } := by
    simp [modHead, used, hheads]
  unfold broadcastDue
  extract_lets c
  have hc : c.heads[h].owed = o :: rest := by rw [show c.heads = b.heads from hheads, ho]
  have hdc : (!due o.at_ c.now) = false := by rw [show c.now = b.now from hnow, hd]; rfl
  rw [hc]
  dsimp only
  rw [hdc, hk, if_neg (by decide)]
  dsimp only
  rw [hmod, hheld, decide_eq_false (by omega : ¬ k < b.heads[h].nextIndex), if_neg (by decide)]

end
end Sys2Proof.Machine.Block

/-! # Lines of a head: the line boundary, exposure and readout (R73 to R94) -/

namespace Sys2Proof.Machine.Block

/-- No piece may be touched. -/
def Nothing : Piece → Prop := fun _ => False

/-- One head may be touched. -/
def OneHead (h : HeadId) : Piece → Prop := fun p => p = .head h

theorem Within.same_heads {b n : Block} (w : Within Nothing b n) (h : HeadId) : n.heads[h] = b.heads[h] := w.heads h id

theorem Within.other_heads {b n : Block} {h : HeadId} (w : Within (OneHead h) b n) (g : HeadId) (hg : g ≠ h) : n.heads[g] = b.heads[g] :=
  w.heads g fun e => hg (by cases e; rfl)

theorem Within.same_mem {b n : Block} {h : HeadId} (w : Within (OneHead h) b n) : n.mem = b.mem := w.mem nofun

theorem Within.fired {P : Piece → Prop} {b n : Block} {k : Nat} (w : Within P b n) (h : b.Fired k) : n.Fired k := w.outs _ h

theorem heads_modHead_same (h : HeadId) (f : Head → Head) (b : Block) : (b.modHead h f).heads[h] = f b.heads[h] := by
  simp [modHead]

theorem finish_heads (b : Block) (h : HeadId) : b.finish.heads[h] = b.heads[h] := by simp

theorem finish_mem (b : Block) : b.finish.mem = b.mem := by simp

/-! ## What the parts of a line boundary do to the head -/

/-- The same head but for its lines in flight, which are as many as before. -/
def LinesOnly (x y : Head) : Prop := ∃ ls, y = { x with lines := ls } ∧ ls.length = x.lines.length

/-- The same head but for the edges of its outputs. -/
def EdgesOnly (x y : Head) : Prop := ∃ es lv, y = { x with edges := es, levels := lv }

theorem LinesOnly.trans {x y z : Head} (h : LinesOnly x y) (k : LinesOnly y z) : LinesOnly x z := by
  obtain ⟨ls, rfl, hl⟩ := h
  obtain ⟨ms, rfl, hm⟩ := k
  exact ⟨ms, rfl, hm.trans hl⟩

theorem foldl_rel {α β : Type} {r : β → Prop} {f : β → α → β} (hf : ∀ c x, r c → r (f c x)) (l : List α) {c : β} (hc : r c) : r (l.foldl f c) := by
  induction l generalizing c with
  | nil => exact hc
  | cons x l ih => exact ih (hf c x hc)

theorem openWindow_head (h : HeadId) (i : Nat) (b : Block) : LinesOnly b.heads[h] (b.openWindow h i).heads[h] := by
  unfold openWindow
  extract_lets b1 _ _ _ _ _ b2
  have w : Within Nothing b b2 := (Within.refl _ b).ilvApply.emit
  rw [heads_modHead_same, w.same_heads h]
  exact ⟨_, rfl, by simp⟩

theorem openWindows_head (h : HeadId) (b : Block) : LinesOnly b.heads[h] (b.openWindows h).heads[h] := by
  refine foldl_rel (r := fun c : Block => LinesOnly b.heads[h] c.heads[h]) (fun c i hc => ?_) _ ⟨_, rfl, rfl⟩
  split
  · split
    · exact hc.trans (openWindow_head ..)
    · exact hc
  · exact hc

theorem passEdges_head (h : HeadId) (b : Block) : EdgesOnly b.heads[h] (b.passEdges h).heads[h] := by
  unfold passEdges
  split
  dsimp only
  rw [heads_modHead_same]
  exact ⟨_, _, rfl⟩

theorem timeEdges_head (h : HeadId) (l : List Edge) (b : Block) : EdgesOnly b.heads[h] (b.timeEdges h l).heads[h] := by
  unfold timeEdges
  extract_lets b1 es live hits new b2 b3
  have hw : Within Nothing b2 (if hits = 0 then b3 else (b3.count (Obj.headPatternCollisions h) hits).raise (headSource h 8)) := by
    have w3 : Within Nothing b2 b3 := (Within.refl _ b2).ite (Within.refl _ b2).emit
    exact w3.ite w3.count.raise
  obtain ⟨es, lv, hp⟩ := b.passEdges_head h
  rw [hw.same_heads h, heads_modHead_same, hp]
  exact ⟨_, _, rfl⟩

/-- The line boundary binds one line to the head, after those in flight (R76). -/
structure Bound (x y : Head) (seq : Nat) (tE : Time) (idle : Bool) : Prop where
  lines : ∃ ls l, y.lines = ls ++ [l] ∧ ls.length = x.lines.length ∧ l.seq = seq ∧ l.tE = tE ∧ l.idle = idle
  lineCount : y.lineCount = x.lineCount + 1
  nextSeq : y.nextSeq = x.nextSeq
  acceptedRun : y.acceptedRun = x.acceptedRun
  lastTrigger : y.lastTrigger = x.lastTrigger
  state : y.state = x.state

theorem lineBind_head (h : HeadId) (tE : Time) (common : Option Time) (idle : Bool) (seq extra : Nat) (line : Option Int) (b : Block) :
    Bound b.heads[h] (b.lineBind h tE common idle seq extra line).heads[h] seq tE idle := by
  unfold lineBind
  extract_lets b1 _ b2 b3
  have w1 : Within Nothing b b1 := (Within.refl _ b).capTake
  have w2 : Within Nothing (b1.openWindows h) b2 := (Within.refl _ _).corrTakeBefore.geometryTakeBefore
  have w3 : Within Nothing (b1.openWindows h) b3 := w2.calBegin.ite w2
  split
  next b4 heq =>
    have w4 : Within Nothing (b1.openWindows h) b4 := (congrArg (fun x => Within Nothing (b1.openWindows h) x.2.2.2) heq).mp w3.illumBoundary
    split
    extract_lets owed rejoin flags no l b5 b6 b7 b8
    obtain ⟨ls, hls, hlen⟩ := b1.openWindows_head h
    rw [w1.same_heads h] at hls hlen
    have h5 : b5.heads[h] = _ := heads_modHead_same ..
    rw [w4.same_heads h, hls] at h5
    obtain ⟨es, lv, h7⟩ := b6.timeEdges_head h (sectionEdges no (fineOf tE) (section0 (b6.table (0x6010 + h.val))))
    have h6 : b6.heads[h] = b5.heads[h] := rfl
    have w8 : Within Nothing b7 (b8.raise (headSource h 1)) := ((Within.refl _ b7).syncOut.ite (Within.refl _ b7)).raise
    have h8 : (b8.raise (headSource h 1)).heads[h] = { b5.heads[h] with edges := es, levels := lv } := (w8.same_heads h).trans (h6 ▸ h7)
    rw [h8, h5]
    have hno : no = b.heads[h].lineCount := by
      rw [show no = b4.heads[h].lineCount from rfl, w4.same_heads h, hls]
    exact ⟨⟨ls, l, rfl, hlen, rfl, rfl, rfl⟩, congrArg (· + 1) hno, rfl, rfl, rfl, rfl⟩

theorem lineBoundary_head (h : HeadId) (tE : Time) (common : Option Time) (idle : Bool) (seq extra : Nat) (line : Option Int) (b : Block) :
    Bound b.heads[h] (b.lineBoundary h tE common idle seq extra line).heads[h] seq tE idle := by
  unfold lineBoundary
  extract_lets old
  have wb : Within Nothing b (b.recalled old) := (Within.refl _ b).recalled
  have hb := lineBind_head h tE common idle seq extra line (b.recalled old)
  rw [wb.same_heads h] at hb
  rw [((Within.refl Nothing _).recalled).same_heads h]
  exact hb

theorem lineBind_fired (h : HeadId) (tE : Time) (common : Option Time) (idle : Bool) (seq extra : Nat) (line : Option Int) (b : Block) :
    (b.lineBind h tE common idle seq extra line).Fired (headSource h 1) := by
  unfold lineBind
  extract_lets
  split
  split
  exact List.mem_append_right _ (List.mem_singleton_self _)

theorem lineBoundary_fired (h : HeadId) (tE : Time) (common : Option Time) (idle : Bool) (seq extra : Nat) (line : Option Int) (b : Block) :
    (b.lineBoundary h tE common idle seq extra line).Fired (headSource h 1) := by
  unfold lineBoundary
  extract_lets old
  exact ((Within.refl Nothing _).recalled).outs _ (lineBind_fired ..)

/-! ## An accepted trigger -/

/-- The line boundary of an accepted trigger without an index, and what it is counted as (R82). -/
theorem acceptLine_head (h : HeadId) (extra : Nat) (arrival tE : Time) (common : Option Time) (b : Block) :
    ∃ x : Head, x = { b.heads[h] with nextSeq := b.heads[h].nextSeq + 1, acceptedRun := b.heads[h].acceptedRun + 1, lastTrigger := some arrival,
                                       gapRaised := false } ∧
      Bound x (b.acceptLine h none extra arrival tE common).heads[h] (b.heads[h].nextSeq % 2 ^ 48) tE false := by
  refine ⟨_, rfl, ?_⟩
  unfold acceptLine
  extract_lets _ seq c
  have hc : c.heads[h] = _ := heads_modHead_same ..
  have hb := ((c.bump (Obj.headTriggerAccepted h)).raise (headSource h 0)).lineBoundary_head h tE common false (seq % 2 ^ 48) extra none
  rw [((Within.refl Nothing c).bump.raise).same_heads h, hc] at hb
  exact hb

theorem acceptLine_fired (h : HeadId) (extra : Nat) (arrival tE : Time) (common : Option Time) (b : Block) :
    (b.acceptLine h none extra arrival tE common).Fired (headSource h 0) ∧ (b.acceptLine h none extra arrival tE common).Fired (headSource h 1) := by
  unfold acceptLine
  extract_lets seq c
  refine ⟨?_, lineBoundary_fired ..⟩
  have w := (Within.refl (OneHead h) ((c.bump (Obj.headTriggerAccepted h)).raise (headSource h 0))).lineBoundary (h := h) (tE := tE)
    (common := common) (idle := false) (seq := seq % 2 ^ 48) (extra := extra) (line := none) rfl
  exact w.outs _ (List.mem_append_right _ (List.mem_singleton_self _))

theorem trigger_of_first {h : HeadId} {b : Block} (hr : b.heads[h].state = .running) (hc : b.countReached h = false)
    (hl : b.heads[h].lastTrigger = none) (index : Option Nat) (scheduled : Bool) (extra : Nat) (arrival tE : Time) (common : Option Time) :
    b.trigger h index scheduled extra arrival tE common = b.acceptLine h index extra arrival tE common := by
  have hno : ¬(b.heads[h].state ≠ .running ∨ b.countReached h = true) := by simpa [hc] using hr
  rw [trigger, if_neg hno, sinceLast, hl]
  rfl

theorem timeTrigger_of_first {h : HeadId} {b : Block} {d : Time} (hs : b.reg (Obj.headTriggerSource h) = 0) (hr : b.heads[h].state = .running)
    (hn : b.heads[h].nextDue = some d) (hd : due d b.now = true) (hl : b.heads[h].lastTrigger = none) (hc : b.countReached h = false) :
    b.timeTrigger h .alone = (b.acceptLine h none 0 d (onGrid d) none).modHead h fun x =>
      { x with nextDue := some (later d ((b.acceptLine h none 0 d (onGrid d) none).periodNow h)) } := by
  have hcap : ¬b.insideCap h d = true := by simp only [insideCap, hl, Bool.false_eq_true, not_false_eq_true]
  rw [timeTrigger_of_due .alone hs hr hn hd, if_neg hcap, triggerMeet, trigger_of_first hr hc hl]

/-- A head that has taken one line, of the next sequence and its own instant, and nothing else that a trigger changes. -/
structure TookLine (x y : Head) (d : Time) : Prop where
  count : y.lines.length = x.lines.length + 1
  last : (y.lines.getLast?.map fun l => (l.seq, l.tE, l.idle)) = some (x.nextSeq % 2 ^ 48, onGrid d, false)
  nextSeq : y.nextSeq = x.nextSeq + 1
  acceptedRun : y.acceptedRun = x.acceptedRun + 1
  lastTrigger : y.lastTrigger = some d

theorem TookLine.nextDue {x y : Head} {d : Time} (w : TookLine x y d) (due : Option Time) : TookLine x { y with nextDue := due } d :=
  ⟨w.count, w.last, w.nextSeq, w.acceptedRun, w.lastTrigger⟩

theorem acceptLine_took (h : HeadId) (extra : Nat) (d : Time) (common : Option Time) (b : Block) :
    TookLine b.heads[h] (b.acceptLine h none extra d (onGrid d) common).heads[h] d := by
  obtain ⟨x, rfl, hb⟩ := b.acceptLine_head h extra d (onGrid d) common
  obtain ⟨⟨ls, l, hlines, hlen, hseq, htE, hidle⟩, -, hnext, hacc, hlast, -⟩ := hb
  refine ⟨?_, ?_, hnext, hacc, hlast⟩
  · rw [hlines, List.length_append, hlen]; rfl
  · rw [hlines, List.getLast?_concat, Option.map_some, hseq, htE, hidle]

end Sys2Proof.Machine.Block

namespace Sys2Proof
open Machine Machine.Block

/-- Settles O15: the trigger is the first of its run, so that no minimum refuses it, and its line boundary binds one line to its head. -/
theorem acceptedTriggerMakesALine : Obligations.AcceptedTriggerMakesALine := by
  unfold Obligations.AcceptedTriggerMakesALine
  intro t d h s b hs hr hn hd hl hcount
  have hrun := timeTrigger_of_first hs hr hn hd hl hcount
  have w : Within (OneHead h) b (b.timeTrigger h .alone) := (Within.refl _ b).timeTrigger rfl
  have took := b.acceptLine_took h 0 d none
  obtain ⟨hf0, hf1⟩ := b.acceptLine_fired h 0 d (onGrid d) none
  have hfired : ∀ n, (b.acceptLine h none 0 d (onGrid d) none).Fired n → (b.timeTrigger h .alone).Fired n := by
    intro n hn
    rw [hrun]
    exact ((Within.refl (OneHead h) _).modHead rfl).fired hn
  have hh : (b.timeTrigger h .alone).heads[h] = { (b.acceptLine h none 0 d (onGrid d) none).heads[h] with
      nextDue := some (later d ((b.acceptLine h none 0 d (onGrid d) none).periodNow h)) } := by
    rw [hrun, heads_modHead_same]
  have took : TookLine b.heads[h] (b.timeTrigger h .alone).heads[h] d := by
    rw [hh]
    exact took.nextDue _
  obtain ⟨hcount, hline, hseq, hrun, htrig⟩ := took
  have he : exec (.timeTrigger t h .alone) s = run t (fun b => b.timeTrigger h .alone) s := rfl
  refine ends_of_run he ?_
  simp only [finish_heads, finish_mem]
  exact ⟨hcount, hline, hseq, hrun, htrig, (hfired _ hf0).finish, (hfired _ hf1).finish, w.same_mem, w.other_heads⟩

end Sys2Proof

/-! # The seam of a broadcast line (R233) -/

namespace Sys2Proof.Machine.Block

theorem finish_seam_of_idle {b : Block} (hs : b.keystone.state = 0) : b.finish.keystone.seam = b.keystone.seam := by
  have hk : (b.stateFollow.capFollow).keystone = b.keystone := by simp
  have hf : ∀ c : Block, c.keystone.state = 0 → c.keyFollow.keystone.seam = c.keystone.seam := by
    intro c hc
    unfold keyFollow
    dsimp only
    split
    · rfl
    · split
      · unfold keyCap
        rw [if_neg (by simp [hc]), if_neg (by simp [hc])]; rfl
      · rfl
  have h2 := hf _ (hk ▸ hs)
  simpa [finish, hk] using h2

/-- An accepted trigger with an index binds its line to the head. -/
theorem acceptLine_indexed (h : HeadId) (k extra : Nat) (arrival tE : Time) (common : Option Time) (b : Block) :
    ∃ ls l, (b.acceptLine h (some k) extra arrival tE common).heads[h].lines = ls ++ [l] ∧ l.idle = false ∧
      (b.acceptLine h (some k) extra arrival tE common).heads[h].lineCount = b.heads[h].lineCount + 1 := by
  unfold acceptLine
  extract_lets seq c
  have hc : c.heads[h] = _ := heads_modHead_same ..
  have hb := ((c.bump (Obj.headTriggerAccepted h)).raise (headSource h 0)).lineBoundary_head h tE common false (seq % 2 ^ 48) extra none
  rw [((Within.refl Nothing c).bump.raise).same_heads h, hc] at hb
  obtain ⟨⟨ls, l, hlines, -, -, -, hidle⟩, hcount, -⟩ := hb
  exact ⟨ls, l, hlines, hidle, hcount⟩

theorem indexedTrigger_of_first {h : HeadId} {b : Block} (hr : b.heads[h].state = .running) (hc : b.countReached h = false)
    (hl : b.heads[h].lastTrigger = none) (k flags : Nat) (arrival tE : Time) (common : Option Time) :
    ∃ ls l, (b.indexedTrigger h .alone k flags arrival tE common).heads[h].lines = ls ++ [l] ∧ l.idle = false ∧
      (b.indexedTrigger h .alone k flags arrival tE common).heads[h].lineCount = b.heads[h].lineCount + 1 := by
  rw [indexedTrigger, triggerMeet, trigger_of_first hr hc hl, heads_modHead_same, lateSettled, heads_modHead_same]
  obtain ⟨ls, l, hl, hidle, hcount⟩ := acceptLine_indexed h k (flags ||| b.lateFlag h k) arrival tE common b
  generalize (b.acceptLine h (some k) (flags ||| b.lateFlag h k) arrival tE common).heads[h] = x at hl hcount ⊢
  exact ⟨ls, l, hl, hidle, hcount⟩

theorem seamLine_seam {h : HeadId} {b : Block} {l : Line} (a : AxisId) (hl : b.heads[h].lines.getLast? = some l) (hi : l.idle = false) :
    (b.seamLine a h).keystone.seam ≠ [] ∧ (b.seamLine a h).keystone.state = b.keystone.state := by
  unfold seamLine
  rw [hl]
  dsimp only
  rw [hi, if_neg (by decide)]
  constructor
  · simp
  · split
    · split <;> simp
    · rfl

/-- The owner of a page takes the line of a broadcast into its seam measurement. -/
theorem broadcastFire_seam {a : AxisId} {h : HeadId} {rest : List HeadId} {b : Block} {l : Line} {m : Meet} (ha : b.activeAxis = some a)
    (hp : b.pacedHeads = h :: rest) (hl : (b.broadcastDue h m).heads[h].lines.getLast? = some l) (hi : l.idle = false)
    (hc : (b.broadcastDue h m).heads[h].lineCount ≠ b.heads[h].lineCount) :
    (b.broadcastFire h m).keystone.seam ≠ [] ∧ (b.broadcastFire h m).keystone.state = (b.broadcastDue h m).keystone.state := by
  unfold broadcastFire withSeam
  rw [ha, hp]
  dsimp only
  rw [if_neg hc]
  exact seamLine_seam a hl hi

end Sys2Proof.Machine.Block

namespace Sys2Proof
open Machine Machine.Block

/-- The owner of axis 0 in scan mode with its page enabled; head 0 runs on source 4, and the broadcast of line 0 is due at instant 0. -/
def seamOwner : State where
  b := ([(Obj.deviceMode, 1), (Obj.axisSourcePier 0, 0), (Obj.ringPierNumber, 0), (Obj.axisBroadcast 0, 1),
      (Obj.axisKeystoneEnable 0, 1), (Obj.headTriggerSource 0, 4)].foldl (fun b x => b.setReg x.1 x.2) State.reset.b).modHead 0 fun x =>
    { x with state := .running, owed := [⟨some 0, 0, 0, none⟩] }
  pending := []

/-- Refutes O14: on the pier that owns the page a broadcast line that is due enters the seam measurement of the page too (R233), which the
last clause of the statement leaves out. -/
theorem not_triggersReachTheHead : ¬ Obligations.TriggersReachTheHead := by
  unfold Obligations.TriggersReachTheHead
  intro hall
  obtain ⟨-, -, -, -, -, hlast⟩ := hall 0 0 .alone seamOwner
  let b := seamOwner.b.at_ 0
  let c := b.latchDue.used.modHead 0 fun x => { x with owed := [] }
  have hhead : b.heads[(0 : HeadId)].owed = [⟨some 0, 0, 0, none⟩] ∧ b.heads[(0 : HeadId)].held = false ∧ b.heads[(0 : HeadId)].nextIndex = 0 :=
    by decide +kernel
  have hb : b.activeAxis = some 0 ∧ b.pacedHeads = [0] ∧ b.keystone.seam = [] ∧ b.keystone.state = 0 := by decide +kernel
  have hc : c.heads[(0 : HeadId)].state = .running ∧ c.countReached 0 = false ∧ c.heads[(0 : HeadId)].lastTrigger = none ∧
      c.heads[(0 : HeadId)].lineCount = b.heads[(0 : HeadId)].lineCount := by decide +kernel
  obtain ⟨howed, hheld, hnext⟩ := hhead
  obtain ⟨haxis, hpaced, hseam, hstate⟩ := hb
  obtain ⟨hrun, hcount, hfirst, hlines⟩ := hc
  have hdoes := hlast _ _ 0 howed rfl (by decide) hheld hnext.le
  have hdue := broadcastDue_of_due .alone howed rfl (by decide) hheld hnext.le
  obtain ⟨ls, l, hls, hidle, hcount'⟩ := indexedTrigger_of_first hrun hcount hfirst 0 0 0 (b.latchDue.freeAround (b.latchDue.scheduleSlack 0) 0)
    (some 0)
  have w : Within (OneHead 0) b (b.broadcastDue 0 .alone) := (Within.refl _ b).broadcastDue rfl
  have hkey : (b.broadcastDue 0 .alone).keystone = b.keystone := w.keystone nofun
  have hfire := broadcastFire_seam (m := .alone) (l := l) haxis hpaced (by rw [hdue, hls]; simp) hidle (by rw [hdue, hcount', hlines]; omega)
  have hran : Does (.broadcastTriggerDue 0 0 .alone) seamOwner (b.broadcastFire 0 .alone) := rfl
  dsimp only at hdoes
  rw [← hdue] at hdoes
  have heq := hran.symm.trans hdoes
  injection heq with heq
  have hkeys := congrArg (fun n : State => n.b.keystone.seam) heq
  dsimp only at hkeys
  rw [finish_seam_of_idle (by rw [hfire.2, hkey, hstate]), finish_seam_of_idle (by rw [hkey, hstate]), hkey, hseam] at hkeys
  exact hfire.1 hkeys

end Sys2Proof

/-! # Registers that an operation does not set -/

namespace Sys2Proof.Machine.Block

/-- The register reads as before. -/
def SameReg (y : Obj) (b n : Block) : Prop := n.reg y = b.reg y

namespace SameReg
variable {y : Obj} {b₀ b : Block}

theorem refl (y : Obj) (b : Block) : SameReg y b b := rfl

theorem of_regs (w : SameReg y b₀ b) {n : Block} (h : n.regs = b.regs) : SameReg y b₀ n := (reg_congr_regs h y).trans w

theorem setReg (w : SameReg y b₀ b) {o : Obj} {v : Nat} (h : y.key ≠ o.key) : SameReg y b₀ (b.setReg o v) :=
  (b.reg_setReg_ne o y v h).trans w

theorem setRegI (w : SameReg y b₀ b) {o : Obj} {v : Int} (h : y.key ≠ o.key) : SameReg y b₀ (b.setRegI o v) := w.setReg h

theorem count (w : SameReg y b₀ b) {o : Obj} {n : Nat} (h : y.key ≠ o.key) : SameReg y b₀ (b.count o n) := w.setReg h

theorem bump (w : SameReg y b₀ b) {o : Obj} (h : y.key ≠ o.key) : SameReg y b₀ (b.bump o) := w.setReg h

theorem ite (w : SameReg y b₀ b) {n : Block} {c : Prop} [Decidable c] (v : SameReg y b₀ n) : SameReg y b₀ (if c then b else n) := by
  split
  · exact w
  · exact v

theorem foldl {α : Type} (w : SameReg y b₀ b) {f : Block → α → Block} (hf : ∀ c x, SameReg y b₀ c → SameReg y b₀ (f c x)) (l : List α) :
    SameReg y b₀ (l.foldl f b) := foldl_rel (r := SameReg y b₀) hf l w

theorem raise (w : SameReg y b₀ b) {k : Nat} : SameReg y b₀ (b.raise k) := w

theorem modHead (w : SameReg y b₀ b) {h : HeadId} {f : Head → Head} : SameReg y b₀ (b.modHead h f) := w

theorem emit (w : SameReg y b₀ b) {o : Out} : SameReg y b₀ (b.emit o) := w

theorem reply (w : SameReg y b₀ b) {r : Route} {res : Result} : SameReg y b₀ (b.reply r res) := (reply_reg ..).trans w

theorem replyVia (w : SameReg y b₀ b) {v : Via} {res : Result} : SameReg y b₀ (b.replyVia v res) := by
  cases v with
  | write r => exact w.reply
  | task t => exact w

end SameReg
end Sys2Proof.Machine.Block

/-! # A head starts, runs and stops (R95 to R97) -/

namespace Sys2Proof.Machine.Block

/-- Only the capture state may be touched, or one head. -/
def HeadAndCapture (h : HeadId) : Piece → Prop := fun p => p = .head h ∨ p = .capture

/-- Only the capture state may be touched. -/
def CaptureOnly : Piece → Prop := fun p => p = .capture

theorem Within.capture_heads {b n : Block} (w : Within CaptureOnly b n) (h : HeadId) : n.heads[h] = b.heads[h] := w.heads h nofun

theorem Within.other_heads' {b n : Block} {h : HeadId} (w : Within (HeadAndCapture h) b n) (g : HeadId) (hg : g ≠ h) :
    n.heads[g] = b.heads[g] := w.heads g fun e => hg (by rcases e with e | e <;> cases e; rfl)

theorem Within.mem_of_headAndCapture {b n : Block} {h : HeadId} (w : Within (HeadAndCapture h) b n) : n.mem = b.mem := w.mem nofun

theorem heads_cleared (r : Option Route) (task : Nat) (b : Block) : (b.cleared r task).heads = b.heads := by cases r <;> rfl

theorem reg_cleared (r : Option Route) (task : Nat) (b : Block) (o : Obj) : (b.cleared r task).reg o = b.reg o := by cases r <;> rfl

theorem within_cleared (P : Piece → Prop) (r : Option Route) (task : Nat) (b : Block) : Within P b (b.cleared r task) := by
  cases r with
  | some r => exact .refl P b
  | none => exact (Within.refl P b).unlatch

/-! ## The start -/

theorem headStart_alone {h : HeadId} {via : Via} {mv : Nat} {b : Block} (hv : (b.startDerive h).headStartViolations h = []) :
    b.headStart h via .alone mv = b.startGo h [via] mv := by
  unfold headStart
  dsimp only
  rw [if_pos rfl, hv]
  rfl

theorem writeDo_headPatternCommand (e : Env) (r : Route) (h : HeadId) (v : Nat) (b : Block) (hv : v < 256) :
    b.writeDo e r (Obj.headPatternCommand h).index (Obj.headPatternCommand h).sub (v % 256 ^ ((Obj.headPatternCommand h).ty.bits / 8)) =
      some (if v = 1 then b.headStart h (.write r) e.start (e.banks.getD h.val 0) else
        ((if e.same then b.bump Obj.deviceCommandCoincidences else b).headStop h).reply r .ok) := by
  have hi : (Obj.headPatternCommand h).index = 0x3000 + 0 + 0x400 * h.val := rfl
  have hm : v % 256 ^ ((Obj.headPatternCommand h).ty.bits / 8) = v := by
    have ht : (Obj.headPatternCommand h).ty = .u8 := rfl
    rw [ht]
    exact Nat.mod_eq_of_lt hv
  rw [hi, hm, writeDo_head e r h 0 _ v b (by decide)]
  rfl

theorem orTask_headStart {r : Option Route} {h : HeadId} {e : Env} {mv : Nat} {b : Block}
    (hr : b.reaches r (Obj.headPatternCommand h) 1 (headTaskNo h 1) e) (hs : e.same = false) (ha : e.start = .alone)
    (hm : e.banks.getD h.val 0 = mv) (hv : ((b.cleared r (headTaskNo h 1)).startDerive h).headStartViolations h = []) :
    b.orTask r (Obj.headPatternCommand h) 1 (headTaskNo h 1) e =
      (b.cleared r (headTaskNo h 1)).startGo h [b.viaOf r (headTaskNo h 1)] mv := by
  refine orTask_of_reaches hr hs (fun x hx => ?_) fun hn m => ?_
  · subst hx
    rw [writeDo_headPatternCommand e x h 1 b (by decide), if_pos rfl, ha, hm]
    exact congrArg some (headStart_alone hv)
  · subst hn
    rw [taskDo_head h 1 (by decide), headTask, hs, ha, hm]
    exact headStart_alone hv

/-- The head as it waits for its lock (R95 step 3). -/
structure Waits (x : Head) (vias : List Via) (deadline : Time) : Prop where
  state : x.state = .starting
  startVia : x.startVia = vias
  startDeadline : x.startDeadline = deadline
  lines : x.lines = []
  nextSeq : x.nextSeq = 0

theorem lateOwed_head (h : HeadId) (b : Block) :
    (b.lateOwed h).heads[h].state = b.heads[h].state ∧ (b.lateOwed h).heads[h].startVia = b.heads[h].startVia := by
  unfold lateOwed
  split
  · rw [owe, heads_modHead_same, heads_modHead_same]; exact ⟨rfl, rfl⟩
  · exact ⟨rfl, rfl⟩

theorem startLock_head {h : HeadId} {b : Block} (hs : b.heads[h].state = .starting) :
    Waits (b.startLock h).heads[h] b.heads[h].startVia (later b.now (lockTime (b.reg (Obj.headClockSource h)))) := by
  unfold startLock
  extract_lets _ b1 b2 b3 b4
  have w1 : Within CaptureOnly b b2 := ((Within.refl _ b).setReg).captureStart rfl
  have w4 : Within CaptureOnly b3 (b4.modCorr h fun c => { c with autoOwed := b4.isSet (Obj.headCalAuto h), clamp := c.clamp.map fun y => { y with fresh := true } }) :=
    (Within.refl _ b3).videoStart.illumStart.tempStart.modStitch.modCorr
  rw [w4.capture_heads h]
  have h3 : b3.heads[h] = b2.freshRun h (b2.lateOwed h).heads[h] := heads_modHead_same ..
  obtain ⟨hstate, hvia⟩ := lateOwed_head h b2
  rw [w1.capture_heads h] at hstate hvia
  have hreg : b2.reg (Obj.headClockSource h) = b.reg (Obj.headClockSource h) := by
    refine ((SameReg.refl _ b).setReg (o := Obj.bufferDemand) ?_)
    simp only [Obj.key, Obj.headClockSource, Obj.bufferDemand]; omega
  rw [h3]
  exact ⟨hstate.trans hs, hvia, by rw [freshRun, hreg]; rfl, rfl, rfl⟩

theorem startDerive_clockSource (h : HeadId) (b : Block) : SameReg (Obj.headClockSource h) b (b.startDerive h) := by
  have hcols : SameReg (Obj.headClockSource h) b (b.deriveColumns h) := by
    refine (SameReg.refl _ b).ite (((SameReg.refl _ b).setReg ?_).setReg ?_)
    · simp only [Obj.key, Obj.headClockSource, Obj.headStitchWidth]; omega
    · simp only [Obj.key, Obj.headClockSource, Obj.headStitchFirstColumn]; omega
  have hderive : SameReg (Obj.headClockSource h) b (b.headDerive h) := by
    unfold headDerive
    extract_lets c d
    have hd : SameReg (Obj.headClockSource h) b d := hcols.ite (hcols.of_regs rfl)
    refine hd.ite (hd.setReg ?_)
    simp only [Obj.key, Obj.headClockSource, Obj.headTriggerBroadcastDelay]; omega
  refine (hderive.setReg ?_).ite hderive
  simp only [Obj.key, Obj.headClockSource, Obj.bufferBudgetEnforce]; omega

theorem startGo_head {h : HeadId} {vias : List Via} {mv : Nat} {b : Block}
    (hlow : (if b.reg (Obj.headPatternBank h) = 0 then 3300 else 1800) * 9 ≤ mv * 10)
    (hhigh : mv * 10 ≤ (if b.reg (Obj.headPatternBank h) = 0 then 3300 else 1800) * 11) :
    Waits (b.startGo h vias mv).heads[h] vias (later b.now (lockTime (b.reg (Obj.headClockSource h)))) := by
  unfold startGo
  extract_lets nominal c d
  rw [if_neg (by omega)]
  have hc : c.heads[h] = _ := heads_modHead_same ..
  have hd : d.heads[h] = c.heads[h] := (Within.refl Nothing c).setReg.same_heads h
  have hnow : d.now = b.now := ((Within.refl (OneHead h) b).startDerive.modHead rfl).setReg.now
  have hreg : SameReg (Obj.headClockSource h) b d := (startDerive_clockSource h b).modHead.setReg (by
    simp only [Obj.key, Obj.headClockSource, Obj.headPatternBankMeasured]; omega)
  have hstate : d.heads[h].state = .starting := by rw [hd, hc]
  have hvia : d.heads[h].startVia = vias := by rw [hd, hc]
  have hw := startLock_head hstate
  rwa [hreg, hnow, hvia] at hw

/-- A head that has stopped, or is isolated with it (R96, R97). -/
structure Rests (x : Head) : Prop where
  state : x.state = .stopped ∨ x.state = .isolated
  startVia : x.startVia = []
  edges : x.edges = []
  nextDue : x.nextDue = none

theorem outputsRest_head (h : HeadId) (clocks : Nat) (b : Block) : ∃ lv idle, (b.outputsRest h clocks).heads[h] = b.heads[h] ∨
    (b.outputsRest h clocks).heads[h] = { b.heads[h] with edges := [], levels := lv, outputsIdle := idle } := by
  unfold outputsRest
  split
  · exact ⟨none, true, .inl rfl⟩
  · exact ⟨_, _, .inr ((Within.refl Nothing _).emit.same_heads h |>.trans (heads_modHead_same ..))⟩

theorem isolateDone_head (h : HeadId) (b : Block) : (b.isolateDone h).heads[h] = if b.heads[h].isolateVia = [] then b.heads[h] else
    { b.heads[h] with state := .isolated, isolateVia := [], everRun := false, levels := none } := by
  unfold isolateDone
  extract_lets vs c d
  by_cases hv : b.heads[h].isolateVia = []
  · rw [if_pos hv, if_pos (List.isEmpty_iff.mpr hv)]
  · have w : Within Nothing (b.modHead h fun x => { x with state := .isolated, isolateVia := [], everRun := false, levels := none })
        (vs.foldl (fun b v => b.replyVia v .ok) (d.logFault 0x0014 h.val 1 noSource)) :=
      ((Within.refl _ _).bump.emit.logFault).foldl fun _ _ v => v.replyVia
    rw [if_neg hv, if_neg (mt List.isEmpty_iff.mp hv)]
    exact (w.same_heads h).trans (heads_modHead_same ..)

theorem enterStopped_head (h : HeadId) (b : Block) : Rests (b.enterStopped h).heads[h] ∧
    (b.heads[h].isolateVia = [] → (b.enterStopped h).heads[h].state = .stopped) := by
  unfold enterStopped
  extract_lets c d e
  have w : Within CaptureOnly d (((((e.corrTakeArmed h).geometryTakeArmed h).raise (headSource h 11)).windowStop h).captureStop) :=
    Within.captureStop (Within.windowStop (Within.refl CaptureOnly d).calFail.stitchCalFail.restartWindows.corrTakeArmed.geometryTakeArmed.raise
      rfl) rfl
  have hc : c.heads[h] = _ := heads_modHead_same ..
  have hd : Rests d.heads[h] ∧ d.heads[h].state = .stopped ∧ d.heads[h].isolateVia = b.heads[h].isolateVia := by
    obtain ⟨lv, idle, hr | hr⟩ := c.outputsRest_head h 0
    · have hd : d.heads[h] = c.heads[h] := hr
      rw [hd, hc]
      exact ⟨⟨.inl rfl, rfl, rfl, rfl⟩, rfl, rfl⟩
    · have hd : d.heads[h] = { c.heads[h] with edges := [], levels := lv, outputsIdle := idle } := hr
      rw [hd, hc]
      exact ⟨⟨.inl rfl, rfl, rfl, rfl⟩, rfl, rfl⟩
  obtain ⟨hrest, hstate, hvia⟩ := hd
  rw [isolateDone_head, w.capture_heads h, hvia]
  split
  · exact ⟨hrest, fun _ => hstate⟩
  next hn => exact ⟨⟨.inr rfl, hrest.startVia, hrest.edges, hrest.nextDue⟩, fun h => absurd h hn⟩

end Sys2Proof.Machine.Block

namespace Sys2Proof.Machine.Block

/-! ## Answers, runs and stops -/

theorem Within.answered {P : Piece → Prop} {b n : Block} {r : Route} {res : Result} (w : Within P b n) (h : b.Answered r res) :
    n.Answered r res := w.outs _ h

/-- A write among those that wait is answered. -/
theorem answered_foldl_replyVia {r : Route} {res : Result} {l : List Via} (h : Via.write r ∈ l) (b : Block) :
    (l.foldl (fun b v => b.replyVia v res) b).Answered r res := by
  induction l generalizing b with
  | nil => cases h
  | cons v l ih =>
    rcases List.mem_cons.mp h with hv | hl
    · subst hv
      have w : Within Nothing (b.reply r res) (l.foldl (fun b v => b.replyVia v res) (b.reply r res)) :=
        (Within.refl _ _).foldl fun _ _ v => v.replyVia
      exact w.answered (reply_answered r res b)
    · exact ih hl _

theorem answerStart_head (h : HeadId) (res : Result) (b : Block) : (b.answerStart h res).heads[h] = { b.heads[h] with startVia := [] } := by
  have w : Within Nothing b (b.heads[h].startVia.foldl (fun b v => b.replyVia v res) b) := (Within.refl _ _).foldl fun _ _ v => v.replyVia
  rw [answerStart, heads_modHead_same, w.same_heads h]

theorem answerStart_answered {h : HeadId} {r : Route} {res : Result} {b : Block} (hv : Via.write r ∈ b.heads[h].startVia) :
    (b.answerStart h res).Answered r res := answered_foldl_replyVia (res := res) hv b

theorem startFail_head (h : HeadId) (c : AbortCode) (bank : Bool) (mv : Nat) (b : Block) : Rests (b.startFail h c bank mv).heads[h] := by
  unfold startFail
  extract_lets d
  have w : Within Nothing ((d.answerStart h (.abort c)).enterStopped h) (((d.answerStart h (.abort c)).enterStopped h).ringStartHead h false) :=
    (Within.refl _ _).ringStartHead
  rw [w.same_heads h]
  exact (enterStopped_head h _).1

theorem startFail_answered {h : HeadId} {r : Route} {c : AbortCode} {bank : Bool} {mv : Nat} {b : Block} (hv : Via.write r ∈ b.heads[h].startVia) :
    (b.startFail h c bank mv).Answered r (.abort c) := by
  unfold startFail
  extract_lets d
  have wd : Within Nothing b d := (Within.refl _ b).logFault.ite (Within.refl _ b)
  have w : Within (HeadAndCapture h) (d.answerStart h (.abort c)) (((d.answerStart h (.abort c)).enterStopped h).ringStartHead h false) :=
    (Within.enterStopped (Within.refl (HeadAndCapture h) _) (.inr rfl) (.inl rfl)).ringStartHead
  exact w.answered (answerStart_answered (wd.same_heads h ▸ hv))

/-- A start whose bank is out of its bounds is refused (R95). -/
theorem startGo_refused {h : HeadId} {vias : List Via} {mv : Nat} {b : Block}
    (hbank : mv * 10 < (if b.reg (Obj.headPatternBank h) = 0 then 3300 else 1800) * 9 ∨
      (if b.reg (Obj.headPatternBank h) = 0 then 3300 else 1800) * 11 < mv * 10) :
    Rests (b.startGo h vias mv).heads[h] ∧ ∀ r : Route, Via.write r ∈ vias → (b.startGo h vias mv).Answered r (.abort .incompatible) := by
  unfold startGo
  extract_lets nominal c d
  rw [if_pos hbank]
  have hc : c.heads[h] = _ := heads_modHead_same ..
  have hd : d.heads[h] = c.heads[h] := (Within.refl Nothing c).setReg.same_heads h
  have hvia : d.heads[h].startVia = vias := by rw [hd, hc]
  exact ⟨startFail_head .., fun r hr => startFail_answered (hvia ▸ hr)⟩

/-! ### The run -/

/-- The parts of a head that its run begins with. -/
structure Runs (x : Head) : Prop where
  state : x.state = .running
  everRun : x.everRun = true

theorem Runs.of_eq {x y : Head} (h : Runs x) (hs : y.state = x.state) (he : y.everRun = x.everRun) : Runs y := ⟨hs.trans h.state, he.trans h.everRun⟩

theorem armScheduled_head (h : HeadId) (k : Nat) (b : Block) : (b.armScheduled h k).heads[h].state = b.heads[h].state ∧
    (b.armScheduled h k).heads[h].everRun = b.heads[h].everRun ∧ (b.armScheduled h k).heads[h].startVia = b.heads[h].startVia := by
  unfold armScheduled
  split
  · extract_lets c
    have hc : c.heads[h] = _ := heads_modHead_same ..
    split
    · rw [hc]; exact ⟨rfl, rfl, rfl⟩
    · rw [owe, heads_modHead_same, hc]; exact ⟨rfl, rfl, rfl⟩
  · rw [heads_modHead_same]; exact ⟨rfl, rfl, rfl⟩

theorem armFirst_head (h : HeadId) (b : Block) : (b.armFirst h).heads[h].state = b.heads[h].state ∧
    (b.armFirst h).heads[h].everRun = b.heads[h].everRun ∧ (b.armFirst h).heads[h].startVia = b.heads[h].startVia := by
  unfold armFirst
  split
  · extract_lets s start p i c
    split
    · rw [heads_modHead_same]; exact ⟨rfl, rfl, rfl⟩
    · have hc : c.heads[h] = _ := heads_modHead_same ..
      split
      · rw [hc]; exact ⟨rfl, rfl, rfl⟩
      · rw [owe, heads_modHead_same, hc]; exact ⟨rfl, rfl, rfl⟩
  · exact armScheduled_head ..
  · exact armScheduled_head ..
  · rw [heads_modHead_same]; exact ⟨rfl, rfl, rfl⟩

theorem armFirst_regs (h : HeadId) (b : Block) : (b.armFirst h).regs = b.regs := by
  have hs (k : Nat) : (b.armScheduled h k).regs = b.regs := by
    unfold armScheduled
    split
    · dsimp only
      split <;> rfl
    · rfl
  unfold armFirst
  split
  · dsimp only
    split
    · rfl
    · split <;> rfl
  · exact hs 0
  · exact hs 0
  · rfl

theorem SameReg.deriveCeiling {y : Obj} {b₀ b : Block} (w : SameReg y b₀ b) (hy : ∀ a : AxisId, y.key ≠ (Obj.axisKeystoneCeiling a).key) :
    SameReg y b₀ b.deriveCeiling := by
  unfold Block.deriveCeiling
  split
  · exact w
  · exact w.ite (w.setReg (hy _))

theorem SameReg.ringStartCheck {y : Obj} {b₀ b : Block} (w : SameReg y b₀ b) : SameReg y b₀ b.ringStartCheck := by
  unfold Block.ringStartCheck
  split
  · exact w
  · dsimp only
    refine SameReg.ite w ?_
    split
    · exact w
    · split
      · refine SameReg.replyVia ?_
        exact w
      · refine SameReg.replyVia ?_
        exact w

theorem SameReg.ringStartHead {y : Obj} {b₀ b : Block} (w : SameReg y b₀ b) {h : HeadId} {ok : Bool} (hy : y.key ≠ Obj.ringStartFail.key) :
    SameReg y b₀ (b.ringStartHead h ok) := by
  unfold Block.ringStartHead
  split
  · exact w
  · dsimp only
    have hc (v : Nat) : SameReg y b₀ (if ok then b else b.setReg Obj.ringStartFail v) := w.ite (w.setReg hy)
    exact w.ite (SameReg.ringStartCheck ((hc _).of_regs rfl))

theorem SameReg.answerStart {y : Obj} {b₀ b : Block} (w : SameReg y b₀ b) {h : HeadId} {res : Result} : SameReg y b₀ (b.answerStart h res) :=
  (w.foldl fun _ _ v => v.replyVia) _

theorem outputsRest_regs (h : HeadId) (clocks : Nat) (b : Block) : (b.outputsRest h clocks).regs = b.regs := by
  unfold outputsRest
  split <;> rfl

/-- A head that locks runs unless its list has nothing left to fire (R84, R95), and its start is answered. -/
theorem enterRunning_head {h : HeadId} {b : Block} (hs : b.reg (Obj.headTriggerSource h) ≠ 2) :
    (b.enterRunning h).heads[h].state = .running ∧ (b.enterRunning h).heads[h].startVia = [] ∧ (b.enterRunning h).heads[h].everRun = true ∧
    (b.enterRunning h).Fired (headSource h 7) ∧ (b.enterRunning h).Fired (headSource h 10) ∧
    ∀ r : Route, Via.write r ∈ b.heads[h].startVia → (b.enterRunning h).Answered r .ok := by
  unfold enterRunning
  extract_lets c d e
  have hc : c.heads[h] = _ := heads_modHead_same ..
  have hd : d.heads[h].state = .running ∧ d.heads[h].everRun = true ∧ d.heads[h].startVia = b.heads[h].startVia := by
    obtain ⟨lv, idle, hr | hr⟩ := c.outputsRest_head h (c.outputsOf h 2)
    · have hd : d.heads[h] = c.heads[h] := hr
      rw [hd, hc]; exact ⟨rfl, rfl, rfl⟩
    · have hd : d.heads[h] = { c.heads[h] with edges := [], levels := lv, outputsIdle := idle } := hr
      rw [hd, hc]; exact ⟨rfl, rfl, rfl⟩
  have he : e.heads[h] = d.heads[h] := (((Within.refl Nothing d).setReg.raise).raise).same_heads h
  obtain ⟨hstate, hever, hvia⟩ := e.armFirst_head h
  rw [he, hd.1] at hstate
  rw [he, hd.2.1] at hever
  rw [he, hd.2.2] at hvia
  have hf : (e.armFirst h).deriveCeiling.heads[h] = (e.armFirst h).heads[h] := (Within.refl Nothing _).deriveCeiling.same_heads h
  let f := (e.armFirst h).deriveCeiling
  have hlast : ((f.answerStart h .ok).ringStartHead h true).heads[h] = { (e.armFirst h).heads[h] with startVia := [] } := by
    rw [(Within.refl Nothing (f.answerStart h .ok)).ringStartHead.same_heads h, answerStart_head, hf]
  have hsource : SameReg (Obj.headTriggerSource h) b ((f.answerStart h .ok).ringStartHead h true) := by
    have h1 : SameReg (Obj.headTriggerSource h) b e := by
      refine (SameReg.of_regs (SameReg.refl _ b) (outputsRest_regs h _ c)).setReg (o := Obj.headClockLocked h) (v := 1) ?_ |>.raise.raise
      simp only [Obj.key, Obj.headTriggerSource, Obj.headClockLocked]; omega
    refine SameReg.ringStartHead (SameReg.answerStart (SameReg.deriveCeiling (h1.of_regs (armFirst_regs h e)) fun a => ?_)) ?_
    · simp only [Obj.key, Obj.headTriggerSource, Obj.axisKeystoneCeiling]; omega
    · simp only [Obj.key, Obj.headTriggerSource, Obj.ringStartFail]; omega
  have hend : ((f.answerStart h .ok).ringStartHead h true).listEnd h = (f.answerStart h .ok).ringStartHead h true :=
    if_neg fun hl => hs (hsource.symm.trans hl.1)
  have w : Within (OneHead h) e ((f.answerStart h .ok).ringStartHead h true) := (((Within.refl (OneHead h) e).armFirst rfl).deriveCeiling.answerStart rfl).ringStartHead
  rw [hend, hlast]
  refine ⟨hstate, rfl, hever, w.fired ?_, w.fired ?_, fun r hr => ?_⟩
  · exact List.mem_append_left _ (List.mem_append_right _ (List.mem_singleton_self _))
  · exact List.mem_append_right _ (List.mem_singleton_self _)
  · have hg : Via.write r ∈ f.heads[h].startVia := by
      rw [show f.heads[h] = _ from hf, hvia]; exact hr
    exact (Within.refl Nothing (f.answerStart h .ok)).ringStartHead.answered (answerStart_answered hg)

/-! ### The stop -/

theorem stopIfDone_of_lines {h : HeadId} {b : Block} (hl : b.heads[h].lines ≠ []) : b.stopIfDone h = b := by
  refine if_neg fun hc => hl ?_
  rw [Bool.and_eq_true] at hc
  exact List.isEmpty_iff.mp hc.2

theorem stopIfDone_of_done {h : HeadId} {b : Block} (hs : b.heads[h].state = .stopping) (hl : b.heads[h].lines = []) :
    b.stopIfDone h = b.enterStopped h := if_pos (by rw [hs, hl]; rfl)

/-- A running head without lines stops at once (R96). -/
theorem headStop_idle {h : HeadId} {b : Block} (hs : b.heads[h].state = .running) (hl : b.heads[h].lines = [])
    (hi : b.heads[h].isolateVia = []) :
    Rests (b.headStop h).heads[h] ∧ (b.headStop h).heads[h].state = .stopped ∧ (b.headStop h).Fired (headSource h 11) := by
  unfold headStop
  rw [hs]
  dsimp only
  generalize hc : (b.modHead h fun x => { x with state := .stopping, nextDue := none, owed := [], stateSince := b.now }) = c
  have hcx : c.heads[h] = _ := (congrArg (fun c : Block => c.heads[h]) hc).symm.trans (heads_modHead_same ..)
  have hd : ((c.calFail h 9).stitchCalFail h 9).heads[h] = c.heads[h] := (Within.refl Nothing c).calFail.stitchCalFail.same_heads h
  have hdone := stopIfDone_of_done (h := h) (b := (c.calFail h 9).stitchCalFail h 9) (by rw [hd, hcx]) (by rw [hd, hcx]; exact hl)
  rw [hdone]
  obtain ⟨hrest, hstate⟩ := enterStopped_head h ((c.calFail h 9).stitchCalFail h 9)
  refine ⟨hrest, hstate (by rw [hd, hcx]; exact hi), ?_⟩
  unfold enterStopped
  extract_lets f g k
  have w := Within.isolateDone (Within.captureStop (Within.windowStop (Within.refl (HeadAndCapture h)
    (((k.corrTakeArmed h).geometryTakeArmed h).raise (headSource h 11))) (h := h) (.inr rfl)) (.inr rfl)) (h := h) (.inl rfl)
  exact w.fired (List.mem_append_right _ (List.mem_singleton_self _))

theorem headStop_busy {h : HeadId} {b : Block} (hs : b.heads[h].state = .running) (hl : b.heads[h].lines ≠ []) :
    b.headStop h = ((b.modHead h fun x => { x with state := .stopping, nextDue := none, owed := [], stateSince := b.now }).calFail h
      9).stitchCalFail h 9 := by
  unfold headStop
  rw [hs]
  dsimp only
  refine stopIfDone_of_lines ?_
  generalize hc : (b.modHead h fun x => { x with state := .stopping, nextDue := none, owed := [], stateSince := b.now }) = c
  have hcx : c.heads[h] = _ := (congrArg (fun c : Block => c.heads[h]) hc).symm.trans (heads_modHead_same ..)
  rw [(Within.refl Nothing c).calFail.stitchCalFail.same_heads h, hcx]
  exact hl

theorem orTask_headStop {r : Option Route} {h : HeadId} {e : Env} {b : Block}
    (hr : b.reaches r (Obj.headPatternCommand h) 2 (headTaskNo h 2) e) (hs : e.same = false) :
    b.orTask r (Obj.headPatternCommand h) 2 (headTaskNo h 2) e = ((b.cleared r (headTaskNo h 2)).headStop h).answered r .ok := by
  refine orTask_answered hr hs (f := fun b => b.headStop h) (fun x _ => ?_) fun _ m => ?_
  · rw [writeDo_headPatternCommand e x h 2 b (by decide), if_neg (by decide), hs]; rfl
  · rw [taskDo_head h 2 (by decide)]; rfl

theorem discardLines_lines (h : HeadId) (b : Block) : (b.discardLines h).heads[h].lines = [] := by
  unfold discardLines
  dsimp only
  rw [heads_modHead_same]

theorem within_answered (P : Piece → Prop) (r : Option Route) (res : Result) (b : Block) : Within P b (b.answered r res) := by
  cases r with
  | some r => exact (Within.refl P b).reply
  | none => exact .refl P b

end Sys2Proof.Machine.Block

namespace Sys2Proof
open Machine Machine.Block

section
variable {t : Time} {r : Option Route} {h : HeadId} {s : State}

theorem does_headStart {mv : BitVec 16}
    (hr : (s.b.at_ t).reaches r (Obj.headPatternCommand h) 1 (headTaskNo h 1)
      { Env.quiet with start := .alone, banks := List.replicate 4 mv.toNat })
    (hv : (((s.b.at_ t).cleared r (headTaskNo h 1)).startDerive h).headStartViolations h = []) :
    Does (.headStart t r h .alone mv) s
      (((s.b.at_ t).cleared r (headTaskNo h 1)).startGo h [(s.b.at_ t).viaOf r (headTaskNo h 1)] mv.toNat) := by
  have he : exec (.headStart t r h .alone mv) s = run t (fun b => b.orTask r (Obj.headPatternCommand h) 1 (headTaskNo h 1)
    { Env.quiet with start := .alone, banks := List.replicate 4 mv.toNat }) s := rfl
  exact does_of_run he (orTask_headStart hr rfl rfl (by fin_cases h <;> rfl) hv)

theorem does_headStop (hr : (s.b.at_ t).reaches r (Obj.headPatternCommand h) 2 (headTaskNo h 2) Env.quiet) :
    Does (.headStop t r h false) s ((((s.b.at_ t).cleared r (headTaskNo h 2)).headStop h).answered r .ok) := by
  have he : exec (.headStop t r h false) s = run t (fun b => b.orTask r (Obj.headPatternCommand h) 2 (headTaskNo h 2) (Env.meeting false)) s := rfl
  exact does_of_run he (orTask_headStop hr rfl)

theorem Does.ends {i : Instr} {b : Block} {p : Block → Prop} (w : Does i s b) (hp : p b.finish) : Ends i s p := ⟨_, w, rfl, hp⟩

theorem starting_not (hs : (s.b.at_ t).heads[h].state = .starting) (hclock : (s.b.at_ t).clockPresent h = true) {p : Bool} (hp : p = true) :
    ¬((s.b.at_ t).heads[h].state ≠ .starting ∨ (!(s.b.at_ t).clockPresent h) = true ∨ (!p) = true) := by
  rw [hs, hclock, hp]
  decide

/-- A start, accepted or refused by its bank. -/
theorem headStart_ends {mv : BitVec 16}
    (hr : (s.b.at_ t).reaches r (Obj.headPatternCommand h) 1 (headTaskNo h 1)
      { Env.quiet with start := .alone, banks := List.replicate 4 mv.toNat })
    (hv : (((s.b.at_ t).cleared r (headTaskNo h 1)).startDerive h).headStartViolations h = []) :
    let b := s.b.at_ t
    let nominal := if b.reg (Obj.headPatternBank h) = 0 then 3300 else 1800
    (nominal * 9 ≤ mv.toNat * 10 → mv.toNat * 10 ≤ nominal * 11 → Ends (.headStart t r h .alone mv) s fun n =>
      n.heads[h].state = .starting ∧ n.heads[h].startVia = [b.viaOf r (headTaskNo h 1)] ∧
      n.heads[h].startDeadline = later t (lockTime (b.reg (Obj.headClockSource h))) ∧ n.heads[h].lines = [] ∧ n.heads[h].nextSeq = 0 ∧
      n.mem = s.b.mem ∧ ∀ g : HeadId, g ≠ h → n.heads[g] = s.b.heads[g]) ∧
    (mv.toNat * 10 < nominal * 9 ∨ nominal * 11 < mv.toNat * 10 → Ends (.headStart t r h .alone mv) s fun n =>
      n.heads[h].state ≠ .starting ∧ n.heads[h].startVia = [] ∧ n.mem = s.b.mem ∧
      ∀ x : Route, r = some x → n.Answered x (.abort .incompatible)) := by
  intro b nominal
  let c := b.cleared r (headTaskNo h 1)
  have hnom : (if c.reg (Obj.headPatternBank h) = 0 then 3300 else 1800) = nominal := by
    rw [show c.reg (Obj.headPatternBank h) = _ from reg_cleared ..]
  have w : Within (HeadAndCapture h) b (c.startGo h [b.viaOf r (headTaskNo h 1)] mv.toNat) :=
    Within.startGo (within_cleared _ ..) (.inr rfl) (.inl rfl)
  refine ⟨fun hlow hhigh => (does_headStart hr hv).ends ?_, fun hbank => (does_headStart hr hv).ends ?_⟩
  · have hw := startGo_head (h := h) (vias := [b.viaOf r (headTaskNo h 1)]) (mv := mv.toNat) (b := c) (hnom ▸ hlow) (hnom ▸ hhigh)
    simp only [finish_heads, finish_mem]
    rw [show c.now = t from (within_cleared Nothing ..).now, show c.reg (Obj.headClockSource h) = _ from reg_cleared ..] at hw
    exact ⟨hw.state, hw.startVia, hw.startDeadline, hw.lines, hw.nextSeq, w.mem_of_headAndCapture, w.other_heads'⟩
  · obtain ⟨hrest, hanswer⟩ := startGo_refused (h := h) (vias := [b.viaOf r (headTaskNo h 1)]) (mv := mv.toNat) (b := c) (hnom ▸ hbank)
    simp only [finish_heads, finish_mem]
    refine ⟨fun hx => ?_, hrest.startVia, w.mem_of_headAndCapture, fun x hx => ?_⟩
    · rcases hrest.state with hy | hy <;> rw [hy] at hx <;> cases hx
    · subst hx
      exact (hanswer x (List.mem_singleton_self _)).finish

/-- The shorted outputs of a head are written down (R294). -/
def shortsFound (h : HeadId) (shorts : BitVec 20) (c : Block) : Block :=
  if shorts = 0 then c else (c.logFault 0x0013 h.val shorts.toNat (headSource h 45)).raise (headSource h 45)

theorem within_shortsFound (P : Piece → Prop) (h : HeadId) (shorts : BitVec 20) (c : Block) : Within P c (shortsFound h shorts c) :=
  (Within.refl P c).ite (Within.refl P c).logFault.raise

theorem shortsFound_reg (h : HeadId) (shorts : BitVec 20) (c : Block) (o : Obj) : (shortsFound h shorts c).reg o = c.reg o := by
  unfold shortsFound
  split
  · rfl
  · exact logFault_reg ..

section
variable {shorts : BitVec 20} {chain : Nat} (hs : (s.b.at_ t).heads[h].state = .starting) (hclock : (s.b.at_ t).clockPresent h = true)
  (hpassed : passed (s.b.at_ t).heads[h].stateSince (40 * tUs) t = true) (hin : 0 ≤ timeDiff (s.b.at_ t).heads[h].startDeadline t)
include hs hclock hpassed hin

theorem headLocked_eq : (s.b.at_ t).headLocked h shorts chain =
    if chain ≠ 16 * (s.b.at_ t).reg (Obj.headIllumExtDrivers h) then (s.b.at_ t).startFail h .incompatible false 0
    else (shortsFound h shorts ((s.b.at_ t).setReg (Obj.headIllumShorts h) shorts.toNat)).enterRunning h := by
  unfold headLocked
  exact (if_neg (starting_not hs hclock hpassed)).trans (if_neg (Int.not_lt.mpr hin))

theorem headLocked_runs (hchain : chain = 16 * (s.b.at_ t).reg (Obj.headIllumExtDrivers h))
    (hsource : (s.b.at_ t).reg (Obj.headTriggerSource h) ≠ 2) : Ends (.headPllLocked t h shorts chain) s fun n =>
      n.heads[h].state = .running ∧ n.heads[h].startVia = [] ∧ n.heads[h].everRun = true ∧ n.Fired (headSource h 7) ∧
      n.Fired (headSource h 10) ∧ (∀ r : Route, Via.write r ∈ s.b.heads[h].startVia → n.Answered r .ok) ∧ n.mem = s.b.mem ∧
      ∀ g : HeadId, g ≠ h → n.heads[g] = s.b.heads[g] := by
  have he : exec (.headPllLocked t h shorts chain) s = run t (fun b => b.headLocked h shorts chain) s := rfl
  have hrun := (headLocked_eq (shorts := shorts) (chain := chain) hs hclock hpassed hin).trans (if_neg (not_not_intro hchain))
  refine (does_of_run he hrun).ends ?_
  generalize hd : shortsFound h shorts ((s.b.at_ t).setReg (Obj.headIllumShorts h) shorts.toNat) = d
  have wd : Within Nothing (s.b.at_ t) d := hd ▸ (Within.refl Nothing _).setReg.trans (within_shortsFound ..)
  have hreg : d.reg (Obj.headTriggerSource h) = (s.b.at_ t).reg (Obj.headTriggerSource h) := by
    rw [← hd, shortsFound_reg]
    refine (SameReg.refl _ (s.b.at_ t)).setReg ?_
    simp only [Obj.key, Obj.headTriggerSource, Obj.headIllumShorts]; omega
  obtain ⟨hstate, hvia, hever, hf7, hf10, hans⟩ := enterRunning_head (h := h) (b := d) (hreg ▸ hsource)
  have w : Within (HeadAndCapture h) (s.b.at_ t) (d.enterRunning h) := (wd.mono nofun).enterRunning (.inr rfl) (.inl rfl)
  simp only [finish_heads, finish_mem]
  exact ⟨hstate, hvia, hever, hf7.finish, hf10.finish, fun r hr => (hans r (wd.same_heads h ▸ hr)).finish, w.mem_of_headAndCapture, w.other_heads'⟩

end

/-- A running head without lines and without an isolation stops at once. -/
theorem headStop_ends (hr : (s.b.at_ t).reaches r (Obj.headPatternCommand h) 2 (headTaskNo h 2) Env.quiet)
    (hs : s.b.heads[h].state = .running) (hl : s.b.heads[h].lines = []) (hi : s.b.heads[h].isolateVia = []) :
    Ends (.headStop t r h false) s fun n => n.heads[h].state = .stopped ∧ n.heads[h].edges = [] ∧ n.heads[h].nextDue = none ∧
      n.Fired (headSource h 11) ∧ n.mem = s.b.mem ∧ (∀ x : Route, r = some x → n.Answered x .ok) ∧
      ∀ g : HeadId, g ≠ h → n.heads[g] = s.b.heads[g] := by
  refine (does_headStop hr).ends ?_
  generalize hc : (s.b.at_ t).cleared r (headTaskNo h 2) = c
  have wc : Within Nothing (s.b.at_ t) c := hc ▸ within_cleared ..
  have hh : c.heads[h] = s.b.heads[h] := wc.same_heads h
  obtain ⟨hrest, hstate, hfired⟩ := headStop_idle (h := h) (b := c) (hh ▸ hs) (hh ▸ hl) (hh ▸ hi)
  have w : Within (HeadAndCapture h) (s.b.at_ t) (c.headStop h) := (wc.mono nofun).headStop (.inr rfl) (.inl rfl)
  have wa := within_answered Nothing r .ok (c.headStop h)
  simp only [finish_heads, finish_mem]
  rw [wa.same_heads h]
  refine ⟨hstate, hrest.edges, hrest.nextDue, (wa.fired hfired).finish, (wa.mem nofun).trans w.mem_of_headAndCapture, fun x hx => ?_,
    fun g hg => (wa.same_heads g).trans (w.other_heads' g hg)⟩
  subst hx
  exact (reply_answered ..).finish

end

/-- Settles O13: the conditions of each step of a start, of a run and of a stop decide its branches. -/
theorem headsStartAndStop : Obligations.HeadsStartAndStop := by
  unfold Obligations.HeadsStartAndStop
  refine ⟨fun t r h mv s => ⟨fun hr hv => ⟨does_headStart hr hv, headStart_ends hr hv⟩, fun hs hclock hdue => ?_⟩,
    fun t h shorts chain s hs hclock hpassed hin => ⟨fun hchain => ⟨?_, headLocked_runs hs hclock hpassed hin hchain⟩, fun hchain => ?_⟩,
    fun t r h s => ⟨fun hr => ⟨does_headStop hr, fun hs hl => ?_, headStop_ends hr⟩, fun hs => ⟨?_, discardLines_lines h _⟩, fun hs hcount => ?_⟩⟩
  · exact does_of_run (f := fun b => b.lockTimeout h) rfl (if_neg (starting_not hs hclock hdue))
  · exact does_of_run (f := fun b => b.headLocked h shorts chain) rfl
      ((headLocked_eq hs hclock hpassed hin).trans (if_neg (not_not_intro hchain)))
  · exact does_of_run (f := fun b => b.headLocked h shorts chain) rfl ((headLocked_eq hs hclock hpassed hin).trans (if_pos hchain))
  · have hh := congrArg (fun v => v[h]) (heads_cleared r (headTaskNo h 2) (s.b.at_ t))
    have hd := does_headStop hr
    rwa [headStop_busy (hh ▸ hs) (hh ▸ hl), show ((s.b.at_ t).cleared r (headTaskNo h 2)).now = t from (within_cleared Nothing ..).now] at hd
  · refine does_of_run (f := fun b => b.lockLost h) rfl (if_neg fun hc => ?_)
    exact hs.elim hc.1 hc.2
  · exact does_of_run (f := fun b => b.triggerCountEnd h) rfl (if_pos (by rw [hs, hcount]; rfl))

end Sys2Proof

/-! # A record that lies outside its partition (R204, R219) -/

namespace Sys2Proof
open Machine Machine.Block

/-- The line that waits in the queue: of sequence 0, without a pixel. -/
def strayLine : Line :=
  ⟨0, 0, 0, none, 0, false, false, 0, 0, 0, 0, 0, true, 0, false, 0, 0, false, [], none, false, 0, ⟨[], []⟩, [], []⟩

/-- Head 0 in a burst window whose partition holds a record of sequence 0 that lies at 0x0100_0000, outside the partition, and owes flag 0. -/
def strayRecord : State where
  b := (((State.reset.b.setReg Obj.captureWindowMode 1).modCapture fun c => { c with state := 3 }).modPart 0 fun p =>
    { p with size := 1048576, items := [.record ⟨0, 0, [(0x01000000, 64)], false, false, 0⟩], owes := 1, trigger := some 0 }).modHead 0 fun x =>
      { x with queue := [⟨strayLine, []⟩] }
  pending := []

/-- The window keeps the stray record, and the flag that it owes is written to its header. -/
theorem lineLeaves_strayRecord : memGet ((strayRecord.b.at_ 0).lineLeaves 0).mem 0x01000028 = 1 ∧
    memGet (strayRecord.b.at_ 0).mem 0x01000028 = 0 := by decide +kernel

theorem partitionArea_strayRecord : (strayRecord.b.at_ 0).partitionArea 0 (strayRecord.b.at_ 0).capture.partitions[(0 : HeadId)].skip =
    [(0x48000000, 0xEE000000)] := by decide +kernel

/-- Refutes O16: the flags that a record owes are written where the record lies, which in a state that no run reaches is outside the head's
partition and its delay area. -/
theorem not_linesAreReadOut : ¬ Obligations.LinesAreReadOut := by
  unfold Obligations.LinesAreReadOut
  intro hall
  obtain ⟨-, -, hleaves, -⟩ := hall 0 0 strayRecord
  obtain ⟨n, hn, -, -, -, -, hmem⟩ := hleaves ⟨strayLine, []⟩ [] (by decide +kernel) rfl nofun
  have hexec : exec (.lineLeavesQueue 0 0) strayRecord = .next { strayRecord with b := ((strayRecord.b.at_ 0).lineLeaves 0).finish } := rfl
  injection hexec.symm.trans hn with hb
  have harea := hmem 0x01000028 (.inl (by decide)) fun p hp => by
    rw [partitionArea_strayRecord] at hp
    obtain rfl := List.mem_singleton.mp hp
    exact .inl (by decide)
  obtain ⟨hafter, hbefore⟩ := lineLeaves_strayRecord
  rw [← hb, finish_mem, hafter, hbefore] at harea
  exact absurd harea (by decide)

end Sys2Proof

/-! # Requests to the objects of a head (R28, R359), and the video loops (R99 to R121) -/

namespace Sys2Proof.Machine.Block

theorem writeDo_headObj (e : Env) (r : Route) (h : HeadId) {o : Obj} (i : Nat) (hi : i < 0x400) (ho : o.index = 0x3000 + i + 0x400 * h.val)
    (v : Nat) (b : Block) : b.writeDo e r o.index o.sub v = b.headDo e r h (0x3000 + i) o.sub v := by
  rw [ho]
  exact writeDo_head e r h i o.sub v b hi

theorem mod_u16 {o : Obj} (ho : o.ty = .u16) (v : BitVec 16) : v.toNat % 256 ^ (o.ty.bits / 8) = v.toNat := by
  rw [ho]
  exact Nat.mod_eq_of_lt v.isLt

theorem mod_u8 {o : Obj} (ho : o.ty.bits = 8) {v : Nat} (hv : v < 256) : v % 256 ^ (o.ty.bits / 8) = v := by
  rw [ho]
  exact Nat.mod_eq_of_lt hv

/-- An accepted write of an object that does no more than hold its value. -/
theorem writeTo_stored {e : Env} {r : Route} {o : Obj} {v : Nat} {b : Block} (ha : b.acceptsObj e r o v = true)
    (hrow : (findRow o.index o.sub).map (fun row => row.obj o.index o.sub) = some o) (hv : v % 256 ^ (o.ty.bits / 8) = v)
    (hdo : b.writeDo e r o.index o.sub v = none) : b.writeTo o v r e = (b.storeFor r o v).reply r .ok := by
  obtain ⟨row, hr⟩ := row_of_accepts ha
  rw [hr, Option.map_some, Option.some.injEq] at hrow
  rw [writeTo, dictWrite_of_accepts hr ha, leNat_leBytes, hv, hdo, hrow, Option.getD_none]

theorem orTask_rangeCommit_write {r : Route} {h : HeadId} {set : BitVec 16} {b : Block} (m : Nat)
    (ha : b.acceptsObj Env.quiet r (Obj.headVideoRangeCommit h) set.toNat = true) :
    b.orTask (some r) (Obj.headVideoRangeCommit h) set.toNat m Env.quiet =
      (b.corrArmOrTake h (.range (b.stagedGains h) set.toNat) 0 false).reply r .ok := by
  refine writeTo_of_accepts ha ?_
  rw [mod_u16 rfl, writeDo_headObj Env.quiet r h 0x82 (by decide) rfl]
  rfl

/-- A task of a head that no other task meets. -/
theorem orTask_head_task {h : HeadId} {o : Obj} {v k : Nat} {e : Env} {b c : Block} (hk : k < 64) (ha : b.taskAlive (headTaskNo h k) = true)
    (he : e.same = false) (hc : ∀ st m, (b.unlatch (headTaskNo h k)).headTask h k st { e with merged := m } = c) :
    b.orTask none o v (headTaskNo h k) e = c :=
  orTask_of_reaches (r := none) ha he nofun fun _ _ => (taskDo_head h k hk ..).trans (hc ..)

theorem orTask_ilvFreeze {r : Option Route} {h : HeadId} {b : Block} {v k : Nat} (hv : v = 1 ∧ k = 4 ∨ v = 0 ∧ k = 5)
    (hr : b.reaches r (Obj.headVideoIlvFreeze h) v (headTaskNo h k) Env.quiet) :
    b.orTask r (Obj.headVideoIlvFreeze h) v (headTaskNo h k) Env.quiet =
      ((b.cleared r (headTaskNo h k)).ilvAsk h (decide (v = 1))).answered r .ok := by
  refine orTask_answered hr rfl (f := fun b => b.ilvAsk h (decide (v = 1))) (fun x _ => ?_) fun _ _ => ?_
  · rw [writeDo_headObj Env.quiet x h 0x87 (by decide) rfl]
    obtain ⟨rfl, -⟩ | ⟨rfl, -⟩ := hv
    · rw [mod_u8 rfl (by decide)]; rfl
    · rw [mod_u8 rfl (by decide)]; rfl
  · obtain ⟨rfl, rfl⟩ | ⟨rfl, rfl⟩ := hv
    · exact taskDo_head h 4 (by decide) ..
    · exact taskDo_head h 5 (by decide) ..

end Sys2Proof.Machine.Block

namespace Sys2Proof
open Machine Machine.Block

/-- Settles O17: a request reaches its head, and the conditions of each loop decide its branches. -/
theorem videoLoops : Obligations.VideoLoops := by
  unfold Obligations.VideoLoops
  intro t h s b
  refine ⟨fun r set ha => ?_, fun set ha hv => ?_, fun r hr => ?_, fun r hr => ?_, fun freeze => ?_, fun hn => ?_, fun ready hne hready => ?_,
    fun hlimit hraised hsince hconv => ?_⟩
  · exact does_of_run (f := fun b => b.orTask (some r) (Obj.headVideoRangeCommit h) set.toNat (headTaskNo h 6) Env.quiet) rfl
      (orTask_rangeCommit_write _ ha)
  · refine does_of_run (f := fun b => b.orTask none (Obj.headVideoRangeCommit h) set.toNat (headTaskNo h 6) Env.quiet) rfl
      (orTask_head_task (by decide) ha rfl fun st m => if_pos ?_)
    exact List.isEmpty_iff.mpr hv
  · exact does_of_run (f := fun b => b.orTask r (Obj.headVideoIlvFreeze h) 1 (headTaskNo h 4) Env.quiet) rfl
      (orTask_ilvFreeze (.inl ⟨rfl, rfl⟩) hr)
  · exact does_of_run (f := fun b => b.orTask r (Obj.headVideoIlvFreeze h) 0 (headTaskNo h 5) Env.quiet) rfl
      (orTask_ilvFreeze (.inr ⟨rfl, rfl⟩) hr)
  · simp [ilvAsk, modVideo]
  · exact does_of_run (f := fun b => b.pedestalUpdate h) rfl (if_neg (Nat.not_lt.mpr hn))
  · subst hready
    exact does_of_run (f := fun b => b.ilvWindows h) rfl (if_neg fun he => hne (List.isEmpty_iff.mp he))
  · have hno : ¬(b.reg (Obj.headVideoIlvTimeout h) = 0 ∨ b.video[h].timeoutRaised = true ∨
        b.video[h].linesSince < b.reg (Obj.headVideoIlvTimeout h) ∨ b.video[h].converged = true) := by
      rw [hraised, hconv]
      simpa using ⟨hlimit, hsince⟩
    exact ⟨does_of_run (f := fun b => b.ilvTimeout h false) rfl (if_neg hno), does_of_run (f := fun b => b.ilvTimeout h true) rfl (if_neg hno)⟩

end Sys2Proof

/-! # Correction sets (R120, R132, R149 to R152) -/

namespace Sys2Proof.Machine.Block

/-! ## Tables -/

theorem table_setTable_same (i : Nat) (d : List Byte) (b : Block) : (b.setTable i d).table i = d := by
  simp [table, setTable]

theorem table_setTable_other {i j : Nat} (h : i ≠ j) {d : List Byte} {b : Block} (hd : (b.setTable j d).tableDefault i = b.tableDefault i) :
    (b.setTable j d).table i = b.table i := by
  rw [table, table, hd, setTable_tables, Map.get?_insert, if_neg h]

/-- The default of a correction table is a constant. -/
theorem tableDefault_correction {i : Nat} (hlo : 0x6018 ≤ i) (hhi : i < 0x6028) (b n : Block) : n.tableDefault i = b.tableDefault i := by
  have hgeo : ¬(0x6028 ≤ i ∧ i < 0x602C) ∧ ¬(0x602C ≤ i ∧ i < 0x6030) := by omega
  simp only [tableDefault, hgeo.1, hgeo.2, if_false]

theorem table_correction {i : Nat} (hlo : 0x6018 ≤ i) (hhi : i < 0x6028) {b n : Block} (ht : n.tables = b.tables) : n.table i = b.table i := by
  rw [table, table, ht, tableDefault_correction hlo hhi b n]

theorem activeSet_congr (h : HeadId) {b n : Block} (ht : n.tables = b.tables) : n.activeSet h = b.activeSet h := by
  rw [activeSet, activeSet, table_correction (by omega) (by omega) ht, table_correction (by omega) (by omega) ht]

theorem shadowSet_congr (h : HeadId) {b n : Block} (ht : n.tables = b.tables) : n.shadowSet h = b.shadowSet h := by
  rw [shadowSet, shadowSet, table_correction (by omega) (by omega) ht, table_correction (by omega) (by omega) ht]

theorem activeSet_setShadow (h : HeadId) (c : CorrSet) (b : Block) : (b.setShadow h c).activeSet h = b.activeSet h := by
  have ht {i j : Nat} (hij : i ≠ j) (hlo : 0x6018 ≤ i) (hhi : i < 0x6028) (d : List Byte) (b : Block) : (b.setTable j d).table i = b.table i :=
    table_setTable_other hij (tableDefault_correction hlo hhi _ _)
  simp only [activeSet, setShadow]
  rw [ht (by omega) (by omega) (by omega), ht (by omega) (by omega) (by omega), ht (by omega) (by omega) (by omega),
    ht (by omega) (by omega) (by omega)]

theorem activeSet_setActive (h : HeadId) (c : CorrSet) (b : Block) : (b.setActive h c).activeSet h = c := by
  rw [activeSet, setActive, table_setTable_same, table_setTable_other (by omega) (tableDefault_correction (by omega) (by omega) _ _),
    table_setTable_same]

theorem shadowSet_setShadow (h : HeadId) (c : CorrSet) (b : Block) : (b.setShadow h c).shadowSet h = c := by
  rw [shadowSet, setShadow, table_setTable_same, table_setTable_other (by omega) (tableDefault_correction (by omega) (by omega) _ _),
    table_setTable_same]

/-! ## The swap -/

/-- Active and shadow have exchanged their places and their numbers (R152). -/
structure Swapped (h : HeadId) (b n : Block) : Prop where
  active : n.activeSet h = b.shadowSet h
  shadow : n.shadowSet h = b.activeSet h
  inForce : n.reg (Obj.headCorrSetInForce h) = (b.shadowSet h).number % 2 ^ 16
  ready : n.reg (Obj.headCorrShadowReady h) = (b.activeSet h).number % 2 ^ 16
  fired : n.Fired (headSource h 27)

theorem swapSets_swapped (h : HeadId) (b : Block) : Swapped h b (b.swapSets h) := by
  unfold swapSets
  extract_lets old new c d
  have ht : (((d.updateDefective h).bump (Obj.headCorrSwaps h)).raise (headSource h 27)).tables = c.tables := rfl
  have hforce : SameReg (Obj.headCorrSetInForce h) (c.setReg (Obj.headCorrSetInForce h) new.number)
      (((d.updateDefective h).bump (Obj.headCorrSwaps h)).raise (headSource h 27)) := by
    refine ((((SameReg.refl _ _).setReg ?_).setReg ?_).bump ?_).raise
    · simp only [Obj.key, Obj.headCorrSetInForce, Obj.headCorrShadowReady]; omega
    · simp only [Obj.key, Obj.headCorrSetInForce, Obj.headCorrDefective]; omega
    · simp only [Obj.key, Obj.headCorrSetInForce, Obj.headCorrSwaps]; omega
  have hready : SameReg (Obj.headCorrShadowReady h) d (((d.updateDefective h).bump (Obj.headCorrSwaps h)).raise (headSource h 27)) := by
    refine (((SameReg.refl _ _).setReg ?_).bump ?_).raise
    · simp only [Obj.key, Obj.headCorrShadowReady, Obj.headCorrDefective]; omega
    · simp only [Obj.key, Obj.headCorrShadowReady, Obj.headCorrSwaps]; omega
  refine ⟨?_, ?_, ?_, ?_, List.mem_append_right _ (List.mem_singleton_self _)⟩
  · rw [activeSet_congr h ht, activeSet_setShadow, activeSet_setActive]
  · rw [shadowSet_congr h ht, shadowSet_setShadow]
  · exact hforce.trans (reg_setReg_self ..)
  · exact hready.trans (reg_setReg_self ..)

theorem calFail_tables (h : HeadId) (st : Nat) (b : Block) : (b.calFail h st).tables = b.tables := by
  unfold calFail
  split <;> rfl

theorem corrTake_swap (h : HeadId) (b : Block) : Swapped h b (b.corrTake h .swap) := by
  have hs := swapSets_swapped h (b.calFail h 9)
  have ht := calFail_tables h 9 b
  exact ⟨hs.active.trans (shadowSet_congr h ht), hs.shadow.trans (activeSet_congr h ht), shadowSet_congr h ht ▸ hs.inForce,
    activeSet_congr h ht ▸ hs.ready, hs.fired⟩

/-- An arming that meets no other of its HD cycle. -/
theorem corrArmOrTake_alone (h : HeadId) (a : Armed) (rank : Nat) (b : Block) : b.corrArmOrTake h a rank false =
    (b.modCorr h fun c => { c with armedRank := rank, armedAt := some b.now, armedOld := b.armedBefore h, armedCounted := false }).corrPut h a := by
  unfold corrArmOrTake
  exact if_neg (by simp)

theorem corrArmOrTake_running {h : HeadId} (rank : Nat) {b : Block} (hs : b.headStopped h = false) : b.corrArmOrTake h .swap rank false =
    b.modCorr h fun c => { c with armed := some .swap, armedRank := rank, armedAt := some b.now, armedOld := b.armedBefore h,
                                  armedCounted := false } := by
  have hc (f : Corr → Corr) : ¬(b.modCorr h f).headStopped h = true := fun he => Bool.false_ne_true (hs.symm.trans he)
  rw [corrArmOrTake_alone, corrPut, if_neg (hc _)]
  simp only [modCorr, Vector.getElem_set_self, Vector.set_set, Fin.getElem_fin]

theorem corrArmOrTake_stopped {h : HeadId} (rank : Nat) {b : Block} (hs : b.headStopped h = true) :
    Swapped h b (b.corrArmOrTake h .swap rank false) := by
  have hw : ∀ c : Block, c.tables = b.tables → c.heads = b.heads → Swapped h b (c.corrPut h .swap) := by
    intro c ht hh
    have hstop : c.headStopped h = true := by rw [headStopped, hh]; exact hs
    have hs := corrTake_swap h c
    rw [corrPut, if_pos hstop]
    exact ⟨hs.active.trans (shadowSet_congr h ht), hs.shadow.trans (activeSet_congr h ht), shadowSet_congr h ht ▸ hs.inForce,
      activeSet_congr h ht ▸ hs.ready, hs.fired⟩
  rw [corrArmOrTake_alone]
  exact hw _ rfl rfl

/-! ## The bar temperature -/

theorem setTempState_falls {h : HeadId} {b : Block} (hold : b.reg (Obj.headCorrTempState h) < 2) :
    (b.setTempState h 2).reg (Obj.headCorrTempState h) = 2 ∧
    (b.reg (Obj.headLinMode h) = 0 → (b.setTempState h 2).Fired (headSource h 25)) := by
  unfold setTempState
  dsimp only
  rw [if_neg (by omega)]
  constructor
  · simp only [raiseIf_reg, modCorr_reg]
    exact reg_setReg_self ..
  · intro hmode
    refine (Within.refl Nothing _).raiseIf.fired ?_
    rw [hmode, show (((0 == 0) && decide (2 ≤ 2)) && decide (b.reg (Obj.headCorrTempState h) < 2)) = true by simpa using hold]
    exact List.mem_append_right _ (List.mem_singleton_self _)

end Sys2Proof.Machine.Block

namespace Sys2Proof
open Machine Machine.Block

/-- Settles O18: an arming takes force at once exactly on a stopped head, where the two sets exchange their tables and their numbers. -/
theorem correctionSetsAndSwaps : Obligations.CorrectionSetsAndSwaps := by
  unfold Obligations.CorrectionSetsAndSwaps
  refine ⟨fun t h s => ?_, fun h rank b => ⟨corrArmOrTake_running rank, fun hs => ?_⟩⟩
  · intro b
    refine ⟨fun hbar hold hstale => ⟨?_, setTempState_falls hold⟩, fun r set ha => ?_, fun r set ha => ?_, fun set ha hv => ?_,
      fun r set ha hp => ?_, fun n staged v hp => ?_⟩
    · refine does_of_run (f := fun b => b.tempExpire h) rfl ((if_neg hbar).trans (if_pos ?_))
      change (decide (b.reg (Obj.headCorrTempState h) < 2) && (b.tempStale h || _)) = true
      rw [hstale, decide_eq_true hold]
      rfl
    · refine does_of_run (f := fun b => b.writeTo (Obj.headCorrShadowReady h) set.toNat r Env.quiet) rfl
        (writeTo_stored ha (by fin_cases h <;> decide +kernel) (mod_u16 rfl set) ?_)
      rw [writeDo_headObj Env.quiet r h 0x107 (by decide) rfl]
      rfl
    · refine does_of_run (f := fun b => b.orTask (some r) (Obj.headCorrSwap h) set.toNat (headTaskNo h 9) Env.quiet) rfl
        (writeTo_of_accepts ha ?_)
      rw [mod_u16 rfl, writeDo_headObj Env.quiet r h 0x107 (by decide) rfl]
      rfl
    · refine does_of_run (f := fun b => b.orTask none (Obj.headCorrSwap h) set.toNat (headTaskNo h 9) Env.quiet) rfl
        (orTask_head_task (by decide) ha rfl fun st m => if_pos ?_)
      exact List.isEmpty_iff.mpr hv
    · refine does_of_run (f := fun b => b.writeTo (Obj.headCorrPrepare h) set.toNat r Env.quiet) rfl (writeTo_of_accepts ha ?_)
      rw [mod_u16 rfl, writeDo_headObj Env.quiet r h 0x107 (by decide) rfl]
      refine congrArg some ?_
      unfold corrPrepare
      rw [hp]
    · refine does_of_run (f := fun b => b.prepareComplete h) rfl ?_
      show b.prepareComplete h = _
      unfold prepareComplete
      rw [hp]
  · intro n
    have hw := corrArmOrTake_stopped (h := h) rank hs
    have w : Within Nothing b n := (Within.refl _ b).corrArmOrTake
    exact ⟨hw.active, hw.shadow, hw.inForce, hw.ready, hw.fired, w.mem nofun, Vector.ext fun i hi => w.heads ⟨i, hi⟩ nofun⟩

end Sys2Proof

/-! # Calibrations (R153 to R161) and stitching geometry (R164 to R175) -/

namespace Sys2Proof.Machine.Block

/-! ## Calibrations -/

theorem orReply_of_none {r : Route} {why : List AbortCode} {f : Block → Block} {b : Block} (h : why = []) :
    b.orReply r why f = (f b).reply r .ok := by
  subst h
  rfl

theorem orTask_calStart {r : Option Route} {h : HeadId} {b : Block} (hr : b.reaches r (Obj.headCalCommand h) 1 (headTaskNo h 7) Env.quiet)
    (hv : b.calViolations h = []) : b.orTask r (Obj.headCalCommand h) 1 (headTaskNo h 7) Env.quiet =
      ((b.cleared r (headTaskNo h 7)).calBegin h).answered r .ok := by
  refine orTask_answered hr rfl (f := fun b => b.calBegin h) (fun x _ => ?_) fun _ _ => ?_
  · rw [mod_u8 rfl (by decide), writeDo_headObj Env.quiet x h 0x108 (by decide) rfl]
    exact congrArg some (orReply_of_none hv)
  · exact (taskDo_head h 7 (by decide) ..).trans (if_pos (List.isEmpty_iff.mpr hv))

theorem orTask_calAbort {r : Option Route} {h : HeadId} {b : Block} (hr : b.reaches r (Obj.headCalCommand h) 2 (headTaskNo h 8) Env.quiet) :
    b.orTask r (Obj.headCalCommand h) 2 (headTaskNo h 8) Env.quiet = ((b.cleared r (headTaskNo h 8)).calFail h 9).answered r .ok := by
  refine orTask_answered hr rfl (f := fun b => b.calFail h 9) (fun x _ => ?_) fun _ _ => ?_
  · rw [mod_u8 rfl (by decide), writeDo_headObj Env.quiet x h 0x108 (by decide) rfl]
    rfl
  · exact taskDo_head h 8 (by decide) ..

theorem calFail_of_running {h : HeadId} {b : Block} (hp : b.corr[h].cal.phase ≠ 0) (st : Nat) : b.calFail h st =
    ((b.modCorr h fun c => { c with cal := noCal }).setReg (Obj.headCalStatus h) st).raise (headSource h 29) := if_neg hp

/-- The phases in which the lines of a change settle have no sum to check (R155). -/
theorem calPhaseEnd_settled {h : HeadId} {b : Block} {c : Calibration} (hc : b.corr[h].cal = c) (hp : c.phase = 1 ∨ c.phase = 3 ∨ c.phase = 5)
    (hd : calTarget c ≤ c.done) : b.calPhaseEnd h =
      (b.modCorr h fun x => { x with cal := { c with phase := c.phase + 1, done := 0 } }).setReg (Obj.headCalStatus h)
        (calStatusOf (c.phase + 1)) := by
  unfold calPhaseEnd
  dsimp only
  rw [hc, if_neg (by omega)]
  have hnext : ¬(c.phase = 4 ∧ c.grey = 0) := by omega
  rw [if_neg hnext]
  obtain hp | hp | hp := hp <;> rw [hp] <;> rfl

/-! ## Geometry -/

theorem stitchCalFail_of_running {h : HeadId} {b : Block} (hp : b.stitch[h].cal.phase ≠ 0) (st : Nat) : b.stitchCalFail h st =
    ((b.modStitch h fun s => { s with cal := noStitchCal }).setReg (Obj.headStitchCalStatus h) st).raise (headSource h 35) := if_neg hp

theorem orTask_stitchSwap {r : Option Route} {h : HeadId} {set : BitVec 16} {b : Block}
    (hr : b.reaches r (Obj.headStitchSwap h) set.toNat (headTaskNo h 12) Env.quiet) (hg : b.geometryReady h ≠ 0xFFFF) :
    b.orTask r (Obj.headStitchSwap h) set.toNat (headTaskNo h 12) Env.quiet =
      ((b.cleared r (headTaskNo h 12)).geometryArm h (if r.isSome then 0 else 1) false).answered r .ok := by
  refine orTask_answered hr rfl (f := fun b => b.geometryArm h (if r.isSome then 0 else 1) false) (fun x hx => ?_) fun hn _ => ?_
  · subst hx
    rw [mod_u16 rfl, writeDo_headObj Env.quiet x h 0x184 (by decide) rfl]
    rfl
  · subst hn
    exact (taskDo_head h 12 (by decide) ..).trans (if_neg hg)

theorem orTask_stitchCalStart {r : Option Route} {h : HeadId} {b : Block}
    (hr : b.reaches r (Obj.headStitchCalCommand h) 1 (headTaskNo h 10) Env.quiet) (hv : b.stitchCalViolations h = []) :
    b.orTask r (Obj.headStitchCalCommand h) 1 (headTaskNo h 10) Env.quiet =
      ((b.cleared r (headTaskNo h 10)).stitchCalBegin h).answered r .ok := by
  refine orTask_answered hr rfl (f := fun b => b.stitchCalBegin h) (fun x _ => ?_) fun _ _ => ?_
  · rw [mod_u8 rfl (by decide), writeDo_headObj Env.quiet x h 0x185 (by decide) rfl]
    exact congrArg some (orReply_of_none hv)
  · exact (taskDo_head h 10 (by decide) ..).trans (if_pos (List.isEmpty_iff.mpr hv))

theorem orTask_stitchCalAbort {r : Option Route} {h : HeadId} {b : Block}
    (hr : b.reaches r (Obj.headStitchCalCommand h) 2 (headTaskNo h 11) Env.quiet) :
    b.orTask r (Obj.headStitchCalCommand h) 2 (headTaskNo h 11) Env.quiet =
      ((b.cleared r (headTaskNo h 11)).stitchCalFail h 9).answered r .ok := by
  refine orTask_answered hr rfl (f := fun b => b.stitchCalFail h 9) (fun x _ => ?_) fun _ _ => ?_
  · rw [mod_u8 rfl (by decide), writeDo_headObj Env.quiet x h 0x185 (by decide) rfl]
    rfl
  · exact taskDo_head h 11 (by decide) ..

theorem tableDefault_congr {b n : Block} (hb : ∀ g, n.bins g = b.bins g) (i : Nat) : n.tableDefault i = b.tableDefault i := by
  simp only [tableDefault, hb]

theorem table_congr {b n : Block} (ht : n.tables = b.tables) (hb : ∀ g, n.bins g = b.bins g) (i : Nat) : n.table i = b.table i := by
  rw [table, table, ht, tableDefault_congr hb]

/-- The shadow geometry has come into force, and the active one is the shadow (R165). -/
structure GeometryTaken (h : HeadId) (b n : Block) : Prop where
  active : n.activeGeometry h = b.shadowGeometry h
  shadow : n.shadowGeometry h = b.activeGeometry h
  inForce : n.reg (Obj.headStitchSetInForce h) = geoNumber (b.shadowGeometry h) % 2 ^ 16
  fired : n.Fired (headSource h 33)

theorem stitchCalFail_tables (h : HeadId) (st : Nat) (b : Block) :
    (b.stitchCalFail h st).tables = b.tables ∧ ∀ g, (b.stitchCalFail h st).bins g = b.bins g := by
  have hkey (o : Obj) (ho : o.index ≠ 0x3185 + 0x400 * h.val) (hs : o.sub < 256) : SameReg o b (b.stitchCalFail h st) := by
    have hst : (Obj.headStitchCalStatus h).sub < 256 := by simp [Obj.headStitchCalStatus]
    unfold stitchCalFail
    split
    · rfl
    · have hm : SameReg o b (b.modStitch h fun s => { s with cal := noStitchCal }) := rfl
      exact (hm.setReg (key_ne hst hs ho)).raise
  constructor
  · unfold stitchCalFail
    split <;> rfl
  · intro g
    have h1 := hkey (Obj.headLayoutActive g) (by simp only [Obj.headLayoutActive]; omega) (by simp [Obj.headLayoutActive])
    have h2 := hkey (Obj.headBinFactor g) (by simp only [Obj.headBinFactor]; omega) (by simp [Obj.headBinFactor])
    rw [bins, bins, h1, h2]

theorem geometryTake_taken (h : HeadId) (b : Block) : GeometryTaken h b (b.geometryTake h) := by
  unfold geometryTake
  extract_lets c old new d e f
  obtain ⟨ht, hb⟩ := stitchCalFail_tables h 9 b
  have hold : old = b.activeGeometry h := table_congr ht hb _
  have hnew : new = b.shadowGeometry h := table_congr ht hb _
  have htables : ((f.bump (Obj.headStitchSwaps h)).raise (headSource h 33)).tables = d.tables := rfl
  refine ⟨?_, ?_, ?_, List.mem_append_right _ (List.mem_singleton_self _)⟩
  · rw [← hnew, activeGeometry, table, htables]
    simp [d]
  · rw [← hold, shadowGeometry, table, htables]
    simp [d]
  · rw [← hnew]
    refine Eq.trans ?_ (reg_setReg_self d (Obj.headStitchSetInForce h) (geoNumber new))
    have he : SameReg (Obj.headStitchSetInForce h) (d.setReg (Obj.headStitchSetInForce h) (geoNumber new)) e := by
      refine (SameReg.refl _ _).setReg ?_
      simp only [Obj.key, Obj.headStitchSetInForce, Obj.headStitchShadowReady]; omega
    refine ((he.of_regs (n := f) rfl).bump ?_).raise
    simp only [Obj.key, Obj.headStitchSetInForce, Obj.headStitchSwaps]; omega

theorem geometryArm_running {h : HeadId} (rank : Nat) {b : Block} (hs : b.headStopped h = false) :
    (b.geometryArm h rank false).stitch[h].armed = true ∧ (b.geometryArm h rank false).tables = b.tables := by
  have hc (f : Stitch → Stitch) : ¬(b.modStitch h f).headStopped h = true := fun he => Bool.false_ne_true (hs.symm.trans he)
  unfold geometryArm
  dsimp only
  rw [if_neg (by simp), if_neg (hc _)]
  exact ⟨by simp [modStitch], rfl⟩

theorem geometryArm_stopped {h : HeadId} (rank : Nat) {b : Block} (hs : b.headStopped h = true) :
    GeometryTaken h b (b.geometryArm h rank false) := by
  have hc (f : Stitch → Stitch) : (b.modStitch h f).headStopped h = true := hs
  unfold geometryArm
  dsimp only
  rw [if_neg (by simp), if_pos (hc _)]
  exact ⟨(geometryTake_taken ..).active, (geometryTake_taken ..).shadow, (geometryTake_taken ..).inForce, (geometryTake_taken ..).fired⟩

end Sys2Proof.Machine.Block

namespace Sys2Proof
open Machine Machine.Block

/-- Settles O19: a request reaches its calibration, and its phase decides what the end of a phase does. -/
theorem calibrations : Obligations.Calibrations := by
  unfold Obligations.Calibrations
  intro t h s b begun
  refine ⟨fun r hr hv => ?_, fun r hr hp => ?_, fun c hc hp hd => ?_, fun c hp hc => ?_, fun hp hc => ?_⟩
  · refine does_of_run (f := fun b => b.orTask r (Obj.headCalCommand h) 1 (headTaskNo h 7) Env.quiet) rfl ((orTask_calStart hr hv).trans ?_)
    cases r <;> rfl
  · refine does_of_run (f := fun b => b.orTask r (Obj.headCalCommand h) 2 (headTaskNo h 8) Env.quiet) rfl ((orTask_calAbort hr).trans ?_)
    rw [calFail_of_running (by cases r <;> exact hp)]
  · exact does_of_run (f := fun b => b.calPhaseEnd h) rfl (calPhaseEnd_settled hc hp hd)
  · refine does_of_run (f := fun b => b.calDone h false) rfl ((if_neg (not_not_intro hp)).trans ?_)
    rw [show calDerive h (s.b.at_ t) = _ from hc]
  · refine does_of_run (f := fun b => b.calDone h false) rfl ((if_neg (not_not_intro hp)).trans ?_)
    rw [show calDerive h (s.b.at_ t) = _ from hc]

/-- Settles O20: a request reaches its geometry, which takes force at once exactly on a stopped head. -/
theorem stitchingGeometry : Obligations.StitchingGeometry := by
  unfold Obligations.StitchingGeometry
  intro t h s b
  refine ⟨fun r set ha => ?_, fun r set hr hg => ?_, fun rank => ?_, fun r hr hv => ?_, fun r hr hp => ?_,
    fun hp hd he => ?_, fun hp hd he => ?_, fun g res hp hg => ?_, fun e hp he => ?_⟩
  · refine does_of_run (f := fun b => b.writeTo (Obj.headStitchShadowReady h) set.toNat r Env.quiet) rfl
      (writeTo_stored ha (by fin_cases h <;> decide +kernel) (mod_u16 rfl set) ?_)
    rw [writeDo_headObj Env.quiet r h 0x184 (by decide) rfl]
    rfl
  · exact does_of_run (f := fun b => b.orTask r (Obj.headStitchSwap h) set.toNat (headTaskNo h 12) Env.quiet) rfl (orTask_stitchSwap hr hg)
  · refine ⟨geometryArm_running rank, fun hs => ?_⟩
    have ht := geometryArm_stopped (h := h) rank hs
    exact ⟨ht.active, ht.shadow, ht.inForce, ht.fired⟩
  · refine does_of_run (f := fun b => b.orTask r (Obj.headStitchCalCommand h) 1 (headTaskNo h 10) Env.quiet) rfl
      ((orTask_stitchCalStart hr hv).trans ?_)
    cases r <;> rfl
  · refine does_of_run (f := fun b => b.orTask r (Obj.headStitchCalCommand h) 2 (headTaskNo h 11) Env.quiet) rfl
      ((orTask_stitchCalAbort hr).trans ?_)
    rw [stitchCalFail_of_running (by cases r <;> exact hp)]
  · exact does_of_run (f := fun b => b.stitchCalPhaseEnd h) rfl ((if_pos ⟨hp, hd⟩).trans (if_pos he))
  · exact does_of_run (f := fun b => b.stitchCalPhaseEnd h) rfl ((if_pos ⟨hp, hd⟩).trans (if_neg he))
  · intro c hc
    refine does_of_run (f := fun b => b.stitchCalDone h false) rfl ((if_neg (not_not_intro hp)).trans ?_)
    rw [show stitchDerive h (s.b.at_ t) = _ from hg]
    exact if_pos hc
  · refine does_of_run (f := fun b => b.stitchCalDone h false) rfl ((if_neg (not_not_intro hp)).trans ?_)
    rw [show stitchDerive h (s.b.at_ t) = _ from he]

end Sys2Proof

/-! # Burst triggers (R214 to R216) -/

namespace Sys2Proof.Machine.Block

theorem part_modPart_same (h : HeadId) (f : Partition → Partition) (b : Block) :
    (b.modPart h f).capture.partitions[h] = f b.capture.partitions[h] := by
  simp [modPart, modCapture]

theorem part_modPart_other {g h : HeadId} (hg : h ≠ g) (f : Partition → Partition) (b : Block) :
    (b.modPart g f).capture.partitions[h] = b.capture.partitions[h] := by
  have hv : g.val ≠ h.val := fun e => hg (Fin.ext e.symm)
  simp [modPart, modCapture, Vector.getElem_set_ne, hv]

/-- A change of every partition that reads the heads. -/
theorem part_foldl_modPart (f : Vector Head 4 → HeadId → Partition → Partition) (h : HeadId) {l : List HeadId} (hl : l.Nodup) (b : Block) :
    (l.foldl (fun (b : Block) g => b.modPart g (f b.heads g)) b).capture.partitions[h] =
      if h ∈ l then f b.heads h b.capture.partitions[h] else b.capture.partitions[h] := by
  induction l generalizing b with
  | nil => rfl
  | cons g l ih =>
    obtain ⟨hg, hl⟩ := List.nodup_cons.mp hl
    rw [List.foldl_cons, ih hl]
    by_cases hh : h = g
    · subst hh
      rw [if_neg hg, if_pos (List.mem_cons_self ..), part_modPart_same]
    · rw [part_modPart_other hh]
      simp only [List.mem_cons, hh, false_or, modPart_heads]

theorem foldl_modPart_keeps (f : Vector Head 4 → HeadId → Partition → Partition) (l : List HeadId) (b : Block) :
    (l.foldl (fun (b : Block) g => b.modPart g (f b.heads g)) b).heads = b.heads ∧
    (l.foldl (fun (b : Block) g => b.modPart g (f b.heads g)) b).regs = b.regs ∧
    (l.foldl (fun (b : Block) g => b.modPart g (f b.heads g)) b).mem = b.mem ∧
    (l.foldl (fun (b : Block) g => b.modPart g (f b.heads g)) b).outs = b.outs ∧
    (l.foldl (fun (b : Block) g => b.modPart g (f b.heads g)) b).capture.state = b.capture.state ∧
    (l.foldl (fun (b : Block) g => b.modPart g (f b.heads g)) b).capture.burstB = b.capture.burstB := by
  induction l generalizing b with
  | nil => exact ⟨rfl, rfl, rfl, rfl, rfl, rfl⟩
  | cons g l ih => exact ih _

/-! ## What the window of a head leaves -/

theorem placeWrite_keeps (l : List (Nat × Nat)) (bytes : List Byte) (b : Block) :
    (placeWrite l bytes b).capture = b.capture ∧ (placeWrite l bytes b).regs = b.regs ∧ (placeWrite l bytes b).heads = b.heads := by
  induction l generalizing bytes b with
  | nil => exact ⟨rfl, rfl, rfl⟩
  | cons p l ih => exact ih (bytes.drop p.2) (b.memWrite p.1 (bytes.take p.2))

/-- The burst keeps its instant, and its register. -/
structure SameBurst (b₀ b : Block) : Prop where
  burstB : b.capture.burstB = b₀.capture.burstB
  last : SameReg Obj.captureTriggerLast b₀ b

namespace SameBurst
variable {b₀ b : Block}

theorem refl (b : Block) : SameBurst b b := ⟨rfl, rfl⟩

theorem modPart (w : SameBurst b₀ b) {h : HeadId} {f : Partition → Partition} : SameBurst b₀ (b.modPart h f) := ⟨w.burstB, w.last⟩

theorem keepRange (w : SameBurst b₀ b) {h : HeadId} {first last : Nat} : SameBurst b₀ (b.keepRange h first last) := by
  unfold Block.keepRange
  extract_lets p
  split
  · exact w
  · extract_lets _ _ _ _ c
    refine modPart ?_
    unfold c
    split
    · exact w
    · obtain ⟨hc, hr, -⟩ := placeWrite_keeps _ _ b
      exact ⟨(congrArg Capture.burstB hc).trans w.burstB, w.last.of_regs hr⟩

theorem windowStart (w : SameBurst b₀ b) {h : HeadId} {l : Nat} : SameBurst b₀ (b.windowStart h l) := by
  unfold Block.windowStart
  extract_lets
  split
  · exact w.modPart.keepRange
  · exact w.modPart

theorem foldl {α : Type} (w : SameBurst b₀ b) {f : Block → α → Block} (hf : ∀ c x, SameBurst b₀ c → SameBurst b₀ (f c x)) (l : List α) :
    SameBurst b₀ (l.foldl f b) := foldl_rel (r := SameBurst b₀) hf l w

theorem burstCheck (w : SameBurst b₀ b) : SameBurst b₀ b.burstCheck := by
  unfold Block.burstCheck
  split
  · exact w
  · extract_lets c d _
    have hc : SameBurst b₀ c := w.foldl (fun _ _ v => v.modPart) _
    have hd : SameReg Obj.captureTriggerLast b₀ d := hc.last.setReg (by decide)
    refine ⟨?_, ?_⟩
    · simpa [d] using hc.burstB
    · rw [SameReg, raiseIf_reg]
      exact hd

theorem windowTest (w : SameBurst b₀ b) {h : HeadId} {seq : Nat} {tE : Time} : SameBurst b₀ (b.windowTest h seq tE) := by
  unfold Block.windowTest
  split
  · exact w
  · extract_lets c
    have hc : SameBurst b₀ c := by
      unfold c
      split
      · exact w.windowStart
      · exact w
    split
    · exact hc
    · extract_lets last d
      have hd : SameBurst b₀ d := by
        unfold d
        split
        · exact hc.keepRange.modPart
        · exact hc
      split
      · exact SameBurst.burstCheck hd.modPart
      · exact hd

end SameBurst

/-- No partition holds a record, and the buffer is as before. -/
structure NoRecords (b₀ b : Block) : Prop where
  mem : b.mem = b₀.mem
  items : ∀ h : HeadId, ∀ i ∈ b.capture.partitions[h].items, ∀ first last, candidateIn first last i = false

namespace NoRecords
variable {b₀ b : Block}

theorem modPart (w : NoRecords b₀ b) {h : HeadId} {f : Partition → Partition}
    (hf : ∀ i ∈ (f b.capture.partitions[h]).items, ∀ first last, candidateIn first last i = false) : NoRecords b₀ (b.modPart h f) := by
  refine ⟨w.mem, fun g i hi => ?_⟩
  by_cases hg : g = h
  · subst hg
    rw [part_modPart_same] at hi
    exact hf i hi
  · rw [part_modPart_other hg] at hi
    exact w.items g i hi

theorem keepRange (w : NoRecords b₀ b) (h : HeadId) (first last : Nat) : b.keepRange h first last = b := by
  have hnone : b.capture.partitions[h].items.findIdx? (candidateIn first last) = none :=
    List.findIdx?_eq_none_iff.mpr fun i hi => w.items h i hi first last
  unfold Block.keepRange
  dsimp only
  rw [hnone]

theorem marked (w : NoRecords b₀ b) (h : HeadId) (n m : Nat) (x : Marker) :
    ∀ i ∈ b.capture.partitions[h].items.take n ++ [.marker x] ++ b.capture.partitions[h].items.drop m, ∀ first last, candidateIn first last i = false := by
  intro i hi first last
  rcases List.mem_append.mp hi with hi | hi
  · rcases List.mem_append.mp hi with hi | hi
    · exact w.items h i (List.mem_of_mem_take hi) first last
    · obtain rfl := List.mem_singleton.mp hi
      rfl
  · exact w.items h i (List.mem_of_mem_drop hi) first last

theorem windowStart (w : NoRecords b₀ b) {h : HeadId} {l : Nat} : NoRecords b₀ (b.windowStart h l) := by
  unfold Block.windowStart
  extract_lets p first pre at_ c
  have hc : NoRecords b₀ c := w.modPart (w.marked h _ _ _)
  split
  · rw [hc.keepRange]
    exact hc
  · exact hc

theorem foldl {α : Type} (w : NoRecords b₀ b) {f : Block → α → Block} (hf : ∀ c x, NoRecords b₀ c → NoRecords b₀ (f c x)) (l : List α) :
    NoRecords b₀ (l.foldl f b) := foldl_rel (r := NoRecords b₀) hf l w

theorem of_eq (w : NoRecords b₀ b) {n : Block} (hm : n.mem = b.mem) (hp : n.capture.partitions = b.capture.partitions) : NoRecords b₀ n :=
  ⟨hm.trans w.mem, fun h => by rw [hp]; exact w.items h⟩

theorem burstCheck (w : NoRecords b₀ b) : NoRecords b₀ b.burstCheck := by
  unfold Block.burstCheck
  split
  · exact w
  · extract_lets c d _
    have hc : NoRecords b₀ c := w.foldl (fun c h v => v.modPart (v.items h)) _
    exact hc.of_eq (by simp [d]) (by simp [d])

theorem windowTest (w : NoRecords b₀ b) {h : HeadId} {seq : Nat} {tE : Time} : NoRecords b₀ (b.windowTest h seq tE) := by
  unfold Block.windowTest
  split
  · exact w
  · extract_lets c
    have hc : NoRecords b₀ c := by
      unfold c
      split
      · exact w.windowStart
      · exact w
    split
    · exact hc
    · extract_lets last d
      have hd : NoRecords b₀ d := by
        unfold d
        split
        · rw [hc.keepRange]
          exact hc.modPart (hc.items h)
        · exact hc
      split
      · exact NoRecords.burstCheck (hd.modPart (hd.marked h _ _ _))
      · exact hd

end NoRecords

/-- A head whose window has not begun waits for it, and the capture state with it. -/
structure Awaits (h : HeadId) (b₀ b : Block) : Prop where
  state : b.capture.state = 3
  part : b.capture.partitions[h] = b₀.capture.partitions[h]
  heads : b.heads = b₀.heads

namespace Awaits
variable {h : HeadId} {b₀ b : Block}

theorem modPart (w : Awaits h b₀ b) {g : HeadId} {f : Partition → Partition} (hg : h ≠ g) : Awaits h b₀ (b.modPart g f) :=
  ⟨w.state, (part_modPart_other hg f b).trans w.part, w.heads⟩

theorem keepRange (w : Awaits h b₀ b) {g : HeadId} {first last : Nat} (hg : h ≠ g) : Awaits h b₀ (b.keepRange g first last) := by
  unfold Block.keepRange
  extract_lets p
  split
  · exact w
  · extract_lets _ _ _ _ c
    refine modPart ?_ hg
    unfold c
    split
    · exact w
    · obtain ⟨hc, -, hh⟩ := placeWrite_keeps _ _ b
      exact ⟨(congrArg Capture.state hc).trans w.state, (congrArg (fun c => c.partitions[h]) hc).trans w.part, hh.trans w.heads⟩

theorem windowStart (w : Awaits h b₀ b) {g : HeadId} {l : Nat} (hg : h ≠ g) : Awaits h b₀ (b.windowStart g l) := by
  unfold Block.windowStart
  extract_lets
  split
  · exact (w.modPart hg).keepRange hg
  · exact w.modPart hg

variable (hr : b₀.heads[h].state = .running) (hd : b₀.capture.partitions[h].windowDone = false)
include hr hd

theorem burstCheck (w : Awaits h b₀ b) : b.burstCheck = b := by
  refine if_pos (.inr (List.any_eq_true.mpr ⟨h, List.mem_finRange h, ?_⟩))
  have hh : b.heads[h] = b₀.heads[h] := congrArg (fun v => v[h]) w.heads
  rw [owesBurst, hh, hr, w.part, hd]
  rfl

theorem windowTest (w : Awaits h b₀ b) {g : HeadId} {seq : Nat} {tE : Time} (hg : h ≠ g) : Awaits h b₀ (b.windowTest g seq tE) := by
  unfold Block.windowTest
  split
  · exact w
  · extract_lets c
    have hc : Awaits h b₀ c := by
      unfold c
      split
      · exact w.windowStart hg
      · exact w
    split
    · exact hc
    · extract_lets last d
      have hd' : Awaits h b₀ d := by
        unfold d
        split
        · exact (hc.keepRange hg).modPart hg
        · exact hc
      split
      · have he : Awaits h b₀ (d.windowEnd g last) := hd'.modPart hg
        rw [burstCheck hr hd he]
        exact he
      · exact hd'

end Awaits

/-! ## An accepted trigger -/

/-- A head without a window, which is done where the head does not run. -/
def noWindow (heads : Vector Head 4) (h : HeadId) (p : Partition) : Partition :=
  { p with trigger := none, windowKept := 0, windowDone := heads[h].state != .running }

/-- The pier as an accepted trigger at the instant finds its windows: state 3, and every head without a window. -/
def burstBegun (instant : Time) (b : Block) : Block :=
  let b := ((b.modCapture fun c => { c with state := 3, burstB := instant }).setReg Obj.captureTriggerLast instant.toNat).raise 704
  (List.finRange 4).foldl (fun (b : Block) h => b.modPart h (noWindow b.heads h))
    (if b.isSet Obj.captureTriggerBroadcast then b.sendRing (.burst instant) else b)

theorem burstTrigger_accepted {b : Block} (hs : b.capture.state = 2) (instant : Time) : b.burstTrigger instant =
    ((List.finRange 4).foldl (fun (b : Block) (h : HeadId) =>
      (b.capture.partitions[h].seen.reverse).foldl (fun (b : Block) x => b.windowTest h x.1 x.2) b) (b.burstBegun instant)).burstCheck :=
  if_pos hs

theorem burstBegun_parts (instant : Time) (b : Block) : (b.burstBegun instant).capture.state = 3 ∧
    (b.burstBegun instant).capture.burstB = instant ∧ (b.burstBegun instant).reg Obj.captureTriggerLast = instant.toNat ∧
    (b.burstBegun instant).Fired 704 ∧ (b.burstBegun instant).mem = b.mem ∧ (b.burstBegun instant).heads = b.heads ∧
    ∀ h : HeadId, (b.burstBegun instant).capture.partitions[h] = noWindow b.heads h b.capture.partitions[h] := by
  unfold burstBegun
  extract_lets c
  generalize hd : (if c.isSet Obj.captureTriggerBroadcast then c.sendRing (.burst instant) else c) = d
  have hsame : d.capture = c.capture ∧ d.regs = c.regs ∧ d.mem = c.mem ∧ d.heads = c.heads := by
    rw [← hd]
    split <;> exact ⟨rfl, rfl, rfl, rfl⟩
  have hfired : d.Fired 704 := by
    have hc : c.Fired 704 := List.mem_append_right _ (List.mem_singleton_self _)
    rw [← hd]
    exact ((Within.refl Nothing c).sendRing.ite (Within.refl Nothing c)).fired hc
  obtain ⟨hcap, hregs, hmem, hheads⟩ := hsame
  obtain ⟨kheads, kregs, kmem, kouts, kstate, kburst⟩ := foldl_modPart_keeps noWindow (List.finRange 4) d
  have hlast : c.reg Obj.captureTriggerLast = instant.toNat := (reg_setReg_self ..).trans (Nat.mod_eq_of_lt instant.isLt)
  refine ⟨kstate.trans (congrArg Capture.state hcap), kburst.trans (congrArg Capture.burstB hcap),
    (reg_congr_regs (kregs.trans hregs) _).trans hlast, ?_, kmem.trans hmem, kheads.trans hheads, fun h => ?_⟩
  · rw [Fired, kouts]
    exact hfired
  · rw [part_foldl_modPart noWindow h (List.nodup_finRange 4), if_pos (List.mem_finRange h), hheads, hcap]
    rfl

theorem burstTrigger_burst {b : Block} (hs : b.capture.state = 2) (instant : Time) : SameBurst (b.burstBegun instant) (b.burstTrigger instant) := by
  rw [burstTrigger_accepted hs]
  exact ((SameBurst.refl _).foldl (fun _ _ v => v.foldl (fun _ _ u => u.windowTest) _) _).burstCheck

theorem burstTrigger_mem {b : Block} (hs : b.capture.state = 2) (instant : Time) (hi : ∀ h : HeadId, b.capture.partitions[h].items = []) :
    (b.burstTrigger instant).mem = b.mem := by
  obtain ⟨-, -, -, -, hmem, -, hparts⟩ := burstBegun_parts instant b
  have h0 : NoRecords b (b.burstBegun instant) := by
    refine ⟨hmem, fun h i hm => ?_⟩
    rw [hparts, noWindow, hi h] at hm
    exact nomatch hm
  rw [burstTrigger_accepted hs]
  exact ((h0.foldl (fun _ _ v => v.foldl (fun _ _ u => u.windowTest) _) _).burstCheck).mem

/-- A running head without a line seen keeps its records and its window, and the burst goes on. -/
theorem burstTrigger_awaits {h : HeadId} {b : Block} (hs : b.capture.state = 2) (instant : Time) (hr : b.heads[h].state = .running)
    (hseen : b.capture.partitions[h].seen = []) : Awaits h (b.burstBegun instant) (b.burstTrigger instant) := by
  obtain ⟨hstate, -, -, -, -, hheads, hparts⟩ := burstBegun_parts instant b
  have hrun : (b.burstBegun instant).heads[h].state = .running := by rw [hheads]; exact hr
  have hdone : (b.burstBegun instant).capture.partitions[h].windowDone = false := by rw [hparts, noWindow, hr]; rfl
  have hnone : (b.burstBegun instant).capture.partitions[h].seen = [] := by rw [hparts]; exact hseen
  have h0 : Awaits h (b.burstBegun instant) (b.burstBegun instant) := ⟨hstate, rfl, rfl⟩
  have hstep : ∀ (c : Block) (g : HeadId), Awaits h (b.burstBegun instant) c → Awaits h (b.burstBegun instant)
      ((c.capture.partitions[g].seen.reverse).foldl (fun (b : Block) x => b.windowTest g x.1 x.2) c) := by
    intro c g hc
    by_cases hg : h = g
    · subst hg
      rw [hc.part, hnone]
      exact hc
    · exact foldl_rel (r := Awaits h (b.burstBegun instant)) (fun _ _ v => v.windowTest hrun hdone hg) _ hc
  have hall := foldl_rel (r := Awaits h (b.burstBegun instant)) hstep (List.finRange 4) h0
  rw [burstTrigger_accepted hs, hall.burstCheck hrun hdone]
  exact hall

end Sys2Proof.Machine.Block

namespace Sys2Proof
open Machine Machine.Block

/-- Settles O21: the source selected decides which trigger reaches the buffer, and state 2 alone accepts it. -/
theorem burstTriggers : Obligations.BurstTriggers := by
  unfold Obligations.BurstTriggers
  refine ⟨fun t m s => ?_, fun instant b => ⟨fun hs => ?_, fun hs => if_neg hs⟩⟩
  · intro b src
    refine ⟨fun r hsrc ha => ?_, fun hsrc ha => ?_, fun h falling width hseen => ⟨fun h2 hh hf => ?_, fun hno => ?_⟩, fun hsrc hdue => ?_,
      fun instant hsrc => ?_⟩
    · refine does_of_run (f := fun b => b.writeTo Obj.captureTriggerFire 1 r { Env.quiet with burst := m }) rfl (writeTo_of_accepts ha ?_)
      refine (writeDo_pier _ r (index := 0x2502) 5 1 _ (.inl (by decide)) (.inl (by decide))).trans ?_
      exact congrArg (fun c : Block => some (c.reply r .ok)) (if_pos hsrc)
    · refine does_of_run (f := fun b => b.sampled 352 { Env.quiet with burst := m } []) rfl ((sampled_alone 352 _ [] _ rfl ha).trans ?_)
      exact if_pos hsrc
    · have hpin : (!b.pinSeen h width) = false := by rw [hseen]; rfl
      refine does_of_run (f := fun b => b.burstPin h falling width m) rfl ((if_neg (by rw [hpin]; decide)).trans (if_pos ⟨h2, hh, hf⟩))
    · have hpin : (!b.pinSeen h width) = false := by rw [hseen]; rfl
      refine does_of_run (f := fun b => b.burstPin h falling width m) rfl ((if_neg (by rw [hpin]; decide)).trans (if_neg fun hall => ?_))
      obtain ⟨h2, hh, hf⟩ := hall
      exact hno.elim (· h2) fun hno => hno.elim (· hh) (· hf)
    · refine does_of_run (f := fun b => b.burstDue m) rfl (if_pos ?_)
      rw [show reg Obj.captureTriggerSource (s.b.at_ t) = 3 from hsrc]
      exact hdue
    · exact does_of_run (f := fun b => b.burstReceived instant m) rfl (if_pos hsrc)
  · intro n
    obtain ⟨hstate, hburst, hlast, hfired, hmem, hheads, hparts⟩ := burstBegun_parts instant b
    have hb := burstTrigger_burst hs instant
    have w : Within (fun p => p = .capture ∨ p = .mem) (b.burstBegun instant) n := by
      rw [show n = _ from burstTrigger_accepted hs instant]
      exact Within.burstCheck ((Within.refl _ _).foldl fun _ _ v => v.foldl fun _ _ u => u.windowTest (.inr rfl) (.inl rfl)) (.inl rfl)
    refine ⟨hb.burstB.trans hburst, w.fired hfired, (Vector.ext fun i hi => w.heads ⟨i, hi⟩ nofun).trans hheads, hb.last.trans hlast,
      burstTrigger_mem hs instant, fun h hr hseen => ?_⟩
    have ha := burstTrigger_awaits hs instant hr hseen
    exact ⟨ha.state, (congrArg Partition.items (ha.part.trans (hparts h)) :)⟩

end Sys2Proof

/-! # Capture commands (R202, R208, R214) and the readout region (R222) -/

namespace Sys2Proof.Machine.Block

/-! ## Space -/

/-- Every piece of space lies from `lo` on and ends before `hi`. -/
def InArea (lo hi : Nat) (l : List (Nat × Nat)) : Prop := ∀ p ∈ l, lo ≤ p.1 ∧ p.1 + p.2 ≤ hi

theorem InArea.cutPiece {lo hi : Nat} {l : List (Nat × Nat)} (w : InArea lo hi l) (p : Nat × Nat) : InArea lo hi (cutPiece p l) := by
  induction l with
  | nil => exact nofun
  | cons x l ih =>
    obtain ⟨a, n⟩ := x
    obtain ⟨hlo, hhi⟩ := w (a, n) (List.mem_cons_self ..)
    have ih := ih fun q hq => w q (List.mem_cons_of_mem _ hq)
    dsimp only at hlo hhi
    unfold Machine.cutPiece
    dsimp only
    split
    · rintro q hq
      rcases List.mem_cons.mp hq with rfl | hq
      exacts [⟨hlo, hhi⟩, ih q hq]
    · intro q hq
      simp only [List.mem_append] at hq
      rcases hq with (hq | hq) | hq
      · split at hq
        · obtain rfl := List.mem_singleton.mp hq
          dsimp only
          omega
        · exact nomatch hq
      · split at hq
        · obtain rfl := List.mem_singleton.mp hq
          dsimp only
          omega
        · exact nomatch hq
      · exact ih q hq

theorem InArea.freeSpace {lo hi : Nat} {l : List (Nat × Nat)} (w : InArea lo hi l) (held : List (Nat × Nat)) : InArea lo hi (freeSpace l held) :=
  foldl_rel (r := InArea lo hi) (fun _ x v => v.cutPiece x) held w

theorem InArea.fromPoint {lo hi : Nat} {l : List (Nat × Nat)} (w : InArea lo hi l) (at_ : Nat) : InArea lo hi (fromPoint at_ l) := by
  intro q hq
  rcases List.mem_append.mp hq with hq | hq
  · exact w.cutPiece _ q hq
  · obtain ⟨p, hp, hpq⟩ := List.mem_filterMap.mp hq
    obtain ⟨hlo, hhi⟩ := w p hp
    split at hpq
    · cases hpq
      dsimp only
      omega
    · exact nomatch hpq

theorem InArea.takeSpace {lo hi : Nat} {l : List (Nat × Nat)} (w : InArea lo hi l) (n : Nat) : InArea lo hi (takeSpace n l) := by
  induction l generalizing n with
  | nil => cases n <;> exact nofun
  | cons x l ih =>
    obtain ⟨a, k⟩ := x
    obtain ⟨hlo, hhi⟩ := w (a, k) (List.mem_cons_self ..)
    dsimp only at hlo hhi
    unfold Machine.takeSpace
    split
    · exact nofun
    · split
      · intro q hq
        obtain rfl := List.mem_singleton.mp hq
        dsimp only
        omega
      · intro q hq
        rcases List.mem_cons.mp hq with rfl | hq
        exacts [⟨hlo, hhi⟩, ih (fun q hq => w q (List.mem_cons_of_mem _ hq)) _ q hq]

/-- A write to space within an area leaves every byte outside it. -/
theorem memGet_placeWrite_outside {lo hi : Nat} {l : List (Nat × Nat)} (w : InArea lo hi l) {a : Nat} (ha : a < lo ∨ hi ≤ a) (bytes : List Byte)
    (b : Block) : memGet (placeWrite l bytes b).mem a = memGet b.mem a := by
  induction l generalizing bytes b with
  | nil => rfl
  | cons p l ih =>
    obtain ⟨hlo, hhi⟩ := w p (List.mem_cons_self ..)
    refine (ih (fun q hq => w q (List.mem_cons_of_mem _ hq)) (bytes.drop p.2) (b.memWrite p.1 (bytes.take p.2))).trans ?_
    have hlen := List.length_take_le p.2 bytes
    exact memGet_memPutRun_outside _ (by omega)

/-- A partition whose records are released, and whose flags it owes (R208). -/
def discarded (p : Partition) : Partition := { p with items := [], owes := p.items.foldl (fun m x => m ||| x.owed) p.owes }

end Sys2Proof.Machine.Block

namespace Sys2Proof
open Machine Machine.Block

/-- Settles O22: arming and disarming change the capture state alone, and a record of the ring is written to the readout region alone. -/
theorem captureCommands : Obligations.CaptureCommands := by
  unfold Obligations.CaptureCommands
  intro t s b
  refine ⟨fun r hr => ?_, fun r hr => ?_, fun r h ha => ⟨?_, ?_, fun g hg => ?_⟩, fun span pier slot hw hroom => ⟨?_, fun a ha => ?_⟩,
    fun span pier slot hf hroom => ?_⟩
  · refine does_of_run (f := fun b => b.orTask r Obj.captureArm 1 353 Env.quiet) rfl
      ((orTask_answered hr rfl (f := fun b => b.captureArm false) (fun x _ => ?_) fun _ _ => ?_).trans ?_)
    · exact writeDo_pier _ x (index := 0x2501) 6 1 _ (.inl (by decide)) (.inl (by decide))
    · rfl
    · cases r <;> rfl
  · refine does_of_run (f := fun b => b.orTask r Obj.captureArm 0 354 Env.quiet) rfl
      ((orTask_answered hr rfl (f := fun b => b.captureDisarm) (fun x _ => ?_) fun _ _ => ?_).trans ?_)
    · exact writeDo_pier _ x (index := 0x2501) 6 0 _ (.inl (by decide)) (.inl (by decide))
    · rfl
    · cases r <;> rfl
  · refine does_of_run (f := fun b => b.writeTo (Obj.captureDiscard h.val) 1 r Env.quiet) rfl (writeTo_of_accepts ha ?_)
    refine (writeDo_pier _ r (index := 0x2508) _ _ _ (.inl (by decide)) (.inl (by decide))).trans ?_
    fin_cases h <;> rfl
  · exact congrArg Partition.items (part_modPart_same h (discarded) b)
  · exact part_modPart_other hg (discarded) b
  · refine does_of_run (f := fun b => b.ringRecord span.val pier.val slot) rfl (if_pos ?_)
    rw [show (s.b.at_ t).capture.waiting = [] from hw, Bool.and_eq_true]
    exact ⟨rfl, decide_eq_true hroom⟩
  · have harea : InArea 0x08000000 (0x08000000 + b.readoutSize) [(0x08000000, b.readoutSize)] := fun p hp => by
      obtain rfl := List.mem_singleton.mp hp
      exact ⟨le_rfl, le_rfl⟩
    exact memGet_placeWrite_outside (((harea.freeSpace _).fromPoint _).takeSpace _) ha slot b
  · refine does_of_run (f := fun b => b.ringRecord span.val pier.val slot) rfl ((if_neg ?_).trans ?_)
    · rw [Bool.and_eq_true]
      exact fun hc => Nat.not_le.mpr hroom (of_decide_eq_true hc.2)
    · rw [show (s.b.at_ t).capture.readoutFull = false from hf]
      rfl

end Sys2Proof

/-! # Drain levels and the pace of a page (R238 to R241) -/

namespace Sys2Proof.Machine.Block

/-! ## The registers that the page reads -/

/-- The registers by which a pier knows whether it runs a page. -/
def pageOwnRegs : List Obj :=
  [Obj.axisKeystoneEnable (0 : Fin 2), Obj.axisKeystoneEnable (1 : Fin 2), Obj.axisSourcePier 0, Obj.ringPierNumber, Obj.axisBroadcast (0 : Fin 2),
    Obj.axisBroadcast (1 : Fin 2)]

theorem activeAxis_congr {b n : Block} (h : ∀ o ∈ pageOwnRegs, SameReg o b n) : n.activeAxis = b.activeAxis := by
  have he (a : AxisId) : n.isSet (Obj.axisKeystoneEnable a) = b.isSet (Obj.axisKeystoneEnable a) := by
    have hr : SameReg (Obj.axisKeystoneEnable a) b n := h _ (by fin_cases a <;> simp [pageOwnRegs])
    rw [isSet, isSet, hr]
  have hb (a : AxisId) : n.isSet (Obj.axisBroadcast a) = b.isSet (Obj.axisBroadcast a) := by
    have hr : SameReg (Obj.axisBroadcast a) b n := h _ (by fin_cases a <;> simp [pageOwnRegs])
    rw [isSet, isSet, hr]
  have hs : SameReg (Obj.axisSourcePier 0) b n := h _ (by simp [pageOwnRegs])
  have hp : SameReg Obj.ringPierNumber b n := h _ (by simp [pageOwnRegs])
  have hpage : n.pageAxis = b.pageAxis := by simp only [pageAxis, he]
  have hown : n.ownAxis = b.ownAxis := by simp only [ownAxis, hb, hs.symm, hp.symm]
  rw [activeAxis, activeAxis, hpage, hown]

/-- The registers that the ceiling speed follows: those of the page, the cap, and the rates of the heads. -/
def ceilingRegs : List Obj :=
  pageOwnRegs ++ Obj.deviceLineRateCap :: (List.finRange 4).flatMap fun (h : HeadId) => Obj.headTriggerAxis h :: rateObjs h

theorem effMin_congr {b n : Block} (hh : n.heads = b.heads) {h : HeadId} (hr : ∀ o ∈ rateObjs h, SameReg o b n) : n.effMin h = b.effMin h := by
  simp only [rateObjs, List.mem_cons, List.not_mem_nil, or_false, forall_eq_or_imp, forall_eq, SameReg] at hr
  obtain ⟨-, -, hexposure, hlead, hactive, htrail, hrate, hsegments, hmode, hwidth⟩ := hr
  have hclocked : n.clocked h = b.clocked h := by simp only [clocked, hh]
  have hwindow : n.windowUnits h = b.windowUnits h := by simp only [windowUnits, readout, pixelUnits, hlead, hactive, htrail, hrate]
  simp only [effMin, effMinWith, boundPeriod, pipelinePixels, stepsNow, hclocked, hwindow, hh, hexposure, hactive, hsegments, hmode, hwidth]

theorem ceilingSpeed_congr {b n : Block} (hh : n.heads = b.heads) (hring : n.ring = b.ring) (hl : n.keystone.levels = b.keystone.levels)
    (hg : n.keystone.grid = b.keystone.grid) (hr : ∀ o ∈ ceilingRegs, SameReg o b n) : n.ceilingSpeed = b.ceilingSpeed := by
  have hown : ∀ o ∈ pageOwnRegs, SameReg o b n := fun o ho => hr o (List.mem_append_left _ ho)
  have hcap : SameReg Obj.deviceLineRateCap b n := hr _ (List.mem_append_right _ (List.mem_cons_self ..))
  have hhead (h : HeadId) : ∀ o ∈ Obj.headTriggerAxis h :: rateObjs h, SameReg o b n := fun o ho =>
    hr o (List.mem_append_right _ (List.mem_cons_of_mem _ (List.mem_flatMap.mpr ⟨h, List.mem_finRange h, ho⟩)))
  have haxis (h : HeadId) : SameReg (Obj.headTriggerAxis h) b n := hhead h _ (List.mem_cons_self ..)
  have hsource (h : HeadId) : SameReg (Obj.headTriggerSource h) b n := hhead h _ (List.mem_cons_of_mem _ (List.mem_cons_self ..))
  have hmin (h : HeadId) : n.effMin h = b.effMin h := effMin_congr hh fun o ho => hhead h o (List.mem_cons_of_mem _ ho)
  have hpier : SameReg Obj.ringPierNumber b n := hown _ (by simp [pageOwnRegs])
  simp only [SameReg] at haxis hsource hpier hcap
  have hpaced : n.pacedHeads = b.pacedHeads := by
    simp only [pacedHeads, paced, wouldPace, headAxis, haxis, hsource, hh, activeAxis_congr hown]
  have hperiod : n.levelInfo.period = b.levelInfo.period := by simp only [levelInfo, hpaced, hmin]
  have hrate : n.ceilingRate = b.ceilingRate := by
    simp only [ceilingRate, ceilingInForce, reports, List.foldl_cons, hperiod, hring, hl, hpier, hcap]
    rfl
  rw [ceilingSpeed, ceilingSpeed, hrate, hg]

/-! ## The pace (R240) -/

/-- Registers 3 to 5 of the axis's levels follow the highest level. -/
theorem sameReg_levels {o : Obj} (ho : o.sub < 256) (hi : o.index ≠ 0x4162 ∧ o.index ≠ 0x41E2 ) (a : AxisId) (lm lp : Nat) (b : Block) :
    SameReg o b ((b.setReg (Obj.axisKeystoneLevelMax a) lm).setReg (Obj.axisKeystoneLevelPier a) lp) := by
  refine ((SameReg.refl o b).setReg ?_).setReg ?_
  · simp only [Obj.key, Obj.axisKeystoneLevelMax]; omega
  · simp only [Obj.key, Obj.axisKeystoneLevelPier]; omega

theorem sameReg_local {o : Obj} (ho : o.sub < 256) (hi : o.index ≠ 0x4162 ∧ o.index ≠ 0x41E2) (v : Nat) (b : Block) :
    SameReg o b ((b.setReg (Obj.axisKeystoneLevelLocal 0) v).setReg (Obj.axisKeystoneLevelLocal 1) v) := by
  refine ((SameReg.refl o b).setReg ?_).setReg ?_
  · simp only [Obj.key, Obj.axisKeystoneLevelLocal]; omega
  · simp only [Obj.key, Obj.axisKeystoneLevelLocal]; omega

theorem axes_modAxis_same (a : AxisId) (f : Axis → Axis) (b : Block) : (b.modAxis a f).axes[a] = f b.axes[a] := by
  simp [modAxis]

/-- A pause of a page in state 3 (R240, R242). -/
theorem keyPause_paced {a : AxisId} {b : Block} (hs : b.keystone.state = 3) (r : Nat) :
    (b.keyPause a (some r)).keystone.state = 4 ∧ (b.keyPause a (some r)).axes[a].profile = .brake false ∧
    (b.keyPause a (some r)).Fired (640 + 32 * a.val + 24) := by
  unfold keyPause
  extract_lets s c d e
  have hno : ¬(s ≠ 2 ∧ s ≠ 3) := by simp [s, hs]
  have h2 : ¬s = 2 := by simp [s, hs]
  rw [if_neg hno, if_neg h2]
  have haxes : e.axes[a] = _ := axes_modAxis_same ..
  refine ⟨rfl, by rw [haxes], List.mem_append_right _ (List.mem_singleton_self _)⟩

/-- The owner of a page in state 3 pauses it or sets its speed (R240). -/
theorem keyPace_eq {a : AxisId} {b : Block} (hs : b.keystone.state = 3) : ∃ (d : Block) (r v : Nat), d.keystone.state = 3 ∧
    ((b.levelMax a).1 ≤ b.reg (Obj.axisKeystonePaceMark a) → v = b.ceilingSpeed) ∧
    b.keyPace a = if b.reg (Obj.axisKeystoneHighMark a) ≤ (b.levelMax a).1 then d.keyPause a (some r)
      else d.modAxis a fun x => { x with profile := .page (b.keystone.grid.dir * (v : Int)) } := by
  unfold keyPace
  split
  next lm lp hm =>
    extract_lets c high pace d timedOut vc v
    have hreg : ∀ o : Obj, o.sub < 256 → o.index ≠ 0x4162 ∧ o.index ≠ 0x41E2 → SameReg o b c := fun o ho hi => sameReg_levels ho hi a lm lp b
    have hhigh : high = b.reg (Obj.axisKeystoneHighMark a) :=
      hreg _ (by simp [Obj.axisKeystoneHighMark]) (by simp only [Obj.axisKeystoneHighMark]; omega)
    have hpace : pace = b.reg (Obj.axisKeystonePaceMark a) :=
      hreg _ (by simp [Obj.axisKeystonePaceMark]) (by simp only [Obj.axisKeystonePaceMark]; omega)
    have hvc : vc = b.ceilingSpeed := by
      refine ceilingSpeed_congr rfl rfl rfl rfl fun o ho => ?_
      have hout : ∀ o ∈ ceilingRegs, o.sub < 256 ∧ o.index ≠ 0x4162 ∧ o.index ≠ 0x41E2 := by decide
      obtain ⟨hsub, hindex⟩ := hout o ho
      exact hreg o hsub hindex
    have hstate : d.keystone.state = 3 := hs
    refine ⟨d, if timedOut then 2 else 1, v, hstate, fun hle => (if_pos (by rw [hpace]; rw [hm] at hle; exact hle)).trans hvc, (if_pos hstate).trans ?_⟩
    rw [hm, hhigh]
    rfl

theorem keyPace_paced {a : AxisId} {b : Block} (hs : b.keystone.state = 3) :
    (b.reg (Obj.axisKeystoneHighMark a) ≤ (b.levelMax a).1 → (b.keyPace a).keystone.state = 4 ∧ (b.keyPace a).axes[a].profile = .brake false ∧
      (b.keyPace a).Fired (640 + 32 * a.val + 24)) ∧
    ((b.levelMax a).1 ≤ b.reg (Obj.axisKeystonePaceMark a) → b.reg (Obj.axisKeystonePaceMark a) < b.reg (Obj.axisKeystoneHighMark a) →
      (b.keyPace a).keystone.state = 3 ∧ (b.keyPace a).axes[a].profile = .page (b.keystone.grid.dir * (b.ceilingSpeed : Int))) := by
  obtain ⟨d, r, v, hd, hv, he⟩ := keyPace_eq (a := a) hs
  refine ⟨fun hle => ?_, fun hle hlt => ?_⟩
  · rw [he, if_pos hle]
    exact keyPause_paced hd r
  · rw [he, if_neg (Nat.not_le.mpr (Nat.lt_of_le_of_lt hle hlt)), axes_modAxis_same, hv hle]
    exact ⟨hd, rfl⟩

/-! ## Levels published and received (R238) -/

/-- The pier with its level in its registers, in its table and on the ring. -/
def published (b : Block) : Block :=
  (((b.setReg (Obj.axisKeystoneLevelLocal 0) b.levelInfo.level).setReg (Obj.axisKeystoneLevelLocal 1) b.levelInfo.level).modKey fun k =>
    { k with levels := k.levels.insert (b.reg Obj.ringPierNumber) ⟨b.levelInfo, b.now⟩ }).sendRing (.level b.levelInfo)

theorem published_axis (b : Block) : b.published.activeAxis = b.activeAxis := by
  refine activeAxis_congr fun o ho => ?_
  have hout : ∀ o ∈ pageOwnRegs, o.sub < 256 ∧ o.index ≠ 0x4162 ∧ o.index ≠ 0x41E2 := by decide
  obtain ⟨hsub, hindex⟩ := hout o ho
  exact sameReg_local hsub hindex b.levelInfo.level b

theorem drainPublish_eq {b : Block} (hs : b.scan = true) :
    b.drainPublish = match b.published.activeAxis with | some a => b.published.keyPace a | none => b.published := by
  have hpier : ((b.setReg (Obj.axisKeystoneLevelLocal 0) b.levelInfo.level).setReg (Obj.axisKeystoneLevelLocal 1) b.levelInfo.level).reg
      Obj.ringPierNumber = b.reg Obj.ringPierNumber := sameReg_local (by decide) (by decide) b.levelInfo.level b
  unfold drainPublish
  rw [if_neg (by rw [hs]; decide)]
  dsimp only
  rw [hpier]
  rfl

theorem drainPublish_sends {b : Block} (hs : b.scan = true) : Out.ring (.level b.levelInfo) ∈ b.drainPublish.outs := by
  have hp : Out.ring (.level b.levelInfo) ∈ b.published.outs := List.mem_append_right _ (List.mem_singleton_self _)
  rw [drainPublish_eq hs]
  split
  next a _ => exact ((Within.refl (fun _ => True) b.published).keyPace (a := a) trivial trivial).outs _ hp
  next => exact hp

/-- The report of a pier is kept with its time. -/
def reported (p : Nat) (i : LevelInfo) (b : Block) : Block := b.modKey fun k => { k with levels := k.levels.insert p ⟨i, b.now⟩ }

theorem levelReport_eq (p : Nat) (i : LevelInfo) (withTimeout : Bool) (b : Block) : b.levelReport p i withTimeout =
    match (reported p i b).activeAxis with
    | some a => (if withTimeout then (reported p i b).bump (Obj.axisKeystoneNearMisses a) else reported p i b).keyPace a
    | none => reported p i b := rfl

end Sys2Proof.Machine.Block

namespace Sys2Proof
open Machine Machine.Block

/-- The controller of an axis may be touched, and the axes. -/
def KeystoneAndAxes : Piece → Prop := fun p => p = .keystone ∨ ∃ a, p = .axis a

/-- Settles O23: a report is kept before the owner of a page paces by the highest level, which its two marks divide. -/
theorem levelsPaceThePage : Obligations.LevelsPaceThePage := by
  unfold Obligations.LevelsPaceThePage
  refine ⟨fun t s => ?_, fun a b hs => ?_⟩
  · intro b i
    refine ⟨fun hscan hno => ?_, fun hscan => ?_, fun pier info => ?_, fun a ha => ?_⟩
    · refine does_of_run (f := fun b => b.drainPublish) rfl ((drainPublish_eq hscan).trans ?_)
      rw [published_axis, hno]
      rfl
    · have he : exec (.drainLevelPublish t) s = run t (fun b => b.drainPublish) s := rfl
      have w : Within KeystoneAndAxes b b.drainPublish := (Within.refl _ b).drainPublish (.inl rfl) fun x => .inr ⟨x, rfl⟩
      refine ends_of_run he ⟨?_, finish_outs _ _ (drainPublish_sends hscan), (finish_mem _).trans (w.mem nofun), ?_⟩
      · exact Nat.min_le_left ..
      · exact Vector.ext fun j hj => (finish_heads _ ⟨j, hj⟩).trans (w.heads ⟨j, hj⟩ nofun)
    · intro c
      have hc : (reported pier.val ⟨info.level, info.last, info.period, info.loads⟩ (s.b.at_ t)).activeAxis = b.activeAxis := rfl
      refine ⟨fun hno same => ?_, fun a ha => ⟨?_, ?_⟩⟩
      · refine does_of_run (f := fun b => b.levelReport pier.val ⟨info.level, info.last, info.period, info.loads⟩ same) rfl ?_
        exact (levelReport_eq ..).trans (by rw [hc, hno]; rfl)
      · refine does_of_run (f := fun b => b.levelReport pier.val ⟨info.level, info.last, info.period, info.loads⟩ false) rfl ?_
        exact (levelReport_eq ..).trans (by rw [hc, ha]; rfl)
      · refine does_of_run (f := fun b => b.levelReport pier.val ⟨info.level, info.last, info.period, info.loads⟩ true) rfl ?_
        exact (levelReport_eq ..).trans (by rw [hc, ha]; rfl)
    · refine does_of_run (f := fun b => b.levelTimeout) rfl ?_
      show b.levelTimeout = _
      rw [levelTimeout, ha]
  · have w : Within KeystoneAndAxes b (b.keyPace a) := (Within.refl _ b).keyPace (.inl rfl) (.inr ⟨a, rfl⟩)
    obtain ⟨hhigh, hlow⟩ := keyPace_paced (a := a) hs
    exact ⟨hhigh, hlow, Vector.ext fun i hi => w.heads ⟨i, hi⟩ nofun, w.mem nofun⟩

end Sys2Proof

/-! # Pages (R232 to R257) -/

namespace Sys2Proof.Machine.Block

/-! ## Requests -/

theorem writeDo_axisObj (e : Env) (r : Route) (a : AxisId) {o : Obj} (i : Nat) (hi : i < 0x80) (ho : o.index = 0x4100 + i + 0x80 * a.val)
    (v : Nat) (b : Block) : b.writeDo e r o.index o.sub v = b.axisDo e r a (0x4100 + i) o.sub v := by
  rw [ho]
  exact writeDo_axis e r a i o.sub v b hi

theorem writeDo_keystoneCommand (e : Env) (r : Route) (a : AxisId) {v : Nat} (hv : v < 256) (b : Block) :
    b.writeDo e r (Obj.axisKeystoneCommand a).index (Obj.axisKeystoneCommand a).sub (v % 256 ^ ((Obj.axisKeystoneCommand a).ty.bits / 8)) =
      some (b.pageCommand a v e r) := by
  rw [mod_u8 rfl hv, writeDo_axisObj e r a 0x60 (by decide) rfl]
  rfl

theorem orReply_of_first {r : Route} {why : List AbortCode} {f : Block → Block} {b : Block} {c : AbortCode} (h : firstCode why = some c) :
    b.orReply r why f = b.reply r (.abort c) := by
  rw [orReply, h]

section
variable {r : Option Route} {a : AxisId} {b : Block}

/-- A command of the page controller, by write or task, that nothing refuses. -/
theorem orTask_page {v k : Nat} {e : Env} {f : Block → Block} (hv : v < 256) (hk : k < 16) (he : e.same = false)
    (hr : b.reaches r (Obj.axisKeystoneCommand a) v (axisTaskNo a k) e)
    (hw : ∀ x, b.pageCommand a v e x = (f b).reply x .ok)
    (ht : ∀ m st, (b.unlatch (axisTaskNo a k)).axisTask a k st { e with merged := m } = f (b.unlatch (axisTaskNo a k))) :
    b.orTask r (Obj.axisKeystoneCommand a) v (axisTaskNo a k) e = (f (b.cleared r (axisTaskNo a k))).answered r .ok := by
  refine orTask_answered hr he (fun x _ => ?_) fun _ m => ?_
  · rw [writeDo_keystoneCommand e x a hv, hw]
  · exact (taskDo_axis a k hk ..).trans (ht ..)

theorem orTask_pageStart {e : Env} (he : e.same = false) (ht : e.twin = false)
    (hr : b.reaches r (Obj.axisKeystoneCommand a) 1 (axisTaskNo a 12) e) (hv : b.pageStartViolations a e.othersAgree = []) :
    b.orTask r (Obj.axisKeystoneCommand a) 1 (axisTaskNo a 12) e = ((b.cleared r (axisTaskNo a 12)).pageStart a).answered r .ok := by
  have hrefused (c : Block) (hc : c.pageStartViolations a e.othersAgree = []) : c.pageRefused a e = [] := by
    rw [pageRefused, he, hc]; rfl
  have hby (c : Block) (e : Env) (he : e.same = false) (ht : e.twin = false) : c.pageStartBy a e = c.pageStart a := by
    rw [pageStartBy, he, ht]; rfl
  refine orTask_page (f := fun b => b.pageStart a) (by decide) (by decide) he hr (fun x => ?_) fun m st => ?_
  · rw [pageCommand, if_neg (by rw [he]; decide), orReply_of_none (hrefused b hv), hby b e he ht]
  · have hsame : ¬e.same = true := by rw [he]; decide
    exact (if_neg hsame).trans ((if_pos (List.isEmpty_iff.mpr (hrefused _ hv))).trans (hby _ _ he ht))

/-- The other three commands of the controller, which a page of the axis admits. -/
theorem orTask_pageOther {v k : Nat} {f : Block → Block} (hk : k < 16) (hv : v < 256)
    (hr : b.reaches r (Obj.axisKeystoneCommand a) v (axisTaskNo a k) Env.quiet) (hp : b.pageViolations a = []) {g : Env → Block → Block}
    (hw : ∀ (e : Env) (x : Route) (c : Block), c.pageCommand a v e x = c.orReply x (c.pageViolations a) (g e))
    (ht : ∀ (e : Env) st (c : Block), c.pageViolations a = [] → c.axisTask a k st e = g e c)
    (hg : ∀ (e : Env) (c : Block), e.same = false → e.twin = false → g e c = f c) :
    b.orTask r (Obj.axisKeystoneCommand a) v (axisTaskNo a k) Env.quiet = (f (b.cleared r (axisTaskNo a k))).answered r .ok := by
  refine orTask_page hv hk rfl hr (fun x => ?_) fun m st => ?_
  · rw [hw, orReply_of_none hp, hg _ _ rfl rfl]
  · rw [ht _ _ (b.unlatch (axisTaskNo a k)) hp, hg { Env.quiet with merged := m } _ rfl rfl]

theorem orTask_pageEnd (hr : b.reaches r (Obj.axisKeystoneCommand a) 2 (axisTaskNo a 13) Env.quiet) (hp : b.pageViolations a = []) :
    b.orTask r (Obj.axisKeystoneCommand a) 2 (axisTaskNo a 13) Env.quiet =
      ((b.cleared r (axisTaskNo a 13)).pageEnding a).answered r .ok :=
  orTask_pageOther (f := fun b => b.pageEnding a) (g := fun e b => b.pageEndBy a e) (by decide) (by decide) hr hp (fun _ _ _ => rfl)
    (fun _ _ _ hc => if_pos (List.isEmpty_iff.mpr hc)) fun e c he ht => by rw [pageEndBy, he, ht]; rfl

theorem orTask_forcedPause (hr : b.reaches r (Obj.axisKeystoneCommand a) 3 (axisTaskNo a 14) Env.quiet) (hp : b.pageViolations a = []) :
    b.orTask r (Obj.axisKeystoneCommand a) 3 (axisTaskNo a 14) Env.quiet =
      ((b.cleared r (axisTaskNo a 14)).forcedPause a false).answered r .ok :=
  orTask_pageOther (f := fun b => b.forcedPause a false) (g := fun e b => b.pauseBy a e) (by decide) (by decide) hr hp (fun _ _ _ => rfl)
    (fun _ _ _ hc => if_pos (List.isEmpty_iff.mpr hc)) fun e c he ht => by rw [pauseBy, he, ht]; rfl

theorem orTask_pageRelease (hr : b.reaches r (Obj.axisKeystoneCommand a) 4 (axisTaskNo a 15) Env.quiet) (hp : b.pageViolations a = []) :
    b.orTask r (Obj.axisKeystoneCommand a) 4 (axisTaskNo a 15) Env.quiet =
      ((b.cleared r (axisTaskNo a 15)).pageRelease a).answered r .ok :=
  orTask_pageOther (f := fun b => b.pageRelease a) (g := fun e b => b.releaseBy a e) (by decide) (by decide) hr hp (fun _ _ _ => rfl)
    (fun _ _ _ hc => if_pos (List.isEmpty_iff.mpr hc)) fun e c he ht => by rw [releaseBy, he, ht]; rfl

end

/-! ## The states of a page -/

theorem keyState_state (a : AxisId) (s : Nat) (b : Block) : (b.keyState a s).keystone.state = s ∧ (b.keyState a s).axes = b.axes ∧
    (b.keyState a s).heads = b.heads ∧ (b.keyState a s).keystone.grid = b.keystone.grid ∧ (b.keyState a s).keystone.vr = b.keystone.vr ∧
    (b.keyState a s).keystone.forced = b.keystone.forced := by
  unfold keyState
  dsimp only
  split <;> exact ⟨rfl, rfl, rfl, rfl, rfl, rfl⟩

/-- A state of a page leaves all but its controller and, outside states 4 to 6, the time of its pause. -/
theorem keyState_leaves (a : AxisId) (s : Nat) (b : Block) : Leaves [.keystone] [Obj.axisKeystonePauseTime a] b (b.keyState a s) := by
  unfold keyState
  extract_lets is_ c
  have hc : Leaves [.keystone] [Obj.axisKeystonePauseTime a] b c := by
    unfold c
    split
    · exact .refl _ _ _
    · exact (Leaves.refl _ _ b).count _ _ (List.mem_singleton_self _)
  exact (hc.modKey _ (List.mem_singleton_self _)).sendRing _

/-- States 4 to 6 leave the time of the pause too. -/
theorem keyState_leaves_paused {a : AxisId} {s : Nat} (h4 : 4 ≤ s) (h6 : s ≤ 6) (b : Block) : Leaves [.keystone] [] b (b.keyState a s) := by
  unfold keyState
  dsimp only
  rw [decide_eq_true h4, decide_eq_true h6]
  exact ((Leaves.refl _ _ b).modKey _ (List.mem_singleton_self _)).sendRing _

/-- A run-up has begun (R239, R247). -/
structure RanUp (a : AxisId) (b c : Block) : Prop where
  state : c.keystone.state = 2
  fired : c.Fired (640 + 32 * a.val + 26)
  profile : c.axes[a].profile = .page (b.keystone.grid.dir * (b.keystone.vr : Int))
  leaves : Leaves [.keystone, .axis a] [Obj.axisKeystonePauseTime a] b c
  forced : c.keystone.forced = b.keystone.forced

theorem runUp_ranUp (a : AxisId) (b : Block) : RanUp a b (b.runUp a) := by
  unfold runUp
  extract_lets c
  obtain ⟨hstate, haxes, -, hgrid, hvr, hforced⟩ := keyState_state a 2 b
  have w : Leaves [.keystone, .axis a] [Obj.axisKeystonePauseTime a] b (b.keyState a 2) :=
    (Leaves.refl _ _ b).of_part (keyState_leaves a 2 b) (by simp) (by simp)
  refine ⟨hstate, List.mem_append_right _ (List.mem_singleton_self _), ?_, ?_, hforced⟩
  · rw [axes_modAxis_same, show c.keystone.grid = _ from hgrid, show c.keystone.vr = _ from hvr]
  · exact ((w.raise _).modKey _ (by simp)).modAxis _ _ (by simp)

theorem pageOver_heads (b : Block) : (∀ h : HeadId, b.pageOver.heads[h] = { b.heads[h] with held := false }) ∧
    b.pageOver.keystone = b.keystone ∧ b.pageOver.outs = b.outs ∧
    Leaves [.keystone, .head 0, .head 1, .head 2, .head 3] [] b b.pageOver := by
  refine ⟨fun h => ?_, rfl, rfl, ?_⟩
  · unfold pageOver
    rw [show List.finRange 4 = [0, 1, 2, 3] from rfl]
    simp only [List.foldl_cons, List.foldl_nil]
    fin_cases h <;> simp [modHead]
  · refine (Leaves.refl _ _ b).foldl _ _ fun c h _ => (Leaves.refl _ _ c).modHead h _ ?_
    fin_cases h <;> simp

/-- A page has ended at rest (R233, R239). -/
structure PageOver (a : AxisId) (b c : Block) : Prop where
  state : c.keystone.state = 0
  fired : c.Fired (640 + 32 * a.val + 31)
  leaves : Leaves [.keystone, .head 0, .head 1, .head 2, .head 3] [Obj.axisKeystonePauseTime a] b c
  heads : ∀ h : HeadId, c.heads[h] = { b.heads[h] with held := false }

theorem pageIdle_over (a : AxisId) (b : Block) : PageOver a b (b.pageIdle a) := by
  unfold pageIdle
  generalize hc : (((b.keyState a 0).keyEvent a 31).modKey fun k => { k with idleBase := none, approach := false, forced := false }) = c
  obtain ⟨hstate, -, hheads, -, -, -⟩ := keyState_state a 0 b
  obtain ⟨hover, hkey, houts, hleaves⟩ := c.pageOver_heads
  have w : Leaves [.keystone, .head 0, .head 1, .head 2, .head 3] [Obj.axisKeystonePauseTime a] b (b.keyState a 0) :=
    (Leaves.refl _ _ b).of_part (keyState_leaves a 0 b) (by simp) (by simp)
  have wc : Leaves [.keystone, .head 0, .head 1, .head 2, .head 3] [Obj.axisKeystonePauseTime a] b c :=
    hc ▸ (w.raise _).modKey _ (by simp)
  have hch : c.heads = b.heads := hc ▸ hheads
  refine ⟨?_, ?_, wc.of_part hleaves (by simp) (by simp), fun h => ?_⟩
  · rw [hkey, ← hc]
    exact hstate
  · rw [Fired, houts, ← hc]
    exact List.mem_append_right _ (List.mem_singleton_self _)
  · rw [hover, hch]

end Sys2Proof.Machine.Block

namespace Sys2Proof
open Machine Machine.Block

theorem pageViolations_of_passive {a : AxisId} {b : Block} (hf : b.feature 1 = true) (hs : b.scan = true) (ha : b.activeAxis ≠ some a) :
    firstCode (b.pageViolations a) = some .deviceState := by
  have hne : (b.activeAxis != some a) = true := bne_iff_ne.mpr ha
  rw [pageViolations, hf, hs, hne]
  rfl

/-- Settles O24: a command of the controller reaches its page, and the state of the page decides what follows. -/
theorem pagesMoveOn : Obligations.PagesMoveOn := by
  unfold Obligations.PagesMoveOn
  refine ⟨fun t a r s => ?_, fun t a s => ?_⟩
  · intro b
    refine ⟨fun others hr hv => ?_, fun hp => ⟨fun hr => ?_, fun hr h0 h7 => ?_, fun hr => ?_⟩, fun x hf hs ha hx => ?_, fun x others hx => ?_⟩
    · exact does_of_run (f := fun b => b.orTask r (Obj.axisKeystoneCommand a) 1 (axisTaskNo a 12) { Env.quiet with othersAgree := others }) rfl
        (orTask_pageStart rfl rfl hr hv)
    · exact does_of_run (f := fun b => b.orTask r (Obj.axisKeystoneCommand a) 2 (axisTaskNo a 13) Env.quiet) rfl (orTask_pageEnd hr hp)
    · refine does_of_run (f := fun b => b.orTask r (Obj.axisKeystoneCommand a) 3 (axisTaskNo a 14) Env.quiet) rfl
        ((orTask_forcedPause hr hp).trans ?_)
      have hno : ¬(b.keystone.state = 0 ∨ b.keystone.state = 7) := fun hc => hc.elim h0 h7
      refine congrArg (fun c : Block => c.answered r .ok) (if_neg ?_)
      cases r <;> exact hno
    · refine does_of_run (f := fun b => b.orTask r (Obj.axisKeystoneCommand a) 4 (axisTaskNo a 15) Env.quiet) rfl
        ((orTask_pageRelease hr hp).trans ?_)
      cases r <;> rfl
    · refine does_of_run (f := fun b => b.orTask (some x) (Obj.axisKeystoneCommand a) 3 (axisTaskNo a 14) Env.quiet) rfl
        (writeTo_of_accepts hx ((writeDo_keystoneCommand _ x a (by decide) _).trans ?_))
      exact congrArg some (orReply_of_first (pageViolations_of_passive hf hs ha))
    · refine does_of_run (f := fun b => b.orTask (some x) (Obj.axisKeystoneCommand a) 1 (axisTaskNo a 12)
        { Env.pair .other with othersAgree := others }) rfl (writeTo_of_accepts hx ((writeDo_keystoneCommand _ x a (by decide) _).trans ?_))
      rfl
  · intro b ranUp
    have hran : RanUp a b (b.runUp a) := runUp_ranUp a b
    have hup : ranUp (b.runUp a) := ⟨hran.state, hran.fired, hran.profile, hran.leaves⟩
    refine ⟨fun ha => ⟨fun hrest => ⟨fun h4 => ?_, fun h7 => ?_, fun h1 hf => ?_, fun h5 => ?_⟩, fun hm => ?_, ?_, fun u hu hd h0 h3 happ => ?_⟩,
      fun instant line => ?_⟩
    · refine does_of_run (f := fun b => b.pageAtRest) rfl ?_
      show b.pageAtRest = _
      rw [pageAtRest, ha]
      exact (if_neg (not_not_intro hrest)).trans (if_pos h4)
    · have ho := pageIdle_over a b
      refine ⟨b.pageIdle a, does_of_run (f := fun b => b.pageAtRest) rfl ?_, ho.state, ho.fired, ho.leaves, ho.heads⟩
      show b.pageAtRest = _
      rw [pageAtRest, ha]
      exact (if_neg (not_not_intro hrest)).trans ((if_neg (by omega)).trans (if_pos h7))
    · refine ⟨b.runUp a, does_of_run (f := fun b => b.parkReached) rfl ?_, hup⟩
      show b.parkReached = _
      rw [parkReached, ha]
      refine (if_neg (not_not_intro hrest)).trans ((if_pos h1).trans (if_neg ?_))
      rw [hran.forced, hf]
      decide
    · obtain ⟨hstate, -⟩ := keyState_state a 6 b
      refine ⟨(b.keyState a 6).keyEvent a 25, does_of_run (f := fun b => b.parkReached) rfl ?_, hstate,
        List.mem_append_right _ (List.mem_singleton_self _), (keyState_leaves_paused (by decide) (by decide) b).raise _⟩
      show b.parkReached = _
      rw [parkReached, ha]
      exact (if_neg (not_not_intro hrest)).trans ((if_neg (by omega)).trans (if_pos h5))
    · refine ⟨b.runUp a, does_of_run (f := fun b => b.resumeMet false) rfl ?_, hup⟩
      show b.resumeMet false = _
      rw [resumeMet, ha]
      exact if_pos hm
    · refine does_of_run (f := fun b => b.resumeMet true) rfl ?_
      show b.resumeMet true = _
      rw [resumeMet, ha]
      rfl
    · refine does_of_run (f := fun b => b.idleTimer) rfl ?_
      show b.idleTimer = _
      rw [idleTimer, ha, hu]
      refine if_neg ?_
      rw [happ, show b.now = t from rfl, hd]
      simpa using ⟨h0, h3⟩
    · exact does_of_run (f := fun b => b.receiveIdle instant line) rfl rfl

end Sys2Proof

/-! # Commands of the motion axes (R267 to R270, R280, R284, R285) -/

namespace Sys2Proof.Machine.Block

theorem toSigned_toNat (w : Nat) (v : BitVec (w + 1)) : toSigned (w + 1) v.toNat = v.toInt := by
  rw [toSigned, BitVec.toInt_eq_toNat_cond, Nat.add_sub_cancel, Nat.pow_succ]
  split <;> split <;> push_cast <;> omega

theorem modAxis_modAxis (a : AxisId) (f g : Axis → Axis) (b : Block) : (b.modAxis a f).modAxis a g = b.modAxis a fun x => g (f x) := by
  simp [modAxis]

theorem modAxis_congr (a : AxisId) {f g : Axis → Axis} {b : Block} (h : f b.axes[a] = g b.axes[a]) : b.modAxis a f = b.modAxis a g := by
  rw [modAxis, modAxis, h]

theorem axes_cleared (r : Option Route) (task : Nat) (b : Block) : (b.cleared r task).axes = b.axes := by cases r <;> rfl

theorem keystone_cleared (r : Option Route) (task : Nat) (b : Block) : (b.cleared r task).keystone = b.keystone := by cases r <;> rfl

/-- A page that is not in state 8 does not recover. -/
theorem keyRecover_of_ne {a : AxisId} {b : Block} (h : b.keystone.state ≠ 8) : b.keyRecover a = b := by
  refine if_neg fun hc => h ?_
  simp only [Bool.and_eq_true, beq_iff_eq] at hc
  exact hc.1.1.1.2

theorem keyFault_of_idle {a : AxisId} {b : Block} (h : b.keystone.state = 0) : b.keyFault a = b := if_pos (.inr (.inl h))

theorem brakeAxis_of_moving {a : AxisId} {b : Block} (h : b.axes[a].profile ≠ .rest) (hard : Bool) :
    b.brakeAxis a hard = b.modAxis a fun x => { x with profile := .brake hard } := if_neg h

/-! ## Enable and disable (R284) -/

section
variable {r : Option Route} {a : AxisId} {b : Block}

/-- The operation of an axis by write or task, which answers the write in its way. -/
theorem orTask_axis {o : Obj} {v k : Nat} {e : Env} {f : Via → Block → Block} {g : Block → Block} {res : Result} (hk : k < 16) (he : e.same = false)
    (hr : b.reaches r o v (axisTaskNo a k) e)
    (hf : ∀ via, f via (b.cleared r (axisTaskNo a k)) = (g (b.cleared r (axisTaskNo a k))).replyVia via res)
    (hw : ∀ x, b.writeDo e x o.index o.sub (v % 256 ^ (o.ty.bits / 8)) = some (f (.write x) b))
    (ht : ∀ m st, (b.unlatch (axisTaskNo a k)).axisTask a k st { e with merged := m } = f (.task st) (b.unlatch (axisTaskNo a k))) :
    b.orTask r o v (axisTaskNo a k) e = (g (b.cleared r (axisTaskNo a k))).answered r res := by
  refine orTask_of_reaches hr he (fun x hx => ?_) fun hn m => ?_
  · subst hx
    rw [hw]
    exact congrArg some (hf (.write x))
  · subst hn
    exact (taskDo_axis a k hk ..).trans ((ht m _).trans (hf _))

/-- The fault inputs of an enable are all low or all high. -/
theorem fault_bit (a : AxisId) (low : Bool) : (if low then 3 else 0 : Nat).testBit a.val = low := by
  fin_cases a <;> cases low <;> decide

theorem writeDo_axisCommand (e : Env) (x : Route) {v : Nat} (hv : v < 256) :
    b.writeDo e x (Obj.axisCommand a).index (Obj.axisCommand a).sub (v % 256 ^ ((Obj.axisCommand a).ty.bits / 8)) =
      some (b.axisCommand a v (e.vm.getD a.val 0) (e.flt.testBit a.val) (.write x) e.start) := by
  rw [mod_u8 rfl hv, writeDo_axisObj e x a 0 (by decide) rfl]
  rfl

theorem axisStart_alone (via : Via) {vm : Nat} {low : Bool} {c : Block} : c.axisStart a vm low via .alone =
    match firstCode (c.enableViolations a vm low) with
    | some x => c.replyVia via (.abort x)
    | none => (c.axisEnable a vm).replyVia via .ok := rfl

section
variable {vm : Nat} {low : Bool} {e : Env} (he : e.same = false) (hs : e.start = .alone) (hvm : e.vm.getD a.val 0 = vm)
  (hlow : e.flt.testBit a.val = low) (hr : b.reaches r (Obj.axisCommand a) 1 (axisTaskNo a 0) e)
include he hs hvm hlow hr

/-- An enable answers as the start of the axis does. -/
theorem orTask_axisEnable_of {g : Block → Block} {res : Result} (hf : ∀ via, (b.cleared r (axisTaskNo a 0)).axisStart a vm low via .alone =
      (g (b.cleared r (axisTaskNo a 0))).replyVia via res) :
    b.orTask r (Obj.axisCommand a) 1 (axisTaskNo a 0) e = (g (b.cleared r (axisTaskNo a 0))).answered r res := by
  refine orTask_axis (f := fun via c => c.axisStart a vm low via .alone) (by decide) he hr hf (fun x => ?_) fun m st => ?_
  · rw [writeDo_axisCommand e x (by decide), hvm, hlow, hs]
    rfl
  · unfold axisTask
    dsimp only
    rw [hvm, hlow, hs, he]
    rfl

theorem orTask_axisEnable (hv : b.enableViolations a vm low = []) : b.orTask r (Obj.axisCommand a) 1 (axisTaskNo a 0) e =
    ((b.cleared r (axisTaskNo a 0)).axisEnable a vm).answered r .ok := by
  refine orTask_axisEnable_of he hs hvm hlow hr (g := fun c => c.axisEnable a vm) fun via => ?_
  have hc : (b.cleared r (axisTaskNo a 0)).enableViolations a vm low = [] := by cases r <;> exact hv
  rw [axisStart_alone, hc]
  rfl

theorem orTask_axisEnable_hardware (hv : b.enableViolations a vm low = [.hardware]) : b.orTask r (Obj.axisCommand a) 1 (axisTaskNo a 0) e =
    (b.cleared r (axisTaskNo a 0)).answered r (.abort .hardware) := by
  refine orTask_axisEnable_of he hs hvm hlow hr (g := id) fun via => ?_
  have hc : (b.cleared r (axisTaskNo a 0)).enableViolations a vm low = [.hardware] := by cases r <;> exact hv
  rw [axisStart_alone, hc]
  rfl

end

theorem orTask_axisDisable (hr : b.reaches r (Obj.axisCommand a) 2 (axisTaskNo a 1) Env.quiet) :
    b.orTask r (Obj.axisCommand a) 2 (axisTaskNo a 1) Env.quiet = ((b.cleared r (axisTaskNo a 1)).axisDisable a).answered r .ok :=
  orTask_axis (f := fun via c => c.axisStop a via .alone) (g := fun c => c.axisDisable a) (by decide) rfl hr (fun _ => rfl)
    (fun x => writeDo_axisCommand Env.quiet x (by decide)) fun _ _ => rfl

end

/-- An axis that has started stands at rest, held and driven (R284). -/
structure Enabled (a : AxisId) (b c : Block) : Prop where
  state : c.axes[a].state = .running
  profile : c.axes[a].profile = .rest
  vel : c.axes[a].vel = 0
  holding : c.axes[a].holding = true
  driven : c.axes[a].driven = true
  fired : c.Fired (640 + 32 * a.val)
  leaves : Leaves [.axis a] [Obj.axisDriveKp a, Obj.axisDriveKi a, Obj.axisDriveInForce a, Obj.axisVm a] b c

theorem axisOn_enabled {a : AxisId} {b : Block} (hs : b.axes[a].state = .stopped) (vm : Nat) : Enabled a b (b.axisOn a vm) := by
  unfold axisOn
  rw [if_neg (by rw [hs]; decide)]
  extract_lets c p strong d
  have hgains : Leaves [.axis a] [Obj.axisDriveKp a, Obj.axisDriveKi a, Obj.axisDriveInForce a, Obj.axisVm a] b c := by
    unfold c deriveGains
    split
    · exact (Leaves.refl _ _ b).emit _
    · exact (((Leaves.refl _ _ b).emit _).setReg _ _ (by simp)).setReg _ _ (by simp)
  have hd : d.axes[a] = _ := axes_modAxis_same ..
  refine ⟨?_, ?_, ?_, ?_, ?_, List.mem_append_right _ (List.mem_singleton_self _), ?_⟩
  iterate 5 exact (congrArg _ hd).trans rfl
  exact (((hgains.modAxis _ _ (by simp)).setReg _ _ (by simp)).setReg _ _ (by simp)).raise _

theorem axisDisable_eq {a : AxisId} {b : Block} (hk : b.keystone.state = 0) : b.axisDisable a = b.axisOff a := by
  have hk' : (b.axisOff a).keystone = b.keystone := by
    unfold axisOff brakeAxis
    split
    · split <;> rfl
    · rfl
    · rfl
  exact keyFault_of_idle (hk' ▸ hk)

theorem axisOff_moving {a : AxisId} {b : Block} (hs : b.axes[a].state = .running) (hp : b.axes[a].profile ≠ .rest) :
    b.axisOff a = b.modAxis a fun x => { x with state := .stopping, profile := .brake true } := by
  have hx : (b.modAxis a fun x => { x with state := .stopping }).axes[a] = _ := axes_modAxis_same ..
  unfold axisOff
  rw [hs]
  refine (brakeAxis_of_moving ?_ true).trans (modAxis_modAxis ..)
  rw [hx]
  exact hp

/-- An axis that has come to rest in state 3 is stopped, with its outputs low (R284). -/
structure Disabled (a : AxisId) (b c : Block) : Prop where
  state : c.axes[a].state = .stopped
  profile : c.axes[a].profile = .rest
  driven : c.axes[a].driven = false
  mA : c.axes[a].mA = 0
  mB : c.axes[a].mB = 0
  low : Out.switchesLow a.val ∈ c.outs
  fired : c.Fired (640 + 32 * a.val + 1)
  leaves : Leaves [.axis a] [Obj.axisDriveInForce a] b c

theorem axisOffDone_disabled {a : AxisId} {b : Block} (hs : b.axes[a].state = .stopping) (hv : b.axes[a].vel = 0) :
    Disabled a b (b.axisOffDone a) := by
  unfold axisOffDone
  rw [if_pos (by rw [hs, hv]; rfl), freezeCommand, modAxis_modAxis, switchOff, modAxis_modAxis]
  generalize hf : (fun x : Axis => ({ ({ x with pos := x.cmdUnits b.now, from_ := x.cmdUnits b.now, vel := 0, profile := .rest, restSince := b.now } :
    Axis) with state := .stopped, driven := false, mA := 0, mB := 0, holding := false, alignLeft := 0 } : Axis)) = f
  have hx : (b.modAxis a f).axes[a] = f b.axes[a] := axes_modAxis_same ..
  subst hf
  refine ⟨congrArg Axis.state hx, congrArg Axis.profile hx, congrArg Axis.driven hx, congrArg Axis.mA hx, congrArg Axis.mB hx, ?_, ?_, ?_⟩
  · exact List.mem_append_left _ (List.mem_append_right _ (List.mem_singleton_self _))
  · exact List.mem_append_right _ (List.mem_singleton_self _)
  · exact ((((Leaves.refl [.axis a] [Obj.axisDriveInForce a] b).modAxis a _ (by simp)).setReg _ _ (by simp)).emit _).raise _

/-! ## Moves (R267 to R270) -/

section
variable {r : Option Route} {a : AxisId} {b : Block}

theorem writeDo_axisMove (e : Env) (x : Route) {o : Obj} (ho : o.index = 0x4104 + 0x80 * a.val) (v : Nat) (b : Block) :
    b.writeDo e x o.index o.sub v = b.axisDo e x a 0x4104 o.sub v := writeDo_axisObj e x a 4 (by decide) ho v b

theorem mod_bits {o : Obj} {w : Nat} (ho : o.ty.bits = w) (hw : 256 ^ (w / 8) = 2 ^ w) (v : BitVec w) : v.toNat % 256 ^ (o.ty.bits / 8) = v.toNat := by
  rw [ho, hw]
  exact Nat.mod_eq_of_lt v.isLt

theorem writeTo_moveTo {e : Env} {x : Route} {target : Pos} (ha : b.acceptsObj e x (Obj.axisMoveTo a) target.toNat = true) (k : Nat) :
    b.orTask (some x) (Obj.axisMoveTo a) target.toNat k e = (b.moveUnless a e fun b => b.moveTo a target.toInt).reply x .ok := by
  refine writeTo_of_accepts ha ?_
  rw [mod_bits (w := 48) rfl (by norm_num), writeDo_axisMove e x rfl, ← toSigned_toNat 47 target]
  rfl

theorem writeTo_jog {e : Env} {x : Route} {speed : BitVec 32} (ha : b.acceptsObj e x (Obj.axisJog a) speed.toNat = true) :
    b.writeTo (Obj.axisJog a) speed.toNat x e = (b.moveUnless a e fun b => b.jog a speed.toInt).reply x .ok := by
  refine writeTo_of_accepts ha ?_
  rw [mod_bits (w := 32) rfl (by norm_num), writeDo_axisMove e x rfl, ← toSigned_toNat 31 speed]
  rfl

/-- What an action of the axis does, by its value (R267, R269, R280). -/
def actionOf (a : AxisId) (e : Env) (v : Nat) (b : Block) : Block :=
  match v with
  | 1 => b.moveUnless a e fun b => b.home a
  | 2 => b.halt a e
  | 3 => b.quickStop a e
  | _ => b.clearMotion a e

theorem writeDo_axisAction (e : Env) (x : Route) {v : Nat} (hv : v < 256) (b : Block) :
    b.writeDo e x (Obj.axisAction a).index (Obj.axisAction a).sub (v % 256 ^ ((Obj.axisAction a).ty.bits / 8)) =
      some ((b.actionOf a e v).reply x .ok) := by
  rw [mod_u8 rfl hv, writeDo_axisMove e x rfl]
  rfl

theorem taskOr_of_none {why : List AbortCode} {f : Block → Block} {b : Block} (h : why = []) : b.taskOr a why f = f b := by
  rw [taskOr, h]
  rfl

/-- An action by write or task that nothing refuses. -/
theorem orTask_action {v k : Nat} {g : Block → Block} (hv : v < 256) (hk : k < 16)
    (hr : b.reaches r (Obj.axisAction a) v (axisTaskNo a k) Env.quiet)
    (hw : ∀ e : Env, e.same = false → e.twin = false → ∀ c : Block, c.actionOf a e v = g c)
    (ht : ∀ st (e : Env), e.same = false → (b.unlatch (axisTaskNo a k)).axisTask a k st e = (b.unlatch (axisTaskNo a k)).actionOf a e v) :
    b.orTask r (Obj.axisAction a) v (axisTaskNo a k) Env.quiet = (g (b.cleared r (axisTaskNo a k))).answered r .ok := by
  refine orTask_answered hr rfl (fun x _ => ?_) fun _ m => ?_
  · rw [writeDo_axisAction Env.quiet x hv, hw _ rfl rfl]
  · exact (taskDo_axis a k hk ..).trans ((ht _ _ rfl).trans (hw _ rfl rfl _))

theorem axisTask_home (st : Time) (e : Env) : b.axisTask a 5 st e = b.taskOr a (b.homeViolations a) fun b => b.moveUnless a e fun b => b.home a := rfl

theorem axisTask_halt (st : Time) (e : Env) : b.axisTask a 2 st e = b.taskOr a (b.haltViolations a) fun b => b.halt a e := rfl

theorem axisTask_quickStop (st : Time) (e : Env) : b.axisTask a 3 st e = b.taskOr a (b.haltViolations a) fun b => b.quickStop a e := rfl

/-- A move that meets nothing is performed. -/
theorem moveUnless_alone {e : Env} (hs : e.same = false) (ht : e.twin = false) (f : Block → Block) : b.moveUnless a e f = f b := by
  rw [moveUnless, hs, ht]
  rfl

theorem halt_alone {e : Env} (hs : e.same = false) (ht : e.twin = false) : b.halt a e = b.brakeAxis a false := by
  rw [halt, hs, ht]
  rfl

theorem quickStop_alone {e : Env} (hs : e.same = false) (ht : e.twin = false) : b.quickStop a e = b.brakeAxis a true := by
  rw [quickStop, hs, ht]
  rfl

theorem clearMotion_alone {e : Env} (ht : e.twin = false) : b.clearMotion a e = (b.clearFaults a).keyRecover a := by
  rw [clearMotion, ht]
  rfl

theorem orTask_home (hr : b.reaches r (Obj.axisAction a) 1 (axisTaskNo a 5) Env.quiet) (hv : b.homeViolations a = []) :
    b.orTask r (Obj.axisAction a) 1 (axisTaskNo a 5) Env.quiet = ((b.cleared r (axisTaskNo a 5)).home a).answered r .ok :=
  have hv' : (b.unlatch (axisTaskNo a 5)).homeViolations a = [] := hv
  orTask_action (g := fun c => c.home a) (by decide) (by decide) hr (fun _ hs ht _ => moveUnless_alone hs ht _)
    fun st e _ => (axisTask_home st e).trans (taskOr_of_none hv')

theorem orTask_halt (hr : b.reaches r (Obj.axisAction a) 2 (axisTaskNo a 2) Env.quiet) (hv : b.haltViolations a = []) :
    b.orTask r (Obj.axisAction a) 2 (axisTaskNo a 2) Env.quiet = ((b.cleared r (axisTaskNo a 2)).brakeAxis a false).answered r .ok :=
  have hv' : (b.unlatch (axisTaskNo a 2)).haltViolations a = [] := hv
  orTask_action (g := fun c => c.brakeAxis a false) (by decide) (by decide) hr (fun _ hs ht _ => halt_alone hs ht)
    fun st e _ => (axisTask_halt st e).trans (taskOr_of_none hv')

theorem orTask_quickStop (hr : b.reaches r (Obj.axisAction a) 3 (axisTaskNo a 3) Env.quiet) (hv : b.haltViolations a = []) :
    b.orTask r (Obj.axisAction a) 3 (axisTaskNo a 3) Env.quiet = ((b.cleared r (axisTaskNo a 3)).brakeAxis a true).answered r .ok :=
  have hv' : (b.unlatch (axisTaskNo a 3)).haltViolations a = [] := hv
  orTask_action (g := fun c => c.brakeAxis a true) (by decide) (by decide) hr (fun _ hs ht _ => quickStop_alone hs ht)
    fun st e _ => (axisTask_quickStop st e).trans (taskOr_of_none hv')

theorem orTask_clearMotion (hr : b.reaches r (Obj.axisAction a) 4 (axisTaskNo a 6) Env.quiet) :
    b.orTask r (Obj.axisAction a) 4 (axisTaskNo a 6) Env.quiet =
      (((b.cleared r (axisTaskNo a 6)).clearFaults a).keyRecover a).answered r .ok :=
  orTask_action (g := fun c => (c.clearFaults a).keyRecover a) (by decide) (by decide) hr (fun _ _ ht _ => clearMotion_alone ht)
    fun _ _ _ => rfl

end

/-- Without an active switch the fault of a switch clears, and no other is in force. -/
theorem clearFaults_switch {a : AxisId} {b : Block} (hp : b.axes[a].limP = false) (hn : b.axes[a].limN = false) (hf : b.axes[a].faults = [3]) :
    b.clearFaults a = b.modAxis a fun x => { x with faults := [] } := by
  have hd : b.dropFault a 3 = b.modAxis a fun x => { x with faults := [] } := modAxis_congr a (by rw [hf]; rfl)
  have hx : (b.modAxis a fun x => { x with faults := [] }).axes[a] = _ := axes_modAxis_same ..
  have hs : ¬ (b.axes[a].limP || b.axes[a].limN) = true := by rw [hp, hn]; decide
  unfold clearFaults
  rw [if_neg hs, hd]
  refine if_neg ?_
  rw [hx]
  exact Bool.false_ne_true

end Sys2Proof.Machine.Block

namespace Sys2Proof
open Machine Machine.Block

section
variable {t : Time} {r : Option Route} {a : AxisId} {s : State}

theorem does_axisEnable {vm : BitVec 16} {low : Bool} (hr : (s.b.at_ t).reaches r (Obj.axisCommand a) 1 (axisTaskNo a 0)
      { Env.quiet with vm := List.replicate 2 vm.toNat, flt := if low then 3 else 0 })
    (hv : (s.b.at_ t).enableViolations a vm.toNat low = []) :
    Does (.axisEnable t r a ⟨vm, low⟩ .alone) s ((((s.b.at_ t).cleared r (axisTaskNo a 0)).axisEnable a vm.toNat).answered r .ok) :=
  does_of_run (f := fun b => b.orTask r (Obj.axisCommand a) 1 (axisTaskNo a 0)
    { Env.quiet with vm := List.replicate 2 vm.toNat, flt := if low then 3 else 0 }) rfl
    (orTask_axisEnable rfl rfl (by fin_cases a <;> rfl) (fault_bit a low) hr hv)

theorem axisEnable_ends {vm : BitVec 16} {low : Bool} (hr : (s.b.at_ t).reaches r (Obj.axisCommand a) 1 (axisTaskNo a 0)
      { Env.quiet with vm := List.replicate 2 vm.toNat, flt := if low then 3 else 0 })
    (hv : (s.b.at_ t).enableViolations a vm.toNat low = []) (hs : s.b.axes[a].state = .stopped) (hk : s.b.keystone.state ≠ 8) :
    ∃ c, Does (.axisEnable t r a ⟨vm, low⟩ .alone) s c ∧ Enabled a (((s.b.at_ t).cleared r (axisTaskNo a 0)).answered r .ok) c := by
  refine ⟨_, does_axisEnable hr hv, ?_⟩
  generalize hc : (s.b.at_ t).cleared r (axisTaskNo a 0) = c
  have haxes : c.axes = s.b.axes := hc ▸ axes_cleared ..
  have hkey : c.keystone = s.b.keystone := hc ▸ keystone_cleared ..
  have hon := axisOn_enabled (a := a) (b := c) (haxes ▸ hs) vm.toNat
  have hrec : c.axisEnable a vm.toNat = c.axisOn a vm.toNat := keyRecover_of_ne (by rw [hon.leaves.keystone (by simp), hkey]; exact hk)
  have hans : ∀ n : Block, (n.answered r .ok).axes = n.axes := by
    cases r with
    | none => exact fun _ => rfl
    | some x => exact fun n => by cases x <;> rfl
  rw [hrec]
  obtain ⟨hstate, hprofile, hvel, hholding, hdriven, hfired, hleaves⟩ := hon
  refine ⟨?_, ?_, ?_, ?_, ?_, (within_answered Nothing ..).fired hfired, hleaves.answered r .ok⟩
  all_goals rw [hans]; assumption

end

/-- Settles O25: a command reaches its axis, and the state and the profile of the axis decide what it does. -/
theorem axesAreCommanded : Obligations.AxesAreCommanded := by
  unfold Obligations.AxesAreCommanded
  refine ⟨fun t r a s => ?_, fun t a s => ?_⟩
  · intro b
    refine ⟨fun vm low hr => ⟨fun hv => ⟨does_axisEnable hr hv, fun hs hk => ?_⟩, fun hv => ?_⟩, fun hr hk => ?_, fun hs hv => ?_⟩
    · obtain ⟨c, hdoes, hc⟩ := axisEnable_ends hr hv hs hk
      exact ⟨c, hdoes, hc.state, hc.profile, hc.vel, hc.holding, hc.driven, hc.fired, hc.leaves⟩
    · exact does_of_run (f := fun b => b.orTask r (Obj.axisCommand a) 1 (axisTaskNo a 0)
        { Env.quiet with vm := List.replicate 2 vm.toNat, flt := if low then 3 else 0 }) rfl
        (orTask_axisEnable_hardware rfl rfl (by fin_cases a <;> rfl) (fault_bit a low) hr hv)
    · have haxes : (b.cleared r (axisTaskNo a 1)).axes = b.axes := axes_cleared ..
      have hkey : (b.cleared r (axisTaskNo a 1)).keystone.state = 0 := by rw [keystone_cleared]; exact hk
      have hrun := does_of_run (s := s) (t := t) (i := .axisDisable t r a .alone)
        (f := fun b => b.orTask r (Obj.axisCommand a) 2 (axisTaskNo a 1) Env.quiet) rfl (orTask_axisDisable hr)
      rw [axisDisable_eq hkey] at hrun
      refine ⟨fun hs hp => ?_, fun hs => ?_, fun hs => ?_⟩
      · rwa [axisOff_moving (haxes ▸ hs) (haxes ▸ hp)] at hrun
      · rwa [axisOff, haxes, show (s.b.at_ t).axes[a].state = _ from hs] at hrun
      · rwa [axisOff, haxes, show (s.b.at_ t).axes[a].state = _ from hs] at hrun
    · have hd := axisOffDone_disabled (a := a) hs hv
      exact ⟨_, does_of_run (f := fun b => b.axisOffDone a) rfl rfl, hd.state, hd.profile, hd.driven, hd.mA, hd.mB, hd.low, hd.fired, hd.leaves⟩
  · intro b brake
    have haxes (r : Option Route) (k : Nat) : (b.cleared r (axisTaskNo a k)).axes = b.axes := axes_cleared ..
    refine ⟨fun r target ha => ?_, fun target ha hv => ?_, fun r target ha => ?_, fun r speed ha => ?_, fun r hr hv => ?_, fun r hr hv hp => ?_,
      fun r ha hp => ?_, fun r hr hv hp => ?_, fun r hr hp hn hf hk => ?_⟩
    · exact does_of_run (f := fun b => b.orTask (some r) (Obj.axisMoveTo a) target.toNat (axisTaskNo a 4) (Env.pair .alone)) rfl (writeTo_moveTo ha _)
    · refine does_of_run (f := fun b => b.orTask none (Obj.axisMoveTo a) target.toNat (axisTaskNo a 4) Env.quiet) rfl
        (orTask_of_reaches (r := none) ha rfl nofun fun _ m => ?_)
      exact (taskDo_axis a 4 (by decide) ..).trans (taskOr_of_none hv)
    · exact does_of_run (f := fun b => b.orTask (some r) (Obj.axisMoveTo a) target.toNat (axisTaskNo a 4) (Env.pair .other)) rfl (writeTo_moveTo ha _)
    · exact does_of_run (f := fun b => b.writeTo (Obj.axisJog a) speed.toNat r (Env.pair .alone)) rfl (writeTo_jog ha)
    · exact does_of_run (f := fun b => b.orTask r (Obj.axisAction a) 1 (axisTaskNo a 5) Env.quiet) rfl (orTask_home hr hv)
    · have hrun := does_of_run (s := s) (t := t) (i := .halt t r a .alone)
        (f := fun b => b.orTask r (Obj.axisAction a) 2 (axisTaskNo a 2) Env.quiet) rfl (orTask_halt hr hv)
      rwa [brakeAxis_of_moving (haxes r 2 ▸ hp)] at hrun
    · refine does_of_run (f := fun b => b.orTask (some r) (Obj.axisAction a) 2 (axisTaskNo a 2) (Env.pair .other)) rfl (writeTo_of_accepts ha ?_)
      rw [writeDo_axisAction _ r (by decide)]
      exact congrArg (fun c : Block => some (c.reply r .ok))
        (show b.actionOf a (Env.pair .other) 2 = _ from brakeAxis_of_moving (b := b.bump (Obj.axisCoincidences a)) hp true)
    · have hrun := does_of_run (s := s) (t := t) (i := .quickStop t r a .alone)
        (f := fun b => b.orTask r (Obj.axisAction a) 3 (axisTaskNo a 3) Env.quiet) rfl (orTask_quickStop hr hv)
      rwa [brakeAxis_of_moving (haxes r 3 ▸ hp)] at hrun
    · have hrun := does_of_run (s := s) (t := t) (i := .clearMotionFault t r a false)
        (f := fun b => b.orTask r (Obj.axisAction a) 4 (axisTaskNo a 6) Env.quiet) rfl (orTask_clearMotion hr)
      have hx := haxes r 6
      rwa [clearFaults_switch (hx ▸ hp) (hx ▸ hn) (hx ▸ hf), keyRecover_of_ne (by rw [modAxis_keystone, keystone_cleared]; exact hk)] at hrun

end Sys2Proof

/-! # Motion of the axes (R268, R269, R271, R273 to R276) -/

namespace Sys2Proof.Machine.Block

section
variable {a : AxisId} {b : Block}

/-! ## What ends every command and the axes -/

/-- An axis but for its profile. -/
def Motion (a : AxisId) (p : Profile) (b : Block) : Axis := { b.axes[a] with profile := p }

/-- A change of the profiles leaves the motion of every axis. -/
theorem motion_modAxis_profile (a x : AxisId) (p : Profile) (q : Profile) : (b.modAxis a fun x => { x with profile := p }).Motion x q = b.Motion x q := by
  unfold Motion
  by_cases h : a = x
  · subst h
    rw [axes_modAxis_same]
  · exact congrArg (fun y : Axis => { y with profile := q }) (Vector.getElem_set_ne a.isLt x.isLt fun hv => h (Fin.ext hv))

theorem motion_of_axes {c : Block} (h : c.axes = b.axes) (x : AxisId) (q : Profile) : c.Motion x q = b.Motion x q := by rw [Motion, h, Motion]

theorem keyState_axes (a : AxisId) (s : Nat) (b : Block) : (b.keyState a s).axes = b.axes :=
  Vector.ext fun i hi => (keyState_leaves a s b).axes ⟨i, hi⟩ (by simp)

theorem motion_replan (a x : AxisId) (q : Profile) (b : Block) : (b.replan a).Motion x q = b.Motion x q := by
  unfold replan
  split
  · split
    · rfl
    · exact motion_of_axes (keyState_axes a 8 b) x q
  · dsimp only
    split
    · exact motion_modAxis_profile ..
    · rfl

theorem motion_keyPause (a x : AxisId) (r : Option Nat) (q : Profile) (b : Block) : (b.keyPause a r).Motion x q = b.Motion x q := by
  unfold keyPause
  extract_lets s c d e
  have hc : c.axes = b.axes := by
    unfold c
    split
    · split <;> rfl
    · rfl
  have he : e.Motion x q = b.Motion x q :=
    (motion_modAxis_profile ..).trans (motion_of_axes ((keyState_axes a 4 c).trans hc) x q)
  split
  · exact motion_of_axes hc x q
  · split
    · exact he
    · exact he

theorem motion_keyFollow (x : AxisId) (q : Profile) (b : Block) : b.keyFollow.Motion x q = b.Motion x q := by
  unfold keyFollow
  split
  · rfl
  · dsimp only
    split
    · unfold keyCap
      split
      · exact motion_keyPause ..
      · split
        · exact motion_replan ..
        · rfl
    · rfl

/-- What ends every command may give a paged axis a new profile, and leaves its motion. -/
theorem motion_finish (x : AxisId) (q : Profile) (b : Block) : b.finish.Motion x q = b.Motion x q := by
  have haxes : b.finish.axes = b.stateFollow.capFollow.keyFollow.axes := by simp [finish]
  exact (motion_of_axes haxes x q).trans ((motion_keyFollow ..).trans (motion_of_axes (by simp) x q))

theorem finish_axis_pos (x : AxisId) (b : Block) : b.finish.axes[x].pos = b.axes[x].pos := by
  have hm (c : Block) : c.axes[x].pos = (c.Motion x .rest).pos := rfl
  rw [hm, motion_finish, ← hm]

theorem finish_axis_count (x : AxisId) (b : Block) : b.finish.axes[x].count = b.axes[x].count := by
  have hm (c : Block) : c.axes[x].count = (c.Motion x .rest).count := rfl
  rw [hm, motion_finish, ← hm]

theorem finish_axis_faults (x : AxisId) (b : Block) : b.finish.axes[x].faults = b.axes[x].faults := by
  have hm (c : Block) : c.axes[x].faults = (c.Motion x .rest).faults := rfl
  rw [hm, motion_finish, ← hm]

theorem finish_axis_state (x : AxisId) (b : Block) : b.finish.axes[x].state = b.axes[x].state := by
  have hm (c : Block) : c.axes[x].state = (c.Motion x .rest).state := rfl
  rw [hm, motion_finish, ← hm]

theorem finish_axis_driven (x : AxisId) (b : Block) : b.finish.axes[x].driven = b.axes[x].driven := by
  have hm (c : Block) : c.axes[x].driven = (c.Motion x .rest).driven := rfl
  rw [hm, motion_finish, ← hm]


/-- Without a page it leaves the axes. -/
theorem finish_axes_of_idle (hs : b.keystone.state = 0) : b.finish.axes = b.axes := by
  have haxes : b.finish.axes = b.stateFollow.capFollow.keyFollow.axes := by simp [finish]
  have hk : (b.stateFollow.capFollow).keystone = b.keystone := by simp
  have hc : (b.stateFollow.capFollow).axes = b.axes := by simp
  rw [haxes, ← hc]
  generalize b.stateFollow.capFollow = c at hk
  have hs' : c.keystone.state = 0 := hk ▸ hs
  unfold keyFollow
  split
  · rfl
  · dsimp only
    split
    · unfold keyCap
      rw [if_neg (fun h => by simp [hs'] at h), if_neg (fun h => by simp [hs'] at h)]
      rfl
    · rfl
/-! ## The profile (R268, R271) -/

theorem raiseIf_axes (c : Bool) (n : Nat) (b : Block) : (b.raiseIf c n).axes = b.axes := by cases c <;> rfl

theorem stepEvents_axes (x : Axis) (ended atLimit far : Bool) : (b.stepEvents a x ended atLimit far).axes = b.axes := by
  unfold stepEvents
  extract_lets c failed d
  have hd : d.axes = b.axes := (raiseIf_axes ..).trans (raiseIf_axes ..)
  split
  · exact hd
  · exact hd

/-- Looking at the deviation leaves the motion of the axis. -/
theorem watchDeviation_axis : ∃ u, (b.watchDeviation a).axes[a] = { b.axes[a] with outsideSince := u } := ⟨_, axes_modAxis_same ..⟩

theorem watchDeviation_pos : (b.watchDeviation a).axes[a].pos = b.axes[a].pos := by
  obtain ⟨u, hu⟩ := watchDeviation_axis (a := a) (b := b)
  rw [hu]

/-- Where the axis stands inside its virtual limits it stays there (R271). -/
theorem heldInside_inside (hbind : b.limitsBind a = true) (hlo : (b.limitUnits a).1 ≤ b.axes[a].pos) (hhi : b.axes[a].pos ≤ (b.limitUnits a).2)
    (p v : Int) : (b.limitUnits a).1 ≤ (b.heldInside a p v).1 ∧ (b.heldInside a p v).1 ≤ (b.limitUnits a).2 := by
  unfold heldInside
  rw [hbind]
  simp only [Bool.not_true, Bool.false_eq_true, if_false]
  split
  · exact ⟨by omega, by omega⟩
  · split
    · exact ⟨by omega, by omega⟩
    · exact ⟨by omega, by omega⟩

/-- The axis after an update whose profile is no target. -/
theorem profileStep_pos (hs : b.axes[a].state = .running) (hp : ∀ t c, b.axes[a].profile ≠ .toTarget t c) :
    ∃ p v, (b.profileStep a).2.axes[a].pos = (b.heldInside a p v).1 := by
  unfold profileStep
  extract_lets x
  rw [if_neg fun h => h.1 hs]
  split; next v0 rate0 _ =>
  split; next v1 rate1 blocked _ =>
  split; next v rate near _ =>
  extract_lets vel
  refine ⟨x.pos + x.vel + vel, vel, ?_⟩
  split; next pos vel' held hheld =>
  extract_lets atLimit arrive pos' vel'' ended travel far profile y c
  have hc : c.axes[a] = y := axes_modAxis_same a (fun _ => y) b
  have harr : pos' = pos := by
    unfold pos'
    split
    · next h => exact absurd h (hp _ _)
    · rfl
  rw [hheld]
  show ((c.stepEvents a x ended atLimit far).watchDeviation a).axes[a].pos = pos
  rw [watchDeviation_pos, stepEvents_axes, hc]
  exact harr

theorem keyFault_axes : (b.keyFault a).axes = b.axes := by
  unfold keyFault
  extract_lets s c
  split
  · rfl
  · refine (keyState_axes a 8 c).trans ?_
    unfold c
    split
    · rfl
    · rfl

/-- An axis that moves by speed stays inside its virtual limits (R271). -/
theorem profileUpdate_inside (hs : b.axes[a].state = .running) (hp : ∀ t c, b.axes[a].profile ≠ .toTarget t c) (hbind : b.limitsBind a = true)
    (hlo : (b.limitUnits a).1 ≤ b.axes[a].pos) (hhi : b.axes[a].pos ≤ (b.limitUnits a).2) :
    (b.limitUnits a).1 ≤ (b.profileUpdate a).axes[a].pos ∧ (b.profileUpdate a).axes[a].pos ≤ (b.limitUnits a).2 := by
  obtain ⟨p, v, hpos⟩ := profileStep_pos hs hp
  have haxes : (b.profileUpdate a).axes = (b.profileStep a).2.axes := by
    unfold profileUpdate
    split; next hit c hc =>
    rw [hc]
    split
    · exact keyFault_axes
    · rfl
  rw [haxes, hpos]
  exact heldInside_inside hbind hlo hhi p v

/-- A braking axis after an update (R268, R269): it comes to rest, or goes on braking. -/
structure Braked (a : AxisId) (hard : Bool) (v : Int) (b c : Block) : Prop where
  vel : c.axes[a].vel = v
  pos : c.axes[a].pos = b.axes[a].pos + b.axes[a].vel + v
  leaves : Leaves [.axis a] [Obj.axisProfileState a] b c
  rests : v = 0 → c.axes[a].profile = .rest ∧ c.axes[a].restSince = b.now ∧ c.Fired (640 + 32 * a.val + 2)
  brakes : v ≠ 0 → c.axes[a].profile = .brake hard

theorem wanted_brake {hard : Bool} (hp : b.axes[a].profile = .brake hard) :
    b.wanted a = (0, if hard then b.reg (Obj.axisProfileStopDecel a) else b.reg (Obj.axisProfileAccel a)) := by
  simp only [wanted, hp]

theorem underSwitches_free (hlp : b.axes[a].limP = false) (hln : b.axes[a].limN = false) (rate : Nat) :
    b.underSwitches a 0 rate = (0, rate, false) := by
  simp only [underSwitches, hlp, hln]
  simp [clip]

theorem underLimits_free (hbind : b.limitsBind a = false) (v : Int) (rate : Nat) : b.underLimits a v rate = (v, rate, false) := by
  unfold underLimits
  exact if_pos (.inl (by rw [hbind]; rfl))

theorem heldInside_free (hbind : b.limitsBind a = false) (p v : Int) : b.heldInside a p v = (p, v, false) := by
  unfold heldInside
  exact if_pos (by rw [hbind]; rfl)

theorem stepEvents_brake {x : Axis} {hard : Bool} (hp : x.profile = .brake hard) (ended far : Bool) :
    b.stepEvents a x ended false far = b.raiseIf ended (640 + 32 * a.val + 2) := by
  simp only [stepEvents, hp]
  rfl

/-- What an update that meets no limit leaves of the pier, by the axis as it leaves it. -/
theorem watched_update (y : Axis) (n : Nat) (ended : Bool) :
    let c := (((b.modAxis a fun _ => y).setReg (Obj.axisProfileState a) n).raiseIf ended (640 + 32 * a.val + 2)).watchDeviation a
    (∃ u, c.axes[a] = { y with outsideSince := u }) ∧ Leaves [.axis a] [Obj.axisProfileState a] b c ∧
      (ended = true → c.Fired (640 + 32 * a.val + 2)) := by
  refine ⟨?_, ?_, fun he => ?_⟩
  · obtain ⟨u, hu⟩ := watchDeviation_axis (a := a) (b := ((b.modAxis a fun _ => y).setReg (Obj.axisProfileState a) n).raiseIf ended (640 + 32 * a.val + 2))
    refine ⟨u, hu.trans ?_⟩
    rw [raiseIf_axes, setReg_axes, axes_modAxis_same]
  · unfold watchDeviation
    exact ((((Leaves.refl [.axis a] [Obj.axisProfileState a] b).modAxis a _ (by simp)).setReg (Obj.axisProfileState a) _ (by simp)).raiseIf _ _).modAxis a _ (by simp)
  · rw [he]
    exact List.mem_append_right _ (List.mem_singleton_self _)

theorem profileUpdate_brake {hard : Bool} {rate : Nat} (hs : b.axes[a].state = .running) (hp : b.axes[a].profile = .brake hard)
    (hlp : b.axes[a].limP = false) (hln : b.axes[a].limN = false) (hbind : b.limitsBind a = false)
    (hrate : rate = if hard then b.reg (Obj.axisProfileStopDecel a) else b.reg (Obj.axisProfileAccel a)) :
    Braked a hard (clip 0 (b.axes[a].vel - rate) (b.axes[a].vel + rate)) b (b.profileUpdate a) := by
  have hrun : ¬ (b.axes[a].state ≠ .running ∧ b.axes[a].state ≠ .stopping) := fun h => h.1 hs
  simp only [profileUpdate, profileStep, if_neg hrun, wanted_brake hp, ← hrate, underSwitches_free hlp hln, underLimits_free hbind,
    heldInside_free hbind, hp, Bool.or_false, Bool.false_and, Bool.false_eq_true, if_false, stepEvents_brake hp]
  generalize clip 0 (b.axes[a].vel - rate) (b.axes[a].vel + rate) = v
  have hended : profileEnded (.brake hard) v false false = decide (v = 0) := rfl
  rw [hended]
  obtain ⟨⟨u, hu⟩, hl, hf⟩ := watched_update (a := a) (b := b) { b.axes[a] with
    pos := b.axes[a].pos + b.axes[a].vel + v, vel := v, from_ := b.axes[a].cmdUnits b.now, updatedAt := b.now,
    profile := if decide (v = 0) = true then .rest else .brake hard, holding := b.axes[a].holding && decide (v = 0),
    restSince := if decide (v = 0) = true then b.now else b.axes[a].restSince } _ (decide (v = 0))
  refine ⟨congrArg Axis.vel hu, congrArg Axis.pos hu, hl, fun hv => ?_, fun hv => ?_⟩
  · exact ⟨(congrArg Axis.profile hu).trans (if_pos (decide_eq_true hv)), (congrArg Axis.restSince hu).trans (if_pos (decide_eq_true hv)),
      hf (decide_eq_true hv)⟩
  · exact (congrArg Axis.profile hu).trans (if_neg fun h => hv (of_decide_eq_true h))

/-! ## The drive (R273 to R276) -/

theorem clip_bound {v m : Int} (hm : 0 ≤ m) : (clip v (-m) m).natAbs ≤ m.toNat := by
  unfold clip
  omega

/-- The modulation of a coil stays within ±1 (R273, R274). -/
theorem nextM_bound (strong changed : Bool) (i : Nat) (s uv : Int) (vm : Nat) {last : Int} (sum : Int) (hl : last.natAbs ≤ 2 ^ 24) :
    (b.nextM a strong changed i s uv vm last sum).1.natAbs ≤ 2 ^ 24 := by
  unfold nextM
  extract_lets kp e n
  split
  · split
    · exact hl
    · exact (clip_bound (by decide)).trans (by decide)
  · split
    · exact hl
    · exact clip_bound (by decide)

theorem dutyOf_le (m : Int) : dutyOf m ≤ 2500 := by
  unfold dutyOf clip
  omega

/-- A driven axis after a PWM period (R273 to R276). -/
structure Driven (a : AxisId) (strong : Bool) (dead : Nat) (b c : Block) : Prop where
  mA : c.axes[a].mA.natAbs ≤ 2 ^ 24
  mB : c.axes[a].mB.natAbs ≤ 2 ^ 24
  mode : c.reg (Obj.axisDriveInForce a) = if strong then 2 else 1
  pos : c.axes[a].pos = b.axes[a].pos
  vel : c.axes[a].vel = b.axes[a].vel
  faults : c.axes[a].faults = b.axes[a].faults
  duties : ∃ dA dB, Out.pwm a.val dA dB dead ∈ c.outs ∧ dA ≤ 2500 ∧ dB ≤ 2500
  leaves : Leaves [.axis a] [Obj.axisVm a, Obj.axisModeSwitches a, Obj.axisVsatPeriods a, Obj.axisDriveInForce a] b c

theorem drivePeriod_driven (isa isb : Int) (vm : Nat) (hA : b.axes[a].mA.natAbs ≤ 2 ^ 24) (hB : b.axes[a].mB.natAbs ≤ 2 ^ 24) :
    Driven a (b.wantStrong a) (b.reg (Obj.axisDriveDeadtime a)) b (b.drivePeriod a isa isb vm) := by
  unfold drivePeriod
  extract_lets x strong changed c i k sA sB sat d
  have hc : Leaves [.axis a] [Obj.axisVm a, Obj.axisModeSwitches a, Obj.axisVsatPeriods a, Obj.axisDriveInForce a] b c := by
    unfold c
    split
    · exact ((Leaves.refl _ _ b).bump _ (by simp)).raise _
    · exact .refl _ _ b
  have hcx : c.axes = b.axes := by
    unfold c
    split
    · rfl
    · rfl
  have hmA := nextM_bound (a := a) (b := c) strong changed i sA isa vm x.integralA hA
  have hmB := nextM_bound (a := a) (b := c) strong changed i sB isb vm x.integralB hB
  split; next mA nA hnA =>
  split; next mB nB hnB =>
  rw [hnA] at hmA
  rw [hnB] at hmB
  extract_lets e
  have hd : Leaves [.axis a] [Obj.axisVm a, Obj.axisModeSwitches a, Obj.axisVsatPeriods a, Obj.axisDriveInForce a] b d := by
    unfold d
    split
    · exact (hc.bump _ (by simp)).raise _
    · exact hc
  have hdx : d.axes = b.axes := by
    unfold d
    split
    · exact hcx
    · exact hcx
  have he : e.axes[a] = _ := axes_modAxis_same ..
  have hle : Leaves _ _ b e := hd.modAxis a _ (by simp)
  have hdead : e.reg (Obj.axisDriveDeadtime a) = b.reg (Obj.axisDriveDeadtime a) :=
    hle.reg _ fun x hx => by
      simp only [List.mem_cons, List.not_mem_nil, or_false] at hx
      rcases hx with rfl | rfl | rfl | rfl <;> simp only [Obj.key, Obj.axisDriveDeadtime, Obj.axisVm, Obj.axisModeSwitches, Obj.axisVsatPeriods, Obj.axisDriveInForce] <;> omega
  rw [hdead]
  refine ⟨?_, ?_, ?_, ?_, ?_, ?_, ⟨_, _, List.mem_append_right _ (List.mem_singleton_self _), dutyOf_le _, dutyOf_le _⟩, (hle.setReg _ _ (by simp)).emit _⟩
  · exact (congrArg Axis.mA he).symm ▸ hmA
  · exact (congrArg Axis.mB he).symm ▸ hmB
  · exact (reg_setReg_self ..).trans (show (if strong = true then 2 else 1) % 2 ^ 8 = _ by split <;> rfl)
  · exact (congrArg Axis.pos he).trans (by rw [hdx])
  · exact (congrArg Axis.vel he).trans (by rw [hdx])
  · exact (congrArg Axis.faults he).trans (by rw [hdx])

/-- An event that brings no motion fault and finds the page in no fault ends as it is. -/
theorem axisEvent_quiet {f : Block → Block} (hf : (f b).axes[a].faults = b.axes[a].faults) (hk : (f b).keystone.state ≠ 8) :
    b.axisEvent a f = f b := by
  have hnew : ¬((f b).axes[a].faults.any fun n => !b.axes[a].faults.contains n) = true := by
    rw [hf]
    simp only [List.any_eq_true, Bool.not_eq_true', List.contains_eq_mem, decide_eq_false_iff_not]
    exact fun ⟨n, hn, hno⟩ => hno hn
  exact (if_neg hnew).trans (keyRecover_of_ne hk)

theorem pwmPeriod_driven {isa isb : Int} {vmUv vm : Nat} (hvm : vmUv * b.reg (Obj.axisDriveVmRatio a) / 100000 = vm) (hd : b.axes[a].driven = true)
    (ha : isa.natAbs ≤ 98000) (hb : isb.natAbs ≤ 98000) (hlo : 8000 ≤ vm) (hhi : vm ≤ 60000) (hA : b.axes[a].mA.natAbs ≤ 2 ^ 24)
    (hB : b.axes[a].mB.natAbs ≤ 2 ^ 24) :
    Driven a (b.wantStrong a) (b.reg (Obj.axisDriveDeadtime a)) b (b.pwmPeriod a isa isb vmUv) := by
  have hreg (o : Obj) (ho : o.key ≠ (Obj.axisVm a).key) : (b.setReg (Obj.axisVm a) (min vm 65535)).reg o = b.reg o := reg_setReg_ne _ _ _ _ ho
  have hstrong : (b.setReg (Obj.axisVm a) (min vm 65535)).wantStrong a = b.wantStrong a := by
    unfold wantStrong
    rw [hreg _ (by simp only [Obj.key, Obj.axisDriveMode, Obj.axisVm]; omega), hreg _ (by simp only [Obj.key, Obj.axisDriveStrongSpeed, Obj.axisVm]; omega),
      hreg _ (by simp only [Obj.key, Obj.axisDriveModeHyst, Obj.axisVm]; omega)]
    rfl
  obtain ⟨hmA, hmB, hmode, hpos, hvel, hfaults, hduties, hleaves⟩ :=
    drivePeriod_driven (a := a) (b := b.setReg (Obj.axisVm a) (min vm 65535)) isa isb vm hA hB
  unfold pwmPeriod
  rw [hvm]
  extract_lets _ c
  have hdrive : ¬ (!c.axes[a].driven) = true := by
    rw [show c.axes[a].driven = true from hd]
    decide
  rw [if_neg hdrive, if_neg (by omega), if_neg (by omega), ← hstrong]
  rw [hreg _ (by simp only [Obj.key, Obj.axisDriveDeadtime, Obj.axisVm]; omega)] at hduties
  exact ⟨hmA, hmB, hmode, hpos, hvel, hfaults, hduties, ((Leaves.refl _ _ b).setReg _ _ (by simp)).trans hleaves⟩

theorem pwmPeriod_idle {isa isb : Int} {vmUv : Nat} (hd : b.axes[a].driven = false) :
    b.pwmPeriod a isa isb vmUv = b.setReg (Obj.axisVm a) (min (vmUv * b.reg (Obj.axisDriveVmRatio a) / 100000) 65535) := by
  unfold pwmPeriod
  refine if_pos ?_
  rw [show (b.setReg (Obj.axisVm a) _).axes[a].driven = false from hd]
  rfl

end

end Sys2Proof.Machine.Block

namespace Sys2Proof
open Machine Machine.Block

/-- Settles O26: a braking axis loses its rate, one by speed is held inside its limits, and every modulation is clipped. -/
theorem axesRun : Obligations.AxesRun := by
  unfold Obligations.AxesRun
  intro t a s b x
  refine ⟨fun hard hs hp hlp hln hbind => ?_, fun w hs hp hbind => ?_, fun hs => ?_, fun shuntA shuntB vmUv => ?_, fun hs hp hv hh hpass => ?_⟩
  · intro rate v
    obtain ⟨hvel, hpos, hleaves, hrests, hbrakes⟩ := profileUpdate_brake (b := b) (a := a) hs hp hlp hln hbind rfl
    exact ⟨_, does_of_run (f := fun b => b.profileUpdate a) rfl rfl, hvel, hpos, hleaves, hrests, hbrakes⟩
  · intro lim hlo hhi
    have hin := profileUpdate_inside (b := b) (a := a) hs (fun t c h => nomatch (show x.profile = _ from h).symm.trans hp) hbind hlo hhi
    exact ends_of_run (f := fun b => b.profileUpdate a) rfl (by rwa [← finish_axis_pos] at hin)
  · refine does_of_run (f := fun b => b.profileUpdate a) rfl ?_
    show b.profileUpdate a = b
    unfold profileUpdate profileStep
    extract_lets
    rw [if_pos ⟨by rw [show x.state = _ from hs]; decide, by rw [show x.state = _ from hs]; decide⟩]
    rfl
  · intro vm hk
    refine ⟨fun hd ha hb hlo hhi hA hB => ?_, fun hd => ?_⟩
    · obtain ⟨hmA, hmB, hmode, hpos, hvel, hfaults, hduties, hleaves⟩ := pwmPeriod_driven (b := b) (a := a) (vmUv := vmUv.toNat) rfl hd ha hb hlo hhi hA hB
      exact ⟨_, does_of_run (f := fun b => b.axisEvent a fun b => b.pwmPeriod a shuntA shuntB vmUv.toNat) rfl
        (axisEvent_quiet hfaults (by rw [hleaves.keystone (by simp)]; exact hk)), hmA, hmB, hmode, hpos, hvel, hduties, hleaves⟩
    · have hrun : b.pwmPeriod a shuntA shuntB vmUv.toNat = _ := pwmPeriod_idle hd
      refine does_of_run (f := fun b => b.axisEvent a fun b => b.pwmPeriod a shuntA shuntB vmUv.toNat) rfl
        ((axisEvent_quiet (f := fun b => b.pwmPeriod a shuntA shuntB vmUv.toNat) ?_ ?_).trans hrun)
      · rw [hrun]
        rfl
      · rw [hrun]
        exact hk
  · refine does_of_run (f := fun b => b.holdCurrent a) rfl (if_pos ?_)
    show (x.state == .running && x.profile == .rest && decide (x.vel = 0) && !x.holding && passed x.restSince (b.reg (Obj.axisDriveHoldDelay a) * tMs) t) = true
    rw [hs, hp, hv, hh, hpass]
    rfl

end Sys2Proof

/-! # Homing, limit switches and motion faults (R264 to R267, R272, R277 to R280, R286) -/

namespace Sys2Proof.Machine.Block

section
variable {a : AxisId} {b : Block}

/-- Without a page an event of an axis ends as it is. -/
theorem axisEvent_idle {f : Block → Block} (hk : (f b).keystone.state = 0) : b.axisEvent a f = f b := by
  unfold axisEvent
  extract_lets c
  split
  · exact keyFault_of_idle hk
  · exact keyRecover_of_ne (by rw [hk]; decide)

/-! ## The validity of the position (R266) -/

theorem isSet_iff {o : Obj} : b.isSet o = true ↔ b.reg o ≠ 0 := bne_iff_ne

theorem isSet_false_iff {o : Obj} : b.isSet o = false ↔ b.reg o = 0 := bne_eq_false_iff_eq

/-- Nothing but the heads of n may differ from b. -/
def OnlyHeads (b n : Block) : Prop := n = { b with heads := n.heads }

theorem OnlyHeads.refl (b : Block) : OnlyHeads b b := rfl

theorem OnlyHeads.modHead {n : Block} (w : OnlyHeads b n) (h : HeadId) (f : Head → Head) : OnlyHeads b (n.modHead h f) := by
  rw [OnlyHeads, Machine.Block.modHead]
  rw [w]

/-- A position that changes its validity: its register and its event, and the flags that the heads then owe. -/
theorem setValid_changed {v : Bool} (h : b.isSet (Obj.axisPositionValid a) ≠ v) :
    OnlyHeads ((b.setReg (Obj.axisPositionValid a) (if v then 1 else 0)).raise (640 + 32 * a.val + (if v then 9 else 10))) (b.setValid a v) := by
  unfold setValid
  rw [if_neg h]
  extract_lets c
  show OnlyHeads c _
  clear_value c
  cases v with
  | true => exact .refl c
  | false =>
    refine foldl_rel (r := OnlyHeads c) (fun n h hn => ?_) _ (.refl c)
    dsimp only
    split
    · exact hn.modHead ..
    · exact hn

/-- What a change of the validity leaves. -/
structure Revalued (a : AxisId) (v : Bool) (b c : Block) : Prop where
  valid : c.isSet (Obj.axisPositionValid a) = v
  axes : c.axes = b.axes
  keystone : c.keystone = b.keystone
  outs : ∀ o ∈ b.outs, o ∈ c.outs
  leaves : Leaves [.axis a, .head 0, .head 1, .head 2, .head 3] [Obj.axisPositionValid a] b c

theorem head_mem (h : HeadId) : Piece.head h ∈ [Piece.axis a, .head 0, .head 1, .head 2, .head 3] := by fin_cases h <;> simp

theorem setValid_revalued (a : AxisId) (v : Bool) (b : Block) : Revalued a v b (b.setValid a v) := by
  by_cases h : b.isSet (Obj.axisPositionValid a) = v
  · have hb : b.setValid a v = b := if_pos h
    rw [hb]
    exact ⟨h, rfl, rfl, fun _ => id, .refl _ _ b⟩
  · have ho := setValid_changed h
    have hl := (Leaves.refl [.axis a, .head 0, .head 1, .head 2, .head 3] [Obj.axisPositionValid a] b).setReg (Obj.axisPositionValid a)
      (if v then 1 else 0) (by simp)
    have hreg : (b.setReg (Obj.axisPositionValid a) (if v then 1 else 0)).isSet (Obj.axisPositionValid a) = v := by
      rw [isSet, reg_setReg_self]
      cases v <;> rfl
    rw [ho]
    exact ⟨hreg, rfl, rfl, fun _ => List.mem_append_left _, { hl with heads := fun g hg => absurd (head_mem g) hg }⟩

theorem setValid_true_leaves (a : AxisId) (b : Block) : Leaves [] [Obj.axisPositionValid a] b (b.setValid a true) := by
  unfold setValid
  split
  · exact .refl _ _ b
  · exact ((Leaves.refl [] [Obj.axisPositionValid a] b).setReg _ _ (by simp)).raise _

end

/-! ## Homing (R267) -/

/-- An edge whose count is moved by d. -/
def movedEdge (d : Int) (e : CountedEdge) : CountedEdge := { e with count := e.count + d }

/-- An axis whose every position is moved by d. -/
def moved (d : Int) (x : Axis) : Axis :=
  { x with count := x.count + d, edges := x.edges.map (movedEdge d), pos := x.pos + toUnits d, from_ := x.from_ + toUnits d }

theorem edgeFraction_moved (d : Int) (t : Time) (es : List CountedEdge) : edgeFraction (es.map (movedEdge d)) t = edgeFraction es t := by
  match es with
  | [] => rfl
  | [_] => rfl
  | _ :: _ :: _ => rfl

theorem edgesTo_moved (d : Int) (t : Time) (x : Axis) : (moved d x).edgesTo t = (x.edgesTo t).map (movedEdge d) := List.dropWhile_map ..

theorem encoderAt_moved (d : Int) (t : Time) (x : Axis) : (moved d x).encoderAt t = x.encoderAt t + d := by
  unfold Axis.encoderAt
  rw [edgesTo_moved]
  cases x.edgesTo t with
  | cons e es =>
    show (movedEdge d e).count + edgeFraction ((e :: es).map (movedEdge d)) t = _
    rw [edgeFraction_moved, movedEdge]
    dsimp only
    omega
  | nil =>
    rw [show (moved d x).edges = x.edges.map (movedEdge d) from rfl, List.getLast?_map]
    cases x.edges.getLast? with
    | none => rfl
    | some e =>
      show e.count + d - 256 * e.dir = e.count - 256 * e.dir + d
      omega

theorem command_moved (d : Int) (t : Time) (x : Axis) : (moved d x).command t = x.command t + d := by
  unfold Axis.command Axis.cmdUnits moved toUnits uCount
  generalize (min 200 ((timeDiff t x.updatedAt).toNat / 80) : Nat) = n
  dsimp only
  have hd : d * (2000000000000 : Nat) / 256 = d * 7812500000 := by omega
  rw [hd, show x.pos + d * 7812500000 - (x.from_ + d * 7812500000) = x.pos - x.from_ by omega]
  generalize (x.pos - x.from_) * n / 200 = m
  omega

section
variable {a : AxisId} {b : Block}

/-- The reference of a homing (R267): the axis brakes, and stands there at the position of the object. -/
structure Homed (a : AxisId) (b c : Block) : Prop where
  profile : c.axes[a].profile = .brake false
  valid : c.reg (Obj.axisPositionValid a) ≠ 0
  fired : c.Fired (640 + 32 * a.val + 3)
  position : c.positionAt a b.now = b.regI (Obj.axisHomePosition a)
  leaves : Leaves [.axis a] [Obj.axisPositionValid a] b c

theorem positionAt_moved {d : Int} {n : Block} {t : Time} (hx : ∃ p f, n.axes[a] = { moved d b.axes[a] with profile := p, faults := f })
    (hr : n.isSet (Obj.axisEncoderEnable a) = b.isSet (Obj.axisEncoderEnable a)) : n.positionAt a t = b.positionAt a t + d := by
  obtain ⟨p, f, hx⟩ := hx
  unfold positionAt
  rw [hr, hx]
  split
  · exact encoderAt_moved d t _
  · exact command_moved d t _

theorem homingFound_homed (hh : b.homing a = some (b.reg (Obj.axisHomeMethod a) == 2)) : Homed a b (b.homingFound a) := by
  unfold homingFound
  rw [if_neg (not_not.mpr hh)]
  extract_lets p d c
  have hcx : c.axes[a] = { moved d b.axes[a] with profile := .brake false, faults := b.axes[a].faults.filter (· != 2) } := axes_modAxis_same ..
  have hc : Leaves [.axis a] [Obj.axisPositionValid a] b c := (Leaves.refl _ _ b).modAxis a _ (by simp)
  have hv := setValid_revalued a true (c.raise (640 + 32 * a.val + 3))
  have hx : ((c.raise (640 + 32 * a.val + 3)).setValid a true).axes[a] = c.axes[a] := by rw [hv.axes]; rfl
  have hl : Leaves [.axis a] [Obj.axisPositionValid a] b ((c.raise (640 + 32 * a.val + 3)).setValid a true) :=
    (hc.raise _).of_part (setValid_true_leaves a _) (by simp) (by simp)
  refine ⟨?_, isSet_iff.mp hv.valid, hv.outs _ (List.mem_append_right _ (List.mem_singleton_self _)), ?_, hl⟩
  · rw [hx, hcx]
  · have henc : ((c.raise (640 + 32 * a.val + 3)).setValid a true).isSet (Obj.axisEncoderEnable a) = b.isSet (Obj.axisEncoderEnable a) := by
      unfold isSet
      rw [hl.reg _ (by simp only [List.mem_singleton, forall_eq, Obj.key, Obj.axisEncoderEnable, Obj.axisPositionValid]; omega)]
    rw [positionAt_moved (b := b) (d := d) ⟨_, _, hx.trans hcx⟩ henc]
    unfold d
    omega

/-! ## Limit switches (R272) -/

/-- A limit switch that became active (R272). -/
structure Limited (a : AxisId) (up : Bool) (b c : Block) : Prop where
  fault : 3 ∈ c.axes[a].faults
  switch : (if up then c.axes[a].limP else c.axes[a].limN) = true
  fired : c.Fired (640 + 32 * a.val + 6)
  leaves : Leaves [.axis a] [] b c

/-- The axis that has seen a limit switch become active. -/
def sawSwitch (up : Bool) (x : Axis) : Axis := if up then { x with limP := true } else { x with limN := true }

/-- The axis with a motion fault in force, the newest. -/
def withFault (code : Nat) (x : Axis) : Axis := { x with faults := code :: x.faults.filter (· != code) }

theorem addFault_eq (code : Nat) : b.addFault a code = b.modAxis a (withFault code) := rfl

/-- The pier that has seen a limit switch become active: the switch, its fault and its event. -/
def switchSeen (a : AxisId) (up : Bool) (b : Block) : Block := ((b.modAxis a (sawSwitch up)).addFault a 3).raise (640 + 32 * a.val + 6)

theorem switchSeen_axis (up : Bool) : ∃ p n f, (b.switchSeen a up).axes[a] = { b.axes[a] with limP := p, limN := n, faults := 3 :: f } ∧
    (if up then p else n) = true := by
  have h : (b.switchSeen a up).axes[a] = withFault 3 (sawSwitch up b.axes[a]) :=
    (axes_modAxis_same a (withFault 3) _).trans (congrArg (withFault 3) (axes_modAxis_same a (sawSwitch up) b))
  cases up with
  | true => exact ⟨true, b.axes[a].limN, b.axes[a].faults.filter (· != 3), h, rfl⟩
  | false => exact ⟨b.axes[a].limP, true, b.axes[a].faults.filter (· != 3), h, rfl⟩

theorem switchSeen_limited (up : Bool) : Limited a up b (b.switchSeen a up) := by
  obtain ⟨p, n, f, hx, hup⟩ := switchSeen_axis (a := a) (b := b) up
  refine ⟨?_, ?_, List.mem_append_right _ (List.mem_singleton_self _),
    (((Leaves.refl [.axis a] [] b).modAxis a (sawSwitch up) (by simp)).modAxis a (withFault 3) (by simp)).raise _⟩
  · rw [hx]
    exact List.mem_cons_self
  · rw [hx]
    exact hup

theorem Limited.steered {up : Bool} {c : Block} (w : Limited a up b c) (p : Profile) : Limited a up b (c.modAxis a fun x => { x with profile := p }) := by
  have hx : (c.modAxis a fun x => { x with profile := p }).axes[a] = _ := axes_modAxis_same ..
  refine ⟨?_, ?_, w.fired, w.leaves.modAxis a _ (by simp)⟩
  · rw [hx]
    exact w.fault
  · rw [hx]
    exact w.switch

theorem homing_none (h : b.homing a = none) (q : Bool) (n : Nat) : b.axes[a].profile ≠ .homing q n := by
  intro hp
  rw [homing, hp] at h
  nomatch h

/-- A carriage that does not home and moves toward the switch is braked; the others go on (R272). -/
theorem limitActive_limited {up : Bool} (hh : b.homing a = none) :
    Limited a up b (b.limitActive a up) ∧
    ((if up then 0 < b.axes[a].vel else b.axes[a].vel < 0) → b.axes[a].profile ≠ .rest → (b.limitActive a up).axes[a].profile = .brake true) := by
  obtain ⟨p, n, f, hx, _⟩ := switchSeen_axis (a := a) (b := b) up
  have hvel : (b.switchSeen a up).axes[a].vel = b.axes[a].vel := by rw [hx]
  have hprof : (b.switchSeen a up).axes[a].profile = b.axes[a].profile := by rw [hx]
  have hlim := switchSeen_limited (a := a) (b := b) up
  unfold limitActive
  extract_lets _ c ahead toward
  have hc : c = b.switchSeen a up := rfl
  clear_value c
  have htoward : toward = true ↔ if up then 0 < b.axes[a].vel else b.axes[a].vel < 0 := by
    unfold toward
    rw [hc, hvel]
    cases up <;> simp
  split
  · next q m hp => exact absurd (hprof ▸ hc ▸ hp) (homing_none hh q m)
  · split
    · next ht =>
      by_cases hp : c.axes[a].profile = .rest
      · rw [show c.brakeAxis a true = c from if_pos hp]
        exact ⟨hc ▸ hlim, fun _ hne => absurd (hprof.symm.trans (hc ▸ hp)) hne⟩
      · rw [brakeAxis_of_moving hp true]
        refine ⟨(hc ▸ hlim).steered _, fun _ _ => ?_⟩
        rw [axes_modAxis_same]
    · next ht => exact ⟨hc ▸ hlim, fun hv _ => absurd (htoward.mpr hv) ht⟩

/-- Homing method 2 turns at the switch ahead (R267). -/
theorem limitActive_turns {up : Bool} {n : Nat} (hp : b.axes[a].profile = .homing false n) (hm : b.reg (Obj.axisHomeMethod a) = 2)
    (ha : decide (0 < b.regI (Obj.axisHomeDirection a)) = up) :
    b.limitActive a up = (b.switchSeen a up).modAxis a fun x => { x with profile := .homing true n } := by
  obtain ⟨p, m, f, hx, _⟩ := switchSeen_axis (a := a) (b := b) up
  have hprof : (b.switchSeen a up).axes[a].profile = .homing false n := by rw [hx, hp]
  unfold limitActive
  extract_lets _ c ahead toward
  have hc : c = b.switchSeen a up := rfl
  have hahead : ahead = true := beq_iff_eq.mpr ha
  have hmethod : (c.reg (Obj.axisHomeMethod a) == 2) = true := beq_iff_eq.mpr hm
  rw [hahead, hmethod, hc, hprof]
  rfl

/-- The switch of a direction releases while the other is not active. -/
theorem limitRelease_eq {up : Bool} (hother : (if up then b.axes[a].limN else b.axes[a].limP) = false) :
    b.limitRelease a up =
      let c := b.modAxis a fun x => { x with limP := false, limN := false, faults := x.faults.filter (· != 3) }
      if c.homing a = some true ∧ (decide (0 < c.regI (Obj.axisHomeDirection a)) == up) = true then c.homingFound a else c := by
  unfold limitRelease
  extract_lets c d e
  have hcx : c.axes[a] = _ := axes_modAxis_same ..
  have hclear : (c.axes[a].limP || c.axes[a].limN) = false := by
    rw [hcx]
    cases up with
    | true => exact hother
    | false => exact (Bool.or_false _).trans hother
  have hd : d = e := by
    unfold d
    rw [hclear]
    show c.dropFault a 3 = e
    refine (modAxis_modAxis ..).trans (modAxis_congr a ?_)
    cases up with
    | true => exact congrArg (fun q => ({ b.axes[a] with limP := false, limN := q, faults := b.axes[a].faults.filter (· != 3) } : Axis)) hother
    | false => exact congrArg (fun q => ({ b.axes[a] with limP := q, limN := false, faults := b.axes[a].faults.filter (· != 3) } : Axis)) hother
  rw [hd]

end

end Sys2Proof.Machine.Block

/-! # Encoder and power stage (R264, R265, R277 to R280) -/

namespace Sys2Proof.Machine.Block

section
variable {a : AxisId} {b : Block}

/-- The pieces that a fault of the encoder or the deviation touches. -/
def faultParts (a : AxisId) : List Piece := [.axis a, .head 0, .head 1, .head 2, .head 3]

theorem regI_congr_regs {n : Block} (h : n.regs = b.regs) (o : Obj) : n.regI o = b.regI o := by
  unfold regI
  rw [reg_congr_regs h]

/-! ## Edges and errors (R264, R265) -/

/-- A hard brake after a change of the axis: only its profile may still change. -/
theorem brakeAxis_motion (hard : Bool) (q : Profile) : (b.brakeAxis a hard).Motion a q = b.Motion a q := by
  unfold brakeAxis
  split
  · rfl
  · exact motion_modAxis_profile ..

theorem brakeAxis_brakes {hard : Bool} (h : b.axes[a].profile ≠ .rest) : (b.brakeAxis a hard).axes[a].profile = .brake hard := by
  rw [brakeAxis_of_moving h, axes_modAxis_same]

theorem brakeAxis_leaves (hard : Bool) : Leaves [.axis a] [] b (b.brakeAxis a hard) := by
  unfold brakeAxis
  split
  · exact .refl _ _ b
  · exact (Leaves.refl [.axis a] [] b).modAxis a _ (by simp)

theorem brakeAxis_outs (hard : Bool) : (b.brakeAxis a hard).outs = b.outs := by
  unfold brakeAxis
  split
  · rfl
  · rfl

/-- A fault that takes the validity of the position and brakes the axis: what encoder errors and deviations share. `keep` is what the axis
notes of its validity, n its event and o its counter. -/
def trip (a : AxisId) (code : Nat) (keep : Bool) (n : Nat) (o : Obj) (b : Block) : Block :=
  (((((b.modAxis a fun x => { x with validBefore := keep }).addFault a code).setValid a false).raise n).bump o).brakeAxis a true

/-- What a trip leaves. -/
structure Tripped (a : AxisId) (code : Nat) (keep : Bool) (n : Nat) (o : Obj) (b c : Block) : Prop where
  fault : code ∈ c.axes[a].faults
  kept : c.axes[a].validBefore = keep
  count : c.axes[a].count = b.axes[a].count
  invalid : c.reg (Obj.axisPositionValid a) = 0
  fired : c.Fired n
  brakes : b.axes[a].profile ≠ .rest → c.axes[a].profile = .brake true
  leaves : Leaves (faultParts a) [Obj.axisPositionValid a, o] b c

theorem trip_tripped (code : Nat) (keep : Bool) (n : Nat) {o : Obj} (ho : (Obj.axisPositionValid a).key ≠ o.key) :
    Tripped a code keep n o b (b.trip a code keep n o) := by
  unfold trip
  generalize hc : (b.modAxis a fun x => { x with validBefore := keep }).addFault a code = c
  have hcx : c.axes[a] = withFault code { b.axes[a] with validBefore := keep } := hc ▸
    (axes_modAxis_same a (withFault code) _).trans (congrArg (withFault code) (axes_modAxis_same ..))
  have hcl : Leaves (faultParts a) [Obj.axisPositionValid a, o] b c := hc ▸
    ((Leaves.refl _ _ b).modAxis a _ (by simp [faultParts])).modAxis a (withFault code) (by simp [faultParts])
  obtain ⟨hvalid, haxes, -, -, hleaves⟩ := setValid_revalued a false c
  generalize hd : ((c.setValid a false).raise n).bump o = d
  have hdx : d.axes = c.axes := hd ▸ haxes
  have hm : (d.brakeAxis a true).Motion a .rest = { withFault code { b.axes[a] with validBefore := keep } with profile := .rest } := by
    rw [brakeAxis_motion, Motion, hdx, hcx]
  have hdr : d.reg (Obj.axisPositionValid a) = 0 := hd ▸ (reg_setReg_ne _ _ _ _ ho).trans (isSet_false_iff.mp hvalid)
  have hfired : d.Fired n := hd ▸ List.mem_append_right _ (List.mem_singleton_self _)
  have hdl : Leaves (faultParts a) [Obj.axisPositionValid a, o] b d := hd ▸
    ((hcl.of_part hleaves (by simp [faultParts]) (by simp)).raise n).bump o (by simp)
  refine ⟨?_, ?_, ?_, ?_, ?_, fun hp => brakeAxis_brakes ?_, hdl.of_part (brakeAxis_leaves true) (by simp [faultParts]) (by simp)⟩
  · rw [show (d.brakeAxis a true).axes[a].faults = ((d.brakeAxis a true).Motion a .rest).faults from rfl, hm]
    exact List.mem_cons_self
  · rw [show (d.brakeAxis a true).axes[a].validBefore = ((d.brakeAxis a true).Motion a .rest).validBefore from rfl, hm]
    rfl
  · rw [show (d.brakeAxis a true).axes[a].count = ((d.brakeAxis a true).Motion a .rest).count from rfl, hm]
    rfl
  · rw [(brakeAxis_leaves (b := d) (a := a) true).reg _ (by simp), hdr]
  · rw [Fired, brakeAxis_outs]
    exact hfired
  · rw [hdx, hcx]
    exact hp

theorem encoderError_trip (he : b.isSet (Obj.axisEncoderEnable a) = true) :
    b.encoderError a = b.trip a 2 false (640 + 32 * a.val + 8) (Obj.axisEncoderErrors a) := if_neg (by rw [he]; decide)

theorem watchDeviation_leaves : Leaves [.axis a] [] b (b.watchDeviation a) := by
  unfold watchDeviation
  exact (Leaves.refl [.axis a] [] b).modAxis a _ (by simp)

/-- An edge that the filter admits counts (R264, R265). -/
structure Counted (a : AxisId) (n : Int) (b c : Block) : Prop where
  count : c.axes[a].count = n
  stamp : (c.axes[a].edges.head?.map fun e => (e.at_, e.count)) = some (b.now, n)
  pos : c.axes[a].pos = b.axes[a].pos
  faults : c.axes[a].faults = b.axes[a].faults
  leaves : Leaves [.axis a] [Obj.axisSpeed a] b c

theorem encoderEdge_counted {up : Bool} (he : b.isSet (Obj.axisEncoderEnable a) = true) (hs : b.asleep = false)
    (hslow : (match b.axes[a].edges with | e :: _ => passed e.at_ (b.edgeMin a * tNs) b.now | [] => true) = true) :
    Counted a (b.axes[a].count + (if up = !b.isSet (Obj.axisEncoderInvert a) then 256 else -256)) b (b.encoderEdge a up) := by
  have hgo : ¬ (!b.isSet (Obj.axisEncoderEnable a) || b.asleep) = true := by
    rw [he, hs]
    decide
  unfold encoderEdge
  rw [if_neg hgo]
  extract_lets x fast d gap c
  have hfast : fast = false := by
    unfold fast x
    revert hslow
    cases b.axes[a].edges with
    | nil => exact fun _ => rfl
    | cons e es => exact fun h => by simpa using h
  have hd : 256 * d = if up = !b.isSet (Obj.axisEncoderInvert a) then 256 else -256 := by
    unfold d
    cases up <;> cases b.isSet (Obj.axisEncoderInvert a) <;> rfl
  have hcx : c.axes[a] = _ := axes_modAxis_same ..
  rw [hfast, ← hd, if_neg Bool.false_ne_true]
  have hw := watchDeviation_axis (a := a) (b := c.setRegI (Obj.axisSpeed a) (if gap ≤ 0 then 0 else d * (((tSec * uTick : Nat) : Int) / gap)))
  obtain ⟨u, hu⟩ := hw
  have hx := hu.trans (congrArg (fun x : Axis => { x with outsideSince := u }) hcx)
  refine ⟨congrArg Axis.count hx, ?_, (congrArg Axis.pos hx).trans rfl, (congrArg Axis.faults hx).trans rfl, ?_⟩
  · exact (congrArg (fun l : List CountedEdge => l.head?.map fun e => (e.at_, e.count)) (congrArg Axis.edges hx)).trans rfl
  · have hc : Leaves [.axis a] [Obj.axisSpeed a] b c := (Leaves.refl _ _ b).modAxis a _ (by simp)
    exact (hc.setRegI (Obj.axisSpeed a) _ (by simp)).of_part watchDeviation_leaves (by simp) (by simp)

theorem encoderEdge_fast {up : Bool} (he : b.isSet (Obj.axisEncoderEnable a) = true) (hs : b.asleep = false)
    (hfast : (match b.axes[a].edges with | e :: _ => passed e.at_ (b.edgeMin a * tNs) b.now | [] => true) = false) :
    b.encoderEdge a up = b.encoderError a := by
  have hgo : ¬ (!b.isSet (Obj.axisEncoderEnable a) || b.asleep) = true := by
    rw [he, hs]
    decide
  unfold encoderEdge
  rw [if_neg hgo]
  refine if_pos ?_
  revert hfast
  cases b.axes[a].edges with
  | nil => exact nofun
  | cons e es => exact fun h => by simpa using h

/-! ## Deviations (R278) -/

/-- A deviation that has passed (R278): the command stands at the position, and the coils turn to it. -/
structure Realigned (a : AxisId) (b c : Block) : Prop where
  cleared : 1 ∉ c.axes[a].faults
  pos : c.axes[a].pos = toUnits (b.positionAt a b.now)
  vel : c.axes[a].vel = 0
  profile : c.axes[a].profile = .rest
  align : c.axes[a].alignLeft = 256
  valid : c.isSet (Obj.axisPositionValid a) = (b.axes[a].validBefore || b.isSet (Obj.axisPositionValid a))
  leaves : Leaves [.axis a] [Obj.axisPositionValid a] b c

/-- A trip's end keeps the validity or gives it back, and so leaves every head. -/
theorem setValid_or_leaves (v : Bool) : Leaves [] [Obj.axisPositionValid a] b (b.setValid a (v || b.isSet (Obj.axisPositionValid a))) := by
  cases h : v || b.isSet (Obj.axisPositionValid a) with
  | true => exact setValid_true_leaves a b
  | false =>
    rw [show b.setValid a false = b from if_pos (Bool.or_eq_false_iff.mp h).2]
    exact .refl _ _ b

theorem deviationRealign_realigned (hs : (match b.axes[a].edges with | e :: _ => passed e.at_ tMs b.now | [] => true) = true)
    (hf : 1 ∈ b.axes[a].faults) : Realigned a b (b.deviationRealign a) := by
  unfold deviationRealign
  extract_lets x still old p c off
  have hgo : ¬ ((!x.faults.contains 1) = true ∨ (!still) = true) := by
    rw [show still = true from hs, List.contains_iff_mem.mpr hf]
    decide
  rw [if_neg hgo]
  have hcx : c.axes[a] = _ := axes_modAxis_same ..
  unfold tripEnd
  generalize hd : (c.modAxis a fun x => { x with alignFrom := off, alignLeft := 256 }) = d
  have hdx : d.axes[a] = { b.axes[a] with pos := p, from_ := p, vel := 0, profile := .rest, restSince := b.now, alignFrom := off, alignLeft := 256 } :=
    hd ▸ (axes_modAxis_same ..).trans (congrArg (fun x : Axis => { x with alignFrom := off, alignLeft := 256 }) hcx)
  have hdl : Leaves [.axis a] [Obj.axisPositionValid a] b d := hd ▸ ((Leaves.refl _ _ b).modAxis a _ (by simp)).modAxis a _ (by simp)
  have hdr : d.isSet (Obj.axisPositionValid a) = b.isSet (Obj.axisPositionValid a) := hd ▸ rfl
  extract_lets v
  generalize he : ((d.dropFault a 1).modAxis a fun x => { x with validBefore := false, outsideSince := none }) = e
  have hex : e.axes[a] = { d.axes[a] with faults := d.axes[a].faults.filter (· != 1), validBefore := false, outsideSince := none } :=
    he ▸ (axes_modAxis_same ..).trans (congrArg (fun x : Axis => { x with validBefore := false, outsideSince := none }) (axes_modAxis_same ..))
  have hel : Leaves [.axis a] [Obj.axisPositionValid a] b e := he ▸ (hdl.modAxis a _ (by simp)).modAxis a _ (by simp)
  have her : e.isSet (Obj.axisPositionValid a) = d.isSet (Obj.axisPositionValid a) := he ▸ rfl
  have hv := setValid_revalued a (v || d.isSet (Obj.axisPositionValid a)) e
  have hx : (e.setValid a (v || d.isSet (Obj.axisPositionValid a))).axes[a] = _ := (congrArg (·[a]) hv.axes).trans (hex.trans (by rw [hdx]))
  have hvalid : v = b.axes[a].validBefore := (show v = d.axes[a].validBefore from rfl).trans (by rw [hdx])
  refine ⟨?_, congrArg Axis.pos hx, congrArg Axis.vel hx, congrArg Axis.profile hx, congrArg Axis.alignLeft hx, ?_, ?_⟩
  · rw [congrArg Axis.faults hx]
    simp
  · rw [hv.valid, hvalid, hdr]
  · rw [← her]
    exact hel.of_part (setValid_or_leaves v) (by simp) (by simp)

theorem encoderError_tripped : Tripped a 2 false (640 + 32 * a.val + 8) (Obj.axisEncoderErrors a) b
    (b.trip a 2 false (640 + 32 * a.val + 8) (Obj.axisEncoderErrors a)) :=
  trip_tripped _ _ _ (by simp only [Obj.key, Obj.axisPositionValid, Obj.axisEncoderErrors]; omega)

theorem deviation_tripped : Tripped a 1 (b.isSet (Obj.axisPositionValid a)) (640 + 32 * a.val + 7) (Obj.axisDevTrips a) b
    (b.trip a 1 (b.isSet (Obj.axisPositionValid a)) (640 + 32 * a.val + 7) (Obj.axisDevTrips a)) :=
  trip_tripped _ _ _ (by simp only [Obj.key, Obj.axisPositionValid, Obj.axisDevTrips]; omega)

section
variable {u : Time} (hd : b.axes[a].driven = true) (he : b.isSet (Obj.axisEncoderEnable a) = true) (hu : b.axes[a].outsideSince = some u)
  (hpass : passed u (b.reg (Obj.axisDevTime a) * tUs) b.now = true) (hf : 1 ∉ b.axes[a].faults)
include hd he hu hpass hf

theorem deviationTrip_due (returned : Bool) : b.deviationTrip a returned =
    if returned then (b.modAxis a fun x => { x with outsideSince := none }).bump (Obj.axisNearMisses a)
    else if !b.outsideWindow a then b
    else b.trip a 1 (b.isSet (Obj.axisPositionValid a)) (640 + 32 * a.val + 7) (Obj.axisDevTrips a) := by
  unfold deviationTrip
  extract_lets x due
  have hdue : due = true := by
    unfold due x
    rw [hu]
    exact hpass
  have hgo : ¬ ((!x.driven) = true ∨ (!b.isSet (Obj.axisEncoderEnable a)) = true ∨ (!due) = true ∨ x.faults.contains 1 = true) := by
    rw [show x.driven = true from hd, he, hdue, List.contains_iff_mem]
    rintro (h | h | h | h)
    · exact Bool.false_ne_true h
    · exact Bool.false_ne_true h
    · exact Bool.false_ne_true h
    · exact hf h
  rw [if_neg hgo]
  rfl

theorem deviationTrip_trips (hout : b.outsideWindow a = true) : b.deviationTrip a false =
    b.trip a 1 (b.isSet (Obj.axisPositionValid a)) (640 + 32 * a.val + 7) (Obj.axisDevTrips a) := by
  rw [deviationTrip_due hd he hu hpass hf, hout]
  rfl

theorem deviationTrip_returns : b.deviationTrip a true = (b.modAxis a fun x => { x with outsideSince := none }).bump (Obj.axisNearMisses a) :=
  deviationTrip_due hd he hu hpass hf true

end

/-! ## The power stage (R277) -/

/-- A shunt past its bound fails the stage of a driven axis. -/
theorem pwmPeriod_over {isa isb : Int} {vmUv : Nat} (hd : b.axes[a].driven = true) (ho : 98000 < isa.natAbs ∨ 98000 < isb.natAbs) :
    b.pwmPeriod a isa isb vmUv =
      (b.setReg (Obj.axisVm a) (min (vmUv * b.reg (Obj.axisDriveVmRatio a) / 100000) 65535)).stageFault a 5 := by
  unfold pwmPeriod
  extract_lets vm c
  have hdrive : ¬ (!c.axes[a].driven) = true := by
    rw [show c.axes[a].driven = true from hd]
    decide
  rw [if_neg hdrive, if_pos ho]


/-- A power stage that has failed (R277): its fault is in force, and its outputs are low in state 4. -/
structure StageFailed (a : AxisId) (code : Nat) (b c : Block) : Prop where
  fault : code ∈ c.axes[a].faults
  state : c.axes[a].state = .faulted
  driven : c.axes[a].driven = false
  mA : c.axes[a].mA = 0
  mB : c.axes[a].mB = 0
  vel : c.axes[a].vel = 0
  low : Out.switchesLow a.val ∈ c.outs
  fired : c.Fired (640 + 32 * a.val + 11)
  leaves : Leaves [.axis a, .faults] [Obj.axisDriveInForce a, Obj.axisProfileState a] b c

theorem logFault_axes (k u d s : Nat) : (b.logFault k u d s).axes = b.axes := by
  unfold logFault
  split
  · rfl
  · rfl

theorem logFault_outs (k u d s : Nat) : (b.logFault k u d s).outs = b.outs := by
  unfold logFault
  split
  · rfl
  · rfl

/-- The axis as a failed stage leaves it, at t. -/
def stageFailed (code : Nat) (t : Time) (x : Axis) : Axis :=
  { withFault code x with
    pos := x.cmdUnits t, from_ := x.cmdUnits t, vel := 0, profile := .rest, restSince := t, state := .faulted, driven := false, mA := 0, mB := 0,
    holding := false, alignLeft := 0 }

theorem stageFault_failed {code : Nat} (hs : b.axes[a].state = .running ∨ b.axes[a].state = .stopping) : StageFailed a code b (b.stageFault a code) := by
  have hgo : ¬ (b.axes[a].state = .stopped ∨ b.axes[a].state = .faulted) := by
    rcases hs with h | h <;> rw [h] <;> decide
  unfold stageFault
  rw [if_neg hgo]
  extract_lets c
  have hc : c = ((b.modAxis a (stageFailed code b.now)).setReg (Obj.axisDriveInForce a) 0).emit (.switchesLow a.val) := by
    unfold c switchOff freezeCommand
    rw [addFault_eq, modAxis_modAxis, modAxis_modAxis, modAxis_modAxis]
    rfl
  generalize hd : (c.setReg (Obj.axisProfileState a) 0).raise (640 + 32 * a.val + 11) = d
  have hcx : c.axes[a] = stageFailed code b.now b.axes[a] := by
    rw [hc]
    exact axes_modAxis_same a (stageFailed code b.now) b
  have hcl : Leaves [.axis a, .faults] [Obj.axisDriveInForce a, Obj.axisProfileState a] b c := by
    rw [hc]
    exact (((Leaves.refl _ _ b).modAxis a _ (by simp)).setReg _ _ (by simp)).emit _
  have hcout : Out.switchesLow a.val ∈ c.outs := by
    rw [hc]
    exact List.mem_append_right _ (List.mem_singleton_self _)
  have hx (k u e s : Nat) : (d.logFault k u e s).axes[a] = stageFailed code b.now b.axes[a] := by
    rw [logFault_axes, ← hcx, ← hd]
    rfl
  have hdl : Leaves [.axis a, .faults] [Obj.axisDriveInForce a, Obj.axisProfileState a] b d := hd ▸ (hcl.setReg _ _ (by simp)).raise _
  refine ⟨?_, ?_, ?_, ?_, ?_, ?_, ?_, ?_, hdl.of_part (leaves_logFault ..) (by simp) (by simp)⟩
  · rw [hx]
    exact List.mem_cons_self
  iterate 5 · rw [hx]; rfl
  · rw [logFault_outs, ← hd]
    exact List.mem_append_left _ hcout
  · rw [Fired, logFault_outs, ← hd]
    exact List.mem_append_right _ (List.mem_singleton_self _)

end

end Sys2Proof.Machine.Block

namespace Sys2Proof
open Machine Machine.Block

section
variable {t : Time} {a : AxisId} {s : State}

/-- An event of an axis without a page does what its function does. -/
theorem does_axisEvent {i : Instr} {f : Block → Block} (hk : s.b.keystone.state = 0) {c : Block}
    (he : exec i s = run t (fun b => b.axisEvent a f) s) (hf : f (s.b.at_ t) = c) (hc : c.keystone = s.b.keystone) : Does i s c :=
  does_of_run (f := fun b => b.axisEvent a f) he ((axisEvent_idle (by rw [hf, hc]; exact hk)).trans hf)

theorem axisEvent_does {i : Instr} (f : Block → Block) {P : List Piece} {R : List Obj} (hk : s.b.keystone.state = 0)
    (he : exec i s = run t (fun b => b.axisEvent a f) s) (hl : Leaves P R (s.b.at_ t) (f (s.b.at_ t))) (hp : Piece.keystone ∉ P) :
    Does i s (f (s.b.at_ t)) :=
  does_axisEvent hk he rfl (hl.keystone hp)

theorem ends_of_does {i : Instr} {c : Block} {p : Block → Prop} (h : Does i s c) (hp : p c.finish) : Ends i s p := ⟨_, h, rfl, hp⟩

theorem finish_positionValid (b : Block) : b.finish.reg (Obj.axisPositionValid a) = b.reg (Obj.axisPositionValid a) :=
  finish_reg_index b _ (show (Obj.axisPositionValid a).sub < 256 by fin_cases a <;> decide) (by fin_cases a <;> decide)

theorem homingFound_does {i : Instr} {f : Block → Block} (hk : s.b.keystone.state = 0) {c : Block} (he : exec i s = run t (fun b => b.axisEvent a f) s)
    (hf : f (s.b.at_ t) = c.homingFound a) (hh : c.homing a = some (c.reg (Obj.axisHomeMethod a) == 2)) (hc : Leaves [.axis a] [] (s.b.at_ t) c)
    (hp : c.regs = s.b.regs) (hnow : c.now = t) :
    ∃ c, Does i s c ∧ c.axes[a].profile = .brake false ∧ c.reg (Obj.axisPositionValid a) ≠ 0 ∧ c.Fired (640 + 32 * a.val + 3) ∧
      c.positionAt a t = (s.b.at_ t).regI (Obj.axisHomePosition a) ∧ Leaves [.axis a] [Obj.axisPositionValid a] (s.b.at_ t) c := by
  obtain ⟨hprofile, hvalid, hfired, hposition, hleaves⟩ := homingFound_homed hh
  have hl : Leaves [.axis a] [Obj.axisPositionValid a] (s.b.at_ t) (c.homingFound a) :=
    ((Leaves.refl _ _ _).of_part hc (by simp) (by simp)).trans hleaves
  refine ⟨_, does_axisEvent hk he hf (hl.keystone (by simp)), hprofile, hvalid, hfired, ?_, hl⟩
  rw [← hnow, hposition]
  exact regI_congr_regs hp _

end

/-- Settles O27: each event of an axis sets its own fault and its own motion; nothing of a page stands in its way. -/
theorem limitsHomingAndFaults : Obligations.LimitsHomingAndFaults := by
  unfold Obligations.LimitsHomingAndFaults
  refine ⟨fun t a s => ?_, fun t a s hk => ?_⟩
  · intro b found
    refine ⟨fun hk hh => ?_, fun hh => ?_, fun up hk hh => ?_, fun up n hk hp hm hd => ?_, fun up hk hother => ?_⟩
    · exact homingFound_does hk (i := .homingReferenceFound t a) (f := fun b => b.homingFound a) rfl rfl hh (.refl _ _ b) rfl rfl
    · exact does_of_run (f := fun b => b.homingFailed a) rfl (if_neg hh)
    · obtain ⟨⟨hfault, hswitch, hfired, hleaves⟩, hbrake⟩ := limitActive_limited (up := up) hh
      exact ⟨_, axisEvent_does (i := .limitSwitchActive t a up) (fun b => b.limitActive a up) hk rfl hleaves (by simp), hfault,
        hswitch, hfired, hleaves, hbrake⟩
    · obtain ⟨hfault, hswitch, hfired, hleaves⟩ := (switchSeen_limited (a := a) (b := b) up).steered (.homing true n)
      refine ⟨_, does_axisEvent hk (i := .limitSwitchActive t a up) (f := fun b => b.limitActive a up) rfl (limitActive_turns hp hm hd)
        (hleaves.keystone (by simp)), ?_, hfault, hleaves⟩
      rw [axes_modAxis_same]
    · have hrel := limitRelease_eq (a := a) (b := b) (up := up) hother
      generalize hc : (b.modAxis a fun x => { x with limP := false, limN := false, faults := x.faults.filter (· != 3) }) = c at hrel
      have hhome : c.homing a = b.homing a := by
        rw [← hc, homing, axes_modAxis_same]
        rfl
      have hcl : Leaves [.axis a] [] b c := hc ▸ (Leaves.refl _ _ b).modAxis a _ (by simp)
      refine ⟨fun hh => ?_, fun hh hm hd => ?_⟩
      · exact does_axisEvent hk (i := .limitSwitchRelease t a up) (f := fun b => b.limitRelease a up) rfl
          (hrel.trans (if_neg fun h => hh (hhome ▸ h.1))) (hcl.keystone (by simp))
      · have hreg : c.regs = b.regs := hc ▸ rfl
        refine homingFound_does hk (i := .limitSwitchRelease t a up) (f := fun b => b.limitRelease a up) rfl (hrel.trans (if_pos ⟨hhome.trans hh, ?_⟩))
          ?_ hcl hreg (hc ▸ rfl)
        · rw [hhome, hh, reg_congr_regs hreg, hm]
          rfl
        · rw [regI_congr_regs hreg]
          exact beq_iff_eq.mpr hd
  · intro b x slow
    refine ⟨fun up he hsleep hslow => ?_, fun up he hsleep hfast => ?_, fun up h => ?_, fun cause he hcause => ?_, ?_,
      fun u hd he hu hpass hf => ⟨fun hout => ?_, ?_⟩, fun hstill hf => ?_, fun hs => ⟨fun code => ?_, fun shuntA shuntB vmUv hd hover => ?_⟩⟩
    · obtain ⟨hcount, hstamp, hpos, -, hleaves⟩ := encoderEdge_counted (up := up) he hsleep hslow
      exact ⟨_, axisEvent_does (i := .encoderEdge t a up) (fun b => b.encoderEdge a up) hk rfl hleaves (by simp), hcount, hstamp,
        hpos, hleaves⟩
    · have hrun : (s.b.at_ t).encoderEdge a up = _ := (encoderEdge_fast he hsleep hfast).trans (encoderError_trip he)
      obtain ⟨hfault, -, hcount, hinvalid, hfired, -, hleaves⟩ := encoderError_tripped (b := s.b.at_ t) (a := a)
      rw [← hrun] at hfault hcount hinvalid hfired hleaves
      refine ends_of_does (axisEvent_does (i := .encoderEdge t a up) (fun b => b.encoderEdge a up) hk rfl hleaves (by simp [faultParts])) ?_
      rw [finish_axis_faults, finish_axis_count, finish_positionValid]
      exact ⟨hfault, hcount, hinvalid, hfired.finish⟩
    · refine does_axisEvent hk (i := .encoderEdge t a up) (f := fun b => b.encoderEdge a up) rfl (if_pos ?_) rfl
      rcases h with h | h
      · rw [show (s.b.at_ t).isSet _ = false from h]
        rfl
      · rw [show (s.b.at_ t).asleep = true from h, Bool.or_true]
    · have hrun : (s.b.at_ t).encoderErrorBy a cause = _ := (if_neg fun h => hcause.elim (fun hc => hc (Fin.ext h.1)) fun hm => h.2 hm).trans
        (encoderError_trip he)
      obtain ⟨hfault, -, -, hinvalid, hfired, hbrakes, hleaves⟩ := encoderError_tripped (b := s.b.at_ t) (a := a)
      rw [← hrun] at hfault hinvalid hfired hbrakes hleaves
      exact ⟨_, axisEvent_does (i := .encoderError t ⟨a, cause⟩) (fun b => b.encoderErrorBy a cause) hk rfl hleaves (by simp [faultParts]), hfault,
        hinvalid, hfired, hbrakes, hleaves⟩
    · exact does_of_run (f := fun b => b.indexPulse a) rfl rfl
    · have hrun : (s.b.at_ t).deviationTrip a false = _ := deviationTrip_trips hd he hu hpass hf hout
      obtain ⟨hfault, hkept, -, hinvalid, hfired, hbrakes, hleaves⟩ := deviation_tripped (b := s.b.at_ t) (a := a)
      rw [← hrun] at hfault hkept hinvalid hfired hbrakes hleaves
      exact ⟨_, axisEvent_does (i := .deviationTrip t a false) (fun b => b.deviationTrip a false) hk rfl hleaves (by simp [faultParts]), hfault,
        hkept, hinvalid, hbrakes, hfired, hleaves⟩
    · exact does_axisEvent hk (i := .deviationTrip t a true) (f := fun b => b.deviationTrip a true) rfl (deviationTrip_returns hd he hu hpass hf) rfl
    · obtain ⟨hcleared, hpos, hvel, hprofile, halign, hvalid, hleaves⟩ := deviationRealign_realigned hstill hf
      exact ⟨_, axisEvent_does (i := .deviationRealign t a) (fun b => b.deviationRealign a) hk rfl hleaves (by simp), hcleared,
        hpos, hvel, hprofile, halign, hvalid, hleaves⟩
    · obtain ⟨hfault, hstate, hdriven, hmA, hmB, hvel, hlow, hfired, hleaves⟩ := stageFault_failed (code := 4 + code.val) hs
      exact ⟨_, axisEvent_does (i := .powerStageFault t a code) (fun b => b.stageFault a (4 + code.val)) hk rfl hleaves (by simp), hfault,
        hstate, hdriven, hmA, hmB, hvel, hlow, hfired, hleaves⟩
    · have hrun : (s.b.at_ t).pwmPeriod a shuntA shuntB vmUv.toNat = _ := pwmPeriod_over hd hover
      have hs' : ((s.b.at_ t).setReg (Obj.axisVm a) (min (vmUv.toNat * (s.b.at_ t).reg (Obj.axisDriveVmRatio a) / 100000) 65535)).axes[a].state = .running ∨ _ := hs
      obtain ⟨hfault, hstate, hdriven, -, -, -, -, -, hleaves⟩ := stageFault_failed (code := 5) hs'
      rw [← hrun] at hfault hstate hdriven hleaves
      refine ends_of_does (axisEvent_does (i := .pwmPeriod t a shuntA shuntB vmUv) (fun b => b.pwmPeriod a shuntA shuntB vmUv.toNat) hk rfl
        (((Leaves.refl [.axis a, .faults] [Obj.axisDriveInForce a, Obj.axisProfileState a, Obj.axisVm a] _).setReg _ _ (by simp)).of_part hleaves
          (by simp) (by simp)) (by simp)) ?_
      rw [finish_axis_faults, finish_axis_state, finish_axis_driven]
      exact ⟨hfault, hstate, hdriven⟩

end Sys2Proof

/-! # The position on the ring (R85 to R89, R281 to R283) -/

namespace Sys2Proof.Machine.Block

section
variable {b : Block}

theorem modHead_modHead (h : HeadId) (f g : Head → Head) (b : Block) : (b.modHead h f).modHead h g = b.modHead h fun x => g (f x) := by
  simp [modHead]

/-- A walk over the heads of which one alone acts. -/
theorem foldl_heads_only {f : Block → HeadId → Block} {same : Block → Prop} (h : HeadId) (hf : ∀ g c, g ≠ h → same c → f c g = c) (hb : same b)
    (hs : same (f b h)) : (List.finRange 4).foldl f b = f b h := by
  have hl : List.finRange 4 = [0, 1, 2, 3] := by decide
  rw [hl]
  simp only [List.foldl_cons, List.foldl_nil]
  have hcase : ∀ h : HeadId, h = 0 ∨ h = 1 ∨ h = 2 ∨ h = 3 := by decide
  obtain rfl | rfl | rfl | rfl := hcase h
  · rw [hf 1 _ (by decide) hs, hf 2 _ (by decide) hs, hf 3 _ (by decide) hs]
  · rw [hf 0 _ (by decide) hb, hf 2 _ (by decide) hs, hf 3 _ (by decide) hs]
  · rw [hf 0 _ (by decide) hb, hf 1 _ (by decide) hb, hf 3 _ (by decide) hs]
  · rw [hf 0 _ (by decide) hb, hf 1 _ (by decide) hb, hf 2 _ (by decide) hb]

/-! ## Claims (R281) -/

section
variable {a : AxisId} {r : Route} {crossing : Option PierId}

theorem writeTo_claim (ha : b.acceptsObj { Env.quiet with crossing := crossing } r (Obj.axisBroadcast a) 1 = true) :
    b.writeTo (Obj.axisBroadcast a) 1 r { Env.quiet with crossing := crossing } =
      (((b.setReg (Obj.axisBroadcast a) 1).setSourcePier (b.reg Obj.ringPierNumber)).sendRing (.claim true)).reply r .ok := by
  refine writeTo_of_accepts ha ?_
  rw [mod_u8 rfl (by decide), writeDo_axisObj _ r a 8 (by decide) rfl]
  refine congrArg (fun n => some (((b.setReg (Obj.axisBroadcast a) 1).setSourcePier n).sendRing (.claim true) |>.reply r .ok)) ?_
  exact reg_setReg_ne _ _ _ _ (by simp only [Obj.key, Obj.ringPierNumber, Obj.axisBroadcast]; omega)

theorem writeTo_withdraw (ha : b.acceptsObj { Env.quiet with crossing := crossing } r (Obj.axisBroadcast a) 0 = true)
    (hk : b.keystone.state = 0) (hs : b.reg (Obj.axisSourcePier 0) = b.reg Obj.ringPierNumber) :
    b.writeTo (Obj.axisBroadcast a) 0 r { Env.quiet with crossing := crossing } =
      (((b.setReg (Obj.axisBroadcast a) 0).setSourcePier 0xFF).sendRing (.claim false)).reply r .ok := by
  refine writeTo_of_accepts ha ?_
  have hdrop : b.pageDrop = b := by
    unfold pageDrop
    split
    · rfl
    · exact if_pos hk
  have hsource : (b.setReg (Obj.axisBroadcast a) 0).reg (Obj.axisSourcePier 0) = (b.setReg (Obj.axisBroadcast a) 0).reg Obj.ringPierNumber := by
    rw [reg_setReg_ne _ _ _ _ (by simp only [Obj.key, Obj.axisSourcePier, Obj.axisBroadcast]; omega),
      reg_setReg_ne _ _ _ _ (by simp only [Obj.key, Obj.ringPierNumber, Obj.axisBroadcast]; omega), hs]
  rw [mod_u8 rfl (by decide), writeDo_axisObj _ r a 8 (by decide) rfl]
  show some ((b.pageDrop.claim a false).reply r .ok) = _
  rw [hdrop]
  exact congrArg (fun c : Block => some (c.reply r .ok)) (if_pos hsource)

end

/-- What a claim sets. -/
theorem claim_regs (a : AxisId) (v n : Nat) : let c := (b.setReg (Obj.axisBroadcast a) v).setSourcePier n
    c.reg (Obj.axisBroadcast a) = v % 2 ^ 8 ∧ c.reg (Obj.axisSourcePier 0) = n % 2 ^ 8 ∧ c.reg (Obj.axisSourcePier 1) = n % 2 ^ 8 := by
  refine ⟨?_, ?_, reg_setReg_self ..⟩
  · refine (reg_setReg_ne _ _ _ _ ?_).trans ((reg_setReg_ne _ _ _ _ ?_).trans (reg_setReg_self ..))
    · simp only [Obj.key, Obj.axisSourcePier, Obj.axisBroadcast]; omega
    · simp only [Obj.key, Obj.axisSourcePier, Obj.axisBroadcast]; omega
  · refine (reg_setReg_ne _ _ _ _ ?_).trans (reg_setReg_self ..)
    decide

theorem finish_claimRegs (a : AxisId) (o : Obj) (ho : o ∈ [Obj.axisBroadcast a, Obj.axisSourcePier 0, Obj.axisSourcePier 1]) :
    b.finish.reg o = b.reg o := by
  refine finish_reg_index b o ?_ ?_ <;> revert o a <;> decide

/-! ## Crossings of other piers (R87) -/

theorem headCrossing_other {g : HeadId} (hg : b.reg (Obj.headTriggerSource g) ≠ 4) (k : Nat) (c : Time) (f : Nat) : b.headCrossing k c f g = b :=
  if_pos (.inl hg)

theorem receiveCrossing_one {h : HeadId} {k f : Nat} {c : Time} (hs : b.reg (Obj.headTriggerSource h) = 4) (hr : b.heads[h].state = .running)
    (ho : ∀ g : HeadId, g ≠ h → b.reg (Obj.headTriggerSource g) ≠ 4) (hd : due (later c (b.reg (Obj.headTriggerBroadcastDelay h))) b.now = false) :
    b.receiveCrossing k c f = b.modHead h fun x => { x with
      crossIndex := max x.crossIndex (k + 1), owed := x.owed ++ [⟨some k, later c (b.reg (Obj.headTriggerBroadcastDelay h)), f, none⟩] } := by
  have hone : b.headCrossing k c f h = b.modHead h fun x => { x with
      crossIndex := max x.crossIndex (k + 1), owed := x.owed ++ [⟨some k, later c (b.reg (Obj.headTriggerBroadcastDelay h)), f, none⟩] } := by
    have hgo : ¬(b.reg (Obj.headTriggerSource h) ≠ 4 ∨ b.heads[h].state ≠ .running) := fun h' => h'.elim (· hs) (· hr)
    unfold headCrossing
    rw [if_neg hgo]
    extract_lets d at_
    rw [if_pos (show (!due at_ d.now) = true by rw [show due at_ d.now = false from hd]; rfl)]
    exact modHead_modHead ..
  refine (foldl_heads_only (same := fun c => c.regs = b.regs) h (fun g c hg hc => headCrossing_other ?_ ..) rfl ?_).trans hone
  · rw [reg_congr_regs hc]
    exact ho g hg
  · rw [hone]
    rfl

/-! ## Latched positions (R89) -/

/-- A line that waited for the position at this instant takes it. -/
def latchLine (t : Time) (p : Int) (l : Line) : Line :=
  if l.waitsPosition && l.common == some t then { l with position := p, waitsPosition := false } else l

theorem latchLine_eq (t : Time) (p : Int) (l : Line) : latchLine t p l =
    if l.waitsPosition = true ∧ l.common = some t then { l with position := p, waitsPosition := false } else l := by
  simp only [latchLine, Bool.and_eq_true, beq_iff_eq]

/-- The lines of a head, in flight and queued, take a latched position. -/
def latchHead (t : Time) (p : Int) (x : Head) : Head :=
  { x with lines := x.lines.map (latchLine t p), queue := x.queue.map fun q => { q with line := latchLine t p q.line } }

theorem latchHead_heads (t : Time) (p : Int) (g h : HeadId) (c : Block) :
    ((c.modHead g (latchHead t p)).stitchLatched g t p).heads[h] = if g = h then latchHead t p c.heads[h] else c.heads[h] := by
  have hs : ((c.modHead g (latchHead t p)).stitchLatched g t p).heads = (c.modHead g (latchHead t p)).heads := rfl
  rw [hs]
  split
  · next he =>
    subst he
    exact heads_modHead_same ..
  · next hne => exact Vector.getElem_set_ne g.isLt h.isLt fun hv => hne (Fin.ext hv)

/-- A latched position reaches every head (R89). -/
theorem positionLatched_heads (t : Time) (p : Int) (h : HeadId) (b : Block) : (b.positionLatched t p).heads[h] = latchHead t p b.heads[h] := by
  have hstep : b.positionLatched t p = (List.finRange 4).foldl (fun c g => (c.modHead g (latchHead t p)).stitchLatched g t p) b := rfl
  have hl : List.finRange 4 = [0, 1, 2, 3] := by decide
  rw [hstep, hl]
  simp only [List.foldl_cons, List.foldl_nil, latchHead_heads]
  have hcase : ∀ h : HeadId, h = 0 ∨ h = 1 ∨ h = 2 ∨ h = 3 := by decide
  obtain rfl | rfl | rfl | rfl := hcase h <;> rfl

theorem positionLatched_mem (t : Time) (p : Int) (b : Block) : (b.positionLatched t p).mem = b.mem :=
  foldl_rel (r := fun c : Block => c.mem = b.mem) (f := fun c g => (c.modHead g (latchHead t p)).stitchLatched g t p) (fun _ _ hc => hc) _ rfl

end

end Sys2Proof.Machine.Block

namespace Sys2Proof
open Machine Machine.Block

/-- Settles O28: a claim sets its registers and tells the ring, and crossings and latches reach the heads that wait for them. -/
theorem positionOnTheRing : Obligations.PositionOnTheRing := by
  unfold Obligations.PositionOnTheRing
  intro t a s b me
  refine ⟨fun r crossing ha => ?_, fun r crossing ha hk hs => ?_, fun hown => ?_, fun h k instant flags hs hr ho => ?_, fun exposure position => ?_,
    fun page meet hscan hvalid he => ?_⟩
  · have hdoes : Does (.broadcastClaim t r a true crossing) s _ :=
      does_of_run (f := fun b => b.writeTo (Obj.axisBroadcast a) 1 r { Env.quiet with crossing := crossing }) rfl (writeTo_claim ha)
    refine ⟨hdoes, ends_of_does hdoes ?_⟩
    obtain ⟨hclaim, hp0, hp1⟩ := claim_regs (b := b) a 1 me
    rw [finish_claimRegs a _ (by simp), finish_claimRegs a (Obj.axisSourcePier 0) (by simp), finish_claimRegs a (Obj.axisSourcePier 1) (by simp),
      reply_reg, reply_reg, reply_reg]
    refine ⟨hclaim, hp0, hp1, ?_, ?_, fun hk => ?_⟩
    · refine finish_outs _ _ ?_
      rw [reply_outs]
      exact List.mem_append_left _ (List.mem_append_right _ (List.mem_singleton_self _))
    · exact finish_outs _ _ (reply_answered ..)
    · have hkey (c : Block) : (c.reply r .ok).keystone = c.keystone := (leaves_reply r .ok c).keystone (by simp)
      have haxes (c : Block) : (c.reply r .ok).axes = c.axes := by cases r <;> rfl
      rw [finish_axes_of_idle (by rw [hkey]; exact hk), haxes]
      rfl
  · exact does_of_run (f := fun b => b.writeTo (Obj.axisBroadcast a) 0 r { Env.quiet with crossing := crossing }) rfl (writeTo_withdraw ha hk hs)
  · refine does_of_run (f := fun b => b.positionBroadcast) rfl ?_
    show b.positionBroadcast = _
    unfold positionBroadcast
    rw [hown]
    rfl
  · intro at_ hd
    exact does_of_run (f := fun b => b.receiveCrossing k.toNat instant flags.toNat) rfl (receiveCrossing_one hs hr ho hd)
  · have he : exec (.positionLatchReceived t exposure position) s = run t (fun b => b.positionLatched exposure position.toInt) s := rfl
    refine ends_of_run he ?_
    simp only [finish_heads, finish_mem, positionLatched_heads, positionLatched_mem]
    refine ⟨rfl, fun h => ⟨rfl, List.length_map ..⟩, fun h i l hl => ?_⟩
    show (s.b.heads[h].lines.map (latchLine exposure position.toInt))[i]? = _
    rw [List.getElem?_map, hl, Option.map_some, latchLine_eq]
  · refine does_of_run (f := fun b => b.encoderCrossing a page meet) rfl (if_neg ?_)
    rw [show (s.b.at_ t).scan = _ from hscan, show (s.b.at_ t).isSet (Obj.axisPositionValid a) = _ from hvalid,
      show (s.b.at_ t).isSet (Obj.axisEncoderEnable a) = _ from he]
    decide

end Sys2Proof

/-! # Illumination (R290 to R304) -/

namespace Sys2Proof.Machine

/-! ## Lamp currents (R290, R291) -/

/-- Nothing rounds to nothing. -/
theorem lampCurrent_zero {cmd cap d trim : Nat} (h : d = 0 ∨ trim = 0) : lampCurrent cmd cap d trim = 0 := by
  have hz : min cmd cap * d * trim = 0 := by
    rcases h with rfl | rfl
    · rw [Nat.mul_zero, Nat.zero_mul]
    · rw [Nat.mul_zero]
  rw [lampCurrent, hz]
  rfl

theorem lampCurrent_le {cmd cap d trim : Nat} (hd : d ≤ 65536) (ht : trim ≤ 32768) : lampCurrent cmd cap d trim ≤ min cmd cap := by
  have hp : min cmd cap * d * trim ≤ min cmd cap * (65536 * 32768) := by
    rw [Nat.mul_assoc]
    exact Nat.mul_le_mul_left _ (Nat.mul_le_mul hd ht)
  unfold lampCurrent divHalfUp
  omega

theorem lampCurrent_full {cmd cap : Nat} (hc : cmd ≤ cap) (hm : cmd ≤ 3200) : lampCurrent cmd cap 65536 32768 = cmd := by
  unfold lampCurrent divHalfUp
  rw [Nat.min_eq_left hc]
  omega

namespace Block

section
variable {h : HeadId} {b : Block}

/-! ## Requests (R294, R298) -/

theorem orTask_seqRestart {r : Option Route} (hr : b.reaches r (Obj.headIllumSeqRestart h) 1 (headTaskNo h 18) Env.quiet) :
    b.orTask r (Obj.headIllumSeqRestart h) 1 (headTaskNo h 18) Env.quiet =
      ((b.cleared r (headTaskNo h 18)).illumRestart h false).answered r .ok := by
  refine orTask_answered hr rfl (f := fun b => b.illumRestart h false) (fun x _ => ?_) fun _ _ => ?_
  · rw [writeDo_headObj Env.quiet x h 0x201 (by decide) rfl, mod_u8 rfl (by decide)]
    rfl
  · exact taskDo_head h 18 (by decide) ..

/-! ## The boost (R300) -/

/-- With every row measured and short of its pulses the precharge stays. -/
theorem prechargeStep_measured (hl : b.illumLevel h ≠ 1) (hk : ∀ k : Fin 4, b.illum[h].rowMeasured[k] = true ∧ b.illum[h].rowPulses[k] < 256) :
    b.prechargeStep h = b := by
  unfold prechargeStep
  rw [if_neg hl]
  refine foldl_rel (r := fun c : Block => c = b) (fun c k hc => ?_) _ rfl
  obtain ⟨hm, hp⟩ := hk k
  subst hc
  dsimp only
  rw [if_neg (Nat.not_le.mpr hp), if_pos hm]

/-- A step of the boost's voltage, after 256 pulses at the basic level. -/
theorem boostAdapt_step {m : Int} {v' : Nat} (hp : 256 ≤ b.illum[h].pulses) (hl : b.illumLevel h = 0)
    (hk : ∀ k : Fin 4, b.illum[h].rowMeasured[k] = true ∧ b.illum[h].rowPulses[k] < 256) (hm : b.illum[h].headroom = some m)
    (hv : (if m < (b.reg (Obj.headIllumBoostHeadroom h) : Int) - 100 then b.reg (Obj.headIllumBoostVSet h) + 250
      else if (b.reg (Obj.headIllumBoostHeadroom h) : Int) + 300 < m then b.reg (Obj.headIllumBoostVSet h) - 100
      else b.reg (Obj.headIllumBoostVSet h)) = v')
    (hs : (decide (m < (b.reg (Obj.headIllumBoostHeadroom h) : Int) - 100) &&
      b.reg (Obj.headIllumBoostVSet h) == b.reg (Obj.headIllumBoostVMax h)) = false) :
    b.boostAdapt h = (b.setReg (Obj.headIllumBoostVSet h) (min (b.reg (Obj.headIllumBoostVMax h)) (max 5000 v'))).modIllum h fun x =>
      { x with pulses := 0, headroom := none } := by
  have hstep : b.boostStep h = b.setReg (Obj.headIllumBoostVSet h) (min (b.reg (Obj.headIllumBoostVMax h)) (max 5000 v')) := by
    unfold boostStep
    rw [hm]
    dsimp only
    rw [hv, hs, if_neg (by rw [hl]; decide)]
    rfl
  have hlevel (n : Nat) : (b.setReg (Obj.headIllumBoostVSet h) n).illumLevel h = 0 := by
    rw [← hl]
    unfold illumLevel levelInForce feature
    rw [reg_setReg_ne _ _ _ _ (by simp only [Obj.key, Obj.deviceFeaturesConfirmedLo, Obj.headIllumBoostVSet]; omega),
      reg_setReg_ne _ _ _ _ (by simp only [Obj.key, Obj.headIllumLevel, Obj.headIllumBoostVSet]; omega)]
  unfold boostAdapt
  rw [if_neg (Nat.not_lt.mpr hp), hstep]
  refine congrArg (fun c : Block => c.modIllum h _) (prechargeStep_measured ?_ hk)
  rw [hlevel]
  decide

end

end Block
end Sys2Proof.Machine

namespace Sys2Proof
open Machine Machine.Block

/-- Settles O30: each command acts on the illumination of its head, and a lamp's current is a rounded share of a bounded command. -/
theorem illuminationAndLamps : Obligations.IlluminationAndLamps := by
  unfold Obligations.IlluminationAndLamps
  refine ⟨fun t h s => ?_, fun cmd cap d trim => ⟨Nat.min_le_left .., lampCurrent_zero, lampCurrent_le, lampCurrent_full⟩⟩
  intro b
  refine ⟨fun r hr => ?_, fun ha => ?_, fun ha => ?_, fun hoff => ?_, fun hp => ?_, fun hp hl hk m hm => ?_, fun u hu hlate hdue => ?_⟩
  · exact does_of_run (f := fun b => b.orTask r (Obj.headIllumSeqRestart h) 1 (headTaskNo h 18) Env.quiet) rfl (orTask_seqRestart hr)
  · exact does_of_run (f := fun b => b.sampled (headTaskNo h 16) Env.quiet []) rfl
      ((sampled_alone _ _ _ _ rfl ha).trans (taskDo_head h 16 (by decide) ..))
  · exact does_of_run (f := fun b => b.sampled (headTaskNo h 17) Env.quiet []) rfl
      ((sampled_alone _ _ _ _ rfl ha).trans (taskDo_head h 17 (by decide) ..))
  · exact does_of_run (f := fun b => b.boostOver h) rfl (if_neg (by rw [show (s.b.at_ t).illum[h].boostOff = false from hoff]; decide))
  · exact does_of_run (f := fun b => b.boostAdapt h) rfl (if_pos hp)
  · intro v top want
    refine ⟨fun hlow hv => ?_, fun hhigh => ?_⟩
    · refine does_of_run (f := fun b => b.boostAdapt h) rfl (boostAdapt_step hp hl hk hm (if_pos hlow) ?_)
      rw [beq_false_of_ne (Nat.ne_of_lt hv), Bool.and_false]
    · have hno : ¬ m < (want : Int) - 100 := by omega
      refine does_of_run (f := fun b => b.boostAdapt h) rfl (boostAdapt_step hp hl hk hm ((if_neg hno).trans (if_pos hhigh)) ?_)
      rw [decide_eq_false hno, Bool.false_and]
  · refine does_of_run (f := fun b => b.frameComplete h) rfl ?_
    show b.frameComplete h = _
    unfold frameComplete
    rw [hu]
    exact if_pos (by rw [hlate, show due u b.now = true from hdue]; rfl)

end Sys2Proof

/-! # Excitation, wires and clamps of the auxiliary front end (R315, R316, R321 to R324, R349) -/

namespace Sys2Proof.Machine.Block

section
variable {b : Block} {n : AuxId}

theorem sampled_pier {k : Nat} {f : Block → Block} (ha : b.taskAlive k = true)
    (hf : ∀ m st, (b.unlatch k).taskDo k st { Env.quiet with merged := m } [] = f (b.unlatch k)) :
    b.sampled k Env.quiet [] = f (b.unlatch k) := (sampled_alone k Env.quiet [] b rfl ha).trans (hf ..)

/-! ## Excitation (R315) -/

/-- A switch of the excitation leaves the pier but for the outputs. -/
theorem exciting_aux (f : Block → Block) : (b.exciting f).aux = (f b).aux ∧ (b.exciting f).excitationNow = (f b).excitationNow ∧
    ((f b).excitationNow ≠ b.excitationNow → Out.excitation (f b).excitationNow ∈ (b.exciting f).outs) ∧
    ∀ P R, Leaves P R b (f b) → Leaves P R b (b.exciting f) := by
  unfold exciting
  extract_lets c
  split
  · next he => exact ⟨rfl, rfl, fun h => absurd he h, fun _ _ w => w⟩
  · exact ⟨rfl, rfl, fun _ => List.mem_append_right _ (List.mem_singleton_self _), fun _ _ w => w.emit _⟩

theorem excitationNow_held (h : b.aux.excOff = true) : b.excitationNow = [] := by
  have hno (n : AuxId) : b.excited n = false := by
    unfold excited
    rw [h, Bool.not_true, Bool.and_false, Bool.false_and]
  unfold excitationNow
  rw [List.map_eq_nil_iff, List.filter_eq_nil_iff]
  exact fun n _ => by rw [hno]; decide

/-! ## Clamps (R321, R322) -/

/-- A clamp that engaged (R321): its flag, its status bit and its event. -/
structure Clamped (n : AuxId) (high : Bool) (b c : Block) : Prop where
  clamp : c.aux.channels[n].clamp = .engaged high
  flag : c.reg (Obj.auxClampFlag n) = 1
  status : c.reg (Obj.auxStatus n) = (b.reg (Obj.auxStatus n) ||| 2 ||| 1) % 256
  fired : c.Fired (592 + n.val)
  leaves : Leaves [.aux] [Obj.auxClampFlag n, Obj.auxClampEvents n, Obj.auxStatus n] b c
  other : ∀ k : AuxId, k ≠ n → c.aux.channels[k] = b.aux.channels[k]

theorem statusSet_reg_self (n : AuxId) (m : Nat) (b : Block) :
    (b.statusSet n m).reg (Obj.auxStatus n) = (b.reg (Obj.auxStatus n) ||| m ||| 1) % 256 := by
  unfold statusSet
  rw [reg_setReg_self, show 2 ^ (Obj.auxStatus n).ty.bits = 256 from rfl]

theorem statusSet_reg_other (m : Nat) {o : Obj} (ho : o.key ≠ (Obj.auxStatus n).key) (b : Block) : (b.statusSet n m).reg o = b.reg o :=
  reg_setReg_ne _ _ _ _ ho

/-- The pier once the clamp of a channel has engaged. -/
def engaged (n : AuxId) (high : Bool) (b : Block) : Block :=
  ((((b.modChannel n fun c => { c with clamp := .engaged high }).setReg (Obj.auxClampFlag n) 1).bump (Obj.auxClampEvents n)).statusSet n 2).raise
    (592 + n.val)

theorem clampEngage_eq (high : Bool) (h : ∀ k : Bool, b.aux.channels[n].clamp ≠ .engaged k) : b.clampEngage n high = b.engaged n high := by
  unfold clampEngage
  split
  · next k hk => exact absurd hk (h k)
  · rfl

theorem engaged_clamped (n : AuxId) (high : Bool) (b : Block) : Clamped n high b (b.engaged n high) := by
  unfold engaged
  have hstatus (c : Block) (o : Obj) (v : Nat) (ho : o ∈ [Obj.auxClampFlag n, Obj.auxClampEvents n]) :
      (c.setReg o v).reg (Obj.auxStatus n) = c.reg (Obj.auxStatus n) := by
    refine reg_setReg_ne _ _ _ _ ?_
    simp only [List.mem_cons, List.not_mem_nil, or_false] at ho
    rcases ho with rfl | rfl <;> simp only [Obj.key, Obj.auxStatus, Obj.auxClampFlag, Obj.auxClampEvents] <;> omega
  have hreg : (b.modChannel n fun c => { c with clamp := .engaged high }).reg (Obj.auxStatus n) = b.reg (Obj.auxStatus n) := rfl
  refine ⟨?_, ?_, ?_, List.mem_append_right _ (List.mem_singleton_self _), ?_, fun k hk => ?_⟩
  · exact congrArg AuxChannel.clamp (Vector.getElem_set_self ..)
  · rw [raise_reg, statusSet_reg_other 2 (by simp only [Obj.key, Obj.auxClampFlag, Obj.auxStatus]; omega), bump, count,
      reg_setReg_ne _ _ _ _ (by simp only [Obj.key, Obj.auxClampFlag, Obj.auxClampEvents]; omega), reg_setReg_self]
    rfl
  · rw [raise_reg, statusSet_reg_self, bump, count, hstatus _ _ _ (by simp), hstatus _ _ _ (by simp), hreg]
  · exact (((((Leaves.refl _ _ b).modChannel n _ (by simp)).setReg _ _ (by simp)).bump _ (by simp)).setReg _ _ (by simp)).raise _
  · exact Vector.getElem_set_ne n.isLt k.isLt fun hv => hk (Fin.ext hv.symm)

theorem clampClear_free (h : ∀ k : Bool, b.aux.channels[n].clamp ≠ .engaged k) : b.clampClear n false = b.setReg (Obj.auxClampFlag n) 0 := by
  unfold clampClear
  split
  · next k hk => exact absurd hk (h k)
  · rfl

theorem clampClear_engaged {high : Bool} (h : b.aux.channels[n].clamp = .engaged high) (w : Bool) : b.clampClear n w = b.bump Obj.auxCoincidences := by
  unfold clampClear
  rw [h]

theorem writeTo_clampClear {r : Route} (ha : b.acceptsObj Env.quiet r (Obj.auxClampFlag n) 0 = true) :
    b.writeTo (Obj.auxClampFlag n) 0 r Env.quiet = (b.clampClear n false).reply r .ok := by
  have hn : channelOf (1 + n.val - 1) = n := by
    rw [Nat.add_sub_cancel_left]
    exact Fin.ext (Nat.mod_eq_of_lt n.isLt)
  refine writeTo_of_accepts ha ?_
  refine (writeDo_pier Env.quiet r (index := 0x4020) _ _ b (by decide) (by decide)).trans ?_
  show some ((b.clampClear (channelOf (1 + n.val - 1)) false).reply r .ok) = _
  rw [hn]

/-- The registers that the clamp-clear task may touch. -/
def clampRegs : List Obj := Obj.auxCoincidences :: (List.finRange 16).map fun (k : AuxId) => Obj.auxClampFlag k.val

theorem clampFlag_mem (k : AuxId) : Obj.auxClampFlag k ∈ clampRegs := List.mem_cons_of_mem _ (List.mem_map.mpr ⟨k, List.mem_finRange k, rfl⟩)

/-- What one channel's turn in the clamp-clear task does. -/
structure Turned (b c : Block) : Prop where
  leaves : Leaves [] clampRegs b c
  zero : ∀ k : AuxId, b.reg (Obj.auxClampFlag k) = 0 → c.reg (Obj.auxClampFlag k) = 0

theorem clearTurn (k : AuxId) (c : Block) :
    Turned c (if c.isSet (Obj.auxClampFlag k) || false then c.clampClear k false else c) ∧
    ((∀ z : Bool, c.aux.channels[k].clamp ≠ .engaged z) →
      (if c.isSet (Obj.auxClampFlag k) || false then c.clampClear k false else c).reg (Obj.auxClampFlag k) = 0) := by
  split
  · by_cases he : ∃ z, c.aux.channels[k].clamp = .engaged z
    · obtain ⟨z, hz⟩ := he
      rw [clampClear_engaged hz]
      refine ⟨⟨(Leaves.refl _ _ c).bump _ List.mem_cons_self, fun j hj => ?_⟩, fun hf => absurd hz (hf z)⟩
      refine (reg_setReg_ne _ _ _ _ ?_).trans hj
      simp only [Obj.key, Obj.auxClampFlag, Obj.auxCoincidences]
      omega
    · have hf : ∀ z : Bool, c.aux.channels[k].clamp ≠ .engaged z := fun z hz => he ⟨z, hz⟩
      rw [clampClear_free hf]
      refine ⟨⟨(Leaves.refl _ _ c).setReg _ _ (clampFlag_mem k), fun j hj => ?_⟩, fun _ => reg_setReg_self ..⟩
      by_cases hjk : j = k
      · subst hjk
        exact reg_setReg_self ..
      · refine (reg_setReg_ne _ _ _ _ ?_).trans hj
        have hv : j.val ≠ k.val := fun hv => hjk (Fin.ext hv)
        simp only [Obj.key, Obj.auxClampFlag]
        omega
  · next hset =>
    rw [Bool.or_false, Bool.not_eq_true] at hset
    exact ⟨⟨.refl _ _ c, fun _ => id⟩, fun _ => isSet_false_iff.mp hset⟩

/-- The clamp-clear task clears the flag of every channel that is not clamped (R322). -/
theorem clampClearAll_clears (b : Block) : Turned b (b.clampClearAll 0) ∧
    ∀ k : AuxId, (∀ z : Bool, b.aux.channels[k].clamp ≠ .engaged z) → (b.clampClearAll 0).reg (Obj.auxClampFlag k) = 0 := by
  have hwalk (l : List AuxId) (c : Block) : Turned c (l.foldl (fun b (n : AuxId) => if b.isSet (Obj.auxClampFlag n) || false then b.clampClear n false else b) c) ∧
      ∀ k ∈ l, (∀ z : Bool, c.aux.channels[k].clamp ≠ .engaged z) →
        (l.foldl (fun b (n : AuxId) => if b.isSet (Obj.auxClampFlag n) || false then b.clampClear n false else b) c).reg (Obj.auxClampFlag k) = 0 := by
    induction l generalizing c with
    | nil => exact ⟨⟨.refl _ _ c, fun _ => id⟩, nofun⟩
    | cons x l ih =>
      obtain ⟨hx, hz⟩ := clearTurn x c
      obtain ⟨ht, hk⟩ := ih (if c.isSet (Obj.auxClampFlag x) || false then c.clampClear x false else c)
      refine ⟨⟨hx.leaves.trans ht.leaves, fun k h => ht.zero k (hx.zero k h)⟩, fun k hmem hc => ?_⟩
      rcases List.mem_cons.mp hmem with rfl | hmem
      · exact ht.zero k (hz hc)
      · exact hk k hmem (by rwa [hx.leaves.aux (by simp)])
  have hrun : b.clampClearAll 0 = (List.finRange 16).foldl (fun b (n : AuxId) => if b.isSet (Obj.auxClampFlag n) || false then b.clampClear n false else b) b := by
    unfold clampClearAll
    simp
  rw [hrun]
  exact ⟨(hwalk _ b).1, fun k => (hwalk _ b).2 k (List.mem_finRange k)⟩

end

end Sys2Proof.Machine.Block

namespace Sys2Proof
open Machine Machine.Block

/-- Settles O31: each comparator and each clamp sets its own state, status bit and event, and the tasks switch what is excited. -/
theorem excitationWiresAndClamps : Obligations.ExcitationWiresAndClamps := by
  unfold Obligations.ExcitationWiresAndClamps
  refine ⟨fun t n s => ?_, fun t n s => ?_⟩
  · intro b
    refine ⟨fun ha => ?_, fun ha => ?_, fun hm hx ho => ?_, fun ho hoff => ?_, fun sense hb hw => ?_, fun hb => ?_⟩
    · obtain ⟨haux, hnow, hout, hl⟩ := exciting_aux (b := b.unlatch 288) fun b => b.modAux fun a => { a with excOff := true }
      have hnone : (((b.unlatch 288).modAux fun a => { a with excOff := true }).excitationNow) = [] := excitationNow_held rfl
      rw [hnone] at hnow hout
      exact ⟨_, does_of_run (f := fun b => b.sampled 288 Env.quiet []) rfl (sampled_pier (f := fun b => b.excitationOff false) ha fun _ _ => rfl), haux,
        hl _ _ ((Leaves.refl _ _ _).modAux _ (by simp)), hnow, fun hne => hout hne.symm⟩
    · obtain ⟨haux, hnow, hout, hl⟩ := exciting_aux (b := b.unlatch 289) fun b => b.modAux fun a => { a with excOff := false }
      rw [← hnow] at hout
      exact ⟨_, does_of_run (f := fun b => b.sampled 289 Env.quiet []) rfl (sampled_pier (f := fun b => b.excitationOn) ha fun _ _ => rfl), haux,
        hl _ _ ((Leaves.refl _ _ _).modAux _ (by simp)), hout⟩
    · refine does_of_run (f := fun b => b.overload n) rfl (if_neg ?_)
      rintro (h | h | h)
      · exact h hm
      · rw [show (s.b.at_ t).excited n = true from hx] at h
        exact Bool.false_ne_true h
      · rw [show (s.b.at_ t).aux.channels[n].overload = false from ho] at h
        exact Bool.false_ne_true h
    · refine does_of_run (f := fun b => b.overloadClear n) rfl ((if_neg ?_).trans (if_neg ?_))
      · rw [show (s.b.at_ t).aux.channels[n].overload = true from ho]
        decide
      · exact fun h => Bool.false_ne_true (hoff.symm.trans h)
    · refine does_of_run (f := fun b => b.wireBreak n sense) rfl (if_neg ?_)
      rintro (h | h)
      · exact Bool.false_ne_true (hb.symm.trans h)
      · rw [show (s.b.at_ t).watched n sense = true from hw] at h
        exact Bool.false_ne_true h
    · exact does_of_run (f := fun b => b.wireWhole n) rfl (if_pos hb)
  · intro b
    refine ⟨fun high hc => ?_, fun high hc => ⟨?_, fun r ha => ?_⟩, fun high hc => ?_, fun r hc ha => ?_, fun ha => ?_⟩
    · obtain ⟨hclamp, hflag, hstatus, hfired, hleaves, hother⟩ := engaged_clamped n high b
      exact ⟨_, does_of_run (f := fun b => b.clampEngage n high) rfl (clampEngage_eq high hc), hclamp, hflag, hstatus, hfired, hleaves, hother⟩
    · refine does_of_run (f := fun b => b.clampRelease n) rfl ?_
      show b.clampRelease n = _
      unfold clampRelease
      rw [hc]
    · exact does_of_run (f := fun b => b.writeTo (Obj.auxClampFlag n) 0 r Env.quiet) rfl
        ((writeTo_clampClear ha).trans (congrArg (fun c : Block => c.reply r .ok) (clampClear_engaged hc false)))
    · refine does_of_run (f := fun b => b.clampRecovered n) rfl ?_
      show b.clampRecovered n = _
      unfold clampRecovered
      rw [hc]
      rfl
    · exact does_of_run (f := fun b => b.writeTo (Obj.auxClampFlag n) 0 r Env.quiet) rfl
        ((writeTo_clampClear ha).trans (congrArg (fun c : Block => c.reply r .ok) (clampClear_free hc)))
    · obtain ⟨hturned, hclears⟩ := clampClearAll_clears (b.unlatch 290)
      exact ⟨_, does_of_run (f := fun b => b.sampled 290 Env.quiet []) rfl (sampled_pier (f := fun b => b.clampClearAll 0) ha fun _ _ => rfl),
        hturned.leaves, hclears⟩

end Sys2Proof

/-! # The sequencer and its lanes (R337 to R346) -/

namespace Sys2Proof.Machine.Block

section
variable {b : Block} {r : Option Route}

/-! ## Requests -/

theorem seqViolations_cleared (r : Option Route) (k : Nat) (b : Block) : (b.cleared r k).seqViolations = b.seqViolations := by cases r <;> rfl

theorem aux_cleared (r : Option Route) (k : Nat) (b : Block) : (b.cleared r k).aux = b.aux := by cases r <;> rfl

theorem replyVia_viaOf (r : Option Route) (k : Nat) (res : Result) (b c : Block) : c.replyVia (b.viaOf r k) res = c.answered r res := by cases r <;> rfl

theorem writeDo_auxCommand (x : Route) {v : Nat} (hv : v < 256) :
    b.writeDo Env.quiet x Obj.auxCommand.index Obj.auxCommand.sub (v % 256 ^ (Obj.auxCommand.ty.bits / 8)) =
      some (if v = 1 then b.seqStart (.write x) .alone else b.seqStop (.write x) .alone) := by
  rw [mod_u8 rfl hv]
  exact writeDo_pier Env.quiet x (index := 0x4000) _ _ b (by decide) (by decide)

theorem taskDo_seqStart (st : Time) (e : Env) (mv : List Nat) (b : Block) :
    b.taskDo 292 st e mv = b.seqStart (.task st) (if e.same && e.start == .alone then .stop true else e.start) := rfl

theorem taskDo_seqStop (st : Time) (e : Env) (mv : List Nat) (b : Block) : b.taskDo 293 st e mv = b.seqStop (.task st) e.start := rfl

theorem orTask_seqStart (hr : b.reaches r Obj.auxCommand 1 292 Env.quiet) :
    b.orTask r Obj.auxCommand 1 292 Env.quiet = (b.cleared r 292).seqStart (b.viaOf r 292) .alone := by
  refine orTask_of_reaches hr rfl (fun x hx => ?_) fun hn m => ?_
  · subst hx
    exact writeDo_auxCommand x (by decide)
  · subst hn
    exact taskDo_seqStart ..

theorem orTask_seqStop (hr : b.reaches r Obj.auxCommand 2 293 Env.quiet) :
    b.orTask r Obj.auxCommand 2 293 Env.quiet = (b.cleared r 293).seqStop (b.viaOf r 293) .alone := by
  refine orTask_of_reaches hr rfl (fun x hx => ?_) fun hn m => ?_
  · subst hx
    exact writeDo_auxCommand x (by decide)
  · subst hn
    exact taskDo_seqStop ..

/-! ## Start and stop (R346) -/

theorem startMeets_alone (via : Via) (o : Obj) (b : Block) : b.startMeets .alone via o = b := by
  unfold startMeets
  exact if_pos rfl

/-- The front end that starts. -/
def startingAux (via : Via) (a : Aux) : Aux := { a with state := .starting, startVia := [via], refOn := true }

/-- The sequencer once it runs (R346). -/
structure SeqRuns (b c : Block) : Prop where
  state : c.aux.state = .running
  fired : ∀ k, k = 608 ∨ b.Fired k → c.Fired k
  passes0 : c.reg (Obj.auxSeqPassesDone 0) = 0
  passes1 : c.reg (Obj.auxSeqPassesDone 1) = 0
  leaves : Leaves [.aux] [Obj.auxSeqPassesDone 0, Obj.auxSeqPassesDone 1] b c

/-- The front end with its filters and passes anew, at t. -/
def runningAux (t : Time) (a : Aux) : Aux :=
  { a with state := .running, startVia := [], lanes := Vector.replicate 2 (freshLane t),
           channels := a.channels.map fun c => { c with t0 := t, windows := 0, samples := [], fresh := false } }

/-- The pier that runs, before the start is answered. -/
def runBegun (b : Block) : Block :=
  (((b.exciting fun b => b.modAux (runningAux b.now)).setReg (Obj.auxSeqPassesDone 0) 0).setReg (Obj.auxSeqPassesDone 1) 0).raise 608

theorem exciting_outs (f : Block → Block) : ∀ o ∈ (f b).outs, o ∈ (b.exciting f).outs := by
  unfold exciting
  extract_lets c
  split
  · exact fun _ => id
  · exact fun _ => List.mem_append_left _

theorem seqStart_stopped {via : Via} (hv : b.seqViolations = []) (hs : b.aux.state = .stopped) : b.seqStart via .alone =
    if b.aux.refReady then (b.modAux (startingAux via)).seqRun else b.modAux (startingAux via) := by
  unfold seqStart
  rw [startMeets_alone]
  dsimp only
  rw [hv]
  dsimp only [firstCode]
  rw [hs]
  rfl

theorem seqStart_waits {via : Via} (hv : b.seqViolations = []) (hs : b.aux.state = .stopped) (hr : b.aux.refReady = false) :
    b.seqStart via .alone = b.modAux (startingAux via) := by
  rw [seqStart_stopped hv hs, hr]
  rfl

theorem seqStart_runs {via : Via} (hv : b.seqViolations = []) (hs : b.aux.state = .stopped) (hr : b.aux.refReady = true) :
    b.seqStart via .alone = (b.modAux (startingAux via)).runBegun.replyVia via .ok := by
  rw [seqStart_stopped hv hs, hr]
  rfl

theorem answered_keeps (r : Option Route) (res : Result) (c : Block) : (c.answered r res).aux = c.aux ∧ (∀ o ∈ c.outs, o ∈ (c.answered r res).outs) ∧
    ∀ o, (c.answered r res).reg o = c.reg o := by
  refine ⟨(leaves_answered r res c).aux (by simp), fun o ho => ?_, fun o => (leaves_answered r res c).reg o nofun⟩
  cases r with
  | none => exact ho
  | some x => exact (reply_outs ..) ▸ List.mem_append_left _ ho

theorem runBegun_runs (b : Block) : SeqRuns b b.runBegun := by
  obtain ⟨haux, -, -, hl⟩ := exciting_aux (b := b) fun b => b.modAux (runningAux b.now)
  have hfl : Leaves [.aux] [Obj.auxSeqPassesDone 0, Obj.auxSeqPassesDone 1] b (b.modAux (runningAux b.now)) := (Leaves.refl _ _ b).modAux _ (by simp)
  refine ⟨congrArg Aux.state haux, fun k hk => ?_, ?_, reg_setReg_self .., (((hl _ _ hfl).setReg _ _ (by simp)).setReg _ _ (by simp)).raise _⟩
  · rcases hk with rfl | hk
    · exact List.mem_append_right _ (List.mem_singleton_self _)
    · exact List.mem_append_left _ (exciting_outs (b := b) (fun b => b.modAux (runningAux b.now)) _ hk)
  · exact (reg_setReg_ne _ _ _ _ (by decide)).trans (reg_setReg_self ..)

theorem seqStop_running {via : Via} (hs : b.aux.state = .running) : b.seqStop via .alone = (b.modAux fun a => { a with state := .stopping }).replyVia via .ok := by
  unfold seqStop
  rw [startMeets_alone]
  dsimp only
  rw [hs]

theorem seqStop_stopped {via : Via} (hs : b.aux.state = .stopped) : b.seqStop via .alone = b.replyVia via .ok := by
  unfold seqStop
  rw [startMeets_alone]
  dsimp only
  rw [hs]

/-- A start given up: its requests are refused, and the buffer goes off with the sequencer. -/
def startGivenUp (vias : List Via) (b : Block) : Block :=
  (((vias.foldl (fun b v => b.replyVia v (.abort .deviceState)) b).modAux fun a => { a with state := .stopped, startVia := [] }).refStop).raise 609

theorem seqStop_starting {via : Via} (hs : b.aux.state = .starting) :
    b.seqStop via .alone = (startGivenUp b.aux.startVia b).replyVia via .ok := by
  unfold seqStop
  rw [startMeets_alone]
  dsimp only
  rw [hs]
  rfl

theorem refStop_keeps (b : Block) : (b.refStop).aux.state = b.aux.state ∧ b.refStop.outs = b.outs := by
  unfold refStop
  split
  · exact ⟨rfl, rfl⟩
  · exact ⟨rfl, rfl⟩

theorem startGivenUp_state {vias : List Via} : (startGivenUp vias b).aux.state = .stopped := (refStop_keeps _).1

theorem startGivenUp_answered {vias : List Via} {x : Route} (h : Via.write x ∈ vias) : (startGivenUp vias b).Answered x (.abort .deviceState) :=
  List.mem_append_left _ (by rw [(refStop_keeps _).2]; exact answered_foldl_replyVia h b)

theorem exciting_reg (f : Aux → Aux) (o : Obj) : (b.exciting fun b => b.modAux f).reg o = b.reg o := by
  unfold exciting
  extract_lets c
  split
  · rfl
  · rfl

/-- The pier whose buffer has settled. -/
def bufferReady (b : Block) : Block := ((b.modAux fun a => { a with refReady := true }).setReg Obj.auxRefReady 1).raise 615

theorem refBufferReady_settles (hon : b.aux.refOn = true) (hready : b.aux.refReady = false) :
    b.refBufferReady = if b.bufferReady.aux.state = .starting then b.bufferReady.seqRun else b.bufferReady := by
  have hgo : ¬ ((!b.aux.refOn) = true ∨ b.aux.refReady = true) := by
    rw [hon, hready]
    decide
  exact if_neg hgo

theorem replyVia_outs (v : Via) (res : Result) : ∀ o ∈ b.outs, o ∈ (b.replyVia v res).outs := by
  intro o ho
  cases v with
  | write x => exact (reply_outs ..) ▸ List.mem_append_left _ ho
  | task _ => exact ho

theorem foldl_replyVia_leaves (l : List Via) (res : Result) (b : Block) :
    Leaves [.host, .smb, .can] [] b (l.foldl (fun c v => c.replyVia v res) b) :=
  (Leaves.refl _ _ b).foldl _ _ fun c v _ => leaves_replyVia v res c

theorem foldl_replyVia_outs (l : List Via) (res : Result) (b : Block) : ∀ o ∈ b.outs, o ∈ (l.foldl (fun c v => c.replyVia v res) b).outs := by
  induction l generalizing b with
  | nil => exact fun _ => id
  | cons x l ih => exact fun o ho => ih _ o (replyVia_outs x res o ho)

/-! ## Lanes (R337 to R344) -/

theorem laneDone_stopping {l : Fin 2} (hs : b.aux.state = .stopping) (hl : b.aux.lanes[l].active = false) : b.laneDone l = true := by
  unfold laneDone
  rw [hs, hl]
  rfl

theorem seqStopped_stopping (hs : b.aux.state = .stopping) (hl : ∀ l : Fin 2, b.aux.lanes[l].active = false) :
    b.seqStopped = ((b.exciting fun b => b.modAux fun a => { a with state := .stopped }).refStop).raise 609 :=
  if_pos ⟨.inl hs, laneDone_stopping hs (hl 0), laneDone_stopping hs (hl 1)⟩

theorem conversion_lane {l : Fin 2} {code : BitVec 16} (hm : b.reg Obj.auxAdcMode = 0) : b.conversion l code = b.laneConversion l code := by
  unfold conversion
  rw [hm]
  rfl

/-! ### Passes and executions (R342 to R344) -/

section
variable {l : Fin 2} {e : SeqEntry}

theorem passStart_begins {rest : List SeqEntry} (hlist : b.laneList l = e :: rest) (hs : b.aux.state = .running) (hleft : b.passesLeft l = true)
    (hpass : b.aux.lanes[l].inPass = false) (hdue : due b.aux.lanes[l].readyAt b.now = true)
    (hp : b.reg (Obj.auxSeqPeriod l) = 0 ∨ due b.aux.lanes[l].nextPass b.now = true) :
    b.passStart l = b.modLane l fun y => { y with
      inPass := true, late := false, entry := 0, readyAt := b.now,
      nextPass := if b.reg (Obj.auxSeqPeriod l) = 0 then y.nextPass else later y.nextPass (b.reg (Obj.auxSeqPeriod l) * 400), repeats := e.repeat_ } := by
  have hno : ¬ (b.aux.state ≠ .running ∨ (b.laneList l).isEmpty = true ∨ (!b.passesLeft l) = true) := by
    rw [hs, hlist, hleft]
    exact fun h => h.elim (fun h => h rfl) fun h => h.elim Bool.false_ne_true Bool.false_ne_true
  have hcome : ¬ (b.reg (Obj.auxSeqPeriod l) ≠ 0 ∧ (!due b.aux.lanes[l].nextPass b.now) = true) := fun h => hp.elim h.1 fun hd => by
    rw [hd] at h
    exact Bool.false_ne_true h.2
  have hfree : ¬ (b.aux.lanes[l].inPass = true ∨ (!due b.aux.lanes[l].readyAt b.now) = true) := by
    rw [hpass, hdue]
    decide
  unfold passStart
  exact (if_neg hno).trans ((if_neg hcome).trans ((if_neg hfree).trans (by rw [hlist]; rfl)))

theorem passStart_late {rest : List SeqEntry} (hlist : b.laneList l = e :: rest) (hs : b.aux.state = .running) (hleft : b.passesLeft l = true)
    (hpass : b.aux.lanes[l].inPass = true) (hp : b.reg (Obj.auxSeqPeriod l) ≠ 0) (hdue : due b.aux.lanes[l].nextPass b.now = true)
    (hlate : b.aux.lanes[l].late = false) :
    b.passStart l = ((b.modLane l fun y => { y with late := true }).bump Obj.auxSeqLatePasses).raise 612 := by
  have hno : ¬ (b.aux.state ≠ .running ∨ (b.laneList l).isEmpty = true ∨ (!b.passesLeft l) = true) := by
    rw [hs, hlist, hleft]
    exact fun h => h.elim (fun h => h rfl) fun h => h.elim Bool.false_ne_true Bool.false_ne_true
  have hcome : ¬ (b.reg (Obj.auxSeqPeriod l) ≠ 0 ∧ (!due b.aux.lanes[l].nextPass b.now) = true) := by
    rw [hdue]
    exact fun h => Bool.false_ne_true h.2
  have hfirst : ¬ (b.reg (Obj.auxSeqPeriod l) = 0 ∨ b.aux.lanes[l].late = true) := fun h =>
    h.elim hp fun h => Bool.false_ne_true (hlate.symm.trans h)
  unfold passStart
  exact (if_neg hno).trans ((if_neg hcome).trans ((if_pos (.inl hpass)).trans (if_neg hfirst)))

theorem execution_begins (he : b.laneEntry l = some e) (hs : b.aux.state = .running) (hpass : b.aux.lanes[l].inPass = true)
    (hact : b.aux.lanes[l].active = false) (hrep : b.aux.lanes[l].repeats ≠ 0) (hdue : due b.aux.lanes[l].readyAt b.now = true) :
    b.execution l = b.exciting fun b => (b.modLane l fun y =>
      { y with active := true, repeats := y.repeats - 1, discard := e.discard, samples := e.conv, pairA := none }).gainTake (channelOf e.ch) := by
  unfold execution
  rw [he]
  refine if_neg ?_
  rintro (h | h | h | h | h)
  · exact h hs
  · rw [hpass] at h
    exact Bool.false_ne_true h
  · exact Bool.false_ne_true (hact.symm.trans h)
  · exact hrep h
  · rw [hdue] at h
    exact Bool.false_ne_true h

theorem laneConversion_discarded {code : BitVec 16} (he : b.laneEntry l = some e) (hact : b.aux.lanes[l].active = true)
    (hd : b.aux.lanes[l].discard ≠ 0) : b.laneConversion l code = b.modLane l fun y => { y with discard := y.discard - 1 } := by
  have hactive : ¬ (!b.aux.lanes[l].active) = true := by
    rw [hact]
    decide
  unfold laneConversion
  rw [he]
  exact (if_neg hactive).trans (if_pos (Nat.pos_of_ne_zero hd))

theorem laneConversion_pairs {code : BitVec 16} (he : b.laneEntry l = some e) (hact : b.aux.lanes[l].active = true)
    (hd : b.aux.lanes[l].discard = 0) (hchop : b.isSet (Obj.auxAmpChop (channelOf e.ch)) = false) (hswap : b.isSet (Obj.auxSwap (channelOf e.ch)) = true)
    (hmode : b.reg (Obj.auxMode (channelOf e.ch)) = 3) (hpair : b.aux.lanes[l].pairA = none) :
    b.laneConversion l code = b.modLane l fun y => { y with pairA := some (code.toInt, b.now - BitVec.ofNat 64 tUs) } := by
  have hactive : ¬ (!b.aux.lanes[l].active) = true := by
    rw [hact]
    decide
  have hchopped (w : Bool) : ¬ (b.isSet (Obj.auxAmpChop (channelOf e.ch)) && w) = true := by
    rw [hchop]
    exact Bool.false_ne_true
  have hrestored : b.restored (channelOf e.ch) code = code.toInt := by
    unfold restored
    rw [hchop]
    rfl
  have hpaired : b.paired (channelOf e.ch) = true := by
    unfold paired
    rw [hswap, hmode]
    rfl
  unfold laneConversion
  rw [he]
  refine (if_neg hactive).trans ((if_neg (by rw [hd]; decide)).trans ((if_neg (hchopped _)).trans ((if_pos hpaired).trans ?_)))
  rw [hpair, hrestored]

end

end

end Sys2Proof.Machine.Block

namespace Sys2Proof
open Machine Machine.Block

/-- Settles O32: the sequencer's state decides what a start, a stop and the buffer do, and a lane's own state what its steps do. -/
theorem sequencerAndLanes : Obligations.SequencerAndLanes := by
  unfold Obligations.SequencerAndLanes
  refine ⟨fun t s => ?_, fun t l s => ?_⟩
  · intro b
    have haux (r : Option Route) (k : Nat) : (b.cleared r k).aux = b.aux := aux_cleared ..
    refine ⟨fun r hr hv hs hready => ?_, fun r hr hv hs hready => ?_, fun r hr hs => ?_, fun r hr hs => ?_, fun r hr hs => ?_,
      fun hs hl => ⟨fun he => ?_, fun he => ?_⟩, fun ha => ?_, fun hon hready => ⟨fun hs => ?_, fun hs => ?_⟩⟩
    · refine does_of_run (f := fun b => b.orTask r Obj.auxCommand 1 292 Env.quiet) rfl ((orTask_seqStart hr).trans (seqStart_waits ?_ ?_ ?_))
      · exact (seqViolations_cleared ..).trans hv
      · rw [haux]
        exact hs
      · rw [haux]
        exact hready
    · have hrun := (orTask_seqStart hr).trans (seqStart_runs (via := b.viaOf r 292) ((seqViolations_cleared ..).trans hv) (by rw [haux]; exact hs)
        (by rw [haux]; exact hready))
      rw [replyVia_viaOf] at hrun
      obtain ⟨hstate, hfired, h0, h1, hleaves⟩ := runBegun_runs ((b.cleared r 292).modAux (startingAux (b.viaOf r 292)))
      have hl := ((Leaves.refl [.aux] [Obj.auxSeqPassesDone 0, Obj.auxSeqPassesDone 1] (b.cleared r 292)).modAux (startingAux (b.viaOf r 292))
        (by simp)).trans hleaves
      obtain ⟨haux', houts, hreg⟩ := answered_keeps r .ok ((b.cleared r 292).modAux (startingAux (b.viaOf r 292))).runBegun
      refine ⟨_, does_of_run (f := fun b => b.orTask r Obj.auxCommand 1 292 Env.quiet) rfl hrun, (congrArg Aux.state haux').trans hstate,
        houts _ (hfired 608 (.inl rfl)), (hreg _).trans h0, (hreg _).trans h1, hl.answered r .ok, fun x hx => ?_⟩
      rw [hx]
      exact reply_answered ..
    · refine does_of_run (f := fun b => b.orTask r Obj.auxCommand 2 293 Env.quiet) rfl ((orTask_seqStop hr).trans ?_)
      rw [seqStop_running ((congrArg Aux.state (haux r 293)).trans hs), replyVia_viaOf]
    · refine does_of_run (f := fun b => b.orTask r Obj.auxCommand 2 293 Env.quiet) rfl ((orTask_seqStop hr).trans ?_)
      rw [seqStop_stopped ((congrArg Aux.state (haux r 293)).trans hs), replyVia_viaOf]
    · have hrun := (orTask_seqStop hr).trans (seqStop_starting (via := b.viaOf r 293) ((congrArg Aux.state (haux r 293)).trans hs))
      rw [replyVia_viaOf, haux] at hrun
      obtain ⟨haux', houts, -⟩ := answered_keeps r .ok (startGivenUp b.aux.startVia (b.cleared r 293))
      refine ⟨_, does_of_run (f := fun b => b.orTask r Obj.auxCommand 2 293 Env.quiet) rfl hrun, (congrArg Aux.state haux').trans startGivenUp_state,
        houts _ (List.mem_append_right _ (List.mem_singleton_self _)), fun x hx => ?_, fun x hx => houts _ (startGivenUp_answered hx)⟩
      rw [hx]
      exact reply_answered ..
    · refine does_of_run (f := fun b => b.seqStopped) rfl ((seqStopped_stopping hs hl).trans (congrArg (raise 609) (if_pos ?_)))
      exact bne_iff_ne.mpr (by rw [exciting_reg]; exact he)
    · refine does_of_run (f := fun b => b.seqStopped) rfl ((seqStopped_stopping hs hl).trans (congrArg (raise 609) (if_neg ?_)))
      exact fun h => bne_iff_ne.mp h (by rw [exciting_reg]; exact he)
    · exact does_of_run (f := fun b => b.sampled 294 Env.quiet []) rfl (sampled_pier (f := fun b => b.refBufferOn) ha fun _ _ => rfl)
    · exact does_of_run (f := fun b => b.refBufferReady) rfl ((refBufferReady_settles hon hready).trans (if_neg (by
        rw [show (s.b.at_ t).bufferReady.aux.state = .stopped from hs]; decide)))
    · have hrun : b.refBufferReady = _ := (refBufferReady_settles hon hready).trans (if_pos hs)
      obtain ⟨hstate, hfired, -, -, hleaves⟩ := runBegun_runs b.bufferReady
      have hfold := foldl_replyVia_leaves b.aux.startVia .ok b.bufferReady.runBegun
      have houts := foldl_replyVia_outs b.aux.startVia .ok b.bufferReady.runBegun
      have hl : Leaves [.aux, .host, .smb, .can] [Obj.auxSeqPassesDone 0, Obj.auxSeqPassesDone 1, Obj.auxRefReady] b b.bufferReady :=
        (((Leaves.refl _ _ b).modAux _ (by simp)).setReg _ _ (by simp)).raise _
      exact ⟨_, does_of_run (f := fun b => b.refBufferReady) rfl hrun, (congrArg Aux.state (hfold.aux (by simp))).trans hstate,
        houts _ (hfired 608 (.inl rfl)), houts _ (hfired 615 (.inr (List.mem_append_right _ (List.mem_singleton_self _)))),
        (hl.of_part hleaves (by simp) (by simp)).of_part hfold (by simp) (by simp), fun x hx => answered_foldl_replyVia hx _⟩
  · intro b x p
    refine ⟨fun e rest hlist hs hleft hpass hdue hp => ?_, fun e rest hlist hs hleft hpass hp hdue hlate => ?_,
      fun e he hs hpass hact hrep hdue => ?_, fun code e hm he hact hd => ?_, fun code e hm he hact hd hchop hswap hmode hpair => ?_, fun hm => ?_,
      fun hm hs hw => ?_⟩
    · exact does_of_run (f := fun b => b.passStart l) rfl (passStart_begins hlist hs hleft hpass hdue hp)
    · exact does_of_run (f := fun b => b.passStart l) rfl (passStart_late hlist hs hleft hpass hp hdue hlate)
    · exact does_of_run (f := fun b => b.execution l) rfl (execution_begins he hs hpass hact hrep hdue)
    · exact does_of_run (f := fun b => b.conversion l code) rfl ((conversion_lane hm).trans (laneConversion_discarded he hact hd))
    · exact does_of_run (f := fun b => b.conversion l code) rfl ((conversion_lane hm).trans (laneConversion_pairs he hact hd hchop hswap hmode hpair))
    · exact does_of_run (f := fun b => b.chopReversal) rfl (if_pos hm)
    · refine does_of_run (f := fun b => b.testPulse false) rfl ((if_neg ?_).trans rfl)
      rintro (h | h | h)
      · exact hm h
      · exact h hs
      · rw [show (s.b.at_ t).isSet _ = true from hw] at h
        exact Bool.false_ne_true h

end Sys2Proof

/-! # Samples, filters, the FIFO and the echoes (R331, R347 to R352) -/

namespace Sys2Proof.Machine

/-- A filter without a sample in its support has no code (R348). -/
theorem filterCode_nil (k t : Nat) (at_ : Time) : filterCode k t at_ [] = none := rfl

theorem clip_bounds {lo hi : Int} (h : lo ≤ hi) (v : Int) : lo ≤ clip v lo hi ∧ clip v lo hi ≤ hi :=
  ⟨le_max_left .., max_le h (min_le_left ..)⟩

theorem filterCode_bounds {k t : Nat} {at_ : Time} {l : List (Time × Int)} {q : Int} (h : filterCode k t at_ l = some q) :
    -32768 ≤ q ∧ q ≤ 32767 := by
  unfold filterCode at h
  extract_lets ws w at h
  split at h
  · exact absurd h (by simp)
  · cases h
    exact clip_bounds (by decide) _

/-- A fraction of a period, rounded, lies within the period (R331). -/
theorem divHalfAway_of_fraction {out : Int} (h0 : 0 ≤ out) (h1 : out ≤ 65536) (period : Nat) :
    (divHalfAway (out * (period : Nat)) 65536).toNat ≤ period := by
  obtain ⟨k, rfl⟩ := Int.eq_ofNat_of_zero_le h0
  have hk : k * period ≤ 65536 * period := Nat.mul_le_mul_right _ (by omega)
  have hcast : (k : Int) * (period : Nat) = ((k * period : Nat) : Int) := by push_cast; rfl
  rw [hcast]
  generalize k * period = m at hk
  unfold divHalfAway
  rw [if_neg (by decide), if_pos (propext ⟨fun h => by omega, fun h => by omega⟩)]
  show (1 * ((2 * (m : Int) + 65536) / (2 * 65536))).toNat ≤ period
  omega

namespace Block

section
variable {b : Block} {n : AuxId}

/-! ## Samples -/

theorem forcedCode_released (h : b.aux.channels[n].clamp = .released) : b.forcedCode n = none := by
  unfold forcedCode
  rw [h]

theorem forcedCode_engaged {high : Bool} (h : b.aux.channels[n].clamp = .engaged high) : b.forcedCode n = some (if high then 32767 else -32768) := by
  unfold forcedCode
  rw [h]

theorem admitSample_result (h : b.reg (Obj.auxFiltOrder n) = 0) (at_ : Time) (x : Int) : b.admitSample n at_ x =
    match b.forcedCode n with
    | some q => b.publish n q true at_
    | none => b.publish n (clip x (-32768) 32767) false at_ := if_pos h

theorem admitSample_filtered (h : b.reg (Obj.auxFiltOrder n) ≠ 0) (at_ : Time) (x : Int) : b.admitSample n at_ x =
    if (b.forcedCode n).isSome then b else b.modChannel n fun c => { c with samples := c.samples ++ [(at_, x)] } := if_neg h

/-! ## Window boundaries -/

/-- The instant of the next boundary of a filter (R347). -/
def nextBoundary (n : AuxId) (b : Block) : Time :=
  later b.aux.channels[n].t0 ((b.aux.channels[n].windows + 1) * (b.windowCycles n * 400))

/-- The samples that a boundary leaves in the filter (R348). -/
def heldSamples (n : AuxId) (b : Block) : List (Time × Int) :=
  b.aux.channels[n].samples.filter fun u => decide (timeDiff (b.nextBoundary n) u.1 < (b.reg (Obj.auxFiltOrder n) * (b.windowCycles n * 400) : Nat))

/-- A due boundary is counted (R347). -/
def boundaryCounted (n : AuxId) (b : Block) : Block :=
  b.modChannel n fun c => { c with windows := b.aux.channels[n].windows + 1, samples := b.heldSamples n }

theorem windowBoundary_due (hk : b.reg (Obj.auxFiltOrder n) ≠ 0) (hs : b.aux.state = .running) (hd : due (b.nextBoundary n) b.now = true) :
    b.windowBoundary n =
      if b.aux.channels[n].windows + 1 < b.reg (Obj.auxFiltOrder n) then b.boundaryCounted n
      else match (b.boundaryCounted n).forcedCode n with
        | some q => (b.boundaryCounted n).publish n q true (b.nextBoundary n)
        | none =>
          match filterCode (b.reg (Obj.auxFiltOrder n)) (b.windowCycles n * 400) (b.nextBoundary n)
            ((b.heldSamples n).filter fun s => decide (0 ≤ timeDiff (b.nextBoundary n) s.1)) with
          | some q => (b.boundaryCounted n).publish n q false (b.nextBoundary n)
          | none => (b.boundaryCounted n).bump (Obj.auxEmptyWindows n) := by
  have hgo : ¬ (b.reg (Obj.auxFiltOrder n) = 0 ∨ (b.aux.state ≠ .running ∧ b.aux.state ≠ .stopping) ∨ !due (b.nextBoundary n) b.now) := by
    rintro (h | ⟨h, -⟩ | h)
    · exact hk h
    · exact h hs
    · rw [hd] at h
      exact absurd h (by decide)
  exact if_neg hgo

theorem forcedCode_counted (h : b.aux.channels[n].clamp = .released) : (b.boundaryCounted n).forcedCode n = none := by
  refine forcedCode_released ?_
  exact (congrArg AuxChannel.clamp (Vector.getElem_set_self n.isLt)).trans h

/-! ## The FIFO -/

theorem fifoRequest_reads {r : Route} (hs : b.served = true) (hc : b.readCodes r 0x4048 3 = []) : b.fifoRequest r = b.fifoRead r := by
  refine (if_pos hs).trans ?_
  unfold dictRead
  rw [hc]
  rfl

theorem fifoBarRead_eq : b.fifoBarRead = match b.aux.fifo with
    | [] => b.emit (.bar0 (List.replicate 16 0xFF))
    | w :: ws => (b.modAux fun a => { a with fifo := ws }).emit (.bar0 (w.take 16)) := rfl

theorem taskDo_fifoFlush (st : Time) (e : Env) (mv : List Nat) (b : Block) : b.taskDo 295 st e mv = b.fifoFlush := rfl

theorem orTask_fifoFlush {r : Option Route} (hr : b.reaches r Obj.auxFifoFlush 1 295 Env.quiet) :
    b.orTask r Obj.auxFifoFlush 1 295 Env.quiet = ((b.cleared r 295).modAux fun a => { a with fifo := [] }).answered r .ok := by
  refine orTask_answered (f := fun b => b.fifoFlush) hr rfl (fun x _ => ?_) fun _ m => taskDo_fifoFlush ..
  rw [mod_u8 rfl (by decide)]
  exact writeDo_pier Env.quiet x (index := 0x4048) _ _ b (by decide) (by decide)

end

end Block

end Sys2Proof.Machine

namespace Sys2Proof

open Machine Machine.Block

/-- Settles O33: a sample and a boundary by the order of the filter and its clamp, a read by the FIFO's content; the two parts of an echo's
period are its rounded fraction and the rest. -/
theorem samplesFiltersAndFifo : Obligations.SamplesFiltersAndFifo := by
  unfold Obligations.SamplesFiltersAndFifo
  refine ⟨fun n at_ x b => ⟨fun hk hc => ?_, fun high hk hc => ?_, fun hk hc => ?_, fun high hk hc => ?_⟩, fun t n s => ?_, fun t s => ?_⟩
  · rw [admitSample_result hk, forcedCode_released hc]
  · rw [admitSample_result hk, forcedCode_engaged hc]
  · rw [admitSample_filtered hk, forcedCode_released hc]
    exact if_neg Bool.false_ne_true
  · rw [admitSample_filtered hk, forcedCode_engaged hc]
    exact if_pos rfl
  · intro b c k tw at_ held moved hk hs hd
    have hw := windowBoundary_due hk hs hd
    refine ⟨fun hi => ?_, fun hi hc he => ?_, fun q hi hc hq => ⟨?_, filterCode_bounds hq⟩⟩
    · exact does_of_run (f := fun b => b.windowBoundary n) rfl (hw.trans (if_pos hi))
    · refine does_of_run (f := fun b => b.windowBoundary n) rfl (hw.trans ((if_neg (Nat.not_lt.mpr hi)).trans ?_))
      have hnone : b.heldSamples n = [] := by
        unfold heldSamples
        rw [show b.aux.channels[n].samples = [] from he]
        rfl
      rw [forcedCode_counted hc, hnone, List.filter_nil, filterCode_nil]
      rfl
    · refine does_of_run (f := fun b => b.windowBoundary n) rfl (hw.trans ((if_neg (Nat.not_lt.mpr hi)).trans ?_))
      rw [forcedCode_counted hc]
      dsimp only
      rw [show filterCode (b.reg (Obj.auxFiltOrder n)) (b.windowCycles n * 400) (b.nextBoundary n)
        ((b.heldSamples n).filter fun s => decide (0 ≤ timeDiff (b.nextBoundary n) s.1)) = some q from hq]
      rfl
  · intro b
    refine ⟨fun r w ws hf hs hc => ?_, fun r hf hs hc => ?_, fun w ws hf => ?_, fun hf => ?_, fun r hr => ?_, fun o hm h0 h1 => ?_⟩
    · refine does_of_run (f := fun b => b.fifoRequest r) rfl ((fifoRequest_reads hs hc).trans ?_)
      unfold fifoRead
      rw [show (s.b.at_ t).aux.fifo = _ from hf]
    · refine does_of_run (f := fun b => b.fifoRequest r) rfl ((fifoRequest_reads hs hc).trans ?_)
      unfold fifoRead
      rw [show (s.b.at_ t).aux.fifo = _ from hf]
    · refine does_of_run (f := fun b => b.fifoBarRead) rfl ?_
      rw [fifoBarRead_eq, show (s.b.at_ t).aux.fifo = _ from hf]
    · refine does_of_run (f := fun b => b.fifoBarRead) rfl ?_
      rw [fifoBarRead_eq, show (s.b.at_ t).aux.fifo = _ from hf]
    · exact does_of_run (f := fun b => b.orTask r Obj.auxFifoFlush 1 295 Env.quiet) rfl (orTask_fifoFlush hr)
    · refine ⟨_, _, Nat.add_sub_of_le (divHalfAway_of_fraction h0 h1 _), rfl, does_of_run (f := fun b => b.echoPeriod o) rfl ?_⟩
      unfold echoPeriod
      extract_lets out drain
      rw [show (s.b.at_ t).reg (Obj.echoMode o) = 1 from hm]
      rfl

end Sys2Proof

/-! # Selects, latches, relays and the storm guard (R359 to R371) -/

namespace Sys2Proof.Machine.Block

section
variable {b : Block}

/-! ## What the guard's own report leaves -/

/-- The trips recorded, and what waits to be routed, stay; so do heads, registers and buffer. -/
structure GuardKept (b c : Block) : Prop where
  tripped : c.fabric.tripped = b.fabric.tripped
  last : c.fabric.stormLast = b.fabric.stormLast
  trips : c.fabric.stormTrips = b.fabric.stormTrips
  queue : ∀ s ∈ b.fabric.queue, s ∈ c.fabric.queue
  heads : c.heads = b.heads
  regs : c.regs = b.regs
  mem : c.mem = b.mem

namespace GuardKept

variable {c d : Block}

theorem refl (b : Block) : GuardKept b b := ⟨rfl, rfl, rfl, fun _ h => h, rfl, rfl, rfl⟩

theorem trans (h : GuardKept b c) (k : GuardKept c d) : GuardKept b d :=
  ⟨k.tripped.trans h.tripped, k.last.trans h.last, k.trips.trans h.trips, fun s hs => k.queue s (h.queue s hs), k.heads.trans h.heads,
    k.regs.trans h.regs, k.mem.trans h.mem⟩

/-- A record changed beside the fabric, the heads, the registers and the buffer. -/
theorem of_eq (hf : c.fabric = b.fabric) (hh : c.heads = b.heads) (hr : c.regs = b.regs) (hm : c.mem = b.mem) : GuardKept b c :=
  ⟨congrArg Fabric.tripped hf, congrArg Fabric.stormLast hf, congrArg Fabric.stormTrips hf, fun s hs => by rw [hf]; exact hs, hh, hr, hm⟩

theorem foldl {α : Type} {f : Block → α → Block} (h : ∀ c x, GuardKept c (f c x)) (l : List α) (b : Block) : GuardKept b (l.foldl f b) := by
  induction l generalizing b with
  | nil => exact refl b
  | cons x xs ih => exact (h b x).trans (ih _)

theorem raise (n : Nat) (b : Block) : GuardKept b (b.raise n) :=
  ⟨rfl, rfl, rfl, fun _ h => List.mem_append_left _ h, rfl, rfl, rfl⟩

theorem raiseIf (k : Bool) (n : Nat) (b : Block) : GuardKept b (b.raiseIf k n) := by
  cases k with
  | true => exact raise n b
  | false => exact refl b

theorem latchTask (n : Nat) (b : Block) : GuardKept b (b.latchTask n) := by
  unfold Block.latchTask
  extract_lets f
  split <;> exact ⟨rfl, rfl, rfl, fun _ h => h, rfl, rfl, rfl⟩

theorem relayInput (n : Nat) (x y : Bool) (b : Block) : GuardKept b (b.relayInput n x y) := by
  unfold Block.relayInput
  refine trans ?_ (raiseIf ..)
  exact ⟨rfl, rfl, rfl, fun _ h => h, rfl, rfl, rfl⟩

theorem deliver (n : Nat) (b : Block) : GuardKept b (b.deliver n) := by
  refine (foldl (fun c r => ?_) _ b).trans (foldl (fun c t => latchTask t c) _ _)
  dsimp only
  split
  · exact relayInput ..
  · exact refl c

theorem used (b : Block) : GuardKept b b.used := of_eq rfl rfl rfl rfl

theorem alert (n : Nat) (b : Block) : GuardKept b (b.alert n) := by
  unfold Block.alert
  dsimp only
  split
  · exact refl b
  split
  · refine trans ?_ (raiseIf ..)
    exact of_eq rfl rfl rfl rfl
  · exact of_eq rfl rfl rfl rfl

theorem emcyNow (m : Emcy) (b : Block) : GuardKept b (b.emcyNow m) := by
  unfold Block.emcyNow
  refine trans ?_ (raise ..)
  exact of_eq rfl rfl rfl rfl

theorem emcy (m : Emcy) (b : Block) : GuardKept b (b.emcy m) := by
  unfold Block.emcy
  split
  · exact refl b
  split
  · exact emcyNow m b
  split
  · exact emcyNow m b
  split <;> exact of_eq rfl rfl rfl rfl

theorem emcyCause (k i n s : Nat) (b : Block) : GuardKept b (b.emcyCause k i n s) := by
  unfold Block.emcyCause
  refine trans ?_ (emcy ..)
  exact of_eq rfl rfl rfl rfl

theorem writeFault (e : FaultEntry) (b : Block) : GuardKept b (b.writeFault e) := by
  unfold Block.writeFault
  refine trans (trans ?_ (alert ..)) (emcyCause ..)
  exact of_eq rfl rfl rfl rfl

theorem writeFaults (b : Block) : GuardKept b b.writeFaults := by
  unfold Block.writeFaults
  refine trans ?_ (foldl (fun c e => writeFault e c) ..)
  exact of_eq rfl rfl rfl rfl

theorem logFault (k u d s : Nat) (b : Block) : GuardKept b (b.logFault k u d s) := by
  unfold Block.logFault
  split <;> exact of_eq rfl rfl rfl rfl

end GuardKept

/-! ## The storm guard (R368, R369) -/

/-- The source's window is given up and its trip recorded. -/
def tripRecorded (n : Nat) (b : Block) : Block :=
  { b with fabric := { b.fabric with windows := b.fabric.windows.erase n, tripped := b.fabric.tripped.insert n b.now,
                                     stormTrips := satAdd b.fabric.stormTrips 1 max32, stormLast := n } }

theorem stormTrip_eq (n : Nat) (b : Block) : b.stormTrip n = (((b.tripRecorded n).logFault 0x0020 noUnit n 48).writeFaults).raise 48 := rfl

theorem stormTrip_kept (n : Nat) (b : Block) : GuardKept (b.tripRecorded n) (b.stormTrip n) := by
  rw [stormTrip_eq]
  exact (GuardKept.logFault ..).trans ((GuardKept.writeFaults _).trans (GuardKept.raise ..))

theorem queue_stormTrip (n : Nat) (b : Block) : 48 ∈ (b.stormTrip n).fabric.queue := by
  rw [stormTrip_eq]
  exact List.mem_append_right _ (List.mem_singleton.mpr rfl)

/-- What the end of a source's event leaves of its trip, whether the event is itself delivered or not. -/
theorem tripped_delivered (n : Nat) (b : Block) :
    GuardKept (b.stormTrip n) (if (b.stormTrip n).freeChoice then (b.stormTrip n).used.deliver n else (b.stormTrip n).used) := by
  split
  · exact (GuardKept.used _).trans (GuardKept.deliver ..)
  · exact GuardKept.used _

section
variable {n : Nat}

/-- An event awake in its open window. -/
theorem routeEvent_open {w : StormWin} (hs : b.asleep = false) (ht : b.fabric.tripped.get? n = none) (hw : b.fabric.windows.get? n = some w)
    (hp : passed w.opened 16000 b.now = false) : b.routeEvent n =
      if w.count ≥ 64 then (if (b.stormTrip n).freeChoice then (b.stormTrip n).used.deliver n else (b.stormTrip n).used)
      else Block.deliver n { b with fabric := { b.fabric with windows := b.fabric.windows.insert n { w with count := w.count + 1 } } } := by
  have hlen : b.windowLength n w = 16000 := by
    unfold windowLength
    rw [hs]
    rfl
  have hwake : ¬ (b.asleep && !b.sleepSource n) = true := by rw [hs]; exact Bool.false_ne_true
  unfold routeEvent
  rw [if_neg hwake, ht, hw]
  dsimp only
  rw [hlen, hp]
  rfl

theorem routeEvent_tripped {u : Time} (ht : b.fabric.tripped.get? n = some u) (hp : passed u 321 b.now = true) : b.routeEvent n = b := by
  unfold routeEvent
  rw [ht]
  dsimp only
  rw [show passed u (20 * tNs + 1) b.now = true from hp]
  exact ite_self _

theorem stormClose_passed {w : StormWin} (hw : b.fabric.windows.get? n = some w) (hs : b.asleep = false) (hp : passed w.opened 16000 b.now = true) :
    b.stormClose n = { b with fabric := { b.fabric with windows := b.fabric.windows.erase n } } := by
  have hlen : b.windowLength n w = 16000 := by
    unfold windowLength
    rw [hs]
    rfl
  unfold stormClose
  rw [hw]
  dsimp only
  rw [hlen, hp]
  rfl

/-! ## Latches (R359, R360) -/

theorem latchTask_first (h : b.fabric.latches.get? n = none) : b.latchTask n =
    { b with fabric := { b.fabric with latches := b.fabric.latches.insert n ⟨BitVec.ofNat 64 (b.now.toNat / 16 * 16), false⟩ } } := by
  unfold latchTask
  extract_lets f
  rw [show f.latches.get? n = none from h]

theorem latchTask_merged {l : Latch} (h : b.fabric.latches.get? n = some l) : b.latchTask n =
    { b with fabric := { b.fabric with latches := b.fabric.latches.insert n { l with merged := true },
                                       coincidences := b.fabric.coincidences.insert n (satAdd ((b.fabric.coincidences.get? n).getD 0) 1 max32) } } := by
  unfold latchTask
  extract_lets f
  rw [show f.latches.get? n = some l from h]

/-- A latched task alone is performed with the latch's stamp. -/
theorem latchSampled_alone {l : Latch} (mv : List Nat) (hl : b.fabric.latches.get? n = some l) (ha : b.taskAlive n = true) :
    b.latchSampled n Env.quiet mv = (b.unlatch n).taskDo n l.stamp { Env.quiet with merged := l.merged } mv := by
  have hlatched : b.latched n = true := by
    unfold latched
    rw [hl]
    rfl
  refine (if_pos hlatched).trans ?_
  unfold sampled
  extract_lets stamp e c
  rw [if_neg (by rw [show c.taskAlive n = true from ha]; exact Bool.false_ne_true)]
  refine (if_pos rfl).trans ?_
  rw [show stamp = l.stamp from by
    show b.stampOf n = _
    unfold stampOf
    rw [hl]]
  rw [show e = { Env.quiet with merged := l.merged } from by
    show ({ Env.quiet with merged := match b.fabric.latches.get? n with | some l => l.merged | none => false } : Env) = _
    rw [hl]]

theorem latchSampled_empty (e : Env) (mv : List Nat) (hl : b.fabric.latches.get? n = none) : b.latchSampled n e mv = b := by
  refine if_neg ?_
  unfold latched
  rw [hl]
  exact Bool.false_ne_true

end

/-! ## Relays (R371) -/

/-- An input 0 of a relay alone; its output follows unless the other input had an event in the last 2 ns. -/
theorem relayInput_first (k : Nat) (b : Block) : b.relayInput k true false =
    ({ b with fabric := { b.fabric with relayIn := b.fabric.relayIn.insert (16 + 2 * k) b.now } }).raiseIf
      (!(match b.fabric.relayIn.get? (17 + 2 * k) with | some x => !passed x (2 * tNs) b.now | none => false)) (56 + k) := by
  unfold relayInput
  extract_lets f recent merged m m'
  refine congrArg (fun v => raiseIf (!v) _ _) ?_
  show ((true && !false && recent (17 + 2 * k)) || (false && !true && recent (16 + 2 * k))) = _
  rw [show (true && !false && recent (17 + 2 * k)) = recent (17 + 2 * k) from rfl]
  exact Bool.or_false _

/-! ## The objects of the fabric -/

theorem writeDo_fabricFire (r : Route) (v : Nat) (b : Block) :
    b.writeDo Env.quiet r Obj.fabricFire.index Obj.fabricFire.sub v = some ((b.raise v).reply r .ok) :=
  (writeDo_pier Env.quiet r (index := 0x2301) _ _ b (by decide) (by decide)).trans rfl

theorem writeDo_stormRearm (r : Route) (v : Nat) (b : Block) :
    b.writeDo Env.quiet r Obj.fabricStormRearm.index Obj.fabricStormRearm.sub v = some ((b.stormRearm v).reply r .ok) :=
  (writeDo_pier Env.quiet r (index := 0x2301) _ _ b (by decide) (by decide)).trans rfl

theorem writeDo_selectObj (r : Route) (task : TaskId) (v : Nat) (b : Block) :
    b.writeDo Env.quiet r (Obj.fabricTaskSelect task).index (Obj.fabricTaskSelect task).sub v = some ((b.selectWrite task.val v).reply r .ok) := by
  have h := writeDo_taskSelect (taskSelect_index_range task) Env.quiet r (task.val % 128 + 1) v b
  rw [task_of_taskSelect] at h
  exact h

end

end Sys2Proof.Machine.Block

namespace Sys2Proof

open Machine Machine.Block

/-- Settles O34: the writes by what they do, a latched task by the task alone, the guard by the state of the source's window, a latch by
whether it is set. -/
theorem eventsAndStorms : Obligations.EventsAndStorms := by
  unfold Obligations.EventsAndStorms
  refine ⟨fun t s => ?_, fun n b => ⟨fun w hs ht hw hp hc => ?_, fun w hs _ ht hw hp hc => ?_, fun u ht hp => routeEvent_tripped ht hp⟩,
    fun n b _ => ⟨fun hl => ?_, fun l hl => ⟨?_, fun _ => ?_⟩, fun m hm => ?_⟩⟩
  · intro b
    refine ⟨fun r task source ha => ?_, fun task rail l hl ha => ?_, fun task rail e hl => ?_, fun r source ha => ?_, fun r source ha => ?_,
      fun source w hw hs hp => ?_, fun k hk => ?_, fun k u hk hp => ?_⟩
    · refine does_of_run (f := fun b => b.writeTo (Obj.fabricTaskSelect task.val) source.toNat r Env.quiet) rfl (writeTo_of_accepts ha ?_)
      rw [mod_u16 rfl source]
      exact writeDo_selectObj ..
    · exact does_of_run (f := fun b => b.latchSampled task.val Env.quiet rail) rfl (latchSampled_alone rail hl ha)
    · exact does_of_run (f := fun b => b.latchSampled task.val e rail) rfl (latchSampled_empty e rail hl)
    · refine does_of_run (f := fun b => b.writeTo Obj.fabricFire source.toNat r Env.quiet) rfl (writeTo_of_accepts ha ?_)
      rw [mod_u16 rfl source]
      exact writeDo_fabricFire ..
    · refine does_of_run (f := fun b => b.writeTo Obj.fabricStormRearm source.toNat r Env.quiet) rfl (writeTo_of_accepts ha ?_)
      rw [mod_u16 rfl source]
      exact writeDo_stormRearm ..
    · exact does_of_run (f := fun b => b.stormClose source.val) rfl (stormClose_passed hw hs hp)
    · refine does_of_run (f := fun b => if true || false then b.relayInput k.val true false else b) rfl ((relayInput_first k.val _).trans ?_)
      rw [show (s.b.at_ t).fabric.relayIn.get? (17 + 2 * k.val) = none from hk]
      rfl
    · refine does_of_run (f := fun b => if true || false then b.relayInput k.val true false else b) rfl ((relayInput_first k.val _).trans ?_)
      rw [show (s.b.at_ t).fabric.relayIn.get? (17 + 2 * k.val) = some u from hk]
      dsimp only
      rw [show passed u (2 * tNs) (s.b.at_ t).now = false from hp]
      rfl
  · exact (routeEvent_open hs ht hw hp).trans (if_neg (Nat.not_le.mpr hc))
  · have hkept := (stormTrip_kept n b).trans (tripped_delivered n b)
    rw [(routeEvent_open hs ht hw hp).trans (if_pos hc)]
    refine ⟨?_, hkept.last, hkept.trips, (tripped_delivered n b).queue _ (queue_stormTrip n b), hkept.heads, hkept.regs, hkept.mem⟩
    rw [hkept.tripped]
    exact (Map.get?_insert ..).trans (if_pos rfl)
  · rw [latchTask_first hl]
    exact (Map.get?_insert ..).trans (if_pos rfl)
  · rw [latchTask_merged hl]
    exact (Map.get?_insert ..).trans (if_pos rfl)
  · rw [latchTask_merged hl]
    exact (Map.get?_insert ..).trans (if_pos rfl)
  · cases hl : b.fabric.latches.get? n with
    | none =>
      rw [latchTask_first hl]
      exact (Map.get?_insert ..).trans (if_neg hm)
    | some l =>
      rw [latchTask_merged hl]
      exact (Map.get?_insert ..).trans (if_neg hm)

end Sys2Proof

/-! # Timer and counter units (R372 to R375) -/

namespace Sys2Proof.Machine.Block

section
variable {b : Block} {u : TimerId}

/-- The tasks that follow those of the ring (R377). -/
theorem taskDo_late {k : Nat} (hk : 418 ≤ k) (st : Time) (e : Env) (mv : List Nat) (b : Block) : b.taskDo k st e mv =
    if 420 ≤ k ∧ k < 448 then (if e.same then b.dmaBoth (Fin.ofNat 32 (k - 416)) else b.dmaRequest (Fin.ofNat 32 (k - 416)))
    else if 448 ≤ k ∧ k < 464 then b.interruptTask (Fin.ofNat 16 (k - 448))
    else if 464 ≤ k ∧ k < 472 then b.tpdoTask (Fin.ofNat 8 (k - 464)) e.same
    else if k = 472 then b.alertTask
    else if 480 ≤ k ∧ k < 512 then
      (if k % 2 = 0 then b.timerA (Fin.ofNat 16 ((k - 480) / 2)) e.same
        else if e.same then b.timerA (Fin.ofNat 16 ((k - 480) / 2)) true else b.timerB (Fin.ofNat 16 ((k - 480) / 2)))
    else b := by
  have hhead : ¬(32 ≤ k ∧ k < 288) := by omega
  have haxis : ¬(320 ≤ k ∧ k < 352) := by omega
  unfold taskDo
  rw [if_neg hhead, if_neg haxis]
  unfold pierTask
  have hne (m : Nat) (hm : m < 418) : k ≠ m := by omega
  rw [if_neg (hne 0 (by decide)), if_neg (hne 1 (by decide)), if_neg (hne 2 (by decide)), if_neg (hne 288 (by decide)),
    if_neg (hne 289 (by decide)), if_neg (hne 290 (by decide)), if_neg (hne 292 (by decide)), if_neg (hne 293 (by decide)),
    if_neg (hne 294 (by decide)), if_neg (hne 295 (by decide)), if_neg (hne 352 (by decide)), if_neg (hne 353 (by decide)),
    if_neg (hne 354 (by decide)), if_neg (hne 384 (by decide)), if_neg (hne 385 (by decide)), if_neg (hne 386 (by decide)),
    if_neg (hne 416 (by decide)), if_neg (hne 417 (by decide))]

theorem taskDo_timer (u : TimerId) {k : Nat} (hk : k = 480 + 2 * u.val ∨ k = 481 + 2 * u.val) (st : Time) {e : Env} (he : e.same = false)
    (mv : List Nat) (b : Block) : b.taskDo k st e mv = if k = 480 + 2 * u.val then b.timerA u false else b.timerB u := by
  have hu := u.isLt
  have hunit : Fin.ofNat 16 ((k - 480) / 2) = u := Fin.ext (by
    show (k - 480) / 2 % 16 = u.val
    omega)
  rw [taskDo_late (by omega), if_neg (by omega), if_neg (by omega), if_neg (by omega), if_neg (by omega), if_pos (by omega), hunit, he]
  rcases hk with rfl | rfl
  · rw [if_pos (by omega), if_pos rfl]
  · rw [if_neg (by omega), if_neg Bool.false_ne_true, if_neg (by omega)]

theorem sampled_timerA (ha : b.taskAlive (480 + 2 * u.val) = true) :
    b.sampled (480 + 2 * u.val) Env.quiet [] = (b.unlatch (480 + 2 * u.val)).timerA u false :=
  sampled_pier (f := fun b => b.timerA u false) ha fun _ _ => (taskDo_timer u (.inl rfl) _ (by rfl) _ _).trans (if_pos rfl)

theorem sampled_timerB (ha : b.taskAlive (481 + 2 * u.val) = true) :
    b.sampled (481 + 2 * u.val) Env.quiet [] = (b.unlatch (481 + 2 * u.val)).timerB u :=
  sampled_pier (f := fun b => b.timerB u) ha fun _ _ => (taskDo_timer u (.inr rfl) _ (by rfl) _ _).trans (if_neg (by omega))

/-- A unit with the values that a task takes from its objects (R372). -/
def taken (u : TimerId) (b : Block) : TimerUnit :=
  { b.fabric.timers[u] with period := b.reg (Obj.timerPeriod u), limit := b.reg (Obj.timerLimit u), alarm := BitVec.ofNat 64 (b.reg (Obj.timerAlarm u)) }

theorem timerA_period (hm : b.reg (Obj.timerMode u) = 1 ∨ b.reg (Obj.timerMode u) = 2) : b.timerA u false = b.modTimer u fun _ =>
    { b.taken u with running := true, endAt := later b.now (periodTicks (b.reg (Obj.timerClock u)) (b.reg (Obj.timerPeriod u))) } := by
  unfold timerA
  obtain h | h := hm <;> rw [h] <;> rfl

theorem timerA_counter (hm : b.reg (Obj.timerMode u) = 3) : b.timerA u false =
    if (b.taken u).limit ≤ (b.taken u).count + 1 then (b.modTimer u fun _ => { b.taken u with count := 0 }).raise (32 + u.val)
    else b.modTimer u fun _ => { b.taken u with count := (b.taken u).count + 1 } := by
  unfold timerA
  rw [hm]
  rfl

theorem timerA_alarm (hm : b.reg (Obj.timerMode u) = 4) : b.timerA u false =
    if b.reg (Obj.timerClock u) = 1 then b.raise 50
    else if due (b.taken u).alarm b.now then (b.modTimer u fun _ => { b.taken u with running := false }).raise (32 + u.val)
    else b.modTimer u fun _ => { b.taken u with running := true, endAt := (b.taken u).alarm } := by
  unfold timerA
  rw [hm]
  rfl

theorem timerB_stops (hm : b.reg (Obj.timerMode u) = 1 ∨ b.reg (Obj.timerMode u) = 2 ∨ b.reg (Obj.timerMode u) = 4) :
    b.timerB u = b.modTimer u fun x => { x with running := false } := by
  unfold timerB
  obtain h | h | h := hm <;> rw [h] <;> rfl

theorem timerB_zeroes (hm : b.reg (Obj.timerMode u) = 3) : b.timerB u = b.modTimer u fun x => { x with count := 0 } := by
  unfold timerB
  rw [hm]
  rfl

/-- A unit that runs to its end. -/
theorem timerEnd_due {modes : List Nat} (hr : b.fabric.timers[u].running = true) (hm : modes.contains (b.reg (Obj.timerMode u)) = true)
    (hd : due b.fabric.timers[u].endAt b.now = true) : b.timerEnd u modes false =
      if b.reg (Obj.timerMode u) = 2 then
        (b.modTimer u fun x => { x with endAt := later x.endAt (periodTicks (b.reg (Obj.timerClock u)) x.period) }).raise (32 + u.val)
      else (b.modTimer u fun x => { x with running := false }).raise (32 + u.val) :=
  (if_pos (Bool.and_eq_true_iff.mpr ⟨Bool.and_eq_true_iff.mpr ⟨hr, hm⟩, hd⟩)).trans (if_neg Bool.false_ne_true)

end

end Sys2Proof.Machine.Block

namespace Sys2Proof

open Machine Machine.Block

/-- Settles O36: the task of a unit, and its end, by the unit's mode. -/
theorem timersRun : Obligations.TimersRun := by
  unfold Obligations.TimersRun
  intro t u s b mode clock period x a z
  have taskA {n : Block} (ha : b.taskAlive (480 + 2 * u.val) = true) (h : a.timerA u false = n) : Does (.timerATask t u false) s n :=
    does_of_run (f := fun b => b.sampled (480 + 2 * u.val) Env.quiet []) rfl ((sampled_timerA ha).trans h)
  have taskB {n : Block} (ha : b.taskAlive (481 + 2 * u.val) = true) (h : z.timerB u = n) : Does (.timerBTask t u false) s n :=
    does_of_run (f := fun b => b.sampled (481 + 2 * u.val) Env.quiet []) rfl ((sampled_timerB ha).trans h)
  refine ⟨fun ha => ⟨fun hm => ?_, fun hm hc => ?_, fun hm hc => ?_, fun hm hc hd => ?_, fun hm hc => ?_⟩,
    fun ha => ⟨fun hm => ?_, fun hm => ?_⟩, fun hr hd => ⟨fun hm => ?_, fun hm => ?_, fun hm => ?_⟩⟩
  · exact taskA ha (timerA_period hm)
  · exact taskA ha ((timerA_counter (b := a) hm).trans (if_neg (Nat.not_le.mpr hc)))
  · exact taskA ha ((timerA_counter (b := a) hm).trans (if_pos hc))
  · exact taskA ha ((timerA_alarm (b := a) hm).trans ((if_neg hc).trans (if_neg fun h => Bool.false_ne_true (hd.symm.trans h))))
  · exact taskA ha ((timerA_alarm (b := a) hm).trans (if_pos hc))
  · exact taskB ha (timerB_stops hm)
  · exact taskB ha (timerB_zeroes hm)
  · have hmode : b.reg (Obj.timerMode u) = 1 := hm
    exact does_of_run (f := fun b => b.timerEnd u [1, 2] false) rfl
      ((timerEnd_due hr (by rw [hmode]; rfl) hd).trans (if_neg (by rw [hmode]; decide)))
  · have hmode : b.reg (Obj.timerMode u) = 2 := hm
    exact does_of_run (f := fun b => b.timerEnd u [1, 2] false) rfl
      ((timerEnd_due hr (by rw [hmode]; rfl) hd).trans (if_pos hmode))
  · have hmode : b.reg (Obj.timerMode u) = 4 := hm
    exact does_of_run (f := fun b => b.timerEnd u [4] false) rfl
      ((timerEnd_due hr (by rw [hmode]; rfl) hd).trans (if_neg (by rw [hmode]; decide)))

end Sys2Proof

/-! # Commands of the DMA channels (R387 to R389, R396, R398) -/

namespace Sys2Proof.Machine.Block

section
variable {b : Block} {c : ChanId}

/-! ## The record of a channel -/

theorem channels_modDma_same (c : ChanId) (f : DmaChannel → DmaChannel) (b : Block) : (b.modDma c f).dma.channels[c] = f b.dma.channels[c] :=
  Vector.getElem_set_self c.isLt

theorem channels_modDma_other {k : ChanId} (h : k ≠ c) (f : DmaChannel → DmaChannel) (b : Block) :
    (b.modDma c f).dma.channels[k] = b.dma.channels[k] :=
  Vector.getElem_set_ne c.isLt k.isLt fun hv => h (Fin.ext hv.symm)

theorem modDma_modDma (c : ChanId) (f g : DmaChannel → DmaChannel) (b : Block) : (b.modDma c f).modDma c g = b.modDma c fun x => g (f x) := by
  unfold modDma
  dsimp only
  rw [Vector.set_set]
  refine congrArg (fun v => ({ b with dma := { b.dma with channels := v } } : Block)) (congrArg (Vector.set b.dma.channels c.val · c.isLt) ?_)
  exact congrArg g (Vector.getElem_set_self c.isLt)

theorem dmaFree_true (h : (b.activeOf c).st ≠ 2) : b.dmaFree c = true := bne_iff_ne.mpr h

theorem dmaFree_false (h : (b.activeOf c).st = 2) : b.dmaFree c = false := by
  unfold dmaFree
  rw [h]
  rfl

/-! ## The operations -/

theorem dmaGo_idle (ha : (b.activeOf c).st ≠ 2) (hs : (b.shadowOf c).st = 1) :
    b.dmaGo c = (b.modDma c fun x => { x with stopped := false }).activate c := by
  refine if_pos ?_
  rw [show (b.modDma c fun x => { x with stopped := false }).dmaFree c = true from dmaFree_true ha,
    show ((b.modDma c fun x => { x with stopped := false }).shadowOf c).st = 1 from hs]
  rfl

theorem dmaGo_running (ha : (b.activeOf c).st = 2) : b.dmaGo c = b.modDma c fun x => { x with stopped := false } := by
  refine if_neg ?_
  rw [show (b.modDma c fun x => { x with stopped := false }).dmaFree c = false from dmaFree_false ha]
  exact Bool.false_ne_true

theorem dmaStop_running (ha : (b.activeOf c).st = 2) : b.dmaStop c =
    if b.dma.channels[c].begun then b.modDma c fun x => { x with stopped := true }
    else ((b.modDma c fun x => { x with stopped := true }).setActiveState c 6 0).modDma c fun x => { x with admitted := false, fetching := false } :=
  if_neg (by rw [dmaFree_false ha]; exact Bool.false_ne_true)

/-- A fence of an idle channel proves at once (R398). -/
theorem dmaFence_idle (ha : (b.activeOf c).st ≠ 2) (he : b.dma.channels[c].ending = false) : b.dmaFence c =
    ((b.setReg (Obj.dmaArrived c) b.dma.channels[c].lastTag).modDma c fun x =>
      { x with fence := false, fenceTag := b.dma.channels[c].lastTag }).raise (865 + 2 * c.val) := by
  have hfree := dmaFree_true ha
  unfold dmaFence
  extract_lets x tag d
  have htag : tag = b.dma.channels[c].lastTag := if_pos (.inl hfree)
  have hchan : d.dma.channels[c] = { b.dma.channels[c] with fence := true, fenceTag := tag } := channels_modDma_same ..
  refine (if_pos hfree).trans ?_
  unfold fenceProven
  extract_lets y f
  have hfence : y.fence = true := congrArg DmaChannel.fence hchan
  have hending : y.ending = false := (congrArg DmaChannel.ending hchan).trans he
  have harrived : y.fenceTag = tag := congrArg DmaChannel.fenceTag hchan
  rw [if_neg (by rw [hfence]; exact Bool.false_ne_true), if_neg (by rw [hending]; exact Bool.false_ne_true)]
  show (((d.setReg (Obj.dmaArrived c) y.fenceTag).modDma c fun x => { x with fence := false }).raise (865 + 2 * c.val)) = _
  rw [harrived, show (d.setReg (Obj.dmaArrived c) tag) = (b.setReg (Obj.dmaArrived c) tag).modDma c fun x => { x with fence := true, fenceTag := tag } from rfl,
    modDma_modDma, htag]

theorem shadowEmpty_loaded (h : (b.shadowOf c).st = 1) : b.shadowEmpty c = b.setReg (Obj.dmaShadowStatus c) 0 := if_pos h

theorem dmaRequest_go (ha : (b.activeOf c).st ≠ 2) (hs : (b.shadowOf c).st = 1) (hp : (b.shadowOf c).pace ≤ 1) :
    b.dmaRequest c = (b.modDma c fun x => { x with stopped := false }).activate c := by
  have hfree := dmaFree_true ha
  unfold dmaRequest
  extract_lets d e
  have hd : d = b.shadowOf c := if_pos hfree
  rw [if_neg (fun h => h.2 hs), if_pos (by rw [hd]; omega)]
  exact dmaGo_idle ha hs

/-! ## The ways of a command -/

/-- A command asked for by a write of the dictionary, or through BAR0 (R387). -/
def CommandAsked (r : Option Route) (c : ChanId) (v : Nat) (b : Block) : Prop :=
  match r with
  | some r => b.acceptsObj Env.quiet r (Obj.dmaCommand c.val) v = true
  | none => b.host.linkUp = true ∧ b.channelViolations c = [] ∧ b.barMinority 0x2400 = false

/-- The port of a command by write or through BAR0. -/
def portOf (r : Option Route) : Port := match r with | some r => .write r | none => .bar0

theorem ofNat_chan (c : ChanId) : Fin.ofNat 32 c.val = c := Fin.ext (Nat.mod_eq_of_lt c.isLt)

theorem writeDo_dmaCommand (r : Route) (c : ChanId) (v : Nat) (b : Block) :
    b.writeDo Env.quiet r (Obj.dmaCommand c).index (Obj.dmaCommand c).sub v = some ((b.dmaCommand c v false).reply r .ok) := by
  refine (writeDo_pier Env.quiet r (index := 0x2402) _ _ b (by decide) (by decide)).trans ?_
  show some ((b.dmaCommand (Fin.ofNat 32 (1 + c.val - 1)) v false).reply r .ok) = _
  rw [Nat.add_sub_cancel_left, ofNat_chan]

/-- A dword of a channel's registers in BAR0 (R401). -/
theorem barWrite_channel (hup : b.host.linkUp = true) (c : ChanId) {off : Nat} (ho : off < 256 ∧ off % 4 = 0) {v : Nat} (hv : v < 2 ^ 32) (e : Env) :
    b.barWrite (0x10000 + off + 256 * c.val) 4 v [] e = b.barChannel c off v e.same := by
  have hc := c.isLt
  have hn : (0x10000 + off + 256 * c.val - 0x10000) / 256 = c.val := by omega
  have hr : (0x10000 + off + 256 * c.val) % 256 = off := by omega
  rw [barWrite_dword hup (by omega), barDword, if_neg (by omega), if_neg (by omega), if_pos (by omega), hn, hr, ofNat_chan, Nat.mod_eq_of_lt hv]

theorem barChannel_command (hc : b.channelViolations c = []) (hm : b.barMinority 0x2400 = false) {v : Nat} (hv : v ≠ 0 ∧ v ≤ 4) :
    b.barChannel c 0x80 v false = b.dmaCommand c v false := by
  refine if_neg ?_
  rw [hc, hm]
  simp [hv]

theorem channelCommand_asked {r : Option Route} {v : Nat} (h : b.CommandAsked r c v) (hv : v ≠ 0 ∧ v ≤ 4) :
    b.channelCommand c v (portOf r) Env.quiet = (b.dmaCommand c v false).answered r .ok := by
  cases r with
  | some r =>
    refine writeTo_of_accepts h ?_
    rw [mod_u8 rfl (by omega)]
    exact writeDo_dmaCommand r c v b
  | none =>
    obtain ⟨hup, hc, hm⟩ := h
    exact (barWrite_channel hup c (off := 0x80) (by decide) (by omega) Env.quiet).trans (barChannel_command hc hm hv)

/-- A request or go by the task of a channel (R394). -/
theorem sampled_dmaRequest (hc : 4 ≤ c.val) (ha : b.taskAlive (416 + c.val) = true) :
    b.sampled (416 + c.val) Env.quiet [] = (b.unlatch (416 + c.val)).dmaRequest c := by
  refine sampled_pier (f := fun b => b.dmaRequest c) ha fun _ _ => ?_
  have hlt := c.isLt
  rw [taskDo_late (by omega), if_pos (by omega), Nat.add_sub_cancel_left, ofNat_chan]
  rfl

end

end Sys2Proof.Machine.Block

namespace Sys2Proof

open Machine Machine.Block

/-- Settles O37: a command that is asked for reaches its operation by either way, and the states of the two sets decide what it does. -/
theorem channelsAreCommanded : Obligations.ChannelsAreCommanded := by
  unfold Obligations.ChannelsAreCommanded
  intro t r c s b p asked
  have hasked {v : Nat} (h : asked v) : b.CommandAsked r c v := by cases r <;> exact h
  have command {v : Nat} {n : Block} (ha : asked v) (hv : v ≠ 0 ∧ v ≤ 4) (h : b.dmaCommand c v false = n) :
      b.channelCommand c v p Env.quiet = n.answered r .ok := by
    refine Eq.trans ?_ ((channelCommand_asked (hasked ha) hv).trans (congrArg (fun n : Block => n.answered r .ok) h))
    cases r <;> rfl
  have port : p = portOf r := by cases r <;> rfl
  refine ⟨fun ha hst hsh => ?_, fun ha hst => ?_, fun ha hst hb => ?_, fun ha hst hb => ?_, fun ha hst he => ?_, fun ha hsh => ?_,
    fun hc ha hst hsh hp => ?_, fun hs => ?_⟩
  · exact does_of_run (f := fun b => b.channelCommand c 1 p Env.quiet) rfl (command ha (by decide) (dmaGo_idle hst hsh))
  · exact does_of_run (f := fun b => b.channelCommand c 1 p Env.quiet) rfl (command ha (by decide) (dmaGo_running hst))
  · have h := command ha (by decide) ((dmaStop_running hst).trans (if_neg (by rw [show b.dma.channels[c].begun = false from hb]; exact Bool.false_ne_true)))
    rw [port] at h
    exact does_of_run (f := fun b => b.channelCommand c 2 (portOf r) Env.quiet) (by cases r <;> rfl) h
  · have h := command ha (by decide) ((dmaStop_running hst).trans (if_pos hb))
    rw [port] at h
    exact does_of_run (f := fun b => b.channelCommand c 2 (portOf r) Env.quiet) (by cases r <;> rfl) h
  · have h := command ha (by decide) (dmaFence_idle hst he)
    rw [port] at h
    exact does_of_run (f := fun b => b.channelCommand c 3 (portOf r) Env.quiet) (by cases r <;> rfl) h
  · have h := command ha (by decide) (shadowEmpty_loaded hsh)
    rw [port] at h
    exact does_of_run (f := fun b => b.channelCommand c 4 (portOf r) Env.quiet) (by cases r <;> rfl) h
  · refine does_of_run (f := fun b => b.channelCommand c 1 .task Env.quiet) rfl ((if_pos hc).trans ((sampled_dmaRequest hc ha).trans ?_))
    exact dmaRequest_go (b := b.unlatch (416 + c.val)) hst hsh hp
  · exact does_of_run (f := fun b => b.abandonSlot c) rfl (if_pos hs)

end Sys2Proof

/-! # Register sets of the DMA engine (R383 to R400) -/

namespace Sys2Proof.Machine

/-- A number that is not negative, as it stands in a register. -/
theorem ofSigned_natCast (w v : Nat) : ofSigned w (v : Int) % 2 ^ w = v % 2 ^ w := by
  unfold ofSigned
  rw [show ((v : Int) % (2 ^ w : Int)).toNat = v % 2 ^ w from by
    rw [show (2 ^ w : Int) = ((2 ^ w : Nat) : Int) from by push_cast; rfl, ← Int.natCast_emod]
    rfl]
  exact Nat.mod_mod ..

namespace Block

/-- An accepted write brings no code of its chapter. -/
theorem chapterCodes_of_accepts {e : Env} {r : Route} {o : Obj} {v : Nat} {b : Block} (h : b.acceptsObj e r o v = true) :
    ∃ new, b.chapterCodes e o.index o.sub (v % 256 ^ (o.ty.bits / 8)) new = [] := by
  unfold acceptsObj accepts at h
  obtain ⟨-, h⟩ := Bool.and_eq_true_iff.mp h
  cases hrow : findRow o.index o.sub with
  | none => rw [hrow] at h; exact absurd h Bool.false_ne_true
  | some row =>
    rw [hrow] at h
    obtain ⟨hbits, hcodes⟩ := Bool.and_eq_true_iff.mp h
    have hnil : b.writeCodes e r row o.index o.sub (leBytes (o.ty.bits / 8) v) = [] := List.isEmpty_iff.mp hcodes
    unfold writeCodes at hnil
    dsimp only at hnil
    obtain ⟨hfront, hback⟩ := List.append_eq_nil_iff.mp hnil
    obtain ⟨-, hdata⟩ := List.append_eq_nil_iff.mp hfront
    have hlen : (leBytes (o.ty.bits / 8) v).length * 8 = row.ty.bits := by
      by_contra hne
      unfold Row.dataCodes at hdata
      rw [if_neg (bne_iff_ne.mp hbits), if_pos hne] at hdata
      exact List.cons_ne_nil _ _ hdata
    rw [if_pos (beq_iff_eq.mpr hlen), leNat_leBytes] at hback
    exact ⟨_, (List.append_eq_nil_iff.mp hback).2⟩

/-! ## Registers written one after another -/

theorem reg_foldl_setRegI {l : List (Obj × Int)} {o : Obj} {v : Int} (hp : l.Pairwise fun p q => p.1.key ≠ q.1.key) (hm : (o, v) ∈ l) (b : Block) :
    (l.foldl (fun b p => b.setRegI p.1 p.2) b).reg o = ofSigned o.ty.bits v % 2 ^ o.ty.bits := by
  have hout (l : List (Obj × Int)) (ho : ∀ p ∈ l, o.key ≠ p.1.key) (b : Block) : (l.foldl (fun b p => b.setRegI p.1 p.2) b).reg o = b.reg o := by
    induction l generalizing b with
    | nil => rfl
    | cons p l ih => exact (ih (fun q hq => ho q (List.mem_cons_of_mem _ hq)) _).trans (reg_setReg_ne _ _ _ _ (ho p List.mem_cons_self))
  induction l generalizing b with
  | nil => exact absurd hm List.not_mem_nil
  | cons p l ih =>
    obtain ⟨hhead, htail⟩ := List.pairwise_cons.mp hp
    rcases List.mem_cons.mp hm with rfl | hm
    · exact (hout l hhead _).trans (reg_setReg_self ..)
    · exact ih htail hm _

section
variable {b : Block} {c : ChanId}

/-! ## The objects of a channel -/

/-- The registers of a channel that its commands and ends touch. -/
def chanRegs (c : ChanId) : List Obj := descObjs true c ++ descObjs false c ++ [Obj.dmaPending c, Obj.dmaArrived c, Obj.dmaEnded c]

/-- Where a register of a channel stands in the dictionary. -/
def ChanPlace (c : ChanId) (o : Obj) : Prop :=
  (o.index = 0x2440 + c.val ∧ 1 ≤ o.sub ∧ o.sub ≤ 13) ∨ (o.index = 0x2460 + c.val ∧ 1 ≤ o.sub ∧ o.sub ≤ 13) ∨
    (0x2407 ≤ o.index ∧ o.index ≤ 0x240C ∧ o.sub = 1 + c.val)

theorem descObjs_place {shadow : Bool} {c : Nat} {o : Obj} (h : o ∈ descObjs shadow c) :
    o.index = (if shadow then 0x2440 else 0x2460) + c ∧ 1 ≤ o.sub ∧ o.sub ≤ 13 := by
  cases shadow <;> simp only [descObjs, if_true, Bool.false_eq_true, if_false, List.mem_cons, List.not_mem_nil, or_false] at h ⊢ <;>
    rcases h with rfl | rfl | rfl | rfl | rfl | rfl | rfl | rfl | rfl | rfl | rfl | rfl | rfl <;>
    exact ⟨rfl, Nat.le_of_ble_eq_true rfl, Nat.le_of_ble_eq_true rfl⟩

theorem chanPlace_of_mem {o : Obj} (h : o ∈ chanRegs c) : ChanPlace c o := by
  rcases List.mem_append.mp h with h | h
  · rcases List.mem_append.mp h with h | h
    · exact .inl (descObjs_place h)
    · exact .inr (.inl (descObjs_place h))
  · refine .inr (.inr ?_)
    simp only [List.mem_cons, List.not_mem_nil, or_false] at h
    rcases h with rfl | rfl | rfl <;> exact ⟨Nat.le_of_ble_eq_true rfl, Nat.le_of_ble_eq_true rfl, rfl⟩

theorem mem_chanRegs (c : ChanId) : Obj.dmaPending c ∈ chanRegs c ∧ Obj.dmaArrived c ∈ chanRegs c ∧ Obj.dmaEnded c ∈ chanRegs c :=
  ⟨List.mem_append_right _ (by simp), List.mem_append_right _ (by simp), List.mem_append_right _ (by simp)⟩

theorem descObjs_subset (shadow : Bool) (c : ChanId) : ∀ o ∈ descObjs shadow c, o ∈ chanRegs c := by
  intro o h
  refine List.mem_append_left _ ?_
  cases shadow with
  | true => exact List.mem_append_left _ h
  | false => exact List.mem_append_right _ h

theorem shadowStatus_mem (c : ChanId) : Obj.dmaShadowStatus c ∈ chanRegs c := descObjs_subset true c _ (by simp [descObjs])

theorem activeStatus_mem (c : ChanId) : Obj.dmaActiveStatus c ∈ chanRegs c := descObjs_subset false c _ (by simp [descObjs])

/-- The registers of another channel are others. -/
theorem activeStatus_ne_chanRegs {k : ChanId} (h : k ≠ c) : ∀ x ∈ chanRegs c, (Obj.dmaActiveStatus k).key ≠ x.key := by
  intro x hx
  have hv : k.val ≠ c.val := fun hv => h (Fin.ext hv)
  have hk := k.isLt
  have hc := c.isLt
  simp only [Obj.key, Obj.dmaActiveStatus]
  rcases chanPlace_of_mem hx with ⟨hi, h1, h2⟩ | ⟨hi, h1, h2⟩ | ⟨h1, h2, hs⟩ <;> omega

theorem mask_ne_chanRegs {o : Obj} (ho : o = Obj.dmaFenceMask ∨ o = Obj.dmaStopMask) : ∀ x ∈ chanRegs c, o.key ≠ x.key := by
  intro x hx
  have hc := c.isLt
  have hindex : o.key = 0x2401 * 256 + 1 ∨ o.key = 0x2401 * 256 + 2 := ho.imp (fun h => by rw [h]; rfl) fun h => by rw [h]; rfl
  have hx' : x.key = x.index * 256 + x.sub := rfl
  rcases chanPlace_of_mem hx with ⟨hi, h1, h2⟩ | ⟨hi, h1, h2⟩ | ⟨h1, h2, hs⟩ <;> omega

theorem outside_ne_chanRegs {o : Obj} (hs : o.sub < 256) (ho : o.index < 0x2400 ∨ 0x2480 ≤ o.index) : ∀ x ∈ chanRegs c, o.key ≠ x.key := by
  intro x hx
  have hc := c.isLt
  simp only [Obj.key]
  rcases chanPlace_of_mem hx with ⟨hi, h1, h2⟩ | ⟨hi, h1, h2⟩ | ⟨h1, h2, hsub⟩ <;> omega

theorem pairwise_descObjs (shadow : Bool) (c : Nat) : (descObjs shadow c).Pairwise fun o p => o.key ≠ p.key := by
  cases shadow <;> simp [descObjs, Obj.key, Obj.dmaShadowSrc, Obj.dmaShadowDst, Obj.dmaShadowN0, Obj.dmaShadowN1, Obj.dmaShadowN2, Obj.dmaShadowSstep1,
    Obj.dmaShadowDstep1, Obj.dmaShadowSstep2, Obj.dmaShadowDstep2, Obj.dmaShadowCtrl, Obj.dmaShadowStatus, Obj.dmaShadowLink, Obj.dmaShadowTag,
    Obj.dmaActiveSrc, Obj.dmaActiveDst, Obj.dmaActiveN0, Obj.dmaActiveN1, Obj.dmaActiveN2, Obj.dmaActiveSstep1, Obj.dmaActiveDstep1,
    Obj.dmaActiveSstep2, Obj.dmaActiveDstep2, Obj.dmaActiveCtrl, Obj.dmaActiveStatus, Obj.dmaActiveLink, Obj.dmaActiveTag]

/-! ## A register set written whole -/

/-- The values of a register set, in the order of its objects (R383). -/
def descValues (d : Desc) : List Int :=
  [d.src, d.dst, d.n0, d.n1, d.n2, d.sstep1, d.dstep1, d.sstep2, d.dstep2, d.ctrl, d.status, d.link, d.tag]

theorem reg_setDesc {shadow : Bool} {d : Desc} {o : Obj} {v : Int} (hm : (o, v) ∈ (descObjs shadow c).zip (descValues d)) (b : Block) :
    (b.setDesc shadow c d).reg o = ofSigned o.ty.bits v % 2 ^ o.ty.bits := by
  refine reg_foldl_setRegI ?_ hm b
  have hmap : ((descObjs shadow c).zip (descValues d)).map Prod.fst = descObjs shadow c := List.map_fst_zip (by cases shadow <;> exact Nat.le_refl 13)
  have hp := pairwise_descObjs shadow c
  rw [← hmap] at hp
  exact (List.pairwise_map (f := Prod.fst) (R := fun o p : Obj => o.key ≠ p.key)).mp hp

theorem leaves_setDesc (shadow : Bool) (d : Desc) (b : Block) : Leaves [] (descObjs shadow c) b (b.setDesc shadow c d) :=
  (Leaves.refl _ _ b).foldl _ _ fun n _ hx => (Leaves.refl _ _ n).setRegI _ _ (List.of_mem_zip hx).1

/-! ## Activation (R388) -/

/-- The shadow copied to the active set, and emptied. -/
def shadowTaken (c : ChanId) (b : Block) : Block := (b.setDesc false c ((b.shadowOf c).withState 2 0)).setShadowState c 0

/-- The channel at the first beat of its loops. -/
def activated (c : ChanId) (b : Block) : Block := (b.shadowTaken c).modDma c fun x =>
  { x with i2 := 0, i1 := 0, off := 0, begun := false, passed := false, host := b.hostOf ((b.shadowOf c).withState 2 0),
           fetching := ((b.shadowOf c).withState 2 0).linked, open_ := ((b.shadowOf c).withState 2 0).line != 0, admitted := false, ending := false }

theorem activate_eq (c : ChanId) (b : Block) : b.activate c = (b.activated c).admitPending c := rfl

theorem leaves_shadowTaken (c : ChanId) (b : Block) : Leaves [] (chanRegs c) b (b.shadowTaken c) :=
  (((Leaves.refl [] (chanRegs c) b).of_part (leaves_setDesc false _ b) (List.nil_subset _) (descObjs_subset false c)).setReg _ _ (shadowStatus_mem c))

theorem leaves_admitPending (c : ChanId) (b : Block) : Leaves [.dma] [Obj.dmaPending c] b (b.admitPending c) := by
  unfold admitPending
  extract_lets d
  split
  · exact ((Leaves.refl _ _ b).setReg _ _ (List.mem_singleton_self _)).modDma _ _ (List.mem_singleton_self _)
  · exact .refl _ _ b

theorem leaves_activated (c : ChanId) (b : Block) : Leaves [.dma] (chanRegs c) b (b.activated c) :=
  ((Leaves.refl [.dma] (chanRegs c) b).of_part (leaves_shadowTaken c b) (List.nil_subset _) (List.Subset.refl _)).modDma _ _ (List.mem_singleton_self _)

theorem leaves_activate (c : ChanId) (b : Block) : Leaves [.dma] (chanRegs c) b (b.activate c) :=
  (leaves_activated c b).of_part (leaves_admitPending c _) (List.Subset.refl _) (List.cons_subset.mpr ⟨(mem_chanRegs c).1, List.nil_subset _⟩)

theorem outs_admitPending (c : ChanId) (b : Block) : (b.admitPending c).outs = b.outs := by
  unfold admitPending
  extract_lets d
  split <;> rfl

theorem outs_modDma (f : DmaChannel → DmaChannel) (b : Block) : (b.modDma c f).outs = b.outs := rfl

theorem outs_setDesc (shadow : Bool) (d : Desc) (b : Block) : (b.setDesc shadow c d).outs = b.outs := foldl_keeps Block.outs _ _ _ fun _ _ => rfl

theorem outs_setShadowState (k : Nat) (b : Block) : (b.setShadowState c k).outs = b.outs := rfl

theorem outs_activate (c : ChanId) (b : Block) : (b.activate c).outs = b.outs := by
  rw [activate_eq, outs_admitPending]
  unfold activated shadowTaken
  rw [outs_modDma, outs_setShadowState, outs_setDesc]

theorem reg_modDma (f : DmaChannel → DmaChannel) (o : Obj) (b : Block) : (b.modDma c f).reg o = b.reg o := rfl

theorem reg_activated (o : Obj) (b : Block) : (b.activated c).reg o = (b.shadowTaken c).reg o := by
  unfold activated
  exact reg_modDma ..

/-- What a pending unit changes of a channel (R394). -/
theorem channels_admitPending (c : ChanId) (b : Block) : ∃ a : Bool,
    (b.admitPending c).dma.channels[c] = { b.dma.channels[c] with admitted := a } := by
  unfold admitPending
  extract_lets d
  split
  · exact ⟨true, channels_modDma_same ..⟩
  · exact ⟨b.dma.channels[c].admitted, rfl⟩

theorem channels_admitPending_other {k : ChanId} (h : k ≠ c) (b : Block) : (b.admitPending c).dma.channels[k] = b.dma.channels[k] := by
  unfold admitPending
  extract_lets d
  split
  · exact channels_modDma_other h ..
  · rfl

theorem channels_activated_other {k : ChanId} (h : k ≠ c) (b : Block) : (b.activated c).dma.channels[k] = b.dma.channels[k] :=
  (channels_modDma_other h ..).trans (congrArg (fun x : Dma => x.channels[k]) ((leaves_shadowTaken c b).dma List.not_mem_nil))

/-- A channel whose set is activated begins at the first beat of its loops. -/
theorem channels_activate (c : ChanId) (b : Block) : (b.activate c).dma.channels[c].i2 = 0 ∧ (b.activate c).dma.channels[c].i1 = 0 ∧
    (b.activate c).dma.channels[c].off = 0 ∧ (b.activate c).dma.channels[c].begun = false := by
  obtain ⟨a, ha⟩ := channels_admitPending c (b.activated c)
  rw [activate_eq, ha]
  have h : (b.activated c).dma.channels[c].i2 = 0 ∧ (b.activated c).dma.channels[c].i1 = 0 ∧
      (b.activated c).dma.channels[c].off = 0 ∧ (b.activated c).dma.channels[c].begun = false := by
    unfold activated
    rw [channels_modDma_same]
    exact ⟨rfl, rfl, rfl, rfl⟩
  exact h

theorem pending_ne_descObjs {shadow : Bool} {o : Obj} (h : o ∈ descObjs shadow c) : o.key ≠ (Obj.dmaPending c).key := by
  have hc := c.isLt
  obtain ⟨hi, h1, h2⟩ := descObjs_place h
  simp only [Obj.key, Obj.dmaPending]
  split at hi <;> omega

theorem shadowStatus_ne_active {o : Obj} (h : o ∈ descObjs false c) : o.key ≠ (Obj.dmaShadowStatus c).key := by
  have hc := c.isLt
  obtain ⟨hi, h1, h2⟩ := descObjs_place h
  simp only [Obj.key, Obj.dmaShadowStatus, Bool.false_eq_true, if_false] at *
  omega

/-- A register of the active set after its activation. -/
theorem reg_activate {o : Obj} {v : Int} (hm : (o, v) ∈ (descObjs false c).zip (descValues ((b.shadowOf c).withState 2 0))) :
    (b.activate c).reg o = ofSigned o.ty.bits v % 2 ^ o.ty.bits := by
  have ho := (List.of_mem_zip hm).1
  have hpending : ∀ x ∈ [Obj.dmaPending c], o.key ≠ x.key := fun x hx => by
    rw [List.mem_singleton.mp hx]
    exact pending_ne_descObjs ho
  calc (b.activate c).reg o = (b.activated c).reg o := (leaves_admitPending c _).reg o hpending
    _ = (b.shadowTaken c).reg o := reg_activated ..
    _ = (b.setDesc false c ((b.shadowOf c).withState 2 0)).reg o := reg_setReg_ne _ _ _ _ (shadowStatus_ne_active ho)
    _ = _ := reg_setDesc hm b

end

end Block

end Sys2Proof.Machine

/-! # Shadows, fences, stops and fetched descriptors (R387 to R400) -/

namespace Sys2Proof.Machine.Block

section
variable {b : Block} {c : ChanId}

/-! ## The checker and the loading of a shadow (R387, R391) -/

theorem checker_reserved {d : Desc} (h : d.ctrl / 256 % 64 ≠ 0) : b.checker c d = some .range :=
  if_pos (.inr (.inr (.inr (.inr (.inr (.inr (.inl h)))))))

theorem reserved_of_checker {d : Desc} (h : b.checker c d = none) : d.ctrl / 256 % 64 = 0 := by
  by_contra hne
  rw [checker_reserved hne] at h
  exact absurd h (by simp)

theorem shadowLoad_passed {ctrl : Nat} (bar : Bool) (h : b.checker c { b.shadowOf c with ctrl := ctrl } = none) :
    (b.shadowLoad c ctrl bar).2 = (b.setReg (Obj.dmaShadowCtrl c) ctrl).setShadowState c 1 := by
  unfold shadowLoad
  extract_lets _ d
  rw [show b.checker c d = none from h]

theorem shadowLoad_refused {ctrl : Nat} {e : AbortCode} (h : b.checker c { b.shadowOf c with ctrl := ctrl } = some e) :
    (b.shadowLoad c ctrl true).2 = ((b.bump Obj.dmaCheckerRefusals).setReg (Obj.dmaShadowCtrl c) ctrl).setShadowState c 5 := by
  unfold shadowLoad
  extract_lets _ d
  rw [show b.checker c d = some e from h]
  rfl

/-- An accepted write of CTRL finds the shadow not loaded, and its set passes the checker. -/
theorem checker_of_accepts {r : Route} {ctrl : BitVec 32} (h : b.acceptsObj Env.quiet r (Obj.dmaShadowCtrl c) ctrl.toNat = true) :
    b.checker c { b.shadowOf c with ctrl := ctrl.toNat } = none := by
  have hc := c.isLt
  obtain ⟨new, hcodes⟩ := chapterCodes_of_accepts h
  have hv : ctrl.toNat % 256 ^ ((Obj.dmaShadowCtrl c).ty.bits / 8) = ctrl.toNat := mod_bits (o := Obj.dmaShadowCtrl c) (w := 32) rfl (by decide) ctrl
  rw [hv] at hcodes
  unfold chapterCodes at hcodes
  have hindex : (Obj.dmaShadowCtrl c).index = 0x2440 + c.val := rfl
  rw [hindex, headIndex_low _ (by omega), axisIndex_other _ (by omega)] at hcodes
  simp only [List.append_eq_nil_iff] at hcodes
  obtain ⟨-, ⟨⟨⟨⟨-, hdma⟩, -⟩, -⟩, -⟩, -⟩ := hcodes
  have hchan : Fin.ofNat 32 (0x2440 + c.val - 0x2440) = c := by rw [Nat.add_sub_cancel_left, ofNat_chan]
  unfold dmaCodes at hdma
  rw [if_pos (by omega)] at hdma
  dsimp only at hdma
  rw [hchan] at hdma
  unfold shadowCodes shadowViolations at hdma
  simp only [List.append_eq_nil_iff] at hdma
  obtain ⟨⟨⟨-, hstate⟩, -⟩, hcheck⟩ := hdma
  have hst : (b.shadowOf c).st ≠ 1 := fun hst => by
    rw [hst] at hstate
    exact List.cons_ne_nil _ _ hstate
  rw [if_pos ⟨hst, rfl⟩] at hcheck
  exact Option.toList_eq_nil_iff.mp hcheck

section
variable {i sub v : Nat} {e : Env} {r : Route}

theorem captureDo_shadow (hi : 0x2440 ≤ i ∧ i < 0x2480) : b.captureDo e r i sub v = none := by
  unfold captureDo
  split
  · omega
  · omega
  · omega
  · rfl

theorem auxDo_shadow (hi : 0x2440 ≤ i ∧ i < 0x2480) : b.auxDo e r i sub v = none := by
  unfold auxDo
  split
  · omega
  · omega
  · omega
  · omega
  · rfl

theorem fabricDo_shadow (hi : 0x2440 ≤ i ∧ i < 0x2480) : b.fabricDo r i sub v = none := by
  rw [fabricDo, if_neg (by omega), if_neg (by omega), if_neg (by omega)]

end

theorem writeDo_shadowCtrl (r : Route) (c : ChanId) (v : Nat) (b : Block) :
    b.writeDo Env.quiet r (Obj.dmaShadowCtrl c).index (Obj.dmaShadowCtrl c).sub v = some ((b.shadowLoad c v false).2.reply r .ok) := by
  have hc := c.isLt
  have hi : 0x2440 ≤ 0x2440 + c.val ∧ 0x2440 + c.val < 0x2480 := by omega
  have hchan : Fin.ofNat 32 (0x2440 + c.val - 0x2440) = c := by rw [Nat.add_sub_cancel_left, ofNat_chan]
  have hdma : b.dmaDo Env.quiet r (0x2440 + c.val) 10 v = some ((b.shadowLoad c v false).2.reply r .ok) := by
    rw [dmaDo, if_neg (by omega), if_pos (by omega), hchan]
  refine (writeDo_pier Env.quiet r (index := 0x2440 + c.val) (Obj.dmaShadowCtrl c).sub v b (by omega) (by omega)).trans ?_
  rw [captureDo_shadow hi, auxDo_shadow hi, fabricDo_shadow hi, show (Obj.dmaShadowCtrl c).sub = 10 from rfl, hdma]
  rfl

theorem barChannel_ctrl {ctrl : Nat} (hv : b.shadowViolations c = []) (hm : b.barMinority 0x2440 = false) :
    b.barChannel c 0x68 ctrl false = if ctrl / 256 % 64 ≠ 0 then b.barDrop else (b.shadowLoad c ctrl true).2 := by
  refine if_neg ?_
  rw [hv, hm]
  decide

/-! ## The sets after an activation (R388) -/

theorem activeOf_st_congr {n : Block} (h : n.reg (Obj.dmaActiveStatus c) = b.reg (Obj.dmaActiveStatus c)) :
    (n.activeOf c).st = (b.activeOf c).st := congrArg (fun k => k / 2 ^ 28 % 16) h

theorem activeOf_st {k : Nat} (hk : k < 16) (h : b.reg (Obj.dmaActiveStatus c) = k * 2 ^ 28) : (b.activeOf c).st = k := by
  have hst : (b.activeOf c).st = b.reg (Obj.dmaActiveStatus c) / 2 ^ 28 % 16 := rfl
  rw [hst, h]
  omega

theorem shadowOf_st {k : Nat} (hk : k < 16) (h : b.reg (Obj.dmaShadowStatus c) = k * 2 ^ 28) : (b.shadowOf c).st = k := by
  have hst : (b.shadowOf c).st = b.reg (Obj.dmaShadowStatus c) / 2 ^ 28 % 16 := rfl
  rw [hst, h]
  omega

theorem reg_activate_nat {o : Obj} {v : Nat} (hm : (o, (v : Int)) ∈ (descObjs false c).zip (descValues ((b.shadowOf c).withState 2 0))) :
    (b.activate c).reg o = v % 2 ^ o.ty.bits := (reg_activate hm).trans (ofSigned_natCast ..)

theorem activate_copies (c : ChanId) (b : Block) :
    (b.activate c).reg (Obj.dmaActiveSrc c) = b.reg (Obj.dmaShadowSrc c) % 2 ^ 64 ∧
    (b.activate c).reg (Obj.dmaActiveDst c) = b.reg (Obj.dmaShadowDst c) % 2 ^ 64 ∧
    (b.activate c).reg (Obj.dmaActiveN0 c) = b.reg (Obj.dmaShadowN0 c) % 2 ^ 32 ∧
    (b.activate c).reg (Obj.dmaActiveCtrl c) = b.reg (Obj.dmaShadowCtrl c) % 2 ^ 32 ∧
    (b.activate c).reg (Obj.dmaActiveTag c) = b.reg (Obj.dmaShadowTag c) % 2 ^ 32 := by
  refine ⟨?_, ?_, ?_, ?_, ?_⟩
  · exact reg_activate_nat (o := Obj.dmaActiveSrc c) (by simp [descObjs, descValues, Desc.withState, shadowOf])
  · exact reg_activate_nat (o := Obj.dmaActiveDst c) (by simp [descObjs, descValues, Desc.withState, shadowOf])
  · exact reg_activate_nat (o := Obj.dmaActiveN0 c) (by simp [descObjs, descValues, Desc.withState, shadowOf])
  · exact reg_activate_nat (o := Obj.dmaActiveCtrl c) (by simp [descObjs, descValues, Desc.withState, shadowOf])
  · exact reg_activate_nat (o := Obj.dmaActiveTag c) (by simp [descObjs, descValues, Desc.withState, shadowOf])

theorem status_withState (d : Desc) (k j : Nat) : (d.withState k j).status = k * 2 ^ 28 + j * 2 ^ 24 := rfl

theorem activeStatus_value (d : Desc) : (Obj.dmaActiveStatus c, ((d.status : Nat) : Int)) ∈ (descObjs false c).zip (descValues d) := by
  simp [descObjs, descValues]

theorem activeOf_activate (c : ChanId) (b : Block) : ((b.activate c).activeOf c).st = 2 := by
  refine activeOf_st (by decide) ?_
  rw [reg_activate_nat (activeStatus_value _), status_withState, show (Obj.dmaActiveStatus c).ty.bits = 32 from rfl]
  norm_num

theorem shadowOf_activate (c : ChanId) (b : Block) : ((b.activate c).shadowOf c).st = 0 := by
  have hpending : ∀ x ∈ [Obj.dmaPending c], (Obj.dmaShadowStatus c).key ≠ x.key := fun x hx => by
    rw [List.mem_singleton.mp hx]
    exact pending_ne_descObjs (shadow := true) (by simp [descObjs])
  have hreg : (b.activate c).reg (Obj.dmaShadowStatus c) = 0 * 2 ^ 28 := by
    rw [activate_eq, (leaves_admitPending c _).reg _ hpending, reg_activated]
    exact reg_setReg_self ..
  exact shadowOf_st (by decide) hreg

/-! ## Requests (R394) -/

theorem dmaRequest_counts (ha : (b.activeOf c).st = 2) (hp : 2 ≤ (b.activeOf c).pace) (had : b.dma.channels[c].admitted = true)
    (hn : b.reg (Obj.dmaPending c) < 65535) : b.dmaRequest c = b.setReg (Obj.dmaPending c) (b.reg (Obj.dmaPending c) + 1) := by
  have hfree := dmaFree_false ha
  have hno : ¬ (b.dmaFree c = true) := by rw [hfree]; exact Bool.false_ne_true
  unfold dmaRequest
  extract_lets d e
  have hd : d = b.activeOf c := if_neg hno
  have he : e = b := if_neg (by rw [hfree]; exact Bool.false_ne_true)
  rw [if_neg (fun h => hno h.1), if_neg (by rw [hd]; omega), he, if_neg (by omega)]
  refine if_neg ?_
  rintro ⟨-, -, h, -⟩
  rw [show (b.setReg (Obj.dmaPending c) (b.reg (Obj.dmaPending c) + 1)).dma.channels[c].admitted = true from had] at h
  exact absurd h (by decide)

/-! ## Fences (R398) -/

theorem leaves_takeShadow (c : ChanId) (b : Block) : Leaves [.dma] (chanRegs c) b (b.takeShadow c) := by
  unfold takeShadow
  extract_lets x
  split
  · exact .refl _ _ b
  · exact leaves_activate c b

theorem outs_takeShadow (c : ChanId) (b : Block) : (b.takeShadow c).outs = b.outs := by
  unfold takeShadow
  extract_lets x
  split
  · rfl
  · exact outs_activate c b

/-- The record of the last descriptor ended at each PRIO. -/
theorem Leaves.dmaState {P : List Piece} {R : List Obj} {n : Block} (h : Leaves P R b n) (d : Dma) (hp : Piece.dma ∈ P) : Leaves P R b { n with dma := d } :=
  { h with dma := fun q => absurd hp q }

theorem leaves_descEnded (c : ChanId) (b : Block) : Leaves [.dma] (chanRegs c) b (b.descEnded c) := by
  unfold descEnded
  dsimp only
  refine Leaves.trans ?_ (leaves_takeShadow c _)
  refine Leaves.modDma ?_ _ _ (List.mem_singleton_self _)
  refine Leaves.dmaState ?_ _ (List.mem_singleton_self _)
  exact (((Leaves.refl _ _ b).setReg _ _ (activeStatus_mem c)).bump _ (mem_chanRegs c).2.2).raise _

theorem outs_descEnded (c : ChanId) (b : Block) : ∀ o ∈ b.outs, o ∈ (b.descEnded c).outs := by
  intro o ho
  unfold descEnded
  dsimp only
  rw [outs_takeShadow]
  exact List.mem_append_left _ ho

/-- Every fence asked for leaves all but its channel. -/
structure FenceTurn (c : ChanId) (b n : Block) : Prop where
  leaves : Leaves [.dma] (chanRegs c) b n
  outs : ∀ o ∈ b.outs, o ∈ n.outs

theorem fenceProven_turn (c : ChanId) (b : Block) : FenceTurn c b (b.fenceProven c) := by
  unfold fenceProven
  extract_lets x d
  have hd : FenceTurn c b d := ⟨(((Leaves.refl _ _ b).setReg _ _ (mem_chanRegs c).2.1).modDma _ _ (List.mem_singleton_self _)).raise _,
    fun _ ho => List.mem_append_left _ ho⟩
  split
  · exact ⟨.refl _ _ b, fun _ => id⟩
  split
  · exact ⟨hd.leaves.trans (leaves_descEnded c d), fun o ho => outs_descEnded c d o (hd.outs o ho)⟩
  · exact hd

theorem fenceProven_fires (hf : b.dma.channels[c].fence = true) : (b.fenceProven c).Fired (865 + 2 * c.val) := by
  unfold fenceProven
  extract_lets x d
  rw [if_neg (by rw [show x.fence = true from hf]; exact Bool.false_ne_true)]
  have hd : d.Fired (865 + 2 * c.val) := List.mem_append_right _ (List.mem_singleton_self _)
  split
  · exact outs_descEnded c d _ hd
  · exact hd

theorem dmaFence_turn (c : ChanId) (b : Block) : FenceTurn c b (b.dmaFence c) := by
  unfold dmaFence
  extract_lets x tag d
  have hd : FenceTurn c b d := ⟨(Leaves.refl _ _ b).modDma _ _ (List.mem_singleton_self _), fun _ => id⟩
  split
  · exact ⟨hd.leaves.trans (fenceProven_turn c d).leaves, fun o ho => (fenceProven_turn c d).outs o (hd.outs o ho)⟩
  · exact hd

theorem dmaFence_fires (ha : (b.activeOf c).st ≠ 2) : (b.dmaFence c).Fired (865 + 2 * c.val) := by
  unfold dmaFence
  extract_lets x tag d
  rw [if_pos (show d.dmaFree c = true from dmaFree_true ha)]
  exact fenceProven_fires (congrArg DmaChannel.fence (channels_modDma_same ..))

/-- The registers that the fence task may touch. -/
def allChanRegs : List Obj := (List.finRange 32).flatMap chanRegs

theorem chanRegs_subset (c : ChanId) : chanRegs c ⊆ allChanRegs := fun _ h => List.mem_flatMap.mpr ⟨c, List.mem_finRange c, h⟩

/-- Task 416, channel by channel. -/
def fenceEach (l : List ChanId) (b : Block) : Block := l.foldl (fun b c => if (b.reg Obj.dmaFenceMask).testBit c.val then b.dmaFence c else b) b

theorem fenceEach_turns (l : List ChanId) (b : Block) : Leaves [.dma] allChanRegs b (b.fenceEach l) ∧ (∀ o ∈ b.outs, o ∈ (b.fenceEach l).outs) ∧
    ∀ c ∈ l, l.Nodup → (b.reg Obj.dmaFenceMask).testBit c.val = true → (b.activeOf c).st ≠ 2 → (b.fenceEach l).Fired (865 + 2 * c.val) := by
  induction l generalizing b with
  | nil => exact ⟨.refl _ _ b, fun _ => id, nofun⟩
  | cons k l ih =>
    have hk : FenceTurn k b (if (b.reg Obj.dmaFenceMask).testBit k.val then b.dmaFence k else b) := by
      split
      · exact dmaFence_turn k b
      · exact ⟨.refl _ _ b, fun _ => id⟩
    obtain ⟨hleaves, houts, hfires⟩ := ih (if (b.reg Obj.dmaFenceMask).testBit k.val then b.dmaFence k else b)
    refine ⟨Leaves.trans ((Leaves.refl _ _ b).of_part hk.leaves (List.Subset.refl _) (chanRegs_subset k)) hleaves,
      fun o ho => houts o (hk.outs o ho), fun c hc hnodup hmask hst => ?_⟩
    obtain ⟨hnot, hrest⟩ := List.nodup_cons.mp hnodup
    rcases List.mem_cons.mp hc with rfl | hc
    · refine houts _ ?_
      rw [if_pos hmask]
      exact dmaFence_fires hst
    · have hne : c ≠ k := fun h => hnot (h ▸ hc)
      refine hfires c hc hrest ?_ ?_
      · rw [hk.leaves.reg _ (mask_ne_chanRegs (.inl rfl))]
        exact hmask
      · rw [activeOf_st_congr (hk.leaves.reg (Obj.dmaActiveStatus c) (activeStatus_ne_chanRegs hne))]
        exact hst

/-! ## Stops (R389, R400) -/

/-- A stop touches its channel and its state. -/
structure StopTurn (c : ChanId) (b n : Block) : Prop where
  leaves : Leaves [.dma] [Obj.dmaActiveStatus c] b n
  others : ∀ k : ChanId, k ≠ c → n.dma.channels[k] = b.dma.channels[k]

theorem StopTurn.refl (c : ChanId) (b : Block) : StopTurn c b b := ⟨.refl _ _ b, fun _ _ => rfl⟩

theorem dmaStop_turn (c : ChanId) (b : Block) : StopTurn c b (b.dmaStop c) := by
  by_cases ha : (b.activeOf c).st = 2
  · rw [dmaStop_running ha]
    have hstopped : StopTurn c b (b.modDma c fun x => { x with stopped := true }) :=
      ⟨(Leaves.refl _ _ b).modDma _ _ (List.mem_singleton_self _), fun k hk => channels_modDma_other hk ..⟩
    split
    · exact hstopped
    · refine ⟨(hstopped.leaves.setReg _ _ (List.mem_singleton_self _)).modDma _ _ (List.mem_singleton_self _), fun k hk => ?_⟩
      exact (channels_modDma_other hk ..).trans (hstopped.others k hk)
  · have hfree : b.dmaStop c = b := if_pos (dmaFree_true ha)
    rw [hfree]
    exact .refl c b

theorem dmaStop_stopped (ha : (b.activeOf c).st = 2) : (b.dmaStop c).dma.channels[c].stopped = true := by
  rw [dmaStop_running ha]
  have hstopped : (b.modDma c fun x => { x with stopped := true }).dma.channels[c].stopped = true := congrArg DmaChannel.stopped (channels_modDma_same ..)
  split
  · exact hstopped
  · exact (congrArg DmaChannel.stopped (channels_modDma_same ..)).trans hstopped

/-- The registers that the stop task may touch. -/
def statusRegs : List Obj := (List.finRange 32).map fun (k : ChanId) => Obj.dmaActiveStatus k.val

theorem status_subset (c : ChanId) : [Obj.dmaActiveStatus c] ⊆ statusRegs :=
  List.cons_subset.mpr ⟨List.mem_map.mpr ⟨c, List.mem_finRange c, rfl⟩, List.nil_subset _⟩

/-- One channel's turn in task 417. -/
def stopOne (b : Block) (c : ChanId) : Block :=
  if 4 ≤ c.val ∧ (b.reg Obj.dmaStopMask).testBit c.val ∧ !b.dma.channels[c].stream then b.dmaStop c else b

theorem stopOne_turn (c : ChanId) (b : Block) : StopTurn c b (b.stopOne c) := by
  unfold stopOne
  split
  · exact dmaStop_turn c b
  · exact .refl c b

theorem stopEach_turns (l : List ChanId) (b : Block) : Leaves [.dma] statusRegs b (l.foldl stopOne b) ∧
    (∀ c ∉ l, (l.foldl stopOne b).dma.channels[c] = b.dma.channels[c]) ∧
    ∀ c ∈ l, l.Nodup → 4 ≤ c.val → (b.reg Obj.dmaStopMask).testBit c.val = true → b.dma.channels[c].stream = false → (b.activeOf c).st = 2 →
      (l.foldl stopOne b).dma.channels[c].stopped = true := by
  induction l generalizing b with
  | nil => exact ⟨.refl _ _ b, fun _ _ => rfl, nofun⟩
  | cons k l ih =>
    have hk := stopOne_turn k b
    obtain ⟨hleaves, hothers, hstops⟩ := ih (b.stopOne k)
    refine ⟨Leaves.trans ((Leaves.refl _ _ b).of_part hk.leaves (List.Subset.refl _) (status_subset k)) hleaves, fun c hc => ?_,
      fun c hc hnodup h4 hmask hstream hst => ?_⟩
    · exact (hothers c fun h => hc (List.mem_cons_of_mem _ h)).trans (hk.others c fun h => hc (h ▸ List.mem_cons_self))
    · obtain ⟨hnot, hrest⟩ := List.nodup_cons.mp hnodup
      rcases List.mem_cons.mp hc with rfl | hc
      · have hturn : b.stopOne c = b.dmaStop c := if_pos ⟨h4, hmask, by rw [hstream]; rfl⟩
        show ((l.foldl stopOne (b.stopOne c))).dma.channels[c].stopped = true
        rw [hothers c hnot, hturn]
        exact dmaStop_stopped hst
      · have hne : c ≠ k := fun h => hnot (h ▸ hc)
        refine hstops c hc hrest h4 ?_ ?_ ?_
        · rw [hk.leaves.reg Obj.dmaStopMask (fun x hx => mask_ne_chanRegs (c := k) (.inr rfl) x (List.mem_singleton.mp hx ▸ activeStatus_mem k))]
          exact hmask
        · rw [hk.others c hne]
          exact hstream
        · rw [activeOf_st_congr (hk.leaves.reg (Obj.dmaActiveStatus c) fun x hx =>
            activeStatus_ne_chanRegs hne x (List.mem_singleton.mp hx ▸ activeStatus_mem k))]
          exact hst

/-! ## Fetched descriptors (R388) -/

theorem linkFetched_kept (hf : b.dma.channels[c].fetching = true) (ha : (b.activeOf c).st = 2) (hs : (b.shadowOf c).st = 1) :
    b.linkFetched c = b.modDma c fun x => { x with fetching := false } := by
  unfold linkFetched
  rw [if_neg (by rw [hf]; exact Bool.false_ne_true)]
  extract_lets d e f
  have hfe : f = e := if_pos hs
  rw [hfe]
  exact if_neg (by rw [show e.dmaFree c = false from dmaFree_false ha]; exact Bool.false_ne_true)

theorem linkFetched_loads {d : Desc} (hd : d = descOf (b.memRead (b.activeOf c).link 64)) (hf : b.dma.channels[c].fetching = true)
    (ha : (b.activeOf c).st = 2) (hs : (b.shadowOf c).st ≠ 1) (hc : b.checker c d = none) :
    b.linkFetched c = (b.modDma c fun x => { x with fetching := false }).setDesc true c (d.withState 1 0) := by
  unfold linkFetched
  rw [if_neg (by rw [hf]; exact Bool.false_ne_true)]
  extract_lets d' e f
  have hchecked : e.checker c d' = none := (congrArg (b.checker c) hd.symm).trans hc
  have hfe : f = e.setDesc true c (d.withState 1 0) := by
    refine (if_neg hs).trans ?_
    rw [hchecked]
    exact congrArg (fun x : Desc => e.setDesc true c (x.withState 1 0)) hd.symm
  rw [hfe]
  refine if_neg ?_
  have hkeep : ((e.setDesc true c (d.withState 1 0)).activeOf c).st = 2 := by
    have hstatus : (e.setDesc true c (d.withState 1 0)).reg (Obj.dmaActiveStatus c) = b.reg (Obj.dmaActiveStatus c) :=
      (leaves_setDesc (c := c) true _ e).reg _ fun x hx => by
        have hlt := c.isLt
        obtain ⟨hi, h1, h2⟩ := descObjs_place hx
        simp only [Obj.key, Obj.dmaActiveStatus, if_true] at *
        omega
    exact (activeOf_st_congr hstatus).trans ha
  rw [dmaFree_false hkeep]
  exact Bool.false_ne_true

end

end Sys2Proof.Machine.Block

namespace Sys2Proof

open Machine Machine.Block

/-- Settles O38: the activated set register by register; the checker decides a load; the masks walk over the channels. -/
theorem shadowsAndActivation : Obligations.ShadowsAndActivation := by
  unfold Obligations.ShadowsAndActivation
  refine ⟨fun c b _ => ?_, fun t c s => ?_⟩
  · intro n
    have hactive : (n.activeOf c).st = 2 := activeOf_activate c b
    have hshadow : (n.shadowOf c).st = 0 := shadowOf_activate c b
    obtain ⟨hi2, hi1, hoff, hbegun⟩ := channels_activate c b
    obtain ⟨hsrc, hdst, hn0, hctrl, htag⟩ := activate_copies c b
    refine ⟨hsrc, hdst, hn0, hctrl, htag, hactive, hshadow, hi2, hi1, hoff, hbegun, (leaves_activate c b).mem (by decide), fun k hk => ?_⟩
    exact (channels_admitPending_other hk _).trans (channels_activated_other hk b)
  · intro b
    refine ⟨fun r ctrl ha => ?_, fun ctrl hup hv hm => ?_, fun hc ha hst hp had hn => ?_, fun ha => ?_, fun ha => ?_,
      fun hf hst => ⟨fun hs => ?_, fun d hd hs hc => ?_⟩⟩
    · refine does_of_run (f := fun b => b.writeTo (Obj.dmaShadowCtrl c) ctrl.toNat r Env.quiet) rfl (writeTo_of_accepts ha ?_)
      rw [mod_bits (o := Obj.dmaShadowCtrl c) (w := 32) rfl (by decide) ctrl, writeDo_shadowCtrl,
        shadowLoad_passed false (checker_of_accepts ha)]
      rfl
    · have hbar : b.barWrite (0x10068 + 256 * c.val) 4 ctrl.toNat [] Env.quiet =
          if ctrl.toNat / 256 % 64 ≠ 0 then b.barDrop else (b.shadowLoad c ctrl.toNat true).2 :=
        (barWrite_channel hup c (off := 0x68) (by decide) ctrl.isLt Env.quiet).trans (barChannel_ctrl hv hm)
      refine ⟨fun hcheck => ?_, fun hres => ?_, fun e hres hcheck => ?_⟩
      · have hres : ctrl.toNat / 256 % 64 = 0 := reserved_of_checker hcheck
        exact does_of_run (f := fun b => b.barWrite (0x10068 + 256 * c.val) 4 ctrl.toNat [] Env.quiet) rfl
          (hbar.trans ((if_neg (fun h => h hres)).trans (shadowLoad_passed true hcheck)))
      · exact does_of_run (f := fun b => b.barWrite (0x10068 + 256 * c.val) 4 ctrl.toNat [] Env.quiet) rfl (hbar.trans (if_pos hres))
      · exact does_of_run (f := fun b => b.barWrite (0x10068 + 256 * c.val) 4 ctrl.toNat [] Env.quiet) rfl
          (hbar.trans ((if_neg (fun h => h hres)).trans (shadowLoad_refused hcheck)))
    · refine does_of_run (f := fun b => if 4 ≤ c.val then b.sampled (416 + c.val) Env.quiet [] else b) rfl
        ((if_pos hc).trans ((sampled_dmaRequest hc ha).trans ?_))
      exact dmaRequest_counts (b := b.unlatch (416 + c.val)) hst hp had hn
    · obtain ⟨hleaves, -, hfires⟩ := fenceEach_turns (List.finRange 32) (b.unlatch 416)
      refine ⟨_, does_of_run (f := fun b => b.sampled 416 Env.quiet []) rfl (sampled_pier (f := fun b => b.fenceEach (List.finRange 32)) ha fun _ _ => rfl),
        hleaves.mem (by decide), ?_, fun o hs ho => hleaves.reg o fun x hx => ?_, fun hmask hst => hfires c (List.mem_finRange c) (List.nodup_finRange 32) hmask hst⟩
      · exact Vector.ext fun i hi => hleaves.heads ⟨i, hi⟩ (by simp)
      · obtain ⟨k, -, hx⟩ := List.mem_flatMap.mp hx
        exact outside_ne_chanRegs hs ho x hx
    · obtain ⟨hleaves, -, hstops⟩ := stopEach_turns (List.finRange 32) (b.unlatch 417)
      exact ⟨_, does_of_run (f := fun b => b.sampled 417 Env.quiet []) rfl
        (sampled_pier (f := fun b => (List.finRange 32).foldl stopOne b) ha fun _ _ => rfl), hleaves,
        fun h4 hmask hstream hst => hstops c (List.mem_finRange c) (List.nodup_finRange 32) h4 hmask hstream hst⟩
    · exact does_of_run (f := fun b => b.linkFetched c) rfl (linkFetched_kept hf hst hs)
    · exact does_of_run (f := fun b => b.linkFetched c) rfl (linkFetched_loads hd hf hst hs hc)

end Sys2Proof

/-! # Fences proven, and descriptors that end bad (R385, R398, R399) -/

namespace Sys2Proof.Machine.Block

section
variable {b : Block} {c : ChanId}

theorem fenceProven_open (hf : b.dma.channels[c].fence = true) (he : b.dma.channels[c].ending = false) : b.fenceProven c =
    ((b.setReg (Obj.dmaArrived c) b.dma.channels[c].fenceTag).modDma c fun x => { x with fence := false }).raise (865 + 2 * c.val) := by
  unfold fenceProven
  extract_lets x d
  rw [if_neg (by rw [show x.fence = true from hf]; exact Bool.false_ne_true), if_neg (by rw [show x.ending = false from he]; exact Bool.false_ne_true)]

/-- The state, the count and the address of a failed beat (R385, R399). -/
def badMarked (c : ChanId) (kind address : Nat) (b : Block) : Block :=
  ((b.setActiveState c 4 kind).bump (Obj.dmaBad c)).setReg (Obj.dmaBadAddress c) address

/-- A descriptor that ends bad, without a shadow to follow. -/
def endedBad (c : ChanId) (kind address : Nat) (withStop : Bool) (b : Block) : Block :=
  (((b.badMarked c kind address).logFault 0x0030 c.val address (864 + 2 * c.val)).raise (864 + 2 * c.val)).modDma c fun x =>
    { x with begun := false, admitted := false, ending := false, stopped := x.stopped || withStop }

theorem bad_keys (c : ChanId) : (Obj.dmaActiveStatus c).key ≠ (Obj.dmaBad c).key ∧ (Obj.dmaActiveStatus c).key ≠ (Obj.dmaBadAddress c).key ∧
    (Obj.dmaBad c).key ≠ (Obj.dmaBadAddress c).key ∧ (Obj.dmaBad c).key ≠ (Obj.dmaActiveStatus c).key := by
  have hc := c.isLt
  simp only [Obj.key, Obj.dmaActiveStatus, Obj.dmaBad, Obj.dmaBadAddress]
  omega

theorem shadowStatus_ne_bad (c : ChanId) : ∀ x ∈ [Obj.dmaActiveStatus c, Obj.dmaBad c, Obj.dmaBadAddress c], (Obj.dmaShadowStatus c).key ≠ x.key := by
  have hc := c.isLt
  intro x hx
  simp only [List.mem_cons, List.not_mem_nil, or_false] at hx
  rcases hx with rfl | rfl | rfl
  · simp only [Obj.key, Obj.dmaShadowStatus, Obj.dmaActiveStatus]; omega
  · simp only [Obj.key, Obj.dmaShadowStatus, Obj.dmaBad]; omega
  · simp only [Obj.key, Obj.dmaShadowStatus, Obj.dmaBadAddress]; omega

theorem leaves_badMarked (c : ChanId) (kind address : Nat) (b : Block) :
    Leaves [.dma, .faults, .smb, .can] [Obj.dmaActiveStatus c, Obj.dmaBad c, Obj.dmaBadAddress c] b (b.badMarked c kind address) :=
  (((Leaves.refl _ _ b).setReg _ _ (by simp)).bump _ (by simp)).setReg _ _ (by simp)

theorem leaves_endedBad (c : ChanId) (kind address : Nat) (withStop : Bool) (b : Block) :
    Leaves [.dma, .faults, .smb, .can] [Obj.dmaActiveStatus c, Obj.dmaBad c, Obj.dmaBadAddress c] b (b.endedBad c kind address withStop) :=
  (((leaves_badMarked c kind address b).of_part (leaves_logFault ..) (by simp) (List.nil_subset _)).raise _).modDma _ _ (by simp)

theorem dmaError_running {kind address : Nat} (withStop : Bool) (hstream : b.dma.channels[c].stream = false) (ha : (b.activeOf c).st = 2)
    (hs : (b.shadowOf c).st ≠ 1) : b.dmaError c kind address withStop = b.endedBad c kind address withStop := by
  refine (if_neg (by rw [hstream]; exact Bool.false_ne_true)).trans ((if_neg (by rw [dmaFree_false ha]; exact Bool.false_ne_true)).trans ?_)
  refine if_pos (.inr (.inr ?_))
  have hstatus := (leaves_endedBad c kind address withStop b).reg _ (shadowStatus_ne_bad c)
  exact fun h => hs ((congrArg (fun k => k / 2 ^ 28 % 16) hstatus.symm).trans h)

theorem reg_endedBad (o : Obj) {kind address : Nat} {withStop : Bool} : (b.endedBad c kind address withStop).reg o = (b.badMarked c kind address).reg o :=
  logFault_reg ..

theorem status_endedBad {kind address : Nat} (withStop : Bool) (hk : kind < 16) :
    (b.endedBad c kind address withStop).reg (Obj.dmaActiveStatus c) = 4 * 2 ^ 28 + kind * 2 ^ 24 := by
  obtain ⟨h1, h2, -⟩ := bad_keys c
  rw [reg_endedBad]
  refine (reg_setReg_ne _ _ _ _ h2).trans ((reg_setReg_ne _ _ _ _ h1).trans ((reg_setReg_self ..).trans (Nat.mod_eq_of_lt ?_)))
  show 4 * 2 ^ 28 + kind * 2 ^ 24 < 2 ^ 32
  omega

theorem address_endedBad {kind : Nat} (address : BitVec 64) (withStop : Bool) :
    (b.endedBad c kind address.toNat withStop).reg (Obj.dmaBadAddress c) = address.toNat := by
  rw [reg_endedBad]
  exact (reg_setReg_self ..).trans (Nat.mod_eq_of_lt address.isLt)

theorem count_endedBad {kind address : Nat} (withStop : Bool) :
    (b.endedBad c kind address withStop).reg (Obj.dmaBad c) = satAdd (b.reg (Obj.dmaBad c)) 1 max32 % 2 ^ 32 := by
  obtain ⟨-, -, h3, h4⟩ := bad_keys c
  rw [reg_endedBad]
  refine (reg_setReg_ne _ _ _ _ h3).trans ((reg_setReg_self ..).trans ?_)
  show satAdd ((b.setActiveState c 4 kind).reg (Obj.dmaBad c)) 1 max32 % 2 ^ 32 = _
  rw [show (b.setActiveState c 4 kind).reg (Obj.dmaBad c) = b.reg (Obj.dmaBad c) from reg_setReg_ne _ _ _ _ h4]

theorem endedBad_fires (kind address : Nat) (withStop : Bool) (b : Block) : (b.endedBad c kind address withStop).Fired (864 + 2 * c.val) :=
  List.mem_append_right _ (List.mem_singleton_self _)

end

end Sys2Proof.Machine.Block

namespace Sys2Proof

open Machine Machine.Block

/-- Settles O39: a fence outside an ending descriptor, and a failed beat of a running one without a loaded shadow. -/
theorem descriptorsEnd : Obligations.DescriptorsEnd := by
  unfold Obligations.DescriptorsEnd
  intro t c s b
  refine ⟨fun hf he => ?_, fun kind address hk hstream ha hs => ?_, fun address hstream ha hs => ?_⟩
  · exact does_of_run (f := fun b => b.fenceProven c) rfl (fenceProven_open hf he)
  · exact ⟨_, does_of_run (f := fun b => b.dmaError c kind address.toNat false) rfl (dmaError_running false hstream ha hs),
      status_endedBad false hk, address_endedBad address false, count_endedBad false, endedBad_fires kind address.toNat false b, leaves_endedBad ..⟩
  · exact ⟨_, does_of_run (f := fun b => b.dmaError c 4 address.toNat false) rfl (dmaError_running false hstream ha hs),
      status_endedBad false (by decide), address_endedBad address false, endedBad_fires 4 address.toNat false b, leaves_endedBad ..⟩

end Sys2Proof

/-! # A beat from the buffer to the buffer (R384, R386, R392, R393) -/

namespace Sys2Proof.Machine

/-- Swapping moves bytes within their units (R384). -/
theorem length_swapBytes (code : Nat) (l : List Byte) : (swapBytes code l).length = l.length := by
  induction l using swapBytes.induct code with
  | case1 a b c d rest h ih => subst h; simp [swapBytes, ih]
  | case2 a b c d rest h ih => subst h; simp [swapBytes, ih]
  | case3 a b c d rest h ih => subst h; simp [swapBytes, ih]
  | case4 => simp_all [swapBytes]
  | case5 => simp_all [swapBytes]
  | case6 => simp_all [swapBytes]
  | case7 => simp_all [swapBytes]

theorem filter_chan_eq : ∀ c : ChanId, (List.finRange 32).filter (fun k => decide (k = c)) = [c] := by decide

/-- The channels that pass a test that one channel alone passes. -/
theorem filter_chan (c : ChanId) {p : ChanId → Bool} (h : ∀ k, p k = decide (k = c)) : (List.finRange 32).filter p = [c] := by
  rw [funext h]
  exact filter_chan_eq c

theorem find?_chan (c : ChanId) {p : ChanId → Bool} (h : ∀ k, k ≠ c → p k = false) :
    (List.finRange 32).find? p = if p c then some c else none := by
  cases hf : (List.finRange 32).find? p with
  | none =>
    have hc := List.find?_eq_none.mp hf c (List.mem_finRange c)
    rw [if_neg hc]
  | some k =>
    have hk : p k = true := List.find?_some hf
    have hkc : k = c := by
      by_contra hne
      exact Bool.false_ne_true ((h k hne).symm.trans hk)
    subst hkc
    rw [if_pos hk]

namespace Block

section
variable {b : Block} {c : ChanId}

/-! ## The choice of the channel (R393) -/

theorem dmaReady_idle {k : ChanId} {blocked : BitVec 32} {f0 f1 : Nat} (hs : b.dma.channels[k].stream = false) (ha : (b.activeOf k).st ≠ 2) :
    b.dmaReady k blocked f0 f1 = false := by
  unfold dmaReady
  extract_lets d x
  split
  · rfl
  · rw [if_neg (by rw [show x.stream = false from hs]; exact Bool.false_ne_true), show (d.st == 2) = false from beq_false_of_ne ha]
    rfl

theorem dmaReady_unpaced {f0 f1 : Nat} (hs : b.dma.channels[c].stream = false) (ha : (b.activeOf c).st = 2) (he : b.dma.channels[c].ending = false)
    (hp : (b.activeOf c).pace = 0) (hsrc : (b.activeOf c).srcSpace = 0) : b.dmaReady c 0 f0 f1 = true := by
  have hsource : b.sourceReady c = true := by
    unfold sourceReady
    extract_lets d n
    rw [show d.srcSpace = 0 from hsrc]
    rfl
  unfold dmaReady
  extract_lets d x
  rw [if_neg (by simp), if_neg (by rw [show x.stream = false from hs]; exact Bool.false_ne_true), show d.st = 2 from ha,
    show x.ending = false from he, hsource, show d.pace = 0 from hp]
  rfl

/-- The only active channel is the one of the next beat. -/
theorem chooseChannel_only {blocked : BitVec 32} {f0 f1 : Nat} (hready : ∀ k, b.dmaReady k blocked f0 f1 = decide (k = c))
    (hidle : ∀ k, k ≠ c → (b.activeOf k).st ≠ 2) : b.chooseChannel blocked f0 f1 = some c := by
  have hlist := filter_chan c hready
  have hrunning : (List.finRange 32).find? (fun (k : ChanId) => decide (k.val < 4) && b.dmaBegun k && (b.activeOf k).st == 2) =
      if (decide (c.val < 4) && b.dmaBegun c && (b.activeOf c).st == 2) = true then some c else none := by
    refine find?_chan c fun k hk => ?_
    rw [show ((b.activeOf k).st == 2) = false from beq_false_of_ne (hidle k hk), Bool.and_false]
  unfold chooseChannel
  extract_lets ready running kept top mine last
  have hr : ready = [c] := hlist
  have hrun : running = _ := hrunning
  have hkept : kept = ready.filter fun k => decide (4 ≤ k.val) := rfl
  have htop : top = kept.foldl (fun m k => max m (b.prioOf k).val) 0 := rfl
  have hmine : mine = kept.filter fun k => (b.prioOf k).val == top := rfl
  clear_value last mine top kept running ready
  subst hr
  have only {l : List ChanId} {p : ChanId → Bool} {k : ChanId} (hl : ∀ k ∈ l, k = c) (h : l.find? p = some k) : some k = some c :=
    congrArg some (hl k (List.mem_of_find?_eq_some h))
  split
  · next k hk =>
    rw [hrun] at hk
    split at hk
    · exact (hk.symm.trans (by simp [Option.filter]))
    · exact absurd hk (by simp)
  · next hrest =>
    split
    · next k hk => exact only (fun k hk => List.mem_singleton.mp hk) hk
    · next hfind =>
      have h4 : 4 ≤ c.val := by
        by_contra hlt
        rw [hrun] at hrest hfind
        split at hrest
        · exact absurd hrest (by simp [Option.filter])
        · next hcond =>
          rw [if_neg hcond] at hfind
          exact absurd hfind (by simp; omega)
      have hc : kept = [c] := by rw [hkept]; simp [h4]
      have hm : mine = [c] := by rw [hmine, htop, hc]; simp
      subst hm
      split
      · next k hk => exact only (fun k hk => List.mem_singleton.mp hk) hk
      · split
        · next k hk => exact only (fun k hk => List.mem_singleton.mp hk) hk
        · rfl

/-! ## What comes before the beat -/

theorem leaves_queueMarks (q : QueueId) (high low : Nat) (b : Block) : Leaves [.host] [] b (b.queueMarks q high low) := by
  unfold queueMarks
  extract_lets was now
  split
  · exact .refl _ _ b
  · exact ((Leaves.refl _ _ b).modQueue _ _ (List.mem_singleton_self _)).raise _

/-- The queues of the streams are looked at (R395). -/
def marksTaken (b : Block) : Block :=
  [4, 5, 6, 7, 8, 9].foldl (fun b c => b.queueMarks (b.queueOf c) (b.reg (Obj.dmaPaceHigh c)) (b.reg (Obj.dmaPaceLow c))) b

theorem leaves_marksTaken (b : Block) : Leaves [.host] [] b b.marksTaken := (Leaves.refl _ _ b).foldl _ _ fun n _ _ => leaves_queueMarks _ _ _ n

/-- What a beat finds of its channel is what the pier had before the cycle. -/
structure SameLoops (c : ChanId) (b n : Block) : Prop where
  leaves : Leaves [.host, .dma] [] b n
  loops : n.dma.channels[c].i1 = b.dma.channels[c].i1 ∧ n.dma.channels[c].i2 = b.dma.channels[c].i2 ∧ n.dma.channels[c].off = b.dma.channels[c].off
  stream : n.dma.channels[c].stream = b.dma.channels[c].stream

theorem SameLoops.trans {n m : Block} (h : SameLoops c b n) (k : SameLoops c n m) : SameLoops c b m :=
  ⟨h.leaves.trans k.leaves, ⟨k.loops.1.trans h.loops.1, k.loops.2.1.trans h.loops.2.1, k.loops.2.2.trans h.loops.2.2⟩, k.stream.trans h.stream⟩

theorem SameLoops.passed (c k : ChanId) (p : Bool) (b : Block) : SameLoops c b (b.modDma k fun x => { x with passed := p }) := by
  have hleaves : Leaves [.host, .dma] [] b (b.modDma k fun x => { x with passed := p }) := (Leaves.refl _ _ b).modDma _ _ (by simp)
  by_cases h : c = k
  · subst h
    have hchan := channels_modDma_same c (fun x => { x with passed := p }) b
    exact ⟨hleaves, by rw [hchan]; exact ⟨rfl, rfl, rfl⟩, by rw [hchan]⟩
  · have hchan := channels_modDma_other h (fun x => { x with passed := p }) b
    exact ⟨hleaves, by rw [hchan]; exact ⟨rfl, rfl, rfl⟩, by rw [hchan]⟩

theorem SameLoops.pass {n : Block} (h : SameLoops c b n) (k : ChanId) (p : Bool) :
    SameLoops c b (if n.dma.channels[k].passed == p then n else n.modDma k fun x => { x with passed := p }) := by
  split
  · exact h
  · exact h.trans (SameLoops.passed c k p n)

theorem activeOf_congr {n : Block} (h : ∀ o : Obj, n.reg o = b.reg o) (k : ChanId) : n.activeOf k = b.activeOf k := by
  unfold activeOf regI
  simp only [h]

/-! ## The beat (R386) -/

theorem leaves_descLastBeat (c : ChanId) (b : Block) : Leaves [.dma] (chanRegs c) b (b.descLastBeat c) := by
  unfold descLastBeat
  extract_lets d
  split
  · exact (Leaves.refl _ _ b).modDma _ _ (List.mem_singleton_self _)
  · exact leaves_descEnded c b

/-- The first byte of the beat's place on one side. -/
def beatAt (c : ChanId) (base : Nat) (s1 s2 : Int) (b : Block) : Nat :=
  ((base + s1 * b.dma.channels[c].i1 + s2 * b.dma.channels[c].i2 + b.dma.channels[c].off) % 2 ^ 64).toNat

/-- The bytes that a beat from the buffer moves, units swapped. -/
def beatBytes (c : ChanId) (b : Block) : List Byte :=
  swapBytes (b.activeOf c).swap (b.memRead (b.beatAt c (b.activeOf c).src (b.activeOf c).sstep1 (b.activeOf c).sstep2)
    (min 64 ((b.activeOf c).n0 - b.dma.channels[c].off)))

/-- Where a beat puts them. -/
def beatDest (c : ChanId) (b : Block) : Nat := b.beatAt c (b.activeOf c).dst (b.activeOf c).dstep1 (b.activeOf c).dstep2

theorem descBeat_inBuffer {data : List Byte} (hsrc : (b.activeOf c).srcSpace = 0) (hdst : (b.activeOf c).dstSpace = 0) (hp : (b.activeOf c).pace = 0) :
    Leaves [.dma] (chanRegs c) (b.memWrite (b.beatDest c) (b.beatBytes c)) (b.descBeat c data) := by
  have hbegun : Leaves [.dma] (chanRegs c) (b.memWrite (b.beatDest c) (b.beatBytes c))
      ((b.memWrite (b.beatDest c) (b.beatBytes c)).modDma c fun x => { x with begun := true, lastTag := (b.activeOf c).tag }) :=
    (Leaves.refl _ _ _).modDma _ _ (List.mem_singleton_self _)
  unfold descBeat
  dsimp only
  rw [hsrc, hdst, if_neg (show ¬ (b.activeOf c).pace = 3 by omega)]
  split
  · exact hbegun.modDma _ _ (List.mem_singleton_self _)
  split
  · exact hbegun.modDma _ _ (List.mem_singleton_self _)
  split
  · exact hbegun.modDma _ _ (List.mem_singleton_self _)
  · exact hbegun.trans (leaves_descLastBeat c _)

/-- The pier as a cycle begins: one channel active, unpaced, within the buffer. -/
structure OneBeat (c : ChanId) (b : Block) : Prop where
  streams : ∀ k : ChanId, b.dma.channels[k].stream = false
  idle : ∀ k : ChanId, k ≠ c → (b.activeOf k).st ≠ 2
  active : (b.activeOf c).st = 2
  open_ : b.dma.channels[c].ending = false
  unpaced : (b.activeOf c).pace = 0
  source : (b.activeOf c).srcSpace = 0
  dest : (b.activeOf c).dstSpace = 0

theorem OneBeat.of_leaves {n : Block} (h : OneBeat c b) (w : Leaves [.host] [] b n) : OneBeat c n := by
  have hact (k : ChanId) : n.activeOf k = b.activeOf k := activeOf_congr (fun o => w.reg o nofun) k
  have hdma : n.dma = b.dma := w.dma (by decide)
  refine ⟨fun k => ?_, fun k hk => ?_, ?_, ?_, ?_, ?_, ?_⟩
  · rw [hdma]; exact h.streams k
  · rw [hact]; exact h.idle k hk
  · rw [hact]; exact h.active
  · rw [hdma]; exact h.open_
  · rw [hact]; exact h.unpaced
  · rw [hact]; exact h.source
  · rw [hact]; exact h.dest

theorem OneBeat.chosen (h : OneBeat c b) (f0 f1 : Nat) : b.chooseChannel 0 f0 f1 = some c := by
  refine chooseChannel_only (fun k => ?_) h.idle
  by_cases hk : k = c
  · subst hk
    rw [dmaReady_unpaced (h.streams k) h.active h.open_ h.unpaced h.source]
    simp
  · rw [dmaReady_idle (h.streams k) (h.idle k hk)]
    simp [hk]

theorem foldl_id {α β : Type} {f : β → α → β} {x : β} (h : ∀ a, f x a = x) (l : List α) : l.foldl f x = x := by
  induction l with
  | nil => rfl
  | cons a l ih => rw [List.foldl_cons, h, ih]

/-- The cycle issues the beat of the one active channel. -/
theorem dmaBeat_one (h : OneBeat c b) (hs : b.asleep = false) (f0 f1 : Nat) (data : List Byte) :
    ∃ m, SameLoops c b m ∧ b.dmaBeat 0 f0 f1 data = m.descBeat c data := by
  have hmarks := leaves_marksTaken b
  have h1 := h.of_leaves hmarks
  unfold dmaBeat
  rw [if_neg (by rw [hs]; exact Bool.false_ne_true)]
  extract_lets before b1 crossed pick b2 b3
  have hb1 : OneBeat c b1 := h1
  have hcrossed : crossed = 0 := by
    refine foldl_id (fun k => ?_) _
    refine if_pos ?_
    rw [hb1.streams]
    rfl
  have hchosen : pick = b1.chooseChannel (0 ||| BitVec.ofNat 32 crossed) f0 f1 := rfl
  have hpick : pick = some c := by
    clear_value crossed pick
    rw [hchosen, hcrossed, show (0 : BitVec 32) ||| BitVec.ofNat 32 0 = 0 from rfl]
    exact hb1.chosen f0 f1
  have hb2 : b2 = b1 := by
    refine foldl_id (fun k => if_neg ?_) _
    rintro ⟨hst, hp⟩
    by_cases hk : k = c
    · subst hk
      exact absurd (hb1.unpaced.symm.trans hp) (by decide)
    · exact hb1.idle k hk hst
  have hb3 : SameLoops c b b3 := by
    have hdma : b1.dma = b.dma := hmarks.dma (by decide)
    have h1 : SameLoops c b b1 :=
      ⟨(Leaves.refl _ _ b).of_part hmarks (by simp) (List.nil_subset _), by rw [hdma]; exact ⟨rfl, rfl, rfl⟩, by rw [hdma]⟩
    exact foldl_rel (r := SameLoops c b) (fun n k hn => hn.pass k _) _ (hb2 ▸ h1)
  clear_value b3
  refine ⟨b3, hb3, ?_⟩
  rw [hpick]
  exact if_neg (by rw [hb3.stream, h.streams]; exact Bool.false_ne_true)

theorem memRead_congr {n : Block} (h : n.mem = b.mem) (a k : Nat) : n.memRead a k = b.memRead a k := by
  unfold memRead
  rw [h]

theorem beatAt_congr {n : Block} (h : SameLoops c b n) (base : Nat) (s1 s2 : Int) : n.beatAt c base s1 s2 = b.beatAt c base s1 s2 := by
  obtain ⟨h1, h2, h3⟩ := h.loops
  unfold beatAt
  rw [h1, h2, h3]

/-- A beat of the one active channel, from the pier before the cycle (R386, R392). -/
theorem dmaBeat_moves (h : OneBeat c b) (hs : b.asleep = false) (f0 f1 : Nat) (data : List Byte) :
    (b.dmaBeat 0 f0 f1 data).mem = memPutRun b.mem (b.beatDest c) (b.beatBytes c) ∧ (b.dmaBeat 0 f0 f1 data).heads = b.heads ∧
      (b.dmaBeat 0 f0 f1 data).axes = b.axes := by
  obtain ⟨m, hm, hrun⟩ := dmaBeat_one h hs f0 f1 data
  have hact : m.activeOf c = b.activeOf c := activeOf_congr (fun o => hm.leaves.reg o nofun) c
  have hbeat := descBeat_inBuffer (data := data) (hact ▸ h.source) (hact ▸ h.dest) (hact ▸ h.unpaced)
  have hdest : m.beatDest c = b.beatDest c := by
    unfold beatDest
    rw [beatAt_congr hm, hact]
  have hmem : m.mem = b.mem := hm.leaves.mem (by decide)
  have hbytes : m.beatBytes c = b.beatBytes c := by
    unfold beatBytes
    rw [beatAt_congr hm, hact, memRead_congr hmem, hm.loops.2.2]
  rw [hrun]
  refine ⟨?_, Vector.ext fun i hi => ?_, Vector.ext fun i hi => ?_⟩
  · rw [hbeat.mem (by decide), hdest, hbytes, ← hmem]
    rfl
  · exact (hbeat.heads ⟨i, hi⟩ (by simp)).trans (hm.leaves.heads ⟨i, hi⟩ (by simp))
  · exact (hbeat.axes ⟨i, hi⟩ (by simp)).trans (hm.leaves.axes ⟨i, hi⟩ (by simp))

theorem length_beatBytes : (b.beatBytes c).length = min 64 ((b.activeOf c).n0 - b.dma.channels[c].off) := by
  unfold beatBytes memRead
  rw [length_swapBytes, List.length_map, List.length_range]

end

end Block

end Sys2Proof.Machine

namespace Sys2Proof

open Machine Machine.Block

/-- Settles O40: the one active channel is chosen, and its beat is a write of the swapped run at the destination. -/
theorem beatsMoveBytes : Obligations.BeatsMoveBytes := by
  unfold Obligations.BeatsMoveBytes
  intro t c fill0 fill1 data s b d x n src dst hothers hs hst he hp hsrc hdst _
  have hone : OneBeat c b := ⟨fun k => (hothers k).1, fun k => (hothers k).2, hst, he, hp, hsrc, hdst⟩
  obtain ⟨hmem, hheads, haxes⟩ := dmaBeat_moves hone hs fill0 fill1 data
  have hlen : (b.beatBytes c).length = n := length_beatBytes
  refine ⟨_, does_of_run (f := fun b => b.dmaBeat 0 fill0 fill1 data) rfl rfl, fun i hi => ?_, fun a ha => ?_, hheads, haxes⟩
  · have hget : (b.beatBytes c)[i]? = some ((b.beatBytes c).getD i 0) := by
      rw [List.getD_eq_getElem?_getD, List.getElem?_eq_getElem (by omega)]
      rfl
    rw [hmem]
    exact memGet_memPutRun_inside _ _ hget
  · rw [hmem]
    exact memGet_memPutRun_outside _ (hlen.symm ▸ ha)

end Sys2Proof

/-! # What the operations of the span ring leave (R409 to R424) -/

namespace Sys2Proof.Machine.Block

section
variable {b : Block}

/-- What has left the pier stays in its record through an operation of the pier. -/
abbrev Anywhere : Piece → Prop := fun _ => True

/-! ## The page (R251, R419) -/

theorem leaves_lowerK (a : AxisId) (k : Int) (b : Block) : Leaves pageParts pageRegs b (b.lowerK a k) := by
  unfold lowerK setK
  split
  · exact .refl _ _ b
  · extract_lets c
    have hc : Leaves pageParts pageRegs b c :=
      (((Leaves.refl _ _ b).setReg _ _ (mem_pageRegs a).2.2.2.1).modKey _ keystone_mem_pageParts).modKey _ keystone_mem_pageParts
    split
    · exact hc.trans (leaves_replan a c)
    · exact hc

theorem leaves_keyOutside (reason : Nat) (b : Block) : Leaves pageParts pageRegs b (b.keyOutside reason) := by
  unfold keyOutside
  split
  · exact .refl _ _ b
  next a _ =>
    split
    · exact .refl _ _ b
    · dsimp only
      split
      · split
        · exact (leaves_keyPause a _ b).trans (leaves_lowerK ..)
        · exact leaves_keyPause a _ b
      · exact leaves_keyPause a _ b

theorem leaves_spanFault (b : Block) : Leaves pageParts pageRegs b b.spanFault :=
  ((Leaves.refl _ _ b).sendRing _).trans (leaves_keyOutside ..)

/-- The registers of the ceilings that the owner of a page derives. -/
def ownCeilings : List Obj := [Obj.axisKeystoneCeiling 0, Obj.axisKeystoneCeiling 1]

theorem ceiling_mem (a : AxisId) : Obj.axisKeystoneCeiling a ∈ ownCeilings := by revert a; decide

theorem leaves_publishCeiling (f : Nat) (b : Block) : Leaves [.ring] [] b (b.publishCeiling f) :=
  ((Leaves.refl _ _ b).modRing (fun r => { r with ceiling := some f }) (List.mem_singleton_self _)).sendRing _

theorem leaves_deriveCeiling (b : Block) : Leaves [.ring] ownCeilings b b.deriveCeiling := by
  unfold deriveCeiling
  split
  · exact .refl _ _ b
  next a _ =>
    split
    · exact .refl _ _ b
    · exact ((Leaves.refl _ _ b).setReg _ _ (ceiling_mem a)).of_part (leaves_publishCeiling _ _) (List.Subset.refl _) (List.nil_subset _)

/-! ## Routes (R415, R416) -/

theorem mem_routeRegs (h : HeadId) : Obj.ringRouteAbutment h ∈ routeRegs ∧ Obj.ringRouteSpan h ∈ routeRegs ∧
    Obj.ringRouteAbutmentInForce h ∈ routeRegs ∧ Obj.ringRouteSpanInForce h ∈ routeRegs := by
  revert h; decide

/-- The route of a head takes force; its stream holds where its path changes with frames out (R416). -/
def routeSet (h : HeadId) (a s : Nat) (b : Block) : Block :=
  if (a != b.reg (Obj.ringRouteAbutmentInForce h) || s != b.reg (Obj.ringRouteSpanInForce h)) &&
      ((b.setReg (Obj.ringRouteAbutmentInForce h) a).setReg (Obj.ringRouteSpanInForce h) s).dma.channels[(⟨4 + h.val, by omega⟩ : ChanId)].sent != 0 then
    ((b.setReg (Obj.ringRouteAbutmentInForce h) a).setReg (Obj.ringRouteSpanInForce h) s).modDma ⟨4 + h.val, by omega⟩ fun x =>
      { x with hold := true, issued := 0 }
  else (b.setReg (Obj.ringRouteAbutmentInForce h) a).setReg (Obj.ringRouteSpanInForce h) s

theorem leaves_routeSet (h : HeadId) (a s : Nat) (b : Block) : Leaves [.dma] routeRegs b (b.routeSet h a s) := by
  obtain ⟨-, -, h3, h4⟩ := mem_routeRegs h
  unfold routeSet
  split
  · exact (((Leaves.refl _ _ b).setReg _ _ h3).setReg _ _ h4).modDma _ _ (List.mem_singleton_self _)
  · exact ((Leaves.refl _ _ b).setReg _ _ h3).setReg _ _ h4

theorem leaves_reroute (b : Block) : Leaves [.dma] routeRegs b b.reroute := by
  refine (Leaves.refl _ _ b).foldl _ _ fun n h _ => ?_
  obtain ⟨h1, h2, -⟩ := mem_routeRegs h
  have hderived : Leaves [.dma] routeRegs n (if n.levelInForce Obj.ringLevel = 1 then n
      else match n.derivedRoute h.val with
        | some (a, s) => (n.setReg (Obj.ringRouteAbutment h) a).setReg (Obj.ringRouteSpan h) s
        | none => n) := by
    split
    · exact .refl _ _ n
    · split
      · exact ((Leaves.refl _ _ n).setReg _ _ h1).setReg _ _ h2
      · exact .refl _ _ n
  rcases (n.routeInForce h.val).getD (0xFF, 0) with ⟨x, k⟩
  exact hderived.trans (leaves_routeSet h x k _)

theorem leaves_coincides (at_ : Option Time) (b : Block) : Leaves [] [Obj.ringCoincidences] b (b.coincides at_) := by
  unfold coincides
  split
  · split
    · exact (Leaves.refl _ _ b).bump _ (List.mem_singleton_self _)
    · exact .refl _ _ b
  · exact .refl _ _ b

theorem leaves_streamRestart (c : ChanId) (b : Block) : Leaves [.dma] [] b (b.streamRestart c) :=
  (Leaves.refl _ _ b).modDma _ _ (List.mem_singleton_self _)

/-! ## The state of ring time (R424) -/

/-- The heads, as parts. -/
def headParts : List Piece := [.head 0, .head 1, .head 2, .head 3]

theorem head_mem_headParts (h : HeadId) : Piece.head h ∈ headParts := by revert h; decide

theorem leaves_setTimeState (n : Nat) (b : Block) : Leaves headParts [Obj.ringTimeState] b (b.setTimeState n) := by
  unfold setTimeState
  extract_lets fresh c
  have hc : Leaves headParts [Obj.ringTimeState] b c := (Leaves.refl _ _ b).setReg _ _ (List.mem_singleton_self _)
  split
  · exact hc
  · refine hc.foldl _ _ fun m h _ => ?_
    split
    · exact (Leaves.refl _ _ m).modHead _ _ (head_mem_headParts h)
    · exact .refl _ _ m

/-- The parts of ring time. -/
def timeParts : List Piece := .ring :: headParts

theorem headParts_subset : headParts ⊆ timeParts := List.subset_cons_self _ _

theorem leaves_holdover (b : Block) : Leaves timeParts [Obj.ringTimeState] b b.holdover := by
  unfold holdover
  extract_lets st
  split
  · exact (((Leaves.refl _ _ b).of_part (leaves_setTimeState 3 b) headParts_subset (List.Subset.refl _)).modRing _ List.mem_cons_self).raise _
  · exact .refl _ _ b

theorem Leaves.withTimePath {P : List Piece} {R : List Obj} {f : Block → Block} {b₀ : Block} (h : Leaves P R b₀ (f b)) (hp : timeParts ⊆ P)
    (hr : Obj.ringTimeState ∈ R) : Leaves P R b₀ (b.withTimePath f) := by
  unfold Block.withTimePath
  extract_lets c
  split
  · exact h.of_part (leaves_holdover c) hp (List.cons_subset.mpr ⟨hr, List.nil_subset _⟩)
  · exact h

/-! ## Topology and numbers (R412, R413, R415) -/

theorem leaves_setTopology (wrap : Option Nat) (b : Block) : Leaves [.ring, .dma] (Obj.ringTopology :: routeRegs) b (b.setTopology wrap) := by
  unfold setTopology
  extract_lets was now c d
  have hc : Leaves [.ring, .dma] (Obj.ringTopology :: routeRegs) b c := ((Leaves.refl _ _ b).modRing _ (by simp)).setReg _ _ List.mem_cons_self
  exact ((hc.raiseIf _ _).raiseIf _ _).of_part (leaves_reroute _) (by simp) (List.subset_cons_self _ _)

theorem leaves_closedCount (n : Nat) (b : Block) : Leaves [.ring, .faults] [Obj.ringConfigured] b (b.closedCount n) := by
  unfold closedCount
  split
  · exact .refl _ _ b
  · extract_lets old once c d
    have hd : Leaves [.ring, .faults] [Obj.ringConfigured] b d := by
      have hc : Leaves [.ring, .faults] [Obj.ringConfigured] b c := (Leaves.refl _ _ b).modRing _ (by simp)
      unfold d
      split
      · exact (hc.setReg _ _ (List.mem_singleton_self _)).sendRing _
      · exact hc
    split
    · exact hd
    · exact (hd.of_part (leaves_logFault ..) (by simp) (List.nil_subset _)).raise _

/-- The registers of the pier's number. -/
def numberRegs : List Obj := [Obj.ringPierNumber, Obj.deviceColumnBase]

theorem leaves_deriveBase (b : Block) : Leaves [] [Obj.deviceColumnBase] b b.deriveBase := by
  unfold deriveBase
  extract_lets p
  split
  · exact .refl _ _ b
  · exact (Leaves.refl _ _ b).setReg _ _ (List.mem_singleton_self _)

theorem Leaves.thermal_set {P : List Piece} {R : List Obj} {n : Block} (h : Leaves P R b n) (x : Thermal) (hp : Piece.thermal ∈ P) :
    Leaves P R b { n with thermal := x } := { h with thermal := fun q => absurd hp q }

theorem leaves_number (p : Nat) (b : Block) : Leaves [.thermal] numberRegs b (b.number p) := by
  have hc (x : Thermal) : Leaves [.thermal] numberRegs b { b with thermal := x } := (Leaves.refl _ _ b).thermal_set _ (List.mem_singleton_self _)
  unfold number
  exact ((hc _).setReg _ _ List.mem_cons_self).of_part (leaves_deriveBase _) (List.nil_subset _) (List.subset_cons_self _ _)

theorem leaves_numberBy (s : SpanId) (neighbour : Nat) (b : Block) : Leaves [.thermal] numberRegs b (b.numberBy s neighbour) := by
  unfold numberBy
  extract_lets n
  split
  · exact .refl _ _ b
  split
  · exact leaves_number ..
  split
  · exact leaves_number ..
  split
  · exact .refl _ _ b
  · exact leaves_number ..

end

end Sys2Proof.Machine.Block

/-! # Spans train, spare a lane and go down (R405, R409 to R411) -/

namespace Sys2Proof.Machine.Block

section
variable {b : Block} {k : SpanId}

theorem routeRegs_subset_offer : routeRegs ⊆ offerRegs := fun _ h =>
  List.mem_append_left _ (List.mem_append_left _ (List.mem_append_right _ h))

theorem pageRegs_subset_offer : pageRegs ⊆ offerRegs := fun _ h => List.mem_append_left _ (List.mem_append_right _ h)

theorem ownCeilings_subset_offer : ownCeilings ⊆ offerRegs := fun x h =>
  List.mem_append_left _ (List.mem_append_left _ (List.mem_append_left _ (by revert x; decide)))

/-! ## The loss of a span (R411, R419) -/

/-- The span's registers and state after its loss. -/
def spanCleared (s : SpanId) (b : Block) : Block :=
  (((b.setReg (Obj.spanState s) 0).setReg (Obj.spanLaneMap s) 0).setReg (Obj.spanNeighbour s) 0xFF).modSpan s fun x =>
    { x with spare := none, changing := none, txSeq := 0, rxSeq := 0, replayed := none, sent := [], waiting := [] }

/-- The count and the event of a loss. -/
def lossCounted (s : SpanId) (b : Block) : Block :=
  ((((b.spanCleared s).coincides (b.spanCleared s).ring.lossAt).modRing fun r => { r with downAt := some b.now }).bump (Obj.spanDowns s)).raise (770 + s.val)

/-- The place where the ring opens. -/
def openAt (s : SpanId) (b : Block) : Nat :=
  if s = 1 then b.pier else (b.pier + max 1 (b.reg Obj.ringConfigured) - 1) % max 1 (b.reg Obj.ringConfigured)

/-- The loss told to the log, the topology, the routes and the page. -/
def lossTold (s : SpanId) (b : Block) : Block :=
  ((if (b.logFault 0x0041 s.val 0 (770 + s.val)).reg Obj.ringTopology = 1 then
      ((b.logFault 0x0041 s.val 0 (770 + s.val)).setTopology (some ((b.logFault 0x0041 s.val 0 (770 + s.val)).openAt s))).sendRing
        (.topology (some ((b.logFault 0x0041 s.val 0 (770 + s.val)).openAt s)))
    else b.logFault 0x0041 s.val 0 (770 + s.val)).reroute).spanFault

theorem spanLost_up (h : 2 ≤ b.reg (Obj.spanState k)) : b.spanLost k = (b.lossCounted k).lossTold k := by
  have hup : b.spanUp k = true := decide_eq_true h
  refine (if_neg (by omega)).trans ?_
  exact if_neg (by rw [hup]; exact Bool.false_ne_true)

theorem spanLost_down (h : b.reg (Obj.spanState k) = 0) : b.spanLost k = b := if_pos h

theorem spanDown_down (h : b.reg (Obj.spanState k) = 0) : b.spanDown k = b := by
  unfold spanDown withTimePath
  extract_lets c
  have hc : c = b := spanLost_down h
  rw [hc]
  exact if_neg fun h => h.2.2 rfl

/-- The parts that a loss touches. -/
def lossParts : List Piece := [.ring, .dma, .faults, .keystone, .axis 0, .axis 1, .head 0, .head 1, .head 2, .head 3]

/-- The registers that a loss touches beside those of its span. -/
def lossRegs : List Obj := [Obj.ringTopology, Obj.ringCoincidences, Obj.ringTimeState] ++ routeRegs ++ pageRegs

theorem leaves_lossTold (k : SpanId) (b : Block) : Leaves lossParts lossRegs b (b.lossTold k) := by
  have hlog : Leaves lossParts lossRegs b (b.logFault 0x0041 k.val 0 (770 + k.val)) :=
    (Leaves.refl _ _ b).of_part (leaves_logFault ..) (by decide) (List.nil_subset _)
  have htop : Leaves lossParts lossRegs b (if (b.logFault 0x0041 k.val 0 (770 + k.val)).reg Obj.ringTopology = 1 then
      ((b.logFault 0x0041 k.val 0 (770 + k.val)).setTopology (some ((b.logFault 0x0041 k.val 0 (770 + k.val)).openAt k))).sendRing
        (.topology (some ((b.logFault 0x0041 k.val 0 (770 + k.val)).openAt k)))
      else b.logFault 0x0041 k.val 0 (770 + k.val)) := by
    split
    · exact (hlog.of_part (leaves_setTopology ..) (by decide) (by decide)).sendRing _
    · exact hlog
  exact (htop.of_part (leaves_reroute _) (by decide) (by decide)).of_part (leaves_spanFault _) (by decide) (by decide)

theorem leaves_lossCounted (k : SpanId) (b : Block) :
    Leaves lossParts (Obj.spanDowns k :: lossRegs) (b.spanCleared k) (b.lossCounted k) :=
  (((((Leaves.refl lossParts (Obj.spanDowns k :: lossRegs) (b.spanCleared k)).of_part (leaves_coincides _ _) (List.nil_subset _) (by
    exact List.cons_subset.mpr ⟨List.mem_cons_of_mem _ (by decide), List.nil_subset _⟩)).modRing _ (by decide)).bump _ List.mem_cons_self)).raise _

/-- From the span's cleared registers on, a loss leaves them as they are. -/
theorem leaves_spanDown (h : 2 ≤ b.reg (Obj.spanState k)) : Leaves lossParts (Obj.spanDowns k :: lossRegs) (b.spanCleared k) (b.spanDown k) := by
  refine Leaves.withTimePath (f := fun b => b.spanLost k) ?_ (by decide) (List.mem_cons_of_mem _ (by decide))
  rw [spanLost_up h]
  exact (leaves_lossCounted k b).of_part (leaves_lossTold k _) (List.Subset.refl _) (List.subset_cons_self _ _)

theorem within_lossTold {b₀ : Block} (w : Within Anywhere b₀ b) : Within Anywhere b₀ (b.lossTold k) :=
  ((w.logFault.setTopology.sendRing.ite w.logFault).reroute).spanFault trivial fun _ => trivial

theorem spanDown_fires (h : 2 ≤ b.reg (Obj.spanState k)) : (b.spanDown k).Fired (770 + k.val) := by
  have hcounted : (b.lossCounted k).Fired (770 + k.val) := List.mem_append_right _ (List.mem_singleton_self _)
  have hlost : Within Anywhere (b.lossCounted k) (b.spanLost k) := by
    rw [spanLost_up h]
    exact within_lossTold (.refl _ _)
  unfold spanDown withTimePath
  extract_lets c
  split
  · exact (hlost.holdover fun _ => trivial).fired hcounted
  · exact hlost.fired hcounted

theorem regs_spanCleared (k : SpanId) (b : Block) : (b.spanCleared k).reg (Obj.spanState k) = 0 ∧ (b.spanCleared k).reg (Obj.spanLaneMap k) = 0 ∧
    (b.spanCleared k).reg (Obj.spanNeighbour k) = 0xFF := by
  have h1 : (Obj.spanState k).key ≠ (Obj.spanLaneMap k).key := by revert k; decide
  have h2 : (Obj.spanState k).key ≠ (Obj.spanNeighbour k).key := by revert k; decide
  have h3 : (Obj.spanLaneMap k).key ≠ (Obj.spanNeighbour k).key := by revert k; decide
  refine ⟨?_, ?_, ?_⟩
  · exact (reg_setReg_ne _ _ _ _ h2).trans ((reg_setReg_ne _ _ _ _ h1).trans (reg_setReg_self ..))
  · exact (reg_setReg_ne _ _ _ _ h3).trans (reg_setReg_self ..)
  · exact reg_setReg_self ..

/-- The registers of a span that its loss clears. -/
def clearRegs (k : SpanId) : List Obj := [Obj.spanState k, Obj.spanLaneMap k, Obj.spanNeighbour k]

theorem leaves_spanCleared (k : SpanId) (b : Block) : Leaves [.ring] (clearRegs k) b (b.spanCleared k) :=
  ((((Leaves.refl _ _ b).setReg _ _ (by simp [clearRegs])).setReg _ _ (by simp [clearRegs])).setReg _ _ (by simp [clearRegs])).modSpan _ _
    (List.mem_singleton_self _)

theorem clearRegs_outside (k : SpanId) : ∀ o ∈ clearRegs k, ∀ x ∈ Obj.spanDowns k :: lossRegs, o.key ≠ x.key := by revert k; decide

/-- What a loss leaves of the whole pier. -/
theorem spanDown_leaves (h : 2 ≤ b.reg (Obj.spanState k)) : Leaves ringParts ([Obj.spanState k, Obj.spanLaneMap k, Obj.spanNeighbour k,
    Obj.spanDowns k, Obj.ringTopology, Obj.ringCoincidences, Obj.ringTimeState] ++ routeRegs ++ pageRegs) b (b.spanDown k) := by
  refine Leaves.of_part ((Leaves.refl _ _ b).of_part (leaves_spanCleared k b) (by decide) ?_) (leaves_spanDown h) (by decide) ?_
  · clear h; revert k; decide
  · clear h; revert k; decide

/-! ## Training (R405, R409) -/

/-- A span that has trained: its lanes, its spare and its neighbour. -/
def trained (k : SpanId) (lanes : Nat) (neighbour : Option PierId) (b : Block) : Block :=
  (((b.setReg (Obj.spanState k) (if popCount lanes 5 == 5 then 2 else 3)).setReg (Obj.spanLaneMap k) (if popCount lanes 5 == 5 then 0x0F else lanes)).modSpan k
    fun x => { x with spare := if popCount lanes 5 == 5 then some 4 else none, changing := none }).setReg (Obj.spanNeighbour k)
      (match neighbour with | some p => p.val | none => 0xFF)

/-- The number that the neighbour gives (R412). -/
def numbered (k : SpanId) (neighbour : Option PierId) (b : Block) : Block := match neighbour with | some p => b.numberBy k p.val | none => b

/-- The topology after a training. -/
def joined (closes : Bool) (b : Block) : Block :=
  if closes then ((b.setTopology none).closedCount b.ring.members.length).sendRing (.topology none) else b.reroute

/-- The event of a training, and what follows from the new span. -/
def trainingTold (k : SpanId) (closes : Bool) (b : Block) : Block := ((b.raise (768 + k.val)).withTimePath fun b => b.joined closes).deriveCeiling

theorem trainingComplete_up {lanes : BitVec 5} {neighbour : Option PierId} {closes : Bool} (hs : b.reg (Obj.spanState k) = 1)
    (hl : 4 ≤ popCount lanes.toNat 5) : b.trainingComplete k lanes neighbour false closes =
      ((b.trained k lanes.toNat neighbour).numbered k neighbour).trainingTold k closes := by
  refine (if_neg (fun h => h hs)).trans ?_
  refine (if_neg Bool.false_ne_true).trans (if_neg (by omega))

/-- The registers that a training touches beside its span's and the pier's number. -/
def trainRegs : List Obj := [Obj.ringTopology, Obj.ringConfigured, Obj.ringTimeState] ++ routeRegs ++ ownCeilings

/-- The parts that a training touches. -/
def trainParts : List Piece := [.ring, .dma, .faults, .thermal, .head 0, .head 1, .head 2, .head 3]

theorem leaves_joined (closes : Bool) (b : Block) : Leaves trainParts trainRegs b (b.joined closes) := by
  unfold joined
  split
  · exact (((Leaves.refl _ _ b).of_part (leaves_setTopology ..) (by decide) (by decide)).of_part (leaves_closedCount ..) (by decide) (by decide)).sendRing _
  · exact (Leaves.refl _ _ b).of_part (leaves_reroute b) (by decide) (by decide)

theorem leaves_trainingTold (k : SpanId) (closes : Bool) (b : Block) : Leaves trainParts trainRegs b (b.trainingTold k closes) := by
  have hraised : Leaves trainParts trainRegs b ((b.raise (768 + k.val)).joined closes) := ((Leaves.refl _ _ b).raise _).trans (leaves_joined ..)
  exact (hraised.withTimePath (f := fun b => b.joined closes) (by decide) (by decide)).of_part (leaves_deriveCeiling _) (by decide) (by decide)

theorem trainingTold_fires (k : SpanId) (closes : Bool) (b : Block) : (b.trainingTold k closes).Fired (768 + k.val) := by
  have hraised : (b.raise (768 + k.val)).Fired (768 + k.val) := List.mem_append_right _ (List.mem_singleton_self _)
  refine Within.fired (P := Anywhere) (Within.deriveCeiling (Within.withTimePath (.refl _ _) (fun _ => trivial) fun c w => ?_)) hraised
  unfold joined
  exact (w.setTopology.closedCount.sendRing).ite w.reroute

theorem leaves_numbered (k : SpanId) (neighbour : Option PierId) (b : Block) : Leaves [.thermal] numberRegs b (b.numbered k neighbour) := by
  unfold numbered
  split
  · exact leaves_numberBy ..
  · exact .refl _ _ b

/-- A pier with a number keeps it (R412). -/
theorem numbered_of_number {neighbour : Option PierId} (h : b.pier ≠ 0xFF ∨ neighbour = none) : b.numbered k neighbour = b := by
  unfold numbered
  split
  · next p =>
    exact if_pos (h.resolve_right (by simp))
  · rfl

theorem leaves_trained (k : SpanId) (lanes : Nat) (neighbour : Option PierId) (b : Block) : Leaves [.ring] (clearRegs k) b (b.trained k lanes neighbour) :=
  ((((Leaves.refl _ _ b).setReg _ _ (by simp [clearRegs])).setReg _ _ (by simp [clearRegs])).modSpan _ _ (List.mem_singleton_self _)).setReg _ _
    (by simp [clearRegs])

theorem regs_trained (k : SpanId) {lanes : Nat} (hl : lanes < 256) (neighbour : Option PierId) (b : Block) :
    (b.trained k lanes neighbour).reg (Obj.spanState k) = (if popCount lanes 5 = 5 then 2 else 3) ∧
    (b.trained k lanes neighbour).reg (Obj.spanLaneMap k) = (if popCount lanes 5 = 5 then 0x0F else lanes) ∧
    (b.trained k lanes neighbour).reg (Obj.spanNeighbour k) = (match neighbour with | some p => p.val | none => 0xFF) := by
  have h1 : (Obj.spanState k).key ≠ (Obj.spanLaneMap k).key := by revert k; decide
  have h2 : (Obj.spanState k).key ≠ (Obj.spanNeighbour k).key := by revert k; decide
  have h3 : (Obj.spanLaneMap k).key ≠ (Obj.spanNeighbour k).key := by revert k; decide
  refine ⟨?_, ?_, ?_⟩
  · refine (reg_setReg_ne _ _ _ _ h2).trans ((reg_setReg_ne _ _ _ _ h1).trans ((reg_setReg_self ..).trans ?_))
    by_cases hp : popCount lanes 5 = 5
    · rw [if_pos hp, if_pos (beq_iff_eq.mpr hp)]; rfl
    · rw [if_neg hp, if_neg (fun h => hp (beq_iff_eq.mp h))]; rfl
  · refine (reg_setReg_ne _ _ _ _ h3).trans ((reg_setReg_self ..).trans ?_)
    by_cases hp : popCount lanes 5 = 5
    · rw [if_pos hp, if_pos (beq_iff_eq.mpr hp)]; rfl
    · rw [if_neg hp, if_neg (fun h => hp (beq_iff_eq.mp h))]
      exact Nat.mod_eq_of_lt hl
  · refine (reg_setReg_self ..).trans (Nat.mod_eq_of_lt ?_)
    split
    · next p => exact Nat.lt_of_lt_of_le p.isLt (Nat.le_of_ble_eq_true rfl)
    · exact Nat.le_of_ble_eq_true rfl

theorem clearRegs_outside_train (k : SpanId) : ∀ o ∈ clearRegs k, (∀ x ∈ numberRegs, o.key ≠ x.key) ∧ ∀ x ∈ trainRegs, o.key ≠ x.key := by
  revert k; decide

/-- A register of the span after the whole training. -/
theorem reg_trainingTold {lanes : Nat} {neighbour : Option PierId} {closes : Bool} {o : Obj} (ho : o ∈ clearRegs k) :
    (((b.trained k lanes neighbour).numbered k neighbour).trainingTold k closes).reg o = (b.trained k lanes neighbour).reg o := by
  obtain ⟨hnumber, htrain⟩ := clearRegs_outside_train k o ho
  exact ((leaves_trainingTold k closes _).reg o htrain).trans ((leaves_numbered k neighbour _).reg o hnumber)

theorem pier_trained (k : SpanId) (lanes : Nat) (neighbour : Option PierId) (b : Block) : (b.trained k lanes neighbour).pier = b.pier :=
  (leaves_trained k lanes neighbour b).reg Obj.ringPierNumber (by revert k; decide)

theorem number_trainingTold {lanes : Nat} {neighbour : Option PierId} {closes : Bool} (h : b.pier ≠ 0xFF ∨ neighbour = none) :
    (((b.trained k lanes neighbour).numbered k neighbour).trainingTold k closes).reg Obj.ringPierNumber = b.reg Obj.ringPierNumber := by
  rw [numbered_of_number (by rwa [pier_trained])]
  exact ((leaves_trainingTold k closes _).reg Obj.ringPierNumber (by decide)).trans (pier_trained ..)

theorem trainRegs_subset_offer : trainRegs ⊆ [Obj.ringTopology, Obj.ringConfigured, Obj.ringTimeState] ++ offerRegs :=
  List.append_subset.mpr ⟨List.append_subset.mpr ⟨List.subset_append_left .., List.subset_append_of_subset_right _ routeRegs_subset_offer⟩,
    List.subset_append_of_subset_right _ ownCeilings_subset_offer⟩

theorem trainingTold_leaves (k : SpanId) (lanes : Nat) (neighbour : Option PierId) (closes : Bool) (b : Block) :
    Leaves ringParts ([Obj.spanState k, Obj.spanLaneMap k, Obj.spanNeighbour k, Obj.ringTopology, Obj.ringConfigured, Obj.ringTimeState,
      Obj.ringPierNumber, Obj.deviceColumnBase] ++ offerRegs) b (((b.trained k lanes neighbour).numbered k neighbour).trainingTold k closes) := by
  refine Leaves.of_part (Leaves.of_part ((Leaves.refl _ _ b).of_part (leaves_trained ..) (by decide) ?_) (leaves_numbered ..) (by decide) ?_)
    (leaves_trainingTold ..) (by decide) ?_
  · exact List.subset_append_of_subset_left _ (by simp [clearRegs])
  · exact List.subset_append_of_subset_left _ (by simp [numberRegs])
  · refine List.Subset.trans trainRegs_subset_offer (List.append_subset.mpr ⟨List.subset_append_of_subset_left _ (by simp), List.subset_append_right ..⟩)

/-! ## The spare lane (R410) -/

theorem spans_modSpan_same (s : SpanId) (f : Span → Span) (b : Block) : (b.modSpan s f).ring.spans[s] = f b.ring.spans[s] :=
  Vector.getElem_set_self s.isLt

/-- A span without spare and changeover. -/
def NoSpare (s : SpanId) (b : Block) : Prop := b.ring.spans[s].spare = none ∧ b.ring.spans[s].changing = none

theorem noSpare_modSpan {s : SpanId} {f : Span → Span} (hf : ∀ x, (f x).spare = x.spare ∧ (f x).changing = x.changing) (h : NoSpare s b) :
    NoSpare s (b.modSpan s f) := by
  obtain ⟨h1, h2⟩ := hf b.ring.spans[s]
  unfold NoSpare
  rw [spans_modSpan_same, h1, h2]
  exact h

theorem noSpare_transmit {s : SpanId} (f : Frame) (h : NoSpare s b) : NoSpare s (b.transmit s f) :=
  noSpare_modSpan (f := fun x => { x with txSeq := _, sent := _ }) (fun _ => ⟨rfl, rfl⟩) h

theorem noSpare_sendWaiting {s : SpanId} (h : NoSpare s b) : NoSpare s (b.sendWaiting s) :=
  foldl_rel (r := NoSpare s) (fun _ f hn => noSpare_transmit f hn) _ (noSpare_modSpan (fun _ => ⟨rfl, rfl⟩) h)

theorem leaves_transmit (s : SpanId) (f : Frame) (b : Block) : Leaves [.ring] [] b (b.transmit s f) :=
  ((Leaves.refl _ _ b).modSpan _ _ (List.mem_singleton_self _)).emit _

theorem leaves_sendWaiting (s : SpanId) (b : Block) : Leaves [.ring] [] b (b.sendWaiting s) :=
  ((Leaves.refl _ _ b).modSpan _ _ (List.mem_singleton_self _)).foldl _ _ fun c f _ => leaves_transmit s f c

/-- The spare's lane in service. -/
def spareSet (s : SpanId) (lane spare : Nat) (b : Block) : Block :=
  ((((b.modSpan s fun x => { x with spare := none, changing := none }).setReg (Obj.spanLaneMap s) (setBit (clearBit (b.reg (Obj.spanLaneMap s)) lane) spare)).setReg
    (Obj.spanState s) 3).bump (Obj.spanSpares s)).raise (772 + s.val)

/-- The changeover's entry, its held frames and its fault. -/
def spareTold (s : SpanId) (lane : Nat) (b : Block) : Block := ((b.logFault 0x0042 s.val lane (772 + s.val)).sendWaiting s).spanFault

theorem spareInService_changing {lane spare : Nat} (hc : b.ring.spans[k].changing = some lane) (hs : b.ring.spans[k].spare = some spare) :
    b.spareInService k = (b.spareSet k lane spare).spareTold k lane := by
  unfold spareInService
  rw [hc, hs]
  rfl

theorem leaves_spareTold (s : SpanId) (lane : Nat) (b : Block) :
    Leaves [.ring, .keystone, .axis 0, .axis 1, .faults] pageRegs b (b.spareTold s lane) :=
  (((Leaves.refl _ _ b).of_part (leaves_logFault ..) (by decide) (List.nil_subset _)).of_part (leaves_sendWaiting ..) (by decide) (List.nil_subset _)).of_part
    (leaves_spanFault _) (by decide) (List.Subset.refl _)

theorem noSpare_spareTold {s : SpanId} {lane : Nat} (h : NoSpare s b) : NoSpare s (b.spareTold s lane) := by
  have hring : (b.logFault 0x0042 s.val lane (772 + s.val)).ring = b.ring := (leaves_logFault ..).ring (by decide)
  have hlog : NoSpare s (b.logFault 0x0042 s.val lane (772 + s.val)) := by
    unfold NoSpare
    rw [hring]
    exact h
  have hkept : (b.spareTold s lane).ring = ((b.logFault 0x0042 s.val lane (772 + s.val)).sendWaiting s).ring := (leaves_spanFault _).ring (by decide)
  unfold NoSpare
  rw [hkept]
  exact noSpare_sendWaiting hlog

theorem spareTold_fires {lane f : Nat} (h : b.Fired f) : (b.spareTold k lane).Fired f := by
  have w : Within Anywhere b ((b.logFault 0x0042 k.val lane (772 + k.val)).sendWaiting k) := (Within.refl _ b).logFault.sendWaiting
  exact (w.spanFault trivial fun _ => trivial).fired h

theorem taskDo_retrain (k : SpanId) (st : Time) (mv : List Nat) (m : Bool) (b : Block) :
    b.taskDo (384 + k.val) st { Env.quiet with merged := m } mv = b.spanRetrain k false := by
  match k with
  | ⟨0, _⟩ => rfl
  | ⟨1, _⟩ => rfl

theorem spanTraining_down (hs : b.reg (Obj.spanState k) = 0) (hl : b.reg (Obj.testSpanLoopback k) = 0) :
    b.spanTraining k = b.setReg (Obj.spanState k) 1 := if_pos ⟨hs, hl⟩

/-- Training of a span that is already down (R409). -/
theorem spanRetrain_down (hs : b.reg (Obj.spanState k) = 0) (hl : b.reg (Obj.testSpanLoopback k) = 0) :
    b.spanRetrain k false = b.setReg (Obj.spanState k) 1 := by
  show (b.spanDown k).spanTraining k = _
  rw [spanDown_down hs]
  exact spanTraining_down hs hl

theorem laneFailure_up {lane : Fin 5} (hup : b.spanUp k = true) : b.laneFailure k lane false =
    if b.ring.spans[k].spare = some lane.val then (b.modSpan k fun x => { x with spare := none }).setReg (Obj.spanState k) 3
    else if !(b.reg (Obj.spanLaneMap k)).testBit lane.val then b
    else if b.ring.spans[k].spare.isNone ∨ b.ring.spans[k].changing.isSome then b.spanDown k
    else b.modSpan k fun x => { x with changing := some lane.val } :=
  if_neg (by rw [hup]; exact Bool.false_ne_true)

end

end Sys2Proof.Machine.Block

namespace Sys2Proof

open Machine Machine.Block

/-- Settles O41: a span's registers are set first, and what follows of its training, its spare or its loss leaves them. -/
theorem spansTrainAndFail : Obligations.SpansTrainAndFail := by
  unfold Obligations.SpansTrainAndFail
  intro t k s b
  refine ⟨fun hs hl => ⟨fun hb => ?_, fun ha => ?_⟩, fun lanes neighbour closes hs => ⟨fun hp => ?_, fun hp => ?_, ?_⟩,
    fun lane hup => ⟨fun hsp => ?_, fun z hsp hz hmap hch => ?_, fun hsp hmap => ?_⟩, fun lane spare hc hsp => ?_, fun hs => ?_, fun hs => ?_⟩
  · exact does_of_run (f := fun b => if b.ballsTaken then b else b.spanTraining k) rfl
      ((if_neg (by rw [show (s.b.at_ t).ballsTaken = false from hb]; exact Bool.false_ne_true)).trans (spanTraining_down hs hl))
  · exact does_of_run (f := fun b => b.sampled (384 + k.val) Env.quiet []) rfl
      ((sampled_pier (f := fun b => b.spanRetrain k false) ha fun m st => taskDo_retrain k st [] m _).trans
        (spanRetrain_down (b := b.unlatch (384 + k.val)) hs hl))
  · obtain ⟨hstate, hmap, hnb⟩ := regs_trained k (lanes := lanes.toNat) (Nat.lt_trans lanes.isLt (by decide)) neighbour b
    refine ⟨_, does_of_run (f := fun b => b.trainingComplete k lanes neighbour false closes) rfl (trainingComplete_up hs hp), trainingTold_fires ..,
      ?_, ?_, fun h => number_trainingTold h, ?_, trainingTold_leaves ..⟩
    · exact (reg_trainingTold (by simp [clearRegs])).trans hstate
    · exact (reg_trainingTold (by simp [clearRegs])).trans hnb
    · exact (reg_trainingTold (by simp [clearRegs])).trans hmap
  · exact does_of_run (f := fun b => b.trainingComplete k lanes neighbour false closes) rfl
      ((if_neg (fun h => h hs)).trans ((if_neg Bool.false_ne_true).trans (if_pos hp)))
  · exact does_of_run (f := fun b => b.trainingComplete k lanes neighbour true closes) rfl ((if_neg (fun h => h hs)).trans (if_pos rfl))
  · exact does_of_run (f := fun b => b.laneFailure k lane false) rfl ((laneFailure_up hup).trans (if_pos hsp))
  · refine does_of_run (f := fun b => b.laneFailure k lane false) rfl ((laneFailure_up hup).trans ?_)
    rw [show (s.b.at_ t).ring.spans[k].spare = some z from hsp, show (s.b.at_ t).ring.spans[k].changing = none from hch]
    refine (if_neg (by simpa using hz)).trans ((if_neg ?_).trans (if_neg (by simp)))
    rw [show ((s.b.at_ t).reg (Obj.spanLaneMap k)).testBit lane.val = true from hmap]
    exact Bool.false_ne_true
  · refine does_of_run (f := fun b => b.laneFailure k lane false) rfl ((laneFailure_up hup).trans ?_)
    rw [show (s.b.at_ t).ring.spans[k].spare = none from hsp]
    refine (if_neg (by simp)).trans ((if_neg ?_).trans (if_pos (.inl rfl)))
    rw [show ((s.b.at_ t).reg (Obj.spanLaneMap k)).testBit lane.val = true from hmap]
    exact Bool.false_ne_true
  · have houtside : ∀ o ∈ [Obj.spanState k, Obj.spanLaneMap k], ∀ x ∈ pageRegs, o.key ≠ x.key := by
      clear hc hsp; revert k; decide
    have hspares : (Obj.spanState k).key ≠ (Obj.spanSpares k).key ∧ (Obj.spanLaneMap k).key ≠ (Obj.spanSpares k).key ∧
        (Obj.spanLaneMap k).key ≠ (Obj.spanState k).key := by
      clear hc hsp houtside; revert k; decide
    obtain ⟨h1, h2, h3⟩ := hspares
    have hnone : NoSpare k (b.spareSet k lane spare) := by
      have hs : (b.spareSet k lane spare).ring.spans[k] = _ := spans_modSpan_same k (fun x => { x with spare := none, changing := none }) b
      unfold NoSpare
      rw [hs]
      exact ⟨rfl, rfl⟩
    obtain ⟨hn1, hn2⟩ := noSpare_spareTold (lane := lane) hnone
    refine ⟨_, does_of_run (f := fun b => b.spareInService k) rfl (spareInService_changing hc hsp), ?_, ?_, ?_, hn1, hn2, ?_⟩
    · refine ((leaves_spareTold k lane _).reg _ (houtside _ (by simp))).trans ?_
      exact (reg_setReg_ne _ _ _ _ h1).trans (reg_setReg_self ..)
    · refine ((leaves_spareTold k lane _).reg _ (houtside _ (by simp))).trans ?_
      exact (reg_setReg_ne _ _ _ _ h2).trans ((reg_setReg_ne _ _ _ _ h3).trans (reg_setReg_self ..))
    · exact spareTold_fires (List.mem_append_right _ (List.mem_singleton_self _))
    · have hset : Leaves [.ring, .keystone, .axis 0, .axis 1, .faults, .smb, .can] ([Obj.spanState k, Obj.spanLaneMap k, Obj.spanSpares k] ++ pageRegs) b
          (b.spareSet k lane spare) :=
        (((((Leaves.refl _ _ b).modSpan _ _ (by simp)).setReg _ _ (by simp)).setReg _ _ (by simp)).bump _ (by simp)).raise _
      exact hset.of_part (leaves_spareTold k lane _) (by decide) (List.subset_append_right ..)
  · have hkept := leaves_spanDown hs
    obtain ⟨h1, h2, h3⟩ := regs_spanCleared k b
    refine ⟨_, does_of_run (f := fun b => b.spanDown k) rfl rfl, ?_, ?_, ?_, spanDown_fires hs, spanDown_leaves hs⟩
    · exact (hkept.reg _ (clearRegs_outside k _ (by simp [clearRegs]))).trans h1
    · exact (hkept.reg _ (clearRegs_outside k _ (by simp [clearRegs]))).trans h2
    · exact (hkept.reg _ (clearRegs_outside k _ (by simp [clearRegs]))).trans h3
  · exact does_of_run (f := fun b => b.spanDown k) rfl (spanDown_down hs)

end Sys2Proof

/-! # Frames, messages and acknowledgements on the ring (R382, R406 to R417, R450) -/

namespace Sys2Proof.Machine.Block

section
variable {b : Block} {k : SpanId}

/-! ## Data frames (R406) -/

theorem dataFrame_failed {f : Frame} {seq : Nat} {crcOk : Bool} (hup : b.spanUp k = true) (h : crcOk = false ∨ seq % 4096 ≠ b.ring.spans[k].rxSeq) :
    b.dataFrame k f seq crcOk = b.emit (.replay k.val b.ring.spans[k].rxSeq) := by
  refine (if_neg (by rw [hup]; exact Bool.false_ne_true)).trans (if_pos ?_)
  exact h.imp_left fun hc => by rw [hc]; rfl

/-- The pier that has taken the next frame of a span. -/
def frameTaken (k : SpanId) (b : Block) : Block := b.modSpan k fun x => { x with rxSeq := (x.rxSeq + 1) % 4096 }

theorem dataFrame_taken {f : Frame} {seq : Nat} (hup : b.spanUp k = true) (hseq : seq % 4096 = b.ring.spans[k].rxSeq) :
    b.dataFrame k f seq true =
      if f.dest ≠ (b.frameTaken k).pier then (b.frameTaken k).sendFrame (1 - k) f
      else if f.cls = 2 then (splitSlots 1024 f.bytes).foldl (fun b slot => b.ringRecord k.val f.src slot) (b.frameTaken k)
      else match f.dma, f.answer with
        | some d, _ => if d.host then b.frameTaken k else (b.frameTaken k).ringDma f.src d f.bytes
        | none, some (slot, res) => (b.frameTaken k).answerSlot slot res
        | none, none => b.frameTaken k := by
  refine (if_neg (by rw [hup]; exact Bool.false_ne_true)).trans (if_neg ?_)
  rintro (h | h)
  · exact absurd h (by decide)
  · exact h hseq

/-- A span that is up and without a changeover sends at once. -/
theorem sendFrame_up {s : SpanId} (f : Frame) (hup : b.spanUp s = true) (hc : b.ring.spans[s].changing = none) : b.sendFrame s f = b.transmit s f := by
  refine (if_neg (by rw [hup]; exact Bool.false_ne_true)).trans (if_neg ?_)
  rw [hc]
  exact Bool.false_ne_true

/-! ## Replays (R406, R411) -/

/-- A replay asked for is counted. -/
def replayCounted (k : SpanId) (seq n : Nat) (b : Block) : Block := (b.bump (Obj.spanReplays k)).modSpan k fun x => { x with replayed := some (seq, n) }

theorem replayRequest_first {seq : Nat} (hup : b.spanUp k = true) (hr : b.ring.spans[k].replayed = none) : b.replayRequest k seq =
    (b.ring.spans[k].sent.dropWhile fun f => f.1 != seq).foldl (fun c f => c.emit (.frame k.val f.1 f.2)) (b.replayCounted k seq 1) := by
  unfold replayRequest
  rw [if_neg (by rw [hup]; exact Bool.false_ne_true), hr]
  dsimp only
  have hsent : ((b.bump (Obj.spanReplays k)).modSpan k fun x => { x with replayed := some (seq, 1) }).ring.spans[k].sent = b.ring.spans[k].sent :=
    (congrArg Span.sent (spans_modSpan_same k (fun x => { x with replayed := some (seq, 1) }) (b.bump (Obj.spanReplays k)))).trans rfl
  rw [if_neg (by decide), hsent]
  rfl

theorem replayRequest_ninth {seq : Nat} (hup : b.spanUp k = true) (hr : b.ring.spans[k].replayed = some (seq, 8)) :
    b.replayRequest k seq = (b.replayCounted k seq 9).spanDown k := by
  unfold replayRequest
  rw [if_neg (by rw [hup]; exact Bool.false_ne_true), hr]
  dsimp only
  rw [if_pos rfl]
  rfl

theorem leaves_replayCounted (k : SpanId) (seq n : Nat) (b : Block) : Leaves [.ring] [Obj.spanReplays k] b (b.replayCounted k seq n) :=
  ((Leaves.refl _ _ b).bump _ (List.mem_singleton_self _)).modSpan _ _ (List.mem_singleton_self _)

theorem spanState_replayCounted (k : SpanId) (seq n : Nat) (b : Block) : (b.replayCounted k seq n).reg (Obj.spanState k) = b.reg (Obj.spanState k) :=
  (leaves_replayCounted k seq n b).reg _ (by revert k; decide)

theorem replayed_leaves {seq n : Nat} (h : 2 ≤ b.reg (Obj.spanState k)) : Leaves ringParts ([Obj.spanReplays k, Obj.spanState k, Obj.spanLaneMap k,
    Obj.spanNeighbour k, Obj.spanDowns k, Obj.ringTopology, Obj.ringCoincidences, Obj.ringTimeState] ++ routeRegs ++ pageRegs) b
    ((b.replayCounted k seq n).spanDown k) := by
  refine Leaves.of_part ((Leaves.refl _ _ b).of_part (leaves_replayCounted k seq n b) (by decide) ?_)
    (spanDown_leaves (by rwa [spanState_replayCounted])) (List.Subset.refl _) ?_
  · exact List.cons_subset.mpr ⟨List.mem_cons_self, List.nil_subset _⟩
  · exact List.subset_cons_self _ _

/-! ## Messages (R417) -/

/-- A message goes on where the ring's form says so. -/
def toldOn (k : SpanId) (origin : PierId) (m : RingMsg) (b : Block) : Block :=
  if b.goesOn k origin then b.emit (.forward (1 - k.val) origin.val m) else b

theorem messageForward_other {origin : PierId} {m : RingMsg} {banks : List Nat} (h : origin.val ≠ b.reg Obj.ringPierNumber) :
    b.messageForward k origin m banks = (b.toldOn k origin m).takeMessage origin m banks := by
  refine if_neg fun he => h (he.trans ?_)
  show (b.toldOn k origin m).pier = _
  unfold toldOn
  split <;> rfl

/-! ## Ring DMA (R381, R382) -/

theorem ringDma_hostWrite {src : Nat} {d : RingDma} {bytes : List Byte} (hh : d.host = true) (hr : d.read = none)
    (ha : b.abutments.contains (b.reg Obj.ringPierNumber) = true) :
    b.ringDma src d bytes = b.emit (.hostWrite (b.reg Obj.ringPierNumber) d.address bytes) := by
  unfold ringDma
  rw [hh, hr]
  exact if_pos ha

theorem ringDma_write {src : Nat} {d : RingDma} {bytes : List Byte} (hh : d.host = false) (hr : d.read = none) :
    b.ringDma src d bytes = b.memWrite d.address bytes := by
  unfold ringDma
  rw [hh, hr]

theorem ringDma_read {src z : Nat} {d : RingDma} {bytes : List Byte} (hh : d.host = false) (hr : d.read = some z) :
    b.ringDma src d bytes = b.sendFrame (b.frameSpan src) ⟨3, src, b.reg Obj.ringPierNumber, b.memRead d.address z, none, none⟩ := by
  unfold ringDma
  rw [hh, hr]
  rfl

/-! ## Acknowledgements (R218, R450) -/

/-- The record stream of a head. -/
def headStream (h : HeadId) : ChanId := ⟨4 + h.val, by omega⟩

theorem ackFrame_empty {h : HeadId} (hi : b.capture.partitions[h].items = []) (seq : Nat) (marker : Bool) : b.ackFrame h seq marker = b := by
  unfold ackFrame
  rw [hi]
  rfl

theorem ackFrame_oldest {h : HeadId} {r : Record} {rest : List Item} {seq : Nat} (hi : b.capture.partitions[h].items = .record r :: rest)
    (hk : r.kept = true) (hs : r.seq = seq) (hsent : 0 < b.dma.channels[headStream h].sent) :
    b.ackFrame h seq false = b.streamRelease (headStream h) := by
  have hkept : (Item.record r :: rest).filter Item.isKept = Item.record r :: rest.filter Item.isKept := List.filter_cons_of_pos hk
  unfold ackFrame
  rw [hi, hkept]
  dsimp only
  rw [List.findIdx?_cons, if_pos (by simp [hs])]
  exact if_pos hsent

/-- The release of the oldest slot of a head's stream. -/
theorem streamRelease_head (h : HeadId) (b : Block) : b.streamRelease (headStream h) =
    (b.modDma (headStream h) fun x => { x with sent := x.sent - 1 }).modPart h fun p => { p with items := dropOldest p.items } := by
  have hh : (⟨(headStream h).val - 4, by show 4 + h.val - 4 < 4; omega⟩ : HeadId) = h := Fin.ext (Nat.add_sub_cancel_left 4 h.val)
  unfold streamRelease
  rw [dif_pos (show 4 ≤ (headStream h).val ∧ (headStream h).val < 8 from ⟨Nat.le_add_right 4 _, by show 4 + h.val < 8; omega⟩)]
  exact congrArg (fun g : HeadId => (b.modDma (headStream h) fun x => { x with sent := x.sent - 1 }).modPart g fun p => { p with items := dropOldest p.items }) hh

theorem pathHoldEnd_held {h : HeadId} (hold : b.dma.channels[headStream h].hold = true) :
    b.pathHoldEnd h = b.modDma (headStream h) fun x => { x with hold := false, sent := 0, issued := 0 } := by
  refine (if_pos hold).trans ?_
  exact modDma_modDma ..

end

end Sys2Proof.Machine.Block

namespace Sys2Proof

open Machine Machine.Block

/-- Settles O42: a frame by its check and its destination, a message by its origin, an acknowledgement by the oldest item. -/
theorem framesAndMessages : Obligations.FramesAndMessages := by
  unfold Obligations.FramesAndMessages
  refine ⟨fun t k s => ?_, fun t h c seq r rest s => ?_⟩
  · intro b
    refine ⟨fun f seq crcOk hup => ⟨fun hbad => ?_, fun hcrc hseq => ?_⟩, fun seq hup hr => ?_, fun seq hup hr => ?_, fun origin banks ho => ?_,
      fun src d bytes => ⟨fun hh hr ha => ?_, fun hh hr => ?_, fun z hh hr hup hch => ?_⟩, fun h seq marker hi => ?_, fun h c hc hold => ?_⟩
    · exact does_of_run (f := fun b => b.dataFrame k f seq crcOk) rfl (dataFrame_failed hup hbad)
    · subst hcrc
      intro c
      have htaken := dataFrame_taken (f := f) hup hseq
      refine ⟨fun hd hup' hch => ?_, fun slot res hd hcls hdma hans => ?_⟩
      · exact does_of_run (f := fun b => b.dataFrame k f seq true) rfl (htaken.trans ((if_pos hd).trans (sendFrame_up f hup' hch)))
      · refine does_of_run (f := fun b => b.dataFrame k f seq true) rfl (htaken.trans ((if_neg (fun h => h hd)).trans ((if_neg hcls).trans ?_)))
        rw [hdma, hans]
        rfl
    · exact does_of_run (f := fun b => b.replayRequest k seq) rfl (replayRequest_first hup hr)
    · have hst : 2 ≤ b.reg (Obj.spanState k) := of_decide_eq_true hup
      have hst' : 2 ≤ (b.replayCounted k seq 9).reg (Obj.spanState k) := by rwa [spanState_replayCounted]
      obtain ⟨h1, -, -⟩ := regs_spanCleared k (b.replayCounted k seq 9)
      refine ⟨_, does_of_run (f := fun b => b.replayRequest k seq) rfl (replayRequest_ninth hup hr), ?_, spanDown_fires hst', replayed_leaves hst⟩
      exact ((leaves_spanDown hst').reg _ (clearRegs_outside k _ (by simp [clearRegs]))).trans h1
    · intro on
      exact ⟨fun f => does_of_run (f := fun b => b.messageForward k origin (.ceiling f) banks) rfl (messageForward_other ho),
        fun n => does_of_run (f := fun b => b.messageForward k origin (.configured n) banks) rfl (messageForward_other ho),
        does_of_run (f := fun b => b.messageForward k origin .sync banks) rfl (messageForward_other ho)⟩
    · exact does_of_run (f := fun b => b.ringDmaFrame src d bytes) rfl (ringDma_hostWrite hh hr ha)
    · exact does_of_run (f := fun b => b.ringDmaFrame src d bytes) rfl (ringDma_write hh hr)
    · exact does_of_run (f := fun b => b.ringDmaFrame src d bytes) rfl ((ringDma_read hh hr).trans (sendFrame_up _ hup hch))
    · exact does_of_run (f := fun b => b.ackFrame h seq.toNat marker) rfl (ackFrame_empty hi ..)
    · have hchan : c = headStream h := Fin.ext hc
      subst hchan
      exact does_of_run (f := fun b => b.pathHoldEnd h) rfl (pathHoldEnd_held hold)
  · intro b hc hi hk hs hsent
    have hchan : c = headStream h := Fin.ext hc
    subst hchan
    refine ⟨_, does_of_run (f := fun b => b.ackFrame h seq.toNat false) rfl ((ackFrame_oldest hi hk hs hsent).trans (streamRelease_head h _)), ?_, ?_, rfl, rfl, rfl,
      fun z hz => part_modPart_other hz ..⟩
    · refine (congrArg Partition.items (part_modPart_same ..)).trans ?_
      show dropOldest b.capture.partitions[h].items = rest
      rw [hi]
      exact if_pos hk
    · exact congrArg DmaChannel.sent (channels_modDma_same (headStream h) (fun x => { x with sent := x.sent - 1 }) b)

end Sys2Proof

/-! # Ring time (R420 to R425) -/

namespace Sys2Proof.Machine.Block

/-! ## A register outside the heads through the stop of a head -/

/-- A register below the heads that the burst count is not. -/
structure Unheaded (y : Obj) : Prop where
  key : y.key < 0x300000
  bursts : y.key ≠ Obj.captureBurstsDone.key

namespace Unheaded
variable {y : Obj}

theorem ne_key (hy : Unheaded y) {o : Obj} (ho : 0x3000 ≤ o.index) : y.key ≠ o.key := by
  obtain ⟨hk, _⟩ := hy
  simp only [Obj.key] at hk ⊢
  omega

end Unheaded

namespace SameReg
variable {y : Obj} {b₀ b : Block}

/-- A head's register is set. -/
theorem setHead (w : SameReg y b₀ b) (hy : Unheaded y) {i k sub d : Nat} {ty : Ty} {v : Nat} (hi : 0x3000 ≤ i) :
    SameReg y b₀ (b.setReg ⟨i + k, sub, ty, d⟩ v) := w.setReg (hy.ne_key (Nat.le_trans hi (Nat.le_add_right _ _)))

theorem bumpHead (w : SameReg y b₀ b) (hy : Unheaded y) {i k sub d : Nat} {ty : Ty} (hi : 0x3000 ≤ i) :
    SameReg y b₀ (b.bump ⟨i + k, sub, ty, d⟩) := w.setHead hy hi

theorem calFail (w : SameReg y b₀ b) (hy : Unheaded y) {h : HeadId} {st : Nat} : SameReg y b₀ (b.calFail h st) :=
  w.ite (SameReg.setHead (b := b.modCorr h _) w hy (by decide))

theorem stitchCalFail (w : SameReg y b₀ b) (hy : Unheaded y) {h : HeadId} {st : Nat} : SameReg y b₀ (b.stitchCalFail h st) :=
  w.ite (SameReg.setHead (b := b.modStitch h _) w hy (by decide))

theorem swapSets (w : SameReg y b₀ b) (hy : Unheaded y) {h : HeadId} : SameReg y b₀ (b.swapSets h) := by
  unfold Block.swapSets Block.updateDefective
  extract_lets old new b1 b2
  have w1 : SameReg y b₀ b1 := w.of_regs rfl
  exact ((((w1.setHead hy (by decide)).setHead hy (by decide)).setHead hy (by decide)).bumpHead hy (by decide)).raise

theorem gainTo (w : SameReg y b₀ b) (hy : Unheaded y) {h : HeadId} {s : SegId} {code : Nat} : SameReg y b₀ (b.gainTo h s code) :=
  (w.setHead hy (i := 0x3083) (by decide)).of_regs (n := b.gainTo h s code) rfl

theorem rangeInForce (w : SameReg y b₀ b) (hy : Unheaded y) {h : HeadId} {codes : List Nat} : SameReg y b₀ (b.rangeInForce h codes) := by
  unfold Block.rangeInForce
  extract_lets b1
  have w1 : SameReg y b₀ b1 := w.foldl (fun _ _ v => v.gainTo hy) _
  exact (w1.bumpHead hy (by decide)).raise

theorem corrTakeArmed (w : SameReg y b₀ b) (hy : Unheaded y) {h : HeadId} : SameReg y b₀ (b.corrTakeArmed h) := by
  unfold Block.corrTakeArmed
  split
  · exact w
  · next a _ =>
    have wc : SameReg y b₀ ((b.modCorr h fun c => { c with armed := none, armedOld := none }).calFail h 9) :=
      SameReg.calFail (b := b.modCorr h _) w hy
    cases a with
    | swap => exact wc.swapSets hy
    | range codes n => exact (wc.ite (wc.swapSets hy)).rangeInForce hy

theorem geometryTakeArmed (w : SameReg y b₀ b) (hy : Unheaded y) {h : HeadId} : SameReg y b₀ (b.geometryTakeArmed h) := by
  refine SameReg.ite ?_ w
  unfold Block.geometryTake
  extract_lets b1 old new b2 b3 b4
  have w1 : SameReg y b₀ b1 := SameReg.stitchCalFail (b := b.modStitch h _) w hy
  have w2 : SameReg y b₀ b2 := w1.of_regs rfl
  have w4 : SameReg y b₀ b4 := SameReg.of_regs ((w2.setHead hy (by decide)).setHead hy (by decide)) rfl
  exact (w4.bumpHead hy (by decide)).raise

theorem raiseIf (w : SameReg y b₀ b) {c : Bool} {k : Nat} : SameReg y b₀ (b.raiseIf c k) := w.raise.ite w

theorem burstCheck (w : SameReg y b₀ b) (hy : Unheaded y) : SameReg y b₀ b.burstCheck := by
  unfold Block.burstCheck
  refine SameReg.ite w ?_
  extract_lets b1 b2 all
  have w1 : SameReg y b₀ b1 := w.foldl (fun c h v => v.of_regs (n := c.modPart h _) rfl) _
  have w2 : SameReg y b₀ b2 := w1.setReg hy.bursts
  exact SameReg.raiseIf (b := Block.raise 705 _) w2

theorem windowStop (w : SameReg y b₀ b) (hy : Unheaded y) {h : HeadId} : SameReg y b₀ (b.windowStop h) := by
  unfold Block.windowStop
  refine SameReg.ite w ?_
  split
  · exact SameReg.burstCheck (b := b.windowEnd h _) w hy
  · exact w.burstCheck hy

theorem isolateDone (w : SameReg y b₀ b) (hy : Unheaded y) {h : HeadId} : SameReg y b₀ (b.isolateDone h) := by
  unfold Block.isolateDone
  extract_lets vs b1 b2
  have w1 : SameReg y b₀ b1 := SameReg.bumpHead (b := b.modHead h _) w hy (by decide)
  have w3 : SameReg y b₀ (b2.logFault 0x0014 h.val 1 noSource) := (logFault_reg ..).trans w1
  exact SameReg.ite w (w3.foldl (fun _ _ v => v.replyVia) _)

theorem captureStop (w : SameReg y b₀ b) : SameReg y b₀ b.captureStop := SameReg.ite (b := b.modCapture _) w w

/-- What of a head's stop is not the end of its calibrations. -/
theorem stoppedTail (w : SameReg y b₀ b) (hy : Unheaded y) {h : HeadId} {k : Nat} :
    SameReg y b₀ ((((((b.corrTakeArmed h).geometryTakeArmed h).raise k).windowStop h).captureStop).isolateDone h) :=
  SameReg.isolateDone (SameReg.captureStop (SameReg.windowStop (SameReg.raise (SameReg.geometryTakeArmed (w.corrTakeArmed hy) hy)) hy)) hy

theorem calibrationsEnd (w : SameReg y b₀ b) (hy : Unheaded y) {h : HeadId} {st : Nat} : SameReg y b₀ ((b.calFail h st).stitchCalFail h st) :=
  (w.calFail hy).stitchCalFail hy

theorem restartWindows (w : SameReg y b₀ b) {h : HeadId} {k : Bool} : SameReg y b₀ (b.restartWindows h k) := w

theorem enterStopped (w : SameReg y b₀ b) (hy : Unheaded y) {h : HeadId} : SameReg y b₀ (b.enterStopped h) := by
  unfold Block.enterStopped
  extract_lets b1 b2 b3
  have w1 : SameReg y b₀ (b1.outputsRest h 0) := (reg_congr_regs (outputsRest_regs h 0 b1) y).trans w
  have w2 : SameReg y b₀ b2 := w1.setHead hy (by decide)
  have w3 : SameReg y b₀ b3 := (w2.calibrationsEnd hy).restartWindows
  exact w3.stoppedTail hy

theorem headStop (w : SameReg y b₀ b) (hy : Unheaded y) {h : HeadId} : SameReg y b₀ (b.headStop h) := by
  unfold Block.headStop
  split
  · unfold Block.stopIfDone
    have wc := SameReg.calibrationsEnd (b := b.modHead h fun x => { x with state := .stopping, nextDue := none, owed := [], stateSince := b.now }) w hy
      (h := h) (st := 9)
    exact (wc.enterStopped hy).ite wc
  · exact w.answerStart.enterStopped hy
  · exact w.enterStopped hy
  · exact w

theorem listEnd (w : SameReg y b₀ b) (hy : Unheaded y) {h : HeadId} : SameReg y b₀ (b.listEnd h) := (w.raise.headStop hy).ite w

theorem armScheduled (w : SameReg y b₀ b) {h : HeadId} {k : Nat} : SameReg y b₀ (b.armScheduled h k) := by
  unfold Block.armScheduled
  split
  · exact SameReg.ite (b := b.modHead h _) w w
  · exact w

end SameReg

/-! ## The follower's syncs (R422, R424) -/

section
variable {t : Time} {b : Block}

/-- What a sync of its path leaves of the follower: its offset and its time. -/
def syncTaken (offset : Int) (b : Block) : Block :=
  (b.setRegI Obj.ringTimeOffset offset).modRing fun r =>
    { r with lastSync := some b.now,
             lockSince := if offset.natAbs ≤ 1000 then (if r.lockSince.isSome then r.lockSince else some b.now) else none }

theorem reg_syncTaken_state (offset : Int) (b : Block) : (b.syncTaken offset).reg Obj.ringTimeState = b.reg Obj.ringTimeState :=
  reg_setReg_ne _ _ _ _ (by decide)

theorem timeSync_taken {k : SpanId} {offset : Int} (hs : b.reg Obj.ringTimeState ≠ 4) (hp : b.timePath = some k) :
    b.timeSync k offset false =
      let c := if b.reg Obj.ringTimeState = 0 then (b.syncTaken offset).setTimeState 1 else b.syncTaken offset
      match c.ring.lockSince with
      | some t =>
        if c.reg Obj.ringTimeState = 1 ∧ passed t tMs c.now then
          ((c.setTimeState 2).modRing fun r => { r with everLocked := true, slew := 0 }).raise 779
        else c
      | none => c := by
  exact if_neg (by rintro (h | h); exacts [hs h, h hp])

theorem setTimeState_source (b : Block) : b.setTimeState 1 = b.setReg Obj.ringTimeState 1 := rfl

/-- A first sync that is too far off leaves the follower unlocked (R422). -/
theorem timeSync_far {k : SpanId} {offset : Int} (hs : b.reg Obj.ringTimeState = 0) (hp : b.timePath = some k) (ho : 1000 < offset.natAbs) :
    b.timeSync k offset false =
      ((b.setRegI Obj.ringTimeOffset offset).modRing fun r => { r with lastSync := some b.now, lockSince := none }).setReg Obj.ringTimeState 1 := by
  have htaken : b.syncTaken offset = (b.setRegI Obj.ringTimeOffset offset).modRing fun r => { r with lastSync := some b.now, lockSince := none } := by
    unfold syncTaken
    simp only [if_neg (show ¬ offset.natAbs ≤ 1000 by omega)]
  rw [timeSync_taken (by omega) hp, if_pos hs, htaken]
  rfl

/-- 1 ms of syncs within 1 ns lock the follower (R424). -/
theorem timeSync_locks {k : SpanId} {offset : Int} {u : Time} (hs : b.reg Obj.ringTimeState = 1) (hp : b.timePath = some k)
    (ho : offset.natAbs ≤ 1000) (hu : b.ring.lockSince = some u) (hpass : passed u tMs b.now = true) :
    b.timeSync k offset false = ((((b.syncTaken offset).setTimeState 2).modRing fun r => { r with everLocked := true, slew := 0 }).raise 779) := by
  have hlock : (b.syncTaken offset).ring.lockSince = some u := by
    show (if offset.natAbs ≤ 1000 then (if b.ring.lockSince.isSome then b.ring.lockSince else some b.now) else none) = some u
    rw [if_pos ho, hu]
    rfl
  rw [timeSync_taken (by omega) hp, if_neg (by omega)]
  dsimp only
  rw [hlock]
  exact if_pos ⟨(reg_syncTaken_state ..).trans hs, hpass⟩

theorem leaves_syncTaken (offset : Int) (b : Block) : Leaves [.ring] [Obj.ringTimeOffset] b (b.syncTaken offset) :=
  ((Leaves.refl _ _ b).setRegI _ _ (by decide)).modRing _ (by decide)

theorem ring_setTimeState (n : Nat) (b : Block) : (b.setTimeState n).ring = b.ring := (leaves_setTimeState n b).ring (by decide)

theorem reg_setTimeState {n : Nat} (hn : n < 256) (b : Block) : (b.setTimeState n).reg Obj.ringTimeState = n := by
  have hc : (b.setReg Obj.ringTimeState n).reg Obj.ringTimeState = n := (reg_setReg_self ..).trans (Nat.mod_eq_of_lt hn)
  unfold setTimeState
  extract_lets fresh c
  split
  · exact hc
  · refine foldl_rel (r := fun m : Block => m.reg Obj.ringTimeState = n) (fun m h hm => ?_) _ hc
    split
    · exact hm
    · exact hm

/-! ## Holdover and a regained source (R424, R425) -/

theorem holdoverTimeout_passed {u : Time} (hs : b.reg Obj.ringTimeState = 1 ∨ b.reg Obj.ringTimeState = 2) (hu : b.ring.lastSync = some u)
    (hp : passed u (8 * tUs) b.now = true) :
    b.holdoverTimeout = ((b.setTimeState 3).modRing fun r => { r with lockSince := none }).raise 780 := by
  unfold holdoverTimeout
  rw [hu]
  exact (if_pos hp).trans (if_pos hs)

/-- The arming anew of the heads with scheduled triggers, in the time that was stepped (R425). -/
def rearmed (b : Block) : Block :=
  (List.finRange 4).foldl (fun b (h : HeadId) =>
    let src := b.reg (Obj.headTriggerSource h)
    if b.heads[h].state = .running ∧ (src = 1 ∨ src = 2) then (b.armScheduled h b.heads[h].nextIndex).listEnd h else b) b

/-- The registers and the event of a step of the time (R425). -/
def stepped (b : Block) : Block := ((b.setReg Obj.ringTimeState 1).bump Obj.ringTimeSteps).raise 781

theorem timeRegained_slews {offset : Int} (hs : b.reg Obj.ringTimeState = 3) (he : b.ring.everLocked = true)
    (ho : offset.natAbs ≤ b.reg Obj.ringTimeSlewMax * tNs) :
    b.timeRegained offset = (b.setReg Obj.ringTimeState 1).modRing fun r => { r with slew := offset } := by
  have hslew : (b.setTimeState 1).reg Obj.ringTimeSlewMax = b.reg Obj.ringTimeSlewMax := reg_setReg_ne _ _ _ _ (by decide)
  refine (if_pos hs).trans ((if_neg ?_).trans (if_pos (by rwa [hslew])))
  rw [ring_setTimeState, he]
  decide

theorem SameReg.rearmed {y : Obj} (hy : Unheaded y) (b : Block) : SameReg y b b.rearmed :=
  (SameReg.refl y b).foldl (fun _ _ w => SameReg.ite (SameReg.listEnd w.armScheduled hy) w) _

theorem rearmed_fires {k : Nat} {b : Block} (h : b.Fired k) : b.rearmed.Fired k := by
  refine Within.fired (P := Anywhere) ?_ h
  exact (Within.refl _ b).foldl fun _ _ w => ((w.armScheduled trivial).listEnd trivial trivial).ite w

/-- Without a running head nothing is armed anew. -/
theorem rearmed_of_none {b : Block} (h : ∀ g : HeadId, b.heads[g].state ≠ .running) : b.rearmed = b :=
  foldl_id (fun g => if_neg fun hg => h g hg.1) _

/-- The block at another time. -/
def retimed (t : Time) (b : Block) : Block := { b with now := t }

theorem reg_retimed (t : Time) (b : Block) (o : Obj) : (b.retimed t).reg o = b.reg o := rfl
theorem heads_retimed (t : Time) (b : Block) : (b.retimed t).heads = b.heads := rfl
theorem now_retimed (t : Time) (b : Block) : (b.retimed t).now = t := rfl
theorem fired_retimed {t : Time} {b : Block} {k : Nat} (h : b.Fired k) : (b.retimed t).Fired k := h
theorem retimed_retimed (t : Time) (b : Block) : (b.retimed t).retimed b.now = b := rfl

/-- The arming anew happens in the stepped time, and the cycle's time is as before. -/
def rearmedAt (old stepped : Time) (b : Block) : Block := (b.retimed stepped).rearmed.retimed old

theorem timeRegained_steps {offset : Int} (hs : b.reg Obj.ringTimeState = 3) (he : b.ring.everLocked = true)
    (ho : b.reg Obj.ringTimeSlewMax * tNs < offset.natAbs) :
    b.timeRegained offset = b.stepped.rearmedAt b.now (b.now - BitVec.ofInt 64 offset) := by
  have hslew : (b.setTimeState 1).reg Obj.ringTimeSlewMax = b.reg Obj.ringTimeSlewMax := reg_setReg_ne _ _ _ _ (by decide)
  refine (if_pos hs).trans ((if_neg ?_).trans (if_neg (by rw [hslew]; omega)))
  rw [ring_setTimeState, he]
  decide

theorem reg_rearmedAt {y : Obj} (hy : Unheaded y) (old stepped : Time) (b : Block) : (b.rearmedAt old stepped).reg y = b.reg y :=
  (reg_retimed ..).trans ((SameReg.rearmed hy (b.retimed stepped)).trans (reg_retimed ..))

theorem rearmedAt_fires {k : Nat} {b : Block} (old stepped : Time) (h : b.Fired k) : (b.rearmedAt old stepped).Fired k :=
  fired_retimed (rearmed_fires (fired_retimed h))

theorem rearmedAt_of_none {b : Block} (stepped : Time) (h : ∀ g : HeadId, b.heads[g].state ≠ .running) : b.rearmedAt b.now stepped = b := by
  unfold rearmedAt
  rw [rearmed_of_none (b := b.retimed stepped) (by rwa [heads_retimed]), retimed_retimed]

theorem leaves_stepped (b : Block) : Leaves [] [Obj.ringTimeState, Obj.ringTimeSteps] b b.stepped :=
  (((Leaves.refl _ _ b).setReg _ _ (by decide)).bump _ (by decide)).raise _

theorem leaves_steppedAt {b : Block} (u : Time) (h : ∀ g : HeadId, b.heads[g].state ≠ .running) :
    Leaves [] [Obj.ringTimeState, Obj.ringTimeSteps] b (b.stepped.rearmedAt b.now u) := by
  have hsame : b.stepped.rearmedAt b.stepped.now u = b.stepped := rearmedAt_of_none u h
  rw [← (leaves_stepped b).now, hsame]
  exact leaves_stepped b

theorem unheaded_time : Unheaded Obj.ringTimeState ∧ Unheaded Obj.ringTimeSteps := ⟨⟨by decide, by decide⟩, ⟨by decide, by decide⟩⟩

theorem reg_stepped (b : Block) : b.stepped.reg Obj.ringTimeState = 1 ∧
    b.stepped.reg Obj.ringTimeSteps = satAdd (b.reg Obj.ringTimeSteps) 1 max32 % 2 ^ 32 := by
  have hne : (b.setReg Obj.ringTimeState 1).reg Obj.ringTimeSteps = b.reg Obj.ringTimeSteps := reg_setReg_ne _ _ _ _ (by decide)
  refine ⟨(reg_setReg_ne _ _ _ _ (by decide)).trans (reg_setReg_self ..), (reg_setReg_self ..).trans ?_⟩
  rw [hne]
  rfl

end

end Sys2Proof.Machine.Block

namespace Sys2Proof

open Machine Machine.Block

/-- Settles O43: a sync, a loss or a regained source sets the time state, and what a step arms anew are heads' parts alone. -/
theorem ringTimeIsKept : Obligations.RingTimeIsKept := by
  unfold Obligations.RingTimeIsKept
  intro t s b st
  refine ⟨fun hs => ?_, fun k offset h => ?_, fun k offset hs hp ho => ?_, fun k offset u hs hp ho hu hpass => ?_, fun k mean hs => ?_,
    fun u hs hu hp => ?_, fun offset hs he ho => ?_, fun offset hs he ho => ?_, fun ha => ?_⟩
  · exact does_of_run (f := fun b => b.timeSyncSend) rfl (if_pos hs)
  · exact does_of_run (f := fun b => b.timeSync k offset false) rfl (if_pos h)
  · exact does_of_run (f := fun b => b.timeSync k offset false) rfl (timeSync_far hs hp ho)
  · refine ⟨_, does_of_run (f := fun b => b.timeSync k offset false) rfl (timeSync_locks hs hp ho hu hpass), ?_, ?_, ?_, ?_⟩
    · exact reg_setTimeState (by decide) _
    · exact List.mem_append_right _ (List.mem_singleton_self _)
    · show ((b.syncTaken offset).setTimeState 2).ring.lastSync = _
      rw [ring_setTimeState]
      rfl
    · exact ((((Leaves.refl _ _ b).of_part (leaves_syncTaken offset b) (by decide) (by decide)).of_part (leaves_setTimeState 2 _) (by decide)
        (by decide)).modRing _ (by decide)).raise _
  · exact does_of_run (f := fun b => b.hopDelayExchange k mean) rfl (if_neg hs)
  · refine ⟨_, does_of_run (f := fun b => b.holdoverTimeout) rfl (holdoverTimeout_passed hs hu hp), ?_, rfl, ?_, ?_⟩
    · exact reg_setTimeState (by decide) b
    · exact List.mem_append_right _ (List.mem_singleton_self _)
    · exact (((Leaves.refl _ _ b).of_part (leaves_setTimeState 3 b) (by decide) (by decide)).modRing _ (by decide)).raise _
  · exact does_of_run (f := fun b => b.timeRegained offset) rfl (timeRegained_slews hs he ho)
  · obtain ⟨hstate, hsteps⟩ := reg_stepped b
    refine ⟨_, does_of_run (f := fun b => b.timeRegained offset) rfl (timeRegained_steps hs he ho), ?_, now_retimed .., ?_, ?_, fun hr => ?_⟩
    · exact rearmedAt_fires _ _ (List.mem_append_right _ (List.mem_singleton_self _))
    · exact (reg_rearmedAt unheaded_time.1 ..).trans hstate
    · exact (reg_rearmedAt unheaded_time.2 ..).trans hsteps
    · exact leaves_steppedAt _ hr
  · exact does_of_run (f := fun b => b.sampled 386 Env.quiet []) rfl ((sampled_alone 386 Env.quiet [] (s.b.at_ t) rfl ha).trans rfl)

end Sys2Proof

/-! # The abutments of the ring and what follows them (R396, R414 to R416) -/

namespace Sys2Proof.Machine.Block

section
variable {c : ChanId} {b : Block}

/-! ## Descriptors that lose their host -/

/-- The parts that the end of a descriptor touches. -/
def badParts : List Piece := [.dma, .faults]

theorem mem_dmaRegs {o : Obj} (h : o ∈ descObjs true c.val ++ descObjs false c.val ++ [Obj.dmaPending c, Obj.dmaBad c, Obj.dmaBadAddress c]) :
    o ∈ dmaRegs := List.mem_flatMap.mpr ⟨c, List.mem_finRange c, h⟩

theorem descObjs_subset_dmaRegs (shadow : Bool) (c : ChanId) : descObjs shadow c ⊆ dmaRegs := fun _ h => mem_dmaRegs (c := c) (by
  cases shadow <;> simp [h])

theorem shadowStatus_mem_dmaRegs (c : ChanId) : Obj.dmaShadowStatus c ∈ dmaRegs := descObjs_subset_dmaRegs true c (by simp [descObjs])

theorem activeStatus_mem_dmaRegs (c : ChanId) : Obj.dmaActiveStatus c ∈ dmaRegs := descObjs_subset_dmaRegs false c (by simp [descObjs])

theorem leaves_takeShadow_dmaRegs (c : ChanId) (b : Block) : Leaves badParts dmaRegs b (b.takeShadow c) := by
  unfold takeShadow
  extract_lets x
  split
  · exact .refl _ _ b
  · rw [activate_eq]
    have hset : Leaves badParts dmaRegs b (b.setDesc false c ((b.shadowOf c).withState 2 0)) :=
      (Leaves.refl _ _ b).of_part (leaves_setDesc ..) (List.nil_subset _) (descObjs_subset_dmaRegs false c)
    have hact : Leaves badParts dmaRegs b (b.activated c) := (hset.setReg _ _ (shadowStatus_mem_dmaRegs c)).modDma _ _ (by decide)
    exact hact.of_part (leaves_admitPending ..) (by decide) (List.cons_subset.mpr ⟨mem_dmaRegs (c := c) (by simp), List.nil_subset _⟩)

/-- A failed beat of a channel that is no stream ends its descriptor and lets its shadow follow. -/
theorem leaves_dmaError {kind address : Nat} {withStop : Bool} (hs : b.dma.channels[c].stream = false) :
    Leaves badParts dmaRegs b (b.dmaError c kind address withStop) := by
  unfold dmaError
  rw [hs, if_neg Bool.false_ne_true]
  split
  · exact .refl _ _ b
  · extract_lets d e f
    have hd : Leaves badParts dmaRegs b d :=
      (((Leaves.refl _ _ b).setReg _ _ (activeStatus_mem_dmaRegs c)).bump _ (mem_dmaRegs (c := c) (by simp))).setReg _ _ (mem_dmaRegs (c := c) (by simp))
    have hf : Leaves badParts dmaRegs b f := ((hd.of_part (leaves_logFault ..) (by decide) (List.nil_subset _)).raise _).modDma _ _ (by decide)
    exact hf.trans (leaves_takeShadow_dmaRegs c f)

theorem leaves_hostLost (b : Block) : Leaves badParts dmaRegs b b.hostLost := by
  refine (Leaves.refl badParts dmaRegs b).foldl _ _ fun m c _ => ?_
  dsimp only
  split
  · split
    · next h => exact leaves_dmaError (by simpa using h.2.1)
    · exact .refl _ _ m
  · exact .refl _ _ m

/-! ## The choice of the abutments (R414) -/

/-- The parts that a change of the abutments touches. -/
def abutmentParts : List Piece := [.ring, .dma, .faults, .keystone, .axis 0, .axis 1]

theorem dmaRegs_subset_offer : dmaRegs ⊆ offerRegs := fun _ h => List.mem_append_right _ h

theorem abutments_mem_offer : Obj.ringAbutmentA ∈ offerRegs ∧ Obj.ringAbutmentB ∈ offerRegs ∧ Obj.ringCoincidences ∈ offerRegs :=
  have h {o : Obj} (ho : o ∈ [Obj.ringAbutmentA, Obj.ringAbutmentB, Obj.axisKeystoneCeiling 0, Obj.axisKeystoneCeiling 1, Obj.ringCoincidences]) :
      o ∈ offerRegs := List.mem_append_left _ (List.mem_append_left _ (List.mem_append_left _ ho))
  ⟨h (by decide), h (by decide), h (by decide)⟩

theorem leaves_chooseAbutments (b : Block) : Leaves abutmentParts offerRegs b b.chooseAbutments := by
  obtain ⟨ha, hb, hcoin⟩ := abutments_mem_offer
  unfold chooseAbutments
  extract_lets offering a z old c lost d e f
  have hc : Leaves abutmentParts offerRegs b c := ((Leaves.refl _ _ b).setReg _ _ ha).setReg _ _ hb
  have hd : Leaves abutmentParts offerRegs b d :=
    (hc.of_part (leaves_reroute _) (by decide) routeRegs_subset_offer).of_part (leaves_hostLost _) (by decide) dmaRegs_subset_offer
  have he : Leaves abutmentParts offerRegs b e := by
    unfold e
    split
    · exact (hd.of_part (leaves_coincides ..) (List.nil_subset _) (List.cons_subset.mpr ⟨hcoin, List.nil_subset _⟩)).modRing _ (by decide)
    · exact hd
  have hf : Leaves abutmentParts offerRegs b f := he.foldl _ _ fun m k _ => (Leaves.refl _ _ m).of_part (leaves_streamRestart ..) (by decide) (List.nil_subset _)
  have htold {m : Block} (h : Leaves abutmentParts offerRegs b m) (k : Nat) : Leaves abutmentParts offerRegs b ((m.raise k).spanFault.deriveCeiling) :=
    ((h.raise k).of_part (leaves_spanFault _) (by decide) pageRegs_subset_offer).of_part (leaves_deriveCeiling _) (by decide) ownCeilings_subset_offer
  split
  · exact he
  · split
    · exact htold he 784
    · exact htold hf 783

theorem leaves_offerOf (p : Nat) (on : Bool) (b : Block) : Leaves abutmentParts offerRegs b (b.offerOf p on) :=
  ((Leaves.refl _ _ b).modRing _ (by decide)).trans (leaves_chooseAbutments _)

theorem leaves_offer (on : Bool) (b : Block) : Leaves abutmentParts offerRegs b (b.offer on) := by
  unfold offer
  extract_lets want c yes
  have hc : Leaves abutmentParts offerRegs b c := by
    unfold c
    split
    · exact ((Leaves.refl _ _ b).of_part (leaves_logFault ..) (by decide) (List.nil_subset _)).raise _
    · exact .refl _ _ b
  exact (hc.sendRing _).trans (leaves_offerOf ..)

end

end Sys2Proof.Machine.Block

/-! # Epochs of the ring (R412, R420, R427 to R431) -/

namespace Sys2Proof.Machine.Block

section
variable {b : Block}

/-! ## The source of the position as the others know it (R281, R282) -/

/-- The registers that the place of the position source touches. -/
def sourceRegs : List Obj := [Obj.axisSourcePier 0, Obj.axisSourcePier 1, Obj.axisBroadcast 0, Obj.axisBroadcast 1] ++ pageRegs

/-- The parts that the end of a page touches. -/
def pageEndParts : List Piece := [.keystone, .axis 0, .axis 1, .head 0, .head 1, .head 2, .head 3]

/-- The parts that the place of the position source touches. -/
def sourceParts : List Piece := .ring :: pageEndParts

theorem pageRegs_subset_source : pageRegs ⊆ sourceRegs := List.subset_append_right ..

theorem leaves_pageOver (b : Block) : Leaves headParts [] b b.pageOver :=
  (Leaves.refl _ _ b).foldl _ _ fun m h _ => (Leaves.refl _ _ m).modHead _ _ (head_mem_headParts h)

theorem leaves_pageDrop (b : Block) : Leaves pageEndParts sourceRegs b b.pageDrop := by
  unfold pageDrop
  split
  · exact .refl _ _ b
  · next a _ =>
    have haxis : Piece.axis a ∈ pageEndParts := by clear * -; revert a; decide
    split
    · exact .refl _ _ b
    · have hbrake : Leaves pageEndParts sourceRegs b (b.brakeAxis a false) := by
        unfold brakeAxis
        split
        · exact .refl _ _ b
        · exact (Leaves.refl _ _ b).modAxis _ _ haxis
      have hidle := ((hbrake.of_part (leaves_keyState a 0 _) (by decide) pageRegs_subset_source).raise (640 + 32 * a.val + 31)).modKey
        (fun k => { k with idleBase := none, approach := false, forced := false }) (by decide)
      exact hidle.of_part (leaves_pageOver _) (by decide) (List.nil_subset _)

theorem leaves_joinPage (n : Nat) (b : Block) : Leaves sourceParts sourceRegs b (b.joinPage n) := by
  unfold joinPage
  have hpage : Leaves sourceParts sourceRegs b { b with ring := { b.ring with page := n } } := (Leaves.refl _ _ b).modRing (fun r => { r with page := n }) (by decide)
  split
  · exact .refl _ _ b
  · split
    · exact hpage.of_part (leaves_pageOver _) (by decide) (List.nil_subset _)
    · exact hpage.foldl _ _ fun m h _ => (Leaves.refl _ _ m).modHead _ _ (by clear * -; revert h; decide)

theorem leaves_sourceTo (p : Nat) (b : Block) : Leaves sourceParts sourceRegs b (b.sourceTo p) := by
  unfold sourceTo
  split
  · exact .refl _ _ b
  · exact ((((((Leaves.refl _ _ b).of_part (leaves_pageDrop b) (by decide) (List.Subset.refl _)).setReg _ _ (by decide)).setReg _ _ (by decide)).setReg _ _ (by decide)).setReg _ _ (by decide)).modRing _ (by decide)
      |>.trans (leaves_joinPage ..)

/-! ## The members of an epoch through what follows them -/

/-- The pier is in the same epoch, with the same authority. -/
structure SameEpoch (b n : Block) : Prop where
  members : n.ring.members = b.ring.members
  generation : n.ring.generation = b.ring.generation
  minority : n.ring.minority = b.ring.minority

namespace SameEpoch
variable {b₀ b : Block}

theorem of_ring (w : SameEpoch b₀ b) {n : Block} (h : n.ring = b.ring) : SameEpoch b₀ n :=
  ⟨(congrArg Ring.members h).trans w.members, (congrArg Ring.generation h).trans w.generation, (congrArg Ring.minority h).trans w.minority⟩

theorem of_leaves (w : SameEpoch b₀ b) {P : List Piece} {R : List Obj} {n : Block} (h : Leaves P R b n) (hp : Piece.ring ∉ P) : SameEpoch b₀ n :=
  w.of_ring (h.ring hp)

theorem ite {p : Prop} [Decidable p] {n : Block} (w : SameEpoch b₀ b) (v : SameEpoch b₀ n) : SameEpoch b₀ (if p then b else n) := by
  split
  · exact w
  · exact v

theorem raise (w : SameEpoch b₀ b) {k : Nat} : SameEpoch b₀ (b.raise k) := w.of_ring rfl
theorem raiseIf (w : SameEpoch b₀ b) {c : Bool} {k : Nat} : SameEpoch b₀ (b.raiseIf c k) := w.raise.ite w
theorem setReg (w : SameEpoch b₀ b) {o : Obj} {v : Nat} : SameEpoch b₀ (b.setReg o v) := w.of_ring rfl

/-- A change of the ring that is none of its epoch. -/
theorem modRing (w : SameEpoch b₀ b) {f : Ring → Ring}
    (hf : ∀ r, (f r).members = r.members ∧ (f r).generation = r.generation ∧ (f r).minority = r.minority := by exact fun _ => ⟨rfl, rfl, rfl⟩) :
    SameEpoch b₀ (b.modRing f) := by
  obtain ⟨h1, h2, h3⟩ := hf b.ring
  exact ⟨h1.trans w.members, h2.trans w.generation, h3.trans w.minority⟩

theorem coincides (w : SameEpoch b₀ b) {at_ : Option Time} : SameEpoch b₀ (b.coincides at_) := w.of_leaves (leaves_coincides at_ b) (by decide)

theorem setTimeState (w : SameEpoch b₀ b) {n : Nat} : SameEpoch b₀ (b.setTimeState n) := w.of_ring (ring_setTimeState n b)

theorem holdover (w : SameEpoch b₀ b) : SameEpoch b₀ b.holdover := (w.setTimeState.modRing.raise).ite w

theorem electSource (w : SameEpoch b₀ b) {prio : List (Nat × Nat)} : SameEpoch b₀ (b.electSource prio) := by
  unfold Block.electSource
  extract_lets old s c d e
  have he : SameEpoch b₀ e := w.coincides.modRing.setReg.raiseIf
  exact he.setTimeState.ite (he.setTimeState.raise.ite (he.holdover.ite he))

theorem pageOver (w : SameEpoch b₀ b) : SameEpoch b₀ b.pageOver := w.of_leaves (leaves_pageOver b) (by decide)

theorem joinPage (w : SameEpoch b₀ b) {n : Nat} : SameEpoch b₀ (b.joinPage n) := by
  have hc : SameEpoch b₀ (b.modRing fun r => { r with page := n }) := w.modRing
  unfold Block.joinPage
  refine w.ite (hc.pageOver.ite ?_)
  exact foldl_rel (r := SameEpoch b₀) (fun m h v => v.of_ring (n := m.modHead h _) rfl) _ hc

theorem sourceTo (w : SameEpoch b₀ b) {p : Nat} : SameEpoch b₀ (b.sourceTo p) := by
  have hdrop : SameEpoch b₀ b.pageDrop := w.of_leaves (leaves_pageDrop b) (by decide)
  exact w.ite hdrop.setReg.setReg.setReg.setReg.modRing.joinPage

theorem reroute (w : SameEpoch b₀ b) : SameEpoch b₀ b.reroute := w.of_leaves (leaves_reroute b) (by decide)

theorem setTopology (w : SameEpoch b₀ b) {wrap : Option Nat} : SameEpoch b₀ (b.setTopology wrap) := w.modRing.setReg.raiseIf.raiseIf.reroute

theorem deriveCeiling (w : SameEpoch b₀ b) : SameEpoch b₀ b.deriveCeiling := by
  unfold Block.deriveCeiling
  split
  · exact w
  · exact w.ite (w.setReg.modRing (f := fun r => { r with ceiling := _ }) |>.of_ring rfl)

theorem spanFault (w : SameEpoch b₀ b) : SameEpoch b₀ b.spanFault := w.of_leaves (leaves_spanFault b) (by decide)

theorem chooseAbutments (w : SameEpoch b₀ b) : SameEpoch b₀ b.chooseAbutments := by
  unfold Block.chooseAbutments
  extract_lets offering a z old c lost d e f
  have hd : SameEpoch b₀ d := w.setReg.setReg.reroute.of_leaves (leaves_hostLost _) (by decide)
  have he : SameEpoch b₀ e := hd.coincides.modRing.ite hd
  have hf : SameEpoch b₀ f := foldl_rel (r := SameEpoch b₀) (fun m k v => v.of_leaves (leaves_streamRestart _ m) (by decide)) _ he
  exact he.ite (he.raise.spanFault.deriveCeiling.ite hf.raise.spanFault.deriveCeiling)

theorem keyOutside (w : SameEpoch b₀ b) {k : Nat} : SameEpoch b₀ (b.keyOutside k) := w.of_leaves (leaves_keyOutside k b) (by decide)

theorem replyVia (w : SameEpoch b₀ b) {v : Via} {res : Result} : SameEpoch b₀ (b.replyVia v res) := w.of_leaves (leaves_replyVia v res b) (by decide)

theorem ringStartCheck (w : SameEpoch b₀ b) : SameEpoch b₀ b.ringStartCheck := by
  have hc : SameEpoch b₀ (b.modRing fun r => { r with start := none }) := w.modRing
  unfold Block.ringStartCheck
  split
  · exact w
  · refine w.ite ?_
    dsimp only
    split
    · exact hc.of_ring rfl
    · exact hc.raise.replyVia.ite hc.raise.replyVia

theorem withTimePath {f : Block → Block} (w : SameEpoch b₀ (f b)) : SameEpoch b₀ (b.withTimePath f) := w.holdover.ite w

end SameEpoch

/-! ## A new epoch (R427, R428, R430) -/

/-- The members that an epoch tells. -/
def toldMembers (i : EpochInfo) : List Nat := (List.range 64).filter fun p => i.members.getLsbD p

/-- Whether the epoch told holds configuration authority on this pier. -/
def toldAuthority (i : EpochInfo) (b : Block) : Bool := authority (toldMembers i) (b.reg Obj.ringConfigured)

/-- The members, the number and the leader of the new epoch. -/
def epochEntered (i : EpochInfo) (b : Block) : Block :=
  let members := toldMembers i
  let auth := b.toldAuthority i
  let lowest := (members[0]?).getD 0
  let c := (b.wideCut).modRing fun r =>
    { r with members := members, generation := i.generation + 1, minority := !auth, failover := i.failover,
             offers := (List.range 64).filter fun p => i.offers.getLsbD p,
             leaderMode := if lowest = b.pier then none else some i.leaderMode,
             start := r.start.map fun x => { x with waits := x.waits.filter fun p => members.contains p } }
  (((((c.setReg Obj.ringEpoch (epochNumber (i.generation + 1) auth lowest)).setReg Obj.ringLeader lowest).setReg Obj.ringMembers members.length).bump
    Obj.ringEpochChanges).raise 776)

/-- The loss or the return of the authority is told. -/
def authorityTold (auth was : Bool) (b : Block) : Block :=
  (if !auth && !was then (b.setReg Obj.ringTimeSplit b.now.toNat).raise 777 else b).raiseIf (auth && was) 778

/-- The time source and the position source of the new epoch. -/
def sourcesElected (i : EpochInfo) (auth : Bool) (b : Block) : Block :=
  let old := b.reg Obj.ringTimeSource
  let c := b.electSource i.priorities
  let d := c.modRing fun r => { r with foreign := !auth && (old != c.reg Obj.ringTimeSource || r.foreign) }
  if (toldMembers i).contains (d.reg (Obj.axisSourcePier 0)) then d else d.sourceTo 0xFF

/-- The caps, the topology, the abutments and the page of the new epoch. -/
def epochFollowed (i : EpochInfo) (b : Block) : Block :=
  ((((b.capsOf (toldMembers i) i.wide.caps).setTopology i.wrapAfter).chooseAbutments).keyOutside 6).ringStartCheck

theorem epochTake_wrapped {i : EpochInfo} (hw : i.wrapAfter ≠ none) : b.epochTake i =
    (((b.epochEntered i).authorityTold (b.toldAuthority i) b.ring.minority).sourcesElected i (b.toldAuthority i)).epochFollowed i := by
  have hn : i.wrapAfter.isNone = false := Option.isNone_eq_false_iff.mpr (Option.ne_none_iff_isSome.mp hw)
  unfold epochTake
  extract_lets members c
  have hc : c = b := if_neg (by rw [hn]; exact Bool.false_ne_true)
  clear_value c
  subst hc
  rfl

/-- The registers of an epoch's entering. -/
def enterRegs : List Obj := [Obj.ringEpoch, Obj.ringLeader, Obj.ringMembers, Obj.ringEpochChanges]

/-- The registers that follow an epoch's entering. -/
def followRegs : List Obj := [Obj.ringTimeSplit, Obj.ringTimeSource, Obj.ringTimeState, Obj.ringTopology, Obj.deviceLineRateCap] ++ sourceRegs ++ offerRegs

theorem leaves_wideCut (b : Block) : Leaves [.ring, .host, .smb, .can] [] b b.wideCut :=
  ((Leaves.refl _ _ b).modRing _ (by decide)).foldl _ _ fun m x _ => (Leaves.refl _ _ m).of_part (leaves_replyVia ..) (by decide) (List.nil_subset _)

theorem leaves_epochEntered (i : EpochInfo) (b : Block) : Leaves [.ring, .host, .smb, .can] enterRegs b (b.epochEntered i) := by
  unfold epochEntered
  extract_lets members auth lowest c
  have hc : Leaves [.ring, .host, .smb, .can] enterRegs b c :=
    ((Leaves.refl _ _ b).of_part (leaves_wideCut b) (List.Subset.refl _) (List.nil_subset _)).modRing _ (by decide)
  exact ((((hc.setReg _ _ (by decide)).setReg _ _ (by decide)).setReg _ _ (by decide)).bump _ (by decide)).raise _

theorem leaves_authorityTold (auth was : Bool) (b : Block) : Leaves [] [Obj.ringTimeSplit] b (b.authorityTold auth was) := by
  refine Leaves.raiseIf ?_ _ _
  split
  · exact ((Leaves.refl _ _ b).setReg _ _ (by decide)).raise _
  · exact .refl _ _ b

theorem leaves_electSource (prio : List (Nat × Nat)) (b : Block) :
    Leaves timeParts [Obj.ringTimeSource, Obj.ringTimeState, Obj.ringCoincidences] b (b.electSource prio) := by
  unfold electSource
  extract_lets old s c d e
  have he : Leaves timeParts [Obj.ringTimeSource, Obj.ringTimeState, Obj.ringCoincidences] b e :=
    ((((Leaves.refl _ _ b).of_part (leaves_coincides ..) (by decide) (by decide)).modRing _ (by decide)).setReg _ _ (by decide)).raiseIf _ _
  split
  · exact he.of_part (leaves_setTimeState 4 e) (by decide) (by decide)
  · split
    · exact (he.of_part (leaves_setTimeState 3 e) (by decide) (by decide)).raise _
    · split
      · exact he.of_part (leaves_holdover e) (by decide) (by decide)
      · exact he

theorem leaves_capsOf (members : List Nat) (told : List (Nat × Nat)) (b : Block) : Leaves [.thermal] [Obj.deviceLineRateCap] b (b.capsOf members told) := by
  unfold capsOf
  extract_lets keep caps more _ c
  have hc : Leaves [.thermal] [Obj.deviceLineRateCap] b c := (Leaves.refl _ _ b).thermal_set _ (by decide)
  exact hc.setReg _ _ (by decide)

theorem leaves_ringStartCheck (b : Block) : Leaves [.ring, .host, .smb, .can] [] b b.ringStartCheck := by
  have hc : Leaves [.ring, .host, .smb, .can] [] b (b.modRing fun r => { r with start := none }) := (Leaves.refl _ _ b).modRing _ (by decide)
  unfold ringStartCheck
  split
  · exact .refl _ _ b
  · split
    · exact .refl _ _ b
    · dsimp only
      split
      · exact hc.sendRing _
      · split
        · exact (hc.raise _).of_part (leaves_replyVia ..) (by decide) (List.nil_subset _)
        · exact (hc.raise _).of_part (leaves_replyVia ..) (by decide) (List.nil_subset _)

theorem coincidences_subset_offer : [Obj.ringCoincidences] ⊆ offerRegs := by
  obtain ⟨-, -, h⟩ := abutments_mem_offer
  exact List.cons_subset.mpr ⟨h, List.nil_subset _⟩

theorem sourceRegs_subset_follow : sourceRegs ⊆ followRegs :=
  List.Subset.trans (List.subset_append_right _ _) (List.subset_append_left _ _)

theorem offerRegs_subset_follow : offerRegs ⊆ followRegs := List.subset_append_right ..

theorem follow_mem {o : Obj} (h : o ∈ [Obj.ringTimeSplit, Obj.ringTimeSource, Obj.ringTimeState, Obj.ringTopology, Obj.deviceLineRateCap]) : o ∈ followRegs :=
  List.mem_append_left _ (List.mem_append_left _ h)

theorem leaves_sourcesElected (i : EpochInfo) (auth : Bool) (b : Block) : Leaves ringParts followRegs b (b.sourcesElected i auth) := by
  unfold sourcesElected
  extract_lets old c d
  have hd : Leaves ringParts followRegs b d := by
    refine ((Leaves.refl _ _ b).of_part (leaves_electSource i.priorities b) (by decide) ?_).modRing _ (by decide)
    exact List.cons_subset.mpr ⟨follow_mem (by decide), List.cons_subset.mpr ⟨follow_mem (by decide),
      List.Subset.trans coincidences_subset_offer offerRegs_subset_follow⟩⟩
  split
  · exact hd
  · exact hd.of_part (leaves_sourceTo ..) (by decide) sourceRegs_subset_follow

theorem leaves_epochFollowed (i : EpochInfo) (b : Block) : Leaves ringParts followRegs b (b.epochFollowed i) := by
  have hcaps : Leaves ringParts followRegs b (b.capsOf (toldMembers i) i.wide.caps) :=
    (Leaves.refl _ _ b).of_part (leaves_capsOf ..) (by decide) (List.cons_subset.mpr ⟨follow_mem (by decide), List.nil_subset _⟩)
  have htop := hcaps.of_part (leaves_setTopology i.wrapAfter _) (by decide)
    (List.cons_subset.mpr ⟨follow_mem (by decide), List.Subset.trans routeRegs_subset_offer offerRegs_subset_follow⟩)
  have hchoose := htop.of_part (leaves_chooseAbutments _) (by decide) offerRegs_subset_follow
  exact (hchoose.of_part (leaves_keyOutside 6 _) (by decide) (List.Subset.trans pageRegs_subset_source sourceRegs_subset_follow)).of_part
    (leaves_ringStartCheck _) (by decide) (List.nil_subset _)

/-- What follows an epoch's entering. -/
def epochTail (i : EpochInfo) (auth was : Bool) (b : Block) : Block := ((b.authorityTold auth was).sourcesElected i auth).epochFollowed i

theorem leaves_epochTail (i : EpochInfo) (auth was : Bool) (b : Block) : Leaves ringParts followRegs b (b.epochTail i auth was) :=
  (((Leaves.refl _ _ b).of_part (leaves_authorityTold ..) (List.nil_subset _) (List.cons_subset.mpr ⟨follow_mem (by decide), List.nil_subset _⟩)).trans
    (leaves_sourcesElected ..)).trans (leaves_epochFollowed ..)

theorem SameEpoch.epochTail {i : EpochInfo} {auth was : Bool} (b : Block) : SameEpoch b (b.epochTail i auth was) := by
  have h0 : SameEpoch b (b.authorityTold auth was) := by
    have hb : SameEpoch b b := ⟨rfl, rfl, rfl⟩
    exact (hb.setReg.raise.ite hb).raiseIf
  have h1 : SameEpoch b ((b.authorityTold auth was).sourcesElected i auth) := by
    unfold sourcesElected
    extract_lets old c d
    have hd : SameEpoch b d := h0.electSource.modRing
    exact hd.ite hd.sourceTo
  have hcaps : SameEpoch b (((b.authorityTold auth was).sourcesElected i auth).capsOf (toldMembers i) i.wide.caps) :=
    h1.of_leaves (leaves_capsOf ..) (by decide)
  exact hcaps.setTopology.chooseAbutments.keyOutside.ringStartCheck

theorem epochTail_fires {i : EpochInfo} {auth was : Bool} {k : Nat} (h : b.Fired k) : (b.epochTail i auth was).Fired k := by
  refine Within.fired (P := Anywhere) ?_ h
  have h0 : Within Anywhere b (b.authorityTold auth was) := (((Within.refl _ b).setReg.raise).ite (.refl _ b)).raiseIf
  have h1 : Within Anywhere b ((b.authorityTold auth was).sourcesElected i auth) := by
    unfold sourcesElected
    extract_lets old c d
    have hd : Within Anywhere b d := (h0.electSource fun _ => trivial).modRing
    exact hd.ite (hd.sourceTo trivial (fun _ => trivial) fun _ => trivial)
  exact ((h1.capsOf.setTopology.chooseAbutments trivial fun _ => trivial).keyOutside trivial fun _ => trivial).ringStartCheck

/-! ## What a formed epoch shows -/

/-- The pier is in the epoch told, with the authority that its number of configured piers gives. -/
structure EpochFormed (i : EpochInfo) (conf : Nat) (n : Block) : Prop where
  members : n.ring.members = toldMembers i
  generation : n.ring.generation = i.generation + 1
  minority : n.ring.minority = !authority (toldMembers i) conf
  count : n.reg Obj.ringMembers = (toldMembers i).length
  leader : n.reg Obj.ringLeader = ((toldMembers i)[0]?).getD 0
  told : n.Fired 776

theorem length_toldMembers (i : EpochInfo) : (toldMembers i).length ≤ 64 :=
  (List.length_filter_le _ _).trans (by rw [List.length_range])

theorem lowest_toldMembers (i : EpochInfo) : ((toldMembers i)[0]?).getD 0 < 64 := by
  cases h : (toldMembers i)[0]? with
  | none => decide
  | some p => exact List.mem_range.mp (List.mem_of_mem_filter (List.mem_of_getElem? h))

theorem epochEntered_formed (i : EpochInfo) (b : Block) : EpochFormed i (b.reg Obj.ringConfigured) (b.epochEntered i) where
  members := rfl
  generation := rfl
  minority := rfl
  count := by
    refine (reg_setReg_ne _ _ _ _ (by decide)).trans ((reg_setReg_self ..).trans (Nat.mod_eq_of_lt ?_))
    exact Nat.lt_of_le_of_lt (length_toldMembers i) (by decide)
  leader := by
    refine (reg_setReg_ne _ _ _ _ (by decide)).trans ((reg_setReg_ne _ _ _ _ (by decide)).trans ((reg_setReg_self ..).trans (Nat.mod_eq_of_lt ?_)))
    exact Nat.lt_of_lt_of_le (lowest_toldMembers i) (by decide)
  told := List.mem_append_right _ (List.mem_singleton_self _)

/-- A formed epoch stays formed through what leaves its members and its registers. -/
theorem EpochFormed.kept {i : EpochInfo} {conf : Nat} {c n : Block} (h : EpochFormed i conf c) (hs : SameEpoch c n)
    (hm : n.reg Obj.ringMembers = c.reg Obj.ringMembers) (hl : n.reg Obj.ringLeader = c.reg Obj.ringLeader) (hf : c.Fired 776 → n.Fired 776) :
    EpochFormed i conf n where
  members := hs.members.trans h.members
  generation := hs.generation.trans h.generation
  minority := hs.minority.trans h.minority
  count := hm.trans h.count
  leader := hl.trans h.leader
  told := hf h.told

theorem members_outside_follow : (∀ x ∈ followRegs, (Obj.ringMembers).key ≠ x.key) ∧ (∀ x ∈ followRegs, (Obj.ringLeader).key ≠ x.key) ∧
    ∀ x ∈ followRegs, (Obj.ringTimeSlewMax).key ≠ x.key := by decide +kernel

theorem epochTake_formed {i : EpochInfo} (hw : i.wrapAfter ≠ none) : EpochFormed i (b.reg Obj.ringConfigured) (b.epochTake i) := by
  rw [epochTake_wrapped hw]
  obtain ⟨hm, hl, -⟩ := members_outside_follow
  have htail := leaves_epochTail i (b.toldAuthority i) b.ring.minority (b.epochEntered i)
  exact (epochEntered_formed i b).kept (SameEpoch.epochTail _) (htail.reg _ hm) (htail.reg _ hl) epochTail_fires

end

end Sys2Proof.Machine.Block

/-! # Numbers, epochs and ring-wide commands (R412, R413, R426 to R431) -/

namespace Sys2Proof.Machine.Block

section
variable {b : Block}

/-! ## The pier's number (R412, R413) -/

/-- The pier with its number, before its column base follows. -/
def numberSet (p : Nat) (b : Block) : Block :=
  ({ b with thermal := { b.thermal with caps := (b.thermal.caps.erase 0xFF).insert p ((b.thermal.caps.get? 0xFF).getD 1000000) } } : Block).setReg
    Obj.ringPierNumber p

theorem number_eq (p : Nat) (b : Block) : b.number p = (b.numberSet p).deriveBase := rfl

theorem leaves_numberSet (p : Nat) (b : Block) : Leaves [.thermal] [Obj.ringPierNumber] b (b.numberSet p) :=
  ((Leaves.refl _ _ b).thermal_set _ (by decide)).setReg _ _ (by decide)

theorem reg_numberSet {p : Nat} (hp : p < 256) (b : Block) : (b.numberSet p).reg Obj.ringPierNumber = p :=
  (reg_setReg_self ..).trans (Nat.mod_eq_of_lt hp)

theorem reg_number {p : Nat} (hp : p < 256) (b : Block) : (b.number p).reg Obj.ringPierNumber = p :=
  ((leaves_deriveBase _).reg Obj.ringPierNumber (by decide)).trans (reg_numberSet hp b)

/-- At the basic level the column base follows the number (R413). -/
theorem base_number {p : Nat} (hp : p < 64) (hl : b.levelInForce Obj.ringLevel ≠ 1) : (b.number p).reg Obj.deviceColumnBase = 32768 * p := by
  have hnum := reg_numberSet (p := p) (by omega) b
  have hlevel : (b.numberSet p).levelInForce Obj.ringLevel = b.levelInForce Obj.ringLevel := by
    unfold levelInForce feature
    rw [(leaves_numberSet p b).reg Obj.deviceFeaturesConfirmedLo (by decide), (leaves_numberSet p b).reg Obj.ringLevel (by decide)]
  have hderive : (b.numberSet p).deriveBase = (b.numberSet p).setReg Obj.deviceColumnBase (32768 * (b.numberSet p).reg Obj.ringPierNumber) :=
    if_neg (by rw [hlevel, hnum]; omega)
  rw [number_eq, hderive, reg_setReg_self, hnum]
  exact Nat.mod_eq_of_lt (Nat.lt_of_lt_of_le (Nat.mul_lt_mul_of_pos_left hp (by decide)) (by decide))

variable {reach : List RootInfo} {conf k : Nat}

theorem numberFrom_up (hn : b.reg Obj.ringPierNumber = 0xFF) (hu : (b.rootOf reach).up = some k) : b.numberFrom reach conf = b.number k := by
  refine (if_neg (fun h => h hn)).trans ?_
  rw [hu]

theorem numberFrom_down (hn : b.reg Obj.ringPierNumber = 0xFF) (hu : (b.rootOf reach).up = none) (hd : (b.rootOf reach).down = some k) :
    b.numberFrom reach conf = if conf = 0 then b else b.number (conf - k) := by
  refine (if_neg (fun h => h hn)).trans ?_
  rw [hu, hd]

theorem numberBy_far {p : Nat} (hn : b.reg Obj.ringPierNumber = 0xFF) (hp : 0 < p) : b.numberBy 1 p = b.number (p - 1) :=
  (if_neg (fun h => h hn)).trans ((if_neg (by decide)).trans (if_pos hp))

/-! ## Epochs that form and join (R427 to R431) -/

theorem leaves_wideTake (w : WideState) (b : Block) : Leaves sourceParts ([Obj.ringConfigured, Obj.ringTimeSource] ++ sourceRegs) b (b.wideTake w) := by
  have hset : Leaves sourceParts ([Obj.ringConfigured, Obj.ringTimeSource] ++ sourceRegs) b
      (((b.setReg Obj.ringConfigured w.configured).modRing fun r => { r with ceiling := w.ceiling }).setReg Obj.ringTimeSource w.source) :=
    (((Leaves.refl _ _ b).setReg _ _ (by decide)).modRing _ (by decide)).setReg _ _ (by decide)
  exact (hset.of_part (leaves_sourceTo ..) (List.Subset.refl _) (List.subset_append_right ..)).of_part (leaves_joinPage ..) (List.Subset.refl _)
    (List.subset_append_right ..)

theorem configured_outside_source : ∀ x ∈ sourceRegs, (Obj.ringConfigured).key ≠ x.key := by decide

theorem configured_wideTake (w : WideState) (b : Block) : (b.wideTake w).reg Obj.ringConfigured = w.configured % 256 := by
  have hsource := fun m => (leaves_sourceTo w.claim m).reg Obj.ringConfigured configured_outside_source
  have hpage := fun m => (leaves_joinPage w.page m).reg Obj.ringConfigured configured_outside_source
  exact (hpage _).trans ((hsource _).trans ((reg_setReg_ne _ _ _ _ (by decide)).trans (reg_setReg_self ..)))

theorem epoch_mem {l : List Obj} (h : l ⊆ [Obj.ringPierNumber, Obj.deviceColumnBase, Obj.ringConfigured, Obj.ringEpoch, Obj.ringLeader, Obj.ringMembers,
    Obj.ringEpochChanges, Obj.ringTimeSplit, Obj.ringTimeSource, Obj.ringTimeState, Obj.ringTopology, Obj.axisSourcePier 0, Obj.axisSourcePier 1,
    Obj.axisBroadcast 0, Obj.axisBroadcast 1, Obj.deviceLineRateCap]) : l ⊆ epochRegs := List.subset_append_of_subset_left _ h

theorem offerRegs_subset_epoch : offerRegs ⊆ epochRegs := List.subset_append_right ..

theorem sourceRegs_subset_epoch : sourceRegs ⊆ epochRegs :=
  List.append_subset.mpr ⟨epoch_mem (by decide), List.Subset.trans pageRegs_subset_offer offerRegs_subset_epoch⟩

theorem followRegs_subset_epoch : followRegs ⊆ epochRegs :=
  List.append_subset.mpr ⟨List.append_subset.mpr ⟨epoch_mem (by decide), sourceRegs_subset_epoch⟩, offerRegs_subset_epoch⟩

theorem leaves_epochTake {i : EpochInfo} (hw : i.wrapAfter ≠ none) : Leaves ringParts epochRegs b (b.epochTake i) := by
  rw [epochTake_wrapped hw]
  exact ((Leaves.refl _ _ b).of_part (leaves_epochEntered i b) (by decide) (epoch_mem (by decide))).of_part (leaves_epochTail ..) (List.Subset.refl _)
    followRegs_subset_epoch

/-- The ring-wide state of the epoch is taken where it is new to the pier, and the epoch after it. -/
def epochWith (wide : Bool) (i : EpochInfo) (b : Block) : Block := (if wide then b.wideTake i.wide else b).epochTake i

theorem leaves_epochWith (wide : Bool) {i : EpochInfo} (hw : i.wrapAfter ≠ none) : Leaves ringParts epochRegs b (b.epochWith wide i) := by
  refine Leaves.trans ?_ (leaves_epochTake hw)
  split
  · exact (Leaves.refl _ _ b).of_part (leaves_wideTake ..) (by decide) (List.append_subset.mpr ⟨epoch_mem (by decide), sourceRegs_subset_epoch⟩)
  · exact .refl _ _ b

/-- The number of configured piers by which the epoch's authority is judged. -/
def judgedBy (wide : Bool) (i : EpochInfo) (b : Block) : Nat := if wide then i.wide.configured % 256 else b.reg Obj.ringConfigured

theorem epochWith_formed (wide : Bool) {i : EpochInfo} (hw : i.wrapAfter ≠ none) : EpochFormed i (b.judgedBy wide i) (b.epochWith wide i) := by
  unfold judgedBy epochWith
  cases wide with
  | true => exact configured_wideTake i.wide b ▸ epochTake_formed hw
  | false => exact epochTake_formed hw

theorem EpochFormed.withTimePath {i : EpochInfo} {n : Nat} {f : Block → Block} (h : EpochFormed i n (f b)) : EpochFormed i n (b.withTimePath f) := by
  unfold Block.withTimePath
  extract_lets c
  split
  · have hhold := leaves_holdover c
    have hsame : SameEpoch c c := ⟨rfl, rfl, rfl⟩
    exact h.kept hsame.holdover (hhold.reg _ (by decide)) (hhold.reg _ (by decide))
      fun hf => Within.fired (P := Anywhere) ((Within.refl _ c).holdover fun _ => trivial) hf
  · exact h

/-- The epoch told takes force on the pier, which follows its time source. -/
def epochEnter (wide : Bool) (i : EpochInfo) (b : Block) : Block := b.withTimePath fun b => b.epochWith wide i

theorem epochEnter_formed (wide : Bool) {i : EpochInfo} (hw : i.wrapAfter ≠ none) : EpochFormed i (b.judgedBy wide i) (b.epochEnter wide i) :=
  (epochWith_formed wide hw).withTimePath

theorem leaves_epochEnter (wide : Bool) {i : EpochInfo} (hw : i.wrapAfter ≠ none) : Leaves ringParts epochRegs b (b.epochEnter wide i) :=
  (leaves_epochWith wide hw).withTimePath (by decide) (epoch_mem (by decide) (List.mem_singleton_self _))

theorem epochChange_numbered {i : EpochInfo} (hn : b.reg Obj.ringPierNumber ≠ 0xFF) :
    b.epochChange i false = b.epochEnter b.ring.members.isEmpty i := by
  have hroot : (b.pier == 0xFF) = false := beq_eq_false_iff_ne.mpr hn
  have hnum : b.numberFrom i.reach i.wide.configured = b := if_pos hn
  show b.epochForm i = _
  unfold epochForm
  rw [hnum, hroot]
  refine (if_neg hn).trans ?_
  rw [Bool.false_and, Bool.false_and, Bool.not_false, Bool.and_true]
  rfl

/-- The pier's own epoch is no foreign one. -/
def atHome (b : Block) : Block := b.modRing fun r => { r with foreign := false }

theorem EpochFormed.modRing {i : EpochInfo} {n : Nat} (h : EpochFormed i n b) {f : Ring → Ring}
    (hf : ∀ r, (f r).members = r.members ∧ (f r).generation = r.generation ∧ (f r).minority = r.minority := by exact fun _ => ⟨rfl, rfl, rfl⟩) :
    EpochFormed i n (b.modRing f) := h.kept (SameEpoch.modRing ⟨rfl, rfl, rfl⟩ hf) rfl rfl id

variable {i : EpochInfo} {other : BitVec 64} {auth : Bool} {offset : Int}

theorem epochJoin_gives (hg : b.givesState ((List.range 64).filter fun p => other.getLsbD p) auth = true) :
    b.epochJoin i other auth offset false = (b.epochEnter false i).atHome := if_pos hg

theorem judgedBy_change (i : EpochInfo) (b : Block) : b.judgedBy b.ring.members.isEmpty i =
    if b.ring.members = [] then i.wide.configured % 256 else b.reg Obj.ringConfigured := by
  unfold judgedBy
  simp only [List.isEmpty_iff]

theorem epochJoin_formed (hw : i.wrapAfter ≠ none) : EpochFormed i (b.reg Obj.ringConfigured) (b.epochEnter false i).atHome :=
  EpochFormed.modRing (epochEnter_formed false hw)

theorem foreign_atHome (b : Block) : b.atHome.ring.foreign = false := rfl

theorem leaves_epochJoin (hw : i.wrapAfter ≠ none) : Leaves ringParts epochRegs b (b.epochEnter false i).atHome :=
  (leaves_epochEnter false hw).modRing _ (by decide)

/-- The offset of a pier that joins is published (R431). -/
def rejoined (offset : Int) (epoch : Nat) (b : Block) : Block :=
  ((((b.setRegI Obj.ringTimeRejoinOffset offset).setReg Obj.ringTimeRejoinAt b.now.toNat).setReg Obj.ringTimeRejoinEpoch epoch).sendRing
    (.rejoin offset b.now epoch)).raise 785

theorem epochEnter_wide (b : Block) : (b.withTimePath fun b => (b.wideTake i.wide).epochTake i) = b.epochEnter true i := by
  unfold epochEnter epochWith
  simp only [if_true]

theorem epochJoin_takes (hg : b.givesState ((List.range 64).filter fun p => other.getLsbD p) auth = false) :
    b.epochJoin i other auth offset false = (((b.epochEnter true i).atHome).rejoined offset (b.reg Obj.ringEpoch)).takeTime offset := by
  unfold epochJoin
  rw [if_neg Bool.false_ne_true]
  dsimp only
  rw [hg, if_neg Bool.false_ne_true, epochEnter_wide]
  generalize b.epochEnter true i = c
  rfl

/-- A near source is taken without a step (R425). -/
theorem takeTime_near (ho : offset.natAbs ≤ b.reg Obj.ringTimeSlewMax * tNs) : b.takeTime offset =
    if !b.ring.everLocked then b.setReg Obj.ringTimeState 1
    else (b.setReg Obj.ringTimeState 1).modRing fun r => { r with slew := offset } := by
  have hslew : (b.setReg Obj.ringTimeState 1).reg Obj.ringTimeSlewMax = b.reg Obj.ringTimeSlewMax := reg_setReg_ne _ _ _ _ (by decide)
  unfold takeTime
  extract_lets c _ _ _
  have hc : c = b.setReg Obj.ringTimeState 1 := setTimeState_source b
  rw [hc, hslew, if_pos ho]
  rfl

theorem leaves_takeTime_near (ho : offset.natAbs ≤ b.reg Obj.ringTimeSlewMax * tNs) : Leaves [.ring] [Obj.ringTimeState] b (b.takeTime offset) := by
  have hset : Leaves [.ring] [Obj.ringTimeState] b (b.setReg Obj.ringTimeState 1) := (Leaves.refl _ _ b).setReg _ _ (by decide)
  rw [takeTime_near ho]
  split
  · exact hset
  · exact hset.modRing _ (by decide)

/-- What a source that is near changes of the ring is the slew alone. -/
theorem ring_takeTime_near (ho : offset.natAbs ≤ b.reg Obj.ringTimeSlewMax * tNs) :
    SameEpoch b (b.takeTime offset) ∧ (b.takeTime offset).ring.foreign = b.ring.foreign := by
  have hsame : SameEpoch b b := ⟨rfl, rfl, rfl⟩
  rw [takeTime_near ho]
  split
  · exact ⟨hsame.setReg, rfl⟩
  · exact ⟨hsame.setReg.modRing, rfl⟩

theorem takeTime_near_fires (ho : offset.natAbs ≤ b.reg Obj.ringTimeSlewMax * tNs) {f : Nat} (h : b.Fired f) : (b.takeTime offset).Fired f := by
  rw [takeTime_near ho]
  split
  · exact h
  · exact h

theorem leaves_rejoined (epoch : Nat) (b : Block) :
    Leaves [] [Obj.ringTimeRejoinOffset, Obj.ringTimeRejoinAt, Obj.ringTimeRejoinEpoch] b (b.rejoined offset epoch) :=
  (((((Leaves.refl _ _ b).setRegI _ _ (by decide)).setReg _ _ (by decide)).setReg _ _ (by decide)).sendRing _).raise _

theorem reg_rejoined (epoch : Nat) (b : Block) : (b.rejoined offset epoch).reg Obj.ringTimeRejoinAt = b.now.toNat ∧
    (b.rejoined offset epoch).reg Obj.ringTimeRejoinEpoch = epoch % 2 ^ 32 :=
  ⟨(reg_setReg_ne _ _ _ _ (by decide)).trans ((reg_setReg_self ..).trans (Nat.mod_eq_of_lt b.now.isLt)), reg_setReg_self ..⟩

theorem slewMax_outside_epoch : ∀ x ∈ epochRegs, (Obj.ringTimeSlewMax).key ≠ x.key := by decide +kernel

/-- What a pier that joins an epoch shows once it has taken its state and its time (R431). -/
structure Rejoined (i : EpochInfo) (conf epoch : Nat) (b n : Block) : Prop where
  formed : EpochFormed i conf n
  foreign : n.ring.foreign = false
  instant : n.reg Obj.ringTimeRejoinAt = b.now.toNat
  epoch : n.reg Obj.ringTimeRejoinEpoch = epoch % 2 ^ 32
  told : n.Fired 785
  leaves : Leaves ringParts ([Obj.ringTimeRejoinOffset, Obj.ringTimeRejoinAt, Obj.ringTimeRejoinEpoch] ++ epochRegs) b n

theorem epochJoin_rejoins (hw : i.wrapAfter ≠ none) (ho : offset.natAbs ≤ b.reg Obj.ringTimeSlewMax * tNs) (epoch : Nat) :
    Rejoined i (i.wide.configured % 256) epoch b ((((b.epochEnter true i).atHome).rejoined offset epoch).takeTime offset) := by
  have hhome : EpochFormed i (i.wide.configured % 256) (b.epochEnter true i).atHome := (epochEnter_formed true hw).modRing
  have hleft : Leaves ringParts epochRegs b (b.epochEnter true i).atHome := (leaves_epochEnter true hw).modRing _ (by decide)
  have hforeign : (b.epochEnter true i).atHome.ring.foreign = false := rfl
  revert hhome hleft hforeign
  generalize (b.epochEnter true i).atHome = c
  intro hhome hleft hforeign
  have hpub := leaves_rejoined (offset := offset) epoch c
  obtain ⟨hat, hep⟩ := reg_rejoined (offset := offset) epoch c
  have hslew : (c.rejoined offset epoch).reg Obj.ringTimeSlewMax = b.reg Obj.ringTimeSlewMax :=
    (hpub.reg _ (by decide)).trans (hleft.reg _ slewMax_outside_epoch)
  have hnear : offset.natAbs ≤ (c.rejoined offset epoch).reg Obj.ringTimeSlewMax * tNs := by rwa [hslew]
  have htime := leaves_takeTime_near hnear
  obtain ⟨hsame, hkept⟩ := ring_takeTime_near hnear
  have hformed : EpochFormed i (i.wide.configured % 256) (c.rejoined offset epoch) :=
    hhome.kept ⟨rfl, rfl, rfl⟩ (hpub.reg _ (by decide)) (hpub.reg _ (by decide)) fun h => List.mem_append_left _ (List.mem_append_left _ h)
  exact {
    formed := hformed.kept hsame (htime.reg _ (by decide)) (htime.reg _ (by decide)) (takeTime_near_fires hnear)
    foreign := hkept.trans hforeign
    instant := (htime.reg _ (by decide)).trans (hat.trans (by rw [hleft.now]))
    epoch := (htime.reg _ (by decide)).trans hep
    told := takeTime_near_fires hnear (List.mem_append_right _ (List.mem_singleton_self _))
    leaves := (((Leaves.refl _ _ b).of_part hleft (List.Subset.refl _) (List.subset_append_right ..)).of_part hpub (List.nil_subset _)
      (List.subset_append_left ..)).of_part htime (by decide) (List.subset_append_of_subset_right _ (epoch_mem (by decide))) }

theorem authority_iff (members : List Nat) (conf : Nat) :
    (!authority members conf) = true ↔ ¬ (conf < 2 * members.length ∨ (conf = 2 * members.length ∧ 0 ∈ members)) := by
  unfold authority
  simp only [Bool.not_eq_true', ← Bool.not_eq_true, Bool.or_eq_true, Bool.and_eq_true, decide_eq_true_eq, List.contains_iff_mem]

/-! ## Ring-wide writes, caps and starts (R19, R426, R429) -/

theorem writeDo_configured (e : Env) (r : Route) (v : Nat) (b : Block) :
    b.writeDo e r 0x2601 3 v = some (b.wideWrite .configured v (.write r)) := rfl

theorem writeDo_ringStart (e : Env) (r : Route) (v : Nat) (b : Block) :
    b.writeDo e r 0x260A 1 v = some (b.ringStart (BitVec.ofNat 64 v) (.write r) e.startFail e.epoch e.banks) := rfl

theorem writeDo_ceiling (e : Env) (r : Route) (a : AxisId) (v : Nat) (b : Block) :
    b.writeDo e r (Obj.axisKeystoneCeiling a).index (Obj.axisKeystoneCeiling a).sub v = some (b.wideWrite (.ceiling a) v (.write r)) :=
  (writeDo_axisObj e r a 0x62 (by decide) rfl v b).trans rfl

theorem wideWrite_leads {o : RingWide} {v : Nat} {r : Route} (hl : b.leads = true) :
    b.wideWrite o v (.write r) = (b.wideOrder o v b.pier).reply r .ok := if_pos hl

theorem wideWrite_follows {o : RingWide} {v : Nat} {r : Route} (hl : b.leads = false) :
    b.wideWrite o v (.write r) = (b.modRing fun x => { x with asked := x.asked ++ [(o, v, .write r)] }).sendRing (.ask o v) :=
  if_neg (by rw [hl]; exact Bool.false_ne_true)

/-- The leader's own ceiling. -/
def ceilingSet (a : AxisId) (v : Nat) (b : Block) : Block := (b.setReg (Obj.axisKeystoneCeiling a) v).modRing fun r => { r with ceiling := some v }

theorem wideOrder_ceiling (a : AxisId) (v : Nat) (b : Block) :
    b.wideOrder (.ceiling a) v b.pier = (b.ceilingSet a v).sendRing (.wide (.ceiling a) v (Fin.ofNat 64 b.pier)) := by
  unfold wideOrder wideApply
  dsimp only
  rw [if_pos rfl]
  rfl

theorem leaves_ceilingOrdered (a : AxisId) (v : Nat) (m : RingMsg) (b : Block) :
    Leaves [.ring] [Obj.axisKeystoneCeiling a] b ((b.ceilingSet a v).sendRing m) :=
  (((Leaves.refl _ _ b).setReg _ _ (by simp)).modRing _ (by simp)).sendRing _

theorem capMessage_waits {p : PierId} {cap : Nat} {sent : Time} (hs : b.allStopped = false) : b.capMessage p cap sent =
    { b with thermal := { b.thermal with changes := b.thermal.changes ++ [(later sent 160000, p.val, cap)] } } := by
  exact if_pos (by
    show (!b.allStopped) = true
    rw [hs]; rfl)

/-- The cap of another pier with what it makes the lowest. -/
def capTaken (p cap : Nat) (b : Block) : Block :=
  let c : Block := { b with thermal := { b.thermal with caps := b.thermal.caps.insert p cap, changes := [] } }
  c.setReg Obj.deviceLineRateCap c.lowestCap

theorem capMessage_taken {p : PierId} {cap : Nat} {sent : Time} (hs : b.allStopped = true) (hc : b.thermal.changes = []) :
    b.capMessage p cap sent = b.capTaken p.val cap := by
  refine (if_neg (?_ : ¬ (!b.allStopped) = true)).trans ?_
  · rw [hs]; exact Bool.false_ne_true
  · rw [hc]
    rfl

theorem leaves_capTaken (p cap : Nat) (b : Block) : Leaves [.thermal] [Obj.deviceLineRateCap] b (b.capTaken p cap) :=
  ((Leaves.refl _ _ b).thermal_set _ (by decide)).setReg _ _ (by decide)

theorem lowestCap_setCap (v : Nat) (b : Block) : (b.setReg Obj.deviceLineRateCap v).lowestCap = b.lowestCap := by
  unfold lowestCap
  rw [b.reg_setReg_ne Obj.deviceLineRateCap Obj.ringPierNumber v (by decide)]
  rfl

theorem reg_capTaken (p cap : Nat) (b : Block) : (b.capTaken p cap).reg Obj.deviceLineRateCap = (b.capTaken p cap).lowestCap % 2 ^ 32 :=
  (reg_setReg_self ..).trans (congrArg (· % 2 ^ 32) (lowestCap_setCap ..).symm)

variable {s : Time} {v : Via} {others : Option (PierId × HeadId × AbortCode)} {epoch : Bool} {banks : List Nat}

theorem ringStart_near (h : timeDiff s b.now < 80000000) : b.ringStart s v others epoch banks = b.replyVia v (.abort .tooLow) := if_pos h

theorem ringStart_noHeads (h : 80000000 ≤ timeDiff s b.now) (hh : b.startHeads = []) : b.ringStart s v others epoch banks =
    match others with
    | some (p, h, c) => ((b.setReg Obj.ringStartFail (p.val * 256 + h.val)).raise 787).replyVia v (.abort c)
    | none =>
      if epoch then (((b.bump Obj.ringCoincidences).raise 787)).replyVia v (.abort .unavailable)
      else (b.sendRing (.start s)).startMembers s (some v) b.startHeads (b.ring.members.filter (· != b.pier)) banks := by
  refine (if_neg (Int.not_lt.mpr h)).trans ?_
  rw [hh]
  rfl

theorem startMembers_alone : b.startMembers s (some v) [] [] banks = ((b.modRing fun x => { x with start := none }).raise 786).replyVia v .ok := rfl

theorem startMembers_waits {waits : List Nat} (hw : waits ≠ []) :
    b.startMembers s (some v) [] waits banks = b.modRing fun x => { x with start := some ⟨some v, [], none, waits, false⟩ } := by
  have he : waits.isEmpty = false := List.isEmpty_eq_false_iff.mpr hw
  refine if_pos ?_
  show (!([] : List Nat).isEmpty || !waits.isEmpty) = true
  rw [he]
  rfl

theorem ringStart_fails {p : PierId} {h : HeadId} {c : AbortCode} (hfar : 80000000 ≤ timeDiff s b.now) (hh : b.startHeads = []) :
    b.ringStart s v (some (p, h, c)) epoch banks = ((b.setReg Obj.ringStartFail (p.val * 256 + h.val)).raise 787).replyVia v (.abort c) :=
  ringStart_noHeads hfar hh

theorem ringStart_asks (hfar : 80000000 ≤ timeDiff s b.now) (hh : b.startHeads = []) :
    b.ringStart s v none false banks = (b.sendRing (.start s)).startMembers s (some v) [] (b.ring.members.filter (· != b.pier)) banks := by
  rw [ringStart_noHeads hfar hh, hh]
  exact if_neg Bool.false_ne_true

theorem ringStart_alone (hfar : 80000000 ≤ timeDiff s b.now) (hh : b.startHeads = []) (hw : b.ring.members.filter (· != b.pier) = []) :
    b.ringStart s v none false banks = (((b.sendRing (.start s)).modRing fun x => { x with start := none }).raise 786).replyVia v .ok := by
  rw [ringStart_asks hfar hh, hw]
  exact startMembers_alone

theorem ringStart_waits (hfar : 80000000 ≤ timeDiff s b.now) (hh : b.startHeads = []) {waits : List Nat}
    (hw : b.ring.members.filter (· != b.pier) = waits) (hne : waits ≠ []) :
    b.ringStart s v none false banks = (b.sendRing (.start s)).modRing fun x => { x with start := some ⟨some v, [], none, waits, false⟩ } := by
  rw [ringStart_asks hfar hh, hw]
  exact startMembers_waits hne

end

end Sys2Proof.Machine.Block

namespace Sys2Proof

open Machine Machine.Block

/-- Settles O44: what follows an epoch's members leaves them, and a ring-wide write, cap or start is its one operation. -/
theorem epochsAndRingCommands : Obligations.EpochsAndRingCommands := by
  unfold Obligations.EpochsAndRingCommands
  refine ⟨fun reach conf b hn => ⟨fun k hu hk => ?_, fun k hu hd => ⟨fun hc => ?_, fun hc hk => ?_⟩, fun p hp hlt => ?_⟩, ?_, fun t r s => ?_⟩
  · rw [numberFrom_up hn hu]
    exact ⟨reg_number (by omega) b, base_number hk⟩
  · rw [numberFrom_down hn hu hd, if_pos hc]
  · rw [numberFrom_down hn hu hd, if_neg hc]
    exact reg_number (by omega) b
  · rw [numberBy_far hn hp]
    exact reg_number (by omega) b
  · intro t i s b members formed hstart hn hw
    have hshow {j : EpochInfo} {conf : Nat} {n : Block} (hm : toldMembers j = members) (h : EpochFormed j conf n) : formed conf j.generation n := by
      refine ⟨h.members.trans hm, h.generation, ?_, h.count.trans (by rw [hm]), h.leader.trans (by rw [hm]), h.told⟩
      rw [h.minority, hm]
      exact authority_iff ..
    refine ⟨?_, fun other generation auth offset => ⟨fun hg => ?_, fun hg ho => ?_⟩⟩
    · refine ⟨_, does_of_run (f := fun b => b.epochChange i false) rfl (epochChange_numbered hn), leaves_epochEnter _ hw, ?_⟩
      have h := epochEnter_formed (b := b) b.ring.members.isEmpty hw
      rw [judgedBy_change] at h
      exact hshow (j := i) rfl h
    · have hw' : ({ i with generation := max i.generation generation } : EpochInfo).wrapAfter ≠ none := hw
      exact ⟨_, does_of_run (f := fun b => b.epochJoin { i with generation := max i.generation generation } other auth offset false) rfl
        (epochJoin_gives hg), hshow (j := { i with generation := max i.generation generation }) rfl (epochJoin_formed hw'), foreign_atHome _, leaves_epochJoin hw'⟩
    · have hw' : ({ i with generation := max i.generation generation } : EpochInfo).wrapAfter ≠ none := hw
      have h := epochJoin_rejoins (b := b) hw' ho (b.reg Obj.ringEpoch)
      exact ⟨_, does_of_run (f := fun b => b.epochJoin { i with generation := max i.generation generation } other auth offset false) rfl
        (epochJoin_takes hg), hshow (j := { i with generation := max i.generation generation }) rfl h.formed, h.foreign, h.instant, h.epoch, h.told, h.leaves⟩
  · intro b
    refine ⟨fun v e ha => ⟨fun hl => ?_, fun hl => ?_⟩, fun a v e ha hl => ?_, fun pier cap sent => ⟨fun hs => ?_, fun hs hc => ?_⟩,
      fun instant banks failing change ha => ?_⟩
    · exact does_of_run (f := fun b => b.writeTo Obj.ringConfigured v.toNat r e) rfl
        (writeTo_of_accepts ha ((writeDo_configured e r _ b).trans (congrArg some (wideWrite_leads hl))))
    · exact does_of_run (f := fun b => b.writeTo Obj.ringConfigured v.toNat r e) rfl
        (writeTo_of_accepts ha ((writeDo_configured e r _ b).trans (congrArg some (wideWrite_follows hl))))
    · refine ⟨_, does_of_run (f := fun b => b.writeTo (Obj.axisKeystoneCeiling a) v.toNat r e) rfl
        (writeTo_of_accepts ha ((writeDo_ceiling e r a _ b).trans (congrArg some ((wideWrite_leads hl).trans (by
          rw [mod_bits (o := Obj.axisKeystoneCeiling a) (w := 32) rfl (by decide), wideOrder_ceiling]))))), ?_, ?_, reply_answered .., ?_,
        (leaves_ceilingOrdered ..).reply r .ok⟩
      · exact congrArg Ring.ceiling ((leaves_reply r .ok _).ring (by decide))
      · rw [reply_reg]
        exact (reg_setReg_self ..).trans (Nat.mod_eq_of_lt v.isLt)
      · exact (congrArg (_ ∈ ·) (reply_outs ..)).mpr (List.mem_append_left _ (List.mem_append_right _ (List.mem_singleton_self _)))
    · exact does_of_run (f := fun b => b.capMessage pier cap.toNat sent) rfl (capMessage_waits hs)
    · exact ⟨_, does_of_run (f := fun b => b.capMessage pier cap.toNat sent) rfl (capMessage_taken hs hc), rfl, reg_capTaken .., leaves_capTaken ..⟩
    · have hrun {n : Block} (h : b.ringStart instant (.write r) failing change banks = n) : Does (.ringStart t r instant banks failing change) s n := by
        refine does_of_run (f := fun b => b.writeTo Obj.ringStartAt instant.toNat r
          { Env.quiet with banks := banks, startFail := failing, epoch := change }) rfl (writeTo_of_accepts ha ?_)
        rw [mod_bits (o := Obj.ringStartAt) (w := 64) rfl (by decide)]
        refine (writeDo_ringStart _ r instant.toNat b).trans (congrArg some ?_)
        rw [BitVec.ofNat_toNat, BitVec.setWidth_eq]
        exact h
      refine ⟨fun hnear => hrun (ringStart_near hnear), fun hfar hh => ⟨fun p h c hf => ?_, fun hf hch waits hwaits => ?_⟩⟩
      · subst hf
        exact hrun (ringStart_fails hfar hh)
      · subst hf hch
        have hmembers : b.ring.members.filter (· != b.pier) = waits := hwaits.symm
        refine ⟨fun hw => hrun (ringStart_alone hfar hh (hmembers.trans hw)), fun hw => ?_⟩
        have hstart := ringStart_waits (b := b) (v := .write r) (banks := banks) hfar hh hmembers hw
        exact hrun hstart

end Sys2Proof

/-! # The PCIe link and the offer of this pier (R414, R438 to R440) -/

namespace Sys2Proof.Machine.Block

section
variable {b : Block}

/-! ## The offers through what follows them -/

theorem offers_of_leaves {P : List Piece} {R : List Obj} {c n : Block} {l : List Nat} (h : Leaves P R c n) (hp : Piece.ring ∉ P) (hc : c.ring.offers = l) :
    n.ring.offers = l := (congrArg Ring.offers (h.ring hp)).trans hc

theorem offers_deriveCeiling (b : Block) : b.deriveCeiling.ring.offers = b.ring.offers := by
  unfold deriveCeiling
  split
  · rfl
  · split <;> rfl

theorem offers_lossSeen (b : Block) : ((b.coincides b.ring.downAt).modRing fun r => { r with lossAt := some b.now }).ring.offers = b.ring.offers :=
  (show _ = (b.coincides b.ring.downAt).ring.offers from rfl).trans (congrArg Ring.offers ((leaves_coincides b.ring.downAt b).ring (by decide)))

theorem offers_chooseAbutments (b : Block) : b.chooseAbutments.ring.offers = b.ring.offers := by
  unfold chooseAbutments
  extract_lets offering a z old c lost d e f
  have hd : d.ring.offers = b.ring.offers :=
    offers_of_leaves (leaves_hostLost _) (by decide) (offers_of_leaves (leaves_reroute c) (by decide) rfl)
  have he : e.ring.offers = b.ring.offers := by
    unfold e
    split
    · exact (offers_lossSeen d).trans hd
    · exact hd
  have hf : f.ring.offers = b.ring.offers :=
    foldl_rel (r := fun m : Block => m.ring.offers = b.ring.offers) (fun m k h => offers_of_leaves (leaves_streamRestart _ m) (by decide) h) _ he
  have htold {m : Block} (h : m.ring.offers = b.ring.offers) (k : Nat) : ((m.raise k).spanFault).deriveCeiling.ring.offers = b.ring.offers :=
    (offers_deriveCeiling _).trans (offers_of_leaves (leaves_spanFault (m.raise k)) (by decide) h)
  split
  · exact he
  · split
    · exact htold he 784
    · exact htold hf 783

/-- A pier that would offer itself without a readout region is told (R414). -/
def offerWanted (on : Bool) (b : Block) : Bool := on && b.host.linkUp && b.isSet Obj.hostBusMaster && !b.host.d3hot

theorem offer_offers (on : Bool) (b : Block) : (b.offer on).ring.offers =
    (b.ring.offers.filter (· != b.pier)) ++ if b.offerWanted on && b.reg Obj.bufferReadoutSize != 0 then [b.pier] else [] := by
  unfold offer
  extract_lets want c yes
  have hc : Leaves [.faults] [] b c := by
    unfold c
    split
    · exact (leaves_logFault ..).raise _
    · exact .refl _ _ b
  have hpier : c.pier = b.pier := hc.reg _ (by simp)
  have hread : c.reg Obj.bufferReadoutSize = b.reg Obj.bufferReadoutSize := hc.reg _ (by simp)
  have hring : c.ring = b.ring := hc.ring (by decide)
  refine (offers_chooseAbutments _).trans ?_
  show (c.ring.offers.filter (· != c.pier)) ++ (if yes then [c.pier] else []) = _
  rw [hring, hpier]
  unfold yes
  rw [hread]
  rfl

/-- A pier that withdraws its offer is none of those that offer. -/
theorem offer_withdrawn (b : Block) : b.pier ∉ (b.offer false).ring.offers := by
  rw [offer_offers]
  simp [offerWanted]

theorem offer_withdrawn_by {p : Nat} (h : b.pier = p) : p ∉ (b.offer false).ring.offers := h ▸ offer_withdrawn b

theorem offer_made (hl : b.host.linkUp = true) (hd : b.host.d3hot = false) (hm : b.reg Obj.hostBusMaster ≠ 0) (hr : b.reg Obj.bufferReadoutSize ≠ 0) :
    b.pier ∈ (b.offer true).ring.offers := by
  rw [offer_offers]
  simp [offerWanted, isSet, hl, hd, hm, hr]

theorem offer_fires {on : Bool} {k : Nat} (h : b.Fired k) : (b.offer on).Fired k := by
  refine Within.fired (P := Anywhere) ?_ h
  exact (Within.refl _ b).offer trivial fun _ => trivial

/-! ## The link (R439, R440) -/

theorem leaves_msixSend (v : Fin 64) (b : Block) : Leaves [.host] [] b (b.msixSend v) := by
  unfold msixSend
  split
  · exact (Leaves.refl _ _ b).modHost _ (by decide)
  · split
    · exact .refl _ _ b
    · exact ((Leaves.refl _ _ b).modHost _ (by decide)).emit _

theorem leaves_fireCause (n : Nat) (b : Block) : Leaves [.host] [] b (b.fireCause n) := by
  have hset : Leaves [.host] [] b (b.modHost fun x => { x with causes := setBit x.causes n }) := (Leaves.refl _ _ b).modHost _ (by decide)
  unfold fireCause
  extract_lets c
  split
  · exact hset
  · exact hset.trans (leaves_msixSend ..)

/-- The link is up at its speed and width. -/
def linkSet (speed width : Nat) (b : Block) : Block :=
  (((b.modHost fun x => { x with linkUp := true, loopback := false, d3hot := false }).setReg Obj.hostLinkSpeed speed).setReg Obj.hostLinkWidth width).raise 832

theorem leaves_linkSet (speed width : Nat) (b : Block) : Leaves [.host] [Obj.hostLinkSpeed, Obj.hostLinkWidth] b (b.linkSet speed width) :=
  ((((Leaves.refl _ _ b).modHost _ (by decide)).setReg _ _ (by decide)).setReg _ _ (by decide)).raise _

/-- A link below its full speed or width is told. -/
def linkSlow (speed width : Nat) (b : Block) : Block :=
  if speed < 5 ∨ width < 8 then ((b.logFault 0x0050 noUnit (speed * 256 + width) 842).raise 842).fireCause 40 else b

theorem linkUp_eq {speed : Fin 6} {width : Nat} (ha : b.asleep = false) (hb : b.ballsTaken = false) (hp : b.power.phase ≠ .held)
    (hr : b.power.pcieRef = true) : b.linkUp speed width = ((b.linkSet speed.val width).linkSlow speed.val width).offer true := by
  refine if_neg ?_
  rw [ha, hb, hr]
  simp [hp]

/-- The host port with its link as told. -/
structure LinkShown (speed width : Nat) (n : Block) : Prop where
  up : n.host.linkUp = true
  awake : n.host.d3hot = false
  speed : n.reg Obj.hostLinkSpeed = speed
  width : n.reg Obj.hostLinkWidth = width

theorem LinkShown.of_eq {speed width : Nat} {c n : Block} (h : LinkShown speed width c) (hu : n.host.linkUp = c.host.linkUp)
    (hd : n.host.d3hot = c.host.d3hot) (hr : ∀ o ∈ [Obj.hostLinkSpeed, Obj.hostLinkWidth], n.reg o = c.reg o) : LinkShown speed width n where
  up := hu.trans h.up
  awake := hd.trans h.awake
  speed := (hr _ (by simp)).trans h.speed
  width := (hr _ (by simp)).trans h.width

theorem linkSet_shown {speed width : Nat} (hs : speed < 256) (hw : width < 256) (b : Block) : LinkShown speed width (b.linkSet speed width) where
  up := rfl
  awake := rfl
  speed := (reg_setReg_ne _ _ _ _ (by decide)).trans ((reg_setReg_self ..).trans (Nat.mod_eq_of_lt hs))
  width := (reg_setReg_self ..).trans (Nat.mod_eq_of_lt hw)

theorem link_msixSend (v : Fin 64) (b : Block) : (b.msixSend v).host.linkUp = b.host.linkUp ∧ (b.msixSend v).host.d3hot = b.host.d3hot := by
  unfold msixSend
  split
  · exact ⟨rfl, rfl⟩
  · split
    · exact ⟨rfl, rfl⟩
    · exact ⟨rfl, rfl⟩

theorem link_fireCause (n : Nat) (b : Block) : (b.fireCause n).host.linkUp = b.host.linkUp ∧ (b.fireCause n).host.d3hot = b.host.d3hot := by
  unfold fireCause
  extract_lets c
  split
  · exact ⟨rfl, rfl⟩
  · exact link_msixSend ..

theorem leaves_linkSlow (speed width : Nat) (b : Block) : Leaves [.host, .faults] [] b (b.linkSlow speed width) := by
  unfold linkSlow
  split
  · exact (((Leaves.refl _ _ b).of_part (leaves_logFault ..) (by decide) (List.nil_subset _)).raise _).of_part (leaves_fireCause ..) (by decide)
      (List.nil_subset _)
  · exact .refl _ _ b

theorem linkSlow_shown {speed width : Nat} (h : LinkShown speed width b) (k l : Nat) : LinkShown speed width (b.linkSlow k l) := by
  have hreg := fun o => (leaves_linkSlow k l b).reg o (by simp)
  refine h.of_eq ?_ ?_ fun o _ => hreg o
  · unfold linkSlow
    split
    · refine (link_fireCause ..).1.trans ?_
      exact congrArg HostPort.linkUp ((leaves_logFault ..).host (by decide))
    · rfl
  · unfold linkSlow
    split
    · refine (link_fireCause ..).2.trans ?_
      exact congrArg HostPort.d3hot ((leaves_logFault ..).host (by decide))
    · rfl

theorem linkSlow_fires {speed width k : Nat} (h : b.Fired k) : (b.linkSlow speed width).Fired k := by
  refine Within.fired (P := Anywhere) ?_ h
  exact ((Within.refl _ b).logFault.raise.fireCause).ite (.refl _ b)

theorem linkSlow_told {speed width : Nat} (h : speed < 5 ∨ width < 8) (b : Block) : (b.linkSlow speed width).Fired 842 := by
  unfold linkSlow
  rw [if_pos h]
  exact Within.fired (P := Anywhere) (Within.fireCause (.refl _ _)) (List.mem_append_right _ (List.mem_singleton_self _))

theorem leaves_offered (on : Bool) {P : List Piece} {R : List Obj} {c : Block} (h : Leaves P R b c) (hp : abutmentParts ⊆ P) (hr : offerRegs ⊆ R) :
    Leaves P R b (c.offer on) := h.of_part (leaves_offer on c) hp hr

theorem host_offer (on : Bool) (b : Block) : (b.offer on).host = b.host := (leaves_offer on b).host (by decide)

theorem hostRegs_outside_offer : ∀ o ∈ [Obj.hostLinkSpeed, Obj.hostLinkWidth, Obj.hostBusMaster, Obj.ringPierNumber, Obj.bufferReadoutSize,
    Obj.deviceFeaturesConfirmedLo], ∀ x ∈ offerRegs, o.key ≠ x.key := by decide +kernel

theorem reg_offer {o : Obj} (ho : o ∈ [Obj.hostLinkSpeed, Obj.hostLinkWidth, Obj.hostBusMaster, Obj.ringPierNumber, Obj.bufferReadoutSize,
    Obj.deviceFeaturesConfirmedLo]) (on : Bool) (b : Block) : (b.offer on).reg o = b.reg o := (leaves_offer on b).reg o (hostRegs_outside_offer o ho)

theorem offer_shown {speed width : Nat} (h : LinkShown speed width b) (on : Bool) : LinkShown speed width (b.offer on) :=
  h.of_eq (congrArg HostPort.linkUp (host_offer on b)) (congrArg HostPort.d3hot (host_offer on b)) fun o ho =>
    reg_offer (by simp only [List.mem_cons, List.not_mem_nil, or_false] at ho ⊢; tauto) on b

/-- The link is down. -/
def linkCleared (b : Block) : Block :=
  ((((b.modHost fun x => { x with linkUp := false }).setReg Obj.hostLinkSpeed 0).setReg Obj.hostLinkWidth 0).raise 833).slotsIdle

theorem leaves_linkCleared (b : Block) : Leaves [.host] [Obj.hostLinkSpeed, Obj.hostLinkWidth] b b.linkCleared := by
  unfold linkCleared slotsIdle
  exact (((((Leaves.refl _ _ b).modHost _ (by decide)).setReg _ _ (by decide)).setReg _ _ (by decide)).raise _).modHost _ (by decide)

theorem linkDown_up (h : b.host.linkUp = true) : b.linkDown = b.linkCleared.offer false := if_neg (by rw [h]; decide)

/-- Every mailbox slot is idle and waits for no answer. -/
def SlotsIdle (n : Block) : Prop := ∀ k : SlotId, n.host.slots[k].state = 0 ∧ n.host.slots[k].answer = none

theorem slotsIdle_idle (b : Block) : SlotsIdle b.slotsIdle := fun k => by
  have hk : b.slotsIdle.host.slots[k] = { b.host.slots[k] with state := 0, answer := none } := Vector.getElem_map ..
  rw [hk]
  exact ⟨rfl, rfl⟩

theorem SlotsIdle.of_host {n m : Block} (h : SlotsIdle n) (hm : m.host = n.host) : SlotsIdle m := fun k => by
  rw [hm]
  exact h k

/-! ## The bus master and the function-level reset (R414, R440) -/

theorem isSet_false {o : Obj} (h : b.reg o = 0) : b.isSet o = false := by simp [isSet, h]

theorem isSet_true {o : Obj} (h : b.reg o ≠ 0) : b.isSet o = true := by simp [isSet, h]

theorem busMasterSet_clear (h : b.reg Obj.hostBusMaster = 0) : b.busMasterSet = ((b.setReg Obj.hostBusMaster 1).raise 834).offer true :=
  if_neg (by rw [isSet_false h]; exact Bool.false_ne_true)

theorem busMasterClear_set (h : b.reg Obj.hostBusMaster ≠ 0) : b.busMasterClear = ((b.setReg Obj.hostBusMaster 0).raise 835).offer false :=
  if_pos (isSet_true h)

theorem leaves_busMasterClear (b : Block) : Leaves abutmentParts (Obj.hostBusMaster :: offerRegs) b b.busMasterClear := by
  unfold busMasterClear
  split
  · exact leaves_offered false (((Leaves.refl _ _ b).setReg _ _ (by simp)).raise _) (List.Subset.refl _) (List.subset_cons_self _ _)
  · exact .refl _ _ b

/-- Afterwards the bus master is off. -/
theorem busMasterClear_off (b : Block) : b.busMasterClear.reg Obj.hostBusMaster = 0 := by
  by_cases h : b.reg Obj.hostBusMaster = 0
  · rw [show b.busMasterClear = b from if_neg (by rw [isSet_false h]; exact Bool.false_ne_true)]
    exact h
  · rw [busMasterClear_set h, reg_offer (by decide)]
    exact reg_setReg_self ..

theorem busMasterClear_fires {k : Nat} (h : b.Fired k) : b.busMasterClear.Fired k := by
  refine Within.fired (P := Anywhere) ?_ h
  exact (((Within.refl _ b).setReg.raise).offer trivial fun _ => trivial).ite (.refl _ b)

/-- What one step of a fold brings about, and every step keeps, holds at its end. -/
theorem foldl_brings {α β : Type} {p : β → Prop} {f : β → α → β} {l : List α} {a : α} (ha : a ∈ l) (hset : ∀ c, p (f c a))
    (hkeep : ∀ c, ∀ x ∈ l, p c → p (f c x)) (c : β) : p (l.foldl f c) := by
  induction l generalizing c with
  | nil => exact absurd ha List.not_mem_nil
  | cons x l ih =>
    rcases List.mem_cons.mp ha with rfl | hl
    · exact List.foldlRecOn (motive := p) l f (hset c) fun d hd y hy => hkeep d y (List.mem_cons_of_mem _ hy) hd
    · exact ih hl (fun d y hy => hkeep d y (List.mem_cons_of_mem _ hy)) _

/-- The registers of one queue. -/
def queueObjs (q : Nat) : List Obj :=
  [Obj.hostQueueBase q, Obj.hostQueueSizeLog2 q, Obj.hostQueueEnable q, Obj.hostQueueWritePos q, Obj.hostQueueAckPos q, Obj.hostQueueShadow q,
    Obj.hostQueueCoalesceBytes q, Obj.hostQueueCoalesceUs q, Obj.hostQueueStallUs q]

/-- One queue's registers at their defaults. -/
def queueDefault (b : Block) (q : Nat) : Block := (queueObjs q).foldl (fun b o => b.setReg o o.dflt) b

/-- Every queue's registers at their defaults. -/
def queuesDefault (b : Block) : Block := (List.range 16).foldl queueDefault (b.modHost fun x => { x with queues := Vector.replicate 16 emptyQueue })

theorem queuesReset_eq (b : Block) : b.queuesReset = [4, 5, 6, 7, 8, 9].foldl (fun b c => b.streamRestart (Fin.ofNat 32 c)) b.queuesDefault := rfl

theorem enable_key {q k : Nat} (hq : q < 16) (hk : k < 16) {x : Obj} (hx : x ∈ queueObjs k) : (Obj.hostQueueEnable q).key ≠ x.key ∨ x = Obj.hostQueueEnable q := by
  by_cases h : q = k
  · subst h
    simp only [queueObjs, List.mem_cons, List.not_mem_nil, or_false] at hx
    rcases hx with rfl | rfl | rfl | rfl | rfl | rfl | rfl | rfl | rfl
    case inr.inr.inl => exact .inr rfl
    all_goals
      left
      simp only [Obj.key, Obj.hostQueueEnable, Obj.hostQueueBase, Obj.hostQueueSizeLog2, Obj.hostQueueWritePos, Obj.hostQueueAckPos, Obj.hostQueueShadow,
        Obj.hostQueueCoalesceBytes, Obj.hostQueueCoalesceUs, Obj.hostQueueStallUs]
      omega
  · left
    simp only [queueObjs, List.mem_cons, List.not_mem_nil, or_false] at hx
    rcases hx with rfl | rfl | rfl | rfl | rfl | rfl | rfl | rfl | rfl
    all_goals
      simp only [Obj.key, Obj.hostQueueEnable, Obj.hostQueueBase, Obj.hostQueueSizeLog2, Obj.hostQueueWritePos, Obj.hostQueueAckPos, Obj.hostQueueShadow,
        Obj.hostQueueCoalesceBytes, Obj.hostQueueCoalesceUs, Obj.hostQueueStallUs]
      omega

theorem enable_setDefault {q k : Nat} (hq : q < 16) (hk : k < 16) {x : Obj} (hx : x ∈ queueObjs k) {c : Block} (hc : c.reg (Obj.hostQueueEnable q) = 0) :
    (c.setReg x x.dflt).reg (Obj.hostQueueEnable q) = 0 := by
  rcases enable_key hq hk hx with h | rfl
  · exact (reg_setReg_ne _ _ _ _ h).trans hc
  · exact reg_setReg_self ..

theorem enable_queuesDefault (q : QueueId) (b : Block) : b.queuesDefault.reg (Obj.hostQueueEnable q) = 0 := by
  refine foldl_brings (p := fun c : Block => c.reg (Obj.hostQueueEnable q) = 0) (List.mem_range.mpr q.isLt) (fun c => ?_) (fun c k hk hc => ?_) _
  · exact foldl_brings (p := fun c : Block => c.reg (Obj.hostQueueEnable q) = 0) (a := Obj.hostQueueEnable q) (by simp [queueObjs])
      (fun c => reg_setReg_self ..) (fun c x hx hc => enable_setDefault q.isLt q.isLt hx hc) c
  · exact List.foldlRecOn (motive := fun c : Block => c.reg (Obj.hostQueueEnable q) = 0) _ _ hc fun d hd x hx => enable_setDefault q.isLt (List.mem_range.mp hk) hx hd

theorem leaves_queuesDefault (b : Block) : Leaves [.host] queueRegs b b.queuesDefault := by
  refine ((Leaves.refl [.host] queueRegs b).modHost _ (by decide)).foldl _ _ fun c q hq => ?_
  exact (Leaves.refl _ _ c).foldl _ _ fun d o ho => (Leaves.refl _ _ d).setReg _ _ (List.mem_flatMap.mpr ⟨q, hq, ho⟩)

theorem leaves_queuesReset (b : Block) : Leaves [.host, .dma] queueRegs b b.queuesReset := by
  rw [queuesReset_eq]
  exact ((Leaves.refl _ _ b).of_part (leaves_queuesDefault b) (by decide) (List.Subset.refl _)).foldl _ _ fun c k _ =>
    (Leaves.refl _ _ c).of_part (leaves_streamRestart ..) (by decide) (List.nil_subset _)

theorem leaves_streamsRestart (l : List Nat) (b : Block) : Leaves [.dma] [] b (l.foldl (fun b c => b.streamRestart (Fin.ofNat 32 c)) b) :=
  (Leaves.refl _ _ b).foldl _ _ fun _ _ _ => leaves_streamRestart ..

theorem queues_queuesReset (b : Block) : b.queuesReset.host.queues = Vector.replicate 16 emptyQueue := by
  have hdefault : b.queuesDefault.host.queues = Vector.replicate 16 emptyQueue := by
    have hone (c : Block) (q : Nat) : (c.queueDefault q).host = c.host := foldl_keeps Block.host _ _ _ fun _ _ => rfl
    exact congrArg HostPort.queues (foldl_keeps Block.host _ _ _ hone)
  rw [queuesReset_eq, (leaves_streamsRestart _ _).host (by decide)]
  exact hdefault

theorem enable_queuesReset (q : QueueId) (b : Block) : b.queuesReset.reg (Obj.hostQueueEnable q) = 0 := by
  rw [queuesReset_eq, (leaves_streamsRestart _ _).reg _ (by simp)]
  exact enable_queuesDefault q b

/-- The host port's state after a function-level reset, before the bus master follows. -/
def flrSet (b : Block) : Block :=
  (((b.queuesReset).modHost fun x =>
    { x with dropped := 0, causes := 0, causeMask := 0, msix := Vector.replicate 64 msixDefault, pending := 0, d3hot := false,
             slots := x.slots.map fun s => { s with request := [], response := [], completions := 0 } }).slotsIdle).raise 836

theorem flr_eq (b : Block) : b.flr = (b.flrSet.busMasterClear).offer false := rfl

/-- The registers of the endpoint and of its queues after a function-level reset. -/
structure FunctionReset (n : HostPort) : Prop where
  causes : n.causes = 0
  causeMask : n.causeMask = 0
  pending : n.pending = 0
  dropped : n.dropped = 0
  queues : n.queues = Vector.replicate 16 emptyQueue

theorem flrSet_reset (b : Block) : FunctionReset b.flrSet.host where
  causes := rfl
  causeMask := rfl
  pending := rfl
  dropped := rfl
  queues := queues_queuesReset b

theorem leaves_flrSet (b : Block) : Leaves [.host, .dma] queueRegs b b.flrSet :=
  (((leaves_queuesReset b).modHost _ (by decide)).modHost _ (by decide)).raise _

theorem enable_flrSet (q : QueueId) (b : Block) : b.flrSet.reg (Obj.hostQueueEnable q) = 0 := by
  have hsame {c : Block} (h : c.reg (Obj.hostQueueEnable q) = 0) (f : HostPort → HostPort) (k : Nat) :
      (((c.modHost f).slotsIdle).raise k).reg (Obj.hostQueueEnable q) = 0 := h
  exact hsame (enable_queuesReset q b) _ _

theorem host_flr (b : Block) : b.flr.host = b.flrSet.host := by
  rw [flr_eq, host_offer]
  exact (leaves_busMasterClear _).host (by decide)

/-- A register that the queues, the bus master and the offers leave. -/
theorem reg_flr {o : Obj} (hm : o.key ≠ (Obj.hostBusMaster).key) (ho : ∀ x ∈ offerRegs, o.key ≠ x.key) (b : Block) : b.flr.reg o = b.flrSet.reg o := by
  rw [flr_eq, (leaves_offer ..).reg o ho]
  exact (leaves_busMasterClear _).reg o fun x hx => by
    rcases List.mem_cons.mp hx with rfl | hx
    · exact hm
    · exact ho x hx

theorem queueEnable_outside (q : QueueId) : (Obj.hostQueueEnable q).key ≠ (Obj.hostBusMaster).key ∧ ∀ x ∈ offerRegs, (Obj.hostQueueEnable q).key ≠ x.key := by
  revert q
  decide +kernel

theorem features_outside : (Obj.deviceFeaturesConfirmedLo).key ≠ (Obj.hostBusMaster).key ∧ (∀ x ∈ queueRegs, (Obj.deviceFeaturesConfirmedLo).key ≠ x.key) ∧
    (∀ x ∈ offerRegs, (Obj.deviceFeaturesConfirmedLo).key ≠ x.key) ∧ (∀ x ∈ queueRegs, (Obj.ringPierNumber).key ≠ x.key) := by
  decide +kernel

theorem flr_registers (b : Block) : FunctionReset b.flr.host ∧ b.flr.reg Obj.hostBusMaster = 0 ∧
    b.flr.reg Obj.deviceFeaturesConfirmedLo = b.reg Obj.deviceFeaturesConfirmedLo := by
  obtain ⟨f1, f2, f3, -⟩ := features_outside
  refine ⟨?_, ?_, (reg_flr f1 f3 b).trans ((leaves_flrSet b).reg _ f2)⟩
  · rw [host_flr]
    exact flrSet_reset b
  · rw [flr_eq, reg_offer (by decide)]
    exact busMasterClear_off _

theorem flr_queues (b : Block) (q : QueueId) : b.flr.host.queues[q].error = false ∧ b.flr.host.queues[q].slots = [] ∧
    b.flr.reg (Obj.hostQueueEnable q) = 0 := by
  obtain ⟨⟨-, -, -, -, hq⟩, -, -⟩ := flr_registers b
  obtain ⟨hm, ho⟩ := queueEnable_outside q
  have hempty : b.flr.host.queues[q] = emptyQueue := (congrArg (·[q]) hq).trans (Vector.getElem_replicate ..)
  exact ⟨congrArg Queue.error hempty, congrArg Queue.slots hempty, (reg_flr hm ho b).trans (enable_flrSet q b)⟩

theorem flr_fires (b : Block) : b.flr.Fired 836 := by
  rw [flr_eq]
  exact offer_fires (busMasterClear_fires (List.mem_append_right _ (List.mem_singleton_self _)))

theorem flr_withdrawn (b : Block) : b.reg Obj.ringPierNumber ∉ b.flr.ring.offers := by
  obtain ⟨-, -, -, f4⟩ := features_outside
  rw [flr_eq]
  exact offer_withdrawn_by (((leaves_busMasterClear _).reg Obj.ringPierNumber (by decide +kernel)).trans ((leaves_flrSet b).reg _ f4))

theorem leaves_flr (b : Block) : Leaves ringParts (Obj.hostBusMaster :: queueRegs ++ offerRegs) b b.flr := by
  rw [flr_eq]
  have hset : Leaves ringParts (Obj.hostBusMaster :: queueRegs ++ offerRegs) b b.flrSet :=
    (Leaves.refl _ _ b).of_part (leaves_flrSet b) (by decide) (List.subset_append_of_subset_left _ (List.subset_cons_self _ _))
  exact leaves_offered false (hset.of_part (leaves_busMasterClear _) (by decide) (List.cons_subset.mpr ⟨by simp, List.subset_append_right ..⟩)) (by decide)
    (List.subset_append_right ..)

end

end Sys2Proof.Machine.Block

namespace Sys2Proof

open Machine Machine.Block

/-- Settles O45: the link, the bus master and the resets set the host port, and the offer that follows leaves it. -/
theorem linkAndOffers : Obligations.LinkAndOffers := by
  unfold Obligations.LinkAndOffers
  intro t s b me
  refine ⟨does_of_run (f := fun b => b.pcieRelease) rfl rfl, fun speed width hw ha hb hp hr => ?_, fun hup => ?_, fun hm => ?_,
    fun hm => ⟨?_, ?_⟩, ?_, ?_, ?_⟩
  · have hset : LinkShown speed.val width (b.linkSet speed.val width) := linkSet_shown (Nat.lt_of_lt_of_le speed.isLt (by decide)) hw b
    have hslow : LinkShown speed.val width ((b.linkSet speed.val width).linkSlow speed.val width) := linkSlow_shown hset ..
    have hkept : Leaves [.host, .faults] [Obj.hostLinkSpeed, Obj.hostLinkWidth] b ((b.linkSet speed.val width).linkSlow speed.val width) :=
      ((Leaves.refl _ _ b).of_part (leaves_linkSet ..) (by decide) (List.Subset.refl _)).of_part (leaves_linkSlow ..) (List.Subset.refl _) (List.nil_subset _)
    obtain ⟨hu, hd, hsp, hwd⟩ := offer_shown hslow true
    refine ⟨_, does_of_run (f := fun b => b.linkUp speed width) rfl (linkUp_eq ha hb hp hr), hu, hd, hsp, hwd, ?_, fun hl => ?_,
      leaves_offered true ((Leaves.refl _ _ b).of_part hkept (by decide) (List.subset_append_left ..)) (by decide) (List.subset_append_right ..),
      fun hm hread => ?_⟩
    · exact offer_fires (linkSlow_fires (List.mem_append_right _ (List.mem_singleton_self _)))
    · exact offer_fires (linkSlow_told hl _)
    · have hpier : ((b.linkSet speed.val width).linkSlow speed.val width).pier = me := hkept.reg Obj.ringPierNumber (by decide)
      have hmaster : ((b.linkSet speed.val width).linkSlow speed.val width).reg Obj.hostBusMaster = b.reg Obj.hostBusMaster := hkept.reg _ (by decide)
      have hsize : ((b.linkSet speed.val width).linkSlow speed.val width).reg Obj.bufferReadoutSize = b.reg Obj.bufferReadoutSize :=
        hkept.reg _ (by decide)
      exact hpier ▸ offer_made hslow.up hslow.awake (hmaster ▸ hm) (hsize ▸ hread)
  · have hkept := leaves_linkCleared b
    refine ⟨_, does_of_run (f := fun b => b.linkDown) rfl (linkDown_up hup), ?_, ?_, ?_, ?_, ?_, ?_,
      leaves_offered false ((Leaves.refl _ _ b).of_part hkept (by decide) (List.subset_append_left ..)) (by decide) (List.subset_append_right ..)⟩
    · rw [host_offer]; rfl
    · rw [reg_offer (by decide)]; exact (reg_setReg_ne _ _ _ _ (by decide)).trans (reg_setReg_self ..)
    · rw [reg_offer (by decide)]; exact reg_setReg_self ..
    · exact offer_fires (List.mem_append_right _ (List.mem_singleton_self _))
    · exact offer_withdrawn_by (hkept.reg Obj.ringPierNumber (by decide))
    · exact SlotsIdle.of_host (slotsIdle_idle _) (host_offer ..)
  · refine ⟨_, does_of_run (f := fun b => b.busMasterSet) rfl (busMasterSet_clear hm), ?_, offer_fires (List.mem_append_right _ (List.mem_singleton_self _)),
      leaves_offered true (((Leaves.refl _ _ b).setReg _ _ (by simp)).raise _) (by decide) (List.subset_cons_self _ _)⟩
    rw [reg_offer (by decide)]
    exact reg_setReg_self ..
  · exact does_of_run (f := fun b => b.busMasterSet) rfl (if_pos (isSet_true hm))
  · refine ⟨_, does_of_run (f := fun b => b.busMasterClear) rfl (busMasterClear_set hm), ?_, offer_fires (List.mem_append_right _ (List.mem_singleton_self _)),
      offer_withdrawn_by (b.reg_setReg_ne Obj.hostBusMaster Obj.ringPierNumber 0 (by decide)),
      leaves_offered false (((Leaves.refl _ _ b).setReg _ _ (by simp)).raise _) (by decide) (List.subset_cons_self _ _)⟩
    rw [reg_offer (by decide)]
    exact reg_setReg_self ..
  · obtain ⟨hreset, hm, hf⟩ := flr_registers (s.b.at_ t)
    obtain ⟨hc, hcm, hp, hd, -⟩ := hreset
    exact ⟨_, does_of_run (f := fun b => b.flr) rfl rfl, hc, hcm, hp, hd, flr_fires _, hm, flr_withdrawn _, hf, flr_queues _, leaves_flr _⟩
  · refine ⟨_, does_of_run (f := fun b => b.d3hotEntry) rfl rfl, ?_, offer_withdrawn_by rfl,
      leaves_offered false ((Leaves.refl _ _ b).modHost _ (by decide)) (by decide) (List.Subset.refl _)⟩
    exact congrArg HostPort.d3hot (host_offer false (b.modHost fun x => { x with d3hot := true }))
  · exact ⟨_, does_of_run (f := fun b => b.fatalError) rfl rfl, offer_fires (List.mem_append_right _ (List.mem_singleton_self _)),
      offer_withdrawn_by rfl, leaves_offered false ((Leaves.refl _ _ b).raise _) (by decide) (List.Subset.refl _)⟩

end Sys2Proof

/-! # The mailbox and the tunnel (R55, R444, R445) -/

namespace Sys2Proof.Machine
namespace Block

/-! ## The fields of a request (R445) -/

section
variable (op target index sub length tag address : Nat) (data : List Byte)

theorem padTo_mailHeader : padTo 32 (mailHeader op target index sub length tag address ++ data) = mailHeader op target index sub length tag address := rfl

theorem drop_mailHeader : (mailHeader op target index sub length tag address ++ data).drop 32 = data := rfl

theorem fields_mailHeader : let q := mailHeader op target index sub length tag address
    fieldU q 0 1 = op % 256 ∧ fieldU q 1 1 = target % 256 ∧ fieldU q 2 2 = index % 65536 ∧ fieldU q 4 1 = sub % 256 ∧
    fieldU q 8 4 = length % 2 ^ 32 ∧ fieldU q 16 8 = address % 2 ^ 64 :=
  ⟨leNat_leBytes 1 op, leNat_leBytes 1 target, leNat_leBytes 2 index, leNat_leBytes 1 sub, leNat_leBytes 4 length, leNat_leBytes 8 address⟩

theorem padTo_length : padTo data.length data = data := by simp [padTo]

end

section
variable {b : Block} {s : SlotId} {r : Route} {index sub length address tag : Nat} {data table : List Byte} {e : Env} {row : Row}

/-! ## A request of the host (R444) -/

theorem slots_modSlot_same (s : SlotId) (f : MailSlot → MailSlot) (b : Block) : (b.modSlot s f).host.slots[s] = f b.host.slots[s] :=
  Vector.getElem_set_self s.isLt

theorem modSlot_modSlot (s : SlotId) (f g : MailSlot → MailSlot) (b : Block) : (b.modSlot s f).modSlot s g = b.modSlot s fun x => g (f x) := by
  have hset : (b.host.slots.set s (f b.host.slots[s])).set s (g (b.host.slots.set s (f b.host.slots[s]))[s]) = b.host.slots.set s (g (f b.host.slots[s])) := by
    simp
  simp only [modSlot, modHost]
  rw [hset]

/-- The slot with its request, busy. -/
def slotBusy (s : SlotId) (request : List Byte) (b : Block) : Block := b.modSlot s fun x => { x with request := request, state := 1, response := [], answer := none }

/-- The host port takes a request in the slot. -/
structure SlotFree (s : SlotId) (b : Block) : Prop where
  up : b.host.linkUp = true
  ready : b.host.ready = true
  served : b.served = true
  idle : b.host.slots[s].state ≠ 1

/-- A request to this pier that its slot takes is executed here. -/
theorem mailRequest_own (h : SlotFree s b) {op : Nat} (ho : 1 ≤ op ∧ op ≤ 4) (hi : index < 65536) (hs : sub < 256) (hl : length < 2 ^ 32)
    (ha : address < 2 ^ 64) : b.mailRequest s op 0xFF index sub length tag address data table e =
      (b.slotBusy s (mailHeader op 0xFF index sub length tag address ++ data)).mailExecute (.mailbox s) b.pier op index sub length address data table e := by
  obtain ⟨hup, hready, hserved, hidle⟩ := h
  obtain ⟨f1, f2, f3, f4, f5, f6⟩ := fields_mailHeader op 0xFF index sub length tag address
  rw [Nat.mod_eq_of_lt (by omega)] at f1
  rw [Nat.mod_eq_of_lt hi] at f3
  rw [Nat.mod_eq_of_lt hs] at f4
  rw [Nat.mod_eq_of_lt hl] at f5
  rw [Nat.mod_eq_of_lt ha] at f6
  have hwrite (l : List Byte) : b.slotWrite s l = b.modSlot s fun x => { x with request := l } := if_neg hidle
  have hstate (l : List Byte) : (b.modSlot s fun x => { x with request := l }).host.slots[s].state ≠ 1 := by
    rw [slots_modSlot_same]
    exact hidle
  refine (if_neg (by rw [hup]; decide)).trans ((if_neg hidle).trans ?_)
  rw [hwrite]
  refine (if_neg ?_).trans ((if_neg (hstate _)).trans ?_)
  · show ¬ (!b.host.ready || !b.served) = true
    rw [hready, hserved]
    decide
  · dsimp only
    rw [slots_modSlot_same]
    dsimp only
    rw [padTo_mailHeader, drop_mailHeader, f1, f2, f3, f4, f5, f6, modSlot_modSlot]
    exact (if_neg (by omega)).trans (if_pos (.inl rfl))

/-! ## What is executed here (R445) -/

theorem mailForm_number {op : Nat} (ho : op ≤ 2) {bytes : Nat} (hl : length ≤ 4064) (hb : bytes = 0 ∨ length = bytes) :
    mailForm op length address bytes false = [] := by
  refine (if_pos ho).trans (if_neg ?_)
  rcases hb with rfl | rfl
  · simp [hl]
  · simp [hl]

theorem mailForm_table {op : Nat} (ho : 2 < op) {bytes : Nat} (ha : address % 4 = 0) (hl : length % 4 = 0) :
    mailForm op length address bytes true = [] := by
  refine (if_neg (by omega)).trans ?_
  simp [codeIf, ha, hl]

theorem notTable (h : row.ty ≠ .table) : (row.ty == .table) = false := beq_eq_false_iff_ne.mpr h

theorem dictRead_value (hr : findRow index sub = some row) (hc : b.readCodes r index sub = []) (hf : ¬ (index = 0x4048 ∧ sub = 3)) :
    b.dictRead r index sub = b.reply r (.data (b.readFor r row index sub)) := by
  unfold dictRead
  rw [hc, hr]
  exact if_neg hf

/-- A read of one sub-index answers its value. -/
theorem mailExecute_read {abutment : Nat} (hr : findRow index sub = some row) (hc : b.readCodes r index sub = []) (ht : row.ty ≠ .table)
    (hl : length ≤ 4064) (hb : row.ty.bits = 0 ∨ length = row.ty.bits / 8) (hf : ¬ (index = 0x4048 ∧ sub = 3)) :
    b.mailExecute r abutment 1 index sub length address data table e = b.reply r (.data (b.readFor r row index sub)) := by
  have hb' : row.ty.bits / 8 = 0 ∨ length = row.ty.bits / 8 := hb.imp (fun h => by rw [h]) id
  unfold mailExecute
  rw [hr]
  dsimp only
  rw [hc, notTable ht, mailForm_number (by decide) hl hb']
  exact dictRead_value hr hc hf

/-- A write of one sub-index is the dictionary's write. -/
theorem mailExecute_write {abutment : Nat} (hr : findRow index sub = some row) (ht : row.ty ≠ .table) (hl : data.length ≤ 4064)
    (hb : data.length = row.ty.bits / 8) :
    b.mailExecute r abutment 2 index sub data.length address data table e = b.dictWrite e r index sub data := by
  unfold mailExecute
  rw [hr]
  dsimp only
  rw [notTable ht, mailForm_number (by decide) hl (.inr hb), padTo_length]
  rfl

/-- An upload leaves for host memory. -/
theorem mailExecute_upload {abutment : Nat} (hr : findRow index 0 = some row) (ht : row.ty = .table) (hc : b.readCodes r index 0 = [])
    (hl : length % 4 = 0) (ha : address % 4 = 0) (hroom : (b.table index).length ≤ length) :
    b.mailExecute r abutment 4 index 0 length address data table e = (b.emit (.hostWrite abutment address (b.readTable index))).reply r .ok := by
  have htable : (row.ty == Ty.table) = true := by rw [ht]; rfl
  have hfits : (true && decide (length < (b.table index).length)) = false := by simp [hroom]
  unfold mailExecute
  rw [hr]
  dsimp only
  rw [htable, hc, mailForm_table (by decide) ha hl, hfits]
  rfl

/-- A download whose form is right is taken whole. -/
theorem mailExecute_download {abutment : Nat} (hr : findRow index 0 = some row) (ht : row.ty = .table) (hc : b.tableCodes r index = [])
    (hl : table.length % 4 = 0) (ha : address % 4 = 0) :
    b.mailExecute r abutment 3 index 0 table.length address data table e = b.downloadWhole r index table := by
  have htable : (row.ty == Ty.table) = true := by rw [ht]; rfl
  unfold mailExecute
  rw [hr]
  dsimp only
  rw [htable, hc, mailForm_table (by decide) ha hl, List.take_length]
  rfl

/-! ## A pattern table that comes whole (R30, R445) -/

/-- The codes of an access see no slot, no transfer and no byte of the buffer. -/
theorem tableCodes_staged (b : Block) (x : HostPort) (c : Control) (m : Buffer) :
    ({ b with host := x, control := c, mem := m } : Block).tableCodes r index = b.tableCodes r index := rfl

theorem row_of_tableCodes (h : b.tableCodes r index = []) : ∃ row, findRow index 0 = some row ∧ row.ty = .table := by
  unfold tableCodes at h
  simp only [List.append_eq_nil_iff] at h
  obtain ⟨⟨⟨⟨hlook, hrow⟩, -⟩, -⟩, -⟩ := h
  cases hr : findRow index 0 with
  | none =>
    unfold lookCodes at hlook
    rw [hr] at hlook
    cases hi : indexExists index <;> simp [hi, codeIf] at hlook
  | some row =>
    rw [hr] at hrow
    simp only [List.append_eq_nil_iff] at hrow
    refine ⟨row, rfl, ?_⟩
    by_contra hne
    have hcode : (row.ty != Ty.table) = true := bne_iff_ne.mpr hne
    rw [hcode] at hrow
    exact absurd hrow.2 (by decide)

theorem size_of_contentCodes {h : HeadId} (hc : b.contentCodes (0x6010 + h.val) table = []) : tableSizeOk (0x6010 + h.val) table.length = true := by
  unfold contentCodes at hc
  rw [if_neg (by omega)] at hc
  by_contra hne
  rw [if_pos (by simpa using hne)] at hc
  exact absurd hc (by decide)

theorem length_of_contentCodes {h : HeadId} (hc : b.contentCodes (0x6010 + h.val) table = []) : table.length = 8192 := by
  have hsize := size_of_contentCodes hc
  unfold tableSizeOk at hsize
  rw [if_pos (by omega)] at hsize
  simpa using hsize

theorem memRead_memWrite (bytes : List Byte) (a : Nat) (b : Block) : (b.memWrite a bytes).memRead a bytes.length = bytes := by
  refine List.ext_getElem? fun i => ?_
  by_cases hi : i < bytes.length
  · obtain ⟨v, hv⟩ : ∃ v, bytes[i]? = some v := ⟨_, List.getElem?_eq_getElem hi⟩
    rw [getElem?_memRead _ _ hi, hv]
    exact congrArg some (memGet_memPutRun_inside b.mem a hv)
  · have hread : ((b.memWrite a bytes).memRead a bytes.length).length = bytes.length := by simp [memRead]
    rw [List.getElem?_eq_none (by omega), List.getElem?_eq_none (by omega)]

/-- The contents of a pattern table are judged by themselves. -/
theorem contentCodes_pattern {h : HeadId} (b c : Block) : b.contentCodes (0x6010 + h.val) table = c.contentCodes (0x6010 + h.val) table := by
  have hi : ¬ (0x6014 ≤ 0x6010 + h.val ∧ 0x6010 + h.val < 0x6018) := by omega
  unfold contentCodes
  simp only [if_neg hi]

/-- The transfer of a table that comes whole. -/
def wholeTransfer (r : Route) (index : Nat) (table : List Byte) (place : List (Nat × Nat)) (b : Block) : Transfer :=
  ⟨r, index, 0, .table, some table.length, [], place, b.now⟩

/-- The pier with the whole table staged in its transfer. -/
def wholeStaged (r : Route) (index : Nat) (table : List Byte) (b : Block) : Block :=
  (b.memWrite 0 table).modControl fun c => { c with transfers := [b.wholeTransfer r index table [(0, table.length)]] }

/-- The region begins with the table, and nothing else is held. -/
theorem transferSegment_whole {h : HeadId} (ht : b.control.transfers = []) (hs : b.firmware.stage = []) (hlen : table.length = 8192) :
    (b.modControl fun c => { c with transfers := c.transfers ++ [b.wholeTransfer r (0x6010 + h.val) table []] }).transferSegment r (0x6010 + h.val) table true
      true none false = (b.wholeStaged r (0x6010 + h.val) table).transferEnd (b.wholeTransfer r (0x6010 + h.val) table [(0, table.length)]) true := by
  have hcontrol : (b.modControl fun c => { c with transfers := c.transfers ++ [b.wholeTransfer r (0x6010 + h.val) table []] }) =
      b.modControl fun c => { c with transfers := [b.wholeTransfer r (0x6010 + h.val) table []] } := by
    simp only [modControl]
    rw [ht]
    rfl
  rw [hcontrol]
  have hfind : (b.modControl fun c => { c with transfers := [b.wholeTransfer r (0x6010 + h.val) table []] }).transferOf r (0x6010 + h.val) =
      some (b.wholeTransfer r (0x6010 + h.val) table []) := by
    simp [transferOf, modControl, wholeTransfer]
  have hmore : takeSpace table.length (freeSpace tableArea
      (b.modControl fun c => { c with transfers := [b.wholeTransfer r (0x6010 + h.val) table []] }).stagesHeld) = [(0, table.length)] := by
    have hheld : (b.modControl fun c => { c with transfers := [b.wholeTransfer r (0x6010 + h.val) table []] }).stagesHeld = [] :=
      hs
    rw [hheld, hlen]
    decide
  have hseg := transferSegment_of_some hfind (passed_self (by decide) _) (by rw [hmore]; simp [placeSize]) true true
  rw [hmore] at hseg
  refine hseg.trans ((if_pos rfl).trans ?_)
  refine congrArg (fun c : Block => c.transferEnd (b.wholeTransfer r (0x6010 + h.val) table [(0, table.length)]) true) ?_
  simp [placeWrite, transferPut, wholeStaged, wholeTransfer, modControl, memWrite]

theorem placeRead_whole (index : Nat) : (b.wholeStaged r index table).placeRead [(0, table.length)] = table := by
  refine (List.append_nil _).trans ?_
  exact memRead_memWrite table 0 b

/-- The pattern table is staged at the lowest bytes of the table region, and takes force. -/
theorem downloadWhole_pattern {h : HeadId} (hserved : b.served = true) (ht : b.control.transfers = []) (hs : b.firmware.stage = [])
    (hc : b.tableCodes r (0x6010 + h.val) = []) (hcontent : b.contentCodes (0x6010 + h.val) table = []) :
    b.downloadWhole r (0x6010 + h.val) table = ((b.memWrite 0 table).setTable (0x6010 + h.val) table).reply r .ok := by
  have hnone : b.transferOf r (0x6010 + h.val) = none := by
    unfold transferOf
    rw [ht]
    rfl
  have hready : b.shadowUnready (0x6010 + h.val) = b := by
    unfold shadowUnready
    rw [if_neg (by omega), if_neg (by omega)]
  have hstart := transferStart_of_ok (size := some table.length) hc (by rw [ht]; rfl) fun n hn => by
    rw [← Option.some.inj hn]
    exact size_of_contentCodes hcontent
  rw [hready] at hstart
  have hend := transferEnd_of_ok (b := b.wholeStaged r (0x6010 + h.val) table) (x := b.wholeTransfer r (0x6010 + h.val) table [(0, table.length)])
    (by show 0x6010 + h.val ≠ 0x6060; omega) ((tableCodes_staged b _ _ _).trans hc)
    (by
      show contentCodes (0x6010 + h.val) (placeRead [(0, table.length)] (b.wholeStaged r (0x6010 + h.val) table)) _ = []
      rw [placeRead_whole, contentCodes_pattern _ b]
      exact hcontent)
    (fun n hn => by show n = (placeRead [(0, table.length)] _).length; rw [placeRead_whole]; exact (Option.some.inj hn).symm)
  have hdrop : (b.wholeStaged r (0x6010 + h.val) table).transferDrop r (0x6010 + h.val) = b.memWrite 0 table := by
    have hcontrol : ({ b.control with transfers := [] } : Control) = b.control := by rw [← ht]
    simp [wholeStaged, transferDrop, modControl, wholeTransfer, memWrite, hcontrol]
  unfold downloadWhole downloadSegment
  rw [hserved, hnone, hstart]
  refine (transferSegment_whole ht hs (length_of_contentCodes hcontent)).trans (hend.trans ?_)
  show ((Block.transferDrop r (0x6010 + h.val) _).setTable _ (placeRead [(0, table.length)] _)).reply r .ok = _
  rw [placeRead_whole, hdrop]
  rfl

/-! ## Answers (R444, R445) -/

theorem mailComplete_answered {res : Result} (ha : b.host.slots[s].answer = some res) (hs : b.host.slots[s].state = 1) : b.mailComplete s =
    ((b.modSlot s fun x =>
      { x with response := mailResponse b.pier x.request res (Config.reservedBits b.now.toNat s.val), state := 2,
               completions := (x.completions + 1) % 2 ^ 32, answer := none }).fireCause s.val).raise 837 := by
  unfold mailComplete
  rw [ha]
  exact if_neg (fun h => h hs)

theorem tunnelRequest_served {abutment : PierId} {op : Nat} (hs : b.served = true) (ho : 1 ≤ op ∧ op ≤ 4) :
    b.tunnelRequest abutment op index sub length address data table e =
      b.mailExecute (.tunnel abutment) abutment.val op index sub length address data table e := by
  refine (if_neg (by rw [hs]; decide)).trans (if_neg (by omega))

theorem tunnelRequest_unknown {abutment : PierId} {op : Nat} (hs : b.served = true) (ho : op = 0 ∨ 4 < op) :
    b.tunnelRequest abutment op index sub length address data table e = b.reply (.tunnel abutment) (.abort .specifier) :=
  (if_neg (by rw [hs]; decide)).trans (if_pos ho)

theorem leaves_slotBusy (s : SlotId) (request : List Byte) (b : Block) : Leaves [.host] [] b (b.slotBusy s request) :=
  (Leaves.refl [.host] [] b).modHost (fun x => { x with slots := x.slots.set s _ }) (List.mem_singleton_self _)

/-- The table in force and its bytes, with the slot answered. -/
def patternTaken (index : Nat) (request table : List Byte) (s : SlotId) (b : Block) : Block :=
  (((b.slotBusy s request).memWrite 0 table).setTable index table).reply (.mailbox s) .ok

theorem table_setTable (index : Nat) (d : List Byte) (b : Block) : (b.setTable index d).table index = d := by
  simp [Block.table, setTable]

theorem patternTaken_shown (index : Nat) (request table : List Byte) (b : Block) :
    (b.patternTaken index request table s).table index = table ∧ Leaves [.host, .tables, .mem] [] b (b.patternTaken index request table s) ∧
    ∀ a, table.length ≤ a → memGet (b.patternTaken index request table s).mem a = memGet b.mem a := by
  have hset : Leaves [.host, .tables, .mem] [] b (((b.slotBusy s request).memWrite 0 table).setTable index table) :=
    (((Leaves.refl _ _ b).of_part (leaves_slotBusy s request b) (by decide) (List.nil_subset _)).memWrite 0 table (by decide)).setTable index table
      (by decide)
  have hreply (c : Block) : Leaves [.host, .tables, .mem] [] c (c.reply (.mailbox s) .ok) := by
    unfold Block.reply answerSlot
    exact Leaves.modHost (P := [.host, .tables, .mem]) (R := []) (.refl _ _ c)
      (fun x => { x with slots := x.slots.set s { x.slots[s] with answer := some .ok } }) (by decide) |>.emit _
  exact ⟨table_setTable index table _, hset.trans (hreply _), fun a h => memGet_memPutRun_outside b.mem (.inr (by omega))⟩

end

end Block
end Sys2Proof.Machine

namespace Sys2Proof

open Machine Machine.Block

/-- Settles O46: the slot is busy with the request, which is executed here as the dictionary executes it. -/
theorem mailboxRequestsAndAnswers : Obligations.MailboxRequestsAndAnswers := by
  unfold Obligations.MailboxRequestsAndAnswers
  refine ⟨?_, fun t slot s => ?_⟩
  · intro t slot index sub tag e row s b r busy hup hready hserved hidle
    have hfree : SlotFree slot b := ⟨hup, hready, hserved, hidle⟩
    refine ⟨?_, ?_, fun h address table hi ha hl hsize hc hcontent htr hst hcan => ?_,
      fun length address hr ht hc hl ha hroom => ?_⟩
    · intro length hr hc ht hl hb hf
      refine does_of_run (f := fun b => b.mailRequest slot 1 0xFF index.toNat sub.toNat length.toNat tag.toNat 0 [] [] e) rfl ?_
      refine (mailRequest_own hfree (by decide) index.isLt sub.isLt length.isLt (by decide)).trans ?_
      have hfifo : ¬ (index.toNat = 0x4048 ∧ sub.toNat = 3) := fun ⟨h1, h2⟩ => hf ⟨BitVec.eq_of_toNat_eq h1, BitVec.eq_of_toNat_eq h2⟩
      exact mailExecute_read hr hc ht hl hb hfifo
    · intro data hr hl hb c ha hdo
      refine does_of_run (f := fun b => b.mailRequest slot 2 0xFF index.toNat sub.toNat data.length tag.toNat 0 data [] e) rfl ?_
      refine (mailRequest_own hfree (by decide) index.isLt sub.isLt (by omega) (by decide)).trans ?_
      have hnt : row.ty ≠ .table := fun h => by
        simp only [accepts, hr, Bool.and_eq_true, h] at ha
        exact absurd ha.2.1 (by decide)
      refine (mailExecute_write (b := b.slotBusy slot _) hr hnt hl (by omega)).trans ?_
      refine (dictWrite_of_accepts (b := b.slotBusy slot _) hr ha).trans ?_
      exact congrArg (fun o : Option Block => o.getD _) hdo
    · have hcontent' : b.contentCodes (0x6010 + h.val) table = [] := hi ▸ hcontent
      have hc' : b.tableCodes r (0x6010 + h.val) = [] := hi ▸ hc
      obtain ⟨row, hr, hrt⟩ := row_of_tableCodes hc
      have hdo : b.mailRequest slot 3 0xFF index.toNat 0 table.length tag.toNat address.toNat [] table e =
          (((b.slotBusy slot (mailHeader 3 0xFF index.toNat 0 table.length tag.toNat address.toNat ++ [])).memWrite 0 table).setTable (0x6010 + h.val)
            table).reply r .ok := by
        refine (mailRequest_own hfree (by decide) index.isLt (by decide) hsize address.isLt).trans ?_
        refine (mailExecute_download (b := b.slotBusy slot _) hr hrt hc hl ha).trans ?_
        rw [hi]
        exact downloadWhole_pattern (b := b.slotBusy slot _) hserved htr hst hc' ((contentCodes_pattern _ b).trans hcontent')
      obtain ⟨htable, hleft, hout⟩ := patternTaken_shown (s := slot) (0x6010 + h.val)
        (mailHeader 3 0xFF index.toNat 0 table.length tag.toNat address.toNat ++ []) table b
      exact ⟨_, does_of_run (f := fun b => b.mailRequest slot 3 0xFF index.toNat 0 table.length tag.toNat address.toNat [] table e) rfl hdo,
        hi ▸ htable, reply_answered .., hleft, hout⟩
    · refine does_of_run (f := fun b => b.mailRequest slot 4 0xFF index.toNat 0 length.toNat tag.toNat address.toNat [] [] e) rfl ?_
      refine (mailRequest_own hfree (by decide) index.isLt (by decide) length.isLt address.isLt).trans ?_
      exact mailExecute_upload (b := b.slotBusy slot _) hr ht hc hl ha hroom
  · intro b x
    refine ⟨fun res ha hs => ?_, fun hs ha => ?_, fun abutment index sub length row e hserved hr hc ht hl hb hf => ?_, fun abutment op e hserved ho => ?_⟩
    · exact does_of_run (f := fun b => b.mailComplete slot) rfl (mailComplete_answered ha hs)
    · exact does_of_run (f := fun b => b.tunnelTimeout slot) rfl (if_pos ⟨hs, ha⟩)
    · have hfifo : ¬ (index.toNat = 0x4048 ∧ sub.toNat = 3) := fun ⟨h1, h2⟩ => hf ⟨BitVec.eq_of_toNat_eq h1, BitVec.eq_of_toNat_eq h2⟩
      exact does_of_run (f := fun b => b.tunnelRequest abutment 1 index.toNat sub.toNat length.toNat 0 [] [] e) rfl
        ((tunnelRequest_served hserved (by decide)).trans (mailExecute_read hr hc ht hl hb hfifo))
    · exact does_of_run (f := fun b => b.tunnelRequest abutment op.toNat 0 0 0 0 [] [] e) rfl
        (tunnelRequest_unknown hserved (ho.imp (fun h => by rw [h]; rfl) id))

end Sys2Proof

/-! # Delivery queues (R449 to R452) -/

namespace Sys2Proof.Machine.Block

section
variable {b : Block} {q : QueueId} {r : Option Route}

/-! ## A queue of its own -/

theorem queues_modQueue_same (q : QueueId) (f : Queue → Queue) (b : Block) : (b.modQueue q f).host.queues[q] = f b.host.queues[q] :=
  Vector.getElem_set_self q.isLt

theorem queues_modQueue_other {q z : QueueId} (h : z ≠ q) (f : Queue → Queue) (b : Block) : (b.modQueue q f).host.queues[z] = b.host.queues[z] :=
  Vector.getElem_set_ne q.isLt z.isLt (fun hq => h (Fin.ext hq.symm))

theorem ofNat_queue (q : QueueId) : (Fin.ofNat 16 q.val : QueueId) = q := Fin.ofNat_val_eq_self q

theorem answerFrom_ok (r : Option Route) (b : Block) : b.answerFrom r .ok = b.answered r .ok := by cases r <;> rfl

theorem queues_reply (r : Route) (res : Result) (b : Block) : (b.reply r res).host.queues = b.host.queues := by cases r <;> rfl

theorem queues_answered (r : Option Route) (res : Result) (b : Block) : (b.answered r res).host.queues = b.host.queues := by
  cases r with
  | none => rfl
  | some r => exact queues_reply r res b

theorem reg_answered (r : Option Route) (res : Result) (b : Block) (o : Obj) : (b.answered r res).reg o = b.reg o := by
  cases r with
  | none => rfl
  | some r => exact reply_reg r res b o

/-! ## A queue's registers by BAR0 (R449) -/

/-- A register of 32 bits of queue q. -/
theorem barWrite_queue (hup : b.host.linkUp = true) {off v : Nat} (ho : off % 4 = 0) (hlt : off < 64) (hv : v < 2 ^ 32) (e : Env) :
    b.barWrite (0x30000 + 64 * q.val + off) 4 v [] e = b.barQueue q off v e.same := by
  have hq := q.isLt
  rw [barWrite_dword hup (by omega), Nat.mod_eq_of_lt hv]
  unfold barDword
  rw [if_neg (by omega), if_neg (by omega), if_neg (by omega), if_neg (by omega), if_neg (by omega), if_neg (by omega), if_neg (by omega)]
  dsimp only
  rw [if_neg (by omega), if_pos (by omega), show (0x30000 + 64 * q.val + off - 0x30000) / 64 = q.val by omega,
    show (0x30000 + 64 * q.val + off) % 64 = off by omega, ofNat_queue]

/-- The acknowledged position of queue q. -/
theorem barWrite_ack (hup : b.host.linkUp = true) {v : Nat} (hv : v < 2 ^ 64) (e : Env) :
    b.barWrite (0x30000 + 64 * q.val + 0x18) 8 v [] e = b.barQueue64 q 0x18 v := by
  have hq := q.isLt
  have hword : isQueue64 (0x30000 + 64 * q.val + 0x18) = true := by
    unfold isQueue64
    rw [show (0x30000 + 64 * q.val + 0x18) % 64 = 0x18 by omega]
    simp only [Bool.and_eq_true, decide_eq_true_eq]
    exact ⟨⟨by omega, by omega⟩, by decide⟩
  unfold barWrite
  rw [hup, if_neg (by decide), if_neg (by omega), if_pos (by omega), hword, if_pos rfl, show (0x30000 + 64 * q.val + 0x18 - 0x30000) / 64 = q.val by omega,
    show (0x30000 + 64 * q.val + 0x18) % 64 = 0x18 by omega, ofNat_queue, Nat.mod_eq_of_lt hv]

theorem barControl_open {v : Nat} (hm : b.barMinority 0x2650 = false) (hv : v < 4) (both : Bool) : b.barControl q v both =
    if v % 2 = 1 then (if v / 2 % 2 = 1 then b.queueErrorClear q else b).queueEnable q none both
    else (if both then (if v / 2 % 2 = 1 then b.queueErrorClear q else b).bump Obj.hostCoincidences else (if v / 2 % 2 = 1 then b.queueErrorClear q else b)).queueDisable
      q none := by
  refine if_neg ?_
  rw [hm]
  simp only [Bool.or_false, decide_eq_true_eq]
  omega

/-! ## The writes of a queue (R450, R451) -/

/-- What a request to a queue's register passes: the dictionary's checks, or those of BAR0. -/
def QueueAsked (o : Obj) (v : Nat) (b : Block) : Option Route → Prop
  | some r => b.acceptsObj Env.quiet r o v = true
  | none => b.host.linkUp = true ∧ b.barMinority 0x2650 = false

theorem writeDo_queueEnable (e : Env) (x : Route) (q : QueueId) (v : Nat) (b : Block) :
    b.writeDo e x (Obj.hostQueueEnable q).index (Obj.hostQueueEnable q).sub v = some (if v = 1 then b.queueEnable q (some x) e.same
      else if e.same then (b.queueDisable q (some x)).bump Obj.hostCoincidences else b.queueDisable q (some x)) := by
  have hsub : (Fin.ofNat 16 (1 + q.val - 1) : QueueId) = q := by rw [Nat.add_sub_cancel_left]; exact ofNat_queue q
  have hdo : b.ringDo e x 0x2652 (1 + q.val) v = some (if v = 1 then b.queueEnable (Fin.ofNat 16 (1 + q.val - 1)) (some x) e.same
      else if e.same then (b.queueDisable (Fin.ofNat 16 (1 + q.val - 1)) (some x)).bump Obj.hostCoincidences
        else b.queueDisable (Fin.ofNat 16 (1 + q.val - 1)) (some x)) := rfl
  rw [hsub] at hdo
  exact Eq.trans rfl hdo

theorem writeDo_ackPos (e : Env) (x : Route) (q : QueueId) (v : Nat) (b : Block) :
    b.writeDo e x (Obj.hostQueueAckPos q).index (Obj.hostQueueAckPos q).sub v = some (b.ackWrite q v (some x)) := by
  have hsub : (Fin.ofNat 16 (1 + q.val - 1) : QueueId) = q := by rw [Nat.add_sub_cancel_left]; exact ofNat_queue q
  have hdo : b.ringDo e x 0x2654 (1 + q.val) v = some (b.ackWrite (Fin.ofNat 16 (1 + q.val - 1)) v (some x)) := rfl
  rw [hsub] at hdo
  exact Eq.trans rfl hdo

theorem queueWrite_enable (h : QueueAsked (Obj.hostQueueEnable q) 1 b r) :
    b.queueWrite q (Obj.hostQueueEnable q) 0x0C 4 1 r (Env.meeting false) = b.queueEnable q r false := by
  cases r with
  | some x =>
    refine writeTo_of_accepts h ((writeDo_queueEnable _ x q _ b).trans (congrArg some ?_))
    rw [mod_u8 rfl (by decide)]
    exact if_pos rfl
  | none =>
    obtain ⟨hup, hm⟩ := h
    refine (barWrite_queue (off := 0x0C) hup (by decide) (by decide) (by decide) (Env.meeting false)).trans ?_
    exact (barControl_open hm (by decide) false).trans rfl

theorem queueWrite_disable (h : QueueAsked (Obj.hostQueueEnable q) 0 b r) :
    b.queueWrite q (Obj.hostQueueEnable q) 0x0C 4 0 r (Env.meeting false) = b.queueDisable q r := by
  cases r with
  | some x =>
    refine writeTo_of_accepts h ((writeDo_queueEnable _ x q _ b).trans (congrArg some ?_))
    rw [mod_u8 rfl (by decide)]
    exact (if_neg (by decide)).trans (if_neg Bool.false_ne_true)
  | none =>
    obtain ⟨hup, hm⟩ := h
    refine (barWrite_queue (off := 0x0C) hup (by decide) (by decide) (by decide) (Env.meeting false)).trans ?_
    exact (barControl_open hm (by decide) false).trans rfl

theorem queueWrite_ack {position : BitVec 64} (h : QueueAsked (Obj.hostQueueAckPos q) position.toNat b r) :
    b.queueWrite q (Obj.hostQueueAckPos q) 0x18 8 position.toNat r Env.quiet = b.ackWrite q position.toNat r := by
  cases r with
  | some x =>
    refine writeTo_of_accepts h ((writeDo_ackPos _ x q _ b).trans (congrArg some ?_))
    rw [mod_bits (o := Obj.hostQueueAckPos q) (w := 64) rfl (by decide)]
  | none =>
    obtain ⟨hup, hm⟩ := h
    exact (barWrite_ack hup position.isLt Env.quiet).trans (if_neg (by rw [hm]; exact Bool.false_ne_true))

theorem queueEnable_enabled (he : b.reg (Obj.hostQueueEnable q) ≠ 0) : b.queueEnable q none false = b :=
  (if_neg Bool.false_ne_true).trans (if_pos (isSet_true he))

theorem errorClear_enabled (hup : b.host.linkUp = true) (hm : b.barMinority 0x2650 = false) (he : b.reg (Obj.hostQueueEnable q) = 1) :
    b.barWrite (0x3000C + 64 * q.val) 4 (2 + b.reg (Obj.hostQueueEnable q)) [] Env.quiet = b.modQueue q fun x => { x with error := false } := by
  rw [show 0x3000C + 64 * q.val = 0x30000 + 64 * q.val + 0x0C by omega, he]
  refine (barWrite_queue (off := 0x0C) hup (by decide) (by decide) (by decide) Env.quiet).trans ?_
  have hset : (b.queueErrorClear q).reg (Obj.hostQueueEnable q) ≠ 0 := by
    show b.reg (Obj.hostQueueEnable q) ≠ 0
    omega
  exact (barControl_open hm (by decide) false).trans (queueEnable_enabled (b := b.queueErrorClear q) hset)

theorem errorClear_disabled (hup : b.host.linkUp = true) (hm : b.barMinority 0x2650 = false) (he : b.reg (Obj.hostQueueEnable q) = 0) :
    b.barWrite (0x3000C + 64 * q.val) 4 (2 + b.reg (Obj.hostQueueEnable q)) [] Env.quiet =
      (b.modQueue q fun x => { x with error := false }).setReg (Obj.hostQueueEnable q) 0 := by
  rw [show 0x3000C + 64 * q.val = 0x30000 + 64 * q.val + 0x0C by omega, he]
  refine (barWrite_queue (off := 0x0C) hup (by decide) (by decide) (by decide) Env.quiet).trans ?_
  exact (barControl_open hm (by decide) false).trans rfl

/-! ## A queue that begins (R449, R451) -/

theorem queuePos_keys (q : QueueId) : (Obj.hostQueueEnable q).key ≠ (Obj.hostQueueWritePos q).key ∧ (Obj.hostQueueEnable q).key ≠ (Obj.hostQueueAckPos q).key ∧
    (Obj.hostQueueWritePos q).key ≠ (Obj.hostQueueAckPos q).key := by
  have hq := q.isLt
  simp only [Obj.key, Obj.hostQueueEnable, Obj.hostQueueWritePos, Obj.hostQueueAckPos]
  omega

/-- The queue with its positions at 0 and without slots. -/
def queueBegun (q : QueueId) (b : Block) : Block :=
  (((b.setReg (Obj.hostQueueEnable q) 1).setReg (Obj.hostQueueWritePos q) 0).setReg (Obj.hostQueueAckPos q) 0).modQueue q fun x =>
    { x with slots := [], signalled := 0, unsignalled := none, stalled := false, movedAt := b.now, open_ := true }

/-- The queue with its streams begun anew. -/
def queueStarted (q : QueueId) (b : Block) : Block :=
  ((b.queueBegun q).streamsOf q).foldl (fun b c => b.streamRestart (Fin.ofNat 32 c)) (b.queueBegun q)

theorem queueEnable_starts (he : b.reg (Obj.hostQueueEnable q) = 0) (hsize : 2 * b.largestSlot q ≤ 2 ^ b.reg (Obj.hostQueueSizeLog2 q)) :
    b.queueEnable q r false = (b.queueStarted q).answered r .ok := by
  have hroom : ¬ b.queueSize q < 2 * b.largestSlot q := Nat.not_lt.mpr hsize
  refine (if_neg Bool.false_ne_true).trans ((if_neg (by rw [isSet_false he]; exact Bool.false_ne_true)).trans ((if_neg hroom).trans ?_))
  exact answerFrom_ok ..

theorem leaves_queueBegun (q : QueueId) (b : Block) :
    Leaves [.host] [Obj.hostQueueEnable q, Obj.hostQueueWritePos q, Obj.hostQueueAckPos q] b (b.queueBegun q) :=
  ((((Leaves.refl _ _ b).setReg _ _ (by simp)).setReg _ _ (by simp)).setReg _ _ (by simp)).modQueue _ _ (by simp)

theorem leaves_queueStarted (q : QueueId) (b : Block) :
    Leaves [.host, .dma] [Obj.hostQueueEnable q, Obj.hostQueueWritePos q, Obj.hostQueueAckPos q] b (b.queueStarted q) :=
  ((Leaves.refl _ _ b).of_part (leaves_queueBegun q b) (by decide) (List.Subset.refl _)).of_part (leaves_streamsRestart _ _) (by decide) (List.nil_subset _)

theorem host_queueStarted (q : QueueId) (b : Block) : (b.queueStarted q).host = (b.queueBegun q).host := (leaves_streamsRestart _ _).host (by decide)

theorem reg_modQueue (q : QueueId) (f : Queue → Queue) (b : Block) (o : Obj) : (b.modQueue q f).reg o = b.reg o := rfl

theorem reg_queueStarted (q : QueueId) (b : Block) : (b.queueStarted q).reg (Obj.hostQueueEnable q) = 1 ∧
    (b.queueStarted q).reg (Obj.hostQueueWritePos q) = 0 ∧ (b.queueStarted q).reg (Obj.hostQueueAckPos q) = 0 := by
  obtain ⟨h1, h2, h3⟩ := queuePos_keys q
  have hkept (o : Obj) : (b.queueStarted q).reg o =
      (((b.setReg (Obj.hostQueueEnable q) 1).setReg (Obj.hostQueueWritePos q) 0).setReg (Obj.hostQueueAckPos q) 0).reg o :=
    ((leaves_streamsRestart _ _).reg o (by simp)).trans (reg_modQueue ..)
  rw [hkept, hkept, hkept]
  refine ⟨?_, ?_, reg_setReg_self ..⟩
  · exact (reg_setReg_ne _ _ _ _ h2).trans ((reg_setReg_ne _ _ _ _ h1).trans (reg_setReg_self ..))
  · exact (reg_setReg_ne _ _ _ _ h3).trans (reg_setReg_self ..)

/-! ## The acknowledged position (R450) -/

theorem leaves_placeWrite (l : List (Nat × Nat)) (bytes : List Byte) (b : Block) : Leaves [.mem] [] b (b.placeWrite l bytes) := by
  induction l generalizing bytes b with
  | nil => exact .refl _ _ b
  | cons p l ih => exact ((Leaves.refl _ _ b).memWrite _ _ (by decide)).trans (ih ..)

theorem leaves_readoutPut (span fromPier : Nat) (slot : List Byte) (b : Block) : Leaves [.mem, .capture] [] b (b.readoutPut span fromPier slot) := by
  unfold readoutPut
  exact ((Leaves.refl _ _ b).of_part (leaves_placeWrite ..) (by decide) (List.nil_subset _)).modCapture _ (by decide)

theorem leaves_refill (n : Nat) (b : Block) : Leaves [.mem, .capture] [] b (refill n b) := by
  induction n generalizing b with
  | zero => exact .refl _ _ b
  | succ n ih =>
    unfold refill
    split
    · exact .refl _ _ b
    · split
      · exact ((leaves_readoutPut ..).modCapture _ (by decide)).trans (ih _)
      · exact .refl _ _ b

theorem leaves_sendFrame (s : SpanId) (f : Frame) (b : Block) : Leaves [.ring] [] b (b.sendFrame s f) := by
  unfold sendFrame
  split
  · exact .refl _ _ b
  · split
    · exact (Leaves.refl _ _ b).modSpan _ _ (by decide)
    · exact leaves_transmit ..

/-- The parts that the release of a slot touches. -/
def releaseParts : List Piece := [.dma, .capture, .ring, .mem]

theorem leaves_streamRelease (c : ChanId) (b : Block) : Leaves releaseParts [] b (b.streamRelease c) := by
  unfold streamRelease
  extract_lets d
  have hd : Leaves releaseParts [] b d := (Leaves.refl _ _ b).modDma _ _ (by decide)
  split
  · exact hd.modPart _ _ (by decide)
  · split
    · exact hd
    · split
      · exact hd
      · exact ((hd.modCapture _ (by decide)).of_part (leaves_sendFrame ..) (by decide) (List.nil_subset _)).of_part (leaves_refill ..) (by decide)
          (List.nil_subset _)

theorem leaves_releaseUpTo (from_ a : Nat) (q : QueueId) (n : Nat) (b : Block) : Leaves (.host :: releaseParts) [] b (releaseUpTo from_ a q n b) := by
  induction n generalizing b with
  | zero => exact .refl _ _ b
  | succ n ih =>
    unfold releaseUpTo
    split
    · exact .refl _ _ b
    · split
      · exact (((Leaves.refl _ _ b).modQueue _ _ (by decide)).of_part (leaves_streamRelease ..) (by decide) (List.nil_subset _)).trans (ih _)
      · exact .refl _ _ b

theorem releaseUpTo_nil {from_ a n : Nat} (h : b.host.queues[q].slots = []) : releaseUpTo from_ a q (n + 1) b = b := by
  simp only [releaseUpTo, h]

theorem releaseUpTo_cons {from_ a n end_ c : Nat} {rest : List (Nat × Nat)} (h : b.host.queues[q].slots = (end_, c) :: rest) :
    releaseUpTo from_ a q (n + 1) b = if (end_ + 2 ^ 64 - from_) % 2 ^ 64 ≤ a then
      releaseUpTo from_ a q n ((b.modQueue q fun x => { x with slots := rest }).streamRelease (Fin.ofNat 32 c)) else b := by
  simp only [releaseUpTo, h]

/-- Once every slot that ends at or before A is released, the oldest that waits ends beyond it. -/
theorem releaseUpTo_oldest (from_ a : Nat) (q : QueueId) (n : Nat) (b : Block) (hn : b.host.queues[q].slots.length ≤ n) (x : Nat × Nat)
    (hx : (releaseUpTo from_ a q n b).host.queues[q].slots.head? = some x) : a < (x.1 + 2 ^ 64 - from_) % 2 ^ 64 := by
  induction n generalizing b with
  | zero =>
    have hnil : b.host.queues[q].slots = [] := List.length_eq_zero_iff.mp (Nat.le_zero.mp hn)
    have hx' : b.host.queues[q].slots.head? = some x := hx
    rw [hnil] at hx'
    exact absurd hx' (by simp)
  | succ n ih =>
    cases hslots : b.host.queues[q].slots with
    | nil =>
      rw [releaseUpTo_nil hslots, hslots] at hx
      exact absurd hx (by simp)
    | cons y rest =>
      obtain ⟨end_, c⟩ := y
      rw [releaseUpTo_cons hslots] at hx
      split at hx
      · refine ih _ ?_ hx
        have hhost : ((b.modQueue q fun x => { x with slots := rest }).streamRelease (Fin.ofNat 32 c)).host = (b.modQueue q fun x => { x with slots := rest }).host :=
          (leaves_streamRelease ..).host (by decide)
        have hrest : (b.modQueue q fun x => { x with slots := rest }).host.queues[q].slots = rest := congrArg Queue.slots (queues_modQueue_same ..)
        rw [hhost, hrest]
        rw [hslots] at hn
        exact Nat.le_of_succ_le_succ hn
      · next hlate =>
        rw [hslots] at hx
        rw [← Option.some.inj hx]
        exact Nat.lt_of_not_le hlate

/-- The position taken, with its time. -/
def ackMoved (q : QueueId) (a : Nat) (moved : Bool) (b : Block) : Block :=
  if moved then (b.setReg (Obj.hostQueueAckPos q) a).modQueue q fun x => { x with movedAt := b.now, stalled := false } else b.setReg (Obj.hostQueueAckPos q) a

/-- The position taken, with the slots that end before it released. -/
def ackTaken (q : QueueId) (a : Nat) (b : Block) : Block :=
  let by_ := (a + 2 ^ 64 - b.queueA q) % 2 ^ 64
  releaseUpTo (b.queueA q) by_ q (b.ackMoved q a (by_ != 0)).host.queues[q].slots.length (b.ackMoved q a (by_ != 0))

theorem ackWrite_far {a : Nat} (h : b.queueFill q < (a + 2 ^ 64 - b.queueA q) % 2 ^ 64) : b.ackWrite q a r = (b.bump Obj.hostAckRejected).answered r .ok :=
  (if_pos h).trans (answerFrom_ok ..)

theorem ackWrite_near {a : Nat} (h : (a + 2 ^ 64 - b.queueA q) % 2 ^ 64 ≤ b.queueFill q) : b.ackWrite q a r = (b.ackTaken q a).answered r .ok :=
  (if_neg (Nat.not_lt.mpr h)).trans (answerFrom_ok ..)

theorem leaves_ackMoved (q : QueueId) (a : Nat) (moved : Bool) (b : Block) : Leaves [.host] [Obj.hostQueueAckPos q] b (b.ackMoved q a moved) := by
  unfold ackMoved
  split
  · exact ((Leaves.refl _ _ b).setReg _ _ (by simp)).modQueue _ _ (by simp)
  · exact (Leaves.refl _ _ b).setReg _ _ (by simp)

theorem reg_ackMoved (q : QueueId) {a : Nat} (ha : a < 2 ^ 64) (moved : Bool) (b : Block) : (b.ackMoved q a moved).reg (Obj.hostQueueAckPos q) = a := by
  have hset : (b.setReg (Obj.hostQueueAckPos q) a).reg (Obj.hostQueueAckPos q) = a := (reg_setReg_self ..).trans (Nat.mod_eq_of_lt ha)
  unfold ackMoved
  split
  · exact hset
  · exact hset

theorem leaves_ackTaken (q : QueueId) (a : Nat) (b : Block) : Leaves [.host, .dma, .capture, .ring, .mem] [Obj.hostQueueAckPos q] b (b.ackTaken q a) :=
  ((Leaves.refl _ _ b).of_part (leaves_ackMoved ..) (by decide) (List.Subset.refl _)).of_part (leaves_releaseUpTo ..) (by decide) (List.nil_subset _)

theorem reg_ackTaken (q : QueueId) {a : Nat} (ha : a < 2 ^ 64) (b : Block) : (b.ackTaken q a).reg (Obj.hostQueueAckPos q) = a :=
  ((leaves_releaseUpTo ..).reg _ (by simp)).trans (reg_ackMoved q ha _ b)

/-! ## The timers of a queue (R449, R452) -/

theorem coalesceTimer_passed {u : Time} (hu : b.host.queues[q].unsignalled = some u) (hn : b.reg (Obj.hostQueueCoalesceUs q) ≠ 0)
    (hp : passed u (b.reg (Obj.hostQueueCoalesceUs q) * tUs) b.now = true) :
    b.coalesceTimer q = (b.modQueue q fun x => { x with signalled := b.queueW q, unsignalled := none }).fireCause (8 + q.val) := by
  unfold coalesceTimer
  rw [hu]
  refine if_neg ?_
  rw [hp]
  rintro (h | h)
  · exact hn h
  · exact absurd h (by decide)

theorem stallTimer_passed (withMove : Bool) (hn : b.reg (Obj.hostQueueStallUs q) ≠ 0) (hs : b.host.queues[q].stalled = false) (hf : b.queueFill q ≠ 0)
    (hp : passed b.host.queues[q].movedAt (b.reg (Obj.hostQueueStallUs q) * tUs) b.now = true) :
    b.stallTimer q withMove = if withMove then b.bump Obj.hostNearMisses
      else ((b.modQueue q fun x => { x with stalled := true }).bump Obj.hostStalls).raise 840 := by
  refine if_neg ?_
  rw [hp, hs]
  rintro (h | h | h | h)
  · exact hn h
  · exact absurd h (by decide)
  · exact hf h
  · exact absurd h (by decide)

end

end Sys2Proof.Machine.Block

namespace Sys2Proof

open Machine Machine.Block

/-- Settles O47: a queue's write or timer is its one operation, and slots are released from the oldest on. -/
theorem queuesDeliver : Obligations.QueuesDeliver := by
  unfold Obligations.QueuesDeliver
  intro t r q s b asked
  have hasked {o : Obj} {v : Nat} (h : asked o v) : QueueAsked o v (s.b.at_ t) r := by
    cases r with
    | some x => exact h
    | none => exact h
  refine ⟨fun ha he hsize => ?_, fun ha => ?_, fun hup hm he => ?_, fun hup hm he => ?_, ?_,
    fun u hu hn hp => ?_, fun hn hs hf hp => ⟨?_, ?_⟩⟩
  · obtain ⟨h1, h2, h3⟩ := reg_queueStarted q b
    have hq : ((b.queueStarted q).answered r .ok).host.queues = (b.queueBegun q).host.queues :=
      (queues_answered ..).trans (congrArg HostPort.queues (host_queueStarted q b))
    have hown : ((b.queueStarted q).answered r .ok).host.queues[q] = _ := (congrArg (·[q]) hq).trans (queues_modQueue_same ..)
    refine ⟨_, does_of_run (f := fun b => b.queueWrite q (Obj.hostQueueEnable q) 0x0C 4 1 r (Env.meeting false)) rfl
      ((queueWrite_enable (hasked ha)).trans (queueEnable_starts he hsize)), (reg_answered ..).trans h1, (reg_answered ..).trans h2,
      (reg_answered ..).trans h3, congrArg Queue.slots hown, congrArg Queue.open_ hown, (leaves_queueStarted q b).answered r .ok, fun z hz => ?_, fun x hx => ?_⟩
    · exact (congrArg (·[z]) hq).trans (queues_modQueue_other hz ..)
    · subst hx
      exact reply_answered ..
  · exact does_of_run (f := fun b => b.queueWrite q (Obj.hostQueueEnable q) 0x0C 4 0 r (Env.meeting false)) rfl
      ((queueWrite_disable (hasked ha)).trans (answerFrom_ok ..))
  · exact does_of_run (f := fun b => b.barWrite (0x3000C + 64 * q.val) 4 (2 + b.reg (Obj.hostQueueEnable q.val)) [] Env.quiet) rfl
      (errorClear_enabled hup hm he)
  · exact does_of_run (f := fun b => b.barWrite (0x3000C + 64 * q.val) 4 (2 + b.reg (Obj.hostQueueEnable q.val)) [] Env.quiet) rfl
      (errorClear_disabled hup hm he)
  · intro position ha by_
    refine ⟨fun hfar => does_of_run (f := fun b => b.queueWrite q (Obj.hostQueueAckPos q) 0x18 8 position.toNat r Env.quiet) rfl
      ((queueWrite_ack (hasked ha)).trans (ackWrite_far hfar)), fun hnear => ?_⟩
    obtain ⟨-, -, h3⟩ := queuePos_keys q
    have hleft := leaves_ackTaken q position.toNat b
    refine ⟨_, does_of_run (f := fun b => b.queueWrite q (Obj.hostQueueAckPos q) 0x18 8 position.toNat r Env.quiet) rfl
      ((queueWrite_ack (hasked ha)).trans (ackWrite_near hnear)), (reg_answered ..).trans (reg_ackTaken q position.isLt b), ?_, fun x hx => ?_,
      hleft.answered r .ok⟩
    · exact (reg_answered ..).trans (hleft.reg _ fun x hx => by rw [List.mem_singleton.mp hx]; exact h3)
    · rw [queues_answered] at hx
      exact releaseUpTo_oldest _ _ q _ _ (Nat.le_refl _) x hx
  · exact does_of_run (f := fun b => b.coalesceTimer q) rfl (coalesceTimer_passed hu hn hp)
  · exact does_of_run (f := fun b => b.stallTimer q false) rfl ((stallTimer_passed false hn hs hf hp).trans (if_neg Bool.false_ne_true))
  · exact does_of_run (f := fun b => b.stallTimer q true) rfl ((stallTimer_passed true hn hs hf hp).trans (if_pos rfl))

end Sys2Proof

/-! # NMT, bus errors and the heartbeat (R462 to R464, R469, R471, R485)

Reset Communication is four moves: the node-ID is derived, the COB-IDs that read their default follow it, the controller begins anew, and
NMT enters pre-operational through initialisation. Each has its frame, and only the last two touch the node's state. -/

namespace Sys2Proof.Machine.Block

variable {b : Block} {node : Nat}

/-! ## NMT commands -/

theorem nmtAt_reached {f : Block → Block} (hon : b.canOn = true) (hnode : node = 0 ∨ node = b.can.nodeId) : b.nmtAt node f = f b :=
  if_pos (by rcases hnode with h | h <;> simp [hon, h])

theorem nmtAt_other {f : Block → Block} (hzero : node ≠ 0) (hown : node ≠ b.can.nodeId) : b.nmtAt node f = b :=
  if_neg (by simp [hzero, hown])

theorem nmtTo_of_on {n : Nmt} (hon : b.canOn = true) (hinit : b.can.nmt ≠ .initialisation) : b.nmtTo n = b.setNmt n :=
  if_pos (by simp [hon, hinit])

/-! ## The COB-IDs that hold the node-ID -/

/-- The objects of the COB-IDs that follow the node-ID. -/
def nodeCobObjs : List Obj := (nodeCobIds 0).map (·.1)

theorem nodeCobIds_objs (node : Nat) : (nodeCobIds node).map (·.1) = nodeCobObjs := by
  simp only [nodeCobObjs, nodeCobIds, List.map_cons, List.map_flatMap, List.map_nil]

theorem mem_nodeCobObjs {p : Obj × Nat} (hp : p ∈ nodeCobIds node) : p.1 ∈ nodeCobObjs :=
  nodeCobIds_objs node ▸ List.mem_map_of_mem hp

theorem leaves_nodeChange (node : Nat) (b : Block) : Leaves [.can] nodeCobObjs b (b.nodeChange node) := by
  unfold nodeChange
  extract_lets old c
  refine Leaves.modCan ?_ (fun x => { x with nodeId := node }) (by decide)
  refine List.foldlRecOn (motive := Leaves [.can] nodeCobObjs b) _ _ (Leaves.refl _ _ b) fun c hc p hp => ?_
  have hobj := mem_nodeCobObjs (List.of_mem_zip hp).1
  split
  · exact hc.setReg _ _ hobj
  · exact hc

theorem nodeChange_nodeId (node : Nat) (b : Block) : (b.nodeChange node).can.nodeId = node := rfl

/-! ## Reset Communication -/

/-- The registers that Reset Communication touches. -/
def resetCommRegs : List Obj := [Obj.canNodeId, Obj.canTec, Obj.canRec] ++ nodeCobObjs

/-- The node-ID is read again (R463). -/
def nodeDerived (b : Block) : Block := if b.levelInForce Obj.mgmtLevel = 1 then b else b.setReg Obj.canNodeId b.derivedNode

/-- Both error counters at 0. -/
def errorsZeroed (b : Block) : Block := (b.setReg Obj.canTec 0).setReg Obj.canRec 0

/-- NMT passes through initialisation, and the boot-up message tells it (R462). -/
def bootedUp (b : Block) : Block := let c := (b.setNmt .initialisation).setNmt .preOperational; c.emit (.bootUp c.can.nodeId)

/-- The node-ID that is read again comes in force (R463). -/
def nodeTaken (b : Block) : Block := b.nodeDerived.nodeChange (b.nodeDerived.reg Obj.canNodeId)

/-- The controller begins anew with the rates of the dictionary, and with its errors forgotten (R464, R471). -/
def commAnew (b : Block) : Block := errorsZeroed <| b.modCan fun x =>
  { x with nominalRate := b.reg Obj.canNominalRate, dataRate := b.reg Obj.canDataRate, nominalSp := b.reg Obj.canNominalSp,
           dataSp := b.reg Obj.canDataSp, busOff := false, errorPassive := false, standby := false, sessions := [], emcyQueue := [],
           inhibitUntil := none, tpdos := Vector.replicate 8 ⟨0, none, none⟩, heartbeatSent := some b.now }

theorem resetComm_eq (b : Block) : b.resetComm = b.nodeTaken.commAnew.bootedUp := by
  simp only [resetComm, nodeTaken, nodeDerived, commAnew, errorsZeroed, bootedUp]

theorem leaves_nodeDerived (b : Block) : Leaves [.can] resetCommRegs b b.nodeDerived := by
  unfold nodeDerived
  split
  · exact .refl ..
  · exact (Leaves.refl ..).setReg _ _ (by decide)

theorem leaves_errorsZeroed (b : Block) : Leaves [.can] [Obj.canTec, Obj.canRec] b b.errorsZeroed :=
  ((Leaves.refl ..).setReg _ _ (by decide)).setReg _ _ (by decide)

theorem tec_errorsZeroed (b : Block) : b.errorsZeroed.reg Obj.canTec = 0 :=
  (reg_setReg_ne _ _ _ _ (by decide)).trans (reg_setReg_self ..)

theorem rec_errorsZeroed (b : Block) : b.errorsZeroed.reg Obj.canRec = 0 := reg_setReg_self ..

@[simp] theorem setNmt_can (n : Nmt) (b : Block) : (b.setNmt n).can = { b.can with nmt := n } := by
  simp [setNmt, raiseIf_keeps, modCan]

theorem leaves_setNmt (n : Nmt) (b : Block) : Leaves [.can] [] b (b.setNmt n) := ((Leaves.refl ..).modCan _ (by decide)).raiseIf _ _

theorem leaves_bootedUp (b : Block) : Leaves [.can] [] b b.bootedUp := ((leaves_setNmt ..).trans (leaves_setNmt ..)).emit _

theorem bootedUp_can (b : Block) : b.bootedUp.can = { b.can with nmt := .preOperational } := by simp [bootedUp]

theorem bootedUp_tells (b : Block) : Out.bootUp b.bootedUp.can.nodeId ∈ b.bootedUp.outs := by simp [bootedUp]

theorem reg_bootedUp (b : Block) (o : Obj) : b.bootedUp.reg o = b.reg o := (leaves_bootedUp b).reg o (by simp)

theorem leaves_nodeTaken (b : Block) : Leaves [.can] resetCommRegs b b.nodeTaken :=
  (leaves_nodeDerived b).of_part (leaves_nodeChange ..) (List.Subset.refl _) (List.subset_append_right ..)

theorem leaves_commAnew (b : Block) : Leaves [.can] [Obj.canTec, Obj.canRec] b b.commAnew :=
  ((Leaves.refl ..).modCan _ (by decide)).trans (leaves_errorsZeroed _)

theorem leaves_resetComm (b : Block) : Leaves [.can] resetCommRegs b b.resetComm := by
  rw [resetComm_eq]
  have hanew : Leaves [.can] resetCommRegs b b.nodeTaken.commAnew := (leaves_nodeTaken b).of_part (leaves_commAnew _) (List.Subset.refl _)
    (List.Subset.trans (List.subset_cons_self ..) (List.subset_append_left ..))
  exact hanew.of_part (leaves_bootedUp _) (List.Subset.refl _) (List.nil_subset _)

theorem commAnew_can (b : Block) : b.commAnew.can.nodeId = b.can.nodeId ∧ b.commAnew.can.sessions = [] ∧
    b.commAnew.can.nominalRate = b.reg Obj.canNominalRate ∧ b.commAnew.can.dataRate = b.reg Obj.canDataRate := ⟨rfl, rfl, rfl, rfl⟩

theorem resetComm_can (b : Block) : b.resetComm.can.nmt = .preOperational ∧ b.resetComm.can.nodeId = b.nodeTaken.can.nodeId ∧
    b.resetComm.can.sessions = [] ∧ b.resetComm.can.nominalRate = b.nodeTaken.reg Obj.canNominalRate ∧
    b.resetComm.can.dataRate = b.nodeTaken.reg Obj.canDataRate := by
  have hanew := commAnew_can b.nodeTaken
  rw [resetComm_eq, bootedUp_can]
  generalize b.nodeTaken.commAnew = c at hanew
  exact ⟨rfl, hanew⟩

/-- What the controller begins anew with stays as it was read. -/
theorem reg_resetComm {o : Obj} (htec : o.key ≠ Obj.canTec.key) (hrec : o.key ≠ Obj.canRec.key) :
    b.resetComm.reg o = b.nodeTaken.reg o := by
  rw [resetComm_eq, reg_bootedUp]
  refine (leaves_commAnew _).reg o fun x hx => ?_
  rcases List.mem_pair.mp hx with rfl | rfl
  · exact htec
  · exact hrec

theorem nodeId_nodeTaken (b : Block) : b.nodeTaken.can.nodeId = b.nodeDerived.reg Obj.canNodeId := nodeChange_nodeId ..

theorem canNodeId_key_ne : ∀ x ∈ nodeCobObjs, Obj.canNodeId.key ≠ x.key := by
  decide +kernel

theorem nodeId_resetComm (b : Block) : b.resetComm.can.nodeId = b.nodeDerived.reg Obj.canNodeId := by
  obtain ⟨-, hnode, -⟩ := resetComm_can b
  rw [hnode, nodeId_nodeTaken]

theorem canNodeId_resetComm (b : Block) : b.resetComm.can.nodeId = b.resetComm.reg Obj.canNodeId := by
  rw [nodeId_resetComm, reg_resetComm (by decide) (by decide)]
  exact ((leaves_nodeChange _ b.nodeDerived).reg Obj.canNodeId canNodeId_key_ne).symm

theorem nominalRate_resetComm (b : Block) : b.resetComm.can.nominalRate = b.resetComm.reg Obj.canNominalRate := by
  obtain ⟨-, -, -, hrate, -⟩ := resetComm_can b
  rw [hrate, reg_resetComm (by decide) (by decide)]

theorem dataRate_resetComm (b : Block) : b.resetComm.can.dataRate = b.resetComm.reg Obj.canDataRate := by
  obtain ⟨-, -, -, -, hrate⟩ := resetComm_can b
  rw [hrate, reg_resetComm (by decide) (by decide)]

theorem nodeId_resetComm_derived (hlevel : b.levelInForce Obj.mgmtLevel ≠ 1) :
    b.resetComm.can.nodeId = (if b.reg Obj.ringPierNumber = 0xFF then 127 else 1 + b.reg Obj.ringPierNumber) % 256 := by
  rw [nodeId_resetComm, nodeDerived, if_neg hlevel]
  exact reg_setReg_self ..

theorem tec_resetComm (b : Block) : b.resetComm.reg Obj.canTec = 0 := by
  rw [resetComm_eq, reg_bootedUp]
  exact tec_errorsZeroed _

theorem rec_resetComm (b : Block) : b.resetComm.reg Obj.canRec = 0 := by
  rw [resetComm_eq, reg_bootedUp]
  exact rec_errorsZeroed _

theorem resetComm_tells (b : Block) : Out.bootUp b.resetComm.can.nodeId ∈ b.resetComm.outs := by
  rw [resetComm_eq]
  exact bootedUp_tells _

/-! ## Emergency messages of the bus states -/

/-- A message changes how the messages wait, and nothing that the controller shows. -/
theorem emcy_can (m : Emcy) (b : Block) : (b.emcy m).can.errorRegister = b.can.errorRegister ∧
    (b.emcy m).can.errorPassive = b.can.errorPassive ∧ (b.emcy m).can.busOff = b.can.busOff := by
  have now_can (c : Block) : (c.emcyNow m).can.errorRegister = c.can.errorRegister ∧
      (c.emcyNow m).can.errorPassive = c.can.errorPassive ∧ (c.emcyNow m).can.busOff = c.can.busOff := ⟨rfl, rfl, rfl⟩
  unfold emcy
  split
  · exact ⟨rfl, rfl, rfl⟩
  split
  · exact now_can b
  split
  · exact now_can b
  split <;> exact ⟨rfl, rfl, rfl⟩

theorem emcyCause_can (code bitNo entry source : Nat) (b : Block) :
    (b.emcyCause code bitNo entry source).can.errorRegister = setBit (setBit b.can.errorRegister bitNo) 0 ∧
    (b.emcyCause code bitNo entry source).can.errorPassive = b.can.errorPassive ∧
    (b.emcyCause code bitNo entry source).can.busOff = b.can.busOff := emcy_can ..

theorem emcyCause_fired {k code bitNo entry source : Nat} (h : b.Fired k) : (b.emcyCause code bitNo entry source).Fired k :=
  emcyCause_outs _ _ _ _ _ _ h

theorem raise_fired (k : Nat) (b : Block) : (b.raise k).Fired k := by simp [Fired]

/-! ## The states of the bus -/

theorem errorPassive_of_on {tec rec_ : Nat} (hon : b.canOn = true) : b.errorPassive tec rec_ =
    ((((b.setReg Obj.canTec (min tec 255)).setReg Obj.canRec (min rec_ 255)).modCan fun x => { x with errorPassive := true }).raise
      929).emcyCause 0x8120 4 0 929 := if_neg (by simp [hon])

theorem busRecover_of_auto (hoff : b.can.busOff = true) (hserved : b.served = true) (hauto : b.reg Obj.canAutoRecover ≠ 0) :
    b.busRecover = (((b.modCan fun x => { x with busOff := false, errorPassive := false }).errorsZeroed).raise 931).emcyCause 0x8140 4 0 931 :=
  if_neg (by simp [hoff, hserved, isSet_iff.mpr hauto])

theorem busRecover_of_manual (hauto : b.reg Obj.canAutoRecover = 0) : b.busRecover = b := if_pos (by simp [isSet, hauto])

theorem leaves_errorPassive {tec rec_ : Nat} (hon : b.canOn = true) : Leaves [.can] [Obj.canTec, Obj.canRec] b (b.errorPassive tec rec_) := by
  rw [errorPassive_of_on hon]
  have hcounters := ((Leaves.refl [.can] [Obj.canTec, Obj.canRec] b).setReg Obj.canTec (min tec 255) (by decide)).setReg Obj.canRec
    (min rec_ 255) (by decide)
  exact ((hcounters.modCan (fun x => { x with errorPassive := true }) (by decide)).raise _).of_part (leaves_emcyCause ..) (List.Subset.refl _) (List.nil_subset _)

theorem leaves_busRecover (hoff : b.can.busOff = true) (hserved : b.served = true) (hauto : b.reg Obj.canAutoRecover ≠ 0) :
    Leaves [.can] [Obj.canTec, Obj.canRec] b b.busRecover := by
  rw [busRecover_of_auto hoff hserved hauto]
  have hzeroed := ((Leaves.refl [.can] [Obj.canTec, Obj.canRec] b).modCan (fun x => { x with busOff := false, errorPassive := false })
    (by decide)).trans (leaves_errorsZeroed _)
  exact (hzeroed.raise _).of_part (leaves_emcyCause ..) (List.Subset.refl _) (List.nil_subset _)

theorem heartbeat_begins (hon : b.canOn = true) (hinit : b.can.nmt ≠ .initialisation) (hms : b.reg Obj.commHeartbeat ≠ 0)
    (hsent : b.can.heartbeatSent = none) :
    b.heartbeat = (b.emit (.heartbeat b.can.nodeId b.can.nmt.code)).modCan fun x => { x with heartbeatSent := some b.now } := by
  unfold heartbeat
  rw [if_neg (by simp [hms, hon, hinit]), hsent]

end Sys2Proof.Machine.Block

namespace Sys2Proof
open Machine Machine.Block

/-- Settles O49: an NMT command for this node is one change of state or Reset Communication, whose registers are those that it read; the
states of the bus are equations of the controller, and their messages leave what it shows. -/
theorem nmtAndBusErrors : Obligations.NmtAndBusErrors := by
  unfold Obligations.NmtAndBusErrors
  refine ⟨fun t node s => ?nmt, fun t s => ?bus⟩
  case nmt =>
    intro b into
    refine ⟨fun hon hinit hnode => ⟨?_, ?_, ?_⟩, fun hon hnode => ⟨⟨b.resetComm, ?_, ?_⟩, fun hkeep => ⟨b.resetComm, ?_, ?_⟩, fun hreset => ?_⟩,
      fun hzero hown => ⟨?_, ?_, ?_, ?_, ?_⟩⟩
    iterate 3 exact does_of_run rfl ((nmtAt_reached hon hnode).trans (nmtTo_of_on hon hinit))
    · exact does_of_run rfl (nmtAt_reached hon hnode)
    · obtain ⟨hnmt, -, hsessions, -⟩ := resetComm_can b
      exact ⟨hnmt, canNodeId_resetComm b, hsessions, nominalRate_resetComm b, dataRate_resetComm b,
        resetComm_tells b, nodeId_resetComm_derived, leaves_resetComm b, tec_resetComm b, rec_resetComm b⟩
    · exact does_of_run rfl ((nmtAt_reached hon hnode).trans (if_neg (by simp [isSet, hkeep])))
    · exact does_of_run rfl (nmtAt_reached hon hnode)
    · exact does_of_run rfl ((nmtAt_reached hon hnode).trans (if_pos (isSet_iff.mpr hreset)))
    iterate 5 exact does_of_run rfl (nmtAt_other hzero hown)
  case bus =>
    intro b
    refine ⟨fun tec rec_ hon => ⟨b.errorPassive tec.toNat rec_.toNat, does_of_run rfl rfl, ?_, ?_, ?_, ?_, ?_, leaves_errorPassive hon⟩,
      fun hon => does_of_run rfl (if_neg (by simp [b, hon])),
      fun hoff hserved hauto => ⟨b.busRecover, does_of_run rfl rfl, ?_, ?_, ?_, ?_, ?_, leaves_busRecover hoff hserved hauto⟩,
      fun _ hauto => does_of_run rfl (busRecover_of_manual hauto),
      fun hon hinit hms hsent => does_of_run rfl (heartbeat_begins hon hinit hms hsent)⟩
    case _ =>
      have htec : min tec.toNat 255 % 2 ^ Obj.canTec.ty.bits = tec.toNat := by
        rw [show Obj.canTec.ty.bits = 8 from rfl]; have := tec.isLt; omega
      rw [errorPassive_of_on hon, emcyCause_reg]
      exact ((reg_setReg_ne _ _ _ _ (by decide)).trans (reg_setReg_self ..)).trans htec
    case _ =>
      have hrec : min rec_.toNat 255 % 2 ^ Obj.canRec.ty.bits = rec_.toNat := by
        rw [show Obj.canRec.ty.bits = 8 from rfl]; have := rec_.isLt; omega
      rw [errorPassive_of_on hon, emcyCause_reg]
      exact (reg_setReg_self ..).trans hrec
    case _ => rw [errorPassive_of_on hon, (emcyCause_can ..).2.1]; rfl
    case _ => rw [errorPassive_of_on hon, (emcyCause_can ..).1]; simp [testBit_setBit]
    case _ => rw [errorPassive_of_on hon]; exact emcyCause_fired (raise_fired ..)
    case _ => rw [busRecover_of_auto hoff hserved hauto, (emcyCause_can ..).2.2]; rfl
    case _ => rw [busRecover_of_auto hoff hserved hauto, (emcyCause_can ..).2.1]; rfl
    case _ => rw [busRecover_of_auto hoff hserved hauto, emcyCause_reg]; exact tec_errorsZeroed _
    case _ => rw [busRecover_of_auto hoff hserved hauto, emcyCause_reg]; exact rec_errorsZeroed _
    case _ => rw [busRecover_of_auto hoff hserved hauto]; exact emcyCause_fired (raise_fired ..)

end Sys2Proof

/-! # USDO and PDOs (R462, R465 to R468)

A client's session, a value in segments, and a TPDO that leaves are each stated once as what they do to the block. An entry of an RPDO is
executed with nothing told before it, so a store and an answer are shown to add to what was told and to read nothing of it. -/

namespace Sys2Proof.Machine

/-- A fold in which only one element acts. -/
theorem foldl_one {α β : Type} {f : β → α → β} {l : List α} {a : α} {c : β} (ha : a ∈ l) (hn : l.Nodup)
    (hbefore : ∀ x, x ≠ a → f c x = c) (hafter : ∀ x, x ≠ a → f (f c a) x = f c a) : l.foldl f c = f c a := by
  have stays {d : β} {k : List α} (hk : a ∉ k) (hd : ∀ x, x ≠ a → f d x = d) : k.foldl f d = d :=
    List.foldlRecOn (motive := (· = d)) k f rfl fun e he x hx => he ▸ (hd x (ne_of_mem_of_not_mem hx hk))
  obtain ⟨s, t, rfl⟩ := List.append_of_mem ha
  have hs : a ∉ s := fun h => List.disjoint_of_nodup_append hn h List.mem_cons_self
  have ht : a ∉ t := (List.nodup_cons.mp hn.of_append_right).1
  rw [List.foldl_append, stays hs hbefore, List.foldl_cons, stays ht hafter]

namespace Block

variable {b : Block}

/-! ## Sessions of the USDO server -/

/-- The session of a client is open. -/
def sessionOpen (client : Fin 128) (b : Block) : Block :=
  if b.can.sessions.contains client.val then b else b.modCan fun x => { x with sessions := x.sessions ++ [client.val] }

theorem usdoSession_open {client : Fin 128} {f : Block → Block} (hs : b.usdoServes = true)
    (hroom : client.val ∈ b.can.sessions ∨ b.can.sessions.length < 4) : b.usdoSession client f = f (b.sessionOpen client) := by
  unfold usdoSession sessionOpen
  rw [if_neg (by simp [hs])]
  split
  next hin => rfl
  next hin => rw [if_neg (Nat.not_le.mpr (hroom.resolve_left fun h => hin (List.contains_iff_mem.mpr h)))]

theorem usdoSession_full {client : Fin 128} {f : Block → Block} (hs : b.usdoServes = true) (hnew : client.val ∉ b.can.sessions)
    (hfull : 4 ≤ b.can.sessions.length) : b.usdoSession client f = b.reply (.can client) (.abort .outOfMemory) := by
  unfold usdoSession
  rw [if_neg (by simp [hs]), if_neg (fun h => hnew (List.contains_iff_mem.mp h)), if_pos hfull]

theorem mem_sessionOpen (client : Fin 128) (b : Block) : client.val ∈ (b.sessionOpen client).can.sessions := by
  unfold sessionOpen
  split
  next hin => exact List.contains_iff_mem.mp hin
  next => simp [modCan]

theorem leaves_sessionOpen (client : Fin 128) (b : Block) : Leaves [.can] [] b (b.sessionOpen client) := by
  unfold sessionOpen
  split
  · exact .refl ..
  · exact (Leaves.refl ..).modCan _ (by decide)

/-- No object shows the sessions. -/
theorem readCodes_sessionOpen (client : Fin 128) (r : Route) (index sub : Nat) (b : Block) :
    (b.sessionOpen client).readCodes r index sub = b.readCodes r index sub := by
  unfold sessionOpen
  split <;> rfl

theorem readFor_sessionOpen (client : Fin 128) (r : Route) (row : Row) (index sub : Nat) (b : Block) :
    (b.sessionOpen client).readFor r row index sub = b.readFor r row index sub := by
  unfold sessionOpen
  split
  · rfl
  · unfold readFor
    rfl

theorem control_sessionOpen (client : Fin 128) (b : Block) : (b.sessionOpen client).control = b.control := by
  unfold sessionOpen
  split <;> rfl

theorem now_sessionOpen (client : Fin 128) (b : Block) : (b.sessionOpen client).now = b.now := (leaves_sessionOpen client b).now

theorem transferOf_sessionOpen (client : Fin 128) (r : Route) (index : Nat) (b : Block) :
    (b.sessionOpen client).transferOf r index = b.transferOf r index := by rw [transferOf, control_sessionOpen, transferOf]

/-! ## Values in segments -/

/-- A transfer takes the place of those of its route and index. -/
def transferOpened (x : Transfer) (b : Block) : Block :=
  (b.transferDrop x.route x.index).modControl fun c => { c with transfers := c.transfers ++ [x] }

theorem transferOf_opened (x : Transfer) (b : Block) : (b.transferOpened x).transferOf x.route x.index = some x := by
  have hdropped : (b.control.transfers.filter fun z => !(z.route == x.route && z.index == x.index)).find?
      (fun z => z.route == x.route && z.index == x.index) = none := by
    refine List.find?_eq_none.mpr fun z hz hkey => ?_
    have hother := (List.mem_filter.mp hz).2
    rw [hkey] at hother
    exact Bool.noConfusion hother
  simp only [transferOf, transferOpened, transferDrop, modControl, List.find?_append, hdropped, Option.none_or]
  exact List.find?_cons_of_pos (by simp)

theorem transferOf_put {x : Transfer} (y : Transfer) (h : b.transferOf y.route y.index = some x) :
    (b.transferPut y).transferOf y.route y.index = some y := by
  have hkey := List.find?_some h
  have hsame : ((fun z : Transfer => z.route == y.route && z.index == y.index) ∘ fun z => if z.route == y.route && z.index == y.index then y else z) =
      fun z => z.route == y.route && z.index == y.index := by
    funext z
    by_cases hz : (z.route == y.route && z.index == y.index) = true
    · rw [Function.comp_apply, if_pos hz, hz, BEq.rfl, BEq.rfl]
      rfl
    · rw [Function.comp_apply, if_neg hz]
  simp only [transferOf, transferPut, modControl, List.find?_map, hsame]
  rw [show b.control.transfers.find? (fun z => z.route == y.route && z.index == y.index) = some x from h, Option.map_some, if_pos hkey]

theorem transferOf_congr {n : Block} (h : n.control = b.control) (r : Route) (index : Nat) : n.transferOf r index = b.transferOf r index := by
  rw [transferOf, h, transferOf]

theorem leaves_transferOpened (x : Transfer) (b : Block) : Leaves [.control] [] b (b.transferOpened x) :=
  ((Leaves.refl ..).modControl _ (by decide)).modControl _ (by decide)

/-- The message that a read in segments begins or goes on with. -/
def segmentSent (client : Fin 128) (y : Transfer) (n : Nat) (b : Block) : Block :=
  let c := b.transferPut { y with bytes := y.bytes.drop n }
  (c.reply (.can client) (.data (y.bytes.take n))).modCan fun x => { x with sessions := c.can.sessions }

theorem readSend_more {client : Fin 128} {y : Transfer} {n : Nat} (hr : y.route = .can client) (hn : n < y.bytes.length) :
    b.readSend y n = b.segmentSent client y n := by
  unfold readSend segmentSent
  rw [if_neg (Nat.not_le.mpr hn), if_neg (Nat.not_le.mpr hn), hr]
  rfl

theorem segmentSent_control (client : Fin 128) (y : Transfer) (n : Nat) (b : Block) :
    (b.segmentSent client y n).control = (b.transferPut { y with bytes := y.bytes.drop n }).control := rfl

theorem segmentSent_sessions (client : Fin 128) (y : Transfer) (n : Nat) (b : Block) :
    (b.segmentSent client y n).can.sessions = b.can.sessions := rfl

theorem segmentSent_answers (client : Fin 128) (y : Transfer) (n : Nat) (b : Block) :
    (b.segmentSent client y n).Answered (.can client) (.data (y.bytes.take n)) := reply_answered (.can client) ..

theorem leaves_segmentSent (client : Fin 128) (y : Transfer) (n : Nat) (b : Block) :
    Leaves [.can, .control] [] b (b.segmentSent client y n) := by
  unfold segmentSent
  generalize hc : b.transferPut { y with bytes := y.bytes.drop n } = c
  have hput : Leaves [.can, .control] [] b c := hc ▸ (Leaves.refl ..).modControl _ (by decide)
  have hreply : Leaves [.can, .control] [] b (c.reply (.can client) (.data (y.bytes.take n))) :=
    (hput.emit (.answer (.can client) (.data (y.bytes.take n)))).modCan (fun x => { x with sessions := x.sessions.filter (· != client.val) })
      (by decide)
  exact hreply.modCan (fun x => { x with sessions := c.can.sessions }) (by decide)

/-- The transfer that a read in segments opens. -/
def readTransfer (r : Route) (row : Row) (index sub : Nat) (b : Block) : Transfer :=
  ⟨r, index, sub, .read, none, b.readFor r row index sub, [], b.now⟩

theorem readPart_first {client : Fin 128} {row : Row} {index sub n : Nat} (hr : findRow index sub = some row)
    (hc : b.readCodes (.can client) index sub = []) (hn : n < (b.readFor (.can client) row index sub).length) :
    b.readPart (.can client) index sub (.first n) =
      (b.transferOpened (b.readTransfer (.can client) row index sub)).segmentSent client (b.readTransfer (.can client) row index sub) n := by
  unfold readPart
  rw [hr, hc]
  exact readSend_more rfl hn

theorem transferOf_segmentSent {client : Fin 128} {y : Transfer} (n : Nat) (hr : y.route = .can client) :
    ((b.transferOpened y).segmentSent client y n).transferOf (.can client) y.index = some { y with bytes := y.bytes.drop n } := by
  rw [transferOf_congr (segmentSent_control ..), ← hr]
  exact transferOf_put { y with bytes := y.bytes.drop n } (transferOf_opened y b)

theorem writePart_last {e : Env} {r : Route} {index sub n : Nat} {data : List Byte} {x : Transfer} (hx : b.transferOf r index = some x)
    (hintime : passed x.lastAt (tSec + 1) b.now = false) :
    b.writePart e r index sub data (.next n true false) = (b.transferDrop r index).dictWrite e r index x.sub (x.bytes ++ data) := by
  unfold writePart transferGoesOn
  simp only [hx, hintime, Bool.and_false, Bool.false_eq_true, if_false, if_true]

/-! ## TPDOs -/

/-- TPDO n as it leaves. -/
def tpdoSent (n : Fin 8) (b : Block) : Block :=
  (b.emit (.tpdo n.val (b.tpdoBytes n.val))).modTpdo n fun x => { x with syncs := 0, lastData := some (b.tpdoBytes n.val), lastSent := some b.now }

/-- A TPDO that may leave: PDOs run, its COB-ID is valid, and it maps something. -/
def TpdoReady (n : Fin 8) (b : Block) : Prop :=
  b.pdosRun = true ∧ (b.reg (Obj.tpdoCobId n)).testBit 31 = false ∧ b.reg (Obj.tpdoMapCount n) ≠ 0

theorem tpdoSend_of_ready {n : Fin 8} (h : b.TpdoReady n) : b.tpdoSend n = b.tpdoSent n := by
  obtain ⟨hrun, hvalid, hcount⟩ := h
  exact if_neg (by simp [hrun, tpdoValid, hvalid, hcount])

theorem tpdoEvent_tpdoSent (n k : Fin 8) (b : Block) : (b.tpdoSent n).tpdoEvent k = b.tpdoEvent k := rfl

theorem taskDo_tpdo (n : Fin 8) (st : Time) (e : Env) (mv : List Nat) (b : Block) : b.taskDo (464 + n.val) st e mv = b.tpdoTask n e.same := by
  have hn := n.isLt
  have hk : Fin.ofNat 8 (464 + n.val - 464) = n := by rw [Nat.add_sub_cancel_left]; exact Fin.cast_val_eq_self n
  rw [taskDo_late (by omega), if_neg (by omega), if_neg (by omega), if_pos (by omega), hk]

theorem tpdoTask_sends {n : Fin 8} (h : b.TpdoReady n) (ht : b.reg (Obj.tpdoType n) = 0) : b.tpdoTask n false = b.tpdoSent n :=
  (if_neg (not_not_intro ht)).trans (tpdoSend_of_ready h)

theorem tpdoTimer_sends {n : Fin 8} (h : b.TpdoReady n) (hevent : b.tpdoEvent n = true) (hms : b.reg (Obj.tpdoEventTimer n) ≠ 0)
    (hlast : b.can.tpdos[n].lastSent = none) : b.tpdoTimer n = b.tpdoSent n := by
  unfold tpdoTimer
  rw [hlast]
  exact (if_pos (by simp [hevent, hms])).trans (tpdoSend_of_ready h)

theorem tpdoCheck_sends {n : Fin 8} (h : b.TpdoReady n) (hevent : b.tpdoEvent n = true) (hlast : b.can.tpdos[n].lastSent = none)
    (hdata : b.can.tpdos[n].lastData = none) (hother : ∀ k : Fin 8, k ≠ n → b.tpdoEvent k = false) : b.tpdoCheck = b.tpdoSent n := by
  have hfree : b.tpdoInhibited n = false := by rw [tpdoInhibited, hlast]
  have hact : (if b.tpdoEvent n && !b.tpdoInhibited n && b.can.tpdos[n].lastData != some (b.tpdoBytes n) then b.tpdoSend n else b) =
      b.tpdoSent n := (if_pos (by rw [hevent, hfree, hdata]; rfl)).trans (tpdoSend_of_ready h)
  refine (foldl_one (List.mem_finRange n) (List.nodup_finRange 8) (fun k hk => if_neg (by simp [hother k hk])) fun k hk => ?_).trans hact
  rw [hact]
  exact if_neg (by simp [tpdoEvent_tpdoSent, hother k hk])

/-- What a SYNC does to one TPDO (R467). -/
def syncOne (b : Block) (n : Fin 8) : Block :=
  if b.reg (Obj.tpdoType n) = 0 ∨ 240 < b.reg (Obj.tpdoType n) then b
  else if b.reg (Obj.tpdoType n) ≤ b.can.tpdos[n].syncs + 1 then b.tpdoSend n
  else b.modTpdo n fun x => { x with syncs := x.syncs + 1 }

theorem canSync_one {n : Fin 8} {c : Block} (hrun : b.pdosRun = true) (hother : ∀ k : Fin 8, k ≠ n → b.reg (Obj.tpdoType k) = 0)
    (hact : b.syncOne n = c) (hregs : c.regs = b.regs) : b.canSync = c := by
  have hfold : b.canSync = (List.finRange 8).foldl syncOne b := if_neg (by simp [hrun])
  have hone := foldl_one (f := syncOne) (c := b) (List.mem_finRange n) (List.nodup_finRange 8) (fun k hk => if_pos (.inl (hother k hk)))
    fun k hk => if_pos (.inl (by rw [hact, reg_congr_regs hregs]; exact hother k hk))
  rw [hfold, hone, hact]

theorem canSync_sends {n : Fin 8} (h : b.TpdoReady n) (ht : b.reg (Obj.tpdoType n) = 1)
    (hother : ∀ k : Fin 8, k ≠ n → b.reg (Obj.tpdoType k) = 0) : b.canSync = b.tpdoSent n := by
  refine canSync_one h.1 hother ?_ rfl
  rw [syncOne, ht, if_neg (by decide), if_pos (Nat.le_add_left ..), tpdoSend_of_ready h]

theorem canSync_counts {n : Fin 8} (hrun : b.pdosRun = true) (ht : b.reg (Obj.tpdoType n) = 2) (hsyncs : b.can.tpdos[n].syncs = 0)
    (hother : ∀ k : Fin 8, k ≠ n → b.reg (Obj.tpdoType k) = 0) : b.canSync = b.modTpdo n fun x => { x with syncs := 1 } := by
  refine canSync_one hrun hother ?_ rfl
  rw [syncOne, ht, hsyncs, if_neg (by decide), if_neg (by decide), modTpdo, modTpdo, modCan, modCan, hsyncs]

/-! ## What is told before a write plays no part in it -/

/-- The block with more told before. -/
def toldBefore (l : List Out) (b : Block) : Block := { b with outs := l ++ b.outs }

variable {l : List Out} {h : HeadId}

theorem emit_toldBefore (x : Out) : (b.toldBefore l).emit x = (b.emit x).toldBefore l := by
  simp only [emit, toldBefore, List.append_assoc]

theorem raise_toldBefore (k : Nat) : (b.toldBefore l).raise k = (b.raise k).toldBefore l := by
  simp only [raise, toldBefore, List.append_assoc]

theorem convergedCheck_toldBefore : (b.toldBefore l).convergedCheck h = (b.convergedCheck h).toldBefore l := by
  unfold convergedCheck
  rw [apply_ite (toldBefore l), apply_ite (toldBefore l), ← raise_toldBefore, ← raise_toldBefore]
  rfl

/-- A freeze, or its end, reaches one input (R124). -/
def freezeOne (h : HeadId) (fr : Bool) (b : Block) (s : SegId) : Block :=
  let st := b.video[h].inputs[s].status
  b.setIlvStatus h s (if fr then (if st = 1 then 2 else if st = 0 then 3 else if st = 5 then 3 else st)
    else if st = 2 then 1 else if st = 3 then 0 else st)

theorem freezeOne_toldBefore (fr : Bool) (s : SegId) : (b.toldBefore l).freezeOne h fr s = (b.freezeOne h fr s).toldBefore l := rfl

/-- The freeze asked for is taken (R124). -/
def freezeTaken (h : HeadId) (fr : Bool) (b : Block) : Block :=
  (b.modVideo h fun v => { v with freezeNext := none, frozen := fr }).setReg (Obj.headVideoIlvFreeze h) (if fr then 1 else 0)

theorem freezeTaken_toldBefore (fr : Bool) : (b.toldBefore l).freezeTaken h fr = (b.freezeTaken h fr).toldBefore l := rfl

theorem ilvApply_some {fr : Bool} (hf : b.video[h].freezeNext = some fr) : b.ilvApply h =
    ((List.finRange 16).foldl (freezeOne h fr) (b.freezeTaken h fr)).convergedCheck h := by
  unfold ilvApply
  rw [hf]
  rfl

theorem ilvApply_none (hf : b.video[h].freezeNext = none) : b.ilvApply h = b := by
  unfold ilvApply
  rw [hf]

theorem ilvApply_toldBefore : (b.toldBefore l).ilvApply h = (b.ilvApply h).toldBefore l := by
  cases hf : b.video[h].freezeNext with
  | none => rw [ilvApply_none hf, ilvApply_none (b := b.toldBefore l) hf]
  | some fr =>
    rw [ilvApply_some hf, ilvApply_some (b := b.toldBefore l) hf, ← convergedCheck_toldBefore, freezeTaken_toldBefore,
      List.foldl_hom (toldBefore l) fun _ _ => freezeOne_toldBefore fr _]

theorem openWindow_toldBefore (i : Nat) : (b.toldBefore l).openWindow h i = (b.openWindow h i).toldBefore l := by
  unfold openWindow
  rw [ilvApply_toldBefore]
  exact congrArg (fun c : Block => c.modHead h _) (emit_toldBefore _)

theorem openWindows_toldBefore : (b.toldBefore l).openWindows h = (b.openWindows h).toldBefore l := by
  unfold openWindows
  refine List.foldl_hom (toldBefore l) fun c i => ?_
  rw [show (c.toldBefore l).heads = c.heads from rfl]
  cases hl : c.heads[h].lines[i]? with
  | none => rfl
  | some line => rw [apply_ite (toldBefore l), ← openWindow_toldBefore]; rfl

theorem store_toldBefore (o : Obj) (v : Nat) : (b.toldBefore l).store o v = (b.store o v).toldBefore l := by
  have noted (h : HeadId) (i : Nat) : (b.toldBefore l).noteSetting h i o = (b.noteSetting h i o).toldBefore l := by
    unfold noteSetting
    rw [apply_ite (toldBefore l)]
    rfl
  have before (c : Block) (h : HeadId) (i : Nat) : (c.toldBefore l).headBefore h i = (c.headBefore h i).toldBefore l := by
    unfold headBefore
    rw [apply_ite (toldBefore l), openWindows_toldBefore]
  have stored (c : Block) (h : HeadId) (i : Nat) : (c.toldBefore l).headStored h i = (c.headStored h i).toldBefore l := by
    unfold headStored
    rw [apply_ite (toldBefore l)]
    rfl
  unfold store
  split
  next h i _ => rw [noted, before, ← stored]; rfl
  next => rfl

theorem storeFor_toldBefore (r : Route) (o : Obj) (v : Nat) : (b.toldBefore l).storeFor r o v = (b.storeFor r o v).toldBefore l := by
  unfold storeFor
  rw [show (b.toldBefore l).nextWrite (routePlace r) o.key = b.nextWrite (routePlace r) o.key from rfl]
  split
  · rfl
  · exact store_toldBefore (b := b.noteWrite (routePlace r) o) o v

theorem reply_toldBefore (client : Fin 128) (res : Result) :
    (b.toldBefore l).reply (.can client) res = (b.reply (.can client) res).toldBefore l := by
  unfold reply
  rw [emit_toldBefore]
  rfl

/-! ## A store tells no refusal -/

/-- Nothing told is the refusal of an RPDO's entry. -/
def Unrefused (b : Block) : Prop := ∀ o ∈ b.outs, isRefusal o = false

theorem Unrefused.emit {x : Out} (hb : b.Unrefused) (hx : isRefusal x = false) : (b.emit x).Unrefused := fun o ho =>
  (List.mem_append.mp ho).elim (hb o) fun h => List.mem_singleton.mp h ▸ hx

theorem Unrefused.raise (hb : b.Unrefused) (k : Nat) : (b.raise k).Unrefused := Unrefused.emit (x := .event k) hb rfl

theorem Unrefused.convergedCheck (hb : b.Unrefused) (h : HeadId) : (b.convergedCheck h).Unrefused := by
  unfold Block.convergedCheck
  dsimp only
  split
  · exact Unrefused.raise (b := b.modVideo h _) hb _
  split
  · exact Unrefused.raise (b := b.modVideo h _) hb _
  · exact hb

theorem Unrefused.freezeOne (hb : b.Unrefused) (h : HeadId) (fr : Bool) (s : SegId) : (b.freezeOne h fr s).Unrefused := by
  unfold Block.freezeOne Block.setIlvStatus
  exact hb

theorem Unrefused.freezeTaken (hb : b.Unrefused) (h : HeadId) (fr : Bool) : (b.freezeTaken h fr).Unrefused := by
  unfold Block.freezeTaken
  exact hb

theorem Unrefused.modHead (hb : b.Unrefused) (h : HeadId) (f : Head → Head) : (b.modHead h f).Unrefused := hb

theorem Unrefused.openWindow (hb : b.Unrefused) (h : HeadId) (i : Nat) : (b.openWindow h i).Unrefused := by
  have happly : (b.ilvApply h).Unrefused := by
    cases hf : b.video[h].freezeNext with
    | none => rwa [ilvApply_none hf]
    | some fr =>
      rw [ilvApply_some hf]
      exact Unrefused.convergedCheck (foldl_rel (r := Unrefused) (fun _ _ hc => hc.freezeOne h fr _) _ (hb.freezeTaken h fr)) h
  refine Unrefused.modHead (b := Block.emit _ (b.ilvApply h)) (Unrefused.emit happly ?_) h _
  rfl

theorem Unrefused.openWindows (hb : b.Unrefused) (h : HeadId) : (b.openWindows h).Unrefused := by
  refine foldl_rel (r := Unrefused) (fun c i hc => ?_) _ hb
  split
  · split
    · exact hc.openWindow h i
    · exact hc
  · exact hc

theorem Unrefused.setReg (hb : b.Unrefused) (o : Obj) (v : Nat) : (b.setReg o v).Unrefused := hb

theorem Unrefused.storeFor (hb : b.Unrefused) (r : Route) (o : Obj) (v : Nat) : (b.storeFor r o v).Unrefused := by
  have noted (c : Block) (hc : c.Unrefused) (h : HeadId) (i : Nat) : (c.noteSetting h i o).Unrefused := by
    unfold noteSetting
    dsimp only
    split <;> exact hc
  have before (c : Block) (hc : c.Unrefused) (h : HeadId) (i : Nat) : (c.headBefore h i).Unrefused := by
    unfold headBefore
    split
    · exact hc.openWindows h
    · exact hc
  have stored (c : Block) (hc : c.Unrefused) (h : HeadId) (i : Nat) : (c.headStored h i).Unrefused := by
    unfold headStored
    split <;> exact hc
  unfold Block.storeFor
  split
  · exact hb
  unfold store
  split
  next h i _ => exact stored _ ((before _ (noted (b.noteWrite (routePlace r) o) hb h i) h i).setReg o v) h i
  next => exact hb

/-! ## RPDOs -/

theorem rpdoEntry_stored {e : Env} {index sub : Nat} {data : List Byte} {row : Row} (hr : findRow index sub = some row)
    (ha : ({ b with outs := [] } : Block).accepts e (.can 0) index sub data = true)
    (hd : ({ b with outs := [] } : Block).writeDo e (.can 0) index sub (leNat data) = none) :
    b.rpdoEntry e index sub data = (b.storeFor (.can 0) (row.obj index sub) (leNat data)).reply (.can 0) .ok := by
  have hwrite := dictWrite_of_accepts hr ha
  rw [hd, Option.getD_none] at hwrite
  have hsame : b = ({ b with outs := [] } : Block).toldBefore b.outs := by simp [toldBefore]
  have hsilent : ((({ b with outs := [] } : Block).storeFor (.can 0) (row.obj index sub) (leNat data)).reply (.can 0) .ok).Unrefused :=
    Unrefused.emit (x := .answer (.can 0) .ok) (Unrefused.storeFor (b := { b with outs := [] }) (fun _ h => absurd h List.not_mem_nil) _ _ _) rfl
  have hnone : (((({ b with outs := [] } : Block).storeFor (.can 0) (row.obj index sub) (leNat data)).reply (.can 0) .ok).outs.any
      isRefusal) = false := List.any_eq_false.mpr fun o ho => by rw [hsilent o ho]; decide
  conv_rhs => rw [hsame, storeFor_toldBefore, reply_toldBefore]
  unfold rpdoEntry
  simp only [hwrite]
  rw [hnone]
  rfl

theorem mapEntries_one {rpdo : Bool} {n : Nat} : b.mapEntries rpdo n 1 = [b.reg (if rpdo then Obj.rpdoMap n 0 else Obj.tpdoMap n 0)] := rfl

theorem rpdoReceived_empty {n : Fin 8} {data : List Byte} {e : Env} (hcount : b.reg (Obj.rpdoMapCount n) = 0) :
    b.rpdoReceived n data e = b := by
  unfold rpdoReceived
  rw [hcount]
  split
  · rfl
  · exact if_neg (Nat.not_lt_zero _)

theorem rpdoReceived_one {n : Fin 8} {data : List Byte} {e : Env} {entry : Nat} (hrun : b.pdosRun = true)
    (hvalid : (b.reg (Obj.rpdoCobId n)).testBit 31 = false) (hcount : b.reg (Obj.rpdoMapCount n) = 1) (hmap : b.reg (Obj.rpdoMap n 0) = entry) :
    b.rpdoReceived n data e = if data.length < entryBytesOf entry then b.emcyCause 0x8210 4 0 noSource
      else b.rpdoEntry e (entryIndex entry) (entrySub entry) (data.take (entryBytesOf entry)) := by
  unfold rpdoReceived
  rw [hcount, mapEntries_one, if_pos rfl, hmap]
  dsimp only
  rw [if_neg (by simp [hrun, hvalid]), List.foldl_cons, List.foldl_nil, Nat.zero_add]
  rfl

end Block
end Sys2Proof.Machine

namespace Sys2Proof
open Machine Machine.Block

/-- Settles O51: a request goes on in its session's block, which answers as the one before it; of the TPDOs only the one asked for acts;
and an RPDO's entry is the dictionary's write, whatever was told before it. -/
theorem usdoAndPdos : Obligations.UsdoAndPdos := by
  unfold Obligations.UsdoAndPdos
  refine ⟨fun t client index sub e row s => ?usdo, fun t n s => ?pdos⟩
  case usdo =>
    intro b r c hserves
    have hfor : c.readFor r row index.toNat sub.toNat = b.readFor r row index.toNat sub.toNat := readFor_sessionOpen ..
    have hcodes (h : b.readCodes r index.toNat sub.toNat = []) : c.readCodes r index.toNat sub.toNat = [] :=
      (readCodes_sessionOpen ..).trans h
    refine ⟨fun hnew hfull w p => does_of_run rfl (usdoSession_full hserves hnew hfull), fun hroom hrow => ?_⟩
    have session {w : Option (List Byte)} {p : Portion} : b.usdoRequest client index.toNat sub.toNat w p e =
        (match w with
          | none => c.readPart r index.toNat sub.toNat p
          | some data => c.writePart e r index.toNat sub.toNat data p) := usdoSession_open hserves hroom
    refine ⟨fun hok => ⟨fun hfifo => ?whole, fun n hn _ => ?begun⟩, fun data haccepts hdo => ?written, fun data n => ?gathers,
      fun data n x hx hintime => ?last⟩
    case whole =>
      have hfifo' : ¬(index.toNat = 0x4048 ∧ sub.toNat = 3) := fun h => hfifo ⟨BitVec.eq_of_toNat_eq h.1, BitVec.eq_of_toNat_eq h.2⟩
      exact does_of_run rfl (session.trans (dictRead_value hrow (hcodes hok) hfifo'))
    case begun =>
      rw [← hfor] at hn ⊢
      have hnow : c.now = t := now_sessionOpen client b
      refine ⟨_, does_of_run rfl (session.trans (readPart_first hrow (hcodes hok) hn)), segmentSent_answers .., ?_, ?_, ?_⟩
      · rw [← hnow]
        exact transferOf_segmentSent (y := c.readTransfer r row index.toNat sub.toNat) n rfl
      · rw [segmentSent_sessions]
        exact mem_sessionOpen client b
      · have hopened : Leaves [.can, .control] [] b (c.transferOpened (c.readTransfer r row index.toNat sub.toNat)) :=
          (Leaves.of_part (.refl ..) (leaves_sessionOpen client b) (by decide) (List.Subset.refl _)).of_part (leaves_transferOpened ..)
            (by decide) (List.Subset.refl _)
        exact hopened.trans (leaves_segmentSent ..)
    case written =>
      have hwrite := dictWrite_of_accepts hrow haccepts
      rw [hdo, Option.getD_none] at hwrite
      exact does_of_run rfl (session.trans hwrite)
    case gathers =>
      have hnow : c.now = t := now_sessionOpen client b
      have hfirst : c.writePart e r index.toNat sub.toNat data (.first n) = (c.transferDrop r index.toNat).modControl fun x =>
          { x with transfers := x.transfers ++ [⟨r, index.toNat, sub.toNat, .write, none, data, [], t⟩] } := by
        rw [← hnow]
        rfl
      exact does_of_run rfl (session.trans hfirst)
    case last =>
      have hnow : c.now = t := now_sessionOpen client b
      exact does_of_run rfl (session.trans (writePart_last ((transferOf_sessionOpen ..).trans hx) (hnow ▸ hintime)))
  case pdos =>
    intro b sent hrun hvalid hcount
    have hready : b.TpdoReady n := ⟨hrun, hvalid, hcount⟩
    refine ⟨fun ht halive => ?_, fun ht halive => ?_, fun hevent hms hlast => does_of_run rfl (tpdoTimer_sends hready hevent hms hlast),
      fun hevent hlast hdata hother => does_of_run rfl (tpdoCheck_sends hready hevent hlast hdata hother),
      fun ht hother => does_of_run rfl (canSync_sends hready ht hother),
      fun ht hsyncs hother => does_of_run rfl (canSync_counts hrun ht hsyncs hother), fun data e hrpdo => ?rpdo⟩
    · exact does_of_run rfl ((sampled_pier (f := Block.tpdoTask n false) halive fun _ _ => taskDo_tpdo ..).trans
        (tpdoTask_sends (b := b.unlatch (464 + n.val)) hready ht))
    · exact does_of_run rfl ((sampled_pier (f := Block.tpdoTask n false) halive fun _ _ => taskDo_tpdo ..).trans (if_pos ht))
    case rpdo =>
      refine ⟨fun hnone => does_of_run rfl (rpdoReceived_empty hnone), fun entry row hone hmap => ⟨fun hshort => ?_, ?_⟩⟩
      · exact does_of_run rfl ((rpdoReceived_one hrun hrpdo hone hmap).trans (if_pos hshort))
      · intro c share hlong hrow haccepts hdo
        exact does_of_run rfl ((rpdoReceived_one hrun hrpdo hone hmap).trans ((if_neg (Nat.not_lt.mpr hlong)).trans
          (rpdoEntry_stored hrow haccepts hdo)))

end Sys2Proof

/-! # SMBus transactions (R474 to R476, R479 to R484)

While the pier is served a START does no more than set its instant, so every transaction is the equation of what it does to the block that
has started. -/

namespace Sys2Proof.Machine

theorem clearBits_zero (m : Nat) : clearBits m 0 = m := by simp [clearBits]

/-- The status byte, of its five bits (R474). -/
def statusByte (executing unread asserted asleep minority : Bool) : Nat :=
  let f (c : Bool) (k : Nat) : Nat := if c then 2 ^ k else 0
  f executing 7 + f unread 6 + f asserted 5 + f asleep 4 + f minority 3

theorem testBit_statusByte : ∀ executing unread asserted asleep minority : Bool,
    (statusByte executing unread asserted asleep minority).testBit 7 = executing ∧
    (statusByte executing unread asserted asleep minority).testBit 5 = asserted ∧
    (statusByte executing unread asserted asleep minority).testBit 4 = asleep ∧
    (statusByte executing unread asserted asleep minority).testBit 3 = minority := by decide

namespace Block

variable {b : Block}

/-- A bit that the spec gives reads as it is (R60). -/
theorem getLsbD_withOpen {mask v place k : Nat} (hk : k < 8) (hmask : mask.testBit k = true) :
    (BitVec.ofNat 8 (b.withOpen 8 mask v place)).getLsbD k = v.testBit k := by
  rw [BitVec.getLsbD_ofNat, withOpen, Nat.testBit_or, Nat.testBit_and, testBit_clearBits, hmask]
  simp [hk]

/-! ## A transaction that begins -/

/-- The block at a START that is acknowledged. -/
def smbStarted (b : Block) : Block := b.modSmb fun x => { x with lastStart := b.now }

theorem phase_of_served (h : b.served = true) : b.power.phase = .served := beq_iff_eq.mp h

theorem asleep_of_served (h : b.served = true) : b.asleep = false := by rw [asleep, phase_of_served h]; rfl

theorem smbStart_served (h : b.served = true) : b.smbStart = (true, b.smbStarted) := by
  unfold smbStart
  rw [if_neg (by rw [phase_of_served h]; decide), asleep_of_served h]
  rfl

/-! ## Reads and writes by command code -/

/-- A read ends with its bytes and the PEC over all of the transaction (R475). -/
def smbTold (code : Nat) (bytes : List Byte) (b : Block) : Block := (b.smbStarted.smbAnswer code bytes).smbStop

theorem smbStatus_served (h : b.served = true) : b.smbStatus = b.smbTold 3 [BitVec.ofNat 8 (b.withOpen 8 0xF8
    (statusByte b.smb.executing b.smbUnread b.alertAsserted b.asleep b.ring.minority) 3)] := by
  unfold smbStatus
  rw [smbStart_served h]
  rfl

theorem smbCauseRead_served (h : b.served = true) : b.smbCauseRead = b.smbTold 4 (leBytes 4 (b.withOpen 32 0x8000003F b.smb.cause 4)) := by
  unfold smbCauseRead
  rw [smbStart_served h]
  rfl

theorem smbTemperature_served (h : b.served = true) : b.smbTemperature = b.smbTold 5 (leBytes 2 (b.reg Obj.thermalCase)) := by
  unfold smbTemperature
  rw [smbStart_served h]
  rfl

/-- A transaction whose PEC is bad is counted (R475). -/
def smbPecFails (b : Block) : Block := ((b.smbStarted.bump Obj.smbPecErrors).raise 945).smbStop

theorem smbCauseWrite_bad {mask again : Nat} (h : b.served = true) : b.smbCauseWrite mask again false = b.smbPecFails := by
  unfold smbCauseWrite
  rw [smbStart_served h]
  rfl

theorem smbCauseWrite_good {mask again : Nat} (h : b.served = true) :
    b.smbCauseWrite mask again true = (b.smbStarted.causeClear mask again).smbStop := by
  unfold smbCauseWrite
  rw [smbStart_served h]
  rfl

theorem causeClear_cause {mask : Nat} (h : b.custody.recovery = none) : (b.causeClear mask 0).smb.cause = clearBits b.smb.cause mask := by
  simp only [causeClear, h, Option.isSome_none, Bool.false_eq_true, if_false, clearBits_zero]
  rfl

theorem leaves_smbStarted (b : Block) : Leaves [.smb] [] b b.smbStarted := (Leaves.refl ..).modSmb _ (by decide)

theorem leaves_smbStop (b : Block) : Leaves [.smb] [] b b.smbStop := (Leaves.refl ..).modSmb _ (by decide)

theorem leaves_causeClear (mask again : Nat) (b : Block) : Leaves [.smb] [Obj.smbCoincidences] b (b.causeClear mask again) := by
  unfold causeClear
  exact ((Leaves.refl ..).modSmb _ (by decide)).count _ _ (by decide)

theorem leaves_smbCauseWrite {mask again : Nat} (h : b.served = true) :
    Leaves [.smb] [Obj.smbCoincidences] b (b.smbCauseWrite mask again true) := by
  rw [smbCauseWrite_good h]
  have hcleared : Leaves [.smb] [Obj.smbCoincidences] b (b.smbStarted.causeClear mask again) :=
    (Leaves.of_part (.refl ..) (leaves_smbStarted b) (List.Subset.refl _) (List.nil_subset _)).trans (leaves_causeClear ..)
  exact hcleared.of_part (leaves_smbStop _) (List.Subset.refl _) (List.nil_subset _)

/-! ## The alert response (R480, R481) -/

/-- The address that answers: the lowest of the set for an urgent cause, else the highest. -/
def alertByte (b : Block) : Byte :=
  let set := smbSet b.smb.address b.smb.mask
  BitVec.ofNat 8 (2 * (if b.smb.owesUrgent then (set.head?).getD b.smb.address else (set.getLast?).getD b.smb.address))

/-- An alert response that is answered, with no cause that rises meanwhile. -/
def alertAnswered (b : Block) : Block :=
  (((b.smbStarted.emit (.smb [b.alertByte, BitVec.ofNat 8 (pec [0x19, b.alertByte])])).modSmb fun x =>
    if b.smb.owesUrgent then { x with owesUrgent := false } else { x with owesNormal := false }).raise 948).smbStop

theorem alertResponse_answered (h : b.served = true) (ha : b.alertAsserted = true) : b.alertResponse false false = b.alertAnswered := by
  unfold alertResponse
  rw [ha, smbStart_served h]
  rfl

theorem alertResponse_lost {again : Bool} (h : b.served = true) (ha : b.alertAsserted = true) :
    b.alertResponse true again = (b.smbStarted.bump Obj.smbAraLosses).smbStop := by
  unfold alertResponse
  rw [ha, smbStart_served h]
  rfl

theorem alertAnswered_smb (b : Block) : b.alertAnswered.smb.owesUrgent = false ∧
    b.alertAnswered.smb.owesNormal = (b.smb.owesUrgent && b.smb.owesNormal) := by
  unfold alertAnswered
  split
  next h => exact ⟨rfl, by rw [h, Bool.true_and]; rfl⟩
  next h => exact ⟨Bool.eq_false_iff.mpr h, by rw [Bool.eq_false_iff.mpr h]; rfl⟩

theorem alertAnswered_fired (b : Block) : b.alertAnswered.Fired 948 := raise_fired ..

theorem alertAnswered_told (b : Block) : Out.smb [b.alertByte, BitVec.ofNat 8 (pec [0x19, b.alertByte])] ∈ b.alertAnswered.outs :=
  List.mem_append_left _ (List.mem_append_right _ (List.mem_singleton_self _))

theorem leaves_alertAnswered (b : Block) : Leaves [.smb] [] b b.alertAnswered := by
  unfold alertAnswered
  have hemitted : Leaves [.smb] [] b (b.smbStarted.emit (.smb [b.alertByte, BitVec.ofNat 8 (pec [0x19, b.alertByte])])) :=
    (leaves_smbStarted b).emit _
  exact ((hemitted.modSmb _ (by decide)).raise _).trans (leaves_smbStop _)

/-! ## The alert task (R484) -/

theorem alert_sets (i : Nat) (b : Block) : (b.alert i).smb.cause.testBit i = true := by
  unfold alert
  split
  · assumption
  dsimp only
  split
  · simp [raiseIf_keeps, testBit_setBit]
  · simp [testBit_setBit]

theorem sampled_alert (ha : b.taskAlive 472 = true) : b.sampled 472 Env.quiet [] = (b.unlatch 472).alert 31 :=
  sampled_pier (f := Block.alert 31) ha fun _ _ => taskDo_late (by decide) _ _ _ _

/-! ## SCL held low (R482) -/

theorem sclTimeout_served {withStop : Bool} (h : b.served = true) :
    b.sclTimeout withStop = if withStop then (b.bump Obj.smbNearMisses).smbStop else (b.bump Obj.smbTimeouts).raise 946 :=
  if_neg (by rw [phase_of_served h]; decide)

/-! ## Requests and responses (R474 to R476) -/

/-- A request that is taken. -/
def smbTaken (b : Block) : Block := ((b.smbStarted.modSmb fun x => { x with executing := true, response := none }).raise 944).smbStop

theorem taken_awake (h : b.served = true) : ¬ b.smbTaken.asleep = true := by
  rw [show b.smbTaken.asleep = b.asleep from rfl, asleep_of_served h]
  decide

variable {op index sub offset len : Nat} {data : List Byte} {e : Env}

theorem smbRequest_busy {ok : Bool} (h : b.served = true) (hx : b.smb.executing = true) :
    b.smbRequest op index sub offset len data ok e = (b.smbStarted.bump Obj.smbBusyNacks).smbStop := by
  unfold smbRequest
  rw [smbStart_served h]
  dsimp only
  rw [if_neg (by decide), if_neg (by simp [show b.smbStarted.served = true from h]), if_pos (by simp [show b.smbStarted.smb.executing = true from hx])]

theorem smbRequest_free {ok : Bool} (h : b.served = true) (hx : b.smb.executing = false) (hr : b.smb.response = none) :
    b.smbRequest op index sub offset len data ok e = if !ok then b.smbPecFails else
      match op with
      | 1 => b.smbTaken.smbRead index sub offset len
      | 2 => b.smbTaken.smbWrite e index sub offset data
      | _ => b.smbTaken.reply .smbus (.abort .specifier) := by
  have hunread : b.smbStarted.smbUnread = false := by
    rw [smbUnread, show b.smbStarted.smb.response = none from hr]
  unfold smbRequest
  rw [smbStart_served h]
  dsimp only
  rw [if_neg (by decide), if_neg (by simp [show b.smbStarted.served = true from h]),
    if_neg (by simp [show b.smbStarted.smb.executing = false from hx, hunread])]
  exact congrArg (ite (!ok) b.smbPecFails) (if_neg (taken_awake h))

theorem smbRead_value {row : Row} (hr : findRow index sub = some row) (hc : b.readCodes .smbus index sub = []) (hl : len ≠ 0) (hm : len ≤ 240)
    (hin : offset + len ≤ (b.readFor .smbus row index sub).length) :
    b.smbRead index sub offset len = b.reply .smbus (.data (slice (b.readFor .smbus row index sub) offset len)) := by
  unfold smbRead
  rw [hc, hr]
  exact if_neg (by omega)

/-- No object shows the request in progress. -/
theorem readCodes_smbTaken (r : Route) (b : Block) : b.smbTaken.readCodes r index sub = b.readCodes r index sub := rfl

/-- The response, as its bytes. -/
def responseBody : Result → List Byte
  | .ok => [0]
  | .data d => 0 :: d
  | .abort c => 1 :: leBytes 4 c.value

/-- A response that is read. -/
def responseRead (x : SmbResponse) (b : Block) : Block :=
  ((b.smbStarted.smbAnswer 2 (BitVec.ofNat 8 (responseBody x.result).length :: responseBody x.result)).modSmb fun y =>
    { y with response := some { x with read := true } }).smbStop

theorem smbResponse_reads {x : SmbResponse} (h : b.served = true) (hx : b.smb.executing = false) (hr : b.smb.response = some x) :
    b.smbResponse = b.responseRead x := by
  unfold smbResponse
  rw [smbStart_served h]
  dsimp only
  rw [if_neg (by decide), if_neg (by simp [show b.smbStarted.smb.executing = false from hx]), show b.smbStarted.smb.response = some x from hr]
  unfold responseRead responseBody
  rfl

theorem leaves_responseRead (x : SmbResponse) (b : Block) : Leaves [.smb] [] b (b.responseRead x) := by
  unfold responseRead smbAnswer
  exact (((leaves_smbStarted b).emit _).modSmb _ (by decide)).trans (leaves_smbStop _)

theorem responseRead_response (x : SmbResponse) (b : Block) : (b.responseRead x).smb.response = some { x with read := true } := rfl

theorem responseRead_ok {x : SmbResponse} (hok : x.result = .ok) : ∃ p : Byte, Out.smb [1, 0, p] ∈ (b.responseRead x).outs := by
  unfold responseRead smbAnswer
  rw [hok]
  exact ⟨_, List.mem_append_right _ (List.mem_singleton_self _)⟩

theorem smbHoldEnd_passed {x : SmbResponse} (hr : b.smb.response = some x)
    (hp : passed x.readyAt (b.reg Obj.smbResponseHold * tMs) b.now = true) :
    b.smbHoldEnd = b.modSmb fun y => { y with response := some { x with read := true } } := by
  unfold smbHoldEnd
  rw [hr]
  exact if_pos hp

end Block
end Sys2Proof.Machine

namespace Sys2Proof
open Machine Machine.Block

/-- Settles O52: each transaction is the equation of the started block, and a status bit reads as the state that it shows. -/
theorem smbusTransactions : Obligations.SmbusTransactions := by
  unfold Obligations.SmbusTransactions
  refine ⟨fun t s => ?codes, fun t index sub e s => ?requests⟩
  case codes =>
    intro b started a told hserved
    refine ⟨⟨_, does_of_run rfl (smbStatus_served hserved), ?_⟩, does_of_run rfl (smbCauseRead_served hserved),
      does_of_run rfl (smbTemperature_served hserved), fun mask hrecovery => ⟨_, does_of_run rfl rfl, ?_, leaves_smbCauseWrite hserved⟩,
      fun mask again => does_of_run rfl (smbCauseWrite_bad hserved), fun hurgent => ?urgent, fun hcalm hnormal => ?normal,
      fun hurgent => does_of_run rfl (alertResponse_lost hserved (by rw [alertAsserted, hurgent]; rfl)),
      fun halive _ => ⟨_, does_of_run rfl (sampled_alert halive), alert_sets .., leaves_alert ..⟩,
      does_of_run rfl (sclTimeout_served hserved), does_of_run rfl (sclTimeout_served hserved)⟩
    · obtain ⟨hexecuting, hasserted, hasleep, hminority⟩ :=
        testBit_statusByte b.smb.executing b.smbUnread b.alertAsserted b.asleep b.ring.minority
      refine ⟨(getLsbD_withOpen (by decide) (by decide)).trans hexecuting, (getLsbD_withOpen (by decide) (by decide)).trans hasserted,
        (getLsbD_withOpen (by decide) (by decide)).trans (hasleep.trans (asleep_of_served hserved)),
        (getLsbD_withOpen (by decide) (by decide)).trans hminority⟩
    · rw [smbCauseWrite_good hserved]
      exact causeClear_cause (b := b.smbStarted) hrecovery
    case urgent =>
      obtain ⟨howes, hkeeps⟩ := alertAnswered_smb b
      rw [hurgent, Bool.true_and] at hkeeps
      exact ⟨_, _, does_of_run rfl (alertResponse_answered hserved (by rw [alertAsserted, hurgent]; rfl)), howes, hkeeps,
        leaves_alertAnswered b, alertAnswered_fired b, alertAnswered_told b, by rw [alertByte, hurgent]; rfl⟩
    case normal =>
      obtain ⟨-, howes⟩ := alertAnswered_smb b
      rw [hcalm, Bool.false_and] at howes
      exact ⟨_, _, does_of_run rfl (alertResponse_answered hserved (by rw [alertAsserted, hnormal, Bool.or_true])), howes,
        leaves_alertAnswered b, alertAnswered_told b, by rw [alertByte, hcalm]; rfl⟩
  case requests =>
    intro b started taken hserved
    refine ⟨fun row offset len hfree hnone hrow hcodes hlen hmax hin => ?_, fun op len offset data hfree hnone => ?_,
      fun op len offset data ok hbusy => does_of_run rfl (smbRequest_busy hserved hbusy), fun x hfree hresponse => ?_⟩
    · have hread := smbRead_value (b := taken) hrow ((readCodes_smbTaken ..).trans hcodes) hlen hmax hin
      exact does_of_run rfl ((smbRequest_free hserved hfree hnone).trans hread)
    · exact does_of_run rfl ((smbRequest_free hserved hfree hnone).trans (if_pos rfl))
    · exact ⟨_, does_of_run rfl (smbResponse_reads hserved hfree hresponse), responseRead_response x b, fun hok => responseRead_ok hok,
        leaves_responseRead x b, fun hpassed => does_of_run rfl (smbHoldEnd_passed hresponse hpassed)⟩

end Sys2Proof

/-! # Custody: enrolment and proposals (R489, R491 to R494)

A record that a custodian writes reaches what its sub-index means once nothing refuses it. A record that comes whole is gathered in order,
so what is evaluated is the record itself. -/

namespace Sys2Proof.Machine

/-- The object to which a custodian writes. -/
def custodyIndex (board : Bool) : Nat := if board then 0x2118 else 0x2110

/-- The records of a custodian have rows of bytes. -/
theorem findRow_custody : ∀ (board : Bool) (k : Fin 3), (findRow (custodyIndex board) (k.val + 1)).any
    (fun row => row.ty.bits == 0 && row.ty != .table) = true := by decide +kernel

theorem row_of_custody (board : Bool) (k : Fin 3) : ∃ row, findRow (custodyIndex board) (k.val + 1) = some row ∧ row.ty.bits = 0 ∧
    row.ty ≠ .table := by
  have hany := findRow_custody board k
  cases hrow : findRow (custodyIndex board) (k.val + 1) with
  | none =>
    rw [hrow] at hany
    cases hany
  | some row =>
    rw [hrow, Option.any_some, Bool.and_eq_true] at hany
    exact ⟨row, rfl, beq_iff_eq.mp hany.1, bne_iff_ne.mp hany.2⟩

theorem exactly_length (n : Nat) (l : List Byte) : (exactly n l).length = n := by simp [exactly, padTo]

/-! ## A record gathered byte by byte -/

/-- The bytes of a record, each at its place. -/
def placed (k : Nat) : List Byte → Map Byte
  | [] => []
  | v :: rest => (k, v) :: placed (k + 1) rest

theorem Map.insert_last {α : Type} {m : Map α} {k : Nat} (v : α) (h : ∀ x ∈ m, x.1 < k) : Map.insert m k v = m ++ [(k, v)] := by
  induction m with
  | nil => rfl
  | cons x rest ih =>
    have hx := h x List.mem_cons_self
    unfold Map.insert
    rw [if_neg (by omega), if_neg (by omega), ih fun y hy => h y (List.mem_cons_of_mem _ hy)]
    rfl

theorem foldl_placed (data : List Byte) (k : Nat) (m : Map Byte) (h : ∀ x ∈ m, x.1 < k) :
    (data.zipIdx k).foldl (fun m x => Map.insert m (0 + x.2) x.1) m = m ++ placed k data := by
  induction data generalizing k m with
  | nil => simp [placed]
  | cons v rest ih =>
    rw [List.zipIdx_cons, List.foldl_cons, Nat.zero_add, Map.insert_last v h, ih, placed, List.append_assoc]
    · rfl
    · intro x hx
      rcases List.mem_append.mp hx with hm | hlast
      · exact Nat.lt_succ_of_lt (h x hm)
      · rw [List.mem_singleton.mp hlast]
        exact Nat.lt_succ_self k

namespace Block

theorem draftBytes_placed (k : Nat) (data : List Byte) : draftBytes k (placed k data) = data := by
  induction data generalizing k with
  | nil => rfl
  | cons v rest ih => rw [placed, draftBytes, if_pos rfl, ih]

variable {b : Block} {r : Route} {board : Bool}

/-! ## A record that nothing refuses -/

/-- Nothing of the object or of the route refuses the write of a record. -/
def recordFree (r : Route) (board : Bool) (k : Fin 3) (b : Block) : Prop :=
  ∀ row, findRow (custodyIndex board) (k.val + 1) = some row → b.lookCodes r (custodyIndex board) (k.val + 1) = [] ∧
    b.accessCodes r (custodyIndex board) (k.val + 1) row = []

theorem record_written {e : Env} {k : Fin 3} {data : List Byte} {n : Block} (hserved : b.served = true) (hfree : b.recordFree r board k)
    (hlen : recordLengthCodes (custodyIndex board) (k.val + 1) data.length = [])
    (hdo : b.recordDo e r (custodyIndex board) (k.val + 1) 0 data = some n) :
    b.dictWriteAt e r (custodyIndex board) (k.val + 1) 0 data = n := by
  obtain ⟨row, hrow, hbits, htable⟩ := row_of_custody board k
  obtain ⟨hlook, haccess⟩ := hfree row hrow
  unfold dictWriteAt
  rw [hserved, hrow]
  dsimp only
  rw [if_neg (by decide), if_pos hbits]
  unfold writeBytes
  rw [hlook, haccess, if_pos rfl, hlen, notTable htable, hdo]
  rfl

/-! ## Enrolment -/

theorem enrol_written {e : Env} {data : List Byte} (hserved : b.served = true) (hfree : b.recordFree r board 2) (hlen : data.length = 193) :
    b.dictWriteAt e r (custodyIndex board) 3 0 data = b.enrol board r data :=
  record_written (k := 2) hserved hfree (by rw [hlen]; cases board <;> rfl) (by cases board <;> rfl)

/-- A key that takes its place. -/
def keySet (board : Bool) (key : List Byte) (b : Block) : Block :=
  (((b.modCustody fun x => if board then { x with boardKey := key } else { x with hostKey := key }).raise 968).renewNonce)

theorem enrol_signed {data : List Byte} (hlen : data.length = 193) (hunset : keyUnset (b.custodianKey board) = true) (hhead : data.head? = some 4)
    (hsigned : signedBy (data.take 97) (data.take 97 ++ b.custody.nonce) (data.drop 97) = true) :
    b.enrol board r data = (b.keySet board (data.take 97)).reply r .ok := by
  have hkey : (data.take 97).head? = some 4 := by rw [List.head?_take, if_neg (by decide), hhead]
  unfold enrol
  rw [if_neg (not_not_intro hlen), hunset, if_neg (by decide)]
  dsimp only
  rw [hkey, hsigned]
  rfl

theorem enrol_unsigned {data : List Byte} (hlen : data.length = 193) (hunset : keyUnset (b.custodianKey board) = true)
    (hbad : data.head? ≠ some 4 ∨ signedBy (data.take 97) (data.take 97 ++ b.custody.nonce) (data.drop 97) = false) :
    b.enrol board r data = (((b.bump Obj.custodyBadSignatures).raise 964).reply r (.abort .notStored)) := by
  have hkey : (data.take 97).head? = data.head? := by rw [List.head?_take, if_neg (by decide)]
  unfold enrol
  rw [if_neg (not_not_intro hlen), hunset, if_neg (by decide)]
  dsimp only
  rw [hkey]
  exact if_pos (hbad.imp id fun h => by rw [h]; rfl)

theorem keySet_custodianKey (board : Bool) (key : List Byte) (b : Block) : (b.keySet board key).custodianKey board = key ∧
    (b.keySet board key).custodianKey (!board) = b.custodianKey (!board) := by
  cases board <;> exact ⟨rfl, rfl⟩

theorem nonce_renewed (b : Block) : b.renewNonce.custody.nonce.length = 32 := exactly_length ..

theorem leaves_renewNonce (b : Block) : Leaves [.custody] [] b b.renewNonce := ((Leaves.refl ..).modCustody _ (by decide)).used

theorem leaves_keySet (board : Bool) (key : List Byte) (b : Block) : Leaves [.custody] [] b (b.keySet board key) :=
  (((Leaves.refl ..).modCustody _ (by decide)).raise _).trans (leaves_renewNonce _)

theorem keySet_fired (board : Bool) (key : List Byte) (b : Block) : (b.keySet board key).Fired 968 := raise_fired ..

theorem custody_reply (r : Route) (res : Result) (b : Block) : (b.reply r res).custody = b.custody := by cases r <;> rfl

theorem regs_reply (r : Route) (res : Result) (b : Block) : (b.reply r res).regs = b.regs := by cases r <;> rfl

theorem fired_reply {k : Nat} {res : Result} (h : b.Fired k) : (b.reply r res).Fired k := by
  rw [Fired, reply_outs]
  exact List.mem_append_left _ h

theorem custodianKey_congr {n : Block} (h : n.custody = b.custody) (board : Bool) : n.custodianKey board = b.custodianKey board := by
  rw [custodianKey, h, custodianKey]

/-! ## A proposal that comes whole -/

theorem setDraft_setDraft (board : Bool) (d d' : Option Draft) (b : Block) : (b.setDraft board d).setDraft board d' = b.setDraft board d' := by
  cases board <;> rfl

theorem draftOf_setDraft (board : Bool) (d : Option Draft) (b : Block) : (b.setDraft board d).draftOf board = d := by cases board <;> rfl

theorem setDraft_none (h : b.draftOf board = none) : b.setDraft board none = b := by
  have hsame : b.setDraft board (b.draftOf board) = b := by cases board <;> rfl
  rwa [h] at hsame

theorem draftDrop_none (h : b.draftOf board = none) : b.draftDrop board = b := by
  unfold draftDrop
  rw [h]

theorem proposeWrite_whole {record : List Byte} {othersRun : Bool} (hmax : record.length ≤ 1024) (hmin : 6 ≤ record.length)
    (hlength : recLength record = record.length) (hnone : b.draftOf board = none) :
    b.proposeWrite board r 0 record othersRun = b.proposalEvaluate board r record othersRun := by
  have hbytes : draftBytes 0 (record.zipIdx.foldl (fun m x => Map.insert m (0 + x.2) x.1) []) = record := by
    rw [foldl_placed record 0 [] (fun _ h => absurd h List.not_mem_nil), List.nil_append, draftBytes_placed]
  unfold proposeWrite
  rw [if_neg (by omega), if_pos rfl, draftDrop_none hnone]
  dsimp only
  rw [draftOf_setDraft]
  dsimp only
  rw [hbytes, if_pos ⟨hmin, Nat.le_of_eq hlength⟩, setDraft_setDraft, setDraft_none hnone, hlength, List.take_length]

theorem propose_written {e : Env} {record : List Byte} (hserved : b.served = true) (hfree : b.recordFree r board 0) (hmax : record.length ≤ 1024) :
    b.dictWriteAt e r (custodyIndex board) 1 0 record = b.proposeWrite board r 0 record e.othersRun :=
  record_written (k := 0) hserved hfree
    (by
      have hcodes : recordLengthCodes (custodyIndex board) 1 record.length = codeIf (decide (1024 < record.length)) .length := by
        cases board <;> rfl
      exact hcodes.trans (by rw [decide_eq_false (by omega)]; rfl))
    (by cases board <;> rfl)

/-! ## A proposal that stands -/

/-- An ordinary proposal that stands under R493. -/
def Stands (board : Bool) (record : List Byte) (othersRun : Bool) (b : Block) : Prop :=
  b.provisioned = true ∧ b.custody.commit = none ∧ b.custody.pending = none ∧ recForm record = true ∧ recKind record = 0 ∧
  fieldU record 1 1 = (if board then 2 else 1) ∧ fieldU record 8 4 = b.custody.generation ∧ fieldU record 0x0C 4 = b.reg Obj.commIdentitySerial ∧
  slice record 0x10 32 = b.custody.nonce ∧ b.recordSigned board record = true ∧ recReserved record = false ∧ b.recordCodes othersRun record = []

/-- The block in which a proposal waits for its verdict (R494). -/
def proposed (record : List Byte) (board : Bool) (b : Block) : Block :=
  (((b.modCustody fun x => { x with pending := some ⟨record, board, later b.now (60 * tSec)⟩ }).raise 960).alert 2)

theorem proposalEvaluate_stands {record : List Byte} {othersRun : Bool} (h : b.Stands board record othersRun) :
    b.proposalEvaluate board r record othersRun = (b.proposed record board).reply r .ok := by
  obtain ⟨hkeys, hcommit, hpending, hform, hkind, hproposer, hgeneration, hserial, hnonce, hsigned, hclean, hcodes⟩ := h
  unfold proposalEvaluate
  simp only [hkeys, hcommit, hpending, hform, hkind, hproposer, hgeneration, hserial, hnonce, hsigned, hclean, hcodes]
  simp [codeIf, firstCode, proposed]

theorem proposed_keeps (record : List Byte) (board : Bool) (b : Block) :
    (b.proposed record board).custody = { b.custody with pending := some ⟨record, board, later b.now (60 * tSec)⟩ } ∧
    (b.proposed record board).regs = b.regs ∧ (b.proposed record board).mem = b.mem := by
  unfold proposed
  simp [alert_keeps, modCustody]

theorem proposed_fired (record : List Byte) (board : Bool) (b : Block) : (b.proposed record board).Fired 960 :=
  alert_outs _ _ _ (raise_fired ..)

/-! ## A record that is given up -/

theorem draftTimeout_passed {d : Draft} (hd : b.draftOf board = some d) (hp : passed d.startedAt tSec b.now = true) :
    b.draftTimeout board = (b.setDraft board none).answered d.route (.abort .timedOut) := by
  unfold draftTimeout draftDrop
  rw [hd]
  refine (if_pos hp).trans ?_
  cases hr : d.route <;> simp only [hr, answered]

theorem leaves_setDraft (board : Bool) (d : Option Draft) (b : Block) : Leaves [.custody] [] b (b.setDraft board d) :=
  (Leaves.refl ..).modCustody _ (by decide)

theorem custody_answered (r : Option Route) (res : Result) (b : Block) : (b.answered r res).custody = b.custody := by
  cases r
  · rfl
  · exact custody_reply ..

theorem draftOf_congr {n : Block} (h : n.custody = b.custody) (board : Bool) : n.draftOf board = b.draftOf board := by
  rw [draftOf, h, draftOf]

theorem draftOf_setDraft_other (board : Bool) (d : Option Draft) (b : Block) : (b.setDraft board d).draftOf (!board) = b.draftOf (!board) := by
  cases board <;> rfl

theorem pending_setDraft (board : Bool) (d : Option Draft) (b : Block) : (b.setDraft board d).custody.pending = b.custody.pending := by
  cases board <;> rfl

end Block
end Sys2Proof.Machine

namespace Sys2Proof
open Machine Machine.Block

/-- Settles O53: a whole record is gathered as it is and evaluated, a standing proposal waits with its instant, and a draft that is given up
answers the route that waits for it. -/
theorem custodyProposals : Obligations.CustodyProposals := by
  unfold Obligations.CustodyProposals
  intro t r board s b index free hserved
  refine ⟨fun record hfree hlen hunset => ⟨fun hhead hsigned => ?signed, fun hbad => ?unsigned⟩, fun record othersRun hfree hmax hmin hlength hnone => ?whole,
    fun record othersRun hkeys hcommit hpending hform hkind hproposer hgeneration hserial hnonce hsigned hclean hcodes => ?stands,
    fun d hd hpassed => ?given⟩
  case signed =>
    have hkey := custodianKey_congr (custody_reply r .ok (b.keySet board (record.take 97)))
    obtain ⟨hown, hother⟩ := keySet_custodianKey board (record.take 97) b
    refine ⟨_, does_of_run rfl ((enrol_written hserved hfree hlen).trans (enrol_signed hlen hunset hhead hsigned)), (hkey board).trans hown,
      (hkey (!board)).trans hother, ?_, ?_, reply_answered .., (leaves_keySet ..).reply r .ok⟩
    · rw [custody_reply]
      exact nonce_renewed _
    · exact fired_reply (keySet_fired ..)
  case unsigned => exact does_of_run rfl ((enrol_written hserved hfree hlen).trans (enrol_unsigned hlen hunset hbad))
  case whole =>
    exact does_of_run rfl ((propose_written hserved hfree hmax).trans (proposeWrite_whole hmax hmin hlength hnone))
  case stands =>
    intro n
    have hn : n = (b.proposed record board).reply r .ok := proposalEvaluate_stands
      ⟨hkeys, hcommit, hpending, hform, hkind, hproposer, hgeneration, hserial, hnonce, hsigned, hclean, hcodes⟩
    obtain ⟨hcustody, hregs, hmem⟩ := proposed_keeps record board b
    rw [hn, custody_reply, regs_reply, hregs, (reply_keeps ..).2.1, hmem]
    exact ⟨hcustody, fired_reply (proposed_fired ..), reply_answered .., rfl, rfl⟩
  case given =>
    have hcustody := custody_answered d.route (.abort .timedOut) (b.setDraft board none)
    refine ⟨_, does_of_run rfl (draftTimeout_passed hd hpassed), (draftOf_congr hcustody board).trans (draftOf_setDraft ..),
      (draftOf_congr hcustody (!board)).trans (draftOf_setDraft_other ..), hcustody ▸ pending_setDraft .., ?_, fun route hroute => ?_⟩
    · exact (Leaves.of_part (.refl ..) (leaves_setDraft ..) (by decide) (List.Subset.refl _)).of_part (leaves_answered ..) (by decide)
        (List.Subset.refl _)
    · rw [hroute]
      exact reply_answered ..

end Sys2Proof

/-! # Custody: verdicts, commits and recoveries (R495 to R498, R501, R502)

A verdict names the one proposal that waits, and what it does depends on its decision alone. A commit applies its changes, which touch
keys and registers and nothing else. -/

namespace Sys2Proof.Machine.Block

variable {b : Block} {r : Route} {board : Bool} {data : List Byte} {p : Proposal}

/-! ## Verdicts -/

theorem verdict_written {e : Env} (hserved : b.served = true) (hfree : b.recordFree r board 1) (hlen : data.length = 160) :
    b.dictWriteAt e r (custodyIndex board) 2 0 data = b.verdict board r data e.same e.othersRun :=
  record_written (k := 1) hserved hfree (by rw [hlen]; cases board <;> rfl) (by cases board <;> rfl)

/-- A verdict of the other custodian, signed and well formed, on the proposal that waits (R495). -/
structure Judges (board : Bool) (data : List Byte) (p : Proposal) (b : Block) : Prop where
  length : data.length = 160
  provisioned : b.provisioned = true
  commit : b.custody.commit = none
  recovery : b.custody.recovery = none
  pending : b.custody.pending = some p
  other : p.board ≠ board
  digest : Config.sha384 p.record = slice data 8 48
  signed : signedBy (b.custodianKey board) (data.take 0x40) (data.drop 0x40) = true
  version : fieldU data 0 1 = 1
  custodian : fieldU data 1 1 = (if board then 2 else 1)
  reserved : fieldU data 3 1 = 0
  zeros : zeroAt data 0x38 8 = true
  generation : fieldU data 4 4 = b.custody.generation

namespace Judges

variable (h : b.Judges board data p)
include h

theorem names : b.verdictNames data = some false := by
  unfold verdictNames
  rw [h.pending, h.recovery]
  exact if_pos h.digest

theorem codes : b.verdictCodes board data = [] := by
  have hother : (some p.board == some board) = false := by simpa using h.other
  unfold verdictCodes
  rw [h.names, h.pending, h.reserved, h.zeros, h.provisioned, h.commit]
  simp only [Bool.false_eq_true, if_false, Option.map_some, hother]
  rfl

theorem formed {v : Nat} (hv : v ≤ 1) : (fieldU data 0 1 == 1 && fieldU data 1 1 == (if board then 2 else 1) && decide (v ≤ 1) &&
    fieldU data 4 4 == b.custody.generation) = true := by
  simp [h.version, h.custodian, h.generation, hv]

theorem decided (hv : fieldU data 2 1 ≤ 1) {othersRun : Bool} : b.verdict board r data false othersRun =
    if fieldU data 2 1 = 0 then
      ((((b.modCustody fun x => { x with pending := none }).bump Obj.custodyDeclines).raise 963).renewNonce).reply r .ok
    else match firstCode (b.recordCodes othersRun p.record) with
      | some c => b.reply r (.abort c)
      | none => b.commitBegin p.record false (some r) := by
  unfold verdict
  rw [if_neg (not_not_intro h.length), h.codes]
  dsimp only [firstCode]
  rw [h.names]
  dsimp only
  rw [h.signed, h.formed hv, h.pending]
  rfl

end Judges

/-! ## The end of a proposal -/

/-- A proposal that ends by a decline or by its time, as counted and told, with a new nonce (R495, R496). -/
def proposalEnded (o : Obj) (k : Nat) (b : Block) : Block :=
  (((b.modCustody fun x => { x with pending := none }).bump o).raise k).renewNonce

theorem windowExpire_due (hp : b.custody.pending = some p) (hdue : due p.ends b.now = true) (hcommit : b.custody.commit = none) :
    b.windowExpire = b.proposalEnded Obj.custodyExpiries 962 := by
  unfold windowExpire
  rw [hp]
  refine (if_pos ⟨hdue, by rw [hcommit]; rfl⟩).trans ?_
  unfold proposalExpires
  rw [hp]
  rfl

theorem proposalEnded_custody (o : Obj) (k : Nat) (b : Block) : (b.proposalEnded o k).custody.pending = none ∧
    (b.proposalEnded o k).custody.generation = b.custody.generation ∧ (b.proposalEnded o k).custody.hostKey = b.custody.hostKey := ⟨rfl, rfl, rfl⟩

theorem proposalEnded_fired (o : Obj) (k : Nat) (b : Block) : (b.proposalEnded o k).Fired k := raise_fired ..

theorem reg_proposalEnded {o : Obj} (k : Nat) (ho : o.ty = .u32) :
    (b.proposalEnded o k).reg o = satAdd (b.reg o) 1 max32 % 2 ^ 32 := by
  refine (reg_setReg_self ..).trans ?_
  rw [ho]
  rfl

theorem leaves_proposalEnded (o : Obj) (k : Nat) (b : Block) : Leaves [.custody] [o] b (b.proposalEnded o k) := by
  unfold proposalEnded
  exact ((((Leaves.refl ..).modCustody _ (by decide)).bump _ (List.mem_singleton_self _)).raise _).of_part (leaves_renewNonce _)
    (List.Subset.refl _) (List.nil_subset _)

/-! ## Commits -/

/-- One change takes force (R497). -/
def applyChange (b : Block) (c : Change) : Block :=
  if c.index = 0x2120 then b.modCustody fun x => { x with hostKey := c.value }
  else if c.index = 0x2121 then b.modCustody fun x => { x with boardKey := c.value }
  else match findRow c.index c.sub with
    | some r => b.setReg (r.obj c.index c.sub) (leNat c.value)
    | none => b

theorem applyChanges_eq (cs : List Change) (b : Block) : b.applyChanges cs = cs.foldl applyChange b := rfl

/-- Changes reach keys and registers. -/
theorem applyChanges_keeps (cs : List Change) (b : Block) : (b.applyChanges cs).mem = b.mem ∧ (b.applyChanges cs).heads = b.heads ∧
    (b.applyChanges cs).custody.generation = b.custody.generation := by
  refine List.foldlRecOn (motive := fun n => n.mem = b.mem ∧ n.heads = b.heads ∧ n.custody.generation = b.custody.generation) cs applyChange
    ⟨rfl, rfl, rfl⟩ fun n hn c _ => ?_
  unfold applyChange
  split
  · exact hn
  split
  · exact hn
  split
  · exact hn
  · exact hn

theorem applyChanges_hostKey (key : List Byte) (clean : Bool) (b : Block) :
    b.applyChanges [⟨0x2120, 0, key, clean⟩] = b.modCustody fun x => { x with hostKey := key } := by
  rw [applyChanges_eq, List.foldl_cons, List.foldl_nil, applyChange, if_pos rfl]

/-- The row of the firmware lock. -/
theorem findRow_fwLock : (findRow 0x2123 0).map (·.ty) = some .bool := by decide +kernel

theorem applyChanges_fwLock (v : List Byte) (clean : Bool) (b : Block) :
    (b.applyChanges [⟨0x2123, 0, v, clean⟩]).reg Obj.custodyFwLock = leNat v % 256 ∧
    (b.applyChanges [⟨0x2123, 0, v, clean⟩]).custody = b.custody := by
  rw [applyChanges_eq, List.foldl_cons, List.foldl_nil, applyChange, if_neg (show ¬ (0x2123 : Nat) = 0x2120 by decide),
    if_neg (show ¬ (0x2123 : Nat) = 0x2121 by decide)]
  cases hrow : findRow 0x2123 0 with
  | none => exact absurd findRow_fwLock (by rw [hrow]; decide)
  | some row =>
    have hty := findRow_fwLock
    rw [hrow, Option.map_some, Option.some.injEq] at hty
    refine ⟨(reg_setReg ..).trans ((if_pos rfl).trans ?_), rfl⟩
    rw [Row.obj, hty]
    rfl

/-- A commit whose changes are in force ends (R497). -/
def committed (c : Commit) (b : Block) : Block :=
  ((b.modCustody fun x =>
    { x with generation := x.generation + 1, commit := none, pending := if c.recovery then x.pending else none, recovery := none }).raiseIf
      (!c.recovery && b.custody.recovery.isSome) 967).renewNonce

theorem journalApply_eq (c : Commit) (b : Block) : b.journalApply c = (b.applyChanges ((recChanges c.record).getD [])).committed c := rfl

/-- A commit that has ended is told and answered. -/
def commitTold (c : Commit) (b : Block) : Block := (((b.committed c).raise 961).raiseIf c.recovery 966).answered c.route .ok

theorem committed_custody (c : Commit) (b : Block) : (b.committed c).custody.commit = none ∧ (b.committed c).custody.recovery = none ∧
    (b.committed c).custody.generation = b.custody.generation + 1 ∧ (b.committed c).custody.nonce.length = 32 ∧
    (b.committed c).custody.hostKey = b.custody.hostKey ∧ (b.committed c).custody.boardKey = b.custody.boardKey := by
  unfold committed
  generalize (!c.recovery && b.custody.recovery.isSome) = cancels
  cases cancels <;> exact ⟨rfl, rfl, rfl, nonce_renewed _, rfl, rfl⟩

theorem committed_keeps (c : Commit) (b : Block) : (b.committed c).regs = b.regs ∧ (b.committed c).mem = b.mem ∧
    (b.committed c).heads = b.heads := by
  unfold committed
  generalize (!c.recovery && b.custody.recovery.isSome) = cancels
  cases cancels <;> exact ⟨rfl, rfl, rfl⟩

theorem commitTold_custody (c : Commit) (b : Block) : (b.commitTold c).custody = (b.committed c).custody := by
  rw [commitTold, custody_answered]
  cases c.recovery <;> rfl

theorem answered_leavesStores (r : Option Route) (res : Result) (b : Block) : (b.answered r res).regs = b.regs ∧ (b.answered r res).mem = b.mem ∧
    (b.answered r res).heads = b.heads := by
  cases r with
  | none => exact ⟨rfl, rfl, rfl⟩
  | some r => exact ⟨regs_reply .., (reply_keeps ..).2.1, (reply_keeps ..).1⟩

theorem commitTold_keeps (c : Commit) (b : Block) : (b.commitTold c).regs = b.regs ∧ (b.commitTold c).mem = b.mem ∧
    (b.commitTold c).heads = b.heads := by
  obtain ⟨hregs, hmem, hheads⟩ := answered_leavesStores c.route .ok (((b.committed c).raise 961).raiseIf c.recovery 966)
  obtain ⟨hregs', hmem', hheads'⟩ := committed_keeps c b
  rw [commitTold, hregs, hmem, hheads]
  cases c.recovery <;> exact ⟨hregs', hmem', hheads'⟩

theorem commitTold_fired (c : Commit) (b : Block) : (b.commitTold c).Fired 961 := by
  have htold : (((b.committed c).raise 961).raiseIf c.recovery 966).Fired 961 := by
    cases c.recovery
    · exact raise_fired ..
    · exact List.mem_append_left _ (raise_fired 961 _)
  unfold commitTold answered
  split
  · exact fired_reply htold
  · exact htold

theorem commitTold_answers {c : Commit} (h : c.route = some r) (b : Block) : (b.commitTold c).Answered r .ok := by
  rw [commitTold, h]
  exact reply_answered ..

theorem commitComplete_of_some {c : Commit} {cs : List Change} (hc : b.custody.commit = some c) (hcs : recChanges c.record = some cs)
    (hfirmware : ∀ x ∈ cs, x.index ≠ 0x2143) :
    b.commitComplete = (b.applyChanges cs).commitTold c := by
  have hnone : (((recChanges c.record).getD []).any fun x => x.index == 0x2143) = false := by
    rw [hcs]
    exact List.any_eq_false.mpr fun x hx => by simpa using hfirmware x hx
  unfold commitComplete
  rw [hc]
  dsimp only
  rw [hnone, if_neg Bool.false_ne_true, journalApply_eq, hcs, Option.getD_some, commitTold]
  cases c.route <;> rfl

/-! ## Recoveries -/

variable {q : Recovery}

theorem recoveryDue_commits (hq : b.custody.recovery = some q) (hleft : b.recoveryLeft q = 0) (hcommit : b.custody.commit = none)
    (hserved : b.served = true) (hcodes : b.recordCodes false q.record = []) : b.recoveryDue false = b.commitBegin q.record true none := by
  unfold recoveryDue
  rw [hq]
  dsimp only
  rw [if_neg (by simp [hleft, hcommit, hserved]), hcodes]
  rfl

theorem recoveryDue_declined (hq : b.custody.recovery = some q) : b.recoveryDue true = b := by
  unfold recoveryDue
  rw [hq]
  exact if_pos (.inr (.inl rfl))

theorem recoveryDue_early (hq : b.custody.recovery = some q) (hleft : b.recoveryLeft q ≠ 0) : b.recoveryDue false = b := by
  unfold recoveryDue
  rw [hq]
  exact if_pos (.inl hleft)

theorem recoverySave_some (hq : b.custody.recovery = some q) :
    b.recoverySave = b.modCustody fun x => { x with recovery := some { q with saved := b.recoveryLeft q } } := by
  rw [recoverySave, modCustody, modCustody, hq, Option.map_some]

theorem recoveryRemind_some (hq : b.custody.recovery = some q) : b.recoveryRemind = b.emcyCause 0xFF02 7 0 0xFFFF :=
  if_pos (by rw [hq]; rfl)

end Sys2Proof.Machine.Block

namespace Sys2Proof
open Machine Machine.Block

/-- Settles O54: a verdict that judges the waiting proposal decides by its decision, a commit is its changes and one generation, and a
recovery commits by its delay. -/
theorem verdictsCommitsAndRecoveries : Obligations.VerdictsCommitsAndRecoveries := by
  unfold Obligations.VerdictsCommitsAndRecoveries
  refine ⟨fun t r board s => ?proposals, fun t q s => ?recoveries⟩
  case proposals =>
    intro b index
    refine ⟨fun data p othersRun hserved hfree hlen hkeys hcommit hrecovery hpending hother hdigest hsigned hversion hcustodian hreserved hzeros
      hgeneration => ?verdict, fun p hpending hdue hcommit => ?window, fun c cs hc hcs hfirmware => ?commit⟩
    case verdict =>
      have hjudges : b.Judges board data p :=
        ⟨hlen, hkeys, hcommit, hrecovery, hpending, hother, hdigest, hsigned, hversion, hcustodian, hreserved, hzeros, hgeneration⟩
      refine ⟨fun hv hcodes => ?_, fun hv => ?_⟩
      · have happroved := hjudges.decided (r := r) (Nat.le_of_eq hv) (othersRun := othersRun)
        rw [hv, if_neg (by decide), hcodes] at happroved
        exact does_of_run rfl ((verdict_written hserved hfree hlen).trans happroved)
      · have hdeclined := hjudges.decided (r := r) (Nat.le_of_lt (by omega)) (othersRun := othersRun)
        rw [if_pos hv] at hdeclined
        obtain ⟨hnone, hgen, -⟩ := proposalEnded_custody Obj.custodyDeclines 963 b
        refine ⟨(b.proposalEnded Obj.custodyDeclines 963).reply r .ok, does_of_run rfl ((verdict_written hserved hfree hlen).trans hdeclined),
          ?_, ?_, ?_, fired_reply (proposalEnded_fired ..), reply_answered .., (leaves_proposalEnded ..).reply r .ok⟩
        · rw [custody_reply, hnone]
        · rw [custody_reply, hgen]
        · rw [reply_reg]
          exact reg_proposalEnded _ rfl
    case window =>
      obtain ⟨hnone, hgen, hkey⟩ := proposalEnded_custody Obj.custodyExpiries 962 b
      exact ⟨_, does_of_run rfl (windowExpire_due hpending hdue hcommit), hnone, hgen, hkey, proposalEnded_fired .., reg_proposalEnded _ rfl,
        leaves_proposalEnded ..⟩
    case commit =>
      obtain ⟨hcommit, hrecovery, hgen, hnonce, hhost, hboard⟩ := committed_custody c (b.applyChanges cs)
      obtain ⟨hregs, hmem, hheads⟩ := commitTold_keeps c (b.applyChanges cs)
      obtain ⟨hmem', hheads', hgen'⟩ := applyChanges_keeps cs b
      refine ⟨_, does_of_run rfl (commitComplete_of_some hc hcs hfirmware), ?_⟩
      rw [commitTold_custody]
      refine ⟨hcommit, hrecovery, hgen.trans (congrArg (· + 1) hgen'), hnonce, commitTold_fired .., fun r' hr => commitTold_answers hr _,
        hmem.trans hmem', hheads.trans hheads', fun key clean honly => ?_, fun v clean honly => ?_⟩
      · rw [hhost, hboard, hregs, honly, applyChanges_hostKey]
        exact ⟨rfl, rfl, rfl⟩
      · obtain ⟨hlock, hcustody⟩ := applyChanges_fwLock v clean b
        rw [reg_congr_regs hregs, hhost, honly, hcustody]
        exact ⟨hlock, rfl⟩
  case recoveries =>
    intro b hq
    exact ⟨fun hleft hcommit hserved hcodes => ⟨does_of_run rfl (recoveryDue_commits hq hleft hcommit hserved hcodes),
        does_of_run rfl (recoveryDue_declined hq)⟩,
      fun hleft => does_of_run rfl (recoveryDue_early hq hleft), does_of_run rfl (recoverySave_some hq),
      does_of_run rfl (recoveryRemind_some hq)⟩

end Sys2Proof

/-! # Firmware and attestation (R505 to R507, R511, R512)

An accepted command finds what its checks ask for, so what it does is one equation; of the two slots only the one named changes. -/

namespace Sys2Proof.Machine.Block

variable {b : Block} {r : Route} {e : Env}

/-! ## Slots -/

theorem slots_modSlotFw_same (i : Fin 2) (f : FwSlot → FwSlot) (b : Block) :
    (b.modSlotFw i f).firmware.slots[i] = f b.firmware.slots[i] := by
  simp [modSlotFw, modFirmware]

theorem slots_modSlotFw_other {i j : Fin 2} (hij : i ≠ j) (f : FwSlot → FwSlot) (b : Block) :
    (b.modSlotFw i f).firmware.slots[j] = b.firmware.slots[j] := by
  have hne : (i : Nat) ≠ j := fun h => hij (Fin.ext h)
  simp [modSlotFw, modFirmware, hne]

theorem other_ne (run : Fin 2) : 1 - run ≠ run := by revert run; decide

theorem leaves_modSlotFw (i : Fin 2) (f : FwSlot → FwSlot) (b : Block) : Leaves [.firmware] [] b (b.modSlotFw i f) :=
  (Leaves.refl ..).modFirmware _ (by decide)

/-! ## Commands -/

theorem writeDo_fwCommand (v : Nat) : b.writeDo e r Obj.fwCommand.index Obj.fwCommand.sub v =
    some (match v with | 1 => b.fwWrite r | 2 => b.fwActivate r e.othersRun | _ => b.fwConfirm r e.same) := rfl

theorem writeTo_fwWrite (h : b.acceptsObj e r Obj.fwCommand 1 = true) : b.writeTo Obj.fwCommand 1 r e = b.fwWrite r :=
  writeTo_of_accepts h (writeDo_fwCommand _)

theorem writeTo_fwActivate (h : b.acceptsObj e r Obj.fwCommand 2 = true) : b.writeTo Obj.fwCommand 2 r e = b.fwActivate r e.othersRun :=
  writeTo_of_accepts h (writeDo_fwCommand _)

theorem writeTo_fwConfirm (h : b.acceptsObj e r Obj.fwCommand 3 = true) : b.writeTo Obj.fwCommand 3 r e = b.fwConfirm r e.same :=
  writeTo_of_accepts h (writeDo_fwCommand _)

theorem fwWrite_of_staged (hstatus : b.firmware.status = 2) (hrun : b.firmware.slots[b.firmware.running].state ≠ 2)
    (hidle : b.firmware.writing = false) : b.fwWrite r =
      ((b.modSlotFw (1 - b.firmware.running) fun x => { x with state := 4 }).modFirmware fun x => { x with writing := true }).reply r .ok :=
  if_neg (by simp only [hstatus, hidle]; simpa using hrun)

/-- What an accepted activation was checked against. -/
theorem activation_checked (h : b.acceptsObj e r Obj.fwCommand 2 = true) :
    b.activateViolations e.othersRun = [] ∧ codeIf (b.isSet Obj.custodyFwLock) .countersign = [] := by
  obtain ⟨new, hcodes⟩ := chapterCodes_of_accepts h
  have hservice : b.serviceCodes e 0x2140 2 2 = [] := by
    obtain ⟨-, hrest⟩ := List.append_eq_nil_iff.mp hcodes
    obtain ⟨hrest, -⟩ := List.append_eq_nil_iff.mp hrest
    exact (List.append_eq_nil_iff.mp hrest).2
  exact List.append_eq_nil_iff.mp hservice

theorem fwActivate_of_accepts (h : b.acceptsObj e r Obj.fwCommand 2 = true) (hcommit : b.custody.commit = none)
    (hidle : b.firmware.writing = false) : b.fwActivate r e.othersRun = (b.reply r .ok).activate_ := by
  obtain ⟨hslot, hlock⟩ := activation_checked h
  unfold fwActivate
  rw [hslot, hlock, hcommit, hidle]
  rfl

theorem firmware_reply (r : Route) (res : Result) (b : Block) : (b.reply r res).firmware = b.firmware := by cases r <;> rfl

theorem activate_reply (r : Route) (b : Block) : (b.reply r .ok).activate_ =
    ((b.reply r .ok).modSlotFw (1 - b.firmware.running) fun x => { x with state := 2 }).restartCores 1 := by
  rw [activate_, firmware_reply]

/-! ## The slot that was written -/

theorem slotWritten_of_writing {same : Bool} (h : b.firmware.writing = true) : b.slotWritten same =
    ((b.modFirmware fun x => { x with writing := false }).modSlotFw (1 - b.firmware.running) fun _ =>
      ⟨b.placeRead b.firmware.stage,
        if same && imageCheck (b.placeRead b.firmware.stage) (b.reg Obj.fwSecurityFloor) == 2 then 1 else 4,
        same && imageCheck (b.placeRead b.firmware.stage) 0 == 2⟩).raise 971 :=
  if_neg (by rw [h]; decide)

theorem slotWritten_slot {same : Bool} (h : b.firmware.writing = true) : (b.slotWritten same).firmware.slots[1 - b.firmware.running] =
    ⟨b.placeRead b.firmware.stage,
      if same && imageCheck (b.placeRead b.firmware.stage) (b.reg Obj.fwSecurityFloor) == 2 then 1 else 4,
      same && imageCheck (b.placeRead b.firmware.stage) 0 == 2⟩ := by
  rw [slotWritten_of_writing h, raise_firmware, slots_modSlotFw_same]

theorem slotWritten_running {same : Bool} (h : b.firmware.writing = true) :
    (b.slotWritten same).firmware.slots[b.firmware.running] = b.firmware.slots[b.firmware.running] := by
  rw [slotWritten_of_writing h, raise_firmware, slots_modSlotFw_other (other_ne _)]
  rfl

theorem slotWritten_idle {same : Bool} (h : b.firmware.writing = true) : (b.slotWritten same).firmware.writing = false := by
  rw [slotWritten_of_writing h]
  rfl

theorem slotWritten_fired {same : Bool} (h : b.firmware.writing = true) : (b.slotWritten same).Fired 971 := by
  rw [slotWritten_of_writing h]
  exact raise_fired ..

theorem leaves_slotWritten {same : Bool} (h : b.firmware.writing = true) : Leaves [.firmware] [] b (b.slotWritten same) := by
  rw [slotWritten_of_writing h]
  exact (((Leaves.refl ..).modFirmware _ (by decide)).trans (leaves_modSlotFw ..)).raise _

/-! ## Confirmation -/

/-- The running slot is confirmed, and the other is no longer (R507). -/
def slotConfirmed (b : Block) : Block :=
  ((b.modSlotFw b.firmware.running fun x => { x with state := 3 }).modSlotFw (1 - b.firmware.running) fun x =>
    if x.state = 3 then { x with state := 1 } else x).modFirmware fun x => { x with trialEnds := none }

/-- The security floor follows an image that raises it, and a slot below it is invalid (R507). -/
def floorRaised (img : List Byte) (run : Fin 2) (b : Block) : Block :=
  if imageRaises img then
    let floor := max (b.reg Obj.fwSecurityFloor) (imageSecurity img)
    (b.setReg Obj.fwSecurityFloor floor).modSlotFw (1 - run) fun x => if imageSecurity x.image < floor then { x with state := 4 } else x
  else b

/-- A confirmation, as told (R507). -/
def confirmTold (b : Block) : Block :=
  (b.slotConfirmed.floorRaised b.firmware.slots[b.firmware.running].image b.firmware.running).raise 973

theorem fwConfirm_of_trial (h : b.firmware.slots[b.firmware.running].state = 2) : b.fwConfirm r false = b.confirmTold.reply r .ok :=
  if_neg (not_not_intro h)

theorem fwConfirm_of_confirmed (h : b.firmware.slots[b.firmware.running].state ≠ 2) : b.fwConfirm r false = b.reply r (.abort .deviceState) :=
  if_pos h

theorem slotConfirmed_running (b : Block) :
    b.slotConfirmed.firmware.slots[b.firmware.running] = { b.firmware.slots[b.firmware.running] with state := 3 } :=
  (slots_modSlotFw_other (other_ne _) _ _).trans (slots_modSlotFw_same ..)

theorem slotConfirmed_other (b : Block) : b.slotConfirmed.firmware.slots[1 - b.firmware.running].state ≠ 3 := by
  have hslot : b.slotConfirmed.firmware.slots[1 - b.firmware.running] = _ := slots_modSlotFw_same ..
  rw [hslot]
  split
  · exact (by decide : (1 : Nat) ≠ 3)
  · assumption

theorem floorRaised_running (img : List Byte) (run : Fin 2) (b : Block) : (b.floorRaised img run).firmware.slots[run] = b.firmware.slots[run] := by
  unfold floorRaised
  split
  · exact slots_modSlotFw_other (other_ne run) _ _
  · rfl

theorem floorRaised_other {img : List Byte} {run : Fin 2} (h : b.firmware.slots[1 - run].state ≠ 3) :
    (b.floorRaised img run).firmware.slots[1 - run].state ≠ 3 := by
  unfold floorRaised
  split
  · dsimp only
    rw [slots_modSlotFw_same]
    split
    · exact (by decide : (4 : Nat) ≠ 3)
    · exact h
  · exact h

theorem floorRaised_trialEnds (img : List Byte) (run : Fin 2) (b : Block) : (b.floorRaised img run).firmware.trialEnds = b.firmware.trialEnds := by
  unfold floorRaised
  split <;> rfl

theorem leaves_slotConfirmed (b : Block) : Leaves [.firmware] [] b b.slotConfirmed :=
  ((leaves_modSlotFw ..).trans (leaves_modSlotFw ..)).modFirmware _ (by decide)

theorem leaves_floorRaised (img : List Byte) (run : Fin 2) (b : Block) : Leaves [.firmware] [Obj.fwSecurityFloor] b (b.floorRaised img run) := by
  unfold floorRaised
  split
  · exact ((Leaves.refl ..).setReg _ _ (by decide)).of_part (leaves_modSlotFw ..) (List.Subset.refl _) (List.nil_subset _)
  · exact .refl ..

theorem confirmTold_running (b : Block) :
    b.confirmTold.firmware.slots[b.firmware.running] = { b.firmware.slots[b.firmware.running] with state := 3 } := by
  rw [confirmTold, raise_firmware, floorRaised_running, slotConfirmed_running]

theorem confirmTold_other (b : Block) : b.confirmTold.firmware.slots[1 - b.firmware.running].state ≠ 3 := by
  rw [confirmTold, raise_firmware]
  exact floorRaised_other (slotConfirmed_other b)

theorem confirmTold_trialEnds (b : Block) : b.confirmTold.firmware.trialEnds = none := by
  rw [confirmTold, raise_firmware, floorRaised_trialEnds]
  rfl

theorem leaves_confirmTold (b : Block) : Leaves [.firmware] [Obj.fwSecurityFloor] b b.confirmTold := by
  have hconfirmed : Leaves [.firmware] [Obj.fwSecurityFloor] b b.slotConfirmed :=
    (Leaves.refl ..).of_part (leaves_slotConfirmed b) (List.Subset.refl _) (List.nil_subset _)
  exact (hconfirmed.trans (leaves_floorRaised ..)).raise _

/-! ## Checks and trials -/

theorem stageChecked_of_staged (h : b.firmware.status = 1) : b.stageChecked =
    (b.modFirmware fun x => { x with status := imageCheck (b.placeRead b.firmware.stage) (b.reg Obj.fwSecurityFloor) }).raise
      (if imageCheck (b.placeRead b.firmware.stage) (b.reg Obj.fwSecurityFloor) = 2 then 969 else 970) := if_neg (not_not_intro h)

theorem trialExpire_due {u : Time} (hu : b.firmware.trialEnds = some u) (hdue : due u b.now = true)
    (htrial : b.firmware.slots[b.firmware.running].state = 2) : b.trialExpire = b.restartCores 1 := by
  unfold trialExpire
  rw [hu]
  exact if_pos ⟨hdue, htrial⟩

/-! ## Attestation -/

/-- The row of the nonce holds bytes. -/
theorem findRow_nonce : (findRow 0x2160 0).any (fun row => row.ty.bits == 0 && row.ty != .table) = true := by decide +kernel

theorem nonce_written {nonce : List Byte} (hserved : b.served = true)
    (hfree : ∀ row, findRow 0x2160 0 = some row → b.lookCodes r 0x2160 0 = [] ∧ b.accessCodes r 0x2160 0 row = []) (hlen : nonce.length = 32) :
    b.dictWriteAt e r 0x2160 0 0 nonce = b.attestNonce r nonce := by
  cases hrow : findRow 0x2160 0 with
  | none => exact absurd findRow_nonce (by rw [hrow]; decide)
  | some row =>
    have hany := findRow_nonce
    rw [hrow, Option.any_some, Bool.and_eq_true] at hany
    obtain ⟨hlook, haccess⟩ := hfree row hrow
    unfold dictWriteAt
    rw [hserved, hrow]
    dsimp only
    rw [if_neg (by decide), if_pos (beq_iff_eq.mp hany.1)]
    unfold writeBytes
    rw [hlook, haccess, if_pos rfl, hlen, notTable (bne_iff_ne.mp hany.2)]
    rfl

/-- A report that is formed and signed (R511): its bytes are not the spec's. -/
def reportFormed (nonce : List Byte) (b : Block) : Block :=
  { b.used.used with attest := ⟨b.reportBody nonce ++ exactly 96 (Config.freeBytes b.free) ++ exactly 1772 (Config.freeBytes b.used.free),
      b.attest.leaf + 1⟩ }

/-- A report that is told, with the leaves that are left (R512). -/
def reportTold (nonce : List Byte) (b : Block) : Block :=
  ((b.reportFormed nonce).raise 977).raiseIf (decide (lmsLeaves - (b.attest.leaf + 1) ≤ 10485)) 978

theorem attestNonce_reports {nonce : List Byte} (hlen : nonce.length = 32) (hleft : b.attest.leaf < lmsLeaves) :
    b.attestNonce r nonce = (b.reportTold nonce).reply r .ok := by
  unfold attestNonce
  rw [if_neg (not_not_intro hlen), if_neg (Nat.not_le.mpr hleft)]
  rfl

theorem attestNonce_spent {nonce : List Byte} (hlen : nonce.length = 32) (hspent : lmsLeaves ≤ b.attest.leaf) :
    b.attestNonce r nonce = ((b.raise 979).logFault 0x0080 noUnit 0 979).reply r (.abort .deviceState) := by
  unfold attestNonce
  rw [if_neg (not_not_intro hlen), if_pos hspent]

theorem attest_reportTold (nonce : List Byte) (b : Block) : (b.reportTold nonce).attest = (b.reportFormed nonce).attest := by
  rw [reportTold]
  generalize decide (lmsLeaves - (b.attest.leaf + 1) ≤ 10485) = low
  cases low <;> rfl

theorem attest_reply (r : Route) (res : Result) (b : Block) : (b.reply r res).attest = b.attest := by cases r <;> rfl

theorem report_body (nonce : List Byte) (b : Block) :
    (b.reportFormed nonce).attest.report.take (b.reportBody nonce).length = b.reportBody nonce := by
  rw [reportFormed, List.append_assoc]
  exact List.take_left

theorem report_length (nonce : List Byte) (b : Block) : (b.reportFormed nonce).attest.report.length = (b.reportBody nonce).length + 1868 := by
  rw [reportFormed, List.length_append, List.length_append, exactly_length, exactly_length]

theorem reportTold_fired (nonce : List Byte) (b : Block) : (b.reportTold nonce).Fired 977 := by
  rw [reportTold]
  generalize decide (lmsLeaves - (b.attest.leaf + 1) ≤ 10485) = low
  cases low
  · exact raise_fired ..
  · exact List.mem_append_left _ (raise_fired 977 _)

theorem reportTold_low (nonce : List Byte) (h : lmsLeaves - (b.attest.leaf + 1) ≤ 10485) : (b.reportTold nonce).Fired 978 := by
  rw [reportTold, decide_eq_true h]
  exact raise_fired ..

theorem Leaves.withAttest {P : List Piece} {R : List Obj} {n : Block} (h : Leaves P R b n) (x : Attest) (hp : Piece.attest ∈ P) :
    Leaves P R b { n with attest := x } := { h with attest := fun q => absurd hp q }

theorem leaves_reportTold (nonce : List Byte) (b : Block) : Leaves [.attest] [] b (b.reportTold nonce) := by
  have hformed : Leaves [.attest] [] b (b.reportFormed nonce) := (Leaves.refl ..).used.used.withAttest _ List.mem_cons_self
  exact (hformed.raise _).raiseIf _ _

end Sys2Proof.Machine.Block

namespace Sys2Proof
open Machine Machine.Block

/-- Settles O55: an accepted command has passed its checks, the slot that does not run is the one that changes, and a report is its body
with the signatures after it. -/
theorem firmwareAndAttestation : Obligations.FirmwareAndAttestation := by
  unfold Obligations.FirmwareAndAttestation
  refine ⟨fun t r s => ?firmware, fun t r nonce s => ?attestation⟩
  case firmware =>
    intro b run other staged check
    refine ⟨fun hstatus => ?checked, fun ha hstatus hrun hidle => ?write,
      fun hwriting verified => ?written, fun othersRun ha hcommit hidle => ?activate, fun ha htrial => ?confirm, fun ha hconfirmed => ?refused,
      fun u hu hdue htrial => ?expired⟩
    case checked => exact does_of_run rfl (stageChecked_of_staged hstatus)
    case expired => exact does_of_run rfl (trialExpire_due hu hdue htrial)
    case write => exact does_of_run rfl ((writeTo_fwWrite ha).trans (fwWrite_of_staged hstatus hrun hidle))
    case written =>
      have hslot := slotWritten_slot (same := verified) hwriting
      exact ⟨b.slotWritten verified, does_of_run rfl rfl, slotWritten_idle hwriting, congrArg FwSlot.image hslot, congrArg FwSlot.state hslot,
        slotWritten_running hwriting, slotWritten_fired hwriting, leaves_slotWritten hwriting⟩
    case activate =>
      exact does_of_run rfl ((writeTo_fwActivate ha).trans ((fwActivate_of_accepts ha hcommit hidle).trans (activate_reply ..)))
    case confirm =>
      refine ⟨_, does_of_run rfl ((writeTo_fwConfirm ha).trans (fwConfirm_of_trial htrial)), ?_, ?_, ?_, fired_reply (raise_fired ..),
        reply_answered .., (leaves_confirmTold b).reply r .ok⟩
      all_goals rw [firmware_reply]
      · exact confirmTold_running b
      · exact confirmTold_other b
      · exact confirmTold_trialEnds b
    case refused => exact does_of_run rfl ((writeTo_fwConfirm ha).trans (fwConfirm_of_confirmed hconfirmed))
  case attestation =>
    intro b hserved hfree hlen
    refine ⟨fun hleft => ⟨_, does_of_run rfl ((nonce_written hserved hfree hlen).trans (attestNonce_reports hlen hleft)), ?_, ?_, ?_,
      fired_reply (reportTold_fired ..), fun hlow => fired_reply (reportTold_low _ hlow), reply_answered .., (leaves_reportTold ..).reply r .ok⟩,
      fun hspent => does_of_run rfl ((nonce_written hserved hfree hlen).trans (attestNonce_spent hlen hspent))⟩
    all_goals rw [attest_reply, attest_reportTold]
    · rfl
    · exact report_body nonce b
    · exact report_length nonce b

end Sys2Proof

/-! # Supplies and the thermal governor (R520, R523, R536, R544 to R548)

A reading is taken in three moves that the thermal hold plays no part in, and then decided. The hold stops its heads one after the other;
none of the four touches what the readings and the state show. -/

namespace Sys2Proof.Machine.Block

variable {b : Block}

/-! ## Rails -/

/-- A rail below its good level, as counted among the rails (R520). -/
def railTold (rail : Fin 11) (mv : Nat) (b : Block) : Block :=
  (((b.setReg (Obj.powerRailMv rail) mv).setReg Obj.powerRailStatus (setBit (b.reg Obj.powerRailStatus) rail)).raise 9).logFault 0x0003 rail.val mv 9

theorem railLow_low {rail : Fin 11} {mv : Nat} (hp : b.power.phase ≠ .held) (hfault : (railLevels.getD rail (0, 0)).2 ≤ mv)
    (hgood : mv < (railLevels.getD rail (0, 0)).1) : b.railLow rail mv = b.railTold rail mv :=
  (if_neg (not_or.mpr ⟨hp, Nat.not_le.mpr hgood⟩)).trans (if_neg (Nat.not_lt.mpr hfault))

theorem railLow_good {rail : Fin 11} {mv : Nat} (hgood : (railLevels.getD rail (0, 0)).1 ≤ mv) : b.railLow rail mv = b := if_pos (.inr hgood)

theorem levels_ordered (rail : Fin 11) : (railLevels.getD rail (0, 0)).2 < (railLevels.getD rail (0, 0)).1 := by revert rail; decide

theorem railLow_fault {rail : Fin 11} {mv : Nat} (hp : b.power.phase ≠ .held) (hfault : mv < (railLevels.getD rail (0, 0)).2) :
    b.railLow rail mv = b.pierReset 4 := by
  have hgood : ¬ (railLevels.getD rail (0, 0)).1 ≤ mv := Nat.not_le.mpr (Nat.lt_trans hfault (levels_ordered rail))
  refine (if_neg (not_or.mpr ⟨hp, hgood⟩)).trans ((if_pos hfault).trans ((if_pos (.inl hp)).trans (if_neg hp)))

theorem pierReset_power (causes : Nat) (b : Block) : (b.pierReset causes).power.phase = .held ∧ (b.pierReset causes).power.causes = causes := by
  have hkept (f : Block) (l : Map Nat) : (l.foldl (fun (f : Block) e => { f with regs := f.regs.insert e.1 e.2 }) f).power = f.power :=
    foldl_keeps Block.power _ l f fun _ _ => rfl
  unfold pierReset
  dsimp only [setReg]
  rw [hkept]
  exact ⟨rfl, rfl⟩

theorem railMv_key_ne (rail : Fin 11) : (Obj.powerRailMv rail).key ≠ Obj.powerRailStatus.key := by revert rail; decide

theorem railMv_railTold {rail : Fin 11} {mv : BitVec 16} : (b.railTold rail mv.toNat).reg (Obj.powerRailMv rail) = mv.toNat := by
  unfold railTold
  rw [logFault_reg]
  refine (reg_setReg_ne _ _ _ _ (railMv_key_ne rail)).trans ((reg_setReg_self ..).trans ?_)
  exact Nat.mod_eq_of_lt mv.isLt

theorem railStatus_railTold (rail : Fin 11) (mv : Nat) (b : Block) :
    (b.railTold rail mv).reg Obj.powerRailStatus = setBit (b.reg Obj.powerRailStatus) rail.val % 2 ^ 16 := by
  unfold railTold
  rw [logFault_reg]
  exact reg_setReg_self ..

theorem railTold_fired (rail : Fin 11) (mv : Nat) (b : Block) : (b.railTold rail mv).Fired 9 := by
  rw [Fired, railTold, logFault_outs]
  exact raise_fired ..

theorem leaves_railTold (rail : Fin 11) (mv : Nat) (b : Block) :
    Leaves [.faults] [Obj.powerRailMv rail.val, Obj.powerRailStatus] b (b.railTold rail mv) := by
  unfold railTold
  have hset : Leaves [.faults] [Obj.powerRailMv rail.val, Obj.powerRailStatus] b
      ((b.setReg (Obj.powerRailMv rail) mv).setReg Obj.powerRailStatus (setBit (b.reg Obj.powerRailStatus) rail)) :=
    ((Leaves.refl ..).setReg _ _ List.mem_cons_self).setReg _ _ (List.mem_cons_of_mem _ List.mem_cons_self)
  exact (hset.raise _).of_part (leaves_logFault ..) (List.Subset.refl _) (List.nil_subset _)

theorem railsGood_good (h : b.reg Obj.powerRailStatus = 0) : b.railsGood = b := if_pos h

theorem railsGood_bad (h : b.reg Obj.powerRailStatus ≠ 0) : b.railsGood = ((b.setReg Obj.powerRailStatus 0).raise 10).emcyClear 2 := if_neg h

/-- The rail readings, set one after the other. -/
def railsSet (l : List (Nat × Nat)) (b : Block) : Block := l.foldl (fun b p => b.setReg (Obj.powerRailMv p.1) p.2) b

theorem taskDo_railLatch (st : Time) (e : Env) (mv : List Nat) (b : Block) : b.taskDo 2 st e mv = b.railLatch mv := rfl

theorem railMv_railsSet {l : List (Nat × Nat)} {k : Nat} (h : ∀ p ∈ l, p.1 ≠ k) : (b.railsSet l).reg (Obj.powerRailMv k) = b.reg (Obj.powerRailMv k) := by
  induction l generalizing b with
  | nil => rfl
  | cons p l ih =>
    have hkey : (Obj.powerRailMv k).key ≠ (Obj.powerRailMv p.1).key := by
      have := h p List.mem_cons_self
      simp only [Obj.key, Obj.powerRailMv]
      omega
    exact (ih (b := b.setReg (Obj.powerRailMv p.1) p.2) fun q hq => h q (List.mem_cons_of_mem _ hq)).trans (reg_setReg_ne _ _ _ _ hkey)

theorem sampled_railLatch (ha : b.taskAlive 2 = true) (mv : List Nat) : b.sampled 2 Env.quiet mv = (b.unlatch 2).railLatch mv :=
  (sampled_alone 2 Env.quiet mv b rfl ha).trans (taskDo_railLatch ..)

/-- Of readings in rising order each is the one of its rail. -/
theorem railMv_railLatch {mv : List Nat} {m : Nat} : ∀ k, k < mv.length →
    (b.railsSet ((List.range' m mv.length).zip mv)).reg (Obj.powerRailMv (m + k)) = mv.getD k 0 % 2 ^ 16 := by
  induction mv generalizing b m with
  | nil => exact fun k hk => absurd hk (Nat.not_lt_zero k)
  | cons v mv ih =>
    intro k hk
    rw [List.length_cons, List.range'_succ, List.zip_cons_cons]
    cases k with
    | zero =>
      refine (railMv_railsSet (b := b.setReg (Obj.powerRailMv m) v) fun p hp => ?_).trans (reg_setReg_self ..)
      have := List.mem_range'_1.mp (List.of_mem_zip hp).1
      omega
    | succ k =>
      have hlater := ih (b := b.setReg (Obj.powerRailMv m) v) (m := m + 1) k (by simpa using hk)
      rw [List.getD_cons_succ, ← hlater, Nat.add_assoc, Nat.add_comm 1 k]
      rfl

theorem leaves_railLatch {mv : List Nat} : Leaves [] ((List.range 11).map Obj.powerRailMv) b (b.railLatch mv) :=
  List.foldlRecOn (motive := Leaves [] ((List.range 11).map Obj.powerRailMv) b) _ _ (Leaves.refl ..) fun _ hc _ hp =>
    hc.setReg _ _ (List.mem_map_of_mem (List.of_mem_zip hp).1)

/-! ## The references (R523) -/

theorem leaves_linkDown (h : b.host.linkUp = true) : Leaves ringParts ([Obj.hostLinkSpeed, Obj.hostLinkWidth] ++ offerRegs) b b.linkDown := by
  rw [linkDown_up h]
  have hcleared : Leaves ringParts ([Obj.hostLinkSpeed, Obj.hostLinkWidth] ++ offerRegs) b b.linkCleared :=
    (Leaves.refl ..).of_part (leaves_linkCleared b) (by decide) (List.subset_append_left ..)
  exact leaves_offered false hcleared (by decide) (List.subset_append_right ..)

theorem linkDown_link (h : b.host.linkUp = true) : b.linkDown.host.linkUp = false := by
  rw [linkDown_up h, host_offer]
  rfl

theorem linkDown_fired (h : b.host.linkUp = true) : b.linkDown.Fired 833 := by
  rw [linkDown_up h]
  exact offer_fires (List.mem_append_right _ (List.mem_singleton_self _))

/-- The PCIe reference is lost while the link is up. -/
theorem pcieRefLost_up (href : b.power.pcieRef = true) :
    b.pcieRefLost = ((b.modPower fun x => { x with pcieRef := false }).linkDown).raise 11 := if_pos href

theorem pcieRefLost_gone (href : b.power.pcieRef = false) : b.pcieRefLost = b := if_neg (by rw [href]; decide)

theorem pcieRefRestored_gone (href : b.power.pcieRef = false) :
    b.pcieRefRestored = (b.modPower fun x => { x with pcieRef := true }).raise 12 := if_neg (by rw [href]; decide)

/-! ## Readings (R544, R547, R548) -/

theorem regI_setRegI_i16 {o : Obj} {v : Int} (ho : o.ty = .i16) (hlow : -32768 ≤ v) (hhigh : v < 32768) : (b.setRegI o v).regI o = v := by
  have hreg : (b.setRegI o v).reg o = ofSigned 16 v % 2 ^ 16 := by rw [setRegI, reg_setReg_self, ho]; rfl
  rw [regI, ho, hreg]
  show toSigned 16 (ofSigned 16 v % 2 ^ 16) = v
  unfold toSigned ofSigned
  split <;> omega

/-- The readings are taken. -/
def readingsTaken (case_ die : Int) (b : Block) : Block :=
  let b := (b.setRegI Obj.thermalCase case_).setRegI Obj.thermalDie die
  if b.regI Obj.thermalDiePeak < die then b.setRegI Obj.thermalDiePeak die else b

/-- The times above the thresholds are counted, and a threshold crossed in the cycle of an evaluation. -/
def readingsCounted (case0 die0 case_ die : Int) (withEvaluation : Bool) (b : Block) : Block :=
  let crosses (limit : Int) (old new : Int) : Bool := decide (old < limit) != decide (new < limit)
  let b := if withEvaluation && (crosses (110 * 16 + 1) case0 case_ || crosses (120 * 16) die0 die || crosses (115 * 16) die0 die)
    then b.bump Obj.thermalNearMisses else b
  let low := b.addMs Obj.thermalTimeAbove95 (decide (95 * 16 < case_)) b.thermal.above95
  let high := low.2.addMs Obj.thermalTimeAbove110 (decide (110 * 16 < case_)) low.2.thermal.above110
  { high.2 with thermal := { high.2.thermal with above95 := low.1, above110 := high.1 } }

/-- The refresh follows the case, and the crossings are told. -/
def readingsTold (case0 die0 case_ die : Int) (b : Block) : Block :=
  let fast := b.reg Obj.bufferRefreshState
  let b := b.refreshFollow case_
  let b := if b.reg Obj.bufferRefreshState = fast then b else (b.raise (if fast = 0 then 16 else 17)).alert 1
  let b := b.raiseIf (decide (case0 ≤ 110 * 16) && decide (110 * 16 < case_)) 18
  let b := b.raiseIf (decide (110 * 16 < case0) && decide (case_ ≤ 110 * 16)) 19
  let b := b.raiseIf (decide (die0 < 120 * 16) && decide (120 * 16 ≤ die)) 22
  let b := b.raiseIf (decide (die0 < 130 * 16) && decide (130 * 16 ≤ die)) 23
  if case0 < 110 * 16 ∧ 110 * 16 ≤ case_ then b.emcyCause 0x4210 3 0 0xFFFF
    else if 110 * 16 ≤ case0 ∧ case_ < 110 * 16 then b.emcyClear 3 else b

/-- The pier as a reading finds it before the governor's state is decided. -/
def sensed (case_ die : Int) (withEvaluation : Bool) (b : Block) : Block :=
  (((b.readingsTaken case_ die).readingsCounted (b.regI Obj.thermalCase) (b.regI Obj.thermalDie) case_ die withEvaluation)).readingsTold
    (b.regI Obj.thermalCase) (b.regI Obj.thermalDie) case_ die

/-- The governor's state follows a reading (R546). -/
def thermalDecided (case_ die : Int) (b : Block) : Block :=
  if b.reg Obj.thermalState = 3 then
    if die < 118 * 16 ∧ case_ ≤ 119 * 16 then (b.setReg Obj.thermalState b.thermalStateFor).alert 1 else b
  else if 124 * 16 ≤ die ∨ 121 * 16 < case_ then b.holdEnter
  else b.setReg Obj.thermalState b.thermalStateFor

theorem thermalReading_eq (case_ die : Int) (withEvaluation : Bool) (b : Block) :
    b.thermalReading case_ die withEvaluation = (b.sensed case_ die withEvaluation).thermalDecided case_ die := rfl

/-- The registers that a reading sets before the governor's state. -/
def sensedRegs : List Obj := [Obj.thermalCase, Obj.thermalDie, Obj.thermalDiePeak, Obj.thermalNearMisses, Obj.thermalTimeAbove95,
  Obj.thermalTimeAbove110, Obj.bufferRefreshState, Obj.bufferUsable]

theorem leaves_readingsTaken (case_ die : Int) (b : Block) :
    Leaves [] [Obj.thermalCase, Obj.thermalDie, Obj.thermalDiePeak] b (b.readingsTaken case_ die) := by
  have hset : Leaves [] [Obj.thermalCase, Obj.thermalDie, Obj.thermalDiePeak] b ((b.setRegI Obj.thermalCase case_).setRegI Obj.thermalDie die) :=
    ((Leaves.refl ..).setRegI _ _ (by decide)).setRegI _ _ (by decide)
  unfold readingsTaken
  dsimp only
  split
  · exact hset.setRegI _ _ (by decide)
  · exact hset

theorem leaves_addMs (o : Obj) (above : Bool) (ms : Nat) (b : Block) : Leaves [] [o] b (b.addMs o above ms).2 := by
  unfold addMs
  split
  · exact .refl ..
  split
  · exact (Leaves.refl ..).bump _ (List.mem_singleton_self _)
  · exact .refl ..

/-- The registers of the governor's counts. -/
def countedRegs : List Obj := [Obj.thermalNearMisses, Obj.thermalTimeAbove95, Obj.thermalTimeAbove110]

theorem leaves_readingsCounted (case0 die0 case_ die : Int) (same : Bool) (b : Block) :
    Leaves [.thermal] countedRegs b (b.readingsCounted case0 die0 case_ die same) := by
  unfold readingsCounted
  extract_lets crosses b1 low high
  have h1 : Leaves [.thermal] countedRegs b b1 := by
    unfold b1
    split
    · exact (Leaves.refl ..).bump _ (by decide)
    · exact .refl ..
  have hlow : Leaves [.thermal] countedRegs b low.2 := h1.of_part (leaves_addMs ..) (List.nil_subset _) (by decide)
  have hhigh : Leaves [.thermal] countedRegs b high.2 := hlow.of_part (leaves_addMs ..) (List.nil_subset _) (by decide)
  exact hhigh.thermal_set _ (by decide)

/-- The registers of the refresh. -/
def refreshRegs : List Obj := [Obj.bufferRefreshState, Obj.bufferUsable]

theorem leaves_refreshFollow (case_ : Int) (b : Block) : Leaves [] refreshRegs b (b.refreshFollow case_) := by
  unfold refreshFollow
  split
  · exact (((Leaves.refl ..).setReg _ _ (by decide)).setReg _ _ (by decide)).raise _
  split
  · exact (((Leaves.refl ..).setReg _ _ (by decide)).setReg _ _ (by decide)).raise _
  · exact .refl ..

theorem leaves_readingsTold (case0 die0 case_ die : Int) (b : Block) :
    Leaves [.smb, .can] refreshRegs b (b.readingsTold case0 die0 case_ die) := by
  unfold readingsTold
  extract_lets fast b1 b2 b3 b4 b5 b6
  have h1 : Leaves [.smb, .can] refreshRegs b b1 := (Leaves.refl ..).of_part (leaves_refreshFollow ..) (List.nil_subset _) (List.Subset.refl _)
  have h2 : Leaves [.smb, .can] refreshRegs b b2 := by
    unfold b2
    split
    · exact h1
    · exact (h1.raise _).of_part (leaves_alert ..) (by decide) (List.nil_subset _)
  have h6 : Leaves [.smb, .can] refreshRegs b b6 := (((h2.raiseIf ..).raiseIf ..).raiseIf ..).raiseIf ..
  split
  · exact h6.of_part (leaves_emcyCause ..) (by decide) (List.nil_subset _)
  split
  · exact h6.of_part (leaves_emcyClear ..) (by decide) (List.nil_subset _)
  · exact h6

/-- A die that crosses 120 °C is told (R547). -/
theorem readingsTold_fired {case0 die0 case_ die : Int} (hold : die0 < 120 * 16) (hnew : 120 * 16 ≤ die) :
    (b.readingsTold case0 die0 case_ die).Fired 22 := by
  unfold readingsTold
  extract_lets fast b1 b2 b3 b4 b5 b6
  have h5 : b5.Fired 22 := by
    unfold b5
    rw [decide_eq_true hold, decide_eq_true hnew]
    exact raise_fired ..
  exact Within.fired (P := Anywhere) (((Within.refl _ b5).raiseIf.emcyCause).ite ((Within.refl _ b5).raiseIf.emcyClear.ite (Within.refl _ b5).raiseIf)) h5

theorem leaves_sensed (case_ die : Int) (same : Bool) (b : Block) :
    Leaves [.thermal, .smb, .can] sensedRegs b (b.sensed case_ die same) := by
  unfold sensed
  have htaken : Leaves [.thermal, .smb, .can] sensedRegs b (b.readingsTaken case_ die) :=
    (Leaves.refl ..).of_part (leaves_readingsTaken ..) (List.nil_subset _) (by decide)
  exact (htaken.of_part (leaves_readingsCounted ..) (by decide) (by decide)).of_part (leaves_readingsTold ..) (by decide) (by decide)

theorem regI_of_reg {n : Block} {o : Obj} (h : n.reg o = b.reg o) : n.regI o = b.regI o := by rw [regI, h, regI]

/-- What is told and counted plays no part in the readings. -/
theorem reg_sensed {o : Obj} (hcounted : ∀ x ∈ countedRegs, o.key ≠ x.key) (hrefresh : ∀ x ∈ refreshRegs, o.key ≠ x.key) (case_ die : Int)
    (same : Bool) : (b.sensed case_ die same).reg o = (b.readingsTaken case_ die).reg o :=
  ((leaves_readingsTold ..).reg o hrefresh).trans ((leaves_readingsCounted ..).reg o hcounted)

theorem reg_readingsTaken {o : Obj} (ho : o.key ≠ Obj.thermalDiePeak.key) (case_ die : Int) :
    (b.readingsTaken case_ die).reg o = ((b.setRegI Obj.thermalCase case_).setRegI Obj.thermalDie die).reg o := by
  unfold readingsTaken
  dsimp only
  split
  · exact reg_setReg_ne _ _ _ _ ho
  · rfl

variable {case_ die : Int} {same : Bool}

theorem case_sensed (hlow : -32768 ≤ case_) (hhigh : case_ < 32768) : (b.sensed case_ die same).regI Obj.thermalCase = case_ := by
  refine (regI_of_reg ((reg_sensed (by decide) (by decide) ..).trans ((reg_readingsTaken (by decide) ..).trans
    (reg_setReg_ne _ _ _ _ (by decide))))).trans (regI_setRegI_i16 rfl hlow hhigh)

theorem die_sensed (hlow : -32768 ≤ die) (hhigh : die < 32768) : (b.sensed case_ die same).regI Obj.thermalDie = die :=
  (regI_of_reg ((reg_sensed (by decide) (by decide) ..).trans (reg_readingsTaken (by decide) ..))).trans (regI_setRegI_i16 rfl hlow hhigh)

theorem peak_sensed (hlow : -32768 ≤ die) (hhigh : die < 32768) :
    (b.sensed case_ die same).regI Obj.thermalDiePeak = max (b.regI Obj.thermalDiePeak) die := by
  have hbefore : ((b.setRegI Obj.thermalCase case_).setRegI Obj.thermalDie die).regI Obj.thermalDiePeak = b.regI Obj.thermalDiePeak :=
    regI_of_reg ((reg_setReg_ne _ _ _ _ (by decide)).trans (reg_setReg_ne _ _ _ _ (by decide)))
  refine (regI_of_reg (reg_sensed (by decide) (by decide) ..)).trans ?_
  unfold readingsTaken
  dsimp only
  rw [hbefore]
  split
  next hless => rw [regI_setRegI_i16 rfl hlow hhigh, Int.max_eq_right (Int.le_of_lt hless)]
  next hless => rw [hbefore, Int.max_eq_left (Int.not_lt.mp hless)]

theorem state_sensed (case_ die : Int) (same : Bool) (b : Block) : (b.sensed case_ die same).reg Obj.thermalState = b.reg Obj.thermalState :=
  (leaves_sensed ..).reg _ (by decide)

/-! ## The thermal hold (R546, R548) -/

/-- A register that the thermal hold of a head leaves. -/
structure Unheld (y : Obj) : Prop extends Unheaded y where
  vetoes : y.key ≠ Obj.thermalVetoes.key
  startFail : y.key ≠ Obj.ringStartFail.key

namespace SameReg
variable {y : Obj} {b₀ : Block}

theorem startFail (w : SameReg y b₀ b) (hy : Unheld y) {h : HeadId} {c : AbortCode} {bank : Bool} {mv : Nat} :
    SameReg y b₀ (b.startFail h c bank mv) := by
  unfold Block.startFail
  have w1 : SameReg y b₀ (if bank then b.logFault 0x0010 h.val mv noSource else b) := SameReg.ite ((logFault_reg ..).trans w) w
  exact (w1.answerStart.enterStopped hy.toUnheaded).ringStartHead hy.startFail

theorem holdHead (w : SameReg y b₀ b) (hy : Unheld y) {h : HeadId} : SameReg y b₀ (b.holdHead h) :=
  SameReg.ite ((w.bump hy.vetoes).startFail hy) (w.headStop hy.toUnheaded)

theorem alert (w : SameReg y b₀ b) {i : Nat} : SameReg y b₀ (b.alert i) := ((leaves_alert i b).reg y (by simp)).trans w

end SameReg

/-- Every head holds, one after the other. -/
def headsHeld (b : Block) : Block := (List.finRange 4).foldl (fun b (h : HeadId) => b.holdHead h) b

/-- The hold as it is entered, before its heads stop. -/
def holdTold (b : Block) : Block :=
  ((((b.setReg Obj.thermalState 3).bump Obj.thermalHolds).raise 20).logFault 0x0070 noUnit
    ((((b.setReg Obj.thermalState 3).bump Obj.thermalHolds).raise 20).reg Obj.thermalDie) 20).alert 1

theorem holdEnter_eq (b : Block) : b.holdEnter = b.holdTold.headsHeld := rfl

theorem reg_headsHeld {y : Obj} (hy : Unheld y) : b.headsHeld.reg y = b.reg y :=
  SameReg.foldl (SameReg.refl y b) (fun _ _ w => w.holdHead hy) _

theorem reg_holdTold {y : Obj} (hy : y.key ≠ Obj.thermalHolds.key) : b.holdTold.reg y = (b.setReg Obj.thermalState 3).reg y :=
  SameReg.alert ((logFault_reg ..).trans (SameReg.raise (SameReg.bump (SameReg.refl y _) hy)))

theorem state_holdEnter (b : Block) : b.holdEnter.reg Obj.thermalState = 3 := by
  rw [holdEnter_eq, reg_headsHeld ⟨⟨by decide, by decide⟩, by decide, by decide⟩, reg_holdTold (by decide)]
  exact reg_setReg_self ..

theorem reg_holdEnter {y : Obj} (hy : Unheld y) (hholds : y.key ≠ Obj.thermalHolds.key) (hstate : y.key ≠ Obj.thermalState.key) :
    b.holdEnter.reg y = b.reg y := by
  rw [holdEnter_eq, reg_headsHeld hy, reg_holdTold hholds, reg_setReg_ne _ _ _ _ hstate]

theorem holdTold_fired (b : Block) : b.holdTold.Fired 20 := by
  refine alert_outs _ _ _ ?_
  rw [logFault_outs]
  exact raise_fired ..

theorem headsHeld_fired {k : Nat} (h : b.Fired k) : b.headsHeld.Fired k :=
  Within.fired (P := Anywhere) ((Within.refl _ b).foldl fun _ _ w => w.holdHead trivial trivial) h

theorem Rests.not_running {x : Head} (h : Rests x) : x.state ≠ .running := by
  rcases h.state with hs | hs <;> rw [hs] <;> decide

theorem headStop_stops (h : HeadId) (b : Block) : (b.headStop h).heads[h].state ≠ .running := by
  unfold headStop
  split
  next hs =>
    generalize hc : (b.modHead h fun x => { x with state := .stopping, nextDue := none, owed := [], stateSince := b.now }) = c
    have hstopping : ((c.calFail h 9).stitchCalFail h 9).heads[h].state = .stopping := by
      rw [(Within.refl Nothing c).calFail.stitchCalFail.same_heads h, ← hc, heads_modHead_same]
    unfold stopIfDone
    split
    · exact (enterStopped_head ..).1.not_running
    · rw [hstopping]
      decide
  next => exact (enterStopped_head ..).1.not_running
  next => exact (enterStopped_head ..).1.not_running
  next hrunning _ _ => exact hrunning

theorem holdHead_stops (h : HeadId) (b : Block) : (b.holdHead h).heads[h].state ≠ .running := by
  unfold holdHead
  split
  · exact (startFail_head ..).not_running
  · exact headStop_stops h b

theorem holdHead_other {g h : HeadId} (hne : h ≠ g) (b : Block) : (b.holdHead g).heads[h] = b.heads[h] :=
  (Within.holdHead (P := HeadAndCapture g) (.refl _ b) (.inr rfl) (.inl rfl)).heads h (by
    rintro (hhead | hcap)
    · exact hne (Piece.head.inj hhead)
    · cases hcap)

theorem headsHeld_stops (h : HeadId) (b : Block) : b.headsHeld.heads[h].state ≠ .running :=
  foldl_brings (p := fun c : Block => c.heads[h].state ≠ .running) (List.mem_finRange h) (holdHead_stops h) (fun c g _ hc => by
    by_cases hg : h = g
    · rw [← hg]
      exact holdHead_stops h c
    · rw [holdHead_other hg]
      exact hc) b

/-! ## The state of the governor -/

/-- The two states of a reading that asks for no hold. -/
theorem thermalStateFor_ne (b : Block) : b.thermalStateFor % 2 ^ 8 ≠ 3 := by
  unfold thermalStateFor
  split
  · decide
  split <;> decide

theorem thermalDecided_hot (hhot : 124 * 16 ≤ die ∨ 121 * 16 < case_) (h : b.reg Obj.thermalState ≠ 3) :
    b.thermalDecided case_ die = b.holdEnter := (if_neg h).trans (if_pos hhot)

theorem thermalDecided_cool (hdie : die < 124 * 16) (hcase : case_ ≤ 121 * 16) (h : b.reg Obj.thermalState ≠ 3) :
    b.thermalDecided case_ die = b.setReg Obj.thermalState b.thermalStateFor := (if_neg h).trans (if_neg (by omega))

theorem thermalDecided_held (hhot : 124 * 16 ≤ die ∨ 121 * 16 < case_) (h : b.reg Obj.thermalState = 3) : b.thermalDecided case_ die = b :=
  (if_pos h).trans (if_neg (by omega))

theorem state_thermalDecided (hhot : 124 * 16 ≤ die ∨ 121 * 16 < case_) : (b.thermalDecided case_ die).reg Obj.thermalState = 3 := by
  by_cases h : b.reg Obj.thermalState = 3
  · rw [thermalDecided_held hhot h, h]
  · rw [thermalDecided_hot hhot h, state_holdEnter]

/-- What a decision leaves of the readings. -/
theorem reg_thermalDecided {y : Obj} (hy : Unheld y) (hholds : y.key ≠ Obj.thermalHolds.key) (hstate : y.key ≠ Obj.thermalState.key)
    (case_ die : Int) : (b.thermalDecided case_ die).reg y = b.reg y := by
  unfold thermalDecided
  split
  · split
    · exact SameReg.alert (SameReg.setReg (SameReg.refl y b) hstate)
    · rfl
  split
  · exact reg_holdEnter hy hholds hstate
  · exact reg_setReg_ne _ _ _ _ hstate

theorem thermalDecided_fired {k : Nat} (h : b.Fired k) : (b.thermalDecided case_ die).Fired k := by
  unfold thermalDecided
  split
  · split
    · exact alert_outs _ _ _ h
    · exact h
  split
  · refine headsHeld_fired (alert_outs _ _ _ ?_)
    rw [logFault_outs]
    exact List.mem_append_left _ h
  · exact h

/-! ## Evaluations (R545) -/

/-- The step of an evaluation. -/
def governorStep (b : Block) : Block :=
  let n := b.reg Obj.thermalStep
  let die := b.regI Obj.thermalDie
  if 110 * 16 < b.regI Obj.thermalCase then
    if 120 * 16 ≤ die ∧ n < 7 then (b.setReg Obj.thermalStep (n + 1)).raise 20
    else if die < 115 * 16 ∧ 0 < n then (b.setReg Obj.thermalStep (n - 1)).raise 21
    else b
  else if 0 < n then (b.setReg Obj.thermalStep (n - 1)).raise 21
  else b

/-- Outside the hold the governor's state follows. -/
def governorState (b : Block) : Block := if b.reg Obj.thermalState = 3 then b else b.setReg Obj.thermalState b.thermalStateFor

theorem governorEvaluate_eq (b : Block) : b.governorEvaluate = b.governorStep.governorState := rfl

theorem governorStep_raises (hcase : 110 * 16 < b.regI Obj.thermalCase) (hdie : 120 * 16 ≤ b.regI Obj.thermalDie)
    (hstep : b.reg Obj.thermalStep < 7) : b.governorStep = (b.setReg Obj.thermalStep (b.reg Obj.thermalStep + 1)).raise 20 :=
  (if_pos hcase).trans (if_pos ⟨hdie, hstep⟩)

theorem governorStep_lowers (hcool : b.regI Obj.thermalDie < 115 * 16 ∨ b.regI Obj.thermalCase ≤ 110 * 16) (hstep : 0 < b.reg Obj.thermalStep) :
    b.governorStep = (b.setReg Obj.thermalStep (b.reg Obj.thermalStep - 1)).raise 21 := by
  by_cases hcase : 110 * 16 < b.regI Obj.thermalCase
  · have hdie : b.regI Obj.thermalDie < 115 * 16 := hcool.resolve_right (by omega)
    exact (if_pos hcase).trans ((if_neg (by omega)).trans (if_pos ⟨hdie, hstep⟩))
  · exact (if_neg hcase).trans (if_pos hstep)

theorem governorStep_rests (hcase : b.regI Obj.thermalCase ≤ 110 * 16) (hstep : b.reg Obj.thermalStep = 0) : b.governorStep = b :=
  (if_neg (by omega)).trans (if_neg (by omega))

theorem step_governorState (b : Block) : b.governorState.reg Obj.thermalStep = b.reg Obj.thermalStep := by
  unfold governorState
  split
  · rfl
  · exact reg_setReg_ne _ _ _ _ (by decide)

theorem governorState_fired {k : Nat} (h : b.Fired k) : b.governorState.Fired k := by
  unfold governorState
  split <;> exact h

theorem leaves_governorState (b : Block) : Leaves [] [Obj.thermalState] b b.governorState := by
  unfold governorState
  split
  · exact .refl ..
  · exact (Leaves.refl ..).setReg _ _ (by decide)

/-- An evaluation that moves the step to n with event k. -/
structure StepMoved (n k : Nat) (b c : Block) : Prop where
  step : c.reg Obj.thermalStep = n
  fired : c.Fired k
  leaves : Leaves [] [Obj.thermalStep, Obj.thermalState] b c

theorem stepMoved {n k : Nat} (hn : n < 256) (h : b.governorStep = (b.setReg Obj.thermalStep n).raise k) : StepMoved n k b b.governorEvaluate := by
  have hset : Leaves [] [Obj.thermalStep, Obj.thermalState] b ((b.setReg Obj.thermalStep n).raise k) :=
    ((Leaves.refl ..).setReg _ _ (by decide)).raise _
  rw [governorEvaluate_eq, h]
  exact ⟨(step_governorState _).trans ((reg_setReg_self ..).trans (Nat.mod_eq_of_lt hn)), governorState_fired (raise_fired ..),
    hset.of_part (leaves_governorState _) (List.Subset.refl _) (by decide)⟩

end Sys2Proof.Machine.Block

namespace Sys2Proof
open Machine Machine.Block

/-- Settles O57: rails and references are equations of the pier, a reading is taken before the governor's state is decided, and the hold
stops every head while it leaves what the reading shows. -/
theorem suppliesAndThermal : Obligations.SuppliesAndThermal := by
  unfold Obligations.SuppliesAndThermal
  refine ⟨fun t s => ?supplies, fun t s => ?thermal⟩
  case supplies =>
    intro b
    refine ⟨fun rail mv hp hfault hgood => ⟨b.railTold rail mv.toNat, does_of_run rfl (railLow_low hp hfault hgood), railMv_railTold,
        railStatus_railTold .., railTold_fired .., leaves_railTold ..⟩,
      fun rail mv hp => ⟨fun hgood => does_of_run rfl (railLow_good hgood), fun hfault =>
        ⟨b.pierReset 4, does_of_run rfl (railLow_fault hp hfault), pierReset_power 4 b⟩⟩,
      fun hbad => ?good, fun hgood => does_of_run rfl (railsGood_good hgood), fun mv hlen halive => ?latch, fun href hup => ?lost,
      fun href => ⟨does_of_run rfl (pcieRefLost_gone href), does_of_run rfl (pcieRefRestored_gone href)⟩,
      fun hcrystal => does_of_run rfl (if_pos hcrystal)⟩
    case good =>
      refine ⟨_, does_of_run rfl (railsGood_bad hbad), ?_, ?_, ?_⟩
      · exact ((leaves_emcyClear ..).reg _ (by simp)).trans (reg_setReg_self ..)
      · exact Within.fired (P := Anywhere) ((Within.refl _ _).emcyClear) (raise_fired ..)
      · exact (((Leaves.refl ..).setReg _ _ (by decide)).raise _).of_part (leaves_emcyClear ..) (List.Subset.refl _) (List.nil_subset _)
    case latch =>
      refine ⟨(b.unlatch 2).railLatch mv, does_of_run rfl (sampled_railLatch halive mv), fun k => ?_, leaves_railLatch⟩
      have hrail := railMv_railLatch (b := b.unlatch 2) (mv := mv) (m := 0) k.val (by rw [hlen]; exact k.isLt)
      rw [hlen, Nat.zero_add] at hrail
      exact hrail
    case lost =>
      have hleaves := leaves_linkDown (b := b.modPower fun x => { x with pcieRef := false }) hup
      refine ⟨_, does_of_run rfl (pcieRefLost_up href), ?_, linkDown_link (b := b.modPower _) hup,
        List.mem_append_left _ (linkDown_fired (b := b.modPower _) hup), raise_fired .., ?_⟩
      · exact congrArg Power.pcieRef (hleaves.power (by decide))
      · have hlost : Leaves (.power :: ringParts) ([Obj.hostLinkSpeed, Obj.hostLinkWidth] ++ offerRegs) b
            (b.modPower fun x => { x with pcieRef := false }) := (Leaves.refl ..).modPower _ (by decide)
        exact (hlost.of_part hleaves (List.subset_cons_self ..) (List.Subset.refl _)).raise _
  case thermal =>
    intro b n0
    refine ⟨fun case_ die same hcl hch hdl hdh => ⟨(b.sensed case_ die same).thermalDecided case_ die, does_of_run rfl (thermalReading_eq ..),
        ?_, ?_, ?_, ?_, state_thermalDecided, fun hfree hhot => ?_, fun hfree hdie hcase => ?_, fun hold hnew => ?_⟩,
      fun hcase hdie hstep => ?_, fun hdie hlow hhigh => ?_, fun hcase hlow hhigh => ?_, fun hzero hcase => ?_⟩
    · exact (regI_of_reg (reg_thermalDecided ⟨⟨by decide, by decide⟩, by decide, by decide⟩ (by decide) (by decide) ..)).trans
        (case_sensed hcl hch)
    · exact (regI_of_reg (reg_thermalDecided ⟨⟨by decide, by decide⟩, by decide, by decide⟩ (by decide) (by decide) ..)).trans
        (die_sensed hdl hdh)
    · exact (regI_of_reg (reg_thermalDecided ⟨⟨by decide, by decide⟩, by decide, by decide⟩ (by decide) (by decide) ..)).trans
        (peak_sensed hdl hdh)
    · exact (Within.thermalReading (P := fun p => p ≠ .mem) (.refl _ b) (by decide) (by decide)).mem (by decide)
    · have hkept : (b.sensed case_ die same).reg Obj.thermalState ≠ 3 := by rw [state_sensed]; exact hfree
      rw [thermalDecided_hot (.inl hhot) hkept, holdEnter_eq]
      exact ⟨headsHeld_fired (holdTold_fired _), fun h => headsHeld_stops h _⟩
    · have hkept : (b.sensed case_ die same).reg Obj.thermalState ≠ 3 := by rw [state_sensed]; exact hfree
      rw [thermalDecided_cool hdie hcase hkept]
      refine ⟨?_, ?_⟩
      · rw [reg_setReg_self]
        exact thermalStateFor_ne _
      · exact Leaves.setReg (Leaves.of_part (.refl ..) (leaves_sensed ..) (List.Subset.refl _) (by decide)) _ _ (by decide)
    · exact thermalDecided_fired (readingsTold_fired hold hnew)
    · obtain ⟨hset, hfired, hleaves⟩ := stepMoved (by omega) (governorStep_raises hcase hdie hstep)
      exact ⟨_, does_of_run rfl rfl, hset, hfired, hleaves⟩
    · obtain ⟨hset, hfired, hleaves⟩ := stepMoved (by omega) (governorStep_lowers (.inl hdie) hlow)
      exact ⟨_, does_of_run rfl rfl, hset, hfired, hleaves⟩
    · obtain ⟨hset, hfired, hleaves⟩ := stepMoved (by omega) (governorStep_lowers (.inr hcase) hlow)
      exact ⟨_, does_of_run rfl rfl, hset, hfired, hleaves⟩
    · have hrests : b.governorEvaluate = b.governorState := by rw [governorEvaluate_eq, governorStep_rests hcase hzero]
      exact ⟨_, does_of_run rfl hrests, (step_governorState b).trans hzero, leaves_governorState b⟩

end Sys2Proof

/-! # Deep sleep (R530 to R535) -/

namespace Sys2Proof.Machine.Block
variable {b : Block}

theorem asleep_iff : b.asleep = true ↔ b.power.phase = .asleep := beq_iff_eq

/-! ## The request -/

/-- The pier as an accepted request leaves it: armed until the end of its wait (R531). -/
def sleepArmed (b : Block) : Block :=
  (b.modPower fun x => { x with armed := some (later b.now (b.reg Obj.powerSleepWait * tMs)) }).setReg Obj.powerRequestResult 1

theorem sleepRequest_armed (hs : b.served = true) (hv : b.sleepViolations = []) (v : PowerVia) :
    b.sleepRequest v = b.sleepArmed.answerPower v .ok := by
  unfold sleepRequest
  rw [hs, hv]
  rfl

/-- A head that is not stopped is named before what else refuses the request. -/
theorem firstCode_sleepViolations (h : b.allStopped = false) : firstCode b.sleepViolations = some .notStopped := by
  refine firstCode_eq_of_lt ?_ fun d hd hne => ?_
  · rw [sleepViolations, h]
    exact List.mem_append_left _ List.mem_cons_self
  · rcases List.mem_append.mp hd with hd | hd
    · exact absurd (mem_codeIf.mp hd).2 hne
    · rw [(mem_codeIf.mp hd).2]
      decide

theorem sleepRequest_refused (hs : b.served = true) (h : b.allStopped = false) :
    b.sleepRequest .task = (b.setReg Obj.powerRequestResult 3).raise 4 ∧
      ∀ c, b.sleepRequest (.write (.can c)) = b.reply (.can c) (.abort .notStopped) := by
  unfold sleepRequest
  rw [hs, firstCode_sleepViolations h]
  exact ⟨rfl, fun _ => rfl⟩

theorem writeDo_powerRequest (e : Env) (r : Route) (v : Nat) (b : Block) : b.writeDo e r Obj.powerRequest.index Obj.powerRequest.sub v =
    some (if v = 1 then b.sleepRequest (.write r) else (b.wakeRequest 4).reply r .ok) := rfl

theorem orTask_sleepArmed {r : Option Route} (hr : b.reaches r Obj.powerRequest 1 0 Env.quiet) (hs : b.served = true)
    (hv : b.sleepViolations = []) : b.orTask r Obj.powerRequest 1 0 Env.quiet = ((b.cleared r 0).sleepArmed).answered r .ok :=
  orTask_answered hr rfl (fun _ _ => congrArg some (sleepRequest_armed hs hv _)) fun _ _ =>
    sleepRequest_armed (b := b.unlatch 0) hs hv .task

/-! ## The pier wakes -/

theorem wake_awake (h : b.asleep = false) (bits : Nat) : b.wake bits = b := if_pos (by rw [h]; rfl)

/-- The registers that a head derives (R41). -/
def derivedRegs : List Obj := (List.finRange 4).flatMap fun (h : HeadId) =>
  [Obj.headStitchWidth h, Obj.headStitchFirstColumn h, Obj.headTriggerBroadcastDelay h]

theorem mem_derivedRegs (h : HeadId) : Obj.headStitchWidth h ∈ derivedRegs ∧ Obj.headStitchFirstColumn h ∈ derivedRegs ∧
    Obj.headTriggerBroadcastDelay h ∈ derivedRegs := by
  revert h
  decide

theorem leaves_headDerive (h : HeadId) (b : Block) : Leaves [.tables] derivedRegs b (b.headDerive h) := by
  obtain ⟨hwidth, hfirst, hdelay⟩ := mem_derivedRegs h
  have hcolumns : Leaves [.tables] derivedRegs b (b.deriveColumns h) := by
    unfold deriveColumns
    split
    · exact .refl ..
    · exact ((Leaves.refl ..).setReg _ _ hwidth).setReg _ _ hfirst
  unfold headDerive
  extract_lets c d
  have hgeometry : Leaves [.tables] derivedRegs b d := by
    unfold d
    split
    · exact hcolumns
    · exact { hcolumns with tables := fun hp => absurd List.mem_cons_self hp }
  clear_value d
  split
  · exact hgeometry
  · exact hgeometry.setReg _ _ hdelay

theorem leaves_headsDerive (b : Block) : Leaves [.tables] derivedRegs b b.headsDerive := by
  refine (Leaves.refl ..).foldl _ _ fun c h _ => ?_
  split
  · exact leaves_headDerive h c
  · exact .refl ..

theorem headsDerive_power (b : Block) : b.headsDerive.power = b.power := (leaves_headsDerive b).power (by decide)

theorem headsDerive_wakeCause (b : Block) : b.headsDerive.reg Obj.powerWakeCause = b.reg Obj.powerWakeCause :=
  (leaves_headsDerive b).reg _ (by decide)

theorem functionStart_power (b : Block) : b.functionStart.power = b.power := by simp

theorem resetComm_power (b : Block) : b.resetComm.power = b.power := (leaves_resetComm b).power (by decide)

theorem serve_power (b : Block) : b.serve.power = { b.power with phase := .served } := by
  unfold serve
  rw [resetComm_power, modHost_power, functionStart_power, headsDerive_power]
  rfl

theorem serve_can (b : Block) : b.serve.can.nmt = .preOperational := (resetComm_can _).1

theorem serve_wakeCause (b : Block) : b.serve.reg Obj.powerWakeCause = b.reg Obj.powerWakeCause := by
  unfold serve
  rw [(leaves_resetComm _).reg _ (by decide +kernel), modHost_reg, functionStart_reg_index _ _ (by decide) (by decide), headsDerive_wakeCause]
  rfl

/-- What a wake brings (R534, R535). -/
structure Woken (bits : Nat) (b n : Block) : Prop where
  served : n.power.phase = .served
  cause : n.reg Obj.powerWakeCause = bits
  fired : n.Fired 2 ∧ n.Fired 3
  told : Out.power 4 ∈ n.outs
  nmt : n.can.nmt = .preOperational
  within : Within Nothing b n

theorem spanTraining_keeps (k : SpanId) (b : Block) : (b.spanTraining k).power = b.power ∧ (b.spanTraining k).can = b.can ∧
    (b.spanTraining k).reg Obj.powerWakeCause = b.reg Obj.powerWakeCause := by
  unfold spanTraining
  split
  · exact ⟨rfl, rfl, reg_setReg_ne _ _ _ _ (by simp only [Obj.key, Obj.powerWakeCause, Obj.spanState]; omega)⟩
  · exact ⟨rfl, rfl, rfl⟩

/-- The pier as it serves again after a wake. -/
def wakeServed (bits : Nat) (b : Block) : Block :=
  (((((b.setReg Obj.powerWakeCause bits).emit (.power 4)).raise 2).alert 4).modSmb fun x => { x with lowPower := false, wakingUntil := none }).serve

theorem wake_asleep (h : b.asleep = true) (bits : Nat) : b.wake bits = (((b.wakeServed bits).spanTraining 0).spanTraining 1).raise 3 :=
  if_neg (by rw [h]; decide)

theorem wakeServed_woken {bits : Nat} (hbits : bits < 256) (b : Block) : (b.wakeServed bits).power.phase = .served ∧
    (b.wakeServed bits).reg Obj.powerWakeCause = bits ∧ (b.wakeServed bits).Fired 2 ∧ Out.power 4 ∈ (b.wakeServed bits).outs ∧
    (b.wakeServed bits).can.nmt = .preOperational := by
  have hreg : (b.setReg Obj.powerWakeCause bits).reg Obj.powerWakeCause = bits := (reg_setReg_self ..).trans (Nat.mod_eq_of_lt hbits)
  unfold wakeServed
  generalize hc : ((b.setReg Obj.powerWakeCause bits).emit (.power 4)).raise 2 = c
  have hcreg : c.reg Obj.powerWakeCause = bits := by rw [← hc]; exact hreg
  have hfired : c.Fired 2 := by rw [← hc]; exact raise_fired ..
  have htold : Out.power 4 ∈ c.outs := by rw [← hc]; exact List.mem_append_left _ (List.mem_append_right _ List.mem_cons_self)
  have w : Within Nothing c ((c.alert 4).modSmb fun x => { x with lowPower := false, wakingUntil := none }).serve :=
    (Within.refl _ c).alert.modSmb.serve
  refine ⟨congrArg Power.phase (serve_power _), (serve_wakeCause _).trans ?_, w.fired hfired, w.outs _ htold, serve_can _⟩
  exact (alert_reg ..).trans hcreg

theorem wake_woken (h : b.asleep = true) {bits : Nat} (hbits : bits < 256) : Woken bits b (b.wake bits) := by
  obtain ⟨hphase, hcause, hfired, htold, hnmt⟩ := wakeServed_woken hbits b
  have hwithin : Within Nothing b (b.wake bits) := (Within.refl _ b).wake
  rw [wake_asleep h] at hwithin ⊢
  generalize b.wakeServed bits = c at *
  obtain ⟨hpower0, hcan0, hreg0⟩ := spanTraining_keeps 0 c
  obtain ⟨hpower1, hcan1, hreg1⟩ := spanTraining_keeps 1 (c.spanTraining 0)
  have w : Within Nothing c (((c.spanTraining 0).spanTraining 1).raise 3) := (Within.refl _ c).spanTraining.spanTraining.raise
  refine ⟨?_, ?_, ⟨w.fired hfired, raise_fired ..⟩, w.outs _ htold, ?_, hwithin⟩
  · exact (congrArg Power.phase (hpower1.trans hpower0)).trans hphase
  · exact (hreg1.trans hreg0).trans hcause
  · exact (congrArg Can.nmt (hcan1.trans hcan0)).trans hnmt

/-! ## The sources -/

theorem wakeEvent_within (k : Fin 4) (b : Block) : Within Nothing b (b.wakeEvent k) ∧ (b.wakeEvent k).power = b.power ∧
    (b.wakeEvent k).regs = b.regs := by
  refine ⟨(Within.refl _ b).wakeEvent, ?_⟩
  unfold wakeEvent raiseIf
  split
  · split <;> exact ⟨rfl, rfl⟩
  · split <;> exact ⟨rfl, rfl⟩
  · split <;> exact ⟨rfl, rfl⟩
  · exact ⟨rfl, rfl⟩

/-- A source counts when the mask admits it; the masked ones are the balls. -/
theorem wakeBits_pow (k : Fin 4) (b : Block) : b.wakeBits (2 ^ k.val) = if (b.reg Obj.powerWakeMask).testBit k.val then 2 ^ k.val else 0 := by
  have hzero : (0x30 : Nat).testBit k.val = false := by revert k; decide
  unfold wakeBits
  rw [Nat.and_comm, Nat.and_two_pow, Nat.testBit_or, hzero, Bool.or_false]
  cases (b.reg Obj.powerWakeMask).testBit k.val <;> simp

theorem wakeBits_congr {c : Block} (h : c.regs = b.regs) (bits : Nat) : c.wakeBits bits = b.wakeBits bits := by
  unfold wakeBits
  rw [reg_congr_regs h]

theorem wakeSource_eq (k : Fin 4) (b : Block) : b.wakeSource k = if (b.wakeEvent k).wakeBits (2 ^ k.val) = 0 then b.wakeEvent k else
    (b.wakeEvent k).wake ((b.wakeEvent k).wakeBits (2 ^ k.val)) := rfl

theorem wakeSource_admitted {k : Fin 4} (h : b.asleep = true) (hmask : (b.reg Obj.powerWakeMask).testBit k.val = true) :
    Woken (2 ^ k.val) b (b.wakeSource k) := by
  obtain ⟨w, hpower, hregs⟩ := wakeEvent_within k b
  have hbits : (b.wakeEvent k).wakeBits (2 ^ k.val) = 2 ^ k.val := by rw [wakeBits_congr hregs, wakeBits_pow, if_pos hmask]
  have hsource : b.wakeSource k = (b.wakeEvent k).wake (2 ^ k.val) := by
    rw [wakeSource_eq, hbits]
    exact if_neg (Nat.two_pow_pos _).ne'
  have hasleep : (b.wakeEvent k).asleep = true := asleep_iff.mpr ((congrArg Power.phase hpower).trans (asleep_iff.mp h))
  have hbound : 2 ^ k.val < 2 ^ 8 := Nat.pow_lt_pow_right Nat.one_lt_two (by omega)
  have hwoken := wake_woken hasleep hbound
  rw [hsource]
  exact ⟨hwoken.served, hwoken.cause, hwoken.fired, hwoken.told, hwoken.nmt, w.trans hwoken.within⟩

theorem wakeSource_masked {k : Fin 4} (hmask : (b.reg Obj.powerWakeMask).testBit k.val = false) : b.wakeSource k = b.wakeEvent k := by
  rw [wakeSource_eq, wakeBits_congr (wakeEvent_within k b).2.2, wakeBits_pow, hmask]
  rfl

theorem sampled_wake (h : b.asleep = true) : b.sampled 1 (Env.meeting false) [] = (b.unlatch 1).wake 32 := by
  have halive : b.taskAlive 1 = true := by unfold taskAlive; rw [h]; rfl
  exact sampled_alone 1 (Env.meeting false) [] b rfl halive

/-- Every source that nothing masks wakes the pier. -/
theorem wakeBy_woken {source : Fin 6} (h : b.asleep = true)
    (hmask : source.val < 4 → (b.reg Obj.powerWakeMask).testBit source.val = true) :
    Woken (2 ^ source.val) b (b.wakeBy source (Env.meeting false)) := by
  unfold wakeBy
  split
  next hball => exact wakeSource_admitted (k := ⟨source.val, hball⟩) h (hmask hball)
  split
  next hfour =>
    rw [hfour]
    exact wake_woken h (by decide)
  next hball hfour =>
    have hfive : source.val = 5 := by omega
    have hwoken := wake_woken (b := b.unlatch 1) h (bits := 32) (by decide)
    rw [sampled_wake h, hfive]
    exact ⟨hwoken.served, hwoken.cause, hwoken.fired, hwoken.told, hwoken.nmt, (Within.refl _ b).unlatch.trans hwoken.within⟩

/-! ## The SMBus in deep sleep -/

theorem smbPower_request (h : b.served = true) (hv : b.sleepViolations = []) : b.smbPower 1 true = b.smbStarted.smbStop.sleepArmed := by
  unfold smbPower
  rw [smbStart_served h]
  exact sleepRequest_armed (b := b.smbStarted.smbStop) h hv .smbus

theorem smbPower_bad (h : b.served = true) (v : Nat) : b.smbPower v false = b.smbPecFails := by
  unfold smbPower
  rw [smbStart_served h]
  rfl

theorem smbPower_wake (h : b.asleep = true) (hlow : b.smb.lowPower = false) (hwaking : b.smb.wakingUntil = none) :
    b.smbPower 2 true = b.smbStarted.smbStop.wake 16 := by
  unfold smbPower smbStart
  rw [if_neg (by rw [asleep_iff.mp h]; decide), h, hlow, hwaking]
  rfl

theorem smbStart_nacked (h : b.asleep = true) (hlow : b.smb.lowPower = true) : b.smbStart.2 =
    (((b.smbStop.modSmb fun x => { x with lowPower := false, wakingUntil := some (later b.now (50 * tUs)), lastStart := b.now }).bump
      Obj.smbSleepNacks).raise 949) := by
  unfold smbStart
  rw [if_neg (by rw [asleep_iff.mp h]; decide), h, hlow]
  rfl

theorem smbStart_awake (h : b.asleep = false) (hheld : b.power.phase ≠ .held) : b.smbStart.2 = b.smbStarted := by
  unfold smbStart
  rw [if_neg hheld, h]
  rfl

/-! ## The states of the heads through a change of their flags -/

/-- The heads are in the same states. -/
def SameStates (b n : Block) : Prop := ∀ h : HeadId, n.heads[h].state = b.heads[h].state

/-- All but the heads. -/
def NoHead : Piece → Prop := fun p => ∀ h : HeadId, p ≠ .head h

namespace SameStates
variable {c n : Block}

theorem refl (b : Block) : SameStates b b := fun _ => rfl

theorem trans (w : SameStates b c) (v : SameStates c n) : SameStates b n := fun h => (v h).trans (w h)

theorem of_heads (w : SameStates b c) (h : n.heads = c.heads) : SameStates b n := fun g => by rw [h]; exact w g

theorem of_within (w : SameStates b c) (v : Within NoHead c n) : SameStates b n := fun h =>
  (congrArg Head.state (v.heads h fun hp => hp h rfl)).trans (w h)

theorem modHead (w : SameStates b c) {h : HeadId} {f : Head → Head} (hf : ∀ x, (f x).state = x.state := by exact fun _ => rfl) :
    SameStates b (c.modHead h f) := by
  intro g
  by_cases hg : g = h
  · rw [hg, heads_modHead_same, hf]
    exact w h
  · rw [((Within.refl (HeadAndCapture h) c).modHead (.inl rfl)).other_heads' g hg]
    exact w g

theorem foldl {α : Type} (w : SameStates b c) {f : Block → α → Block} (hf : ∀ c x, SameStates b c → SameStates b (f c x)) (l : List α) :
    SameStates b (l.foldl f c) := foldl_rel (r := SameStates b) hf l w

theorem ite {p : Prop} [Decidable p] (w : SameStates b c) (v : SameStates b n) : SameStates b (if p then c else n) := by
  split
  · exact w
  · exact v

theorem setValid (w : SameStates b c) {a : AxisId} {v : Bool} : SameStates b (c.setValid a v) := by
  unfold Block.setValid
  extract_lets d
  have hd : SameStates b d := w.of_heads rfl
  clear_value d
  exact w.ite (hd.ite (hd.foldl (fun e h u => (u.modHead).ite u) _))

theorem pageOver (w : SameStates b c) : SameStates b c.pageOver := w.foldl (fun _ _ u => u.modHead) _

theorem pageDrop (w : SameStates b c) : SameStates b c.pageDrop := by
  unfold Block.pageDrop
  split
  · exact w
  · refine w.ite (pageOver (w.of_within ?_))
    exact (((Within.refl NoHead c).brakeAxis nofun).keyState nofun).keyEvent.modKey nofun

theorem joinPage (w : SameStates b c) {n : Nat} : SameStates b (c.joinPage n) := by
  have hpage : SameStates b { c with ring := { c.ring with page := n } } := w
  unfold Block.joinPage
  exact w.ite (hpage.pageOver.ite (hpage.foldl (fun _ _ u => u.modHead) _))

theorem sourceTo (w : SameStates b c) {p : Nat} : SameStates b (c.sourceTo p) := by
  unfold Block.sourceTo
  have hdrop : SameStates b c.pageDrop := w.pageDrop
  generalize c.pageDrop = d at hdrop ⊢
  refine w.ite (SameStates.joinPage ?_)
  exact hdrop.of_heads rfl

end SameStates

/-! ## What deep sleep loses (R532, R533) -/

/-- The end of the table region is lost (R532). -/
def memoryLost (b : Block) : Block := { b with mem := memWipe b.mem 0x03000000 0x01000000 b.free, free := b.free + 0x01000000 }

/-- The ring is lost, and its registers read as alone. -/
def ringLost (b : Block) : Block :=
  let b := b.modRing fun r => { r with members := [], leaderMode := none, offers := [], wrapAfter := none, minority := false, foreign := false,
                                       lastSync := none, lockSince := none, slew := 0, start := none, latches := [], source := none, asked := [] }
  (((((b.setReg Obj.ringEpoch 0).setReg Obj.ringMembers 1).setReg Obj.ringTopology 0).setReg Obj.ringLeader 0xFF).setReg
    Obj.ringTimeState 0).setReg Obj.ringTimeSource 0xFF

def spansLost (b : Block) : Block := [0, 1].foldl (fun (b : Block) s =>
  ((b.setReg (Obj.spanState s) 0).setReg (Obj.spanLaneMap s) 0).setReg (Obj.spanNeighbour s) 0xFF) b

/-- The link is down and the management buses stand by (R471, R478). -/
def busesLost (b : Block) : Block :=
  let b := (((b.setReg Obj.hostLinkSpeed 0).setReg Obj.hostLinkWidth 0).modHost fun x => { x with linkUp := false, d3hot := false, ready := false })
  let b := (b.modCan fun x => { x with nmt := .initialisation, standby := true, sessions := [], emcyQueue := [] })
  b.modSmb fun x => { x with lowPower := true, wakingUntil := none }

/-- What the pier has lost before its axes and its source of position follow. -/
def sleepLost (b : Block) : Block := b.memoryLost.ringLost.spansLost.busesLost

/-- No position is valid any more. -/
def positionsLost (b : Block) : Block :=
  (List.finRange 2).foldl (fun b (a : AxisId) => (b.modAxis a fun x => { x with validBefore := false }).setValid a false) b

/-- A source of the position elsewhere is known no more. -/
def sourceLost (b : Block) : Block := if b.reg (Obj.axisSourcePier 0) = b.pier then b else b.sourceTo 0xFF

/-- The timers of the clock that sleep stops. -/
def timersLost (b : Block) : Block := (List.finRange 16).foldl (fun b (u : TimerId) =>
  if b.reg (Obj.timerClock u) = 0 then b.modTimer u fun x => { x with running := false, count := 0 } else b) b

/-- The pier before it chooses its abutments anew. -/
def sleepFollowed (b : Block) : Block := b.positionsLost.sourceLost.timersLost.modPower fun x => { x with phase := .asleep, armed := none }

theorem asleepNow_eq (b : Block) : b.asleepNow =
    b.sleepLost.sleepFollowed.chooseAbutments := rfl

def lostRegs : List Obj := [Obj.ringEpoch, Obj.ringMembers, Obj.ringTopology, Obj.ringLeader, Obj.ringTimeState, Obj.ringTimeSource,
  Obj.spanState 0, Obj.spanLaneMap 0, Obj.spanNeighbour 0, Obj.spanState 1, Obj.spanLaneMap 1, Obj.spanNeighbour 1, Obj.hostLinkSpeed, Obj.hostLinkWidth]

theorem leaves_memoryLost (b : Block) : Leaves [.mem] [] b b.memoryLost :=
  { Leaves.refl [.mem] [] b with mem := fun hp => absurd List.mem_cons_self hp }

theorem leaves_ringLost (b : Block) : Leaves [.ring] lostRegs b b.ringLost :=
  (((((((Leaves.refl ..).modRing _ (by decide)).setReg _ _ (by decide)).setReg _ _ (by decide)).setReg _ _ (by decide)).setReg _ _
    (by decide)).setReg _ _ (by decide)).setReg _ _ (by decide)

theorem leaves_spansLost (b : Block) : Leaves [] lostRegs b b.spansLost := by
  refine (Leaves.refl ..).foldl _ _ fun m k hk => ?_
  rcases List.mem_pair.mp hk with rfl | rfl
  · exact (((Leaves.refl ..).setReg _ _ (by decide)).setReg _ _ (by decide)).setReg _ _ (by decide)
  · exact (((Leaves.refl ..).setReg _ _ (by decide)).setReg _ _ (by decide)).setReg _ _ (by decide)

theorem leaves_busesLost (b : Block) : Leaves [.host, .can, .smb] lostRegs b b.busesLost := by
  have h : Leaves [.host, .can, .smb] lostRegs b b := .refl ..
  unfold busesLost
  extract_lets c d
  have hc : Leaves [.host, .can, .smb] lostRegs b c := ((h.setReg _ _ (by decide)).setReg _ _ (by decide)).modHost _ (by decide)
  exact (hc.modCan _ (by decide)).modSmb _ (by decide)

theorem leaves_sleepLost (b : Block) : Leaves [.mem, .ring, .host, .can, .smb] lostRegs b b.sleepLost :=
  ((Leaves.of_part (.refl ..) (leaves_memoryLost b) (by decide) (List.nil_subset _)).of_part (leaves_ringLost _) (by decide)
    (List.Subset.refl _) |>.of_part (leaves_spansLost _) (by decide) (List.Subset.refl _)).of_part (leaves_busesLost _) (by decide)
    (List.Subset.refl _)

theorem busesLost_down (b : Block) : b.busesLost.can.standby = true ∧ b.busesLost.smb.lowPower = true := ⟨rfl, rfl⟩

theorem ringLost_members (b : Block) : b.ringLost.ring.members = [] := rfl

theorem sleepLost_members (b : Block) : b.sleepLost.ring.members = [] := by
  unfold sleepLost
  rw [(leaves_busesLost _).ring (by decide), (leaves_spansLost _).ring (by decide), ringLost_members]

theorem sleepLost_mem (b : Block) : b.sleepLost.mem = memWipe b.mem 0x03000000 0x01000000 b.free := by
  unfold sleepLost
  rw [(leaves_busesLost _).mem (by decide), (leaves_spansLost _).mem (by decide), (leaves_ringLost _).mem (by decide)]
  rfl

def positionParts : List Piece := [.axis 0, .axis 1, .head 0, .head 1, .head 2, .head 3]

theorem leaves_positionsLost (b : Block) : Leaves positionParts [Obj.axisPositionValid 0, Obj.axisPositionValid 1] b b.positionsLost := by
  have haxis (a : AxisId) : Piece.axis a ∈ positionParts ∧ [Piece.axis a, .head 0, .head 1, .head 2, .head 3] ⊆ positionParts ∧
      [Obj.axisPositionValid a] ⊆ [Obj.axisPositionValid 0, Obj.axisPositionValid 1] := by
    revert a
    decide
  refine (Leaves.refl ..).foldl _ _ fun c a _ => ?_
  obtain ⟨hpart, hparts, hregs⟩ := haxis a
  exact ((Leaves.refl ..).modAxis _ _ hpart).of_part (setValid_revalued a false _).leaves hparts hregs

theorem leaves_sourceLost (b : Block) : Leaves sourceParts sourceRegs b b.sourceLost := by
  unfold sourceLost
  split
  · exact .refl ..
  · exact leaves_sourceTo ..

theorem leaves_timersLost (b : Block) : Leaves [.fabric] [] b b.timersLost := by
  refine (Leaves.refl ..).foldl _ _ fun c u _ => ?_
  split
  · exact (Leaves.refl ..).modTimer _ _ (by decide)
  · exact .refl ..

def sleepParts : List Piece := [.mem, .host, .can, .smb, .fabric, .power, .head 0, .head 1, .head 2, .head 3] ++ abutmentParts

def sleepRegs : List Obj := lostRegs ++ [Obj.axisPositionValid 0, Obj.axisPositionValid 1] ++ sourceRegs ++ offerRegs

theorem leaves_sleepFollowed (b : Block) : Leaves ([.fabric, .power, .ring, .keystone] ++ positionParts)
    ([Obj.axisPositionValid 0, Obj.axisPositionValid 1] ++ sourceRegs) b b.sleepFollowed :=
  ((((Leaves.refl ..).of_part (leaves_positionsLost b) (by decide) (List.subset_append_left ..)).of_part (leaves_sourceLost _) (by decide)
    (List.subset_append_right ..)).of_part (leaves_timersLost _) (by decide) (List.nil_subset _)).modPower _ (by decide)

theorem leaves_asleepNow (b : Block) : Leaves sleepParts sleepRegs b b.asleepNow := by
  have hlost : Leaves sleepParts sleepRegs b b.sleepLost := Leaves.of_part (.refl ..) (leaves_sleepLost b) (by decide)
    (List.subset_append_of_subset_left _ (List.subset_append_of_subset_left _ (List.subset_append_left ..)))
  have hfollowed : Leaves sleepParts sleepRegs b b.sleepLost.sleepFollowed := hlost.of_part (leaves_sleepFollowed _) (by decide) (by
    rw [sleepRegs, List.append_assoc lostRegs]
    exact List.subset_append_of_subset_left _ (List.subset_append_right ..))
  exact hfollowed.of_part (leaves_chooseAbutments _) (by decide) (List.subset_append_right ..)

theorem sleepFollowed_epoch (b : Block) : SameEpoch b b.sleepFollowed := by
  have hpositions : SameEpoch b b.positionsLost := SameEpoch.of_leaves ⟨rfl, rfl, rfl⟩ (leaves_positionsLost b) (by decide)
  have hsource : SameEpoch b b.positionsLost.sourceLost := hpositions.ite hpositions.sourceTo
  unfold sleepFollowed
  generalize b.positionsLost.sourceLost = c at hsource
  exact (hsource.of_leaves (leaves_timersLost _) (by decide)).of_leaves ((Leaves.refl [.power] [] _).modPower _ (by decide)) (by decide)

theorem sleepFollowed_states (b : Block) : SameStates b b.sleepFollowed := by
  have hpositions : SameStates b b.positionsLost := by
    refine (SameStates.refl b).foldl (fun c a w => SameStates.setValid ?_) _
    exact w.of_heads rfl
  have hsource : SameStates b b.positionsLost.sourceLost := hpositions.ite hpositions.sourceTo
  unfold sleepFollowed
  generalize b.positionsLost.sourceLost = c at hsource
  exact hsource.of_within (Within.modPower (Within.foldl (.refl ..) fun _ _ v => v.modTimer.ite v))

theorem sleepFollowed_power (b : Block) : b.sleepFollowed.power.phase = .asleep ∧ b.sleepFollowed.power.armed = none := ⟨rfl, rfl⟩

/-- The pier in deep sleep (R529, R532, R533). -/
structure FellAsleep (b n : Block) : Prop where
  phase : n.power.phase = .asleep
  disarmed : n.power.armed = none
  standby : n.can.standby = true
  lowPower : n.smb.lowPower = true
  members : n.ring.members = []
  custody : n.custody = b.custody
  states : SameStates b n
  outs : ∀ o ∈ b.outs, o ∈ n.outs
  regs : ∀ y : Obj, (∀ x ∈ sleepRegs, y.key ≠ x.key) → n.reg y = b.reg y
  mem : n.mem = memWipe b.mem 0x03000000 0x01000000 b.free

theorem asleepNow_fell (b : Block) : FellAsleep b b.asleepNow := by
  have hleaves := leaves_asleepNow b
  have houts : ∀ o ∈ b.outs, o ∈ b.asleepNow.outs :=
    (Within.asleepNow (P := Anywhere) (.refl ..) trivial trivial (fun _ => trivial) fun _ => trivial).outs
  obtain ⟨hstandby, hlow⟩ : b.sleepLost.can.standby = true ∧ b.sleepLost.smb.lowPower = true := busesLost_down _
  have hpower := sleepFollowed_power b.sleepLost
  have hstates := sleepFollowed_states b.sleepLost
  have hepoch := (sleepFollowed_epoch b.sleepLost).chooseAbutments
  have hfollowed := leaves_sleepFollowed b.sleepLost
  have hchosen := leaves_chooseAbutments b.sleepLost.sleepFollowed
  have hnow : b.asleepNow = b.sleepLost.sleepFollowed.chooseAbutments := asleepNow_eq b
  rw [← hnow] at hepoch hchosen
  refine ⟨?_, ?_, ?_, ?_, hepoch.members.trans (sleepLost_members b), hleaves.custody (by decide), ?_, houts, hleaves.reg, ?_⟩
  · rw [hchosen.power (by decide)]
    exact hpower.1
  · rw [hchosen.power (by decide)]
    exact hpower.2
  · rw [hchosen.can (by decide), hfollowed.can (by decide), hstandby]
  · rw [hchosen.smb (by decide), hfollowed.smb (by decide), hlow]
  · intro h
    rw [hchosen.heads h (by revert h; decide), hstates h, (leaves_sleepLost b).heads h (by revert h; decide)]
  · rw [hchosen.mem (by decide), hfollowed.mem (by decide), sleepLost_mem]

/-! ## The pier enters deep sleep -/

/-- The pier as it tells that it goes to sleep (R532). -/
def sleepTold (b : Block) : Block := ((((b.emit (.power 2)).raise 24).proposalExpires).sendRing .leave).setReg Obj.powerRequestResult 2

/-- Without a wake source that meets the entry the pier is asleep. -/
theorem sleepEnter_met {u : Time} (ha : b.power.armed = some u) (hs : b.served = true) (hlink : b.host.linkUp = false)
    (hdue : due u b.now = false) (hv : b.sleepViolations = []) : b.sleepEnter 0 false = b.sleepTold.asleepNow.raise 1 := by
  unfold sleepEnter
  rw [ha]
  refine (if_neg (by simp [hs, hlink, hdue, hv])).trans ?_
  extract_lets c d e f g
  have hg : g = f := foldl_id (fun k => if_neg (by simp)) _
  exact (if_pos (Nat.zero_and _)).trans hg

theorem proposalExpires_pending (b : Block) : b.proposalExpires.custody.pending = none := by
  unfold proposalExpires
  split
  · assumption
  · rfl

theorem leaves_proposalExpires (b : Block) : Leaves [.custody] [Obj.custodyExpiries] b b.proposalExpires := by
  unfold proposalExpires
  split
  · exact .refl ..
  · exact ((((Leaves.refl ..).modCustody _ (by decide)).bump _ (List.mem_singleton_self _)).raise _).of_part (leaves_renewNonce _)
      (List.Subset.refl _) (List.nil_subset _)

theorem leaves_sleepTold (b : Block) : Leaves [.custody] [Obj.custodyExpiries, Obj.powerRequestResult] b b.sleepTold := by
  have htold : Leaves [.custody] [Obj.custodyExpiries, Obj.powerRequestResult] b ((b.emit (.power 2)).raise 24) := ((Leaves.refl ..).emit _).raise _
  exact ((htold.of_part (leaves_proposalExpires _) (List.Subset.refl _) (by decide)).sendRing _).setReg _ _ (by decide)

theorem sleepTold_tells (b : Block) : b.sleepTold.Fired 24 ∧ Out.power 2 ∈ b.sleepTold.outs ∧ b.sleepTold.custody.pending = none ∧
    b.sleepTold.reg Obj.powerRequestResult = 2 := by
  have w : Within Nothing ((b.emit (.power 2)).raise 24) b.sleepTold := (Within.refl ..).proposalExpires.sendRing.setReg
  exact ⟨w.fired (raise_fired ..), w.outs _ (List.mem_append_left _ (List.mem_append_right _ List.mem_cons_self)),
    proposalExpires_pending _, reg_setReg_self ..⟩

/-- What stands once the pier has told and fallen asleep, for a pier `c` that has told and a pier `n` asleep. -/
theorem FellAsleep.entered {c n : Block} (hfell : FellAsleep c n) (htold : Leaves [.custody] [Obj.custodyExpiries, Obj.powerRequestResult] b c)
    (htells : c.Fired 24 ∧ Out.power 2 ∈ c.outs ∧ c.custody.pending = none ∧ c.reg Obj.powerRequestResult = 2) :
    n.power.phase = .asleep ∧ n.power.armed = none ∧ n.reg Obj.powerRequestResult = 2 ∧ (n.raise 1).Fired 24 ∧ (n.raise 1).Fired 1 ∧
      n.can.standby = true ∧ n.smb.lowPower = true ∧ n.ring.members = [] ∧ n.custody.pending = none ∧ Out.power 2 ∈ (n.raise 1).outs ∧
      (∀ h : HeadId, n.heads[h].state = b.heads[h].state) ∧
      (memWf b.mem = true → ∀ a, a < 0x03000000 ∨ 0x04000000 ≤ a → memGet n.mem a = memGet b.mem a) ∧
      n.reg Obj.deviceFeaturesConfirmedLo = b.reg Obj.deviceFeaturesConfirmedLo := by
  obtain ⟨hfired, hpower, hpending, hresult⟩ := htells
  refine ⟨hfell.phase, hfell.disarmed, (hfell.regs _ ?_).trans hresult, List.mem_append_left _ (hfell.outs _ hfired), raise_fired ..,
    hfell.standby, hfell.lowPower, hfell.members, (congrArg Custody.pending hfell.custody).trans hpending,
    List.mem_append_left _ (hfell.outs _ hpower), fun h => ?_, fun _ a hout => ?_, (hfell.regs _ ?_).trans (htold.reg _ (by decide))⟩
  · decide +kernel
  · exact (hfell.states h).trans (congrArg Head.state (htold.heads h (by revert h; decide)))
  · rw [hfell.mem, memGet_memWipe_outside _ hout, htold.mem (by decide)]
  · decide +kernel

end Sys2Proof.Machine.Block

namespace Sys2Proof
open Machine Machine.Block

/-- Settles O58: a request that nothing refuses arms the wait, its end puts the ring, the buses and the end of the table region to sleep, and
what wakes the pier is recorded and brings it back to service. -/
theorem sleepAndWake : Obligations.SleepAndWake := by
  unfold Obligations.SleepAndWake
  refine ⟨fun t s => ?power, fun t s => ?receivers⟩
  case power =>
    intro b armed
    refine ⟨fun r hr hs => ⟨fun hv => does_of_run rfl ((orTask_sleepArmed hr hs hv).trans ?asked), ?stopped, ?writes⟩, fun r hr => does_of_run rfl ?wakes,
      fun hs hv => does_of_run rfl (smbPower_request hs hv), fun hasleep hlow hwaking => ?smbus, fun v hs => does_of_run rfl (smbPower_bad hs _),
      fun u ha hs hlink hdue hv => ?met, fun u ha hdue => does_of_run rfl ?expiry, fun source hasleep hmask => ?source,
      fun source hball hasleep hmask => ?masked⟩
    case asked => cases r <;> rfl
    case stopped =>
      rintro rfl hstopped
      exact does_of_run rfl ((sampled_alone 0 Env.quiet [] b rfl hr).trans (sleepRequest_refused (b := b.unlatch 0) hs hstopped).1)
    case writes =>
      rintro c rfl hstopped
      exact does_of_run rfl (writeTo_of_accepts hr (congrArg some ((sleepRequest_refused hs hstopped).2 c)))
    case wakes =>
      have hserved : b.served = true := (Bool.and_eq_true_iff.mp hr).1
      exact (writeTo_of_accepts hr (writeDo_powerRequest ..)).trans
        (congrArg (fun c : Block => c.reply r .ok) (wake_awake (asleep_of_served hserved) _))
    case smbus =>
      have hwoken := wake_woken (b := b.smbStarted.smbStop) hasleep (bits := 16) (by decide)
      exact ⟨_, does_of_run rfl (smbPower_wake hasleep hlow hwaking), hwoken.served, hwoken.cause, hwoken.fired.1, hwoken.fired.2,
        hwoken.within.mem nofun⟩
    case met =>
      have henter := sleepEnter_met ha hs hlink hdue hv
      have hfell := asleepNow_fell b.sleepTold
      generalize b.sleepTold.asleepNow = n at henter hfell
      exact ⟨n.raise 1, does_of_run rfl henter, hfell.entered (leaves_sleepTold b) (sleepTold_tells b)⟩
    case expiry =>
      unfold sleepExpire
      rw [ha]
      exact if_pos hdue
    case source =>
      have hwoken := wakeBy_woken (source := source) hasleep hmask
      exact ⟨_, does_of_run rfl rfl, hwoken.served, hwoken.cause, hwoken.fired.1, hwoken.fired.2, hwoken.told, hwoken.nmt, hwoken.within.mem nofun,
        Vector.ext fun i hi => hwoken.within.heads ⟨i, hi⟩ nofun⟩
    case masked =>
      obtain ⟨w, hpower, -⟩ := wakeEvent_within ⟨source.val, hball⟩ b
      have hevent : b.wakeBy source (Env.meeting false) = b.wakeEvent ⟨source.val, hball⟩ :=
        (dif_pos hball).trans (wakeSource_masked (k := ⟨source.val, hball⟩) hmask)
      exact ⟨_, does_of_run rfl hevent, (congrArg Power.phase hpower).trans (asleep_iff.mp hasleep), w.mem nofun,
        Vector.ext fun i hi => w.heads ⟨i, hi⟩ nofun⟩
  case receivers =>
    intro b
    refine ⟨fun hasleep hlow hheld => does_of_run rfl (smbStart_nacked hasleep hlow), fun hawake hheld => does_of_run rfl (smbStart_awake hawake hheld),
      fun hasleep hlow hidle => does_of_run rfl ?_⟩
    exact if_pos (Bool.and_eq_true_iff.mpr ⟨Bool.and_eq_true_iff.mpr ⟨hasleep, by rw [hlow]; rfl⟩, hidle⟩)

end Sys2Proof

/-! # Boundary scan and production test (R568 to R576) -/

namespace Sys2Proof.Machine.Block
variable {b c n : Block}

/-! ## The states of the axes through a loss on the ring -/

/-- The axes are in the same states. -/
def SameAxisStates (b n : Block) : Prop := ∀ a : AxisId, n.axes[a].state = b.axes[a].state

/-- All but the axes. -/
def NoAxis : Piece → Prop := fun p => ∀ a : AxisId, p ≠ .axis a

namespace SameAxisStates

theorem refl (b : Block) : SameAxisStates b b := fun _ => rfl

theorem of_within (w : SameAxisStates b c) (v : Within NoAxis c n) : SameAxisStates b n := fun a =>
  (congrArg Axis.state (v.axes a fun hp => hp a rfl)).trans (w a)

theorem modAxis (w : SameAxisStates b c) {a : AxisId} {f : Axis → Axis} (hf : ∀ x, (f x).state = x.state := by exact fun _ => rfl) :
    SameAxisStates b (c.modAxis a f) := by
  intro g
  by_cases hg : g = a
  · rw [hg, axes_modAxis_same, hf]
    exact w a
  · have hother : (c.modAxis a f).axes[g] = c.axes[g] :=
      (Within.modAxis (P := fun p => p = .axis a) (.refl _ c) rfl).axes g fun e => hg (by cases e; rfl)
    rw [hother]
    exact w g

theorem ite {p : Prop} [Decidable p] (w : SameAxisStates b c) (v : SameAxisStates b n) : SameAxisStates b (if p then c else n) := by
  split
  · exact w
  · exact v

theorem keyPause (w : SameAxisStates b c) {a : AxisId} {reason : Option Nat} : SameAxisStates b (c.keyPause a reason) := by
  unfold Block.keyPause
  extract_lets s d e f
  have hd : SameAxisStates b d := by
    unfold d
    split
    · exact w.ite w
    · exact w
  have he : SameAxisStates b e := hd.of_within ((((Within.refl NoAxis d).keyState nofun).modKey nofun))
  have hf : SameAxisStates b f := SameAxisStates.modAxis (he.of_within (Within.refl NoAxis e).bump.keyEvent)
  clear_value f
  exact hd.ite ((hf.of_within (Within.refl NoAxis f).bump.keyEvent).ite hf)

theorem replan (w : SameAxisStates b c) {a : AxisId} : SameAxisStates b (c.replan a) := by
  unfold Block.replan
  split
  · exact w.ite (w.of_within ((Within.refl NoAxis c).noRoom nofun))
  next place vr _ =>
    have hpark : SameAxisStates b (c.setPark a place vr) := w.of_within ((Within.refl NoAxis c).setPark nofun)
    exact hpark.modAxis.ite hpark

theorem lowerK (w : SameAxisStates b c) {a : AxisId} {k : Int} : SameAxisStates b (c.lowerK a k) := by
  unfold Block.lowerK
  extract_lets d
  have hd : SameAxisStates b d := w.of_within (((Within.refl NoAxis c).setK nofun).modKey nofun)
  clear_value d
  exact w.ite (hd.replan.ite hd)

theorem keyOutside (w : SameAxisStates b c) {reason : Nat} : SameAxisStates b (c.keyOutside reason) := by
  unfold Block.keyOutside
  split
  · exact w
  next a _ =>
    have hpause : SameAxisStates b (c.keyPause a (some reason)) := w.keyPause
    refine w.ite ?_
    dsimp only
    split
    · exact hpause.lowerK.ite hpause
    · exact hpause

theorem spanFault (w : SameAxisStates b c) : SameAxisStates b c.spanFault :=
  SameAxisStates.keyOutside (w.of_within (Within.refl NoAxis c).sendRing)

theorem chooseAbutments (w : SameAxisStates b c) : SameAxisStates b c.chooseAbutments := by
  unfold Block.chooseAbutments
  extract_lets offering a z old d lost e f g
  have he : SameAxisStates b e := w.of_within (Within.refl NoAxis c).setReg.setReg.reroute.hostLost
  have hf : SameAxisStates b f := SameAxisStates.ite (he.of_within (Within.refl NoAxis e).coincides.modRing) he
  clear_value f
  have hraised (k : Nat) : SameAxisStates b (f.raise k).spanFault.deriveCeiling :=
    (SameAxisStates.spanFault (hf.of_within (Within.refl NoAxis f).raise)).of_within (Within.refl NoAxis _).deriveCeiling
  have hg : SameAxisStates b g := hf.of_within ((Within.refl NoAxis f).foldl fun _ _ v => v.streamRestart)
  clear_value g
  exact hf.ite ((hraised _).ite
    ((SameAxisStates.spanFault (hg.of_within (Within.refl NoAxis g).raise)).of_within (Within.refl NoAxis _).deriveCeiling))

theorem offer (w : SameAxisStates b c) {on : Bool} : SameAxisStates b (c.offer on) := by
  unfold Block.offer
  extract_lets want d yes
  have hd : SameAxisStates b d := SameAxisStates.ite (w.of_within (Within.refl NoAxis c).logFault.raise) w
  clear_value d
  exact SameAxisStates.chooseAbutments (hd.of_within (Within.refl NoAxis d).sendRing.modRing)

theorem linkDown (w : SameAxisStates b c) : SameAxisStates b c.linkDown := by
  unfold Block.linkDown
  refine w.ite (SameAxisStates.offer (w.of_within ?_))
  exact (Within.refl NoAxis c).modHost.setReg.setReg.raise.slotsIdle

theorem spanLost (w : SameAxisStates b c) {k : SpanId} : SameAxisStates b (c.spanLost k) := by
  unfold Block.spanLost
  extract_lets up d e f g h m o p
  have he : SameAxisStates b e := w.of_within (Within.refl NoAxis c).setReg.setReg.setReg.modSpan
  have hp : SameAxisStates b p := SameAxisStates.of_within he
    (((Within.refl NoAxis e).coincides.modRing.bump.raise.logFault.setTopology.sendRing.ite
      (Within.refl NoAxis e).coincides.modRing.bump.raise.logFault))
  clear_value p e
  exact w.ite (he.ite (SameAxisStates.spanFault (hp.of_within (Within.refl NoAxis p).reroute)))

theorem spanDown (w : SameAxisStates b c) {k : SpanId} : SameAxisStates b (c.spanDown k) := by
  unfold Block.spanDown withTimePath
  extract_lets d
  have hd : SameAxisStates b d := w.spanLost
  clear_value d
  exact (hd.of_within ((Within.refl NoAxis d).holdover nofun)).ite hd

end SameAxisStates

/-! ## The spans and the link go down -/

/-- What a span that goes down leaves, up or in training. -/
theorem leaves_spanGone (k : SpanId) (b : Block) : Leaves ringParts ([Obj.spanState k, Obj.spanLaneMap k, Obj.spanNeighbour k,
    Obj.spanDowns k, Obj.ringTopology, Obj.ringCoincidences, Obj.ringTimeState] ++ routeRegs ++ pageRegs) b (b.spanDown k) ∧
    (b.spanDown k).reg (Obj.spanState k) = 0 := by
  by_cases hup : 2 ≤ b.reg (Obj.spanState k)
  · exact ⟨spanDown_leaves hup, ((leaves_spanDown hup).reg _ (clearRegs_outside k _ (by simp [clearRegs]))).trans (regs_spanCleared k b).1⟩
  by_cases hdown : b.reg (Obj.spanState k) = 0
  · rw [spanDown_down hdown]
    exact ⟨.refl .., hdown⟩
  have hnot : b.spanUp k = false := decide_eq_false hup
  have hlost : b.spanLost k = b.spanCleared k := (if_neg hdown).trans (if_pos (by rw [hnot]; rfl))
  have hkept : Leaves lossParts (Obj.spanDowns k :: lossRegs) (b.spanCleared k) (b.spanDown k) := by
    refine Leaves.withTimePath (f := fun b => b.spanLost k) ?_ (by decide) (List.mem_cons_of_mem _ (by decide))
    rw [hlost]
    exact .refl ..
  refine ⟨?_, (hkept.reg _ (clearRegs_outside k _ (by simp [clearRegs]))).trans (regs_spanCleared k b).1⟩
  clear hup hdown hnot hlost
  refine Leaves.of_part ((Leaves.refl _ _ b).of_part (leaves_spanCleared k b) (by decide) ?_) hkept (by decide) ?_
  · clear hkept; revert k; decide
  · clear hkept; revert k; decide

/-- The pier with both spans and the link down. -/
def linksGone (b : Block) : Block := ((b.spanDown 0).spanDown 1).linkDown

theorem linkDown_gone (b : Block) : b.linkDown.host.linkUp = false ∧
    Leaves ringParts ([Obj.hostLinkSpeed, Obj.hostLinkWidth] ++ offerRegs) b b.linkDown := by
  by_cases hup : b.host.linkUp = true
  · exact ⟨linkDown_link hup, leaves_linkDown hup⟩
  · have hid : b.linkDown = b := if_pos (by rw [Bool.not_eq_true] at hup; rw [hup]; rfl)
    rw [hid]
    exact ⟨Bool.not_eq_true _ ▸ hup, .refl ..⟩

/-- Nothing but the state of the link and of the spans matters here of what goes down. -/
structure Gone (b n : Block) : Prop where
  link : n.host.linkUp = false
  span0 : n.reg (Obj.spanState 0) = 0
  span1 : n.reg (Obj.spanState 1) = 0
  test : n.test = b.test
  power : n.power = b.power
  aux : n.aux = b.aux
  axes : SameAxisStates b n

theorem linksGone_gone (b : Block) : Gone b b.linksGone := by
  obtain ⟨h0, hspan0⟩ := leaves_spanGone 0 b
  obtain ⟨h1, hspan1⟩ := leaves_spanGone 1 (b.spanDown 0)
  obtain ⟨hlink, hdown⟩ := linkDown_gone ((b.spanDown 0).spanDown 1)
  have haxes : SameAxisStates b b.linksGone := (SameAxisStates.refl b).spanDown.spanDown.linkDown
  have hout (k : SpanId) : ∀ x ∈ [Obj.hostLinkSpeed, Obj.hostLinkWidth] ++ offerRegs, (Obj.spanState k).key ≠ x.key := by
    revert k
    decide +kernel
  refine ⟨hlink, ?_, ?_, ?_, ?_, ?_, haxes⟩
  · exact (hdown.reg _ (hout 0)).trans ((h1.reg _ (by decide)).trans hspan0)
  · exact (hdown.reg _ (hout 1)).trans hspan1
  · exact (hdown.test (by decide)).trans ((h1.test (by decide)).trans (h0.test (by decide)))
  · exact (hdown.power (by decide)).trans ((h1.power (by decide)).trans (h0.power (by decide)))
  · exact (hdown.aux (by decide)).trans ((h1.aux (by decide)).trans (h0.aux (by decide)))

/-! ## The heads through a loss on the ring -/

/-- A head keeps all but the deadline of its start. -/
def DeadlineOnly (x y : Head) : Prop := ∃ d, y = { x with startDeadline := d }

/-- All heads keep all but the deadlines of their starts. -/
def DeadlinesOnly (b n : Block) : Prop := ∀ h : HeadId, DeadlineOnly b.heads[h] n.heads[h]

namespace DeadlinesOnly

theorem refl (b : Block) : DeadlinesOnly b b := fun h => ⟨b.heads[h].startDeadline, rfl⟩

theorem of_within (w : DeadlinesOnly b c) (v : Within NoHead c n) : DeadlinesOnly b n := fun h => by
  rw [v.heads h fun hp => hp h rfl]
  exact w h

theorem ite {p : Prop} [Decidable p] (w : DeadlinesOnly b c) (v : DeadlinesOnly b n) : DeadlinesOnly b (if p then c else n) := by
  split
  · exact w
  · exact v

theorem modHead (w : DeadlinesOnly b c) {h : HeadId} {d : Time} : DeadlinesOnly b (c.modHead h fun x => { x with startDeadline := d }) := by
  intro g
  by_cases hg : g = h
  · rw [hg, heads_modHead_same]
    obtain ⟨e, he⟩ := w h
    rw [he]
    exact ⟨d, rfl⟩
  · rw [((Within.refl (HeadAndCapture h) c).modHead (.inl rfl)).other_heads' g hg]
    exact w g

theorem setTimeState (w : DeadlinesOnly b c) {k : Nat} : DeadlinesOnly b (c.setTimeState k) := by
  unfold Block.setTimeState
  extract_lets fresh d
  have hd : DeadlinesOnly b d := w.of_within (Within.refl NoHead c).setReg
  clear_value d
  exact hd.ite (foldl_rel (r := DeadlinesOnly b) (fun e h u => u.modHead.ite u) _ hd)

theorem holdover (w : DeadlinesOnly b c) : DeadlinesOnly b c.holdover := by
  unfold Block.holdover
  extract_lets st
  refine DeadlinesOnly.ite ?_ w
  exact DeadlinesOnly.of_within (w.setTimeState (k := 3)) (Within.refl NoHead _).modRing.raise

theorem spanDown (w : DeadlinesOnly b c) {k : SpanId} : DeadlinesOnly b (c.spanDown k) := by
  unfold Block.spanDown withTimePath
  extract_lets d
  have hd : DeadlinesOnly b d := w.of_within ((Within.refl NoHead c).spanLost nofun nofun)
  clear_value d
  exact hd.holdover.ite hd

theorem linkDown (w : DeadlinesOnly b c) : DeadlinesOnly b c.linkDown := w.of_within ((Within.refl NoHead c).linkDown nofun nofun)

end DeadlinesOnly

/-! ## An instruction takes the balls (R571) -/

/-- A head that an instruction has faulted: without lines, its outputs at their idle levels once it has run. -/
structure Seized (x : Head) : Prop where
  state : x.state = .faulted
  lines : x.lines = []
  idle : x.everRun = true → x.outputsIdle = true

theorem Seized.deadline {x y : Head} (h : Seized x) (hd : DeadlineOnly x y) : Seized y := by
  obtain ⟨d, rfl⟩ := hd
  exact ⟨h.state, h.lines, h.idle⟩

/-- One head is faulted. -/
def headSeized (h : HeadId) (b : Block) : Block :=
  let b := b.answerStart h (.abort .deviceState)
  let b := (b.discardLines h).modHead h fun x => { x with state := .faulted, nextDue := none, owed := [], stateSince := b.now }
  (((b.outputsRest h 0).setReg (Obj.headClockLocked h) 0).windowStop h).ringStartHead h false

/-- One axis is faulted. -/
def axisSeized (a : AxisId) (b : Block) : Block :=
  (((b.keyFault a).freezeCommand a).modAxis a fun x => { x with state := .faulted }).switchOff a

def headsSeized (b : Block) : Block := (List.finRange 4).foldl (fun b h => b.headSeized h) b
def axesSeized (b : Block) : Block := (List.finRange 2).foldl (fun b a => b.axisSeized a) b

/-- The sequencer is faulted. -/
def auxSeized (b : Block) : Block :=
  (b.aux.startVia.foldl (fun b v => b.replyVia v (.abort .deviceState)) b).modAux fun x => { x with state := .faulted, startVia := [] }

theorem takeBalls_eq (code : Nat) (b : Block) : b.takeBalls code =
    (b.modTest fun x => { x with taken := true }).headsSeized.axesSeized.auxSeized.linksGone.logFault 0x00A0 noUnit code noSource := by
  simp only [takeBalls, headsSeized, headSeized, axesSeized, axisSeized, auxSeized, linksGone]

theorem discardLines_head (h : HeadId) (b : Block) : (b.discardLines h).heads[h].lines = [] ∧
    (b.discardLines h).heads[h].everRun = b.heads[h].everRun := by
  unfold discardLines
  extract_lets ls inputs n c
  have hc : c.heads[h] = b.heads[h] := ((Within.refl Nothing b).ite (Within.refl Nothing b).count).same_heads h
  rw [heads_modHead_same, hc]
  exact ⟨rfl, rfl⟩

theorem outputsRest_idle (h : HeadId) (b : Block) : (b.outputsRest h 0).heads[h].state = b.heads[h].state ∧
    (b.outputsRest h 0).heads[h].lines = b.heads[h].lines ∧ (b.outputsRest h 0).heads[h].everRun = b.heads[h].everRun ∧
    (b.heads[h].everRun = true → (b.outputsRest h 0).heads[h].outputsIdle = true) := by
  unfold outputsRest
  split
  next hrun => exact ⟨rfl, rfl, rfl, fun h => absurd h (by simpa using hrun)⟩
  next =>
    rw [(Within.refl Nothing _).emit.same_heads h, heads_modHead_same]
    exact ⟨rfl, rfl, rfl, fun _ => rfl⟩

theorem headSeized_self (h : HeadId) (b : Block) : Seized (b.headSeized h).heads[h] ∧
    (b.headSeized h).heads[h].everRun = b.heads[h].everRun := by
  unfold headSeized
  extract_lets c d
  have hc : c.heads[h].everRun = b.heads[h].everRun := by
    unfold c
    rw [answerStart_head]
  obtain ⟨hlines, hrun⟩ := discardLines_head h c
  have hd : d.heads[h] = { (c.discardLines h).heads[h] with state := .faulted, nextDue := none, owed := [], stateSince := c.now } :=
    heads_modHead_same ..
  have hdstate : d.heads[h].state = .faulted := by rw [hd]
  have hdlines : d.heads[h].lines = [] := by rw [hd]; exact hlines
  have hdrun : d.heads[h].everRun = b.heads[h].everRun := by rw [hd]; exact hrun.trans hc
  clear_value d
  obtain ⟨hstate, hline, hever, hidle⟩ := outputsRest_idle h d
  generalize d.outputsRest h 0 = e at hstate hline hever hidle
  have w : Within CaptureOnly e (((e.setReg (Obj.headClockLocked h) 0).windowStop h).ringStartHead h false) :=
    ((Within.refl CaptureOnly e).setReg.windowStop rfl).ringStartHead
  rw [w.capture_heads h]
  exact ⟨⟨hstate.trans hdstate, hline.trans hdlines, fun hr => hidle (hever.symm.trans hr)⟩, hever.trans hdrun⟩

theorem within_headSeized (h : HeadId) (b : Block) : Within (HeadAndCapture h) b (b.headSeized h) := by
  unfold headSeized
  extract_lets c d
  have hc : Within (HeadAndCapture h) b c := (Within.refl (HeadAndCapture h) b).answerStart (.inl rfl)
  clear_value c
  have hd : Within (HeadAndCapture h) b d := (hc.discardLines (.inl rfl)).modHead (.inl rfl)
  clear_value d
  exact ((hd.outputsRest (.inl rfl)).setReg.windowStop (.inr rfl)).ringStartHead

theorem headSeized_everRun (g h : HeadId) (b : Block) : (b.headSeized g).heads[h].everRun = b.heads[h].everRun := by
  by_cases hg : h = g
  · rw [← hg]
    exact (headSeized_self h b).2
  · rw [(within_headSeized g b).other_heads' h hg]

theorem headsSeized_everRun (h : HeadId) (b : Block) : b.headsSeized.heads[h].everRun = b.heads[h].everRun := by
  unfold headsSeized
  refine foldl_rel (r := fun c : Block => c.heads[h].everRun = b.heads[h].everRun) (fun c g hc => ?_) _ ?_
  · rw [headSeized_everRun]
    exact hc
  · rfl

theorem headsSeized_seized (h : HeadId) (b : Block) : Seized b.headsSeized.heads[h] := by
  unfold headsSeized
  refine foldl_brings (p := fun c : Block => Seized c.heads[h]) (List.mem_finRange h) ?_ (fun c g _ hc => ?_) b
  · exact fun c => (headSeized_self h c).1
  by_cases hg : h = g
  · rw [← hg]
    exact (headSeized_self h c).1
  · rw [(within_headSeized g c).other_heads' h hg]
    exact hc

/-! ## The axes and the sequencer -/

theorem axisSeized_state (a g : AxisId) (b : Block) :
    (b.axisSeized a).axes[g].state = if g = a then .faulted else b.axes[g].state := by
  have hfault : (b.keyFault a).axes = b.axes := keyFault_axes
  unfold axisSeized
  generalize b.keyFault a = c at hfault
  by_cases hg : g = a
  · rw [if_pos hg, hg]
    generalize c.freezeCommand a = d
    have hset : (d.modAxis a fun x => { x with state := .faulted }).axes[a].state = .faulted := by rw [axes_modAxis_same]
    generalize (d.modAxis a fun x => { x with state := .faulted }) = e at hset
    have hoff : SameAxisStates e (e.switchOff a) := SameAxisStates.of_within ((SameAxisStates.refl e).modAxis (a := a)
      (f := fun x => { x with driven := false, mA := 0, mB := 0, holding := false, alignLeft := 0 })) (Within.refl NoAxis _).setReg.emit
    rw [hoff a, hset]
  · have w : Within (fun p => p = .axis a) c (((c.freezeCommand a).modAxis a fun x => { x with state := .faulted }).switchOff a) :=
      (((Within.refl (fun p => p = .axis a) c).freezeCommand rfl).modAxis rfl).switchOff rfl
    rw [if_neg hg, w.axes g fun e => hg (by cases e; rfl), hfault]

theorem axesSeized_state (a : AxisId) (b : Block) : b.axesSeized.axes[a].state = .faulted := by
  refine foldl_brings (p := fun c : Block => c.axes[a].state = .faulted) (List.mem_finRange a)
    (fun c => (axisSeized_state a a c).trans (if_pos rfl)) (fun c g _ hc => ?_) b
  rw [axisSeized_state]
  split
  · rfl
  · exact hc

theorem within_axesSeized (b : Block) : Within NoHead b b.axesSeized := by
  refine (Within.refl NoHead b).foldl fun c a w => ?_
  exact (((w.keyFault nofun).freezeCommand nofun).modAxis nofun).switchOff nofun

theorem auxSeized_state (b : Block) : b.auxSeized.aux.state = .faulted := rfl

theorem within_auxSeized (b : Block) : Within Nothing b b.auxSeized := ((Within.refl Nothing b).foldl fun _ _ v => v.replyVia).modAux

/-! ## The test state and the power through it -/

/-- The test state and the power are as they were. -/
def SameTest (b n : Block) : Prop := n.test = b.test ∧ n.power = b.power

namespace SameTest

theorem refl (b : Block) : SameTest b b := ⟨rfl, rfl⟩

theorem same (w : SameTest b c) (ht : n.test = c.test := by rfl) (hp : n.power = c.power := by rfl) : SameTest b n :=
  ⟨ht.trans w.1, hp.trans w.2⟩

theorem trans (w : SameTest b c) (v : SameTest c n) : SameTest b n := w.same v.1 v.2

theorem of_leaves (w : SameTest b c) {P : List Piece} {R : List Obj} (h : Leaves P R c n) (ht : Piece.test ∉ P) (hp : Piece.power ∉ P) :
    SameTest b n := w.same (h.test ht) (h.power hp)

theorem ite {p : Prop} [Decidable p] (w : SameTest b c) (v : SameTest b n) : SameTest b (if p then c else n) := by
  split
  · exact w
  · exact v

theorem foldl {α : Type} (w : SameTest b c) {f : Block → α → Block} (hf : ∀ c x, SameTest b c → SameTest b (f c x)) (l : List α) :
    SameTest b (l.foldl f c) := foldl_rel (r := SameTest b) hf l w

theorem replyVia (w : SameTest b c) {v : Via} {res : Result} : SameTest b (c.replyVia v res) :=
  w.of_leaves (leaves_replyVia v res c) (by decide) (by decide)

theorem answerStart (w : SameTest b c) {h : HeadId} {res : Result} : SameTest b (c.answerStart h res) := by
  unfold Block.answerStart
  exact SameTest.same (w.foldl (fun _ _ u => u.replyVia) _)

theorem discardLines (w : SameTest b c) {h : HeadId} : SameTest b (c.discardLines h) := by
  unfold Block.discardLines
  extract_lets ls inputs n d
  have hd : SameTest b d := SameTest.ite w (w.same rfl rfl)
  clear_value d
  exact hd.same

theorem outputsRest (w : SameTest b c) {h : HeadId} {clocks : Nat} : SameTest b (c.outputsRest h clocks) := SameTest.ite w (w.same rfl rfl)

theorem burstCheck (w : SameTest b c) : SameTest b c.burstCheck := by
  unfold Block.burstCheck
  extract_lets d e all
  have hd : SameTest b d := w.foldl (fun _ _ u => u.same) _
  have he : SameTest b e := hd.same
  clear_value e
  refine w.ite ?_
  exact SameTest.of_leaves (he.same (n := (e.modCapture _).raise 705)) ((Leaves.refl [] [] _).raiseIf _ _) (by decide) (by decide)

theorem windowStop (w : SameTest b c) {h : HeadId} : SameTest b (c.windowStop h) := by
  unfold Block.windowStop
  refine w.ite ?_
  split
  · exact SameTest.burstCheck w.same
  · exact w.burstCheck

theorem ringStartHead (w : SameTest b c) {h : HeadId} {ok : Bool} : SameTest b (c.ringStartHead h ok) := by
  unfold Block.ringStartHead
  split
  · exact w
  next r _ =>
    extract_lets r' d
    have hd : SameTest b d := SameTest.ite w w.same
    clear_value d
    refine w.ite (SameTest.of_leaves ?_ (leaves_ringStartCheck _) (by decide) (by decide))
    exact hd.same

theorem headSeized (w : SameTest b c) {h : HeadId} : SameTest b (c.headSeized h) := by
  unfold Block.headSeized
  extract_lets d e
  have hd : SameTest b d := w.answerStart
  clear_value d
  have he : SameTest b e := SameTest.same (hd.discardLines (h := h))
  clear_value e
  exact SameTest.ringStartHead (SameTest.windowStop (SameTest.same (he.outputsRest (h := h) (clocks := 0))))

theorem axisSeized (w : SameTest b c) {a : AxisId} : SameTest b (c.axisSeized a) := by
  have hkey : SameTest b (c.keyFault a) := by
    unfold keyFault
    extract_lets s d
    have hd : SameTest b d := SameTest.ite w.same w
    clear_value d
    have hstate : SameTest b (d.keyState a 8) := hd.of_leaves (keyState_leaves a 8 d) (by simp) (by simp)
    generalize d.keyState a 8 = e at hstate
    exact w.ite hstate.same
  unfold Block.axisSeized
  generalize c.keyFault a = d at hkey
  exact hkey.same

theorem headsSeized (w : SameTest b c) : SameTest b c.headsSeized := w.foldl (fun _ _ u => u.headSeized) _

theorem axesSeized (w : SameTest b c) : SameTest b c.axesSeized := w.foldl (fun _ _ u => u.axisSeized) _

theorem auxSeized (w : SameTest b c) : SameTest b c.auxSeized := by
  unfold Block.auxSeized
  exact SameTest.same (w.foldl (fun _ _ u => u.replyVia) _)

end SameTest

/-- All but the buffer. -/
def NoMem : Piece → Prop := fun p => p ≠ .mem

/-- What stands once an instruction has taken the balls (R571). -/
structure Taken (b n : Block) : Prop where
  test : n.test = { b.test with taken := true }
  power : n.power = b.power
  link : n.host.linkUp = false
  heads : ∀ h : HeadId, Seized n.heads[h] ∧ n.heads[h].everRun = b.heads[h].everRun
  axes : ∀ a : AxisId, n.axes[a].state = .faulted
  aux : n.aux.state = .faulted
  spans : n.reg (Obj.spanState 0) = 0 ∧ n.reg (Obj.spanState 1) = 0
  within : Within NoMem b n

theorem within_takeBalls (code : Nat) (b : Block) : Within NoMem b (b.takeBalls code) :=
  (Within.refl NoMem b).takeBalls nofun nofun (fun _ => nofun) fun _ => nofun

/-- Before the links go down. -/
def unitsSeized (b : Block) : Block := (b.modTest fun x => { x with taken := true }).headsSeized.axesSeized.auxSeized

theorem takeBalls_taken (code : Nat) (b : Block) : Taken b (b.takeBalls code) := by
  have hwithin := within_takeBalls code b
  have htest : SameTest (b.modTest fun x => { x with taken := true }) b.unitsSeized := (SameTest.refl _).headsSeized.axesSeized.auxSeized
  have haux : b.unitsSeized.aux.state = .faulted := auxSeized_state _
  have haxes (a : AxisId) : b.unitsSeized.axes[a].state = .faulted := by
    rw [unitsSeized, (within_auxSeized _).axes a nofun]
    exact axesSeized_state ..
  have hheads (h : HeadId) : Seized b.unitsSeized.heads[h] ∧ b.unitsSeized.heads[h].everRun = b.heads[h].everRun := by
    rw [unitsSeized, (within_auxSeized _).heads h nofun, (within_axesSeized _).heads h fun hp => hp h rfl]
    exact ⟨headsSeized_seized .., headsSeized_everRun ..⟩
  have heq : b.takeBalls code = b.unitsSeized.linksGone.logFault 0x00A0 noUnit code noSource := takeBalls_eq ..
  rw [heq] at hwithin ⊢
  generalize b.unitsSeized = c at *
  have hgone := linksGone_gone c
  have hdead : DeadlinesOnly c c.linksGone := (DeadlinesOnly.refl c).spanDown.spanDown.linkDown
  generalize c.linksGone = d at *
  have hlog := leaves_logFault 0x00A0 noUnit code noSource d
  refine ⟨?_, ?_, ?_, fun h => ?_, fun a => ?_, ?_, ⟨?_, ?_⟩, hwithin⟩
  · rw [hlog.test (by decide), hgone.test, htest.1]
    rfl
  · rw [hlog.power (by decide), hgone.power, htest.2]
    rfl
  · rw [hlog.host (by decide), hgone.link]
  · obtain ⟨hseized, hrun⟩ := hheads h
    rw [hlog.heads h (by simp)]
    refine ⟨hseized.deadline (hdead h), ?_⟩
    obtain ⟨x, hx⟩ := hdead h
    rw [hx]
    exact hrun
  · rw [hlog.axes a (by simp), hgone.axes a, haxes a]
  · rw [hlog.aux (by decide), hgone.aux, haux]
  · rw [hlog.reg _ (by simp), hgone.span0]
  · rw [hlog.reg _ (by simp), hgone.span1]

/-! ## The test access port (R568 to R572) -/

variable {k : TapInstr}

/-- The capture of the instruction register and the instruction in force. -/
def tapLoaded (k : TapInstr) (b : Block) : Block := (b.emit (.tdo 8 1)).modTest fun x => { x with instr := k }

/-- What the statement asks of an instruction that takes the balls. -/
structure TakenBy (k : TapInstr) (b n : Block) : Prop where
  instr : n.test.instr = k
  taken : n.test.taken = true
  captured : Out.tdo 8 1 ∈ n.outs
  link : n.host.linkUp = false
  heads : ∀ h : HeadId, n.heads[h].state = .faulted ∧ n.heads[h].lines = [] ∧ (b.heads[h].everRun = true → n.heads[h].outputsIdle = true)
  balls : Out.balls k.code n.test.boundary ∈ n.outs
  axes : ∀ a : AxisId, n.axes[a].state = .faulted
  aux : n.aux.state = .faulted
  span0 : n.reg (Obj.spanState 0) = 0
  span1 : n.reg (Obj.spanState 1) = 0
  mem : n.mem = b.mem

theorem tapInstr_awake (h : b.asleep = false) (k : TapInstr) :
    b.tapInstr k = if k.takes then ((b.tapLoaded k).takeBalls k.code).driveBalls else b.tapLoaded k := by
  unfold tapInstr
  rw [h]
  rfl

/-- The instruction that asleep decodes as BYPASS. -/
theorem tapInstr_asleep (h : b.asleep = true) (hk : k ≠ .idcode) : b.tapInstr k = b.tapLoaded .bypass := by
  unfold tapInstr
  have hne : (k != .idcode) = true := bne_iff_ne.mpr hk
  rw [h, hne]
  rfl

theorem tapInstr_idcode (b : Block) : b.tapInstr .idcode = b.tapLoaded .idcode := by
  unfold tapInstr
  rw [show (TapInstr.idcode != .idcode) = false from rfl, Bool.and_false]
  rfl

theorem driveBalls_takes (h : b.test.instr.takes = true) : b.driveBalls = b.emit (.balls b.test.instr.code b.test.boundary) := if_pos h

theorem driveBalls_free (h : b.test.instr.takes = false) : b.driveBalls = b := if_neg (by rw [ballsTaken, h]; decide)

/-- An instruction that takes the balls, once in force. -/
theorem tapInstr_takes (hawake : b.asleep = false) (hk : k.takes = true) :
    TakenBy k b (b.tapInstr k) ∧ (b.tapInstr k).test.boundary = b.test.boundary ∧ (b.tapInstr k).asleep = false := by
  have htaken := takeBalls_taken k.code (b.tapLoaded k)
  have hcaptured : Out.tdo 8 1 ∈ (b.tapLoaded k).outs := List.mem_append_right _ List.mem_cons_self
  rw [tapInstr_awake hawake, if_pos hk]
  generalize (b.tapLoaded k).takeBalls k.code = n at htaken
  have hinstr : n.test.instr = k := by rw [htaken.test]; rfl
  have hasleep : n.asleep = false := by rw [asleep, htaken.power]; exact hawake
  have hbound : n.test.boundary = b.test.boundary := by rw [htaken.test]; rfl
  rw [driveBalls_takes (by rw [hinstr, hk]), hinstr]
  refine ⟨⟨hinstr, by rw [emit_test, htaken.test], List.mem_append_left _ (htaken.within.outs _ hcaptured), htaken.link, fun h => ?_,
    List.mem_append_right _ List.mem_cons_self, htaken.axes, htaken.aux, htaken.spans.1, htaken.spans.2, htaken.within.mem fun hp => hp rfl⟩,
    hbound, hasleep⟩
  obtain ⟨hseized, hrun⟩ := htaken.heads h
  exact ⟨hseized.state, hseized.lines, fun hr => hseized.idle (hrun.trans hr)⟩

theorem tapScan_awake (h : b.asleep = false) (hk : b.test.instr = k) (pins update : BitVec 360) : b.tapScan pins update =
    match (generalizing := false) k with
    | .extest | .samplePreload | .extestPulse | .extestTrain => ((b.emit (.tdo 360 pins.toNat)).modTest fun x => { x with boundary := update }).driveBalls
    | .idcode => b.emit (.tdo 32 0x164405A7)
    | .clamp | .highz | .bypass => b.emit (.tdo 1 0) := by
  unfold tapScan
  rw [h, hk]
  cases k <;> rfl

/-- A scan of the boundary register under an instruction that takes the balls. -/
def boundaryScanned (pins update : BitVec 360) (b : Block) : Block := (b.emit (.tdo 360 pins.toNat)).modTest fun x => { x with boundary := update }

theorem TakenBy.scanned {pins update : BitVec 360} (w : TakenBy k b n) (hk : k.takes = true) :
    TakenBy k b (n.boundaryScanned pins update).driveBalls ∧ (n.boundaryScanned pins update).driveBalls.test.boundary = update ∧
      Out.tdo 360 pins.toNat ∈ (n.boundaryScanned pins update).driveBalls.outs := by
  have hinstr : (n.boundaryScanned pins update).test.instr = k := w.instr
  rw [driveBalls_takes (by rw [hinstr, hk]), hinstr]
  exact ⟨⟨w.instr, w.taken, List.mem_append_left _ (List.mem_append_left _ w.captured), w.link, w.heads,
      List.mem_append_right _ List.mem_cons_self, w.axes, w.aux, w.span0, w.span1, w.mem⟩, rfl,
    List.mem_append_left _ (List.mem_append_right _ List.mem_cons_self)⟩

theorem TakenBy.bypassed (w : TakenBy k b n) : TakenBy k b (n.emit (.tdo 1 0)) :=
  ⟨w.instr, w.taken, List.mem_append_left _ w.captured, w.link, w.heads, List.mem_append_left _ w.balls, w.axes, w.aux, w.span0, w.span1, w.mem⟩

/-- An instruction that selects the boundary register and takes the balls, with its scan. -/
theorem tapCommand_boundary (hawake : b.asleep = false) (hk : k = .extest ∨ k = .extestPulse ∨ k = .extestTrain) (pins update : BitVec 360) :
    TakenBy k b (b.tapCommand k (some (pins, update))) ∧ (b.tapCommand k (some (pins, update))).test.boundary = update ∧
      Out.tdo 360 pins.toNat ∈ (b.tapCommand k (some (pins, update))).outs := by
  have htakes : k.takes = true := by obtain rfl | rfl | rfl := hk <;> rfl
  obtain ⟨w, -, hasleep⟩ := tapInstr_takes hawake htakes
  have hscan : b.tapCommand k (some (pins, update)) = ((b.tapInstr k).boundaryScanned pins update).driveBalls := by
    refine (tapScan_awake hasleep w.instr pins update).trans ?_
    obtain rfl | rfl | rfl := hk <;> rfl
  rw [hscan]
  exact w.scanned htakes

/-- An instruction that selects the bypass register and takes the balls, with its scan. -/
theorem tapCommand_bypassed (hawake : b.asleep = false) (hk : k = .clamp ∨ k = .highz) (pins update : BitVec 360) :
    TakenBy k b (b.tapCommand k (some (pins, update))) ∧ (b.tapCommand k (some (pins, update))).test.boundary = b.test.boundary ∧
      Out.tdo 1 0 ∈ (b.tapCommand k (some (pins, update))).outs := by
  have htakes : k.takes = true := by obtain rfl | rfl := hk <;> rfl
  obtain ⟨w, hbound, hasleep⟩ := tapInstr_takes hawake htakes
  have hscan : b.tapCommand k (some (pins, update)) = (b.tapInstr k).emit (.tdo 1 0) := by
    refine (tapScan_awake hasleep w.instr pins update).trans ?_
    obtain rfl | rfl := hk <;> rfl
  rw [hscan]
  exact ⟨w.bypassed, hbound, List.mem_append_right _ List.mem_cons_self⟩

/-- An instruction that leaves the balls to the functions. -/
theorem tapInstr_free (hawake : b.asleep = false) (hk : k.takes = false) : b.tapInstr k = b.tapLoaded k :=
  (tapInstr_awake hawake k).trans (if_neg (by rw [hk]; decide))

theorem tapCommand_free (hawake : b.asleep = false) (hk : k.takes = false) (pins update : BitVec 360) :
    b.tapCommand k (some (pins, update)) = (b.tapLoaded k).tapScan pins update :=
  congrArg (tapScan pins update) (tapInstr_free hawake hk)

theorem tapScan_preload (hawake : b.asleep = false) (pins update : BitVec 360) : (b.tapLoaded .samplePreload).tapScan pins update =
    (b.tapLoaded .samplePreload).boundaryScanned pins update :=
  (tapScan_awake (b := b.tapLoaded .samplePreload) hawake rfl pins update).trans (driveBalls_free rfl)

/-! ## The self-test of the buffer (R575) -/

section Production
variable {r : Route}

theorem writeDo_mbistCommand (e : Env) (v : Nat) : b.writeDo e r Obj.testMbistCommand.index Obj.testMbistCommand.sub v =
    some (b.mbistCommand v r e.same) := rfl

/-- An accepted start finds nothing that refuses it. -/
theorem mbist_checked (h : b.acceptsObj Env.quiet r Obj.testMbistCommand 1 = true) : b.mbistViolations = [] := by
  obtain ⟨new, hcodes⟩ := chapterCodes_of_accepts h
  have hservice : b.serviceCodes Env.quiet 0x5100 4 1 = [] := by
    obtain ⟨-, hrest⟩ := List.append_eq_nil_iff.mp hcodes
    obtain ⟨hrest, -⟩ := List.append_eq_nil_iff.mp hrest
    exact (List.append_eq_nil_iff.mp hrest).2
  exact (List.append_eq_nil_iff.mp hservice).2

theorem writeTo_mbistStart (h : b.acceptsObj Env.quiet r Obj.testMbistCommand 1 = true) :
    b.writeTo Obj.testMbistCommand 1 r (Env.meeting false) = b.mbistStart.reply r .ok := by
  refine writeTo_of_accepts h ((writeDo_mbistCommand (Env.meeting false) _).trans (congrArg some ?_))
  have hgo : firstCode b.mbistViolations = none := by rw [mbist_checked h]; rfl
  show (match firstCode b.mbistViolations with | some c => b.reply r (.abort c) | none => (b.mbistStart).reply r .ok) = _
  rw [hgo]

theorem writeTo_mbistAbort (h : b.acceptsObj Env.quiet r Obj.testMbistCommand 2 = true) (hrange : b.test.range ≠ none) :
    b.writeTo Obj.testMbistCommand 2 r (Env.meeting false) =
      ((b.modTest fun x => { x with range := none }).setReg Obj.testMbistStatus 4).reply r .ok := by
  refine writeTo_of_accepts h ((writeDo_mbistCommand (Env.meeting false) _).trans (congrArg some ?_))
  refine congrArg (fun c : Block => c.reply r .ok) (if_neg ?_)
  rwa [Option.isNone_iff_eq_none]

theorem test_reply (res : Result) : (b.reply r res).test = b.test := by cases r <;> rfl

/-- The registers of a self-test. -/
def mbistRegs : List Obj := [Obj.testMbistStatus, Obj.testMbistErrors, Obj.testMbistFirstFail]

/-- The state and the findings of a self-test as set. -/
def mbistTold (status errors first : Nat) (b : Block) : Block :=
  ((b.setReg Obj.testMbistStatus status).setReg Obj.testMbistErrors errors).setReg Obj.testMbistFirstFail first

theorem leaves_mbistTold (P : List Piece) (status errors first : Nat) (b : Block) : Leaves P mbistRegs b (b.mbistTold status errors first) :=
  (((Leaves.refl ..).setReg _ _ (by decide)).setReg _ _ (by decide)).setReg _ _ (by decide)

theorem mbistTold_regs (status errors first : Nat) (b : Block) : (b.mbistTold status errors first).reg Obj.testMbistStatus = status % 2 ^ 8 ∧
    (b.mbistTold status errors first).reg Obj.testMbistErrors = errors % 2 ^ 32 ∧
    (b.mbistTold status errors first).reg Obj.testMbistFirstFail = first % 2 ^ 64 := by
  refine ⟨?_, ?_, reg_setReg_self ..⟩
  · exact (reg_setReg_ne _ _ _ _ (by decide)).trans ((reg_setReg_ne _ _ _ _ (by decide)).trans (reg_setReg_self ..))
  · exact (reg_setReg_ne _ _ _ _ (by decide)).trans (reg_setReg_self ..)

/-- What stands once a self-test has started. -/
structure Testing (start len : Nat) (b n : Block) : Prop where
  range : n.test.range = some (start, len)
  status : n.reg Obj.testMbistStatus = 1
  errors : n.reg Obj.testMbistErrors = 0
  leaves : Leaves [.mem, .test] mbistRegs b n
  mem : n.mem = memWipe b.mem start len b.free

theorem mbistStart_testing (b : Block) : Testing (b.reg Obj.testMbistStartAddr) (b.reg Obj.testMbistLength) b b.mbistStart := by
  obtain ⟨hstatus, herrors, -⟩ := mbistTold_regs 1 0 0 b
  have h := leaves_mbistTold [.mem, .test] 1 0 0 b
  exact ⟨rfl, hstatus, herrors, { h with mem := fun hp => absurd (by decide) hp, test := fun hp => absurd (by decide) hp }, rfl⟩

theorem mbistComplete_running {errors first : Nat} (hrange : b.test.range ≠ none) : b.mbistComplete errors first [] =
    (b.modTest fun x => { x with range := none }).mbistTold (if errors = 0 then 2 else 3) (min errors max32) (if errors = 0 then 0 else first) :=
  if_neg (by rwa [Option.isNone_iff_eq_none])

/-! ## Loopbacks (R576) -/

theorem writeTo_spanLoopback {span : SpanId} {mode : BitVec 8} {e : Env} (h : b.acceptsObj e r (Obj.testSpanLoopback span.val) mode.toNat = true) :
    b.writeTo (Obj.testSpanLoopback span.val) mode.toNat r e = (b.spanLoopback span mode.toNat e.errors).reply r .ok := by
  refine writeTo_of_accepts h ?_
  rw [mod_u8 rfl mode.isLt]
  fin_cases span <;> rfl

theorem loopback_key (span : SpanId) : (Obj.testSpanLoopback span.val).key ≠ (Obj.testSpanPrbsErrors span.val).key ∧
    (Obj.testSpanLoopback span.val).key ≠ (Obj.spanState span).key ∧ (Obj.testSpanPrbsErrors span.val).key ≠ (Obj.spanState span).key := by
  revert span
  decide

/-- The end of a loopback that counts bit errors. -/
theorem loopbackEnd_counted {span : SpanId} {errors : Nat} (h : b.reg (Obj.testSpanLoopback span.val) = 1 ∨ b.reg (Obj.testSpanLoopback span.val) = 3) :
    (b.spanLoopback span 0 errors).reg (Obj.testSpanLoopback span.val) = 0 ∧
      (b.spanLoopback span 0 errors).reg (Obj.testSpanPrbsErrors span.val) = min (b.reg (Obj.testSpanPrbsErrors span.val) + errors) max32 := by
  have heq : b.spanLoopback span 0 errors =
      ((b.count (Obj.testSpanPrbsErrors span.val) errors).setReg (Obj.testSpanLoopback span.val) 0).spanTraining span := by
    unfold spanLoopback
    extract_lets old c d
    have hc : c = b.count (Obj.testSpanPrbsErrors span.val) errors := if_pos h
    rw [if_pos rfl]
    unfold d
    rw [hc]
  obtain ⟨hcount, hloop, herr⟩ := loopback_key span
  have htraining (c : Block) (y : Obj) (hy : y.key ≠ (Obj.spanState span).key) : (c.spanTraining span).reg y = c.reg y :=
    SameReg.ite ((SameReg.refl y c).setReg hy) (.refl y c)
  rw [heq]
  refine ⟨(htraining _ _ hloop).trans (reg_setReg_self ..), (htraining _ _ herr).trans ((reg_setReg_ne _ _ _ _ hcount.symm).trans ?_)⟩
  refine (reg_setReg_self ..).trans (Nat.mod_eq_of_lt ?_)
  exact Nat.lt_of_le_of_lt (Nat.min_le_right ..) (Nat.sub_lt (Nat.two_pow_pos _) Nat.one_pos)

/-- The beginning of a loopback takes its span down. -/
theorem loopbackBegin_down {span : SpanId} {mode errors : Nat} (hold : b.reg (Obj.testSpanLoopback span.val) = 0) (hmode : mode ≠ 0)
    (hbound : mode < 256) : (b.spanLoopback span mode errors).reg (Obj.testSpanLoopback span.val) = mode ∧
      (b.spanLoopback span mode errors).reg (Obj.spanState span) = 0 ∧ (b.spanLoopback span mode errors).mem = b.mem := by
  have heq : b.spanLoopback span mode errors = (b.setReg (Obj.testSpanLoopback span.val) mode).spanDown span := by
    unfold spanLoopback
    extract_lets old c d
    have hc : c = b := if_neg fun h => by
      rw [show old = 0 from hold] at h
      omega
    rw [if_neg hmode]
    unfold d
    rw [hc]
  obtain ⟨hleaves, hdown⟩ := leaves_spanGone span (b.setReg (Obj.testSpanLoopback span.val) mode)
  rw [heq]
  refine ⟨(hleaves.reg _ ?_).trans ((reg_setReg_self ..).trans (Nat.mod_eq_of_lt hbound)), hdown, hleaves.mem (by decide)⟩
  clear heq hleaves hdown hold
  revert span
  decide

/-- A loopback of mode 0 that ends none lets the span train. -/
theorem loopbackNone_trains {span : SpanId} {errors : Nat} (hold : b.reg (Obj.testSpanLoopback span.val) = 0) (hdown : b.reg (Obj.spanState span) = 0) :
    b.spanLoopback span 0 errors = (b.setReg (Obj.testSpanLoopback span.val) 0).setReg (Obj.spanState span) 1 := by
  unfold spanLoopback
  extract_lets old c d
  have hc : c = b := if_neg fun h => by
    rw [show old = 0 from hold] at h
    omega
  rw [if_pos rfl]
  unfold d
  rw [hc]
  exact spanTraining_down ((reg_setReg_ne _ _ _ _ (loopback_key span).2.1.symm).trans hdown) (reg_setReg_self ..)

end Production
end Sys2Proof.Machine.Block

namespace Sys2Proof
open Machine Machine.Block

/-- Settles O59: an instruction that takes the balls faults every unit and takes the links down, the others touch the test state alone; a
self-test loses its range and ends with its findings, a loopback takes its span or the link down. -/
theorem testModes : Obligations.TestModes := by
  unfold Obligations.TestModes
  refine ⟨fun t s => ?port, fun t r s => ?production⟩
  case port =>
    intro b holds code taken
    have htaken {k : TapInstr} {n : Block} (w : TakenBy k b n) : taken k n := ⟨w.instr, w.taken, w.captured, w.link, w.heads, w.balls, w.axes,
      w.aux, w.span0, w.span1, w.mem⟩
    refine ⟨does_of_run rfl rfl, does_of_run rfl (tapInstr_idcode b), fun hawake => ⟨fun i k hik => ?forced, fun pins update i k hik => ?scanned,
      fun pins update i k hik => ?bypassed, does_of_run rfl (tapInstr_free hawake rfl), fun _ => does_of_run rfl (tapInstr_free hawake rfl),
      fun pins update => ⟨?identity, ?preload, fun _ => ?bypass⟩⟩, fun hasleep => does_of_run rfl (tapInstr_asleep hasleep (by decide))⟩
    case forced =>
      have hrun (i : Instr) (k : TapInstr) (hk : k.takes = true) (hi : exec i s = run t (fun b => b.tapCommand k none) s) :
          ∃ n, Does i s n ∧ taken k n ∧ n.test.boundary = b.test.boundary := by
        obtain ⟨w, hbound, -⟩ := tapInstr_takes hawake hk
        exact ⟨b.tapInstr k, does_of_run hi rfl, htaken w, hbound⟩
      simp only [List.mem_cons, List.not_mem_nil, or_false, Prod.mk.injEq] at hik
      obtain ⟨rfl, rfl⟩ | ⟨rfl, rfl⟩ | ⟨rfl, rfl⟩ | ⟨rfl, rfl⟩ | ⟨rfl, rfl⟩ := hik
      all_goals exact hrun _ _ rfl rfl
    case scanned =>
      have hrun (i : Instr) (k : TapInstr) (hk : k = .extest ∨ k = .extestPulse ∨ k = .extestTrain)
          (hi : exec i s = run t (fun b => b.tapCommand k (some (pins, update))) s) :
          ∃ n, Does i s n ∧ taken k n ∧ n.test.boundary = update ∧ Out.tdo 360 pins.toNat ∈ n.outs := by
        obtain ⟨w, hbound, hout⟩ := tapCommand_boundary hawake hk pins update
        exact ⟨_, does_of_run hi rfl, htaken w, hbound, hout⟩
      simp only [List.mem_cons, List.not_mem_nil, or_false, Prod.mk.injEq] at hik
      obtain ⟨rfl, rfl⟩ | ⟨rfl, rfl⟩ | ⟨rfl, rfl⟩ := hik
      all_goals exact hrun _ _ (by decide) rfl
    case bypassed =>
      have hrun (i : Instr) (k : TapInstr) (hk : k = .clamp ∨ k = .highz)
          (hi : exec i s = run t (fun b => b.tapCommand k (some (pins, update))) s) :
          ∃ n, Does i s n ∧ taken k n ∧ n.test.boundary = b.test.boundary ∧ Out.tdo 1 0 ∈ n.outs := by
        obtain ⟨w, hbound, hout⟩ := tapCommand_bypassed hawake hk pins update
        exact ⟨_, does_of_run hi rfl, htaken w, hbound, hout⟩
      simp only [List.mem_cons, List.not_mem_nil, or_false, Prod.mk.injEq] at hik
      obtain ⟨rfl, rfl⟩ | ⟨rfl, rfl⟩ := hik
      all_goals exact hrun _ _ (by decide) rfl
    case identity =>
      exact does_of_run rfl ((tapCommand_free hawake rfl pins update).trans (tapScan_awake (b := b.tapLoaded .idcode) hawake rfl pins update))
    case preload => exact does_of_run rfl ((tapCommand_free hawake rfl pins update).trans (tapScan_preload hawake pins update))
    case bypass =>
      exact does_of_run rfl ((tapCommand_free hawake rfl pins update).trans (tapScan_awake (b := b.tapLoaded .bypass) hawake rfl pins update))
  case production =>
    intro b start len
    refine ⟨fun hr hwf => ?started, fun hr hrange => does_of_run rfl (writeTo_mbistAbort hr hrange), fun errors first hrange hmax => ?completed,
      fun span errors hold hr => ?ended, fun span errors hold => ⟨fun mode hmode hr => ?begun, fun hdown hr => does_of_run rfl ?trained⟩,
      fun hup => ?link⟩
    case started =>
      have htesting := mbistStart_testing b
      refine ⟨b.mbistStart.reply r .ok, does_of_run rfl (writeTo_mbistStart hr), ?_, ?_, ?_, reply_answered .., htesting.leaves.reply r .ok,
        fun a hout => ?_⟩
      · rw [test_reply]
        exact htesting.range
      · rw [reply_reg]
        exact htesting.status
      · rw [reply_reg]
        exact htesting.errors
      · obtain ⟨-, hmem, -⟩ := reply_keeps r .ok b.mbistStart
        rw [hmem, htesting.mem]
        exact memGet_memWipe_outside _ hout
    case completed =>
      obtain ⟨hstatus, herrors, hfirst⟩ := mbistTold_regs (if errors = 0 then 2 else 3) (min errors max32) (if errors = 0 then 0 else first.toNat)
        (b.modTest fun x => { x with range := none })
      refine ⟨_, does_of_run rfl (mbistComplete_running hrange), rfl, hstatus.trans (Nat.mod_eq_of_lt (by split <;> decide)), ?_, ?_,
        ((Leaves.refl [.test] mbistRegs b).modTest _ (by decide)).trans (leaves_mbistTold ..)⟩
      · rw [herrors, Nat.min_eq_left hmax]
        exact Nat.mod_eq_of_lt (Nat.lt_of_le_of_lt hmax (by decide))
      · refine hfirst.trans (Nat.mod_eq_of_lt ?_)
        split
        · decide
        · exact first.isLt
    case ended =>
      obtain ⟨hloop, hcount⟩ := loopbackEnd_counted (errors := errors) hold
      exact ⟨_, does_of_run rfl (writeTo_spanLoopback (mode := 0) hr), (reply_reg ..).trans hloop, (reply_reg ..).trans hcount, reply_answered ..⟩
    case begun =>
      have hne : mode.toNat ≠ 0 := fun h => hmode (BitVec.eq_of_toNat_eq h)
      obtain ⟨hloop, hdown, hmem⟩ := loopbackBegin_down (errors := errors) hold hne mode.isLt
      obtain ⟨-, hkept, -⟩ := reply_keeps r .ok (b.spanLoopback span mode.toNat errors)
      exact ⟨_, does_of_run rfl (writeTo_spanLoopback hr), (reply_reg ..).trans hloop, (reply_reg ..).trans hdown, reply_answered .., hkept.trans hmem⟩
    case trained =>
      exact (writeTo_spanLoopback (mode := 0) hr).trans (congrArg (fun c : Block => c.reply r .ok) (loopbackNone_trains hold hdown))
    case link =>
      exact ⟨_, does_of_run rfl rfl, rfl, linkDown_link hup, linkDown_fired hup, (leaves_linkDown hup).modHost _ (by decide)⟩

end Sys2Proof

/-! # A line boundary and the registers outside its head (R76, R85) -/

namespace Sys2Proof.Machine.Block
variable {b b₀ : Block}

/-! ## What the line boundary of a head sets -/

namespace SameReg
variable {y : Obj}

theorem modIllum (w : SameReg y b₀ b) {h : HeadId} {f : Illum → Illum} : SameReg y b₀ (b.modIllum h f) := w

theorem capTake (w : SameReg y b₀ b) (hy : y.key ≠ Obj.deviceLineRateCap.key) : SameReg y b₀ b.capTake := by
  unfold Block.capTake
  split
  extract_lets caps thermal c
  have hc : SameReg y b₀ c := w.of_regs rfl
  exact w.ite (hc.setReg hy)

theorem corrTakeBefore (w : SameReg y b₀ b) (hy : Unheaded y) {h : HeadId} : SameReg y b₀ (b.corrTakeBefore h) := by
  unfold Block.corrTakeBefore
  split
  · exact w
  next a _ =>
    generalize hc : (b.modCorr h fun c => { c with armed := if sameHd c.armedAt b.now ∧ c.armed ≠ some a then c.armed else none, armedOld := none }) = c
    have wc : SameReg y b₀ (c.calFail h 9) := SameReg.calFail (hc ▸ w.of_regs rfl) hy
    cases a with
    | swap => exact wc.swapSets hy
    | range codes n => exact (wc.ite (wc.swapSets hy)).rangeInForce hy

theorem geometryTake (w : SameReg y b₀ b) (hy : Unheaded y) {h : HeadId} : SameReg y b₀ (b.geometryTake h) := by
  unfold Block.geometryTake
  extract_lets b1 old new b2 b3 b4
  have w1 : SameReg y b₀ b1 := w.stitchCalFail hy
  have w2 : SameReg y b₀ b2 := w1.of_regs rfl
  have w4 : SameReg y b₀ b4 := SameReg.of_regs ((w2.setHead hy (by decide)).setHead hy (by decide)) rfl
  exact (w4.bumpHead hy (by decide)).raise

theorem geometryTakeBefore (w : SameReg y b₀ b) (hy : Unheaded y) {h : HeadId} : SameReg y b₀ (b.geometryTakeBefore h) := by
  unfold Block.geometryTakeBefore
  extract_lets s
  have wt (f : Stitch → Stitch) : SameReg y b₀ ((b.modStitch h f).geometryTake h) := SameReg.geometryTake (b := b.modStitch h f) w hy
  exact SameReg.ite (SameReg.ite (wt _) w) (SameReg.ite (wt _) w)

theorem calBegin (w : SameReg y b₀ b) (hy : Unheaded y) {h : HeadId} : SameReg y b₀ (b.calBegin h) :=
  SameReg.setHead (b := b.modCorr h _) w hy (by decide)

theorem overdrive (w : SameReg y b₀ b) (hy : Unheaded y) {h : HeadId} {r ticks : Nat} : SameReg y b₀ (b.overdrive h r ticks) := by
  unfold Block.overdrive
  extract_lets c x half w' mask old d
  have hd : SameReg y b₀ d := SameReg.setHead (b := c.modIllum h _) (w.of_regs rfl) hy (by decide)
  exact hd.raiseIf.raiseIf

theorem startFrame (w : SameReg y b₀ b) {h : HeadId} : SameReg y b₀ (b.startFrame h) := w.ite w

theorem showAccum (w : SameReg y b₀ b) (hy : Unheaded y) {h : HeadId} : SameReg y b₀ (b.showAccum h) :=
  w.foldl (fun _ _ v => v.setHead hy (by decide)) _

theorem derateInForce (w : SameReg y b₀ b) (hy : Unheaded y) {h : HeadId} : SameReg y b₀ (b.derateInForce h) := by
  unfold Block.derateInForce
  extract_lets d changed
  exact SameReg.raiseIf (SameReg.modIllum (w.setHead hy (by decide)))

theorem illumBoundary (w : SameReg y b₀ b) (hy : Unheaded y) {h : HeadId} {line kept : Option Int} {dark : Bool} {steps : Nat} :
    SameReg y b₀ (b.illumBoundary h line kept dark steps).2.2.2 := by
  unfold Block.illumBoundary
  extract_lets _ _ _ _ _ _ _ _ _ _ _ b6 _ _ b5 b4 _ _ _ _ _ _ _ _ _ _ b3 b2 _ _ b1 b0
  have w6 : SameReg y b₀ b6 := (w.derateInForce hy).modIllum.raiseIf.overdrive hy
  have w5 : SameReg y b₀ b5 := w6.modIllum.ite w6
  have w4 : SameReg y b₀ b4 := (w5.modIllum.bumpHead hy (by decide)).raise.ite w5.startFrame
  have w3 : SameReg y b₀ b3 := (w4.bumpHead hy (by decide)).raise.ite w4
  have w2 : SameReg y b₀ b2 := (w3.bumpHead hy (by decide)).ite w3
  have w0 : SameReg y b₀ b0 := (w2.emit (o := _)).modIllum.ite w2
  exact w0.showAccum hy

theorem timeEdges (w : SameReg y b₀ b) (hy : Unheaded y) {h : HeadId} {es : List Edge} : SameReg y b₀ (b.timeEdges h es) := by
  unfold Block.timeEdges passEdges
  extract_lets c es' live hits new d e
  have hc : SameReg y b₀ c := w
  have hd : SameReg y b₀ d := hc
  have he : SameReg y b₀ e := hd.ite hd
  exact he.ite ((he.setHead hy (by decide)).raise)

theorem syncOut (w : SameReg y b₀ b) {h : HeadId} {start length : Nat} : SameReg y b₀ (b.syncOut h start length) := by
  unfold Block.syncOut
  extract_lets c lag late
  have hc : SameReg y b₀ c := w
  refine hc.ite (SameReg.ite ?_ ?_)
  · exact hc
  · exact hc

/-- A line boundary of a head without lines in flight leaves what is no head's, the line rate and the count of bursts apart. -/
theorem lineBind (w : SameReg y b₀ b) (hy : Unheaded y) (hcap : y.key ≠ Obj.deviceLineRateCap.key) {h : HeadId} (hlines : b.heads[h].lines = [])
    {tE : Time} {common : Option Time} {idle : Bool} {seq extra : Nat} {line : Option Int} :
    SameReg y b₀ (b.lineBind h tE common idle seq extra line) := by
  unfold Block.lineBind
  extract_lets b1 _ b2 b3
  have w1 : SameReg y b₀ b1 := w.capTake hcap
  have hopen : b1.openWindows h = b1 := by
    unfold openWindows
    rw [(Within.refl Nothing b).capTake.same_heads h, hlines]
    rfl
  have w2 : SameReg y b₀ b2 := by
    unfold b2
    rw [hopen]
    exact (w1.corrTakeBefore hy).geometryTakeBefore hy
  have w3 : SameReg y b₀ b3 := (w2.calBegin hy).ite w2
  split
  next b4 heq =>
    have w4 : SameReg y b₀ b4 := (congrArg (fun x => SameReg y b₀ x.2.2.2) heq).mp (w3.illumBoundary hy)
    split
    extract_lets owed rejoin flags no l b5 b6 b7 b8
    have w5 : SameReg y b₀ b5 := w4.modHead
    have w6 : SameReg y b₀ b6 := w5.setHead hy (by decide)
    have w7 : SameReg y b₀ b7 := w6.timeEdges hy
    have w8 : SameReg y b₀ b8 := w7.syncOut.ite w7
    exact w8.raise

end SameReg

/-! ## Values put in by key -/

theorem get?_foldl_insert_outside {k : Nat} : ∀ (l : Map Nat) (m : Map Nat), k ∉ l.map Prod.fst →
    (l.foldl (fun m e => m.insert e.1 e.2) m).get? k = m.get? k
  | [], _, _ => rfl
  | e :: l, m, h => by
    rw [List.map_cons, List.mem_cons, not_or] at h
    rw [List.foldl_cons, get?_foldl_insert_outside l _ h.2, Map.get?_insert, if_neg h.1]

theorem get?_foldl_insert_inside {k v : Nat} : ∀ (l : Map Nat) (m : Map Nat), (l.map Prod.fst).Nodup → (k, v) ∈ l →
    (l.foldl (fun m e => m.insert e.1 e.2) m).get? k = some v
  | [], _, _, h => absurd h List.not_mem_nil
  | e :: l, m, hnodup, h => by
    rw [List.map_cons, List.nodup_cons] at hnodup
    rw [List.foldl_cons]
    rcases List.mem_cons.mp h with rfl | h
    · rw [get?_foldl_insert_outside l _ hnodup.1, Map.get?_insert, if_pos rfl]
    · exact get?_foldl_insert_inside l _ hnodup.2 h

theorem reg_recalled_inside {l : Map Nat} {o : Obj} {v : Nat} (hnodup : (l.map Prod.fst).Nodup) (h : (o.key, v) ∈ l) :
    (b.recalled l).reg o = v := by
  unfold reg recalled
  rw [get?_foldl_insert_inside l _ hnodup h]
  rfl

theorem reg_recalled_outside {l : Map Nat} {o : Obj} (h : o.key ∉ l.map Prod.fst) : (b.recalled l).reg o = b.reg o := by
  unfold reg recalled
  rw [get?_foldl_insert_outside l _ h]

/-- A line boundary puts back, of the values that the head kept, those of the registers that stood before it, and leaves the others as kept. -/
theorem reg_lineBoundary {h : HeadId} {kept stored : Map Nat} (hkept : b.recentNow h = kept) (hstored : b.present kept = stored)
    (hnodup : (stored.map Prod.fst).Nodup) {tE : Time} {common : Option Time} {idle : Bool} {seq extra : Nat} {line : Option Int} :
    (∀ (o : Obj) (v : Nat), (o.key, v) ∈ stored → (b.lineBoundary h tE common idle seq extra line).reg o = v) ∧
    (∀ (o : Obj) (v : Nat), Unheaded o → o.key ≠ Obj.deviceLineRateCap.key → b.heads[h].lines = [] → (kept.map Prod.fst).Nodup →
      (o.key, v) ∈ kept → o.key ∉ stored.map Prod.fst → (b.lineBoundary h tE common idle seq extra line).reg o = v) := by
  unfold lineBoundary
  rw [hkept]
  dsimp only
  rw [hstored]
  refine ⟨fun o v ho => reg_recalled_inside hnodup ho, fun o v hy hcap hlines hnodup' hin hout => ?_⟩
  have hlines' : (b.recalled kept).heads[h].lines = [] := hlines
  rw [reg_recalled_outside hout]
  exact (SameReg.lineBind (SameReg.refl o _) hy hcap hlines').trans (reg_recalled_inside hnodup' hin)

/-- A head that crosses the position it stood before. -/
theorem headCrossing_crosses {k flags : Nat} {c : Time} {h : HeadId} (hsource : b.reg (Obj.headTriggerSource h) = 4)
    (hrun : b.heads[h].state = .running) : k < (b.headCrossing k c flags h).heads[h].crossIndex := by
  unfold headCrossing
  rw [if_neg (by rw [hsource, hrun]; decide)]
  extract_lets d at_ e
  have hd : d.heads[h] = { b.heads[h] with crossIndex := max b.heads[h].crossIndex (k + 1) } := heads_modHead_same ..
  have hcross : k < d.heads[h].crossIndex := by
    rw [hd]
    exact Nat.lt_of_lt_of_le (Nat.lt_succ_self k) (Nat.le_max_right ..)
  have he : e.heads[h] = d.heads[h] := ((Within.refl Nothing d).bump.raise).same_heads h
  clear_value d
  split
  · rw [heads_modHead_same]
    exact hcross
  split
  · rw [he]
    exact hcross
  · rw [heads_modHead_same, he]
    exact hcross

theorem headCrossing_idle {k flags : Nat} {c : Time} {h : HeadId} (hsource : b.reg (Obj.headTriggerSource h) ≠ 4) :
    b.headCrossing k c flags h = b := if_pos (.inl hsource)

/-- The first trigger of a run as it is counted, before its line boundary. -/
def firstCounted (h : HeadId) (arrival : Time) (b : Block) : Block :=
  ((b.modHead h fun x => { x with acceptedRun := x.acceptedRun + 1, lastTrigger := some arrival, gapRaised := false }).bump
    (Obj.headTriggerAccepted h)).raise (headSource h 0)

theorem acceptLine_eq_lineBoundary (h : HeadId) (k extra : Nat) (arrival tE : Time) (b : Block) : b.acceptLine h (some k) extra arrival tE none =
    (b.firstCounted h arrival).lineBoundary h tE none false (k % 2 ^ 48) extra none := rfl

/-- The first line of a run that a crossing fires sets what its line boundary sets. -/
theorem encoderTrigger_first {h : HeadId} {k flags : Nat} (hrun : b.heads[h].state = .running) (hcount : b.countReached h = false)
    (hlast : b.heads[h].lastTrigger = none) (hheld : b.heads[h].held = false) (hnext : b.heads[h].nextIndex ≤ k) :
    ∃ tE seq extra, ∀ o : Obj, (b.encoderTrigger h .alone k flags).reg o =
      ((b.used.firstCounted h b.now).lineBoundary h tE none false seq extra none).reg o := by
  unfold encoderTrigger
  extract_lets tE
  have hgo : ¬ (b.heads[h].held || decide (k < b.heads[h].nextIndex)) = true := by
    rw [hheld, decide_eq_false (Nat.not_lt.mpr hnext)]
    decide
  have htrigger (extra : Nat) : b.used.trigger h (some k) false extra b.now tE none = b.used.acceptLine h (some k) extra b.now tE none := by
    have hfree : ¬ (b.used.heads[h].state ≠ .running ∨ b.used.countReached h = true) := by
      rintro (hstate | hreached)
      · exact hstate hrun
      · exact Bool.false_ne_true (hcount.symm.trans hreached)
    have hsince : b.used.sinceLast h b.now = none := congrArg (Option.map _) hlast
    unfold trigger
    rw [if_neg hfree, hsince]
  rw [if_neg hgo]
  refine ⟨tE, k % 2 ^ 48, flags ||| b.used.lateFlag h k, fun o => ?_⟩
  unfold indexedTrigger triggerMeet lateSettled
  rw [modHead_reg, modHead_reg, modHead_reg]
  dsimp only
  rw [htrigger, acceptLine_eq_lineBoundary]

/-- A running head 1 of source 4 passes a position that the source broadcasts, where head 0 is of another source. -/
theorem receiveCrossing_passes {k flags : Nat} {c : Time} (hother : b.reg (Obj.headTriggerSource (0 : HeadId)) ≠ 4)
    (hsource : b.reg (Obj.headTriggerSource (1 : HeadId)) = 4) (hrun : b.heads[(1 : HeadId)].state = .running) :
    k < (b.receiveCrossing k c flags).heads[(1 : HeadId)].crossIndex := by
  have hall : b.receiveCrossing k c flags =
      (((b.headCrossing k c flags 0).headCrossing k c flags 1).headCrossing k c flags 2).headCrossing k c flags 3 := rfl
  have w (g : HeadId) (e : Block) : Within (OneHead g) e (e.headCrossing k c flags g) := (Within.refl _ e).headCrossing rfl
  rw [hall, (w 3 _).heads 1 (by unfold OneHead; decide), (w 2 _).heads 1 (by unfold OneHead; decide), headCrossing_idle hother]
  exact headCrossing_crosses hsource hrun

theorem localCrossing_idle {a : AxisId} {m : Meet} {h : HeadId} (hsource : b.reg (Obj.headTriggerSource h) ≠ 3) : b.localCrossing a m h = b :=
  if_pos (.inl hsource)

end Sys2Proof.Machine.Block

namespace Sys2Proof
open Machine Machine.Block

/-- What head 0 keeps of its present HEAD cycle: the number of the pier, which no register holds, and the settings that the crossing reads
afterwards, which the line boundary puts back. -/
def strayKept : Map Nat := [(Obj.ringPierNumber.key, 5), ((Obj.axisSourcePier 0).key, 5), ((Obj.axisBroadcast 0).key, 1),
  ((Obj.axisKeystoneEnable 0).key, 0), ((Obj.axisKeystoneEnable 1).key, 0), ((Obj.headTriggerSource 0).key, 3),
  ((Obj.headTriggerSource 1).key, 4), ((Obj.headTriggerSource 2).key, 0), ((Obj.headTriggerSource 3).key, 0),
  ((Obj.headTriggerOrigin 1).key, 0), ((Obj.headTriggerPitch 1).key, 256), ((Obj.headTriggerDirection 1).key, 1)]

/-- The same without the number of the pier. -/
def strayStored : Map Nat := strayKept.tail

/-- Head 0 of source 3 and head 1 of source 4 run on axis 0, whose edge passes a position of both; the pier has no number. -/
def strayNumber : State where
  b := ((((((State.reset.b.recalled strayStored).setReg Obj.deviceMode 1).setReg (Obj.axisPositionValid 0) 1).setReg
    (Obj.axisEncoderEnable 0) 1).modHead 0 fun x => { x with state := .running, recentAt := some 0, recent := strayKept }).modHead 1
      fun x => { x with state := .running }).modAxis 0 fun x => { x with count := 256, edges := [⟨0, 256, 1⟩] }
  pending := []

namespace Machine.Block

/-- A pier whose head 0 keeps a number of the pier that no register holds, as an edge of axis 0 is counted. -/
structure Stray (c : Block) : Prop where
  scan : c.scan = true
  valid : c.isSet (Obj.axisPositionValid 0) = true
  encoder : c.isSet (Obj.axisEncoderEnable 0) = true
  active : c.activeAxis = none
  own : c.ownAxis = none
  source : c.reg (Obj.headTriggerSource 0) = 3
  axis : c.headAxis 0 = 0
  others : ∀ z : HeadId, z ≠ 0 → c.reg (Obj.headTriggerSource z) ≠ 3
  grid : c.headGrid 0 = ⟨0, 256, 1⟩
  room : c.countReached 0 = false
  running : c.heads[(0 : HeadId)].state = .running
  cross : c.heads[(0 : HeadId)].crossIndex = 0
  next : c.heads[(0 : HeadId)].nextIndex = 0
  held : c.heads[(0 : HeadId)].held = false
  last : c.heads[(0 : HeadId)].lastTrigger = none
  lines : c.heads[(0 : HeadId)].lines = []
  running1 : c.heads[(1 : HeadId)].state = .running
  cross1 : c.heads[(1 : HeadId)].crossIndex = 0
  before : c.axes[(0 : AxisId)].prevCount = 0
  count : c.axes[(0 : AxisId)].count = 256
  kept : (c.used.firstCounted 0 c.now).recentNow 0 = strayKept
  stored : (c.used.firstCounted 0 c.now).present strayKept = strayStored

theorem reach_before : (Grid.mk 0 256 1).reach 0 = 0 := by decide

theorem reach_after : (Grid.mk 0 256 1).reach 256 = 1 := by decide

namespace Stray
variable {c : Block}

theorem crossed (hc : Stray c) : ∃ flags, c.localCrossing 0 .alone 0 = c.encoderTrigger 0 .alone 1 flags := by
  unfold localCrossing
  extract_lets g r0 r1 next
  have hr0 : r0 = 0 := by unfold r0 g; rw [hc.grid, hc.before, reach_before]
  have hr1 : r1 = 1 := by unfold r1 g; rw [hc.grid, hc.count, reach_after]
  have hnext : next = 0 := by unfold next; rw [hc.cross]; rfl
  rw [hr0, hr1, hnext]
  refine ⟨_, if_neg ?_⟩
  rw [show c.reg (Obj.headTriggerSource (0 : HeadId)) = 3 from hc.source, hc.axis, hc.running, hc.active]
  decide

/-- The registers that the crossing goes on to read, after head 0's line boundary. -/
theorem regs (hc : Stray c) : (∀ (o : Obj) (v : Nat), (o.key, v) ∈ strayStored → (c.localCrossing 0 .alone 0).reg o = v) ∧
    (c.localCrossing 0 .alone 0).reg Obj.ringPierNumber = 5 := by
  obtain ⟨flags, heq⟩ := hc.crossed
  obtain ⟨tE, seq, extra, hreg⟩ := encoderTrigger_first (flags := flags) hc.running hc.room hc.last hc.held (hc.next ▸ Nat.zero_le 1)
  obtain ⟨hstored, hkept⟩ := reg_lineBoundary (tE := tE) (common := none) (idle := false) (seq := seq) (extra := extra) (line := none)
    hc.kept hc.stored (by decide)
  have hnone : (c.used.firstCounted 0 c.now).heads[(0 : HeadId)].lines = [] := by
    have hhead : (c.used.firstCounted 0 c.now).heads[(0 : HeadId)] = _ := ((Within.refl Nothing _).bump.raise.same_heads 0).trans (heads_modHead_same ..)
    rw [hhead]
    exact hc.lines
  rw [heq]
  refine ⟨fun o v ho => (hreg o).trans (hstored o v ho), (hreg _).trans (hkept _ 5 ⟨by decide, by decide⟩ (by decide) hnone (by decide)
    (by decide) (by decide))⟩

/-- The pier has become the owner of axis 0, without a page there. -/
theorem owner (hc : Stray c) : (c.localCrossing 0 .alone 0).ownAxis = some 0 ∧ (c.localCrossing 0 .alone 0).activeAxis = none := by
  obtain ⟨hstored, hnumber⟩ := hc.regs
  generalize c.localCrossing 0 .alone 0 = d at hstored hnumber ⊢
  have hown : d.ownAxis = some 0 := by
    unfold ownAxis
    rw [hnumber, hstored (Obj.axisSourcePier 0) 5 (by decide), if_neg (by decide)]
    refine List.find?_cons_of_pos ?_
    show d.isSet (Obj.axisBroadcast (0 : AxisId)) = true
    rw [isSet, hstored (Obj.axisBroadcast (0 : AxisId)) 1 (by decide)]
    decide
  have hpage : d.pageAxis = none := by
    refine List.find?_eq_none.mpr fun a _ => ?_
    have hkey : ((Obj.axisKeystoneEnable a).key, 0) ∈ strayStored := by revert a; decide
    rw [isSet, hstored _ 0 hkey]
    decide
  refine ⟨hown, ?_⟩
  unfold activeAxis
  rw [hpage]

/-- What the crossing does beyond head 0 is the crossing of the position source. -/
theorem crossing (hc : Stray c) : c.encoderCrossing 0 .alone .alone = (c.localCrossing 0 .alone 0).freeCrossing 0 := by
  obtain ⟨hstored, -⟩ := hc.regs
  obtain ⟨hown, hnone⟩ := hc.owner
  generalize hd : c.localCrossing 0 .alone 0 = d at hstored hown hnone ⊢
  have hidle (z : HeadId) (v : Nat) (hv : v ≠ 3) (hin : ((Obj.headTriggerSource z).key, v) ∈ strayStored) : d.localCrossing 0 .alone z = d :=
    localCrossing_idle (by rw [hstored _ v hin]; exact hv)
  have hfold : (List.finRange 4).foldl (fun b h => b.localCrossing 0 .alone h) c = d := by
    rw [show List.finRange 4 = [0, 1, 2, 3] from rfl]
    simp only [List.foldl_cons, List.foldl_nil]
    rw [hd, hidle 1 4 (by decide) (by decide), hidle 2 0 (by decide) (by decide), hidle 3 0 (by decide) (by decide)]
  have hgo : ¬ (!c.scan ∨ !c.isSet (Obj.axisPositionValid (0 : AxisId)) ∨ !c.isSet (Obj.axisEncoderEnable (0 : AxisId))) := by
    rw [hc.scan, show c.isSet (Obj.axisPositionValid (0 : AxisId)) = true from hc.valid,
      show c.isSet (Obj.axisEncoderEnable (0 : AxisId)) = true from hc.encoder]
    decide
  unfold encoderCrossing withSeam
  rw [if_neg hgo, hc.active]
  dsimp only
  have hmet : (if CrossMeet.alone = CrossMeet.fault then c else (List.finRange 4).foldl (fun b h => b.localCrossing 0 .alone h) c) = d :=
    (if_neg (by decide)).trans hfold
  rw [hmet, hnone, hown]
  exact (if_neg (by decide)).trans (if_pos ⟨rfl, by decide⟩)

/-- Head 1 has passed position 1 with it. -/
theorem passes (hc : Stray c) : 1 < ((c.localCrossing 0 .alone 0).freeCrossing 0).heads[(1 : HeadId)].crossIndex := by
  have hwithin : Within (OneHead 0) c (c.localCrossing 0 .alone 0) := (Within.refl _ c).localCrossing rfl
  obtain ⟨hstored, -⟩ := hc.regs
  generalize c.localCrossing 0 .alone 0 = d at hstored hwithin ⊢
  have hhead : d.heads[(1 : HeadId)] = c.heads[(1 : HeadId)] := hwithin.heads 1 (by unfold OneHead; decide)
  have haxis : d.axes[(0 : AxisId)] = c.axes[(0 : AxisId)] := hwithin.axes 0 nofun
  have hsource (z : HeadId) (v : Nat) (h : ((Obj.headTriggerSource z).key, v) ∈ strayStored) : d.reg (Obj.headTriggerSource z) = v :=
    hstored _ v h
  have hfind : (List.finRange 4).find? (fun (h : HeadId) => d.reg (Obj.headTriggerSource h) == 4 && d.heads[h].state == .running) = some 1 := by
    rw [show List.finRange 4 = [0, 1, 2, 3] from rfl, List.find?_cons_of_neg, List.find?_cons_of_pos]
    · rw [hsource 1 4 (by decide), hhead, hc.running1]
      decide
    · rw [hsource 0 3 (by decide)]
      simp
  have hgrid : d.headGrid 1 = ⟨0, 256, 1⟩ := by
    unfold headGrid direction regI
    rw [hstored (Obj.headTriggerOrigin (1 : HeadId)) 0 (by decide), hstored (Obj.headTriggerPitch (1 : HeadId)) 256 (by decide),
      hstored (Obj.headTriggerDirection (1 : HeadId)) 1 (by decide)]
    decide
  unfold freeCrossing
  rw [hfind]
  dsimp only
  rw [hgrid, haxis, hc.before, hc.count, hhead, hc.cross1, reach_before, reach_after, if_neg (by decide)]
  generalize he : d.broadcast _ _ = e
  have hregs (o : Obj) : e.reg o = d.reg o := by rw [← he]; rfl
  have hrun : e.heads[(1 : HeadId)].state = .running := by rw [← he]; exact (congrArg Head.state hhead).trans hc.running1
  exact receiveCrossing_passes (by rw [hregs, hsource 0 3 (by decide)]; decide) ((hregs _).trans (hsource 1 4 (by decide))) hrun

end Stray
end Machine.Block

theorem strayNumber_stray : Stray (strayNumber.b.at_ 0) := by
  constructor <;> decide +kernel

/-- Refutes O29: a line boundary puts in every value that its head kept of the present HEAD cycle, whatever object it is of, and puts back only
those of registers that stood before. Where head 0 kept a number of the pier that no register holds, the crossing makes the pier the owner of
the axis, and head 1 of source 4 takes the crossing too. -/
theorem not_crossingsFireLines : ¬ Obligations.CrossingsFireLines := by
  unfold Obligations.CrossingsFireLines
  intro hall
  have hc := strayNumber_stray
  have hends := hall 0 0 0 strayNumber
  dsimp only at hends
  generalize hb : strayNumber.b.at_ 0 = c at hc hends
  rw [hc.grid, hc.before, hc.count, hc.cross, hc.next, reach_before, reach_after] at hends
  obtain ⟨n, hexec, -, hlines⟩ := hends hc.scan hc.valid hc.encoder hc.active hc.own hc.others hc.source hc.axis hc.running (by decide) (by decide)
    (by decide) (by decide) hc.held hc.last hc.room
  obtain ⟨-, -, -, -, -, -, -, hsame⟩ := hlines
  have hrun : exec (.encoderCrossing 0 0 ⟨.alone, .alone⟩) strayNumber =
      .next { strayNumber with b := ((strayNumber.b.at_ 0).encoderCrossing 0 .alone .alone).finish } := rfl
  rw [hrun, hb, hc.crossing] at hexec
  have hn : n.b = ((c.localCrossing 0 .alone 0).freeCrossing 0).finish := by
    injection hexec with hstate
    rw [← hstate]
  have hhead := hsame 1 (by decide)
  rw [hn, finish_heads] at hhead
  have hmoved := hc.passes
  rw [hhead, hc.cross1] at hmoved
  exact absurd hmoved (by decide)

end Sys2Proof
